-- ==== Sys2Proof/Word.lean ====
section
/-! DEFINITION. The word types of the module: bytes, 32-bit words (R10, R11) and 80-bit accumulators. -/

namespace Sys2Proof

/-- One byte. -/
abbrev Byte := BitVec 8

/-- One 32-bit word. -/
abbrev Word := BitVec 32

/-- One 80-bit accumulator (R10, R67). -/
abbrev Acc80 := BitVec 80

/-- A byte string: an entry, a record, a frame payload. -/
abbrev Bytes := List Byte

end Sys2Proof
end

