-- ==== Sys2Proof/Syntax.lean ====
section
/-! DEFINITION. The commands of the block: one constructor of `Instr` per row of spec/opcode_table.json, with the
operand types they carry.  Operand types hold what the outside world supplies: the value of a register write, the
content of a message, the physical quantity a converter saw.  They hold nothing the module computes itself. -/

namespace Sys2Proof

/-! ### Lattice operations (R70) -/

/-- Where and when a tile operation issues: logical tile and issue cycle `t` of the frame (R70). -/
structure Issue where
  tile : Nat
  t : Nat
  deriving DecidableEq, Repr

/-- The special registers of R75. -/
inductive SpecialReg where
  | fph2 | fph5 | fph10 | fph100 | fph1000 | tick | fno | tsr
  deriving DecidableEq, Repr

/-- Two-operand ALU functions (R70: add, subtract, logic, shifts, compare, min, max). -/
inductive AluFn where
  | add | sub | and | or | xor | shl | shr | sar
  | cmpEq | cmpNe | cmpLt | cmpLe | cmpLtu | cmpLeu | min | max | minu | maxu
  deriving DecidableEq, Repr

/-- ALU-class operations; `d`, `a`, `b`, `c` are G register numbers.  `clearTsr` is the ALU write of ones of R75. -/
inductive AluOp where
  | bin (f : AluFn) (d a b : Nat)
  | not (d a : Nat)
  | select (d c a b : Nat)
  | move (d a : Nat)
  | imm (d : Nat) (v : Word)
  | special (d : Nat) (r : SpecialReg)
  | clearTsr (a : Nat)
  deriving DecidableEq, Repr

/-- SAT-class operations (R70).  `conv` converts Q with `n` fraction bits to Q with `m`. -/
inductive SatOp where
  | add (d a b : Nat)
  | sub (d a b : Nat)
  | shl (d a b : Nat)
  | neg (d a : Nat)
  | abs (d a : Nat)
  | conv (d a n m : Nat)
  deriving DecidableEq, Repr

/-- A data operand of a MEM operation: consecutive G registers from `g r`, or data SRAM from byte `a`. -/
inductive Loc where
  | g (r : Nat)
  | sram (a : Nat)
  deriving DecidableEq, Repr

/-- What an overload of a discrete output does (R258): it begins, the output reaches thermal shutdown, it ends. -/
inductive Overload where
  | limit | shutdown | ended
  deriving DecidableEq, Repr

/-- What an SRAM, bank or window read met (R72): nothing, a corrected single-bit error, an uncorrectable error. -/
inductive Ecc where
  | clean | corrected | uncorrectable
  deriving DecidableEq, Repr

/-- Mesh fields of a MEM operation: wait W, declared distance D, route bit (R80, R81). -/
structure Mesh where
  w : Nat
  d : Nat
  yx : Bool
  deriving DecidableEq, Repr

/-- Engine named by an ECALL (R88): a logical solver unit, or the loop engine. -/
inductive Engine where
  | solver (u : Nat)
  | loop
  deriving DecidableEq, Repr

/-- Transfer descriptors of R90; `addr` is the granule-aligned bank address of the data. -/
inductive XDesc where
  | fgIn (g addr : Nat)
  | fgOut (g addr : Nat)
  | dioIn (addr : Nat)
  | dioOut (addr : Nat)
  | canSnap (p m addr : Nat)
  | chainStat (p addr : Nat)
  deriving DecidableEq, Repr

/-- One tile operation, as a bundle slot of an image holds it (R70). -/
inductive TileOp where
  | alu (o : AluOp)
  | sat (o : SatOp)
  | mul (d a b n : Nat)
  | mac (acc a b : Nat)
  | accrd (d acc n : Nat)
  | div (d a b n : Nat)
  | sqrt (d a n : Nat)
  | br (cond target : Nat)
  | loopn (count first last : Nat)
  | wait (n : Nat)
  | endf
  | lld (d addr size : Nat)
  | lst (s addr size : Nat)
  | recv (entry off size : Nat) (dst : Loc)
  | sld (m : Mesh) (addr size : Nat) (dst : Loc)
  | sst (m : Mesh) (addr size : Nat) (src : Loc)
  | send (m : Mesh) (dest entry : Nat) (src : Loc)
  | rpoll (q addr : Nat)
  | renq (q addr d : Nat)
  | ecall (m : Mesh) (e : Engine) (desc : Nat)
  | xstart (m : Mesh) (x : XDesc)
  | dabs (m : Mesh) (addr : Nat)
  | dseal (m : Mesh)
  | fcm
  | undefined
  deriving DecidableEq, Repr

/-- The issue slots of a bundle (R67, R70). -/
inductive IssueSlot where
  | alu0 | alu1 | mac | mem
  deriving DecidableEq, Repr

/-! ### Timetable images (R103 to R117) -/

/-- A tile's CODE section with its DECL ENTRY and code range (R105); `bundles` start at bundle `first`. -/
structure TileCode where
  first : Nat
  last : Nat
  entry : Nat
  bundles : List (List (IssueSlot × TileOp))
  deriving DecidableEq, Repr

/-- One slot-plan record (R83). -/
structure SlotRec where
  tile : Nat
  bundle : Nat
  cycle : Nat
  w : Nat
  d : Nat
  yx : Bool
  dest : Nat
  kind : Nat
  deriving DecidableEq, Repr

/-- One RINGTAB entry (R105). -/
structure RingDecl where
  ring : Nat
  dir : Nat
  owner : Nat
  depth : Nat
  deriving DecidableEq, Repr

/-- The DECL section (R105). -/
structure Decl where
  period : Nat
  subframes : Nat
  inEnd : Nat
  execStart : Nat
  outStart : Nat
  outEnd : Nat
  exStart : Nat
  cutOver : Nat
  marker : Nat
  deriving DecidableEq, Repr

/-- The SHARED section (R105). -/
structure Shared where
  pair : Nat
  exAddr : Nat
  exSize : Nat
  retAddr : Nat
  retSize : Nat
  retBound : Nat
  deriving DecidableEq, Repr

/-- A LIMITDEF entry (R112); `min` and `max` are signed. -/
structure LimitDef where
  addr : Nat
  qm : Nat
  min : Int
  max : Int
  deriving DecidableEq, Repr

/-- A CHANDEF entry (R116): KIND 1 universal, 2 discrete input, 3 discrete output. -/
structure ChanDef where
  kind : Nat
  logical : Nat
  physical : Nat
  modeClass : Nat
  deriving DecidableEq, Repr

/-- A PARAMSET item (R112): AREA, OFFSET in granules, and the granules' bytes. -/
structure ParamItem where
  area : Nat
  offset : Nat
  bytes : Bytes
  deriving DecidableEq, Repr

/-- A signer block (R398) as its checks find it: whether MAGIC, FORMAT, KIND and the ENCRYPTED flag are in order, its KIND, the owner key it
stands under (KIND 2 and 3), the fingerprint of a delegated key (KIND 3), whether SIGNATURE and DELEGATE_SIG verify under those keys, TARGET,
and for an encrypted image the FIK under which its content key unwraps and every tag verifies. -/
structure Signer where
  formOk : Bool
  kind : Nat
  key : Nat
  delegate : Nat
  sigOk : Bool
  target : Nat
  fik : Option Nat
  deriving DecidableEq, Repr

/-- An image of a firmware part (R398, R453): its two signer blocks, VER, SHA-384, length, for NODE its bytes, for CONFIG the retained
configuration as (key of a register field, value) pairs. -/
structure FwImage where
  vendor : Signer
  outer : Signer
  ver : Nat
  hash : Nat
  len : Nat
  body : Bytes
  config : List (Nat × Nat)
  deriving DecidableEq, Repr

/-- An entry of the section table (R104): TYPE, INDEX, OFFSET and LENGTH. -/
structure Sect where
  type : Nat
  index : Nat
  off : Nat
  len : Nat
  deriving DecidableEq, Repr

/-- A timetable image, base or overlay, with its sections decoded as R103 to R117 lay them out.  `wellFormed` says that
every length and field of the byte layout was as R103 and R104 require; `hashesOk` that every HASH of the
section table agrees; `sects` is the section table (R104) and `flags`, `toolId`, `toolVer` and `buildSec` are the header's fields of those names;
`signer` is its signer block (R107, R398); `digestSelf`
is the LAYOUT_DIGEST computed over the image's own sections, `layoutDigest` the one its header carries (R106). -/
structure Image where
  wellFormed : Bool
  hashesOk : Bool
  flags : Nat
  toolId : Nat
  toolVer : Nat
  buildSec : Nat
  sects : List Sect
  signer : Signer
  kind : Nat
  id : Nat
  ver : Nat
  baseId : Nat
  baseVerMin : Nat
  baseVerMax : Nat
  layoutDigest : Nat
  digestSelf : Nat
  totalLen : Nat
  minHwRev : Nat
  decl : Decl
  shared : Shared
  bankmap : List (Nat × Nat)
  rings : List RingDecl
  params : List (Nat × Nat × Nat)
  limits : List LimitDef
  chans : List ChanDef
  mirrors : List (List (Nat × Nat × Nat))
  code : List TileCode
  data : List (Nat × Bytes)
  bankInit : List (Nat × Bytes)
  engine : List (Nat × Bytes)
  slotPlan : List SlotRec
  reloc : List (List Nat)
  paramSet : List ParamItem
  limitSet : List (Nat × Int)
  mapSet : List (Nat × Nat × Nat)
  deriving DecidableEq, Repr

/-! ### Command packets (R376 to R384) -/

/-- The access levels of R382. -/
inductive Level where
  | observer | operator | engineer | owner | metrology
  deriving DecidableEq, Repr

/-- The carrier of a session (R372): TCP on a plant port, TCP on the service port, a CAN FD port. -/
inductive Carrier where
  | plant (port : Nat)
  | service
  | can (port : Nat)
  deriving DecidableEq, Repr

/-- A request packet (R376, R377): its session and TAG; `badPid` is 0 when header and items are well formed, else one
more than the PID of the first malformed, unknown, repeated or missing item. -/
structure Req where
  session : Nat
  tag : Nat
  badPid : Nat
  deriving DecidableEq, Repr

/-- A *time* parameter (R377): an FRC or a TOD. -/
inductive Time where
  | frc (n : Nat)
  | tod (sec ns frac : Nat)
  deriving DecidableEq, Repr

/-! ### Field channels (R205 to R247) -/

/-- What a converter and its group saw in a conversion window (R211): the time-weighted mean and the value at the end of the
window, as the converter delivers them corrected with its own coefficients (R235), the EX lead, the terminal voltage, the cold-junction
sensors and the board sensor, in units of 10⁻⁹ V, mA, Ω or °C; whether an output or loop current limit acted or an IOUT could not
reach its current, whether a VOUT was at its compliance limit on the loop rail (R227), and whether the bitstream was stuck or a DAC
readback failed (R217). -/
structure Meas where
  mean : Int
  atEnd : Int
  lead : Int
  termV : Int
  t0 : Int
  t7 : Int
  board : Int
  limit : Bool
  rail : Bool
  stuck : Bool
  deriving DecidableEq, Repr

/-- A HART response or burst message (R244 to R247): polling address, command, communication-error byte, device-status
byte, data. -/
structure HartMsg where
  address : Nat
  command : Nat
  comm : Nat
  status : Nat
  data : Bytes
  deriving DecidableEq, Repr

/-! ### Cell chains (R264 to R292) -/

/-- A DATA frame as it ends at a port (R266): the end it arrived at, its POS, its fields as raw counts, and whether its CRC is
good. -/
structure ChainData where
  far : Bool
  pos : Nat
  seq : Nat
  nstat : Nat
  qflag : Nat
  cells : List Nat
  temps : List Nat
  crcOk : Bool
  deriving DecidableEq, Repr

/-- A response other than DATA (R266): the end it arrived at, its code, the node's count from that end, its payload, and RT for
an ECHO_R (R270). -/
structure ChainResp where
  far : Bool
  code : Nat
  pos : Nat
  payload : Bytes
  rt : Nat
  deriving DecidableEq, Repr

/-- A chain item forwarded by the ACTIVE unit (R289): a slot buffer of a port's node, a break, a close, or an ingest slot. -/
inductive ChainItem where
  | node (p h : Nat) (data : Bytes)
  | brk (p a b : Nat)
  | close (p q : Nat)
  | ingest (slot : Nat) (data : Bytes)
  deriving DecidableEq, Repr

/-- An ingest message (R291). -/
structure IngestMsg where
  source : Nat
  sport : Nat
  first : Nat
  sweep : Nat
  strobeNs : Nat
  strobeSec : Nat
  delay : Nat
  n : Nat
  breakA : Nat
  breakB : Nat
  entries : List Bytes
  deriving DecidableEq, Repr

/-! ### CAN FD (R294 to R316) -/

/-- A frame on a CAN bus as a port meets it (R299): identifier, format bits, DLC, data, the tb since its start-of-frame edge
(R298), and whether an FD frame's res bit was recessive (R311). -/
structure CanFrame where
  id : Nat
  ide : Bool
  rtr : Bool
  fdf : Bool
  brs : Bool
  esi : Bool
  dlc : Nat
  data : Bytes
  age : Nat
  res : Bool
  deriving DecidableEq, Repr

/-- How a transmission attempt ended (R308): acknowledged, arbitration lost, or stopped by an error. -/
inductive CanTxEnd where
  | ok | lost | error
  deriving DecidableEq, Repr

/-! ### Ethernet and network time (R320 to R339) -/

/-- A frame at a switch port (R320 to R331): addresses, 802.1Q tag (VID, PCP), EtherType, length with tag and FCS, whether it is a
PTP event message or a redundancy supervision frame, the sequence number of its PRP trailer or HSR tag, its MACsec association
number, packet number and whether its ICV is good, its payload. -/
structure EthFrame where
  dst : Nat
  src : Nat
  tag : Option (Nat × Nat)
  etype : Nat
  len : Nat
  ptpEvent : Bool
  supervision : Bool
  redSeq : Option Nat
  an : Option Nat
  pn : Nat
  icvOk : Bool
  payload : Bytes
  deriving DecidableEq, Repr

/-- A fabric frame (R328) past the checks of the switch. -/
structure FabricFrame where
  version : Nat
  kind : Nat
  src : Nat
  dst : Nat
  route : Nat
  seq : Nat
  entries : List Bytes
  deriving DecidableEq, Repr

/-- A received PTP message (R333 to R336); times in units of 2⁻¹⁶ ns, `raw` the uncorrected ingress stamp, `corr` the
correctionField.  `announce` carries the port state IEEE 1588's best master clock algorithm answers for the port and the
grandmaster's clockClass. -/
inductive PtpMsg where
  | announce (pstate clockClass : Nat)
  | sync (raw corr : Int) (origin : Option Int)
  | followUp (origin corr : Int)
  | delayResp (t4 corr : Int)
  | delayReq (raw : Int)
  | pdelayReq (raw : Int)
  | pdelayResp (raw corr : Int) (t2 : Option Int)
  | pdelayRespFollowUp (t3 corr : Int)
  deriving DecidableEq, Repr

/-- A PTP message that leaves (R335): `raw` is its uncorrected egress stamp; a forwarded Sync carries the stamp of its
ingress. -/
inductive PtpOut where
  | announce
  | sync (raw : Int)
  | delayReq (raw : Int)
  | delayResp
  | pdelayReq (raw : Int)
  | pdelayResp (raw : Int)
  | forwardSync (rawIn : Int) (portIn : Nat) (raw : Int)
  deriving DecidableEq, Repr

/-! ### Redundant pairs (R341 to R371) -/

/-- A digest message (R354) with the receiver's ingress stamp `rx`; stamps in 1/32 tb. -/
structure DigestMsg where
  unit : Nat
  role : Nat
  flags : Nat
  frameNo : Nat
  digest : Nat
  tx : Nat
  rxPrev : Nat
  nextTick : Nat
  todSec : Nat
  todNs : Nat
  todFrac : Nat
  imgId : Nat
  imgVer : Nat
  ckpt : List Nat
  rx : Nat
  deriving DecidableEq, Repr

/-- An exchange message (R346): `ok` when a complete, valid copy has arrived; the switch record as VALID, mode word and hash
(R123). -/
structure ExchMsg where
  ok : Bool
  unit : Nat
  flags : Nat
  frameNo : Nat
  tick : Nat
  handoverFrame : Nat
  can : List (Nat × Nat)
  intake : List Nat
  switch : Option (Nat × Nat)
  region : Bytes
  deriving DecidableEq, Repr

/-- What a joining unit learns of its partner over the management path (R357): whether it already has a partner, its base's ID
and VER, its slots' IDs and VERs, P, the exchange region's address and size, x, whether its image is pair-capable, the hash of
its retained configuration, and whether a handover, transfer or test is in progress. -/
structure PartnerInfo where
  hasPartner : Bool
  baseId : Nat
  baseVer : Nat
  slots : List (Nat × Nat)
  period : Nat
  exAddr : Nat
  exSize : Nat
  exStart : Nat
  capable : Bool
  cfgHash : Nat
  busy : Bool
  deriving DecidableEq, Repr

/-- What the final round of a state transfer carries beside granules (R364): tile data SRAM of the frame's DABS items, pulse
counts, mode word, frame number, pair tick, and per port CAN SEQ and sweep number. -/
structure XferFinal where
  granules : List (Nat × Bytes)
  dabs : List (Nat × Nat × Bytes)
  counts : List Nat
  active : Nat
  mirror : Nat
  frameNo : Nat
  pairTick : Nat
  canSeq : List Nat
  sweeps : List Nat
  deriving DecidableEq, Repr

/-! ### Identity and trust (R393 to R409) -/

/-- What a credential's OU names (R396): a session level, PEER, or neither. -/
inductive CredOu where
  | level (l : Level)
  | peer
  | other
  deriving DecidableEq, Repr

/-- A certificate presented in a handshake (R394, R396): its public key, the key it is signed with, whether the signature verifies,
its fingerprint, its OU, its validity period in TOD seconds, its serialNumber. -/
structure Cred where
  key : Nat
  signer : Nat
  sigOk : Bool
  fingerprint : Nat
  ou : CredOu
  notBefore : Nat
  notAfter : Nat
  serial : Nat
  deriving DecidableEq, Repr

/-- A TLS handshake (R373, R402): carrier, source address, whether the protocol itself succeeds, the certificate presented; `peer` for a
device-to-device session on port 7472 across that switch port. -/
structure Handshake where
  carrier : Carrier
  source : Nat
  tlsOk : Bool
  cred : Option Cred
  peer : Option Nat
  deriving DecidableEq, Repr

/-! ### Start-up and updates (R453 to R471) -/

/-- What the bytes of an image transfer are: a timetable image, a firmware part's image, or neither. -/
inductive Content where
  | image (m : Image)
  | part (f : FwImage)
  | unreadable
  deriving DecidableEq, Repr

/-- What a boot stage finds: whether the PUF root is rebuilt and whether more than 25 % of its code was corrected (R391), whether the health record has a valid copy (R491), whether TP1 is below −25 °C (R510), the flash banks
whose contents fail as (part index, bank), 100 + k standing for timetable slot k, and what the partner answers (R458). -/
structure BootIn where
  puf : Bool
  drift : Bool
  record : Bool
  cold : Bool
  bad : List (Nat × Nat)
  partner : PartnerInfo
  deriving DecidableEq, Repr

/-- A forwarding hop (R466, R467): at the originator, a plant confirms; at a module of the ring, the image of a part arrives from an
originating plant, with the plants still to serve; at a new partner module, the partner's parts as (index, image), base and slots arrive; at
its partner, the new module's active VER per part. -/
inductive HopIn where
  | confirm (plant : Nat)
  | arrive (part : Nat) (f : FwImage) (origin : Nat) (rest : List Nat)
  | replacement (parts : List (Nat × FwImage)) (base : Option Image) (slots : List (Option Image))
  | askFrom (vers : List Nat)
  deriving DecidableEq, Repr

/-- A message from the partner's management core (R362, R365, R381, R464): revert order, join request, entry into RUN of a mixed joiner,
prepare, the report of a preparation (hash, or reason), cancel, schedule of a part with the time in the receiver's FRC, VER and hash, its confirmation, the
restart of the partner-link controllers. -/
inductive PathMsg where
  | revert
  | joinRequest (mixed : Bool)
  | joinInfo (q : PartnerInfo)
  | entering
  | prepare (active mirror : Nat)
  | prepared (hash : Option Nat) (reason : Nat)
  | cancel
  | schedule (part at_ ver hash : Nat)
  | scheduled (part : Nat) (ok : Bool)
  | restartLinks
  deriving DecidableEq, Repr

/-! ### Metrology compartment (R411 to R437) -/

/-- What a part of a metering interval measured (R411, R415): its length in µs; per AC system active and reactive energy in
10⁻⁹ W s and 10⁻⁹ var s at the secondary terminals, signed; per DC system divider voltage × shunt voltage in 10⁻⁹ V × V s and shunt
voltage in 10⁻⁹ V s, signed; pulses per input. -/
structure MeterIn where
  us : Nat
  ac : List (Int × Int)
  dc : List (Int × Int)
  pulses : List Nat
  deriving DecidableEq, Repr

/-- The momentary values of an AC system at its secondary terminals (R422): phase voltages in µV, phase currents in µA, P and Q in
mW and mvar, frequency in mHz. -/
structure AcNow where
  v : List Nat
  i : List Nat
  p : Int
  q : Int
  f : Nat
  deriving DecidableEq, Repr

/-- The momentary values of the measuring systems; per DC system divider voltage in µV and shunt voltage in nV. -/
structure MeterNow where
  ac : List AcNow
  dc : List (Int × Int)
  deriving DecidableEq, Repr

/-- The commands of the block, one per row of spec/opcode_table.json, in the table's order. -/
inductive Instr where
  | powerOnReset
  | moduleReset
  | latticeReset
  | bootStageComplete (x : BootIn)
  | powerFailWarning (part : MeterIn)
  | powerFailWarningClear
  | latticeStop
  | brownoutRestart
  | feedOutOfRange (n mv : Nat)
  | feedOvervoltage (n : Nat)
  | feedReconnect (n mv : Nat)
  | unplannedOscSwitch
  | plannedOscSwitch
  | refSelWrite (v : Nat)
  | externalLock
  | externalRefLost
  | snap
  | frcLoRead
  | wideCounterLowRead (addr : Nat)
  | tbIncWrite (frac : Bool) (v : Nat)
  | todsetNow
  | todsetArm
  | todStepApply
  | frameTick
  | framePeriodWrite (w : Nat)
  | lgConfigWrite (g word v : Nat)
  | lgMemberWrite (m v : Nat)
  | lgOneShotArm (g : Nat)
  | lgFire (g : Nat) (caps : List (Nat × Meas))
  | ppsInEdge (sub : Nat)
  | ppsOutPulse
  | aluOp (at_ : Issue) (o : AluOp)
  | satOp (at_ : Issue) (o : SatOp)
  | mul (at_ : Issue) (d a b n : Nat)
  | mac (at_ : Issue) (acc a b : Nat)
  | accrd (at_ : Issue) (d acc n : Nat)
  | div (at_ : Issue) (d a b n : Nat)
  | sqrt (at_ : Issue) (d a n : Nat)
  | br (at_ : Issue) (cond target : Nat)
  | loopn (at_ : Issue) (count first last : Nat)
  | wait (at_ : Issue) (n : Nat)
  | endf (at_ : Issue)
  | lld (at_ : Issue) (d addr size : Nat) (ecc : Ecc)
  | lst (at_ : Issue) (src addr size : Nat)
  | recv (at_ : Issue) (entry off size : Nat) (dst : Loc) (ecc : Ecc)
  | sld (at_ : Issue) (m : Mesh) (addr size : Nat) (dst : Loc) (ecc : Ecc)
  | sharedLoadResponse
  | sst (at_ : Issue) (m : Mesh) (addr size : Nat) (src : Loc) (ecc : Ecc)
  | send (at_ : Issue) (m : Mesh) (dest entry : Nat) (src : Loc) (ecc : Ecc)
  | sendDelivery
  | rpoll (at_ : Issue) (q addr : Nat)
  | renq (at_ : Issue) (q addr d : Nat) (ecc : Ecc)
  | ecall (at_ : Issue) (m : Mesh) (e : Engine) (desc : Nat) (bad : List (Nat × Nat)) (cor : Nat) (mis : Bool)
  | engineCallComplete (e : Engine)
  | xstart (at_ : Issue) (m : Mesh) (x : XDesc) (ecc : List (Nat × Ecc))
  | transferComplete (ok : Bool)
  | dabs (at_ : Issue) (m : Mesh) (addr : Nat) (ecc : Ecc)
  | dseal (at_ : Issue) (m : Mesh)
  | digestSealComplete
  | fcm (at_ : Issue)
  | retentiveRecordCommit
  | retentiveFold
  | mgmtRingEnqueue (q : Nat) (entry : Bytes)
  | asyncAccessRetry (mailbox : Bool)
  | portbBankWrite (addr : Nat) (data : Bytes) (sub : Nat)
  | retentiveWriteThrough
  | digestSend (tx : Nat)
  | inputExchangeSend (ecc : List (Nat × Ecc))
  | exchangeMessageRx (m : ExchMsg)
  | exchangeCutover (ecc : List (Nat × Ecc))
  | ttAdmStart (slot placement : Nat)
  | ttAdmAbort
  | admissionComplete
  | ltRelocCheck (logical target : Nat)
  | placementCheckComplete
  | ltRelocCommit
  | tileRelocation (ecc : Ecc)
  | tileShadow (logical phys : Nat) (ecc : Ecc)
  | tileShadowCompare (phys : Nat)
  | ttModePrepare
  | modePrepareComplete
  | ttModeArm
  | ttModeCancel
  | modeDeltaWrites (j : Nat)
  | ttRunStart (kind : Nat)
  | runEntry
  | ttRunStop
  | stopTakesEffect
  | ttRunLrst
  | ttRetClear
  | lpWinWrite (v : Nat)
  | lpWinRead (sub : Nat)
  | svWinWrite (v : Nat)
  | svWinRead (sub : Nat)
  | svDmaStart
  | svDmaAbort
  | svDmaComplete (retries : Nat) (bad : Option Nat)
  | svRelocCommit
  | solverRelocation
  | conversionWindowEnd (ch : Nat) (m : Meas)
  | fieldControlFrame (g : Nat) (ok : Bool)
  | groupFallbackEntry (g : Nat)
  | groupResume (g : Nat)
  | safeStateLineAssert
  | groupSupplyFail (g : Nat)
  | fgApply (g : Nat)
  | fgApplyCancel (g : Nat)
  | fgApplyTakesEffect (g : Nat)
  | crossCheckVisit (g : Nat) (dev : Int) (refOff : Bool)
  | fgSpareStart (g terminal : Nat)
  | fgSpareCancel (g : Nat)
  | spareTakeover (g : Nat)
  | loopPowerSample (draw : List Nat)
  | chFlagsWrite (ch v : Nat)
  | hartPollDue (ch entry : Nat)
  | hartFrameStart (ch : Nat) (loopFree : Bool)
  | hartResponseRx (ch : Nat) (m : HartMsg)
  | hartResponseTimeout (ch : Nat)
  | hartRequestExpired (ch : Nat)
  | hartBurstRx (ch : Nat) (m : HartMsg)
  | diRefresh (volts : List Int) (check : Nat) (ok : Bool)
  | diInputStale
  | doImageFrame (ok : Bool)
  | doControlFrame (ok : Bool)
  | doBlockDeenergise
  | doBlockResume
  | doCurrentLimit (o : Nat) (ev : Overload)
  | doThermalRestart (o : Nat)
  | fieldSupplyLow (half : Nat) (low : Bool)
  | dioApply
  | dioApplyCancel
  | dioApplyTakesEffect
  | chApply (p : Nat)
  | chCancel (p : Nat)
  | chainApplyTakesEffect (p : Nat)
  | chDiscover (p : Nat)
  | chainDiscoveryStart (p : Nat)
  | discoveryComplete (p : Nat)
  | chWake (p : Nat)
  | chSleep (p : Nat)
  | chFaultClr (p : Nat)
  | quietSend (p : Nat) (far : Bool)
  | sampleStrobe (p : Nat)
  | readoutSend (p : Nat)
  | dataFrameRx (p : Nat) (d : ChainData)
  | chainRetrySend (p : Nat) (far : Bool) (first last : Nat)
  | chainBreak (p : Nat) (far : Bool)
  | sweepClose (p : Nat)
  | sweepPublish (p : Nat)
  | keep (p : Nat)
  | chainQueueSend (p : Nat)
  | chainResponseRx (p : Nat) (r : ChainResp)
  | faultLineChange (p current : Nat)
  | chainFaultTrip (p : Nat)
  | forwardedChainItemRx (item : ChainItem)
  | ingestMessageRx (m : IngestMsg)
  | ingestPublish
  | ingestSend (p : Nat)
  | chIngApply
  | chIngCancel
  | ingestApplyTakesEffect
  | nodeImageSend (p : Nat)
  | canFrameRx (p : Nat) (f : CanFrame)
  | canTxRecord (p : Nat) (rec : Option Bytes)
  | canTxStart (p loopDelay : Nat)
  | canTxComplete (p : Nat) (e : CanTxEnd)
  | canBusOff (p : Nat)
  | cfRecover (p : Nat) (flush : Bool)
  | canRecoveryComplete (p : Nat)
  | cfTxbAbort (p v : Nat)
  | cfApply (p : Nat)
  | cfCancel (p : Nat)
  | cfApplyTakesEffect (p : Nat)
  | canServiceSegmentRx (p : Nat) (data : Bytes)
  | canServiceGapTimeout (p : Nat)
  | ethFrameRx (p : Nat) (f : EthFrame)
  | ethFrameTx (p : Nat)
  | routeEntryDrain (q : Nat)
  | fabricFrameSend (entry : Nat)
  | fabricFrameRx (f : FabricFrame)
  | esRtApply
  | esRtCancel
  | routeTableSwap
  | prpSupervisionSend
  | macsecRekey (p : Nat)
  | macsecOldAssociationExpiry (p : Nat)
  | peerSessionKeyExpiry (p : Nat)
  | ptpMessageRx (p domain : Nat) (m : PtpMsg)
  | ptpMessageTx (p : Nat) (m : PtpOut)
  | ptpMasterLost
  | partnerHealthyChange (on : Bool)
  | partnerMarkPulse
  | partnerDriveChange (on : Bool)
  | partnerLinkChange (k : Nat) (up : Bool)
  | digestMessageRx (m : DigestMsg)
  | gatedRingMirrorRx (q : Nat) (entry : Bytes)
  | failoverCheck
  | partnerLinksLost
  | autojoin (q : PartnerInfo)
  | paCmdJoin (q : PartnerInfo)
  | paCmdLeave
  | paCmdHandover
  | paCmdCancel
  | handoverTakesEffect
  | pairRevert
  | standbyPromotion
  | stateTransferRound (gs : List (Nat × Bytes))
  | stateTransferFinal (x : XferFinal)
  | stateTransferTimeout
  | pairSelftestComplete (pass : Bool)
  | sessionHandshake (h : Handshake)
  | sessionIdleTimeout (session : Nat)
  | tlsKeyUpdate (session : Nat)
  | malformedHeader (session : Nat)
  | undefinedOpcode (r : Req) (op : Nat)
  | hello (r : Req) (version : Nat) (host : Bytes)
  | ping (r : Req)
  | status (r : Req)
  | subscribe (r : Req) (classes : Nat)
  | versions (r : Req)
  | bye (r : Req)
  | modeRead (r : Req)
  | modePrepare (r : Req) (mode : Nat)
  | modeArm (r : Req) (at_ : Time)
  | modeStatus (r : Req)
  | modeCancel (r : Req)
  | slotRename (r : Req) (slot : Nat) (name : List Nat)
  | slotClear (r : Req) (slot : Nat)
  | start (r : Req) (kind : Nat)
  | stop (r : Req)
  | lrst (r : Req)
  | runStatus (r : Req)
  | admitCmd (r : Req) (slot placement : Nat)
  | admitStatus (r : Req)
  | autorun (r : Req) (on : Nat)
  | retExport (r : Req)
  | retImport (r : Req) (offset : Nat) (data : Bytes)
  | retClear (r : Req)
  | ringPut (r : Req) (ring : Nat) (entries : Bytes)
  | ringGet (r : Req) (ring most : Nat)
  | dataRead (r : Req) (addr len : Nat)
  | xferBegin (r : Req) (target length hash : Nat)
  | xferChunk (r : Req) (offset : Nat) (data : Bytes)
  | xferEnd (r : Req) (content : Content)
  | xferAbort (r : Req)
  | updateSchedule (r : Req) (part : Nat) (at_ : Time)
  | updateActivate (r : Req) (part : Nat)
  | updateStatus (r : Req)
  | updateForward (r : Req) (part : Nat) (plants : List Nat)
  | bankSelect (r : Req) (part bank : Nat)
  | cfgRead (r : Req) (addr count : Nat)
  | cfgWrite (r : Req) (pairs : List (Nat × Nat))
  | cfgApply (r : Req) (block : Nat)
  | cfgCancel (r : Req) (block : Nat)
  | cfgSave (r : Req)
  | chanRead (r : Req) (channel : Nat)
  | netCfg (r : Req) (iface addr mask gw port : Nat)
  | trimSet (r : Req) (channel gain offset : Nat)
  | hartPass (r : Req) (channel address command : Nat) (data : Bytes)
  | hartRead (r : Req) (channel : Nat)
  | hartPollSet (r : Req) (channel : Nat) (list : List (Nat × Nat × Nat))
  | canRecover (r : Req) (port flush : Nat)
  | canSend (r : Req) (port : Nat) (rec : Bytes)
  | flagClear (r : Req) (addr mask : Nat)
  | timeRead (r : Req)
  | todSet (r : Req) (sec ns frac at_ : Nat)
  | incSet (r : Req) (ns frac : Nat)
  | servoCfg (r : Req) (mode restep : Nat)
  | lgArm (r : Req) (group : Nat) (at_ : Time)
  | refSelect (r : Req) (source : Nat)
  | pairStatus (r : Req)
  | join (r : Req) (q : PartnerInfo)
  | leave (r : Req)
  | handover (r : Req) (at_ : Nat)
  | pairCancel (r : Req)
  | pairCfg (r : Req) (cfg times mixed : Nat)
  | chainStatus (r : Req) (port : Nat)
  | chainPass (r : Req) (port pos code : Nat) (payload : Bytes)
  | chainDiscover (r : Req) (port : Nat)
  | chainWake (r : Req) (port : Nat)
  | chainSleep (r : Req) (port : Nat)
  | balSet (r : Req) (port pos mode : Nat) (targets : Bytes)
  | chainFaultClr (r : Req) (port : Nat)
  | slotRead (r : Req) (first count : Nat) (buffer : Option Nat)
  | nodeStatus (r : Req) (port pos : Nat)
  | metStatus (r : Req)
  | metRecords (r : Req) (from_ count : Nat)
  | metAudit (r : Req) (from_ count : Nat)
  | metCert (r : Req)
  | metAlarmAck (r : Req)
  | whoami (r : Req)
  | lockOpen (r : Req) (minutes : Nat)
  | lockClose (r : Req)
  | lockTimeout
  | fieldLock (r : Req) (engage : Nat)
  | reopenPw (r : Req) (password : Bytes) (minutes : Nat)
  | reopenExpiry (session : Nat)
  | challenge (r : Req) (minutes : Nat)
  | response (r : Req) (signature : Bytes)
  | pwSet (r : Req) (password : Bytes)
  | lockoutRead (r : Req)
  | lockoutReset (r : Req)
  | lockoutExpiry
  | indRect (r : Req) (x y w h : Nat) (pixels : Bytes)
  | indStatus (r : Req)
  | indClear (r : Req)
  | countersRead (r : Req) (block : Nat)
  | countersClear (r : Req) (block : Nat)
  | journalRead (r : Req) (from_ count : Nat)
  | sparesRead (r : Req)
  | spareSwitch (r : Req) (group terminal cancel : Nat)
  | relocate (r : Req) (kind logical target : Nat)
  | shadowSet (r : Req) (logical en : Nat)
  | regRead (r : Req) (addr count : Nat)
  | regWrite (r : Req) (addr value : Nat)
  | selftest (r : Req) (failed : Option Nat)
  | routeCounters (r : Req) (entry : Nat)
  | idCert (r : Req)
  | ownTake (r : Req) (fik kcv : Nat) (tamper : Bool)
  | ownRelease (r : Req) (successor : Nat)
  | credRevoke (r : Req) (fps : List Nat)
  | credUnrevoke (r : Req) (fps : List Nat)
  | credList (r : Req)
  | memberCertSet (r : Req) (cert : Cred) (data : Bytes)
  | peerBind (r : Req) (partner : Nat)
  | floorSet (r : Req) (kind id ver : Nat)
  | floorRead (r : Req)
  | zeroise (r : Req) (level confirm : Nat)
  | tamperCfg (r : Req) (actions : Nat)
  | tamperRead (r : Req)
  | tamperInput (input : Nat) (opened : Bool)
  | seMboxGo
  | seReplyReady
  | meteringIntervalEnd (part : MeterIn)
  | profilePeriodEnd
  | totalsRecordSend
  | statusRecordSend (m : MeterNow)
  | certRecordSend
  | auditEntryWrite (code sys old new : Nat)
  | phaseLoss (sys mask : Nat)
  | overload (sys mask peak : Nat)
  | mgRecordRx (data : Bytes) (crcOk : Bool)
  | mgRxPop
  | recordVerify (ok : Bool)
  | sealCoverOpen
  | serviceWindowWrite (id sys v ns : Nat)
  | serviceWindowRead (id sys : Nat)
  | resealArmExpiry
  | sealCoverClose
  | lidOpen
  | auxSupplyLow (part : MeterIn)
  | auxSupplyReturn (secs : Nat) (clockOk : Bool)
  | dgSubmit
  | rectangleStart (temp : Int)
  | rectangleComplete
  | dgDonePop
  | legalPageAdvance
  | railOutOfTolerance
  | pumpRelease
  | crackCheck (broken : Bool)
  | startRepaint (temp : Int) (broken : Bool)
  | updateActivation (part : Nat)
  | commandedActivation
  | forwardHop (h : HopIn)
  | forwardHopTimeout
  | recoveryInfo
  | recoveryBegin (part length : Nat)
  | recoveryData (offset : Nat) (data : Bytes)
  | recoveryEnd (hash : Nat) (content : Content)
  | recoveryRestart
  | recoveryIdleTimeout
  | tickLost
  | overTemperature (temp : Int)
  | railOutOfRange
  | ssTripCmd (bits : Nat)
  | ssTripLatchReset (bits : Nat)
  | wearEvaluation (k idx m e : Nat) (failed : Bool)
  | hsSwitchStart (kind index : Nat)
  | hsSwitchCancel
  | switchInCommit (k : Nat)
  | rowSpareCopy (k : Nat)
  | journalFlush
  | hsClearGo (block unit : Nat)
  | registerWrite (addr value size : Nat)
  | holdUpEnd
  | groupSupplyReturn (g : Nat)
  | portLinkChange (p speed : Nat)
  | canBusError (p lec : Nat) (tx exempt : Bool) (more : Nat)
  | connectionClosed (session : Nat) (peer : Option Nat)
  | farEndCommandRx (p : Nat) (quiet : Bool) (pos : Nat)
  | managementPathMessageRx (m : PathMsg)
  | partRestartComplete (part : Nat) (q : PartnerInfo)
  | supervisionMissing
  deriving DecidableEq, Repr

end Sys2Proof
end

