-- ==== Sys2Proof/WellFormed.lean ====
section
/-! DEFINITION. Well-formed commands: what the carrier of a command guarantees before its meaning is asked.  A parameter of a command packet fits the
KIND that R377 and R384 give it, and a packet the 18,416 bytes of R376; an event's index names an existing unit (R1).  The meanings in Machine/ are
total: they do not rely on it. -/

namespace Sys2Proof

/-- A value of `w` bits. -/
def fits (w n : Nat) : Bool := decide (n < 2 ^ w)

/-- An index below `n`. -/
def below (n i : Nat) : Bool := decide (i < n)

/-- A byte string that fits a packet (R377). -/
def packed (b : Bytes) : Bool := decide (b.length ≤ 18408)

/-- Session ID and TAG are words (R376, R389). -/
def Req.wf (r : Req) : Bool := fits 32 r.session && fits 32 r.tag

/-- A time parameter: FRC in 64 bits, or a TOD (R377). -/
def Time.wf : Time → Bool
  | .frc n => fits 64 n
  | .tod sec ns frac => fits 64 sec && fits 32 ns && fits 32 frac

/-- A tile operation stands on one of the 32 logical tiles (R66). -/
def Issue.wf (i : Issue) : Bool := below 32 i.tile

/-- The checks of a command. -/
def Instr.wf (i : Instr) : Bool :=
  match i with
  | .powerOnReset => true
  | .moduleReset => true
  | .latticeReset => true
  | .bootStageComplete _ => true
  | .powerFailWarning _ => true
  | .powerFailWarningClear => true
  | .latticeStop => true
  | .brownoutRestart => true
  | .feedOutOfRange n _ => below 2 n
  | .feedOvervoltage n => below 2 n
  | .feedReconnect n _ => below 2 n
  | .unplannedOscSwitch => true
  | .plannedOscSwitch => true
  | .refSelWrite _ => true
  | .externalLock => true
  | .externalRefLost => true
  | .snap => true
  | .frcLoRead => true
  | .wideCounterLowRead _ => true
  | .tbIncWrite _ _ => true
  | .todsetNow => true
  | .todsetArm => true
  | .todStepApply => true
  | .frameTick => true
  | .framePeriodWrite _ => true
  | .lgConfigWrite g word _ => below 32 g && below 32 word
  | .lgMemberWrite m _ => below 512 m
  | .lgOneShotArm g => below 32 g
  | .lgFire g _ => below 32 g
  | .ppsInEdge sub => below 32 sub
  | .ppsOutPulse => true
  | .aluOp at_ _ => at_.wf
  | .satOp at_ _ => at_.wf
  | .mul at_ _ _ _ _ => at_.wf
  | .mac at_ _ _ _ => at_.wf
  | .accrd at_ _ _ _ => at_.wf
  | .div at_ _ _ _ _ => at_.wf
  | .sqrt at_ _ _ _ => at_.wf
  | .br at_ _ _ => at_.wf
  | .loopn at_ _ _ _ => at_.wf
  | .wait at_ _ => at_.wf
  | .endf at_ => at_.wf
  | .lld at_ _ _ _ _ => at_.wf
  | .lst at_ _ _ _ => at_.wf
  | .recv at_ _ _ _ _ _ => at_.wf
  | .sld at_ _ _ _ _ _ => at_.wf
  | .sharedLoadResponse => true
  | .sst at_ _ _ _ _ _ => at_.wf
  | .send at_ _ _ _ _ _ => at_.wf
  | .sendDelivery => true
  | .rpoll at_ _ _ => at_.wf
  | .renq at_ _ _ _ _ => at_.wf
  | .ecall at_ _ _ _ _ _ _ => at_.wf
  | .engineCallComplete _ => true
  | .xstart at_ _ _ _ => at_.wf
  | .transferComplete _ => true
  | .dabs at_ _ _ _ => at_.wf
  | .dseal at_ _ => at_.wf
  | .digestSealComplete => true
  | .fcm at_ => at_.wf
  | .retentiveRecordCommit => true
  | .retentiveFold => true
  | .mgmtRingEnqueue q _ => below 128 q
  | .asyncAccessRetry _ => true
  | .portbBankWrite _ _ sub => below 8 sub
  | .retentiveWriteThrough => true
  | .digestSend _ => true
  | .inputExchangeSend _ => true
  | .exchangeMessageRx _ => true
  | .exchangeCutover _ => true
  | .ttAdmStart slot placement => below 32 slot && below 2 placement
  | .ttAdmAbort => true
  | .admissionComplete => true
  | .ltRelocCheck logical target => below 32 logical && below 64 target
  | .placementCheckComplete => true
  | .ltRelocCommit => true
  | .tileRelocation _ => true
  | .tileShadow logical phys _ => below 32 logical && below 36 phys
  | .tileShadowCompare phys => below 36 phys
  | .ttModePrepare => true
  | .modePrepareComplete => true
  | .ttModeArm => true
  | .ttModeCancel => true
  | .modeDeltaWrites _ => true
  | .ttRunStart kind => below 4 kind
  | .runEntry => true
  | .ttRunStop => true
  | .stopTakesEffect => true
  | .ttRunLrst => true
  | .ttRetClear => true
  | .lpWinWrite _ => true
  | .lpWinRead sub => below 8 sub
  | .svWinWrite _ => true
  | .svWinRead sub => below 8 sub
  | .svDmaStart => true
  | .svDmaAbort => true
  | .svDmaComplete _ _ => true
  | .svRelocCommit => true
  | .solverRelocation => true
  | .conversionWindowEnd ch _ => below 96 ch
  | .fieldControlFrame g _ => below 12 g
  | .groupFallbackEntry g => below 12 g
  | .groupResume g => below 12 g
  | .safeStateLineAssert => true
  | .groupSupplyFail g => below 12 g
  | .fgApply g => below 12 g
  | .fgApplyCancel g => below 12 g
  | .fgApplyTakesEffect g => below 12 g
  | .crossCheckVisit g _ _ => below 12 g
  | .fgSpareStart g terminal => below 12 g && below 8 terminal
  | .fgSpareCancel g => below 12 g
  | .spareTakeover g => below 12 g
  | .loopPowerSample _ => true
  | .chFlagsWrite ch _ => below 96 ch
  | .hartPollDue ch entry => below 96 ch && below 16 entry
  | .hartFrameStart ch _ => below 96 ch
  | .hartResponseRx ch _ => below 96 ch
  | .hartResponseTimeout ch => below 96 ch
  | .hartRequestExpired ch => below 96 ch
  | .hartBurstRx ch _ => below 96 ch
  | .diRefresh _ _ _ => true
  | .diInputStale => true
  | .doImageFrame _ => true
  | .doControlFrame _ => true
  | .doBlockDeenergise => true
  | .doBlockResume => true
  | .doCurrentLimit o _ => below 32 o
  | .doThermalRestart o => below 32 o
  | .fieldSupplyLow half _ => below 2 half
  | .dioApply => true
  | .dioApplyCancel => true
  | .dioApplyTakesEffect => true
  | .chApply p => below 8 p
  | .chCancel p => below 8 p
  | .chainApplyTakesEffect p => below 8 p
  | .chDiscover p => below 8 p
  | .chainDiscoveryStart p => below 8 p
  | .discoveryComplete p => below 8 p
  | .chWake p => below 8 p
  | .chSleep p => below 8 p
  | .chFaultClr p => below 8 p
  | .quietSend p _ => below 8 p
  | .sampleStrobe p => below 8 p
  | .readoutSend p => below 8 p
  | .dataFrameRx p _ => below 8 p
  | .chainRetrySend p _ _ _ => below 8 p
  | .chainBreak p _ => below 8 p
  | .sweepClose p => below 8 p
  | .sweepPublish p => below 8 p
  | .keep p => below 8 p
  | .chainQueueSend p => below 8 p
  | .chainResponseRx p _ => below 8 p
  | .faultLineChange p _ => below 8 p
  | .chainFaultTrip p => below 8 p
  | .forwardedChainItemRx _ => true
  | .ingestMessageRx _ => true
  | .ingestPublish => true
  | .ingestSend p => below 8 p
  | .chIngApply => true
  | .chIngCancel => true
  | .ingestApplyTakesEffect => true
  | .nodeImageSend p => below 8 p
  | .canFrameRx p _ => below 8 p
  | .canTxRecord p _ => below 8 p
  | .canTxStart p _ => below 8 p
  | .canTxComplete p _ => below 8 p
  | .canBusOff p => below 8 p
  | .cfRecover p _ => below 8 p
  | .canRecoveryComplete p => below 8 p
  | .cfTxbAbort p _ => below 8 p
  | .cfApply p => below 8 p
  | .cfCancel p => below 8 p
  | .cfApplyTakesEffect p => below 8 p
  | .canServiceSegmentRx p _ => below 8 p
  | .canServiceGapTimeout p => below 8 p
  | .ethFrameRx p _ => below 6 p
  | .ethFrameTx p => below 6 p
  | .routeEntryDrain q => below 128 q
  | .fabricFrameSend entry => below 8192 entry
  | .fabricFrameRx _ => true
  | .esRtApply => true
  | .esRtCancel => true
  | .routeTableSwap => true
  | .prpSupervisionSend => true
  | .macsecRekey p => below 6 p
  | .macsecOldAssociationExpiry p => below 6 p
  | .peerSessionKeyExpiry p => below 6 p
  | .ptpMessageRx p domain _ => below 4 p && fits 8 domain
  | .ptpMessageTx p _ => below 4 p
  | .ptpMasterLost => true
  | .partnerHealthyChange _ => true
  | .partnerMarkPulse => true
  | .partnerDriveChange _ => true
  | .partnerLinkChange k _ => below 2 k
  | .digestMessageRx _ => true
  | .gatedRingMirrorRx q _ => below 128 q
  | .failoverCheck => true
  | .partnerLinksLost => true
  | .autojoin _ => true
  | .paCmdJoin _ => true
  | .paCmdLeave => true
  | .paCmdHandover => true
  | .paCmdCancel => true
  | .handoverTakesEffect => true
  | .pairRevert => true
  | .standbyPromotion => true
  | .stateTransferRound _ => true
  | .stateTransferFinal _ => true
  | .stateTransferTimeout => true
  | .pairSelftestComplete _ => true
  | .sessionHandshake _ => true
  | .sessionIdleTimeout _ => true
  | .tlsKeyUpdate _ => true
  | .malformedHeader _ => true
  | .undefinedOpcode r op => r.wf && fits 16 op
  | .hello r version _ => r.wf && fits 16 version
  | .ping r => r.wf
  | .status r => r.wf
  | .subscribe r classes => r.wf && fits 32 classes
  | .versions r => r.wf
  | .bye r => r.wf
  | .modeRead r => r.wf
  | .modePrepare r mode => r.wf && fits 32 mode
  | .modeArm r at_ => r.wf && at_.wf
  | .modeStatus r => r.wf
  | .modeCancel r => r.wf
  | .slotRename r slot _ => r.wf && fits 8 slot
  | .slotClear r slot => r.wf && fits 8 slot
  | .start r kind => r.wf && fits 8 kind
  | .stop r => r.wf
  | .lrst r => r.wf
  | .runStatus r => r.wf
  | .admitCmd r slot placement => r.wf && fits 8 slot && fits 8 placement
  | .admitStatus r => r.wf
  | .autorun r on => r.wf && fits 8 on
  | .retExport r => r.wf
  | .retImport r offset data => r.wf && fits 32 offset && packed data
  | .retClear r => r.wf
  | .ringPut r ring entries => r.wf && fits 8 ring && packed entries
  | .ringGet r ring most => r.wf && fits 8 ring && fits 8 most
  | .dataRead r addr len => r.wf && fits 32 addr && fits 32 len
  | .xferBegin r target length hash => r.wf && fits 16 target && fits 32 length && fits 384 hash
  | .xferChunk r offset data => r.wf && fits 32 offset && packed data
  | .xferEnd r _ => r.wf
  | .xferAbort r => r.wf
  | .updateSchedule r part at_ => r.wf && fits 16 part && at_.wf
  | .updateActivate r part => r.wf && fits 16 part
  | .updateStatus r => r.wf
  | .updateForward r part plants => r.wf && fits 16 part && plants.all (fits 16)
  | .bankSelect r part bank => r.wf && fits 16 part && fits 8 bank
  | .cfgRead r addr count => r.wf && fits 32 addr && fits 16 count
  | .cfgWrite r pairs => r.wf && pairs.all (fun x => fits 32 x.1 && fits 32 x.2)
  | .cfgApply r block => r.wf && fits 32 block
  | .cfgCancel r block => r.wf && fits 32 block
  | .cfgSave r => r.wf
  | .chanRead r channel => r.wf && fits 8 channel
  | .netCfg r iface addr mask gw port => r.wf && fits 8 iface && fits 32 addr && fits 32 mask && fits 32 gw && fits 16 port
  | .trimSet r channel gain offset => r.wf && fits 8 channel && fits 32 gain && fits 32 offset
  | .hartPass r channel address command data => r.wf && fits 8 channel && fits 8 address && fits 16 command && packed data
  | .hartRead r channel => r.wf && fits 8 channel
  | .hartPollSet r channel list => r.wf && fits 8 channel && list.all (fun x => fits 8 x.1 && fits 16 x.2.1 && fits 16 x.2.2)
  | .canRecover r port flush => r.wf && fits 8 port && fits 8 flush
  | .canSend r port rec => r.wf && fits 8 port && packed rec
  | .flagClear r addr mask => r.wf && fits 32 addr && fits 32 mask
  | .timeRead r => r.wf
  | .todSet r sec ns frac at_ => r.wf && fits 64 sec && fits 32 ns && fits 32 frac && fits 64 at_
  | .incSet r ns frac => r.wf && fits 8 ns && fits 32 frac
  | .servoCfg r mode restep => r.wf && fits 8 mode && fits 8 restep
  | .lgArm r group at_ => r.wf && fits 8 group && at_.wf
  | .refSelect r source => r.wf && fits 8 source
  | .pairStatus r => r.wf
  | .join r _ => r.wf
  | .leave r => r.wf
  | .handover r at_ => r.wf && fits 64 at_
  | .pairCancel r => r.wf
  | .pairCfg r cfg times mixed => r.wf && fits 32 cfg && fits 32 times && fits 32 mixed
  | .chainStatus r port => r.wf && fits 8 port
  | .chainPass r port pos code payload => r.wf && fits 8 port && fits 16 pos && fits 8 code && packed payload
  | .chainDiscover r port => r.wf && fits 8 port
  | .chainWake r port => r.wf && fits 8 port
  | .chainSleep r port => r.wf && fits 8 port
  | .balSet r port pos mode targets => r.wf && fits 8 port && fits 16 pos && fits 8 mode && packed targets
  | .chainFaultClr r port => r.wf && fits 8 port
  | .slotRead r first count buffer => r.wf && fits 16 first && fits 16 count && buffer.all (fits 8)
  | .nodeStatus r port pos => r.wf && fits 8 port && fits 16 pos
  | .metStatus r => r.wf
  | .metRecords r from_ count => r.wf && fits 32 from_ && fits 16 count
  | .metAudit r from_ count => r.wf && fits 16 from_ && fits 16 count
  | .metCert r => r.wf
  | .metAlarmAck r => r.wf
  | .whoami r => r.wf
  | .lockOpen r minutes => r.wf && fits 16 minutes
  | .lockClose r => r.wf
  | .lockTimeout => true
  | .fieldLock r engage => r.wf && fits 8 engage
  | .reopenPw r password minutes => r.wf && packed password && fits 16 minutes
  | .reopenExpiry _ => true
  | .challenge r minutes => r.wf && fits 16 minutes
  | .response r signature => r.wf && packed signature
  | .pwSet r password => r.wf && packed password
  | .lockoutRead r => r.wf
  | .lockoutReset r => r.wf
  | .lockoutExpiry => true
  | .indRect r x y w h pixels => r.wf && fits 16 x && fits 16 y && fits 16 w && fits 16 h && packed pixels
  | .indStatus r => r.wf
  | .indClear r => r.wf
  | .countersRead r block => r.wf && fits 32 block
  | .countersClear r block => r.wf && fits 32 block
  | .journalRead r from_ count => r.wf && fits 32 from_ && fits 16 count
  | .sparesRead r => r.wf
  | .spareSwitch r group terminal cancel => r.wf && fits 8 group && fits 8 terminal && fits 8 cancel
  | .relocate r kind logical target => r.wf && fits 8 kind && fits 8 logical && fits 8 target
  | .shadowSet r logical en => r.wf && fits 8 logical && fits 8 en
  | .regRead r addr count => r.wf && fits 32 addr && fits 16 count
  | .regWrite r addr value => r.wf && fits 32 addr && fits 32 value
  | .selftest r _ => r.wf
  | .routeCounters r entry => r.wf && fits 16 entry
  | .idCert r => r.wf
  | .ownTake r fik kcv _ => r.wf && fits 256 fik && fits 64 kcv
  | .ownRelease r successor => r.wf && fits 768 successor
  | .credRevoke r fps => r.wf && fps.all (fits 64)
  | .credUnrevoke r fps => r.wf && fps.all (fits 64)
  | .credList r => r.wf
  | .memberCertSet r _ data => r.wf && packed data
  | .peerBind r partner => r.wf && fits 64 partner
  | .floorSet r kind id ver => r.wf && fits 8 kind && fits 32 id && fits 32 ver
  | .floorRead r => r.wf
  | .zeroise r level confirm => r.wf && fits 8 level && fits 64 confirm
  | .tamperCfg r actions => r.wf && fits 8 actions
  | .tamperRead r => r.wf
  | .tamperInput input _ => below 4 input
  | .seMboxGo => true
  | .seReplyReady => true
  | .meteringIntervalEnd _ => true
  | .profilePeriodEnd => true
  | .totalsRecordSend => true
  | .statusRecordSend _ => true
  | .certRecordSend => true
  | .auditEntryWrite _ _ _ _ => true
  | .phaseLoss _ _ => true
  | .overload _ _ _ => true
  | .mgRecordRx _ _ => true
  | .mgRxPop => true
  | .recordVerify _ => true
  | .sealCoverOpen => true
  | .serviceWindowWrite _ _ _ _ => true
  | .serviceWindowRead _ _ => true
  | .resealArmExpiry => true
  | .sealCoverClose => true
  | .lidOpen => true
  | .auxSupplyLow _ => true
  | .auxSupplyReturn _ _ => true
  | .dgSubmit => true
  | .rectangleStart _ => true
  | .rectangleComplete => true
  | .dgDonePop => true
  | .legalPageAdvance => true
  | .railOutOfTolerance => true
  | .pumpRelease => true
  | .crackCheck _ => true
  | .startRepaint _ _ => true
  | .updateActivation part => below 9 part
  | .commandedActivation => true
  | .forwardHop _ => true
  | .forwardHopTimeout => true
  | .recoveryInfo => true
  | .recoveryBegin _ _ => true
  | .recoveryData _ _ => true
  | .recoveryEnd _ _ => true
  | .recoveryRestart => true
  | .recoveryIdleTimeout => true
  | .tickLost => true
  | .overTemperature _ => true
  | .railOutOfRange => true
  | .ssTripCmd bits => below 16 bits
  | .ssTripLatchReset bits => below 16 bits
  | .wearEvaluation k _ _ _ _ => below 11 k
  | .hsSwitchStart kind _ => below 11 kind
  | .hsSwitchCancel => true
  | .switchInCommit k => below 11 k
  | .rowSpareCopy k => below 11 k
  | .journalFlush => true
  | .hsClearGo block unit => below 256 block && below 256 unit
  | .registerWrite _ _ _ => true
  | .holdUpEnd => true
  | .groupSupplyReturn g => below 12 g
  | .portLinkChange p _ => below 6 p
  | .canBusError p lec _ _ _ => below 8 p && below 8 lec
  | .connectionClosed _ _ => true
  | .farEndCommandRx p _ _ => below 8 p
  | .managementPathMessageRx _ => true
  | .partRestartComplete part _ => below 9 part
  | .supervisionMissing => true

end Sys2Proof
end

