-- ==== Sys2Proof/Decode.lean ====
section
/-! DEFINITION. Commands spelled by words.  No row of spec/opcode_table.json gives bits: the commands of this block are events, register accesses and
packets whose layout stands in their own chapters (R376, R377), so no word spells one. -/

namespace Sys2Proof

/-- The command a word of the table's bits spells: the table gives no row bits (DESIGN CHOICE, log entry 23). -/
def decodeTableWord (_nbits _w : Nat) : Option Instr := none

end Sys2Proof
end

