-- ==== Sys2Proof/Config.lean ====
section
/-! DEFINITION. What an implementation fixes and the spec leaves open, as opaque constants: nothing in Lean can evaluate
them, so a statement holds for every value they may take.  The address windows are the model's own names for the memories
the spec gives the module. -/

namespace Sys2Proof.Config

/-! ### Free values -/

/-- The n-th value the spec leaves open in a run (DESIGN CHOICE, assumption log entry 2). -/
opaque freeNat : Nat → Nat

/-- A comparison result as a word: the spec does not state the words a compare writes (DESIGN CHOICE, log entry 3). -/
opaque cmpWord : Bool → Word

/-- Whether a word counts as true for select and BR: the spec does not state it (DESIGN CHOICE, log entry 3). -/
opaque truth : Word → Bool

/-- A shift by 32 or more of a wrapping ALU operation: kind (0 left, 1 right, 2 arithmetic right), value, amount; the spec
states no result (DESIGN CHOICE, log entry 3). -/
opaque shiftWide : Nat → Word → Word → Word

/-- An accumulator whose sum leaves its 80 bits: the spec states no result (DESIGN CHOICE, log entry 3). -/
opaque accOver : Int → Nat

/-! ### Functions the spec names and takes from outside it -/

/-- SHA-384 of a byte string (R104, R106, R118, R352), as a number. -/
opaque sha384 : Bytes → Nat

/-- The plaintext of a section of an encrypted image, from the image bytes 0x00 to 0x7F, the section's table position and its stored bytes
(R399 names AES-256-GCM, which stands outside the spec; PRESUMED, log entry 93). -/
opaque sectionPlain : Bytes → Nat → Bytes → Bytes

/-- The CODE number of a journal entry's event (R492 gives the field, not its codes; DESIGN CHOICE, log entry 8). -/
opaque journalCode : Nat → Nat

/-- What a clamp gives when its lower limit lies above its upper one (the spec states no result; DESIGN CHOICE, log entry 9). -/
opaque clampCrossed : Int → Int → Int → Int

/-- The reciprocal a solver lane forms of a zero diagonal element of a given factor (the spec states none; DESIGN CHOICE, log entry 9). -/
opaque recipZero : Nat → Int

/-- E of a thermocouple (SENSOR 0 to 7) at a cold junction, in 10⁻⁹ °C, at which its reference function is not defined, in exact units of V (the
spec states none; DESIGN CHOICE, log entry 12). -/
opaque tcOutside : Nat → Int → Int

/-- How far beyond the end of its range a characteristic's temperature lies, in 10⁻⁹ °C, for a value outside it (the spec states none; DESIGN
CHOICE, log entry 12). -/
opaque beyondChar : Int → Nat

/-- Membership of a switch port in a VLAN (R323 gives the sets, not how they are set; PRESUMED, log entry 17). -/
opaque vlanMember : Nat → Nat → Bool

/-- The module's own MAC address (not in the spec; PRESUMED, log entry 17). -/
opaque ownMac : Nat

/-- The length in tb of the digest window on the partner links (R324 names it, not its length; PRESUMED, log entry 17). -/
opaque digestWindow : Nat

/-- CFG_CRC a node computes over a CONFIG payload (R266 names the field, not its CRC; DESIGN CHOICE, log entry 14). -/
opaque nodeCfgCrc : Bytes → Nat

/-- The CRC-32 of an image that IMG_BEGIN carries (R468) and of a retentive record (R142); its polynomial is not in the spec. -/
opaque crc32 : Bytes → Nat

/-- The compartment's signature over a record (R421), 96 bytes (DESIGN CHOICE, log entry 19). -/
opaque metSign : Bytes → Bytes

/-- The device certificate and the manufacturing CA certificate (R393, R408), the public key of the device identity key, the first 8 bytes of
AES-256-ECB of a key over 16 zero bytes (R394), the verifier of a password (R388), the nonce of the n-th challenge (R389), and whether an
owner key's signature over a challenge is valid (R389): cryptography stands outside the model (DESIGN CHOICE, log entry 21). -/
opaque deviceCert : Bytes
opaque caCert : Bytes
opaque dik : Nat
opaque kcv : Nat → Nat
opaque pwVerifier : Bytes → Nat
opaque nonce : Nat → Nat
opaque sigValid : Nat → Bytes → Bytes → Bool

/-- COMP_SERIAL, SW_ID and the compartment certificate (R421, R423; DESIGN CHOICE, log entry 19). -/
opaque compSerial : Nat
opaque swId : Nat
opaque metCert : Bytes

/-! ### What the manufacture fixes (R1, R2) -/

/-- Whether the build is NPS-96D-M, with the metrology compartment fitted (R1). -/
opaque variantM : Bool
/-- The hardware revision letter, as its ASCII code (R2). -/
opaque hwRev : Nat
/-- The serial number (R2). -/
opaque serial : Nat

/-! ### Memory windows of the model (R68 and the memories beside the shared address space) -/

/-- Shared banks: byte b of the shared address space. -/
def bankBase : Nat := 0
def bankEnd : Nat := 0x00800000
/-- Solver state-store window (R68). -/
def storeBase : Nat := 0x01000000
def storeEnd : Nat := 0x03000000
/-- Loop-record window (R68). -/
def loopBase : Nat := 0x03000000
def loopEnd : Nat := 0x03040000
/-- Data SRAM of physical tile p: 128 KiB each (R67). -/
def sramBase (p : Nat) : Nat := 0x100000000 + p * 0x20000
/-- Receive buffer of physical tile p: 16 entries of 32 bytes (R67). -/
def rxBase (p : Nat) : Nat := 0x110000000 + p * 0x200
/-- MRAM copy of the retentive region, at the offset within the region (R140). -/
def mramBase : Nat := 0x200000000
/-- Management-core DRAM (R203). -/
def dramBase : Nat := 0x400000000
/-- The live route table and its shadow copy, 8,192 entries of 32 bytes each (R326, R330). -/
def routeBase : Nat := 0x300000000
def routeShadow : Nat := 0x300040000
/-- The pixels shown in rows 64 to 239 of the panel, 100 bytes a row (R439, R442). -/
def panelBase : Nat := 0x380000000
def memEnd : Nat := 0x10000400000000

end Sys2Proof.Config
end

