-- ==== Sys2Proof/Machine/RegMap.lean ====
section
/-! DEFINITION. The register maps (R64 and the register-map rule of every chapter): one `RegRow` per field, in the
spec's own columns (R14): address, bits, access code, and the POR, MRST and LRST reset entries.  `none` is the
column entry "="; `dflt` is the value in `State.reset`, the POR entry or, where that is "=", the delivered value of
assumption log entry 1 (DESIGN CHOICE). -/

namespace Sys2Proof.Machine

/-- The access codes of R12. -/
inductive AccessCode where
  | ro | rw | w1c | wo | rwl
  deriving DecidableEq, Repr

/-- One row of a register map (R14).  An indexed register has `n1` copies `s1` bytes apart, and each of these
`n2` copies `s2` bytes apart. -/
structure RegRow where
  base : Nat
  lo : Nat
  width : Nat
  n1 : Nat
  s1 : Nat
  n2 : Nat
  s2 : Nat
  acc : AccessCode
  por : Option Nat
  mrst : Option Nat
  lrst : Option Nat
  dflt : Nat
  deriving DecidableEq, Repr

/-- The address of copy `i`, `j` of a row. -/
def RegRow.addr (r : RegRow) (i j : Nat) : Nat := r.base + i * r.s1 + j * r.s2

/-- The key of a field in the field store: its bit address. -/
def RegRow.key (r : RegRow) (i j : Nat) : Nat := r.addr i j * 32 + r.lo

namespace R

/-! ### TB_ (02_time_base_and_frames.md, R64) -/
-- TB_CTRL, 0x4000_0000 + 0x000
def TB_CTRL_REF_SEL : RegRow := ⟨0x40000000, 0, 2, 1, 0, 1, 0, .rw, (some 0), none, none, 0⟩
def TB_CTRL_SNAP : RegRow := ⟨0x40000000, 4, 1, 1, 0, 1, 0, .wo, (some 0), (some 0), (some 0), 0⟩
-- TB_STATUS, 0x4000_0000 + 0x004
def TB_STATUS_REF_ACTIVE : RegRow := ⟨0x40000004, 0, 2, 1, 0, 1, 0, .ro, (some 0), none, none, 0⟩
def TB_STATUS_PRIMARY_OK : RegRow := ⟨0x40000004, 2, 1, 1, 0, 1, 0, .ro, (some 1), none, none, 1⟩
def TB_STATUS_SPARE_OK : RegRow := ⟨0x40000004, 3, 1, 1, 0, 1, 0, .ro, (some 1), none, none, 1⟩
def TB_STATUS_EXT_LOCK : RegRow := ⟨0x40000004, 4, 1, 1, 0, 1, 0, .ro, (some 0), none, none, 0⟩
def TB_STATUS_TOD_VALID : RegRow := ⟨0x40000004, 5, 1, 1, 0, 1, 0, .ro, (some 0), none, none, 0⟩
def TB_STATUS_INC_CLAMP : RegRow := ⟨0x40000004, 8, 1, 1, 0, 1, 0, .w1c, (some 0), none, none, 0⟩
def TB_STATUS_SET_PAST : RegRow := ⟨0x40000004, 9, 1, 1, 0, 1, 0, .w1c, (some 0), none, none, 0⟩
-- TB_FRC_LO and TB_FRC_HI, 0x4000_0000 + 0x008 and 0x00C
def TB_FRC_LO : RegRow := ⟨0x40000008, 0, 32, 1, 0, 1, 0, .ro, (some 0), none, none, 0⟩
def TB_FRC_HI : RegRow := ⟨0x4000000c, 0, 32, 1, 0, 1, 0, .ro, (some 0), none, none, 0⟩
-- TB_SNAP registers, 0x4000_0000 + 0x010 to 0x024
def TB_SNAP_FRC_LO : RegRow := ⟨0x40000010, 0, 32, 1, 0, 1, 0, .ro, (some 0), none, none, 0⟩
def TB_SNAP_FRC_HI : RegRow := ⟨0x40000014, 0, 32, 1, 0, 1, 0, .ro, (some 0), none, none, 0⟩
def TB_SNAP_SEC_LO : RegRow := ⟨0x40000018, 0, 32, 1, 0, 1, 0, .ro, (some 0), none, none, 0⟩
def TB_SNAP_SEC_HI : RegRow := ⟨0x4000001c, 0, 32, 1, 0, 1, 0, .ro, (some 0), none, none, 0⟩
def TB_SNAP_NS : RegRow := ⟨0x40000020, 0, 30, 1, 0, 1, 0, .ro, (some 0), none, none, 0⟩
def TB_SNAP_FRAC : RegRow := ⟨0x40000024, 0, 32, 1, 0, 1, 0, .ro, (some 0), none, none, 0⟩
-- TB_TODSET registers, 0x4000_0000 + 0x030 to 0x048
def TB_TODSET_SEC_LO : RegRow := ⟨0x40000030, 0, 32, 1, 0, 1, 0, .rwl, (some 0), none, none, 0⟩
def TB_TODSET_SEC_HI : RegRow := ⟨0x40000034, 0, 32, 1, 0, 1, 0, .rwl, (some 0), none, none, 0⟩
def TB_TODSET_NS : RegRow := ⟨0x40000038, 0, 30, 1, 0, 1, 0, .rwl, (some 0), none, none, 0⟩
def TB_TODSET_FRAC : RegRow := ⟨0x4000003c, 0, 32, 1, 0, 1, 0, .rwl, (some 0), none, none, 0⟩
def TB_TODSET_AT_LO : RegRow := ⟨0x40000040, 0, 32, 1, 0, 1, 0, .rwl, (some 0), none, none, 0⟩
def TB_TODSET_AT_HI : RegRow := ⟨0x40000044, 0, 32, 1, 0, 1, 0, .rwl, (some 0), none, none, 0⟩
def TB_TODSET_NOW : RegRow := ⟨0x40000048, 0, 1, 1, 0, 1, 0, .wo, (some 0), (some 0), (some 0), 0⟩
def TB_TODSET_ARM : RegRow := ⟨0x40000048, 1, 1, 1, 0, 1, 0, .wo, (some 0), (some 0), (some 0), 0⟩
-- TB_INC_NS and TB_INC_FRAC, 0x4000_0000 + 0x050 and 0x054
def TB_INC_NS : RegRow := ⟨0x40000050, 0, 5, 1, 0, 1, 0, .rw, (some 10), none, none, 10⟩
def TB_INC_FRAC : RegRow := ⟨0x40000054, 0, 32, 1, 0, 1, 0, .rw, (some 0), none, none, 0⟩
-- TB_OSC_EVENT, 0x4000_0000 + 0x058
def TB_OSC_EVENT_UNPLANNED : RegRow := ⟨0x40000058, 0, 1, 1, 0, 1, 0, .w1c, (some 0), none, none, 0⟩
def TB_OSC_EVENT_PLANNED : RegRow := ⟨0x40000058, 1, 1, 1, 0, 1, 0, .w1c, (some 0), none, none, 0⟩
def TB_OSC_EVENT_EXT_LOST : RegRow := ⟨0x40000058, 2, 1, 1, 0, 1, 0, .w1c, (some 0), none, none, 0⟩
-- TB_TP_CTRL, 0x4000_0000 + 0x060
def TB_TP_CTRL_PPS_OUT_EN : RegRow := ⟨0x40000060, 0, 1, 1, 0, 1, 0, .rw, (some 0), none, none, 0⟩
def TB_TP_CTRL_TENM_OUT_EN : RegRow := ⟨0x40000060, 1, 1, 1, 0, 1, 0, .rw, (some 0), none, none, 0⟩
def TB_TP_CTRL_PPS_IN_EN : RegRow := ⟨0x40000060, 2, 1, 1, 0, 1, 0, .rw, (some 0), none, none, 0⟩
def TB_TP_CTRL_TERM : RegRow := ⟨0x40000060, 3, 1, 1, 0, 1, 0, .rw, (some 0), none, none, 0⟩
def TB_TP_CTRL_WIDTH : RegRow := ⟨0x40000060, 4, 13, 1, 0, 1, 0, .rw, (some 1000), none, none, 1000⟩
-- TB_PPS_DELAY and TB_TP_STATUS, 0x4000_0000 + 0x064 and 0x068
def TB_PPS_DELAY : RegRow := ⟨0x40000064, 0, 16, 1, 0, 1, 0, .rw, (some 0), none, none, 0⟩
def TB_TP_STATUS_PPS_SEEN : RegRow := ⟨0x40000068, 0, 1, 1, 0, 1, 0, .w1c, (some 0), none, none, 0⟩
def TB_TP_STATUS_PPS_FAST : RegRow := ⟨0x40000068, 1, 1, 1, 0, 1, 0, .w1c, (some 0), none, none, 0⟩
-- TB_LG registers for group g, 0x4000_0000 + 0x200 + 0x20 × g
def TB_LG_MODE : RegRow := ⟨0x40000200, 0, 3, 32, 0x20, 1, 0, .rwl, (some 0), (some 0), (some 0), 0⟩
def TB_LG_N : RegRow := ⟨0x40000200, 16, 16, 32, 0x20, 1, 0, .rwl, (some 1), (some 1), (some 1), 1⟩
def TB_LG_OFFSET : RegRow := ⟨0x40000204, 0, 21, 32, 0x20, 1, 0, .rwl, (some 0), (some 0), (some 0), 0⟩
def TB_LG_TIME_LO : RegRow := ⟨0x40000208, 0, 32, 32, 0x20, 1, 0, .rwl, (some 0), (some 0), (some 0), 0⟩
def TB_LG_TIME_HI : RegRow := ⟨0x4000020c, 0, 32, 32, 0x20, 1, 0, .rwl, (some 0), (some 0), (some 0), 0⟩
def TB_LG_NS : RegRow := ⟨0x40000210, 0, 30, 32, 0x20, 1, 0, .rwl, (some 0), (some 0), (some 0), 0⟩
def TB_LG_ARM : RegRow := ⟨0x40000214, 0, 1, 32, 0x20, 1, 0, .wo, (some 0), (some 0), (some 0), 0⟩
def TB_LG_FIRED : RegRow := ⟨0x40000218, 0, 1, 32, 0x20, 1, 0, .w1c, (some 0), (some 0), (some 0), 0⟩
def TB_LG_PAST : RegRow := ⟨0x40000218, 1, 1, 32, 0x20, 1, 0, .w1c, (some 0), (some 0), (some 0), 0⟩
def TB_LG_OVERLAP : RegRow := ⟨0x40000218, 2, 1, 32, 0x20, 1, 0, .w1c, (some 0), (some 0), (some 0), 0⟩
def TB_LG_OFFSET_RANGE : RegRow := ⟨0x40000218, 3, 1, 32, 0x20, 1, 0, .w1c, (some 0), (some 0), (some 0), 0⟩
def TB_LG_PHASE : RegRow := ⟨0x4000021c, 0, 16, 32, 0x20, 1, 0, .rwl, (some 0), (some 0), (some 0), 0⟩
-- TB_LGM entry m, 0x4000_0000 + 0x800 + 4 × m, m from 0 to 511
def TB_LGM_INDEX : RegRow := ⟨0x40000800, 0, 7, 512, 0x4, 1, 0, .rwl, (some 0), (some 0), (some 0), 0⟩
def TB_LGM_KIND : RegRow := ⟨0x40000800, 8, 4, 512, 0x4, 1, 0, .rwl, (some 0), (some 0), (some 0), 0⟩
def TB_LGM_LG : RegRow := ⟨0x40000800, 16, 5, 512, 0x4, 1, 0, .rwl, (some 0), (some 0), (some 0), 0⟩
def TB_LGM_VALID : RegRow := ⟨0x40000800, 31, 1, 512, 0x4, 1, 0, .rwl, (some 0), (some 0), (some 0), 0⟩
-- TB_SNAP registers, 0x4000_0000 + 0x010 to 0x024
def TB_PPS_FRC_LO : RegRow := ⟨0x40000070, 0, 32, 1, 0, 1, 0, .ro, (some 0), none, none, 0⟩
def TB_PPS_FRC_HI : RegRow := ⟨0x40000074, 0, 32, 1, 0, 1, 0, .ro, (some 0), none, none, 0⟩
def TB_PPS_SEC_LO : RegRow := ⟨0x40000078, 0, 32, 1, 0, 1, 0, .ro, (some 0), none, none, 0⟩
def TB_PPS_SEC_HI : RegRow := ⟨0x4000007c, 0, 32, 1, 0, 1, 0, .ro, (some 0), none, none, 0⟩
def TB_PPS_NS : RegRow := ⟨0x40000080, 0, 30, 1, 0, 1, 0, .ro, (some 0), none, none, 0⟩
def TB_PPS_FRAC : RegRow := ⟨0x40000084, 0, 32, 1, 0, 1, 0, .ro, (some 0), none, none, 0⟩

/-! ### TT_ (02_time_base_and_frames.md, R102, R126, R152, R64) -/
-- TT_FRAME_PERIOD, 0x4001_0000 + 0x000
def TT_FRAME_PERIOD : RegRow := ⟨0x40010000, 0, 11, 1, 0, 1, 0, .rwl, (some 100), none, none, 100⟩
def TT_FRAME_PERIOD_SUBFRAMES : RegRow := ⟨0x40010000, 16, 8, 1, 0, 1, 0, .rwl, (some 0), none, none, 0⟩
-- TT_ALIGN, 0x4001_0000 + 0x004
def TT_ALIGN_MODE : RegRow := ⟨0x40010004, 0, 1, 1, 0, 1, 0, .rwl, (some 0), none, none, 0⟩
def TT_ALIGN_TRIM_MAX : RegRow := ⟨0x40010004, 4, 4, 1, 0, 1, 0, .rwl, (some 1), none, none, 1⟩
def TT_ALIGN_LIMIT : RegRow := ⟨0x40010004, 16, 16, 1, 0, 1, 0, .rwl, (some 100), none, none, 100⟩
-- TT_FRAME_NO, TT_LAST_TICK and TT_ALIGN_STATUS, 0x4001_0000 + 0x010 to 0x020
def TT_FRAME_NO_LO : RegRow := ⟨0x40010010, 0, 32, 1, 0, 1, 0, .ro, (some 0), (some 0), none, 0⟩
def TT_FRAME_NO_HI : RegRow := ⟨0x40010014, 0, 32, 1, 0, 1, 0, .ro, (some 0), (some 0), none, 0⟩
def TT_LAST_TICK_LO : RegRow := ⟨0x40010018, 0, 32, 1, 0, 1, 0, .ro, (some 0), none, none, 0⟩
def TT_LAST_TICK_HI : RegRow := ⟨0x4001001c, 0, 32, 1, 0, 1, 0, .ro, (some 0), none, none, 0⟩
def TT_ALIGN_STATUS_OFFSET : RegRow := ⟨0x40010020, 0, 16, 1, 0, 1, 0, .ro, (some 0), (some 0), (some 0), 0⟩
def TT_ALIGN_STATUS_ALIGNED : RegRow := ⟨0x40010020, 16, 1, 1, 0, 1, 0, .ro, (some 0), (some 0), (some 0), 0⟩
def TT_ALIGN_STATUS_MISALIGNED : RegRow := ⟨0x40010020, 17, 1, 1, 0, 1, 0, .w1c, (some 0), (some 0), (some 0), 0⟩
def TT_ALIGN_STATUS_CFG_ERR : RegRow := ⟨0x40010020, 18, 1, 1, 0, 1, 0, .w1c, (some 0), (some 0), (some 0), 0⟩
-- TT_ADM_CTRL, 0x4001_0000 + 0x040
def TT_ADM_CTRL_START : RegRow := ⟨0x40010040, 0, 1, 1, 0, 1, 0, .wo, (some 0), (some 0), (some 0), 0⟩
def TT_ADM_CTRL_ABORT : RegRow := ⟨0x40010040, 1, 1, 1, 0, 1, 0, .wo, (some 0), (some 0), (some 0), 0⟩
def TT_ADM_CTRL_SLOT : RegRow := ⟨0x40010040, 4, 5, 1, 0, 1, 0, .rw, (some 0), (some 0), (some 0), 0⟩
def TT_ADM_CTRL_PLACEMENT : RegRow := ⟨0x40010040, 9, 1, 1, 0, 1, 0, .rw, (some 0), (some 0), (some 0), 0⟩
-- TT_ADM_STATUS, 0x4001_0000 + 0x044
def TT_ADM_STATUS_BUSY : RegRow := ⟨0x40010044, 0, 1, 1, 0, 1, 0, .ro, (some 0), (some 0), (some 0), 0⟩
def TT_ADM_STATUS_DONE : RegRow := ⟨0x40010044, 1, 1, 1, 0, 1, 0, .w1c, (some 0), (some 0), (some 0), 0⟩
def TT_ADM_STATUS_CODE : RegRow := ⟨0x40010044, 16, 16, 1, 0, 1, 0, .ro, (some 0), (some 0), (some 0), 0⟩
-- TT_ADM_WHERE, TT_ADM_CYCLE and TT_ADM_RES, 0x4001_0000 + 0x048 to 0x050
def TT_ADM_WHERE_TILE : RegRow := ⟨0x40010048, 0, 5, 1, 0, 1, 0, .ro, (some 0), (some 0), (some 0), 0⟩
def TT_ADM_WHERE_BUNDLE : RegRow := ⟨0x40010048, 16, 12, 1, 0, 1, 0, .ro, (some 0), (some 0), (some 0), 0⟩
def TT_ADM_WHERE_RESP : RegRow := ⟨0x40010048, 31, 1, 1, 0, 1, 0, .ro, (some 0), (some 0), (some 0), 0⟩
def TT_ADM_CYCLE : RegRow := ⟨0x4001004c, 0, 24, 1, 0, 1, 0, .ro, (some 0), (some 0), (some 0), 0⟩
def TT_ADM_RES_KIND : RegRow := ⟨0x40010050, 0, 4, 1, 0, 1, 0, .ro, (some 0), (some 0), (some 0), 0⟩
def TT_ADM_RES_INDEX : RegRow := ⟨0x40010050, 8, 8, 1, 0, 1, 0, .ro, (some 0), (some 0), (some 0), 0⟩
-- TT_IMG_ID and TT_IMG_VER, 0x4001_0000 + 0x060 and 0x064
def TT_IMG_ID : RegRow := ⟨0x40010060, 0, 32, 1, 0, 1, 0, .ro, (some 0), (some 0), none, 0⟩
def TT_IMG_VER : RegRow := ⟨0x40010064, 0, 32, 1, 0, 1, 0, .ro, (some 0), (some 0), none, 0⟩
-- TT_PLAN, 0x4001_0000 + 0x070 to 0x08C
def TT_PLAN_ENDF_MAX : RegRow := ⟨0x40010070, 0, 24, 1, 0, 1, 0, .ro, (some 0), (some 0), none, 0⟩
def TT_PLAN_MARKER : RegRow := ⟨0x40010074, 0, 24, 1, 0, 1, 0, .ro, (some 0), (some 0), none, 0⟩
def TT_PLAN_SEAL : RegRow := ⟨0x40010078, 0, 24, 1, 0, 1, 0, .ro, (some 0), (some 0), none, 0⟩
def TT_PLAN_IN_END : RegRow := ⟨0x40010080, 0, 24, 1, 0, 1, 0, .ro, (some 0), (some 0), none, 0⟩
def TT_PLAN_EXEC_START : RegRow := ⟨0x40010084, 0, 24, 1, 0, 1, 0, .ro, (some 0), (some 0), none, 0⟩
def TT_PLAN_OUT_START : RegRow := ⟨0x40010088, 0, 24, 1, 0, 1, 0, .ro, (some 0), (some 0), none, 0⟩
def TT_PLAN_OUT_END : RegRow := ⟨0x4001008c, 0, 24, 1, 0, 1, 0, .ro, (some 0), (some 0), none, 0⟩
-- TT_ADMITTED, 0x4001_0000 + 0x090
def TT_ADMITTED_VALID : RegRow := ⟨0x40010090, 0, 1, 1, 0, 1, 0, .ro, (some 0), (some 0), (some 0), 0⟩
def TT_ADMITTED_PAIR : RegRow := ⟨0x40010090, 1, 1, 1, 0, 1, 0, .ro, (some 0), (some 0), none, 0⟩
-- TT_MODE_CUR and TT_MODE_NEXT, 0x4001_0000 + 0x100 and 0x104
def TT_MODE_CUR_ACTIVE : RegRow := ⟨0x40010100, 0, 16, 1, 0, 1, 0, .ro, none, none, none, 0⟩
def TT_MODE_CUR_MIRROR : RegRow := ⟨0x40010100, 16, 8, 1, 0, 1, 0, .ro, none, none, none, 0⟩
def TT_MODE_NEXT_ACTIVE : RegRow := ⟨0x40010104, 0, 16, 1, 0, 1, 0, .rwl, (some 0), (some 0), (some 0), 0⟩
def TT_MODE_NEXT_MIRROR : RegRow := ⟨0x40010104, 16, 8, 1, 0, 1, 0, .rwl, (some 0), (some 0), (some 0), 0⟩
-- TT_MODE_AT, 0x4001_0000 + 0x108 and 0x10C
def TT_MODE_AT_LO : RegRow := ⟨0x40010108, 0, 32, 1, 0, 1, 0, .rwl, (some 0), (some 0), (some 0), 0⟩
def TT_MODE_AT_HI : RegRow := ⟨0x4001010c, 0, 32, 1, 0, 1, 0, .rwl, (some 0), (some 0), (some 0), 0⟩
-- TT_MODE_CTRL, 0x4001_0000 + 0x110
def TT_MODE_CTRL_PREPARE : RegRow := ⟨0x40010110, 0, 1, 1, 0, 1, 0, .wo, (some 0), (some 0), (some 0), 0⟩
def TT_MODE_CTRL_ARM : RegRow := ⟨0x40010110, 1, 1, 1, 0, 1, 0, .wo, (some 0), (some 0), (some 0), 0⟩
def TT_MODE_CTRL_CANCEL : RegRow := ⟨0x40010110, 2, 1, 1, 0, 1, 0, .wo, (some 0), (some 0), (some 0), 0⟩
-- TT_MODE_STATUS, 0x4001_0000 + 0x114
def TT_MODE_STATUS_STATE : RegRow := ⟨0x40010114, 0, 3, 1, 0, 1, 0, .ro, (some 0), (some 0), (some 0), 0⟩
def TT_MODE_STATUS_REASON : RegRow := ⟨0x40010114, 8, 4, 1, 0, 1, 0, .ro, (some 0), (some 0), (some 0), 0⟩
def TT_MODE_STATUS_DONE : RegRow := ⟨0x40010114, 16, 1, 1, 0, 1, 0, .w1c, (some 0), (some 0), (some 0), 0⟩
def TT_MODE_STATUS_ABANDONED : RegRow := ⟨0x40010114, 17, 1, 1, 0, 1, 0, .w1c, (some 0), (some 0), (some 0), 0⟩
def TT_MODE_STATUS_DELTA : RegRow := ⟨0x40010114, 18, 14, 1, 0, 1, 0, .ro, (some 0), (some 0), (some 0), 0⟩
-- TT_MODE_LAST and TT_MODE_HASH, 0x4001_0000 + 0x118 to 0x12C
def TT_MODE_LAST_FRAME_LO : RegRow := ⟨0x40010118, 0, 32, 1, 0, 1, 0, .ro, (some 0), (some 0), none, 0⟩
def TT_MODE_LAST_FRAME_HI : RegRow := ⟨0x4001011c, 0, 32, 1, 0, 1, 0, .ro, (some 0), (some 0), none, 0⟩
def TT_MODE_HASH : RegRow := ⟨0x40010120, 0, 32, 4, 0x4, 1, 0, .ro, (some 0), (some 0), (some 0), 0⟩
-- TT_MODE_COUNT, 0x4001_0000 + 0x130
def TT_MODE_COUNT : RegRow := ⟨0x40010130, 0, 32, 1, 0, 1, 0, .ro, (some 0), none, none, 0⟩
-- TT_SLOT entry s, 0x4001_0000 + 0x180 + 4 × (s − 1), s from 1 to 16
def TT_SLOT_KIND : RegRow := ⟨0x40010180, 0, 3, 16, 0x4, 1, 0, .ro, none, none, none, 0⟩
def TT_SLOT_VALID : RegRow := ⟨0x40010180, 4, 1, 16, 0x4, 1, 0, .ro, none, none, none, 0⟩
def TT_SLOT_STALE : RegRow := ⟨0x40010180, 5, 1, 16, 0x4, 1, 0, .ro, none, none, none, 0⟩
def TT_SLOT_IN_FORCE : RegRow := ⟨0x40010180, 6, 1, 16, 0x4, 1, 0, .ro, none, none, none, 0⟩
def TT_SLOT_CODE : RegRow := ⟨0x40010180, 16, 16, 16, 0x4, 1, 0, .ro, none, none, none, 0⟩
-- TT_SLOT_ID entry s, 0x4001_0000 + 0x1C0 + 8 × (s − 1)
def TT_SLOT_ID : RegRow := ⟨0x400101c0, 0, 32, 16, 0x8, 1, 0, .ro, none, none, none, 0⟩
def TT_SLOT_VER : RegRow := ⟨0x400101c4, 0, 32, 16, 0x8, 1, 0, .ro, none, none, none, 0⟩
-- TT_RUN_CTRL, 0x4001_0000 + 0x280
def TT_RUN_CTRL_START : RegRow := ⟨0x40010280, 0, 1, 1, 0, 1, 0, .wo, (some 0), (some 0), (some 0), 0⟩
def TT_RUN_CTRL_STOP : RegRow := ⟨0x40010280, 1, 1, 1, 0, 1, 0, .wo, (some 0), (some 0), (some 0), 0⟩
def TT_RUN_CTRL_LRST : RegRow := ⟨0x40010280, 2, 1, 1, 0, 1, 0, .wo, (some 0), (some 0), (some 0), 0⟩
def TT_RUN_CTRL_KIND : RegRow := ⟨0x40010280, 4, 2, 1, 0, 1, 0, .rwl, (some 0), none, none, 0⟩
def TT_RUN_CTRL_AUTORUN : RegRow := ⟨0x40010280, 8, 1, 1, 0, 1, 0, .rwl, none, none, none, 0⟩
-- TT_RUN_STATUS, 0x4001_0000 + 0x284
def TT_RUN_STATUS_STATE : RegRow := ⟨0x40010284, 0, 3, 1, 0, 1, 0, .ro, (some 1), (some 1), (some 2), 1⟩
def TT_RUN_STATUS_KIND_LAST : RegRow := ⟨0x40010284, 4, 2, 1, 0, 1, 0, .ro, (some 0), (some 0), none, 0⟩
def TT_RUN_STATUS_REFUSE : RegRow := ⟨0x40010284, 8, 8, 1, 0, 1, 0, .ro, (some 0), (some 0), (some 0), 0⟩
def TT_RUN_STATUS_STARTED : RegRow := ⟨0x40010284, 16, 1, 1, 0, 1, 0, .w1c, (some 0), (some 0), (some 0), 0⟩
def TT_RUN_STATUS_STOPPED : RegRow := ⟨0x40010284, 17, 1, 1, 0, 1, 0, .w1c, (some 0), (some 0), (some 0), 0⟩
def TT_RUN_STATUS_HALTED : RegRow := ⟨0x40010284, 18, 1, 1, 0, 1, 0, .w1c, (some 0), (some 0), none, 0⟩
def TT_RUN_STATUS_HALT_CAUSE : RegRow := ⟨0x40010284, 20, 4, 1, 0, 1, 0, .ro, (some 0), (some 0), none, 0⟩
-- TT_RUN_FIRST and TT_RUN_LAST, 0x4001_0000 + 0x288 to 0x294
def TT_RUN_FIRST_LO : RegRow := ⟨0x40010288, 0, 32, 1, 0, 1, 0, .ro, (some 0), (some 0), none, 0⟩
def TT_RUN_FIRST_HI : RegRow := ⟨0x4001028c, 0, 32, 1, 0, 1, 0, .ro, (some 0), (some 0), none, 0⟩
def TT_RUN_LAST_LO : RegRow := ⟨0x40010290, 0, 32, 1, 0, 1, 0, .ro, (some 0), (some 0), none, 0⟩
def TT_RUN_LAST_HI : RegRow := ⟨0x40010294, 0, 32, 1, 0, 1, 0, .ro, (some 0), (some 0), none, 0⟩
-- TT_RET_CTRL, 0x4001_0000 + 0x2A0
def TT_RET_CTRL_CLEAR : RegRow := ⟨0x400102a0, 0, 1, 1, 0, 1, 0, .wo, (some 0), (some 0), (some 0), 0⟩
-- TT_RET_STATUS, 0x4001_0000 + 0x2A4
def TT_RET_STATUS_RESTORED : RegRow := ⟨0x400102a4, 0, 1, 1, 0, 1, 0, .ro, (some 0), (some 0), (some 0), 0⟩
def TT_RET_STATUS_MISMATCH : RegRow := ⟨0x400102a4, 1, 1, 1, 0, 1, 0, .w1c, (some 0), (some 0), none, 0⟩
def TT_RET_STATUS_PORTB_REFUSED : RegRow := ⟨0x400102a4, 2, 1, 1, 0, 1, 0, .w1c, (some 0), (some 0), none, 0⟩
def TT_RET_STATUS_BUSY : RegRow := ⟨0x400102a4, 3, 1, 1, 0, 1, 0, .ro, (some 0), (some 0), (some 0), 0⟩
def TT_RET_STATUS_DIRTY_MAX : RegRow := ⟨0x400102a4, 16, 12, 1, 0, 1, 0, .ro, (some 0), (some 0), none, 0⟩
-- TT_RET_FRAME and TT_RET_LOST, 0x4001_0000 + 0x2A8 to 0x2B0
def TT_RET_FRAME_LO : RegRow := ⟨0x400102a8, 0, 32, 1, 0, 1, 0, .ro, none, none, none, 0⟩
def TT_RET_FRAME_HI : RegRow := ⟨0x400102ac, 0, 32, 1, 0, 1, 0, .ro, none, none, none, 0⟩
def TT_RET_FRAME_LOST : RegRow := ⟨0x400102b0, 0, 2, 1, 0, 1, 0, .ro, none, none, none, 0⟩

/-! ### LT_ (03_timetable_contract.md, R102) -/
-- LT_MAP entry l, 0x4002_0000 + 0x000 + 4 × l, l from 0 to 31
def LT_MAP_X : RegRow := ⟨0x40020000, 0, 3, 32, 0x4, 1, 0, .ro, none, none, none, 0⟩
def LT_MAP_Y : RegRow := ⟨0x40020000, 4, 3, 32, 0x4, 1, 0, .ro, none, none, none, 0⟩
-- LT_PHYS entry p, 0x4002_0000 + 0x100 + 4 × p, p from 0 to 35
def LT_PHYS_STATE : RegRow := ⟨0x40020100, 0, 2, 36, 0x4, 1, 0, .ro, none, none, none, 0⟩
def LT_PHYS_LOGICAL : RegRow := ⟨0x40020100, 8, 5, 36, 0x4, 1, 0, .ro, none, none, none, 0⟩
def LT_PHYS_ECC_COR : RegRow := ⟨0x40020100, 16, 16, 36, 0x4, 1, 0, .ro, (some 0), (some 0), none, 0⟩
-- LT_RELOC_CTRL, 0x4002_0000 + 0x200
def LT_RELOC_LOGICAL : RegRow := ⟨0x40020200, 0, 5, 1, 0, 1, 0, .rwl, (some 0), (some 0), (some 0), 0⟩
def LT_RELOC_TARGET : RegRow := ⟨0x40020200, 8, 6, 1, 0, 1, 0, .rwl, (some 0), (some 0), (some 0), 0⟩
def LT_RELOC_CHECK : RegRow := ⟨0x40020200, 16, 1, 1, 0, 1, 0, .wo, (some 0), (some 0), (some 0), 0⟩
def LT_RELOC_COMMIT : RegRow := ⟨0x40020200, 17, 1, 1, 0, 1, 0, .wo, (some 0), (some 0), (some 0), 0⟩
-- LT_RELOC_STATUS, 0x4002_0000 + 0x204
def LT_RELOC_STATUS_BUSY : RegRow := ⟨0x40020204, 0, 1, 1, 0, 1, 0, .ro, (some 0), (some 0), (some 0), 0⟩
def LT_RELOC_STATUS_PASS : RegRow := ⟨0x40020204, 1, 1, 1, 0, 1, 0, .ro, (some 0), (some 0), (some 0), 0⟩
def LT_RELOC_STATUS_DONE : RegRow := ⟨0x40020204, 2, 1, 1, 0, 1, 0, .w1c, (some 0), (some 0), (some 0), 0⟩
def LT_RELOC_STATUS_CODE : RegRow := ⟨0x40020204, 16, 16, 1, 0, 1, 0, .ro, (some 0), (some 0), (some 0), 0⟩
-- LT_SHADOW_STATUS, 0x4002_0000 + 0x208
def LT_SHADOW_STATUS_BUSY : RegRow := ⟨0x40020208, 0, 1, 1, 0, 1, 0, .ro, (some 0), (some 0), (some 0), 0⟩
def LT_SHADOW_STATUS_UNCOVERED : RegRow := ⟨0x40020208, 1, 1, 1, 0, 1, 0, .w1c, (some 0), (some 0), (some 0), 0⟩
def LT_SHADOW_STATUS_MIS : RegRow := ⟨0x40020208, 2, 1, 1, 0, 1, 0, .w1c, (some 0), (some 0), none, 0⟩
def LT_SHADOW_STATUS_PHYS : RegRow := ⟨0x40020208, 8, 6, 1, 0, 1, 0, .ro, (some 0), (some 0), none, 0⟩
def LT_SHADOW_STATUS_COUNT : RegRow := ⟨0x40020208, 16, 16, 1, 0, 1, 0, .ro, (some 0), (some 0), none, 0⟩
-- LT_TILE_FLAGS entry l, 0x4002_0000 + 0x300 + 4 × l
def LT_TF_SAT : RegRow := ⟨0x40020300, 0, 1, 32, 0x4, 1, 0, .w1c, (some 0), (some 0), (some 0), 0⟩
def LT_TF_DIVZ : RegRow := ⟨0x40020300, 1, 1, 32, 0x4, 1, 0, .w1c, (some 0), (some 0), (some 0), 0⟩
def LT_TF_RINGFULL : RegRow := ⟨0x40020300, 2, 1, 32, 0x4, 1, 0, .w1c, (some 0), (some 0), (some 0), 0⟩
def LT_TF_ECC_COR : RegRow := ⟨0x40020300, 3, 1, 32, 0x4, 1, 0, .w1c, (some 0), (some 0), (some 0), 0⟩
def LT_TF_ECC_UNC : RegRow := ⟨0x40020300, 4, 1, 32, 0x4, 1, 0, .w1c, (some 0), (some 0), (some 0), 0⟩
-- LT_BANK entry b, 0x4002_0000 + 0x400 + 4 × b, b from 0 to 15
def LT_BANK_ECC_COR : RegRow := ⟨0x40020400, 0, 16, 16, 0x4, 1, 0, .ro, (some 0), (some 0), none, 0⟩
def LT_BANK_ECC_UNC : RegRow := ⟨0x40020400, 16, 1, 16, 0x4, 1, 0, .w1c, (some 0), (some 0), (some 0), 0⟩
def LT_BANK_GROUP_LOG2 : RegRow := ⟨0x40020400, 20, 3, 16, 0x4, 1, 0, .ro, (some 0), (some 0), none, 0⟩
def LT_BANK_GROUP_FIRST : RegRow := ⟨0x40020400, 24, 4, 16, 0x4, 1, 0, .ro, (some 0), (some 0), none, 0⟩

/-! ### LP_ (06_loop_engine.md, R177) -/
-- LP_STATUS, 0x4004_0000 + 0x000
def LP_STATUS_BUSY : RegRow := ⟨0x40040000, 0, 1, 1, 0, 1, 0, .ro, (some 0), (some 0), (some 0), 0⟩
def LP_STATUS_OVF_ANY : RegRow := ⟨0x40040000, 1, 1, 1, 0, 1, 0, .w1c, (some 0), (some 0), (some 0), 0⟩
def LP_STATUS_MISSED_ANY : RegRow := ⟨0x40040000, 2, 1, 1, 0, 1, 0, .w1c, (some 0), (some 0), (some 0), 0⟩
def LP_STATUS_PV_BAD_ANY : RegRow := ⟨0x40040000, 3, 1, 1, 0, 1, 0, .w1c, (some 0), (some 0), (some 0), 0⟩
def LP_STATUS_CFG_BAD_ANY : RegRow := ⟨0x40040000, 4, 1, 1, 0, 1, 0, .w1c, (some 0), (some 0), (some 0), 0⟩
def LP_STATUS_DUP : RegRow := ⟨0x40040000, 5, 1, 1, 0, 1, 0, .w1c, (some 0), (some 0), (some 0), 0⟩
def LP_STATUS_WIN_WR_REFUSED : RegRow := ⟨0x40040000, 6, 1, 1, 0, 1, 0, .w1c, (some 0), (some 0), none, 0⟩
-- LP_CALLS and LP_LAST_MISS, 0x4004_0000 + 0x004 and 0x008
def LP_CALLS : RegRow := ⟨0x40040004, 0, 32, 1, 0, 1, 0, .ro, (some 0), (some 0), none, 0⟩
def LP_LAST_MISS_RECORD : RegRow := ⟨0x40040008, 0, 9, 1, 0, 1, 0, .ro, (some 0), (some 0), (some 0), 0⟩
def LP_LAST_MISS_VALID : RegRow := ⟨0x40040008, 31, 1, 1, 0, 1, 0, .ro, (some 0), (some 0), (some 0), 0⟩
-- LP_WIN_ADDR and LP_WIN_DATA, 0x4004_0000 + 0x010 and 0x014
def LP_WIN_ADDR : RegRow := ⟨0x40040010, 2, 16, 1, 0, 1, 0, .rw, (some 0), (some 0), (some 0), 0⟩
def LP_WIN_DATA : RegRow := ⟨0x40040014, 0, 32, 1, 0, 1, 0, .rw, (some 0), (some 0), (some 0), 0⟩
-- LP_FLAGSUM and LP_MISSSUM word w, 0x4004_0000 + 0x040 + 4 × w and 0x080 + 4 × w, w from 0 to 15
def LP_FLAGSUM : RegRow := ⟨0x40040040, 0, 32, 16, 0x4, 1, 0, .ro, (some 0), (some 0), (some 0), 0⟩
def LP_MISSSUM : RegRow := ⟨0x40040080, 0, 32, 16, 0x4, 1, 0, .ro, (some 0), (some 0), (some 0), 0⟩

/-! ### SV_ (07_solver_engine.md, R204) -/
-- SV_STATUS, 0x4003_0000 + 0x000
def SV_STATUS_BUSY : RegRow := ⟨0x40030000, 0, 8, 1, 0, 1, 0, .ro, (some 0), (some 0), (some 0), 0⟩
def SV_STATUS_PIVOT_ANY : RegRow := ⟨0x40030000, 8, 1, 1, 0, 1, 0, .w1c, (some 0), (some 0), (some 0), 0⟩
def SV_STATUS_NOTPD_ANY : RegRow := ⟨0x40030000, 9, 1, 1, 0, 1, 0, .w1c, (some 0), (some 0), (some 0), 0⟩
def SV_STATUS_IN_RANGE_ANY : RegRow := ⟨0x40030000, 10, 1, 1, 0, 1, 0, .w1c, (some 0), (some 0), (some 0), 0⟩
def SV_STATUS_OVF_ANY : RegRow := ⟨0x40030000, 11, 1, 1, 0, 1, 0, .w1c, (some 0), (some 0), (some 0), 0⟩
def SV_STATUS_DEADLINE_ANY : RegRow := ⟨0x40030000, 12, 1, 1, 0, 1, 0, .w1c, (some 0), (some 0), (some 0), 0⟩
def SV_STATUS_INFEAS_ANY : RegRow := ⟨0x40030000, 13, 1, 1, 0, 1, 0, .w1c, (some 0), (some 0), (some 0), 0⟩
def SV_STATUS_ECC_UNC : RegRow := ⟨0x40030000, 14, 1, 1, 0, 1, 0, .w1c, (some 0), (some 0), (some 0), 0⟩
def SV_STATUS_WIN_WR_REFUSED : RegRow := ⟨0x40030000, 15, 1, 1, 0, 1, 0, .w1c, (some 0), (some 0), none, 0⟩
def SV_STATUS_SHADOW_MIS : RegRow := ⟨0x40030000, 16, 1, 1, 0, 1, 0, .w1c, (some 0), (some 0), none, 0⟩
-- SV_CALLS entry u, 0x4003_0000 + 0x010 + 4 × u, u from 0 to 7
def SV_CALLS : RegRow := ⟨0x40030010, 0, 32, 8, 0x4, 1, 0, .ro, (some 0), (some 0), none, 0⟩
-- SV_MAP entry u, 0x4003_0000 + 0x040 + 4 × u, u from 0 to 7
def SV_MAP_PHYS : RegRow := ⟨0x40030040, 0, 4, 8, 0x4, 1, 0, .ro, none, none, none, 0⟩
-- SV_PHYS entry p, 0x4003_0000 + 0x080 + 4 × p, p from 0 to 8
def SV_PHYS_STATE : RegRow := ⟨0x40030080, 0, 2, 9, 0x4, 1, 0, .ro, none, none, none, 0⟩
def SV_PHYS_LOGICAL : RegRow := ⟨0x40030080, 8, 3, 9, 0x4, 1, 0, .ro, none, none, none, 0⟩
def SV_PHYS_ECC_COR : RegRow := ⟨0x40030080, 16, 16, 9, 0x4, 1, 0, .ro, (some 0), (some 0), none, 0⟩
-- SV_RELOC_CTRL and SV_RELOC_STATUS, 0x4003_0000 + 0x0C0 and 0x0C4
def SV_RELOC_CTRL_LOGICAL : RegRow := ⟨0x400300c0, 0, 3, 1, 0, 1, 0, .rwl, (some 0), (some 0), (some 0), 0⟩
def SV_RELOC_CTRL_TARGET : RegRow := ⟨0x400300c0, 8, 4, 1, 0, 1, 0, .rwl, (some 0), (some 0), (some 0), 0⟩
def SV_RELOC_CTRL_COMMIT : RegRow := ⟨0x400300c0, 16, 1, 1, 0, 1, 0, .wo, (some 0), (some 0), (some 0), 0⟩
def SV_RELOC_STATUS_PENDING : RegRow := ⟨0x400300c4, 0, 1, 1, 0, 1, 0, .ro, (some 0), (some 0), (some 0), 0⟩
def SV_RELOC_STATUS_DONE : RegRow := ⟨0x400300c4, 1, 1, 1, 0, 1, 0, .w1c, (some 0), (some 0), (some 0), 0⟩
def SV_RELOC_STATUS_REFUSED : RegRow := ⟨0x400300c4, 2, 1, 1, 0, 1, 0, .w1c, (some 0), (some 0), (some 0), 0⟩
-- SV_SHADOW, SV_SHADOW_CMP and SV_SHADOW_MIS, 0x4003_0000 + 0x0D0 to 0x0D8
def SV_SHADOW_LOGICAL : RegRow := ⟨0x400300d0, 0, 3, 1, 0, 1, 0, .rwl, (some 0), (some 0), none, 0⟩
def SV_SHADOW_EN : RegRow := ⟨0x400300d0, 8, 1, 1, 0, 1, 0, .rwl, (some 0), (some 0), none, 0⟩
def SV_SHADOW_CMP : RegRow := ⟨0x400300d4, 0, 32, 1, 0, 1, 0, .ro, (some 0), (some 0), none, 0⟩
def SV_SHADOW_MIS : RegRow := ⟨0x400300d8, 0, 32, 1, 0, 1, 0, .ro, (some 0), (some 0), none, 0⟩
-- SV_WIN_ADDR and SV_WIN_DATA, 0x4003_0000 + 0x100 and 0x104
def SV_WIN_ADDR : RegRow := ⟨0x40030100, 2, 23, 1, 0, 1, 0, .rw, (some 0), (some 0), (some 0), 0⟩
def SV_WIN_DATA : RegRow := ⟨0x40030104, 0, 32, 1, 0, 1, 0, .rw, (some 0), (some 0), (some 0), 0⟩
-- SV_DMA registers, 0x4003_0000 + 0x110 to 0x124
def SV_DMA_SRC : RegRow := ⟨0x40030110, 5, 20, 1, 0, 1, 0, .rw, (some 0), (some 0), (some 0), 0⟩
def SV_DMA_DST_LO : RegRow := ⟨0x40030114, 0, 32, 1, 0, 1, 0, .rw, (some 0), (some 0), (some 0), 0⟩
def SV_DMA_DST_HI : RegRow := ⟨0x40030118, 0, 32, 1, 0, 1, 0, .rw, (some 0), (some 0), (some 0), 0⟩
def SV_DMA_LEN : RegRow := ⟨0x4003011c, 5, 20, 1, 0, 1, 0, .rw, (some 0), (some 0), (some 0), 0⟩
def SV_DMA_START : RegRow := ⟨0x40030120, 0, 1, 1, 0, 1, 0, .wo, (some 0), (some 0), (some 0), 0⟩
def SV_DMA_ABORT : RegRow := ⟨0x40030120, 1, 1, 1, 0, 1, 0, .wo, (some 0), (some 0), (some 0), 0⟩
def SV_DMA_BUSY : RegRow := ⟨0x40030124, 0, 1, 1, 0, 1, 0, .ro, (some 0), (some 0), (some 0), 0⟩
def SV_DMA_DONE : RegRow := ⟨0x40030124, 1, 1, 1, 0, 1, 0, .w1c, (some 0), (some 0), (some 0), 0⟩
def SV_DMA_ERR : RegRow := ⟨0x40030124, 2, 1, 1, 0, 1, 0, .w1c, (some 0), (some 0), (some 0), 0⟩
def SV_DMA_RETRIES : RegRow := ⟨0x40030124, 16, 16, 1, 0, 1, 0, .ro, (some 0), (some 0), (some 0), 0⟩

/-! ### FG_ (08_universal_channels.md, R240) -/
-- FG_STATUS, base + 0x000
def FG_STATUS_FALLBACK : RegRow := ⟨0x40050000, 0, 1, 12, 0x1000, 1, 0, .ro, (some 1), (some 1), none, 1⟩
def FG_STATUS_JUMPER : RegRow := ⟨0x40050000, 1, 1, 12, 0x1000, 1, 0, .ro, none, none, none, 0⟩
def FG_STATUS_CROSS_OK : RegRow := ⟨0x40050000, 2, 1, 12, 0x1000, 1, 0, .ro, (some 0), (some 0), none, 0⟩
def FG_STATUS_CJ0_OK : RegRow := ⟨0x40050000, 3, 1, 12, 0x1000, 1, 0, .ro, (some 0), (some 0), none, 0⟩
def FG_STATUS_CJ7_OK : RegRow := ⟨0x40050000, 4, 1, 12, 0x1000, 1, 0, .ro, (some 0), (some 0), none, 0⟩
def FG_STATUS_REF_DEV : RegRow := ⟨0x40050000, 5, 1, 12, 0x1000, 1, 0, .w1c, (some 0), (some 0), none, 0⟩
def FG_STATUS_POWER_LIMIT : RegRow := ⟨0x40050000, 6, 1, 12, 0x1000, 1, 0, .ro, (some 0), (some 0), (some 0), 0⟩
def FG_STATUS_MODULE_LIMIT : RegRow := ⟨0x40050000, 7, 1, 12, 0x1000, 1, 0, .ro, (some 0), (some 0), (some 0), 0⟩
def FG_STATUS_EXHAUSTED : RegRow := ⟨0x40050000, 8, 1, 12, 0x1000, 1, 0, .ro, none, none, none, 0⟩
def FG_STATUS_FALLBACK_SEEN : RegRow := ⟨0x40050000, 9, 1, 12, 0x1000, 1, 0, .w1c, (some 0), (some 0), none, 0⟩
def FG_STATUS_APPLY_PENDING : RegRow := ⟨0x40050000, 10, 1, 12, 0x1000, 1, 0, .ro, (some 0), (some 0), (some 0), 0⟩
def FG_STATUS_RATE_ADAPTED : RegRow := ⟨0x40050000, 11, 1, 12, 0x1000, 1, 0, .ro, (some 0), (some 0), (some 0), 0⟩
-- FG_POWER, FG_CJ0, FG_CJ7 and FG_CROSS_ERR, base + 0x004 to 0x010
def FG_POWER_DRAW : RegRow := ⟨0x40050004, 0, 16, 12, 0x1000, 1, 0, .ro, (some 0), (some 0), (some 0), 0⟩
def FG_POWER_LIMIT : RegRow := ⟨0x40050004, 16, 16, 12, 0x1000, 1, 0, .ro, (some 5000), (some 5000), (some 5000), 5000⟩
def FG_CJ0 : RegRow := ⟨0x40050008, 0, 32, 12, 0x1000, 1, 0, .ro, (some 0), (some 0), (some 0), 0⟩
def FG_CJ7 : RegRow := ⟨0x4005000c, 0, 32, 12, 0x1000, 1, 0, .ro, (some 0), (some 0), (some 0), 0⟩
def FG_CROSS_ERR_COUNT : RegRow := ⟨0x40050010, 0, 16, 12, 0x1000, 1, 0, .ro, (some 0), (some 0), none, 0⟩
-- FG_APPLY and FG_APPLY_STATUS, base + 0x020 and 0x024
def FG_APPLY : RegRow := ⟨0x40050020, 0, 1, 12, 0x1000, 1, 0, .wo, (some 0), (some 0), (some 0), 0⟩
def FG_APPLY_CANCEL : RegRow := ⟨0x40050020, 1, 1, 12, 0x1000, 1, 0, .wo, (some 0), (some 0), (some 0), 0⟩
def FG_APPLY_STATUS_DONE : RegRow := ⟨0x40050024, 0, 1, 12, 0x1000, 1, 0, .w1c, (some 0), (some 0), (some 0), 0⟩
def FG_APPLY_STATUS_REFUSED : RegRow := ⟨0x40050024, 1, 1, 12, 0x1000, 1, 0, .w1c, (some 0), (some 0), (some 0), 0⟩
def FG_APPLY_STATUS_REASON : RegRow := ⟨0x40050024, 8, 4, 12, 0x1000, 1, 0, .ro, (some 0), (some 0), (some 0), 0⟩
def FG_APPLY_STATUS_TERMINAL : RegRow := ⟨0x40050024, 16, 3, 12, 0x1000, 1, 0, .ro, (some 0), (some 0), (some 0), 0⟩
-- FG_SPARE_CTRL and FG_SPARE_STATUS, base + 0x030 and 0x034
def FG_SPARE_CTRL_TERMINAL : RegRow := ⟨0x40050030, 0, 3, 12, 0x1000, 1, 0, .rwl, (some 0), (some 0), (some 0), 0⟩
def FG_SPARE_CTRL_START : RegRow := ⟨0x40050030, 8, 1, 12, 0x1000, 1, 0, .wo, (some 0), (some 0), (some 0), 0⟩
def FG_SPARE_CTRL_CANCEL : RegRow := ⟨0x40050030, 9, 1, 12, 0x1000, 1, 0, .wo, (some 0), (some 0), (some 0), 0⟩
def FG_SPARE_STATUS_STATE : RegRow := ⟨0x40050034, 0, 3, 12, 0x1000, 1, 0, .ro, none, none, none, 0⟩
def FG_SPARE_STATUS_TERMINAL : RegRow := ⟨0x40050034, 4, 3, 12, 0x1000, 1, 0, .ro, none, none, none, 0⟩
def FG_SPARE_STATUS_XCHK : RegRow := ⟨0x40050034, 8, 4, 12, 0x1000, 1, 0, .ro, (some 0), (some 0), (some 0), 0⟩
def FG_SPARE_STATUS_DONE : RegRow := ⟨0x40050034, 16, 1, 12, 0x1000, 1, 0, .w1c, (some 0), (some 0), (some 0), 0⟩
def FG_SPARE_STATUS_REFUSED : RegRow := ⟨0x40050034, 17, 1, 12, 0x1000, 1, 0, .w1c, (some 0), (some 0), (some 0), 0⟩
def FG_SPARE_STATUS_REASON : RegRow := ⟨0x40050034, 20, 4, 12, 0x1000, 1, 0, .ro, (some 0), (some 0), (some 0), 0⟩
-- FG_CONV_MAP and FG_CONV_STATE, base + 0x038 and 0x03C
def FG_CONV_MAP_CONV0 : RegRow := ⟨0x40050038, 0, 4, 12, 0x1000, 1, 0, .ro, none, none, none, 0⟩
def FG_CONV_MAP_CONV1 : RegRow := ⟨0x40050038, 4, 4, 12, 0x1000, 1, 0, .ro, none, none, none, 0⟩
def FG_CONV_MAP_CONV2 : RegRow := ⟨0x40050038, 8, 4, 12, 0x1000, 1, 0, .ro, none, none, none, 0⟩
def FG_CONV_MAP_CONV3 : RegRow := ⟨0x40050038, 12, 4, 12, 0x1000, 1, 0, .ro, none, none, none, 0⟩
def FG_CONV_MAP_CONV4 : RegRow := ⟨0x40050038, 16, 4, 12, 0x1000, 1, 0, .ro, none, none, none, 0⟩
def FG_CONV_MAP_CONV5 : RegRow := ⟨0x40050038, 20, 4, 12, 0x1000, 1, 0, .ro, none, none, none, 0⟩
def FG_CONV_MAP_CONV6 : RegRow := ⟨0x40050038, 24, 4, 12, 0x1000, 1, 0, .ro, none, none, none, 0⟩
def FG_CONV_MAP_CONV7 : RegRow := ⟨0x40050038, 28, 4, 12, 0x1000, 1, 0, .ro, none, none, none, 0⟩
def FG_CONV_STATE_C0 : RegRow := ⟨0x4005003c, 0, 2, 12, 0x1000, 1, 0, .ro, none, none, none, 0⟩
def FG_CONV_STATE_C1 : RegRow := ⟨0x4005003c, 2, 2, 12, 0x1000, 1, 0, .ro, none, none, none, 0⟩
def FG_CONV_STATE_C2 : RegRow := ⟨0x4005003c, 4, 2, 12, 0x1000, 1, 0, .ro, none, none, none, 0⟩
def FG_CONV_STATE_C3 : RegRow := ⟨0x4005003c, 6, 2, 12, 0x1000, 1, 0, .ro, none, none, none, 0⟩
def FG_CONV_STATE_C4 : RegRow := ⟨0x4005003c, 8, 2, 12, 0x1000, 1, 0, .ro, none, none, none, 0⟩
def FG_CONV_STATE_C5 : RegRow := ⟨0x4005003c, 10, 2, 12, 0x1000, 1, 0, .ro, none, none, none, 0⟩
def FG_CONV_STATE_C6 : RegRow := ⟨0x4005003c, 12, 2, 12, 0x1000, 1, 0, .ro, none, none, none, 0⟩
def FG_CONV_STATE_C7 : RegRow := ⟨0x4005003c, 14, 2, 12, 0x1000, 1, 0, .ro, none, none, none, 0⟩
def FG_CONV_STATE_C8 : RegRow := ⟨0x4005003c, 16, 2, 12, 0x1000, 1, 0, .ro, none, none, none, 0⟩

/-! ### CH_ (08_universal_channels.md, R240) -/
-- CH_CFG, + 0x00
def CH_CFG_MODE : RegRow := ⟨0x40050100, 0, 4, 12, 0x1000, 8, 0x40, .rwl, (some 0), (some 0), none, 0⟩
def CH_CFG_RANGE : RegRow := ⟨0x40050100, 4, 2, 12, 0x1000, 8, 0x40, .rwl, (some 0), (some 0), none, 0⟩
def CH_CFG_WIRES : RegRow := ⟨0x40050100, 6, 2, 12, 0x1000, 8, 0x40, .rwl, (some 0), (some 0), none, 0⟩
def CH_CFG_SENSOR : RegRow := ⟨0x40050100, 8, 4, 12, 0x1000, 8, 0x40, .rwl, (some 0), (some 0), none, 0⟩
def CH_CFG_QM : RegRow := ⟨0x40050100, 12, 5, 12, 0x1000, 8, 0x40, .rwl, (some 0), (some 0), none, 0⟩
def CH_CFG_RATE_MODE : RegRow := ⟨0x40050100, 18, 2, 12, 0x1000, 8, 0x40, .rwl, (some 1), (some 1), none, 1⟩
def CH_CFG_NE43_EN : RegRow := ⟨0x40050100, 20, 1, 12, 0x1000, 8, 0x40, .rwl, (some 0), (some 0), none, 0⟩
def CH_CFG_ALARM_HIGH : RegRow := ⟨0x40050100, 21, 1, 12, 0x1000, 8, 0x40, .rwl, (some 0), (some 0), none, 0⟩
def CH_CFG_SINK : RegRow := ⟨0x40050100, 22, 1, 12, 0x1000, 8, 0x40, .rwl, (some 0), (some 0), none, 0⟩
def CH_CFG_HART_EN : RegRow := ⟨0x40050100, 23, 1, 12, 0x1000, 8, 0x40, .rwl, (some 0), (some 0), none, 0⟩
def CH_CFG_CJ_SRC : RegRow := ⟨0x40050100, 24, 2, 12, 0x1000, 8, 0x40, .rwl, (some 0), (some 0), none, 0⟩
def CH_CFG_CJ_TERM : RegRow := ⟨0x40050100, 28, 3, 12, 0x1000, 8, 0x40, .rwl, (some 0), (some 0), none, 0⟩
-- CH_RATE, CH_SCALE_A, CH_SCALE_B, + 0x04 to 0x0C
def CH_RATE_N : RegRow := ⟨0x40050104, 0, 10, 12, 0x1000, 8, 0x40, .rwl, (some 1), (some 1), none, 1⟩
def CH_RATE_K : RegRow := ⟨0x40050104, 16, 8, 12, 0x1000, 8, 0x40, .rwl, (some 1), (some 1), none, 1⟩
def CH_SCALE_A : RegRow := ⟨0x40050108, 0, 32, 12, 0x1000, 8, 0x40, .rwl, (some 0x10000), (some 0x10000), none, 0x10000⟩
def CH_SCALE_B : RegRow := ⟨0x4005010c, 0, 32, 12, 0x1000, 8, 0x40, .rwl, (some 0), (some 0), none, 0⟩
-- CH_SAFE_KIND, CH_SAFE_VALUE, CH_TRIM_GAIN, CH_TRIM_OFFSET, + 0x10 to 0x1C
def CH_SAFE_KIND : RegRow := ⟨0x40050110, 0, 2, 12, 0x1000, 8, 0x40, .rwl, (some 1), (some 1), none, 1⟩
def CH_SAFE_VALUE : RegRow := ⟨0x40050114, 0, 32, 12, 0x1000, 8, 0x40, .rwl, (some 0), (some 0), none, 0⟩
def CH_TRIM_GAIN : RegRow := ⟨0x40050118, 0, 32, 12, 0x1000, 8, 0x40, .rwl, (some 0x40000000), (some 0x40000000), none, 0x40000000⟩
def CH_TRIM_OFFSET : RegRow := ⟨0x4005011c, 0, 32, 12, 0x1000, 8, 0x40, .rwl, (some 0), (some 0), none, 0⟩
-- CH_LEAD_R, CH_CJ_FIXED, CH_DRIFT_LIM, + 0x20 to 0x28
def CH_LEAD_R : RegRow := ⟨0x40050120, 0, 20, 12, 0x1000, 8, 0x40, .rwl, (some 0), (some 0), none, 0⟩
def CH_CJ_FIXED : RegRow := ⟨0x40050124, 0, 32, 12, 0x1000, 8, 0x40, .rwl, (some 0), (some 0), none, 0⟩
def CH_DRIFT_LIM : RegRow := ⟨0x40050128, 0, 16, 12, 0x1000, 8, 0x40, .rwl, (some 50), (some 50), none, 50⟩
-- CH_FLAGS, + 0x2C
def CH_FLAGS_B1 : RegRow := ⟨0x4005012c, 1, 1, 12, 0x1000, 8, 0x40, .w1c, (some 0), (some 0), none, 0⟩
def CH_FLAGS_B2 : RegRow := ⟨0x4005012c, 2, 1, 12, 0x1000, 8, 0x40, .w1c, (some 0), (some 0), none, 0⟩
def CH_FLAGS_B3 : RegRow := ⟨0x4005012c, 3, 1, 12, 0x1000, 8, 0x40, .w1c, (some 0), (some 0), none, 0⟩
def CH_FLAGS_B4 : RegRow := ⟨0x4005012c, 4, 1, 12, 0x1000, 8, 0x40, .w1c, (some 0), (some 0), none, 0⟩
def CH_FLAGS_B5 : RegRow := ⟨0x4005012c, 5, 1, 12, 0x1000, 8, 0x40, .w1c, (some 0), (some 0), none, 0⟩
def CH_FLAGS_B6 : RegRow := ⟨0x4005012c, 6, 1, 12, 0x1000, 8, 0x40, .w1c, (some 0), (some 0), none, 0⟩
def CH_FLAGS_B9 : RegRow := ⟨0x4005012c, 9, 1, 12, 0x1000, 8, 0x40, .w1c, (some 0), (some 0), none, 0⟩
def CH_FLAGS_B10 : RegRow := ⟨0x4005012c, 10, 1, 12, 0x1000, 8, 0x40, .w1c, (some 0), (some 0), none, 0⟩
def CH_FLAGS_B11 : RegRow := ⟨0x4005012c, 11, 1, 12, 0x1000, 8, 0x40, .w1c, (some 0), (some 0), none, 0⟩
def CH_FLAGS_B12 : RegRow := ⟨0x4005012c, 12, 1, 12, 0x1000, 8, 0x40, .w1c, (some 0), (some 0), none, 0⟩
def CH_FLAGS_B13 : RegRow := ⟨0x4005012c, 13, 1, 12, 0x1000, 8, 0x40, .w1c, (some 0), (some 0), none, 0⟩
def CH_FLAGS_B14 : RegRow := ⟨0x4005012c, 14, 1, 12, 0x1000, 8, 0x40, .w1c, (some 0), (some 0), none, 0⟩
def CH_FLAGS_B15 : RegRow := ⟨0x4005012c, 15, 1, 12, 0x1000, 8, 0x40, .w1c, (some 0), (some 0), none, 0⟩
def CH_FLAGS_B18 : RegRow := ⟨0x4005012c, 18, 1, 12, 0x1000, 8, 0x40, .w1c, (some 0), (some 0), none, 0⟩
def CH_FLAGS_B22 : RegRow := ⟨0x4005012c, 22, 1, 12, 0x1000, 8, 0x40, .w1c, (some 0), (some 0), none, 0⟩
-- CH_SHORTFALL_MAX, CH_XCHK_DEV, CH_STATUS_NOW, CH_VALUE_NOW, + 0x30 to 0x3C
def CH_SHORTFALL_MAX : RegRow := ⟨0x40050130, 0, 32, 12, 0x1000, 8, 0x40, .ro, (some 0), (some 0), none, 0⟩
def CH_XCHK_DEV : RegRow := ⟨0x40050134, 0, 32, 12, 0x1000, 8, 0x40, .ro, (some 0), (some 0), none, 0⟩
def CH_STATUS_NOW : RegRow := ⟨0x40050138, 0, 32, 12, 0x1000, 8, 0x40, .ro, (some 0), (some 0), (some 0), 0⟩
def CH_VALUE_NOW : RegRow := ⟨0x4005013c, 0, 32, 12, 0x1000, 8, 0x40, .ro, (some 0), (some 0), (some 0), 0⟩

/-! ### DIO_ (09_hart_and_discrete_io.md, R261) -/
-- DIO_STATUS, 0x4006_0000 + 0x000
def DIO_STATUS_IN_OK : RegRow := ⟨0x40060000, 0, 1, 1, 0, 1, 0, .ro, (some 0), (some 0), none, 0⟩
def DIO_STATUS_OUT_OK : RegRow := ⟨0x40060000, 1, 1, 1, 0, 1, 0, .ro, (some 0), (some 0), none, 0⟩
def DIO_STATUS_IN_STALE : RegRow := ⟨0x40060000, 2, 1, 1, 0, 1, 0, .w1c, (some 0), (some 0), none, 0⟩
def DIO_STATUS_OUT_OFF : RegRow := ⟨0x40060000, 3, 1, 1, 0, 1, 0, .ro, (some 1), (some 1), none, 1⟩
def DIO_STATUS_FAULT0 : RegRow := ⟨0x40060000, 4, 1, 1, 0, 1, 0, .w1c, (some 0), (some 0), none, 0⟩
def DIO_STATUS_FAULT1 : RegRow := ⟨0x40060000, 5, 1, 1, 0, 1, 0, .w1c, (some 0), (some 0), none, 0⟩
def DIO_STATUS_SUP0_LOW : RegRow := ⟨0x40060000, 6, 1, 1, 0, 1, 0, .ro, (some 0), (some 0), (some 0), 0⟩
def DIO_STATUS_SUP1_LOW : RegRow := ⟨0x40060000, 7, 1, 1, 0, 1, 0, .ro, (some 0), (some 0), (some 0), 0⟩
def DIO_STATUS_TRIP : RegRow := ⟨0x40060000, 8, 4, 1, 0, 1, 0, .ro, (some 0), (some 0), (some 0), 0⟩
def DIO_STATUS_CAP_LOST : RegRow := ⟨0x40060000, 12, 1, 1, 0, 1, 0, .w1c, (some 0), (some 0), none, 0⟩
-- DIO_IN_STATE, DIO_IN_RAW, DIO_OUT_NOW and DIO_CROSS_ERR, 0x4006_0000 + 0x004 to 0x010
def DIO_IN_STATE : RegRow := ⟨0x40060004, 0, 32, 1, 0, 1, 0, .ro, (some 0), (some 0), (some 0), 0⟩
def DIO_IN_RAW : RegRow := ⟨0x40060008, 0, 32, 1, 0, 1, 0, .ro, (some 0), (some 0), (some 0), 0⟩
def DIO_OUT_NOW : RegRow := ⟨0x4006000c, 0, 32, 1, 0, 1, 0, .ro, (some 0), (some 0), (some 0), 0⟩
def DIO_CROSS_ERR_COUNT : RegRow := ⟨0x40060010, 0, 16, 1, 0, 1, 0, .ro, (some 0), (some 0), none, 0⟩
-- DIO_APPLY and DIO_APPLY_STATUS, 0x4006_0000 + 0x020 and 0x024
def DIO_APPLY : RegRow := ⟨0x40060020, 0, 1, 1, 0, 1, 0, .wo, (some 0), (some 0), (some 0), 0⟩
def DIO_APPLY_CANCEL : RegRow := ⟨0x40060020, 1, 1, 1, 0, 1, 0, .wo, (some 0), (some 0), (some 0), 0⟩
def DIO_APPLY_STATUS_DONE : RegRow := ⟨0x40060024, 0, 1, 1, 0, 1, 0, .w1c, (some 0), (some 0), (some 0), 0⟩
def DIO_APPLY_STATUS_REFUSED : RegRow := ⟨0x40060024, 1, 1, 1, 0, 1, 0, .w1c, (some 0), (some 0), (some 0), 0⟩
def DIO_APPLY_STATUS_REASON : RegRow := ⟨0x40060024, 8, 4, 1, 0, 1, 0, .ro, (some 0), (some 0), (some 0), 0⟩
def DIO_APPLY_STATUS_INPUT : RegRow := ⟨0x40060024, 16, 5, 1, 0, 1, 0, .ro, (some 0), (some 0), (some 0), 0⟩
-- DIO_IN_TYPE and DIO_IN_CONT, 0x4006_0000 + 0x030 and 0x034
def DIO_IN_TYPE : RegRow := ⟨0x40060030, 0, 32, 1, 0, 1, 0, .rwl, (some 0), (some 0), none, 0⟩
def DIO_IN_CONT : RegRow := ⟨0x40060034, 0, 32, 1, 0, 1, 0, .rwl, (some 0), (some 0), none, 0⟩
-- DIO_IN_CFG entry d, 0x4006_0000 + 0x100 + 4 × d, d from 0 to 31
def DIO_IN_CFG_LIMIT : RegRow := ⟨0x40060100, 0, 10, 32, 0x4, 1, 0, .rwl, (some 3), (some 3), none, 3⟩
def DIO_IN_CFG_TH_ON : RegRow := ⟨0x40060100, 10, 10, 32, 0x4, 1, 0, .rwl, (some 2), (some 2), none, 2⟩
def DIO_IN_CFG_TH_OFF : RegRow := ⟨0x40060100, 20, 10, 32, 0x4, 1, 0, .rwl, (some 1), (some 1), none, 1⟩
def DIO_IN_CFG_COUNT_EN : RegRow := ⟨0x40060100, 30, 1, 32, 0x4, 1, 0, .rwl, (some 0), (some 0), none, 0⟩
def DIO_IN_CFG_INVERT : RegRow := ⟨0x40060100, 31, 1, 32, 0x4, 1, 0, .rwl, (some 0), (some 0), none, 0⟩
-- DIO_OUT_SAFE entry o, 0x4006_0000 + 0x200 + 4 × o, o from 0 to 27
def DIO_OUT_SAFE_KIND : RegRow := ⟨0x40060200, 0, 2, 28, 0x4, 1, 0, .rwl, (some 1), (some 1), none, 1⟩
def DIO_OUT_SAFE_STATE : RegRow := ⟨0x40060200, 8, 1, 28, 0x4, 1, 0, .rwl, (some 0), (some 0), none, 0⟩

/-! ### HART_ (09_hart_and_discrete_io.md, R261) -/
-- HART_CFG, FG group base + 0x800 + 0x40 × t + 0x00
def HART_CFG_RETRIES : RegRow := ⟨0x40050800, 0, 3, 12, 0x1000, 8, 0x40, .rwl, (some 2), (some 2), none, 2⟩
def HART_CFG_PREAMBLE : RegRow := ⟨0x40050800, 4, 4, 12, 0x1000, 8, 0x40, .rwl, (some 5), (some 5), none, 5⟩
def HART_CFG_MULTIDROP : RegRow := ⟨0x40050800, 8, 1, 12, 0x1000, 8, 0x40, .rwl, (some 0), (some 0), none, 0⟩
def HART_CFG_SYNC : RegRow := ⟨0x40050800, 9, 1, 12, 0x1000, 8, 0x40, .rwl, (some 0), (some 0), none, 0⟩
def HART_CFG_BURST_RX : RegRow := ⟨0x40050800, 10, 1, 12, 0x1000, 8, 0x40, .rwl, (some 0), (some 0), none, 0⟩
-- HART_STATUS and HART_COUNT, FG group base + 0x800 + 0x40 × t + 0x04 to 0x0C
def HART_STATUS_STATE : RegRow := ⟨0x40050804, 0, 2, 12, 0x1000, 8, 0x40, .ro, (some 0), (some 0), (some 0), 0⟩
def HART_STATUS_QUEUED : RegRow := ⟨0x40050804, 8, 4, 12, 0x1000, 8, 0x40, .ro, (some 0), (some 0), (some 0), 0⟩
def HART_COUNT_OK : RegRow := ⟨0x40050808, 0, 16, 12, 0x1000, 8, 0x40, .ro, (some 0), (some 0), none, 0⟩
def HART_COUNT_FAIL : RegRow := ⟨0x40050808, 16, 16, 12, 0x1000, 8, 0x40, .ro, (some 0), (some 0), none, 0⟩
def HART_COUNT_BURST : RegRow := ⟨0x4005080c, 0, 16, 12, 0x1000, 8, 0x40, .ro, (some 0), (some 0), none, 0⟩

/-! ### CH_ (10_cell_chains_and_plant_estimation.md, R293) -/
-- CH_CTRL, base + 0x000
def CH_CTRL_EN : RegRow := ⟨0x40070000, 0, 1, 8, 0x1000, 1, 0, .rwl, (some 0), (some 0), none, 0⟩
def CH_CTRL_RING : RegRow := ⟨0x40070000, 1, 1, 8, 0x1000, 1, 0, .rwl, (some 0), (some 0), none, 0⟩
def CH_CTRL_APPLY : RegRow := ⟨0x40070000, 4, 1, 8, 0x1000, 1, 0, .wo, (some 0), (some 0), (some 0), 0⟩
def CH_CTRL_CANCEL : RegRow := ⟨0x40070000, 5, 1, 8, 0x1000, 1, 0, .wo, (some 0), (some 0), (some 0), 0⟩
def CH_CTRL_DISCOVER : RegRow := ⟨0x40070000, 6, 1, 8, 0x1000, 1, 0, .wo, (some 0), (some 0), (some 0), 0⟩
def CH_CTRL_WAKE : RegRow := ⟨0x40070000, 7, 1, 8, 0x1000, 1, 0, .wo, (some 0), (some 0), (some 0), 0⟩
def CH_CTRL_SLEEP : RegRow := ⟨0x40070000, 8, 1, 8, 0x1000, 1, 0, .wo, (some 0), (some 0), (some 0), 0⟩
def CH_CTRL_FAULT_CLR : RegRow := ⟨0x40070000, 9, 1, 8, 0x1000, 1, 0, .wo, (some 0), (some 0), (some 0), 0⟩
def CH_CTRL_N : RegRow := ⟨0x40070000, 16, 9, 8, 0x1000, 1, 0, .rwl, (some 0), (some 0), none, 0⟩
-- CH_STATUS, base + 0x004
def CH_STATUS_STATE : RegRow := ⟨0x40070004, 0, 3, 8, 0x1000, 1, 0, .ro, (some 0), (some 0), none, 0⟩
def CH_STATUS_APPLY_PENDING : RegRow := ⟨0x40070004, 8, 1, 8, 0x1000, 1, 0, .ro, (some 0), (some 0), (some 0), 0⟩
def CH_STATUS_DONE : RegRow := ⟨0x40070004, 9, 1, 8, 0x1000, 1, 0, .w1c, (some 0), (some 0), (some 0), 0⟩
def CH_STATUS_REFUSED : RegRow := ⟨0x40070004, 10, 1, 8, 0x1000, 1, 0, .w1c, (some 0), (some 0), (some 0), 0⟩
def CH_STATUS_REASON : RegRow := ⟨0x40070004, 12, 4, 8, 0x1000, 1, 0, .ro, (some 0), (some 0), (some 0), 0⟩
def CH_STATUS_COUNT_MISMATCH : RegRow := ⟨0x40070004, 16, 1, 8, 0x1000, 1, 0, .w1c, (some 0), (some 0), none, 0⟩
def CH_STATUS_CHANGED : RegRow := ⟨0x40070004, 17, 1, 8, 0x1000, 1, 0, .w1c, (some 0), (some 0), none, 0⟩
def CH_STATUS_DELAY_SHORT : RegRow := ⟨0x40070004, 18, 1, 8, 0x1000, 1, 0, .w1c, (some 0), (some 0), none, 0⟩
def CH_STATUS_FWD_INCOMPLETE : RegRow := ⟨0x40070004, 19, 1, 8, 0x1000, 1, 0, .w1c, (some 0), (some 0), none, 0⟩
def CH_STATUS_SWEEP_STOPPED : RegRow := ⟨0x40070004, 20, 1, 8, 0x1000, 1, 0, .w1c, (some 0), (some 0), none, 0⟩
def CH_STATUS_BREAK : RegRow := ⟨0x40070004, 21, 1, 8, 0x1000, 1, 0, .ro, (some 0), (some 0), (some 0), 0⟩
def CH_STATUS_Q_FULL : RegRow := ⟨0x40070004, 22, 1, 8, 0x1000, 1, 0, .w1c, (some 0), (some 0), (some 0), 0⟩
-- CH_SWEEP and CH_SWEEP_PHASE, base + 0x008 and 0x00C
def CH_SWEEP_SRC : RegRow := ⟨0x40070008, 0, 2, 8, 0x1000, 1, 0, .rwl, (some 0), (some 0), none, 0⟩
def CH_SWEEP_PERIOD_F : RegRow := ⟨0x40070008, 4, 12, 8, 0x1000, 1, 0, .rwl, (some 100), (some 100), none, 100⟩
def CH_SWEEP_PUB_F : RegRow := ⟨0x40070008, 16, 12, 8, 0x1000, 1, 0, .rwl, (some 20), (some 20), none, 20⟩
def CH_SWEEP_PHASE : RegRow := ⟨0x4007000c, 0, 12, 8, 0x1000, 1, 0, .rwl, (some 0), (some 0), none, 0⟩
-- CH_TIMING, CH_QUIET and CH_SLOT_BASE, base + 0x010 to 0x018
def CH_TIMING_DELAY : RegRow := ⟨0x40070010, 0, 16, 8, 0x1000, 1, 0, .rwl, (some 0x61a8), (some 0x61a8), none, 0x61a8⟩
def CH_TIMING_SETTLE : RegRow := ⟨0x40070010, 16, 8, 8, 0x1000, 1, 0, .rwl, (some 50), (some 50), none, 50⟩
def CH_QUIET_POST : RegRow := ⟨0x40070014, 0, 16, 8, 0x1000, 1, 0, .rwl, (some 0x2710), (some 0x2710), none, 0x2710⟩
def CH_QUIET_LEAD : RegRow := ⟨0x40070014, 16, 16, 8, 0x1000, 1, 0, .rwl, (some 200), (some 200), none, 200⟩
def CH_SLOT_BASE : RegRow := ⟨0x40070018, 0, 13, 8, 0x1000, 1, 0, .rwl, (some 0), (some 0), none, 0⟩
-- CH_LINE, base + 0x01C
def CH_LINE_STATE : RegRow := ⟨0x4007001c, 0, 2, 8, 0x1000, 1, 0, .ro, (some 0), (some 0), (some 0), 0⟩
def CH_LINE_CURRENT : RegRow := ⟨0x4007001c, 8, 8, 8, 0x1000, 1, 0, .ro, (some 0), (some 0), (some 0), 0⟩
def CH_LINE_FAULT_SEEN : RegRow := ⟨0x4007001c, 16, 1, 8, 0x1000, 1, 0, .w1c, (some 0), (some 0), none, 0⟩
def CH_LINE_OPEN_SEEN : RegRow := ⟨0x4007001c, 17, 1, 8, 0x1000, 1, 0, .w1c, (some 0), (some 0), none, 0⟩
-- CH_SWEEP_NO, CH_BREAK and CH_AMAX, base + 0x020 to 0x028
def CH_SWEEP_NO : RegRow := ⟨0x40070020, 0, 32, 8, 0x1000, 1, 0, .ro, (some 0), (some 0), none, 0⟩
def CH_BREAK_A : RegRow := ⟨0x40070024, 0, 16, 8, 0x1000, 1, 0, .ro, (some 0xffff), (some 0xffff), none, 0xffff⟩
def CH_BREAK_B : RegRow := ⟨0x40070024, 16, 16, 8, 0x1000, 1, 0, .ro, (some 0xffff), (some 0xffff), none, 0xffff⟩
def CH_AMAX : RegRow := ⟨0x40070028, 0, 16, 8, 0x1000, 1, 0, .ro, (some 0), (some 0), none, 0⟩
-- CH_ counters, base + 0x030 to 0x040
def CH_SWEEPS : RegRow := ⟨0x40070030, 0, 32, 8, 0x1000, 1, 0, .ro, (some 0), (some 0), none, 0⟩
def CH_SKIPPED : RegRow := ⟨0x40070034, 0, 32, 8, 0x1000, 1, 0, .ro, (some 0), (some 0), none, 0⟩
def CH_MISSING : RegRow := ⟨0x40070038, 0, 32, 8, 0x1000, 1, 0, .ro, (some 0), (some 0), none, 0⟩
def CH_CRC : RegRow := ⟨0x4007003c, 0, 32, 8, 0x1000, 1, 0, .ro, (some 0), (some 0), none, 0⟩
def CH_RETRIES : RegRow := ⟨0x40070040, 0, 16, 8, 0x1000, 1, 0, .ro, (some 0), (some 0), none, 0⟩
def CH_QFLAGS : RegRow := ⟨0x40070040, 16, 16, 8, 0x1000, 1, 0, .ro, (some 0), (some 0), none, 0⟩
-- CH_ID_SEL, CH_ID_LO and CH_ID_HI, base + 0x050 to 0x058
def CH_ID_SEL_POS : RegRow := ⟨0x40070050, 0, 9, 8, 0x1000, 1, 0, .rw, (some 1), (some 1), (some 1), 1⟩
def CH_ID_LO : RegRow := ⟨0x40070054, 0, 32, 8, 0x1000, 1, 0, .ro, (some 0), (some 0), none, 0⟩
def CH_ID_HI : RegRow := ⟨0x40070058, 0, 32, 8, 0x1000, 1, 0, .ro, (some 0), (some 0), none, 0⟩
-- CH_NODE entry h, base + 0x400 + 8 × (h − 1), h from 1 to 384
def CH_NODE_A_HOME : RegRow := ⟨0x40070400, 0, 16, 8, 0x1000, 384, 0x8, .ro, (some 0), (some 0), none, 0⟩
def CH_NODE_A_FAR : RegRow := ⟨0x40070400, 16, 16, 8, 0x1000, 384, 0x8, .ro, (some 0), (some 0), none, 0⟩
def CH_NODE_PRESENT : RegRow := ⟨0x40070404, 0, 1, 8, 0x1000, 384, 0x8, .ro, (some 0), (some 0), none, 0⟩
def CH_NODE_CHANGED : RegRow := ⟨0x40070404, 1, 1, 8, 0x1000, 384, 0x8, .w1c, (some 0), (some 0), none, 0⟩
def CH_NODE_MISSING_LAST : RegRow := ⟨0x40070404, 2, 1, 8, 0x1000, 384, 0x8, .ro, (some 0), (some 0), (some 0), 0⟩
def CH_NODE_UNREACHABLE : RegRow := ⟨0x40070404, 3, 1, 8, 0x1000, 384, 0x8, .ro, (some 0), (some 0), (some 0), 0⟩
def CH_NODE_NSTAT : RegRow := ⟨0x40070404, 8, 8, 8, 0x1000, 384, 0x8, .ro, (some 0), (some 0), (some 0), 0⟩
-- CH_ING_CTRL and CH_ING_STATUS, 0x4007_8000 + 0x000 and 0x004
def CH_ING_CTRL_EN : RegRow := ⟨0x40078000, 0, 1, 1, 0, 1, 0, .rwl, (some 0), (some 0), none, 0⟩
def CH_ING_CTRL_APPLY : RegRow := ⟨0x40078000, 1, 1, 1, 0, 1, 0, .wo, (some 0), (some 0), (some 0), 0⟩
def CH_ING_CTRL_CANCEL : RegRow := ⟨0x40078000, 2, 1, 1, 0, 1, 0, .wo, (some 0), (some 0), (some 0), 0⟩
def CH_ING_CTRL_PERIOD_F : RegRow := ⟨0x40078000, 4, 12, 1, 0, 1, 0, .rwl, (some 100), (some 100), none, 100⟩
def CH_ING_CTRL_PUB_F : RegRow := ⟨0x40078000, 16, 12, 1, 0, 1, 0, .rwl, (some 40), (some 40), none, 40⟩
def CH_ING_STATUS_APPLY_PENDING : RegRow := ⟨0x40078004, 0, 1, 1, 0, 1, 0, .ro, (some 0), (some 0), (some 0), 0⟩
def CH_ING_STATUS_DONE : RegRow := ⟨0x40078004, 1, 1, 1, 0, 1, 0, .w1c, (some 0), (some 0), (some 0), 0⟩
def CH_ING_STATUS_REFUSED : RegRow := ⟨0x40078004, 2, 1, 1, 0, 1, 0, .w1c, (some 0), (some 0), (some 0), 0⟩
def CH_ING_STATUS_REASON : RegRow := ⟨0x40078004, 4, 4, 1, 0, 1, 0, .ro, (some 0), (some 0), (some 0), 0⟩
def CH_ING_STATUS_FWD_INCOMPLETE : RegRow := ⟨0x40078004, 8, 1, 1, 0, 1, 0, .w1c, (some 0), (some 0), none, 0⟩
-- CH_ING_SWEEP and ingest counters, 0x4007_8000 + 0x008 to 0x01C
def CH_ING_SWEEP : RegRow := ⟨0x40078008, 0, 32, 1, 0, 1, 0, .ro, (some 0), (some 0), none, 0⟩
def CH_ING_ACCEPTED : RegRow := ⟨0x40078010, 0, 32, 1, 0, 1, 0, .ro, (some 0), (some 0), none, 0⟩
def CH_ING_LATE : RegRow := ⟨0x40078014, 0, 32, 1, 0, 1, 0, .ro, (some 0), (some 0), none, 0⟩
def CH_ING_EARLY : RegRow := ⟨0x40078018, 0, 32, 1, 0, 1, 0, .ro, (some 0), (some 0), none, 0⟩
def CH_ING_BAD : RegRow := ⟨0x4007801c, 0, 32, 1, 0, 1, 0, .ro, (some 0), (some 0), none, 0⟩
-- CH_ING_SRC entry e, 0x4007_8000 + 0x100 + 8 × e, e from 0 to 14
def CH_ING_SRC_SOURCE : RegRow := ⟨0x40078100, 0, 16, 15, 0x8, 1, 0, .rwl, (some 0), (some 0), none, 0⟩
def CH_ING_SRC_SPORT : RegRow := ⟨0x40078100, 16, 8, 15, 0x8, 1, 0, .rwl, (some 0), (some 0), none, 0⟩
def CH_ING_SRC_VALID : RegRow := ⟨0x40078100, 31, 1, 15, 0x8, 1, 0, .rwl, (some 0), (some 0), none, 0⟩
def CH_ING_SRC_FIRST_SLOT : RegRow := ⟨0x40078104, 0, 13, 15, 0x8, 1, 0, .rwl, (some 0), (some 0), none, 0⟩
def CH_ING_SRC_COUNT : RegRow := ⟨0x40078104, 16, 9, 15, 0x8, 1, 0, .rwl, (some 0), (some 0), none, 0⟩
-- CH_ING_OUT entry p, 0x4007_8000 + 0x200 + 4 × p, p from 0 to 7
def CH_ING_OUT_DEST : RegRow := ⟨0x40078200, 0, 16, 8, 0x4, 1, 0, .rwl, (some 0), (some 0), none, 0⟩
def CH_ING_OUT_EN : RegRow := ⟨0x40078200, 31, 1, 8, 0x4, 1, 0, .rwl, (some 0), (some 0), none, 0⟩

/-! ### CF_ (11_can_fd_ports.md, R319) -/
-- CF_CTRL, base + 0x000
def CF_CTRL_EN : RegRow := ⟨0x40080000, 0, 1, 8, 0x1000, 1, 0, .rwl, (some 0), (some 0), none, 0⟩
def CF_CTRL_MODE : RegRow := ⟨0x40080000, 1, 2, 8, 0x1000, 1, 0, .rwl, (some 0), (some 0), none, 0⟩
def CF_CTRL_TERM : RegRow := ⟨0x40080000, 3, 1, 8, 0x1000, 1, 0, .rwl, (some 0), (some 0), none, 0⟩
def CF_CTRL_FD_EN : RegRow := ⟨0x40080000, 4, 1, 8, 0x1000, 1, 0, .rwl, (some 1), (some 1), none, 1⟩
def CF_CTRL_PXHD : RegRow := ⟨0x40080000, 5, 1, 8, 0x1000, 1, 0, .rwl, (some 1), (some 1), none, 1⟩
def CF_CTRL_NOMATCH : RegRow := ⟨0x40080000, 6, 2, 8, 0x1000, 1, 0, .rwl, (some 0), (some 0), none, 0⟩
def CF_CTRL_APPLY : RegRow := ⟨0x40080000, 8, 1, 8, 0x1000, 1, 0, .wo, (some 0), (some 0), (some 0), 0⟩
def CF_CTRL_CANCEL : RegRow := ⟨0x40080000, 9, 1, 8, 0x1000, 1, 0, .wo, (some 0), (some 0), (some 0), 0⟩
def CF_CTRL_RECOVER : RegRow := ⟨0x40080000, 10, 1, 8, 0x1000, 1, 0, .wo, (some 0), (some 0), (some 0), 0⟩
def CF_CTRL_FLUSH : RegRow := ⟨0x40080000, 11, 1, 8, 0x1000, 1, 0, .wo, (some 0), (some 0), (some 0), 0⟩
-- CF_STATUS and CF_APPLY_STATUS, base + 0x004 and 0x008
def CF_STATUS_STATE : RegRow := ⟨0x40080004, 0, 3, 8, 0x1000, 1, 0, .ro, (some 0), (some 0), none, 0⟩
def CF_STATUS_TEC : RegRow := ⟨0x40080004, 8, 8, 8, 0x1000, 1, 0, .ro, (some 0), (some 0), none, 0⟩
def CF_STATUS_REC : RegRow := ⟨0x40080004, 16, 8, 8, 0x1000, 1, 0, .ro, (some 0), (some 0), none, 0⟩
def CF_STATUS_LEC : RegRow := ⟨0x40080004, 24, 3, 8, 0x1000, 1, 0, .ro, (some 0), (some 0), none, 0⟩
def CF_STATUS_APPLY_PENDING : RegRow := ⟨0x40080004, 27, 1, 8, 0x1000, 1, 0, .ro, (some 0), (some 0), (some 0), 0⟩
def CF_STATUS_DONE : RegRow := ⟨0x40080004, 28, 1, 8, 0x1000, 1, 0, .w1c, (some 0), (some 0), (some 0), 0⟩
def CF_STATUS_REFUSED : RegRow := ⟨0x40080004, 29, 1, 8, 0x1000, 1, 0, .w1c, (some 0), (some 0), (some 0), 0⟩
def CF_APPLY_REASON : RegRow := ⟨0x40080008, 0, 4, 8, 0x1000, 1, 0, .ro, (some 0), (some 0), (some 0), 0⟩
-- CF_NBT, CF_DBT and CF_TDC, base + 0x010 to 0x018
def CF_NBT_BRP : RegRow := ⟨0x40080010, 0, 8, 8, 0x1000, 1, 0, .rwl, (some 1), (some 1), none, 1⟩
def CF_NBT_TSEG1 : RegRow := ⟨0x40080010, 8, 8, 8, 0x1000, 1, 0, .rwl, (some 78), (some 78), none, 78⟩
def CF_NBT_TSEG2 : RegRow := ⟨0x40080010, 16, 7, 8, 0x1000, 1, 0, .rwl, (some 19), (some 19), none, 19⟩
def CF_NBT_SJW : RegRow := ⟨0x40080010, 24, 7, 8, 0x1000, 1, 0, .rwl, (some 19), (some 19), none, 19⟩
def CF_DBT_BRP : RegRow := ⟨0x40080014, 0, 5, 8, 0x1000, 1, 0, .rwl, (some 0), (some 0), none, 0⟩
def CF_DBT_TSEG1 : RegRow := ⟨0x40080014, 8, 6, 8, 0x1000, 1, 0, .rwl, (some 38), (some 38), none, 38⟩
def CF_DBT_TSEG2 : RegRow := ⟨0x40080014, 16, 4, 8, 0x1000, 1, 0, .rwl, (some 9), (some 9), none, 9⟩
def CF_DBT_SJW : RegRow := ⟨0x40080014, 24, 4, 8, 0x1000, 1, 0, .rwl, (some 9), (some 9), none, 9⟩
def CF_DBT_TDC_EN : RegRow := ⟨0x40080014, 31, 1, 8, 0x1000, 1, 0, .rwl, (some 1), (some 1), none, 1⟩
def CF_TDC_TDCO : RegRow := ⟨0x40080018, 0, 8, 8, 0x1000, 1, 0, .rwl, (some 40), (some 40), none, 40⟩
def CF_TDC_MEAS : RegRow := ⟨0x40080018, 16, 8, 8, 0x1000, 1, 0, .ro, (some 0), (some 0), none, 0⟩
-- CF_RING, CF_EVT, CF_EVENTS and CF_HP_STATUS, base + 0x020 to 0x02C
def CF_RING_RX_Q : RegRow := ⟨0x40080020, 0, 7, 8, 0x1000, 1, 0, .rwl, (some 0), (some 0), none, 0⟩
def CF_RING_HP_Q : RegRow := ⟨0x40080020, 8, 7, 8, 0x1000, 1, 0, .rwl, (some 0), (some 0), none, 0⟩
def CF_RING_TX_Q : RegRow := ⟨0x40080020, 16, 7, 8, 0x1000, 1, 0, .rwl, (some 0), (some 0), none, 0⟩
def CF_RING_MTX_Q : RegRow := ⟨0x40080020, 24, 7, 8, 0x1000, 1, 0, .rwl, (some 0), (some 0), none, 0⟩
def CF_EVT_Q : RegRow := ⟨0x40080024, 0, 7, 8, 0x1000, 1, 0, .rwl, (some 0), (some 0), none, 0⟩
def CF_EVT_HP_IRQ_EN : RegRow := ⟨0x40080024, 8, 1, 8, 0x1000, 1, 0, .rwl, (some 0), (some 0), none, 0⟩
def CF_EVENTS_BUSOFF : RegRow := ⟨0x40080028, 0, 1, 8, 0x1000, 1, 0, .w1c, (some 0), (some 0), none, 0⟩
def CF_EVENTS_RECOVERED : RegRow := ⟨0x40080028, 1, 1, 8, 0x1000, 1, 0, .w1c, (some 0), (some 0), none, 0⟩
def CF_EVENTS_SNAP_OVF : RegRow := ⟨0x40080028, 2, 1, 8, 0x1000, 1, 0, .w1c, (some 0), (some 0), none, 0⟩
def CF_EVENTS_RING_OVF : RegRow := ⟨0x40080028, 3, 1, 8, 0x1000, 1, 0, .w1c, (some 0), (some 0), none, 0⟩
def CF_EVENTS_HP_OVF : RegRow := ⟨0x40080028, 4, 1, 8, 0x1000, 1, 0, .w1c, (some 0), (some 0), none, 0⟩
def CF_EVENTS_TX_NOTOWNER : RegRow := ⟨0x40080028, 5, 1, 8, 0x1000, 1, 0, .w1c, (some 0), (some 0), none, 0⟩
def CF_EVENTS_TX_FORMAT : RegRow := ⟨0x40080028, 6, 1, 8, 0x1000, 1, 0, .w1c, (some 0), (some 0), none, 0⟩
def CF_EVENTS_SVC_DROP : RegRow := ⟨0x40080028, 7, 1, 8, 0x1000, 1, 0, .w1c, (some 0), (some 0), none, 0⟩
def CF_EVENTS_PEX : RegRow := ⟨0x40080028, 8, 1, 8, 0x1000, 1, 0, .w1c, (some 0), (some 0), none, 0⟩
def CF_HP_PENDING : RegRow := ⟨0x4008002c, 0, 5, 8, 0x1000, 1, 0, .ro, (some 0), (some 0), (some 0), 0⟩
def CF_HP_NOTIFY : RegRow := ⟨0x4008002c, 8, 1, 8, 0x1000, 1, 0, .w1c, (some 0), (some 0), (some 0), 0⟩
-- CF counters, base + 0x030 to 0x040
def CF_RX : RegRow := ⟨0x40080030, 0, 32, 8, 0x1000, 1, 0, .ro, (some 0), (some 0), none, 0⟩
def CF_TX : RegRow := ⟨0x40080034, 0, 32, 8, 0x1000, 1, 0, .ro, (some 0), (some 0), none, 0⟩
def CF_ERR : RegRow := ⟨0x40080038, 0, 32, 8, 0x1000, 1, 0, .ro, (some 0), (some 0), none, 0⟩
def CF_BUSOFF : RegRow := ⟨0x4008003c, 0, 16, 8, 0x1000, 1, 0, .ro, (some 0), (some 0), none, 0⟩
def CF_LOST : RegRow := ⟨0x40080040, 0, 32, 8, 0x1000, 1, 0, .ro, (some 0), (some 0), none, 0⟩
-- CF_SVC and CF_SVC_STATUS, base + 0x050 and 0x054
def CF_SVC_ID : RegRow := ⟨0x40080050, 0, 29, 8, 0x1000, 1, 0, .rwl, (some 0), (some 0), none, 0⟩
def CF_SVC_IDE : RegRow := ⟨0x40080050, 29, 1, 8, 0x1000, 1, 0, .rwl, (some 1), (some 1), none, 1⟩
def CF_SVC_BRS : RegRow := ⟨0x40080050, 30, 1, 8, 0x1000, 1, 0, .rwl, (some 0), (some 0), none, 0⟩
def CF_SVC_EN : RegRow := ⟨0x40080050, 31, 1, 8, 0x1000, 1, 0, .rwl, (some 0), (some 0), none, 0⟩
def CF_SVC_STATUS_OPEN : RegRow := ⟨0x40080054, 0, 1, 8, 0x1000, 1, 0, .ro, (some 0), (some 0), (some 0), 0⟩
def CF_SVC_STATUS_HOST : RegRow := ⟨0x40080054, 8, 8, 8, 0x1000, 1, 0, .ro, (some 0), (some 0), (some 0), 0⟩
def CF_SVC_STATUS_DROPPED : RegRow := ⟨0x40080054, 16, 16, 8, 0x1000, 1, 0, .ro, (some 0), (some 0), none, 0⟩
-- CF_TXB_OWN, CF_TXB_PEND and CF_TXB_ABORT, base + 0x060 to 0x068
def CF_TXB_OWN_LOW : RegRow := ⟨0x40080060, 0, 30, 8, 0x1000, 1, 0, .rwl, (some 0), (some 0), none, 0⟩
def CF_TXB_OWN_B31 : RegRow := ⟨0x40080060, 31, 1, 8, 0x1000, 1, 0, .rwl, (some 0), (some 0), none, 0⟩
def CF_TXB_PEND : RegRow := ⟨0x40080064, 0, 32, 8, 0x1000, 1, 0, .ro, (some 0), (some 0), (some 0), 0⟩
def CF_TXB_ABORT : RegRow := ⟨0x40080068, 0, 32, 8, 0x1000, 1, 0, .wo, (some 0), (some 0), (some 0), 0⟩
-- CF_TXB_CFG entry b, base + 0x100 + 4 × b, b from 0 to 31
def CF_TXB_CFG_RELEASE : RegRow := ⟨0x40080100, 0, 2, 8, 0x1000, 32, 0x4, .rwl, (some 0), (some 0), none, 0⟩
-- CF_FLT entry f, base + 0x400 + 0xC × f, f from 0 to 255
def CF_FLT_ID : RegRow := ⟨0x40080400, 0, 29, 8, 0x1000, 256, 0xc, .rwl, (some 0), (some 0), none, 0⟩
def CF_FLT_IDE : RegRow := ⟨0x40080400, 29, 1, 8, 0x1000, 256, 0xc, .rwl, (some 0), (some 0), none, 0⟩
def CF_FLT_EN : RegRow := ⟨0x40080400, 31, 1, 8, 0x1000, 256, 0xc, .rwl, (some 0), (some 0), none, 0⟩
def CF_FLT_MASK : RegRow := ⟨0x40080404, 0, 29, 8, 0x1000, 256, 0xc, .rwl, (some 0), (some 0), none, 0⟩
def CF_FLT_SNAP : RegRow := ⟨0x40080408, 0, 1, 8, 0x1000, 256, 0xc, .rwl, (some 0), (some 0), none, 0⟩
def CF_FLT_RING : RegRow := ⟨0x40080408, 1, 1, 8, 0x1000, 256, 0xc, .rwl, (some 0), (some 0), none, 0⟩
def CF_FLT_HP : RegRow := ⟨0x40080408, 2, 1, 8, 0x1000, 256, 0xc, .rwl, (some 0), (some 0), none, 0⟩
def CF_FLT_REJECT : RegRow := ⟨0x40080408, 3, 1, 8, 0x1000, 256, 0xc, .rwl, (some 0), (some 0), none, 0⟩
def CF_FLT_FDF_MATCH : RegRow := ⟨0x40080408, 4, 2, 8, 0x1000, 256, 0xc, .rwl, (some 0), (some 0), none, 0⟩

/-! ### ES_ (12_ethernet_and_time_sync.md, R340) -/
-- ES_CTRL and ES_STATUS, 0x4009_0000 + 0x000 and 0x004
def ES_CTRL_EN : RegRow := ⟨0x40090000, 0, 1, 1, 0, 1, 0, .rwl, (some 0), (some 0), none, 0⟩
def ES_CTRL_RED_MODE : RegRow := ⟨0x40090000, 4, 3, 1, 0, 1, 0, .rwl, (some 0), (some 0), none, 0⟩
def ES_STATUS_BUF_LOW : RegRow := ⟨0x40090004, 0, 1, 1, 0, 1, 0, .ro, (some 0), (some 0), (some 0), 0⟩
def ES_STATUS_RED_ERR : RegRow := ⟨0x40090004, 1, 1, 1, 0, 1, 0, .w1c, (some 0), (some 0), none, 0⟩
def ES_STATUS_SVC_BLOCK : RegRow := ⟨0x40090004, 2, 1, 1, 0, 1, 0, .w1c, (some 0), (some 0), none, 0⟩
-- ES_PLANT and ES_RT_ETYPE, 0x4009_0000 + 0x008 and 0x00C
def ES_PLANT : RegRow := ⟨0x40090008, 0, 16, 1, 0, 1, 0, .rwl, (some 0), (some 0), none, 0⟩
def ES_RT_ETYPE : RegRow := ⟨0x4009000c, 0, 16, 1, 0, 1, 0, .rwl, (some 0x88b5), (some 0x88b5), none, 0x88b5⟩
-- ES_PORT_CFG and ES_PORT_STATUS entry p, 0x4009_0000 + 0x040 + 0x10 × p, p from 0 to 6
def ES_PORT_CFG_EN : RegRow := ⟨0x40090040, 0, 1, 7, 0x10, 1, 0, .rwl, (some 0), (some 0), none, 0⟩
def ES_PORT_CFG_SPEED : RegRow := ⟨0x40090040, 1, 3, 7, 0x10, 1, 0, .rwl, (some 0), (some 0), none, 0⟩
def ES_PORT_CFG_DEF_PCP : RegRow := ⟨0x40090040, 4, 3, 7, 0x10, 1, 0, .rwl, (some 0), (some 0), none, 0⟩
def ES_PORT_CFG_PVID : RegRow := ⟨0x40090040, 16, 12, 7, 0x10, 1, 0, .rwl, (some 1), (some 1), none, 1⟩
def ES_PORT_CFG_LINK : RegRow := ⟨0x40090044, 0, 1, 7, 0x10, 1, 0, .ro, (some 0), (some 0), (some 0), 0⟩
def ES_PORT_CFG_SPEED_NOW : RegRow := ⟨0x40090044, 1, 3, 7, 0x10, 1, 0, .ro, (some 0), (some 0), (some 0), 0⟩
def ES_PORT_CFG_OVERSIZE : RegRow := ⟨0x40090044, 16, 16, 7, 0x10, 1, 0, .ro, (some 0), (some 0), none, 0⟩
def ES_PORT_CFG_RX : RegRow := ⟨0x40090048, 0, 32, 7, 0x10, 1, 0, .ro, (some 0), (some 0), none, 0⟩
def ES_PORT_CFG_TX : RegRow := ⟨0x4009004c, 0, 32, 7, 0x10, 1, 0, .ro, (some 0), (some 0), none, 0⟩
-- ES_QDROP entry p, 0x4009_0000 + 0x0C0 + 0x20 × p + 4 × q, q from 0 to 7
def ES_QDROP : RegRow := ⟨0x400900c0, 0, 32, 8, 0x20, 8, 0x4, .ro, (some 0), (some 0), none, 0⟩
-- ES_RT_CTRL, ES_RT_ADDR, ES_RT_DATA and ES_RT_STATUS, 0x4009_0000 + 0x200 to 0x20C
def ES_RT_CTRL_APPLY : RegRow := ⟨0x40090200, 0, 1, 1, 0, 1, 0, .wo, (some 0), (some 0), (some 0), 0⟩
def ES_RT_CTRL_CANCEL : RegRow := ⟨0x40090200, 1, 1, 1, 0, 1, 0, .wo, (some 0), (some 0), (some 0), 0⟩
def ES_RT_ADDR : RegRow := ⟨0x40090204, 2, 16, 1, 0, 1, 0, .rw, (some 0), (some 0), (some 0), 0⟩
def ES_RT_DATA : RegRow := ⟨0x40090208, 0, 32, 1, 0, 1, 0, .rwl, (some 0), (some 0), (some 0), 0⟩
def ES_RT_STATUS_PENDING : RegRow := ⟨0x4009020c, 0, 1, 1, 0, 1, 0, .ro, (some 0), (some 0), (some 0), 0⟩
def ES_RT_STATUS_DONE : RegRow := ⟨0x4009020c, 1, 1, 1, 0, 1, 0, .w1c, (some 0), (some 0), (some 0), 0⟩
def ES_RT_STATUS_REFUSED : RegRow := ⟨0x4009020c, 2, 1, 1, 0, 1, 0, .w1c, (some 0), (some 0), (some 0), 0⟩
def ES_RT_STATUS_NOROUTE : RegRow := ⟨0x4009020c, 8, 8, 1, 0, 1, 0, .ro, (some 0), (some 0), none, 0⟩
def ES_RT_STATUS_OUTOFORDER : RegRow := ⟨0x4009020c, 16, 8, 1, 0, 1, 0, .ro, (some 0), (some 0), none, 0⟩
def ES_RT_STATUS_RINGFULL : RegRow := ⟨0x4009020c, 24, 8, 1, 0, 1, 0, .ro, (some 0), (some 0), none, 0⟩
-- ES_MACSEC entry p, 0x4009_0000 + 0x300 + 0x10 × p, p from 0 to 5
def ES_MACSEC_EN : RegRow := ⟨0x40090300, 0, 1, 6, 0x10, 1, 0, .rwl, (some 0), (some 0), none, 0⟩
def ES_MACSEC_CONF : RegRow := ⟨0x40090300, 1, 1, 6, 0x10, 1, 0, .rwl, (some 0), (some 0), none, 0⟩
def ES_MACSEC_XPN : RegRow := ⟨0x40090300, 2, 1, 6, 0x10, 1, 0, .rwl, (some 0), (some 0), none, 0⟩
def ES_MACSEC_SUP_CLEAR : RegRow := ⟨0x40090300, 3, 1, 6, 0x10, 1, 0, .rwl, (some 0), (some 0), none, 0⟩
def ES_MACSEC_REPLAY : RegRow := ⟨0x40090300, 8, 7, 6, 0x10, 1, 0, .rwl, (some 0), (some 0), none, 0⟩
def ES_MACSEC_AN_TX : RegRow := ⟨0x40090304, 16, 2, 6, 0x10, 1, 0, .ro, (some 0), (some 0), none, 0⟩
def ES_MACSEC_KEY_OK : RegRow := ⟨0x40090304, 18, 1, 6, 0x10, 1, 0, .ro, (some 0), (some 0), none, 0⟩
def ES_MACSEC_ICV_FAIL : RegRow := ⟨0x40090308, 0, 32, 6, 0x10, 1, 0, .ro, (some 0), (some 0), none, 0⟩

/-! ### PT_ (12_ethernet_and_time_sync.md, R340) -/
-- PT_CTRL, PT_UTC and PT_STATUS, 0x4009_0000 + 0x800 to 0x808
def PT_CTRL_EN : RegRow := ⟨0x40090800, 0, 1, 1, 0, 1, 0, .rwl, (some 0), (some 0), none, 0⟩
def PT_CTRL_ROLE : RegRow := ⟨0x40090800, 1, 2, 1, 0, 1, 0, .rwl, (some 0), (some 0), none, 0⟩
def PT_CTRL_PROFILE : RegRow := ⟨0x40090800, 3, 1, 1, 0, 1, 0, .rwl, (some 0), (some 0), none, 0⟩
def PT_CTRL_TWO_STEP : RegRow := ⟨0x40090800, 4, 1, 1, 0, 1, 0, .rwl, (some 0), (some 0), none, 0⟩
def PT_CTRL_UDP : RegRow := ⟨0x40090800, 5, 1, 1, 0, 1, 0, .rwl, (some 0), (some 0), none, 0⟩
def PT_CTRL_P2P : RegRow := ⟨0x40090800, 6, 1, 1, 0, 1, 0, .rwl, (some 0), (some 0), none, 0⟩
def PT_CTRL_SLAVE_ONLY : RegRow := ⟨0x40090800, 7, 1, 1, 0, 1, 0, .rwl, (some 0), (some 0), none, 0⟩
def PT_CTRL_DOMAIN : RegRow := ⟨0x40090800, 8, 8, 1, 0, 1, 0, .rwl, (some 0), (some 0), none, 0⟩
def PT_UTC_OFFSET : RegRow := ⟨0x40090804, 0, 16, 1, 0, 1, 0, .rwl, (some 37), (some 37), none, 37⟩
def PT_STATUS_STATE : RegRow := ⟨0x40090808, 0, 3, 1, 0, 1, 0, .ro, (some 0), (some 0), (some 0), 0⟩
def PT_STATUS_IN_SPEC : RegRow := ⟨0x40090808, 3, 1, 1, 0, 1, 0, .ro, (some 0), (some 0), (some 0), 0⟩
def PT_STATUS_STEPPED : RegRow := ⟨0x40090808, 4, 1, 1, 0, 1, 0, .w1c, (some 0), (some 0), none, 0⟩
def PT_STATUS_OFFSET_LARGE : RegRow := ⟨0x40090808, 5, 1, 1, 0, 1, 0, .w1c, (some 0), (some 0), none, 0⟩
def PT_STATUS_SW_IGNORED : RegRow := ⟨0x40090808, 6, 1, 1, 0, 1, 0, .w1c, (some 0), (some 0), none, 0⟩
def PT_STATUS_SLAVE_PORT : RegRow := ⟨0x40090808, 8, 3, 1, 0, 1, 0, .ro, (some 0), (some 0), (some 0), 0⟩
-- PT_OFFSET, PT_PATH and PT_HOLD_TIME, 0x4009_0000 + 0x80C to 0x814
def PT_OFFSET : RegRow := ⟨0x4009080c, 0, 32, 1, 0, 1, 0, .ro, (some 0), (some 0), (some 0), 0⟩
def PT_PATH : RegRow := ⟨0x40090810, 0, 32, 1, 0, 1, 0, .ro, (some 0), (some 0), (some 0), 0⟩
def PT_HOLD_TIME : RegRow := ⟨0x40090814, 0, 32, 1, 0, 1, 0, .ro, (some 0), (some 0), (some 0), 0⟩
-- PT_SERVO and PT_HOLD, 0x4009_0000 + 0x820 to 0x830
def PT_SERVO_MODE : RegRow := ⟨0x40090820, 0, 1, 1, 0, 1, 0, .rwl, (some 0), (some 0), none, 0⟩
def PT_SERVO_RESTEP : RegRow := ⟨0x40090820, 1, 1, 1, 0, 1, 0, .rwl, (some 0), (some 0), none, 0⟩
def PT_SERVO_KP : RegRow := ⟨0x40090824, 0, 32, 1, 0, 1, 0, .rwl, (some 0x4000), (some 0x4000), none, 0x4000⟩
def PT_SERVO_KI : RegRow := ⟨0x40090828, 0, 32, 1, 0, 1, 0, .rwl, (some 2048), (some 2048), none, 2048⟩
def PT_SERVO_LOCK_THR : RegRow := ⟨0x4009082c, 0, 16, 1, 0, 1, 0, .rwl, (some 100), (some 100), none, 100⟩
def PT_SERVO_RELOCK : RegRow := ⟨0x4009082c, 16, 16, 1, 0, 1, 0, .rwl, (some 1000), (some 1000), none, 1000⟩
def PT_SERVO_SPEC : RegRow := ⟨0x40090830, 0, 16, 1, 0, 1, 0, .rwl, (some 60), (some 60), none, 60⟩
-- PT_PORT entry p, 0x4009_0000 + 0x840 + 0x10 × p, p from 0 to 3
def PT_PORT_EN : RegRow := ⟨0x40090840, 0, 1, 4, 0x10, 1, 0, .rwl, (some 0), (some 0), none, 0⟩
def PT_PORT_POINT : RegRow := ⟨0x40090840, 1, 1, 4, 0x10, 1, 0, .rwl, (some 0), (some 0), none, 0⟩
def PT_PORT_PSTATE : RegRow := ⟨0x40090840, 8, 4, 4, 0x10, 1, 0, .ro, (some 0), (some 0), (some 0), 0⟩
def PT_PORT_CORR_TX : RegRow := ⟨0x40090844, 0, 16, 4, 0x10, 1, 0, .rw, (some 0), (some 0), none, 0⟩
def PT_PORT_CORR_RX : RegRow := ⟨0x40090844, 16, 16, 4, 0x10, 1, 0, .rw, (some 0), (some 0), none, 0⟩
def PT_PORT_ASYM : RegRow := ⟨0x40090848, 0, 32, 4, 0x10, 1, 0, .rwl, (some 0), (some 0), none, 0⟩

/-! ### PA_ (13_redundant_pairs.md, R371) -/
-- PA_CFG, 0x400A_0000 + 0x000
def PA_CFG_EN : RegRow := ⟨0x400a0000, 0, 1, 1, 0, 1, 0, .rwl, none, none, none, 0⟩
def PA_CFG_PREFERRED : RegRow := ⟨0x400a0000, 1, 1, 1, 0, 1, 0, .rwl, none, none, none, 0⟩
def PA_CFG_REVERT : RegRow := ⟨0x400a0000, 2, 1, 1, 0, 1, 0, .rwl, none, none, none, 1⟩
def PA_CFG_AUTOJOIN : RegRow := ⟨0x400a0000, 3, 1, 1, 0, 1, 0, .rwl, none, none, none, 0⟩
def PA_CFG_MIXED_FAILOVER : RegRow := ⟨0x400a0000, 4, 1, 1, 0, 1, 0, .rwl, none, none, none, 1⟩
-- PA_TIMES and PA_MIXED, 0x400A_0000 + 0x004 and 0x008
def PA_TIMES_REVERT_HOLD : RegRow := ⟨0x400a0004, 0, 12, 1, 0, 1, 0, .rwl, none, none, none, 60⟩
def PA_TIMES_AGREE_MIN : RegRow := ⟨0x400a0004, 16, 8, 1, 0, 1, 0, .rwl, none, none, none, 16⟩
def PA_MIXED_MIN : RegRow := ⟨0x400a0008, 0, 16, 1, 0, 1, 0, .rwl, none, none, none, 0⟩
-- PA_STATUS, 0x400A_0000 + 0x00C
def PA_STATUS_ROLE : RegRow := ⟨0x400a000c, 0, 2, 1, 0, 1, 0, .ro, (some 0), (some 0), none, 0⟩
def PA_STATUS_UNIT : RegRow := ⟨0x400a000c, 2, 1, 1, 0, 1, 0, .ro, none, none, none, 0⟩
def PA_STATUS_PARTNER_ROLE : RegRow := ⟨0x400a000c, 4, 2, 1, 0, 1, 0, .ro, (some 0), (some 0), (some 0), 0⟩
def PA_STATUS_PARTNER_SEEN : RegRow := ⟨0x400a000c, 6, 1, 1, 0, 1, 0, .ro, (some 0), (some 0), (some 0), 0⟩
def PA_STATUS_LINK0 : RegRow := ⟨0x400a000c, 7, 1, 1, 0, 1, 0, .ro, (some 0), (some 0), (some 0), 0⟩
def PA_STATUS_LINK1 : RegRow := ⟨0x400a000c, 8, 1, 1, 0, 1, 0, .ro, (some 0), (some 0), (some 0), 0⟩
def PA_STATUS_PARTNER_HEALTHY : RegRow := ⟨0x400a000c, 9, 1, 1, 0, 1, 0, .ro, (some 0), (some 0), (some 0), 0⟩
def PA_STATUS_PARTNER_DRIVE : RegRow := ⟨0x400a000c, 10, 1, 1, 0, 1, 0, .ro, (some 0), (some 0), (some 0), 0⟩
def PA_STATUS_DRIVING : RegRow := ⟨0x400a000c, 11, 1, 1, 0, 1, 0, .ro, (some 0), (some 0), (some 0), 0⟩
def PA_STATUS_MIXED : RegRow := ⟨0x400a000c, 12, 1, 1, 0, 1, 0, .ro, (some 0), (some 0), (some 0), 0⟩
def PA_STATUS_ELIGIBLE : RegRow := ⟨0x400a000c, 13, 1, 1, 0, 1, 0, .ro, (some 0), (some 0), (some 0), 0⟩
def PA_STATUS_TESTING : RegRow := ⟨0x400a000c, 14, 1, 1, 0, 1, 0, .ro, (some 0), (some 0), (some 0), 0⟩
-- PA_EVENTS, 0x400A_0000 + 0x010
def PA_EVENTS_FAILOVER : RegRow := ⟨0x400a0010, 0, 1, 1, 0, 1, 0, .w1c, (some 0), (some 0), none, 0⟩
def PA_EVENTS_HANDOVER : RegRow := ⟨0x400a0010, 1, 1, 1, 0, 1, 0, .w1c, (some 0), (some 0), none, 0⟩
def PA_EVENTS_MISMATCH : RegRow := ⟨0x400a0010, 2, 1, 1, 0, 1, 0, .w1c, (some 0), (some 0), none, 0⟩
def PA_EVENTS_PAIR_ALARM : RegRow := ⟨0x400a0010, 3, 1, 1, 0, 1, 0, .w1c, (some 0), (some 0), none, 0⟩
def PA_EVENTS_EXCH_MISS : RegRow := ⟨0x400a0010, 4, 1, 1, 0, 1, 0, .w1c, (some 0), (some 0), none, 0⟩
def PA_EVENTS_LINKS_LOST : RegRow := ⟨0x400a0010, 5, 1, 1, 0, 1, 0, .w1c, (some 0), (some 0), none, 0⟩
def PA_EVENTS_JOINED : RegRow := ⟨0x400a0010, 6, 1, 1, 0, 1, 0, .w1c, (some 0), (some 0), none, 0⟩
def PA_EVENTS_JOIN_REFUSED : RegRow := ⟨0x400a0010, 7, 1, 1, 0, 1, 0, .w1c, (some 0), (some 0), none, 0⟩
def PA_EVENTS_XFER_FAILED : RegRow := ⟨0x400a0010, 8, 1, 1, 0, 1, 0, .w1c, (some 0), (some 0), none, 0⟩
def PA_EVENTS_DRIVE_TIE : RegRow := ⟨0x400a0010, 9, 1, 1, 0, 1, 0, .w1c, (some 0), (some 0), none, 0⟩
def PA_EVENTS_ALIGN_ERR : RegRow := ⟨0x400a0010, 10, 1, 1, 0, 1, 0, .w1c, (some 0), (some 0), none, 0⟩
def PA_EVENTS_HANDOVER_ABANDONED : RegRow := ⟨0x400a0010, 11, 1, 1, 0, 1, 0, .w1c, (some 0), (some 0), none, 0⟩
-- PA_CMD and PA_JOIN_STATUS, 0x400A_0000 + 0x014 and 0x018
def PA_CMD_JOIN : RegRow := ⟨0x400a0014, 0, 1, 1, 0, 1, 0, .wo, (some 0), (some 0), (some 0), 0⟩
def PA_CMD_LEAVE : RegRow := ⟨0x400a0014, 1, 1, 1, 0, 1, 0, .wo, (some 0), (some 0), (some 0), 0⟩
def PA_CMD_HANDOVER : RegRow := ⟨0x400a0014, 2, 1, 1, 0, 1, 0, .wo, (some 0), (some 0), (some 0), 0⟩
def PA_CMD_CANCEL : RegRow := ⟨0x400a0014, 3, 1, 1, 0, 1, 0, .wo, (some 0), (some 0), (some 0), 0⟩
def PA_JOIN_STATUS_REASON : RegRow := ⟨0x400a0018, 0, 4, 1, 0, 1, 0, .ro, (some 0), (some 0), (some 0), 0⟩
def PA_JOIN_STATUS_XFER : RegRow := ⟨0x400a0018, 8, 3, 1, 0, 1, 0, .ro, (some 0), (some 0), (some 0), 0⟩
def PA_JOIN_STATUS_ROUND : RegRow := ⟨0x400a0018, 16, 8, 1, 0, 1, 0, .ro, (some 0), (some 0), (some 0), 0⟩
def PA_JOIN_STATUS_DIRTY : RegRow := ⟨0x400a0018, 24, 8, 1, 0, 1, 0, .ro, (some 0), (some 0), (some 0), 0⟩
-- PA_HANDOVER_AT and PA_HANDOVER_STATUS, 0x400A_0000 + 0x020 to 0x028
def PA_HANDOVER_AT_H_LO : RegRow := ⟨0x400a0020, 0, 32, 1, 0, 1, 0, .rwl, (some 0), (some 0), (some 0), 0⟩
def PA_HANDOVER_AT_H_HI : RegRow := ⟨0x400a0024, 0, 32, 1, 0, 1, 0, .rwl, (some 0), (some 0), (some 0), 0⟩
def PA_HANDOVER_STATE : RegRow := ⟨0x400a0028, 0, 3, 1, 0, 1, 0, .ro, (some 0), (some 0), (some 0), 0⟩
def PA_HANDOVER_REASON : RegRow := ⟨0x400a0028, 8, 4, 1, 0, 1, 0, .ro, (some 0), (some 0), (some 0), 0⟩
-- PA_OFFSET, PA_LINKDELAY and PA_TICK_ERR, 0x400A_0000 + 0x030 to 0x038
def PA_OFFSET : RegRow := ⟨0x400a0030, 0, 32, 1, 0, 1, 0, .ro, (some 0), (some 0), (some 0), 0⟩
def PA_LINKDELAY : RegRow := ⟨0x400a0034, 0, 32, 1, 0, 1, 0, .ro, (some 0), (some 0), (some 0), 0⟩
def PA_TICK_ERR : RegRow := ⟨0x400a0038, 0, 16, 1, 0, 1, 0, .ro, (some 0), (some 0), (some 0), 0⟩
-- PA_ counters, 0x400A_0000 + 0x040 to 0x060
def PA_MISMATCHES : RegRow := ⟨0x400a0040, 0, 32, 1, 0, 1, 0, .ro, (some 0), (some 0), none, 0⟩
def PA_FAILOVERS : RegRow := ⟨0x400a0044, 0, 32, 1, 0, 1, 0, .ro, (some 0), (some 0), none, 0⟩
def PA_HANDOVERS : RegRow := ⟨0x400a0048, 0, 32, 1, 0, 1, 0, .ro, (some 0), (some 0), none, 0⟩
def PA_EXCH_MISS : RegRow := ⟨0x400a004c, 0, 32, 1, 0, 1, 0, .ro, (some 0), (some 0), none, 0⟩
def PA_RING_DROP : RegRow := ⟨0x400a0050, 0, 32, 1, 0, 1, 0, .ro, (some 0), (some 0), none, 0⟩
def PA_AGREE_RUN : RegRow := ⟨0x400a0054, 0, 32, 1, 0, 1, 0, .ro, (some 0), (some 0), (some 0), 0⟩
def PA_LAST_MISMATCH_LO : RegRow := ⟨0x400a0058, 0, 32, 1, 0, 1, 0, .ro, (some 0), (some 0), none, 0⟩
def PA_LAST_MISMATCH_HI : RegRow := ⟨0x400a005c, 0, 32, 1, 0, 1, 0, .ro, (some 0), (some 0), none, 0⟩
def PA_FIRST_CKPT : RegRow := ⟨0x400a0060, 0, 5, 1, 0, 1, 0, .ro, (some 0), (some 0), (some 0), 0⟩

/-! ### SE_ (15_identity_and_trust.md, R410) -/
-- SE_STATUS, 0x400C_0000 + 0x000
def SE_STATUS_OWNED : RegRow := ⟨0x400c0000, 0, 1, 1, 0, 1, 0, .ro, none, none, none, 0⟩
def SE_STATUS_FIELD_LOCK : RegRow := ⟨0x400c0000, 1, 1, 1, 0, 1, 0, .ro, none, none, none, 0⟩
def SE_STATUS_PUF_OK : RegRow := ⟨0x400c0000, 2, 1, 1, 0, 1, 0, .ro, (some 0), none, none, 0⟩
def SE_STATUS_TAMPER_NOW : RegRow := ⟨0x400c0000, 3, 1, 1, 0, 1, 0, .ro, (some 0), (some 0), (some 0), 0⟩
def SE_STATUS_Z_PENDING : RegRow := ⟨0x400c0000, 4, 1, 1, 0, 1, 0, .ro, none, none, none, 0⟩
def SE_STATUS_MEMBER : RegRow := ⟨0x400c0000, 5, 1, 1, 0, 1, 0, .ro, none, none, none, 0⟩
def SE_STATUS_BOUND : RegRow := ⟨0x400c0000, 6, 1, 1, 0, 1, 0, .ro, none, none, none, 0⟩
def SE_STATUS_DATES_UNCHECKED : RegRow := ⟨0x400c0000, 7, 1, 1, 0, 1, 0, .ro, (some 0), (some 0), (some 0), 0⟩
def SE_STATUS_REENROLLED : RegRow := ⟨0x400c0000, 8, 1, 1, 0, 1, 0, .w1c, (some 0), none, none, 0⟩
-- SE_EVENTS, 0x400C_0000 + 0x004
def SE_EVENTS_TAMPER : RegRow := ⟨0x400c0004, 0, 4, 1, 0, 1, 0, .w1c, none, none, none, 0⟩
def SE_EVENTS_ZEROISED : RegRow := ⟨0x400c0004, 4, 1, 1, 0, 1, 0, .w1c, none, none, none, 0⟩
def SE_EVENTS_VERIFY_FAIL : RegRow := ⟨0x400c0004, 5, 1, 1, 0, 1, 0, .w1c, (some 0), none, none, 0⟩
def SE_EVENTS_LOCKOUT : RegRow := ⟨0x400c0004, 6, 1, 1, 0, 1, 0, .w1c, none, none, none, 0⟩
-- SE_SERIAL, SE_OWNER_ID and SE_TAMPER_STATE, 0x400C_0000 + 0x008 to 0x01C
def SE_SERIAL_LO : RegRow := ⟨0x400c0008, 0, 32, 1, 0, 1, 0, .ro, none, none, none, 0⟩
def SE_SERIAL_HI : RegRow := ⟨0x400c000c, 0, 32, 1, 0, 1, 0, .ro, none, none, none, 0⟩
def SE_OWNER_ID_LO : RegRow := ⟨0x400c0010, 0, 32, 1, 0, 1, 0, .ro, none, none, none, 0⟩
def SE_OWNER_ID_HI : RegRow := ⟨0x400c0014, 0, 32, 1, 0, 1, 0, .ro, none, none, none, 0⟩
def SE_TAMPER_ACTIONS : RegRow := ⟨0x400c0018, 0, 8, 1, 0, 1, 0, .ro, none, none, none, 230⟩
def SE_TAMPER_STATE : RegRow := ⟨0x400c0018, 8, 4, 1, 0, 1, 0, .ro, (some 0), (some 0), (some 0), 0⟩
def SE_VERIFY_FAILS : RegRow := ⟨0x400c001c, 0, 16, 1, 0, 1, 0, .ro, (some 0), none, none, 0⟩
-- SE_MBOX, 0x400C_0000 + 0x100 to 0x50C
def SE_MBOX_REQ : RegRow := ⟨0x400c0100, 0, 32, 128, 0x4, 1, 0, .rw, (some 0), (some 0), (some 0), 0⟩
def SE_MBOX_RSP : RegRow := ⟨0x400c0300, 0, 32, 128, 0x4, 1, 0, .ro, (some 0), (some 0), (some 0), 0⟩
def SE_MBOX_GO : RegRow := ⟨0x400c0500, 0, 1, 1, 0, 1, 0, .wo, (some 0), (some 0), (some 0), 0⟩
def SE_MBOX_BUSY : RegRow := ⟨0x400c0504, 0, 1, 1, 0, 1, 0, .ro, (some 0), (some 0), (some 0), 0⟩
def SE_MBOX_DONE : RegRow := ⟨0x400c0504, 1, 1, 1, 0, 1, 0, .w1c, (some 0), (some 0), (some 0), 0⟩
def SE_MBOX_STATUS : RegRow := ⟨0x400c0504, 16, 16, 1, 0, 1, 0, .ro, (some 0), (some 0), (some 0), 0⟩
def SE_MBOX_RETRIES : RegRow := ⟨0x400c0508, 0, 16, 1, 0, 1, 0, .ro, (some 0), (some 0), none, 0⟩

/-! ### MG_ (16_metrology_compartment.md, R438) -/
-- MG_STATUS, 0x4010_0000 + 0x000
def MG_STATUS_FITTED : RegRow := ⟨0x40100000, 0, 1, 1, 0, 1, 0, .ro, (some 1), (some 1), (some 1), 1⟩
def MG_STATUS_LINK_OK : RegRow := ⟨0x40100000, 1, 1, 1, 0, 1, 0, .ro, (some 0), (some 0), none, 0⟩
def MG_STATUS_RX_AVAIL : RegRow := ⟨0x40100000, 2, 1, 1, 0, 1, 0, .ro, (some 0), (some 0), none, 0⟩
def MG_STATUS_OVERFLOW : RegRow := ⟨0x40100000, 3, 1, 1, 0, 1, 0, .w1c, (some 0), (some 0), none, 0⟩
def MG_STATUS_CRC_ERR : RegRow := ⟨0x40100000, 4, 1, 1, 0, 1, 0, .w1c, (some 0), (some 0), none, 0⟩
def MG_STATUS_SEAL_FLAG : RegRow := ⟨0x40100000, 5, 1, 1, 0, 1, 0, .ro, (some 0), (some 0), none, 0⟩
def MG_STATUS_LID_FLAG : RegRow := ⟨0x40100000, 6, 1, 1, 0, 1, 0, .ro, (some 0), (some 0), none, 0⟩
-- MG_RX_CTRL and MG_RX_INFO, 0x4010_0000 + 0x004 and 0x008
def MG_RX_CTRL_POP : RegRow := ⟨0x40100004, 0, 1, 1, 0, 1, 0, .wo, (some 0), (some 0), (some 0), 0⟩
def MG_RX_INFO_LEN : RegRow := ⟨0x40100008, 0, 10, 1, 0, 1, 0, .ro, (some 0), (some 0), none, 0⟩
def MG_RX_INFO_KIND : RegRow := ⟨0x40100008, 16, 8, 1, 0, 1, 0, .ro, (some 0), (some 0), none, 0⟩
def MG_RX_INFO_COUNT : RegRow := ⟨0x40100008, 24, 6, 1, 0, 1, 0, .ro, (some 0), (some 0), none, 0⟩
-- MG_RX_FRC and MG_RX_TOD, 0x4010_0000 + 0x010 to 0x024
def MG_RX_FRC_LO : RegRow := ⟨0x40100010, 0, 32, 1, 0, 1, 0, .ro, (some 0), (some 0), none, 0⟩
def MG_RX_FRC_HI : RegRow := ⟨0x40100014, 0, 32, 1, 0, 1, 0, .ro, (some 0), (some 0), none, 0⟩
def MG_RX_SEC_LO : RegRow := ⟨0x40100018, 0, 32, 1, 0, 1, 0, .ro, (some 0), (some 0), none, 0⟩
def MG_RX_SEC_HI : RegRow := ⟨0x4010001c, 0, 32, 1, 0, 1, 0, .ro, (some 0), (some 0), none, 0⟩
def MG_RX_NS : RegRow := ⟨0x40100020, 0, 30, 1, 0, 1, 0, .ro, (some 0), (some 0), none, 0⟩
def MG_RX_FRAC : RegRow := ⟨0x40100024, 0, 32, 1, 0, 1, 0, .ro, (some 0), (some 0), none, 0⟩
-- MG_ counters, 0x4010_0000 + 0x030 to 0x038
def MG_RECEIVED : RegRow := ⟨0x40100030, 0, 32, 1, 0, 1, 0, .ro, (some 0), (some 0), none, 0⟩
def MG_CRC : RegRow := ⟨0x40100034, 0, 16, 1, 0, 1, 0, .ro, (some 0), (some 0), none, 0⟩
def MG_DROPPED : RegRow := ⟨0x40100038, 0, 16, 1, 0, 1, 0, .ro, (some 0), (some 0), none, 0⟩
-- MG_RX_DATA, 0x4010_0000 + 0x200 to 0x3FF
def MG_RX_DATA : RegRow := ⟨0x40100200, 0, 32, 128, 0x4, 1, 0, .ro, (some 0), (some 0), (some 0), 0⟩

/-! ### DG_ (17_front_indicator.md, R452) -/
-- DG_STATUS, 0x400D_0000 + 0x000
def DG_STATUS_READY : RegRow := ⟨0x400d0000, 0, 1, 1, 0, 1, 0, .ro, (some 0), (some 0), none, 0⟩
def DG_STATUS_REPAINT : RegRow := ⟨0x400d0000, 1, 1, 1, 0, 1, 0, .ro, (some 1), (some 1), none, 1⟩
def DG_STATUS_REPAINT_DONE : RegRow := ⟨0x400d0000, 2, 1, 1, 0, 1, 0, .w1c, (some 0), (some 0), none, 0⟩
def DG_STATUS_CRACK : RegRow := ⟨0x400d0000, 3, 1, 1, 0, 1, 0, .ro, (some 0), (some 0), none, 0⟩
def DG_STATUS_PUMP : RegRow := ⟨0x400d0000, 4, 1, 1, 0, 1, 0, .ro, (some 0), (some 0), none, 0⟩
def DG_STATUS_TEMP_HOLD : RegRow := ⟨0x400d0000, 5, 1, 1, 0, 1, 0, .ro, (some 0), (some 0), none, 0⟩
def DG_STATUS_LEGAL_WAIT : RegRow := ⟨0x400d0000, 6, 1, 1, 0, 1, 0, .ro, (some 0), (some 0), (some 0), 0⟩
def DG_STATUS_IN_FLIGHT : RegRow := ⟨0x400d0000, 8, 3, 1, 0, 1, 0, .ro, (some 0), (some 0), (some 0), 0⟩
def DG_STATUS_QUEUED : RegRow := ⟨0x400d0000, 16, 5, 1, 0, 1, 0, .ro, (some 0), (some 0), (some 0), 0⟩
-- DG_RECT, DG_SIZE and DG_CTRL, 0x400D_0000 + 0x004 to 0x00C
def DG_RECT_X : RegRow := ⟨0x400d0004, 0, 9, 1, 0, 1, 0, .rw, (some 0), (some 0), (some 0), 0⟩
def DG_RECT_Y : RegRow := ⟨0x400d0004, 16, 8, 1, 0, 1, 0, .rw, (some 0), (some 0), (some 0), 0⟩
def DG_SIZE_W : RegRow := ⟨0x400d0008, 0, 9, 1, 0, 1, 0, .rw, (some 0), (some 0), (some 0), 0⟩
def DG_SIZE_H : RegRow := ⟨0x400d0008, 16, 8, 1, 0, 1, 0, .rw, (some 0), (some 0), (some 0), 0⟩
def DG_CTRL_WAVE : RegRow := ⟨0x400d000c, 0, 2, 1, 0, 1, 0, .rw, (some 1), (some 1), (some 1), 1⟩
def DG_CTRL_SUBMIT : RegRow := ⟨0x400d000c, 8, 1, 1, 0, 1, 0, .wo, (some 0), (some 0), (some 0), 0⟩
-- DG_SUBMIT, 0x400D_0000 + 0x010
def DG_SUB_TICKET : RegRow := ⟨0x400d0010, 0, 8, 1, 0, 1, 0, .ro, (some 0), (some 0), (some 0), 0⟩
def DG_SUB_ACCEPTED : RegRow := ⟨0x400d0010, 8, 1, 1, 0, 1, 0, .w1c, (some 0), (some 0), (some 0), 0⟩
def DG_SUB_REFUSED : RegRow := ⟨0x400d0010, 9, 1, 1, 0, 1, 0, .w1c, (some 0), (some 0), (some 0), 0⟩
def DG_SUB_CODE : RegRow := ⟨0x400d0010, 16, 8, 1, 0, 1, 0, .ro, (some 0), (some 0), (some 0), 0⟩
-- DG_DONE and DG_DONE_POP, 0x400D_0000 + 0x014 and 0x018
def DG_DONE_TICKET : RegRow := ⟨0x400d0014, 0, 8, 1, 0, 1, 0, .ro, (some 0), (some 0), (some 0), 0⟩
def DG_DONE_OUTCOME : RegRow := ⟨0x400d0014, 8, 4, 1, 0, 1, 0, .ro, (some 0), (some 0), (some 0), 0⟩
def DG_DONE_VALID : RegRow := ⟨0x400d0014, 31, 1, 1, 0, 1, 0, .ro, (some 0), (some 0), (some 0), 0⟩
def DG_DONE_POP : RegRow := ⟨0x400d0018, 0, 1, 1, 0, 1, 0, .wo, (some 0), (some 0), (some 0), 0⟩
-- DG_TEMP and DG_COUNT, 0x400D_0000 + 0x01C and 0x020
def DG_TEMP : RegRow := ⟨0x400d001c, 0, 16, 1, 0, 1, 0, .ro, (some 0), (some 0), (some 0), 0⟩
def DG_COUNT_DONE : RegRow := ⟨0x400d0020, 0, 16, 1, 0, 1, 0, .ro, (some 0), (some 0), none, 0⟩
def DG_COUNT_REFUSED : RegRow := ⟨0x400d0020, 16, 16, 1, 0, 1, 0, .ro, (some 0), (some 0), none, 0⟩
-- DG_BUF, 0x400D_0000 + 0x1000 to 0x54BF
def DG_BUF : RegRow := ⟨0x400d1000, 0, 32, 4400, 0x4, 1, 0, .rw, (some 0), (some 0), (some 0), 0⟩

/-! ### BT_ (18_start_up_and_updates.md, R473) -/
-- BT_STATUS, 0x400F_0000 + 0x000
def BT_STATUS_STAGE : RegRow := ⟨0x400f0000, 0, 4, 1, 0, 1, 0, .ro, (some 0), (some 0), (some 0), 0⟩
def BT_STATUS_RECOVERY : RegRow := ⟨0x400f0000, 4, 1, 1, 0, 1, 0, .ro, (some 0), (some 0), (some 0), 0⟩
def BT_STATUS_REASON : RegRow := ⟨0x400f0000, 8, 4, 1, 0, 1, 0, .ro, (some 0), (some 0), (some 0), 0⟩
def BT_STATUS_BANK_FALLBACK : RegRow := ⟨0x400f0000, 12, 1, 1, 0, 1, 0, .w1c, (some 0), (some 0), none, 0⟩
def BT_STATUS_ACTIVATED : RegRow := ⟨0x400f0000, 13, 1, 1, 0, 1, 0, .w1c, (some 0), (some 0), none, 0⟩
def BT_STATUS_FAILED_PARTS : RegRow := ⟨0x400f0000, 16, 9, 1, 0, 1, 0, .ro, (some 0), (some 0), (some 0), 0⟩
-- BT_LAST_BOOT and BT_CAUSE, 0x400F_0000 + 0x004 to 0x00C
def BT_LAST_STOP_MS : RegRow := ⟨0x400f0004, 0, 16, 1, 0, 1, 0, .ro, none, none, none, 0⟩
def BT_LAST_RUN_MS : RegRow := ⟨0x400f0008, 0, 16, 1, 0, 1, 0, .ro, none, none, none, 0⟩
def BT_LAST_CAUSE : RegRow := ⟨0x400f000c, 0, 3, 1, 0, 1, 0, .ro, none, none, none, 0⟩
-- BT_PART entry p, 0x400F_0000 + 0x100 + 0x10 × p, p from 0 to 8
def BT_PART_ACTIVE : RegRow := ⟨0x400f0100, 0, 1, 9, 0x10, 1, 0, .ro, none, none, none, 0⟩
def BT_PART_A_OK : RegRow := ⟨0x400f0100, 1, 1, 9, 0x10, 1, 0, .ro, none, none, none, 0⟩
def BT_PART_B_OK : RegRow := ⟨0x400f0100, 2, 1, 9, 0x10, 1, 0, .ro, none, none, none, 0⟩
def BT_PART_PENDING : RegRow := ⟨0x400f0100, 4, 2, 9, 0x10, 1, 0, .ro, none, none, none, 0⟩
def BT_PART_LOADED : RegRow := ⟨0x400f0100, 8, 1, 9, 0x10, 1, 0, .ro, (some 0), (some 0), (some 0), 0⟩
def BT_PART_VER_A : RegRow := ⟨0x400f0104, 0, 32, 9, 0x10, 1, 0, .ro, none, none, none, 0⟩
def BT_PART_VER_B : RegRow := ⟨0x400f0108, 0, 32, 9, 0x10, 1, 0, .ro, none, none, none, 0⟩
def BT_PART_LAST_FRAME : RegRow := ⟨0x400f010c, 0, 32, 9, 0x10, 1, 0, .ro, none, none, none, 0⟩
-- BT_SCHED entry p, 0x400F_0000 + 0x200 + 8 × p
def BT_SCHED_AT_LO : RegRow := ⟨0x400f0200, 0, 32, 9, 0x8, 1, 0, .ro, none, none, none, 0⟩
def BT_SCHED_AT_HI : RegRow := ⟨0x400f0204, 0, 32, 9, 0x8, 1, 0, .ro, none, none, none, 0⟩
-- BT_FWD, 0x400F_0000 + 0x300
def BT_FWD_STATE : RegRow := ⟨0x400f0300, 0, 3, 1, 0, 1, 0, .ro, (some 0), (some 0), (some 0), 0⟩
def BT_FWD_HOP : RegRow := ⟨0x400f0300, 8, 8, 1, 0, 1, 0, .ro, (some 0), (some 0), (some 0), 0⟩
def BT_FWD_FAILED : RegRow := ⟨0x400f0300, 16, 16, 1, 0, 1, 0, .ro, (some 0), (some 0), (some 0), 0⟩
-- BT_NODE entry q, 0x400F_0000 + 0x400 + 4 × q, q from 0 to 7
def BT_NODE_STATE : RegRow := ⟨0x400f0400, 0, 3, 8, 0x4, 1, 0, .ro, (some 0), (some 0), (some 0), 0⟩
def BT_NODE_BLOCKS : RegRow := ⟨0x400f0400, 4, 12, 8, 0x4, 1, 0, .ro, (some 0), (some 0), (some 0), 0⟩
def BT_NODE_VERIFIED : RegRow := ⟨0x400f0400, 16, 9, 8, 0x4, 1, 0, .ro, (some 0), (some 0), (some 0), 0⟩
def BT_NODE_LAGGING : RegRow := ⟨0x400f0400, 25, 7, 8, 0x4, 1, 0, .ro, (some 0), (some 0), (some 0), 0⟩

/-! ### SS_ (19_supervision_wear_and_power_loss.md, R495) -/
-- SS_STATUS and SS_EVENTS, 0x400B_0000 + 0x000 and 0x004
def SS_STATUS_SAFE_LINE : RegRow := ⟨0x400b0000, 0, 1, 1, 0, 1, 0, .ro, (some 0), (some 0), (some 0), 0⟩
def SS_STATUS_PFW : RegRow := ⟨0x400b0000, 1, 1, 1, 0, 1, 0, .ro, (some 0), (some 0), (some 0), 0⟩
def SS_STATUS_FEED0_OK : RegRow := ⟨0x400b0000, 2, 1, 1, 0, 1, 0, .ro, (some 0), (some 0), (some 0), 0⟩
def SS_STATUS_FEED1_OK : RegRow := ⟨0x400b0000, 3, 1, 1, 0, 1, 0, .ro, (some 0), (some 0), (some 0), 0⟩
def SS_STATUS_OSC_OK : RegRow := ⟨0x400b0000, 4, 1, 1, 0, 1, 0, .ro, (some 0), (some 0), (some 0), 0⟩
def SS_STATUS_HEALTHY : RegRow := ⟨0x400b0000, 5, 1, 1, 0, 1, 0, .ro, (some 0), (some 0), (some 0), 0⟩
def SS_EVENTS_OVERRUN : RegRow := ⟨0x400b0004, 0, 1, 1, 0, 1, 0, .w1c, (some 0), none, none, 0⟩
def SS_EVENTS_LATE : RegRow := ⟨0x400b0004, 1, 1, 1, 0, 1, 0, .w1c, (some 0), none, none, 0⟩
def SS_EVENTS_TICK_LOST : RegRow := ⟨0x400b0004, 2, 1, 1, 0, 1, 0, .w1c, (some 0), none, none, 0⟩
def SS_EVENTS_PFW_SEEN : RegRow := ⟨0x400b0004, 3, 1, 1, 0, 1, 0, .w1c, (some 0), none, none, 0⟩
def SS_EVENTS_FEED0_LOST : RegRow := ⟨0x400b0004, 4, 1, 1, 0, 1, 0, .w1c, (some 0), none, none, 0⟩
def SS_EVENTS_FEED1_LOST : RegRow := ⟨0x400b0004, 5, 1, 1, 0, 1, 0, .w1c, (some 0), none, none, 0⟩
def SS_EVENTS_TEMP : RegRow := ⟨0x400b0004, 6, 1, 1, 0, 1, 0, .w1c, (some 0), none, none, 0⟩
def SS_EVENTS_RAIL : RegRow := ⟨0x400b0004, 7, 1, 1, 0, 1, 0, .w1c, (some 0), none, none, 0⟩
def SS_EVENTS_BROWNOUT_RESTART : RegRow := ⟨0x400b0004, 8, 1, 1, 0, 1, 0, .w1c, (some 0), none, none, 0⟩
-- SS_FEED and SS_TEMP, 0x400B_0000 + 0x008 and 0x00C
def SS_FEED_FEED0 : RegRow := ⟨0x400b0008, 0, 16, 1, 0, 1, 0, .ro, (some 0), (some 0), (some 0), 0⟩
def SS_FEED_FEED1 : RegRow := ⟨0x400b0008, 16, 16, 1, 0, 1, 0, .ro, (some 0), (some 0), (some 0), 0⟩
def SS_TEMP : RegRow := ⟨0x400b000c, 0, 16, 1, 0, 1, 0, .ro, (some 0), (some 0), (some 0), 0⟩
-- SS_TRIP_CFG, 0x400B_0000 + 0x010
def SS_TRIP_CFG_ON_HALT_0 : RegRow := ⟨0x400b0010, 0, 1, 1, 0, 1, 0, .rwl, (some 1), none, none, 1⟩
def SS_TRIP_CFG_ON_HALT_1 : RegRow := ⟨0x400b0010, 4, 1, 1, 0, 1, 0, .rwl, (some 1), none, none, 1⟩
def SS_TRIP_CFG_ON_HALT_2 : RegRow := ⟨0x400b0010, 8, 1, 1, 0, 1, 0, .rwl, (some 1), none, none, 1⟩
def SS_TRIP_CFG_ON_HALT_3 : RegRow := ⟨0x400b0010, 12, 1, 1, 0, 1, 0, .rwl, (some 1), none, none, 1⟩
def SS_TRIP_CFG_ON_PFW_0 : RegRow := ⟨0x400b0010, 1, 1, 1, 0, 1, 0, .rwl, (some 0), none, none, 0⟩
def SS_TRIP_CFG_ON_PFW_1 : RegRow := ⟨0x400b0010, 5, 1, 1, 0, 1, 0, .rwl, (some 0), none, none, 0⟩
def SS_TRIP_CFG_ON_PFW_2 : RegRow := ⟨0x400b0010, 9, 1, 1, 0, 1, 0, .rwl, (some 0), none, none, 0⟩
def SS_TRIP_CFG_ON_PFW_3 : RegRow := ⟨0x400b0010, 13, 1, 1, 0, 1, 0, .rwl, (some 0), none, none, 0⟩
-- SS_TRIP_MASK entry p, 0x400B_0000 + 0x020 + 4 × p, p from 0 to 7
def SS_TRIP_MASK : RegRow := ⟨0x400b0020, 0, 4, 8, 0x4, 1, 0, .rwl, (some 15), none, none, 15⟩
def SS_TRIP_OPENTRIP : RegRow := ⟨0x400b0020, 8, 1, 8, 0x4, 1, 0, .rwl, (some 0), none, none, 0⟩
-- SS_TRIP, 0x400B_0000 + 0x040
def SS_TRIP_LATCH : RegRow := ⟨0x400b0040, 0, 4, 1, 0, 1, 0, .w1c, (some 0), none, none, 0⟩
def SS_TRIP_CAUSE_NOW : RegRow := ⟨0x400b0040, 4, 4, 1, 0, 1, 0, .ro, (some 0), (some 0), (some 0), 0⟩
def SS_TRIP_OPEN : RegRow := ⟨0x400b0040, 8, 4, 1, 0, 1, 0, .ro, (some 15), (some 15), (some 15), 15⟩
def SS_TRIP_CMD : RegRow := ⟨0x400b0040, 16, 4, 1, 0, 1, 0, .wo, (some 0), (some 0), (some 0), 0⟩
-- SS_TRIP_SRC entry i, 0x400B_0000 + 0x050 + 4 × i, i from 0 to 3
def SS_TRIP_SRC_FAULT : RegRow := ⟨0x400b0050, 0, 8, 4, 0x4, 1, 0, .ro, (some 0), none, none, 0⟩
def SS_TRIP_SRC_OPEN : RegRow := ⟨0x400b0050, 8, 8, 4, 0x4, 1, 0, .ro, (some 0), none, none, 0⟩
def SS_TRIP_SRC_HALT : RegRow := ⟨0x400b0050, 16, 1, 4, 0x4, 1, 0, .ro, (some 0), none, none, 0⟩
def SS_TRIP_SRC_PFW : RegRow := ⟨0x400b0050, 17, 1, 4, 0x4, 1, 0, .ro, (some 0), none, none, 0⟩
def SS_TRIP_SRC_CMD : RegRow := ⟨0x400b0050, 18, 1, 4, 0x4, 1, 0, .ro, (some 0), none, none, 0⟩
-- SS_ counters, 0x400B_0000 + 0x060 to 0x06C
def SS_OVERRUNS : RegRow := ⟨0x400b0060, 0, 32, 1, 0, 1, 0, .ro, (some 0), none, none, 0⟩
def SS_LATE : RegRow := ⟨0x400b0064, 0, 32, 1, 0, 1, 0, .ro, (some 0), none, none, 0⟩
def SS_TICK_LOST : RegRow := ⟨0x400b0068, 0, 16, 1, 0, 1, 0, .ro, (some 0), none, none, 0⟩
def SS_TRIPS : RegRow := ⟨0x400b0068, 16, 16, 1, 0, 1, 0, .ro, (some 0), none, none, 0⟩
def SS_PFW : RegRow := ⟨0x400b006c, 0, 16, 1, 0, 1, 0, .ro, (some 0), none, none, 0⟩

/-! ### HS_ (19_supervision_wear_and_power_loss.md, R495) -/
-- HS_CTRL and HS_STATUS, 0x400E_0000 + 0x000 and 0x004
def HS_CTRL_AUTO : RegRow := ⟨0x400e0000, 0, 11, 1, 0, 1, 0, .rwl, none, none, none, 2047⟩
def HS_CTRL_LOW_MIN : RegRow := ⟨0x400e0000, 16, 4, 1, 0, 1, 0, .rwl, none, none, none, 1⟩
def HS_STATUS_BUSY : RegRow := ⟨0x400e0004, 0, 1, 1, 0, 1, 0, .ro, (some 0), (some 0), (some 0), 0⟩
def HS_STATUS_LOW : RegRow := ⟨0x400e0004, 1, 1, 1, 0, 1, 0, .ro, none, none, none, 0⟩
def HS_STATUS_EXHAUSTED_ANY : RegRow := ⟨0x400e0004, 2, 1, 1, 0, 1, 0, .ro, none, none, none, 0⟩
def HS_STATUS_RECORD_OK : RegRow := ⟨0x400e0004, 3, 1, 1, 0, 1, 0, .ro, none, none, none, 1⟩
-- HS_EXHAUSTED and HS_WARN, 0x400E_0000 + 0x008 and 0x00C
def HS_EXHAUSTED : RegRow := ⟨0x400e0008, 0, 11, 1, 0, 1, 0, .ro, none, none, none, 0⟩
def HS_WARN : RegRow := ⟨0x400e000c, 0, 11, 1, 0, 1, 0, .w1c, none, none, none, 0⟩
-- HS_SWITCH and HS_SWITCH_STATUS, 0x400E_0000 + 0x010 and 0x014
def HS_SWITCH_KIND : RegRow := ⟨0x400e0010, 0, 4, 1, 0, 1, 0, .rwl, (some 0), (some 0), (some 0), 0⟩
def HS_SWITCH_INDEX : RegRow := ⟨0x400e0010, 8, 18, 1, 0, 1, 0, .rwl, (some 0), (some 0), (some 0), 0⟩
def HS_SWITCH_START : RegRow := ⟨0x400e0010, 28, 1, 1, 0, 1, 0, .wo, (some 0), (some 0), (some 0), 0⟩
def HS_SWITCH_CANCEL : RegRow := ⟨0x400e0010, 29, 1, 1, 0, 1, 0, .wo, (some 0), (some 0), (some 0), 0⟩
def HS_SWITCH_STATUS_STATE : RegRow := ⟨0x400e0014, 0, 3, 1, 0, 1, 0, .ro, (some 0), (some 0), (some 0), 0⟩
def HS_SWITCH_STATUS_REASON : RegRow := ⟨0x400e0014, 8, 4, 1, 0, 1, 0, .ro, (some 0), (some 0), (some 0), 0⟩
-- HS_CLEAR, HS_ARB_RETRY and HS_JOURNAL, 0x400E_0000 + 0x020 to 0x034
def HS_CLEAR_BLOCK : RegRow := ⟨0x400e0020, 0, 8, 1, 0, 1, 0, .rw, (some 0), (some 0), (some 0), 0⟩
def HS_CLEAR_UNIT : RegRow := ⟨0x400e0020, 8, 8, 1, 0, 1, 0, .rw, (some 255), (some 255), (some 255), 255⟩
def HS_CLEAR_GO : RegRow := ⟨0x400e0020, 31, 1, 1, 0, 1, 0, .wo, (some 0), (some 0), (some 0), 0⟩
def HS_ARB_RETRY : RegRow := ⟨0x400e0024, 0, 32, 1, 0, 1, 0, .ro, (some 0), (some 0), none, 0⟩
def HS_JOURNAL_NEXT_SEQ : RegRow := ⟨0x400e0030, 0, 32, 1, 0, 1, 0, .ro, none, none, none, 0⟩
def HS_JOURNAL_LOST : RegRow := ⟨0x400e0034, 0, 16, 1, 0, 1, 0, .ro, none, none, none, 0⟩
def HS_JOURNAL_PENDING : RegRow := ⟨0x400e0034, 16, 7, 1, 0, 1, 0, .ro, (some 0), (some 0), (some 0), 0⟩
-- HS_INV entry k, 0x400E_0000 + 0x100 + 8 × k, k from 0 to 10
def HS_INV_IN_SERVICE : RegRow := ⟨0x400e0100, 0, 16, 11, 0x8, 1, 0, .ro, none, none, none, 0⟩
def HS_INV_SPARE : RegRow := ⟨0x400e0100, 16, 16, 11, 0x8, 1, 0, .ro, none, none, none, 0⟩
def HS_INV_FAILED : RegRow := ⟨0x400e0104, 0, 16, 11, 0x8, 1, 0, .ro, none, none, none, 0⟩
-- HS_THR entry k, 0x400E_0000 + 0x200 + 8 × k, k from 0 to 10
def HS_THR_WARN : RegRow := ⟨0x400e0200, 0, 32, 11, 0x8, 1, 0, .rwl, none, none, none, 0⟩
def HS_THR_ACT : RegRow := ⟨0x400e0204, 0, 32, 11, 0x8, 1, 0, .rwl, none, none, none, 0⟩

def rowsTB0 : List RegRow := [
  TB_CTRL_REF_SEL, TB_CTRL_SNAP, TB_STATUS_REF_ACTIVE, TB_STATUS_PRIMARY_OK, TB_STATUS_SPARE_OK,
  TB_STATUS_EXT_LOCK, TB_STATUS_TOD_VALID, TB_STATUS_INC_CLAMP, TB_STATUS_SET_PAST, TB_FRC_LO,
  TB_FRC_HI, TB_SNAP_FRC_LO, TB_SNAP_FRC_HI, TB_SNAP_SEC_LO, TB_SNAP_SEC_HI,
  TB_SNAP_NS, TB_SNAP_FRAC, TB_TODSET_SEC_LO, TB_TODSET_SEC_HI, TB_TODSET_NS,
  TB_TODSET_FRAC, TB_TODSET_AT_LO, TB_TODSET_AT_HI, TB_TODSET_NOW, TB_TODSET_ARM,
  TB_INC_NS, TB_INC_FRAC, TB_OSC_EVENT_UNPLANNED, TB_OSC_EVENT_PLANNED, TB_OSC_EVENT_EXT_LOST,
  TB_TP_CTRL_PPS_OUT_EN, TB_TP_CTRL_TENM_OUT_EN, TB_TP_CTRL_PPS_IN_EN, TB_TP_CTRL_TERM, TB_TP_CTRL_WIDTH,
  TB_PPS_DELAY, TB_TP_STATUS_PPS_SEEN, TB_TP_STATUS_PPS_FAST, TB_LG_MODE, TB_LG_N]
def rowsTB1 : List RegRow := [
  TB_LG_OFFSET, TB_LG_TIME_LO, TB_LG_TIME_HI, TB_LG_NS, TB_LG_ARM,
  TB_LG_FIRED, TB_LG_PAST, TB_LG_OVERLAP, TB_LG_OFFSET_RANGE, TB_LG_PHASE,
  TB_LGM_INDEX, TB_LGM_KIND, TB_LGM_LG, TB_LGM_VALID, TB_PPS_FRC_LO,
  TB_PPS_FRC_HI, TB_PPS_SEC_LO, TB_PPS_SEC_HI, TB_PPS_NS, TB_PPS_FRAC]
def rowsTT0 : List RegRow := [
  TT_FRAME_PERIOD, TT_FRAME_PERIOD_SUBFRAMES, TT_ALIGN_MODE, TT_ALIGN_TRIM_MAX, TT_ALIGN_LIMIT,
  TT_FRAME_NO_LO, TT_FRAME_NO_HI, TT_LAST_TICK_LO, TT_LAST_TICK_HI, TT_ALIGN_STATUS_OFFSET,
  TT_ALIGN_STATUS_ALIGNED, TT_ALIGN_STATUS_MISALIGNED, TT_ALIGN_STATUS_CFG_ERR, TT_ADM_CTRL_START, TT_ADM_CTRL_ABORT,
  TT_ADM_CTRL_SLOT, TT_ADM_CTRL_PLACEMENT, TT_ADM_STATUS_BUSY, TT_ADM_STATUS_DONE, TT_ADM_STATUS_CODE,
  TT_ADM_WHERE_TILE, TT_ADM_WHERE_BUNDLE, TT_ADM_WHERE_RESP, TT_ADM_CYCLE, TT_ADM_RES_KIND,
  TT_ADM_RES_INDEX, TT_IMG_ID, TT_IMG_VER, TT_PLAN_ENDF_MAX, TT_PLAN_MARKER,
  TT_PLAN_SEAL, TT_PLAN_IN_END, TT_PLAN_EXEC_START, TT_PLAN_OUT_START, TT_PLAN_OUT_END,
  TT_ADMITTED_VALID, TT_ADMITTED_PAIR, TT_MODE_CUR_ACTIVE, TT_MODE_CUR_MIRROR, TT_MODE_NEXT_ACTIVE]
def rowsTT1 : List RegRow := [
  TT_MODE_NEXT_MIRROR, TT_MODE_AT_LO, TT_MODE_AT_HI, TT_MODE_CTRL_PREPARE, TT_MODE_CTRL_ARM,
  TT_MODE_CTRL_CANCEL, TT_MODE_STATUS_STATE, TT_MODE_STATUS_REASON, TT_MODE_STATUS_DONE, TT_MODE_STATUS_ABANDONED,
  TT_MODE_STATUS_DELTA, TT_MODE_LAST_FRAME_LO, TT_MODE_LAST_FRAME_HI, TT_MODE_HASH, TT_MODE_COUNT,
  TT_SLOT_KIND, TT_SLOT_VALID, TT_SLOT_STALE, TT_SLOT_IN_FORCE, TT_SLOT_CODE,
  TT_SLOT_ID, TT_SLOT_VER, TT_RUN_CTRL_START, TT_RUN_CTRL_STOP, TT_RUN_CTRL_LRST,
  TT_RUN_CTRL_KIND, TT_RUN_CTRL_AUTORUN, TT_RUN_STATUS_STATE, TT_RUN_STATUS_KIND_LAST, TT_RUN_STATUS_REFUSE,
  TT_RUN_STATUS_STARTED, TT_RUN_STATUS_STOPPED, TT_RUN_STATUS_HALTED, TT_RUN_STATUS_HALT_CAUSE, TT_RUN_FIRST_LO,
  TT_RUN_FIRST_HI, TT_RUN_LAST_LO, TT_RUN_LAST_HI, TT_RET_CTRL_CLEAR, TT_RET_STATUS_RESTORED]
def rowsTT2 : List RegRow := [
  TT_RET_STATUS_MISMATCH, TT_RET_STATUS_PORTB_REFUSED, TT_RET_STATUS_BUSY, TT_RET_STATUS_DIRTY_MAX, TT_RET_FRAME_LO,
  TT_RET_FRAME_HI, TT_RET_FRAME_LOST]
def rowsLT0 : List RegRow := [
  LT_MAP_X, LT_MAP_Y, LT_PHYS_STATE, LT_PHYS_LOGICAL, LT_PHYS_ECC_COR,
  LT_RELOC_LOGICAL, LT_RELOC_TARGET, LT_RELOC_CHECK, LT_RELOC_COMMIT, LT_RELOC_STATUS_BUSY,
  LT_RELOC_STATUS_PASS, LT_RELOC_STATUS_DONE, LT_RELOC_STATUS_CODE, LT_SHADOW_STATUS_BUSY, LT_SHADOW_STATUS_UNCOVERED,
  LT_SHADOW_STATUS_MIS, LT_SHADOW_STATUS_PHYS, LT_SHADOW_STATUS_COUNT, LT_TF_SAT, LT_TF_DIVZ,
  LT_TF_RINGFULL, LT_TF_ECC_COR, LT_TF_ECC_UNC, LT_BANK_ECC_COR, LT_BANK_ECC_UNC,
  LT_BANK_GROUP_LOG2, LT_BANK_GROUP_FIRST]
def rowsLP0 : List RegRow := [
  LP_STATUS_BUSY, LP_STATUS_OVF_ANY, LP_STATUS_MISSED_ANY, LP_STATUS_PV_BAD_ANY, LP_STATUS_CFG_BAD_ANY,
  LP_STATUS_DUP, LP_STATUS_WIN_WR_REFUSED, LP_CALLS, LP_LAST_MISS_RECORD, LP_LAST_MISS_VALID,
  LP_WIN_ADDR, LP_WIN_DATA, LP_FLAGSUM, LP_MISSSUM]
def rowsSV0 : List RegRow := [
  SV_STATUS_BUSY, SV_STATUS_PIVOT_ANY, SV_STATUS_NOTPD_ANY, SV_STATUS_IN_RANGE_ANY, SV_STATUS_OVF_ANY,
  SV_STATUS_DEADLINE_ANY, SV_STATUS_INFEAS_ANY, SV_STATUS_ECC_UNC, SV_STATUS_WIN_WR_REFUSED, SV_STATUS_SHADOW_MIS,
  SV_CALLS, SV_MAP_PHYS, SV_PHYS_STATE, SV_PHYS_LOGICAL, SV_PHYS_ECC_COR,
  SV_RELOC_CTRL_LOGICAL, SV_RELOC_CTRL_TARGET, SV_RELOC_CTRL_COMMIT, SV_RELOC_STATUS_PENDING, SV_RELOC_STATUS_DONE,
  SV_RELOC_STATUS_REFUSED, SV_SHADOW_LOGICAL, SV_SHADOW_EN, SV_SHADOW_CMP, SV_SHADOW_MIS,
  SV_WIN_ADDR, SV_WIN_DATA, SV_DMA_SRC, SV_DMA_DST_LO, SV_DMA_DST_HI,
  SV_DMA_LEN, SV_DMA_START, SV_DMA_ABORT, SV_DMA_BUSY, SV_DMA_DONE,
  SV_DMA_ERR, SV_DMA_RETRIES]
def rowsFG0 : List RegRow := [
  FG_STATUS_FALLBACK, FG_STATUS_JUMPER, FG_STATUS_CROSS_OK, FG_STATUS_CJ0_OK, FG_STATUS_CJ7_OK,
  FG_STATUS_REF_DEV, FG_STATUS_POWER_LIMIT, FG_STATUS_MODULE_LIMIT, FG_STATUS_EXHAUSTED, FG_STATUS_FALLBACK_SEEN,
  FG_STATUS_APPLY_PENDING, FG_STATUS_RATE_ADAPTED, FG_POWER_DRAW, FG_POWER_LIMIT, FG_CJ0,
  FG_CJ7, FG_CROSS_ERR_COUNT, FG_APPLY, FG_APPLY_CANCEL, FG_APPLY_STATUS_DONE,
  FG_APPLY_STATUS_REFUSED, FG_APPLY_STATUS_REASON, FG_APPLY_STATUS_TERMINAL, FG_SPARE_CTRL_TERMINAL, FG_SPARE_CTRL_START,
  FG_SPARE_CTRL_CANCEL, FG_SPARE_STATUS_STATE, FG_SPARE_STATUS_TERMINAL, FG_SPARE_STATUS_XCHK, FG_SPARE_STATUS_DONE,
  FG_SPARE_STATUS_REFUSED, FG_SPARE_STATUS_REASON, FG_CONV_MAP_CONV0, FG_CONV_MAP_CONV1, FG_CONV_MAP_CONV2,
  FG_CONV_MAP_CONV3, FG_CONV_MAP_CONV4, FG_CONV_MAP_CONV5, FG_CONV_MAP_CONV6, FG_CONV_MAP_CONV7]
def rowsFG1 : List RegRow := [
  FG_CONV_STATE_C0, FG_CONV_STATE_C1, FG_CONV_STATE_C2, FG_CONV_STATE_C3, FG_CONV_STATE_C4,
  FG_CONV_STATE_C5, FG_CONV_STATE_C6, FG_CONV_STATE_C7, FG_CONV_STATE_C8]
def rowsCHU0 : List RegRow := [
  CH_CFG_MODE, CH_CFG_RANGE, CH_CFG_WIRES, CH_CFG_SENSOR, CH_CFG_QM,
  CH_CFG_RATE_MODE, CH_CFG_NE43_EN, CH_CFG_ALARM_HIGH, CH_CFG_SINK, CH_CFG_HART_EN,
  CH_CFG_CJ_SRC, CH_CFG_CJ_TERM, CH_RATE_N, CH_RATE_K, CH_SCALE_A,
  CH_SCALE_B, CH_SAFE_KIND, CH_SAFE_VALUE, CH_TRIM_GAIN, CH_TRIM_OFFSET,
  CH_LEAD_R, CH_CJ_FIXED, CH_DRIFT_LIM, CH_FLAGS_B1, CH_FLAGS_B2,
  CH_FLAGS_B3, CH_FLAGS_B4, CH_FLAGS_B5, CH_FLAGS_B6, CH_FLAGS_B9,
  CH_FLAGS_B10, CH_FLAGS_B11, CH_FLAGS_B12, CH_FLAGS_B13, CH_FLAGS_B14,
  CH_FLAGS_B15, CH_FLAGS_B18, CH_FLAGS_B22, CH_SHORTFALL_MAX, CH_XCHK_DEV]
def rowsCHU1 : List RegRow := [
  CH_STATUS_NOW, CH_VALUE_NOW]
def rowsDIO0 : List RegRow := [
  DIO_STATUS_IN_OK, DIO_STATUS_OUT_OK, DIO_STATUS_IN_STALE, DIO_STATUS_OUT_OFF, DIO_STATUS_FAULT0,
  DIO_STATUS_FAULT1, DIO_STATUS_SUP0_LOW, DIO_STATUS_SUP1_LOW, DIO_STATUS_TRIP, DIO_STATUS_CAP_LOST,
  DIO_IN_STATE, DIO_IN_RAW, DIO_OUT_NOW, DIO_CROSS_ERR_COUNT, DIO_APPLY,
  DIO_APPLY_CANCEL, DIO_APPLY_STATUS_DONE, DIO_APPLY_STATUS_REFUSED, DIO_APPLY_STATUS_REASON, DIO_APPLY_STATUS_INPUT,
  DIO_IN_TYPE, DIO_IN_CONT, DIO_IN_CFG_LIMIT, DIO_IN_CFG_TH_ON, DIO_IN_CFG_TH_OFF,
  DIO_IN_CFG_COUNT_EN, DIO_IN_CFG_INVERT, DIO_OUT_SAFE_KIND, DIO_OUT_SAFE_STATE]
def rowsHART0 : List RegRow := [
  HART_CFG_RETRIES, HART_CFG_PREAMBLE, HART_CFG_MULTIDROP, HART_CFG_SYNC, HART_CFG_BURST_RX,
  HART_STATUS_STATE, HART_STATUS_QUEUED, HART_COUNT_OK, HART_COUNT_FAIL, HART_COUNT_BURST]
def rowsCH0 : List RegRow := [
  CH_CTRL_EN, CH_CTRL_RING, CH_CTRL_APPLY, CH_CTRL_CANCEL, CH_CTRL_DISCOVER,
  CH_CTRL_WAKE, CH_CTRL_SLEEP, CH_CTRL_FAULT_CLR, CH_CTRL_N, CH_STATUS_STATE,
  CH_STATUS_APPLY_PENDING, CH_STATUS_DONE, CH_STATUS_REFUSED, CH_STATUS_REASON, CH_STATUS_COUNT_MISMATCH,
  CH_STATUS_CHANGED, CH_STATUS_DELAY_SHORT, CH_STATUS_FWD_INCOMPLETE, CH_STATUS_SWEEP_STOPPED, CH_STATUS_BREAK,
  CH_STATUS_Q_FULL, CH_SWEEP_SRC, CH_SWEEP_PERIOD_F, CH_SWEEP_PUB_F, CH_SWEEP_PHASE,
  CH_TIMING_DELAY, CH_TIMING_SETTLE, CH_QUIET_POST, CH_QUIET_LEAD, CH_SLOT_BASE,
  CH_LINE_STATE, CH_LINE_CURRENT, CH_LINE_FAULT_SEEN, CH_LINE_OPEN_SEEN, CH_SWEEP_NO,
  CH_BREAK_A, CH_BREAK_B, CH_AMAX, CH_SWEEPS, CH_SKIPPED]
def rowsCH1 : List RegRow := [
  CH_MISSING, CH_CRC, CH_RETRIES, CH_QFLAGS, CH_ID_SEL_POS,
  CH_ID_LO, CH_ID_HI, CH_NODE_A_HOME, CH_NODE_A_FAR, CH_NODE_PRESENT,
  CH_NODE_CHANGED, CH_NODE_MISSING_LAST, CH_NODE_UNREACHABLE, CH_NODE_NSTAT, CH_ING_CTRL_EN,
  CH_ING_CTRL_APPLY, CH_ING_CTRL_CANCEL, CH_ING_CTRL_PERIOD_F, CH_ING_CTRL_PUB_F, CH_ING_STATUS_APPLY_PENDING,
  CH_ING_STATUS_DONE, CH_ING_STATUS_REFUSED, CH_ING_STATUS_REASON, CH_ING_STATUS_FWD_INCOMPLETE, CH_ING_SWEEP,
  CH_ING_ACCEPTED, CH_ING_LATE, CH_ING_EARLY, CH_ING_BAD, CH_ING_SRC_SOURCE,
  CH_ING_SRC_SPORT, CH_ING_SRC_VALID, CH_ING_SRC_FIRST_SLOT, CH_ING_SRC_COUNT, CH_ING_OUT_DEST,
  CH_ING_OUT_EN]
def rowsCF0 : List RegRow := [
  CF_CTRL_EN, CF_CTRL_MODE, CF_CTRL_TERM, CF_CTRL_FD_EN, CF_CTRL_PXHD,
  CF_CTRL_NOMATCH, CF_CTRL_APPLY, CF_CTRL_CANCEL, CF_CTRL_RECOVER, CF_CTRL_FLUSH,
  CF_STATUS_STATE, CF_STATUS_TEC, CF_STATUS_REC, CF_STATUS_LEC, CF_STATUS_APPLY_PENDING,
  CF_STATUS_DONE, CF_STATUS_REFUSED, CF_APPLY_REASON, CF_NBT_BRP, CF_NBT_TSEG1,
  CF_NBT_TSEG2, CF_NBT_SJW, CF_DBT_BRP, CF_DBT_TSEG1, CF_DBT_TSEG2,
  CF_DBT_SJW, CF_DBT_TDC_EN, CF_TDC_TDCO, CF_TDC_MEAS, CF_RING_RX_Q,
  CF_RING_HP_Q, CF_RING_TX_Q, CF_RING_MTX_Q, CF_EVT_Q, CF_EVT_HP_IRQ_EN,
  CF_EVENTS_BUSOFF, CF_EVENTS_RECOVERED, CF_EVENTS_SNAP_OVF, CF_EVENTS_RING_OVF, CF_EVENTS_HP_OVF]
def rowsCF1 : List RegRow := [
  CF_EVENTS_TX_NOTOWNER, CF_EVENTS_TX_FORMAT, CF_EVENTS_SVC_DROP, CF_EVENTS_PEX, CF_HP_PENDING,
  CF_HP_NOTIFY, CF_RX, CF_TX, CF_ERR, CF_BUSOFF,
  CF_LOST, CF_SVC_ID, CF_SVC_IDE, CF_SVC_BRS, CF_SVC_EN,
  CF_SVC_STATUS_OPEN, CF_SVC_STATUS_HOST, CF_SVC_STATUS_DROPPED, CF_TXB_OWN_LOW, CF_TXB_OWN_B31,
  CF_TXB_PEND, CF_TXB_ABORT, CF_TXB_CFG_RELEASE, CF_FLT_ID, CF_FLT_IDE,
  CF_FLT_EN, CF_FLT_MASK, CF_FLT_SNAP, CF_FLT_RING, CF_FLT_HP,
  CF_FLT_REJECT, CF_FLT_FDF_MATCH]
def rowsES0 : List RegRow := [
  ES_CTRL_EN, ES_CTRL_RED_MODE, ES_STATUS_BUF_LOW, ES_STATUS_RED_ERR, ES_STATUS_SVC_BLOCK,
  ES_PLANT, ES_RT_ETYPE, ES_PORT_CFG_EN, ES_PORT_CFG_SPEED, ES_PORT_CFG_DEF_PCP,
  ES_PORT_CFG_PVID, ES_PORT_CFG_LINK, ES_PORT_CFG_SPEED_NOW, ES_PORT_CFG_OVERSIZE, ES_PORT_CFG_RX,
  ES_PORT_CFG_TX, ES_QDROP, ES_RT_CTRL_APPLY, ES_RT_CTRL_CANCEL, ES_RT_ADDR,
  ES_RT_DATA, ES_RT_STATUS_PENDING, ES_RT_STATUS_DONE, ES_RT_STATUS_REFUSED, ES_RT_STATUS_NOROUTE,
  ES_RT_STATUS_OUTOFORDER, ES_RT_STATUS_RINGFULL, ES_MACSEC_EN, ES_MACSEC_CONF, ES_MACSEC_XPN,
  ES_MACSEC_SUP_CLEAR, ES_MACSEC_REPLAY, ES_MACSEC_AN_TX, ES_MACSEC_KEY_OK, ES_MACSEC_ICV_FAIL]
def rowsPT0 : List RegRow := [
  PT_CTRL_EN, PT_CTRL_ROLE, PT_CTRL_PROFILE, PT_CTRL_TWO_STEP, PT_CTRL_UDP,
  PT_CTRL_P2P, PT_CTRL_SLAVE_ONLY, PT_CTRL_DOMAIN, PT_UTC_OFFSET, PT_STATUS_STATE,
  PT_STATUS_IN_SPEC, PT_STATUS_STEPPED, PT_STATUS_OFFSET_LARGE, PT_STATUS_SW_IGNORED, PT_STATUS_SLAVE_PORT,
  PT_OFFSET, PT_PATH, PT_HOLD_TIME, PT_SERVO_MODE, PT_SERVO_RESTEP,
  PT_SERVO_KP, PT_SERVO_KI, PT_SERVO_LOCK_THR, PT_SERVO_RELOCK, PT_SERVO_SPEC,
  PT_PORT_EN, PT_PORT_POINT, PT_PORT_PSTATE, PT_PORT_CORR_TX, PT_PORT_CORR_RX,
  PT_PORT_ASYM]
def rowsPA0 : List RegRow := [
  PA_CFG_EN, PA_CFG_PREFERRED, PA_CFG_REVERT, PA_CFG_AUTOJOIN, PA_CFG_MIXED_FAILOVER,
  PA_TIMES_REVERT_HOLD, PA_TIMES_AGREE_MIN, PA_MIXED_MIN, PA_STATUS_ROLE, PA_STATUS_UNIT,
  PA_STATUS_PARTNER_ROLE, PA_STATUS_PARTNER_SEEN, PA_STATUS_LINK0, PA_STATUS_LINK1, PA_STATUS_PARTNER_HEALTHY,
  PA_STATUS_PARTNER_DRIVE, PA_STATUS_DRIVING, PA_STATUS_MIXED, PA_STATUS_ELIGIBLE, PA_STATUS_TESTING,
  PA_EVENTS_FAILOVER, PA_EVENTS_HANDOVER, PA_EVENTS_MISMATCH, PA_EVENTS_PAIR_ALARM, PA_EVENTS_EXCH_MISS,
  PA_EVENTS_LINKS_LOST, PA_EVENTS_JOINED, PA_EVENTS_JOIN_REFUSED, PA_EVENTS_XFER_FAILED, PA_EVENTS_DRIVE_TIE,
  PA_EVENTS_ALIGN_ERR, PA_EVENTS_HANDOVER_ABANDONED, PA_CMD_JOIN, PA_CMD_LEAVE, PA_CMD_HANDOVER,
  PA_CMD_CANCEL, PA_JOIN_STATUS_REASON, PA_JOIN_STATUS_XFER, PA_JOIN_STATUS_ROUND, PA_JOIN_STATUS_DIRTY]
def rowsPA1 : List RegRow := [
  PA_HANDOVER_AT_H_LO, PA_HANDOVER_AT_H_HI, PA_HANDOVER_STATE, PA_HANDOVER_REASON, PA_OFFSET,
  PA_LINKDELAY, PA_TICK_ERR, PA_MISMATCHES, PA_FAILOVERS, PA_HANDOVERS,
  PA_EXCH_MISS, PA_RING_DROP, PA_AGREE_RUN, PA_LAST_MISMATCH_LO, PA_LAST_MISMATCH_HI,
  PA_FIRST_CKPT]
def rowsSE0 : List RegRow := [
  SE_STATUS_OWNED, SE_STATUS_FIELD_LOCK, SE_STATUS_PUF_OK, SE_STATUS_TAMPER_NOW, SE_STATUS_Z_PENDING,
  SE_STATUS_MEMBER, SE_STATUS_BOUND, SE_STATUS_DATES_UNCHECKED, SE_STATUS_REENROLLED, SE_EVENTS_TAMPER,
  SE_EVENTS_ZEROISED, SE_EVENTS_VERIFY_FAIL, SE_EVENTS_LOCKOUT, SE_SERIAL_LO, SE_SERIAL_HI,
  SE_OWNER_ID_LO, SE_OWNER_ID_HI, SE_TAMPER_ACTIONS, SE_TAMPER_STATE, SE_VERIFY_FAILS,
  SE_MBOX_REQ, SE_MBOX_RSP, SE_MBOX_GO, SE_MBOX_BUSY, SE_MBOX_DONE,
  SE_MBOX_STATUS, SE_MBOX_RETRIES]
def rowsMG0 : List RegRow := [
  MG_STATUS_FITTED, MG_STATUS_LINK_OK, MG_STATUS_RX_AVAIL, MG_STATUS_OVERFLOW, MG_STATUS_CRC_ERR,
  MG_STATUS_SEAL_FLAG, MG_STATUS_LID_FLAG, MG_RX_CTRL_POP, MG_RX_INFO_LEN, MG_RX_INFO_KIND,
  MG_RX_INFO_COUNT, MG_RX_FRC_LO, MG_RX_FRC_HI, MG_RX_SEC_LO, MG_RX_SEC_HI,
  MG_RX_NS, MG_RX_FRAC, MG_RECEIVED, MG_CRC, MG_DROPPED,
  MG_RX_DATA]
def rowsDG0 : List RegRow := [
  DG_STATUS_READY, DG_STATUS_REPAINT, DG_STATUS_REPAINT_DONE, DG_STATUS_CRACK, DG_STATUS_PUMP,
  DG_STATUS_TEMP_HOLD, DG_STATUS_LEGAL_WAIT, DG_STATUS_IN_FLIGHT, DG_STATUS_QUEUED, DG_RECT_X,
  DG_RECT_Y, DG_SIZE_W, DG_SIZE_H, DG_CTRL_WAVE, DG_CTRL_SUBMIT,
  DG_SUB_TICKET, DG_SUB_ACCEPTED, DG_SUB_REFUSED, DG_SUB_CODE, DG_DONE_TICKET,
  DG_DONE_OUTCOME, DG_DONE_VALID, DG_DONE_POP, DG_TEMP, DG_COUNT_DONE,
  DG_COUNT_REFUSED, DG_BUF]
def rowsBT0 : List RegRow := [
  BT_STATUS_STAGE, BT_STATUS_RECOVERY, BT_STATUS_REASON, BT_STATUS_BANK_FALLBACK, BT_STATUS_ACTIVATED,
  BT_STATUS_FAILED_PARTS, BT_LAST_STOP_MS, BT_LAST_RUN_MS, BT_LAST_CAUSE, BT_PART_ACTIVE,
  BT_PART_A_OK, BT_PART_B_OK, BT_PART_PENDING, BT_PART_LOADED, BT_PART_VER_A,
  BT_PART_VER_B, BT_PART_LAST_FRAME, BT_SCHED_AT_LO, BT_SCHED_AT_HI, BT_FWD_STATE,
  BT_FWD_HOP, BT_FWD_FAILED, BT_NODE_STATE, BT_NODE_BLOCKS, BT_NODE_VERIFIED,
  BT_NODE_LAGGING]
def rowsSS0 : List RegRow := [
  SS_STATUS_SAFE_LINE, SS_STATUS_PFW, SS_STATUS_FEED0_OK, SS_STATUS_FEED1_OK, SS_STATUS_OSC_OK,
  SS_STATUS_HEALTHY, SS_EVENTS_OVERRUN, SS_EVENTS_LATE, SS_EVENTS_TICK_LOST, SS_EVENTS_PFW_SEEN,
  SS_EVENTS_FEED0_LOST, SS_EVENTS_FEED1_LOST, SS_EVENTS_TEMP, SS_EVENTS_RAIL, SS_EVENTS_BROWNOUT_RESTART,
  SS_FEED_FEED0, SS_FEED_FEED1, SS_TEMP, SS_TRIP_CFG_ON_HALT_0, SS_TRIP_CFG_ON_HALT_1,
  SS_TRIP_CFG_ON_HALT_2, SS_TRIP_CFG_ON_HALT_3, SS_TRIP_CFG_ON_PFW_0, SS_TRIP_CFG_ON_PFW_1, SS_TRIP_CFG_ON_PFW_2,
  SS_TRIP_CFG_ON_PFW_3, SS_TRIP_MASK, SS_TRIP_OPENTRIP, SS_TRIP_LATCH, SS_TRIP_CAUSE_NOW,
  SS_TRIP_OPEN, SS_TRIP_CMD, SS_TRIP_SRC_FAULT, SS_TRIP_SRC_OPEN, SS_TRIP_SRC_HALT,
  SS_TRIP_SRC_PFW, SS_TRIP_SRC_CMD, SS_OVERRUNS, SS_LATE, SS_TICK_LOST]
def rowsSS1 : List RegRow := [
  SS_TRIPS, SS_PFW]
def rowsHS0 : List RegRow := [
  HS_CTRL_AUTO, HS_CTRL_LOW_MIN, HS_STATUS_BUSY, HS_STATUS_LOW, HS_STATUS_EXHAUSTED_ANY,
  HS_STATUS_RECORD_OK, HS_EXHAUSTED, HS_WARN, HS_SWITCH_KIND, HS_SWITCH_INDEX,
  HS_SWITCH_START, HS_SWITCH_CANCEL, HS_SWITCH_STATUS_STATE, HS_SWITCH_STATUS_REASON, HS_CLEAR_BLOCK,
  HS_CLEAR_UNIT, HS_CLEAR_GO, HS_ARB_RETRY, HS_JOURNAL_NEXT_SEQ, HS_JOURNAL_LOST,
  HS_JOURNAL_PENDING, HS_INV_IN_SERVICE, HS_INV_SPARE, HS_INV_FAILED, HS_THR_WARN,
  HS_THR_ACT]

def blockTB : List RegRow := rowsTB0 ++ rowsTB1
def blockTT : List RegRow := rowsTT0 ++ rowsTT1 ++ rowsTT2
def blockLT : List RegRow := rowsLT0
def blockLP : List RegRow := rowsLP0
def blockSV : List RegRow := rowsSV0
def blockFG : List RegRow := rowsFG0 ++ rowsFG1
def blockCHU : List RegRow := rowsCHU0 ++ rowsCHU1
def blockDIO : List RegRow := rowsDIO0
def blockHART : List RegRow := rowsHART0
def blockCH : List RegRow := rowsCH0 ++ rowsCH1
def blockCF : List RegRow := rowsCF0 ++ rowsCF1
def blockES : List RegRow := rowsES0
def blockPT : List RegRow := rowsPT0
def blockPA : List RegRow := rowsPA0 ++ rowsPA1
def blockSE : List RegRow := rowsSE0
def blockMG : List RegRow := rowsMG0
def blockDG : List RegRow := rowsDG0
def blockBT : List RegRow := rowsBT0
def blockSS : List RegRow := rowsSS0 ++ rowsSS1
def blockHS : List RegRow := rowsHS0

/-- Every row of every register map. -/
def all : List RegRow :=
  blockTB ++ blockTT ++ blockLT ++ blockLP ++ blockSV ++ blockFG ++ blockCHU ++ blockDIO ++ blockHART ++ blockCH ++ blockCF ++ blockES ++ blockPT ++ blockPA ++ blockSE ++ blockMG ++ blockDG ++ blockBT ++ blockSS ++ blockHS

end R

end Sys2Proof.Machine
end

