-- ==== Sys2Proof/Machine/State.lean ====
section
/-! DEFINITION. State as plain data.  Every register field of the spec's register maps has its home in `State.regs`,
under its row of Machine/RegMap.lean; what the spec gives the module beside registers stands in the other fields, one
structure per unit.  `State.reset` is the module right after power-on reset. -/

namespace Sys2Proof.Machine

/-- The unit states of R18. -/
inductive UnitState where
  | off | boot | stop | run | halt | recovery
  deriving DecidableEq, Repr

/-- The pair roles of R19, in the order of PA_STATUS.ROLE (R371). -/
inductive Role where
  | solo | syncing | active | standby
  deriving DecidableEq, Repr

/-! ### Time base (R38 to R63) -/

/-- A TOD step captured by ARM (R47). -/
structure TodStep where
  sec : Nat
  ns : Nat
  frac : Nat
  at_ : Nat
  deriving DecidableEq, Repr

/-- The time base: FRC (R43), TOD (R45), the FRC shadow (R44), the waiting TOD step (R47), the FRC of the latest step (R60), the
frame counter (R48), the FRC of the latest tick, the FRC from which the next tick counts (the latest tick, or the end of BOOT before
the first one), the ordered oscillator switch with the frame it was ordered in (R41), whether the external source
is ordered (R42), the lock groups armed as one-shots (R60), the
periodic groups that have fired in the frame in progress, the latest PPS in edge in 1/32 tb and the mode-4 groups it may still fire
(R63), the latest PPS out edge in 1/32 tb and the FRC of the latest rising edge at the 10 MHz output (R62). -/
structure TimeBase where
  frc : Nat
  sec : Nat
  ns : Nat
  frac : Nat
  frcShadow : Nat
  step : Option TodStep
  stepAt : Option Nat
  frameNo : Nat
  lastTick : Nat
  base : Nat
  pairTick : Nat
  oscOrder : Option (Nat × Nat)
  extOrdered : Bool
  armed : List Nat
  fired : List Nat
  lastPps : Option Nat
  ppsFire : List Nat
  ppsOut : Option Int
  tenM : Option Nat
  deriving DecidableEq, Repr

/-! ### Lattice (R65 to R101) -/

/-- Where a pending result goes (R69): consecutive G registers, an accumulator, consecutive words of data SRAM, or the TSR,
whose flags it sets or clears. -/
inductive PendTarget where
  | g (r : Nat)
  | acc (a : Nat)
  | sram (addr : Nat)
  | set
  | clear
  deriving DecidableEq, Repr

/-- A result on its way: a bundle issued at cycle `due` or later sees it (R69). -/
structure Pend where
  due : Nat
  target : PendTarget
  val : List Nat
  deriving DecidableEq, Repr

/-- A counted loop in progress (R74). -/
structure Loop where
  first : Nat
  last : Nat
  left : Nat
  deriving DecidableEq, Repr

/-- One physical tile (R67): G registers, accumulators, results in the pipeline, the cycle and bundle of its latest
issue, its loops innermost first, the branch taken with the bundles still before its target (R73), the cycle up to which it
idles by WAIT, the first cycle in which it issues nothing after its ENDF (R76), the cycle from which its divider is free, and the
TSR of a spare that shadows.
Data SRAM and receive buffer stand in memory (`Config.sramBase`, `Config.rxBase`), the TSR of a logical tile in
LT_TILE_FLAGS (R75). -/
structure Tile where
  g : List Word
  acc : List Acc80
  pend : List Pend
  cycle : Nat
  bundle : Nat
  loops : List Loop
  branch : Option (Nat × Nat)
  idle : Nat
  ended : Option Nat
  divFree : Nat
  tsr : Nat
  deriving DecidableEq, Repr

/-- A tile shadow (R96): spare `phys` runs logical tile `logical`'s frame `frame`; whether the two tiles' states agreed in the cycle after ENDF, and
whether the comparison has been made.  An entry stands to the end of its frame, so a spare shadows one tile every two frames. -/
structure Shadow where
  phys : Nat
  logical : Nat
  frame : Nat
  same : Option Bool
  compared : Bool
  deriving DecidableEq, Repr

/-- What happens on the mesh, at the attachments and in the engines at a fixed cycle (R70, R78, R80, R90): a shared load reads its bytes,
its response arrives, a store or transfer-bus write (`src` of R353) takes effect, the loop engine's private port is written
(R154), a SEND is written, an output transfer reads a granule for the descriptor started at cycle `start`, a DABS arrives,
the DSEAL arrives, the seal completes; EXCH takes the exchange region as it stands at the
exchange start (R91); a tile and its shadows form their hashes in the cycle after ENDF (R96); an engine call begins, the loop engine
reaches step `k` of list position `pos` (R514), a solver unit step `k` of wave `wave` (R184), the call ends (R88). -/
inductive BusAct where
  | load (tile addr size : Nat) (dst : Loc) (ready : Nat) (ecc : Ecc)
  | respond (tile : Nat) (dst : Loc) (data : Bytes) (ecc : Ecc)
  | store (src addr : Nat) (data : Bytes)
  | priv (addr : Nat) (data : Bytes)
  | send (dest entry : Nat) (data : Bytes)
  | gather (start addr : Nat) (ecc : Ecc)
  | absorb (tile addr : Nat) (data : Bytes)
  | seal
  | sealed (digest : Nat)
  | freeze
  | shadowHash (tile : Nat)
  | begin (e : Engine)
  | loopStep (start pos k : Nat)
  | waveStep (e : Engine) (start wave k : Nat)
  | finish (e : Engine) (start : Nat)
  deriving DecidableEq, Repr

/-- A bus act at time `key` = 2 × cycle for what happens as the cycle starts, plus 1 for what happens at its end. -/
structure BusEv where
  key : Nat
  act : BusAct
  deriving DecidableEq, Repr

/-- What the summary of a solver call takes of one problem (R188, R195). -/
structure Tally where
  flags : Nat
  outcome : Nat
  iter : Nat
  resid : Nat
  deriving DecidableEq, Repr

/-- An engine call in progress (R88): it completes at cycle `done` of its frame.  `bad` are the (list position or problem, word) pairs it
reads with an uncorrectable error (R72, R197), `cor` the errors corrected in the unit's lane scratch, `mis` whether a shadow's hash differs (R202).
Of the loop engine it holds the source words read for the position in progress, the record numbers executed and the bytes absorbed (R160, R514); of
either engine the words still to be written, a block per record or problem; of a solver unit what its summary counts. -/
structure Call where
  engine : Engine
  desc : Nat
  start : Nat
  done : Nat
  bad : List (Nat × Nat)
  cor : Nat
  mis : Bool
  samples : List Nat
  seen : List Nat
  hash : Bytes
  blocks : List (List Nat)
  tally : List Tally
  deriving DecidableEq, Repr

/-- A transfer descriptor in progress (R90), with the granules an output transfer has read so far. -/
structure Xfer where
  desc : XDesc
  start : Nat
  done : Nat
  data : Bytes
  deriving DecidableEq, Repr

/-- A ring entry with the absolute cycle (8 × FRC plus the cycle within the tb) at which its enqueue completed (R30). -/
structure RingEntry where
  at_ : Nat
  data : Bytes
  deriving DecidableEq, Repr

/-- One hardware ring (R84): direction (0 into the lattice, 1 out), owning tile, depth (0: not declared), the entries
oldest first, those held back by the gate of a pair (R349), the cycle up to which a lattice operation uses it (R85), and its
overflow counter (R87). -/
structure Ring where
  dir : Nat
  owner : Nat
  depth : Nat
  entries : List RingEntry
  gated : List RingEntry
  busy : Nat
  overflow : Nat
  deriving DecidableEq, Repr

/-- One item of the frame digest (R353) with its place in the order of R352. -/
structure DigestItem where
  cycle : Nat
  order : Nat
  data : Bytes
  deriving DecidableEq, Repr

/-- What the module holds of the frame in progress: the tiles and shadows (R96), the spares that have disagreed with a tile,
the physical tiles found failing, the relocation under check, passed, ordered and copied (R94, R95), the solver
relocation committed (R201) and the units found failing, the bus, calls and transfers in progress, the rings, whether the
marker is posted and late (R34, R93), the suppression of this frame's and the next frame's marker (R72), the seal in
progress with its digest (R92, R93), the digest items, those of the delta writes before this frame and before the next
(R352), the input buffers frozen at the tick
(R28), where this frame's FG_IN (by group) and DIO_IN (12) transfers put their granules (R348), and the exchange region as it stood at the
exchange start (R91). -/
structure Lattice where
  tiles : List Tile
  shadows : List Shadow
  shadowSuspect : List (Nat × Nat)
  shadowFailed : List Nat
  relocCheck : Option (Nat × Nat)
  relocPassed : Option (Nat × Nat)
  relocOrder : Option (Nat × Nat)
  relocCopied : Option (Nat × Nat)
  svReloc : Option (Nat × Nat)
  svFailed : List Nat
  bus : List BusEv
  calls : List Call
  xfers : List Xfer
  rings : List Ring
  marker : Bool
  markerLate : Bool
  suppress : Bool
  suppressNext : Bool
  sealed : Option Nat
  lastDigest : Option Nat
  absorbed : List DigestItem
  preItems : List DigestItem
  deltaItems : List DigestItem
  inFg : List Bytes
  inDio : Bytes
  inChain : List Bytes
  inPlaces : List (Nat × Nat)
  region : Option Bytes
  deriving DecidableEq, Repr

/-! ### Timetable images, mode switches and retentive data (R98 to R152) -/

/-- The content of an overlay slot (R110) with its name (R6). -/
structure Slot where
  name : List Nat
  image : Option Image
  deriving DecidableEq, Repr

/-- A delta write of a mode switch (R115): bank or window number (16 SOLVER, 17 LOOP), address, bytes. -/
structure DeltaWrite where
  bank : Nat
  addr : Nat
  data : Bytes
  deriving DecidableEq, Repr

/-- The mode switch in preparation or prepared (R118): its mode word, delta and hash; once armed the earliest frame its boundary B may open and
the FRC before which B does not fall (R119), once committed the frame B opens (R123); and the delta slots already written (R120). -/
structure Switch where
  active : Nat
  mirror : Nat
  delta : List DeltaWrite
  hash : Nat
  frame : Option Nat
  at_ : Nat
  proposed : Bool
  written : Nat
  deriving DecidableEq, Repr

/-- A retentive record (R142): frame number, the CRC-32 of its header, the granules with their indices, and whether its commit marker is written. -/
structure RetRecord where
  frame : Nat
  crc : Nat
  granules : List (Nat × Bytes)
  marker : Bool
  deriving DecidableEq, Repr

/-- The MRAM copy's own header (R144): image ID, region address and size. -/
structure RetHeader where
  image : Nat
  addr : Nat
  size : Nat
  deriving DecidableEq, Repr

/-- The frame sequencer's program side: the base image held in slot 0, the admitted base, the base the slots and the mode word stand for (R124), the slots, the version floors already admitted per ID (R107),
the admission in progress, the mode switch and the partner's reported hash (R119), the order of a stop (R148) and whether a STOP command gave it (R145), the start
in progress with its kind (R146), whether a HOT start is allowed (R145), the channel map in force and the one the outputs latched at
the latest tick were transferred under (R116, R120), and the retentive machinery (R140 to R144): granules captured in the frame in progress, sealed
and durable records, the MRAM copy's header, the region as a start that did not restore it left it, and the port-B writes
still to be written through. -/
structure Timetable where
  slot0 : Option Image
  base : Option Image
  lastBase : Option Image
  slots : List Slot
  floors : List (Nat × Nat)
  admitting : Option (Nat × Nat)
  switch : Option Switch
  partnerHash : Option Nat
  stopAt : Option Nat
  stopCmd : Bool
  starting : Option Nat
  hotOk : Bool
  firstRun : Bool
  map : List ChanDef
  driveMap : List ChanDef
  capture : List Nat
  sealedRecs : List RetRecord
  journal : List RetRecord
  mram : Option RetHeader
  coldCopy : Option (List Host.Cell)
  throughPending : List (Nat × Bytes)
  deriving DecidableEq, Repr

/-! ### Command sessions (R372 to R390) -/

/-- What a request is answered with (R376, R378): status, the parameters as numbers, and a byte-string parameter. -/
structure Reply where
  session : Nat
  op : Nat
  tag : Nat
  status : Nat
  params : List Nat
  data : Bytes
  deriving DecidableEq, Repr

/-- A request a session has outstanding (R379), with its reply once the command has finished. -/
structure Outstanding where
  op : Nat
  tag : Nat
  reply : Option Reply
  deriving DecidableEq, Repr

/-- A challenge issued to a session (R389). -/
structure Challenge where
  nonce : Nat
  minutes : Nat
  frc : Nat
  deriving DecidableEq, Repr

/-- A command session (R373 to R379): `cand` for a candidate session, `key` the public key it presented (R394), `unchecked` whether its credential's
dates were not checked (R396). -/
structure Session where
  id : Nat
  level : Level
  cred : Nat
  carrier : Carrier
  source : Nat
  hello : Bool
  classes : Nat
  queue : List Outstanding
  lastRx : Nat
  keyFrc : Nat
  records : Nat
  reopen : Option Nat
  challenge : Option Challenge
  cand : Bool
  key : Nat
  unchecked : Bool
  deriving DecidableEq, Repr

/-- The access lock while a session holds it (R386): session, TIMEOUT in minutes, FRC of its latest L command. -/
structure LockHold where
  session : Nat
  minutes : Nat
  lastUse : Nat
  deriving DecidableEq, Repr

/-- A command waiting for an event before its reply (R378). `key` names what it waits for within its opcode. -/
structure Waiter where
  session : Nat
  tag : Nat
  op : Nat
  key : Nat
  deriving DecidableEq, Repr

/-- An image transfer in progress (R380, R384 group 0x04): target, length, the declared SHA-384, the chunks received. -/
structure Transfer where
  session : Nat
  target : Nat
  length : Nat
  hash : Nat
  chunks : List (Nat × Bytes)
  deriving DecidableEq, Repr

/-- The failed handshakes of one source address (R390): failures within the window, its start, and the refusal's end. -/
structure TlsFails where
  source : Nat
  count : Nat
  since : Nat
  until_ : Option Nat
  deriving DecidableEq, Repr

/-- A network interface's settings (NET_CFG, R372). -/
structure NetIf where
  addr : Nat
  mask : Nat
  gw : Nat
  port : Nat
  deriving DecidableEq, Repr

/-- The command service: sessions, the number of the latest session, the lock, the waiting commands, the holders of the
mode switch and of the handover (R380), the image transfer, interfaces, and the lockouts of R390 (FAIL_PW with its latest
lockout length and end, FAIL_CR with its end). -/
structure Service where
  sessions : List Session
  nextId : Nat
  lock : Option LockHold
  waiters : List Waiter
  modeHolder : Option Nat
  handoverHolder : Option Nat
  transfers : List Transfer
  nets : List NetIf
  failPw : Nat
  pwLast : Nat
  pwUntil : Option Nat
  failCr : Nat
  crUntil : Option Nat
  tlsFails : List TlsFails
  pwHash : Option Nat
  deriving DecidableEq, Repr

/-! ### What the module sends (DESIGN CHOICE, assumption log entry 6) -/

/-- Where a message or level leaves the module. -/
inductive Port where
  | host (session : Nat)
  | can (p : Nat)
  | chain (p : Nat) (farEnd : Bool)
  | eth (p : Nat)
  | partner
  | field (g : Nat)
  | discrete
  | hart (channel : Nat)
  | core (q : Nat)
  | plant (dest : Nat)
  | timePort
  | display
  | compartment
  | service
  | supervisor
  deriving DecidableEq, Repr

/-- What the module sends. -/
inductive What where
  | reply | notify | notice | pps | closed | digest | exchange | path | mark | frame | chainItem | tone
  deriving DecidableEq, Repr

/-- One thing the module has sent: where, what, its numbers and its bytes. -/
structure Sent where
  port : Port
  what : What
  args : List Nat
  data : Bytes
  deriving DecidableEq, Repr

/-! ### The event journal (R492, R493) -/

/-- What a journal entry records.  The CODE numbers are not in the spec (`Config.journalCode`). -/
inductive JEvent where
  | lostEntries | oscSwitch | warnCleared | updateCancelled | sealAlarm | tamper | wear | switchIn | exhausted
  | lockout | reopen | failure | internal | pfw | halt
  deriving DecidableEq, Repr

/-- One journal entry (R492). -/
structure JEntry where
  seq : Nat
  source : Nat
  event : JEvent
  frc : Nat
  sec : Nat
  ns : Nat
  frac : Nat
  session : Nat
  cred : Nat
  data : List Nat
  deriving DecidableEq, Repr

/-- The event journal: flash, latest first, at most 65,536 entries, and the RAM buffer, latest first, at most 64. -/
structure Journal where
  flash : List JEntry
  ram : List JEntry
  nextSeq : Nat
  deriving DecidableEq, Repr

/-! ### Field groups, HART and discrete I/O (R205 to R261) -/

/-- Where a driven level comes from, in the order of R228 and R257. -/
inductive DriveSrc where
  | none | fallback | safe | alarm | program
  deriving DecidableEq, Repr

/-- What an output channel drives: the source, the level in 10⁻⁹ V or mA at the terminal, the level its converter drives for it under
the terminal's trim (R235), and the STATUS bit, UNDER or OVER, of a value that was clamped to the level (R219, R223). -/
structure Drive where
  src : DriveSrc
  level : Int
  conv : Int
  clamp : Nat
  deriving DecidableEq, Repr

/-- A window result (R211): time-weighted mean, start and length in tb. -/
structure Window where
  mean : Int
  start : Nat
  len : Nat
  deriving DecidableEq, Repr

/-- A capture delivered with the next frame (R214). -/
structure ChanCap where
  value : Nat
  frc : Nat
  frame : Nat
  deriving DecidableEq, Repr

/-- One physical universal channel: its window in progress, its latest results (newest first), the granule fields of the
latest result (R216), the captures waiting and delivered, the settling start (R234), and its output side: the granule
transferred and whether a valid copy reached the group (R515), the granule a lock group may latch (R57), the latched
granule, the level HOLD keeps (R150) and what the terminal drives now; and a measurement that waits for the same window of the RTD
that serves as its cold junction (R221). -/
structure Chan where
  wStart : Nat
  hist : List Window
  closed : Bool
  value : Nat
  status : Nat
  minV : Option Int
  maxV : Option Int
  aux : Nat
  caps : List ChanCap
  settle : Option Nat
  crossErr : Bool
  xfer : Option (Nat × Nat)
  copyOk : Bool
  ready : Option (Nat × Nat)
  latched : Option (Nat × Nat)
  held : Option Drive
  drive : Drive
  openSafe : Bool
  openAlarm : Bool
  devRuns : Nat
  hartBits : Nat
  hartTx : Bool
  hartRx : Bool
  parked : Option Meas
  deriving DecidableEq, Repr

/-- A switch-in shadow in a group (R237): the terminal, the spare, and the tick number at which the shadow ends. -/
structure FgShadow where
  terminal : Nat
  conv : Nat
  until_ : Nat
  deriving DecidableEq, Repr

/-- One field group: consecutive valid and invalid control frames (R231), whether the end of BOOT has ordered RESUME, its
supply, whether its last fallback came from lost control frames, the shadow, the fields kept in its own non-volatile memory
(MODE, RANGE, SINK, WIRES per terminal, R232), the FRC of the latest control frame (R230), and the start of the spare's visit (R236). -/
structure Group where
  valid : Nat
  invalid : Nat
  order : Bool
  supply : Bool
  lost : Bool
  shadow : Option FgShadow
  nv : List (Nat × Nat × Nat × Nat)
  ctlAt : Option Nat
  visitAt : Nat
  deriving DecidableEq, Repr

/-- A HART request in a channel's queue (R242): from a host session or from poll entry `entry`. -/
structure HartReq where
  session : Nat
  tag : Nat
  entry : Option Nat
  address : Nat
  command : Nat
  data : Bytes
  queued : Nat
  deriving DecidableEq, Repr

/-- A poll-list entry (R242) and the FRC of its previous request's start. -/
structure HartPoll where
  address : Nat
  command : Nat
  period : Nat
  last : Option Nat
  deriving DecidableEq, Repr

/-- A channel's HART side: queue, poll list, the transaction in progress with the tries left, the latest polled responses
and burst messages, the lowest polling address heard in multidrop (R247), and the FRC at which the frame being sent ends. -/
structure Hart where
  queue : List HartReq
  polls : List HartPoll
  cur : Option HartReq
  tries : Nat
  responses : List HartMsg
  bursts : List HartMsg
  lowest : Option Nat
  txEnd : Option Nat
  deriving DecidableEq, Repr

/-- A discrete-input capture (R253): the lock group, its firing, the inputs captured and their states, and the frame that
delivers it. -/
structure DiCap where
  lg : Nat
  frc : Nat
  mask : Nat
  states : Nat
  frame : Nat
  deriving DecidableEq, Repr

/-- The discrete I/O block: the next refresh, filter counters, filtered and raw states, the filtered states before the latest refresh with the
FRC at which it completed (R253), the inputs still to be initialised,
pulse counts, the edges, crossing errors, faults and lost captures of the window in progress, refreshes without a valid
frame, captures, and the output block: transferred image (VALUE, SAFE_REQ), whether its own crossing frame has gone, the image of the latest
valid copy (R256), the image a lock
group may latch, the latched image, what HOLD keeps of each output (R150), commanded states, outputs in current limit, in thermal shutdown with its
FRC, the halves whose drivers fail the block's own check (R258), whether an apply
waits, the control frames of R259 and the FRC of the latest. -/
structure Dio where
  refresh : Nat
  counter : List Nat
  state : Nat
  raw : Nat
  was : Nat
  doneAt : Option Nat
  init : Nat
  count : List Nat
  rise : Nat
  fall : Nat
  wCross : Bool
  wFault : Nat
  wCapLost : Bool
  missed : Nat
  caps : List DiCap
  xfer : Option (Nat × Nat)
  sent : Bool
  got : Option (Nat × Nat)
  ready : Option (Nat × Nat)
  latched : Option (Nat × Nat)
  held : List (Option Bool)
  drive : Nat
  limited : List Nat
  thermal : List (Nat × Nat)
  check : Nat
  applying : Bool
  valid : Nat
  invalid : Nat
  ctlAt : Option Nat
  order : Bool
  lost : Bool
  deriving DecidableEq, Repr

/-! ### Supervisor, health and spares (R474 to R495) -/

/-- The supervisor: the power-fail warning's FRC, whether the lattice has stopped for it, the feeds in mV with their input
switches, the highest junction temperature, and the supervisor's own supply, since when the module's loop power has been below 38.0 W and when it is sampled next (R227), and
whether the stages keep their levels after a power-fail stop beside an eligible partner (R483). -/
structure Sup where
  pfwAt : Option Nat
  pfwClearAt : Option Nat
  latticeStop : Bool
  feeds : List Nat
  feedOn : List Bool
  temp : Int
  supply : Bool
  loopLow : Option Nat
  loopAt : Nat
  keep : Bool
  deriving DecidableEq, Repr

/-- A switch-in the health controller runs (R489): the worn part, the spare chosen, whether committed. -/
structure SwitchIn where
  kind : Nat
  index : Nat
  spare : Nat
  ready : Bool
  deriving DecidableEq, Repr

/-- Health and spares: switch-ins in progress, consecutive evaluations beyond ACT per part, parts beyond WARN, and the maps of rows, lanes,
phases and blocks of the health record as (kind, part, spare) (R488, R491), the ordered parts that wait as (kind, part), and when each part was
latest evaluated as (kind, part, FRC) (R486). -/
structure Health where
  switches : List SwitchIn
  beyond : List (Nat × Nat × Nat)
  warned : List (Nat × Nat)
  maps : List (Nat × Nat × Nat)
  waiting : List (Nat × Nat)
  evals : List (Nat × Nat × Nat)
  deriving DecidableEq, Repr


/-! ### Redundant pairs (R339 to R371) -/

/-- What a unit holds of its pair.  Alignment (R344): the own FRC of the next tick, the egress stamps of its digest messages of
this frame and the previous one, the partner's stamp and the own ingress stamp of the partner's message of the previous frame,
the latest offsets with their times, Δ in 1/32 tb.  The frame: the partner's digest message, the partner's latest MARK, the
exchange message, the released counts of R349, whether own inputs were written back, whether the cut-over has run.  Events to
act at ticks: a takeover's tick, the frame a handover opens, a partner that joins (mixed or not).  A SYNCING unit that waits for
a state transfer (resync).  The self-test after a mismatch (R363): its start, both results; the tick after the latest mismatch.
Mixed operation, its frames; whether a transfer has put the pair in step; frames with both links down, since when a link is up,
whether the pair was separated; the state transfer: since when it runs, as the joiner, the memory last sent (R365), the final
round received; whether a handover under way ends in STOP; whether it has asked its partner for what a join needs (R357); the FRC since which its stages drive, and whether they hold against
the partner's (R343, R358); since when it agrees (R362). -/
structure Pair where
  next : Option Nat
  tx : Nat
  txOld : Nat
  txPartner : Nat
  rxPrev : Nat
  offsets : List (Nat × Int)
  delta : Int
  msg : Option DigestMsg
  markAt : Option Nat
  exch : Option ExchMsg
  intake : List Nat
  ownInputs : Bool
  cut : Bool
  takeover : Option Nat
  hFrame : Nat
  partnerIn : Option Bool
  resync : Bool
  test : Option Nat
  testOwn : Option Bool
  testPartner : Option Bool
  lastMis : Option Nat
  mixed : Bool
  mixedRun : Nat
  compared : Bool
  down : Nat
  upAt : Option Nat
  separated : Bool
  xferAt : Option Nat
  joining : Bool
  xferCopy : List Host.Cell
  finalAt : Option XferFinal
  stopAfter : Bool
  asked : Bool
  driveAt : Nat
  hold : Bool
  agreeAt : Nat
  deriving DecidableEq, Repr

/-! ### Cell chains (R262 to R293) -/

/-- A node as the latest discovery found it (R270): SERIAL, CELL_MASK, CFG_CRC. -/
structure ChainNode where
  h : Nat
  serial : Nat
  mask : Nat
  crc : Nat
  deriving DecidableEq, Repr

/-- A chain command waiting in a port's queue, or sent and waiting for its response (R277): who asked (session 0: the module),
its code, the node's home position (0: broadcast), its payload. -/
structure ChainCmd where
  session : Nat
  tag : Nat
  op : Nat
  code : Nat
  h : Nat
  payload : Bytes
  deriving DecidableEq, Repr

/-- A sweep in progress (R271 to R274): its number, strobe tick, publish frame, close, whether both ends strobed, whether its
READOUT has left, the positions received with their STATE, those retried, the latest position received from each end,
whether a break was declared at each end, whether the SAMPLE reached the far end, whether it has closed, and the TOD of
its strobe. -/
structure Sweep where
  q : Nat
  frc : Nat
  pub : Nat
  close : Nat
  split : Bool
  readout : Bool
  got : List (Nat × Nat)
  retried : List Nat
  lastHome : Nat
  lastFar : Nat
  brokeHome : Bool
  brokeFar : Bool
  sampleFar : Bool
  closed : Bool
  sec : Nat
  ns : Nat
  deriving DecidableEq, Repr

/-- What CHAIN_STAT gives of the published sweep (R288). -/
structure Published where
  frc : Nat
  frame : Nat
  valid : Nat
  missing : Nat
  qflag : Nat
  sec : Nat
  ns : Nat
  deriving DecidableEq, Repr

/-- A chain port: the latest sweep number begun, the sweep in progress, the publication, the events since it, the QUIET sent for
the next strobe and whether it reached the far end, whether the ring is split, nodes, node configurations held, the command
queue, the unicast that waits for its response with the FRC it was sent at, whether a planned sleep is ordered, the latest broadcast, the end of the latest KEEP, a discovery ordered from an FRC, since when the fault
line reads FAULT and whether that FAULT persists (R284), and an apply in progress. -/
structure ChainPort where
  sweepNo : Nat
  sweep : Option Sweep
  pub : Published
  events : Nat
  quiet : Option Nat
  whole : Bool
  split : Bool
  nodes : List ChainNode
  configs : List (Nat × Bytes)
  queue : List ChainCmd
  sentCmd : Option ChainCmd
  sentAt : Nat
  sleepy : Bool
  lastBcast : Nat
  keepEnd : Nat
  order : Option Nat
  faultSince : Option Nat
  faultHeld : Bool
  deriving DecidableEq, Repr

/-- The plant ingest (R290 to R292): the sweep in progress (number, strobe tick's FRC and TOD, publish frame, slots written,
whether it has closed), and the published slot counts and sources complete. -/
structure Ingest where
  q : Nat
  strobe : Option (Nat × Nat × Nat × Nat)
  got : List Nat
  valid : Nat
  missing : Nat
  srcOk : Nat
  deriving DecidableEq, Repr
/-! ### CAN FD ports (R294 to R319) -/

/-- A frame to send: ID word, CTRL word (R301), data. -/
structure CanMsg where
  idw : Nat
  ctrl : Nat
  data : Bytes
  deriving DecidableEq, Repr

/-- A transmit buffer (R304 to R308): the frame loaded, whether it is pending, a load that waits for the frame on the bus,
whether the buffer becomes pending when that frame ends, whether the load waits for the next tick, and whether an abort waits
for the frame on the bus. -/
structure CanBuf where
  msg : Option CanMsg
  pend : Bool
  next : Option CanMsg
  after : Bool
  waitTick : Bool
  abort : Bool
  deriving DecidableEq, Repr

/-- A frame in the snapshot buffer (R302), with the FRC at which it was received (R303). -/
structure CanSnap where
  frc : Nat
  rx : Nat
  idw : Nat
  ctrl : Nat
  seq : Nat
  data : Bytes
  deriving DecidableEq, Repr

/-- What the latest tick froze for the port's snapshot (R28, R302): the frames waiting, and the header fields. -/
structure CanFrozen where
  count : Nat
  lost : Nat
  state : Nat
  lec : Nat
  txErr : Nat
  rxErr : Nat
  events : Nat
  txok : Nat
  txfail : Nat
  deriving DecidableEq, Repr

/-- A CAN FD port: its transmit buffers, the buffer and stamp of the frame on the bus, the records of the lattice and of the
management core that wait for their continuation, the segments waiting for buffer 30 (R316), the error counters, the
start of a recovery, the snapshot buffer with the SNAP frames counted, the events since the tick and the completions
since it (FRC, buffer, success), what the
tick froze, and the command service's partial message with its SEQ and the FRC of its latest segment, the stamp of the newest frame this frame's
snapshot delivered (R346). -/
structure CanPort where
  bufs : List CanBuf
  onBus : Option (Nat × Nat)
  contL : Option (Nat × CanMsg)
  contM : Option (Nat × CanMsg)
  segs : List CanMsg
  txErr : Nat
  rxErr : Nat
  recoverAt : Nat
  snaps : List CanSnap
  seq : Nat
  events : Nat
  dones : List (Nat × Nat × Bool)
  frozen : CanFrozen
  svc : Bytes
  svcSeq : Option Nat
  svcAt : Nat
  lastSnap : Nat
  deriving DecidableEq, Repr
/-! ### Ethernet and network time (R320 to R340) -/

/-- MACsec of a port (R331, R332): the receive association in use and its next packet number, the old association with the FRC up to
which it is accepted and its next packet number, and the transmit packet number. -/
structure MacSec where
  an : Nat
  nextPn : Nat
  old : Option (Nat × Nat × Nat)
  txPn : Nat
  deriving DecidableEq, Repr

/-- What the route engine holds of a route entry (R327, R329): the next SEQ to send, the entries that wait for their frame with
the enqueue time of the first, the last SEQ accepted, frames carried and gaps seen. -/
structure Route where
  entry : Nat
  seqTx : Nat
  waiting : List Bytes
  since : Nat
  seqRx : Option Nat
  frames : Nat
  gaps : Nat
  deriving DecidableEq, Repr

/-- The switch and the route engine: learned addresses (MAC, VID, port), the 8 × 8 egress queues, frames seen on redundant ports
(source, sequence, FRC), MACsec, routes, and the FRC of the latest supervision frames sent and received. -/
structure Eth where
  macs : List (Nat × Nat × Nat)
  queues : List (List EthFrame)
  seen : List (Nat × Nat × Nat)
  macsec : List MacSec
  routes : List Route
  supTx : Nat
  supRx : List Nat
  deriving DecidableEq, Repr

/-- The PTP stamps of one port (R334): t1 and t2 of the latest Sync, whether t1 still comes in a Follow_Up, t3 of the latest
Delay_Req, the peer-delay request's t1 and the stamps of its answer, and the mean path delay. -/
structure PtpPort where
  t1 : Option Int
  t2 : Option Int
  t3 : Option Int
  p1 : Option Int
  p4 : Option Int
  p2 : Option Int
  reqRx : Option Int
  path : Option Int
  deriving DecidableEq, Repr

/-- The PTP clock and servo (R336 to R339): its ports, the valid results since ACQUIRING, the runs of 16, the integral in 2⁻¹⁶ ns,
whether the next lock steps, the FRC at which HOLDOVER began, the grandmaster's clockClass. -/
structure Ptp where
  ports : List PtpPort
  results : List Int
  specRun : Nat
  largeRun : Nat
  integral : Int
  needStep : Bool
  lostAt : Nat
  gmClass : Nat
  deriving DecidableEq, Repr

/-! ### Front indicator (R439 to R452) -/

/-- A rectangle (R442): place, waveform, ticket, pixels four to a byte, the FRC since which its start conditions hold (R445),
whether its end goes unreported (a repaint), whether it is a legal-zone update, with the values it paints. -/
structure Rect where
  x : Nat
  y : Nat
  w : Nat
  h : Nat
  wave : Nat
  ticket : Nat
  pixels : Bytes
  since : Option Nat
  silent : Bool
  legal : Bool
  vals : List Nat
  deriving DecidableEq, Repr

/-- A rectangle in flight and the FRC at which its last phase ends (R444). -/
structure Flight where
  rect : Rect
  done : Nat
  deriving DecidableEq, Repr

/-- The panel's controller, in the compartment or the bridge: whether it answers, whether the start repaint runs, the rectangles
waiting and in flight, those a warning or a start leaves to repaint, whether a legal-zone update waits and the values it is to show,
the values shown (`none`: nothing whole), the page and the FRC it came up, the next ticket, the completions not yet taken as
(ticket, outcome), the tickets lost with the supply, the crack loop and the charge pump.  The pixels shown in the management
area stand in memory (`Config.panelBase`). -/
structure Disp where
  ready : Bool
  repaint : Bool
  queue : List Rect
  flight : List Flight
  redo : List Rect
  legalWait : Bool
  want : List Nat
  wantAt : Nat × Nat
  shown : Option (List Nat)
  page : Nat
  pageAt : Nat
  ticket : Nat
  done : List (Nat × Nat)
  lost : List Nat
  crack : Bool
  pump : Bool
  pumpAt : Nat
  deriving DecidableEq, Repr

/-! ### Metrology compartment (R411 to R437) -/

/-- The parameters of R432: CT primary and secondary and VT primary and secondary per AC system, shunt current and divider ratio per DC
system, pulse weights, systems enabled, legal-zone pages, profile period in minutes. -/
structure MetParams where
  ctP : List Nat
  ctS : List Nat
  vtP : List Nat
  vtS : List Nat
  shunt : List Nat
  divider : List Nat
  weight : List Nat
  enabled : Nat
  pages : Nat
  period : Nat
  deriving DecidableEq, Repr

/-- An audit entry (R429). -/
structure AuditEntry where
  seq : Nat
  sec : Nat
  ms : Nat
  code : Nat
  sys : Nat
  cls : Nat
  old : Nat
  new : Nat
  deriving DecidableEq, Repr

/-- The compartment: whether it has supply; its 24 registers (R416) as (value, residue in 10⁻⁹ of the base unit), INTERVALS, PARTIALS; the
µs of the interval in progress already committed; its clock and the µs it has metered since manufacture; the number of the latest
record and of the latest audit entry; the audit log, oldest first, and the entries whose EVENT record is still to be sent; the seal
latch, cover, SEAL_COUNT, whether the present break has been counted, the reseal armed as (number, µs); lid; the flags of R421; the
parameters and the writes waiting for the next interval boundary as (ID, system, value, ns); the profile period in progress with the registers at its
start and its flags; the replay position; the latest TOTALS, STATUS and CERT as they were sent; phase masks and overload per system. -/
structure Met where
  powered : Bool
  regs : List (Nat × Nat)
  intervals : Nat
  partials : Nat
  partUs : Nat
  sec : Nat
  ns : Nat
  up : Nat
  index : Nat
  auditSeq : Nat
  log : List AuditEntry
  unsent : List AuditEntry
  starting : Bool
  latch : Bool
  cover : Bool
  sealCount : Nat
  counted : Bool
  armed : Option (Nat × Nat)
  lid : Bool
  lidLogged : Bool
  clockInvalid : Bool
  lastPartial : Bool
  measErr : Bool
  params : MetParams
  waiting : List (Nat × Nat × Nat × Nat)
  base : List Nat
  pstart : Nat
  pflags : Nat
  replay : Nat
  totalsAt : Option Nat
  statusAt : Option Nat
  statusWord : Nat
  certAt : Option Nat
  phases : List Nat
  overload : List Nat
  deriving DecidableEq, Repr

/-- A record in the MG_ queue with its arrival stamps (R424). -/
structure MgRecord where
  data : Bytes
  frc : Nat
  sec : Nat
  ns : Nat
  frac : Nat
  deriving DecidableEq, Repr

/-- The module's side of the mailbox (R424 to R427): the receive queue, FRC of the latest good frame, the record store by INDEX
(latest first), the certificate parts, the latest STATUS record, the copy of the audit log by SEQ, whether the latest verified record
reports the seal broken, and the seal alarm. -/
structure MgSide where
  queue : List MgRecord
  lastGood : Option Nat
  store : List (Nat × MgRecord)
  cert : List (Nat × Bytes)
  status : Option MgRecord
  audit : List (Nat × Bytes)
  sealBroken : Bool
  alarm : Bool
  deriving DecidableEq, Repr

/-! ### Identity and trust (R391 to R410) -/

/-- A peer session across a switch port (R402): the other module's serial, and the FRC at which it ended. -/
structure Peer where
  port : Nat
  serial : Nat
  ended : Option Nat
  deriving DecidableEq, Repr

/-- What the enclave holds (R391 to R407): owner key, fleet image key, the successor named, revoked fingerprints, membership certificate, partner
binding, version floors of parts as (index, VER), the zeroisation still to complete, tamper inputs latched in OFF, whether fresh helper data are due, whether the
identity is lost, peer sessions, and the request in the mailbox. -/
structure Trust where
  owner : Option Nat
  fik : Option Nat
  successor : Option Nat
  revoked : List Nat
  member : Option Bytes
  partner : Option Nat
  floors : List (Nat × Nat)
  zeroise : Nat
  latched : List Nat
  reenrol : Bool
  dead : Bool
  peers : List Peer
  deriving DecidableEq, Repr

/-! ### Firmware, updates, recovery (R453 to R472) -/

/-- An image on its way along the plant ring (R466): part, plants, position, the FRC of the latest hop, and who asked. -/
structure Forward where
  part : Nat
  plants : List Nat
  pos : Nat
  at_ : Nat
  session : Nat
  tag : Nat
  deriving DecidableEq, Repr

/-- A recovery transfer (R471): part, bank, length, bytes received, FRC of the latest request. -/
structure RecXfer where
  part : Nat
  bank : Nat
  len : Nat
  data : Bytes
  at_ : Nat
  deriving DecidableEq, Repr

/-- A chain port's node update (R469): the next block of the pass, the positions still to query, what IMG_STAT reported as (position,
FIRST_MISSING, STATE, VER_RUN), the positions to end, and whether IMG_ACTIVATE is due. -/
structure NodeTx where
  next : Nat
  ask : List Nat
  stats : List (Nat × Nat × Nat × Nat)
  ends : List Nat
  activate : Bool
  deriving DecidableEq, Repr

/-- Firmware: the two banks of every part, the staged node image, the older flash copies of the timetable slots (R457), parts restarting, commanded parts ordered
for the next boundary, the forwarding and recovery transfers, the banks written in recovery as (part, bank), the node updates, the FRC at which this start
began, the AUTORUN start still to make with its FRC (R458), and whether a start is an AUTORUN start. -/
structure Firmware where
  banks : List (Option FwImage × Option FwImage)
  node : Option FwImage
  older : List (Option Image)
  restarting : List Nat
  commanded : List Nat
  forward : Option Forward
  recXfer : Option RecXfer
  written : List (Nat × Nat)
  tx : List NodeTx
  bootAt : Nat
  autorun : Option Nat
  auto : Bool
  deriving DecidableEq, Repr
/-! ### The whole state -/

/-- The module.  `regs` is the field store: (key, value) pairs, keys strictly rising, none equal to the row's `dflt`;
`mem` the memories of `Config`, in the same canonical form with 0 for an unlisted byte; `latch` the latched high words of
64-bit registers (R64); `rdata` what the latest register read returned; `free` counts the free values taken
(DESIGN CHOICE, log entry 2); `staged` the staging copies of R23 and of the apply blocks, as (key, value) pairs; `sent` what the
module has sent, latest first. -/
structure State where
  pending : List Instr
  regs : List (Nat × Nat)
  mem : List Host.Cell
  staged : List (Nat × Nat)
  latch : List (Nat × Nat)
  rdata : Nat
  free : Nat
  sent : List Sent
  unit : UnitState
  role : Role
  tb : TimeBase
  lat : Lattice
  tt : Timetable
  acc : Service
  jr : Journal
  loopResyncs : List Nat
  chans : List Chan
  groups : List Group
  harts : List Hart
  dio : Dio
  sup : Sup
  hs : Health
  pair : Pair
  chains : List ChainPort
  ingest : Ingest
  cans : List CanPort
  eth : Eth
  ptp : Ptp
  disp : Disp
  met : Met
  mg : MgSide
  trust : Trust
  fw : Firmware
  deriving DecidableEq, Repr

/-- The faults of the model.
* `outsideContract code`: raised by a tile operation that names an address, size or entry outside R68 or an engine
  descriptor outside its limits.  The spec gives no effect for it: admission rejects every image that holds one with `code`
  (R99).  Safe: the model stops where the hardware cannot be. -/
inductive Fault where
  | outsideContract (code : Nat)
  deriving DecidableEq, Repr

/-- The refusals of the model.
* `notModelled mnemonic`: raised only by an arm of exec whose command has no meaning yet.  Safe. -/
inductive Refusal where
  | notModelled (mnemonic : String)
  deriving DecidableEq, Repr

/-! ### Reset -/

def TimeBase.reset : TimeBase :=
  { frc := 0, sec := 0, ns := 0, frac := 0, frcShadow := 0, step := none, stepAt := none, frameNo := 0, lastTick := 0, base := 0, pairTick := 0, oscOrder := none,
    extOrdered := false, armed := [], fired := [], lastPps := none, ppsFire := [], ppsOut := none, tenM := none }

def Tile.reset : Tile :=
  { g := List.replicate 64 0, acc := List.replicate 4 0, pend := [], cycle := 0, bundle := 0, loops := [], branch := none,
    idle := 0, ended := none, divFree := 0, tsr := 0 }

def Ring.reset : Ring := { dir := 0, owner := 0, depth := 0, entries := [], gated := [], busy := 0, overflow := 0 }

def Lattice.reset : Lattice :=
  { tiles := List.replicate 36 Tile.reset, shadows := [], shadowSuspect := [], shadowFailed := [], relocCheck := none, relocPassed := none,
    relocOrder := none, relocCopied := none, svReloc := none, svFailed := [], bus := [], calls := [], xfers := [], rings := List.replicate 128 Ring.reset,
    marker := false, markerLate := false, suppress := false, suppressNext := false,
    sealed := none, lastDigest := none, absorbed := [], preItems := [], deltaItems := [],
    inFg := List.replicate 12 (List.replicate 256 0),
    inDio := List.replicate 128 0, inChain := List.replicate 8 (List.replicate 64 0), inPlaces := [], region := none }

/-- The names of slots 1 to 16 at delivery (R5): HARBOUR, TRANSIT, MANOEUVRE, SHORE-CHARGE, BUNKER, then empty names. -/
def slotNames : List (List Nat) :=
  [[72, 65, 82, 66, 79, 85, 82], [84, 82, 65, 78, 83, 73, 84], [77, 65, 78, 79, 69, 85, 86, 82, 69],
   [83, 72, 79, 82, 69, 45, 67, 72, 65, 82, 71, 69], [66, 85, 78, 75, 69, 82]] ++ List.replicate 11 []

def Timetable.reset : Timetable :=
  { slot0 := none, base := none, lastBase := none, slots := slotNames.map (fun n => { name := n, image := none }), floors := [], admitting := none,
    switch := none, partnerHash := none, stopAt := none, stopCmd := false, starting := none, hotOk := false,
    firstRun := false, map := [], driveMap := [], capture := [], sealedRecs := [], journal := [], mram := none, coldCopy := none,
    throughPending := [] }

def Service.reset : Service :=
  { sessions := [], nextId := 1, lock := none, waiters := [], modeHolder := none, handoverHolder := none, transfers := [],
    nets := List.replicate 4 { addr := 0, mask := 0, gw := 0, port := 7471 } ++ [{ addr := 0xA9FE4A47, mask := 0xFFFF0000, gw := 0, port := 7471 }], failPw := 0, pwLast := 0, pwUntil := none,
    failCr := 0, crUntil := none, tlsFails := [], pwHash := none }

def Chan.reset : Chan :=
  { wStart := 0, hist := [], closed := false, value := 0, status := 0, minV := none, maxV := none, aux := 0, caps := [],
    settle := none, crossErr := false, xfer := none, copyOk := false, ready := none, latched := none, held := none,
    drive := { src := .none, level := 0, conv := 0, clamp := 0 }, openSafe := false, openAlarm := false, devRuns := 0, hartBits := 0,
    hartTx := false, hartRx := false, parked := none }

def Group.reset : Group :=
  { valid := 0, invalid := 0, order := false, supply := true, lost := false, shadow := none, nv := List.replicate 8 (0, 0, 0, 0),
    ctlAt := none, visitAt := 0 }

def Hart.reset : Hart :=
  { queue := [], polls := [], cur := none, tries := 0, responses := [], bursts := [],
    lowest := none, txEnd := none }

def Dio.reset : Dio :=
  { refresh := 0, counter := List.replicate 32 0, state := 0, raw := 0, was := 0, doneAt := none, init := 2 ^ 32 - 1, count := List.replicate 32 0,
    rise := 0, fall := 0, wCross := false, wFault := 0, wCapLost := false, missed := 0, caps := [],
    xfer := none, sent := false, got := none, ready := none, latched := none, held := List.replicate 32 none, drive := 0, limited := [],
    thermal := [], check := 0, applying := false, valid := 0, invalid := 0, ctlAt := none, order := false, lost := false }

def Sup.reset : Sup :=
  { pfwAt := none, pfwClearAt := none, latticeStop := false, feeds := [0, 0], feedOn := [true, true], temp := 0,
    supply := true, loopLow := none, loopAt := 0, keep := false }

def Health.reset : Health := { switches := [], beyond := [], warned := [], maps := [], waiting := [], evals := [] }

def Pair.reset : Pair :=
  { next := none, tx := 0, txOld := 0, txPartner := 0, rxPrev := 0, offsets := [], delta := 0, msg := none, markAt := none, exch := none,
    intake := [], ownInputs := false, cut := false, takeover := none, hFrame := 0, partnerIn := none,
    resync := false, test := none, testOwn := none, testPartner := none, lastMis := none, mixed := false, mixedRun := 0,
    compared := false, down := 0, upAt := none, separated := false, xferAt := none, joining := false, xferCopy := [], finalAt := none, stopAfter := false, asked := false,
    driveAt := 0, hold := false, agreeAt := 0 }

def MacSec.reset : MacSec := { an := 0, nextPn := 0, old := none, txPn := 0 }

def Eth.reset : Eth :=
  { macs := [], queues := List.replicate 64 [], seen := [], macsec := List.replicate 6 MacSec.reset, routes := [], supTx := 0, supRx := [0, 0] }

def PtpPort.reset : PtpPort :=
  { t1 := none, t2 := none, t3 := none, p1 := none, p4 := none, p2 := none, reqRx := none, path := none }

def Ptp.reset : Ptp :=
  { ports := List.replicate 4 PtpPort.reset, results := [], specRun := 0, largeRun := 0, integral := 0, needStep := true, lostAt := 0,
    gmClass := 0 }

def ChainPort.reset : ChainPort :=
  { sweepNo := 0, sweep := none, pub := { frc := 0, frame := 0, valid := 0, missing := 0, qflag := 0, sec := 0, ns := 0 },
    events := 0, quiet := none, whole := false, split := false, nodes := [], configs := [], queue := [], sentCmd := none, sentAt := 0, sleepy := false,
    lastBcast := 0, keepEnd := 0, order := none, faultSince := none, faultHeld := false }

def Ingest.reset : Ingest := { q := 0, strobe := none, got := [], valid := 0, missing := 0, srcOk := 0 }

def CanBuf.reset : CanBuf := { msg := none, pend := false, next := none, after := false, waitTick := false, abort := false }

def CanPort.reset : CanPort :=
  { bufs := List.replicate 32 CanBuf.reset, onBus := none, contL := none, contM := none, segs := [], txErr := 0, rxErr := 0,
    recoverAt := 0, snaps := [], seq := 0, events := 0, dones := [],
    frozen := { count := 0, lost := 0, state := 0, lec := 0, txErr := 0, rxErr := 0, events := 0, txok := 0, txfail := 0 },
    svc := [], svcSeq := none, svcAt := 0, lastSnap := 0 }

def Disp.reset : Disp :=
  { ready := false, repaint := true, queue := [], flight := [], redo := [], legalWait := false, want := [], wantAt := (0, 0), shown := none, page := 7, pageAt := 0,
    ticket := 0, done := [], lost := [], crack := false, pump := false, pumpAt := 0 }

/-- The parameters at delivery (R432). -/
def MetParams.reset : MetParams :=
  { ctP := [1, 1], ctS := [1, 1], vtP := [100, 100], vtS := [100, 100], shunt := [100, 100], divider := [100, 100], weight := [1, 1, 1, 1],
    enabled := 255, pages := 255, period := 15 }

def Met.reset : Met :=
  { powered := true, regs := List.replicate 24 (0, 0), intervals := 0, partials := 0, partUs := 0, sec := 0, ns := 0, up := 0, index := 0, auditSeq := 0,
    log := [], unsent := [], starting := false, latch := false, cover := false, sealCount := 0, counted := false, armed := none, lid := false, lidLogged := false,
    clockInvalid := false, lastPartial := false, measErr := false, params := MetParams.reset, waiting := [], base := List.replicate 24 0, pstart := 0, pflags := 0, replay := 0,
    totalsAt := none, statusAt := none, statusWord := 0, certAt := none, phases := [0, 0], overload := [0, 0, 0, 0] }

def MgSide.reset : MgSide :=
  { queue := [], lastGood := none, store := [], cert := [], status := none, audit := [], sealBroken := false, alarm := false }

def Trust.reset : Trust :=
  { owner := none, fik := none, successor := none, revoked := [], member := none, partner := none, floors := [], zeroise := 0, latched := [], reenrol := false, dead := false,
    peers := [] }

/-- The firmware delivered in bank A of a part: signed twice with the release key, VER 1.0 build 0 (DESIGN CHOICE, log entry 21). -/
def FwImage.delivered : FwImage :=
  let s : Signer := { formOk := true, kind := 1, key := 0, delegate := 0, sigOk := true, target := 0, fik := none }
  { vendor := s, outer := s, ver := 0x01000000, hash := 0, len := 0, body := [], config := [] }

def NodeTx.reset : NodeTx := { next := 0, ask := [], stats := [], ends := [], activate := false }

def Firmware.reset : Firmware :=
  { banks := List.replicate 7 (some FwImage.delivered, none) ++ [(none, none), (some FwImage.delivered, none)], node := none, older := List.replicate 17 none,
    restarting := [], commanded := [], forward := none, recXfer := none, written := [], tx := List.replicate 8 NodeTx.reset, bootAt := 0, autorun := none,
    auto := false }

/-- Fields whose delivered value depends on the copy of the register (DESIGN CHOICE, log entry 1): the delivered placement of R66, each
solver unit on the physical unit of its number, each terminal on the converter of its number, the spare units. -/
def deliveredRegs : List (Nat × Nat) :=
  let place := (List.range 36).filter (fun p => !([14, 15, 20, 21].contains p))
  let inv : List (Nat × Nat) := [(32, 4), (8, 1), (96, 12), (27648, 576), (32768, 656), (65535, 2622), (120, 120), (6, 2),
    (24, 4), (1, 1), (25, 1)]
  let thr : List (Nat × Nat) := [(80 + 100 * 65536, 40 + 1000 * 65536), (80 + 100 * 65536, 40 + 1000 * 65536), (50, 100),
    (0, 2), (0, 2), (0, 2), (2, 10), (30, 15), (15, 25), (5, 20), (80, 95)]
  let lt := (List.range 32).flatMap (fun l =>
      let p := place.getD l 0
      [(R.LT_MAP_X.key l 0, p % 6), (R.LT_MAP_Y.key l 0, p / 6)]) ++
    (List.range 36).flatMap (fun p =>
      [(R.LT_PHYS_STATE.key p 0, if place.contains p then 0 else 1),
       (R.LT_PHYS_LOGICAL.key p 0, if place.contains p then place.idxOf p else 0)])
  let sv := (List.range 8).map (fun u => (R.SV_MAP_PHYS.key u 0, u)) ++
    (List.range 9).flatMap (fun p =>
      [(R.SV_PHYS_STATE.key p 0, if p = 8 then 1 else 0), (R.SV_PHYS_LOGICAL.key p 0, if p = 8 then 0 else p)])
  let fg := (List.range 12).flatMap (fun g =>
    (List.range 8).map (fun t => (R.FG_CONV_MAP_CONV0.key g 0 + 4 * t, t)) ++ [(R.FG_CONV_STATE_C8.key g 0, 1)])
  let cf := (List.range 8).map (fun p => (R.CF_TXB_CFG_RELEASE.key p 31, 2))
  let hs := (List.range 11).flatMap (fun k =>
      [(R.HS_INV_IN_SERVICE.key k 0, (inv.getD k (0, 0)).1), (R.HS_INV_SPARE.key k 0, (inv.getD k (0, 0)).2)]) ++
    (List.range 11).flatMap (fun k =>
      [(R.HS_THR_WARN.key k 0, (thr.getD k (0, 0)).1), (R.HS_THR_ACT.key k 0, (thr.getD k (0, 0)).2)])
  let bt := ([0, 1, 2, 3, 4, 5, 6, 8] : List Nat).flatMap (fun p => [(R.BT_PART_A_OK.key p 0, 1), (R.BT_PART_VER_A.key p 0, 0x01000000)])
  (lt ++ sv ++ fg ++ cf ++ hs ++ bt).filter (fun kv => kv.2 != 0)

/-- The module right after power-on reset: every field at its POR value or, where POR leaves it, at its delivered value
(DESIGN CHOICE, log entry 1), BOOT begun (R16, R456) (DESIGN CHOICE, log entry 28). -/
def State.reset : State :=
  { pending := [], regs := deliveredRegs, mem := [], staged := [], latch := [], rdata := 0, free := 0, sent := [],
    unit := .boot, role := .solo,
    tb := TimeBase.reset,
    lat := Lattice.reset,
    tt := Timetable.reset,
    acc := Service.reset,
    jr := { flash := [], ram := [], nextSeq := 0 },
    loopResyncs := [],
    chans := List.replicate 96 Chan.reset,
    groups := List.replicate 12 Group.reset,
    harts := List.replicate 96 Hart.reset,
    dio := Dio.reset,
    sup := Sup.reset,
    hs := Health.reset,
    pair := Pair.reset,
    chains := List.replicate 8 ChainPort.reset,
    ingest := Ingest.reset,
    cans := List.replicate 8 CanPort.reset,
    eth := Eth.reset,
    ptp := Ptp.reset,
    disp := Disp.reset,
    met := Met.reset,
    mg := MgSide.reset,
    trust := Trust.reset,
    fw := Firmware.reset
  }

end Sys2Proof.Machine
end

