-- ==== Sys2Proof/Machine/Ops.lean ====
section
/-! DEFINITION. The named operations over registers, memory, time, messages and command sessions that every meaning is
written with. -/

namespace Sys2Proof.Machine

open Sys2Proof

/-! ### Sorted association lists: the form of the field store and of memory -/

/-- The value listed at key `k`, else `d` (DESIGN CHOICE, log entry 4). -/
def alGet {α : Type} (d : α) : List (Nat × α) → Nat → α
  | [], _ => d
  | (k', v) :: l, k => if k = k' then v else alGet d l k

/-- Remove key `k`. -/
def alDel {α : Type} : List (Nat × α) → Nat → List (Nat × α)
  | [], _ => []
  | (k', v) :: l, k => if k = k' then l else (k', v) :: alDel l k

/-- List `v` at key `k`, keeping the keys rising. -/
def alIns {α : Type} : List (Nat × α) → Nat → α → List (Nat × α)
  | [], k, v => [(k, v)]
  | (k', v') :: l, k, v =>
    if k < k' then (k, v) :: (k', v') :: l
    else if k = k' then (k, v) :: l
    else (k', v') :: alIns l k v

/-- Write `v` at `k`: a value equal to the default is not listed. -/
def alPut {α : Type} [DecidableEq α] (d : α) (l : List (Nat × α)) (k : Nat) (v : α) : List (Nat × α) :=
  if v = d then alDel l k else alIns l k v

/-- Keys strictly rising. -/
def alSorted {α : Type} : List (Nat × α) → Bool
  | [] => true
  | [_] => true
  | (k, _) :: (k', v') :: l => decide (k < k') && alSorted ((k', v') :: l)

/-! ### Register fields -/

/-- The value of copy `i`, `j` of a register field. -/
def State.rd (s : State) (r : RegRow) (i : Nat := 0) (j : Nat := 0) : Nat :=
  alGet r.dflt s.regs (r.key i j)

/-- Set copy `i`, `j` of a register field to `v` cut to the field's width. -/
def State.wr (s : State) (r : RegRow) (v : Nat) (i : Nat := 0) (j : Nat := 0) : State :=
  { s with regs := alPut r.dflt s.regs (r.key i j) (v % 2 ^ r.width) }

/-- Whether a one-bit field is 1. -/
def State.bit (s : State) (r : RegRow) (i : Nat := 0) (j : Nat := 0) : Bool := s.rd r i j == 1

/-- Count one in a saturating counter. -/
def State.inc (s : State) (r : RegRow) (i : Nat := 0) (j : Nat := 0) : State :=
  if s.rd r i j + 1 < 2 ^ r.width then s.wr r (s.rd r i j + 1) i j else s

/-- Count one in a counter modulo its width. -/
def State.incWrap (s : State) (r : RegRow) (i : Nat := 0) (j : Nat := 0) : State := s.wr r (s.rd r i j + 1) i j

/-- Write a 64-bit value into a pair of 32-bit fields. -/
def State.wr64 (s : State) (lo hi : RegRow) (v : Nat) (i : Nat := 0) : State :=
  (s.wr lo v i).wr hi (v / 2 ^ 32) i

/-- Read a 64-bit value from a pair of 32-bit fields. -/
def State.rd64 (s : State) (lo hi : RegRow) (i : Nat := 0) : Nat := s.rd lo i + 2 ^ 32 * s.rd hi i

/-- A signed value as the two's complement number of a field of `w` bits. -/
def ofInt (w : Nat) (x : Int) : Nat := (x % (2 ^ w : Nat)).toNat

/-- The signed value of a number of `w` bits. -/
def toInt (w : Nat) (n : Nat) : Int := if n % 2 ^ w < 2 ^ (w - 1) then (n % 2 ^ w : Nat) else ((n % 2 ^ w : Nat) : Int) - (2 ^ w : Nat)

/-- `x` limited to the range of a signed number of `w` bits. -/
def satInt (w : Nat) (x : Int) : Int := max (-(2 ^ (w - 1) : Nat)) (min x ((2 ^ (w - 1) : Nat) - 1))

/-- Bits `lo` to `lo + w - 1` of `n`. -/
def bitsOf (n lo w : Nat) : Nat := n / 2 ^ lo % 2 ^ w

/-- Bit `i` of `n`. -/
def bitOf (n i : Nat) : Bool := n.testBit i

/-! ### Memory -/

/-- The byte at a model address; a byte nothing has written reads 0 (DESIGN CHOICE, log entry 4). -/
def State.byte (s : State) (a : Nat) : Byte := alGet 0 s.mem a

/-- Write one byte. -/
def State.setByte (s : State) (a : Nat) (b : Byte) : State := { s with mem := alPut 0 s.mem a b }

/-- `n` bytes from `a`. -/
def State.bytes (s : State) (a n : Nat) : Bytes := (List.range n).map (fun i => s.byte (a + i))

/-- The list of cells after writing `bs` from `a`. -/
def cellsPut : List Host.Cell → Nat → Bytes → List Host.Cell
  | m, _, [] => m
  | m, a, b :: bs => cellsPut (alPut 0 m a b) (a + 1) bs

/-- Write bytes from `a`. -/
def State.setBytes (s : State) (a : Nat) (bs : Bytes) : State := { s with mem := cellsPut s.mem a bs }

/-- Set every byte of `[a, e)` to 0. -/
def State.clearMem (s : State) (a e : Nat) : State :=
  { s with mem := s.mem.filter (fun c => decide (c.1 < a) || decide (e ≤ c.1)) }

/-- The little-endian number of a byte string (R11). -/
def leNat : Bytes → Nat
  | [] => 0
  | b :: bs => b.toNat + 256 * leNat bs

/-- `n` bytes of a number, little-endian. -/
def leBytes : Nat → Nat → Bytes
  | 0, _ => []
  | n + 1, v => BitVec.ofNat 8 v :: leBytes n (v / 256)

/-- One bit and one byte of a CRC-16 with polynomial 0x1021. -/
def crcBit (c : Nat) : Nat := if 0x8000 ≤ c then ((2 * c) ^^^ 0x1021) % 65536 else 2 * c
def crcByte (c : Nat) (b : Byte) : Nat := (List.range 8).foldl (fun c _ => crcBit c) (c ^^^ (256 * b.toNat))

/-- The CRC-16 with polynomial 0x1021, initial value 0xFFFF and no final inversion (R264). -/
def crc16 (b : Bytes) : Nat := b.foldl crcByte 0xFFFF

/-- The 32-bit word at `a`. -/
def State.word (s : State) (a : Nat) : Nat := leNat (s.bytes a 4)

/-- Write a 32-bit word. -/
def State.setWord (s : State) (a v : Nat) : State := s.setBytes a (leBytes 4 v)

/-! ### Free values -/

/-- The next free value (DESIGN CHOICE, log entry 2). -/
def State.freeVal (s : State) : Nat := Config.freeNat s.free

/-- Step past the free value just taken (DESIGN CHOICE, log entry 2). -/
def State.nextFree (s : State) : State := { s with free := s.free + 1 }

/-! ### Lists -/

/-- `l` with `f` applied at position `i`. -/
def updAt {α : Type} (l : List α) (i : Nat) (f : α → α) : List α := l.modify i f

/-! ### Time -/

/-- TOD increment per tb in units of 2⁻³² ns (R45). -/
def State.incUnits (s : State) : Nat := s.rd R.TB_INC_NS * 2 ^ 32 + s.rd R.TB_INC_FRAC

/-- TOD in units of 2⁻³² ns (R45). -/
def State.todUnits (s : State) : Nat := (s.tb.sec * 1000000000 + s.tb.ns) * 2 ^ 32 + s.tb.frac

/-- Set TOD from units of 2⁻³² ns; the seconds are 64 bits (R45). -/
def State.setTod (s : State) (u : Nat) : State :=
  { s with tb := { s.tb with
      sec := u / 2 ^ 32 / 1000000000 % 2 ^ 64, ns := u / 2 ^ 32 % 1000000000, frac := u % 2 ^ 32 } }

/-- The FRC of the latest rising edge at the 10 MHz output once `n` tb have passed: the output rises where FRC is a multiple of 10
(R62). -/
def State.tenMEdge (s : State) (n : Nat) : Option Nat :=
  let e := (s.tb.frc + n) / 10 * 10
  if s.bit R.TB_TP_CTRL_TENM_OUT_EN && decide (s.tb.frc < e) then some (e % 2 ^ 64) else s.tb.tenM

/-- `n` tb pass: FRC counts each (R43), TOD adds the increment at each (R45), the 10 MHz output goes on (R62) (DESIGN CHOICE, log
entries 5, 7). -/
def State.pass (s : State) (n : Nat) : State :=
  let e := s.tenMEdge n
  let s := s.setTod (s.todUnits + n * s.incUnits)
  { s with tb := { s.tb with frc := (s.tb.frc + n) % 2 ^ 64, tenM := e } }

/-- Time passes to FRC `t` when `t` lies ahead (DESIGN CHOICE, log entry 5). -/
def State.toFrc (s : State) (t : Nat) : State := if s.tb.frc < t then s.pass (t - s.tb.frc) else s

/-- Frame period P in tb (R49). -/
def State.P (s : State) : Nat := s.rd R.TT_FRAME_PERIOD * 1000

/-- G, the first cycle of the guard band: 7.6 × P (R26). -/
def State.G (s : State) : Nat := 38 * s.P / 5

/-- Time passes to cycle `c` of the frame in progress (R25) (DESIGN CHOICE, log entry 5). -/
def State.toCycle (s : State) (c : Nat) : State := s.toFrc (s.tb.lastTick + c / 8)

/-- The unit is in RUN (DEDUCED, log entry 71). -/
def State.inRun (s : State) : Bool := s.unit == .run
def State.inStop (s : State) : Bool := s.unit == .stop

/-! ### Messages, notifications, journal -/

/-- The module sends something (DESIGN CHOICE, log entry 6). -/
def State.emit (s : State) (port : Port) (what : What) (args : List Nat) (data : Bytes := []) : State :=
  { s with sent := ⟨port, what, args, data⟩ :: s.sent }

/-- Send a notification of class `grp` to every session that has subscribed to it (R378). -/
def State.notify (s : State) (grp op status : Nat) (params : List Nat) : State :=
  (s.acc.sessions.filter (fun x => x.hello && bitOf x.classes grp)).foldl
    (fun s x => s.emit (.host x.id) .notify ([op, status] ++ params)) s

/-- Make a journal entry (R492): it goes to the RAM buffer, and one made while the buffer holds 64 is discarded and
counted as lost (R493). -/
def State.journal (s : State) (source : Nat) (event : JEvent) (data : List Nat := []) (session cred : Nat := 0) : State :=
  let e : JEntry := { seq := s.jr.nextSeq, source, event, frc := s.tb.frc, sec := s.tb.sec, ns := s.tb.ns,
                      frac := s.tb.frac, session, cred, data }
  let s := { s with jr := { s.jr with nextSeq := (s.jr.nextSeq + 1) % 2 ^ 32 } }
  if s.jr.ram.length < 64 then { s with jr := { s.jr with ram := e :: s.jr.ram } }
  else s.inc R.HS_JOURNAL_LOST

end Sys2Proof.Machine
end

