-- ==== Sys2Proof/Machine/Operands.lean ====
section
/-! DEFINITION. Exact arithmetic and its one rounding, shared by the tile operations (R70), the loop engine (R165), the
solver (R180) and the channels (R219): integers are exact, a result is rounded once to nearest with ties away from zero,
and a narrower format saturates. -/

namespace Sys2Proof.Machine

open Sys2Proof

/-- `n ÷ d` rounded to nearest, ties away from zero; `d` is not 0. -/
def roundDiv (n d : Int) : Int :=
  let n' := if d < 0 then -n else n
  let d' := if d < 0 then -d else d
  if 0 ≤ n' then (2 * n' + d') / (2 * d') else -((2 * (-n') + d') / (2 * d'))

/-- `n × 2^e` for an exponent of either sign, rounded once. -/
def scaleR (n : Int) (e : Int) : Int :=
  if 0 ≤ e then n * 2 ^ e.toNat else roundDiv n (2 ^ (-e).toNat)

/-- Whether `v` lies outside a signed format of `w` bits. -/
def overflows (w : Nat) (v : Int) : Bool := satInt w v != v

/-- Integer square root by bits, from bit `k` down: the largest `r` with `r * r ≤ n`. -/
def isqrtFrom (n : Nat) : Nat → Nat → Nat
  | 0, r => r
  | k + 1, r => if (r + 2 ^ k) * (r + 2 ^ k) ≤ n then isqrtFrom n k (r + 2 ^ k) else isqrtFrom n k r

/-- Largest `r` with `r * r ≤ n`, for `n` below 2^512. -/
def isqrt (n : Nat) : Nat := isqrtFrom n 256 0

/-- Square root of `n` rounded to nearest (a square root is never halfway). -/
def sqrtR (n : Nat) : Nat :=
  let r := isqrt n
  if r * r + r < n then r + 1 else r

/-- Clamp to `[lo, hi]` (DESIGN CHOICE, log entry 9). -/
def clampR (lo hi v : Int) : Int := if hi < lo then Config.clampCrossed lo hi v else max lo (min hi v)

end Sys2Proof.Machine
end

