-- ==== Sys2Proof/Machine/Control.lean ====
section
/-! DEFINITION. What many commands share: the access lock, the gate every command packet passes (R374 to R387), replies
(R378, R379), what each output drives (R228, R257), the trip outputs (R478), the spare inventory (R487), and the ECC flags
of a read (R72). -/

namespace Sys2Proof.Machine

open Sys2Proof

/-- A command that takes effect: its meaning answers the next state. -/
abbrev Next := Host.Outcome State Fault Refusal

/-! ### The access lock (R386) -/

/-- RWL fields take writes: in BOOT and RECOVERY, and while a session holds the lock (DEDUCED, log entry 80). -/
def State.lockOpen (s : State) : Bool := s.unit == .boot || s.unit == .recovery || s.acc.lock.isSome

/-! ### Command packets -/

/-- What R384 says of an opcode: its code, its level (`met`: open to a Metrology session too), whether it needs the lock
("L"), whether the field lock stops it (R387), whether it must go to the ACTIVE unit (R381). -/
structure Cmd where
  op : Nat
  level : Level
  lock : Bool := false
  field : Bool := false
  active : Bool := false
  deriving DecidableEq, Repr

/-- The rank of a level; Metrology has Observer's rights (R382). -/
def levelRank : Level → Nat
  | .observer => 0 | .operator => 1 | .engineer => 2 | .owner => 3 | .metrology => 0

/-- The session of a request. -/
def State.session? (s : State) (id : Nat) : Option Session := s.acc.sessions.find? (fun x => x.id == id)

/-- Change one session. -/
def State.updSession (s : State) (id : Nat) (f : Session → Session) : State :=
  { s with acc := { s.acc with sessions := s.acc.sessions.map (fun x => if x.id == id then f x else x) } }

/-- A session's reopen is in force (R388, R389). -/
def Session.reopened (x : Session) (frc : Nat) : Bool :=
  match x.reopen with
  | some t => decide (frc < t)
  | none => false

/-- The status a request is refused with before its command runs, or `none`; the order of the tests is DEDUCED (log
entries 11 and 80). -/
def State.gate (s : State) (r : Req) (c : Cmd) : Option Nat :=
  match s.session? r.session with
  | none => some 0x0102
  | some x =>
    let grp := c.op / 256
    if x.queue.length ≥ 16 then some 0x0103
    else if !x.hello && c.op != 0x0101 then some 0x0102
    else if s.unit == .boot && grp != 0x01 && grp != 0x0C then some 0x0008
    else if x.cand && !([0x0101, 0x0102, 0x0A10, 0x0A11].contains c.op) then some (if s.trust.owner.isNone then 0x0A10 else 0x0004)
    else if grp == 0x09 && !Config.variantM then some 0x0901
    else if r.badPid != 0 then some 0x0002
    else if (if c.level = .metrology then x.level != .metrology else decide (levelRank x.level < levelRank c.level)) then some 0x0004
    else if s.bit R.SE_STATUS_FIELD_LOCK && c.field && x.level != .owner && !Session.reopened x s.tb.frc then some 0x0006
    else if c.lock && !(s.acc.lock.any (fun l => l.session == r.session)) then some 0x0005
    else if c.active && s.rd R.PA_CFG_EN == 1 && s.role != .solo && s.role != .active then some 0x000B
    else none

/-- Send the replies of a session that are due: those at the head of its queue (R379) (DEDUCED, log entry 26). -/
def flushReplies : List Outstanding → List Outstanding × List Reply
  | o :: q =>
    match o.reply with
    | some p => let (q', ps) := flushReplies q; (q', p :: ps)
    | none => (o :: q, [])
  | [] => ([], [])

/-- The request has a reply; it leaves when every earlier request of its session has been answered (R379) (DESIGN CHOICE, log entry 25; DEDUCED, log entry 26). -/
def State.answer (s : State) (p : Reply) : State :=
  match s.session? p.session with
  | none => s
  | some x =>
    let q := x.queue.map (fun o => if o.op == p.op && o.tag == p.tag && o.reply.isNone then { o with reply := some p } else o)
    let (q', ps) := flushReplies q
    let s := s.updSession p.session (fun x => { x with queue := q' })
    ps.foldl (fun s p => s.emit (.host p.session) .reply ([p.op, p.tag, p.status] ++ p.params) p.data) s

/-- Note a request as outstanding, the session as heard from, and the lock as used by an L command (R374, R379, R386) (DEDUCED, log entry 26). -/
def State.takeReq (s : State) (r : Req) (c : Cmd) : State :=
  let s := s.updSession r.session (fun x =>
    { x with queue := x.queue ++ [{ op := c.op, tag := r.tag, reply := none }], lastRx := s.tb.frc, records := x.records + 1 })
  if c.lock then { s with acc := { s.acc with lock := s.acc.lock.map (fun l => { l with lastUse := s.tb.frc }) } } else s

/-- Answer a request of the session (DESIGN CHOICE, log entry 25). -/
def State.reply (s : State) (r : Req) (c : Cmd) (status : Nat) (params : List Nat := []) (data : Bytes := []) : State :=
  s.answer { session := r.session, op := c.op, tag := r.tag, status, params, data }

/-- A request waits for an event before its reply (R378) (DEDUCED, log entry 26). -/
def State.await (s : State) (r : Req) (c : Cmd) (key : Nat := 0) : State :=
  { s with acc := { s.acc with waiters := s.acc.waiters ++ [{ session := r.session, tag := r.tag, op := c.op, key }] } }

/-- Answer every request of opcode `op` that waits for `key` (DEDUCED, log entry 26). -/
def State.wake (s : State) (op key status : Nat) (params : List Nat := []) (data : Bytes := []) : State :=
  let ws := s.acc.waiters.filter (fun w => w.op == op && w.key == key)
  let s := { s with acc := { s.acc with waiters := s.acc.waiters.filter (fun w => !(w.op == op && w.key == key)) } }
  ws.foldl (fun s w => s.answer { session := w.session, op, tag := w.tag, status, params, data }) s

/-- End a session: what it holds is released (R380, R388, R389), its waiting requests go (DEDUCED, log entry 81). -/
def State.closeSession (s : State) (id : Nat) : State :=
  let a := s.acc
  let prepared := s.rd R.TT_MODE_STATUS_STATE == 2
  let s := match (s.session? id).map (·.carrier) with
    | some (.can p) => s.wr R.CF_SVC_STATUS_OPEN 0 p
    | _ => s
  { s.emit (.host id) .closed [] with acc := { a with
      sessions := a.sessions.filter (fun x => x.id != id)
      lock := if a.lock.any (fun l => l.session == id) then none else a.lock
      waiters := a.waiters.filter (fun w => w.session != id)
      modeHolder := if a.modeHolder == some id && prepared then none else a.modeHolder
      transfers := a.transfers.filter (fun t => t.session != id) } }

/-- A NOTICE with a status before closing (R374, R376). -/
def State.notice (s : State) (id status : Nat) : State := (s.emit (.host id) .notice [0x0100, status]).closeSession id

/-- Run a command packet: refused by the gate, or taken and carried out.  A packet before HELLO also closes its session
(R374) (DEDUCED, log entry 11). -/
def State.command (s : State) (r : Req) (c : Cmd) (body : State → State) : State :=
  match s.gate r c with
  | some 0x0102 => ((s.takeReq r { c with lock := false }).reply r c 0x0102).closeSession r.session
  | some 0x0103 => (s.updSession r.session (fun x => { x with lastRx := s.tb.frc })).emit (.host r.session) .reply [c.op, r.tag, 0x0103]
  | some st => (s.takeReq r { c with lock := false }).reply r c st (if st = 0x0002 then [r.badPid - 1] else [])
  | none => body (s.takeReq r c)

/-- A *time* parameter as an FRC: a TOD is converted through the snapshot (R377); `none` while TOD is not valid. -/
def State.timeFrc (s : State) : Time → Option Nat
  | .frc n => some n
  | .tod sec ns frac =>
    if s.bit R.TB_STATUS_TOD_VALID then
      let d : Int := (((sec * 1000000000 + ns) * 2 ^ 32 + frac : Nat) : Int) - s.todUnits
      let inc : Int := s.incUnits
      some ((s.tb.frc : Int) + (if 0 ≤ d then (d + inc - 1) / inc else -((-d) / inc))).toNat
    else none

/-! ### Outputs (R150, R228, R257) -/

/-- 10⁹: levels are in 10⁻⁹ V or mA. -/
def nano : Int := 1000000000

/-- The range of an output mode in 10⁻⁹ V or mA (R209). -/
def outRange (mode range : Nat) : Int × Int :=
  if mode = 8 then (if range = 1 then (0, 10 * nano) else (-10 * nano, 10 * nano)) else (0, 24 * nano)

/-- p = (v − B) ÷ A in 10⁻⁹ units, for a word `v` in Q(QM) (R219). -/
def State.outPhys (s : State) (g t v : Nat) : Int :=
  roundDiv ((toInt 32 v - toInt 32 (s.rd R.CH_SCALE_B g t)) * 2 ^ 16 * nano)
    (toInt 32 (s.rd R.CH_SCALE_A g t) * 2 ^ (31 - s.rd R.CH_CFG_QM g t))

/-- A level limited to the mode's range; a program value also to the NE 43 range (R219, R223). -/
def State.outClamp (s : State) (g t : Nat) (program : Bool) (p : Int) : Int :=
  let (lo, hi) := outRange (s.rd R.CH_CFG_MODE g t) (s.rd R.CH_CFG_RANGE g t)
  let p := max lo (min hi p)
  if program && s.bit R.CH_CFG_NE43_EN g t && s.rd R.CH_CFG_MODE g t == 9 then
    max 3800000000 (min 20500000000 p)
  else p

/-- The level a converter drives for level `p` at its terminal: (p − OFFSET × span × 10⁻⁸) ÷ GAIN (R235). -/
def State.untrim (s : State) (g t : Nat) (p : Int) : Int :=
  let (lo, hi) := outRange (s.rd R.CH_CFG_MODE g t) (s.rd R.CH_CFG_RANGE g t)
  roundDiv ((p * 100000000 - toInt 32 (s.rd R.CH_TRIM_OFFSET g t) * (hi - lo)) * 2 ^ 30)
    (toInt 32 (s.rd R.CH_TRIM_GAIN g t) * 100000000)

/-- The STATUS bit of R217 that marks a value `want` clamped to `p`: OVER, or UNDER (R219, R223). -/
def clampBit (want p : Int) : Nat := if p < want then 16 else if want < p then 8 else 0

/-- A drive at terminal level `p` through the converter, for a value `want`. -/
def State.driveAt (s : State) (g t : Nat) (src : DriveSrc) (p want : Int) : Drive := ⟨src, p, s.untrim g t p, clampBit want p⟩

/-- Nothing is driven. -/
def Drive.off : Drive := ⟨.none, 0, 0, 0⟩

/-- The safe level of a channel (R150). -/
def State.safeDrive (s : State) (g t : Nat) : Drive :=
  let want := s.outPhys g t (s.rd R.CH_SAFE_VALUE g t)
  let fixed := s.driveAt g t .safe (s.outClamp g t false want) want
  let iout := s.rd R.CH_CFG_MODE g t == 9
  match s.rd R.CH_SAFE_KIND g t with
  | 0 => match (s.chans.getD (g * 8 + t) Chan.reset).held with
    | some d => { s.driveAt g t .safe d.level d.level with clamp := d.clamp }
    | none => fixed
  | 2 => if iout then s.driveAt g t .safe 3500000000 3500000000 else fixed
  | 3 => if iout then s.driveAt g t .safe 22000000000 22000000000 else fixed
  | _ => fixed

/-- A physical item of a kind is named by some logical item of the map in force (R116). -/
def State.mapped (s : State) (kind phys : Nat) : Bool := s.tt.map.any (fun d => d.kind == kind && d.physical == phys)

/-- The physical item a logical item is mapped to. -/
def State.physOf (s : State) (kind logical : Nat) : Option Nat :=
  (s.tt.map.find? (fun d => d.kind == kind && d.logical == logical)).map (·.physical)

/-- A physical output is named by some logical item of the map under which the values latched at the latest tick were transferred (R116, R120). -/
def State.driven (s : State) (kind phys : Nat) : Bool := s.tt.driveMap.any (fun d => d.kind == kind && d.physical == phys)

/-- The output stages drive: the role is ACTIVE, or SOLO while the partner's DRIVE line is not asserted, or while the supervisor
holds against it at a takeover or a tie (R343, R358). -/
def State.driving (s : State) : Bool := s.role == .active || (s.role == .solo && (!s.bit R.PA_STATUS_PARTNER_DRIVE || s.pair.hold))

/-- The module orders safe values: outside RUN, and up to and including the first RUN tick (R147, R151). -/
def State.safeOrder (s : State) : Bool := s.unit != .run || s.tt.firstRun

/-- The program or alarm level of a latched granule (R224, R228). -/
def State.granuleDrive (s : State) (g t : Nat) (v flags : Nat) : Drive :=
  if bitOf flags 1 && s.rd R.CH_CFG_MODE g t == 9 then
    let p : Int := if s.bit R.CH_CFG_ALARM_HIGH g t then 22000000000 else 3500000000
    s.driveAt g t .alarm p p
  else s.driveAt g t .program (s.outClamp g t true (s.outPhys g t v)) (s.outPhys g t v)

/-- The fallback level (R232), from the group's own memory of the mode. -/
def State.fallbackDrive (s : State) (g t : Nat) : Drive :=
  match ((s.groups.getD g Group.reset).nv.getD t (0, 0, 0, 0)).1 with
  | 9 => let p := if s.bit R.FG_STATUS_JUMPER g then 22000000000 else 3500000000; ⟨.fallback, p, p, 0⟩
  | 8 => ⟨.fallback, 0, 0, 0⟩
  | _ => Drive.off

/-- What a channel's terminal drives: the first of R228's sources that applies. -/
def State.driveOf (s : State) (ch : Nat) : Drive :=
  let g := ch / 8
  let t := ch % 8
  let mode := s.rd R.CH_CFG_MODE g t
  if !(s.groups.getD g Group.reset).supply then Drive.off
  else if s.bit R.FG_STATUS_FALLBACK g then s.fallbackDrive g t
  else if mode != 8 && mode != 9 then Drive.off
  else if s.bit R.SS_STATUS_SAFE_LINE || s.safeOrder || !s.driven 1 ch then s.safeDrive g t
  else match (s.chans.getD ch Chan.reset).latched with
    | none => s.safeDrive g t
    | some (v, f) => if bitOf f 0 then s.safeDrive g t else s.granuleDrive g t v f

/-- Change one channel. -/
def State.updChan (s : State) (ch : Nat) (f : Chan → Chan) : State := { s with chans := updAt s.chans ch f }

/-- Change one group. -/
def State.updGroup (s : State) (g : Nat) (f : Group → Group) : State := { s with groups := updAt s.groups g f }

/-- Set every channel's drive from its sources; after a power-fail stop beside an eligible partner the stages keep what they drive
(R483). -/
def State.driveChans (s : State) : State :=
  (List.range 96).foldl (fun s ch => s.updChan ch (fun c =>
    if s.sup.keep && (s.groups.getD (ch / 8) Group.reset).supply && !s.bit R.FG_STATUS_FALLBACK (ch / 8) then c
    else { c with drive := s.driveOf ch })) s

/-- The safe state of discrete output `o` (R150, R257): HOLD keeps the program state it latched last, 28 to 31 are open. -/
def State.doSafe (s : State) (o : Nat) : Bool :=
  if 28 ≤ o then false
  else if s.rd R.DIO_OUT_SAFE_KIND o == 0 then
    (s.dio.held.getD o none).getD (s.bit R.DIO_OUT_SAFE_STATE o)
  else s.bit R.DIO_OUT_SAFE_STATE o

/-- What discrete output `o` is commanded to: the first of R257's sources that applies, and its trip switch (R260). -/
def State.doDrive (s : State) (o : Nat) : Bool :=
  let prio :=
    if s.bit R.DIO_STATUS_OUT_OFF then false
    else if s.bit R.SS_STATUS_SAFE_LINE || s.safeOrder || (decide (o < 28) && !s.driven 3 o) then s.doSafe o
    else match s.dio.latched with
      | none => s.doSafe o
      | some (v, q) => if bitOf q o then s.doSafe o else bitOf v o
  prio && !(decide (28 ≤ o) && bitOf (s.rd R.SS_TRIP_OPEN) (o - 28))

/-- A number from its bits below `n`. -/
def ofBits (n : Nat) (f : Nat → Bool) : Nat := (List.range n).foldl (fun v i => if f i then v + 2 ^ i else v) 0

/-- Set the discrete drives and DIO_OUT_NOW; what R483 keeps stays, but for the trip switches. -/
def State.driveDos (s : State) : State :=
  let d :=
    if s.sup.keep && !s.bit R.DIO_STATUS_OUT_OFF then
      ofBits 32 (fun o => bitOf s.dio.drive o && !(decide (28 ≤ o) && bitOf (s.rd R.SS_TRIP_OPEN) (o - 28)))
    else ofBits 32 s.doDrive
  { s.wr R.DIO_OUT_NOW d with dio := { s.dio with drive := d } }

/-- Discrete output `o` is on at its terminal: its stage drives, is commanded on and is not in thermal shutdown (R32, R258, R343). -/
def State.doTerminal (s : State) (o : Nat) : Bool := s.driving && bitOf s.dio.drive o && !s.dio.thermal.any (fun x => x.1 == o)

/-- Every output follows its sources again. -/
def State.driveAll (s : State) : State := s.driveChans.driveDos

/-- The safe-state line is asserted or released (R229, R257): every output follows within 1 µs. -/
def State.safeLine (s : State) (on : Bool) : State := (s.wr R.SS_STATUS_SAFE_LINE (if on then 1 else 0)).driveAll

/-! ### Trip outputs (R478, R479) -/

/-- The sources of R478 that hold for trip output `i`: chain FAULT ports, chain OPEN ports, HALT, the warning. -/
def State.tripSources (s : State) (i : Nat) : Nat × Nat × Bool × Bool :=
  let port (f : Nat → Bool) : Nat := ofBits 8 (fun p => bitOf (s.rd R.SS_TRIP_MASK p) i && f p)
  (port (fun p => (s.chains.getD p ChainPort.reset).faultHeld),
   port (fun p => s.rd R.CH_LINE_STATE p == 2 && s.bit R.SS_TRIP_OPENTRIP p),
   s.unit == .halt && bitOf (s.rd R.SS_TRIP_CFG_ON_HALT_0 * 1 + s.rd R.SS_TRIP_CFG_ON_HALT_1 * 2 +
     s.rd R.SS_TRIP_CFG_ON_HALT_2 * 4 + s.rd R.SS_TRIP_CFG_ON_HALT_3 * 8) i,
   s.bit R.SS_STATUS_PFW && bitOf (s.rd R.SS_TRIP_CFG_ON_PFW_0 * 1 + s.rd R.SS_TRIP_CFG_ON_PFW_1 * 2 +
     s.rd R.SS_TRIP_CFG_ON_PFW_2 * 4 + s.rd R.SS_TRIP_CFG_ON_PFW_3 * 8) i)

/-- Whether a source holds now. -/
def State.tripNow (s : State) (i : Nat) : Bool :=
  let (f, o, h, p) := s.tripSources i
  f != 0 || o != 0 || h || p

/-- Latch trip output `i` with its sources; a latching that was not set counts in SS_TRIPS (DEDUCED, log entry 76). -/
def State.tripLatch (s : State) (i : Nat) (cmd : Bool) : State :=
  let (f, o, h, p) := s.tripSources i
  if !(f != 0 || o != 0 || h || p || cmd) then s
  else
    let s := if bitOf (s.rd R.SS_TRIP_LATCH) i then s
      else ((((((s.inc R.SS_TRIPS).wr R.SS_TRIP_SRC_FAULT 0 i).wr R.SS_TRIP_SRC_OPEN 0 i).wr R.SS_TRIP_SRC_HALT 0 i).wr R.SS_TRIP_SRC_PFW 0 i).wr
        R.SS_TRIP_SRC_CMD 0 i)
    let s := s.wr R.SS_TRIP_LATCH (s.rd R.SS_TRIP_LATCH ||| 2 ^ i)
    let s := (s.wr R.SS_TRIP_SRC_FAULT (s.rd R.SS_TRIP_SRC_FAULT i ||| f) i).wr R.SS_TRIP_SRC_OPEN (s.rd R.SS_TRIP_SRC_OPEN i ||| o) i
    let s := if h then s.wr R.SS_TRIP_SRC_HALT 1 i else s
    let s := if p then s.wr R.SS_TRIP_SRC_PFW 1 i else s
    if cmd then s.wr R.SS_TRIP_SRC_CMD 1 i else s

/-- The supervisor evaluates its trip sources (R478): a latched switch, and every switch without the supervisor's own
supply, is open. -/
def State.evalTrips (s : State) (cmd : Nat := 0) : State :=
  let s := (List.range 4).foldl (fun s i => s.tripLatch i (bitOf cmd i)) s
  let s := s.wr R.SS_TRIP_CAUSE_NOW (ofBits 4 s.tripNow)
  let s := s.wr R.SS_TRIP_OPEN (if s.sup.supply then s.rd R.SS_TRIP_LATCH else 0xF)
  (s.wr R.DIO_STATUS_TRIP (s.rd R.SS_TRIP_OPEN)).driveDos

/-! ### Spare inventory (R487, R489, R490) -/

/-- HS_STATUS.LOW, EXHAUSTED and EXHAUSTED_ANY follow the inventory (R490); a kind that has just run out is journalled and
notified. -/
def State.hsLevels (s : State) : State :=
  let spare (s : State) (k : Nat) : Nat := s.rd R.HS_INV_SPARE k
  let now := ofBits 11 (fun k => spare s k == 0)
  let fresh := (List.range 11).filter (fun k => bitOf now k && !bitOf (s.rd R.HS_EXHAUSTED) k)
  let s := s.wr R.HS_EXHAUSTED now
  let s := s.wr R.HS_STATUS_EXHAUSTED_ANY (if now = 0 then 0 else 1)
  let s := s.wr R.HS_STATUS_LOW (if (List.range 11).any (fun k => decide (spare s k < s.rd R.HS_CTRL_LOW_MIN)) then 1 else 0)
  fresh.foldl (fun s k => (s.journal 0x0E .exhausted [k]).notify 0x0C 0x0C00 0 [k]) s

/-- A part of kind `k` is counted as failed and a spare as used (R40, R489). -/
def State.hsUse (s : State) (k : Nat) : State :=
  let s := s.inc R.HS_INV_FAILED k
  (s.wr R.HS_INV_SPARE (s.rd R.HS_INV_SPARE k - 1) k).hsLevels

/-! ### ECC (R72) -/

/-- An uncorrectable error read by logical tile `l`: TSR.ECC_UNC with its LT_ flag, and the marker of this frame, or of the
next when this frame's is already posted, is suppressed. -/
def State.suppressMarker (s : State) : State :=
  if s.lat.marker then { s with lat := { s.lat with suppressNext := true } }
  else { s with lat := { s.lat with suppress := true } }

end Sys2Proof.Machine
end

