-- ==== Sys2Proof/Machine/Sensors.lean ====
section
/-! DEFINITION. The characteristics of resistance thermometers and thermocouples that R209 and R220 name: IEC 60751, Ni1000 with α = 0.006180 and
the reference functions of IEC 60584-1.  The spec names the standards; their coefficients stand here from outside it (PRESUMED, log entry 12). -/

namespace Sys2Proof.Machine

open Sys2Proof

/-- Exact arithmetic of R219 and R235 on channels counts in 10⁻¹⁷ × 2⁻³⁰ of the physical unit. -/
def uPer : Int := 10 ^ 17 * 2 ^ 30

/-- 10⁻⁹ units as the exact unit. -/
def ofNano (x : Int) : Int := x * (10 ^ 8 * 2 ^ 30)

/-- A coefficient m × 10⁻ᵉ. -/
abbrev Coef := Int × Nat

/-- A polynomial at x × 10⁻⁹ as numerator and denominator; no coefficient has more than 45 decimals. -/
def polyAt (x : Int) : List Coef → Int × Int
  | [] => (0, 10 ^ 45)
  | c :: cs =>
    let (n, d) := polyAt x cs
    (c.1 * 10 ^ (45 - c.2) * (d / 10 ^ 45) * 10 ^ 9 + x * n, d * 10 ^ 9)

/-- A polynomial at x × 10⁻⁹ times `k`, rounded once. -/
def polyScaled (x k : Int) (cs : List Coef) : Int :=
  let (n, d) := polyAt x cs
  roundDiv (n * k) d

/-- The rows (up to which temperature in 10⁻⁹ °C, coefficients) of a characteristic: the row a temperature falls in. -/
def pickRow (x : Int) : List (Int × List Coef) → List Coef
  | [] => []
  | [r] => r.2
  | r :: rs => if x ≤ r.1 then r.2 else pickRow x rs

/-! ### Resistance thermometers (R209, R222) -/

/-- R(t) ÷ R₀ of platinum below and above 0 °C, and of nickel. -/
def ptRows : List (Int × List Coef) :=
  [(0, [(1, 0), (39083, 7), (-5775, 10), (4183, 13), (-4183, 15)]),
   (0, [(1, 0), (39083, 7), (-5775, 10)])]
def niRows : List (Int × List Coef) := [(0, [(1, 0), (5485, 6), (665, 8), (0, 0), (2805, 14), (0, 0), (-2, 17)])]

/-- The resistance of a sensor (0 Pt100, 1 Pt1000, 2 Ni1000) at x × 10⁻⁹ °C in exact units of Ω. -/
def rtdOhms (sensor : Nat) (x : Int) : Int :=
  polyScaled x ((if sensor = 0 then 100 else 1000) * uPer) (pickRow x (if sensor = 2 then niRows else ptRows))

/-! ### Thermocouples (R209, R220) -/

/-- The reference function of a type (B, E, J, K, N, R, S, T) in mV: the temperature from which it is defined, and its rows. -/
def tcRows : Nat → Int × List (Int × List Coef)
  | 0 => (0,
   [(630615000000,
    [(0, 0), (-24650818346, 14), (59040421171, 16), (-13257931636, 19), (15668291901, 22), (-1694452924, 24), (62990347094, 29)]),
    (1820000000000,
    [(-38938168621, 10), (2857174747, 11), (-84885104785, 15), (15785280164, 17), (-16835344864, 20), (11109794013, 23),
     (-44515431033, 27), (98975640821, 31), (-93791330289, 35)])])
  | 1 => (-270000000000,
   [(0,
    [(0, 0), (58665508708, 12), (45410977124, 15), (-77998048686, 17), (-25800160843, 18), (-59452583057, 20), (-93214058667, 22),
     (-10287605534, 23), (-80370123621, 26), (-43979497391, 28), (-16414776355, 30), (-39673619516, 33), (-55827328721, 36),
     (-34657842013, 39)]),
    (1000000000000,
    [(0, 0), (5866550871, 11), (45032275582, 15), (28908407212, 18), (-33056896652, 20), (6502440327, 22), (-19197495504, 26),
     (-12536600497, 28), (21489217569, 31), (-14388041782, 34), (35960899481, 38)])])
  | 2 => (-210000000000,
   [(760000000000,
    [(0, 0), (50381187815, 12), (3047583693, 14), (-8568106572, 17), (13228195295, 20), (-17052958337, 23), (20948090697, 26),
     (-12538395336, 29), (15631725697, 33)]),
    (1200000000000,
    [(29645625681, 8), (-14976127786, 10), (31787103924, 13), (-31847686701, 16), (15720819004, 19), (-30691369056, 23)])])
  | 3 => (-270000000000,
   [(0,
    [(0, 0), (39450128025, 12), (23622373598, 15), (-32858906784, 17), (-49904828777, 19), (-67509059173, 21), (-57410327428, 23),
     (-31088872894, 25), (-10451609365, 27), (-19889266878, 30), (-16322697486, 33)]),
    (1372000000000,
    [(-17600413686, 12), (38921204975, 12), (18558770032, 15), (-99457592874, 18), (31840945719, 20), (-56072844889, 23),
     (56075059059, 26), (-32020720003, 29), (97151147152, 33), (-12104721275, 36)])])
  | 4 => (-270000000000,
   [(0,
    [(0, 0), (26159105962, 12), (10957484228, 15), (-93841111554, 18), (-46412039759, 21), (-26303357716, 22), (-22653438003, 24),
     (-76089300791, 27), (-93419667835, 30)]),
    (1300000000000,
    [(0, 0), (25929394601, 12), (1571014188, 14), (43825627237, 18), (-25261169794, 20), (64311819339, 23), (-10063471519, 25),
     (99745338992, 29), (-60863245607, 32), (20849229339, 35), (-30682196151, 39)])])
  | 5 => (-50000000000,
   [(1064180000000,
    [(0, 0), (528961729765, 14), (139166589782, 16), (-238855693017, 19), (356916001063, 22), (-462347666298, 25),
     (500777441034, 28), (-373105886191, 31), (157716482367, 34), (-281038625251, 38)]),
    (1664500000000,
    [(295157925316, 11), (-252061251332, 14), (159564501865, 16), (-764085947576, 20), (205305291024, 23), (-293359668173, 27)]),
    (1768100000000,
    [(152232118209, 9), (-268819888545, 12), (171280280471, 15), (-345895706453, 19), (-934633971046, 26)])])
  | 6 => (-50000000000,
   [(1064180000000,
    [(0, 0), (540313308631, 14), (12593428974, 15), (-232477968689, 19), (322028823036, 22), (-331465196389, 25),
     (255744251786, 28), (-125068871393, 31), (271443176145, 35)]),
    (1664500000000,
    [(132900444085, 11), (334509311344, 14), (654805192818, 17), (-164856259209, 20), (129989605174, 25)]),
    (1768100000000,
    [(146628232636, 9), (-258430516752, 12), (163693574641, 15), (-330439046987, 19), (-943223690612, 26)])])
  | _ => (-270000000000,
   [(0,
    [(0, 0), (38748106364, 12), (44194434347, 15), (11844323105, 17), (20032973554, 18), (90138019559, 20), (22651156593, 21),
     (36071154205, 23), (38493939883, 25), (28213521925, 27), (14251594779, 29), (48768662286, 32), (1079553927, 33),
     (13945027062, 37), (79795153927, 41)]),
    (400000000000,
    [(0, 0), (38748106364, 12), (3329222788, 14), (20618243404, 17), (-21882256846, 19), (10996880928, 21), (-30815758772, 24),
     (4547913529, 26), (-27512901673, 30)])])

/-- The series of e⁻ᵛ from its term `k` on, v and the terms in 10⁻⁴⁰. -/
def expSeries (v : Nat) : Nat → Nat → Nat → Int
  | 0, _, _ => 0
  | fuel + 1, k, term => (if k % 2 = 0 then (term : Int) else -(term : Int)) + expSeries v fuel (k + 1) (term * v / ((k + 1) * 10 ^ 40))

/-- e⁻ᵘ with u and the result in 10⁻⁴⁰: a series for u ÷ 256 and eight squarings. -/
def expNeg (u : Nat) : Nat :=
  (List.range 8).foldl (fun y _ => y * y / 10 ^ 40) (expSeries (u / 256) 60 0 (10 ^ 40)).toNat

/-- The term 0.1185976 exp(−1.183432 × 10⁻⁴ (t − 126.9686)²) mV of type K above 0 °C, in 10⁻⁴⁷ mV. -/
def tcKTerm (x : Int) : Int :=
  let y := x - 126968600000
  1185976 * expNeg ((1183432 * y * y).toNat * 10 ^ 12)

/-- E of a thermocouple at x × 10⁻⁹ °C in exact units of V; a temperature at which the standard defines none has a free value. -/
def tcE (sensor : Nat) (x : Int) : Int :=
  let (lo, rows) := tcRows sensor
  let hi := (rows.getLast?.map (·.1)).getD lo
  if x < lo || hi < x then Config.tcOutside sensor x
  else
    let base := polyScaled x (uPer / 1000) (pickRow x rows)
    if sensor = 3 && 0 < x then base + roundDiv (tcKTerm x * uPer) (10 ^ 50) else base

/-! ### Inverse functions -/

/-- The greatest x of [lo, hi) with f x at most e, for an increasing f with f lo ≤ e < f hi. -/
def bisect (f : Int → Int) (e : Int) : Nat → Int → Int → Int
  | 0, lo, _ => lo
  | fuel + 1, lo, hi =>
    if hi ≤ lo + 1 then lo
    else
      let mid := (lo + hi) / 2
      if f mid ≤ e then bisect f e fuel mid hi else bisect f e fuel lo mid

/-- The temperature, to 10⁻⁹ °C, at which an increasing characteristic over [lo, hi] has the value e; beyond its ends a free value beyond
the range (the spec states none). -/
def inverse (f : Int → Int) (lo hi e : Int) : Int :=
  if e < f lo then lo - 1 - Config.beyondChar e
  else if f hi < e then hi + 1 + Config.beyondChar e
  else if f hi = e then hi
  else bisect f e 64 lo hi

end Sys2Proof.Machine
end

