-- ==== Sys2Proof/Machine/LoopEngine.lean ====
section
/-! DEFINITION. The loop engine (R153 to R176): the record layout, one execution (R164 to R173) and a whole call (R156 to
R160).  A record is the list of its 64 words; an intermediate is an integer in units of 2^-F with F = 63 − SIG_QM, the
80-bit format of R165, and a signal an integer in units of 2^-(31 − SIG_QM). -/

namespace Sys2Proof.Machine

open Sys2Proof

/-- A loop record as its 64 words. -/
abbrev LoopRec := List Nat

/-- Word at byte offset `o` of a record. -/
def LoopRec.u (w : LoopRec) (o : Nat) : Nat := List.getD w (o / 4) 0

/-- Signed word at byte offset `o`. -/
def LoopRec.i (w : LoopRec) (o : Nat) : Int := toInt 32 (LoopRec.u w o)

/-- Write the word at byte offset `o`. -/
def LoopRec.set (w : LoopRec) (o v : Nat) : LoopRec := List.set w (o / 4) (v % 2 ^ 32)

/-- Write a signed word. -/
def LoopRec.seti (w : LoopRec) (o : Nat) (v : Int) : LoopRec := LoopRec.set w o (ofInt 32 v)

/-- The 64-bit value at byte offset `o`. -/
def LoopRec.u64 (w : LoopRec) (o : Nat) : Nat := LoopRec.u w o + 2 ^ 32 * LoopRec.u w (o + 4)

/-- Write a 64-bit value. -/
def LoopRec.set64 (w : LoopRec) (o v : Nat) : LoopRec := LoopRec.set (LoopRec.set w o v) (o + 4) (v / 2 ^ 32)

/-- The address of record `r` (R153). -/
def loopRecAddr (r : Nat) : Nat := Config.loopBase + 0x100 * r

/-- A byte of an engine window that the layout reserves and that reads 0: the offsets R161 does not list in a record, the rest of the
mirror page (R153), the gap after the solver summaries (R178). -/
def reservedByte (a : Nat) : Bool :=
  let o := a % 0x100
  if Config.loopBase ≤ a && decide (a < 0x03020000) then
    (decide (0x6C ≤ o) && decide (o < 0x80)) || (decide (0xA4 ≤ o) && decide (o < 0xC0)) || decide (0xFC ≤ o)
  else if 0x03030000 ≤ a && decide (a < Config.loopEnd) then
    decide (0x03030600 ≤ a) && (decide (a < 0x03030800) || decide (0x03030A00 ≤ a))
  else decide (0x01010800 ≤ a) && decide (a < 0x01100000)

/-- A byte of the shared address space as a load reads it. -/
def State.readByte (s : State) (a : Nat) : Byte := if reservedByte a then 0 else s.byte a

/-- `n` bytes of the shared address space as a load reads them. -/
def State.readBytes (s : State) (a n : Nat) : Bytes := (List.range n).map (fun i => s.readByte (a + i))

/-- A word of the shared address space as a load reads it. -/
def State.readWord (s : State) (a : Nat) : Nat := leNat (s.readBytes a 4)

/-- The words of record `r`. -/
def State.loopRec (s : State) (r : Nat) : LoopRec :=
  (List.range 64).map (fun k => s.readWord (loopRecAddr r + 4 * k))

/-- The bytes of a record. -/
def LoopRec.toBytes (w : LoopRec) : Bytes := w.flatMap (leBytes 4)

/-! ### Flags (R163) -/

/-- Flag numbers of FLAGS and STATUS. -/
def flOutHi : Nat := 0
def flOutLo : Nat := 1
def flOutRate : Nat := 2
def flSpClamp : Nat := 3
def flSpRate : Nat := 4
def flOvf : Nat := 5
def flWindup : Nat := 6
def flMissed : Nat := 7
def flPvBad : Nat := 8
def flSrcBad : Nat := 9
def flCompliance : Nat := 10
def flCfgBad : Nat := 11
def flHeld : Nat := 12

/-- One execution in progress: the record, the flags set so far, the interval `dt` in tb, whether it is a first
execution, and whether the derivative resynchronises (R166). -/
structure LoopRun where
  w : LoopRec
  flags : Nat
  dt : Nat
  first : Bool
  resync : Bool
  deriving DecidableEq, Repr

/-- Set flag `k` when `c` holds. -/
def LoopRun.flag (x : LoopRun) (k : Nat) (c : Bool) : LoopRun := if c then { x with flags := x.flags ||| 2 ^ k } else x

/-- Write a word of the record. -/
def LoopRun.set (x : LoopRun) (o v : Nat) : LoopRun := { x with w := LoopRec.set x.w o v }

/-- SIG_QM, and the fraction bits F of the 80-bit intermediate format (R165). -/
def LoopRun.m (x : LoopRun) : Nat := bitsOf (LoopRec.u x.w 0x00) 8 5
def LoopRun.F (x : LoopRun) : Nat := 63 - x.m

/-- A signal field as an intermediate. -/
def LoopRun.sig (x : LoopRun) (o : Nat) : Int := LoopRec.i x.w o * 2 ^ 32

/-- Note the intermediates that left the 80-bit range (R165). -/
def LoopRun.check (x : LoopRun) (vs : List Int) : LoopRun := x.flag flOvf (vs.any (overflows 80))

/-- Write an intermediate to a signal field: rounded once more, saturated to 32 bits (R165). -/
def LoopRun.putSig (x : LoopRun) (o : Nat) (v : Int) : LoopRun :=
  let r := roundDiv v (2 ^ 32)
  (x.set o (ofInt 32 (satInt 32 r))).flag flOvf (overflows 32 r)

/-- Write an intermediate to I_STATE, Q(SIG_QM).(63 − SIG_QM) (R161). -/
def LoopRun.putI (x : LoopRun) (v : Int) : LoopRun :=
  { x with w := LoopRec.set64 x.w 0xC0 (ofInt 64 (satInt 64 v)) }.flag flOvf (overflows 64 v)

/-- I_STATE as an intermediate. -/
def LoopRun.iState (x : LoopRun) : Int := toInt 64 (LoopRec.u64 x.w 0xC0)

/-- The product of an intermediate `v` with a factor of `e` fraction bits, rounded once to F and not yet saturated. -/
def mulQ (v k : Int) (e : Nat) : Int := roundDiv (v * k) (2 ^ e)

/-- The same product with dt in seconds as a further factor (R165). -/
def mulQdt (v k : Int) (e dt : Nat) : Int := roundDiv (v * k * dt) (2 ^ e * 100000000)

/-! ### Sources (R162) -/

/-- What a source gives: a value, no new value, or nothing because it is bad; and whether its word is invalid. -/
inductive SrcVal where
  | val (v : Int)
  | keep
  | bad (cfg : Bool)
  deriving DecidableEq, Repr

/-- The word of the window the loop engine reads for a source in its cycle `j` of four (R514). -/
def sourceAccess (word j : Nat) : Option Nat :=
  let idx := bitsOf word 0 16
  match bitsOf word 16 3 with
  | 1 => if idx ≤ 95 then some (Config.loopBase + 0x30000 + 16 * idx + 4 * j) else none
  | 2 => if idx ≤ 31 && j != 2 then some (Config.loopBase + 0x30800 + 16 * idx + 4 * j) else none
  | 3 => if idx ≤ 511 && j == 0 then some (loopRecAddr idx + 0x34) else none
  | _ => none

/-- Evaluate a source word.  `pulseOff` is the record's field of the previous COUNT, `a` (Q15.16) and `b` the scale;
`earlier` the records listed earlier in the call; `field` the value of KIND 0; `smp` the words its four cycles read (R514).  The second result is
the new COUNT to keep, the third the intermediates to check (DEDUCED, log entry 72). -/
def State.loopSource (s : State) (x : LoopRun) (word pulseOff : Nat) (a b field : Int) (earlier smp : List Nat) :
    SrcVal × Option Nat × List Int :=
  let idx := bitsOf word 0 16
  let rd (j : Nat) : Nat := smp.getD j 0
  let m : Int := x.m
  match bitsOf word 16 3 with
  | 0 => (.val field, none, [])
  | 1 =>
    if idx > 95 then (.bad true, none, []) else
      if bitOf (rd 1) 0 || rd 3 != s.tb.frameNo % 2 ^ 32 then (.bad false, none, [])
      else
        let qm := rd 2 % 256
        let v0 := scaleR (toInt 32 (rd 0)) ((qm : Int) - m)
        let p := mulQ (satInt 32 v0 * 2 ^ 32) a 16
        let v := satInt 80 p + b
        (.val (satInt 80 v), none, [p, v] ++ (if overflows 32 v0 then [2 ^ 80] else []))
  | 2 =>
    if idx > 31 then (.bad true, none, []) else
      let c := rd 1
      if x.dt = 0 then (.keep, some c, [])
      else
        let n := ofInt 32 ((c : Int) - LoopRec.u x.w pulseOff)
        let v0 := roundDiv ((n : Int) * 100000000 * 2 ^ x.F) x.dt
        let p := mulQ (satInt 80 v0) a 16
        let v := satInt 80 p + b
        (.val (satInt 80 v), some c, [v0, p, v])
  | 3 =>
    if idx > 511 then (.bad true, none, [])
    else if earlier.contains idx then
      let v := scaleR (toInt 32 (rd 0)) ((x.F : Int) - (31 - (bitsOf (s.word (loopRecAddr idx)) 8 5 : Int)))
      (.val (satInt 80 v), none, [v])
    else (.bad false, none, [])
  | 4 => (.val 0, none, [])
  | _ => (.bad true, none, [])

/-- Keep a pulse count read by a source. -/
def LoopRun.keepCount (x : LoopRun) (o : Nat) : Option Nat → LoopRun
  | some c => x.set o c
  | none => x

/-! ### The execution -/

/-- Read the PV and SP sources and write PV and SP where they are not fields (R162, R171). The results are whether PV is
good, and the FF source's value; `smp` are the 12 source words read (DEDUCED, log entry 72). -/
def State.loopSources (s : State) (x : LoopRun) (earlier smp : List Nat) : LoopRun × Bool × SrcVal :=
  let w := x.w
  let (pv, pc, pi) := s.loopSource x (LoopRec.u w 0x18) 0xE0 (LoopRec.i w 0x5C) (x.sig 0x60) (x.sig 0x28) earlier (smp.take 4)
  let (sp, sc, si) := s.loopSource x (LoopRec.u w 0x1C) 0xF4 (LoopRec.i w 0x64) (x.sig 0x68) (x.sig 0x2C) earlier ((smp.drop 4).take 4)
  let (ff, fc, fi) := s.loopSource x (LoopRec.u w 0x20) 0xF8 65536 0 0 earlier (smp.drop 8)
  let x := (((x.keepCount 0xE0 pc).keepCount 0xF4 sc).keepCount 0xF8 fc).check (pi ++ si ++ fi)
  let isField (o : Nat) : Bool := bitsOf (LoopRec.u w o) 16 3 == 0
  let (x, good) : LoopRun × Bool := match pv with
    | .val v => (if isField 0x18 then x else x.putSig 0x28 v, true)
    | .keep => (x, true)
    | .bad c => ((x.flag flPvBad true).flag flCfgBad c, false)
  let x : LoopRun := match sp with
    | .val v => if isField 0x1C then x else x.putSig 0x2C v
    | .keep => x
    | .bad c => (x.flag flSrcBad true).flag flCfgBad c
  let x : LoopRun := match ff with
    | .bad c => (x.flag flSrcBad true).flag flCfgBad c
    | _ => x
  (x, good, ff)

/-- SP_EFF in MAN and TRACK with SP_TRACK, else clamp and rate limit (R164, R171). -/
def LoopRun.setPoint (x : LoopRun) (auto pvGood : Bool) : LoopRun :=
  if !auto && bitOf (LoopRec.u x.w 0) 7 && pvGood then
    (x.set 0x2C (LoopRec.u x.w 0x28)).set 0x30 (LoopRec.u x.w 0x28)
  else
    let sp := LoopRec.i x.w 0x2C
    let t := clampR (LoopRec.i x.w 0x90) (LoopRec.i x.w 0x8C) sp
    let x := x.flag flSpClamp (t != sp)
    let rate := LoopRec.i x.w 0x94
    if rate = 0 then x.set 0x30 (ofInt 32 t)
    else
      let r := mulQdt (rate * 2 ^ 32) 1 0 x.dt
      let prev := x.sig 0x30
      let v := clampR (prev - satInt 80 r) (prev + satInt 80 r) (t * 2 ^ 32)
      ((x.check [r]).flag flSpRate (v != t * 2 ^ 32)).putSig 0x30 v

/-- The values a PID form works with (R167): Kp, Ki and Kd with their fraction bits, σ, p, the derivative input v, and
the feed-forward term (R170). -/
structure PidTerms where
  kp : Int
  ki : Int
  kiE : Nat
  kd : Int
  kdE : Nat
  sgn : Int
  d : Int
  p : Int
  e : Int
  v : Int
  ff : Int
  deriving DecidableEq, Repr

/-- Compute the terms of R167 and R170; FF_LAST takes a good feed-forward value. -/
def LoopRun.pidTerms (x : LoopRun) (ideal : Bool) (src : SrcVal) : LoopRun × PidTerms :=
  let w := x.w
  let ctrl := LoopRec.u w 0
  let kp := LoopRec.i w 0x40
  let kiF := LoopRec.i w 0x44
  let kdF := LoopRec.i w 0x48
  let ki0 := if kiF = 0 then 0 else roundDiv (kp * 2 ^ x.F) (kiF * 2 ^ 8)
  let kd0 := roundDiv (kp * kdF * 2 ^ x.F) (2 ^ 48)
  let sgn : Int := if bitOf ctrl 6 then -1 else 1
  let bsp := mulQ (x.sig 0x30) (LoopRec.i w 0x50) 30
  let d := satInt 80 bsp - x.sig 0x28
  let p := mulQ (sgn * d) kp 24
  let e := sgn * (x.sig 0x30 - x.sig 0x28)
  let v := if bitOf ctrl 5 then -sgn * x.sig 0x28 else e
  let x := x.check ([bsp, d, p, e] ++ (if ideal then [ki0, kd0] else []))
  let (x, ff) : LoopRun × Int :=
    if bitOf ctrl 4 then
      match src with
      | .val f =>
        let t := mulQ f (LoopRec.i w 0x54) 24
        let g := satInt 80 t + x.sig 0x58
        let x := (x.check [t, g]).putSig 0xD0 (satInt 80 g)
        (x, satInt 80 g)
      | _ => (x, x.sig 0xD0)
    else (x, 0)
  (x, { kp, ki := if ideal then satInt 80 ki0 else kiF, kiE := if ideal then x.F else 16,
        kd := if ideal then satInt 80 kd0 else kdF, kdE := if ideal then x.F else 24,
        sgn, d, p := satInt 80 p, e, v, ff })

/-- TF + dt in seconds, as a numerator over 2^24 × 100,000,000 (R165). -/
def tauDt (t : Int) (dt : Nat) : Int := t * 100000000 + dt * 2 ^ 24

/-- One PID evaluation in AUTO (R167): D_STATE, V_PREV and KP_LAST written, u and i_new returned. -/
def LoopRun.pidAuto (x : LoopRun) (t : PidTerms) : LoopRun × Int × Int :=
  let x : LoopRun :=
    if !x.first && t.kp != LoopRec.i x.w 0xD4 then
      let c := mulQ (t.sgn * t.d) (LoopRec.i x.w 0xD4 - t.kp) 24
      (x.check [c, x.iState + satInt 80 c]).putI (x.iState + satInt 80 c)
    else x
  let x := x.set 0xD4 (ofInt 32 t.kp)
  let db := x.sig 0x9C
  let ei := if t.e ≤ db && -t.e ≤ db then 0 else t.e
  let gi := roundDiv (t.ki * ei * x.dt) (2 ^ t.kiE * 100000000)
  let iNew := x.iState + satInt 80 gi
  let x := x.check [gi, iNew]
  let x : LoopRun := if x.resync then (x.putSig 0xCC t.v).set 0xC8 0 else x
  let tf := LoopRec.i x.w 0x4C
  let den := tauDt tf x.dt
  let a := mulQ (x.sig 0xC8) tf 24
  let dv := t.v - x.sig 0xCC
  let b := mulQ dv t.kd t.kdE
  let q := if den = 0 then 0 else roundDiv ((satInt 80 (satInt 80 a + satInt 80 b)) * (2 ^ 24 * 100000000)) den
  let x := ((x.check [a, b, satInt 80 a + satInt 80 b, q]).putSig 0xC8 (satInt 80 q)).putSig 0xCC t.v
  let u := t.p + satInt 80 iNew + x.sig 0xC8 + t.ff
  (x.check [u], satInt 80 u, satInt 80 iNew)

/-- Lead-lag (R169): u, with V_PREV and I_STATE written. -/
def LoopRun.leadLag (x : LoopRun) : LoopRun × Int :=
  let xin := x.sig 0x28
  let k := LoopRec.i x.w 0x40
  let t1 := LoopRec.i x.w 0x48
  let t2 := LoopRec.i x.w 0x4C
  let x : LoopRun := if x.resync then x.putSig 0xCC xin else x
  let den := tauDt t2 x.dt
  let a := mulQ x.iState t2 24
  let b := roundDiv (xin * k * tauDt t1 x.dt) (2 ^ 48 * 100000000)
  let c := roundDiv (x.sig 0xCC * k * t1) (2 ^ 48)
  let n := satInt 80 a + satInt 80 b - satInt 80 c
  let y := if den = 0 then mulQ xin k 24 else roundDiv (satInt 80 n * (2 ^ 24 * 100000000)) den
  let x := x.check (if den = 0 then [y] else [a, b, c, n, y])
  ((x.putI (satInt 80 y)).putSig 0xCC xin, satInt 80 y)

/-- The channel named in OUT_FB reports its compliance limit in its mirror (R163, R168). -/
def State.loopCompliance (s : State) (x : LoopRun) : Bool :=
  let fb := LoopRec.u x.w 0x24
  decide (fb ≤ 95) && bitOf (s.word (Config.loopBase + 0x30000 + 16 * fb + 4)) 8

/-- The output stage (R168): clamp, rate limit; OUT written.  The results are whether the output was limited
upward and downward. -/
def State.loopOutput (s : State) (x : LoopRun) (u : Int) (track : Bool) : LoopRun × Bool × Bool :=
  let hi := x.sig 0x80
  let lo := x.sig 0x84
  let c := clampR lo hi u
  let atHi := decide (c < u)
  let atLo := decide (u < c)
  let x := (x.flag flOutHi atHi).flag flOutLo atLo
  let rate := LoopRec.i x.w 0x88
  let prev := x.sig 0x34
  let (x, c, rUp, rDn) : LoopRun × Int × Bool × Bool :=
    if x.first || track || rate == 0 then (x, c, false, false)
    else
      let r := mulQdt (rate * 2 ^ 32) 1 0 x.dt
      let v := clampR (prev - satInt 80 r) (prev + satInt 80 r) c
      ((x.check [r]).flag flOutRate (v != c), v, decide (v < c), decide (c < v))
  (x.putSig 0x34 c, atHi || rUp || s.loopCompliance x, atLo || rDn)

/-- I_STATE takes i_new unless the output is limited in the direction in which i_new moves it (R168). -/
def LoopRun.integrate (x : LoopRun) (iNew : Int) (up down : Bool) : LoopRun :=
  let rising := decide (x.iState < iNew)
  let falling := decide (iNew < x.iState)
  if (rising && up) || (falling && down) then x.flag flWindup true else x.putI iNew

/-- Bumpless entry (R173) for the PID forms. -/
def LoopRun.bumplessPid (x : LoopRun) (t : PidTerms) : LoopRun :=
  let v := x.sig 0x34 - t.p - t.ff
  (((x.check [v]).set 0xC8 0).putSig 0xCC t.v |>.set 0xD4 (ofInt 32 t.kp)).putI (satInt 80 v)

/-- Bumpless entry (R173) for lead-lag. -/
def LoopRun.bumplessLag (x : LoopRun) : LoopRun := (x.putI (x.sig 0x34)).putSig 0xCC (x.sig 0x28)

/-- Take a mode request (R172); a request for MODE 3 only sets CFG_BAD. -/
def LoopRun.takeMode (x : LoopRun) : LoopRun :=
  let q := LoopRec.u x.w 0x04
  if bitOf q 7 then
    let x := x.set 0x04 (q - 128)
    let md := bitsOf q 0 2
    if md = 3 then x.flag flCfgBad true
    else
      let x : LoopRun := if md = 0 && bitsOf (LoopRec.u x.w 0x08) 0 2 != 0 then x.set 0x38 (LoopRec.u x.w 0x34) else x
      x.set 0x08 md
  else x

/-- The execution with valid CTRL and MODE, after the sources are read (R164 from SP_EFF on). -/
def State.loopCompute (s : State) (x : LoopRun) (pvGood : Bool) (ffv : SrcVal) (late : Bool) : LoopRun × Bool :=
  let mode := bitsOf (LoopRec.u x.w 0x08) 0 2
  let auto := mode == 1
  let x := (x.setPoint auto pvGood).flag flCompliance (s.loopCompliance x)
  if auto && (!pvGood || late) then (x.flag flHeld true, true)
  else
    let form := bitsOf (LoopRec.u x.w 0) 0 4
    let man : Int := if mode = 0 then x.sig 0x38 else x.sig 0x3C
    let x : LoopRun :=
      if form = 1 || form = 2 then
        let (x, t) := x.pidTerms (form == 2) ffv
        if auto then
          let x : LoopRun := if x.first then x.bumplessPid t else x
          let (x, u, iNew) := x.pidAuto t
          let (x, up, down) := s.loopOutput x u false
          let x := x.integrate iNew up down
          if x.first then x.bumplessPid t else x
        else
          let (x, _, _) := s.loopOutput x man (mode == 2)
          x.bumplessPid t
      else if form = 3 then
        if auto && !x.first then
          let (x, u) := x.leadLag
          (s.loopOutput x u false).1
        else
          let (x, u) : LoopRun × Int := if auto then x.bumplessLag.leadLag else (x, man)
          let (x, _, _) := s.loopOutput x u (mode == 2)
          x.bumplessLag
      else
        let p := mulQ (x.sig 0x28) (LoopRec.i x.w 0x40) 24
        let u := satInt 80 p + x.sig 0x58
        let x : LoopRun := if auto then x.check [p, u] else x
        (s.loopOutput x (if auto then satInt 80 u else man) (mode == 2)).1
    ({ x with w := LoopRec.set x.w 0xA0 (LoopRec.u x.w 0xA0 / 2 * 2) }, false)

/-- Count an execution in a saturating word. -/
def LoopRec.count (w : LoopRec) (o : Nat) : LoopRec :=
  if LoopRec.u w o + 1 < 2 ^ 32 then LoopRec.set w o (LoopRec.u w o + 1) else w

/-- CTRL is invalid (R161). -/
def loopCtrlInvalid (c : Nat) : Bool := decide (bitsOf c 0 4 > 4) || decide (bitsOf c 8 5 > 15) || decide (c / 2 ^ 13 ≠ 0)

/-- Whether the next AUTO execution of record `r` must resynchronise its derivative (R166), as the state holds it (DEDUCED, log entry 72). -/
def State.loopResync (s : State) (r : Nat) : Bool := s.loopResyncs.contains r

/-- One execution of record `r` (R164), whose words are `w`, listed after `earlier`, with the source words `smp`; the results are the record and
the resync mark, which only an AUTO execution that is not held uses up (R166) (DEDUCED, log entry 72). -/
def State.loopExec (s : State) (r : Nat) (w : LoopRec) (earlier smp : List Nat) : LoopRec × Bool :=
  let ctrl := LoopRec.u w 0
  let bad := loopCtrlInvalid ctrl
  let tick := s.tb.pairTick
  if !bad && bitsOf ctrl 0 4 == 0 then
    ((((LoopRec.set64 w 0xD8 tick) |> fun w => LoopRec.set w 0xE4 ctrl) |> fun w => LoopRec.count w 0xE8), s.loopResync r)
  else
    let w := LoopRec.set w 0x0C (LoopRec.u w 0x0C &&& (2 ^ 32 - 1 - LoopRec.u w 0x10))
    let w := LoopRec.set (LoopRec.set w 0x10 0) 0x14 0
    let w := if bitsOf ctrl 0 4 != bitsOf (LoopRec.u w 0xE4) 0 4 then LoopRec.set w 0xA0 (LoopRec.u w 0xA0 ||| 1) else w
    let first := bitOf (LoopRec.u w 0xA0) 0
    let dt := if first then 0 else min (ofInt 64 ((tick : Int) - LoopRec.u64 w 0xD8)) (2 ^ 31 - 1)
    let w := LoopRec.count (LoopRec.set (LoopRec.set64 w 0xD8 tick) 0xE4 ctrl) 0xE8
    let x : LoopRun := { w, flags := 0, dt, first, resync := s.loopResync r }
    let neg := decide (LoopRec.i w 0x44 < 0) || decide (LoopRec.i w 0x48 < 0) || decide (LoopRec.i w 0x4C < 0)
    let close (x : LoopRun) (status resync : Bool) : LoopRec × Bool :=
      let w := LoopRec.set x.w 0x0C (LoopRec.u x.w 0x0C ||| x.flags)
      let st := x.flags ||| (if status && x.first then 2 ^ 16 else 0) ||| (if !status && resync then 2 ^ 17 else 0)
      let w := LoopRec.set w 0x14 st
      (if x.flags &&& 0b100011 ≠ 0 then LoopRec.count w 0xF0 else w, resync)
    if bad || neg then
      let x := (x.flag flCfgBad true).flag flHeld true
      ((close x false false).1, s.loopResync r)
    else
      let x := x.takeMode
      if bitsOf (LoopRec.u x.w 0x08) 0 2 == 3 then
        let x := (x.flag flCfgBad true).flag flHeld true
        ((close x false false).1, s.loopResync r)
      else
        let deadline := LoopRec.u x.w 0x98
        let late := decide (deadline ≠ 0 ∧ deadline < x.dt)
        let x : LoopRun :=
          if late then { (x.flag flMissed true) with w := LoopRec.count x.w 0xEC, dt := deadline } else x
        let (x, good, ffv) := s.loopSources x earlier smp
        let auto := bitsOf (LoopRec.u x.w 0x08) 0 2 == 1
        let (y, held) := s.loopCompute x good ffv late
        ((close y (!held) held).1, held || (!auto && x.resync))

/-! ### The call -/

/-- N and the record numbers of a descriptor (R156). -/
def State.loopList (s : State) (desc : Nat) : List Nat :=
  (List.range (leNat (s.bytes desc 2))).map (fun i => leNat (s.bytes (desc + 32 + 2 * i) 2))

/-- A descriptor inside its limits (R156). -/
def State.loopDescOk (s : State) (desc : Nat) : Bool :=
  let n := leNat (s.bytes desc 2)
  decide (0x03020000 ≤ desc) && decide (desc % 32 = 0) && decide (1 ≤ n) && decide (n ≤ 512) &&
    decide (desc + 32 + (2 * n + 31) / 32 * 32 ≤ 0x03030000) && (s.loopList desc).all (fun r => decide (r ≤ 511))

/-- L of a loop call (R157). -/
def loopLatency (n : Nat) : Nat := 320 + 330 * n

/-- Set the LP_STATUS flags that an executed record raises (R177). -/
def State.loopStatus (s : State) (r : Nat) (w : LoopRec) : State :=
  let st := LoopRec.u w 0x14
  let up (s : State) (row : RegRow) (k : Nat) : State := if bitOf st k then s.wr row 1 else s
  let s := up (up (up (up s R.LP_STATUS_OVF_ANY flOvf) R.LP_STATUS_MISSED_ANY flMissed) R.LP_STATUS_PV_BAD_ANY flPvBad)
    R.LP_STATUS_CFG_BAD_ANY flCfgBad
  if bitOf st flMissed then (s.wr R.LP_LAST_MISS_RECORD r).wr R.LP_LAST_MISS_VALID 1 else s

/-! ### The steps of a call (R158, R160, R514) -/

/-- Change the call of engine `e` that started at cycle `start`. -/
def State.updCall (s : State) (e : Engine) (start : Nat) (f : Call → Call) : State :=
  { s with lat := { s.lat with calls := s.lat.calls.map (fun x => if x.engine == e && x.start == start then f x else x) } }

/-- The call of engine `e` that started at cycle `start`. -/
def State.callAt (s : State) (e : Engine) (start : Nat) : Option Call :=
  s.lat.calls.find? (fun x => x.engine == e && x.start == start)

/-- The words a read delivers: those it finds, with a free value for each that `bad` names; the state after the free values taken (R72, R197). -/
def State.readBad (s : State) (words : List Nat) : List Nat → State × List Nat
  | [] => (s, words)
  | i :: bad => State.readBad s.nextFree (words.set i (s.freeVal % 2 ^ 32)) bad

/-- Step `k` below 12 of list position `pos`: a source word is read (R514).  Word 64 + `k` of the position may be bad. -/
def State.loopSample (s : State) (x : Call) (pos k : Nat) : State :=
  let r := (s.loopList x.desc).getD pos 0
  let v := match sourceAccess (s.word (loopRecAddr r + 0x18 + 4 * (k / 4))) (k % 4) with
    | some a => s.readWord a
    | none => 0
  let (s, vs) := s.readBad [v] (if x.bad.contains (pos, 64 + k) then [0] else [])
  s.updCall .loop x.start (fun x => { x with samples := (if k = 0 then [] else x.samples) ++ vs })

/-- Step 12 of a position: the record is executed, unless it stands earlier in the list; its words wait to be written (R158, R514). -/
def State.loopExecute (s : State) (x : Call) (pos : Nat) : State :=
  let r := (s.loopList x.desc).getD pos 0
  let (s, w) := s.readBad (s.loopRec r) ((x.bad.filter (fun e => e.1 == pos && decide (e.2 < 64))).map (·.2))
  if x.seen.contains r then
    (s.wr R.LP_STATUS_DUP 1).updCall .loop x.start (fun x => { x with blocks := [w] })
  else
    let (w, resync) := s.loopExec r w x.seen x.samples
    let s := { s with loopResyncs := if resync then r :: s.loopResyncs.filter (· != r) else s.loopResyncs.filter (· != r) }
    s.updCall .loop x.start (fun x => { x with blocks := [w] })

/-- Step 13 + `k` of a position: word `k` of the record is written (R514). -/
def State.loopStore (s : State) (x : Call) (pos k : Nat) : State :=
  let r := (s.loopList x.desc).getD pos 0
  s.setWord (loopRecAddr r + 4 * k) ((x.blocks.headD []).getD k 0)

/-- A position is finished: its record's bytes are absorbed and its flags raised, but for one that stands earlier in the list (R158, R160, R177);
a record of FORM 0 raises none (R161). -/
def State.loopFinish (s : State) (x : Call) (pos : Nat) : State :=
  let r := (s.loopList x.desc).getD pos 0
  if x.seen.contains r then s
  else
    let w := x.blocks.headD []
    let off := !loopCtrlInvalid (LoopRec.u w 0) && bitsOf (LoopRec.u w 0) 0 4 == 0
    let s := if off then s else s.loopStatus r w
    s.updCall .loop x.start (fun x => { x with seen := r :: x.seen, hash := x.hash ++ LoopRec.toBytes w })

/-- The 32 bytes a finished call gives the digest, LP_CALLS counted (R160). -/
def State.loopDone (s : State) (x : Call) : State × Bytes :=
  (s.inc R.LP_CALLS, (leBytes 48 (Config.sha384 x.hash)).take 32)

end Sys2Proof.Machine
end

