-- ==== Sys2Proof/Machine/Solver.lean ====
section
/-! DEFINITION. The solver engine (R178 to R202): descriptors, cost functions, the direct and iterative operations in their
fixed-point formats (R180), and a whole call.  Where R180 to R194 leave the order of roundings inside a lane open, the
reading taken is that of assumption log entry 10 (DEDUCED). -/

namespace Sys2Proof.Machine

open Sys2Proof

/-! ### Descriptors and costs -/

/-- A call descriptor (R181). -/
structure SvDesc where
  op : Nat
  n : Nat
  r : Nat
  flags : Nat
  count : Nat
  phases : Nat
  phaseAdd : Nat
  qa : Nat
  qb : Nat
  qx : Nat
  qf : Nat
  qr : Nat
  inAddr : Nat
  inStride : Nat
  inPstride : Nat
  outAddr : Nat
  outStride : Nat
  outPstride : Nat
  enAddr : Nat
  budget : Nat
  tauRel : Int
  regRel : Int
  tauAbs : Int
  tol : Int
  aMax : Int
  bMax : Int
  lDecl : Nat
  deriving DecidableEq, Repr

/-- Read the descriptor at `a` (R181). -/
def State.svDesc (s : State) (a : Nat) : SvDesc :=
  let b (o : Nat) : Nat := (s.byte (a + o)).toNat
  let h (o : Nat) : Nat := leNat (s.bytes (a + o) 2)
  let w (o : Nat) : Nat := s.word (a + o)
  let i (o : Nat) : Int := toInt 32 (s.word (a + o))
  { op := b 0, n := b 1, r := b 2, flags := b 3, count := h 4, phases := h 6, phaseAdd := h 8, qa := b 0x0C, qb := b 0x0D,
    qx := b 0x0E, qf := b 0x0F, qr := b 0x10, inAddr := w 0x14, inStride := w 0x18, inPstride := w 0x1C, outAddr := w 0x20,
    outStride := w 0x24, outPstride := w 0x28, enAddr := w 0x2C, budget := w 0x30, tauRel := i 0x34, regRel := i 0x38,
    tauAbs := i 0x3C, tol := i 0x40, aMax := i 0x44, bMax := i 0x48, lDecl := w 0x4C }

def svTri (n : Nat) : Nat := n * (n + 1) / 2
def svPerm (n : Nat) : Nat := (n + 3) / 4
/-- The cost functions of R183. -/
def cChol (n : Nat) : Nat := n * (n + 1) * (n + 2) / 6 + 36 * n
def cLdlt (n : Nat) : Nat := n * (n + 1) * (n + 2) / 6 + n * (n - 1) / 2 + 20 * n
def cLu (n : Nat) : Nat := n * (n + 1) * (2 * n + 1) / 6 + 24 * n
def cTrs (n : Nat) : Nat := n * (n + 1) / 2 + 4 * n
def cIr (n : Nat) : Nat := 2 * n * n + 10 * n + 16
def cQpSet (n : Nat) : Nat := cChol n + 2 * n * n + 16 * n
def cQpIt (n : Nat) : Nat := 3 * n * n + 40 * n + 64

def SvDesc.fact (d : SvDesc) : Nat := bitsOf d.flags 4 2

/-- I, C and O of R182; `none` for an undefined OP. -/
def SvDesc.ico (d : SvDesc) : Option (Nat × Nat × Nat) :=
  let n := d.n
  let t := svTri n
  let p := svPerm n
  let out := bitOf d.flags 0
  match d.op with
  | 1 => some (t, cChol n, 4 + t)
  | 2 => some (t, cLdlt n, 4 + t)
  | 3 => some (n * n, cLu n, 4 + n * n + p)
  | 4 => some (t + d.r * n, 16 * n + d.r * cTrs n, 4 + d.r * n)
  | 5 => some (t + d.r * n, 16 * n + d.r * cTrs n, 4 + d.r * n)
  | 6 => some (t + d.r * n, cChol n + 2 * d.r * cTrs n, 4 + d.r * n + if out then t else 0)
  | 7 => some (t + d.r * n, cLdlt n + 2 * d.r * cTrs n + d.r * n, 4 + d.r * n + if out then t else 0)
  | 8 => some (n * n + d.r * n, cLu n + 2 * d.r * cTrs n, 4 + d.r * n + if out then n * n + p else 0)
  | 9 =>
    let aw := if d.fact = 2 then n * n else t
    let fw := if d.fact = 2 then n * n + p else t
    some (aw + fw + 2 * d.r * n, 16 * n + d.r * (n * n + 4 * n) + d.budget, 4 + d.r * n)
  | 10 => some (t + 4 * n, cQpSet n + d.budget, 8 + n)
  | _ => none

/-- L of R184. -/
def SvDesc.latency (d : SvDesc) : Nat :=
  match d.ico with
  | some (i, c, o) => 256 + (d.count + 15) / 16 * (i + c + o)
  | none => 256

/-! ### Lane arithmetic (R180) -/

/-- A value with the overflow marks that led to it: bit 0 OVF_ACC, bit 1 OVF_OUT. -/
structure Fx where
  v : Int
  o : Nat
  deriving DecidableEq, Repr

/-- Fraction bits of the accumulator of format `q`, and of a stored word. -/
def accF (q : Nat) : Nat := 63 - q
def wordF (q : Nat) : Nat := 31 - q

/-- Add rounded products to an accumulator, saturating at each sum (DEDUCED, log entry 10). -/
def accSum (a : Fx) (ts : List Int) : Fx :=
  ts.foldl (fun a t => ⟨satInt 80 (a.v + t), a.o ||| if overflows 80 (a.v + t) then 1 else 0⟩) a

/-- A product of words with `e` fraction bits in all, rounded into an accumulator with `f` (DEDUCED, log entry 10). -/
def prodF (f e : Nat) (x : Int) : Int := scaleR x ((f : Int) - e)

/-- A word of format `q` widened into an accumulator with `f` fraction bits. -/
def widen (f q : Nat) (x : Int) : Int := scaleR x ((f : Int) - wordF q)

/-- An accumulator with `f` fraction bits that starts at a word of format `q`, held to its 80 bits as every sum is (R180). -/
def accStart (f q : Nat) (x : Int) (o : Nat) : Fx :=
  ⟨satInt 80 (widen f q x), o ||| if overflows 80 (widen f q x) then 1 else 0⟩

/-- Round an accumulator with `f` fraction bits to a word of format `q` (DEDUCED, log entry 10). -/
def storeF (f q : Nat) (a : Fx) : Fx :=
  let r := scaleR a.v ((wordF q : Int) - f)
  ⟨satInt 32 r, a.o ||| if overflows 32 r then 2 else 0⟩

/-- A normalised 64-bit value `m × 2^e`. -/
structure Nrm where
  m : Int
  e : Int
  deriving DecidableEq, Repr

/-- `num ÷ den × 2^x`, normalised to 64 bits and rounded to nearest; both are positive. -/
def nrmDiv (num den : Nat) (x : Int) : Nrm :=
  let up (k : Int) : Nat := num * 2 ^ k.toNat
  let dn (k : Int) : Nat := den * 2 ^ (-k).toNat
  let k0 : Int := 63 - ((Nat.log2 num : Int) - Nat.log2 den)
  -- the exact quotient lies in [2^63, 2^64) before it is rounded
  let k := if up k0 / dn k0 < 2 ^ 63 then k0 + 1 else k0
  let m := roundDiv (up k) (dn k)
  if 2 ^ 64 ≤ m then ⟨2 ^ 63, x - k + 1⟩ else ⟨m, x - k⟩

/-- The reciprocal of a value with `f` fraction bits (DESIGN CHOICE, log entry 9; DEDUCED, log entry 10). -/
def recip (f : Nat) (v : Int) : Nrm :=
  if v = 0 then ⟨Config.recipZero f, 0⟩
  else
    let r := nrmDiv (2 ^ f) v.natAbs 0
    if v < 0 then ⟨-r.m, r.e⟩ else r

/-- The square root of a positive value with `f` fraction bits (DEDUCED, log entry 10). -/
def sqrtN (f : Nat) (v : Nat) : Nrm :=
  let k0 := 126 - Nat.log2 v
  let k := if (f + k0) % 2 = 0 then k0 else k0 + 1
  ⟨sqrtR (v * 2 ^ k), -(((f + k) / 2 : Nat) : Int)⟩

/-- The reciprocal of a normalised value. -/
def Nrm.inv (r : Nrm) : Nrm := nrmDiv 1 r.m.toNat (-r.e)

/-- An accumulator times a normalised value, rounded into the accumulator's format. -/
def accMul (a : Fx) (r : Nrm) : Fx :=
  let v := scaleR (a.v * r.m) r.e
  ⟨satInt 80 v, a.o ||| if overflows 80 v then 1 else 0⟩

/-- A normalised value as an accumulator with `f` fraction bits. -/
def Nrm.acc (r : Nrm) (f : Nat) : Int := scaleR r.m (r.e + f)

/-! ### Factorisations (R187, R190) -/

/-- A factor in progress: its elements by (row, column), the reciprocals held per pivot, the row permutation, the pivot
count, the first replaced pivot, the diagonal E that replacing pivots has added, in the accumulator's units, and the overflow and NOTPD
marks. -/
structure Factor where
  l : List (List Int)
  inv : List Nrm
  perm : List Nat
  pivots : Nat
  firstPiv : Nat
  ext : List Int
  o : Nat
  notPd : Bool
  deriving DecidableEq, Repr

/-- Element (i, j) of a matrix held by rows. -/
def mat (a : List (List Int)) (i j : Nat) : Int := (a.getD i []).getD j 0

/-- Set element (i, j). -/
def matSet (a : List (List Int)) (i j : Nat) (v : Int) : List (List Int) := updAt a i (fun r => r.set j v)

/-- τ and ρ of R190 in an accumulator with `f` fraction bits; `dmax` and TAU_ABS are words of format QM_A. -/
def SvDesc.tauRho (d : SvDesc) (f : Nat) (dmax : Int) : Int × Int :=
  let t := prodF f (30 + wordF d.qa) (d.tauRel * dmax)
  let g := prodF f (30 + wordF d.qa) (d.regRel * dmax)
  let a := widen f d.qa d.tauAbs
  (max t a, max g a)

/-- Note a replaced pivot at index `j`, to which the replacement has added `e`. -/
def Factor.pivot (x : Factor) (j : Nat) (notPd : Bool) (e : Int := 0) : Factor :=
  { x with ext := x.ext.set j (x.ext.getD j 0 + e), pivots := x.pivots + 1, firstPiv := if x.pivots = 0 then j else x.firstPiv, notPd := x.notPd || notPd }

/-- Column `j` of Cholesky (DEDUCED, log entry 10). -/
def SvDesc.cholCol (d : SvDesc) (a : List (List Int)) (tr : Int × Int) (x : Factor) (j : Nat) : Factor :=
  let f := accF d.qf
  let wf := wordF d.qf
  let p := accSum (accStart f d.qa (mat a j j) x.o)
    (x.ext.getD j 0 :: (List.range j).map (fun k => -prodF f (2 * wf) (mat x.l j k * mat x.l j k)))
  let small := decide (p.v < tr.1)
  let x := if small then x.pivot j (decide (p.v ≤ 0)) (tr.2 - p.v) else x
  let pv := if small then tr.2 else p.v
  let s := sqrtN f pv.toNat
  let r := s.inv
  let ljj := storeF f d.qf ⟨s.acc f, p.o⟩
  let x := { x with l := matSet x.l j j ljj.v, inv := x.inv ++ [r], o := ljj.o }
  (List.range (d.n - j - 1)).foldl (fun x t =>
    let i := j + 1 + t
    let q := accSum (accStart f d.qa (mat a i j) x.o)
      ((List.range j).map (fun k => -prodF f (2 * wf) (mat x.l i k * mat x.l j k)))
    let lij := storeF f d.qf (accMul q r)
    { x with l := matSet x.l i j lij.v, o := lij.o }) x

/-- Column `j` of LDLᵀ (DEDUCED, log entry 10). -/
def SvDesc.ldltCol (d : SvDesc) (a : List (List Int)) (tr : Int × Int) (x : Factor) (j : Nat) : Factor :=
  let f := accF d.qf
  let wf := wordF d.qf
  let p := accSum (accStart f d.qa (mat a j j) x.o)
    ((List.range j).map (fun k => -prodF f (3 * wf) (mat x.l j k * mat x.l j k * mat x.l k k)))
  let small := decide (p.v.natAbs < tr.1.toNat)
  let x := if small then x.pivot j false else x
  let pv := if small then (if p.v < 0 then -tr.2 else tr.2) else p.v
  let r := recip f pv
  let dj := storeF f d.qf ⟨pv, p.o⟩
  let x := { x with l := matSet x.l j j dj.v, inv := x.inv ++ [r], o := dj.o }
  (List.range (d.n - j - 1)).foldl (fun x t =>
    let i := j + 1 + t
    let q := accSum (accStart f d.qa (mat a i j) x.o)
      ((List.range j).map (fun k => -prodF f (3 * wf) (mat x.l i k * mat x.l k k * mat x.l j k)))
    let lij := storeF f d.qf (accMul q r)
    { x with l := matSet x.l i j lij.v, o := lij.o }) x

/-- Swap rows `i` and `j` of a list. -/
def swapAt {α : Type} [Inhabited α] (l : List α) (i j : Nat) : List α := (l.set i (l.getD j default)).set j (l.getD i default)

/-- Column `j` of LU with row selection (R190); `x.l` holds A's rows overwritten by the factor (DEDUCED, log entry 10). -/
def SvDesc.luCol (d : SvDesc) (tr : Int × Int) (x : Factor × List (List Int)) (j : Nat) : Factor × List (List Int) :=
  let f := accF d.qf
  let wf := wordF d.qf
  let (x, a) := x
  let cand (i : Nat) : Fx := accSum (accStart f d.qa (mat a i j) 0)
    ((List.range j).map (fun k => -prodF f (2 * wf) (mat x.l i k * mat x.l k j)))
  let best := (List.range (d.n - j)).foldl
    (fun b t => if (cand b).v.natAbs < (cand (j + t)).v.natAbs then j + t else b) j
  let os := (List.range (d.n - j)).foldl (fun o t => o ||| (cand (j + t)).o) x.o
  let a := swapAt a j best
  let x := { x with l := swapAt x.l j best, perm := swapAt x.perm j best, o := os }
  let p := (accSum (accStart f d.qa (mat a j j) 0) ((List.range j).map (fun k => -prodF f (2 * wf) (mat x.l j k * mat x.l k j)))).v
  let small := decide (p.natAbs < tr.1.toNat)
  let x := if small then x.pivot j false else x
  let pv := if small then (if p < 0 then -tr.2 else tr.2) else p
  let r := recip f pv
  let ujj := storeF f d.qf ⟨pv, x.o⟩
  let l0 := x.l
  let x := { x with l := matSet x.l j j ujj.v, inv := x.inv ++ [r], o := ujj.o }
  -- the row of U to the right of the pivot
  let x := (List.range (d.n - j - 1)).foldl (fun x t =>
    let c := j + 1 + t
    let q := accSum (accStart f d.qa (mat a j c) x.o)
      ((List.range j).map (fun k => -prodF f (2 * wf) (mat l0 j k * mat l0 k c)))
    let u := storeF f d.qf q
    { x with l := matSet x.l j c u.v, o := u.o }) x
  -- the column of L below the pivot
  let x := (List.range (d.n - j - 1)).foldl (fun x t =>
    let i := j + 1 + t
    let q := accSum (accStart f d.qa (mat a i j) x.o)
      ((List.range j).map (fun k => -prodF f (2 * wf) (mat l0 i k * mat l0 k j)))
    let l := storeF f d.qf (accMul q r)
    { x with l := matSet x.l i j l.v, o := l.o }) x
  (x, a)

def Factor.empty (n : Nat) : Factor :=
  { l := List.replicate n (List.replicate n 0), inv := [], perm := List.range n, pivots := 0, firstPiv := 0xFF, ext := List.replicate n 0, o := 0,
    notPd := false }

/-- d_max of R190: the largest |a_ii|, for LU the largest |a_ij|. -/
def SvDesc.dMax (d : SvDesc) (kind : Nat) (a : List (List Int)) : Int :=
  let elems : List Int := if kind = 2 then a.flatten else (List.range d.n).map (fun i => mat a i i)
  elems.foldl (fun m v => max m v.natAbs) (0 : Int)

/-- Factor a matrix: `kind` 0 Cholesky, 1 LDLᵀ, 2 LU. -/
def SvDesc.factor (d : SvDesc) (kind : Nat) (a : List (List Int)) : Factor :=
  let tr := d.tauRho (accF d.qf) (d.dMax kind a)
  if kind = 0 then (List.range d.n).foldl (d.cholCol a tr) (Factor.empty d.n)
  else if kind = 1 then (List.range d.n).foldl (d.ldltCol a tr) (Factor.empty d.n)
  else ((List.range d.n).foldl (d.luCol tr) (Factor.empty d.n, a)).1

/-! ### Substitutions (R187) -/

/-- Solve a lower triangle: x_i = (b_i − Σ l_ik x_k) × inv_i; `unit` takes the diagonal as 1 (DEDUCED, log entry 10). -/
def SvDesc.forward (d : SvDesc) (l : List (List Int)) (inv : Option (List Nrm)) (qb : Nat) (b : List Int) (o : Nat) :
    List Int × Nat :=
  let f := accF d.qx
  (List.range d.n).foldl (fun (x, o) i =>
    let q := accSum (accStart f qb (b.getD i 0) o)
      ((List.range i).map (fun k => -prodF f (wordF d.qf + wordF d.qx) (mat l i k * x.getD k 0)))
    let q := match inv with
      | some rs => accMul q (rs.getD i ⟨0, 0⟩)
      | none => q
    let w := storeF f d.qx q
    (x ++ [w.v], w.o)) ([], o)

/-- Solve an upper triangle from the last element: element (i, k), k > i, is `u i k`.  `scale` multiplies the sum by the
held reciprocal; `first` multiplies the right-hand side alone (D Lᵀ x = y) (DEDUCED, log entry 10). -/
def SvDesc.backward (d : SvDesc) (u : Nat → Nat → Int) (inv : List Nrm) (first : Bool) (qb : Nat) (b : List Int) (o : Nat) :
    List Int × Nat :=
  let f := accF d.qx
  (List.range d.n).foldl (fun (x, o) t =>
    let i := d.n - 1 - t
    let r := inv.getD i ⟨0, 0⟩
    let b0 : Fx := (accStart f qb (b.getD i 0) o)
    let b0 := if first then accMul b0 r else b0
    let q := accSum b0 ((List.range t).map (fun k =>
      -prodF f (wordF d.qf + wordF d.qx) (u i (i + 1 + k) * x.getD k 0)))
    let q := if first then q else accMul q r
    let w := storeF f d.qx q
    (w.v :: x, w.o)) ([], o)

/-- The reciprocals of a stored diagonal (DESIGN CHOICE, log entry 9). -/
def SvDesc.diagInv (d : SvDesc) (l : List (List Int)) : List Nrm :=
  (List.range d.n).map (fun i => recip (wordF d.qf) (mat l i i))

/-- Solve with a factor of `kind`: both substitutions, the permutation for LU (R187). -/
def SvDesc.solveWith (d : SvDesc) (kind : Nat) (x : Factor) (qb : Nat) (b : List Int) (o : Nat) : List Int × Nat :=
  let tr (i c : Nat) : Int := mat x.l c i
  if kind = 0 then
    let (y, o) := d.forward x.l (some x.inv) qb b o
    d.backward tr x.inv false d.qx y o
  else if kind = 1 then
    let (y, o) := d.forward x.l none qb b o
    d.backward tr x.inv true d.qx y o
  else
    let (y, o) := d.forward x.l none qb (x.perm.map (fun p => b.getD p 0)) o
    d.backward (mat x.l) x.inv false d.qx y o

/-! ### One problem -/

/-- The result of one problem: status words 0 to 3 and the words after them (R188). -/
structure SvResult where
  flags : Nat
  outcome : Nat
  resid : Nat
  iter : Nat
  pivots : Nat
  firstPiv : Nat
  words : List Int
  deriving DecidableEq, Repr

/-- Signed words of an input block from word `k`. -/
def vecAt (w : List Int) (k n : Nat) : List Int := (List.range n).map (fun i => w.getD (k + i) 0)

/-- A packed symmetric or triangular matrix from word `k` (R187), as full rows; `sym` mirrors it. -/
def packedAt (w : List Int) (k n : Nat) (sym : Bool) : List (List Int) :=
  (List.range n).map (fun i => (List.range n).map (fun j =>
    if j ≤ i then w.getD (k + svTri i + j) 0 else if sym then w.getD (k + svTri j + i) 0 else 0))

/-- A full matrix from word `k`. -/
def fullAt (w : List Int) (k n : Nat) : List (List Int) :=
  (List.range n).map (fun i => vecAt w (k + i * n) n)

/-- The packed words of a lower triangle. -/
def packWords (n : Nat) (l : List (List Int)) : List Int :=
  (List.range n).flatMap (fun i => (List.range (i + 1)).map (fun j => mat l i j))

/-- The permutation words of an LU factor (R187). -/
def permWords (n : Nat) (perm : List Nat) : List Int :=
  (List.range (svPerm n)).map (fun k =>
    (List.range 4).foldl (fun (v : Int) b => v + ((perm.getD (4 * k + b) 0 * 256 ^ b : Nat) : Int)) 0)

/-- The permutation of a given LU factor. -/
def permAt (w : List Int) (k n : Nat) : List Nat :=
  (List.range n).map (fun i => ofInt 32 (w.getD (k + i / 4) 0) / 256 ^ (i % 4) % 256)

/-- IN_RANGE (R191): an element larger in magnitude than its bound, unless the bound is 0x7FFF_FFFF. -/
def outOfBound (bound : Int) (vs : List Int) : Bool :=
  bound != 0x7FFFFFFF && vs.any (fun v => decide (bound < v.natAbs))

/-- The status of a finished problem: OUTCOME by the order of R189. -/
def svStatus (x : Factor) (o : Nat) (inRange conv dead abandoned warm infeas ecc : Bool) (resid iter : Nat)
    (words : List Int) : SvResult :=
  let b (c : Bool) (k : Nat) : Nat := if c then 2 ^ k else 0
  let degraded := o != 0
  let flags := b (x.pivots != 0) 8 + b x.notPd 9 + b inRange 10 + b (o % 2 == 1) 11 + b (decide (2 ≤ o)) 12 + b degraded 13 +
    b conv 14 + b dead 15 + b abandoned 16 + b warm 17 + b infeas 18 + b ecc 19
  { flags, outcome := if infeas then 4 else if dead then 3 else if degraded then 2 else if x.pivots != 0 then 1 else 0,
    resid, iter, pivots := x.pivots, firstPiv := x.firstPiv, words }

/-- The residual b − A x of one side as accumulators with the fraction bits of QM_R (DEDUCED, log entry 10). -/
def SvDesc.residual (d : SvDesc) (a : List (List Int)) (b x : List Int) (o : Nat) : List Int × Nat :=
  let f := accF d.qr
  (List.range d.n).foldl (fun (r, o) i =>
    let q := accSum (accStart f d.qb (b.getD i 0) o)
      ((List.range d.n).map (fun k => -prodF f (wordF d.qa + wordF d.qx) (mat a i k * x.getD k 0)))
    let w := storeF f d.qr q
    (r ++ [w.v], w.o)) ([], o)

/-- Largest magnitude of a vector. -/
def normInf (v : List Int) : Nat := v.foldl (fun m x => max m x.natAbs) 0

/-- One side of REFINE: its current and best iterate with their residual norms (R193). -/
structure RefSide where
  b : List Int
  x : List Int
  res : List Int
  best : List Int
  bestNorm : Nat
  deriving DecidableEq, Repr

/-- One REFINE iteration of a side (DEDUCED, log entry 10). -/
def SvDesc.refStep (d : SvDesc) (a : List (List Int)) (kind : Nat) (fac : Factor) (s : RefSide) (o : Nat) : RefSide × Nat :=
  let (dx, o) := d.solveWith kind fac d.qr s.res o
  let sums := (List.range d.n).map (fun i => s.x.getD i 0 + dx.getD i 0)
  let x := sums.map (satInt 32)
  let o := o ||| if sums.any (overflows 32) then 2 else 0
  let (r, o) := d.residual a s.b x o
  let nr := normInf r
  let s := { s with x, res := r }
  (if nr < s.bestNorm then { s with best := x, bestNorm := nr } else s, o)

/-- Iterate REFINE at most `k` times; the results are the sides, marks, completed iterations and convergence. -/
def SvDesc.refLoop (d : SvDesc) (a : List (List Int)) (kind : Nat) (fac : Factor) :
    Nat → List RefSide → Nat → Nat → List RefSide × Nat × Nat × Bool
  | k, ss, o, it =>
    if ss.all (fun s => decide ((s.bestNorm : Int) ≤ d.tol)) then (ss, o, it, true)
    else match k with
      | 0 => (ss, o, it, false)
      | k + 1 =>
        let (ss, o) := ss.foldl (fun (acc, o) s => let (s, o) := d.refStep a kind fac s o; (acc ++ [s], o)) ([], o)
        SvDesc.refLoop d a kind fac k ss o (it + 1)

/-- The QP iterate (R194): x, the active bounds (`none` free, `some true` at lo, `some false` at hi), the gradient with the
fraction bits of QM_R words, marks. -/
structure QpState where
  x : List Int
  act : List (Option Bool)
  grad : List Int
  o : Nat
  full : Bool
  pivots : Nat
  firstPiv : Nat
  notPd : Bool
  deriving DecidableEq, Repr

/-- The gradient H x + g in QM_R words. -/
def SvDesc.qpGrad (d : SvDesc) (h : List (List Int)) (g x : List Int) (o : Nat) : List Int × Nat :=
  let f := accF d.qr
  (List.range d.n).foldl (fun (r, o) i =>
    let q := accSum (accStart f d.qb (g.getD i 0) o)
      ((List.range d.n).map (fun k => prodF f (wordF d.qa + wordF d.qx) (mat h i k * x.getD k 0)))
    let w := storeF f d.qr q
    (r ++ [w.v], w.o)) ([], o)

/-- The violation of one variable's optimality condition: free gradients, and multipliers of the wrong sign (R194).
A variable whose bounds coincide has none. -/
def qpViol (lo hi : Int) (act : Option Bool) (gr : Int) : Nat :=
  match act with
  | none => gr.natAbs
  | some atLo => if lo = hi then 0 else if atLo then (if gr < 0 then gr.natAbs else 0) else (if 0 < gr then gr.natAbs else 0)

/-- The KKT residual. -/
def SvDesc.qpKkt (d : SvDesc) (lo hi : List Int) (q : QpState) : Nat :=
  (List.range d.n).foldl (fun m i => max m (qpViol (lo.getD i 0) (hi.getD i 0) (q.act.getD i none) (q.grad.getD i 0))) 0

/-- One QP_BOX iteration (R194 steps 3 and 4): the step solves, on the free variables, the matrix that set-up factored, H + E, by Cholesky
under R190 with the problem's τ and ρ; `ext` is E (DEDUCED, log entry 10). -/
def SvDesc.qpStep (d : SvDesc) (h : List (List Int)) (ext : List Int) (g lo hi : List Int) (q : QpState) : QpState :=
  let free := (List.range d.n).filter (fun i => q.act.getD i none == none)
  let sub : SvDesc := { d with n := free.length }
  let hf := free.map (fun i => free.map (fun j => mat h i j))
  let tr := d.tauRho (accF d.qf) (d.dMax 0 h)
  let fac := (List.range sub.n).foldl (sub.cholCol hf tr) { Factor.empty sub.n with ext := free.map (fun i => ext.getD i 0) }
  let q := { q with
    pivots := q.pivots + fac.pivots
    firstPiv := if q.firstPiv = 0xFF && fac.pivots != 0 then free.getD fac.firstPiv 0xFF else q.firstPiv
    notPd := q.notPd || fac.notPd }
  let (st, o) := sub.solveWith 0 fac d.qr (free.map (fun i => -(q.grad.getD i 0))) (q.o ||| fac.o)
  let step (i : Nat) : Int := st.getD (free.idxOf i) 0
  -- the longest step α = num ÷ den ≤ 1 that stays in the box, lowest index among equals
  let block := free.foldl (fun (b : Option (Nat × Int × Int)) i =>
    let dx := step i
    let x := q.x.getD i 0
    let room := if dx < 0 then x - lo.getD i 0 else hi.getD i 0 - x
    if (dx.natAbs : Int) ≤ room then b
    else match b with
      | some (_, n, dn) => if room * dn < n * dx.natAbs then some (i, room, (dx.natAbs : Int)) else b
      | none => some (i, room, (dx.natAbs : Int))) none
  match block with
  | none =>
    let x := (List.range d.n).map (fun i => q.x.getD i 0 + if free.contains i then step i else 0)
    let (gr, o) := d.qpGrad h g x o
    let neg (i : Nat) : Nat := match q.act.getD i none with
      | none => 0
      | some _ => qpViol (lo.getD i 0) (hi.getD i 0) (q.act.getD i none) (gr.getD i 0)
    let worst := (List.range d.n).foldl (fun b i => if neg b < neg i then i else b) 0
    let act := if 0 < neg worst then q.act.set worst none else q.act
    { q with x, act, grad := gr, o, full := true }
  | some (bi, num, den) =>
    let x := (List.range d.n).map (fun i =>
      if i = bi then (if step i < 0 then lo.getD i 0 else hi.getD i 0)
      else if free.contains i then
        max (lo.getD i 0) (min (hi.getD i 0) (q.x.getD i 0 + roundDiv (step i * num) den))
      else q.x.getD i 0)
    let (gr, o) := d.qpGrad h g x o
    { q with x, act := q.act.set bi (some (decide (step bi < 0))), grad := gr, o, full := false }

/-- Iterate QP_BOX at most `k` times. -/
def SvDesc.qpLoop (d : SvDesc) (h : List (List Int)) (ext : List Int) (g lo hi : List Int) : Nat → QpState → Nat → QpState × Nat × Bool
  | 0, q, it => (q, it, false)
  | k + 1, q, it =>
    let q := d.qpStep h ext g lo hi q
    if q.full && decide ((d.qpKkt lo hi q : Int) ≤ d.tol) then (q, it + 1, true) else SvDesc.qpLoop d h ext g lo hi k q (it + 1)

/-- ACTIVE_LO and ACTIVE_HI as two words each (R187). -/
def activeWords (n : Nat) (x b : List Int) : List Int :=
  let v := (List.range n).foldl (fun v i => v + if x.getD i 0 = b.getD i 0 then 2 ^ i else 0) 0
  [((v % 2 ^ 32 : Nat) : Int), ((v / 2 ^ 32 : Nat) : Int)]

/-- Solve one problem from its input words (R182, R187, R188).  In the initial active set of QP_BOX every bound that the start value touches is active
(DESIGN CHOICE, log entry 94). -/
def SvDesc.problem (d : SvDesc) (w : List Int) (ecc : Bool) : SvResult :=
  let n := d.n
  let t := svTri n
  let sides (k : Nat) : List (List Int) := (List.range d.r).map (fun q => vecAt w (k + q * n) n)
  let none3 := Factor.empty n
  let direct (x : Factor) (o : Nat) (rng : Bool) (words : List Int) : SvResult :=
    svStatus x o rng false false false false false ecc 0 0 words
  let solveAll (kind : Nat) (x : Factor) (bs : List (List Int)) : List Int × Nat :=
    bs.foldl (fun (acc, o) b => let (y, o) := d.solveWith kind x d.qb b o; (acc ++ y, o)) ([], x.o)
  let factorOut (kind : Nat) (x : Factor) : List Int :=
    if kind = 2 then x.l.flatten ++ permWords n x.perm else packWords n x.l
  let fact (kind : Nat) : SvResult :=
    let a := if kind = 2 then fullAt w 0 n else packedAt w 0 n true
    let x := d.factor kind a
    direct x x.o (outOfBound d.aMax (w.take (if kind = 2 then n * n else t))) (factorOut kind x)
  let solve (kind : Nat) : SvResult :=
    let len := if kind = 2 then n * n else t
    let a := if kind = 2 then fullAt w 0 n else packedAt w 0 n true
    let x := d.factor kind a
    let (ys, o) := solveAll kind x (sides len)
    direct x o (outOfBound d.aMax (w.take len) || outOfBound d.bMax (vecAt w len (d.r * n)))
      (ys ++ if bitOf d.flags 0 then factorOut kind x else [])
  match d.op with
  | 1 => fact 0
  | 2 => fact 1
  | 3 => fact 2
  | 4 =>
    let l := packedAt w 0 n false
    let inv := if bitOf d.flags 1 then none else some (d.diagInv l)
    let (ys, o) := (sides t).foldl (fun (acc, o) b => let (y, o) := d.forward l inv d.qb b o; (acc ++ y, o)) ([], 0)
    direct none3 o (outOfBound d.bMax (vecAt w t (d.r * n))) ys
  | 5 =>
    let l := packedAt w 0 n false
    let (ys, o) := (sides t).foldl (fun (acc, o) b =>
      let (y, o) := d.backward (fun i c => mat l c i) (d.diagInv l) (bitOf d.flags 1) d.qb b o; (acc ++ y, o)) ([], 0)
    direct none3 o (outOfBound d.bMax (vecAt w t (d.r * n))) ys
  | 6 => solve 0
  | 7 => solve 1
  | 8 => solve 2
  | 9 =>
    let kind := d.fact
    let aw := if kind = 2 then n * n else t
    let fw := if kind = 2 then n * n + svPerm n else t
    let a := if kind = 2 then fullAt w 0 n else packedAt w 0 n true
    let l := if kind = 2 then fullAt w aw n else packedAt w aw n false
    let fac : Factor := { none3 with l, inv := d.diagInv l, perm := if kind = 2 then permAt w (aw + n * n) n else List.range n }
    let x0 := (List.range d.r).map (fun q => vecAt w (aw + fw + (d.r + q) * n) n)
    let (ss, o) := (List.zip (sides (aw + fw)) x0).foldl (fun (acc, o) (b, x) =>
      let (r, o) := d.residual a b x o
      (acc ++ [({ b, x, res := r, best := x, bestNorm := normInf r } : RefSide)], o)) ([], 0)
    let c := d.r * cIr n
    let (ss, o, it, conv) := d.refLoop a kind fac (d.budget / c) ss o 0
    svStatus none3 o (outOfBound d.aMax (w.take aw) || outOfBound d.bMax (vecAt w (aw + fw) (d.r * n))) conv (!conv)
      (!conv && decide (d.budget / c * c < d.budget)) false false ecc
      (ss.foldl (fun m s => max m s.bestNorm) 0) it (ss.flatMap (fun s => s.best))
  | 10 =>
    let h := packedAt w 0 n true
    let g := vecAt w t n
    let lo := vecAt w (t + n) n
    let hi := vecAt w (t + 2 * n) n
    let rng := outOfBound d.aMax (w.take t) || outOfBound d.bMax g
    if (List.range n).any (fun i => decide (hi.getD i 0 < lo.getD i 0)) then
      svStatus none3 0 rng false false false false true ecc 0 0 (List.replicate (n + 4) 0)
    else
      let fac := d.factor 0 h
      let x0 := if bitOf d.flags 2 then vecAt w (t + 3 * n) n else List.replicate n 0
      let x := (List.range n).map (fun i => max (lo.getD i 0) (min (hi.getD i 0) (x0.getD i 0)))
      let act := (List.range n).map (fun i =>
        if x.getD i 0 = lo.getD i 0 then some true else if x.getD i 0 = hi.getD i 0 then some false else none)
      let (gr, o) := d.qpGrad h g x fac.o
      let c := cQpIt n
      let (q, it, conv) := d.qpLoop h fac.ext g lo hi (d.budget / c)
        { x, act, grad := gr, o, full := false, pivots := fac.pivots, firstPiv := fac.firstPiv, notPd := fac.notPd } 0
      svStatus { fac with pivots := q.pivots, firstPiv := q.firstPiv, notPd := q.notPd } q.o rng conv (!conv) (!conv && decide (d.budget / c * c < d.budget)) (x != x0) false ecc
        (d.qpKkt lo hi q) it (q.x ++ activeWords n q.x lo ++ activeWords n q.x hi)
  | _ => direct none3 0 false []

/-! ### The call (R184 to R186, R195, R196) -/

/-- The slice in force (R185). -/
def State.svSlice (s : State) (d : SvDesc) : Nat := (s.tb.frameNo + d.phaseAdd) % d.phases

/-- Status words 0 to 3 of a result (R188). -/
def SvResult.status (r : SvResult) : List Int :=
  [((r.flags + r.outcome : Nat) : Int), (r.resid : Int), ((r.iter % 65536 + r.pivots * 65536 : Nat) : Int), (r.firstPiv : Int)]

/-- Bytes of signed words. -/
def wordBytes (ws : List Int) : Bytes := ws.flatMap (fun v => leBytes 4 (ofInt 32 v))

/-- Problem `k` of slice `j`: what the summary takes of it and the words of its output block to be stored; a skipped problem stores only its
status word (R186).  `bad` names the input words an uncorrectable error was read in, whose values are free values (R197). -/
def State.svProblem (s : State) (d : SvDesc) (j k : Nat) (bad : List Nat) : State × Tally × List Nat :=
  let inA := d.inAddr + j * d.inPstride + k * d.inStride
  let en := d.enAddr = 0 ∨ bitOf (s.word (d.enAddr + j * 32 * ((d.count + 255) / 256) + k / 32 * 4)) (k % 32) = true
  if en then
    let cnt := match d.ico with | some (i, _, _) => i | none => 0
    let (s, w) := s.readBad ((List.range cnt).map (fun i => s.word (inA + 4 * i))) bad
    let r := d.problem (w.map (toInt 32)) (!bad.isEmpty)
    (s, { flags := r.flags, outcome := r.outcome, iter := r.iter, resid := r.resid }, (r.status ++ r.words).map (ofInt 32))
  else (s, { flags := 0, outcome := 5, iter := 0, resid := 0 }, [5])

/-- The output block of problem `k` as the digest covers it (R196). -/
def State.svBlock (s : State) (d : SvDesc) (j k : Nat) : Bytes :=
  let o := match d.ico with | some (_, _, o) => o | none => 0
  s.bytes (d.outAddr + j * d.outPstride + k * d.outStride) (4 * o)

/-- The summary bytes of a call (R195). -/
def svSummary (frame start j : Nat) (d : SvDesc) (rs : List Tally) : Bytes :=
  let cnt (c : Nat) : Nat := (rs.filter (fun r => r.outcome == c)).length
  let orAll := rs.foldl (fun v r => v ||| r.flags) 0
  let maxIt := rs.foldl (fun m r => max m r.iter) 0
  let maxRes := rs.foldl (fun m r => max m r.resid) 0
  leBytes 4 frame ++ leBytes 4 start ++ leBytes 2 j ++ leBytes 2 d.count ++
    (List.range 6).flatMap (fun c => leBytes 2 (cnt c)) ++ leBytes 4 orAll ++ leBytes 2 maxIt ++
    leBytes 2 (rs.findIdx (fun r => r.resid == maxRes)) ++ leBytes 4 maxRes

/-- Raise the SV_STATUS flags of the problems of a wave (R204). -/
def State.svFlags (s : State) (rs : List Tally) : State :=
  let orAll := rs.foldl (fun v r => v ||| r.flags) 0
  let up (s : State) (row : RegRow) (c : Bool) : State := if c then s.wr row 1 else s
  up (up (up (up (up (up (up s R.SV_STATUS_PIVOT_ANY (bitOf orAll 8)) R.SV_STATUS_NOTPD_ANY (bitOf orAll 9))
    R.SV_STATUS_IN_RANGE_ANY (bitOf orAll 10)) R.SV_STATUS_OVF_ANY (bitOf orAll 13))
    R.SV_STATUS_DEADLINE_ANY (bitOf orAll 15)) R.SV_STATUS_INFEAS_ANY (bitOf orAll 18)) R.SV_STATUS_ECC_UNC (bitOf orAll 19)

/-! ### The waves of a call (R184) -/

/-- The problems of wave `w`. -/
def SvDesc.wave (d : SvDesc) (w : Nat) : List Nat := (List.range 16).filterMap (fun k => if 16 * w + k < d.count then some (16 * w + k) else none)

/-- The problems of a list solved in order: what the summary takes of each, and their blocks. -/
def State.svSolve (s : State) (d : SvDesc) (j : Nat) (bad : List (Nat × Nat)) : List Nat → State × List Tally × List (List Nat)
  | [] => (s, [], [])
  | k :: ks =>
    let (s, r, b) := s.svProblem d j k ((bad.filter (fun e => e.1 == k)).map (·.2))
    let (s, rs, bs) := State.svSolve s d j bad ks
    (s, r :: rs, b :: bs)

/-- Every lane of wave `w` has loaded its input words: the problems' results stand in the lanes, their flags are raised (R184, R197). -/
def State.waveLoad (s : State) (x : Call) (w : Nat) : State :=
  let d := s.svDesc x.desc
  let (s, rs, bs) := s.svSolve d (s.svSlice d) x.bad (d.wave w)
  (s.svFlags rs).updCall x.engine x.start (fun x => { x with blocks := bs, tally := x.tally ++ rs })

/-- Every lane of wave `w` stores word `k` of its output block (R184); a skipped problem has only its status word (R186). -/
def State.waveStore (s : State) (x : Call) (w k : Nat) : State :=
  let d := s.svDesc x.desc
  let j := s.svSlice d
  ((d.wave w).zip x.blocks).foldl (fun s pb =>
    match pb.2[k]? with
    | some v => s.setWord (d.outAddr + j * d.outPstride + pb.1 * d.outStride + 4 * k) v
    | none => s) s

/-- A finished call on logical unit `u`: the summary block, SV_CALLS, and the 32 bytes for the digest (R195, R196). -/
def State.solverDone (s : State) (u : Nat) (x : Call) : State × Bytes :=
  let d := s.svDesc x.desc
  let j := s.svSlice d
  let sumA := Config.storeBase + 0x10000 + 0x100 * u
  let s := s.setBytes sumA (svSummary s.tb.frameNo x.start j d x.tally)
  let h := (List.range d.count).flatMap (s.svBlock d j) ++ s.bytes sumA 256
  (s.inc R.SV_CALLS u, (leBytes 48 (Config.sha384 h)).take 32)

/-! ### Descriptor checks (R198) -/

/-- A descriptor inside the limits of R198 that a single call can break. -/
def SvDesc.limitsOk (d : SvDesc) : Bool :=
  let iterative := d.op == 9 || d.op == 10
  let rOk := if d.op ≤ 3 || d.op == 10 then d.r == 0 else decide (1 ≤ d.r) && decide (d.r ≤ 8)
  let inRange := d.ico.isSome && decide (1 ≤ d.n) && decide (d.n ≤ 48) && rOk && decide (1 ≤ d.count) && decide (d.count ≤ 4096) &&
    decide (1 ≤ d.phases) && decide (d.phases ≤ 1000) && decide (d.phaseAdd < d.phases) &&
    [d.qa, d.qb, d.qx, d.qf, d.qr].all (fun q => decide (q ≤ 30)) && !(d.op == 9 && d.fact == 3)
  let c := if d.op = 9 then d.r * cIr d.n else cQpIt d.n
  let budgetOk := if iterative then decide (c ≤ d.budget) else d.budget == 0
  let pivOk := decide (1 ≤ d.tauAbs) && decide (d.tauRel ≤ d.regRel) && decide (d.regRel ≤ 2 ^ 30)
  inRange && budgetOk && pivOk && d.lDecl == d.latency

/-- The blocks of every slice lie in their areas, strides fit, and no output overlaps (R198). -/
def SvDesc.blocksOk (d : SvDesc) : Bool :=
  match d.ico with
  | none => false
  | some (i, _, o) =>
    let up (w : Nat) : Nat := (4 * w + 31) / 32 * 32
    let slices := List.range d.phases
    let ks := List.range d.count
    let ins := slices.flatMap (fun j => ks.map (fun k => d.inAddr + j * d.inPstride + k * d.inStride))
    let outs := slices.flatMap (fun j => ks.map (fun k => d.outAddr + j * d.outPstride + k * d.outStride))
    let bmp := 32 * ((d.count + 255) / 256)
    let operand (a n : Nat) : Bool := decide (0x01100000 ≤ a) && decide (a + n ≤ 0x02800000)
    let strides := [d.inStride, d.inPstride, d.outStride, d.outPstride].all (fun x => x % 32 == 0) &&
      d.inAddr % 32 == 0 && d.outAddr % 32 == 0 && d.enAddr % 32 == 0 &&
      decide (up i ≤ d.inStride) && decide (up o ≤ d.outStride) && decide (up i ≤ d.inPstride) && decide (up o ≤ d.outPstride)
    strides && outs.all (fun a => operand a (4 * o)) &&
      ins.all (fun a => decide (0x01100000 ≤ a) && decide (a + 4 * i ≤ 0x03000000)) &&
      (d.enAddr == 0 || slices.all (fun j => operand (d.enAddr + j * bmp) bmp)) &&
      outs.all (fun a => ins.all (fun b => decide (a + 4 * o ≤ b) || decide (b + 4 * i ≤ a))) &&
      decide (outs.length ≤ 1 ∨ (outs.zipIdx.all (fun (a, x) => outs.zipIdx.all (fun (b, y) =>
        x == y || decide (a + 4 * o ≤ b) || decide (b + 4 * o ≤ a))) = true))

end Sys2Proof.Machine
end

