-- ==== Sys2Proof/Machine/TimeBase.lean ====
section
/-! DEFINITION. The time base (R38 to R47, R62, R63), the frame period (R49, R53) and the configuration of lock groups
(R54, R55, R59, R60).  A lock group's firing stands in Machine/LockGroups.lean. -/

namespace Sys2Proof.Machine

open Sys2Proof

/-! ### Reference sources -/

/-- Leave the external source or an internal oscillator for internal oscillator `v` (DEDUCED, log entry 31). -/
def State.refTo (s : State) (v : Nat) : State :=
  let s := (s.wr R.TB_STATUS_REF_ACTIVE v).wr R.TB_STATUS_EXT_LOCK 0
  { s with tb := { s.tb with oscOrder := none, extOrdered := false } }

/-- R42: the external source is lost: the primary takes over and EXT_LOST is set. -/
def State.extLost (s : State) : State := (s.refTo 0).wr R.TB_OSC_EVENT_EXT_LOST 1

/-- R40: the other internal oscillator takes over without losing a tb; UNPLANNED is set, the failed one leaves its
monitor limits and is counted as a used spare by the health controller (DEDUCED, log entry 31). -/
def execUnplannedOscSwitch (s : State) : Next := .next <|
  match s.rd R.TB_STATUS_REF_ACTIVE with
  | 0 => (((((s.refTo 1).wr R.TB_STATUS_PRIMARY_OK 0).wr R.TB_OSC_EVENT_UNPLANNED 1).hsUse 9)).journal 0 .oscSwitch [0, 1]
  | 1 => (((((s.refTo 0).wr R.TB_STATUS_SPARE_OK 0).wr R.TB_OSC_EVENT_UNPLANNED 1).hsUse 9)).journal 0 .oscSwitch [1, 0]
  | _ => s.extLost

/-- An oscillator switch to `v` is ordered for the guard band of the first frame that begins after now (R41). -/
def State.orderOsc (s : State) (v : Nat) : State :=
  { s with tb := { s.tb with oscOrder := some (v, s.tb.frameNo), extOrdered := false } }

/-- R41: an ordered switch takes place in the guard band of the first frame that began after the order (DEDUCED, log entry 31). -/
def execPlannedOscSwitch (s : State) : Next := .next <|
  match s.tb.oscOrder with
  | some (v, f) => if f < s.tb.frameNo then ((s.toFrc (s.tb.lastTick + s.P * 19 / 20)).refTo v).wr R.TB_OSC_EVENT_PLANNED 1 else s
  | none => s

/-- What a write of TB_CTRL.REF_SEL orders: 3 is ignored, the external source is taken only in STOP (R38, R42). -/
def State.refSel (s : State) (v : Nat) : State :=
  match v % 4 with
  | 2 => if s.inStop then
           let s := s.wr R.TB_CTRL_REF_SEL 2
           { s with tb := { s.tb with oscOrder := none, extOrdered := true } }
         else s
  | 3 => s
  | v => let s := s.wr R.TB_CTRL_REF_SEL v
         if s.rd R.TB_STATUS_REF_ACTIVE = v then { s with tb := { s.tb with oscOrder := none, extOrdered := false } }
         else s.orderOsc v

/-- A write of TB_CTRL.REF_SEL (R38, R41, R42). -/
def execRefSelWrite (v : Nat) (s : State) : Next := .next (s.refSel v)

/-- R42: the loop locks to the ordered external source, which is then in use (DEDUCED, log entry 31).  A loop that locks once the unit
has left STOP is not taken (DESIGN CHOICE, log entry 87). -/
def execExternalLock (s : State) : Next := .next <|
  if s.tb.extOrdered && s.inStop then
    let s := (s.wr R.TB_STATUS_EXT_LOCK 1).wr R.TB_STATUS_REF_ACTIVE 2
    { s with tb := { s.tb with extOrdered := false } }
  else s

/-- R42: the external signal is lost or leaves its range. -/
def execExternalRefLost (s : State) : Next := .next <|
  if s.rd R.TB_STATUS_REF_ACTIVE = 2 then s.extLost else s

/-! ### Free-running counter and time of day -/

/-- R44: capture FRC and TOD in the same tb. -/
def State.snap (s : State) : State :=
  let s := s.wr64 R.TB_SNAP_FRC_LO R.TB_SNAP_FRC_HI s.tb.frc
  let s := s.wr64 R.TB_SNAP_SEC_LO R.TB_SNAP_SEC_HI s.tb.sec
  (s.wr R.TB_SNAP_NS s.tb.ns).wr R.TB_SNAP_FRAC s.tb.frac

/-- A write of 1 to TB_CTRL.SNAP (R44). -/
def execSnap (s : State) : Next := .next s.snap

/-- R44: a read of TB_FRC_LO answers the low word and copies the high word into the shadow. -/
def execFrcLoRead (s : State) : Next := .next
  { s with rdata := s.tb.frc % 2 ^ 32, tb := { s.tb with frcShadow := s.tb.frc / 2 ^ 32 % 2 ^ 32 } }

/-- The pair mechanism owns the increment and the TODSET registers on a unit that follows (R344). -/
def State.pairOwns (s : State) : Bool := s.role == .standby || s.role == .syncing

/-- The servo owns the increment and the TODSET registers (R337), or the pair mechanism in its way (R344). -/
def State.servoOwns (s : State) : Bool := (s.rd R.PT_SERVO_MODE == 1 && s.rd R.PT_STATUS_STATE != 0) || s.pairOwns

/-- R46: limits of the increment in 2⁻³² ns: 9.990 ns and 10.010 ns. -/
def incMin : Nat := 42906723288
def incMax : Nat := 42992622632

/-- Set the increment, clamped to R46's limits with INC_CLAMP (DEDUCED, log entry 69). -/
def State.setInc (s : State) (u : Nat) : State :=
  let c := max incMin (min incMax u)
  let s := (s.wr R.TB_INC_NS (c / 2 ^ 32)).wr R.TB_INC_FRAC c
  if c = u then s else s.wr R.TB_STATUS_INC_CLAMP 1

/-- A write of TB_INC_NS (`frac` false) or TB_INC_FRAC (R46), ignored while the servo owns them (R337). -/
def execTbIncWrite (frac : Bool) (v : Nat) (s : State) : Next := .next <|
  if s.servoOwns then s.wr R.PT_STATUS_SW_IGNORED 1
  else if frac then s.setInc (s.rd R.TB_INC_NS * 2 ^ 32 + v % 2 ^ 32)
  else s.setInc (v % 32 * 2 ^ 32 + s.rd R.TB_INC_FRAC)

/-- The step the TB_TODSET registers hold now; nanoseconds are clamped (R64). -/
def State.todsetRegs (s : State) : TodStep :=
  { sec := s.rd64 R.TB_TODSET_SEC_LO R.TB_TODSET_SEC_HI, ns := min 999999999 (s.rd R.TB_TODSET_NS),
    frac := s.rd R.TB_TODSET_FRAC, at_ := s.rd64 R.TB_TODSET_AT_LO R.TB_TODSET_AT_HI }

/-- TOD takes a step; TOD_VALID is 1 after it (R47). -/
def State.applyStep (s : State) (t : TodStep) : State :=
  let s := s.wr R.TB_STATUS_TOD_VALID 1
  { s with tb := { s.tb with sec := t.sec, ns := t.ns, frac := t.frac, step := none, stepAt := some s.tb.frc } }

/-- R47: NOW applies the registers as they stand and cancels any waiting step (DEDUCED, log entry 69). -/
def State.todNow (s : State) : State := s.applyStep s.todsetRegs

/-- A write of 1 to TB_TODSET.NOW (R47, R337). -/
def execTodsetNow (s : State) : Next := .next <|
  if s.servoOwns then s.wr R.PT_STATUS_SW_IGNORED 1 else s.todNow

/-- R47: arm a step, replacing a waiting one; a step whose AT has passed is not applied and sets SET_PAST. -/
def State.todArm (s : State) (t : TodStep) : State :=
  if t.at_ < s.tb.frc then { s.wr R.TB_STATUS_SET_PAST 1 with tb := { s.tb with step := none } }
  else { s with tb := { s.tb with step := some t } }

/-- A write of 1 to TB_TODSET.ARM (R47, R337). -/
def execTodsetArm (s : State) : Next := .next <|
  if s.servoOwns then s.wr R.PT_STATUS_SW_IGNORED 1 else s.todArm s.todsetRegs

/-- R47: the armed step applies at the tb at which the FRC equals its AT. -/
def execTodStepApply (s : State) : Next := .next <|
  match s.tb.step with
  | some t =>
    let s := (s.toFrc t.at_).applyStep t
    if s.servoOwns then s.wr R.PT_STATUS_STEPPED 1 else s
  | none => s

/-! ### Frame period -/

/-- R49, R53: a write of TT_FRAME_PERIOD. -/
def execFramePeriodWrite (w : Nat) (s : State) : Next := .next <|
  if !s.lockOpen then s
  else
    let n := bitsOf w 0 11
    let d := bitsOf w 16 8 + 1
    if s.inStop && decide (25 ≤ n) && decide (n ≤ 2000) && decide (n * 1000 % d = 0) then
      (s.wr R.TT_FRAME_PERIOD n).wr R.TT_FRAME_PERIOD_SUBFRAMES (d - 1)
    else s.wr R.TT_ALIGN_STATUS_CFG_ERR 1

/-! ### Lock groups: configuration -/

/-- TB_LG.N reads 1 for 0 (R64). -/
def State.lgN (s : State) (g : Nat) : Nat := max 1 (s.rd R.TB_LG_N g)

/-- A frame that periodic group `g` selects: its number modulo N equals PHASE, itself taken modulo N (R54, R64). -/
def State.lgSelects (s : State) (g frame : Nat) : Bool := frame % s.lgN g == s.rd R.TB_LG_PHASE g % s.lgN g

/-- A member entry valid for group `g`: its kind and index. -/
def State.lgMembers (s : State) (g : Nat) : List (Nat × Nat) :=
  ((List.range 512).filter (fun m => s.bit R.TB_LGM_VALID m && s.rd R.TB_LGM_LG m == g)).map
    (fun m => (s.rd R.TB_LGM_KIND m, s.rd R.TB_LGM_INDEX m))

/-- Whether some valid entry other than `m` names this member. -/
def State.lgNamed (s : State) (kind index m : Nat) : Bool :=
  (List.range 512).any (fun k =>
    k != m && s.bit R.TB_LGM_VALID k && s.rd R.TB_LGM_KIND k == kind && s.rd R.TB_LGM_INDEX k == index)

/-- Whether some valid entry makes this a member of a lock group. -/
def State.isMember (s : State) (kind index : Nat) : Bool := s.lgNamed kind index 512

/-- R55, R56: the indices a kind may have. -/
def lgCount : Nat → Nat
  | 1 => 96 | 2 => 96 | 3 => 32 | 4 => 28 | 5 => 8 | 6 => 8 | 7 => 1 | _ => 0

/-- R59: a group with a SAMPLE strobe member must be in mode 1 with OFFSET 0. -/
def State.lgStrobeOk (s : State) (g mode offset : Nat) : Bool :=
  !((s.lgMembers g).any (fun m => m.1 == 6)) || (mode == 1 && offset == 0)

/-- R54, R59, R64: a write of word `word` (byte offset within the group) of lock group `g`.  An armed one-shot stays armed when its
MODE, TIME or NS is rewritten (DESIGN CHOICE, log entry 87). -/
def execLgConfigWrite (g word v : Nat) (s : State) : Next := .next <|
  if 32 ≤ g then s else
  let w1c (s : State) (r : RegRow) (b : Nat) : State := if bitOf v b then s.wr r 0 g else s
  if word = 0x18 then
    w1c (w1c (w1c (w1c s R.TB_LG_FIRED 0) R.TB_LG_PAST 1) R.TB_LG_OVERLAP 2) R.TB_LG_OFFSET_RANGE 3
  else if !s.lockOpen then s
  else match word with
  | 0x00 =>
    let mode := bitsOf v 0 3
    if 5 ≤ mode || !s.lgStrobeOk g mode (s.rd R.TB_LG_OFFSET g) then s.wr R.TT_ALIGN_STATUS_CFG_ERR 1
    else (s.wr R.TB_LG_MODE mode g).wr R.TB_LG_N (max 1 (bitsOf v 16 16)) g
  | 0x04 =>
    if !s.lgStrobeOk g (s.rd R.TB_LG_MODE g) (bitsOf v 0 21) then s.wr R.TT_ALIGN_STATUS_CFG_ERR 1
    else s.wr R.TB_LG_OFFSET v g
  | 0x08 => s.wr R.TB_LG_TIME_LO v g
  | 0x0C => s.wr R.TB_LG_TIME_HI v g
  | 0x10 => s.wr R.TB_LG_NS v g
  | 0x1C => s.wr R.TB_LG_PHASE v g
  | _ => s

/-- R55, R59: whether a write of member entry `m` is taken. -/
def State.lgmOk (s : State) (m v : Nat) : Bool :=
  let kind := bitsOf v 8 4
  let index := bitsOf v 0 7
  let g := bitsOf v 16 5
  !bitOf v 31 || (decide (index < lgCount kind) && !s.lgNamed kind index m &&
    (kind != 6 || (s.rd R.TB_LG_MODE g == 1 && s.rd R.TB_LG_OFFSET g == 0)))

/-- R55: a write of member entry `m`. -/
def execLgMemberWrite (m v : Nat) (s : State) : Next := .next <|
  if 512 ≤ m || !s.lockOpen then s
  else if s.lgmOk m v then
    (((s.wr R.TB_LGM_INDEX v m).wr R.TB_LGM_KIND (bitsOf v 8 4) m).wr R.TB_LGM_LG (bitsOf v 16 5) m).wr
      R.TB_LGM_VALID (bitsOf v 31 1) m
  else s.wr R.TT_ALIGN_STATUS_CFG_ERR 1

/-- TIME and NS of a mode-3 group in 2⁻³² ns. -/
def State.lgTod (s : State) (g : Nat) : Nat :=
  (s.rd64 R.TB_LG_TIME_LO R.TB_LG_TIME_HI g * 1000000000 + s.rd R.TB_LG_NS g) * 2 ^ 32

/-- The time of one-shot group `g` has passed. -/
def State.lgPast (s : State) (g : Nat) : Bool :=
  if s.rd R.TB_LG_MODE g = 2 then decide (s.rd64 R.TB_LG_TIME_LO R.TB_LG_TIME_HI g < s.tb.frc) else decide (s.lgTod g < s.todUnits)

/-- R60: arm one-shot group `g`; one whose time has passed does not fire and sets PAST. -/
def State.lgArm (s : State) (g : Nat) : State :=
  if s.rd R.TB_LG_MODE g != 2 && s.rd R.TB_LG_MODE g != 3 then s
  else if s.lgPast g then
    { s.wr R.TB_LG_PAST 1 g with tb := { s.tb with armed := s.tb.armed.filter (· != g) } }
  else if s.tb.armed.contains g then s
  else { s with tb := { s.tb with armed := g :: s.tb.armed } }

/-- A write of 1 to TB_LG.ARM (R60). -/
def execLgOneShotArm (g : Nat) (s : State) : Next := .next (if g < 32 then s.lgArm g else s)

/-! ### Time port -/

/-- R63: a rising edge at PPS in, `sub`/32 tb after the tb now: stamped in FRC and TOD; one less than 100 ms after the
previous edge sets PPS_FAST and fires no mode-4 group. -/
def execPpsInEdge (sub : Nat) (s : State) : Next := .next <|
  if !s.bit R.TB_TP_CTRL_PPS_IN_EN then s else
  let u := s.todUnits + sub % 32 * s.incUnits / 32
  let edge := 32 * s.tb.frc + sub % 32
  let fast := match s.tb.lastPps with
    | some t => decide (edge < t + 320000000)
    | none => false
  let s := s.wr64 R.TB_PPS_FRC_LO R.TB_PPS_FRC_HI s.tb.frc
  let s := s.wr64 R.TB_PPS_SEC_LO R.TB_PPS_SEC_HI (u / 2 ^ 32 / 1000000000)
  let s := (s.wr R.TB_PPS_NS (u / 2 ^ 32 % 1000000000)).wr R.TB_PPS_FRAC u
  let s := s.wr R.TB_TP_STATUS_PPS_SEEN 1
  let s := if fast then s.wr R.TB_TP_STATUS_PPS_FAST 1 else s
  { s with tb := { s.tb with
      lastPps := some edge
      ppsFire := if fast then s.tb.ppsFire else (List.range 32).filter (fun g => s.rd R.TB_LG_MODE g == 4) } }

/-- PPS out width in units of 100 µs, clamped to 1 to 5,000 (R64). -/
def State.ppsWidth (s : State) : Nat := max 1 (min 5000 (s.rd R.TB_TP_CTRL_WIDTH))

/-- The place of the boundary that opens TOD second `sec + j`, in 1/32 tb from FRC 0, advanced by TB_PPS_DELAY (R62). -/
def State.ppsEdge (s : State) (j : Nat) : Int :=
  let ahead : Int := (((s.tb.sec + j) * 1000000000 * 2 ^ 32 : Nat) : Int) - s.todUnits
  32 * (s.tb.frc : Int) + roundDiv (32 * ahead) (max 1 s.incUnits) - toInt 16 (s.rd R.TB_PPS_DELAY)

/-- The next pulse: the first second boundary whose rising edge lies ahead and after the latest one, as (second, edge). -/
def State.nextPps (s : State) : Option (Nat × Int) :=
  ((List.range 3).map (fun j => (s.tb.sec + j, s.ppsEdge j))).find? (fun x =>
    decide (32 * (s.tb.frc : Int) ≤ x.2) && s.tb.ppsOut.all (fun e => decide (e < x.2)))

/-- A pulse of second `sec` rises at X24 at `e`/32 tb (R62, R56). -/
def State.ppsPulse (s : State) (sec : Nat) (e : Int) : State :=
  { s with tb := { s.tb with ppsOut := some e } }.emit .timePort .pps [sec, s.ppsWidth, e.toNat / 32, e.toNat % 32]

/-- R62: the pulse of the next TOD second boundary, placed in 1/32 tb after the compensation of TB_PPS_DELAY; a member
of a lock group pulses at its firings instead (R56). -/
def execPpsOutPulse (s : State) : Next := .next <|
  match s.nextPps with
  | none => s
  | some (sec, e) =>
    let s := s.toFrc (e.toNat / 32)
    if s.bit R.TB_TP_CTRL_PPS_OUT_EN && !s.isMember 7 0 then s.ppsPulse sec e else s

/-! ### The next tick -/

/-- The first tb whose TOD is at or after `b` × P × 10 ns, as the increment stands; before now for a boundary passed (DEDUCED, log entry 70). -/
def State.boundaryFrc (s : State) (b : Nat) : Int :=
  let d : Int := ((b * (s.P * 10) * 2 ^ 32 : Nat) : Int) - s.todUnits
  let inc : Int := s.incUnits
  (s.tb.frc : Int) + (if 0 ≤ d then (d + inc - 1) / inc else -((-d) / inc))

/-- The target of a nominal tick: the tb of the TOD boundary nearest to it; of two equally near, the later (R51, R52) (DEDUCED, log entry 70). -/
def State.tickTarget (s : State) (nominal : Nat) : Int :=
  let tod : Int := s.todUnits + ((nominal : Int) - s.tb.frc) * s.incUnits
  let b := (tod / ((s.P * 10 * 2 ^ 32 : Nat) : Int)).toNat
  let lo := s.boundaryFrc b
  let hi := s.boundaryFrc (b + 1)
  if (nominal : Int) - lo < hi - nominal then lo else hi

/-- TT_ALIGN.TRIM_MAX, 0 meaning 16 (R64). -/
def State.trimMax (s : State) : Nat := if s.rd R.TT_ALIGN_TRIM_MAX = 0 then 16 else s.rd R.TT_ALIGN_TRIM_MAX

/-- The unit's sequencer follows its partner's ticks: STANDBY, SYNCING, or joining by state transfer (R344, R364). -/
def State.following (s : State) : Bool := s.role == .standby || s.role == .syncing || s.pair.joining

/-- The unit's sequencer raises ticks (R48). -/
def State.ticking (s : State) : Bool := s.unit == .stop || s.unit == .run || s.unit == .halt

/-- The FRC of the next tick: P after the latest in free alignment (R50); trimmed toward the TOD boundary in RUN and HALT
and placed on it in STOP (R51, R52); the partner's tick on a following unit, within 128 tb (R344) (DESIGN CHOICE, log entry 5; DEDUCED, log entry 70). -/
def State.nextTick (s : State) : Nat :=
  let nominal := s.tb.base + s.P
  if s.following then
    match s.pair.next with
    | some t => max (nominal - 128) (min (nominal + 128) t)
    | none => nominal
  else if s.rd R.TT_ALIGN_MODE = 0 then nominal
  else
    let target := s.tickTarget nominal
    let m : Int := s.trimMax
    match s.unit with
    | .run | .halt => ((nominal : Int) + max (-m) (min m (target - nominal))).toNat
    | _ => target.toNat

end Sys2Proof.Machine
end

