-- ==== Sys2Proof/Machine/Lattice.lean ====
section
/-! DEFINITION. The lattice: the exposed pipeline of a tile (R69), the bus acts of a frame in cycle order (R78, R80, R90),
the engines at work (R88, R184, R514), the digest items (R352, R353), and how a tile operation issues (R70, R76, R96). -/

namespace Sys2Proof.Machine

open Sys2Proof

/-! ### Tiles -/

/-- The physical tile of a logical tile (R66). -/
def State.physTile (s : State) (l : Nat) : Nat := s.rd R.LT_MAP_X l + 6 * s.rd R.LT_MAP_Y l

/-- A physical tile. -/
def State.tile (s : State) (p : Nat) : Tile := s.lat.tiles.getD p Tile.reset

/-- Change one physical tile. -/
def State.updTile (s : State) (p : Nat) (f : Tile → Tile) : State :=
  { s with lat := { s.lat with tiles := updAt s.lat.tiles p f } }

/-- The TSR flags (R75). -/
def tsrSat : Nat := 1
def tsrDivz : Nat := 2
def tsrRingfull : Nat := 4
def tsrEccCor : Nat := 8
def tsrEccUnc : Nat := 16

/-- The TSR of logical tile `l` (R75). -/
def State.tsrOf (s : State) (l : Nat) : Nat :=
  s.rd R.LT_TF_SAT l + 2 * s.rd R.LT_TF_DIVZ l + 4 * s.rd R.LT_TF_RINGFULL l + 8 * s.rd R.LT_TF_ECC_COR l +
    16 * s.rd R.LT_TF_ECC_UNC l

/-- Set the TSR of logical tile `l`. -/
def State.setTsr (s : State) (l m : Nat) : State :=
  ((((s.wr R.LT_TF_SAT m l).wr R.LT_TF_DIVZ (m / 2) l).wr R.LT_TF_RINGFULL (m / 4) l).wr R.LT_TF_ECC_COR (m / 8) l).wr
    R.LT_TF_ECC_UNC (m / 16) l

/-- The shadow a physical tile runs in this frame. -/
def State.shadowAt (s : State) (p : Nat) : Option Shadow :=
  s.lat.shadows.find? (fun x => x.phys == p && x.frame == s.tb.frameNo)

/-- The TSR a physical tile reads: its logical tile's, or its own while it shadows (R96). -/
def State.tsrAt (s : State) (p : Nat) : Nat :=
  match s.shadowAt p with
  | some _ => (s.tile p).tsr
  | none => s.tsrOf (s.rd R.LT_PHYS_LOGICAL p)

/-- Set it. -/
def State.setTsrAt (s : State) (p m : Nat) : State :=
  match s.shadowAt p with
  | some _ => s.updTile p (fun x => { x with tsr := m % 32 })
  | none => s.setTsr (s.rd R.LT_PHYS_LOGICAL p) m

/-- Register `r` of physical tile `p`; G0 reads 0 (R67). -/
def State.gr (s : State) (p r : Nat) : Word := if r = 0 then 0 else (s.tile p).g.getD r 0

/-- Write consecutive G registers from `r`; writes to G0 are discarded (R67). -/
def putRegs : List Word → Nat → List Nat → List Word
  | g, _, [] => g
  | g, r, v :: vs => putRegs (if r = 0 then g else g.set r (BitVec.ofNat 32 v)) (r + 1) vs

/-- A pending result arrives (R69). -/
def State.landOne (s : State) (p : Nat) (e : Pend) : State :=
  match e.target with
  | .g r => s.updTile p (fun x => { x with g := putRegs x.g r e.val })
  | .acc a => s.updTile p (fun x => { x with acc := x.acc.set a (BitVec.ofNat 80 (e.val.headD 0)) })
  | .sram a => s.setBytes (Config.sramBase p + a) (e.val.flatMap (leBytes 4))
  | .set => s.setTsrAt p (s.tsrAt p ||| e.val.headD 0)
  | .clear => s.setTsrAt p (s.tsrAt p &&& (31 - e.val.headD 0 % 32))

/-- The order in which pending results arrive: by cycle, a TSR clear before the flags set in its cycle, which stay set
(R75). -/
def Pend.key (e : Pend) : Nat := 2 * e.due + (if e.target = .clear then 0 else 1)

/-- Insert a pending result in arrival order. -/
def pendIns : List Pend → Pend → List Pend
  | [], e => [e]
  | x :: l, e => if e.key < x.key then e :: x :: l else x :: pendIns l e

/-- Every result readable from cycle `c` or earlier arrives. -/
def State.land (s : State) (p c : Nat) : State :=
  let ready := (s.tile p).pend.filter (fun e => decide (e.due ≤ c))
  let s := s.updTile p (fun x => { x with pend := x.pend.filter (fun e => decide (c < e.due)) })
  ready.foldl (fun s e => s.landOne p e) s

/-- Every result still on its way in physical tile `p` has arrived: the frame has ended. -/
def State.landAll (s : State) (p : Nat) : State := s.land p (8 * 2000000 + 1000)

/-- A result of physical tile `p` is on its way (DEDUCED, log entry 30). -/
def State.pend (s : State) (p due : Nat) (t : PendTarget) (v : List Nat) : State :=
  s.updTile p (fun x => { x with pend := pendIns x.pend { due, target := t, val := v } })

/-- TSR flags that a result sets. -/
def State.flag (s : State) (p due m : Nat) : State := if m = 0 then s else s.pend p due .set [m]

/-- The spares that shadow logical tile `l` in this frame (R96). -/
def State.shadowsOf (s : State) (l : Nat) : List Nat :=
  (s.lat.shadows.filter (fun x => x.logical == l && x.frame == s.tb.frameNo)).map (·.phys)

/-- The tiles that run logical tile `l` in this frame: its own and its shadows. -/
def State.runners (s : State) (l : Nat) : List Nat := s.physTile l :: s.shadowsOf l

/-! ### Shared address space -/

/-- The bank of a bank address under the group map of R79. -/
def State.bankOf (s : State) (a : Nat) : Nat :=
  let b := a / 0x80000
  let k := s.rd R.LT_BANK_GROUP_LOG2 b
  let first := s.rd R.LT_BANK_GROUP_FIRST b
  if k = 0 then b else first + (a - first * 0x80000) / 32 % 2 ^ k

/-- The offset in its bank of a bank address under the group map: granule g of a group of 2^k banks at (g div 2^k) × 32 (R79). -/
def State.bankOffset (s : State) (a : Nat) : Nat :=
  let b := a / 0x80000
  let k := s.rd R.LT_BANK_GROUP_LOG2 b
  if k = 0 then a % 0x80000 else (a - s.rd R.LT_BANK_GROUP_FIRST b * 0x80000) / 32 / 2 ^ k * 32 + a % 32

/-- What a shared address reaches (R68): bank b as b, SOLVER 16, LOOP 17. -/
def State.target (s : State) (a : Nat) : Option Nat :=
  if a < Config.bankEnd then some (s.bankOf a)
  else if Config.storeBase ≤ a && decide (a < Config.storeEnd) then some 16
  else if Config.loopBase ≤ a && decide (a < Config.loopEnd) then some 17
  else none

/-- The data SRAM of a tile. -/
def State.sramBytes (s : State) (p : Nat) : Bytes := s.bytes (Config.sramBase p) 0x20000

/-- What a tile's shadow hash covers: G registers, accumulators, TSR and data SRAM (R96). -/
def State.tileHash (s : State) (p : Nat) : Nat :=
  Config.sha384 ((s.tile p).g.flatMap (fun w => leBytes 4 w.toNat) ++ (s.tile p).acc.flatMap (fun a => leBytes 10 a.toNat) ++
    leBytes 4 (s.tsrAt p) ++ s.sramBytes p)

/-- In the cycle after ENDF logical tile `l` and its shadows form their hashes (R96). -/
def State.shadowHashes (s : State) (l c : Nat) : State :=
  let s := (s.runners l).foldl (fun s p => s.land p c) s
  { s with lat := { s.lat with shadows := s.lat.shadows.map (fun x =>
      if x.logical == l && x.frame == s.tb.frameNo then { x with same := some (s.tileHash (s.physTile l) == s.tileHash x.phys) } else x) } }

/-- The router of an attachment (R65), as x and y. -/
def attachAt : Nat → Nat × Nat
  | 16 => (1, 5) | 17 => (2, 5) | 18 => (3, 5) | 19 => (4, 5)
  | b => if b < 6 then (0, b) else if b < 12 then (5, b - 6) else (b - 11, 0)

def attachSolver : Nat := 16
def attachLoop : Nat := 17
def attachXfer : Nat := 18
def attachExch : Nat := 19

/-- Hops between two routers. -/
def hops (a b : Nat × Nat) : Nat := (a.1 - b.1) + (b.1 - a.1) + (a.2 - b.2) + (b.2 - a.2)

/-- The router of logical tile `l`. -/
def State.routerOf (s : State) (l : Nat) : Nat × Nat := (s.rd R.LT_MAP_X l, s.rd R.LT_MAP_Y l)

/-- A shared access is 4, 8, 16 or 32 bytes, aligned, inside one granule, and meets a target that tiles may load from or,
with `store`, store to (R68, R153, R155, R178). -/
def State.accessOk (s : State) (a n : Nat) (store : Bool) : Bool :=
  [4, 8, 16, 32].contains n && a % n == 0 && match s.target a with
  | none => false
  | some 16 => !store || (decide (0x01100000 ≤ a) && decide (a < 0x02800000))
  | some 17 => !store || decide (a < 0x03020000)
  | some _ => true

/-! ### Digest items (R352, R353) -/

/-- The 8-byte header and the data of an item. -/
def itemBytes (addr src tile : Nat) (data : Bytes) : Bytes :=
  leBytes 4 addr ++ leBytes 1 src ++ leBytes 1 data.length ++ leBytes 1 tile ++ leBytes 1 0 ++ data

/-- Insert an item in the order of R352. -/
def itemIns : List DigestItem → DigestItem → List DigestItem
  | [], e => [e]
  | x :: l, e => if e.cycle * 64 + e.order < x.cycle * 64 + x.order then e :: x :: l else x :: itemIns l e

/-- Absorb an item. -/
def State.absorb (s : State) (cycle order : Nat) (data : Bytes) : State :=
  { s with lat := { s.lat with absorbed := itemIns s.lat.absorbed { cycle, order, data } } }

/-- The mode word in force as the four bytes of R352. -/
def State.modeWord (s : State) : Nat := s.rd R.TT_MODE_CUR_ACTIVE + 2 ^ 16 * s.rd R.TT_MODE_CUR_MIRROR

/-- The digest of the frame so far: the prefix, then the items before cycle `c` (R352). -/
def State.digestAt (s : State) (c : Nat) : Nat :=
  let prefix_ := leBytes 8 s.tb.frameNo ++ leBytes 4 s.modeWord ++ leBytes 4 (s.rd R.TT_IMG_ID) ++ leBytes 4 (s.rd R.TT_IMG_VER) ++
    leBytes 8 s.tb.pairTick ++ leBytes 4 0
  leNat ((leBytes 48 (Config.sha384 (prefix_ ++ s.lat.preItems.flatMap (·.data) ++ (s.lat.absorbed.filter (fun e => decide (e.cycle < c))).flatMap (·.data)))).take 32)

/-! ### Port A, the retentive tap and ECC -/

/-- The checkpoint engine notes a granule of the retentive region that port A writes (R141). -/
def State.tap (s : State) (a n : Nat) : State :=
  match s.tt.base with
  | none => s
  | some b =>
    let lo := b.shared.retAddr
    let gs := ((List.range ((a % 32 + n + 31) / 32)).map (fun i => a / 32 * 32 + 32 * i)).filter
      (fun x => decide (lo ≤ x) && decide (x < lo + b.shared.retSize))
    let idx := gs.map (fun x => (x - lo) / 32)
    { s with tt := { s.tt with capture := idx.foldl (fun c i => if c.contains i then c else c ++ [i]) s.tt.capture } }

/-- A port-A write at cycle `c` from source `src` of R353. -/
def State.portA (s : State) (c src a : Nat) (data : Bytes) : State :=
  let order := (s.target a).getD 0
  ((s.setBytes a data).tap a data.length).absorb c order (itemBytes a src 0 data)

/-- A read in bank or window `b` met an ECC event (R72): the bank's counter or flag, the state store's flag; an uncorrectable one suppresses
the marker. -/
def State.bankEcc (s : State) (b : Option Nat) : Ecc → State
  | .clean => s
  | .corrected =>
    match b with
    | some b => if b < 16 then s.inc R.LT_BANK_ECC_COR b else s
    | none => s
  | .uncorrectable =>
    let s := s.suppressMarker
    match b with
    | some b => if b < 16 then s.wr R.LT_BANK_ECC_UNC 1 b else if b = 16 then s.wr R.SV_STATUS_ECC_UNC 1 else s
    | none => s

/-- A read in physical tile `p`'s own memory met an ECC event at cycle `c` (R72): the TSR flags, the tile's counter; an uncorrectable one
suppresses the marker. -/
def State.tileEcc (s : State) (p c : Nat) : Ecc → State
  | .clean => s
  | .corrected => (s.flag p (c + 1) tsrEccCor).inc R.LT_PHYS_ECC_COR p
  | .uncorrectable => (s.flag p (c + 1) tsrEccUnc).suppressMarker

/-- A shared load of logical tile `l` met an ECC event in bank or window `b` at cycle `c`: the tile's TSR flag and the bank's (R72). -/
def State.loadEcc (s : State) (l c : Nat) (b : Option Nat) (e : Ecc) : State :=
  let s := s.bankEcc b e
  match e with
  | .clean => s
  | .corrected => s.flag (s.physTile l) (c + 1) tsrEccCor
  | .uncorrectable => s.flag (s.physTile l) (c + 1) tsrEccUnc

/-- The event of granule `k` in a list of events by granule. -/
def eccAt (l : List (Nat × Ecc)) (k : Nat) : Ecc := ((l.find? (fun e => e.1 == k)).map (·.2)).getD .clean

/-- The bytes a read delivers: those stored, or undefined ones after an uncorrectable error (R72). -/
def State.eccData (s : State) (e : Ecc) (data : Bytes) : State × Bytes :=
  if e = .uncorrectable then (s.nextFree, leBytes data.length s.freeVal) else (s, data)

/-! ### Bus acts in cycle order -/

/-- Insert a bus act by time. -/
def busIns : List BusEv → BusEv → List BusEv
  | [], e => [e]
  | x :: l, e => if e.key < x.key then e :: x :: l else x :: busIns l e

/-- Place a bus act at cycle `c`, at its start or at its end. -/
def State.bus (s : State) (c : Nat) (atEnd : Bool) (act : BusAct) : State :=
  { s with lat := { s.lat with bus := busIns s.lat.bus { key := 2 * c + (if atEnd then 1 else 0), act } } }

/-- The words of a byte string, little-endian. -/
def wordsOf : Bytes → List Nat
  | a :: b :: c :: d :: l => leNat [a, b, c, d] :: wordsOf l
  | [] => []
  | l => [leNat l]

/-- Where a value bound for a data operand is pending. -/
def locTarget : Loc → PendTarget
  | .g r => .g r
  | .sram a => .sram a

/-- Results of logical tile `l` written into the tile and, over the relocation path, into its shadows (R96). -/
def State.deliver (s : State) (l due : Nat) (dst : Loc) (data : Bytes) : State :=
  (s.runners l).foldl (fun s p => s.pend p due (locTarget dst) (wordsOf data)) s

/-! ### Engines at work (R88, R184, R514) -/

/-- The busy bit of an engine (R177, R204). -/
def State.setBusy (s : State) (e : Engine) (on : Bool) : State :=
  match e with
  | .loop => s.wr R.LP_STATUS_BUSY (if on then 1 else 0)
  | .solver u =>
    let b := s.rd R.SV_STATUS_BUSY
    s.wr R.SV_STATUS_BUSY (if on then b ||| 2 ^ u else b &&& (255 - 2 ^ u))

/-- A spare unit that shadows logical unit `u` compares its summary hash with the unit's (R202). -/
def State.svShadow (s : State) (u : Nat) (mis : Bool) : State :=
  if s.bit R.SV_SHADOW_EN && s.rd R.SV_SHADOW_LOGICAL == u && (List.range 9).any (fun p => s.rd R.SV_PHYS_STATE p == 3) then
    let s := s.inc R.SV_SHADOW_CMP
    if mis then (s.inc R.SV_SHADOW_MIS).wr R.SV_STATUS_SHADOW_MIS 1 else s
  else s

/-- Cycle at which list position `pos` of a loop call begins (R158). -/
def Call.position (x : Call) (pos : Nat) : Nat := x.start + 320 + 330 * pos

/-- Step `k` of list position `pos` at cycle `c`: 0 to 11 read the source words, 12 executes the record, 13 to 76 write its words, 77 finishes it;
each places the next, and the last position the end of the call (R514). -/
def State.loopStep (s : State) (x : Call) (pos k : Nat) : State :=
  let a := x.position pos
  if k < 12 then (s.loopSample x pos k).bus (a + 65 + k) false (.loopStep x.start pos (k + 1))
  else if k = 12 then
    let s := s.loopExecute x pos
    let s := if (x.bad.filter (fun e => e.1 == pos)).isEmpty then s else s.suppressMarker
    s.bus (a + 266) true (.loopStep x.start pos 13)
  else if k < 77 then
    (s.loopStore x pos (k - 13)).bus (if k = 76 then a + 329 else a + 254 + k) true (.loopStep x.start pos (k + 1))
  else
    let s := s.loopFinish x pos
    if pos + 1 < (s.loopList x.desc).length then s.bus (a + 394) false (.loopStep x.start (pos + 1) 0)
    else s.bus (x.done - 1) true (.finish .loop x.start)

/-- Cycle at which wave `w` of a solver call begins, and I and C of its problems (R184). -/
def State.waveAt (s : State) (x : Call) (w : Nat) : Nat × Nat × Nat :=
  match (s.svDesc x.desc).ico with
  | some (i, c, o) => (x.start + 256 + w * (i + c + o), i, c)
  | none => (x.start + 256, 0, 0)

/-- Step `k` of wave `w`: 0 when every lane has loaded its input words, then a word of each output block; the last one ends the wave, the last wave
the call (R184). -/
def State.waveStep (s : State) (x : Call) (w k : Nat) : State :=
  let (w0, i, c) := s.waveAt x w
  let o := match (s.svDesc x.desc).ico with | some (_, _, o) => o | none => 0
  if k = 0 then
    let s := s.waveLoad x w
    let s := if (x.bad.filter (fun e => ((s.svDesc x.desc).wave w).contains e.1)).isEmpty then s else s.suppressMarker
    s.bus (w0 + i + c) true (.waveStep x.engine x.start w 1)
  else
    let s := s.waveStore x w (k - 1)
    if k < o then s.bus (w0 + i + c + k) true (.waveStep x.engine x.start w (k + 1))
    else if 16 * (w + 1) < (s.svDesc x.desc).count then
      let (w1, i, _) := s.waveAt x (w + 1)
      s.bus (w1 + i) false (.waveStep x.engine x.start (w + 1) 0)
    else s.bus (x.done - 1) true (.finish x.engine x.start)

/-- A call ends at the end of the cycle before s + L: its summary stands, its hash reaches the digest unit at s + L, the engine is free (R88, R160,
R195, R196, R204). -/
def State.callFinish (s : State) (x : Call) : State :=
  let s := { s.setBusy x.engine false with
    lat := { s.lat with calls := s.lat.calls.filter (fun y => !(y.engine == x.engine && y.start == x.start)) } }
  match x.engine with
  | .loop =>
    let (s, h) := s.loopDone x
    s.absorb x.done 19 (itemBytes 0 3 0 h)
  | .solver u =>
    let (s, h) := s.solverDone u x
    let p := s.rd R.SV_MAP_PHYS u
    let s := s.wr R.SV_PHYS_ECC_COR (min 65535 (s.rd R.SV_PHYS_ECC_COR p + x.cor)) p
    (s.absorb x.done (20 + u) (itemBytes 0 4 u h)).svShadow u x.mis

/-- `f` on the call of engine `e` that started at cycle `start`, while it is in progress. -/
def State.onCall (s : State) (e : Engine) (start : Nat) (f : Call → State) : State :=
  match s.callAt e start with
  | some x => f x
  | none => s

/-- A bus act takes place at cycle `c`. -/
def State.busAct (s : State) (c : Nat) : BusAct → State
  | .load l a n dst ready e =>
    let (s, data) := s.eccData e (s.readBytes a n)
    let s := s.loadEcc l c (s.target a) e
    -- the response arrives at the end of the cycle before the value is readable
    s.bus (ready - 1) true (.respond l dst data e)
  | .respond l dst data _ => s.deliver l (c + 1) dst data
  | .store src a data => s.portA c src a data
  | .priv a data => s.setBytes a data
  | .send l entry data => (s.runners l).foldl (fun s p => s.setBytes (Config.rxBase p + 32 * entry) data) s
  | .gather start a e =>
    let (s, data) := s.eccData e (s.readBytes a 32)
    let s := s.bankEcc (s.target a) e
    { s with lat := { s.lat with xfers := s.lat.xfers.map (fun x => if x.start == start then { x with data := x.data ++ data } else x) } }
  | .absorb l a data => s.absorb c 18 (itemBytes a 2 l data)
  | .seal => s.bus (c + 256) false (.sealed (s.digestAt c))
  | .sealed d => { s with lat := { s.lat with sealed := some d } }
  | .freeze =>
    match s.tt.base with
    | some b => { s with lat := { s.lat with region := some (s.bytes b.shared.exAddr b.shared.exSize) } }
    | none => s
  | .shadowHash l => s.shadowHashes l c
  | .begin e => s.setBusy e true
  | .loopStep start pos k => s.onCall .loop start (fun x => s.loopStep x pos k)
  | .waveStep e start w k => s.onCall e start (fun x => s.waveStep x w k)
  | .finish e start => s.onCall e start (fun x => s.callFinish x)

/-- Carry out every bus act before time `key`, at most `fuel` of them. -/
def State.settleN : Nat → State → Nat → State
  | 0, s, _ => s
  | fuel + 1, s, key =>
    match s.lat.bus with
    | [] => s
    | e :: rest =>
      if e.key < key then
        State.settleN fuel (State.busAct { s with lat := { s.lat with bus := rest } } (e.key / 2) e.act) key
      else s

/-- Carry out every bus act before cycle `c` begins.  A load places its response, and each of at most 9 engines at work the next of its steps, of
which it has no more than two in a cycle. -/
def State.settle (s : State) (c : Nat) : State := State.settleN (2 * s.lat.bus.length + 32 * (c + 2)) s (2 * c)

/-- Carry out every bus act up to the end of cycle `c`. -/
def State.settleThrough (s : State) (c : Nat) : State := s.settle (c + 1)

/-! ### Issue -/

/-- What follows bundle `b` under the loops in progress, innermost first: the first bundle of the innermost one that ends there and has iterations
left, else the next bundle with the loops that have ended left behind (R74). -/
def loopNext (b : Nat) : List Loop → Nat × List Loop
  | [] => (b + 1, [])
  | l :: ls =>
    if b = l.last then (if 1 < l.left then (l.first, { l with left := l.left - 1 } :: ls) else loopNext b ls)
    else (b + 1, l :: ls)

/-- The bundle that follows in a tile's stream (R73, R74). -/
def Tile.next (x : Tile) : Tile :=
  match x.branch with
  | some (t, 0) => { x with bundle := t, branch := none }
  | some (t, n + 1) => { x with bundle := x.bundle + 1, branch := some (t, n) }
  | none => { x with bundle := (loopNext x.bundle x.loops).1, loops := (loopNext x.bundle x.loops).2 }

/-- `n` bundles pass. -/
def Tile.advance : Nat → Tile → Tile
  | 0, x => x
  | n + 1, x => Tile.advance n x.next

/-- The tile stands at cycle `t`: one bundle has passed per cycle; a WAIT has held its bundle until the tile stopped idling. -/
def Tile.toCycle (x : Tile) (t : Nat) : Tile :=
  { Tile.advance (if x.cycle < x.idle then t + 1 - x.idle else t - x.cycle) x with cycle := t }

/-- The tile issues nothing from cycle `t` on: it has passed its ENDF (R76). -/
def Tile.over (x : Tile) (t : Nat) : Bool := x.ended.any (fun e => decide (e ≤ t))

/-- A tile operation can issue: the unit runs, the cycle has not passed, the tile has neither ended nor idles (R76). -/
def State.canIssue (s : State) (i : Issue) : Bool :=
  let x := s.tile (s.physTile i.tile)
  s.inRun && !s.sup.latticeStop && decide (i.tile < 32) && !x.over i.t && decide (x.cycle ≤ i.t) && decide (x.idle ≤ i.t) &&
    decide (s.tb.frc ≤ s.tb.lastTick + i.t / 8)

/-- Time passes to the issue cycle; earlier bus acts and results take effect. -/
def State.startIssue (s : State) (i : Issue) : State :=
  let s := (s.toCycle i.t).settle i.t
  (s.runners i.tile).foldl (fun s p => (s.land p i.t).updTile p (fun x => x.toCycle i.t)) s

/-- Everything due by now has taken place: bus acts, and results on their way in every tile that runs.  Management accesses see the lattice so; they are
served in the first cycle of their tb (DESIGN CHOICE, log entry 88). -/
def State.landNow (s : State) : State :=
  if s.inRun then
    let c := 8 * (s.tb.frc - s.tb.lastTick)
    ((List.range 32).flatMap s.runners).foldl (fun s p => s.land p c) (s.settle c)
  else s

/-- Issue an operation: nothing where the tile cannot issue; a fault with the admission code `bad` where R99 rejects every
image that holds the operation; else its effect. -/
def State.issue (s : State) (i : Issue) (bad : Option Nat) (f : State → State) : Next :=
  if !s.canIssue i then .next s
  else match bad with
    | some c => .fault (.outsideContract c)
    | none => .next (f (s.startIssue i))

/-- The first failing check: pairs of a code and whether the operation passes it. -/
def firstBad : List (Nat × Bool) → Option Nat
  | [] => none
  | (c, ok) :: l => if ok then firstBad l else some c

/-- Cycle `t` lies before the guard band (check 0x311A). -/
def State.cycleOk (s : State) (t : Nat) : Nat × Bool := (0x311A, decide (t < s.G))

/-- Data SRAM bytes `[a, a + n)` exist (check 0x3107) (DEDUCED, log entry 29). -/
def sramOk (a n : Nat) : Nat × Bool := (0x3107, decide (a + n ≤ 0x20000))

/-- A data operand of `n` bytes exists: G registers from r, or data SRAM (DEDUCED, log entry 29). -/
def locOk (l : Loc) (n : Nat) : Nat × Bool :=
  match l with
  | .g r => (0x3108, decide (r + (n + 3) / 4 ≤ 64))
  | .sram a => sramOk a n

/-- W and D fit and D reaches the destination router (check 0x3104, R82). -/
def State.meshOk (s : State) (l : Nat) (m : Mesh) (dest : Nat × Nat) : List (Nat × Bool) :=
  [(0x3104, decide (hops (s.routerOf l) dest ≤ m.d)), (0x3108, decide (m.w ≤ 15) && decide (m.d ≤ 10))]

/-- The delivery cycle of a MEM operation on the mesh (R80). -/
def meshAt (m : Mesh) (t : Nat) : Nat := t + m.w + 2 * m.d + 2

/-- A local access is 4, 8, 16 or 32 bytes, as a shared one is, and a RECV lies inside its 32-byte entry (DEDUCED, log entry 29). -/
def sizeOk (off n : Nat) : Nat × Bool := (0x3108, [4, 8, 16, 32].contains n && decide (off + n ≤ 32))

/-- The bytes of a data operand as the tile holds them at issue. -/
def State.locBytes (s : State) (p : Nat) (l : Loc) (n : Nat) : Bytes :=
  match l with
  | .g r => ((List.range ((n + 3) / 4)).flatMap (fun k => leBytes 4 (s.gr p (r + k)).toNat)).take n
  | .sram a => s.bytes (Config.sramBase p + a) n

/-- Carry out the next bus act that `pick` chooses, letting time pass to it; nothing where there is none. -/
def State.runBusTo (s : State) (pick : BusAct → Bool) : State :=
  match s.lat.bus.find? (fun e => pick e.act) with
  | none => s
  | some e => (s.toCycle (e.key / 2)).settleThrough (e.key / 2)

end Sys2Proof.Machine
end

