-- ==== Sys2Proof/Machine/TileOps.lean ====
section
/-! DEFINITION. The tile operations of R70 that act inside a tile, on the mesh and on the rings, with R71 (division corners),
R72 (ECC), R73 to R76 (control flow) and R86, R87 (rings). -/

namespace Sys2Proof.Machine

open Sys2Proof

/-! ### Values -/

/-- A truth value as the word a compare writes (DESIGN CHOICE, log entry 3). -/
def aluBool (b : Bool) : Word := Config.cmpWord b

/-- A shift whose amount is below 32; a larger amount has no stated result (DESIGN CHOICE, log entry 3). -/
def aluShift (kind : Nat) (f : Word → Nat → Word) (a b : Word) : Word :=
  if b.toNat < 32 then f a b.toNat else Config.shiftWide kind a b

/-- Wrapping two-operand ALU functions (R70) (DESIGN CHOICE, log entry 3). -/
def aluBin : AluFn → Word → Word → Word
  | .add, a, b => a + b
  | .sub, a, b => a - b
  | .and, a, b => a &&& b
  | .or, a, b => a ||| b
  | .xor, a, b => a ^^^ b
  | .shl, a, b => aluShift 0 (fun x n => x <<< n) a b
  | .shr, a, b => aluShift 1 (fun x n => x >>> n) a b
  | .sar, a, b => aluShift 2 (fun x n => x.sshiftRight n) a b
  | .cmpEq, a, b => aluBool (a == b)
  | .cmpNe, a, b => aluBool (a != b)
  | .cmpLt, a, b => aluBool (a.slt b)
  | .cmpLe, a, b => aluBool (a.sle b)
  | .cmpLtu, a, b => aluBool (a.ult b)
  | .cmpLeu, a, b => aluBool (a.ule b)
  | .min, a, b => if a.slt b then a else b
  | .max, a, b => if a.slt b then b else a
  | .minu, a, b => if a.ult b then a else b
  | .maxu, a, b => if a.ult b then b else a

/-- A special register as physical tile `p` reads it (R75, R345). -/
def State.special (s : State) (p : Nat) : SpecialReg → Nat
  | .fph2 => s.tb.frameNo % 2
  | .fph5 => s.tb.frameNo % 5
  | .fph10 => s.tb.frameNo % 10
  | .fph100 => s.tb.frameNo % 100
  | .fph1000 => s.tb.frameNo % 1000
  | .tick => s.tb.pairTick % 2 ^ 32
  | .fno => s.tb.frameNo % 2 ^ 32
  | .tsr => s.tsrAt p

/-- The 32-bit word of an exact result and whether it saturated. -/
def satWord (v : Int) : Nat × Bool := (ofInt 32 (satInt 32 v), overflows 32 v)

/-- Saturating functions (R70): the exact result of each. -/
def satVal (g : Nat → Int) (gu : Nat → Nat) : SatOp → Int
  | .add _ a b => g a + g b
  | .sub _ a b => g a - g b
  | .shl _ a b => g a * 2 ^ gu b
  | .neg _ a => -g a
  | .abs _ a => (g a).natAbs
  | .conv _ a n m => scaleR (g a) ((m : Int) - n)

/-- Destination of a saturating operation. -/
def satDst : SatOp → Nat
  | .add d _ _ => d | .sub d _ _ => d | .shl d _ _ => d | .neg d _ => d | .abs d _ => d | .conv d _ _ _ => d

/-- A signed register. -/
def State.gri (s : State) (p r : Nat) : Int := (s.gr p r).toInt

/-- A result word with its saturation flag, readable `lat` cycles after issue (R69) (DEDUCED, log entry 30). -/
def State.result (s : State) (p t lat d : Nat) (v : Nat × Bool) (flags : Nat) : State :=
  (s.pend p (t + lat) (.g d) [v.1]).flag p (t + lat) (flags ||| (if v.2 then tsrSat else 0))

/-- Register numbers are below 64. -/
def regsOk (rs : List Nat) : Nat × Bool := (0x3108, rs.all (fun r => decide (r < 64)))

/-- Run a local operation on the tile and on its shadows (R96). -/
def State.eachTile (s : State) (i : Issue) (f : State → Nat → State) : State := (s.runners i.tile).foldl f s

/-! ### ALU, SAT and MAC slots -/

/-- One ALU operation on physical tile `p`. -/
def State.aluOp (s : State) (t p : Nat) : AluOp → State
  | .bin f d a b => s.pend p (t + 1) (.g d) [(aluBin f (s.gr p a) (s.gr p b)).toNat]
  | .not d a => s.pend p (t + 1) (.g d) [(~~~(s.gr p a)).toNat]
  | .select d c a b => s.pend p (t + 1) (.g d) [(if Config.truth (s.gr p c) then s.gr p a else s.gr p b).toNat]
  | .move d a => s.pend p (t + 1) (.g d) [(s.gr p a).toNat]
  | .imm d v => s.pend p (t + 1) (.g d) [v.toNat]
  | .special d r => s.pend p (t + 1) (.g d) [s.special p r]
  | .clearTsr a => s.pend p (t + 1) .clear [(s.gr p a).toNat % 32]

/-- The registers an ALU operation names. -/
def aluRegs : AluOp → List Nat
  | .bin _ d a b => [d, a, b]
  | .not d a => [d, a]
  | .select d c a b => [d, c, a, b]
  | .move d a => [d, a]
  | .imm d _ => [d]
  | .special d _ => [d]
  | .clearTsr a => [a]

/-- ALU class, latency 1 (R70). -/
def execAluOp (at_ : Issue) (o : AluOp) (s : State) : Next :=
  s.issue at_ (firstBad [regsOk (aluRegs o), s.cycleOk at_.t]) (fun s => s.eachTile at_ (fun s p => s.aluOp at_.t p o))

/-- The registers and formats a SAT operation names. -/
def satRegs : SatOp → List Nat
  | .add d a b => [d, a, b]
  | .sub d a b => [d, a, b]
  | .shl d a b => [d, a, b]
  | .neg d a => [d, a]
  | .abs d a => [d, a]
  | .conv d a n m => [d, a, 2 * n, 2 * m]

/-- SAT class, latency 1, sets TSR.SAT when it saturates (R70).  A shift left by `n` is exact before it saturates. -/
def execSatOp (at_ : Issue) (o : SatOp) (s : State) : Next :=
  s.issue at_ (firstBad [regsOk (satRegs o), s.cycleOk at_.t]) (fun s => s.eachTile at_ (fun s p =>
    s.result p at_.t 1 (satDst o) (satWord (satVal (s.gri p) (fun r => min 64 (s.gr p r).toNat) o)) 0))

/-- MUL: Q(31 − n).n multiply rounded once and saturated, latency 3 (R70). -/
def execMul (at_ : Issue) (d a b n : Nat) (s : State) : Next :=
  s.issue at_ (firstBad [regsOk [d, a, b, 2 * n], s.cycleOk at_.t]) (fun s => s.eachTile at_ (fun s p =>
    s.result p at_.t 3 d (satWord (scaleR (s.gri p a * s.gri p b) (-(n : Int)))) 0))

/-- The value the next accumulation adds to: the newest one on its way, else the accumulator (R70: a MAC into the same
accumulator may issue in every cycle) (DEDUCED, log entry 30). -/
def State.accNow (s : State) (p a : Nat) : Int :=
  let x := s.tile p
  match (x.pend.filter (fun e => e.target == .acc a)).getLast? with
  | some e => toInt 80 (e.val.headD 0)
  | none => (x.acc.getD a 0).toInt

/-- An exact accumulator value as its 80 bits (DESIGN CHOICE, log entry 3). -/
def accBits (v : Int) : Nat := if overflows 80 v then Config.accOver v % 2 ^ 80 else ofInt 80 v

/-- MAC: multiply-accumulate into A0 to A3, latency 3 (R70) (DEDUCED, log entry 30). -/
def execMac (at_ : Issue) (acc a b : Nat) (s : State) : Next :=
  s.issue at_ (firstBad [regsOk [a, b], (0x3108, decide (acc < 4)), s.cycleOk at_.t]) (fun s => s.eachTile at_ (fun s p =>
    s.pend p (at_.t + 3) (.acc acc) [accBits (s.accNow p acc + s.gri p a * s.gri p b)]))

/-- ACCRD: an accumulator rounded and saturated to a word, latency 2 (R70). -/
def execAccrd (at_ : Issue) (d acc n : Nat) (s : State) : Next :=
  s.issue at_ (firstBad [regsOk [d], (0x3108, decide (acc < 4) && decide (n < 64)), s.cycleOk at_.t]) (fun s =>
    s.eachTile at_ (fun s p => s.result p at_.t 2 d (satWord (scaleR ((s.tile p).acc.getD acc 0).toInt (-(n : Int)))) 0))

/-- DIV with R71's corners: value, whether saturated, and the DIVZ flag. -/
def divVal (a b : Int) (n : Nat) : (Nat × Bool) × Nat :=
  if b = 0 then
    ((if 0 < a then 2 ^ 31 - 1 else if a < 0 then 2 ^ 31 else 0, false), tsrDivz)
  else (satWord (roundDiv (a * 2 ^ n) b), 0)

/-- The divider is free at `t` (check 0x310C). -/
def State.divOk (s : State) (i : Issue) : Nat × Bool := (0x310C, decide ((s.tile (s.physTile i.tile)).divFree ≤ i.t))

/-- The divider is busy for 16 cycles. -/
def State.useDiv (s : State) (p t : Nat) : State := s.updTile p (fun x => { x with divFree := t + 16 })

/-- DIV: rounded to nearest, latency 18 (R70, R71). -/
def execDiv (at_ : Issue) (d a b n : Nat) (s : State) : Next :=
  s.issue at_ (firstBad [regsOk [d, a, b, 2 * n], s.divOk at_, s.cycleOk at_.t]) (fun s => s.eachTile at_ (fun s p =>
    let v := divVal (s.gri p a) (s.gri p b) n
    (s.useDiv p at_.t).result p at_.t 18 d v.1 v.2))

/-- SQRT of a Q(31 − n).n value; a negative operand returns 0 and sets SAT (R70). -/
def sqrtVal (a : Int) (n : Nat) : Nat × Bool := if a < 0 then (0, true) else satWord (sqrtR (a.toNat * 2 ^ n))

/-- SQRT: latency 18, on the divider (R70). -/
def execSqrt (at_ : Issue) (d a n : Nat) (s : State) : Next :=
  s.issue at_ (firstBad [regsOk [d, a, 2 * n], s.divOk at_, s.cycleOk at_.t]) (fun s => s.eachTile at_ (fun s p =>
    (s.useDiv p at_.t).result p at_.t 18 d (sqrtVal (s.gri p a) n) 0))

/-! ### Control flow -/

/-- BR: one bundle follows before the target when the condition holds (R73) (DESIGN CHOICE, log entry 3). -/
def execBr (at_ : Issue) (cond target : Nat) (s : State) : Next :=
  s.issue at_ (firstBad [regsOk [cond], (0x3106, decide (target < 4096)), s.cycleOk at_.t]) (fun s => s.eachTile at_ (fun s p =>
    if Config.truth (s.gr p cond) then s.updTile p (fun x => { x with branch := some (target, 1) }) else s))

/-- LOOPN: a loop over bundles `first` to `last`, `count` times (R74). -/
def execLoopn (at_ : Issue) (count first last : Nat) (s : State) : Next :=
  s.issue at_ (firstBad [(0x3106, decide (last < 4096)),
      (0x310A, decide (first < last) && decide (1 ≤ count) && decide ((s.tile (s.physTile at_.tile)).loops.length < 4)),
      s.cycleOk at_.t]) (fun s => s.eachTile at_ (fun s p =>
    s.updTile p (fun x => { x with loops := { first, last, left := count } :: x.loops })))

/-- WAIT: the whole tile idles for n cycles, 1 to 65,536 (R70). -/
def execWait (at_ : Issue) (n : Nat) (s : State) : Next :=
  s.issue at_ (firstBad [(0x3108, decide (1 ≤ n) && decide (n ≤ 65536)), s.cycleOk at_.t]) (fun s => s.eachTile at_ (fun s p =>
    s.updTile p (fun x => { x with idle := at_.t + n })))

/-- ENDF: the tile issues nothing from the next cycle to the next tick (R70, R76). -/
def execEndf (at_ : Issue) (s : State) : Next :=
  s.issue at_ (firstBad [s.cycleOk at_.t]) (fun s =>
    let s := s.eachTile at_ (fun s p => s.updTile p (fun x => { x with ended := some (at_.t + 1) }))
    if (s.shadowsOf at_.tile).isEmpty then s else s.bus (at_.t + 1) false (.shadowHash at_.tile))

/-! ### Local memory -/

/-- A local read of physical tile `p` delivers `n` bytes to `dst` two cycles later, with its ECC event (R70, R72). -/
def State.localRead (s : State) (i : Issue) (p a n : Nat) (dst : Loc) (e : Ecc) : State :=
  let e := if p = s.physTile i.tile then e else .clean
  let (s, data) := s.eccData e (s.bytes a n)
  (s.tileEcc p i.t e).pend p (i.t + 2) (locTarget dst) (wordsOf data)

/-- The bytes an operation of the tile takes from a data operand, with the ECC event of a data-SRAM read (R72). -/
def State.source (s : State) (i : Issue) (l : Loc) (n : Nat) (e : Ecc) : State × Bytes :=
  let p := s.physTile i.tile
  match l with
  | .g _ => (s, s.locBytes p l n)
  | .sram _ =>
    let (s, data) := s.eccData e (s.locBytes p l n)
    (s.tileEcc p i.t e, data)

/-- LLD: a load of `size` bytes from data SRAM into consecutive registers from `d`, latency 2 (R70) (DEDUCED, log entry 29). -/
def execLld (at_ : Issue) (d addr size : Nat) (ecc : Ecc) (s : State) : Next :=
  s.issue at_ (firstBad [sramOk addr size, sizeOk 0 size, locOk (.g d) size, s.cycleOk at_.t]) (fun s =>
    s.eachTile at_ (fun s p => s.localRead at_ p (Config.sramBase p + addr) size (.g d) ecc))

/-- LST: a store of `size` bytes from consecutive registers to data SRAM, seen by a local load issued at t + 1 (R70)
(DEDUCED, log entry 29). -/
def execLst (at_ : Issue) (src addr size : Nat) (s : State) : Next :=
  s.issue at_ (firstBad [sramOk addr size, sizeOk 0 size, locOk (.g src) size, s.cycleOk at_.t]) (fun s =>
    s.eachTile at_ (fun s p => s.pend p (at_.t + 1) (.sram addr) (wordsOf (s.locBytes p (.g src) size))))

/-- RECV: `size` bytes from offset `off` of receive-buffer entry `entry`, to registers or data SRAM, latency 2 (R70)
(DEDUCED, log entry 29). -/
def execRecv (at_ : Issue) (entry off size : Nat) (dst : Loc) (ecc : Ecc) (s : State) : Next :=
  s.issue at_ (firstBad [sizeOk off size, locOk dst size, (0x3112, decide (entry < 16)), s.cycleOk at_.t]) (fun s =>
    s.eachTile at_ (fun s p => s.localRead at_ p (Config.rxBase p + 32 * entry + off) size dst ecc))

/-! ### Calls and their regions (R88, R89, R159, R196) -/

/-- The latency of a call (R88, R157, R182). -/
def State.callLatency (s : State) : Engine → Nat → Nat
  | .loop, desc => loopLatency (leNat (s.bytes desc 2))
  | .solver _, desc => (s.svDesc desc).latency

/-- The descriptor passes the checks of its engine (R156, R198). -/
def State.callOk (s : State) : Engine → Nat → Bool
  | .loop, desc => s.loopDescOk desc
  | .solver u, desc => decide (u < 8) && decide (0x01000000 ≤ desc) && decide (desc < 0x01010000) && desc % 32 == 0 &&
      (s.svDesc desc).limitsOk && (s.svDesc desc).blocksOk

/-- A range of a window that a call declares: address, length, whether the engine writes it. -/
structure Region where
  addr : Nat
  len : Nat
  write : Bool
  deriving DecidableEq, Repr

/-- Two ranges share a byte. -/
def meets (a n b m : Nat) : Bool := decide (a < b + m) && decide (b < a + n)

/-- The window ranges a call's descriptor declares (R159, R196): the region of a solver call is the union of all its slices (R198). -/
def State.callRegion (s : State) (g : Engine) (desc : Nat) : List Region :=
  match g with
  | .loop =>
    let ns := s.loopList desc
    ⟨desc, 32 + (2 * ns.length + 31) / 32 * 32, false⟩ :: ⟨0x03030000, 0x600, false⟩ :: ⟨0x03030800, 0x200, false⟩ ::
      ns.map (fun r => ⟨loopRecAddr r, 0x100, true⟩)
  | .solver u =>
    let d := s.svDesc desc
    match d.ico with
    | none => []
    | some (i, _, o) =>
      let bmp := 32 * ((d.count + 255) / 256)
      ⟨desc, 96, false⟩ :: ⟨Config.storeBase + 0x10000 + 0x100 * u, 0x100, true⟩ ::
        (List.range d.phases).flatMap (fun j =>
          (if d.enAddr = 0 then [] else [⟨d.enAddr + j * bmp, bmp, false⟩]) ++
          (List.range d.count).flatMap (fun k =>
            [⟨d.inAddr + j * d.inPstride + k * d.inStride, 4 * i, false⟩, ⟨d.outAddr + j * d.outPstride + k * d.outStride, 4 * o, true⟩]))

/-- Two regions overlap where either engine writes (R198). -/
def regionsClash (as bs : List Region) : Bool := as.any (fun a => bs.any (fun b => (a.write || b.write) && meets a.addr a.len b.addr b.len))

/-- The calls in progress that share a cycle with `[a, b)`. -/
def State.callsDuring (s : State) (a b : Nat) : List Call := s.lat.calls.filter (fun x => decide (x.start < b) && decide (a < x.done))

/-- A tile access of `n` bytes from `a` in cycle `c` falls in no region of a call in progress (R89, check 0x3114). -/
def State.clearOfCalls (s : State) (c a n : Nat) : Nat × Bool :=
  (0x3114, (s.callsDuring c (c + 1)).all (fun x => (s.callRegion x.engine x.desc).all (fun r => !meets r.addr r.len a n)))

/-! ### Mesh -/

/-- SLD: the load reads at t + W + 2D + 2 and its value is readable at t + W + 4D + 6 (R70, R78, R80) (DEDUCED, log entry 29). -/
def execSld (at_ : Issue) (m : Mesh) (addr size : Nat) (dst : Loc) (ecc : Ecc) (s : State) : Next :=
  let b := meshAt m at_.t
  s.issue at_ (firstBad (s.meshOk at_.tile m (attachAt ((s.target addr).getD 0)) ++
      [locOk dst size, (0x310E, s.accessOk addr size false), s.clearOfCalls b addr size, s.cycleOk (at_.t + m.w + 4 * m.d + 6)])) (fun s =>
    s.bus b false (.load at_.tile addr size dst (at_.t + m.w + 4 * m.d + 6) ecc))

/-- SST: the store takes effect at the end of its attachment cycle (R70, R78) (DEDUCED, log entry 29). -/
def execSst (at_ : Issue) (m : Mesh) (addr size : Nat) (src : Loc) (ecc : Ecc) (s : State) : Next :=
  let b := meshAt m at_.t
  s.issue at_ (firstBad (s.meshOk at_.tile m (attachAt ((s.target addr).getD 0)) ++
      [locOk src size, (0x310E, s.accessOk addr size true), s.clearOfCalls b addr size, s.cycleOk b])) (fun s =>
    let (s, data) := s.source at_ src size ecc
    s.bus b true (.store 0 addr data))

/-- SEND: 32 bytes to a receive-buffer entry, written at the end of t + W + 2D + 1 (R70) (DEDUCED, log entry 29). -/
def execSend (at_ : Issue) (m : Mesh) (dest entry : Nat) (src : Loc) (ecc : Ecc) (s : State) : Next :=
  s.issue at_ (firstBad (s.meshOk at_.tile m (s.routerOf dest) ++
      [(0x3105, decide (dest < 32)), locOk src 32, (0x3112, decide (entry < 16)), s.cycleOk (meshAt m at_.t)])) (fun s =>
    let (s, data) := s.source at_ src 32 ecc
    s.bus (meshAt m at_.t - 1) true (.send dest entry data))

/-- A shared load's response reaches its tile (R80): time passes to the next one, with the load it answers. -/
def execSharedLoadResponse (s : State) : Next := .next <|
  let s := if s.lat.bus.any (fun e => match e.act with | .respond _ _ _ _ => true | _ => false) then s
    else s.runBusTo (fun a => match a with | .load _ _ _ _ _ _ => true | _ => false)
  s.runBusTo (fun a => match a with | .respond _ _ _ _ => true | _ => false)

/-- A SEND's flit is written into its receive-buffer entry (R70, R80). -/
def execSendDelivery (s : State) : Next := .next (s.runBusTo (fun a => match a with | .send _ _ _ => true | _ => false))

/-! ### Rings (R84 to R87) -/

/-- A ring. -/
def State.ring (s : State) (q : Nat) : Ring := s.lat.rings.getD q Ring.reset

/-- Change one ring. -/
def State.updRing (s : State) (q : Nat) (f : Ring → Ring) : State :=
  { s with lat := { s.lat with rings := updAt s.lat.rings q f } }

/-- The absolute cycle of cycle `t` of the frame in progress. -/
def State.absCycle (s : State) (t : Nat) : Nat := 8 * s.tb.lastTick + t

/-- The absolute cycle now. -/
def State.absNow (s : State) : Nat := 8 * s.tb.frc

/-- Checks of a ring operation (R84, R85). -/
def State.ringOk (s : State) (i : Issue) (q dir : Nat) : List (Nat × Bool) :=
  let r := s.ring q
  [(0x3105, decide (q < 128) && decide (0 < r.depth)),
   (0x3113, r.dir == dir && r.owner == i.tile && decide (r.busy ≤ s.absCycle i.t) &&
     decide ((s.lat.rings.filter (fun x => decide (s.absCycle i.t < x.busy))).length < 4))]

/-- RPOLL: up to 4 entries whose enqueue completed before cycle t, with a count word, at the end of t + 7 (R30, R86) (DEDUCED, log entry 33). -/
def execRpoll (at_ : Issue) (q addr : Nat) (s : State) : Next :=
  s.issue at_ (firstBad (s.ringOk at_ q 0 ++ [sramOk addr 260, s.cycleOk (at_.t + 7)])) (fun s =>
    let T := s.absCycle at_.t
    let got := ((s.ring q).entries.takeWhile (fun e => decide (e.at_ < T))).take 4
    let s := s.updRing q (fun r => { r with entries := r.entries.drop got.length, busy := T + 8 })
    s.deliver at_.tile (at_.t + 8) (.sram addr) (leBytes 4 got.length ++ got.flatMap (·.data)))

/-- RENQ: one 64-byte entry; G register d reads 0 when it was stored and 1 when the ring was full (R87) (DEDUCED, log entry 33). -/
def execRenq (at_ : Issue) (q addr d : Nat) (ecc : Ecc) (s : State) : Next :=
  s.issue at_ (firstBad (s.ringOk at_ q 1 ++ [sramOk addr 64, regsOk [d], s.cycleOk (at_.t + 3)])) (fun s =>
    let T := s.absCycle at_.t
    let (s, entry) := s.source at_ (.sram addr) 64 ecc
    let full := decide ((s.ring q).depth ≤ (s.ring q).entries.length)
    let s := s.updRing q (fun r => { r with
      entries := if full then r.entries else r.entries ++ [{ at_ := T + 4, data := entry }]
      overflow := if full then r.overflow + 1 else r.overflow
      busy := T + 4 })
    let s := s.deliver at_.tile (at_.t + 4) (.g d) (leBytes 4 (if full then 1 else 0))
    if full then s.eachTile at_ (fun s p => s.flag p (at_.t + 4) tsrRingfull) else s)

/-! ### Engines, digest, marker -/

/-- The first steps of a call on the bus: it begins, and its engine reaches its first access of a record or its first wave (R514, R184). -/
def State.startCall (s : State) (x : Call) : State :=
  let s := { s with lat := { s.lat with calls := s.lat.calls ++ [x] } }.bus x.start false (.begin x.engine)
  match x.engine with
  | .loop => s.bus (x.position 0 + 64) false (.loopStep x.start 0 0)
  | .solver _ =>
    let (w0, i, _) := s.waveAt x 0
    s.bus (w0 + i) false (.waveStep x.engine x.start 0 0)

/-- ECALL: the call starts at its delivery cycle and completes L later (R88).  `bad` lists the (list position or problem, word) pairs the
engine reads with an uncorrectable error (R72, R197), `cor` counts the errors corrected in the unit's lane scratch (R204), `mis` says that the two
units of a shadow differ (R202). -/
def execEcall (at_ : Issue) (m : Mesh) (e : Engine) (desc : Nat) (bad : List (Nat × Nat)) (cor : Nat) (mis : Bool) (s : State) : Next :=
  let start := meshAt m at_.t
  let att := match e with | .loop => attachLoop | .solver _ => attachSolver
  let done := start + s.callLatency e desc
  let others := s.callsDuring start done
  s.issue at_ (firstBad (s.meshOk at_.tile m (attachAt att) ++
      [(0x3105, match e with | .loop => true | .solver u => decide (u < 8)),
       (0x3114, s.callOk e desc && others.all (fun x => x.engine != e && !regionsClash (s.callRegion e desc) (s.callRegion x.engine x.desc))),
       s.cycleOk done])) (fun s =>
    s.startCall { engine := e, desc, start, done, bad, cor, mis, samples := [], seen := [], hash := [], blocks := [], tally := [] })

/-- An engine call completes at s + L: its results stand in its window, its summary goes to the digest (R88, R159, R160, R195, R196). -/
def execEngineCallComplete (e : Engine) (s : State) : Next := .next <|
  match s.lat.calls.find? (fun x => x.engine == e) with
  | none => s
  | some c => (s.toCycle c.done).settle c.done

/-- DABS: 32 bytes of data SRAM reach the digest at t + W + 2D + 2 (R70, R92). -/
def execDabs (at_ : Issue) (m : Mesh) (addr : Nat) (ecc : Ecc) (s : State) : Next :=
  s.issue at_ (firstBad (s.meshOk at_.tile m (attachAt attachExch) ++ [sramOk addr 32, s.cycleOk (meshAt m at_.t)])) (fun s =>
    let (s, data) := s.source at_ (.sram addr) 32 ecc
    s.bus (meshAt m at_.t) false (.absorb at_.tile addr data))

/-- What the digest of the frame still waits for at the DSEAL's arrival: a port-A write, a DABS or an engine call summary that arrives then or
later (R93, R352). -/
def State.digestLate (s : State) (arrival : Nat) : Bool :=
  s.lat.bus.any (fun e => decide (2 * arrival ≤ e.key) && match e.act with
    | .store _ _ _ => true
    | .absorb _ _ _ => true
    | _ => false) ||
  s.lat.calls.any (fun c => decide (arrival ≤ c.done))

/-- The frame's digest is sealed, or its seal is under way (R93). -/
def State.sealing (s : State) : Bool :=
  s.lat.sealed.isSome || s.lat.bus.any (fun e => match e.act with | .seal => true | .sealed _ => true | _ => false)

/-- DSEAL: issued by T0 once a frame; the seal completes 256 cycles after its arrival (R93). -/
def execDseal (at_ : Issue) (m : Mesh) (s : State) : Next :=
  let arrival := meshAt m at_.t
  s.issue at_ (firstBad (s.meshOk at_.tile m (attachAt attachExch) ++
      [(0x3118, at_.tile == 0 && !s.sealing && !s.digestLate arrival), s.cycleOk (arrival + 256)])) (fun s =>
    s.bus arrival false .seal)

/-- The seal completes: the frame's digest stands (R93, R352). -/
def execDigestSealComplete (s : State) : Next := .next <|
  let s := s.runBusTo (fun a => match a with | .seal => true | _ => false)
  s.runBusTo (fun a => match a with | .sealed _ => true | _ => false)

/-- A record's list of granule indices, padded to 32 bytes, and its granules (R142). -/
def RetRecord.body (r : RetRecord) : Bytes :=
  let l := r.granules.flatMap (fun g => leBytes 4 g.1)
  l ++ List.replicate ((32 - l.length % 32) % 32) 0 ++ r.granules.flatMap (·.2)

/-- A record as it stands in the journal: a 64-byte header with the frame number and the CRC-32, then its body (R142; the places in the header are a DESIGN
CHOICE, log entry 91). -/
def RetRecord.bytes (r : RetRecord) : Bytes := leBytes 8 r.frame ++ leBytes 4 r.crc ++ List.replicate 52 0 ++ r.body

/-- The record of frame `n` with granules `gs`, not yet committed. -/
def RetRecord.sealed (n : Nat) (gs : List (Nat × Bytes)) : RetRecord :=
  let r : RetRecord := { frame := n, crc := 0, granules := gs, marker := false }
  { r with crc := Config.crc32 r.body }

/-- The retentive capture buffer is sealed as the frame's record (R142). -/
def State.sealRecord (s : State) : State :=
  match s.tt.base with
  | none => s
  | some b =>
    let gs := s.tt.capture.map (fun i => (i, s.bytes (b.shared.retAddr + 32 * i) 32))
    let s := if s.rd R.TT_RET_STATUS_DIRTY_MAX < gs.length then s.wr R.TT_RET_STATUS_DIRTY_MAX (min 4095 gs.length) else s
    { s with tt := { s.tt with sealedRecs := s.tt.sealedRecs ++ [RetRecord.sealed s.tb.frameNo gs], capture := [] } }

/-- Work is outstanding at cycle `c`: another tile has not passed its ENDF, or a flit, call, transfer or copy is under way (R93). -/
def State.workLeft (s : State) (c : Nat) : Bool :=
  (List.range 32).any (fun l => l != 0 && !(s.tile (s.physTile l)).over c) || !s.lat.calls.isEmpty || s.lat.xfers.any (fun x => decide (c < x.done)) ||
    !s.lat.bus.isEmpty

/-- FCM: T0 posts the frame-complete marker two cycles after issue (R93); suppressed after an uncorrectable error (R72); one
posted in the guard band counts as late, and one that the next tick finds not yet posted is none of this frame (R34, R477). -/
def execFcm (at_ : Issue) (s : State) : Next :=
  let post := at_.t + 2
  let then_ := s.settle post
  let sealed := (s.settleThrough at_.t).lat.sealed.isSome
  s.issue at_ (firstBad [(0x3119, at_.tile == 0 && sealed && !s.lat.marker && !then_.workLeft post)]) (fun s =>
    if s.nextTick ≤ s.tb.lastTick + post / 8 then s
    else
      let s := (s.toCycle post).settle post
      if s.lat.suppress then s
      else
        let late := decide (s.G ≤ post)
        let s := { s with lat := { s.lat with marker := true, markerLate := late } }
        let s := if late then (s.wr R.SS_EVENTS_LATE 1).inc R.SS_LATE else s
        (s.sealRecord).emit .partner .mark [s.tb.frameNo])

end Sys2Proof.Machine
end

