-- ==== Sys2Proof/Machine/Mgmt.lean ====
section
/-! DEFINITION. What the asynchronous side does to rings and banks (R21, R22, R30, R349), and the retentive copy (R140 to
R144). -/

namespace Sys2Proof.Machine

open Sys2Proof

/-! ### Arbitration (R22) -/

/-- `n` retries are counted. -/
def State.retries (s : State) (n : Nat) : State :=
  s.wr R.HS_ARB_RETRY (min (2 ^ 32 - 1) (s.rd R.HS_ARB_RETRY + n))

/-- An asynchronous access met the timetabled side in its cycle: it is retried in the next, and counted (R22); one to the enclave's mailbox also counts
in SE_MBOX_RETRIES (R410). -/
def execAsyncAccessRetry (mailbox : Bool) (s : State) : Next := .next <|
  let s := s.retries 1
  if mailbox then s.inc R.SE_MBOX_RETRIES else s

/-- The word of its window the loop engine accesses `c` cycles after the start of a call (R514). -/
def State.engineAccess (s : State) (desc c : Nat) : Option Nat :=
  let l := s.loopList desc
  if c < 8 then some (desc + 4 * c)
  else if c < 8 + (l.length + 1) / 2 then some (desc + 32 + 4 * (c - 8))
  else if c < 320 then none
  else
    match l[(c - 320) / 330]? with
    | none => none
    | some r =>
      let k := (c - 320) % 330
      let a := loopRecAddr r
      if k < 64 then some (a + 4 * k)
      else if k < 76 then sourceAccess (s.word (a + 0x18 + 4 * ((k - 64) / 4))) ((k - 64) % 4)
      else if 266 ≤ k then some (a + 4 * (k - 266))
      else none

/-- A lane of a solver call accesses the word at `a` in cycle `c` of the frame: it loads an input word or stores an output word (R184). -/
def State.laneAccess (s : State) (x : Call) (a c : Nat) : Bool :=
  let d := s.svDesc x.desc
  let j := s.svSlice d
  match d.ico with
  | none => false
  | some (i, k, o) =>
    let w := (c - x.start - 256) / (i + k + o)
    let p := (c - x.start - 256) % (i + k + o)
    decide (x.start + 256 ≤ c) && (d.wave w).any (fun q =>
      (decide (p < i) && d.inAddr + j * d.inPstride + q * d.inStride + 4 * p == a) ||
      (decide (i + k ≤ p) && d.outAddr + j * d.outPstride + q * d.outStride + 4 * (p - i - k) == a))

/-- A bus act touches the word at `a`. -/
def BusAct.touches (x : BusAct) (a : Nat) : Bool :=
  let within (b n : Nat) : Bool := decide (b / 4 * 4 ≤ a) && decide (a < b + n)
  match x with
  | .load _ b n _ _ _ => within b n
  | .store _ b d => within b d.length
  | .priv b d => within b d.length
  | .gather _ b _ => within b 32
  | _ => false

/-- The timetabled side addresses the word at `a` of a bank or an engine window in cycle `c`: the mesh and the transfer bus, the loop engine, a solver
unit (R22, R176, R179). -/
def State.timetabledAt (s : State) (a c : Nat) : Bool :=
  s.lat.bus.any (fun e => e.key / 2 == c && e.act.touches a) ||
  s.lat.calls.any (fun x => decide (x.start ≤ c) && match x.engine with
    | .loop => s.engineAccess x.desc (c - x.start) == some a
    | .solver _ => s.laneAccess x a c)

/-- How often an access to the words `ws` is retried from cycle `c` on, at most `fuel` times. -/
def State.retriesAt (s : State) (ws : List Nat) : Nat → Nat → Nat
  | 0, _ => 0
  | fuel + 1, c => if ws.any (fun a => s.timetabledAt a c) then 1 + State.retriesAt s ws fuel (c + 1) else 0

/-- An asynchronous access to the words `ws` in cycle `sub` of the tb now is served: in RUN in the first cycle in which the timetabled side leaves them
alone, each retry counted (R22). -/
def State.serve (s : State) (ws : List Nat) (sub : Nat) : State :=
  if s.inRun then
    let c := 8 * (s.tb.frc - s.tb.lastTick) + sub % 8
    let n := s.retriesAt ws (s.lat.bus.length + 400) c
    (s.settle (c + n)).retries n
  else s

/-- The words that hold bytes `[a, a + n)`. -/
def wordsAt (a n : Nat) : List Nat := (List.range ((a % 4 + n + 3) / 4)).map (fun k => a / 4 * 4 + 4 * k)

/-- Bus acts before now take effect. -/
def State.settleNow (s : State) : State := if s.inRun then s.settle (8 * (s.tb.frc - s.tb.lastTick)) else s

/-! ### Enqueuing (R30, R84, R349) -/

/-- 64 bytes of an entry. -/
def pad64 (b : Bytes) : Bytes := (b ++ List.replicate 64 0).take 64

/-- How an enqueue ended. -/
inductive PutResult where
  | stored | full | undeclared | dropped
  deriving DecidableEq, Repr

/-- An enqueue onto inbound ring `q` from the management core, the route engine or a CAN FD port.  A ring a poll is using is
retried (R22).  In a pair the entry waits for its release and is mirrored; a unit that is not ACTIVE discards it (R349). -/
def State.ringPut (s : State) (q : Nat) (entry : Bytes) : State × PutResult :=
  let r := s.ring q
  if 128 ≤ q || r.depth = 0 || r.dir ≠ 0 then (s, .undeclared)
  else
    let wait := r.busy - s.absNow
    let s := s.retries wait
    let e : RingEntry := { at_ := s.absNow + wait, data := pad64 entry }
    match s.role with
    | .solo =>
      if r.depth ≤ r.entries.length then (s, .full)
      else (s.updRing q (fun r => { r with entries := r.entries ++ [e] }), .stored)
    | .active =>
      if r.depth ≤ r.entries.length + r.gated.length then (s, .full)
      else ((s.updRing q (fun r => { r with gated := r.gated ++ [e] })).emit .partner .exchange [0x0D04, q] e.data, .stored)
    | _ => (s.inc R.PA_RING_DROP, .dropped)

/-- The management core enqueues an entry on an inbound ring (R30). -/
def execMgmtRingEnqueue (q : Nat) (entry : Bytes) (s : State) : Next := .next (s.ringPut q entry).1

/-- Entries the asynchronous side takes from outbound ring `q`, at most `n` (R30) (DEDUCED, log entry 33). -/
def State.ringTake (s : State) (q n : Nat) : State × List Bytes :=
  let r := s.ring q
  if 128 ≤ q || r.depth = 0 || r.dir ≠ 1 then (s, [])
  else
    let wait := r.busy - s.absNow
    let s := s.retries wait
    let got := (r.entries.takeWhile (fun e => decide (e.at_ < s.absNow + max 1 wait))).take n
    (s.updRing q (fun r => { r with entries := r.entries.drop got.length }), got.map (·.data))

/-! ### Port B (R21, R144) -/

/-- The retentive region of the loaded base: address and size (R140). -/
def State.retRegion (s : State) : Nat × Nat :=
  match s.tt.base with
  | none => (0, 0)
  | some b => (b.shared.retAddr, b.shared.retSize)

/-- Bytes `[a, a + n)` touch the retentive region. -/
def State.inRetentive (s : State) (a n : Nat) : Bool :=
  let (lo, size) := s.retRegion
  decide (a < lo + size) && decide (lo < a + n) && decide (0 < n)

/-- A port-B write of the management core: only the banks are reached (R21); in RUN the retentive region refuses it, in STOP
it is written through to MRAM (R144) (DEDUCED, log entry 36).  A write that lies only partly in the region is refused as a whole (DESIGN CHOICE, log entry
89).  The access comes in cycle `sub` of its tb (R22). -/
def execPortbBankWrite (addr : Nat) (data : Bytes) (sub : Nat) (s : State) : Next := .next <|
  if Config.bankEnd < addr + data.length || data.isEmpty then s
  else
    let s := s.serve (wordsAt addr data.length) sub
    if s.inRetentive addr data.length then
      if s.inRun then s.wr R.TT_RET_STATUS_PORTB_REFUSED 1
      else
        let s := s.setBytes addr data
        if s.inStop then
          let lo := s.retRegion.1
          let gs := ((List.range ((addr % 32 + data.length + 31) / 32)).map (fun i => addr / 32 * 32 + 32 * i)).filter
            (fun x => s.inRetentive x 32)
          { s with tt := { s.tt with throughPending := s.tt.throughPending ++ gs.map (fun x => ((x - lo) / 32, s.bytes x 32)) } }
        else s
    else s.setBytes addr data

/-! ### MRAM -/

/-- Granules written into the MRAM copy. -/
def State.mramPut (s : State) (gs : List (Nat × Bytes)) : State :=
  gs.foldl (fun s g => s.setBytes (Config.mramBase + 32 * g.1) g.2) s

/-- TT_RET_STATUS.BUSY follows the records under way (R152). -/
def State.retBusy (s : State) : State :=
  s.wr R.TT_RET_STATUS_BUSY (if s.tt.sealedRecs.isEmpty && s.tt.journal.isEmpty then 0 else 1)

/-- The port-B writes of R144 reach the MRAM copy (DEDUCED, log entry 36). -/
def execRetentiveWriteThrough (s : State) : Next := .next <|
  let s := s.mramPut s.tt.throughPending
  { s with tt := { s.tt with throughPending := [] } }

/-- The cells of the retentive region, at their offsets in the MRAM copy. -/
def State.regionCells (s : State) : List Host.Cell :=
  let (lo, size) := s.retRegion
  (s.mem.filter (fun c => decide (lo ≤ c.1) && decide (c.1 < lo + size))).map (fun c => (Config.mramBase + (c.1 - lo), c.2))

/-- After a start that did not restore the region, the first durable record overwrites the MRAM copy (R145). -/
def State.mramOverwrite (s : State) : State :=
  match s.tt.coldCopy, s.tt.base with
  | some cells, some b =>
    let s := s.clearMem Config.mramBase (Config.mramBase + 0x100000)
    let s := cells.foldl (fun s c => s.setByte c.1 c.2) s
    { s with tt := { s.tt with
        coldCopy := none
        journal := []
        mram := some { image := b.id, addr := b.shared.retAddr, size := b.shared.retSize } } }
  | _, _ => s

/-- The oldest sealed record's commit marker is written: it is durable (R142) (DEDUCED, log entry 53). -/
def State.commitRecord (s : State) : State :=
  match s.tt.sealedRecs with
  | [] => s
  | r :: rs =>
    let s := s.mramOverwrite
    let s := { s with tt := { s.tt with sealedRecs := rs, journal := s.tt.journal ++ [{ r with marker := true }] } }
    (s.wr64 R.TT_RET_FRAME_LO R.TT_RET_FRAME_HI r.frame).retBusy

/-- A sealed record becomes durable: the engine writes it from the tick after its frame (R142), or in the shutdown order
after the warning (R143) (DESIGN CHOICE, log entry 86). -/
def execRetentiveRecordCommit (s : State) : Next := .next <|
  match s.tt.sealedRecs with
  | r :: _ => if r.frame < s.tb.frameNo || s.bit R.SS_STATUS_PFW || s.sup.latticeStop || !s.inRun then s.commitRecord else s
  | [] => s

/-- Every sealed record of a frame before `n` is durable by the tick that opens frame `n` + 1 (R142). -/
def State.commitBefore (s : State) (n : Nat) : State :=
  (List.range s.tt.sealedRecs.length).foldl (fun s _ => match s.tt.sealedRecs with
    | r :: _ => if r.frame < n then s.commitRecord else s
    | [] => s) s

/-- The oldest durable record, its commit marker written and its CRC-32 good, is folded into the MRAM copy (R142) (DEDUCED, log entry 79). -/
def State.foldRecord (s : State) : State :=
  match s.tt.journal with
  | [] => s
  | r :: rs =>
    let s := if r.marker && r.crc == Config.crc32 r.body then s.mramPut r.granules else s
    { s with tt := { s.tt with journal := rs } }.retBusy

/-- A durable record is folded (R142) (DEDUCED, log entry 79). -/
def execRetentiveFold (s : State) : Next := .next s.foldRecord

/-- Every durable record is folded. -/
def State.foldAll (s : State) : State := (List.range s.tt.journal.length).foldl (fun s _ => s.foldRecord) s

end Sys2Proof.Machine
end

