-- ==== Sys2Proof/Machine/Admission.lean ====
section
/-! DEFINITION. Admission (R97 to R113): the issue simulation of one frame over all loop iterations and both arms of every
branch, and the checks 0x3101 to 0x311D in the order of their codes.  Nothing here changes a State. -/

namespace Sys2Proof.Machine

open Sys2Proof

/-- A failed check with its location (R99, R102). -/
structure Fail where
  code : Nat
  tile : Nat := 0
  bundle : Nat := 0
  resp : Bool := false
  cycle : Nat := 0
  kind : Nat := 0
  index : Nat := 0
  deriving DecidableEq, Repr

/-- An operation as the simulation issues it. -/
structure Ev where
  tile : Nat
  bundle : Nat
  cycle : Nat
  slot : IssueSlot
  op : TileOp
  deriving DecidableEq, Repr

/-- A failure at an operation. -/
def evFail (code : Nat) (e : Ev) (cycle kind index : Nat) : Fail :=
  { code, tile := e.tile, bundle := e.bundle, cycle, kind, index }

/-- Fail with the location when the condition does not hold. -/
def require (ok : Bool) (f : Fail) : List Fail := if ok then [] else [f]

/-! ### What an operation uses -/

/-- The mesh fields of an operation, its slot-plan KIND (R83), and its destination attachment or tile. -/
def opMesh : TileOp → Option (Mesh × Nat)
  | .sld m _ _ _ => some (m, 1)
  | .sst m _ _ _ => some (m, 2)
  | .send m _ _ _ => some (m, 3)
  | .ecall m _ _ => some (m, 4)
  | .xstart m _ => some (m, 5)
  | .dabs m _ => some (m, 6)
  | .dseal m => some (m, 7)
  | _ => none

/-- Results an operation issued at `t` writes to G registers (number) and accumulators (64 + number), with their due cycle. -/
def opWrites (t : Nat) : TileOp → List (Nat × Nat)
  | .alu (.clearTsr _) => []
  | .alu (.bin _ d _ _) => [(d, t + 1)]
  | .alu (.not d _) => [(d, t + 1)]
  | .alu (.select d _ _ _) => [(d, t + 1)]
  | .alu (.move d _) => [(d, t + 1)]
  | .alu (.imm d _) => [(d, t + 1)]
  | .alu (.special d _) => [(d, t + 1)]
  | .sat o => [(satDst o, t + 1)]
  | .mul d _ _ _ => [(d, t + 3)]
  | .mac a _ _ => [(64 + a, t + 3)]
  | .accrd d _ _ => [(d, t + 2)]
  | .div d _ _ _ => [(d, t + 18)]
  | .sqrt d _ _ => [(d, t + 18)]
  | .lld d _ n => (List.range (n / 4)).map (fun k => (d + k, t + 2))
  | .recv _ _ n (.g r) => (List.range (n / 4)).map (fun k => (r + k, t + 2))
  | .sld m _ n (.g r) => (List.range (n / 4)).map (fun k => (r + k, t + m.w + 4 * m.d + 6))
  | .renq _ _ d => [(d, t + 4)]
  | _ => []

/-- The granules of a transfer descriptor and whether it is an input (R90). -/
def xGranules : XDesc → Nat
  | .fgIn _ _ => 8 | .fgOut _ _ => 8 | .dioIn _ => 4 | .dioOut _ => 2 | .canSnap _ m _ => 1 + 3 * m | .chainStat _ _ => 2
def xInput : XDesc → Bool
  | .fgOut _ _ => false | .dioOut _ => false | _ => true
def xAddr : XDesc → Nat
  | .fgIn _ a => a | .fgOut _ a => a | .dioIn a => a | .dioOut a => a | .canSnap _ _ a => a | .chainStat _ a => a

/-- The slot of an operation (R70). -/
def slotOk (s : IssueSlot) : TileOp → Bool
  | .alu _ => s != .mem
  | .sat _ => s != .mem
  | .mul _ _ _ _ => s == .mac | .mac _ _ _ => s == .mac | .accrd _ _ _ => s == .mac | .div _ _ _ _ => s == .mac
  | .sqrt _ _ _ => s == .mac
  | .br _ _ => s == .alu0 | .loopn _ _ _ => s == .alu0 | .endf => s == .alu0
  | .wait _ => true
  | .undefined => false
  | _ => s == .mem

/-- Data-SRAM ranges an operation touches (check 0x3107). -/
def opSram : TileOp → List (Nat × Nat)
  | .lld _ a n => [(a, n)] | .lst _ a n => [(a, n)] | .recv _ _ n (.sram a) => [(a, n)] | .rpoll _ a => [(a, 260)] | .renq _ a _ => [(a, 64)]
  | .sld _ _ n (.sram a) => [(a, n)] | .sst _ _ n (.sram a) => [(a, n)] | .send _ _ _ (.sram a) => [(a, 32)]
  | .dabs _ a => [(a, 32)]
  | _ => []

/-! ### The image as a whole -/

/-- The bank of a bank address under a group map (R79). -/
def bankIn (bm : List (Nat × Nat)) (a : Nat) : Nat :=
  let b := a / 0x80000
  match bm.find? (fun g => decide (g.1 ≤ b) && decide (b < g.1 + 2 ^ g.2)) with
  | some (first, k) => first + (a - first * 0x80000) / 32 % 2 ^ k
  | none => b

/-- What a shared address reaches under a group map. -/
def targetIn (bm : List (Nat × Nat)) (a : Nat) : Option Nat :=
  if a < Config.bankEnd then some (bankIn bm a)
  else if Config.storeBase ≤ a && decide (a < Config.storeEnd) then some 16
  else if Config.loopBase ≤ a && decide (a < Config.loopEnd) then some 17
  else none

/-- The attachment an operation goes to. -/
def opAttach (bm : List (Nat × Nat)) : TileOp → Option Nat
  | .sld _ a _ _ => targetIn bm a
  | .sst _ a _ _ => targetIn bm a
  | .ecall _ .loop _ => some attachLoop
  | .ecall _ (.solver _) _ => some attachSolver
  | .xstart _ _ => some attachXfer
  | .dabs _ _ => some attachExch
  | .dseal _ => some attachExch
  | _ => none

/-- The external footprint of an operation (R73): nothing for operations inside the tile. -/
def footprint (bm : List (Nat × Nat)) (o : TileOp) : List Nat :=
  let att := (opAttach bm o).getD 99
  match o with
  | .rpoll q _ => [10, q]
  | .renq q _ _ => [11, q]
  | .fcm => [12]
  | .endf => [13]
  | .xstart m x => [5, m.w, m.d, if m.yx then 1 else 0, att, xGranules x, bankIn bm (xAddr x)]
  | .send m dest entry _ => [3, m.w, m.d, if m.yx then 1 else 0, dest, entry]
  | .ecall m e _ => [4, m.w, m.d, if m.yx then 1 else 0, att, match e with | .loop => 8 | .solver u => u]
  | o => match opMesh o with
    | some (m, k) => [k, m.w, m.d, if m.yx then 1 else 0, att]
    | none => []

/-! ### The issue simulation -/

/-- The operations of a bundle. -/
def bundleOps (c : TileCode) (b : Nat) : List (IssueSlot × TileOp) := c.bundles.getD (b - c.first) []

/-- The state of one path through a tile's stream: a `Tile` whose `pend` holds the results on their way. -/
def pathStart (c : TileCode) : Tile := { Tile.reset with bundle := c.entry }

/-- A result's target as a pending target. -/
def writeTarget (w : Nat × Nat) : Pend := { due := w.2, target := if w.1 < 64 then .g w.1 else .acc (w.1 - 64), val := [] }

/-- One operation on a path: the failures it shows and the path after it.  A 0x310B on accumulator a reports INDEX 64 + a (DESIGN CHOICE, log
entry 89). -/
def pathOp (e : Ev) (x : Tile) : List Fail × Tile :=
  let ws := ((opWrites e.cycle e.op).filter (fun w => w.1 != 0)).map writeTarget
  let clash := ws.filter (fun w => x.pend.contains w)
  let f1 := clash.map (fun w => evFail 0x310B e (w.due - 1) 10 (match w.target with | .g r => r | .acc a => 64 + a | _ => 0))
  let x := { x with pend := x.pend ++ ws }
  match e.op with
  | .div _ _ _ _ => (f1 ++ require (decide (x.divFree ≤ e.cycle)) (evFail 0x310C e e.cycle 11 0), { x with divFree := e.cycle + 16 })
  | .sqrt _ _ _ => (f1 ++ require (decide (x.divFree ≤ e.cycle)) (evFail 0x310C e e.cycle 11 0), { x with divFree := e.cycle + 16 })
  | .loopn n first last =>
    (f1 ++ require (decide (first < last) && decide (1 ≤ n) && decide (x.loops.length < 4)) (evFail 0x310A e e.cycle 0 0),
      { x with loops := { first, last, left := n } :: x.loops })
  | .wait n => (f1, { x with idle := e.cycle + n })
  | .endf => (f1, { x with ended := some (e.cycle + 1) })
  | _ => (f1, x)

/-- One cycle of a path: its operations, failures and the paths after it, two where a BR selects between arms. -/
def pathStep (c : TileCode) (tile t : Nat) (x : Tile) : List Ev × List Fail × List Tile :=
  if x.over t || decide (t < x.idle) then ([], [], [x])
  else
    let evs := (bundleOps c x.bundle).map (fun so => ({ tile, bundle := x.bundle, cycle := t, slot := so.1, op := so.2 } : Ev))
    let x := { x with pend := x.pend.filter (fun p => decide (t < p.due)) }
    let (fs, x) := evs.foldl (fun (fx : List Fail × Tile) e => let (f, y) := pathOp e fx.2; (fx.1 ++ f, y)) ([], x)
    let brs := evs.filterMap (fun e => match e.op with | .br _ target => some target | _ => none)
    let xs := x :: brs.map (fun target => { x with branch := some (target, 1) })
    (evs, fs, xs.map Tile.next)

/-- What the simulation of one tile gives: its operations, with the mesh and ring operations of one arm of each branch; those of the other arms,
whose footprint is the same (R73); failures, and whether every path ended. -/
structure Sim where
  evs : List Ev
  alt : List Ev
  fails : List Fail
  ended : Bool
  deriving DecidableEq, Repr

/-- The operation belongs to the footprint of its arm (R73). -/
def outside (bm : List (Nat × Nat)) (e : Ev) : Bool := !(footprint bm e.op).isEmpty

/-- The cycles from `t` on. -/
def simFrom (bm : List (Nat × Nat)) (c : TileCode) (tile : Nat) : Nat → Nat → List Tile → Sim → Sim
  | 0, t, xs, r => { r with ended := xs.all (·.over t) }
  | fuel + 1, t, xs, r =>
    if xs.all (·.over t) then { r with ended := true }
    else
      let steps := xs.map (pathStep c tile t)
      let evs := (steps.headD ([], [], [])).1
      let foot (v : List Ev) : List (List Nat) := (v.map (fun e => footprint bm e.op)).filter (fun l => !l.isEmpty)
      let even := steps.all (fun v => foot v.1 == foot evs)
      let bal := if even then [] else [{ code := 0x3109, tile, bundle := (xs.headD Tile.reset).bundle, cycle := t : Fail }]
      let others := (steps.drop 1).flatMap (fun v => v.1)
      simFrom bm c tile fuel (t + 1) (steps.flatMap (fun v => v.2.2)).eraseDups
        { evs := r.evs ++ evs ++ others.filter (fun e => !outside bm e)
          alt := r.alt ++ (others.filter (outside bm)).eraseDups
          fails := r.fails ++ steps.flatMap (fun v => v.2.1) ++ bal
          ended := false }

/-- Simulate a tile for one frame of `n` cycles. -/
def simTile (bm : List (Nat × Nat)) (tile n : Nat) (c : TileCode) : Sim :=
  simFrom bm c tile n 0 [pathStart c] { evs := [], alt := [], fails := [], ended := false }

/-! ### Static checks -/

/-- How often a base, variant, parameter, limit and map image carries sections of a TYPE, at most and at least (R104). -/
def sectTable : List (Nat × List (Nat × Nat)) :=
  let one := [(1, 1), (0, 0), (0, 0), (0, 0), (0, 0)]
  let both := [(1, 1), (1, 1), (0, 0), (0, 0), (0, 0)]
  [(0x01, both), (0x02, one), (0x03, one), (0x04, one), (0x05, one), (0x06, one), (0x07, one), (0x08, one),
   (0x09, [(0, 1), (0, 0), (0, 0), (0, 0), (0, 0)]), (0x10, [(32, 32), (32, 32), (0, 0), (0, 0), (0, 0)]),
   (0x11, [(0, 32), (0, 0), (0, 0), (0, 0), (0, 0)]), (0x12, [(0, 16), (0, 0), (0, 0), (0, 0), (0, 0)]),
   (0x13, [(0, 1), (0, 0), (0, 0), (0, 0), (0, 0)]), (0x14, both), (0x15, [(0, 1), (0, 1), (0, 0), (0, 0), (0, 0)]),
   (0x20, [(0, 0), (0, 0), (1, 1), (0, 0), (0, 0)]), (0x21, [(0, 0), (0, 0), (0, 0), (1, 1), (0, 0)]),
   (0x22, [(0, 0), (0, 0), (0, 0), (0, 0), (1, 1)]), (0xF0, List.replicate 5 (0, 1))]

/-- The column of a KIND in the table of R104: base, variant, parameter, limit, map. -/
def sectColumn (kind : Nat) : Nat := match kind with | 1 => 0 | 5 => 1 | 2 => 2 | 3 => 3 | _ => 4

/-- The section set of R104: each TYPE as often as the image's kind carries it, its INDEX a tile, a bank or 0 and never repeated, the sections in the
order of the table, on 64-byte boundaries, behind the table and before TOTAL_LEN. -/
def sectsOk (m : Image) : Bool :=
  let most (ty : Nat) : Nat := match ty with | 0x10 => 32 | 0x11 => 32 | 0x12 => 16 | _ => 1
  let counts := sectTable.all (fun row =>
    let n := (m.sects.filter (fun s => s.type == row.1)).length
    let (lo, hi) := row.2.getD (sectColumn m.kind) (0, 0)
    decide (lo ≤ n) && decide (n ≤ hi))
  let known := m.sects.all (fun s => (sectTable.map (·.1)).contains s.type && decide (s.index < most s.type) && s.off % 64 == 0 &&
    decide (0x80 + 64 * m.sects.length ≤ s.off) && decide (s.off + s.len ≤ m.totalLen))
  let order := (m.sects.zip (m.sects.drop 1)).all (fun (a, b) => decide (a.off + a.len ≤ b.off))
  decide (1 ≤ m.sects.length) && decide (m.sects.length ≤ 128) && counts && known && order && (m.sects.map (fun s => (s.type, s.index))).Nodup

/-- Two bank groups share no bank (R79). -/
def groupsApart (bm : List (Nat × Nat)) : Bool :=
  ((List.range 16).all (fun b => decide ((bm.filter (fun g => decide (g.1 ≤ b) && decide (b < g.1 + 2 ^ g.2))).length ≤ 1)))

/-- A CHANDEF entry names a logical and a physical item of its kind; DO28 to DO31 are never mapped (R116). -/
def chanOk (c : ChanDef) : Bool :=
  match c.kind with
  | 1 => decide (c.logical < 96) && decide (c.physical < 96)
  | 2 => decide (c.logical < 32) && decide (c.physical < 32) && c.modeClass == 0
  | 3 => decide (c.logical < 28) && decide (c.physical < 28) && c.modeClass == 0
  | _ => false

/-- 0x3101: the layout, the declared identity, the parameter areas, the bank groups, the mirrors and the retentive region
(R79, R103 to R106, R112, R117, R140) (DESIGN CHOICE, log entry 22; DEDUCED, log entry 32). -/
def checkFormat (m : Image) : List Fail :=
  let base := m.kind == 1
  let items := m.mirrors.flatMap (fun d => d.flatMap (fun (k, a, b) => [(k, a), (k, b)]))
  let lo := m.shared.retAddr
  let n := m.shared.retSize
  let apart (a l : Nat) : Bool := decide (n = 0) || decide (a + l ≤ lo) || decide (lo + n ≤ a)
  let baseOk := m.digestSelf == m.layoutDigest && m.baseId == m.id && m.baseVerMin == m.ver && m.baseVerMax == m.ver &&
    decide (m.shared.pair ≤ 1) && decide (m.params.length ≤ 64) &&
    m.params.all (fun p => p.2.1 % 32 == 0 && p.2.2 % 32 == 0 && decide (p.2.2 ≤ 65536) && decide (p.2.1 + p.2.2 ≤ Config.bankEnd)) &&
    decide (m.limits.length ≤ 4096) && m.limits.all (fun l => l.addr % 4 == 0 &&
      (decide (l.addr < Config.bankEnd) || (decide (Config.loopBase ≤ l.addr) && decide (l.addr < Config.loopEnd)))) &&
    decide (m.bankmap.length ≤ 8) && m.bankmap.all (fun g => decide (g.2 ≤ 4) && g.1 % 2 ^ g.2 == 0 && decide (g.1 + 2 ^ g.2 ≤ 16)) &&
    groupsApart m.bankmap && m.chans.all chanOk && (m.chans.map (fun c => (c.kind, c.logical))).Nodup &&
    decide (m.mirrors.length ≤ 8) && m.mirrors.all (fun d => decide (1 ≤ d.length) && decide (d.length ≤ 64)) && items.Nodup &&
    lo % 32 == 0 && n % 32 == 0 && decide (n ≤ 0x100000) && decide (lo + n ≤ Config.bankEnd) &&
    apart m.shared.exAddr m.shared.exSize && m.params.all (fun p => apart p.2.1 p.2.2) && m.limits.all (fun l => apart l.addr 4)
  require (m.wellFormed && m.hashesOk && sectsOk m && m.id != 0 && decide (1 ≤ m.kind) && decide (m.kind ≤ 5) && (!base || baseOk)) { code := 0x3101 }

/-- The floor key of an image: bases and overlays keep separate floors per ID (R107). -/
def floorKey (m : Image) : Nat := 2 * m.id + (if m.kind = 1 then 0 else 1)

/-- Steps 1 to 4 and 6 of R400: the block is in order, its key is a release key or stands under the owner key, a delegated key is not revoked,
the signature verifies, TARGET names any module or this one, an encrypted image decrypts under FIK. -/
def State.signerOk (s : State) (b : Signer) : Bool :=
  b.formOk && b.sigOk && decide (1 ≤ b.kind) && decide (b.kind ≤ 3) && (b.kind == 1 || s.trust.owner == some b.key) &&
    (b.kind != 3 || !s.trust.revoked.contains b.delegate) && (b.target == 0 || b.target == Config.serial) &&
    (b.fik.isNone || b.fik == s.trust.fik)

/-- 0x3102: the signature (KIND 2 or 3, R398), the version floor and the hardware revision (R103, R107) (DESIGN CHOICE, log entry 22). -/
def State.checkAuth (s : State) (m : Image) : List Fail :=
  require (s.signerOk m.signer && m.signer.kind != 1 && decide (alGet 0 s.tt.floors (floorKey m) ≤ m.ver) && (m.minHwRev == 0 || decide (m.minHwRev ≤ Config.hwRev)))
    { code := 0x3102 }

/-- 0x3103: the period and D (R49, R53). -/
def State.checkPeriod (s : State) (m : Image) : List Fail :=
  let p := m.decl.period
  require ((if m.kind = 1 then p == s.P else decide (25000 ≤ p) && decide (p ≤ 2000000) && p % 1000 == 0) &&
    p % (m.decl.subframes + 1) == 0) { code := 0x3103 }

/-- Operations as they stand in the code. -/
def staticOps (m : Image) : List Ev :=
  (m.code.zipIdx).flatMap (fun (c, tile) => (c.bundles.zipIdx).flatMap (fun (b, i) =>
    b.map (fun so => ({ tile, bundle := c.first + i, cycle := 0, slot := so.1, op := so.2 } : Ev))))

/-- 0x3105 (R99). -/
def checkIdentity (m : Image) (ops : List Ev) : List Fail :=
  let ring (q : Nat) : Bool := decide (q < 128) && m.rings.any (fun r => r.ring == q)
  ops.flatMap (fun e => match e.op with
    | .send _ dest _ _ => require (decide (dest < 32)) (evFail 0x3105 e 0 0 0)
    | .ecall _ (.solver u) _ => require (decide (u < 8)) (evFail 0x3105 e 0 8 u)
    | .rpoll q _ => require (ring q) (evFail 0x3105 e 0 6 q)
    | .renq q _ _ => require (ring q) (evFail 0x3105 e 0 6 q)
    | _ => []) ++
  require (m.rings.all (fun r => decide (r.ring < 128) && decide (r.owner < 32)) && decide (m.code.length ≤ 32)) { code := 0x3105 }

/-- 0x3106 (R99, R105). -/
def checkSize (m : Image) : List Fail :=
  (m.code.zipIdx).flatMap (fun (c, tile) =>
    let inside (b : Nat) : Bool := decide (c.first ≤ b) && decide (b ≤ c.last)
    let targets := (c.bundles.flatten).all (fun so => match so.2 with
      | .br _ t => inside t
      | .loopn _ a b => inside a && inside b
      | _ => true)
    require (decide (c.first ≤ c.last) && decide (c.last ≤ 4095) && decide (c.bundles.length ≤ c.last + 1 - c.first) &&
      inside c.entry && targets) { code := 0x3106, tile })

/-- 0x3107. -/
def checkData (m : Image) (ops : List Ev) : List Fail :=
  m.data.flatMap (fun d => require (decide (d.2.length ≤ 0x20000)) { code := 0x3107, tile := d.1 }) ++
  ops.flatMap (fun e => require ((opSram e.op).all (fun r => decide (r.1 + r.2 ≤ 0x20000))) (evFail 0x3107 e 0 0 0))

/-- Operand fields that an encoding can hold (0x3108). -/
def fieldsOk : TileOp → Bool
  | .alu o => (aluRegs o).all (fun r => decide (r < 64))
  | .sat o => (satRegs o).all (fun r => decide (r < 64))
  | .mul d a b n => [d, a, b, 2 * n].all (fun r => decide (r < 64))
  | .mac k a b => decide (k < 4) && decide (a < 64) && decide (b < 64)
  | .accrd d k n => decide (d < 64) && decide (k < 4) && decide (n < 64)
  | .div d a b n => [d, a, b, 2 * n].all (fun r => decide (r < 64))
  | .sqrt d a n => [d, a, 2 * n].all (fun r => decide (r < 64))
  | .br c t => decide (c < 64) && decide (t < 4096)
  | .loopn _ a b => decide (a < 4096) && decide (b < 4096)
  | .wait n => decide (1 ≤ n) && decide (n ≤ 65536)
  | .lld d _ n => (sizeOk 0 n).2 && (locOk (.g d) n).2
  | .lst r _ n => (sizeOk 0 n).2 && (locOk (.g r) n).2
  | .recv _ off n (.g r) => (sizeOk off n).2 && (locOk (.g r) n).2
  | .recv _ off n (.sram _) => (sizeOk off n).2
  | .sld m _ n (.g r) => decide (m.w ≤ 15) && decide (m.d ≤ 10) && decide (r + n / 4 ≤ 64)
  | .sst m _ n (.g r) => decide (m.w ≤ 15) && decide (m.d ≤ 10) && decide (r + n / 4 ≤ 64)
  | .send m _ _ (.g r) => decide (m.w ≤ 15) && decide (m.d ≤ 10) && decide (r + 8 ≤ 64)
  | .undefined => false
  | o => match opMesh o with
    | some (m, _) => decide (m.w ≤ 15) && decide (m.d ≤ 10)
    | none => true

/-- 0x3108. -/
def checkEncoding (m : Image) (ops : List Ev) : List Fail :=
  ops.flatMap (fun e => require (fieldsOk e.op && slotOk e.slot e.op) (evFail 0x3108 e 0 0 0)) ++
  (m.code.zipIdx).flatMap (fun (c, tile) => (c.bundles.zipIdx).flatMap (fun (b, i) =>
    let waits := b.any (fun so => match so.2 with | .wait _ => true | _ => false)
    require ((b.map (·.1)).Nodup && (!waits || b.length == 1)) { code := 0x3108, tile, bundle := c.first + i }))

/-! ### Resource checks -/

/-- One use of a resource that only one may use in a cycle. -/
structure Use where
  cycle : Nat
  kind : Nat
  index : Nat
  tile : Nat
  bundle : Nat
  resp : Bool
  deriving DecidableEq, Repr

/-- The earliest cycle in which two uses meet, as a failure. -/
def clash (code : Nat) (us : List Use) : List Fail :=
  let hits := (us.zipIdx).filterMap (fun (u, i) =>
    if (us.take i).any (fun v => v.cycle == u.cycle && v.kind == u.kind && v.index == u.index) then some u else none)
  match hits with
  | [] => []
  | h :: hs =>
    let u := hs.foldl (fun a b => if b.cycle < a.cycle then b else a) h
    [{ code, tile := u.tile, bundle := u.bundle, resp := u.resp, cycle := u.cycle, kind := u.kind, index := u.index }]

/-- Delivery cycle of a mesh operation. -/
def evAt (e : Ev) : Nat := match opMesh e.op with
  | some (m, _) => meshAt m e.cycle
  | none => e.cycle

/-- A port-A access: cycle, address, bytes, whether a write, the operation. -/
structure PortUse where
  cycle : Nat
  addr : Nat
  len : Nat
  write : Bool
  ev : Ev
  deriving DecidableEq, Repr

/-- The exchange copy of a pair-capable image, granule k at c + k (R91). -/
def copyUses (m : Image) : List PortUse :=
  if m.shared.pair = 0 then [] else
  let e0 : Ev := { tile := 0, bundle := 0, cycle := 0, slot := .mem, op := .endf }
  (List.range ((m.shared.exSize + 31) / 32)).map (fun k =>
    { cycle := m.decl.cutOver + k, addr := m.shared.exAddr + 32 * k, len := 32, write := true, ev := e0 })

/-- Every port-A access of the frame (R77). -/
def portUses (m : Image) (evs : List Ev) : List PortUse :=
  evs.flatMap (fun e => match e.op with
    | .sld _ a n _ => [{ cycle := evAt e, addr := a, len := n, write := false, ev := e }]
    | .sst _ a n _ => [{ cycle := evAt e, addr := a, len := n, write := true, ev := e }]
    | .xstart _ x => (List.range (xGranules x)).map (fun k =>
        { cycle := evAt e + 8 + k, addr := xAddr x + 32 * k, len := 32, write := xInput x, ev := e })
    | _ => []) ++ copyUses m

/-- KIND and INDEX of a failure at a shared address: a bank, a window, or nothing the space holds (R102). -/
def placeOf (bm : List (Nat × Nat)) (a : Nat) : Nat × Nat :=
  match targetIn bm a with
  | none => (0, 0)
  | some b => if b < 16 then (1, b) else (12, b)

/-- 0x310D (R77). -/
def checkBanks (m : Image) (us : List PortUse) : List Fail :=
  clash 0x310D (us.map (fun u =>
    { cycle := u.cycle, kind := (placeOf m.bankmap u.addr).1, index := (placeOf m.bankmap u.addr).2, tile := u.ev.tile, bundle := u.ev.bundle, resp := false }))

/-- 0x310E (R68, R155, R178). -/
def checkAddress (m : Image) (us : List PortUse) : List Fail :=
  us.flatMap (fun u =>
    let ok := [4, 8, 16, 32].contains u.len && u.addr % u.len == 0 && match targetIn m.bankmap u.addr with
      | none => false
      | some 16 => match u.ev.op with
        | .sld _ _ _ _ => true
        | .sst _ _ _ _ => decide (0x01100000 ≤ u.addr) && decide (u.addr < 0x02800000)
        | _ => false
      | some 17 => match u.ev.op with
        | .sld _ _ _ _ => true
        | .sst _ _ _ _ => decide (u.addr < 0x03020000)
        | _ => false
      | some _ => true
    require ok (evFail 0x310E u.ev u.cycle (placeOf m.bankmap u.addr).1 (placeOf m.bankmap u.addr).2))

/-- A flit of the mesh: its route as routers from source to destination, injection cycle, D, whether it ends or starts at an
attachment. -/
structure Flit where
  route : List (Nat × Nat)
  inj : Nat
  d : Nat
  toAttach : Bool
  tile : Nat
  bundle : Nat
  resp : Bool
  deriving DecidableEq, Repr

/-- The numbers from `a` to `b`, upward or downward. -/
def span (a b : Nat) : List Nat :=
  if a ≤ b then (List.range (b - a + 1)).map (a + ·) else (List.range (a - b + 1)).map (a - ·)

/-- The route from `p` to `q`, along x first or, with `yx`, along y first (R81). -/
def routeOf (p q : Nat × Nat) (yx : Bool) : List (Nat × Nat) :=
  if yx then (span p.2 q.2).map (fun y => (p.1, y)) ++ ((span p.1 q.1).drop 1).map (fun x => (x, q.2))
  else (span p.1 q.1).map (fun x => (x, p.2)) ++ ((span p.2 q.2).drop 1).map (fun y => (q.1, y))

/-- The physical router of logical tile `l` under a placement (a list of physical indices). -/
def placeAt (pl : List Nat) (l : Nat) : Nat × Nat := let p := pl.getD l 0; (p % 6, p / 6)

/-- The flits of an operation under a placement: the request and, for a shared load, the response (R80, R81). -/
def evFlits (m : Image) (pl : List Nat) (e : Ev) : List Flit :=
  match opMesh e.op with
  | none => []
  | some (x, k) =>
    let src := placeAt pl e.tile
    let dst := match e.op with
      | .send _ dest _ _ => placeAt pl dest
      | o => attachAt ((opAttach m.bankmap o).getD 0)
    let r := routeOf src dst x.yx
    let req : Flit := { route := r, inj := e.cycle + x.w, d := x.d, toAttach := k != 3, tile := e.tile, bundle := e.bundle, resp := false }
    if k = 1 then
      [req, { route := r.reverse, inj := evAt e + 2, d := x.d, toAttach := false, tile := e.tile, bundle := e.bundle, resp := true }]
    else [req]

/-- 0x3104 (R82). -/
def checkDistance (fs : List Flit) : List Fail :=
  fs.flatMap (fun f => require (decide (f.route.length - 1 ≤ f.d))
    { code := 0x3104, tile := f.tile, bundle := f.bundle, resp := f.resp, cycle := f.inj })

/-- The direction from one router to a neighbour: N 0, E 1, S 2, W 3 (R102). -/
def dirOf (p q : Nat × Nat) : Nat := if q.2 < p.2 then 0 else if p.1 < q.1 then 1 else if p.2 < q.2 then 2 else 3

/-- 0x310F: link k of the route at injection + 2k (R80, R83). -/
def checkLinks (fs : List Flit) : List Fail :=
  clash 0x310F (fs.flatMap (fun f => ((f.route.zip (f.route.drop 1)).zipIdx).map (fun (pq, k) =>
    { cycle := f.inj + 2 * (k + 1), kind := 2, index := (pq.1.1 + 6 * pq.1.2) * 4 + dirOf pq.1 pq.2, tile := f.tile,
      bundle := f.bundle, resp := f.resp })))

/-- 0x3110: injection ports, and the ejection port of a router's tile or attachment (R83). -/
def checkPorts (fs : List Flit) : List Fail :=
  let router (p : Nat × Nat) : Nat := p.1 + 6 * p.2
  let use (f : Flit) (cycle kind index : Nat) : Use :=
    { cycle, kind, index, tile := f.tile, bundle := f.bundle, resp := f.resp }
  let inj := fs.map (fun f => use f f.inj 3 (router (f.route.headD (0, 0))))
  let ej (att : Bool) := (fs.filter (fun f => f.toAttach == att)).map (fun f =>
    use f (f.inj + 2 * f.d + 1) 4 (router (f.route.getLastD (0, 0))))
  clash 0x3110 inj ++ clash 0x3110 (ej true) ++ clash 0x3110 (ej false)

/-- 0x3111: a flit stands in the hold buffer from its arrival up to its ejection (R83). -/
def checkHold (fs : List Flit) : List Fail :=
  let router (f : Flit) : Nat := (f.route.getLastD (0, 0)).1 + 6 * (f.route.getLastD (0, 0)).2
  let held (c r : Nat) : Nat := (fs.filter (fun f =>
    router f == r && decide (f.inj + 2 * (f.route.length - 1) + 1 ≤ c) && decide (c < f.inj + 2 * f.d + 1))).length
  fs.flatMap (fun f => (List.range (2 * f.d + 1)).flatMap (fun k =>
    require (decide (held (f.inj + k) (router f) ≤ 4))
      { code := 0x3111, tile := f.tile, bundle := f.bundle, resp := f.resp, cycle := f.inj + k, kind := 5, index := router f }))

/-- 0x3112: entries above 15, a read before the frame's first write, a write over an unread entry (R99). -/
def checkReceive (evs : List Ev) : List Fail :=
  let writes := evs.filterMap (fun e => match e.op with | .send _ dest entry _ => some (dest, entry, evAt e - 1, e) | _ => none)
  let reads := evs.filterMap (fun e => match e.op with | .recv entry _ _ _ => some (e.tile, entry, e.cycle, e) | _ => none)
  writes.flatMap (fun (d, n, c, e) =>
    let clobbered := writes.any (fun (d', n', c', e') => d == d' && n == n' && e != e' && decide (c' ≤ c) &&
      !reads.any (fun (d2, n2, c2, _) => d2 == d && n2 == n && decide (c' < c2) && decide (c2 ≤ c)))
    require (decide (n ≤ 15) && !clobbered) (evFail 0x3112 e c 0 n)) ++
  reads.flatMap (fun (d, n, c, e) =>
    require (decide (n ≤ 15) && writes.any (fun (d', n', c', _) => d == d' && n == n' && decide (c' < c))) (evFail 0x3112 e c 0 n))

/-- 0x3113 (R84, R85). -/
def checkRings (m : Image) (evs : List Ev) : List Fail :=
  let ops := evs.filterMap (fun e => match e.op with
    | .rpoll q _ => some (q, 0, e.cycle, e.cycle + 8, e)
    | .renq q _ _ => some (q, 1, e.cycle, e.cycle + 4, e)
    | _ => none)
  m.rings.flatMap (fun r => require (decide (r.dir ≤ 1) && decide (4 ≤ r.depth) && decide (r.depth ≤ 1024))
    { code := 0x3113, kind := 6, index := r.ring }) ++
  require (decide ((m.rings.map (·.depth)).sum ≤ 32768)) { code := 0x3113, kind := 6 } ++
  ops.flatMap (fun (q, dir, a, b, e) =>
    let decl := m.rings.any (fun r => r.ring == q && r.dir == dir && r.owner == e.tile)
    let overlap := ops.any (fun (q', _, a', b', e') => q == q' && e != e' && decide (a' ≤ a) && decide (a < b'))
    let busy := (ops.filter (fun (_, _, a', b', _) => decide (a' ≤ a) && decide (a < b'))).length
    require (decl && !overlap) (evFail 0x3113 e a 6 q) ++ require (decide (busy ≤ 4)) (evFail 0x3113 e a 7 q) ++
      require (decide (a < b)) (evFail 0x3113 e a 6 q))

/-! ### Engines, transfers, phases -/

/-- A State whose engine windows hold the image's ENGINE section and zeros elsewhere (R174, R200). -/
def State.withEngine (s : State) (m : Image) : State :=
  m.engine.foldl (fun s e => s.setBytes e.1 e.2) ((s.clearMem Config.storeBase Config.storeEnd).clearMem Config.loopBase Config.loopEnd)

/-- Calls of the frame: engine, descriptor, start, done. -/
def State.callsOf (s : State) (evs : List Ev) : List (Engine × Nat × Nat × Nat × Ev) :=
  evs.filterMap (fun e => match e.op with
    | .ecall _ g desc => some (g, desc, evAt e, evAt e + s.callLatency g desc, e)
    | _ => none)

/-- 0x3114: a call of an engine that holds one, a descriptor outside its limits, two calls in progress with overlapping regions, a window access
in the region of a call in progress (R88, R89, R156, R198). -/
def State.checkEngines (s : State) (m : Image) (evs : List Ev) (us : List PortUse) : List Fail :=
  let s := s.withEngine m
  let cs := s.callsOf evs
  let index (g : Engine) : Nat := match g with | .loop => 8 | .solver u => u
  cs.flatMap (fun (g, desc, a, b, e) =>
    let others := cs.filter (fun (_, _, a', b', e') => e != e' && decide (a' < b) && decide (a < b'))
    require (s.callOk g desc && others.all (fun (g', desc', _, _, _) => g != g' && !regionsClash (s.callRegion g desc) (s.callRegion g' desc')))
      (evFail 0x3114 e a 8 (index g))) ++
  us.flatMap (fun u => cs.flatMap (fun (g, desc, a, b, _) =>
    let touch := decide (a ≤ u.cycle) && decide (u.cycle < b) && (s.callRegion g desc).any (fun r => meets r.addr r.len u.addr u.len)
    require (!touch) (evFail 0x3114 u.ev u.cycle 12 ((targetIn m.bankmap u.addr).getD 0))))

/-- Transfers of the frame: descriptor, start, busy end, operation. -/
def xfersOf (evs : List Ev) : List (XDesc × Nat × Nat × Ev) :=
  evs.filterMap (fun e => match e.op with
    | .xstart _ x => some (x, evAt e, evAt e + 8 + xGranules x, e)
    | _ => none)

/-- 0x3115 (R90). -/
def checkTransfers (xs : List (XDesc × Nat × Nat × Ev)) : List Fail :=
  xs.flatMap (fun (x, a, _, e) =>
    let overlap := xs.any (fun (_, a', b', e') => e != e' && decide (a' ≤ a) && decide (a < b'))
    let mOk := match x with
      | .canSnap p k _ => decide (k ≤ 256) && decide (p < 8)
      | .fgIn g _ => decide (g < 12) | .fgOut g _ => decide (g < 12) | .chainStat p _ => decide (p < 8) | _ => true
    require (mOk && !overlap) (evFail 0x3115 e a 9 0))

/-- 0x3116 (R98, R99). -/
def checkPhases (m : Image) (xs : List (XDesc × Nat × Nat × Ev)) (G : Nat) : List Fail :=
  let d := m.decl
  require (decide (d.inEnd ≤ d.execStart) && decide (d.execStart ≤ d.outStart) && decide (d.outStart ≤ d.outEnd) && decide (d.outEnd < G))
    { code := 0x3116 } ++
  xs.flatMap (fun (x, a, b, e) =>
    require (if xInput x then decide (b ≤ d.inEnd) else decide (d.outStart ≤ a) && decide (b ≤ d.outEnd)) (evFail 0x3116 e a 9 0))

/-- 0x3117 (R91, R348). -/
def State.checkExchange (s : State) (m : Image) (evs : List Ev) (us : List PortUse) (xs : List (XDesc × Nat × Nat × Ev)) : List Fail :=
  if m.shared.pair = 0 then [] else
  let b := m.shared.exSize
  let lo := m.shared.exAddr
  let x := m.decl.exStart
  let c := m.decl.cutOver
  let copyEnd := c + (b + 31) / 32
  let a := (8 * b + 99) / 100 + 700
  let s := s.withEngine m
  require (decide (b ≤ 0x40000) && decide (x + 8 * a ≤ c) && lo % 32 == 0 && decide (lo + b ≤ Config.bankEnd)) { code := 0x3117 } ++
  us.flatMap (fun u =>
    require (u.write || !(meets lo b u.addr u.len && decide (x ≤ u.cycle) && decide (u.cycle < copyEnd)))
      (evFail 0x3117 u.ev u.cycle (placeOf m.bankmap u.addr).1 (placeOf m.bankmap u.addr).2)) ++
  xs.flatMap (fun (d, t, _, e) =>
    require (!xInput d || (decide (lo ≤ xAddr d) && decide (xAddr d + 32 * xGranules d ≤ lo + b))) (evFail 0x3117 e t 0 0)) ++
  (s.callsOf evs).flatMap (fun (g, _, t, _, e) =>
    match g with
    | .loop => require (decide (copyEnd ≤ t)) (evFail 0x3117 e t 0 0)
    | _ => [])

/-- The seal's arrival and the marker's posting. -/
def sealEvs (evs : List Ev) : List Ev := evs.filter (fun e => match e.op with | .dseal _ => true | _ => false)
def fcmEvs (evs : List Ev) : List Ev := evs.filter (fun e => e.op == .fcm)

/-- 0x3118 (R93, R352). -/
def State.checkDigest (s : State) (m : Image) (evs : List Ev) (us : List PortUse) : List Fail :=
  match sealEvs evs with
  | [e] =>
    let arr := evAt e
    let s := s.withEngine m
    let late := us.any (fun u => u.write && decide (arr ≤ u.cycle)) ||
      evs.any (fun x => match x.op with | .dabs _ _ => decide (arr ≤ evAt x) | _ => false) ||
      (s.callsOf evs).any (fun (_, _, _, b, _) => decide (arr ≤ b))
    require (e.tile == 0 && !late) (evFail 0x3118 e arr 0 0)
  | e :: _ => [evFail 0x3118 e (evAt e) 0 0]
  | [] => [{ code := 0x3118 }]

/-- 0x3119 (R93, R105). -/
def State.checkMarker (s : State) (m : Image) (evs : List Ev) (xs : List (XDesc × Nat × Nat × Ev)) (fs : List Flit) (G : Nat) : List Fail :=
  match fcmEvs evs with
  | [e] =>
    let post := e.cycle + 2
    let s := s.withEngine m
    let sealed := (sealEvs evs).all (fun x => decide (evAt x + 256 ≤ e.cycle))
    let work := (s.callsOf evs).any (fun (_, _, _, b, _) => decide (post < b)) || xs.any (fun (_, _, b, _) => decide (post < b)) ||
      fs.any (fun f => decide (post < f.inj + 2 * f.d + 2)) ||
      (m.shared.pair == 1 && decide (post < m.decl.cutOver + (m.shared.exSize + 31) / 32)) ||
      (List.range 32).any (fun l => l != 0 && !evs.any (fun x => x.tile == l && x.op == .endf && decide (x.cycle < post)))
    require (e.tile == 0 && decide (post < G) && post == m.decl.marker && sealed && !work) (evFail 0x3119 e post 0 0)
  | e :: _ => [evFail 0x3119 e (e.cycle + 2) 0 0]
  | [] => [{ code := 0x3119 }]

/-- 0x311A (R26, R97). -/
def State.checkGuard (s : State) (m : Image) (sims : List Sim) (evs : List Ev) (us : List PortUse) (fs : List Flit) (G : Nat) : List Fail :=
  let s := s.withEngine m
  evs.flatMap (fun e => require (decide (e.cycle < G) && decide (evAt e < G)) (evFail 0x311A e e.cycle 0 0)) ++
  us.flatMap (fun u => require (decide (u.cycle < G)) (evFail 0x311A u.ev u.cycle 0 0)) ++
  fs.flatMap (fun f => require (decide (f.inj + 2 * f.d + 1 < G)) { code := 0x311A, tile := f.tile, bundle := f.bundle, cycle := f.inj }) ++
  (s.callsOf evs).flatMap (fun (_, _, _, b, e) => require (decide (b ≤ G)) (evFail 0x311A e b 0 0)) ++
  (sims.zipIdx).flatMap (fun (r, tile) => require r.ended { code := 0x311A, tile })

/-- 0x311B (R98, R141): the granules written in a frame count 32 bytes each; a store whose arms write different granules counts one more where none
of them is written elsewhere for certain (DEDUCED, log entry 32). -/
def checkRetentive (m : Image) (us alt : List PortUse) : List Fail :=
  let lo := m.shared.retAddr
  let inside (u : PortUse) : Bool := u.write && decide (lo ≤ u.addr) && decide (u.addr < lo + m.shared.retSize)
  let arms (u : PortUse) : List PortUse := alt.filter (fun v => v.write && v.ev.tile == u.ev.tile && v.cycle == u.cycle)
  let sure := ((us.filter (fun u => inside u && (arms u).all (fun v => v.addr / 32 == u.addr / 32))).map (fun u => u.addr / 32)).eraseDups
  let maybe := us.filter (fun u => u.write && (arms u).any (fun v => v.addr / 32 != u.addr / 32) &&
    (u :: arms u).any (fun v => inside v && !sure.contains (v.addr / 32)))
  require (decide (m.shared.retBound ≤ 0x10000) && decide (32 * (sure.length + maybe.length) ≤ m.shared.retBound)) { code := 0x311B }

/-- 0x311C (R108). -/
def checkReloc (m : Image) : List Fail :=
  require (decide (m.reloc.length ≤ 64) && m.reloc.all (fun r => r.length == 32 && r.Nodup && r.all (fun p => decide (p < 36)))) { code := 0x311C }

/-- The slot-plan records of an operation under a placement: its own, with the router of its destination, and a shared load's response, with the
router of the tile that issued it (R83). -/
def evRecs (m : Image) (pl : List Nat) (e : Ev) : List SlotRec :=
  match opMesh e.op with
  | none => []
  | some (x, k) =>
    let router (p : Nat × Nat) : Nat := p.1 + 6 * p.2
    let dst := match e.op with
      | .send _ dest _ _ => placeAt pl dest
      | o => attachAt ((opAttach m.bankmap o).getD 0)
    let r : SlotRec := { tile := e.tile, bundle := e.bundle, cycle := e.cycle, w := x.w, d := x.d, yx := x.yx, dest := router dst, kind := k }
    if k = 1 then [r, { r with tile := 31, dest := router (placeAt pl e.tile) }] else [r]

/-- The placement at delivery (R66). -/
def deliveryPlacement : List Nat := (List.range 36).filter (fun p => !([14, 15, 20, 21].contains p))

/-- The slot plan holds, for the placement in force, that at delivery or one the relocation records name, the records of every mesh operation, of one
arm at least where a branch selects, and no record besides; occupancy is then that of the operations (R83) (DEDUCED, log entry 32). -/
def planOk (m : Image) (pl : List Nat) (evs alt : List Ev) : Bool :=
  (pl :: deliveryPlacement :: m.reloc).any (fun pl =>
    let all := (evs ++ alt).flatMap (evRecs m pl)
    m.slotPlan.Nodup && m.slotPlan.all (fun r => all.contains r) && evs.all (fun e =>
      (e :: alt.filter (fun x => x.tile == e.tile && x.cycle == e.cycle)).any (fun x =>
        opMesh x.op = none || (!(evRecs m pl x).isEmpty && (evRecs m pl x).all (fun r => m.slotPlan.contains r)))))

/-! ### Overlays (R111) -/

/-- A variant runs with the base's shared sections in place of its own (R111). -/
def overBase (v b : Image) : Image :=
  { v with shared := b.shared, bankmap := b.bankmap, rings := b.rings, params := b.params, limits := b.limits, chans := b.chans,
           mirrors := b.mirrors, engine := b.engine }

/-- 0x311D (R111). -/
def checkOverlay (m b : Image) (residents : List Image) : List Fail :=
  let fit := m.baseId == b.id && decide (m.baseVerMin ≤ b.ver) && decide (b.ver ≤ m.baseVerMax) && m.layoutDigest == b.layoutDigest
  let paramOk (i : ParamItem) : Bool := b.params.any (fun p => p.1 == i.area && decide (32 * i.offset + i.bytes.length ≤ p.2.2))
  let limitOk (l : Nat × Int) : Bool := match b.limits[l.1]? with
    | some d => decide (d.min ≤ l.2) && decide (l.2 ≤ d.max)
    | none => false
  let mapOk (i : Nat × Nat × Nat) : Bool := b.chans.any (fun c => c.kind == i.1 && c.logical == i.2.1) &&
    decide (i.2.2 < (match i.1 with | 1 => 96 | 2 => 32 | 3 => 28 | _ => 0))
  let ranges (x : Image) (l : Nat) : Nat × Nat := ((x.code.map (fun c => (c.first, c.last))).getD l (0, 0))
  let apart := (b :: residents).all (fun x => (List.range 32).all (fun l =>
    let p := ranges m l
    let q := ranges x l
    decide (p.2 < q.1) || decide (q.2 < p.1)))
  let kindOk := match m.kind with
    | 2 => m.paramSet.all paramOk
    | 3 => m.limitSet.all limitOk
    | 4 => m.mapSet.all mapOk && (m.mapSet.map (fun i => (i.1, i.2.2))).Nodup
    | 5 => apart
    | _ => false
  require (fit && kindOk) { code := 0x311D }

/-! ### The run of all checks -/

/-- The failure with the lowest code, the first found of that code. -/
def lowest : List Fail → Option Fail
  | [] => none
  | f :: fs => match lowest fs with
    | none => some f
    | some g => if g.code < f.code then some g else some f

/-- The checks of a timetable, base or variant, under a placement, with the operations simulated over one frame. -/
def State.checkTimetable (s : State) (m : Image) (pl : List Nat) : List Fail :=
  let G := 38 * m.decl.period / 5
  let ops := staticOps m
  let sims := (m.code.zipIdx).map (fun (c, tile) => simTile m.bankmap tile G c)
  let evs := sims.flatMap (·.evs)
  let alt := sims.flatMap (·.alt)
  let us := portUses m evs
  -- what each arm of a branch addresses is checked for every arm, what it occupies once (R73)
  let others := portUses { m with shared := { m.shared with pair := 0 } } alt
  let as := us ++ others
  let fs := evs.flatMap (evFlits m pl)
  let xs := xfersOf evs
  require (planOk m pl evs alt) { code := 0x3101 } ++ s.checkPeriod m ++ checkDistance fs ++ checkIdentity m ops ++ checkSize m ++ checkData m ops ++
    checkEncoding m ops ++ sims.flatMap (·.fails) ++ checkBanks m us ++ checkAddress m as ++ checkLinks fs ++ checkPorts fs ++
    checkHold fs ++ checkReceive evs ++ checkRings m evs ++ s.checkEngines m evs as ++ checkTransfers xs ++ checkPhases m xs G ++
    s.checkExchange m evs as xs ++ s.checkDigest m evs us ++ s.checkMarker m evs xs fs G ++ s.checkGuard m sims evs us fs G ++
    checkRetentive m us others ++ checkReloc m

/-- The placement in force. -/
def State.placement (s : State) : List Nat := (List.range 32).map s.physTile

/-- The placement LT_RELOC_CTRL names. -/
def State.proposedPlacement (s : State) : List Nat :=
  s.placement.set (s.rd R.LT_RELOC_LOGICAL) (s.rd R.LT_RELOC_TARGET)

/-- Variants resident in instruction SRAM besides slot `slot` (R113): a slot that has become STALE held one of a base since replaced. -/
def State.residents (s : State) (slot : Nat) : List Image :=
  (s.tt.slots.zipIdx).filterMap (fun (x, i) =>
    if i + 1 = slot || s.bit R.TT_SLOT_STALE i then none else x.image.filter (fun m => m.kind == 5))

/-- Admission of an image for slot `slot` under a placement: the first failing check (R99, R100, R111) (DEDUCED, log entry 32). -/
def State.admission (s : State) (m : Image) (slot : Nat) (pl : List Nat) : Option Fail :=
  if slot = 0 then
    lowest (require (m.kind == 1) { code := 0x3101 } ++ checkFormat m ++ s.checkAuth m ++ s.checkTimetable m pl)
  else match s.tt.base with
    | none => some { code := 0x311D }
    | some b =>
      let common := require (m.kind != 1) { code := 0x3101 } ++ checkFormat m ++ s.checkAuth m ++ checkOverlay m b (s.residents slot)
      lowest (if m.kind = 5 then common ++ s.checkTimetable (overBase m b) pl else common)

/-- The placement check of R94 and R109: checks 0x3104, 0x310F, 0x3110 and 0x3111 for the base and every resident variant (DEDUCED, log entry 32);
with no base admitted there is nothing to fail (DESIGN CHOICE, log entry 89). -/
def State.placementCheck (s : State) (pl : List Nat) : Option Fail :=
  match s.tt.base with
  | none => none
  | some b =>
    let imgs := b :: (s.residents 0).map (fun v => overBase v b)
    lowest (imgs.flatMap (fun m =>
      let evs := (m.code.zipIdx).flatMap (fun (c, tile) => (simTile m.bankmap tile (38 * m.decl.period / 5) c).evs)
      let fs := evs.flatMap (evFlits m pl)
      checkDistance fs ++ checkLinks fs ++ checkPorts fs ++ checkHold fs))

end Sys2Proof.Machine
end

