-- ==== Sys2Proof/Machine/Rates.lean ====
section
/-! DEFINITION. The rate at which a channel's windows end under the frame period and sub-frames in force (R211, R213). -/

namespace Sys2Proof.Machine

open Sys2Proof

/-- The minimum window of a mode in tb (R211). -/
def minWindow (mode : Nat) : Nat :=
  match mode with
  | 1 | 2 | 3 | 8 | 9 => 25000
  | 4 | 5 | 6 => 100000
  | _ => 0

/-- The applied mode, range and sensor of a terminal. -/
def State.chMode (s : State) (g t : Nat) : Nat := s.rd R.CH_CFG_MODE g t
def State.chRange (s : State) (g t : Nat) : Nat := s.rd R.CH_CFG_RANGE g t
def State.chSensor (s : State) (g t : Nat) : Nat := s.rd R.CH_CFG_SENSOR g t

/-- CH_RATE.N and CH_RATE.K; 0 reads as 1 (R240). -/
def State.chN (s : State) (g t : Nat) : Nat := max 1 (s.rd R.CH_RATE_N g t)
def State.chK (s : State) (g t : Nat) : Nat := max 1 (s.rd R.CH_RATE_K g t)

/-- Where a channel's windows end: at every j-th sub-frame edge, or at the ticks of frames whose number modulo m is 0. -/
inductive WinRate where
  | sub (j : Nat)
  | ticks (m : Nat)
  deriving DecidableEq, Repr

/-- The smallest multiple m of `n` with m × P at least `w`. -/
def ticksFor (n P w : Nat) : Nat := n * max 1 ((w + n * P - 1) / (n * P))

/-- Sub-frames per frame (R53). -/
def State.subframes (s : State) : Nat := s.rd R.TT_FRAME_PERIOD_SUBFRAMES + 1

/-- The rate in force, and whether the channel adapts (R213). -/
def State.winRate (s : State) (g t : Nat) : WinRate × Bool :=
  let w := minWindow (s.chMode g t)
  let P := s.P
  let D := s.subframes
  match s.rd R.CH_CFG_RATE_MODE g t with
  | 0 =>
    if w ≤ P / D then (.sub 1, false)
    else match (List.range (D + 1)).find? (fun j => j != 0 && D % j == 0 && decide (w ≤ j * (P / D))) with
      | some j => (.sub j, true)
      | none => (.ticks (ticksFor 1 P w), true)
  | 2 => let n := s.chN g t
         if w ≤ n * P then (.ticks n, false) else (.ticks (ticksFor n P w), true)
  | _ => if w ≤ P then (.ticks 1, false) else (.ticks (ticksFor 1 P w), true)

/-- The nominal window W of the rate in force. -/
def State.nominalW (s : State) (g t : Nat) : Nat :=
  match (s.winRate g t).1 with
  | .sub j => j * (s.P / s.subframes)
  | .ticks m => m * s.P

/-- FG_STATUS.RATE_ADAPTED of every group (R213). -/
def State.rateAdapted (s : State) : State :=
  (List.range 12).foldl (fun s g => s.wr R.FG_STATUS_RATE_ADAPTED
    (if (List.range 8).any (fun t => s.chMode g t != 0 && (s.winRate g t).2) then 1 else 0) g) s

end Sys2Proof.Machine
end

