-- ==== Sys2Proof/Machine/Modes.lean ====
section
/-! DEFINITION. The effective configuration (R114 to R117) and the mode switch (R118 to R126). -/

namespace Sys2Proof.Machine

open Sys2Proof

/-! ### The effective configuration -/

/-- The slots a mode word names, ascending (R114). -/
def slotsIn (active : Nat) : List Nat := ((List.range 16).filter (bitOf active)).map (· + 1)

/-- The image in slot `k` (1 to 16). -/
def State.slotImage (s : State) (k : Nat) : Option Image := (s.tt.slots[k - 1]?).bind (·.image)

/-- The images a mode word names, ascending. -/
def State.named (s : State) (active : Nat) : List Image := (slotsIn active).filterMap s.slotImage

/-- The shared address of offset `off` of bank `b` under a group map (R79). -/
def sharedOf (bm : List (Nat × Nat)) (b off : Nat) : Nat :=
  match bm.find? (fun g => decide (g.1 ≤ b) && decide (b < g.1 + 2 ^ g.2)) with
  | some (first, k) => first * 0x80000 + (off / 32 * 2 ^ k + (b - first)) * 32 + off % 32
  | none => b * 0x80000 + off

/-- The initial contents a base gives banks and engine windows, as granules at shared addresses (R104) (DEDUCED, log entry 78). -/
def baseCells (m : Image) : List (Nat × Bytes) :=
  m.bankInit.flatMap (fun (b, bs) => (List.range ((bs.length + 31) / 32)).map (fun k =>
    (sharedOf m.bankmap b (32 * k), (bs.drop (32 * k)).take 32))) ++ m.engine

/-- Byte `a` of the base's initial contents; 0 where no section gives it (R145) (DEDUCED, log entry 78). -/
def baseByte (m : Image) (a : Nat) : Byte :=
  match (baseCells m).find? (fun c => decide (c.1 ≤ a) && decide (a < c.1 + c.2.length)) with
  | some c => c.2.getD (a - c.1) 0
  | none => 0

/-- The granules a parameter overlay sets: address and bytes (R112). -/
def paramGranules (b m : Image) : List (Nat × Bytes) :=
  m.paramSet.flatMap (fun i => match b.params.find? (fun p => p.1 == i.area) with
    | none => []
    | some p => (List.range (i.bytes.length / 32)).map (fun k =>
        (p.2.1 + 32 * (i.offset + k), (i.bytes.drop (32 * k)).take 32)))

/-- The words a limit overlay sets: address and bytes (R112). -/
def limitWords (b m : Image) : List (Nat × Bytes) :=
  m.limitSet.filterMap (fun l => (b.limits[l.1]?).map (fun d => (d.addr, leBytes 4 (ofInt 32 l.2))))

/-- The last listed value at an address: a later slot overrides an earlier one (R114). -/
def lastAt (l : List (Nat × Bytes)) (a : Nat) : Option Bytes := ((l.filter (fun x => x.1 == a)).getLast?).map (·.2)

/-- The map of a mode word: CHANDEF, the map overlays, then the engaged mirrors (R114, R116, R117) (DEDUCED, log entry 78). -/
def State.mapFor (s : State) (b : Image) (active mirror : Nat) : List ChanDef :=
  let sets := (s.named active).flatMap (·.mapSet)
  let m := b.chans.map (fun c => match (sets.filter (fun i => i.1 == c.kind && i.2.1 == c.logical)).getLast? with
    | some i => { c with physical := i.2.2 }
    | none => c)
  let swap (m : List ChanDef) (t : Nat × Nat × Nat) : List ChanDef :=
    match m.find? (fun c => c.kind == t.1 && c.logical == t.2.1), m.find? (fun c => c.kind == t.1 && c.logical == t.2.2) with
    | some x, some y => m.map (fun c =>
        if c.kind == t.1 && c.logical == t.2.1 then { c with physical := y.physical }
        else if c.kind == t.1 && c.logical == t.2.2 then { c with physical := x.physical } else c)
    | _, _ => m
  ((List.range 8).filter (bitOf mirror)).foldl (fun m k => (b.mirrors.getD k []).foldl swap m) m

/-- The timetable a mode word selects: the named variant's over what the base declares, or the base's (R112, R114). -/
def State.timetableFor (s : State) (b : Image) (active : Nat) : Image :=
  match (s.named active).find? (fun m => m.kind == 5) with
  | some v => overBase v b
  | none => b

/-- The timetable in force. -/
def State.timetable (s : State) : Option Image := s.tt.base.map (fun b => s.timetableFor b (s.rd R.TT_MODE_CUR_ACTIVE))

/-- Insert a write in ascending address order (DEDUCED, log entry 78). -/
def deltaIns : List DeltaWrite → DeltaWrite → List DeltaWrite
  | [], w => [w]
  | x :: l, w => if w.addr < x.addr then w :: x :: l else x :: deltaIns l w

/-- The delta of a switch (R115): every granule and limit entry named by a slot of the old or the new word, with the value
the new word gives it, in ascending address order. -/
def State.deltaFor (s : State) (b : Image) (old new : Nat) : List DeltaWrite :=
  let ims := s.named (old ||| new)
  let news := s.named new
  let grans := (ims.flatMap (fun m => (paramGranules b m).map (·.1))).eraseDups
  let words := (ims.flatMap (fun m => (limitWords b m).map (·.1))).eraseDups
  let val (n a : Nat) (l : List (Nat × Bytes)) : Bytes :=
    (lastAt l a).getD ((List.range n).map (fun k => baseByte b (a + k)))
  let mk (a : Nat) (d : Bytes) : DeltaWrite := { bank := (targetIn b.bankmap a).getD 0, addr := a, data := d }
  ((grans.map (fun a => mk a (val 32 a (news.flatMap (paramGranules b))))) ++
    (words.map (fun a => mk a (val 4 a (news.flatMap (limitWords b)))))).foldl deltaIns []

/-- The switch hash (R118). -/
def State.switchHash (s : State) (active mirror : Nat) (delta : List DeltaWrite) : Nat :=
  Config.sha384 (leBytes 4 (active + 2 ^ 16 * mirror) ++ (s.named active).flatMap (fun m => leBytes 4 m.id ++ leBytes 4 m.ver) ++
    delta.flatMap (fun w => leBytes 4 w.addr ++ w.data))

/-! ### Reporting -/

/-- The REASON codes (R126). -/
def mrSlot : Nat := 1
def mrVariants : Nat := 2
def mrMapconf : Nat := 3
def mrModemis : Nat := 4
def mrDelta : Nat := 5
def mrNotprep : Nat := 6
def mrLate : Nat := 7
def mrBusy : Nat := 8
def mrRole : Nat := 9
def mrPartner : Nat := 10
def mrPeriod : Nat := 11
def mrMirror : Nat := 12

/-- TT_MODE_STATUS takes a state and reason. -/
def State.modeState (s : State) (st reason : Nat) : State := (s.wr R.TT_MODE_STATUS_STATE st).wr R.TT_MODE_STATUS_REASON reason

/-- MODE_EVENT to the subscribed sessions, with ABANDONED as its status for a switch abandoned (R125, R384, R385) (DEDUCED, log entry 60). -/
def State.modeEvent (s : State) : State :=
  let f := ((s.tt.switch).bind (·.frame)).getD s.tb.frameNo
  s.notify 0x02 0x0206 (if s.rd R.TT_MODE_STATUS_STATE = 7 then 0x0210 else 0) [s.rd R.TT_MODE_STATUS_STATE, f, s.modeWord]

/-- The opcodes whose requests wait for a switch. -/
def opModePrepare : Nat := 0x0202

/-- End a switch: its holder is released (R380) (DEDUCED, log entry 60). -/
def State.dropSwitch (s : State) : State :=
  { s with tt := { s.tt with switch := none }, acc := { s.acc with modeHolder := none } }

/-- The UNIT parameter of a refusal in a pair (R385). -/
def State.unitParam (s : State) (own : Bool) : List Nat :=
  if s.role = .solo then [] else [if own then s.rd R.PA_STATUS_UNIT else 1 - s.rd R.PA_STATUS_UNIT]

/-- A PREPARED switch is lost (R118), and a preparation under way; a MODE_PREPARE that waits for it is answered with NOTPREP (DEDUCED, log entry 60). -/
def State.loseSwitch (s : State) : State :=
  if s.rd R.TT_MODE_STATUS_STATE = 2 || s.rd R.TT_MODE_STATUS_STATE = 1 then
    ((s.modeState 0 0).dropSwitch).wake opModePrepare 0 (0x0200 + mrNotprep) (s.unitParam true)
  else s

/-- A switch is ABANDONED (R123, R125). -/
def State.abandonSwitch (s : State) : State :=
  match s.tt.switch with
  | none => s
  | some _ => (((s.modeState 7 0).wr R.TT_MODE_STATUS_ABANDONED 1).modeEvent).dropSwitch

/-- TT_SLOT.IN_FORCE follows the mode word. -/
def State.slotsInForce (s : State) : State :=
  (List.range 16).foldl (fun s k => s.wr R.TT_SLOT_IN_FORCE (if bitOf (s.rd R.TT_MODE_CUR_ACTIVE) k then 1 else 0) k) s

/-- TT_PLAN takes the phase boundaries of a timetable; ENDF_MAX and SEAL are those its simulation gives (R102). -/
def State.showPlan (s : State) (m : Image) : State :=
  let G := 38 * m.decl.period / 5
  let evs := (m.code.zipIdx).flatMap (fun (c, tile) => (simTile m.bankmap tile G c).evs)
  let endf := (evs.filter (fun e => e.op == .endf)).foldl (fun a e => max a e.cycle) 0
  let sealC := (sealEvs evs).foldl (fun a e => max a (evAt e + 256)) 0
  let s := ((s.wr R.TT_PLAN_ENDF_MAX endf).wr R.TT_PLAN_MARKER m.decl.marker).wr R.TT_PLAN_SEAL sealC
  (((s.wr R.TT_PLAN_IN_END m.decl.inEnd).wr R.TT_PLAN_EXEC_START m.decl.execStart).wr R.TT_PLAN_OUT_START m.decl.outStart).wr
    R.TT_PLAN_OUT_END m.decl.outEnd

/-- The mode word in force becomes another: map and mirror state flip, the timetable's plan, period and rates apply (R120, R121, R213). -/
def State.modeFlip (s : State) (active mirror : Nat) : State :=
  match s.tt.base with
  | none => s
  | some b =>
    let s := ((s.wr R.TT_MODE_CUR_ACTIVE active).wr R.TT_MODE_CUR_MIRROR mirror).slotsInForce
    let s := { s with tt := { s.tt with map := s.mapFor b active mirror } }
    let m := s.timetableFor b active
    (((s.showPlan m).wr R.TT_FRAME_PERIOD (m.decl.period / 1000)).wr R.TT_FRAME_PERIOD_SUBFRAMES m.decl.subframes).rateAdapted

/-- A switch is carried out: the flip, its record in TT_MODE_LAST and COUNT, DONE (R120, R125). -/
def State.finishSwitch (s : State) (w : Switch) : State :=
  let s := (s.modeFlip w.active w.mirror).wr64 R.TT_MODE_LAST_FRAME_LO R.TT_MODE_LAST_FRAME_HI s.tb.frameNo
  let s := (s.inc R.TT_MODE_COUNT).wr R.TT_MODE_STATUS_DONE 1
  ((s.modeState 5 0).modeEvent).dropSwitch

/-! ### PREPARE (R118) -/

/-- A channel in another mode than its logical channel's MODECLASS (R118, R146). -/
def State.modeMismatch (s : State) (m : List ChanDef) : Bool :=
  m.any (fun c => c.kind == 1 && s.rd R.CH_CFG_MODE (c.physical / 8) (c.physical % 8) != c.modeClass)

/-- A named slot is not VALID, or is STALE. -/
def State.slotBad (s : State) (active : Nat) : Bool :=
  (slotsIn active).any (fun k => !s.bit R.TT_SLOT_VALID (k - 1) || s.bit R.TT_SLOT_STALE (k - 1))

/-- The TOD in nanoseconds at FRC `t`. -/
def State.todAt (s : State) (t : Nat) : Nat :=
  (((s.todUnits : Int) + ((t : Int) - s.tb.frc) * s.incUnits).toNat) / 2 ^ 32

/-- The FRC of the k-th tick after the latest, as the next one stands: P apart from there on (R50, R51). -/
def State.tickAhead (s : State) (k : Nat) : Nat := if k = 0 then s.tb.lastTick else s.nextTick + (k - 1) * s.P

/-- Frames from the latest tick to the first boundary at or after FRC `t`, as the ticks stand (R9). -/
def State.framesTo (s : State) (t : Nat) : Nat :=
  if t ≤ s.tb.lastTick then 0 else if t ≤ s.nextTick then 1 else 1 + (t - s.nextTick + s.P - 1) / s.P

/-- A variant changes P under TOD alignment at a time that is no boundary of both periods (R118).  The arm time is the boundary that TT_MODE_AT, as
it stands, selects; its TOD counts as a multiple when less than 10 ns beyond one, as a tick falls on the first tb at or after its boundary (DESIGN CHOICE,
log entry 89). -/
def State.periodBad (s : State) (b : Image) (active : Nat) : Bool :=
  let p := (s.timetableFor b active).decl.period
  let at_ := s.rd64 R.TT_MODE_AT_LO R.TT_MODE_AT_HI
  let ns := s.todAt (s.tickAhead (max 1 (s.framesTo at_)))
  s.inRun && s.bit R.TT_ALIGN_MODE && p != s.P && [p, s.P].any (fun q => decide (10 ≤ ns % (10 * q)))

/-- The reason a preparation is refused with, in the order of R118's table. -/
def State.prepareReason (s : State) (b : Image) (active mirror : Nat) (delta : List DeltaWrite) : Option Nat :=
  let m := s.mapFor b active mirror
  let dup := !(m.map (fun c => (c.kind, c.physical))).Nodup
  let perBank := (List.range 18).any (fun k => decide (1024 < (delta.filter (fun w => w.bank == k)).length))
  if s.slotBad active then some mrSlot
  else if 1 < ((s.named active).filter (fun v => v.kind == 5)).length then some mrVariants
  else if dup then some mrMapconf
  else if s.modeMismatch m then some mrModemis
  else if decide (16384 < delta.length) || perBank then some mrDelta
  else if s.periodBad b active then some mrPeriod
  else if (List.range 8).any (fun k => bitOf mirror k && decide (b.mirrors.length ≤ k)) then some mrMirror
  else none

/-- PREPARE of a mode word: PREPARING, or BUSY while a switch is armed (R118, R119) (DEDUCED, log entry 34). -/
def State.modePrepare (s : State) (active mirror : Nat) : State :=
  if s.rd R.TT_MODE_STATUS_STATE = 3 || s.rd R.TT_MODE_STATUS_STATE = 4 then s.wr R.TT_MODE_STATUS_REASON mrBusy
  else
    let s := ((s.loseSwitch).wr R.TT_MODE_NEXT_ACTIVE active).wr R.TT_MODE_NEXT_MIRROR mirror
    { s.modeState 1 0 with tt := { (s.modeState 1 0).tt with partnerHash := none } }

/-- A write of 1 to TT_MODE_CTRL.PREPARE (R118). -/
def execTtModePrepare (s : State) : Next := .next (s.modePrepare (s.rd R.TT_MODE_NEXT_ACTIVE) (s.rd R.TT_MODE_NEXT_MIRROR))

/-- The prepared hash in TT_MODE_HASH (R126): its first 16 bytes. -/
def State.showHash (s : State) (h : Nat) : State :=
  (List.range 4).foldl (fun s k => s.wr R.TT_MODE_HASH (leNat (((leBytes 48 h).drop (4 * k)).take 4)) k) s

/-- A preparation is refused: REASON, MODE_EVENT, the reply of MODE_PREPARE, and on a unit that prepares for its partner the report (R118, R381) (DEDUCED, log entry 58). -/
def State.refusePrepare (s : State) (r : Nat) : State :=
  let s := (((s.modeState 6 r).modeEvent).dropSwitch).wake opModePrepare 0 (0x0200 + r) (s.unitParam true)
  if s.role = .standby || s.role = .syncing then s.emit .partner .path [7, 0, r] else s

/-- MODE_PREPARE is answered once this unit holds PREPARED and, in a pair, the partner has reported the same hash; another hash refuses it with
PARTNER (R381). -/
def State.prepareDone (s : State) : State :=
  match s.tt.switch with
  | none => s
  | some w =>
    if s.rd R.TT_MODE_STATUS_STATE != 2 then s
    else if s.role = .solo || s.tt.partnerHash = some w.hash then s.wake opModePrepare 0 0 [w.delta.length] (leBytes 48 w.hash)
    else if s.tt.partnerHash.isSome then s.wake opModePrepare 0 (0x0200 + mrPartner) (s.unitParam true)
    else s

/-- The preparation completes within 200 ms: PREPARED, or refused with its reason (R118) (DESIGN CHOICE, log entry 86). -/
def execModePrepareComplete (s : State) : Next := .next <|
  if s.rd R.TT_MODE_STATUS_STATE != 1 then s
  else
    let active := s.rd R.TT_MODE_NEXT_ACTIVE
    let mirror := s.rd R.TT_MODE_NEXT_MIRROR
    match s.tt.base with
    | none => s.refusePrepare mrSlot
    | some b =>
      let delta := s.deltaFor b (s.rd R.TT_MODE_CUR_ACTIVE) active
      match s.prepareReason b active mirror delta with
      | some r => s.refusePrepare r
      | none =>
        let h := s.switchHash active mirror delta
        let s := { s with tt := { s.tt with switch := some { active, mirror, delta, hash := h, frame := none, at_ := 0, proposed := false, written := 0 } } }
        let s := ((s.showHash h).wr R.TT_MODE_STATUS_DELTA ((delta.length + 3) / 4)).modeState 2 0
        if s.role = .standby || s.role = .syncing then s.emit .partner .path [7, 1] (leBytes 48 h) else s.prepareDone

/-! ### ARM (R119, R122) -/

/-- Cycle of the frame in progress. -/
def State.cycleNow (s : State) : Nat := 8 * (s.tb.frc - s.tb.lastTick)

/-- Frames from the one in progress to the earliest that an arm may still choose (R119). -/
def State.armLeast (s : State) : Nat :=
  let x := ((s.timetable).map (·.decl.exStart)).getD 0
  if s.role = .solo then (if s.cycleNow < s.G then 1 else 2) else (if s.cycleNow < x then 2 else 3)

/-- The number of frames after the one in progress at which a switch at FRC `at_` acts, as the ticks stand, or LATE (R119). -/
def State.armFrames (s : State) (at_ : Nat) : Option Nat :=
  if at_ = 0 then some s.armLeast
  else if s.armLeast ≤ s.framesTo at_ then some (s.framesTo at_) else none

/-- The reason an arm is refused with, or the frames to its boundary (R119); 0 applies at once (R122) (DEDUCED, log entry 34). -/
def State.armCheck (s : State) (at_ : Nat) : Nat ⊕ Nat :=
  let st := s.rd R.TT_MODE_STATUS_STATE
  if st = 3 || st = 4 then .inl mrBusy
  else match s.tt.switch with
    | none => .inl mrNotprep
    | some w =>
      if st != 2 then .inl mrNotprep
      else if !s.inRun then .inr 0
      else if s.role != .solo && s.rd R.PA_STATUS_PARTNER_ROLE == 1 then .inl mrRole
      else if s.role != .solo && s.tt.partnerHash != some w.hash then .inl mrPartner
      else match s.armFrames at_ with
        | none => .inl mrLate
        | some k => .inr k

/-- CANCEL in PREPARED and ARMED returns the switch to idle (R124) (DEDUCED, log entry 34). -/
def State.modeCancel (s : State) : State :=
  let st := s.rd R.TT_MODE_STATUS_STATE
  if st = 2 || st = 3 then (s.modeState 0 0).dropSwitch else s

/-- A write of 1 to TT_MODE_CTRL.CANCEL (R124). -/
def execTtModeCancel (s : State) : Next := .next s.modeCancel

/-! ### Delta writes (R120) -/

/-- A switch that will act at the next tick: armed in SOLO, or committed (R119, R123). -/
def State.switchDue (s : State) : Option Switch :=
  match s.tt.switch with
  | none => none
  | some w =>
    let st := s.rd R.TT_MODE_STATUS_STATE
    if (st == 4 && w.frame == some (s.tb.frameNo + 1)) ||
        (st == 3 && s.role == .solo && w.frame.any (fun f => decide (f ≤ s.tb.frameNo + 1)) && decide (w.at_ ≤ s.nextTick)) then some w else none

/-- The switch that the ACTIVE unit of a pair has to propose in the frame in progress: the boundary that opens the frame after the next is its B (R119,
R123). -/
def State.switchAhead (s : State) : Option Switch :=
  match s.tt.switch with
  | none => none
  | some w =>
    if s.role == .active && s.rd R.TT_MODE_STATUS_STATE == 3 && w.frame.any (fun f => decide (f ≤ s.tb.frameNo + 2)) &&
        decide (w.at_ ≤ s.tickAhead 2) then some w else none

/-- The j-th delta write into each bank and window, at cycle G + 512 + j (R120). -/
def State.deltaStep (s : State) (w : Switch) (j : Nat) : State :=
  let ws := (List.range 18).filterMap (fun k => (w.delta.filter (fun x => x.bank == k))[j]?)
  let s := ws.foldl (fun s x =>
    let s := (s.setBytes x.addr x.data).tap x.addr x.data.length
    { s with lat := { s.lat with deltaItems := s.lat.deltaItems ++
        [{ cycle := j, order := x.bank, data := itemBytes x.addr 5 0 x.data }] } }) s
  { s with tt := { s.tt with switch := some { w with written := j + 1 } } }

/-- The delta writes of cycle G + 512 + `j` in the guard band before a switch (R120) (DEDUCED, log entry 34). -/
def execModeDeltaWrites (j : Nat) (s : State) : Next := .next <|
  match s.switchDue with
  | none => s
  | some w =>
    if s.inRun && j == w.written && decide (j < 1024) then
      ((s.toCycle (s.G + 512 + j)).modeState 4 0).deltaStep { w with frame := some (s.tb.frameNo + 1) } j
    else s

/-- The delta writes not yet made run to their end (R120, R125). -/
def State.deltaRest (s : State) (w : Switch) : State :=
  (List.range 1024).foldl (fun s j => if j < w.written then s else s.deltaStep w j) s

end Sys2Proof.Machine
end

