-- ==== Sys2Proof/Machine/AdmitOps.lean ====
section
/-! DEFINITION. The admission commands (R99, R100, R102, R110), the placement check and relocation of a tile (R94, R95), and
tile shadows (R96). -/

namespace Sys2Proof.Machine

open Sys2Proof

/-! ### Admission -/

/-- The outcome of an admission in TT_ADM_STATUS, WHERE, CYCLE and RES (R99). -/
def State.showFail (s : State) (f : Fail) : State :=
  let s := ((s.wr R.TT_ADM_STATUS_CODE f.code).wr R.TT_ADM_WHERE_TILE f.tile).wr R.TT_ADM_WHERE_BUNDLE f.bundle
  (((s.wr R.TT_ADM_WHERE_RESP (if f.resp then 1 else 0)).wr R.TT_ADM_CYCLE f.cycle).wr R.TT_ADM_RES_KIND f.kind).wr R.TT_ADM_RES_INDEX f.index

/-- LT_BANK shows the groups of the admitted map (R102). -/
def State.showGroups (s : State) (bm : List (Nat × Nat)) : State :=
  (List.range 16).foldl (fun s b =>
    let g := (bm.find? (fun g => decide (g.1 ≤ b) && decide (b < g.1 + 2 ^ g.2))).getD (b, 0)
    (s.wr R.LT_BANK_GROUP_LOG2 g.2 b).wr R.LT_BANK_GROUP_FIRST g.1 b) s

/-- The rings of the image's ring table, empty (R84). -/
def ringsOf (m : Image) : List Ring :=
  (List.range 128).map (fun q => match m.rings.find? (fun r => r.ring == q) with
    | some r => { Ring.reset with dir := r.dir, owner := r.owner, depth := r.depth }
    | none => Ring.reset)

/-- The highest version admitted becomes the floor (R107). -/
def State.raiseFloor (s : State) (m : Image) : State :=
  { s with tt := { s.tt with floors := alPut 0 s.tt.floors (floorKey m) (max m.ver (alGet 0 s.tt.floors (floorKey m))) } }

/-- Slots that do not fit a new base become STALE; one that fits again waits for its admission (R110) (DEDUCED, log entry 51). -/
def State.staleSlots (s : State) (b : Image) : State :=
  (List.range 16).foldl (fun s k => match s.slotImage (k + 1) with
    | none => s
    | some m =>
      let fit := m.baseId == b.id && decide (m.baseVerMin ≤ b.ver) && decide (b.ver ≤ m.baseVerMax) && m.layoutDigest == b.layoutDigest
      if fit then s.wr R.TT_SLOT_STALE 0 k else (s.wr R.TT_SLOT_STALE 1 k).wr R.TT_SLOT_VALID 0 k) s

/-- A base is admitted: it is loaded, TT_IMG, TT_PLAN, TT_ADMITTED and LT_BANK show it; for a new base the mode word is set to 0 (R124), slots
that do not fit become STALE (R110) and a switch ends; the base in service before keeps them all (DEDUCED, log entry 51). -/
def State.loadBase (s : State) (m : Image) : State :=
  let fresh := s.tt.lastBase != some m
  let s := { s with tt := { s.tt with base := some m, lastBase := some m }, lat := { s.lat with rings := ringsOf m } }
  let s := ((s.wr R.TT_ADMITTED_VALID 1).wr R.TT_ADMITTED_PAIR m.shared.pair).wr R.TT_IMG_ID m.id
  let s := (s.wr R.TT_IMG_VER m.ver).showGroups m.bankmap
  if fresh then (((s.loseSwitch).abandonSwitch).staleSlots m).modeFlip 0 0
  else s.modeFlip (s.rd R.TT_MODE_CUR_ACTIVE) (s.rd R.TT_MODE_CUR_MIRROR)

/-- Slot `slot` changes: a PREPARED switch whose mode word names it is lost (R118). -/
def State.slotChanges (s : State) (slot : Nat) : State :=
  if bitOf (((s.tt.switch).map (·.active)).getD (s.rd R.TT_MODE_NEXT_ACTIVE)) (slot - 1) then s.loseSwitch else s

/-- An image has failed its verification (R400, R410). -/
def State.verifyFailed (s : State) : State := (s.wr R.SE_EVENTS_VERIFY_FAIL 1).inc R.SE_VERIFY_FAILS

/-- The outcome of an admission of slot `slot` (R99, R110); with `placed` only the check is made. -/
def State.admitted (s : State) (m : Image) (slot : Nat) (placed : Bool) (r : Option Fail) : State :=
  let f := r.getD { code := 0 }
  let s := s.showFail f
  let s := if f.code = 0x3102 then s.verifyFailed else s
  let s := if slot = 0 then s else s.wr R.TT_SLOT_CODE f.code (slot - 1)
  if placed then s
  else
    let s := { s with tt := { s.tt with hotOk := false } }
    match r with
    | some _ => if slot = 0 then s else (s.wr R.TT_SLOT_VALID 0 (slot - 1)).slotChanges slot
    | none =>
      let s := s.raiseFloor m
      if slot = 0 then s.loadBase m
      else ((s.wr R.TT_SLOT_VALID 1 (slot - 1)).wr R.TT_SLOT_STALE 0 (slot - 1)).slotChanges slot

/-- The image held for admission in slot `slot`. -/
def State.held (s : State) (slot : Nat) : Option Image := if slot = 0 then s.tt.slot0 else s.slotImage slot

/-- The opcode of ADMIT, whose requests wait for the outcome. -/
def opAdmit : Nat := 0x0305

/-- The TT_PLAN values as ADMIT's reply gives them (DEDUCED, log entry 32). -/
def State.planValues (s : State) : List Nat :=
  [s.rd R.TT_PLAN_ENDF_MAX, s.rd R.TT_PLAN_MARKER, s.rd R.TT_PLAN_SEAL, s.rd R.TT_PLAN_IN_END, s.rd R.TT_PLAN_EXEC_START,
   s.rd R.TT_PLAN_OUT_START, s.rd R.TT_PLAN_OUT_END]

/-- An admission has ended: BUSY, DONE, and the reply of ADMIT with the code as status. -/
def State.admDone (s : State) : State :=
  let s := { (s.wr R.TT_ADM_STATUS_BUSY 0).wr R.TT_ADM_STATUS_DONE 1 with tt := { s.tt with admitting := none } }
  let c := s.rd R.TT_ADM_STATUS_CODE
  s.wake opAdmit 0 c (if c = 0 then s.planValues else [])

/-- Start an admission (R99, R100): a base only in STOP; an overlay without an admitted base ends at once with 0x311D.  While an admission
runs, with a SLOT above 16, and for slot 0 outside STOP the write does nothing (DESIGN CHOICE, log entry 89). -/
def State.admStart (s : State) (slot placement : Nat) : State :=
  if s.bit R.TT_ADM_STATUS_BUSY || decide (16 < slot) || (slot == 0 && !s.inStop) then s
  else
    let s := (s.wr R.TT_ADM_CTRL_SLOT slot).wr R.TT_ADM_CTRL_PLACEMENT placement
    if slot != 0 && !s.bit R.TT_ADMITTED_VALID then
      (((s.showFail { code := 0x311D }).wr R.TT_SLOT_CODE 0x311D (slot - 1)).wr R.TT_SLOT_VALID 0 (slot - 1)).admDone
    else { s.wr R.TT_ADM_STATUS_BUSY 1 with tt := { s.tt with admitting := some (slot, placement) } }

/-- A write of TT_ADM_CTRL with START (R99, R102) (DEDUCED, log entry 32). -/
def execTtAdmStart (slot placement : Nat) (s : State) : Next := .next (s.admStart slot (placement % 2))

/-- A write of 1 to TT_ADM_CTRL.ABORT: the admission stops and CODE reads 0xFFFF (R102). -/
def execTtAdmAbort (s : State) : Next := .next <|
  match s.tt.admitting with
  | none => s
  | some _ =>
    let s := { (s.wr R.TT_ADM_STATUS_BUSY 0).wr R.TT_ADM_STATUS_CODE 0xFFFF with tt := { s.tt with admitting := none } }
    s.wake opAdmit 0 0xFFFF

/-- Admission of slot `slot` runs to its result. -/
def State.admRun (s : State) (slot placement : Nat) : State :=
  match s.held slot with
  | none =>
    let s := s.showFail { code := 0x3101 }
    if slot = 0 then s else s.wr R.TT_SLOT_CODE 0x3101 (slot - 1)
  | some m =>
    let pl := if placement = 1 then s.proposedPlacement else s.placement
    s.admitted m slot (placement == 1) (s.admission m slot pl)

/-- A running admission finishes within 3 s (R99) (DESIGN CHOICE, log entry 86). -/
def execAdmissionComplete (s : State) : Next := .next <|
  match s.tt.admitting with
  | none => s
  | some (slot, placement) => (s.admRun slot placement).admDone

/-! ### Relocation of a tile (R94, R95, R109) -/

/-- The opcode of RELOCATE. -/
def opRelocate : Nat := 0x0C06

/-- Order the placement check of logical tile `l` on physical tile `t` (R94). -/
def State.relocCheck (s : State) (l t : Nat) : State :=
  let s := { s with lat := { s.lat with relocPassed := none } }
  if 36 ≤ t || s.rd R.LT_PHYS_STATE t != 1 then (s.wr R.LT_RELOC_STATUS_PASS 0).wr R.LT_RELOC_STATUS_CODE 0x0C11
  else { s.wr R.LT_RELOC_STATUS_BUSY 1 with lat := { s.lat with relocCheck := some (l, t) } }

/-- A write of LT_RELOC_CTRL with CHECK; LOGICAL and TARGET take the word's values while the lock is open (R94, R102). -/
def execLtRelocCheck (logical target : Nat) (s : State) : Next := .next <|
  let s := if s.lockOpen then (s.wr R.LT_RELOC_LOGICAL logical).wr R.LT_RELOC_TARGET target else s
  if s.bit R.LT_RELOC_STATUS_BUSY then s else s.relocCheck (s.rd R.LT_RELOC_LOGICAL) (s.rd R.LT_RELOC_TARGET)

/-- Copy the memory range `[a, a + n)` to `b`. -/
def State.copyMem (s : State) (a b n : Nat) : State :=
  let cells := s.mem.filter (fun c => decide (a ≤ c.1) && decide (c.1 < a + n))
  cells.foldl (fun s c => s.setByte (b + (c.1 - a)) c.2) (s.clearMem b (b + n))

/-- Copy tile `p`'s data SRAM, receive buffer, registers, accumulators and TSR to tile `q` (R95, R96). -/
def State.copyTile (s : State) (p q : Nat) : State :=
  let s := (s.copyMem (Config.sramBase p) (Config.sramBase q) 0x20000).copyMem (Config.rxBase p) (Config.rxBase q) 0x200
  let t := s.tsrAt p
  s.updTile q (fun x => { x with g := (s.tile p).g, acc := (s.tile p).acc, pend := [], tsr := t })

/-- The copy of logical tile `l` to the physical tile `q`, with its ECC event: every result of the frame has arrived (R72, R95, R96). -/
def State.copyOut (s : State) (l q : Nat) (ecc : Ecc) : State :=
  let p := s.physTile l
  ((s.tileEcc p s.G ecc).land p (s.G + 4096)).copyTile p q

/-- At the boundary the logical tile runs on the new tile; the old one has failed (R95, R102). -/
def State.relocFlip (s : State) : State :=
  match s.lat.relocCopied with
  | none => s
  | some (l, t) =>
    let old := s.physTile l
    let s := ((s.wr R.LT_PHYS_STATE 2 old).wr R.LT_PHYS_LOGICAL 0 old).wr R.LT_PHYS_STATE 0 t
    let s := ((s.wr R.LT_PHYS_LOGICAL l t).wr R.LT_MAP_X (t % 6) l).wr R.LT_MAP_Y (t / 6) l
    let s := { s.wr R.LT_RELOC_STATUS_DONE 1 with lat := { s.lat with relocCopied := none } }
    (s.hsUse 0).wake opRelocate 0 0

/-- A relocation is ordered for the next boundary (R95); in STOP it takes effect at once (R23). -/
def State.relocCommit (s : State) : State :=
  match s.lat.relocPassed with
  | none => s
  | some (l, t) =>
    let s := s.wr R.LT_PHYS_STATE 3 t
    let s := { s with lat := { s.lat with relocPassed := none } }
    if s.inStop then
      let s := s.copyOut l t .clean
      { s with lat := { s.lat with relocCopied := some (l, t) } }.relocFlip
    else { s with lat := { s.lat with relocOrder := some (l, t) } }

/-- The placement check ends within 1 s (R94, R109); a RELOCATE that waits for it is committed, or answered with the code (DESIGN CHOICE, log entry 86). -/
def execPlacementCheckComplete (s : State) : Next := .next <|
  match s.lat.relocCheck with
  | none => s
  | some (l, t) =>
    let r := s.placementCheck (s.placement.set l t)
    let s := (((s.wr R.LT_RELOC_STATUS_BUSY 0).wr R.LT_RELOC_STATUS_PASS (if r.isNone then 1 else 0)).wr
      R.LT_RELOC_STATUS_CODE ((r.map (·.code)).getD 0))
    let s := { s with lat := { s.lat with relocCheck := none, relocPassed := if r.isNone then some (l, t) else none } }
    if s.acc.waiters.any (fun w => w.op == opRelocate && w.key == 0) then
      match r with
      | none => s.relocCommit
      | some f => s.wake opRelocate 0 0x0C10 [f.code]
    else s

/-- A write of 1 to LT_RELOC_CTRL.COMMIT after a passed check of the same move; ignored otherwise (R95). -/
def execLtRelocCommit (s : State) : Next := .next <|
  if s.lat.relocPassed = some (s.rd R.LT_RELOC_LOGICAL, s.rd R.LT_RELOC_TARGET) then s.relocCommit else s

/-- R95: in the guard band the departing tile is copied to the new one, 4,096 tc. -/
def execTileRelocation (ecc : Ecc) (s : State) : Next := .next <|
  match s.lat.relocOrder with
  | none => s
  | some (l, t) =>
    let s := ((s.toCycle (s.G + 4096)).settle (s.G + 4096)).copyOut l t ecc
    { s with lat := { s.lat with relocOrder := none, relocCopied := some (l, t) } }

/-! ### Tile shadows (R96) -/

/-- The physical tiles in state spare. -/
def State.spareTiles (s : State) : List Nat := (List.range 36).filter (fun p => s.rd R.LT_PHYS_STATE p == 1)

/-- In the guard band the logical tile is copied to a spare, which runs its next frame too; with no spare left the test is not covered.  A spare
that shadows a tile in the frame in progress cannot load another tile's code in it (R96). -/
def execTileShadow (logical phys : Nat) (ecc : Ecc) (s : State) : Next := .next <|
  if s.spareTiles.isEmpty then s.wr R.LT_SHADOW_STATUS_UNCOVERED 1
  else if !s.inRun || decide (32 ≤ logical) || !s.spareTiles.contains phys || s.lat.shadows.any (fun x => x.phys == phys) then s
  else
    let s := (((s.toCycle (s.G + 4096)).settle (s.G + 4096)).copyOut logical phys ecc).wr R.LT_SHADOW_STATUS_BUSY 1
    { s with lat := { s.lat with
        shadows := { phys, logical, frame := s.tb.frameNo + 1, same := none, compared := false } :: s.lat.shadows } }

/-- A physical tile is found failing (R96, R102). -/
def State.tileFails (s : State) (p : Nat) : State :=
  { s.wr R.LT_SHADOW_STATUS_PHYS p with lat := { s.lat with shadowFailed := p :: s.lat.shadowFailed } }

/-- In the guard band the hash of the shadow on spare `phys` is compared with its tile's (R96). -/
def execTileShadowCompare (phys : Nat) (s : State) : Next := .next <|
  if !s.inRun || (s.shadowAt phys).isNone then s
  else
    let s := (s.toCycle s.G).settle s.G
    match s.shadowAt phys with
    | none => s
    | some x =>
      match x.same with
      | none => s
      | some same =>
        if x.compared then s
        else
          let p := s.physTile x.logical
          let spares := s.spareTiles.length
          let s : State := { s with lat := { s.lat with shadows := s.lat.shadows.map (fun (y : Shadow) => if y.phys == phys then { y with compared := true } else y) } }
          let s := (s.inc R.LT_SHADOW_STATUS_COUNT).wr R.LT_SHADOW_STATUS_BUSY (if s.lat.shadows.all (·.compared) then 0 else 1)
          let first := s.lat.shadowSuspect.find? (fun y => y.1 == x.logical && y.2 != phys)
          let clear (s : State) : State :=
            { s with lat := { s.lat with shadowSuspect := s.lat.shadowSuspect.filter (fun y => y.1 != x.logical) } }
          if same then
            match first with
            | some (_, spare) => (((clear s).wr R.LT_PHYS_STATE 2 spare).tileFails spare).hsUse 0
            | none => s
          else
            let s := s.wr R.LT_SHADOW_STATUS_MIS 1
            if first.isSome || spares ≤ 1 then (clear s).tileFails p
            else { s with lat := { s.lat with shadowSuspect := (x.logical, phys) :: s.lat.shadowSuspect } }

end Sys2Proof.Machine
end

