-- ==== Sys2Proof/Machine/Ticks.lean ====
section
/-! DEFINITION. Actions that take effect at a frame tick, and the staging copies of the apply blocks (R23, R233, R261). -/

namespace Sys2Proof.Machine

open Sys2Proof

/-! ### Boundary actions -/

/-- Time passes to the tick at which a boundary action takes effect: now where a tick has just fallen, else the next (DESIGN CHOICE, log entry 5). -/
def State.toTick (s : State) : State := if s.tb.frc = s.tb.lastTick then s else s.toFrc s.nextTick

/-- The number of the frame the tick of `toTick` opens. -/
def State.tickFrame (s : State) : Nat := if s.tb.frc = s.tb.lastTick then s.tb.frameNo else s.tb.frameNo + 1

/-! ### Staging copies -/

/-- A staged field, or its applied value where nothing is staged (DEDUCED, log entry 27). -/
def State.sg (s : State) (r : RegRow) (i : Nat := 0) (j : Nat := 0) : Nat := alGet (s.rd r i j) s.staged (r.key i j)

/-- Stage a field (DEDUCED, log entry 27). -/
def State.stage (s : State) (r : RegRow) (v : Nat) (i : Nat := 0) (j : Nat := 0) : State :=
  { s with staged := alIns s.staged (r.key i j) (v % 2 ^ r.width) }

/-- The staged field becomes the applied one. -/
def State.adopt (s : State) (r : RegRow) (i : Nat := 0) (j : Nat := 0) : State :=
  { s.wr r (s.sg r i j) i j with staged := alDel s.staged (r.key i j) }

/-- Discard what is staged for the addresses `[a, e)`. -/
def State.unstage (s : State) (a e : Nat) : State :=
  { s with staged := s.staged.filter (fun x => decide (x.1 < a * 32) || decide (e * 32 ≤ x.1)) }

/-- The opcodes of CFG_APPLY and TRIM_SET, whose requests wait for an apply. -/
def opCfgApply : Nat := 0x0503
def opTrimSet : Nat := 0x0508

/-- Requests that wait for the apply of the block at `base` are answered with its outcome (R384). -/
def State.applyDone (s : State) (base status : Nat) (params : List Nat := []) : State :=
  (s.wake opCfgApply base status params).wake opTrimSet base status params

/-- `f` at FRC `t` when it falls in the frame in progress: what falls at or after the next tick waits for it (R8, R58) (DESIGN
CHOICE, log entry 5). -/
def State.upTo (s : State) (t : Nat) (f : State → State) : State :=
  if !s.ticking || decide (max s.tb.frc t < s.nextTick) then f (s.toFrc t) else s

end Sys2Proof.Machine
end

