-- ==== Sys2Proof/Machine/FieldGroups.lean ====
section
/-! DEFINITION. Universal field channels (R205 to R240, R515): conversion windows and results, control frames, fallback,
configuration, the spare converter and loop power. -/

namespace Sys2Proof.Machine

open Sys2Proof

/-- A group. -/
def State.group (s : State) (g : Nat) : Group := s.groups.getD g Group.reset

/-- The row of the converter that serves terminal `t`, and of converter `c`'s state (R240). -/
def convRow (t : Nat) : RegRow := { R.FG_CONV_MAP_CONV0 with lo := 4 * t }
def convState (c : Nat) : RegRow := { R.FG_CONV_STATE_C0 with lo := 2 * c }

/-- The converter that serves a terminal. -/
def State.convOf (s : State) (g t : Nat) : Nat := s.rd (convRow t) g

/-- A channel. -/
def State.chan (s : State) (ch : Nat) : Chan := s.chans.getD ch Chan.reset

/-! ### Modes and ranges (R208, R209, R211) -/

/-- A mode's range in 10⁻⁹ units: low end, high end, and how far beyond them sets UNDER or OVER (R209). -/
def rangeOf (mode range sensor : Nat) : Int × Int × Int :=
  match mode, range, sensor with
  | 1, 0, _ => (-100000000, 100000000, 4000000)
  | 1, 1, _ => (-1000000000, 1000000000, 40000000)
  | 1, _, _ => (-10000000000, 10000000000, 400000000)
  | 4, 0, _ => (0, 400000000000, 8000000000)
  | 4, _, _ => (0, 4000000000000, 80000000000)
  | 5, _, 2 => (-60000000000, 250000000000, 0)
  | 5, _, _ => (-200000000000, 850000000000, 0)
  | 6, _, 0 => (250000000000, 1820000000000, 0)
  | 6, _, 1 => (-200000000000, 1000000000000, 0)
  | 6, _, 2 => (-210000000000, 1200000000000, 0)
  | 6, _, 3 => (-200000000000, 1372000000000, 0)
  | 6, _, 4 => (-200000000000, 1300000000000, 0)
  | 6, _, 5 => (-50000000000, 1768000000000, 0)
  | 6, _, 6 => (-50000000000, 1768000000000, 0)
  | 6, _, _ => (-200000000000, 400000000000, 0)
  | 8, 0, _ => (-10000000000, 10000000000, 0)
  | 8, _, _ => (0, 10000000000, 0)
  | _, _, _ => (0, 24000000000, 1000000000)

/-- Whether an RTD or RES channel works in the 4,000 Ω range (R209, R222). -/
def bigOhm (mode range sensor : Nat) : Bool := if mode = 4 then range == 1 else sensor != 0

/-- The span in 10⁻⁹ units (R209). -/
def spanOf (mode range sensor : Nat) : Int :=
  match mode with
  | 4 | 5 => if bigOhm mode range sensor then 4000000000000 else 400000000000
  | 6 => 200000000
  | _ => let (lo, hi, _) := rangeOf mode range sensor; hi - lo

/-- A mode that drives its terminal. -/
def isOutput (mode : Nat) : Bool := mode == 8 || mode == 9

/-- A current input. -/
def isCurrentIn (mode : Nat) : Bool := mode == 2 || mode == 3

/-- HART multidrop operation of a current channel (R245) (DEDUCED, log entry 44). -/
def State.multidrop (s : State) (g t : Nat) : Bool := s.bit R.HART_CFG_MULTIDROP g t && s.bit R.CH_CFG_HART_EN g t

/-! ### Windows (R211, R213) -/

/-- When the window in progress ends, within the frame in progress. -/
def State.windowEnd (s : State) (ch : Nat) : Option Nat :=
  let g := ch / 8
  let t := ch % 8
  let start := (s.chan ch).wStart
  let tick := s.nextTick
  match (s.winRate g t).1 with
  | .sub j =>
    let w := j * (s.P / s.subframes)
    let k := (max start s.tb.lastTick - s.tb.lastTick) / w + 1
    if k < s.subframes / j then some (s.tb.lastTick + k * w)
    else if start < tick then some tick else none
  | .ticks m => if (s.tb.frameNo + 1) % m = 0 && decide (start < tick) then some tick else none

/-! ### Scaling (R219, R235) -/

/-- The trimmed value of a physical reading in 10⁻⁹ units (R235) (DEDUCED, log entry 39). -/
def State.trimmed (s : State) (g t : Nat) (p : Int) : Int :=
  p * toInt 32 (s.rd R.CH_TRIM_GAIN g t) * 10 ^ 8 +
    toInt 32 (s.rd R.CH_TRIM_OFFSET g t) * spanOf (s.chMode g t) (s.chRange g t) (s.chSensor g t) * 2 ^ 30

/-- v = A × p + B for p = n ÷ d in exact units, rounded once into Q(QM), with the UNDER or OVER bit of a saturation. -/
def State.engWord (s : State) (g t : Nat) (n d : Int) : Nat × Nat :=
  let q := 2 ^ (31 - s.rd R.CH_CFG_QM g t)
  let den := d * uPer * 2 ^ 16
  let v := roundDiv (toInt 32 (s.rd R.CH_SCALE_A g t) * n * q + toInt 32 (s.rd R.CH_SCALE_B g t) * den) den
  (ofInt 32 (satInt 32 v), if satInt 32 v < v then 16 else if v < satInt 32 v then 8 else 0)

/-- A physical quantity in 10⁻⁹ units as a word of `f` fraction bits. -/
def fixedWord (f : Nat) (x : Int) : Nat := ofInt 32 (satInt 32 (roundDiv (x * 2 ^ f) nano))

/-! ### The cold junction (R220, R221) -/

/-- An internal sensor reads inside −40 °C to 105 °C. -/
def cjInside (x : Int) : Bool := decide (-40 * nano ≤ x) && decide (x ≤ 105 * nano)

/-- Whether the sensors at terminals 0 and 7 are valid (DESIGN CHOICE, log entry 40). -/
def cjValid (m : Meas) : Bool × Bool :=
  let near (x : Int) : Bool := decide (-2 * nano ≤ x - m.board) && decide (x - m.board ≤ 2 * nano)
  let apart := decide (5 * nano < m.t0 - m.t7) || decide (m.t0 - m.t7 < -5 * nano)
  let odd := apart && near m.t0 != near m.t7
  (cjInside m.t0 && !(odd && !near m.t0), cjInside m.t7 && !(odd && !near m.t7))

/-- Time-weighted mean of the latest K window results, as numerator and denominator (R212). -/
def meanOf (k : Nat) (h : List Window) : Option (Int × Int) :=
  let d : Int := ((h.take k).map (fun w => (w.len : Int))).sum
  if d = 0 then none else some (((h.take k).map (fun w => w.mean * (w.len : Int))).sum, d)

/-- T_cj of a terminal in 10⁻⁹ °C and the STATUS bits CJ_DEGRADED and CJ_FAULT (R221) (DESIGN CHOICE, log entry 40). -/
def State.coldJunction (s : State) (g t : Nat) (m : Meas) : Option Int × Nat :=
  match s.rd R.CH_CFG_CJ_SRC g t with
  | 0 =>
    match cjValid m with
    | (true, true) => (some (m.t0 + roundDiv ((m.t7 - m.t0) * t) 7), 0)
    | (true, false) => (some m.t0, 2 ^ 12)
    | (false, true) => (some m.t7, 2 ^ 12)
    | (false, false) => (none, 2 ^ 13)
  | 1 => (some (roundDiv (toInt 32 (s.rd R.CH_CJ_FIXED g t) * nano) (2 ^ 24)), 0)
  | 2 =>
    let o := s.rd R.CH_CFG_CJ_TERM g t
    let c := s.chan (8 * g + o)
    match meanOf (s.chK g o) c.hist with
    | some (n, d) => if s.chMode g o = 5 && c.status % 2 = 0 then (some (roundDiv n (d * (10 ^ 8 * 2 ^ 30))), 0) else (none, 2 ^ 13)
    | none => (none, 2 ^ 13)
  | _ => (some (toInt 32 s.freeVal), 0)

/-! ### Window results (R212, R217, R222 to R226) -/

/-- What a window's measurement gives before averaging: the result in exact units (`none` when the channel delivers no
temperature), STATUS bits and AUX. -/
structure Reading where
  p : Option Int
  st : Nat
  aux : Nat
  deriving DecidableEq, Repr

/-- STATUS bits of R217. -/
def stOpen : Nat := 2
def stShort : Nat := 4
def stUnder : Nat := 8
def stOver : Nat := 16
def stCompliance : Nat := 0x100
def stAlarmNd : Nat := 0x400
def stLoopPower : Nat := 0x800
def stConvFail : Nat := 0x8000
def stStale : Nat := 0x10000
def stCaptured : Nat := 0x20000
def stSpare : Nat := 0x80000
def stSafe : Nat := 0x100000
def stAlarm : Nat := 0x200000
def stCrossErr : Nat := 0x800000

/-- The bit where a condition holds. -/
def bitIf (b : Bool) (m : Nat) : Nat := if b then m else 0

/-- Resistance in exact units after lead compensation and trim, and the AUX word (R222) (PRESUMED, log entry 12). -/
def State.ohms (s : State) (g t : Nat) (m : Meas) : Int × Nat :=
  match s.rd R.CH_CFG_WIRES g t with
  | 0 => (s.trimmed g t (m.mean - s.rd R.CH_LEAD_R g t * 1000000), 0)
  | 1 => (s.trimmed g t (m.mean - 2 * m.lead), fixedWord 16 m.lead)
  | _ => (s.trimmed g t m.mean, 0)

/-- The mode a terminal's output works in: the group's own memory of it in fallback (R232), else the applied one. -/
def State.driveMode (s : State) (g t : Nat) : Nat :=
  if s.bit R.FG_STATUS_FALLBACK g then ((s.group g).nv.getD t (0, 0, 0, 0)).1 else s.chMode g t

/-- The level driven is an alarm level (R226) (DEDUCED, log entry 73). -/
def State.alarmDriven (s : State) (g t : Nat) (ch : Chan) : Bool :=
  s.driveMode g t == 9 && match ch.drive.src with
  | .alarm => true
  | .fallback => true
  | .safe => match s.rd R.CH_SAFE_KIND g t with
    | 0 => ch.held.any (fun d => d.src == .alarm)
    | 2 => true
    | 3 => true
    | _ => false
  | _ => false

/-- A window's reading in the channel's mode (PRESUMED, log entry 12; DEDUCED, log entry 39; DESIGN CHOICE, log entry 40). -/
def State.reading (s : State) (ch : Nat) (m : Meas) : Reading :=
  let g := ch / 8
  let t := ch % 8
  let mode := s.chMode g t
  let c := s.chan ch
  let p := s.trimmed g t m.mean
  let fail := bitIf m.stuck stConvFail
  match mode with
  | 2 => ⟨some p, fail ||| bitIf m.limit stShort, fixedWord 24 m.termV⟩
  | 4 | 5 =>
    let (r, aux) := s.ohms g t m
    let big := bigOhm mode (s.chRange g t) (s.chSensor g t)
    let st := bitIf (ofNano (if big then 4800 * nano else 480 * nano) < r) stOpen |||
      bitIf (r < ofNano (if big then 50 * nano else 5 * nano)) stShort
    let (lo, hi, _) := rangeOf 5 0 (s.chSensor g t)
    ⟨some (if mode = 4 then r else ofNano (inverse (rtdOhms (s.chSensor g t)) lo hi r)), fail ||| st, aux⟩
  | 6 =>
    let st := fail ||| bitIf (ofNano 95000000 < p) stOpen
    match s.coldJunction g t m with
    | (some cj, b) =>
      let (lo, hi, _) := rangeOf 6 0 (s.chSensor g t)
      ⟨some (ofNano (inverse (tcE (s.chSensor g t)) lo hi (p + tcE (s.chSensor g t) cj))), st ||| b, fixedWord 24 cj⟩
    | (none, b) => ⟨none, st ||| b, 0⟩
  | 8 =>
    let st := c.drive.clamp ||| bitIf m.limit stShort ||| bitIf m.rail stCompliance |||
      bitIf (m.rail && s.bit R.FG_STATUS_POWER_LIMIT g) stLoopPower
    ⟨some p, fail ||| st, 0⟩
  | 9 =>
    let atEnd := s.trimmed g t m.atEnd
    let cmd := ofNano c.drive.level
    let st := c.drive.clamp ||| bitIf m.limit stCompliance |||
      bitIf (m.limit && decide (20 * atEnd < cmd)) stOpen |||
      bitIf (m.limit && s.alarmDriven g t c) stAlarmNd |||
      bitIf (m.limit && s.bit R.FG_STATUS_POWER_LIMIT g) stLoopPower
    ⟨some p, fail ||| st, if m.limit then (max 0 (roundDiv (cmd - atEnd) (uPer / 1000))).toNat else 0⟩
  | _ => ⟨some p, fail, 0⟩

/-- STATUS bits of a result n ÷ d against its range and the NE 43 bands (R209, R217, R223) (DEDUCED, log entry 39). -/
def State.rangeBits (s : State) (g t : Nat) (n d : Int) : Nat :=
  let mode := s.chMode g t
  let (lo, hi, margin) := rangeOf mode (s.chRange g t) (s.chSensor g t)
  let le (x : Int) : Bool := decide (n ≤ ofNano x * d)
  let ge (x : Int) : Bool := decide (ofNano x * d ≤ n)
  let range := if isOutput mode then 0 else bitIf (!ge (lo - margin)) stUnder ||| bitIf (!le (hi + margin)) stOver
  let ne := if isCurrentIn mode && s.bit R.CH_CFG_NE43_EN g t then
      bitIf (le 3600000000) 32 ||| bitIf (ge 21000000000) 64 |||
        bitIf ((!le 3600000000 && !ge 3800000000) || (!le 20500000000 && !ge 21000000000)) 128
    else 0
  range ||| ne

/-- The CH_FLAGS rows with their bit numbers (R240). -/
def flagRows : List (Nat × RegRow) :=
  [(1, R.CH_FLAGS_B1), (2, R.CH_FLAGS_B2), (3, R.CH_FLAGS_B3), (4, R.CH_FLAGS_B4), (5, R.CH_FLAGS_B5), (6, R.CH_FLAGS_B6),
   (9, R.CH_FLAGS_B9), (10, R.CH_FLAGS_B10), (11, R.CH_FLAGS_B11), (12, R.CH_FLAGS_B12), (13, R.CH_FLAGS_B13),
   (14, R.CH_FLAGS_B14), (15, R.CH_FLAGS_B15), (18, R.CH_FLAGS_B18), (22, R.CH_FLAGS_B22)]

/-- CH_FLAGS keeps the bits of `m`. -/
def State.keepFlags (s : State) (g t m : Nat) : State :=
  flagRows.foldl (fun s f => if bitOf m f.1 then s.wr f.2 1 g t else s) s

/-- CH_FLAGS as a word. -/
def State.flagWord (s : State) (g t : Nat) : Nat := flagRows.foldl (fun v f => v + 2 ^ f.1 * s.rd f.2 g t) 0

/-- The bits whose OR is FAULT (R217, R245). -/
def faultMask (multidrop : Bool) : Nat := if multidrop then 0x808006 else 0x80A07E

/-- STATUS with the sticky bits, SPARE, the HART bits and FAULT (R217, R247) (DEDUCED, log entries 39, 73). -/
def State.fullStatus (s : State) (ch st : Nat) : Nat :=
  let g := ch / 8
  let t := ch % 8
  let c := s.chan ch
  let md := s.multidrop g t
  let hart := (bitIf c.hartTx 1 ||| bitIf c.hartRx 2 ||| c.hartBits ||| bitIf (s.bit R.HART_CFG_MULTIDROP g t) 64) % 256
  let st := st ||| (s.flagWord g t &&& 0x444200) ||| hart * 2 ^ 24 |||
    bitIf (s.convOf g t != t) stSpare |||
    bitIf c.crossErr stCrossErr ||| bitIf c.openSafe stSafe ||| bitIf c.openAlarm stAlarm
  st ||| bitIf (st &&& faultMask md != 0) 1

/-- STATUS at a tick that closes no window: the bits of the latest window, the sticky ones as CH_FLAGS holds them now, and STALE (R212, R217). -/
def State.staleStatus (s : State) (ch : Nat) : Nat :=
  let g := ch / 8
  let t := ch % 8
  let st := (s.chan ch).status &&& 0xFFB0BDFE ||| (s.flagWord g t &&& 0x444200) ||| bitIf (s.convOf g t != t) stSpare
  st ||| bitIf (st &&& faultMask (s.multidrop g t) != 0) 1 ||| stStale

/-- The modem of a channel is still sending its frame. -/
def State.hartSends (s : State) (ch : Nat) : Bool := (s.harts.getD ch Hart.reset).txEnd.any (fun e => decide (s.tb.frc < e))

/-- A window of channel `ch` ends now with measurement `m` (R211, R212, R234). -/
def State.closeWindow (s : State) (ch : Nat) (m : Meas) : State :=
  let g := ch / 8
  let t := ch % 8
  let mode := s.chMode g t
  let c := s.chan ch
  let (ok0, ok7) := cjValid m
  let s := ((s.wr R.FG_CJ0 (fixedWord 24 m.t0) g).wr R.FG_CJ7 (fixedWord 24 m.t7) g)
  let s := (s.wr R.FG_STATUS_CJ0_OK (if ok0 then 1 else 0) g).wr R.FG_STATUS_CJ7_OK (if ok7 then 1 else 0) g
  let r := s.reading ch m
  let settling := c.settle.any (fun t0 => decide (c.wStart < t0 + 500000))
  let settle := if settling then c.settle else none
  let win := r.p.map (fun p => (⟨p, c.wStart, s.tb.frc - c.wStart⟩ : Window))
  let hist := if settling then [] else (win.toList ++ c.hist).take 255
  let (value, vst) := match if settling then none else r.p, meanOf (s.chK g t) hist with
    | some _, some (n, d) =>
      let (w, sat) := s.engWord g t n d
      (w, sat ||| s.rangeBits g t n d)
    | _, _ => (if settling then 0 else s.freeVal % 2 ^ 32, if settling then stStale else 0)
  let s := if (mode = 6 && s.rd R.CH_CFG_CJ_SRC g t = 3) || (r.p = none && !settling) then s.nextFree else s
  let live := if s.multidrop g t then (r.st ||| vst) &&& (0xFFFFFFFF - 0xF8) else r.st ||| vst
  let s := s.keepFlags g t ((live &&& 0xFC7E) ||| (if bitOf live 8 then 0x200 else 0))
  let s := if mode = 9 && s.rd R.CH_SHORTFALL_MAX g t < r.aux then s.wr R.CH_SHORTFALL_MAX r.aux g t else s
  let status := s.fullStatus ch live
  let keep := if settling then none else r.p
  let s := s.updChan ch (fun c => { c with
    wStart := s.tb.frc, hist, settle, closed := true, value, status, aux := r.aux, crossErr := false, hartTx := s.hartSends ch,
    hartRx := false, openSafe := c.drive.src == .safe, openAlarm := s.alarmDriven g t c
    minV := match keep, c.minV with
      | some p, some q => some (min p q)
      | some p, none => some p
      | none, q => q
    maxV := match keep, c.maxV with
      | some p, some q => some (max p q)
      | some p, none => some p
      | none, q => q })
  (s.wr R.CH_STATUS_NOW status g t).wr R.CH_VALUE_NOW value g t

/-- A thermocouple whose cold junction is an RTD channel with a window that ends at the same instant and has not been closed (R221). -/
def State.cjWaits (s : State) (ch : Nat) : Bool :=
  let g := ch / 8
  let t := ch % 8
  let o := s.rd R.CH_CFG_CJ_TERM g t
  s.chMode g t == 6 && s.rd R.CH_CFG_CJ_SRC g t == 2 && s.chMode g o == 5 && s.windowEnd (8 * g + o) == some s.tb.frc

/-- The windows of group `g` that waited for an RTD's are closed where they wait no longer (R221). -/
def State.closeParked (s : State) (g : Nat) : State :=
  (List.range 8).foldl (fun s t =>
    let ch := 8 * g + t
    match (s.chan ch).parked with
    | some m => if s.cjWaits ch then s else (s.updChan ch (fun c => { c with parked := none })).closeWindow ch m
    | none => s) s

/-- In power-up and MRST fallback, when no mode is applied, a current output that cannot reach its fallback level is recorded in
CH_FLAGS as COMPL_STICKY and ALARM_ND (R232). -/
def State.fallbackMeas (s : State) (ch : Nat) (m : Meas) : State :=
  if m.limit && s.bit R.FG_STATUS_FALLBACK (ch / 8) && s.driveMode (ch / 8) (ch % 8) == 9 then s.keepFlags (ch / 8) (ch % 8) 0x600 else s

/-- CONVERSION_WINDOW_END: the conversion window of channel `ch` ends and its result is formed (R211) (DEDUCED, log entry 41). -/
def execConversionWindowEnd (ch : Nat) (m : Meas) (s : State) : Next := .next <|
  if 96 ≤ ch || !(s.group (ch / 8)).supply then s
  else if s.chMode (ch / 8) (ch % 8) = 0 then s.fallbackMeas ch m
  else match s.windowEnd ch with
    | none => s
    | some e =>
      let s := s.toFrc e
      if s.cjWaits ch then s.updChan ch (fun c => { c with parked := some m }) else (s.closeWindow ch m).closeParked (ch / 8)

/-! ### The frozen granule (R207, R212, R216) -/

/-- The FG_IN granule of a channel as the tick freezes it, with the capture delivered in this frame: VALUE, STATUS and AUX of the latest
window, and MIN and MAX of those since the previous tick, or the previous ones (R212, R216); while it settles, 0 with STALE (R234). -/
def State.freezeChan (s : State) (ch : Nat) (cap : Option ChanCap) (old : Bytes) : Bytes :=
  let g := ch / 8
  let t := ch % 8
  let c := s.chan ch
  if s.chMode g t = 0 then List.replicate 32 0
  else
    let word (p : Option Int) (o : Nat) : Bytes := match p with
      | some p => leBytes 4 (s.engWord g t p 1).1
      | none => if c.settle.isSome then leBytes 4 0 else (old.drop o).take 4
    let st := if c.closed then c.status else s.staleStatus ch
    let (cv, cf) := match cap with
      | some k => (k.value, k.frc)
      | none => (0, 0)
    leBytes 4 c.value ++ leBytes 4 (st ||| bitIf cap.isSome stCaptured) ++
      word c.minV 8 ++ word c.maxV 12 ++ leBytes 4 cv ++ leBytes 4 c.aux ++ leBytes 8 cf

/-- The tick freezes every channel's granule and begins to collect the next frame's results. -/
def State.freezeFields (s : State) : State :=
  let img (g : Nat) : Bytes := (List.range 8).flatMap (fun t =>
    let ch := 8 * g + t
    s.freezeChan ch ((s.chan ch).caps.find? (fun k => k.frame == s.tb.frameNo)) (((s.lat.inFg.getD g []).drop (32 * t)).take 32))
  { s with
    lat := { s.lat with inFg := (List.range 12).map img }
    chans := s.chans.map (fun c => { c with
      closed := false, minV := none, maxV := none, parked := none, caps := c.caps.filter (fun k => decide (s.tb.frameNo < k.frame)) }) }

/-! ### The crossing (R230, R231, R515) -/

/-- A valid copy of the transferred block has reached the group (R515). -/
def Chan.arrive (c : Chan) : Chan := if c.xfer.isSome then { c with copyOk := true } else c

/-- The channels of a group. -/
def State.updGroupChans (s : State) (g : Nat) (f : Chan → Chan) : State :=
  { s with chans := s.chans.mapIdx (fun i c => if i / 8 == g then f c else c) }

/-- A frame to group `g` that fails its CRC: it is counted, and the windows it touches have CROSS_ERR (R230). -/
def State.crossFail (s : State) (g : Nat) : State := (s.inc R.FG_CROSS_ERR_COUNT g).updGroupChans g (fun c => { c with crossErr := true })

/-- When the next control frame of a group arrives: one every 1,000 tb (R230). -/
def State.nextControl (s : State) (g : Nat) : Nat := max s.tb.frc (((s.group g).ctlAt.map (· + 1000)).getD 0)

/-- FIELD_CONTROL_FRAME: a control frame arrives at group `g`, valid or not (R230, R515). -/
def execFieldControlFrame (g : Nat) (ok : Bool) (s : State) : Next := .next <|
  if 12 ≤ g || !(s.group g).supply then s
  else s.upTo (s.nextControl g) fun s =>
    let s := s.updGroup g (fun x => { x with ctlAt := some s.tb.frc })
    if ok then
      ((s.updGroup g (fun x => { x with valid := x.valid + 1, invalid := 0 })).wr R.FG_STATUS_CROSS_OK 1 g).updGroupChans g Chan.arrive
    else ((s.updGroup g (fun x => { x with valid := 0, invalid := x.invalid + 1 })).wr R.FG_STATUS_CROSS_OK 0 g).crossFail g

/-- A group enters fallback (R231, R232) (DEDUCED, log entry 45). -/
def State.fallback (s : State) (g : Nat) (seen : Bool) : State :=
  let s := s.wr R.FG_STATUS_FALLBACK 1 g
  let s := if seen then (List.range 8).foldl (fun s t => s.wr R.CH_FLAGS_B22 1 g t) (s.wr R.FG_STATUS_FALLBACK_SEEN 1 g) else s
  s.driveChans

/-- GROUP_FALLBACK_ENTRY: after 100 consecutive invalid control frames (R231). -/
def execGroupFallbackEntry (g : Nat) (s : State) : Next := .next <|
  if g < 12 && decide (100 ≤ (s.group g).invalid) && (s.group g).supply && !s.bit R.FG_STATUS_FALLBACK g then
    (s.updGroup g (fun x => { x with lost := true, order := false })).fallback g true
  else s

/-- GROUP_RESUME: at a tick the group leaves fallback, on the order of the end of BOOT or after 100 valid control frames
(R231) (DEDUCED, log entry 77). -/
def execGroupResume (g : Nat) (s : State) : Next := .next <|
  if g < 12 && s.bit R.FG_STATUS_FALLBACK g && (s.group g).supply && s.unit != .boot &&
      ((s.group g).order || decide (100 ≤ (s.group g).valid)) then
    ((s.toTick.updGroup g (fun x => { x with lost := false, order := false })).wr R.FG_STATUS_FALLBACK 0 g).driveChans
  else s

/-- SAFE_STATE_LINE_ASSERT: the safety supervisor's line asserts and every output takes its safe value (R229, R257). -/
def execSafeStateLineAssert (s : State) : Next := .next (s.safeLine true)

/-- The opcode of SPARE_SWITCH, whose requests wait for the takeover under their group. -/
def opSpare : Nat := 0x0C05

/-- GROUP_SUPPLY_FAIL: the group's own supply fails; its outputs fall to 0 (R232). -/
def execGroupSupplyFail (g : Nat) (s : State) : Next := .next <|
  if 12 ≤ g then s
  else ((s.updGroup g (fun x => { x with supply := false, valid := 0, invalid := 0, shadow := none })).wr R.FG_STATUS_CROSS_OK 0 g).driveChans.wake opSpare g 0x0C05

/-- GROUP_SUPPLY_RETURN: the group powers up in fallback, knowing its modes from its own memory (R231, R232) (DEDUCED, log entry 45). -/
def execGroupSupplyReturn (g : Nat) (s : State) : Next := .next <|
  if 12 ≤ g || (s.group g).supply then s
  else ((s.updGroup g (fun x => { x with supply := true })).updGroupChans g (fun c => { c with
      latched := none, ready := none, copyOk := false, held := none })).fallback g false

/-! ### Apply (R233, R234) -/

/-- The RWL rows of a terminal. -/
def chRows : List RegRow :=
  [R.CH_CFG_MODE, R.CH_CFG_RANGE, R.CH_CFG_WIRES, R.CH_CFG_SENSOR, R.CH_CFG_QM, R.CH_CFG_RATE_MODE, R.CH_CFG_NE43_EN,
   R.CH_CFG_ALARM_HIGH, R.CH_CFG_SINK, R.CH_CFG_HART_EN, R.CH_CFG_CJ_SRC, R.CH_CFG_CJ_TERM, R.CH_RATE_N, R.CH_RATE_K,
   R.CH_SCALE_A, R.CH_SCALE_B, R.CH_SAFE_KIND, R.CH_SAFE_VALUE, R.CH_TRIM_GAIN, R.CH_TRIM_OFFSET, R.CH_LEAD_R, R.CH_CJ_FIXED,
   R.CH_DRIFT_LIM, R.HART_CFG_RETRIES, R.HART_CFG_PREAMBLE, R.HART_CFG_MULTIDROP, R.HART_CFG_SYNC, R.HART_CFG_BURST_RX]

/-- A staged field differs from the applied one. -/
def State.changes (s : State) (g t : Nat) (rows : List RegRow) : Bool := rows.any (fun r => s.sg r g t != s.rd r g t)

/-- The RANGE or SENSOR of a mode is one R209 lists, and the other codes are defined (R233, R241). -/
def State.codesOk (s : State) (g t : Nat) : Bool :=
  let mode := s.sg R.CH_CFG_MODE g t
  let range := s.sg R.CH_CFG_RANGE g t
  let sensor := s.sg R.CH_CFG_SENSOR g t
  (match mode with
    | 0 => true
    | 1 => decide (range ≤ 2)
    | 2 => range == 0
    | 3 => range == 0
    | 4 => decide (range ≤ 1)
    | 5 => decide (sensor ≤ 2)
    | 6 => decide (sensor ≤ 7)
    | 8 => decide (range ≤ 1)
    | 9 => range == 0
    | _ => false) &&
  s.sg R.CH_CFG_RATE_MODE g t != 3 && s.sg R.CH_CFG_WIRES g t != 3 && decide (s.sg R.CH_RATE_N g t ≤ 1000) &&
  (s.sg R.CH_CFG_HART_EN g t != 1 || mode == 2 || mode == 3 || mode == 9)

/-- A window of the staged configuration in tb; none for the undefined RATE_MODE. -/
def State.stagedW (s : State) (g t : Nat) : Option Nat :=
  match s.sg R.CH_CFG_RATE_MODE g t with
  | 0 => some (s.P / s.subframes)
  | 1 => some s.P
  | 2 => some (max 1 (s.sg R.CH_RATE_N g t) * s.P)
  | _ => none

/-- Whether refusal reason `r` of FG_APPLY_STATUS holds at a terminal (R233). -/
def State.fgReason (s : State) (g t r : Nat) : Bool :=
  let mode := s.sg R.CH_CFG_MODE g t
  match r with
  | 1 => s.inRun && s.mapped 1 (8 * g + t) &&
      s.changes g t [R.CH_CFG_MODE, R.CH_CFG_RANGE, R.CH_CFG_SINK, R.HART_CFG_MULTIDROP]
  | 2 => (s.stagedW g t).any (fun w => decide (w < minWindow mode))
  | 3 => isOutput mode && s.sg R.CH_SCALE_A g t == 0
  | 4 =>
    let gain := toInt 32 (s.sg R.CH_TRIM_GAIN g t)
    let off := toInt 32 (s.sg R.CH_TRIM_OFFSET g t)
    !(decide (95 * 2 ^ 30 ≤ gain * 100) && decide (gain * 100 ≤ 105 * 2 ^ 30) && decide (-1000000 ≤ off) && decide (off ≤ 1000000))
  | 5 => s.bit R.FG_STATUS_FALLBACK g
  | _ => !s.codesOk g t

/-- The reason an apply is refused with and the lowest terminal at which it holds (R233). -/
def State.fgRefusal (s : State) (g : Nat) : Option (Nat × Nat) :=
  [1, 2, 3, 4, 5, 6].findSome? (fun r => ((List.range 8).find? (fun t => s.fgReason g t r)).map (fun t => (r, t)))

/-- FG_APPLY_STATUS reports a refusal; nothing stays pending. -/
def State.fgRefuse (s : State) (g r t : Nat) : State :=
  (((s.wr R.FG_APPLY_STATUS_REFUSED 1 g).wr R.FG_APPLY_STATUS_REASON r g).wr R.FG_APPLY_STATUS_TERMINAL t g).wr
    R.FG_STATUS_APPLY_PENDING 0 g

/-- The address of a group's block. -/
def fgBase (g : Nat) : Nat := 0x40050000 + 0x1000 * g

/-- Submit the staged changes of group `g` (R233) (DEDUCED, log entry 42). -/
def State.fgApply (s : State) (g : Nat) : State :=
  match s.fgRefusal g with
  | some (r, t) => (s.fgRefuse g r t).applyDone (fgBase g) (0x0510 + r) [t]
  | none => (s.wr R.FG_STATUS_APPLY_PENDING 1 g).wr R.FG_APPLY_STATUS_REASON 0 g

/-- FG_APPLY: staged changes are submitted for the next tick, or refused (R233). -/
def execFgApply (g : Nat) (s : State) : Next := .next (if g < 12 then s.fgApply g else s)

/-- What a request is answered with whose apply is cancelled (DESIGN CHOICE, log entry 43). -/
def stCancelled : Nat := 0x0C05

/-- Discard the staged changes of group `g` (DESIGN CHOICE, log entry 43). -/
def State.fgCancel (s : State) (g : Nat) : State := 
  ((s.unstage (fgBase g) (fgBase (g + 1))).wr R.FG_STATUS_APPLY_PENDING 0 g).applyDone (fgBase g) stCancelled

/-- FG_APPLY_CANCEL: staged changes are discarded (R233, R240). -/
def execFgApplyCancel (g : Nat) (s : State) : Next := .next (if g < 12 then s.fgCancel g else s)

/-- The number of frames S a shadow lasts (R237) (DEDUCED, log entry 45). -/
def State.shadowFrames (s : State) (g t : Nat) : Nat :=
  let need := max 1000000 ((s.chK g t + 1) * s.nominalW g t)
  max 2 ((need + s.P - 1) / s.P)

/-- The frame whose tick ends a shadow that begins now (R237). -/
def State.shadowEnd (s : State) (g t : Nat) : Nat :=
  s.tb.frameNo + s.shadowFrames g t + (if s.tb.frc = s.tb.lastTick then 0 else 1)

/-- The staged configuration of a terminal becomes the applied one at the tick (R234, R237). -/
def State.applyTerminal (s : State) (g t : Nat) : State :=
  let ch := 8 * g + t
  let fresh := s.changes g t [R.CH_CFG_MODE, R.CH_CFG_RANGE, R.CH_CFG_WIRES, R.CH_CFG_SENSOR]
  let rate := s.changes g t [R.CH_CFG_RATE_MODE, R.CH_RATE_N, R.CH_RATE_K]
  let any_ := s.changes g t chRows
  let oldMode := s.chMode g t
  let s := chRows.foldl (fun s r => s.adopt r g t) s
  let mode := s.chMode g t
  let now := s.tb.frc
  let s := s.updChan ch (fun c =>
    let c := if fresh || rate then { c with hist := [], wStart := now } else c
    let c := if fresh then { c with settle := some now, closed := false, value := 0, status := 0, aux := 0, minV := none, maxV := none, parked := none } else c
    if mode != oldMode then { c with latched := none, held := none, ready := none, copyOk := false } else c)
  let s := s.updGroup g (fun x => { x with
    nv := x.nv.set t (mode, s.chRange g t, s.rd R.CH_CFG_SINK g t, s.rd R.CH_CFG_WIRES g t) })
  if any_ then
    let e := s.shadowEnd g t
    s.updGroup g (fun x => { x with shadow := x.shadow.map (fun y => if y.terminal == t then { y with until_ := e } else y) })
  else s

/-- FG_APPLY_TAKES_EFFECT: at the tick the staged configuration becomes the applied one; a change loses a PREPARED switch
(R233, R118) (DEDUCED, log entry 42). -/
def execFgApplyTakesEffect (g : Nat) (s : State) : Next := .next <|
  if 12 ≤ g || !s.bit R.FG_STATUS_APPLY_PENDING g then s
  else
    let s := s.toTick
    match s.fgRefusal g with
    | some (r, t) => (s.fgRefuse g r t).applyDone (fgBase g) (0x0510 + r) [t]
    | none =>
      let changed := (List.range 8).any (fun t => s.changes g t chRows)
      let s := (List.range 8).foldl (fun s t => s.applyTerminal g t) s
      let s := ((s.wr R.FG_STATUS_APPLY_PENDING 0 g).wr R.FG_APPLY_STATUS_DONE 1 g).wr R.FG_APPLY_STATUS_REASON 0 g
      let s := (s.rateAdapted.driveChans).applyDone (fgBase g) 0
      if changed then s.loseSwitch else s

/-! ### The spare converter (R237 to R239) -/

/-- The spare converter of a group, if one is left. -/
def State.spareConv (s : State) (g : Nat) : Option Nat := (List.range 9).find? (fun c => s.rd (convState c) g == 1)

/-- The reason a switch-in to a terminal is refused with, in R239's order; 0 when it is taken. -/
def State.spareReason (s : State) (g t : Nat) : Nat :=
  if s.chMode g t = 0 then 1
  else if (s.group g).shadow.isSome then 2
  else if (s.spareConv g).isNone then 3
  else if s.bit R.FG_STATUS_FALLBACK g then 4
  else 0

/-- Start a switch-in to terminal `t` (R237, R239). -/
def State.spareStart (s : State) (g t : Nat) : State :=
  match s.spareReason g t with
  | 0 =>
    let sh : FgShadow := { terminal := t, conv := (s.spareConv g).getD 8, until_ := s.shadowEnd g t }
    let s := s.updGroup g (fun x => { x with shadow := some sh })
    ((s.wr R.FG_SPARE_STATUS_STATE 1 g).wr R.FG_SPARE_STATUS_TERMINAL t g).wr R.FG_SPARE_STATUS_REASON 0 g
  | r => (s.wr R.FG_SPARE_STATUS_REFUSED 1 g).wr R.FG_SPARE_STATUS_REASON r g

/-- FG_SPARE_START: a switch-in starts shadowing, or is refused with a reason (R237, R239). -/
def execFgSpareStart (g terminal : Nat) (s : State) : Next := .next <|
  if g < 12 && decide (terminal < 8) then s.spareStart g terminal else s

/-- The shadow of group `g` ends and the spare returns to cross-checking (R239). -/
def State.spareCancel (s : State) (g : Nat) : State :=
  if 12 ≤ g || (s.group g).shadow.isNone then s
  else (((s.updGroup g (fun x => { x with shadow := none, visitAt := s.tb.frc })).wr R.FG_SPARE_STATUS_STATE 0 g).wr R.FG_SPARE_STATUS_REASON 5 g).wake opSpare g 0x0C05

/-- FG_SPARE_CANCEL (R239). -/
def execFgSpareCancel (g : Nat) (s : State) : Next := .next (s.spareCancel g)

/-- SPARE_TAKEOVER: at the first tick after the shadow the spare takes the terminal and the old converter retires (R237); the
inventory counts the spare (R487). -/
def execSpareTakeover (g : Nat) (s : State) : Next := .next <|
  match if g < 12 then (s.group g).shadow else none with
  | none => s
  | some sh =>
    if s.tickFrame < sh.until_ then s
    else
      let s := s.toTick
      let old := s.convOf g sh.terminal
      let s := ((s.wr (convRow sh.terminal) sh.conv g).wr (convState sh.conv) 0 g).wr (convState old) 2 g
      let s := ((s.wr R.FG_SPARE_STATUS_STATE 2 g).wr R.FG_SPARE_STATUS_TERMINAL sh.terminal g).wr R.FG_SPARE_STATUS_DONE 1 g
      let s := s.wr R.FG_STATUS_EXHAUSTED (if (s.spareConv g).isNone then 1 else 0) g
      ((s.updGroup g (fun x => { x with shadow := none })).hsUse 2).wake opSpare g 0

/-! ### Loop power and flags -/

/-- LOOP_POWER_SAMPLE: every 100,000 tb the total is sampled; a group draws `draw` mW, held to its limit, and above 40.0 W in all every
group's limit is 3.33 W until the total has been below 38.0 W for 1 s (R227) (DESIGN CHOICE, log entry 92). -/
def execLoopPowerSample (draw : List Nat) (s : State) : Next := .next <|
  s.upTo (max s.sup.loopAt ((s.tb.frc + 99999) / 100000 * 100000)) fun s =>
    let drawn (g : Nat) : Nat := min (draw.getD g 0) (s.rd R.FG_POWER_LIMIT g)
    let total := ((List.range 12).map drawn).sum
    let low := if total < 38000 then some (s.sup.loopLow.getD s.tb.frc) else none
    let s := { s with sup := { s.sup with loopLow := low, loopAt := s.tb.frc + 100000 } }
    let was := s.bit R.FG_STATUS_MODULE_LIMIT 0
    let done := low.any (fun t => decide (t + 100000000 ≤ s.tb.frc))
    let on := decide (40000 < total) || (was && !done)
    (List.range 12).foldl (fun s g =>
      let limit := if on then 3330 else 5000
      (((s.wr R.FG_POWER_DRAW (min (drawn g) limit) g).wr R.FG_POWER_LIMIT limit g).wr R.FG_STATUS_MODULE_LIMIT (if on then 1 else 0) g).wr
        R.FG_STATUS_POWER_LIMIT (if limit ≤ draw.getD g 0 then 1 else 0) g) s

/-- CH_FLAGS_WRITE: ones clear sticky bits; bit 9 also clears CH_SHORTFALL_MAX (R240). -/
def execChFlagsWrite (ch v : Nat) (s : State) : Next := .next <|
  if 96 ≤ ch then s
  else
    let g := ch / 8
    let t := ch % 8
    let s := flagRows.foldl (fun s f => if bitOf v f.1 then s.wr f.2 0 g t else s) s
    if bitOf v 9 then s.wr R.CH_SHORTFALL_MAX 0 g t else s

end Sys2Proof.Machine
end

