-- ==== Sys2Proof/Machine/Hart.lean ====
section
/-! DEFINITION. HART on universal current channels (R241 to R247). -/

namespace Sys2Proof.Machine

open Sys2Proof

/-- A channel's HART side. -/
def State.hart (s : State) (ch : Nat) : Hart := s.harts.getD ch Hart.reset

/-- Change it; HART_STATUS.QUEUED follows the queue. -/
def State.updHart (s : State) (ch : Nat) (f : Hart → Hart) : State :=
  let s := { s with harts := updAt s.harts ch f }
  s.wr R.HART_STATUS_QUEUED (s.hart ch).queue.length (ch / 8) (ch % 8)

/-- The modem's state: 0 idle, 1 transmitting, 2 awaiting response, 3 receiving. -/
def State.hartState (s : State) (ch v : Nat) : State := s.wr R.HART_STATUS_STATE v (ch / 8) (ch % 8)

/-- The channel acts as a HART primary master (R241) (DEDUCED, log entry 44). -/
def State.hartOn (s : State) (ch : Nat) : Bool :=
  let g := ch / 8
  let t := ch % 8
  decide (ch < 96) && s.bit R.CH_CFG_HART_EN g t && (isCurrentIn (s.chMode g t) || s.chMode g t == 9)

/-- A polling address the channel may use: 0 to 63, in multidrop 1 to 63 (R245). -/
def State.hartAddr (s : State) (ch address : Nat) : Bool :=
  decide (address < 64) && (address != 0 || !s.bit R.HART_CFG_MULTIDROP (ch / 8) (ch % 8))

/-- The requests a channel's queue holds (R242). -/
def hartDepth : Nat := 8

/-- HART_PASS, and its statuses. -/
def opHartPass : Nat := 0x0509
def stBusy : Nat := 0x0007
def stHartNoResp : Nat := 0x0550

/-- A host's request is answered; a poll has no one to answer. -/
def State.hartReply (s : State) (q : HartReq) (status : Nat) (data : Bytes := []) : State :=
  match q.entry with
  | some _ => s
  | none => s.answer { session := q.session, op := opHartPass, tag := q.tag, status, params := [], data }

/-- HART_POLL_DUE: a poll entry's period since its previous request's start expires and its request is queued; with the queue
full it waits (R242). -/
def execHartPollDue (ch entry : Nat) (s : State) : Next := .next <|
  let h := s.hart ch
  match h.polls[entry]? with
  | none => s
  | some p =>
    let due := p.last.all (fun t => decide (t + p.period * 100000000 ≤ s.tb.frc))
    let queued := (h.queue ++ h.cur.toList).any (fun q => q.entry == some entry)
    if s.hartOn ch && due && !queued && decide (h.queue.length < hartDepth) then
      s.updHart ch (fun h => { h with queue := h.queue ++
        [{ session := 0, tag := 0, entry := some entry, address := p.address, command := p.command, data := [], queued := s.tb.frc }] })
    else s

/-- The request served next: the host's in order of arrival, then the polls (R242). -/
def hartNext (q : List HartReq) : Option HartReq :=
  match q.find? (fun r => r.entry.isNone) with
  | some r => some r
  | none => q.head?

/-- OFLAGS.HART_HOLD of the latched granule of an IOUT channel (R247). -/
def State.hartHeld (s : State) (ch : Nat) : Bool :=
  s.chMode (ch / 8) (ch % 8) == 9 && (s.chan ch).latched.any (fun x => bitOf x.2 8)

/-- The preamble bytes a channel sends; values below 5 act as 5 (R261). -/
def State.hartPreamble (s : State) (ch : Nat) : Nat := max 5 (s.rd R.HART_CFG_PREAMBLE (ch / 8) (ch % 8))

/-- How long a master frame takes in tb: characters of 11 bits at 1,200 bit/s; after the preamble come delimiter, address (one byte for command
0, else five), command, byte count, data and check byte (HART 7; PRESUMED, log entry 13). -/
def hartTime (preamble : Nat) (q : HartReq) : Nat :=
  ((preamble + (if q.command = 0 then 1 else 5) + 4 + q.data.length) * 11 * 100000000 + 1199) / 1200

/-- HART_STATUS.STATE follows the frame being sent: once it has ended the modem awaits the response. -/
def State.hartNow (s : State) (ch : Nat) : State :=
  if s.rd R.HART_STATUS_STATE (ch / 8) (ch % 8) = 1 && !s.hartSends ch then s.hartState ch 2 else s

/-- HART_FRAME_START: the modem starts a master frame: a repeat of the request in progress, or the next of the queue; with SYNC
only at a frame tick (R243). -/
def execHartFrameStart (ch : Nat) (loopFree : Bool) (s : State) : Next := .next <|
  let g := ch / 8
  let t := ch % 8
  let h := s.hart ch
  if !(s.hartOn ch && loopFree && s.rd R.HART_STATUS_STATE g t == 0 && !s.hartHeld ch && !s.bit R.FG_STATUS_FALLBACK g &&
      (!s.bit R.HART_CFG_SYNC g t || s.tb.frc == s.tb.lastTick)) then s
  else
    match (h.cur.orElse (fun _ => hartNext h.queue)) with
    | none => s
    | some q =>
      let fresh := h.cur.isNone
      let s := s.updHart ch (fun h => { h with
        queue := h.queue.filter (fun x => x != q)
        cur := some q
        tries := if fresh then 0 else h.tries
        txEnd := some (s.tb.frc + hartTime (s.hartPreamble ch) q)
        polls := match q.entry with
          | some e => if fresh then updAt h.polls e (fun p => { p with last := some s.tb.frc }) else h.polls
          | none => h.polls })
      let s := s.emit (.hart ch) .frame [s.hartPreamble ch, q.address, q.command] q.data
      (s.updChan ch (fun c => { c with hartTx := true })).hartState ch 1

/-- The device bits of R247 from a frame's device-status byte (bits 7 malfunction, 6 configuration changed, 4 more status:
HART 7; PRESUMED, log entry 13), kept in positions 24 to 31. -/
def hartDevBits (bits status : Nat) : Nat :=
  (bits &&& 0x4F) ||| bitIf (bitOf status 7) 16 ||| bitIf (bitOf status 4) 32 ||| bitIf (bitOf status 6) 128

/-- A frame of a device is heard: HART_RX, and the device bits where it is the device R247 reports (PRESUMED, log entry 13). -/
def State.hartHeard (s : State) (ch : Nat) (m : HartMsg) : State :=
  let h := s.hart ch
  let md := s.multidrop (ch / 8) (ch % 8)
  let lowest := match h.lowest with
    | some a => min a m.address
    | none => m.address
  let s := if md then s.updHart ch (fun h => { h with lowest := some lowest }) else s
  s.updChan ch (fun c => { c with
    hartRx := true
    hartBits := if m.address == (if md then lowest else 0) then hartDevBits c.hartBits m.status else c.hartBits })

/-- COMM_OK and NO_RESP take the outcome of the latest transaction (R247). -/
def State.hartOutcome (s : State) (ch : Nat) (ok : Bool) : State :=
  s.updChan ch (fun c => { c with hartBits := (c.hartBits &&& 0xF3) ||| (if ok then 4 else 8) })

/-- Keep the latest message of each device and command. -/
def hartKeep (l : List HartMsg) (m : HartMsg) : List HartMsg :=
  m :: l.filter (fun x => !(x.address == m.address && x.command == m.command))

/-- A try has failed: the request is repeated up to RETRIES times, then the transaction fails (R244). -/
def State.hartFail (s : State) (ch : Nat) (q : HartReq) : State :=
  let g := ch / 8
  let t := ch % 8
  let s := s.hartState ch 0
  if (s.hart ch).tries < s.rd R.HART_CFG_RETRIES g t then s.updHart ch (fun h => { h with tries := h.tries + 1 })
  else
    let s := s.updHart ch (fun h => { h with cur := none, tries := 0 })
    ((s.hartOutcome ch false).inc R.HART_COUNT_FAIL g t).hartReply q stHartNoResp

/-- The modem awaits the response of the request in progress: its frame has been sent. -/
def State.hartAwaits (s : State) (ch : Nat) : Bool := s.rd R.HART_STATUS_STATE (ch / 8) (ch % 8) != 0 && !s.hartSends ch

/-- HART_RESPONSE_RX: a response has been received (STATE 3 while it is) and STATE returns to idle; one with a communication error is a failed
try (R244). -/
def execHartResponseRx (ch : Nat) (m : HartMsg) (s : State) : Next := .next <|
  match (s.hart ch).cur with
  | none => s
  | some q =>
    if !s.hartAwaits ch then s
    else
      let s := (s.hartState ch 3).hartHeard ch m
      if m.comm != 0 then s.hartFail ch q
      else
        let s := s.updHart ch (fun h => { h with
          cur := none, tries := 0, responses := if q.entry.isSome then hartKeep h.responses m else h.responses })
        let s := ((s.hartState ch 0).hartOutcome ch true).inc R.HART_COUNT_OK (ch / 8) (ch % 8)
        s.hartReply q 0 ([BitVec.ofNat 8 m.comm, BitVec.ofNat 8 m.status] ++ m.data)

/-- HART_RESPONSE_TIMEOUT: no valid response within the response time (R244). -/
def execHartResponseTimeout (ch : Nat) (s : State) : Next := .next <|
  match (s.hart ch).cur with
  | none => s
  | some q => if s.hartAwaits ch then s.hartFail ch q else s

/-- HART_REQUEST_EXPIRED: a request that has waited more than 10 s to start is removed and reported busy (R243). -/
def execHartRequestExpired (ch : Nat) (s : State) : Next := .next <|
  match (s.hart ch).queue.find? (fun q => decide (q.queued + 1000000000 < s.tb.frc)) with
  | none => s
  | some q => (s.updHart ch (fun h => { h with queue := h.queue.filter (fun x => x != q) })).hartReply q stBusy

/-- HART_BURST_RX: a burst message is counted, and kept while BURST_RX is 1 (R246); in fallback the modem is idle (R243). -/
def execHartBurstRx (ch : Nat) (m : HartMsg) (s : State) : Next := .next <|
  if !s.hartOn ch || s.bit R.FG_STATUS_FALLBACK (ch / 8) then s
  else
    let s := (s.hartHeard ch m).inc R.HART_COUNT_BURST (ch / 8) (ch % 8)
    if s.bit R.HART_CFG_BURST_RX (ch / 8) (ch % 8) then s.updHart ch (fun h => { h with bursts := hartKeep h.bursts m }) else s

end Sys2Proof.Machine
end

