-- ==== Sys2Proof/Machine/Dio.lean ====
section
/-! DEFINITION. Discrete inputs and outputs (R248 to R261). -/

namespace Sys2Proof.Machine

open Sys2Proof

/-- Change the discrete block. -/
def State.updDio (s : State) (f : Dio → Dio) : State := { s with dio := f s.dio }

/-! ### Inputs (R249 to R252) -/

/-- What the comparator samples of input `d` at `mv` mV: 1 from the ON voltage of its type, 0 up to the OFF voltage, either between them (R248). -/
def State.diSample (s : State) (d : Nat) (mv : Int) : Bool :=
  if (if bitOf (s.rd R.DIO_IN_TYPE) d then 11000 else 15000) ≤ mv then true
  else if mv ≤ 5000 then false
  else bitOf s.freeVal d

/-- The 32 raw samples of a refresh, as a number; those of an open input, or between the limits, are free (R248). -/
def State.diSamples (s : State) (volts : List Int) : Nat := ofBits 32 (fun d => s.diSample d (volts.getD d 0))

/-- Input `d` sinks current in the tb now: at all times with CONT 1, else in the 200 tb before each sample (R249). -/
def State.diSinks (s : State) (d : Nat) : Bool := bitOf (s.rd R.DIO_IN_CONT) d || decide (800 ≤ s.tb.frc % 1000)

/-- The raw samples after DIO_IN_CFG.INVERT (R249). -/
def State.diInverted (s : State) (samples : Nat) : Nat :=
  ofBits 32 (fun d => bitOf samples d != s.bit R.DIO_IN_CFG_INVERT d)

/-- One filter step of input `d` with sample `x`: counter and state (R251). -/
def State.diStep (s : State) (d : Nat) (x : Bool) : Nat × Bool :=
  let limit := s.rd R.DIO_IN_CFG_LIMIT d
  let c := s.dio.counter.getD d 0
  let c := if x && decide (c < limit) then c + 1 else if !x && decide (0 < c) then c - 1 else c
  let st := bitOf s.dio.state d
  if !st && decide (s.rd R.DIO_IN_CFG_TH_ON d ≤ c) then (c, true)
  else if st && decide (c ≤ s.rd R.DIO_IN_CFG_TH_OFF d) then (c, false)
  else (c, st)

/-- A valid refresh with raw samples `raw` after INVERT: inputs still to be initialised take it as it is, the others step;
filtered changes set the window's edges, and rising ones count (R251, R252). -/
def State.diFilter (s : State) (raw : Nat) : State :=
  let step (d : Nat) : Nat × Bool :=
    let x := bitOf raw d
    if bitOf s.dio.init d then (if x then s.rd R.DIO_IN_CFG_LIMIT d else 0, x) else s.diStep d x
  let new := ofBits 32 (fun d => (step d).2)
  let rise := ofBits 32 (fun d => !bitOf s.dio.init d && !bitOf s.dio.state d && bitOf new d)
  let fall := ofBits 32 (fun d => !bitOf s.dio.init d && bitOf s.dio.state d && !bitOf new d)
  let s := s.updDio (fun x => { x with
    counter := (List.range 32).map (fun d => (step d).1)
    state := new, raw, was := x.state, doneAt := some s.tb.frc, init := 0
    rise := x.rise ||| rise, fall := x.fall ||| fall
    count := x.count.mapIdx (fun d n => if bitOf rise d && s.bit R.DIO_IN_CFG_COUNT_EN d then (n + 1) % 2 ^ 32 else n) })
  (s.wr R.DIO_IN_STATE new).wr R.DIO_IN_RAW raw

/-- The refresh whose instant `off` after its sample comes next: refresh k samples at FRC 1,000 × k, its crossing frame is due 400 tb later, and it
completes 500 tb after the sample (R249). -/
def State.nextRefresh (s : State) (off : Nat) : Nat := max s.dio.refresh ((s.tb.frc + 999 - off) / 1000)


/-- Inputs captured in a firing of lock group `lg`, as the last refresh completed before it left them (R253): four slots per frame window; a second firing replaces its slot. -/
def State.diCapture (s : State) (lg mask frc frame : Nat) : State :=
  let c : DiCap := { lg, frc, mask, states := (if s.dio.doneAt = some frc then s.dio.was else s.dio.state) &&& mask, frame }
  let lost (s : State) : State := (s.updDio (fun x => { x with wCapLost := true })).wr R.DIO_STATUS_CAP_LOST 1
  let mine := s.dio.caps.filter (fun x => x.frame == frame)
  if mine.any (fun x => x.lg == lg) then
    lost (s.updDio (fun x => { x with caps := x.caps.map (fun y => if y.lg == lg && y.frame == frame then c else y) }))
  else if 4 ≤ mine.length then lost s
  else s.updDio (fun x => { x with caps := x.caps ++ [c] })

/-! ### The DIO_IN block (R254) -/

/-- The common faults of the two halves that hold now: an output in current limit or thermal shutdown, a low field supply, a failed check of the
half's drivers (R258). -/
def State.dioFaultNow (s : State) : Nat :=
  let outs := s.dio.limited ++ s.dio.thermal.map (·.1)
  s.rd R.DIO_STATUS_SUP0_LOW ||| s.rd R.DIO_STATUS_SUP1_LOW * 2 ||| s.dio.check |||
    bitIf (outs.any (fun o => decide (o < 16))) 1 ||| bitIf (outs.any (fun o => decide (16 ≤ o))) 2

/-- A common fault of a half: in this window, and latched in DIO_STATUS (R258) (DEDUCED, log entry 74). -/
def State.dioFault (s : State) (half : Nat) : State :=
  (s.updDio (fun x => { x with wFault := x.wFault ||| 2 ^ half })).wr
    (if half = 0 then R.DIO_STATUS_FAULT0 else R.DIO_STATUS_FAULT1) 1

/-- DI_REFRESH: the crossing frame of the next refresh arrives with the samples and the output block's status, or fails or is missing when it is due;
what falls at or after the next tick comes after it (R249, R250, R251, R258). -/
def execDiRefresh (volts : List Int) (check : Nat) (ok : Bool) (s : State) : Next := .next <|
  let off := if ok then 500 else 400
  let k := s.nextRefresh off
  if s.nextTick ≤ 1000 * k + off then s
  else
    let s := (s.toFrc (1000 * k + off)).updDio (fun x => { x with refresh := k + 1 })
    if ok then
      let s := if 100 ≤ s.dio.missed then s.updDio (fun x => { x with init := 2 ^ 32 - 1 }) else s
      let raw := s.diInverted (s.diSamples volts)
      let s := s.nextFree.updDio (fun x => { x with missed := 0, check := check % 4 })
      let s := [0, 1].foldl (fun s h => if bitOf check h then s.dioFault h else s) s
      (s.wr R.DIO_STATUS_IN_OK 1).diFilter raw
    else
      ((s.updDio (fun x => { x with missed := x.missed + 1, wCross := true })).wr R.DIO_STATUS_IN_OK 0).inc R.DIO_CROSS_ERR_COUNT

/-- DI_INPUT_STALE: after 100 refreshes without a valid frame the states are held and IN_STALE is set (R250). -/
def execDiInputStale (s : State) : Next := .next <|
  if 100 ≤ s.dio.missed then s.wr R.DIO_STATUS_IN_STALE 1 else s

/-- BSTATUS at the tick. -/
def State.bstatus (s : State) : Nat :=
  let fault := s.dio.wFault ||| s.dioFaultNow
  bitIf s.dio.wCross 1 ||| bitIf (100 ≤ s.dio.missed) 2 ||| bitIf (bitOf fault 0) 4 ||| bitIf (bitOf fault 1) 8 |||
    s.rd R.DIO_STATUS_SUP0_LOW * 16 ||| s.rd R.DIO_STATUS_SUP1_LOW * 32 ||| s.rd R.DIO_STATUS_OUT_OFF * 64 |||
    bitIf s.dio.wCapLost 128 ||| s.rd R.DIO_STATUS_TRIP * 256

/-- The 128 bytes of DIO_IN by physical input, as the tick that opened this frame freezes them; `lastTick` is that tick. -/
def State.dioImage (s : State) : Bytes :=
  let caps := (s.dio.caps.filter (fun c => c.frame == s.tb.frameNo)).take 4
  let mask := caps.foldl (fun v c => v ||| c.mask) 0
  let states := caps.foldl (fun v c => (v &&& (2 ^ 32 - 1 - c.mask % 2 ^ 32)) ||| c.states) 0
  let slot (i : Nat) : Bytes := match caps[i]? with
    | some c => leBytes 4 c.lg ++ leBytes 4 (s.tb.lastTick - c.frc)
    | none => leBytes 4 0xFF ++ leBytes 4 0
  leBytes 4 s.dio.state ++ leBytes 4 s.dio.rise ++ leBytes 4 s.dio.fall ++ leBytes 4 s.dio.raw ++ leBytes 4 states ++
    leBytes 4 mask ++ leBytes 4 s.bstatus ++ leBytes 4 (s.rd R.DIO_OUT_NOW) ++ (List.range 4).flatMap slot ++
    (List.range 32).flatMap (fun d => leBytes 2 (s.dio.count.getD d 0))

/-- The tick freezes the discrete inputs and begins the next window, in which a fault that still holds counts from its start (R254). -/
def State.freezeDio (s : State) : State :=
  let img := s.dioImage
  let s := { s with lat := { s.lat with inDio := img } }
  s.updDio (fun x => { x with
    rise := 0, fall := 0, wCross := false, wFault := s.dioFaultNow, wCapLost := false
    caps := x.caps.filter (fun c => decide (s.tb.frameNo < c.frame)) })

/-! ### The output block (R256 to R259) -/

/-- DO_IMAGE_FRAME: the transferred image arrives at the block, valid or not (R256). -/
def execDoImageFrame (ok : Bool) (s : State) : Next := .next <|
  if s.dio.xfer.isNone || s.dio.sent then s
  else if ok then s.updDio (fun x => { x with sent := true, got := x.xfer })
  else (s.updDio (fun x => { x with sent := true })).inc R.DIO_CROSS_ERR_COUNT

/-- DO_CONTROL_FRAME: a control frame arrives at the block, valid or not; one that follows the image's own frame repeats the image (R256, R259). -/
def execDoControlFrame (ok : Bool) (s : State) : Next := .next <|
  s.upTo ((s.dio.ctlAt.map (· + 1000)).getD 0) fun s =>
    let s := s.updDio (fun x => { x with ctlAt := some s.tb.frc })
    if ok then
      (s.updDio (fun x => { x with valid := x.valid + 1, invalid := 0, got := if x.sent then x.xfer else x.got })).wr R.DIO_STATUS_OUT_OK 1
    else
      ((s.updDio (fun x => { x with valid := 0, invalid := x.invalid + 1 })).wr R.DIO_STATUS_OUT_OK 0).inc R.DIO_CROSS_ERR_COUNT

/-- Every output is off (R259). -/
def State.deenergise (s : State) : State := (s.wr R.DIO_STATUS_OUT_OFF 1).driveDos

/-- DO_BLOCK_DEENERGISE: after 100 consecutive invalid control frames (R259). -/
def execDoBlockDeenergise (s : State) : Next := .next <|
  if decide (100 ≤ s.dio.invalid) && !s.bit R.DIO_STATUS_OUT_OFF then
    (s.updDio (fun x => { x with lost := true, order := false })).deenergise
  else s

/-- DO_BLOCK_RESUME: at a tick the block leaves the de-energised state, on the order of the end of BOOT or, where lost control frames have
caused it, after 100 valid ones (R259) (DEDUCED, log entry 77). -/
def execDoBlockResume (s : State) : Next := .next <|
  if s.bit R.DIO_STATUS_OUT_OFF && s.unit != .boot && (s.dio.order || (s.dio.lost && decide (100 ≤ s.dio.valid))) then
    ((s.toTick.updDio (fun x => { x with lost := false, order := false })).wr R.DIO_STATUS_OUT_OFF 0).driveDos
  else s

/-- DO_CURRENT_LIMIT: an output that is on goes into current limit, reaches thermal shutdown there and turns off, or its overload ends (R258)
(DEDUCED, log entry 74). -/
def execDoCurrentLimit (o : Nat) (ev : Overload) (s : State) : Next := .next <|
  if 32 ≤ o then s
  else match ev with
    | .limit => if s.doTerminal o then (s.updDio (fun x => { x with limited := o :: x.limited.filter (· != o) })).dioFault (o / 16) else s
    | .shutdown =>
      if s.doTerminal o then
        (s.updDio (fun x => { x with limited := o :: x.limited.filter (· != o), thermal := (o, s.tb.frc) :: x.thermal })).dioFault (o / 16)
      else s
    | .ended => s.updDio (fun x => { x with limited := x.limited.filter (· != o) })

/-- DO_THERMAL_RESTART: 100 ms after its shutdown the output restarts (R258). -/
def execDoThermalRestart (o : Nat) (s : State) : Next := .next <|
  s.updDio (fun x => { x with thermal := x.thermal.filter (fun y => !(y.1 == o && decide (y.2 + 10000000 ≤ s.tb.frc))) })

/-- FIELD_SUPPLY_LOW: the field supply of a half (0 X15, 1 X16) crosses its threshold (R255, R258) (DEDUCED, log entry 74). -/
def execFieldSupplyLow (half : Nat) (low : Bool) (s : State) : Next := .next <|
  if 2 ≤ half then s
  else
    let s := s.wr (if half = 0 then R.DIO_STATUS_SUP0_LOW else R.DIO_STATUS_SUP1_LOW) (if low then 1 else 0)
    if low then s.dioFault half else s

/-! ### Apply (R261) -/

/-- The RWL rows of an input and of an output. -/
def diRows : List RegRow :=
  [R.DIO_IN_CFG_LIMIT, R.DIO_IN_CFG_TH_ON, R.DIO_IN_CFG_TH_OFF, R.DIO_IN_CFG_COUNT_EN, R.DIO_IN_CFG_INVERT]
def doRows : List RegRow := [R.DIO_OUT_SAFE_KIND, R.DIO_OUT_SAFE_STATE]

/-- A staged filter breaks 0 ≤ TH_OFF < TH_ON ≤ LIMIT ≤ 1,023 (R251). -/
def State.filterBad (s : State) (d : Nat) : Bool :=
  let on := s.sg R.DIO_IN_CFG_TH_ON d
  !(decide (s.sg R.DIO_IN_CFG_TH_OFF d < on) && decide (on ≤ s.sg R.DIO_IN_CFG_LIMIT d))

/-- A staged change of the type of input `d`. -/
def State.typeChanged (s : State) (d : Nat) : Bool := bitOf (s.sg R.DIO_IN_TYPE) d != bitOf (s.rd R.DIO_IN_TYPE) d

/-- A staged change of any setting of input `d`. -/
def State.diChanged (s : State) (d : Nat) : Bool :=
  s.typeChanged d || bitOf (s.sg R.DIO_IN_CONT) d != bitOf (s.rd R.DIO_IN_CONT) d ||
    diRows.any (fun r => s.sg r d != s.rd r d)

/-- The reason an apply is refused with and the lowest input at which it holds (R261). -/
def State.dioRefusal (s : State) : Option (Nat × Nat) :=
  match (List.range 32).find? s.filterBad with
  | some d => some (1, d)
  | none =>
    if !s.inRun then none
    else ((List.range 32).find? (fun d => s.mapped 2 d &&
      (s.typeChanged d || s.sg R.DIO_IN_CFG_INVERT d != s.rd R.DIO_IN_CFG_INVERT d))).map (fun d => (2, d))

/-- DIO_APPLY_STATUS reports a refusal. -/
def State.dioRefuse (s : State) (r d : Nat) : State :=
  (((s.wr R.DIO_APPLY_STATUS_REFUSED 1).wr R.DIO_APPLY_STATUS_REASON r).wr R.DIO_APPLY_STATUS_INPUT d).updDio
    (fun x => { x with applying := false })

/-- Submit the staged discrete changes (R261) (DEDUCED, log entry 42). -/
def State.dioApply (s : State) : State :=
  match s.dioRefusal with
  | some (r, d) => (s.dioRefuse r d).applyDone 0x40060000 (0x0520 + r) [d]
  | none => (s.wr R.DIO_APPLY_STATUS_REASON 0).updDio (fun x => { x with applying := true })

/-- DIO_APPLY: staged changes are submitted for the next tick, or refused (R261) (DEDUCED, log entry 47). -/
def execDioApply (s : State) : Next := .next s.dioApply

/-- Discard the staged discrete changes (DESIGN CHOICE, log entry 43). -/
def State.dioCancel (s : State) : State :=
  ((s.unstage 0x40060000 0x40061000).updDio (fun x => { x with applying := false })).applyDone 0x40060000 stCancelled

/-- DIO_APPLY_CANCEL (R261). -/
def execDioApplyCancel (s : State) : Next := .next s.dioCancel

/-- DIO_APPLY_TAKES_EFFECT: at the tick the staged configuration is applied; a changed input is initialised by its next valid
refresh, a change of COUNT_EN clears its count (R251, R252, R261). -/
def execDioApplyTakesEffect (s : State) : Next := .next <|
  if !s.dio.applying then s
  else
    let s := s.toTick
    match s.dioRefusal with
    | some (r, d) => (s.dioRefuse r d).applyDone 0x40060000 (0x0520 + r) [d]
    | none =>
      let init := ofBits 32 s.diChanged
      let clear := ofBits 32 (fun d => s.sg R.DIO_IN_CFG_COUNT_EN d != s.rd R.DIO_IN_CFG_COUNT_EN d)
      let s := (s.adopt R.DIO_IN_TYPE).adopt R.DIO_IN_CONT
      let s := (List.range 32).foldl (fun s d => diRows.foldl (fun s r => s.adopt r d) s) s
      let s := (List.range 28).foldl (fun s o => doRows.foldl (fun s r => s.adopt r o) s) s
      let s := s.updDio (fun x => { x with
        applying := false, init := x.init ||| init
        count := x.count.mapIdx (fun d n => if bitOf clear d then 0 else n) })
      (((s.wr R.DIO_APPLY_STATUS_DONE 1).wr R.DIO_APPLY_STATUS_REASON 0).driveDos).applyDone 0x40060000 0

end Sys2Proof.Machine
end

