-- ==== Sys2Proof/Machine/EngineWindows.lean ====
section
/-! DEFINITION. The management core's access to the loop-record window (R176, R514) and to the solver state store (R203),
solver relocation and shadowing (R201, R202). -/

namespace Sys2Proof.Machine

open Sys2Proof

/-! ### The loop window (R176, R514) -/

/-- The window word LP_WIN_ADDR names. -/
def State.lpWinAddr (s : State) : Nat := Config.loopBase + 4 * s.rd R.LP_WIN_ADDR

/-- Read a word of the loop window in cycle `sub` of the tb now: the word, retried on contention (R22, R176). -/
def State.loopRead (s : State) (a sub : Nat) : State × Nat :=
  let s := s.serve [a] sub
  (s, s.readWord a)

/-- LP_WIN_READ: a read through LP_WIN_DATA in cycle `sub` of its tb (R176). -/
def execLpWinRead (sub : Nat) (s : State) : Next := .next <|
  let (s, v) := s.loopRead s.lpWinAddr sub
  { s with rdata := v }

/-- A write through LP_WIN_DATA: only in STOP and in the record range (R176). -/
def State.loopWrite (s : State) (a v : Nat) : State :=
  if s.inStop && decide (a < 0x03020000) then (if reservedByte a then s else s.setWord a v) else s.wr R.LP_STATUS_WIN_WR_REFUSED 1

/-- LP_WIN_WRITE (R176). -/
def execLpWinWrite (v : Nat) (s : State) : Next := .next (s.loopWrite s.lpWinAddr v)

/-! ### The state store (R203) -/

/-- The word SV_WIN_ADDR names. -/
def State.svWinAddr (s : State) : Nat := Config.storeBase + 4 * s.rd R.SV_WIN_ADDR

/-- Read a word of the state store in cycle `sub` of the tb now: the word as it stands, retried on contention (R22, R179, R203). -/
def State.storeRead (s : State) (a sub : Nat) : State × Nat :=
  let s := s.serve [a] sub
  (s, s.readWord a)

/-- SV_WIN_READ: a read through SV_WIN_DATA in cycle `sub` of its tb, served in every state (R203). -/
def execSvWinRead (sub : Nat) (s : State) : Next := .next <|
  let (s, v) := s.storeRead s.svWinAddr sub
  { s with rdata := v }

/-- A write through SV_WIN_DATA: only in STOP (R203); what is reserved reads 0 still, and the chain area is written by the chain masters and ingest only
(R178) (DEDUCED, log entry 90). -/
def State.storeWrite (s : State) (a v : Nat) : State :=
  if s.inStop && decide (a < Config.storeEnd) then
    if reservedByte a || decide (0x02800000 ≤ a) then s else s.setWord a v
  else s.wr R.SV_STATUS_WIN_WR_REFUSED 1

/-- SV_WIN_WRITE (R203). -/
def execSvWinWrite (v : Nat) (s : State) : Next := .next (s.storeWrite s.svWinAddr v)

/-- SV_DMA_START: a bulk copy starts (R203, R204). -/
def execSvDmaStart (s : State) : Next := .next <|
  if s.bit R.SV_DMA_BUSY then s else (s.wr R.SV_DMA_BUSY 1).wr R.SV_DMA_RETRIES 0

/-- SV_DMA_ABORT: a running copy is stopped (R204). -/
def execSvDmaAbort (s : State) : Next := .next (s.wr R.SV_DMA_BUSY 0)

/-- SV_DMA_COMPLETE: the copy finishes, after `retries` retried reads (the spec places no read of a copy in a cycle), with an uncorrectable error in granule `bad` of it; a range
outside the state store copies nothing (R203, R204). -/
def execSvDmaComplete (retries : Nat) (bad : Option Nat) (s : State) : Next := .next <|
  if !s.bit R.SV_DMA_BUSY then s
  else
    let src := 32 * s.rd R.SV_DMA_SRC
    let n := 32 * s.rd R.SV_DMA_LEN
    let dst := Config.dramBase + s.rd64 R.SV_DMA_DST_LO R.SV_DMA_DST_HI
    let s := s.settleNow
    let s := ((s.wr R.SV_DMA_BUSY 0).wr R.SV_DMA_DONE 1).wr R.SV_DMA_RETRIES (min 65535 retries)
    let s := s.retries retries
    if Config.storeEnd - Config.storeBase < src + n then s.wr R.SV_DMA_ERR 1
    else
      let s := s.copyMem (Config.storeBase + src) dst n
      match bad with
      | some k =>
        if 32 * k < n then ((s.setBytes (dst + 32 * k) (leBytes 32 s.freeVal)).nextFree).wr R.SV_DMA_ERR 1 else s
      | none => s

/-! ### Relocation and shadowing (R201, R202) -/

/-- The new physical unit serves the logical unit; the old one has failed and the inventory counts the spare (R201, R487) (DEDUCED, log entry 46). -/
def State.svRelocFlip (s : State) (u p : Nat) : State :=
  let old := s.rd R.SV_MAP_PHYS u
  let s := ((s.wr R.SV_PHYS_STATE 2 old).wr R.SV_PHYS_LOGICAL 0 old).wr R.SV_PHYS_STATE 0 p
  let s := ((s.wr R.SV_PHYS_LOGICAL u p).wr R.SV_MAP_PHYS p u).wr R.SV_RELOC_STATUS_PENDING 0
  ({ s.wr R.SV_RELOC_STATUS_DONE 1 with lat := { s.lat with svReloc := none } }.hsUse 1).wake opRelocate 1 0

/-- Order a relocation of logical unit `u` to physical unit `p`: taken when `p` is a spare (R201, R204); in STOP it takes effect at once (R23). -/
def State.svRelocOrder (s : State) (u p : Nat) : State :=
  if decide (p < 9) && s.rd R.SV_PHYS_STATE p == 1 then
    if s.inStop then s.svRelocFlip u p
    else { s.wr R.SV_RELOC_STATUS_PENDING 1 with lat := { s.lat with svReloc := some (u, p) } }
  else s.wr R.SV_RELOC_STATUS_REFUSED 1

/-- SV_RELOC_COMMIT: a write of 1 to SV_RELOC_CTRL.COMMIT (R201). -/
def execSvRelocCommit (s : State) : Next := .next (s.svRelocOrder (s.rd R.SV_RELOC_CTRL_LOGICAL) (s.rd R.SV_RELOC_CTRL_TARGET))

/-- SOLVER_RELOCATION: at the boundary the new physical unit serves the logical unit (R201). -/
def execSolverRelocation (s : State) : Next := .next <|
  match s.lat.svReloc with
  | none => s
  | some (u, p) => s.toTick.svRelocFlip u p

/-- Shadowing takes the values of SV_SHADOW: a spare unit shadows the logical unit while EN is 1 (R202) (DEDUCED, log entry 27). -/
def State.svShadowSet (s : State) (u : Nat) (on : Bool) : State :=
  let s := (s.wr R.SV_SHADOW_LOGICAL u).wr R.SV_SHADOW_EN (if on then 1 else 0)
  let s := (List.range 9).foldl (fun s p => if s.rd R.SV_PHYS_STATE p = 3 then (s.wr R.SV_PHYS_STATE 1 p).wr R.SV_PHYS_LOGICAL 0 p else s) s
  if on then
    match (List.range 9).find? (fun p => s.rd R.SV_PHYS_STATE p == 1) with
    | some p => (s.wr R.SV_PHYS_STATE 3 p).wr R.SV_PHYS_LOGICAL (s.rd R.SV_SHADOW_LOGICAL) p
    | none => s
  else s

/-- A write of SV_SHADOW: in RUN it is staged for the next boundary, else it takes effect at once (R23). -/
def State.svShadowOrder (s : State) (u : Nat) (on : Bool) : State :=
  if s.inRun then (s.stage R.SV_SHADOW_LOGICAL u).stage R.SV_SHADOW_EN (if on then 1 else 0) else s.svShadowSet u on

/-- At a boundary what SV_SHADOW has staged takes effect (R23). -/
def State.svShadowTick (s : State) : State :=
  if s.staged.any (fun x => x.1 == R.SV_SHADOW_EN.key 0 0) then
    (s.svShadowSet (s.sg R.SV_SHADOW_LOGICAL) (s.sg R.SV_SHADOW_EN == 1)).unstage 0x400300D0 0x400300D4
  else s

end Sys2Proof.Machine
end

