-- ==== Sys2Proof/Machine/Chains.lean ====
section
/-! DEFINITION. Cell chains (R262 to R289): configuration, discovery, sweeps, breaks, the command queue and the fault line.  What a
port transmits goes to `sent` as `.frame [TYPE, HOP, POS]` with its payload and the CRC over header and payload (R264). -/

namespace Sys2Proof.Machine

open Sys2Proof

/-! ### Ports -/

/-- A chain port. -/
def State.chain (s : State) (p : Nat) : ChainPort := s.chains.getD p ChainPort.reset

/-- Change one port. -/
def State.updChain (s : State) (p : Nat) (f : ChainPort → ChainPort) : State := { s with chains := updAt s.chains p f }

/-- Change the sweep in progress. -/
def State.updSweep (s : State) (p : Nat) (f : Sweep → Sweep) : State :=
  s.updChain p (fun c => { c with sweep := c.sweep.map f })

/-- CH_STATUS.STATE values (R293). -/
def csWaking : Nat := 1
def csDiscovering : Nat := 2
def csRunning : Nat := 3
def csSplit : Nat := 4
def csSleeping : Nat := 5
def csFarEnd : Nat := 6
def csNoResponse : Nat := 7
def State.chainState (s : State) (p : Nat) : Nat := s.rd R.CH_STATUS_STATE p

/-- The configured node count, and whether the port is the home end of a ring (R262). -/
def State.chainN (s : State) (p : Nat) : Nat := s.rd R.CH_CTRL_N p
def State.chainRing (s : State) (p : Nat) : Bool := s.bit R.CH_CTRL_RING p && p % 2 == 0

/-- The port is the far end of an enabled ring. -/
def State.chainFar (s : State) (p : Nat) : Bool := p % 2 == 1 && s.chainRing (p - 1) && s.bit R.CH_CTRL_EN (p - 1)

/-- The port runs a chain of its own. -/
def State.chainOn (s : State) (p : Nat) : Bool := decide (p < 8) && s.bit R.CH_CTRL_EN p && !s.chainFar p

/-- Only the ACTIVE or SOLO unit's ports transmit (R289). -/
def State.chainTx (s : State) : Bool := (s.role == .solo || s.role == .active) && !s.sup.latticeStop

/-- The unit follows its partner's chains (R289). -/
def State.chainFollows (s : State) : Bool := s.role == .standby || s.role == .syncing

/-- LEAD in tb. -/
def State.chainLead (s : State) (p : Nat) : Nat := s.rd R.CH_QUIET_LEAD p * 1000

/-- The home position of a node at count `pos` from an end. -/
def State.homeOf (s : State) (p : Nat) (far : Bool) (pos : Nat) : Nat := if far then s.chainN p + 1 - pos else pos

/-- Transmit a frame from an end. -/
def State.chainSend (s : State) (p : Nat) (far : Bool) (code hop : Nat) (payload : Bytes) : State :=
  if s.chainTx then s.emit (.chain p far) .frame [code, hop, 0]
    (payload ++ leBytes 2 (crc16 (leBytes 1 code ++ leBytes 1 hop ++ leBytes 2 0 ++ payload))) else s

/-- Transmit a broadcast. -/
def State.chainBcast (s : State) (p : Nat) (far : Bool) (code : Nat) (payload : Bytes) : State :=
  (s.chainSend p far code 0xFF payload).updChain p (fun c => { c with lastBcast := s.tb.frc })

/-- The events of CHAIN_STAT since the previous publication (R288). -/
def State.chainEvent (s : State) (p bit : Nat) : State := s.updChain p (fun c => { c with events := c.events ||| 2 ^ bit })

/-- The end and HOP that reach a node (R268); `none` for an unreachable node. -/
def State.chainReach (s : State) (p h : Nat) : Option (Bool × Nat) :=
  let n := s.chainN p
  let j := s.rd R.CH_BREAK_A p
  let m := s.rd R.CH_BREAK_B p
  let way : Option (Bool × Nat) :=
    if h = 0 || n < h then none
    else if s.chainRing p then
      if (s.chain p).split then (if h ≤ j && j != 0xFFFF then some (false, h) else if n + 1 ≤ h + m then some (true, n + 1 - h) else none)
      else if h ≤ (n + 1) / 2 then some (false, h) else some (true, n + 1 - h)
    else if j != 0xFFFF && j < h then none
    else some (false, h)
  way.filter (fun w => decide (w.2 ≤ 254))

/-- Fields of the partner's copy: what the ACTIVE unit accepts is forwarded (R289). -/
def State.chainForward (s : State) (kind : Nat) (args : List Nat) (data : Bytes := []) : State :=
  if s.role == .active then s.emit .partner .chainItem (kind :: args) data else s

/-! ### Slots (R285 to R287) -/

/-- Buffer `b` of slot `k` (R285). -/
def slotAddr (k b : Nat) : Nat := 0x02800000 + 0x400 * k + 0x80 * b

/-- The slot of home position `h`. -/
def State.chainSlot (s : State) (p h : Nat) : Nat := s.rd R.CH_SLOT_BASE p + h - 1

/-- An invalid cell or temperature word. -/
def cellInvalid : Nat := 0x80000000

/-- The 128 bytes of a slot buffer (R286). -/
def slotBytes (sweep state pos frc : Nat) (cells : List Nat) (qflag nstat : Nat) (temps : List Nat) (arrive : Nat) : Bytes :=
  leBytes 4 sweep ++ leBytes 2 state ++ leBytes 2 pos ++ leBytes 8 frc ++
    (List.range 16).flatMap (fun i => leBytes 4 (cells.getD i cellInvalid)) ++ leBytes 2 qflag ++ leBytes 1 nstat ++ leBytes 1 0 ++
    (List.range 3).flatMap (fun i => leBytes 4 (temps.getD i cellInvalid)) ++ leBytes 8 arrive ++ List.replicate 24 0

/-- STATE bits of R287. -/
def csValid : Nat := 1
def csMissing : Nat := 2
def csNotSampled : Nat := 4
def csDir : Nat := 8
def csQflag : Nat := 16
def csRetried : Nat := 32
def csLateSample : Nat := 64
def csIngest : Nat := 128
def csChanged : Nat := 256
def csFault : Nat := 512

/-- A cell's word from its raw count (R286). -/
def cellWord (raw : Nat) : Nat := ofInt 32 (satInt 32 (roundDiv ((raw % 65536 : Nat) * 2 ^ 28) 10000))

/-- A temperature's word from its raw count, 0x8000 for a failed sensor (R266, R286). -/
def tempWord (raw : Nat) : Nat :=
  if raw % 65536 = 0x8000 then cellInvalid else ofInt 32 (roundDiv (toInt 16 raw * 2 ^ 23) 100)

/-- CELL_MASK of a node as discovery found it; every cell present before that. -/
def State.cellMask (s : State) (p h : Nat) : Nat := (((s.chain p).nodes.find? (fun n => n.h == h)).map (·.mask)).getD 0xFFFF

/-! ### Strobe ticks (R271) -/

/-- The index of the TOD boundary a tick at FRC `t` stands on. -/
def State.tickIndex (s : State) (t : Nat) : Nat :=
  let unit : Int := ((s.P * 10 * 2 ^ 32 : Nat) : Int)
  let tod : Int := s.todUnits + ((t : Int) - s.tb.frc) * s.incUnits
  ((2 * tod + unit) / (2 * unit)).toNat

/-- The lock group of which port `p`'s SAMPLE strobe is a member. -/
def State.strobeGroup (s : State) (p : Nat) : Option Nat := (List.range 32).find? (fun g => (s.lgMembers g).contains (6, p))

/-- The FRC of the tick `k` frames ahead; 0 is the latest. -/
def State.tickAt (s : State) (k : Nat) : Nat := if k = 0 then s.tb.lastTick else s.nextTick + (k - 1) * s.P

/-- The tick `k` frames ahead is a strobe tick of port `p`. -/
def State.strobeIn (s : State) (p k : Nat) : Bool :=
  let n := s.rd R.CH_SWEEP_PERIOD_F p
  decide (0 < n) && match s.rd R.CH_SWEEP_SRC p with
  | 1 => (s.tb.frameNo + k) % n == s.rd R.CH_SWEEP_PHASE p
  | 2 => match s.strobeGroup p with
    | some g => s.rd R.TB_LG_MODE g == 1 && s.lgSelects g (s.tb.frameNo + k)
    | none => false
  | 3 => s.rd R.TT_ALIGN_MODE == 1 && (s.tickIndex s.nextTick + k - 1) % n == 0 && decide (0 < k) ||
      (s.rd R.TT_ALIGN_MODE == 1 && k == 0 && s.tickIndex s.tb.lastTick % n == 0)
  | _ => false

/-- The FRC of the next strobe tick. -/
def State.nextStrobe (s : State) (p : Nat) : Option Nat :=
  ((List.range (s.rd R.CH_SWEEP_PERIOD_F p)).find? (fun k => s.strobeIn p (k + 1))).map (fun k => s.tickAt (k + 1))

/-! ### Apply (R272) -/

/-- The RWL rows of a port. -/
def chainRows : List RegRow :=
  [R.CH_CTRL_EN, R.CH_CTRL_RING, R.CH_CTRL_N, R.CH_SWEEP_SRC, R.CH_SWEEP_PERIOD_F, R.CH_SWEEP_PUB_F, R.CH_SWEEP_PHASE,
   R.CH_TIMING_DELAY, R.CH_TIMING_SETTLE, R.CH_QUIET_POST, R.CH_QUIET_LEAD, R.CH_SLOT_BASE]

/-- The slot ranges in use: enabled ports but `p`, and valid ingest sources (R285). -/
def State.slotRanges (s : State) (p : Nat) : List (Nat × Nat) :=
  ((List.range 8).filter (fun q => q != p && s.chainOn q)).map (fun q => (s.rd R.CH_SLOT_BASE q, s.chainN q)) ++
  (if s.bit R.CH_ING_CTRL_EN then
    ((List.range 15).filter (fun e => s.bit R.CH_ING_SRC_VALID e)).map (fun e => (s.rd R.CH_ING_SRC_FIRST_SLOT e, s.rd R.CH_ING_SRC_COUNT e))
   else [])

/-- Two slot ranges (first, count) share no slot. -/
def slotsApart (a b : Nat × Nat) : Bool := decide (a.1 + a.2 ≤ b.1) || decide (b.1 + b.2 ≤ a.1)

/-- The configuration that `get` gives for port `p` fails R272: the reason, 0 for none. -/
def State.chainReason (s : State) (p : Nat) (get : RegRow → Nat) : Nat :=
  let n := get R.CH_CTRL_N
  let ring := get R.CH_CTRL_RING == 1
  let period := get R.CH_SWEEP_PERIOD_F
  let pub := get R.CH_SWEEP_PUB_F
  let delay := get R.CH_TIMING_DELAY
  let lead := get R.CH_QUIET_LEAD * 1000
  let nRead := if ring then (n + 1) / 2 else n
  let P := s.P
  let src := get R.CH_SWEEP_SRC
  if get R.CH_CTRL_EN = 0 then 0
  else if (if ring then decide (n < 2) || decide (384 < n) else decide (n < 1) || decide (192 < n)) then 1
  else if (ring && (p % 2 == 1 || s.bit R.CH_CTRL_EN (p + 1))) || s.chainFar p then 2
  else if decide (period * P < 2500000) || (src == 2 && !(s.strobeGroup p).any (fun g => s.lgN g == period)) ||
      (src == 3 && s.rd R.TT_ALIGN_MODE == 0) then 3
  else if decide (period < pub) || decide (pub * P < delay + 22600 + 10010 * nRead + 5000) then 4
  else if decide (period * P + 5000 < pub * P + lead) || decide (lead < 10000) then 5
  else if decide (delay < 5000) || decide (delay < s.rd R.CH_AMAX p + 1000) then 6
  else if decide (8192 < get R.CH_SLOT_BASE + n) || !(s.slotRanges p).all (slotsApart (get R.CH_SLOT_BASE, n)) then 7
  else 0

/-- The reason the staged configuration is refused with (R272). -/
def State.chainStaged (s : State) (p : Nat) : Nat := s.chainReason p (fun r => s.sg r p)

/-- CH_STATUS reports a refusal. -/
def State.chainRefuse (s : State) (p r : Nat) : State :=
  ((s.wr R.CH_STATUS_REFUSED 1 p).wr R.CH_STATUS_REASON r p).wr R.CH_STATUS_APPLY_PENDING 0 p

/-- The address of a port's block. -/
def chainBase (p : Nat) : Nat := 0x40070000 + 0x1000 * p

/-- Submit a port's staged changes (R272) (DEDUCED, log entry 42). -/
def State.chainApply (s : State) (p : Nat) : State :=
  match s.chainStaged p with
  | 0 => (s.wr R.CH_STATUS_APPLY_PENDING 1 p).wr R.CH_STATUS_REASON 0 p
  | r => (s.chainRefuse p r).applyDone (chainBase p) (0x0800 + r)

/-- CH_APPLY: staged changes are submitted, or refused with a reason (R272). -/
def execChApply (p : Nat) (s : State) : Next := .next (if p < 8 then s.chainApply p else s)

/-- Discard a port's staged changes (DESIGN CHOICE, log entry 43). -/
def State.chainCancel (s : State) (p : Nat) : State :=
  ((s.unstage (chainBase p) (chainBase (p + 1))).wr R.CH_STATUS_APPLY_PENDING 0 p).applyDone (chainBase p) stCancelled

/-- CH_CANCEL (R293). -/
def execChCancel (p : Nat) (s : State) : Next := .next (if p < 8 then s.chainCancel p else s)

/-- The tick `t` lies outside [S − LEAD, close) of every sweep of the port. -/
def State.chainQuietTick (s : State) (p t : Nat) : Bool :=
  !(s.chain p).sweep.any (fun w => !w.closed && decide (t < w.close)) && !(t == s.tb.lastTick && s.strobeIn p 0) &&
  !(s.nextStrobe p).any (fun S => decide (S ≤ t + s.chainLead p))

/-- Order discovery of a port from FRC `t` on. -/
def State.chainOrder (s : State) (p t : Nat) : State := s.updChain p (fun c => { c with order := some t })

/-- A sweep is given up unpublished.  Its number is given again, so that the next sweep writes the buffer that is not the published
one (R35, R275) (DEDUCED, log entry 47). -/
def ChainPort.dropSweep (c : ChainPort) : ChainPort :=
  match c.sweep with
  | some w => { c with sweep := none, sweepNo := (w.q + 2 ^ 32 - 1) % 2 ^ 32 }
  | none => c

/-- CHAIN_APPLY_TAKES_EFFECT: at the first tick outside every sweep's lead and read-back the configuration is applied; a port it
enables is discovered (R270, R272). -/
def execChainApplyTakesEffect (p : Nat) (s : State) : Next := .next <|
  if 8 ≤ p || !s.bit R.CH_STATUS_APPLY_PENDING p then s
  else
    let s := s.toTick
    if !s.chainQuietTick p s.tb.frc then s
    else match s.chainStaged p with
    | 0 =>
      let s := chainRows.foldl (fun s r => s.adopt r p) s
      let s := (((s.wr R.CH_STATUS_APPLY_PENDING 0 p).wr R.CH_STATUS_DONE 1 p).wr R.CH_STATUS_REASON 0 p).applyDone (chainBase p) 0
      let far (s : State) (st : Nat) : State := if p % 2 = 0 then s.wr R.CH_STATUS_STATE st (p + 1) else s
      if s.bit R.CH_CTRL_EN p then
        let s := if s.chainRing p then far s csFarEnd else if p % 2 = 0 && s.chainState (p + 1) == csFarEnd then far s 0 else s
        ((s.wr R.CH_STATUS_STATE csDiscovering p).chainOrder p s.tb.frc).updChain p (fun c => { c with split := false, quiet := none })
      else
        let s := if p % 2 = 0 && s.chainState (p + 1) == csFarEnd then far s 0 else s
        (if s.chainFar p then s else s.wr R.CH_STATUS_STATE 0 p).updChain p (fun c => { c.dropSweep with order := none, quiet := none })
    | r => (s.chainRefuse p r).applyDone (chainBase p) (0x0800 + r)

/-! ### Discovery (R270) -/

/-- CH_DISCOVER: a write of 1 to CH_CTRL.DISCOVER orders discovery (R270). -/
def State.chainDiscover (s : State) (p : Nat) : State :=
  if s.chainOn p && s.chainState p != csSleeping then s.chainOrder p s.tb.frc else s
def execChDiscover (p : Nat) (s : State) : Next := .next (s.chainDiscover p)

/-- CHAIN_DISCOVERY_START: the ordered discovery begins outside a read-back, with DISCOVER from one end or both (R270). -/
def execChainDiscoveryStart (p : Nat) (s : State) : Next := .next <|
  match (s.chain p).order with
  | none => s
  | some t =>
    if !s.chainOn p || (s.chain p).sweep.any (fun w => !w.closed) then s
    else s.upTo t (fun s =>
      let n := s.chainN p
      let s := (s.wr R.CH_STATUS_STATE csDiscovering p).updChain p (fun c => { c with order := none })
      let s := (List.range 384).foldl (fun s k => s.wr R.CH_NODE_PRESENT 0 p k) s
      let range (a : Nat) : Bytes := leBytes 2 1 ++ leBytes 2 a
      if s.chainRing p then (s.chainBcast p false 0x05 (range ((n + 1) / 2))).chainBcast p true 0x05 (range (n / 2))
      else s.chainBcast p false 0x05 (range n))

/-- ECHO to a node from each end of the chain within 254 hops (R270); it goes once the train has passed. -/
def State.chainEchoes (s : State) (p h : Nat) : State :=
  let ask (s : State) (far : Bool) (hop : Nat) : State := if hop ≤ 254 then s.chainSend p far 0x06 hop [] else s
  let s := ask s false h
  if s.chainRing p then ask s true (s.chainN p + 1 - h) else s

/-- An IDENT of discovery: the node is present, its record is compared and renewed, and it is asked for its delay (R270). -/
def State.chainIdent (s : State) (p h : Nat) (payload : Bytes) : State :=
  let serial := leNat (payload.take 8)
  let mask := leNat ((payload.drop 13).take 2)
  let crc := leNat ((payload.drop 15).take 2)
  let old := (((s.chain p).nodes.find? (fun n => n.h == h)).map (·.serial)).getD 0
  let s := s.wr R.CH_NODE_PRESENT 1 p (h - 1)
  let s := if old = serial then s else ((s.wr R.CH_NODE_CHANGED 1 p (h - 1)).wr R.CH_STATUS_CHANGED 1 p).chainEvent p 0
  (s.updChain p (fun c => { c with nodes := { h, serial, mask, crc } :: c.nodes.filter (fun n => n.h != h) })).chainEchoes p h

/-- An ECHO_R of discovery or of a re-measurement: A = 2,400 + ⌈(RT − 200) ÷ 2⌉ goes into the record and to the node (R270) (DESIGN CHOICE, log entry 14). -/
def State.chainEcho (s : State) (p : Nat) (r : ChainResp) : State :=
  let h := s.homeOf p r.far r.pos
  let a := 2400 + (r.rt - 200 + 1) / 2
  (s.wr (if r.far then R.CH_NODE_A_FAR else R.CH_NODE_A_HOME) a p (h - 1)).chainSend p r.far 0x07 r.pos
    (leBytes 1 (if r.far then 1 else 0) ++ leBytes 1 0 ++ leBytes 2 a)

/-- Queue a command; `none` when the 32 places are taken. -/
def State.chainQueue (s : State) (p : Nat) (c : ChainCmd) : State × Bool :=
  if 32 ≤ (s.chain p).queue.length then (s.wr R.CH_STATUS_Q_FULL 1 p, false)
  else (s.updChain p (fun x => { x with queue := x.queue ++ [c] }), true)

/-- Nodes whose identity has changed are measured again in the next gap (R270, R277). -/
def State.chainRemeasure (s : State) (p : Nat) : State :=
  ((List.range (s.chainN p)).filter (fun k => s.bit R.CH_NODE_CHANGED p k && s.bit R.CH_NODE_PRESENT p k)).foldl (fun s k =>
    (s.chainQueue p { session := 0, tag := 0, op := 0, code := 0x06, h := k + 1, payload := [] }).1) s

/-- DISCOVERY_COMPLETE: counts, A_MAX and reachability stand, CONFIG goes to nodes that differ, and sweeps may resume (R270). -/
def execDiscoveryComplete (p : Nat) (s : State) : Next := .next <|
  if 8 ≤ p || s.chainState p != csDiscovering || (s.chain p).order.isSome then s
  else
    let n := s.chainN p
    let here := (List.range 384).filter (fun k => s.bit R.CH_NODE_PRESENT p k)
    let amax := here.foldl (fun a k => max a (max (s.rd R.CH_NODE_A_HOME p k) (s.rd R.CH_NODE_A_FAR p k))) 0
    let s := s.wr R.CH_AMAX amax p
    let s := if here.length = n then s else (s.wr R.CH_STATUS_COUNT_MISMATCH 1 p).chainEvent p 1
    let s := if s.rd R.CH_TIMING_DELAY p < amax + 1000 then (s.wr R.CH_STATUS_DELAY_SHORT 1 p).chainEvent p 4 else s
    let s := (List.range n).foldl (fun s k => s.wr R.CH_NODE_UNREACHABLE (if (s.chainReach p (k + 1)).isNone then 1 else 0) p k) s
    let s := (s.chain p).configs.foldl (fun s c =>
      match (s.chain p).nodes.find? (fun x => x.h == c.1), s.chainReach p c.1 with
      | some x, some (far, hop) => if x.crc = Config.nodeCfgCrc c.2 then s else s.chainSend p far 0x08 hop
          (c.2.take 7 ++ leBytes 1 (if !s.chainRing p && c.1 == n then 1 else 0))
      | _, _ => s) s
    (s.wr R.CH_STATUS_STATE (if here.isEmpty then csNoResponse else if (s.chain p).split then csSplit else csRunning) p).chainRemeasure p

/-- Wake a chain: the tone, its wait, then discovery (R281). -/
def State.chainWake (s : State) (p : Nat) : State :=
  if !s.chainOn p then s
  else
    let s := if s.chainTx then s.emit (.chain p false) .tone [200000] else s
    ((s.wr R.CH_STATUS_STATE csWaking p).updChain p (fun c => { c with sleepy := false })).chainOrder p (s.tb.frc + 700000 + 10000 * s.chainN p)

/-- CH_WAKE (R281). -/
def execChWake (p : Nat) (s : State) : Next := .next (s.chainWake p)

/-! ### The command queue (R277) -/

/-- Answer the host a command came from. -/
def State.chainReply (s : State) (c : ChainCmd) (status : Nat) (params : List Nat := []) (data : Bytes := []) : State :=
  if c.session = 0 then s else s.answer { session := c.session, op := c.op, tag := c.tag, status, params, data }

/-- CH_FAULT_CLR: a FAULT_CLR broadcast waits for the next gap (R293). -/
def execChFaultClr (p : Nat) (s : State) : Next := .next <|
  if s.chainOn p then (s.chainQueue p { session := 0, tag := 0, op := 0, code := 0x0B, h := 0, payload := [] }).1 else s

/-- Send a queued command: a broadcast from each end that reaches nodes, or a unicast; an unreachable node is refused. -/
def State.chainSendCmd (s : State) (p : Nat) (c : ChainCmd) : State :=
  if c.h = 0 then
    let s := s.chainBcast p false c.code c.payload
    (if (s.chain p).split then s.chainBcast p true c.code c.payload else s).chainReply c 0
  else match s.chainReach p c.h with
    | some (far, hop) =>
      let s := s.chainSend p far c.code hop c.payload
      let s := if c.code = 0x08 then s.updChain p (fun x => { x with configs := (c.h, c.payload) :: x.configs.filter (fun y => y.1 != c.h) }) else s
      s.updChain p (fun x => { x with sentCmd := some c, sentAt := s.tb.frc })
    | none => s.chainReply c 0x0810

/-- The longest a command and its response are on the chain, from issue: a broadcast with 10,000 tb of transit (R264, R274, R469). -/
def State.chainBound (s : State) (p : Nat) (c : ChainCmd) : Nat :=
  if c.h = 0 then (64 + 8 * c.payload.length) * 25 + 10000
  else 2600 + 110 * (((s.chainReach p c.h).map (·.2)).getD 1 - 1) + 10010

/-- A planned sleep ordered: once every queued BAL_SET has gone and been answered, SLEEP leaves each end that reaches nodes and traffic
stops (R281). -/
def State.chainSleepNow (s : State) (p : Nat) : State :=
  if !(s.chain p).sleepy || (s.chain p).sentCmd.isSome || (s.chain p).queue.any (fun c => c.code == 0x09) then s
  else
    let s := s.chainBcast p false 0x0C []
    let s := if (s.chain p).split then s.chainBcast p true 0x0C [] else s
    (s.wr R.CH_STATUS_STATE csSleeping p).updChain p (fun c => { c.dropSweep with sleepy := false, order := none, quiet := none })

/-- A unicast that no response has answered within its worst case is given up: its host is answered INTERNAL (R385) (DEDUCED, log entry 47). -/
def State.chainExpire (s : State) (p : Nat) : State :=
  match (s.chain p).sentCmd with
  | some c =>
    if s.tb.frc < (s.chain p).sentAt + s.chainBound p c then s
    else (((s.updChain p (fun x => { x with sentCmd := none })).journal 0x08 .internal [p, c.h]).chainReply c 0x000D).chainSleepNow p
  | none => s

/-- The port stands in a gap in which command `c` may go, and it will be off the chain 1,000 tb before the strobe (R277). -/
def State.chainGap (s : State) (p : Nat) (c : ChainCmd) : Bool :=
  !(s.chain p).sweep.any (fun w => !w.closed) && match s.nextStrobe p with
  | none => true
  | some S =>
    let lead := s.chainLead p
    (decide (s.tb.frc + lead + 1000 < S) || decide (S + 2400 ≤ s.tb.frc + lead)) && decide (s.tb.frc + s.chainBound p c + 1000 ≤ S)

/-- CHAIN_QUEUE_SEND: the oldest queued command, before a planned sleep the oldest BAL_SET, goes in a gap, one unicast at a time (R277, R281). -/
def execChainQueueSend (p : Nat) (s : State) : Next := .next <|
  let s := s.chainExpire p
  let c := s.chain p
  match if c.sleepy then c.queue.find? (fun q => q.code == 0x09) else c.queue.head? with
  | none => s
  | some q =>
    if s.chainOn p && ([csRunning, csSplit, csNoResponse].contains (s.chainState p)) && c.sentCmd.isNone && s.chainGap p q then
      ((s.updChain p (fun x => { x with queue := x.queue.erase q })).chainSendCmd p q).chainSleepNow p
    else s

/-- IMG_STAT of a node of port `p` (R468): its (position, FIRST_MISSING, STATE, VER_RUN) replaces an earlier one. -/
def State.nodeAnswer (s : State) (p h code : Nat) (r : ChainResp) : State :=
  if code = 0x12 && r.code = 0x86 then
    let f (o n : Nat) : Nat := leNat ((r.payload.drop o).take n)
    { s with fw := { s.fw with tx := updAt s.fw.tx p (fun (x : NodeTx) =>
        { x with stats := (h, f 10 2, f 12 1, f 0 4) :: x.stats.filter (fun y => y.1 != h) }) } }
  else s

/-- CHAIN_RESPONSE_RX: a response other than DATA is received: IDENT and ECHO_R of a discovery, ACK, STAT, ECHO_R or NAK of a
queued command (R266, R270). -/
def execChainResponseRx (p : Nat) (r : ChainResp) (s : State) : Next := .next <|
  let h := s.homeOf p r.far r.pos
  if 8 ≤ p || h = 0 || 384 < h then s
  else if s.chainState p = csDiscovering && r.code = 0x82 then s.chainIdent p h r.payload
  else if s.chainState p = csDiscovering && r.code = 0x83 then s.chainEcho p r
  else match (s.chain p).sentCmd with
    | none => s
    | some c =>
      if c.h != h then s
      else
        let s := (s.updChain p (fun x => { x with sentCmd := none })).nodeAnswer p h c.code r
        let s := if c.session = 0 && c.code = 0x06 && r.code = 0x83 then s.chainEcho p r else s
        (if r.code = 0x8F then s.chainReply c 0x0811 [((r.payload.getD 1 0).toNat)] else s.chainReply c 0 [] r.payload).chainSleepNow p

/-- A planned sleep is ordered: every queued BAL_SET goes first (R281). -/
def State.chainSleep (s : State) (p : Nat) : State :=
  if !s.chainOn p then s else (s.updChain p (fun c => { c with sleepy := true })).chainSleepNow p

/-- CH_SLEEP (R281). -/
def execChSleep (p : Nat) (s : State) : Next := .next (s.chainSleep p)

/-! ### Sweeps (R271 to R276) -/

/-- QUIET_SEND: at S − LEAD the QUIET leaves the home end; in a split ring whose home QUIET has not reached the far end within
DELAY, the far end (R273, R276, R279). -/
def execQuietSend (p : Nat) (far : Bool) (s : State) : Next := .next <|
  if !s.chainOn p || !(s.chainState p == csRunning || s.chainState p == csSplit) then s
  else
    let lead := s.chainLead p
    let timeout := (lead + s.rd R.CH_TIMING_DELAY p + s.rd R.CH_QUIET_POST p + 10000 + 999) / 1000
    let payload := leBytes 2 (s.rd R.CH_QUIET_POST p) ++ leBytes 2 timeout
    match s.nextStrobe p with
    | none => s
    | some S =>
      let c := s.chain p
      if far then
        if c.split && c.quiet == some S && !c.whole then
          s.upTo (S - lead + s.rd R.CH_TIMING_DELAY p) (fun s => s.chainBcast p true 0x02 payload)
        else s
      else if c.quiet == some S then s
      else s.upTo (S - lead) (fun s => (s.chainBcast p false 0x02 payload).updChain p (fun c => { c with quiet := some S, whole := false }))

/-- A strobe of port `p` at the tick now: a sweep begins, or the strobe is skipped (R270, R271, R273); the strobe at which the port's
master restarts with new firmware is skipped (R462; part 16 + p of `Firmware.restarting`). -/
def State.strobe (s : State) (p : Nat) : State :=
  let st := s.chainState p
  if !s.chainOn p || st == csSleeping || st == 0 then s
  else if s.fw.restarting.contains (16 + p) then
    ({ s with fw := { s.fw with restarting := s.fw.restarting.filter (fun x => x != 16 + p) } }.inc R.CH_SKIPPED p).chainEvent p 5
  else if !(st == csRunning || st == csSplit) || (s.chain p).sweep.isSome then (s.inc R.CH_SKIPPED p).chainEvent p 5
  else
    let c := s.chain p
    let q := (c.sweepNo + 1) % 2 ^ 32
    let pubF := s.rd R.CH_SWEEP_PUB_F p
    let both := c.split && !c.whole
    let payload := leBytes 2 (s.rd R.CH_TIMING_DELAY p) ++ leBytes 1 (s.rd R.CH_TIMING_SETTLE p) ++ leBytes 1 q
    let s := s.chainBcast p false 0x01 payload
    let s := if both then s.chainBcast p true 0x01 payload else s
    s.updChain p (fun c => { c with
      sweepNo := q, quiet := none
      sweep := some { q, frc := s.tb.frc, pub := s.tb.frameNo + pubF, close := s.tb.frc + pubF * s.P - 5000, split := both,
                      readout := false, got := [], retried := [], lastHome := 0, lastFar := 0, brokeHome := false,
                      brokeFar := false, sampleFar := false, closed := false, sec := s.tb.sec, ns := s.tb.ns } })

/-- SAMPLE_STROBE: at a strobe tick of SRC 1 or 3 the sweep begins (R271); SRC 2 strobes at its lock group's firing. -/
def execSampleStrobe (p : Nat) (s : State) : Next := .next <|
  if p < 8 && s.tb.frc == s.tb.lastTick && s.rd R.CH_SWEEP_SRC p != 2 && s.strobeIn p 0 &&
      !(s.chain p).sweep.any (fun w => w.frc == s.tb.frc) then s.strobe p
  else s

/-- READOUT_SEND: at S + DELAY + 20,000 tb READOUT leaves the ends that read (R270, R273). -/
def execReadoutSend (p : Nat) (s : State) : Next := .next <|
  match (s.chain p).sweep with
  | none => s
  | some w =>
    if w.readout || w.closed then s
    else s.upTo (w.frc + s.rd R.CH_TIMING_DELAY p + 20000) (fun s =>
      let n := s.chainN p
      let range (a : Nat) : Bytes := leBytes 2 1 ++ leBytes 2 a
      let send (s : State) (far : Bool) (a : Nat) : State := if a = 0 then s else s.chainBcast p far 0x03 (range a)
      let s := s.updSweep p (fun w => { w with readout := true })
      if w.split then send (send s false (s.rd R.CH_BREAK_A p)) true (s.rd R.CH_BREAK_B p)
      else if s.chainRing p then send (send s false ((n + 1) / 2)) true (n / 2)
      else send s false n)

/-- STATE of a DATA frame's record (R287). -/
def State.dataState (s : State) (p : Nat) (w : Sweep) (h : Nat) (d : ChainData) : Nat :=
  let a := if w.split && d.far then s.rd R.CH_NODE_A_FAR p (h - 1) else s.rd R.CH_NODE_A_HOME p (h - 1)
  (if d.seq % 256 = w.q % 256 then csValid else csNotSampled) ||| bitIf d.far csDir ||| bitIf (d.qflag % 65536 != 0) csQflag |||
    bitIf (w.retried.contains h) csRetried ||| bitIf (a == 0 || decide (s.rd R.CH_TIMING_DELAY p < a)) csLateSample |||
    bitIf (s.bit R.CH_NODE_CHANGED p (h - 1)) csChanged ||| bitIf (d.nstat % 8 != 0) csFault

/-- The record of a DATA frame (R276, R286, R287) (DEDUCED, log entry 47). -/
def State.dataRecord (s : State) (p : Nat) (w : Sweep) (h : Nat) (d : ChainData) : Bytes :=
  let st := s.dataState p w h d
  let ok := bitOf st 0
  let mask := s.cellMask p h
  let cells := (List.range 16).map (fun i =>
    if ok && !bitOf d.qflag i && bitOf mask i then cellWord (d.cells.getD i 0) else cellInvalid)
  let temps := (List.range 3).map (fun i => if ok then tempWord (d.temps.getD i 0x8000) else cellInvalid)
  slotBytes w.q st d.pos (w.frc + s.rd R.CH_TIMING_DELAY p) cells d.qflag d.nstat temps s.tb.frc

/-- Write a node's record into the unpublished buffer (R275). -/
def State.putNode (s : State) (p h q : Nat) (data : Bytes) : State := s.setBytes (slotAddr (s.chainSlot p h) (q % 2)) data

/-- DATA_FRAME_RX: a DATA frame ends at the port; inside the read-back its record is written (R274 to R276) (DEDUCED, log entry 47). -/
def execDataFrameRx (p : Nat) (d : ChainData) (s : State) : Next := .next <|
  if 8 ≤ p then s
  else if !d.crcOk then s.inc R.CH_CRC p
  else
    let h := s.homeOf p d.far d.pos
    match (s.chain p).sweep with
    | some w =>
      if w.closed || decide (w.close ≤ s.tb.frc) || h = 0 || decide (s.chainN p < h) then s
      else
        let data := s.dataRecord p w h d
        let st := s.dataState p w h d
        let s := (s.putNode p h w.q data).wr R.CH_NODE_NSTAT d.nstat p (h - 1)
        let s := s.updSweep p (fun w => { w with
          got := (h, st) :: w.got.filter (fun g => g.1 != h)
          lastHome := if d.far then w.lastHome else max w.lastHome h
          lastFar := if d.far then max w.lastFar d.pos else w.lastFar })
        s.chainForward 0 [p, h] data
    | none =>
      match (s.chain p).sentCmd with
      | some c => if c.h == h && c.code == 0x04 then
            (s.updChain p (fun x => { x with sentCmd := none })).chainReply c 0 []
              (leBytes 1 d.seq ++ leBytes 1 d.nstat ++ leBytes 2 d.qflag ++ (List.range 16).flatMap (fun i => leBytes 2 (d.cells.getD i 0)) ++
                (List.range 3).flatMap (fun i => leBytes 2 (d.temps.getD i 0)))
          else s
      | none => s

/-- CHAIN_RETRY_SEND: a READ or range READOUT of positions counted from an end, if its worst case ends before close; one that falls due while
a KEEP is on the line waits for its end (R274, R282). -/
def execChainRetrySend (p : Nat) (far : Bool) (first last : Nat) (s : State) : Next := .next <|
  match (s.chain p).sweep with
  | none => s
  | some w =>
    let n := s.chainN p
    let bound := 2600 + 110 * (first - 1) + 10010 * (last + 1 - first)
    let at_ := max s.tb.frc (s.chain p).keepEnd
    if !w.readout || w.closed || first = 0 || decide (last < first) || decide (n < last) || decide (w.close ≤ at_ + bound) then s
    else s.upTo at_ fun s =>
      let homes := (List.range (last + 1 - first)).map (fun k => s.homeOf p far (first + k))
      let s := (s.inc R.CH_RETRIES p).updSweep p (fun w => { w with retried := homes ++ w.retried })
      if first = last && decide (first ≤ 254) then s.chainSend p far 0x04 first []
      else s.chainBcast p far 0x03 (leBytes 2 first ++ leBytes 2 last)

/-- CHAIN_BREAK: no response started at an end while positions remain (R279) (DEDUCED, log entry 47). -/
def execChainBreak (p : Nat) (far : Bool) (s : State) : Next := .next <|
  match (s.chain p).sweep with
  | none => s
  | some w =>
    if !w.readout || w.closed || (w.got.length == s.chainN p) then s
    else
      let s := s.updSweep p (fun w => if far then { w with brokeFar := true } else { w with brokeHome := true })
      let s := (s.wr (if far then R.CH_BREAK_B else R.CH_BREAK_A) (if far then w.lastFar else w.lastHome) p).wr R.CH_STATUS_BREAK 1 p
      s.chainForward 1 [p, s.rd R.CH_BREAK_A p, s.rd R.CH_BREAK_B p]

/-- The read-back closes: positions not received are MISSING; a ring with a break, or whose SAMPLE did not reach its far end, is
split from the next sweep on; an open chain read to its end has no break (R274, R279). -/
def State.closeSweep (s : State) (p : Nat) (w : Sweep) : State :=
  let n := s.chainN p
  let homes := (List.range n).map (· + 1)
  let missing := homes.filter (fun h => !w.got.any (fun g => g.1 == h))
  let frc := w.frc + s.rd R.CH_TIMING_DELAY p
  let s := missing.foldl (fun s h => s.putNode p h w.q (slotBytes w.q csMissing 0 frc [] 0 0 [] 0)) s
  let notOk := missing.length + (w.got.filter (fun g => bitOf g.2 2)).length
  let s := s.wr R.CH_MISSING (min (2 ^ 32 - 1) (s.rd R.CH_MISSING p + notOk)) p
  let s := s.updSweep p (fun x => { x with closed := true, got := x.got ++ missing.map (fun h => (h, csMissing)) })
  let s :=
    if s.chainRing p then
      if w.brokeHome || w.brokeFar || (!w.split && !w.sampleFar) then
        let s := (s.wr R.CH_BREAK_A w.lastHome p).wr R.CH_BREAK_B w.lastFar p
        (s.wr R.CH_STATUS_BREAK 1 p).updChain p (fun c => { c with split := true })
      else s
    else if w.got.any (fun g => g.1 == n) then (s.wr R.CH_BREAK_A 0xFFFF p).wr R.CH_STATUS_BREAK 0 p
    else s
  s.chainForward 2 [p, w.q]

/-- SWEEP_CLOSE: the read-back window closes (R274); a following unit closes by its partner's close record (R289). -/
def execSweepClose (p : Nat) (s : State) : Next := .next <|
  match (s.chain p).sweep with
  | none => s
  | some w => if w.closed || s.chainFollows then s else s.upTo w.close (fun s => s.closeSweep p w)

/-! ### Publication (R275, R288) -/

/-- MODE of CHAIN_STAT. -/
def State.chainMode (s : State) (p : Nat) : Nat :=
  match s.chainState p with
  | 3 => if s.chainRing p then 2 else 1
  | 4 => 3
  | 6 => 4
  | 5 => 5
  | 1 => 6
  | 2 => 6
  | 7 => 7
  | _ => 0

/-- The 64 bytes of CHAIN_STAT (R288). -/
def State.chainStat (s : State) (p : Nat) : Bytes :=
  let c := s.chain p
  let q := s.rd R.CH_SWEEP_NO p
  leBytes 4 q ++ leBytes 1 (q % 2) ++ leBytes 1 (s.chainMode p) ++ leBytes 2 (s.chainN p) ++ leBytes 8 c.pub.frc ++
    leBytes 4 c.pub.frame ++ leBytes 2 c.pub.valid ++ leBytes 2 c.pub.missing ++ leBytes 2 c.pub.qflag ++
    leBytes 2 (s.rd R.CH_BREAK_A p) ++ leBytes 2 (s.rd R.CH_BREAK_B p) ++ leBytes 1 (s.rd R.CH_LINE_STATE p) ++ leBytes 1 c.events ++
    leBytes 2 (s.rd R.CH_SLOT_BASE p) ++ List.replicate 14 0 ++ leBytes 4 (s.rd R.CH_ING_SWEEP) ++ leBytes 1 (s.rd R.CH_ING_SWEEP % 2) ++
    leBytes 1 0 ++ leBytes 2 s.ingest.valid ++ leBytes 2 s.ingest.missing ++ leBytes 2 s.ingest.srcOk ++ List.replicate 4 0

/-- The tick freezes every port's CHAIN_STAT (R28). -/
def State.freezeChains (s : State) : State :=
  { s with lat := { s.lat with inChain := (List.range 8).map s.chainStat } }

/-- SWEEP_PUBLISH: at the publish tick the sweep's buffer becomes the published one (R275); a following unit whose copy is
incomplete marks the rest MISSING (R289). -/
def execSweepPublish (p : Nat) (s : State) : Next := .next <|
  match (s.chain p).sweep with
  | none => s
  | some w =>
    if s.tb.frc != s.tb.lastTick || decide (s.tb.frameNo < w.pub) then s
    else
      let s := if w.closed then s
        else
          let s := s.closeSweep p w
          if s.chainFollows then (s.wr R.CH_STATUS_FWD_INCOMPLETE 1 p).chainEvent p 2 else s
      let got := ((s.chain p).sweep.map (·.got)).getD []
      let count (k : Nat) : Nat := (got.filter (fun g => bitOf g.2 k)).length
      let pub : Published :=
        { frc := w.frc + s.rd R.CH_TIMING_DELAY p, frame := s.tb.frameNo % 2 ^ 32, valid := count 0, missing := count 1,
          qflag := count 4, sec := w.sec, ns := w.ns }
      let s := (s.wr R.CH_SWEEP_NO w.q p).inc R.CH_SWEEPS p
      let s := s.wr R.CH_QFLAGS (min 65535 (s.rd R.CH_QFLAGS p + count 4)) p
      let s := got.foldl (fun s g => s.wr R.CH_NODE_MISSING_LAST (if bitOf g.2 1 then 1 else 0) p (g.1 - 1)) s
      let s := s.wr R.CH_STATUS_STATE (if (s.chain p).split then csSplit else csRunning) p
      let s := (s.updChain p (fun c => { c with sweep := none, pub })).freezeChains
      s.updChain p (fun c => { c with events := 0 })

/-- KEEP: after 500 ms without a broadcast; within a read-back only while nothing of it is pending and at least 10,000 tb before
close (R277, R282). -/
def execKeep (p : Nat) (s : State) : Next := .next <|
  let c := s.chain p
  let free := match c.sweep with
    | none => true
    | some w => w.closed || (w.readout && (w.got.length == s.chainN p || w.brokeHome || w.brokeFar) && decide (s.tb.frc + 11600 ≤ w.close))
  let clear := (s.nextStrobe p).all (fun S => decide (s.tb.frc + 12600 ≤ S))
  if s.chainOn p && s.chainState p != csSleeping && decide (c.lastBcast + 50000000 ≤ s.tb.frc) && free && clear then
    let s := s.chainBcast p false 0x0D []
    (if c.split then s.chainBcast p true 0x0D [] else s).updChain p (fun c => { c with keepEnd := s.tb.frc + 1600 })
  else s

/-- FAR_END_COMMAND_RX: a QUIET or SAMPLE of the home end reaches the far-end port with POS; POS = N shows the ring whole
(R279). -/
def execFarEndCommandRx (p : Nat) (quiet : Bool) (pos : Nat) (s : State) : Next := .next <|
  if !s.chainOn p || !s.chainRing p || pos != s.chainN p then s
  else if quiet then
    let s := s.updChain p (fun c => { c with whole := true, split := false })
    let s := ((s.wr R.CH_BREAK_A 0xFFFF p).wr R.CH_BREAK_B 0xFFFF p).wr R.CH_STATUS_BREAK 0 p
    if s.chainState p = csSplit then s.wr R.CH_STATUS_STATE csRunning p else s
  else s.updSweep p (fun w => { w with sampleFar := true })

/-- A switch to a timetable of another period: closes move with P, and a port whose configuration fails stops sweeping
(R278). -/
def State.chainPeriod (s : State) : State :=
  (List.range 8).foldl (fun s p =>
    let s := s.updSweep p (fun w => if w.closed then w else { w with close := s.tb.lastTick + (w.pub - s.tb.frameNo) * s.P - 5000 })
    if s.chainOn p && s.rd R.CH_SWEEP_SRC p != 0 && s.chainReason p (fun r => s.rd r p) != 0 then
      ((s.wr R.CH_SWEEP_SRC 0 p).wr R.CH_STATUS_SWEEP_STOPPED 1 p).chainEvent p 3
    else s) s

/-! ### Fault line (R283, R284) -/

/-- FAULT_LINE_CHANGE: the loop current of a port becomes `current` × 0.1 mA (R283); an OPEN line trips where the port's option
is set (DEDUCED, log entry 75). -/
def execFaultLineChange (p current : Nat) (s : State) : Next := .next <|
  if 8 ≤ p then s
  else
    let st := if current < 10 then 2 else if current ≤ 50 then 0 else if current ≤ 80 then s.rd R.CH_LINE_STATE p else 1
    let s := (s.wr R.CH_LINE_CURRENT (min 255 current) p).wr R.CH_LINE_STATE st p
    let s := if st = 1 then s.wr R.CH_LINE_FAULT_SEEN 1 p else if st = 2 then s.wr R.CH_LINE_OPEN_SEEN 1 p else s
    (s.updChain p (fun c => { c with
      faultSince := if st = 1 then some (c.faultSince.getD s.tb.frc) else none
      faultHeld := st == 1 && c.faultHeld })).evalTrips

/-- CHAIN_FAULT_TRIP: a FAULT has lasted 100 µs and trips the outputs of the port's mask (R284) (DEDUCED, log entry 75). -/
def execChainFaultTrip (p : Nat) (s : State) : Next := .next <|
  match (s.chain p).faultSince with
  | none => s
  | some t => s.upTo (t + 10000) (fun s => (s.updChain p (fun c => { c with faultHeld := true })).evalTrips)

/-! ### Pairs (R289) -/

/-- FORWARDED_CHAIN_ITEM_RX: a following unit writes a forwarded item, byte for byte (R289). -/
def execForwardedChainItemRx (item : ChainItem) (s : State) : Next := .next <|
  if !s.chainFollows then s
  else match item with
    | .node p h data =>
      match (s.chain p).sweep with
      | none => s
      | some w =>
        if w.closed || h = 0 || decide (s.chainN p < h) then s
        else (s.putNode p h w.q (data.take 128)).updSweep p (fun w => { w with
          got := (h, leNat ((data.drop 4).take 2)) :: w.got.filter (fun g => g.1 != h) })
    | .brk p a b => if p < 8 then ((s.wr R.CH_BREAK_A a p).wr R.CH_BREAK_B b p).wr R.CH_STATUS_BREAK 1 p else s
    | .close p q =>
      match (s.chain p).sweep with
      | none => s
      | some w => if w.q = q && !w.closed then s.closeSweep p w else s
    | .ingest slot data =>
      if slot < 8192 && s.ingest.strobe.isSome then
        { s.setBytes (slotAddr slot (s.ingest.q % 2)) (data.take 128) with ingest := { s.ingest with got := slot :: s.ingest.got } }
      else s

/-- A unit that becomes ACTIVE takes over the chains from its boundary: a read-back continues from the first position not yet
held, a QUIET that is due goes at once (R289). -/
def State.chainTakeover (s : State) : State :=
  (List.range 8).foldl (fun s p =>
    if !s.chainOn p then s
    else
      let n := s.chainN p
      let s := match (s.chain p).sweep with
        | some w =>
          let first := (List.range n).find? (fun k => !w.got.any (fun g => g.1 == k + 1))
          match first with
          | some k => if w.closed || !w.readout then s else s.chainBcast p false 0x03 (leBytes 2 (k + 1) ++ leBytes 2 n)
          | none => s
        | none => s
      match s.nextStrobe p with
      | some S => if S ≤ s.tb.frc + s.chainLead p then
            s.chainBcast p false 0x02 (leBytes 2 (s.rd R.CH_QUIET_POST p) ++
              leBytes 2 ((s.chainLead p + s.rd R.CH_TIMING_DELAY p + s.rd R.CH_QUIET_POST p + 10000 + 999) / 1000))
          else s
      | none => s) s

end Sys2Proof.Machine
end

