-- ==== Sys2Proof/Machine/Ingest.lean ====
section
/-! DEFINITION. Plant ingest (R290 to R293): the ingest sweep, the messages a plant master takes, those a source sends. -/

namespace Sys2Proof.Machine

open Sys2Proof

/-- The base of the ingest block. -/
def ingBase : Nat := 0x40078000

/-- The strobe tick of an ingest sweep, run as the tick falls and no sweep awaits its publication (R290) (DEDUCED, log entry 48). -/
def State.ingestStrobe (s : State) : State :=
  let n := s.rd R.CH_ING_CTRL_PERIOD_F
  if s.bit R.CH_ING_CTRL_EN && s.rd R.TT_ALIGN_MODE == 1 && decide (0 < n) && s.tickIndex s.tb.frc % n == 0 && s.ingest.strobe.isNone then
    { s with ingest := { s.ingest with
        q := (s.ingest.q + 1) % 2 ^ 32, got := []
        strobe := some (s.tb.frc, s.tb.sec, s.tb.ns, s.tb.frameNo + s.rd R.CH_ING_CTRL_PUB_F) } }
  else s

/-- The valid source entries and the slots they cover (R292). -/
def State.ingSources (s : State) : List Nat := (List.range 15).filter (fun e => s.bit R.CH_ING_SRC_VALID e)
def State.ingSlots (s : State) (e : Nat) : List Nat := (List.range (s.rd R.CH_ING_SRC_COUNT e)).map (fun k => s.rd R.CH_ING_SRC_FIRST_SLOT e + k)

/-- The slot record of an accepted entry: SWEEP, SAMPLE_FRC and ARRIVE are local, INGEST is set (R292). -/
def State.ingRecord (s : State) (strobe delay : Nat) (entry : Bytes) : Bytes :=
  let e := (entry ++ List.replicate 128 0).take 128
  leBytes 4 s.ingest.q ++ leBytes 2 (leNat ((e.drop 4).take 2) ||| csIngest) ++ (e.drop 6).take 2 ++ leBytes 8 (strobe + delay) ++
    (e.drop 16).take 80 ++ leBytes 8 s.tb.frc ++ e.drop 104

/-- An ingest message is written, or counted LATE, EARLY or BAD (R292) (DEDUCED, log entry 48). -/
def State.ingestMessage (s : State) (m : IngestMsg) : State :=
  if !s.bit R.CH_ING_CTRL_EN || s.chainFollows then s
  else match s.ingSources.find? (fun e => s.rd R.CH_ING_SRC_SOURCE e == m.source && s.rd R.CH_ING_SRC_SPORT e == m.sport) with
    | none => s.inc R.CH_ING_BAD
    | some e =>
      let tod := m.strobeSec * 1000000000 + m.strobeNs
      let cur := match s.ingest.strobe with
        | some (_, sec, ns, _) => sec * 1000000000 + ns
        | none => s.tb.sec * 1000000000 + s.tb.ns
      if cur < tod then s.inc R.CH_ING_EARLY
      else match s.ingest.strobe with
        | none => s.inc R.CH_ING_LATE
        | some (frc, _, _, pub) =>
          let close := s.tb.lastTick + (pub - s.tb.frameNo) * s.P - 5000
          let slots := (List.range m.entries.length).map (fun k => s.rd R.CH_ING_SRC_FIRST_SLOT e + m.first - 1 + k)
          if tod < cur || close ≤ s.tb.frc then s.inc R.CH_ING_LATE
          else if m.first = 0 || m.entries.isEmpty || decide (10 < m.entries.length) ||
              decide (s.rd R.CH_ING_SRC_COUNT e < m.first + m.entries.length - 1) || slots.any (s.ingest.got.contains ·) then
            s.inc R.CH_ING_BAD
          else
            (slots.zip m.entries).foldl (fun s x =>
              let data := s.ingRecord frc m.delay x.2
              let s := s.setBytes (slotAddr x.1 (s.ingest.q % 2)) data
              ({ s with ingest := { s.ingest with got := x.1 :: s.ingest.got } }).chainForward 3 [x.1] data) (s.inc R.CH_ING_ACCEPTED)

/-- INGEST_MESSAGE_RX (R292). -/
def execIngestMessageRx (m : IngestMsg) (s : State) : Next := .next (s.ingestMessage m)

/-- INGEST_PUBLISH: at the publish tick the slots not written are MISSING and the sweep's buffer is the published one; the tick
may be the next sweep's strobe (R275, R290, R292) (DEDUCED, log entry 48). -/
def execIngestPublish (s : State) : Next := .next <|
  match s.ingest.strobe with
  | none => s
  | some (frc, _, _, pub) =>
    if s.tb.frc != s.tb.lastTick || decide (s.tb.frameNo < pub) then s
    else
      let b := s.ingest.q % 2
      let got := s.ingest.got
      let missing := (s.ingSources.flatMap s.ingSlots).filter (fun k => !got.contains k)
      let s := missing.foldl (fun s k => s.setBytes (slotAddr k b) (slotBytes s.ingest.q (csMissing ||| csIngest) 0 frc [] 0 0 [] 0)) s
      let ok (k : Nat) : Bool := bitOf (leNat (s.bytes (slotAddr k b + 4) 2)) 0
      let srcOk := ofBits 15 (fun e => s.bit R.CH_ING_SRC_VALID e && (s.ingSlots e).all (got.contains ·))
      let s := s.wr R.CH_ING_SWEEP s.ingest.q
      let s := if s.chainFollows && !missing.isEmpty then s.wr R.CH_ING_STATUS_FWD_INCOMPLETE 1 else s
      ({ s with ingest := { s.ingest with strobe := none, got := [], valid := (got.filter ok).length, missing := missing.length, srcOk } }
        ).freezeChains.ingestStrobe

/-- The header of an ingest message of port `p` with `count` entries from home position `first` (R291). -/
def State.ingHeader (s : State) (p first count : Nat) : Bytes :=
  let c := s.chain p
  leBytes 2 0x0C10 ++ leBytes 2 (s.rd R.ES_PLANT) ++ leBytes 1 p ++ leBytes 1 count ++ leBytes 2 first ++ leBytes 4 (s.rd R.CH_SWEEP_NO p) ++
    leBytes 4 c.pub.ns ++ leBytes 8 c.pub.sec ++ leBytes 2 (s.rd R.CH_TIMING_DELAY p) ++ leBytes 2 (s.chainN p) ++
    leBytes 2 (s.rd R.CH_BREAK_A p) ++ leBytes 2 (s.rd R.CH_BREAK_B p)

/-- The ingest messages of port `p`'s published sweep, ten positions a message (R291). -/
def State.ingMessages (s : State) (p : Nat) : List Bytes :=
  let n := s.chainN p
  let b := s.rd R.CH_SWEEP_NO p % 2
  (List.range ((n + 9) / 10)).map (fun k =>
    let count := min 10 (n - 10 * k)
    s.ingHeader p (10 * k + 1) count ++
      (List.range count).flatMap (fun i => s.bytes (slotAddr (s.chainSlot p (10 * k + 1 + i)) b) 128))

/-- An ingest message from its bytes (R291). -/
def parseIngest (b : Bytes) : IngestMsg :=
  let f (off n : Nat) : Nat := leNat ((b.drop off).take n)
  { source := f 2 2, sport := f 4 1, first := f 6 2, sweep := f 8 4, strobeNs := f 12 4, strobeSec := f 16 8, delay := f 24 2, n := f 26 2,
    breakA := f 28 2, breakB := f 30 2,
    entries := (List.range (f 5 1)).map (fun k => (b.drop (32 + 128 * k)).take 128) }

/-! ### Apply -/

/-- The staged rows of the ingest block. -/
def ingRows : List (RegRow × Nat) :=
  [(R.CH_ING_CTRL_EN, 1), (R.CH_ING_CTRL_PERIOD_F, 1), (R.CH_ING_CTRL_PUB_F, 1), (R.CH_ING_SRC_SOURCE, 15), (R.CH_ING_SRC_SPORT, 15),
   (R.CH_ING_SRC_VALID, 15), (R.CH_ING_SRC_FIRST_SLOT, 15), (R.CH_ING_SRC_COUNT, 15), (R.CH_ING_OUT_DEST, 8), (R.CH_ING_OUT_EN, 8)]

/-- Every range of a list is apart from the later ones. -/
def rangesApart : List (Nat × Nat) → Bool
  | [] => true
  | x :: xs => xs.all (slotsApart x) && rangesApart xs

/-- The reason the staged ingest configuration is refused with, 0 for none (R285, R290, R293). -/
def State.ingReason (s : State) : Nat :=
  let src := ((List.range 15).filter (fun e => s.sg R.CH_ING_SRC_VALID e == 1)).map
    (fun e => (s.sg R.CH_ING_SRC_FIRST_SLOT e, s.sg R.CH_ING_SRC_COUNT e))
  let chains := ((List.range 8).filter s.chainOn).map (fun q => (s.rd R.CH_SLOT_BASE q, s.chainN q))
  let period := s.sg R.CH_ING_CTRL_PERIOD_F
  let pub := s.sg R.CH_ING_CTRL_PUB_F
  if s.sg R.CH_ING_CTRL_EN = 0 then 0
  else if period = 0 then 3
  else if pub = 0 || decide (period < pub) then 4
  else if !rangesApart (chains ++ src) || (chains ++ src).any (fun x => decide (8192 < x.1 + x.2)) then 7
  else if s.rd R.TT_ALIGN_MODE = 0 then 9
  else 0

/-- CH_ING_STATUS reports a refusal. -/
def State.ingRefuse (s : State) (r : Nat) : State :=
  ((s.wr R.CH_ING_STATUS_REFUSED 1).wr R.CH_ING_STATUS_REASON r).wr R.CH_ING_STATUS_APPLY_PENDING 0

/-- Submit the staged ingest changes (DEDUCED, log entry 42). -/
def State.ingApply (s : State) : State :=
  match s.ingReason with
  | 0 => (s.wr R.CH_ING_STATUS_APPLY_PENDING 1).wr R.CH_ING_STATUS_REASON 0
  | r => (s.ingRefuse r).applyDone ingBase (0x0800 + r)

/-- CH_ING_APPLY (R293). -/
def execChIngApply (s : State) : Next := .next s.ingApply

/-- Discard the staged ingest changes (DESIGN CHOICE, log entry 43). -/
def State.ingCancel (s : State) : State :=
  ((s.unstage ingBase (ingBase + 0x1000)).wr R.CH_ING_STATUS_APPLY_PENDING 0).applyDone ingBase stCancelled

/-- CH_ING_CANCEL (R293). -/
def execChIngCancel (s : State) : Next := .next s.ingCancel

/-- INGEST_APPLY_TAKES_EFFECT: between ingest sweeps the staged changes take effect (R293). -/
def execIngestApplyTakesEffect (s : State) : Next := .next <|
  if !s.bit R.CH_ING_STATUS_APPLY_PENDING || s.ingest.strobe.isSome then s
  else match s.ingReason with
    | 0 =>
      let s := ingRows.foldl (fun s r => (List.range r.2).foldl (fun s i => s.adopt r.1 i) s) s
      (((s.wr R.CH_ING_STATUS_APPLY_PENDING 0).wr R.CH_ING_STATUS_DONE 1).wr R.CH_ING_STATUS_REASON 0).applyDone ingBase 0
    | r => (s.ingRefuse r).applyDone ingBase (0x0800 + r)

end Sys2Proof.Machine
end

