-- ==== Sys2Proof/Machine/Can.lean ====
section
/-! DEFINITION. CAN FD ports (R294 to R319): receiving and routing, transmit buffers, errors and bus-off, the command service's
segments, configuration changes. -/

namespace Sys2Proof.Machine

open Sys2Proof

/-- A CAN FD port. -/
def State.canPort (s : State) (p : Nat) : CanPort := s.cans.getD p CanPort.reset

/-- Change one port. -/
def State.updCan (s : State) (p : Nat) (f : CanPort → CanPort) : State := { s with cans := updAt s.cans p f }

/-- A transmit buffer. -/
def State.canBuf (s : State) (p b : Nat) : CanBuf := (s.canPort p).bufs.getD b CanBuf.reset

/-- CF_STATUS.STATE (R319). -/
def State.canState (s : State) (p : Nat) : Nat := s.rd R.CF_STATUS_STATE p

/-- The base of a port's block. -/
def canBase (p : Nat) : Nat := 0x40080000 + 0x1000 * p

/-- The unit holds its ports in bus monitoring (R313). -/
def State.canListens (s : State) : Bool := s.role == .standby || s.role == .syncing

/-- Buffer `b` belongs to the lattice (R304). -/
def State.canOwned (s : State) (p b : Nat) : Bool :=
  if b = 31 then s.bit R.CF_TXB_OWN_B31 p else decide (b < 30) && bitOf (s.rd R.CF_TXB_OWN_LOW p) b

/-- CF_TXB_PEND: a buffer is pending, or its frame is on the bus; a bus-off port's buffers stay loaded and pend again on recovery
(R312). -/
def State.canPend (s : State) (p : Nat) : State :=
  let c := s.canPort p
  let off := s.canState p == 3 || s.canState p == 4
  s.wr R.CF_TXB_PEND (ofBits 32 (fun b => ((c.bufs.getD b CanBuf.reset).pend && !off) || c.onBus.any (fun x => x.1 == b))) p

/-- Change one buffer. -/
def State.updBuf (s : State) (p b : Nat) (f : CanBuf → CanBuf) : State :=
  (s.updCan p (fun c => { c with bufs := updAt c.bufs b f })).canPend p

/-! ### Rings and events (R300, R309) -/

/-- Enqueue entries together on ring `q` for port `p`: an inbound lattice ring, else the management core; the result says
whether they were kept. -/
def State.canPut (s : State) (q : Nat) (entries : List Bytes) : State × Bool :=
  let r := s.ring q
  if 128 ≤ q || r.depth = 0 || r.dir != 0 then (entries.foldl (fun s e => s.emit (.core q) .frame [] e) s, true)
  else if (s.role == .solo || s.role == .active) && decide (r.depth < r.entries.length + r.gated.length + entries.length) then (s, false)
  else (entries.foldl (fun s e => (s.ringPut q e).1) s, true)

/-- An event entry on EVT_Q (R309). -/
def State.canEventAt (s : State) (p type buf reason frc : Nat) : State :=
  (s.canPut (s.rd R.CF_EVT_Q p) [pad64 (leBytes 1 type ++ leBytes 1 buf ++ leBytes 1 reason ++ List.replicate 5 0 ++ leBytes 8 frc ++
    leBytes 1 (s.canState p) ++ leBytes 1 (s.rd R.CF_STATUS_TEC p) ++ leBytes 1 (s.rd R.CF_STATUS_REC p))]).1
def State.canEvent (s : State) (p type buf reason : Nat) : State := s.canEventAt p type buf reason s.tb.frc

/-- An event of the snapshot header and its sticky bit (R302). -/
def State.canMark (s : State) (p bit : Nat) (r : RegRow) : State :=
  (s.wr r 1 p).updCan p (fun c => { c with events := c.events ||| 2 ^ bit })

/-- A received frame is lost (R300, R303). -/
def State.canLose (s : State) (p bit : Nat) (r : RegRow) : State :=
  ((s.canMark p bit r).incWrap R.CF_LOST p).canEvent p 4 0 0

/-! ### Fault confinement (R311) -/

/-- STATE, TEC and REC follow the port's configuration, role and counters; a change of STATE posts a state event. -/
def State.canRefresh (s : State) (p : Nat) : State :=
  let c := s.canPort p
  let old := s.canState p
  let st :=
    if !s.bit R.CF_CTRL_EN p then 0
    else if old = 3 || old = 4 then old
    else if s.rd R.CF_CTRL_MODE p = 1 || s.canListens then 5
    else if 128 ≤ c.txErr || 128 ≤ c.rxErr then 2 else 1
  let s := ((s.wr R.CF_STATUS_TEC (min 255 c.txErr) p).wr R.CF_STATUS_REC (min 255 c.rxErr) p).wr R.CF_STATUS_STATE st p
  (if st = old then s else s.canEvent p 3 0 0).canPend p

/-- Counters to 0: the port begins error-active (R312, R314). -/
def State.canFresh (s : State) (p : Nat) : State := (s.updCan p (fun c => { c with txErr := 0, rxErr := 0 })).canRefresh p

/-- A bus error with LEC `lec`: a transmitter counts 8 unless the standard exempts it, a receiver 1, and each counts 8 for every
further dominant stretch; a listening port counts nothing (R311; the steps are ISO 11898-1's, PRESUMED, log entry 16). -/
def State.canError (s : State) (p lec : Nat) (tx exempt : Bool) (more : Nat) : State :=
  let s := (s.wr R.CF_STATUS_LEC lec p).inc R.CF_ERR p
  if s.canState p = 1 || s.canState p = 2 then
    (s.updCan p (fun c =>
      if tx then { c with txErr := c.txErr + (if exempt then 0 else 8) + 8 * more }
      else { c with rxErr := min 255 (c.rxErr + 1 + 8 * more) })).canRefresh p
  else s

/-- CAN_BUS_ERROR (R311) (PRESUMED, log entry 16). -/
def execCanBusError (p lec : Nat) (tx exempt : Bool) (more : Nat) (s : State) : Next := .next <|
  if p < 8 && [1, 2, 5].contains (s.canState p) && decide (1 ≤ lec) && decide (lec ≤ 6) then s.canError p lec tx exempt more else s

/-- The frame of buffer `b` has left the bus: a load that waited takes its place; otherwise the buffer keeps its content where
`keep` is set, and is pending again where `again` is. -/
def CanBuf.leave (x : CanBuf) (keep again : Bool) : CanBuf :=
  match x.next with
  | some m => { msg := some m, pend := x.after, next := none, after := false, waitTick := x.waitTick, abort := false }
  | none => { msg := if keep then x.msg else none, pend := again || (x.after && keep), next := none, after := false,
              waitTick := false, abort := false }

/-- A completion: TXOK or TXFAIL of the next snapshot, and an event for a buffer of the management core (R309) (PRESUMED, log entry 16). -/
def State.canDone (s : State) (p b : Nat) (ok : Bool) (reason frc : Nat) : State :=
  let s := s.updCan p (fun c => { c with dones := c.dones ++ [(s.tb.frc, b, ok)] })
  if s.canOwned p b then s else s.canEventAt p (if ok then 1 else 2) b reason frc

/-- A timed buffer keeps its content for the next firing, but for an aborted one (R306). -/
def State.canKeeps (s : State) (p b : Nat) : Bool := s.rd R.CF_TXB_CFG_RELEASE p b == 2 && !(s.canBuf p b).abort

/-- The attempt on the bus failed: an aborted or one-shot frame has failed, with `reason`; any other is to be sent again (R308). -/
def State.canFailed (s : State) (p b reason frc : Nat) : State :=
  let x := s.canBuf p b
  if x.abort then (s.updBuf p b (fun x => x.leave false false)).canDone p b false 3 frc
  else if x.msg.any (fun m => bitOf m.ctrl 24) then (s.updBuf p b (fun x => x.leave (s.canKeeps p b) false)).canDone p b false reason frc
  else s.updBuf p b (fun x => x.leave true true)

/-- CAN_BUS_OFF: a transmit error counter above 255 takes the port to bus-off, where it stays (R311, R312) (PRESUMED, log entry 16). -/
def execCanBusOff (p : Nat) (s : State) : Next := .next <|
  if p < 8 && (s.canState p == 1 || s.canState p == 2) && decide (255 < (s.canPort p).txErr) then
    let s := match (s.canPort p).onBus with
      | some (b, frc) => (s.updCan p (fun c => { c with onBus := none })).canFailed p b 2 frc
      | none => s
    let s := (s.wr R.CF_STATUS_STATE 3 p).inc R.CF_BUSOFF p
    (((s.wr R.CF_STATUS_TEC 255 p).canMark p 0 R.CF_EVENTS_BUSOFF).canEvent p 3 0 0).canPend p
  else s

/-! ### Transmit buffers (R304 to R310) -/

/-- Abort a buffer: at once, or after the frame on the bus (R308). -/
def State.canAbort (s : State) (p b reason : Nat) : State :=
  if (s.canPort p).onBus.any (fun x => x.1 == b) then s.updBuf p b (fun x => { x with abort := true, next := none, after := false })
  else if (s.canBuf p b).msg.isSome then (s.updBuf p b (fun _ => CanBuf.reset)).canDone p b false reason s.tb.frc
  else s

/-- Load a buffer and release it as its mode says (R306, R307). -/
def State.canLoad (s : State) (p b : Nat) (m : CanMsg) : State :=
  let mode := s.rd R.CF_TXB_CFG_RELEASE p b
  if b = 30 && ((s.canBuf p 30).pend || (s.canPort p).onBus.any (fun x => x.1 == 30)) then
    s.updCan p (fun c => { c with segs := c.segs ++ [m] })
  else if (s.canPort p).onBus.any (fun x => x.1 == b) then
    s.updBuf p b (fun x => { x with next := some m, after := mode == 0, waitTick := mode == 1 })
  else s.updBuf p b (fun x => { x with msg := some m, pend := mode == 0 || (mode == 2 && x.pend), waitTick := mode == 1 })

/-- The record that waits for its continuation on a side. -/
def State.canCont (s : State) (p : Nat) (lat : Bool) : Option (Nat × CanMsg) := if lat then (s.canPort p).contL else (s.canPort p).contM
def State.setCanCont (s : State) (p : Nat) (lat : Bool) (c : Option (Nat × CanMsg)) : State :=
  s.updCan p (fun x => if lat then { x with contL := c } else { x with contM := c })

/-- Take a transmit record of one side (R304, R305) (PRESUMED, log entry 16). -/
def State.canRecord (s : State) (p : Nat) (lat : Bool) (rec : Bytes) : State :=
  let r := pad64 rec
  let b := leNat (r.take 1)
  let op := leNat ((r.drop 1).take 1)
  let cont := s.canCont p lat
  if op = 1 && cont.isSome then
    match cont with
    | some (b, m) => (s.setCanCont p lat none).canLoad p b { m with data := m.data ++ (r.drop 16).take (bitsOf m.ctrl 16 7 - 48) }
    | none => s
  else
    let s := if cont.isSome then (s.setCanCont p lat none).wr R.CF_EVENTS_TX_FORMAT 1 p else s
    if op = 1 then s.wr R.CF_EVENTS_TX_FORMAT 1 p
    else if 2 < op then s
    else if 32 ≤ b || s.canOwned p b != lat then s.wr R.CF_EVENTS_TX_NOTOWNER 1 p
    else if op = 2 then s.canAbort p b 3
    else
      let ctrl := leNat ((r.drop 8).take 4)
      let len := min 64 (bitsOf ctrl 16 7)
      let m : CanMsg := { idw := leNat ((r.drop 4).take 4), ctrl, data := (r.drop 16).take (min 48 len) }
      if 48 < len then s.setCanCont p lat (some (b, m)) else s.canLoad p b m

/-- CAN_TX_RECORD: the oldest record of TX_Q, or a record of the management core on MTX_Q; outside RUN the former is discarded,
in a unit that listens both are (R305, R310, R313). -/
def execCanTxRecord (p : Nat) (rec : Option Bytes) (s : State) : Next := .next <|
  if 8 ≤ p then s
  else match rec with
    | some r => if s.canListens then s else s.canRecord p false r
    | none =>
      let (s, got) := s.ringTake (s.rd R.CF_RING_TX_Q p) 1
      if s.canListens || !s.inRun then s else got.foldl (fun s r => s.canRecord p true r) s

/-- The arbitration field as a number, the dominant bit 0 (R307) (PRESUMED, log entry 16). -/
def arbKey (m : CanMsg) : Nat :=
  let rtr := bitsOf m.idw 30 1
  if bitOf m.idw 29 then bitsOf m.idw 18 11 * 2 ^ 21 + 2 ^ 20 + 2 ^ 19 + bitsOf m.idw 0 18 * 2 + rtr
  else bitsOf m.idw 0 11 * 2 ^ 21 + rtr * 2 ^ 20

/-- The pending buffer with the lowest arbitration field, the lowest number among equals (R307). -/
def CanPort.lowest (c : CanPort) : Option (Nat × CanMsg) :=
  (List.range 32).foldl (fun best b =>
    match (c.bufs.getD b CanBuf.reset).pend, (c.bufs.getD b CanBuf.reset).msg, best with
    | true, some m, none => some (b, m)
    | true, some m, some (_, m') => if arbKey m < arbKey m' then some (b, m) else best
    | _, _, _ => best) none

/-- The port may put a frame on the bus: error-active or error-passive, not beyond the bus-off limit, not monitoring (R313). -/
def State.canSends (s : State) (p : Nat) : Bool :=
  decide (p < 8) && (s.canState p == 1 || s.canState p == 2) && decide ((s.canPort p).txErr ≤ 255) && !s.canListens

/-- CAN_TX_START: the port offers its lowest pending frame; an FD frame with BRS measures the loop delay (R296, R298, R307). -/
def execCanTxStart (p loopDelay : Nat) (s : State) : Next := .next <|
  if !s.canSends p || (s.canPort p).onBus.isSome then s
  else match (s.canPort p).lowest with
    | none => s
    | some (b, m) =>
      let s := (s.updCan p (fun c => { c with onBus := some (b, s.tb.frc) })).updBuf p b (fun x => { x with pend := false })
      let s := if bitOf m.ctrl 4 && bitOf m.ctrl 5 then s.wr R.CF_TDC_MEAS (loopDelay % 256) p else s
      if s.rd R.CF_CTRL_MODE p = 2 then s else s.emit (.can p) .frame [m.idw, m.ctrl, s.tb.frc] m.data

/-! ### Configuration changes (R317, R318) -/

/-- The staged rows of a port and of its buffers and filters. -/
def canRows : List RegRow :=
  [R.CF_CTRL_EN, R.CF_CTRL_MODE, R.CF_CTRL_TERM, R.CF_CTRL_FD_EN, R.CF_CTRL_PXHD, R.CF_CTRL_NOMATCH, R.CF_NBT_BRP, R.CF_NBT_TSEG1,
   R.CF_NBT_TSEG2, R.CF_NBT_SJW, R.CF_DBT_BRP, R.CF_DBT_TSEG1, R.CF_DBT_TSEG2, R.CF_DBT_SJW, R.CF_DBT_TDC_EN, R.CF_TDC_TDCO,
   R.CF_RING_RX_Q, R.CF_RING_HP_Q, R.CF_RING_TX_Q, R.CF_RING_MTX_Q, R.CF_EVT_Q, R.CF_EVT_HP_IRQ_EN, R.CF_SVC_ID, R.CF_SVC_IDE,
   R.CF_SVC_BRS, R.CF_SVC_EN, R.CF_TXB_OWN_LOW, R.CF_TXB_OWN_B31, R.CF_TXB_CFG_RELEASE, R.CF_FLT_ID, R.CF_FLT_IDE, R.CF_FLT_EN,
   R.CF_FLT_MASK, R.CF_FLT_SNAP, R.CF_FLT_RING, R.CF_FLT_HP, R.CF_FLT_REJECT, R.CF_FLT_FDF_MATCH]

/-- The copy `j` of a row in block `i` that a key names. -/
def RegRow.copyAt (r : RegRow) (i key : Nat) : Option Nat :=
  (List.range r.n2).find? (fun j => r.key i j == key)

/-- Every staged field of the rows, in block `i`, becomes the applied one. -/
def State.adoptAll (s : State) (rows : List RegRow) (i a e : Nat) : State :=
  (s.staged.filter (fun x => decide (a * 32 ≤ x.1) && decide (x.1 < e * 32))).foldl (fun s x =>
    (rows.filterMap (fun r => (r.copyAt i x.1).map (fun j => (r, j)))).foldl (fun s rj => s.adopt rj.1 i rj.2) s) s

/-- The reason the staged configuration is refused with, 0 for none (R297, R318). -/
def State.canReason (s : State) (p : Nat) : Nat :=
  let g (r : RegRow) (j : Nat := 0) : Nat := s.sg r p j
  let nt := (g R.CF_NBT_BRP + 1) * (3 + g R.CF_NBT_TSEG1 + g R.CF_NBT_TSEG2)
  let dt := (g R.CF_DBT_BRP + 1) * (3 + g R.CF_DBT_TSEG1 + g R.CF_DBT_TSEG2)
  let changed (r : RegRow) : Bool := g r != s.rd r p
  let tx := s.ring (g R.CF_RING_TX_Q)
  let mode := g R.CF_CTRL_MODE
  if g R.CF_NBT_TSEG1 = 0 || decide (g R.CF_NBT_TSEG2 < g R.CF_NBT_SJW) || decide (g R.CF_DBT_TSEG2 < g R.CF_DBT_SJW) ||
      decide (nt < 100) || decide (5000 < nt) || decide (dt < 20) || decide (nt < dt) then 1
  else if (decide (dt < 100) && g R.CF_DBT_TDC_EN == 0) || g R.CF_TDC_TDCO = 0 || decide (2 * dt ≤ g R.CF_TDC_TDCO) then 2
  else if !([0, 3] : List Nat).contains (s.canState p) && [R.CF_NBT_BRP, R.CF_NBT_TSEG1, R.CF_NBT_TSEG2, R.CF_NBT_SJW, R.CF_DBT_BRP, R.CF_DBT_TSEG1,
      R.CF_DBT_TSEG2, R.CF_DBT_SJW, R.CF_DBT_TDC_EN, R.CF_TDC_TDCO, R.CF_CTRL_FD_EN, R.CF_CTRL_MODE].any changed then 3
  else if (g R.CF_TXB_OWN_LOW != 0 || g R.CF_TXB_OWN_B31 != 0) && (tx.depth = 0 || tx.dir != 1) then 4
  else if (decide (2 ≤ mode) && !s.inStop) || g R.CF_TXB_CFG_RELEASE 31 != 2 ||
      (List.range 31).any (fun b => decide (2 ≤ g R.CF_TXB_CFG_RELEASE b)) then 5
  else 0

/-- A refused apply. -/
def State.canRefuse (s : State) (p r : Nat) : State :=
  ((s.wr R.CF_STATUS_REFUSED 1 p).wr R.CF_APPLY_REASON r p).wr R.CF_STATUS_APPLY_PENDING 0 p

/-- Submit a port's staged changes (DEDUCED, log entry 42). -/
def State.canApply (s : State) (p : Nat) : State :=
  match s.canReason p with
  | 0 => (s.wr R.CF_STATUS_APPLY_PENDING 1 p).wr R.CF_APPLY_REASON 0 p
  | r => (s.canRefuse p r).applyDone (canBase p) (0x0530 + r)

/-- CF_APPLY (R318). -/
def execCfApply (p : Nat) (s : State) : Next := .next (if p < 8 then s.canApply p else s)

/-- Discard a port's staged changes (DESIGN CHOICE, log entry 43). -/
def State.canCancel (s : State) (p : Nat) : State :=
  ((s.unstage (canBase p) (canBase (p + 1))).wr R.CF_STATUS_APPLY_PENDING 0 p).applyDone (canBase p) stCancelled

/-- CF_CANCEL (R317). -/
def execCfCancel (p : Nat) (s : State) : Next := .next (if p < 8 then s.canCancel p else s)

/-- A port's staged configuration and filter table take effect (R317). -/
def State.canApplied (s : State) (p : Nat) : State :=
  if 8 ≤ p || !s.bit R.CF_STATUS_APPLY_PENDING p then s
  else
    match s.canReason p with
    | 0 =>
      let was := s.canState p
      let s := s.adoptAll canRows p (canBase p) (canBase (p + 1))
      let s := (((s.wr R.CF_STATUS_APPLY_PENDING 0 p).wr R.CF_STATUS_DONE 1 p).wr R.CF_APPLY_REASON 0 p).applyDone (canBase p) 0
      if was = 0 then s.canFresh p else s.canRefresh p
    | r => (s.canRefuse p r).applyDone (canBase p) (0x0530 + r)

/-- CF_APPLY_TAKES_EFFECT, at the tick (R317). -/
def execCfApplyTakesEffect (p : Nat) (s : State) : Next := .next <|
  if p < 8 && s.bit R.CF_STATUS_APPLY_PENDING p then s.toTick.canApplied p else s

/-- A frame received at FRC of the tick meets the table that takes effect there (R8, R317). -/
def State.canTable (s : State) (p : Nat) : State := if s.tb.frc = s.nextTick then s.canApplied p else s

/-! ### Receiving (R299 to R303) -/

/-- The data length of a DLC (ISO 11898-1) (PRESUMED, log entry 16). -/
def dlcLen (fdf : Bool) (dlc : Nat) : Nat :=
  if dlc ≤ 8 then dlc
  else if !fdf then 8
  else [12, 16, 20, 24, 32, 48, 64].getD (dlc - 9) 64

/-- The ID and CTRL words of a received frame (R301). -/
def rxIdw (f : CanFrame) : Nat := f.id % 2 ^ 29 + bitIf f.ide (2 ^ 29) + bitIf f.rtr (2 ^ 30)
def rxLen (f : CanFrame) : Nat := if f.rtr then 0 else dlcLen f.fdf (f.dlc % 16)
def rxCtrl (f : CanFrame) (hp : Bool) (filter : Nat) : Nat :=
  f.dlc % 16 + bitIf f.fdf 16 + bitIf f.brs 32 + bitIf f.esi 64 + bitIf hp 128 + filter * 256 + rxLen f * 65536

/-- The ring entries of a received frame: one, or two above 48 bytes (R301). -/
def rxEntries (frc idw ctrl : Nat) (data : Bytes) : List Bytes :=
  let first := pad64 (leBytes 8 frc ++ leBytes 4 idw ++ leBytes 4 ctrl ++ data.take 48)
  if data.length ≤ 48 then [first]
  else [first, pad64 (List.replicate 12 0 ++ leBytes 4 (ctrl + 2 ^ 31) ++ data.drop 48)]

/-- Filter entry `e` matches (R299). -/
def State.canMatch (s : State) (p e : Nat) (f : CanFrame) : Bool :=
  s.bit R.CF_FLT_EN p e && s.bit R.CF_FLT_IDE p e == f.ide &&
    (Nat.xor (f.id % 2 ^ 29) (s.rd R.CF_FLT_ID p e)) &&& s.rd R.CF_FLT_MASK p e == 0 &&
    (match s.rd R.CF_FLT_FDF_MATCH p e with
     | 0 => true
     | 1 => !f.fdf
     | 2 => f.fdf
     | _ => false)

/-- The number of the first matching entry with its targets SNAP, RING and HP (R299, R300); `none`: no target (PRESUMED, log entry 16). -/
def State.canRoute (s : State) (p : Nat) (f : CanFrame) : Nat × Bool × Bool × Bool :=
  match (List.range 256).find? (fun e => s.canMatch p e f) with
  | some e =>
    if s.bit R.CF_FLT_REJECT p e then (e, false, false, false)
    else (e, s.bit R.CF_FLT_SNAP p e, s.bit R.CF_FLT_RING p e, s.bit R.CF_FLT_HP p e)
  | none => (0xFF, bitOf (s.rd R.CF_CTRL_NOMATCH p) 0, bitOf (s.rd R.CF_CTRL_NOMATCH p) 1, false)

/-- Store a frame in the snapshot buffer of 1,024 (R303) (PRESUMED, log entry 16). -/
def State.canSnapPut (s : State) (p : Nat) (x : CanSnap) : State :=
  let s := s.updCan p (fun c => { c with seq := (c.seq + 1) % 2 ^ 32 })
  if 1024 ≤ (s.canPort p).snaps.length then s.canLose p 2 R.CF_EVENTS_SNAP_OVF
  else s.updCan p (fun c => { c with snaps := c.snaps ++ [{ x with seq := c.seq }] })

/-- Route a received frame to its targets (R300). -/
def State.canDeliver (s : State) (p : Nat) (f : CanFrame) : State :=
  let (filter, snap, ring, hp) := s.canRoute p f
  let frc := s.tb.frc - f.age
  let data := f.data.take (rxLen f)
  let ctrl := rxCtrl f hp filter
  let put (s : State) (q : Nat) : State :=
    match s.canPut q (rxEntries frc (rxIdw f) ctrl data) with
    | (s, true) => s
    | (s, false) => s.canLose p 4 R.CF_EVENTS_RING_OVF
  let s := if hp then
      let s := put (s.wr R.CF_HP_NOTIFY 1 p) (s.rd R.CF_RING_HP_Q p)
      if s.bit R.CF_EVT_HP_IRQ_EN p then s.emit (.core (s.rd R.CF_RING_HP_Q p)) .mark [p] else s
    else s
  let s := if ring then put s (s.rd R.CF_RING_RX_Q p) else s
  if snap && s.inRun then s.canSnapPut p { frc, rx := s.tb.frc, idw := (rxIdw f), ctrl, seq := 0, data } else s

/-! ### The command service (R315, R316) -/

/-- A partial message is discarded with a type 5 event (R316). -/
def State.canSvcDrop (s : State) (p : Nat) : State :=
  ((s.updCan p (fun c => { c with svc := [], svcSeq := none })).wr R.CF_EVENTS_SVC_DROP 1 p).canEvent p 5 0 0

/-- A segment: another host's is discarded while a host is open; one out of sequence discards the partial message; the last one
ends the message, which goes to the session's stream (R315, R316). -/
def State.canSegment (s : State) (p : Nat) (data : Bytes) : State :=
  let d := pad64 data
  let b0 := leNat (d.take 1)
  let host := leNat ((d.drop 1).take 1)
  let seq := b0 % 64
  let c := s.canPort p
  if s.bit R.CF_SVC_STATUS_OPEN p && s.rd R.CF_SVC_STATUS_HOST p != host then s.inc R.CF_SVC_STATUS_DROPPED p
  else if (if bitOf b0 6 then c.svcSeq.isSome else c.svcSeq != some seq) || decide (18432 < c.svc.length + 62) then s.canSvcDrop p
  else
    let msg := c.svc ++ d.drop 2
    if bitOf b0 7 then
      (s.updCan p (fun c => { c with svc := [], svcSeq := none })).emit .service .frame [p, host] msg
    else s.updCan p (fun c => { c with svc := msg, svcSeq := some ((seq + 1) % 64), svcAt := s.tb.frc })

/-- The port receives from the bus: not in INIT, bus-off or recovery, nor in a loopback mode (PRESUMED, log entry 16). -/
def State.canHears (s : State) (p : Nat) : Bool :=
  decide (p < 8) && [1, 2, 5].contains (s.canState p) && decide (s.rd R.CF_CTRL_MODE p < 2)

/-- CAN_SERVICE_SEGMENT_RX: an FD frame of 64 bytes on the service identifier (R315, R316). -/
def execCanServiceSegmentRx (p : Nat) (data : Bytes) (s : State) : Next := .next <|
  let s := s.canTable p
  if s.canHears p && s.bit R.CF_SVC_EN p then (s.inc R.CF_RX p).canSegment p data else s

/-- CAN_SERVICE_GAP_TIMEOUT: more than 1 s within a message (R316). -/
def execCanServiceGapTimeout (p : Nat) (s : State) : Next := .next <|
  if p < 8 && (s.canPort p).svcSeq.isSome && decide ((s.canPort p).svcAt + 100000000 < s.tb.frc) then s.canSvcDrop p else s

/-- A frame is received at its validation point: counted, offered to the command service, then routed (R299, R316). -/
def State.canReceive (s : State) (p : Nat) (f : CanFrame) : State :=
  let r := (s.canPort p).rxErr
  let s := if r ≤ 127 then s.updCan p (fun c => { c with rxErr := r - 1 })
    else (s.updCan p (fun c => { c with rxErr := 119 + s.freeVal % 9 })).nextFree
  let s := s.inc R.CF_RX p
  let s := if s.canState p = 1 || s.canState p = 2 then s.canRefresh p else s
  if s.bit R.CF_SVC_EN p && f.id == s.rd R.CF_SVC_ID p && f.ide == s.bit R.CF_SVC_IDE p then
    if f.fdf then s.canSegment p f.data else s
  else s.canDeliver p f

/-- CAN_FRAME_RX (R299): an FD frame with a recessive res bit is a protocol exception or a form error (R311); with FD_EN at 0 an
FD frame is answered with an error (R319). -/
def execCanFrameRx (p : Nat) (f : CanFrame) (s : State) : Next := .next <|
  let s := s.canTable p
  if !s.canHears p then s
  else if f.fdf && !s.bit R.CF_CTRL_FD_EN p then s.canError p 2 false false 0
  else if f.fdf && f.res then
    if s.bit R.CF_CTRL_PXHD p then s.wr R.CF_EVENTS_PEX 1 p else s.canError p 2 false false 0
  else s.canReceive p f

/-! ### Completions (R308, R309) -/

/-- The next service segment goes into buffer 30 (R316). -/
def State.canNextSeg (s : State) (p : Nat) : State :=
  match (s.canPort p).segs with
  | [] => s
  | m :: ms => (s.updCan p (fun c => { c with segs := ms })).canLoad p 30 m

/-- CAN_TX_COMPLETE: the attempt on the bus ended.  Success completes the buffer; lost arbitration or an error fails a one-shot
or aborted frame and leaves any other to be sent again (R308, R309); a loopback mode receives its own frame. -/
def execCanTxComplete (p : Nat) (e : CanTxEnd) (s : State) : Next := .next <|
  match (s.canPort p).onBus with
  | none => s
  | some (b, frc) =>
    let x := s.canBuf p b
    let m := x.msg.getD { idw := 0, ctrl := 0, data := [] }
    let s := s.updCan p (fun c => { c with onBus := none })
    let s := match e with
      | .ok =>
        let s := (s.updCan p (fun c => { c with txErr := c.txErr - 1 })).inc R.CF_TX p
        let s := (s.updBuf p b (fun x => x.leave (s.canKeeps p b) false)).canDone p b true 0 frc
        if 2 ≤ s.rd R.CF_CTRL_MODE p then
          s.canReceive p { id := bitsOf m.idw 0 29, ide := bitOf m.idw 29, rtr := bitOf m.idw 30, fdf := bitOf m.ctrl 4,
                           brs := bitOf m.ctrl 5, esi := bitOf m.ctrl 6, dlc := m.ctrl % 16, data := m.data,
                           age := s.tb.frc - frc, res := false }
        else s
      | .lost => s.canFailed p b 1 frc
      | _ => s.canFailed p b 2 frc
    let s := if b = 30 && !(s.canBuf p 30).pend then s.canNextSeg p else s
    s.canRefresh p

/-! ### Bus-off recovery and aborts (R308, R312) -/

/-- One nominal bit in tb (R295). -/
def State.canBit (s : State) (p : Nat) : Nat :=
  (s.rd R.CF_NBT_BRP p + 1) * (1 + (s.rd R.CF_NBT_TSEG1 p + 1) + (s.rd R.CF_NBT_TSEG2 p + 1))

/-- Order recovery; ignored in any state but bus-off. -/
def State.canRecover (s : State) (p : Nat) (flush : Bool) : State :=
  if p < 8 && s.canState p == 3 then
    let s := if flush then (List.range 32).foldl (fun s b => s.canAbort p b 4) s else s
    ((s.wr R.CF_STATUS_STATE 4 p).updCan p (fun c => { c with recoverAt := s.tb.frc })).canEvent p 3 0 0
  else s

/-- CF_RECOVER (R312). -/
def execCfRecover (p : Nat) (flush : Bool) (s : State) : Next := .next (s.canRecover p flush)

/-- CAN_RECOVERY_COMPLETE: after 128 × 11 recessive bits the port is error-active with counters at 0 (R312). -/
def execCanRecoveryComplete (p : Nat) (s : State) : Next := .next <|
  if p < 8 && s.canState p == 4 && decide ((s.canPort p).recoverAt + 1408 * s.canBit p ≤ s.tb.frc) then
    ((s.wr R.CF_STATUS_STATE 1 p).canMark p 1 R.CF_EVENTS_RECOVERED).updCan p (fun c => { c with txErr := 0, rxErr := 0 })
      |>.canEvent p 3 0 0 |>.canRefresh p
  else s

/-- CF_TXB_ABORT: management-owned buffers whose bit is 1 are aborted (R308, R319). -/
def execCfTxbAbort (p v : Nat) (s : State) : Next := .next <|
  if p < 8 then (List.range 32).foldl (fun s b => if bitOf v b && !s.canOwned p b then s.canAbort p b 3 else s) s else s

/-- STOP, HALT or LRST: every lattice-owned buffer whose frame is not on the bus is aborted; outside RUN no SNAP frames are
kept (R303, R310). -/
def State.canHalt (s : State) : State :=
  (List.range 8).foldl (fun s p =>
    let s := (List.range 32).foldl (fun s b =>
      if s.canOwned p b && !(s.canPort p).onBus.any (fun x => x.1 == b) then s.canAbort p b 3 else s) s
    s.updCan p (fun c => { c with snaps := [], contL := none })) s

/-- A role change: at bus idle each port follows the role, and a unit that becomes ACTIVE begins error-active with counters at 0
(R313, R314). -/
def State.canRoles (s : State) : State :=
  (List.range 8).foldl (fun s p =>
    if (s.canPort p).onBus.isSome then s else if s.canListens then s.canRefresh p else s.canFresh p) s

/-- The buffers that completed before `t` with that outcome, a bit each (R302). -/
def CanPort.doneMask (c : CanPort) (t : Nat) (ok : Bool) : Nat :=
  ofBits 32 (fun b => c.dones.any (fun x => decide (x.1 < t) && x.2.1 == b && x.2.2 == ok))

/-- A frame tick: what the snapshot delivers, the frames received before the tick, is frozen, its window begins anew, and the
buffers of release mode 1 become pending (R28, R303, R306). -/
def State.canTick (s : State) : State :=
  (List.range 8).foldl (fun s p =>
    let frozen : CanFrozen :=
      { count := ((s.canPort p).snaps.takeWhile (fun x => decide (x.rx < s.tb.frc))).length, lost := s.rd R.CF_LOST p, state := s.canState p, lec := s.rd R.CF_STATUS_LEC p,
        txErr := s.rd R.CF_STATUS_TEC p, rxErr := s.rd R.CF_STATUS_REC p, events := (s.canPort p).events, 
        txok := (s.canPort p).doneMask s.tb.frc true, txfail := (s.canPort p).doneMask s.tb.frc false }
    let s := s.updCan p (fun c => { c with
      frozen, events := 0, dones := c.dones.filter (fun x => decide (s.tb.frc ≤ x.1)), lastSnap := 0
      bufs := c.bufs.mapIdx (fun b x =>
        if !x.waitTick then x
        else if c.onBus.any (fun o => o.1 == b) then { x with waitTick := false, after := true }
        else { x with waitTick := false, pend := true }) })
    s.canPend p) s

/-- The firing of a lock group at port `p`: buffer 31 becomes pending with its current content; the second result says that the
previous firing still waits for arbitration, and nothing is repeated (R56, R60, R306). -/
def State.canFire (s : State) (p : Nat) : State × Bool :=
  let x := s.canBuf p 31
  if s.rd R.CF_TXB_CFG_RELEASE p 31 != 2 || s.canListens then (s, false)
  else if x.pend || x.after then (s, true)
  else if (s.canPort p).onBus.any (fun o => o.1 == 31) then (s.updBuf p 31 (fun x => { x with after := true }), false)
  else (s.updBuf p 31 (fun x => { x with pend := x.msg.isSome }), false)

/-- The CAN_SNAP transfer of a port with `m` frames (R302): the oldest `m` frozen frames go, the header counts the rest; a
unit that listens keeps its frames until its partner has delivered them (R350). -/
def State.canSnapshot (s : State) (p m : Nat) : State × Bytes :=
  let c := s.canPort p
  let f := c.frozen
  let here := c.snaps.take (min m f.count)
  let head := leBytes 2 here.length ++ leBytes 2 (f.count - here.length) ++ leBytes 4 f.lost ++ leBytes 1 f.state ++ leBytes 1 f.lec ++
    leBytes 1 f.txErr ++ leBytes 1 f.rxErr ++ leBytes 4 f.events ++ leBytes 4 ((here.head?.map (·.seq)).getD 0) ++ List.replicate 4 0 ++
    leBytes 4 f.txok ++ leBytes 4 f.txfail
  let entry (x : CanSnap) : Bytes :=
    leBytes 8 x.frc ++ leBytes 4 x.idw ++ leBytes 4 x.ctrl ++ leBytes 4 x.seq ++ List.replicate 12 0 ++ (x.data ++ List.replicate 64 0).take 64
  (if s.canListens then s
   else s.updCan p (fun c => { c with
     snaps := c.snaps.drop here.length, frozen := { c.frozen with count := f.count - here.length }
     lastSnap := (here.getLast?.map (·.frc)).getD c.lastSnap }),
   head ++ here.flatMap entry ++ List.replicate (96 * (m - here.length)) 0)

end Sys2Proof.Machine
end

