-- ==== Sys2Proof/Machine/RunExit.lean ====
section
/-! DEFINITION. How the unit leaves RUN (R125, R143, R148, R149, R310) and what STOP, HALT and a lattice reset share. -/

namespace Sys2Proof.Machine

open Sys2Proof

/-- The RAM buffer goes to flash, a ring of 65,536 entries (R492, R493). -/
def State.flushJournal (s : State) : State :=
  { s with jr := { s.jr with flash := (s.jr.ram ++ s.jr.flash).take 65536, ram := [] } }

/-- Every gated entry is released (R349, R360): mirrored entries and own ones alike. -/
def State.ungate (s : State) : State :=
  { s with lat := { s.lat with rings := s.lat.rings.map (fun r =>
      { r with entries := r.entries ++ r.gated, gated := [] }) } }

/-- A switch that is ARMED or COMMITTED meets a departure from RUN before its delta writes have run: it is ABANDONED (R125). -/
def State.abandonArmed (s : State) : State :=
  if s.rd R.TT_MODE_STATUS_STATE = 3 || s.rd R.TT_MODE_STATUS_STATE = 4 then s.abandonSwitch else s

/-- What a unit outside RUN holds of its pair (R343, R356): no role, no exchange, no handover, no test. -/
def State.pairOut (s : State) : State :=
  { s.wr R.PA_AGREE_RUN 0 with
    role := .solo
    pair := { s.pair with
      next := none, msg := none, exch := none, intake := [], ownInputs := false, cut := false,
      takeover := none, hFrame := 0, partnerIn := none, resync := false, test := none, testOwn := none, testPartner := none, mixed := false,
      mixedRun := 0, compared := false, xferAt := none, joining := false, xferCopy := [], finalAt := none, stopAfter := false, hold := false } }

/-- Output values transferred or latched no longer apply; what HOLD keeps stays (R148 to R150). -/
def State.outputsOff (s : State) : State :=
  { s with
    chans := s.chans.map (fun c => { c with xfer := none, copyOk := false, ready := none, latched := none, crossErr := false })
    dio := { s.dio with xfer := none, sent := false, got := none, ready := none, latched := none } }

/-- The lattice issues nothing further: results due have arrived, calls, transfers and mesh traffic are abandoned, the engines are free (R148,
R149). -/
def State.latticeIdle (s : State) : State :=
  let s := s.settleNow
  let s := ((List.range 32).map s.physTile).foldl (fun s p =>
    if s.tb.frc = s.tb.lastTick then s.landAll p else s.land p (8 * (s.tb.frc - s.tb.lastTick))) s
  { ((s.wr R.LT_SHADOW_STATUS_BUSY 0).wr R.LP_STATUS_BUSY 0).wr R.SV_STATUS_BUSY 0 with
    lat := { s.lat with
      bus := [], calls := [], xfers := [], marker := false, markerLate := false, suppress := false, suppressNext := false, sealed := none,
      lastDigest := none, absorbed := [], preItems := [], deltaItems := [], shadows := [], region := none,
      tiles := s.lat.tiles.map (fun t => { t with pend := [], loops := [], branch := none, ended := none, idle := 0 }) }
    tt := { s.tt with capture := [] } }

/-- The unit leaves RUN for `u`, frame `last` being its last: outputs take their safe values, executions in progress are
abandoned, the CAN buffers of the lattice are aborted (DEDUCED, log entry 53). -/
def State.exitRun (s : State) (u : UnitState) (last : Nat) : State :=
  let heard := s.canListens
  let s := s.ungate.pairOut.outputsOff.latticeIdle.canHalt
  let s := (s.wr64 R.TT_RUN_LAST_LO R.TT_RUN_LAST_HI last).wr R.TT_RET_FRAME_LOST 0
  let s := { s with unit := u, tt := { s.tt with firstRun := false, starting := none, stopAt := none, stopCmd := false } }
  (if heard then s.canRoles else s).evalTrips.driveAll

/-- STOP and LEAVE are answered after the stop, with the frame of its boundary (R378, R384) (DEDUCED, log entry 57). -/
def State.stopWaits (s : State) (status : Nat) (params : List Nat) : State := (s.wake 0x0302 0 status params).wake 0x0703 0 status params

/-- STOP takes effect (R148): STOPPED, requests that wait for it are answered, a switch still armed is ABANDONED (R125); a HOT start is allowed after a
STOP command (R145). -/
def State.enterStop (s : State) (last : Nat) : State :=
  let hot := s.tt.stopCmd
  let s := ((s.abandonArmed.exitRun .stop last).wr R.TT_RUN_STATUS_STOPPED 1).stopWaits 0 [last + 1]
  { s with tt := { s.tt with hotOk := hot } }

/-- The unit stops at the tick that now falls, by no STOP command. -/
def State.stopHere (s : State) : State := { s with tt := { s.tt with stopAt := some (s.tb.frameNo + 1) } }

/-- The unit stops at the boundary: the tick that has just fallen, else the next. -/
def State.stopSoon (s : State) : State := if s.tb.frc = s.tb.lastTick then s.enterStop (s.tb.frameNo - 1) else s.stopHere

/-- The unit enters HALT with a cause (R149, R476): a switch still armed is ABANDONED (R125), the safe-state line is asserted (R475), but for a power-fail stop beside an eligible
partner (R483). -/
def State.enterHalt (s : State) (cause last : Nat) : State :=
  let s := (s.abandonArmed.exitRun .halt last).wr R.TT_RUN_STATUS_HALTED 1
  let s := (s.wr R.TT_RUN_STATUS_HALT_CAUSE cause).journal 0x0B .halt [cause]
  let s := if s.sup.keep then s.driveAll else s.safeLine true
  { s with tt := { s.tt with hotOk := false } }.stopWaits 0x0008 []

end Sys2Proof.Machine
end

