-- ==== Sys2Proof/Machine/Eth.lean ====
section
/-! DEFINITION. The Ethernet switch, redundancy, the route engine and MACsec (R320 to R332, R340). -/

namespace Sys2Proof.Machine

open Sys2Proof

/-! ### Egress queues (R323) -/

/-- Change the Ethernet state. -/
def State.updEth (s : State) (f : Eth → Eth) : State := { s with eth := f s.eth }

/-- The bytes an egress queue holds. -/
def Eth.held (e : Eth) (k : Nat) : Nat := ((e.queues.getD k []).map (·.len)).sum

/-- The packet buffer in use: 16 KiB are each queue's own (R323). -/
def Eth.used (e : Eth) : Nat := ((List.range 64).map (fun k => max 16384 (e.held k))).sum

/-- BUF_LOW follows the shared buffer (R340). -/
def State.bufLow (s : State) : State := s.wr R.ES_STATUS_BUF_LOW (if 4194304 < s.eth.used + 262144 then 1 else 0)

/-- A frame joins egress queue `q` of port `p`, or is dropped at ingress and counted (R323) (PRESUMED, log entry 17). -/
def State.ethEnqueue (s : State) (p q : Nat) (f : EthFrame) : State :=
  let k := 8 * p + q
  let have_ := s.eth.held k
  let fits := decide (have_ + f.len ≤ 16384) ||
    (decide (have_ + f.len ≤ 524288) && decide (s.eth.used + max 16384 (have_ + f.len) ≤ 4194304 + max 16384 have_))
  if fits then (s.updEth (fun e => { e with queues := updAt e.queues k (· ++ [f]) })).bufLow
  else s.inc R.ES_QDROP p q

/-! ### Redundancy (R325) -/

/-- The other port of a redundant pair (PRESUMED, log entry 17). -/
def State.twin (s : State) (p : Nat) : Option Nat :=
  let mode := s.rd R.ES_CTRL_RED_MODE
  if p < 2 && (mode == 1 || mode == 3 || mode == 4) then some (1 - p)
  else if (p == 2 || p == 3) && (mode == 2 || mode == 3) then some (5 - p)
  else none

/-- The ports of a list with the twin of each, without repeats. -/
def State.withTwins (s : State) (ps : List Nat) : List Nat := (ps ++ ps.filterMap s.twin).eraseDups

/-- Send a frame from the host or the route engine on ports, each with its twin. -/
def State.ethSend (s : State) (ports : List Nat) (q : Nat) (f : EthFrame) : State :=
  (s.withTwins ports).foldl (fun s p => s.ethEnqueue p q f) s

/-- The queue of a frame: 7 for PTP event messages, else its PCP, or the port's DEF_PCP (R323). -/
def State.queueOf (s : State) (p : Nat) (f : EthFrame) : Nat :=
  if f.ptpEvent then 7
  else match f.tag with
    | some (_, pcp) => pcp % 8
    | none => s.rd R.ES_PORT_CFG_DEF_PCP p

/-! ### MACsec (R331, R332) -/

/-- Change one port's MACsec state. -/
def State.updSec (s : State) (p : Nat) (f : MacSec → MacSec) : State := s.updEth (fun e => { e with macsec := updAt e.macsec p f })

/-- The frame passes MACsec on its port: the association it names, with the replay window moved, or `none` (PRESUMED, log entry 17). -/
def State.secCheck (s : State) (p : Nat) (f : EthFrame) : Option (MacSec → MacSec) :=
  let m := s.eth.macsec.getD p MacSec.reset
  let w := min 64 (s.rd R.ES_MACSEC_REPLAY p)
  if !s.bit R.ES_MACSEC_KEY_OK p || !f.icvOk then none
  else match f.an with
    | none => none
    | some a =>
      if a = m.an then
        if m.nextPn ≤ f.pn + w then some (fun m => { m with nextPn := max m.nextPn (f.pn + 1) }) else none
      else match m.old with
        | some (o, t, pn) =>
          if a = o && s.tb.frc < t && decide (pn ≤ f.pn + w) then some (fun m => { m with old := some (o, t, max pn (f.pn + 1)) }) else none
        | none => none

/-- A partner link counts as up while it is linked and, with PA_CFG.EN at 1, its MACsec key is installed and its controller runs (R403, R464). -/
def State.pairLinks (s : State) : State :=
  let up (k : Nat) : Nat :=
    if s.rd R.ES_PORT_CFG_LINK (4 + k) != 0 && (!s.bit R.PA_CFG_EN || s.bit R.ES_MACSEC_KEY_OK (4 + k)) && !s.fw.restarting.contains 5 then 1 else 0
  let s := (s.wr R.PA_STATUS_LINK0 (up 0)).wr R.PA_STATUS_LINK1 (up 1)
  let any := s.bit R.PA_STATUS_LINK0 || s.bit R.PA_STATUS_LINK1
  { s with pair := { s.pair with upAt := if any then some (s.pair.upAt.getD s.tb.frc) else none } }

/-- MACsec is on: by ES_MACSEC.EN, and on a partner link whenever PA_CFG.EN is 1 (R403). -/
def State.secOn (s : State) (p : Nat) : Bool := decide (p < 6) && (s.bit R.ES_MACSEC_EN p || (decide (4 ≤ p) && s.bit R.PA_CFG_EN))

/-- The enclave's keys, derived from the peer session across the port (R404), are installed under the next association number; receive
accepts the old one for 1 s; on a partner link transmit changes in the guard band (R332). -/
def State.rekey (s : State) (p : Nat) : State :=
  if 6 ≤ p || !(s.trust.peers.any (fun x => x.port == p && x.ended.isNone)) then s
  else
    let s := if 4 ≤ p && s.inRun then s.toCycle s.G else s
    let m := s.eth.macsec.getD p MacSec.reset
    let old := if s.bit R.ES_MACSEC_KEY_OK p then some (m.an, s.tb.frc + 100000000, m.nextPn) else none
    let an := if s.bit R.ES_MACSEC_KEY_OK p then (m.an + 1) % 4 else m.an
    (((s.updSec p (fun _ => { an, nextPn := 1, old, txPn := 0 })).wr R.ES_MACSEC_AN_TX an p).wr R.ES_MACSEC_KEY_OK 1 p).pairLinks

/-- MACSEC_REKEY (R332). -/
def execMacsecRekey (p : Nat) (s : State) : Next := .next (s.rekey p)

/-- The packet number at which the enclave rekeys: 2³⁰ below its limit (R332). -/
def State.pnLimit (s : State) (p : Nat) : Nat := (if s.bit R.ES_MACSEC_XPN p then 2 ^ 64 else 2 ^ 32) - 2 ^ 30

/-- A frame takes the next packet number of a port with MACsec on; the enclave rekeys before the numbers come near their limit (R332). -/
def State.secSent (s : State) (p : Nat) : State :=
  if !s.secOn p then s
  else
    let s := s.updSec p (fun m => { m with txPn := m.txPn + 1 })
    if s.pnLimit p ≤ (s.eth.macsec.getD p MacSec.reset).txPn + 1 then s.rekey p else s

/-- MACSEC_OLD_ASSOCIATION_EXPIRY: 1 s after a rekey (R332). -/
def execMacsecOldAssociationExpiry (p : Nat) (s : State) : Next := .next <|
  match (s.eth.macsec.getD p MacSec.reset).old with
  | some (_, t, _) => if t ≤ s.tb.frc then s.updSec p (fun m => { m with old := none }) else s
  | none => s

/-! ### Switching (R321 to R325, R331) -/

/-- Where a frame that came in at port `p` in VLAN `vid` goes: the port learned for its address, or every member port (PRESUMED, log entry 17). -/
def State.ethDest (s : State) (p vid : Nat) (f : EthFrame) : List Nat :=
  let members := (List.range 8).filter (fun q => q != p && Config.vlanMember q vid && s.twin p != some q && (q == 7 || s.bit R.ES_PORT_CFG_EN q))
  if f.dst = Config.ownMac then [7]
  else if bitOf f.dst 40 then members
  else match s.eth.macs.find? (fun m => m.1 == f.dst && m.2.1 == vid) with
    | some (_, _, q) => if members.contains q then [q] else []
    | none => members

/-- No frame passes between the service port and another external port (R321). -/
def svcApart (p q : Nat) : Bool := (p == 6) != (q == 6) && q != 7 && p != 7

/-- A checked frame is learned from, forwarded round an HSR ring, and queued (PRESUMED, log entry 17). -/
def State.ethForward (s : State) (p : Nat) (f : EthFrame) : State :=
  let vid := (f.tag.map (·.1)).getD (s.rd R.ES_PORT_CFG_PVID p)
  let s := s.updEth (fun e => { e with macs := (f.src, vid, p) :: e.macs.filter (fun m => !(m.1 == f.src && m.2.1 == vid)) })
  let q := s.queueOf p f
  let s := match s.twin p with
    | some t => if s.rd R.ES_CTRL_RED_MODE = 4 && f.dst != Config.ownMac then s.ethEnqueue t q f else s
    | none => s
  let dest := s.ethDest p vid f
  let s := if dest.any (svcApart p) then s.wr R.ES_STATUS_SVC_BLOCK 1 else s
  s.ethSend (dest.filter (fun x => !svcApart p x)) q f

/-- The switch core restarts: nothing is forwarded on the plant ports (R462). -/
def State.switchHolds (s : State) (p : Nat) : Bool := s.fw.restarting.contains 3 && decide (p < 4)

/-- ETH_FRAME_RX: a frame enters a switch port (R321 to R325, R331). -/
def execEthFrameRx (p : Nat) (f : EthFrame) (s : State) : Next := .next <|
  if 7 ≤ p || s.switchHolds p || !s.bit R.ES_CTRL_EN || !s.bit R.ES_PORT_CFG_EN p || !s.bit R.ES_PORT_CFG_LINK p then s
  else
    let s := s.inc R.ES_PORT_CFG_RX p
    let limit := if p = 4 || p = 5 then 9216 else 2048
    let sec := s.secOn p && !(f.supervision && f.an.isNone && s.bit R.ES_MACSEC_SUP_CLEAR p)
    if limit < f.len then s.inc R.ES_PORT_CFG_OVERSIZE p
    else match (if sec then s.secCheck p f else some id) with
      | none => s.inc R.ES_MACSEC_ICV_FAIL p
      | some g =>
        let s := if sec then s.updSec p g else s
        if (s.twin p).isSome && f.src = Config.ownMac then s
        else if f.supervision then
          match s.twin p with
          | some t =>
            let s := s.updEth (fun e => { e with supRx := updAt e.supRx (p / 2) (fun _ => s.tb.frc) })
            if s.rd R.ES_CTRL_RED_MODE = 4 then s.ethEnqueue t (s.queueOf p f) f else s
          | none => s.ethForward p f
        else match s.twin p, f.redSeq with
          | some _, some n =>
            let fresh := s.eth.seen.filter (fun x => decide (s.tb.frc ≤ x.2.2 + 40000000))
            let key := p / 2 * 65536 + n % 65536
            if fresh.any (fun x => x.1 == f.src && x.2.1 == key) then s
            else (s.updEth (fun e => { e with seen := (f.src, key, s.tb.frc) :: fresh })).ethForward p f
          | _, _ => s.ethForward p f

/-- The timetabled windows of a partner link in tb from the tick (R91, R324): the exchange from x to the cut-over, the digest from
cycle G. -/
def State.partnerWindows (s : State) : List (Nat × Nat) :=
  match s.timetable with
  | some m => if s.inRun && m.shared.pair == 1 then
      [(m.decl.exStart / 8, (m.decl.cutOver + 7) / 8), (s.G / 8, s.G / 8 + Config.digestWindow)] else []
  | none => []

/-- A frame of `len` bytes may start on a partner link now: no window is open, and its last bit leaves at least 250 tb before the
next opens (R324; 10 Gbit/s). -/
def State.partnerClear (s : State) (len : Nat) : Bool :=
  let t := s.tb.frc - s.tb.lastTick
  let e := t + (8 * len + 99) / 100
  s.partnerWindows.all (fun w => decide (w.2 ≤ t) || decide (e + 250 ≤ w.1))

/-- ETH_FRAME_TX: the highest queue that holds a frame sends its next (R323, R324). -/
def execEthFrameTx (p : Nat) (s : State) : Next := .next <|
  if 8 ≤ p || s.switchHolds p || (s.secOn p && !s.bit R.ES_MACSEC_KEY_OK p) || !s.bit R.ES_CTRL_EN || (p < 7 && (!s.bit R.ES_PORT_CFG_EN p || !s.bit R.ES_PORT_CFG_LINK p)) then s
  else match (List.range 8).reverse.find? (fun q => !(s.eth.queues.getD (8 * p + q) []).isEmpty) with
    | none => s
    | some q =>
      match s.eth.queues.getD (8 * p + q) [] with
      | [] => s
      | f :: fs =>
        if (p == 4 || p == 5) && !s.partnerClear (f.len + if s.secOn p then 32 else 0) then s
        else
          let s := (s.updEth (fun e => { e with queues := updAt e.queues (8 * p + q) (fun _ => fs) })).bufLow
          let s := if p < 7 then s.inc R.ES_PORT_CFG_TX p else s
          (s.emit (.eth p) .frame [f.dst, f.src, f.etype, f.len] f.payload).secSent p

/-- PRP_SUPERVISION_SEND: every 2 s on every redundant port (R325). -/
def execPrpSupervisionSend (s : State) : Next := .next <|
  let ports := (List.range 4).filter (fun p => (s.twin p).isSome)
  if ports.isEmpty || decide (s.tb.frc < s.eth.supTx + 200000000) then s
  else ports.foldl (fun s p => s.emit (.eth p) .mark [0x88FB]) (s.updEth (fun e => { e with supTx := s.tb.frc }))

/-- SUPERVISION_MISSING: none for 3 intervals (R340). -/
def execSupervisionMissing (s : State) : Next := .next <|
  if (List.range 4).any (fun p => (s.twin p).isSome && decide (s.eth.supRx.getD (p / 2) 0 + 600000000 ≤ s.tb.frc)) then s.wr R.ES_STATUS_RED_ERR 1
  else s

/-! ### The route table (R326, R330) -/

/-- A field of a route entry. -/
def State.routeFld (s : State) (base e off n : Nat) : Nat := leNat (s.bytes (base + 32 * e + off) n)

/-- The valid entries of a table, ascending. -/
def State.routeValid (s : State) (base : Nat) : List Nat :=
  (((s.mem.filter (fun c => decide (base ≤ c.1) && decide (c.1 < base + 0x40000))).map (fun c => (c.1 - base) / 32)).eraseDups).filter
    (fun e => s.routeFld base e 0 2 % 2 == 1)

/-- DIR, KIND, URGENT, PCP and PORTS of a live entry. -/
def State.routeDir (s : State) (e : Nat) : Nat := bitsOf (s.routeFld Config.routeBase e 0 2) 1 1
def State.routeKind (s : State) (e : Nat) : Nat := bitsOf (s.routeFld Config.routeBase e 0 2) 2 1
def State.routeUrgent (s : State) (e : Nat) : Bool := bitOf (s.routeFld Config.routeBase e 0 2) 3
def State.routePcp (s : State) (e : Nat) : Nat := bitsOf (s.routeFld Config.routeBase e 0 2) 4 3
def State.routePorts (s : State) (e : Nat) : List Nat :=
  (List.range 6).filter (fun p => bitOf (s.routeFld Config.routeBase e 0 2) (8 + p))
def State.routeRing (s : State) (e : Nat) : Nat := s.routeFld Config.routeBase e 2 1
def State.routePeer (s : State) (e : Nat) : Nat := s.routeFld Config.routeBase e 8 2
def State.routeId (s : State) (e : Nat) : Nat := s.routeFld Config.routeBase e 0x14 2

/-- Two valid inbound entries of the shadow table share SRC_PLANT, ROUTE_ID and KIND (R330). -/
def State.routeDup (s : State) : Bool :=
  let b := Config.routeShadow
  let key (e : Nat) : Nat × Nat × Nat := (s.routeFld b e 8 2, s.routeFld b e 0x14 2, bitsOf (s.routeFld b e 0 2) 2 1)
  let ins := (s.routeValid b).filter (fun e => bitOf (s.routeFld b e 0 2) 1)
  ins.any (fun e => ins.any (fun f => e != f && key e == key f))

/-- Copy one table over the other. -/
def State.routeCopy (s : State) (src dst : Nat) : State :=
  let cells := s.mem.filter (fun c => decide (src ≤ c.1) && decide (c.1 < src + 0x40000))
  cells.foldl (fun s c => s.setByte (dst + (c.1 - src)) c.2) (s.clearMem dst (dst + 0x40000))

/-- Submit the shadow table for the next tick (R330) (DEDUCED, log entry 42). -/
def State.routeApply (s : State) : State :=
  if s.routeDup then ((s.wr R.ES_RT_STATUS_REFUSED 1).wr R.ES_RT_STATUS_PENDING 0).applyDone 0x40090200 0x0541
  else s.wr R.ES_RT_STATUS_PENDING 1

/-- ES_RT_APPLY (R330). -/
def execEsRtApply (s : State) : Next := .next s.routeApply

/-- The shadow copy is reloaded from the live table (DESIGN CHOICE, log entry 43). -/
def State.routeCancel (s : State) : State := 
  ((s.routeCopy Config.routeBase Config.routeShadow).wr R.ES_RT_STATUS_PENDING 0).applyDone 0x40090200 stCancelled

/-- ES_RT_CANCEL (R340). -/
def execEsRtCancel (s : State) : Next := .next s.routeCancel

/-! ### Fabric frames (R327 to R329) -/

/-- What the route engine holds of entry `e`. -/
def State.route (s : State) (e : Nat) : Route :=
  (s.eth.routes.find? (fun r => r.entry == e)).getD { entry := e, seqTx := 0, waiting := [], since := 0, seqRx := none, frames := 0, gaps := 0 }

/-- Set it. -/
def State.setRoute (s : State) (r : Route) : State :=
  s.updEth (fun e => { e with routes := r :: e.routes.filter (fun x => x.entry != r.entry) })

/-- A fabric frame leaves on entry `e` with a payload of `count` entries or messages (R328); a following unit only counts SEQ
(R351). -/
def State.fabricOut (s : State) (e count : Nat) (data : Bytes) : State :=
  let r := s.route e
  let vid := s.routeFld Config.routeBase e 10 2 % 4096
  let payload := leBytes 1 1 ++ leBytes 1 (s.routeKind e) ++ leBytes 2 (s.rd R.ES_PLANT) ++ leBytes 2 (s.routePeer e) ++
    leBytes 2 (s.routeId e) ++ leBytes 4 r.seqTx ++ leBytes 1 count ++ List.replicate 3 0 ++ data
  let f : EthFrame :=
    { dst := s.routeFld Config.routeBase e 12 6, src := Config.ownMac, tag := if vid = 0 then none else some (vid, s.routePcp e),
      etype := s.rd R.ES_RT_ETYPE, len := 18 + (if vid = 0 then 0 else 4) + payload.length, ptpEvent := false, supervision := false,
      redSeq := none, an := none, pn := 0, icvOk := true, payload }
  let s := s.setRoute { r with seqTx := (r.seqTx + 1) % 2 ^ 32, waiting := [], frames := r.frames + 1 }
  if s.canListens then s else s.ethSend (s.routePorts e) (if s.routeUrgent e then 7 else s.routePcp e) f

/-- The waiting entries of a route leave in a fabric frame. -/
def State.fabricFlush (s : State) (e : Nat) : State :=
  let w := (s.route e).waiting
  if w.isEmpty then s else s.fabricOut e w.length (w.flatMap id)

/-- FABRIC_FRAME_SEND (R327). -/
def execFabricFrameSend (entry : Nat) (s : State) : Next := .next (if s.fw.restarting.contains 3 then s else s.fabricFlush entry)

/-- The lowest outbound entry a ring entry matches (R327). -/
def State.routeMatch (s : State) (q : Nat) (data : Bytes) : Option Nat :=
  let word := leNat ((data.drop 2).take 2)
  (s.routeValid Config.routeBase).find? (fun e =>
    let mask := s.routeFld Config.routeBase e 6 2
    s.routeDir e == 0 && s.routeKind e == 0 && s.routeRing e == q && word &&& mask == s.routeFld Config.routeBase e 4 2 &&& mask)

/-- ROUTE_ENTRY_DRAIN: the oldest entry of an outbound ring that a valid outbound entry names is matched; a frame takes at most 22
(R327). -/
def execRouteEntryDrain (q : Nat) (s : State) : Next := .next <|
  if s.fw.restarting.contains 3 || !(s.routeValid Config.routeBase).any (fun e => s.routeDir e == 0 && s.routeKind e == 0 && s.routeRing e == q) then s
  else
    let (s, got) := s.ringTake q 1
    got.foldl (fun s data =>
      match s.routeMatch q data with
      | none => s.inc R.ES_RT_STATUS_NOROUTE
      | some e =>
        let s := if 22 ≤ (s.route e).waiting.length || decide ((s.route e).since + 2000 < s.tb.frc) then s.fabricFlush e else s
        let r := s.route e
        s.setRoute { r with waiting := r.waiting ++ [data], since := if r.waiting.isEmpty then s.tb.frc else r.since }) s

/-- An accepted ring entry goes onto its ring; one that finds it full is lost (R329). -/
def State.fabricPut (s : State) (q : Nat) (data : Bytes) : State :=
  match s.ringPut q data with
  | (s, .full) => s.inc R.ES_RT_STATUS_RINGFULL
  | (s, .undeclared) => s.emit (.core q) .frame [] data
  | (s, _) => s

/-- FABRIC_FRAME_RX (R328, R329): the checks, then the entries onto the ring, or the message to the ingest path. -/
def execFabricFrameRx (f : FabricFrame) (s : State) : Next := .next <|
  if f.dst != s.rd R.ES_PLANT || f.version != 1 then s
  else match (s.routeValid Config.routeBase).find? (fun e =>
      s.routeDir e == 1 && s.routePeer e == f.src && s.routeId e == f.route && s.routeKind e == f.kind) with
    | none => s
    | some e =>
      let r := s.route e
      let ahead := match r.seqRx with
        | none => 1
        | some l => (f.seq + 2 ^ 32 - l) % 2 ^ 32
      if ahead = 0 || 2 ^ 31 ≤ ahead then s.inc R.ES_RT_STATUS_OUTOFORDER
      else
        let s := s.setRoute { r with seqRx := some f.seq, frames := r.frames + 1, gaps := if ahead = 1 then r.gaps else r.gaps + 1 }
        if f.kind = 0 then f.entries.foldl (fun s d => s.fabricPut (s.routeRing e) d) s
        else f.entries.foldl (fun s d => s.ingestMessage (parseIngest d)) s

/-- ROUTE_TABLE_SWAP: at the tick the shadow table becomes the live one; matched entries leave under the old (R330). -/
def execRouteTableSwap (s : State) : Next := .next <|
  if !s.bit R.ES_RT_STATUS_PENDING then s
  else
    let s := s.toTick
    let s := (s.eth.routes.map (·.entry)).foldl (fun s e => s.fabricFlush e) s
    if s.routeDup then ((s.wr R.ES_RT_STATUS_REFUSED 1).wr R.ES_RT_STATUS_PENDING 0).applyDone 0x40090200 0x0541 else
    let s := (s.routeCopy Config.routeShadow Config.routeBase).wr R.ES_RT_STATUS_PENDING 0
    (s.wr R.ES_RT_STATUS_DONE 1).applyDone 0x40090200 0

/-- A unit that begins to send adds 2²⁰ to the SEQ of every outbound entry (R351). -/
def State.routesJump (s : State) : State :=
  ((s.routeValid Config.routeBase).filter (fun e => s.routeDir e == 0)).foldl (fun s e =>
    let r := s.route e
    s.setRoute { r with seqTx := (r.seqTx + 2 ^ 20) % 2 ^ 32 }) s

/-- INGEST_SEND: port `p`'s published sweep goes to its plant master over the outbound ingest entry for its DEST (R291, R326). -/
def execIngestSend (p : Nat) (s : State) : Next := .next <|
  if 8 ≤ p || !s.bit R.CH_ING_OUT_EN p || s.rd R.CH_SWEEPS p = 0 then s
  else match (s.routeValid Config.routeBase).find? (fun e =>
      s.routeDir e == 0 && s.routeKind e == 1 && s.routePeer e == s.rd R.CH_ING_OUT_DEST p) with
    | none => s
    | some e => (s.ingMessages p).foldl (fun s m => s.fabricOut e 1 m) s

end Sys2Proof.Machine
end

