-- ==== Sys2Proof/Machine/Ptp.lean ====
section
/-! DEFINITION. Network time (R333 to R339): stamps, the servo, and the links of the external ports.  Times are in units of
2⁻¹⁶ ns. -/

namespace Sys2Proof.Machine

open Sys2Proof

/-- Change one PTP port. -/
def State.updPtp (s : State) (p : Nat) (f : PtpPort → PtpPort) : State :=
  { s with ptp := { s.ptp with ports := updAt s.ptp.ports p f } }

/-- A corrected ingress stamp (R334). -/
def State.ptpIn (s : State) (p : Nat) (raw : Int) : Int := raw - s.rd R.PT_PORT_CORR_RX p * 65536

/-- A corrected egress stamp (R334). -/
def State.ptpOut (s : State) (p : Nat) (raw : Int) : Int := raw + s.rd R.PT_PORT_CORR_TX p * 65536

/-- delayAsymmetry, which IEEE 1588 takes off the stamps of a Sync or Pdelay_Resp that arrives and of a Delay_Req or Pdelay_Req that
leaves (R334) (PRESUMED, log entry 17). -/
def State.ptpAsym (s : State) (p : Nat) : Int := toInt 32 (s.rd R.PT_PORT_ASYM p)

/-- Send a PTP message: its type, the domain, the transport (R333) and what it carries. -/
def State.ptpSend (s : State) (p type : Nat) (xs : List Nat) : State :=
  s.emit (.eth p) .frame ([type, s.rd R.PT_CTRL_DOMAIN, if s.bit R.PT_CTRL_UDP && !s.bit R.PT_CTRL_PROFILE then 1 else 0] ++ xs)

/-! ### The servo (R336 to R338) -/

/-- PT_STATUS.STATE. -/
def State.servo (s : State) (st : Nat) : State := s.wr R.PT_STATUS_STATE st

/-- Begin to collect results. -/
def State.servoAcquire (s : State) : State := { s.servo 1 with ptp := { s.ptp with results := [] } }

/-- SERVO MODE and RESTEP change (R336, R337). -/
def State.servoCfg (s : State) (mode restep : Nat) : State :=
  let was := s.rd R.PT_SERVO_MODE
  let s := (s.wr R.PT_SERVO_MODE mode).wr R.PT_SERVO_RESTEP restep
  if mode % 2 = was then s
  else if mode % 2 = 0 then s.servo 0
  else
    let s := { s with ptp := { s.ptp with needStep := true, integral := 0, specRun := 0, largeRun := 0 } }
    if (List.range 4).any (fun p => s.rd R.PT_PORT_PSTATE p == 9) then s.servoAcquire else s.servo 0

/-- The mean of a list. -/
def meanInt (l : List Int) : Int := roundDiv l.sum l.length

/-- The step of the first lock: the master's time at an FRC 100,000 tb ahead, through the TB_TODSET registers (R336) (PRESUMED, log entry 17). -/
def State.servoStep (s : State) : State :=
  let at_ := s.tb.frc + 100000
  let u : Int := s.todUnits + 100000 * s.incUnits - meanInt s.ptp.results * 65536
  let n := u.toNat
  let s := s.wr64 R.TB_TODSET_SEC_LO R.TB_TODSET_SEC_HI (n / 2 ^ 32 / 1000000000)
  let s := (s.wr R.TB_TODSET_NS (n / 2 ^ 32 % 1000000000)).wr R.TB_TODSET_FRAC (n % 2 ^ 32)
  let s := s.wr64 R.TB_TODSET_AT_LO R.TB_TODSET_AT_HI at_
  { s.todArm s.todsetRegs with ptp := { s.ptp with needStep := false, integral := 0 } }

/-- The increment of the PI law: 10 ns less the law's rate (R336) (PRESUMED, log entry 17). -/
def State.servoInc (s : State) (off : Int) : Int :=
  let rate := toInt 32 (s.rd R.PT_SERVO_KP) * off + toInt 32 (s.rd R.PT_SERVO_KI) * s.ptp.integral
  42949672960 - roundDiv (10 * rate) 1000000000

/-- A new offset result while LOCKED: IN_SPEC and OFFSET_LARGE over 16 results, then the rate (R336, R338). -/
def State.servoLocked (s : State) (off : Int) : State :=
  let mag := off.natAbs
  if s.tb.step.isSome then s else
  let large := if s.rd R.PT_SERVO_RELOCK * 1000 * 65536 < mag then min 16 (s.ptp.largeRun + 1) else 0
  let s := { s with ptp := { s.ptp with largeRun := large, integral := s.ptp.integral + off } }
  let s := if large = 16 then s.wr R.PT_STATUS_OFFSET_LARGE 1 else s
  if large = 16 && s.bit R.PT_SERVO_RESTEP then
    { s.servoAcquire with ptp := { s.servoAcquire.ptp with needStep := true, largeRun := 0 } }
  else s.setInc (s.servoInc off).toNat

/-- The servo takes a result (R336); on a unit that follows its partner it rests (R344) (PRESUMED, log entry 17). -/
def State.servoResult (s : State) (off : Int) : State :=
  let s := s.wr R.PT_OFFSET (ofInt 32 (satInt 32 (roundDiv off 20480)))
  let spec := if off.natAbs ≤ s.rd R.PT_SERVO_LOCK_THR * 65536 then min 16 (s.ptp.specRun + 1) else 0
  let s := { s with ptp := { s.ptp with specRun := spec } }
  let s := s.wr R.PT_STATUS_IN_SPEC (if spec = 16 then 1 else 0)
  if s.rd R.PT_SERVO_MODE = 0 || s.pairOwns then s
  else match s.rd R.PT_STATUS_STATE with
    | 1 =>
      let s := { s with ptp := { s.ptp with results := s.ptp.results ++ [off] } }
      if s.ptp.results.length < 8 then s
      else
        let s := s.servo 2
        if s.ptp.needStep then s.servoStep else s
    | 2 => s.servoLocked off
    | 3 => s.servo 2
    | _ => s

/-- A Sync's t1 and t2 with a known path delay give an offset (PRESUMED, log entry 17). -/
def State.ptpOffset (s : State) (p : Nat) : State :=
  let x := s.ptp.ports.getD p PtpPort.reset
  match x.t1, x.t2, x.path with
  | some t1, some t2, some d => if s.rd R.PT_PORT_PSTATE p = 9 then s.servoResult (t2 - t1 - d) else s
  | _, _, _ => s

/-- The mean path delay is known (PRESUMED, log entry 17). -/
def State.ptpPath (s : State) (p : Nat) (d : Int) : State :=
  (s.updPtp p (fun x => { x with path := some d })).wr R.PT_PATH (roundDiv d 20480).toNat

/-- PTP runs on the port (R333); while the switch core restarts it misses its messages (R462). -/
def State.ptpOn (s : State) (p : Nat) : Bool :=
  decide (p < 4) && s.bit R.PT_CTRL_EN && s.bit R.PT_PORT_EN p && !s.fw.restarting.contains 3

/-- Peer-to-peer delay is in use: PROFILE 1 forces it. -/
def State.ptpP2P (s : State) : Bool := s.bit R.PT_CTRL_P2P || s.bit R.PT_CTRL_PROFILE

/-- The clock is never a master: a slave-only OC, alone or within a TC (R333). -/
def State.ptpMute (s : State) : Bool := s.bit R.PT_CTRL_SLAVE_ONLY || s.rd R.PT_CTRL_ROLE == 2

/-- An Announce: the port takes the state the best master clock algorithm gives it; a port in SLAVE is a master for the servo
(R336, R338). -/
def State.ptpAnnounce (s : State) (p pstate cls : Nat) : State :=
  if pstate = 6 && s.ptpMute then s
  else
    let s := s.wr R.PT_PORT_PSTATE pstate p
    if pstate = 9 then
      let s := { s.wr R.PT_STATUS_SLAVE_PORT p with ptp := { s.ptp with gmClass := cls } }
      if s.rd R.PT_SERVO_MODE = 0 then s
      else match s.rd R.PT_STATUS_STATE with
        | 0 => s.servoAcquire
        | 3 => s.servo 2
        | _ => s
    else if s.rd R.PT_STATUS_SLAVE_PORT = p then s.wr R.PT_STATUS_SLAVE_PORT 7 else s

/-- PTP_MESSAGE_RX: a message of the port's domain is stamped and used (R333, R334, R336). -/
def execPtpMessageRx (p domain : Nat) (m : PtpMsg) (s : State) : Next := .next <|
  if !s.ptpOn p || domain != s.rd R.PT_CTRL_DOMAIN then s
  else
    let x := s.ptp.ports.getD p PtpPort.reset
    match m with
    | .announce st c => s.ptpAnnounce p st c
    | .sync raw corr origin =>
      let s := s.updPtp p (fun x => { x with t2 := some (s.ptpIn p raw - s.ptpAsym p - corr), t1 := origin })
      if origin.isSome then s.ptpOffset p else s
    | .followUp origin corr => if x.t1.isSome then s else (s.updPtp p (fun x => { x with t1 := some (origin + corr) })).ptpOffset p
    | .delayResp t4 corr =>
      match x.t1, x.t2, x.t3 with
      | some t1, some t2, some t3 =>
        if s.ptpP2P then s else (s.ptpPath p (roundDiv ((t2 - t1) + (t4 - corr - t3)) 2)).ptpOffset p
      | _, _, _ => s
    | .delayReq raw => if s.ptpMute || s.ptpP2P then s else s.ptpSend p 9 [(s.ptpIn p raw).toNat]
    | .pdelayReq raw => s.updPtp p (fun x => { x with reqRx := some (s.ptpIn p raw) })
    | .pdelayResp raw corr t2 =>
      match x.p1 with
      | none => s
      | some p1 =>
        let p4 := s.ptpIn p raw - s.ptpAsym p
        match t2 with
        | none => s.ptpPath p (roundDiv (p4 - p1 - corr) 2)
        | some t2 => s.updPtp p (fun x => { x with p4 := some (p4 - corr), p2 := some t2 })
    | .pdelayRespFollowUp t3 corr =>
      match x.p1, x.p4, x.p2 with
      | some p1, some p4, some p2 => s.ptpPath p (roundDiv ((p4 - p1) - (t3 + corr - p2)) 2)
      | _, _, _ => s

/-- The clockClass announced (R339); ACQUIRING before the first lock is FREERUN's, and no class is stated for it after (PRESUMED, log entry 17). -/
def State.clockClass (s : State) : Nat :=
  match s.rd R.PT_STATUS_STATE with
  | 2 => s.ptp.gmClass
  | 3 => if (s.tb.frc - s.ptp.lostAt) / 100000000 < s.rd R.PT_SERVO_SPEC then 7 else 187
  | 0 => 248
  | _ => if s.ptp.needStep then 248 else s.freeVal % 256

/-- PTP_MESSAGE_TX: an event message leaves with the time inserted, or its follow-up is queued (R335); a Delay_Req or
Pdelay_Req keeps its corrected stamp. -/
def execPtpMessageTx (p : Nat) (m : PtpOut) (s : State) : Next := .next <|
  if !s.ptpOn p then s
  else
    let two := s.bit R.PT_CTRL_TWO_STEP
    match m with
    | .announce => if s.ptpMute then s else (s.ptpSend p 11 [s.clockClass, s.rd R.PT_UTC_OFFSET]).nextFree
    | .sync raw =>
      let t := (s.ptpOut p raw).toNat
      if s.ptpMute then s else if two then (s.ptpSend p 0 []).ptpSend p 8 [t] else s.ptpSend p 0 [t]
    | .delayReq raw => (s.updPtp p (fun x => { x with t3 := some (s.ptpOut p raw - s.ptpAsym p) })).ptpSend p 1 []
    | .delayResp => s.ptpSend p 9 []
    | .pdelayReq raw => (s.updPtp p (fun x => { x with p1 := some (s.ptpOut p raw - s.ptpAsym p) })).ptpSend p 2 []
    | .pdelayResp raw =>
      match (s.ptp.ports.getD p PtpPort.reset).reqRx with
      | none => s
      | some t2 =>
        let turn := (s.ptpOut p raw - t2).toNat
        if two then (s.ptpSend p 3 [t2.toNat]).ptpSend p 10 [(s.ptpOut p raw).toNat]
        else s.ptpSend p 3 [turn]
    | .forwardSync rawIn portIn raw =>
      if s.rd R.PT_CTRL_ROLE != 2 then s
      else
        let link := if s.ptpP2P then ((s.ptp.ports.getD portIn PtpPort.reset).path).getD 0 else 0
        let stay := (s.ptpOut p raw - s.ptpIn portIn rawIn + s.ptpAsym portIn + link).toNat
        if two then (s.ptpSend p 0 []).ptpSend p 8 [stay] else s.ptpSend p 0 [stay]

/-- PTP_MASTER_LOST: an announce or Sync timeout: HOLDOVER, the increment frozen; before the first lock FREERUN (R336); while the switch
core restarts the servo stays LOCKED (R462). -/
def execPtpMasterLost (s : State) : Next := .next <|
  if s.fw.restarting.contains 3 then s else
  let p := s.rd R.PT_STATUS_SLAVE_PORT
  let s := if p < 4 then s.wr R.PT_PORT_PSTATE 4 p else s
  let s := s.wr R.PT_STATUS_SLAVE_PORT 7
  match s.rd R.PT_STATUS_STATE with
  | 2 => { s.servo 3 with ptp := { s.ptp with lostAt := s.tb.frc } }
  | 1 => s.servo 0
  | _ => s

/-! ### Links (R320, R334) -/

/-- The corrections of a linked rate at a point (R334). -/
def ptpCorr (speed point : Nat) : Nat × Nat := if point = 1 then (0, 0) else if speed = 2 then (1488, 2240) else (216, 352)

/-- The stamp corrections of a plant port for its linked rate. -/
def State.loadCorr (s : State) (p : Nat) : State :=
  let c := ptpCorr (s.rd R.ES_PORT_CFG_SPEED_NOW p) (s.rd R.PT_PORT_POINT p)
  if s.bit R.ES_PORT_CFG_LINK p then (s.wr R.PT_PORT_CORR_TX c.1 p).wr R.PT_PORT_CORR_RX c.2 p else s

/-- PORT_LINK_CHANGE: a plant port links at 1 (1 Gbit/s) or 2 (2.5 Gbit/s), the service port at 4 (100 Mbit/s), 0 is down; at
link-up the stamp corrections of the rate are loaded (R320, R334). -/
def execPortLinkChange (p speed : Nat) (s : State) : Next := .next <|
  let forced := s.rd R.ES_PORT_CFG_SPEED p
  let ok := if p < 4 then decide (speed ≤ 2) && (speed == 0 || forced == 0 || forced == speed) else p == 6 && (speed == 0 || speed == 4)
  if !ok then s
  else
    let s := (s.wr R.ES_PORT_CFG_SPEED_NOW speed p).wr R.ES_PORT_CFG_LINK (if speed = 0 then 0 else 1) p
    if p < 4 then s.loadCorr p else s

end Sys2Proof.Machine
end

