-- ==== Sys2Proof/Machine/Transfers.lean ====
section
/-! DEFINITION. The transfer engine (R90, R116, R154, R216, R254, R256). -/

namespace Sys2Proof.Machine

open Sys2Proof

/-! ### Input images by logical item (R116) -/

/-- Bit `d` by logical item of a word by physical item; a logical item without a physical one has a free bit. -/
def State.logicalBits (s : State) (kind v : Nat) : Nat :=
  ofBits 32 (fun d => match s.physOf kind d with
    | some p => bitOf v p
    | none => bitOf s.freeVal d)

/-- The granule of logical channel `c`; a logical channel without a physical one has a free granule (DESIGN CHOICE, log entry 37). -/
def State.fgGranule (s : State) (c : Nat) : Bytes :=
  match s.physOf 1 c with
  | some p => ((s.lat.inFg.getD (p / 8) []).drop (32 * (p % 8))).take 32
  | none => leBytes 32 s.freeVal

/-- The 16-bit count of logical input `d` in the frozen image. -/
def State.count16 (s : State) (d : Nat) : Nat :=
  match s.physOf 2 d with
  | some p => leNat ((s.lat.inDio.drop (0x40 + 2 * p)).take 2)
  | none => s.freeVal % 65536

/-- The 128 bytes of DIO_IN by logical item (R254) (DESIGN CHOICE, log entry 37). -/
def State.dioLogical (s : State) : Bytes :=
  let w (off : Nat) : Nat := leNat ((s.lat.inDio.drop off).take 4)
  [0x00, 0x04, 0x08, 0x0C, 0x10, 0x14].flatMap (fun off => leBytes 4 (s.logicalBits 2 (w off))) ++
    (s.lat.inDio.drop 0x18).take 0x28 ++ (List.range 32).flatMap (fun d => leBytes 2 (s.count16 d))

/-! ### Mirrors (R154) -/

/-- What granule `granule` of logical channel `c` puts into the channel mirror. -/
def State.chanMirror (s : State) (c : Nat) (granule : Bytes) : List (Nat × Bytes) :=
  match s.physOf 1 c with
  | none => []
  | some p =>
    let a := 0x03030000 + 16 * c
    [(a, granule.take 8), (a + 8, leBytes 1 (s.rd R.CH_CFG_QM (p / 8) (p % 8))), (a + 12, leBytes 4 s.tb.frameNo)]

/-- What the first granule of DIO_IN puts into the pulse mirror: STATE and FRAME. -/
def State.stateMirror (s : State) (granule : Bytes) : List (Nat × Bytes) :=
  let v := leNat (granule.take 4)
  (List.range 32).flatMap (fun d =>
    if (s.physOf 2 d).isNone then [] else
      [(0x03030800 + 16 * d, leBytes 4 (bitsOf v d 1)), (0x03030800 + 16 * d + 12, leBytes 4 s.tb.frameNo)])

/-- The running count of logical input `d` at the tick: 0 unless the input is in count mode. -/
def State.countAtTick (s : State) (d : Nat) : Option Nat :=
  (s.physOf 2 d).map (fun p =>
    if !s.bit R.DIO_IN_CFG_COUNT_EN p then 0
    else
      let now := s.dio.count.getD p 0
      (now + 2 ^ 32 - (now + 2 ^ 32 - s.count16 d) % 2 ^ 16) % 2 ^ 32)

/-- The counts of the 16 inputs from `d0`. -/
def State.countMirror (s : State) (d0 : Nat) : List (Nat × Bytes) :=
  (List.range 16).filterMap (fun i => (s.countAtTick (d0 + i)).map (fun n => (0x03030800 + 16 * (d0 + i) + 4, leBytes 4 n)))

/-! ### XSTART (R90) -/

/-- The bytes an input descriptor moves, and the state after they are taken (DESIGN CHOICE, log entry 37). -/
def State.inputBytes (s : State) : XDesc → State × Bytes
  | .fgIn g _ => (s.nextFree, (List.range 8).flatMap (fun k => s.fgGranule (8 * g + k)))
  | .dioIn _ => (s.nextFree, s.dioLogical)
  | .canSnap p m _ => s.canSnapshot p m
  | .chainStat p _ => (s, s.lat.inChain.getD p [])
  | _ => (s, [])

/-- The private writes that go with granule `k` of an input transfer (R154, R348). -/
def State.mirrorWrites (s : State) (x : XDesc) (k : Nat) (granule : Bytes) : List (Nat × Bytes) :=
  let pair := s.timetable.any (fun m => m.shared.pair == 1)
  match x with
  | .fgIn g _ => s.chanMirror (8 * g + k) granule
  | .dioIn _ =>
    if k = 0 then s.stateMirror granule
    else if 2 ≤ k && !pair then s.countMirror (16 * (k - 2)) else []
  | _ => []

/-- An input descriptor puts its granules on the transfer bus. -/
def State.startInput (s : State) (x : XDesc) (start : Nat) : State :=
  let (s, data) := s.inputBytes x
  let s := match x with
    | .fgIn g a => { s with lat := { s.lat with inPlaces := (g, a) :: s.lat.inPlaces } }
    | .dioIn a => { s with lat := { s.lat with inPlaces := (12, a) :: s.lat.inPlaces } }
    | _ => s
  (List.range (xGranules x)).foldl (fun s k =>
    let gr := (data.drop (32 * k)).take 32
    let s := s.bus (start + 8 + k) true (.store 1 (xAddr x + 32 * k) gr)
    (s.mirrorWrites x k gr).foldl (fun s w => s.bus (start + 8 + k) true (.priv w.1 w.2)) s) s

/-- An output descriptor reads its granules from the banks, `ecc` naming the granules that meet an ECC event (R72). -/
def State.startOutput (s : State) (x : XDesc) (start : Nat) (ecc : List (Nat × Ecc)) : State :=
  (List.range (xGranules x)).foldl (fun s k => s.bus (start + 8 + k) false (.gather start (xAddr x + 32 * k) (eccAt ecc k))) s

/-- A descriptor names a group or port that exists, within the limits of R90. -/
def xNamed : XDesc → Bool
  | .fgIn g _ => decide (g < 12)
  | .fgOut g _ => decide (g < 12)
  | .dioIn _ => true
  | .dioOut _ => true
  | .canSnap p m _ => decide (p < 8) && decide (m ≤ 256)
  | .chainStat p _ => decide (p < 8)

/-- The busy interval lies in its phase (check 0x3116). -/
def State.xPhase (s : State) (x : XDesc) (start done : Nat) : Bool :=
  match s.timetable with
  | none => false
  | some m => if xInput x then decide (done ≤ m.decl.inEnd) else decide (m.decl.outStart ≤ start) && decide (done ≤ m.decl.outEnd)

/-- XSTART: the descriptor delivered at cycle s moves its granules from s + 8 on and is busy until s + 8 + n (R90). -/
def execXstart (at_ : Issue) (m : Mesh) (x : XDesc) (ecc : List (Nat × Ecc)) (s : State) : Next :=
  let start := meshAt m at_.t
  let done := start + 8 + xGranules x
  s.issue at_ (firstBad (s.meshOk at_.tile m (attachAt attachXfer) ++
      [(0x310E, xAddr x % 32 == 0 && decide (xAddr x + 32 * xGranules x ≤ Config.bankEnd)),
       (0x3115, xNamed x && s.lat.xfers.all (fun y => decide (y.done ≤ start) || decide (done ≤ y.start))),
       (0x3116, s.xPhase x start done), s.cycleOk done])) (fun s =>
    let s := if xInput x then s.startInput x start else s.startOutput x start ecc
    { s with lat := { s.lat with xfers := s.lat.xfers ++ [{ desc := x, start, done, data := [] }] } })

/-! ### TRANSFER_COMPLETE (R90, R215, R256, R515) -/

/-- An output block crosses to the groups of its channels: each physical channel holds its granule's VALUE and OFLAGS, and
whether the first copy arrived valid; an invalid copy counts once in each group it was for (R515). -/
def State.fgOutDone (s : State) (g : Nat) (data : Bytes) (ok : Bool) : State :=
  let phys := (List.range 8).filterMap (fun k => (s.physOf 1 (8 * g + k)).map (fun p => (k, p)))
  let s := phys.foldl (fun s kp =>
    let gr := data.drop (32 * kp.1)
    s.updChan kp.2 (fun c => { c with xfer := some (leNat (gr.take 4), leNat ((gr.drop 4).take 4)), copyOk := ok })) s
  if ok then s else ((phys.map (fun kp => kp.2 / 8)).eraseDups).foldl State.crossFail s

/-- A word by physical output of a word by logical output, with `rest` for an output no logical item names; DO28 to DO31 are never mapped (R256). -/
def State.physicalBits (s : State) (rest : Bool) (v : Nat) : Nat :=
  ofBits 32 (fun o => if 28 ≤ o then bitOf v o
    else match (List.range 28).find? (fun l => s.physOf 3 l == some o) with
      | some l => bitOf v l
      | none => rest)

/-- TRANSFER_COMPLETE: the descriptor in progress is complete; `ok` says whether the first copy of an output block crosses
valid. -/
def execTransferComplete (ok : Bool) (s : State) : Next := .next <|
  match s.lat.xfers with
  | [] => s
  | x :: _ =>
    let s := (s.toCycle x.done).settle x.done
    match s.lat.xfers with
    | [] => s
    | x :: xs =>
      let s := { s with lat := { s.lat with xfers := xs } }
      match x.desc with
      | .fgOut g _ => s.fgOutDone g x.data ok
      | .dioOut _ =>
        { s with dio := { s.dio with
            xfer := some (s.physicalBits false (leNat (x.data.take 4)), s.physicalBits true (leNat ((x.data.drop 4).take 4))), sent := false } }
      | _ => s

end Sys2Proof.Machine
end

