-- ==== Sys2Proof/Machine/RunInit.lean ====
section
/-! DEFINITION. What a start of RUN loads (R134, R145, R174, R200, R256) and how the tiles begin a frame (R71, R105). -/

namespace Sys2Proof.Machine

open Sys2Proof

/-! ### Loads of a start -/

/-- The MRAM copy belongs to the image and region of the admitted base (R144) (DEDUCED, log entry 79). -/
def State.mramMatches (s : State) (b : Image) : Bool :=
  s.tt.mram == some { image := b.id, addr := b.shared.retAddr, size := b.shared.retSize }

/-- Every byte the sections leave out is 0; then BANKINIT and ENGINE, and the effective values of the mode word (R114, R145,
R200). -/
def State.loadImage (s : State) (b : Image) : State :=
  let s := ((s.clearMem Config.bankBase Config.bankEnd).clearMem Config.storeBase 0x02800000).clearMem Config.loopBase Config.loopEnd
  let s := (baseCells b).foldl (fun s c => s.setBytes c.1 c.2) s
  (s.deltaFor b 0 (s.rd R.TT_MODE_CUR_ACTIVE)).foldl (fun s w => s.setBytes w.addr w.data) s

/-- Data SRAM of the logical tiles from the image's DATA sections (R145). -/
def State.loadSram (s : State) (b : Image) : State :=
  (List.range 32).foldl (fun s l =>
    let a := Config.sramBase (s.physTile l)
    let s := s.clearMem a (a + 0x20000)
    (b.data.filter (fun d => d.1 == l)).foldl (fun s d => s.setBytes a d.2) s) s

/-- The retentive region of a WARM or COLD start (R144, R145) (DEDUCED, log entry 79). -/
def State.loadRetentive (s : State) (b : Image) (warm : Bool) : State :=
  if b.shared.retSize = 0 then s.wr R.TT_RET_STATUS_RESTORED 0
  else if warm && s.mramMatches b then
    let lo := Config.mramBase
    let cells := s.mem.filter (fun c => decide (lo ≤ c.1) && decide (c.1 < lo + b.shared.retSize))
    let s := s.clearMem b.shared.retAddr (b.shared.retAddr + b.shared.retSize)
    (cells.foldl (fun s c => s.setByte (b.shared.retAddr + (c.1 - lo)) c.2) s).wr R.TT_RET_STATUS_RESTORED 1
  else
    let s := (s.wr R.TT_RET_STATUS_RESTORED 0)
    let s := if warm then s.wr R.TT_RET_STATUS_MISMATCH 1 else s
    { s with tt := { s.tt with coldCopy := some s.regionCells } }

/-- PEND.FIRST is set in every loop record (R174). -/
def State.firstAll (s : State) : State :=
  (List.range 512).foldl (fun s r => let a := 0x03000000 + 256 * r + 0xA0; s.setByte a (s.byte a ||| 1)) s

/-- Every output item of the frame output image asks for its safe value (R134, R256). -/
def State.safeRequests (s : State) (m : Image) : State :=
  let ops := m.code.flatMap (fun c => c.bundles.flatMap (fun b => b.map (·.2)))
  ops.foldl (fun s o => match o with
    | .xstart _ (.fgOut _ a) => (List.range 8).foldl (fun s k => let x := a + 32 * k + 4; s.setByte x (s.byte x ||| 1)) s
    | .xstart _ (.dioOut a) => s.setWord (a + 4) 0xFFFFFFFF
    | _ => s) s

/-- The memories of a start of kind `kind` (R145). -/
def State.loadStart (s : State) (b : Image) (kind : Nat) : State :=
  let s := if kind = 2 then s.wr R.TT_RET_STATUS_RESTORED 0
    else
      -- the records not yet folded belong to the copy before it is read (R142)
      let s := s.foldAll
      ((s.loadImage b).loadSram b).loadRetentive b (kind == 0)
  let s := s.wr R.TT_RET_STATUS_DIRTY_MAX 0
  let m := (s.timetable).getD b
  s.firstAll.safeRequests m

/-- A start under AUTORUN has reached RUN: its time since the start, ms (R456, R473) (DEDUCED, log entry 52). -/
def State.runMs (s : State) : State :=
  if s.fw.auto then
    { s.wr R.BT_LAST_RUN_MS (min 65535 ((s.tb.frc - s.fw.bootAt) / 100000)) with fw := { s.fw with auto := false } }
  else s

/-! ### Tiles at cycle 0 (R71, R105) -/

/-- Every logical tile, and every spare that shadows one, begins at the ENTRY bundle of its stream in the timetable in force; a tile without a stream has
nothing to end (R96, R105). -/
def State.restartTiles (s : State) (m : Image) : State :=
  (List.range 32).foldl (fun s l =>
    let c := (m.code[l]?).filter (fun c => !c.bundles.isEmpty)
    (s.runners l).foldl (fun s p => (s.landAll p).updTile p (fun x => { x with
      cycle := 0, bundle := (c.map (·.entry)).getD 0, loops := [], branch := none, idle := 0, ended := if c.isNone then some 0 else none, divFree := 0 })) s) s

/-- A frame begins: nothing is on the bus but, under a pair image, EXCH taking the exchange region at the exchange start (R91); no marker is posted, no
digest sealed; what the delta writes before the tick absorbed
opens the stream (R92, R352); a shadow's entry ends with its frame (R96). -/
def State.newFrame (s : State) : State :=
  let s := { s with
    lat := { s.lat with
      bus := [], calls := [], xfers := [], marker := false, markerLate := false, suppress := s.lat.suppressNext, suppressNext := false,
      lastDigest := s.lat.sealed, sealed := none, absorbed := [], preItems := s.lat.deltaItems, deltaItems := [], inPlaces := [], region := none
      shadows := s.lat.shadows.filter (fun x => decide (s.tb.frameNo ≤ x.frame)) }
    tt := { s.tt with capture := [] } }
  match s.timetable with
  | some m =>
    let s := if m.shared.pair = 1 then s.bus m.decl.exStart false .freeze else s
    s.restartTiles m
  | none => s

end Sys2Proof.Machine
end

