-- ==== Sys2Proof/Machine/Pair.lean ====
section
/-! DEFINITION. Redundant pairs: the pair lines and the drive rule (R341 to R343), the exchange (R91, R346 to R350), the digest
messages (R33, R344, R354, R355), and the commitments taken from them (R123, R361). -/

namespace Sys2Proof.Machine

open Sys2Proof

/-! ### Lines and roles -/

/-- The unit number: 0 A, 1 B (R341). -/
def State.unitNo (s : State) : Nat := s.rd R.PA_STATUS_UNIT

/-- This unit is the PREFERRED one (R371). -/
def State.preferred (s : State) : Bool := s.rd R.PA_CFG_PREFERRED == s.unitNo

/-- What a channel's terminal carries: the stage's level while the stages drive; a group in fallback also reads the partner's
DRIVE line itself (R343). -/
def State.terminal (s : State) (ch : Nat) : Drive :=
  if !s.driving || (s.bit R.FG_STATUS_FALLBACK (ch / 8) && s.bit R.PA_STATUS_PARTNER_DRIVE) then Drive.off
  else (s.chans.getD ch Chan.reset).drive

/-- The HEALTHY line: asserted in RUN while no power-fail warning is in force (R342). -/
def State.healthy (s : State) : Bool := s.inRun && !s.bit R.SS_STATUS_PFW

/-- The unit may take over from its partner (R356). -/
def State.eligible (s : State) : Bool :=
  (s.role == .standby && s.pair.test.isNone) ||
    (s.role == .syncing && s.pair.mixed && decide (s.rd R.PA_MIXED_MIN ≤ s.pair.mixedRun) && s.bit R.PA_CFG_MIXED_FAILOVER)

/-- The code of a role in PA_STATUS and the digest message. -/
def Role.code : Role → Nat
  | .solo => 0 | .syncing => 1 | .active => 2 | .standby => 3

/-- Change of `driving` dates the drive. -/
def State.driveDated (s : State) (was : Bool) : State :=
  if s.driving && !was then { s with pair := { s.pair with driveAt := s.tb.frc } } else s

/-- The unit takes a role: its CAN ports follow (R314), and a unit that begins to send raises its route sequence numbers
(R351). -/
def State.setRole (s : State) (r : Role) : State :=
  let was := s.driving
  let heard := s.canListens
  let t := { s with role := r }
  let t := t.driveDated was
  let t := if heard == t.canListens then t else t.canRoles
  if t.inRun && (r == .active || (r == .solo && t.driving)) then t.routesJump else t

/-- What moves to a unit at the tick at which it takes over or receives a handover (R360): the gated entries mirrored before
its own, the chains, and with the role the outputs, CAN ports and routes. -/
def State.takeActive (s : State) (r : Role) : State := ((s.ungate).setRole r).chainTakeover

/-- PARTNER_HEALTHY_CHANGE (R342). -/
def execPartnerHealthyChange (on : Bool) (s : State) : Next := .next (s.wr R.PA_STATUS_PARTNER_HEALTHY (if on then 1 else 0))

/-- PARTNER_MARK_PULSE (R342). -/
def execPartnerMarkPulse (s : State) : Next := .next { s with pair := { s.pair with markAt := some s.tb.frc } }

/-- PARTNER_DRIVE_CHANGE: the own stages follow R343; of two units that assert DRIVE within 1 µs the one that is not PREFERRED
withdraws and sets DRIVE_TIE, the other keeps driving. -/
def execPartnerDriveChange (on : Bool) (s : State) : Next := .next <|
  let was := s.driving
  let tie := on && was && s.role == .solo && decide (s.tb.frc < s.pair.driveAt + 100)
  let s := if on && s.sup.keep then { s with sup := { s.sup with keep := false } }.safeLine true else s
  let t := s.wr R.PA_STATUS_PARTNER_DRIVE (if on then 1 else 0)
  if !on then { t with pair := { t.pair with hold := false } }.driveDated was
  else if tie && s.preferred then { t with pair := { t.pair with hold := true } }
  else
    let t := { t with pair := { t.pair with hold := s.pair.hold && !tie } }
    if tie then t.wr R.PA_EVENTS_DRIVE_TIE 1 else t

/-- PARTNER_LINK_CHANGE: link k is port 4 + k of the switch (R320, R341). -/
def execPartnerLinkChange (k : Nat) (up : Bool) (s : State) : Next := .next <|
  if 2 ≤ k then s else (s.wr R.ES_PORT_CFG_LINK (if up then 1 else 0) (4 + k)).pairLinks

/-- A partner link is up. -/
def State.linkUp (s : State) : Bool := s.bit R.PA_STATUS_LINK0 || s.bit R.PA_STATUS_LINK1

/-- A message of the management path leaves (R343). -/
def State.path (s : State) (args : List Nat) (data : Bytes := []) : State := s.emit .partner .path args data

/-! ### Exchange (R91, R346 to R349) -/

/-- The loaded image's pair declaration, in RUN. -/
def State.pairImage (s : State) : Option Image :=
  if s.inRun then s.timetable.filter (fun m => m.shared.pair == 1) else none

/-- A handover that this unit will propose in the frame in progress (R361). -/
def State.proposeH (s : State) : Bool := s.role == .active && s.rd R.PA_HANDOVER_STATE == 1 && s.pair.hFrame == s.tb.frameNo + 2

/-- The mode switch proposed in the frame in progress: its mode word and hash (R123). -/
def State.proposed (s : State) : Option (Nat × Nat) :=
  if s.role = .active then
    match s.tt.switch with
    | some w =>
      if s.rd R.TT_MODE_STATUS_STATE = 3 && w.proposed && w.frame = some (s.tb.frameNo + 2) then some (w.active + 2 ^ 16 * w.mirror, w.hash)
      else none
    | none => none
  else if s.canListens then s.pair.exch.bind (·.switch) else none

/-- The pair block of R347 with the unit's own values. -/
def State.pairBlock (s : State) : Bytes :=
  let active := s.role == .active
  let h := s.rd R.PA_HANDOVER_STATE == 2
  let flags := (if active then 1 else 0) + (if s.pair.mixed then 2 else 0) + 4 * s.unitNo + (if h then 8 else 0)
  leBytes 8 s.tb.frameNo ++ leBytes 8 s.tb.pairTick ++ leBytes 4 s.modeWord ++ leBytes 4 flags ++ leBytes 4 (s.rd R.TT_IMG_ID) ++
    leBytes 4 (s.rd R.TT_IMG_VER) ++ leBytes 8 (if h || s.rd R.PA_HANDOVER_STATE == 1 then s.pair.hFrame else 0) ++ leBytes 24 0

/-- The exchange region as EXCH took it at the exchange start, with the pair block filled in (R91, R347). -/
def State.ownRegion (s : State) (m : Image) : Bytes := (s.pairBlock ++ (s.lat.region.getD []).drop 64).take m.shared.exSize

/-- Granules of the exchange region meet ECC events as EXCH reads them (R72). -/
def State.regionEcc (s : State) (m : Image) (ecc : List (Nat × Ecc)) : State :=
  ecc.foldl (fun s (k, e) =>
    if m.shared.exSize ≤ 32 * k then s
    else
      let r := s.lat.region.getD []
      let (s, data) := s.eccData e ((r.drop (32 * k)).take 32)
      { s.bankEcc (s.target (m.shared.exAddr + 32 * k)) e with
        lat := { s.lat with region := some (r.take (32 * k) ++ data ++ r.drop (32 * k + 32)) } }) s

/-- ACTIVE proposes the switch whose boundary opens the frame after the next (R119, R123). -/
def State.propose (s : State) : State :=
  match s.switchAhead with
  | some w => { s with tt := { s.tt with switch := some { w with frame := some (s.tb.frameNo + 2), proposed := true } } }
  | none => s

/-- INTAKE of the frame in progress (R349). -/
def State.intakeNow (s : State) : List Nat :=
  s.lat.rings.map (fun r => (r.gated.takeWhile (fun e => decide (e.at_ + 8 * 3000 < 8 * s.tb.lastTick))).length)

/-- LAST_FRC and SEQ_NEXT of port `p` (R346). -/
def State.canMark12 (s : State) (p : Nat) : Bytes :=
  let c := s.canPort p
  leBytes 8 c.lastSnap ++ leBytes 4 ((c.snaps.head?.map (·.seq)).getD ((c.seq + 1) % 2 ^ 32))

/-- The exchange message (R346). -/
def State.exchangeBytes (s : State) (m : Image) (intake : List Nat) : Bytes :=
  let h := s.proposeH
  let flags := (if h then 1 else 0) + (if s.pair.mixed then 2 else 0)
  let sw := match s.proposed with
    | some (w, hash) => leBytes 4 1 ++ leBytes 4 w ++ leBytes 8 0 ++ leBytes 48 hash
    | none => leBytes 64 0
  let cans := (List.range 8).flatMap s.canMark12
  leBytes 2 0x0D02 ++ leBytes 1 s.unitNo ++ leBytes 1 flags ++ leBytes 4 (448 + m.shared.exSize) ++ leBytes 8 s.tb.frameNo ++
    leBytes 8 s.tb.pairTick ++ leBytes 8 (if h then s.pair.hFrame else 0) ++ cans ++ intake.flatMap (leBytes 2) ++ sw ++ s.ownRegion m

/-- INPUT_EXCHANGE_SEND: the ACTIVE unit's EXCH sends the exchange message at cycle x; `ecc` names the granules of the region that meet an ECC
event (R72, R91, R346). -/
def execInputExchangeSend (ecc : List (Nat × Ecc)) (s : State) : Next := .next <|
  match s.pairImage with
  | none => s
  | some m =>
    if s.role != .active || s.pair.cut || decide (s.tb.lastTick + m.decl.exStart / 8 < s.tb.frc) then s
    else
      let s := (((s.toCycle m.decl.exStart).settleThrough m.decl.exStart).regionEcc m ecc).propose
      let intake := s.intakeNow
      let s := { s with pair := { s.pair with intake } }
      s.emit .partner .exchange [m.decl.exStart] (s.exchangeBytes m intake)

/-- A following unit keeps its snapshot buffers in step: frames its partner has delivered go, SEQ follows (R350). -/
def State.canCut (s : State) (can : List (Nat × Nat)) : State :=
  (List.range 8).foldl (fun s p =>
    let (last, seq) := can.getD p (0, 0)
    s.updCan p (fun c =>
      let gone (x : CanSnap) : Bool := decide ((x.frc : Int) - roundDiv s.pair.delta 32 ≤ last + 10)
      let kept := c.snaps.filter (fun x => !gone x)
      { c with
        snaps := kept.mapIdx (fun i x => { x with seq := (seq + i) % 2 ^ 32 })
        seq := (seq + kept.length + 2 ^ 32 - 1) % 2 ^ 32
        frozen := { c.frozen with count := ((c.snaps.take c.frozen.count).filter (fun x => !gone x)).length } })) s

/-- EXCHANGE_MESSAGE_RX: a unit that follows buffers the message of the frame (R348, R350). -/
def execExchangeMessageRx (m : ExchMsg) (s : State) : Next := .next <|
  if !m.ok || !s.canListens || !s.inRun || m.unit == s.unitNo || s.pair.exch.isSome || m.frameNo != s.tb.frameNo || s.pair.cut then s
  else { s with pair := { s.pair with exch := some m } }.canCut m.can

/-- The private writes that go with granule address `a` of the copy at the cut-over: channel and pulse mirrors from what is written
back (R348). -/
def State.cutMirrors (s : State) (a : Nat) (granule : Bytes) : List (Nat × Bytes) :=
  s.lat.inPlaces.flatMap (fun (g, base) =>
    if a < base then []
    else
      let k := (a - base) / 32
      if g < 12 then (if k < 8 then s.chanMirror (8 * g + k) granule else [])
      else if k = 0 then s.stateMirror granule
      else if k = 2 || k = 3 then
        (List.range 16).flatMap (fun i =>
          let d := 16 * (k - 2) + i
          if (s.physOf 2 d).isNone then []
          else
            let x := 0x03030800 + 16 * d + 4
            let count := s.word x
            let c16 := leNat ((granule.drop (2 * i)).take 2)
            [(x, leBytes 4 (count + (c16 + 2 ^ 32 - count) % 2 ^ 16))])
      else [])

/-- The counted entries of every gated ring are released at the end of the cut-over cycle `c` (R349). -/
def State.release (s : State) (c : Nat) (intake : List Nat) : State :=
  { s with lat := { s.lat with rings := s.lat.rings.mapIdx (fun q r =>
      let n := intake.getD q 0
      { r with entries := r.entries ++ (r.gated.take n).map (fun e => { e with at_ := s.absCycle c }), gated := r.gated.drop n }) } }

/-- EXCHANGE_CUTOVER: at cycle c EXCH writes the message's region, or the own one, back into the banks, granule k at c + k, with
the mirrors of the loop engine (R91, R347, R348); a unit that follows and holds no message counts EXCH_MISS and marks its inputs
as its own.  `ecc` names the granules of its own region that met an ECC event where it is not ACTIVE (R72). -/
def execExchangeCutover (ecc : List (Nat × Ecc)) (s : State) : Next := .next <|
  match s.pairImage with
  | none => s
  | some m =>
    if s.pair.cut || decide (s.tb.lastTick + m.decl.cutOver / 8 < s.tb.frc) then s
    else
      let c := m.decl.cutOver
      let s := (s.toCycle c).settle c
      let s := if s.role == .active then s else s.regionEcc m ecc
      let s := { s with pair := { s.pair with cut := true } }
      let got := if s.canListens then s.pair.exch else none
      let miss := s.canListens && got.isNone
      let s := if miss then { (s.wr R.PA_EVENTS_EXCH_MISS 1).inc R.PA_EXCH_MISS with pair := { s.pair with ownInputs := true } } else s
      let region := match got with
        | some x => x.region
        | none => s.ownRegion m
      let s := (List.range ((m.shared.exSize + 31) / 32)).foldl (fun s k =>
        let a := m.shared.exAddr + 32 * k
        let gr := (region.drop (32 * k)).take 32
        let s := s.bus (c + k) true (.store 1 a gr)
        (s.cutMirrors a gr).foldl (fun s w => s.bus (c + k) true (.priv w.1 w.2)) s) s
      match s.role with
      | .active => s.release c s.pair.intake
      | .solo => s
      | _ => s.release c ((got.map (·.intake)).getD [])

/-- GATED_RING_MIRROR_RX: an entry mirrored by the ACTIVE unit waits for its release; one on a ring the own image does not declare
inbound is discarded (R349, R367). -/
def execGatedRingMirrorRx (q : Nat) (entry : Bytes) (s : State) : Next := .next <|
  let r := s.ring q
  if !s.canListens || 128 ≤ q || r.depth = 0 || r.dir != 0 || decide (r.depth ≤ r.entries.length + r.gated.length) then s
  else s.updRing q (fun r => { r with gated := r.gated ++ [{ at_ := s.absNow, data := pad64 entry }] })

/-! ### Digest messages (R33, R344, R354) -/

/-- The unit is one that a digest message of its partner is compared with: both in lockstep roles (R355). -/
def State.lockstep (s : State) (partner : Nat) : Bool :=
  !s.pair.mixed && match s.role with
    | .active => partner == 3 || (partner == 1 && s.pair.compared)
    | .standby => partner == 2
    | .syncing => partner == 2 && s.pair.compared
    | .solo => false

/-- READY_SWITCH: this unit holds PREPARED with the proposed hash (R123). -/
def State.readySwitch (s : State) : Bool :=
  match s.proposed, s.tt.switch with
  | some (_, h), some w => (s.rd R.TT_MODE_STATUS_STATE == 2 || s.rd R.TT_MODE_STATUS_STATE == 3) && w.hash == h
  | _, _ => false

/-- A handover proposed in the frame in progress, by this unit or by its partner (R361): the frame it opens. -/
def State.handoverSeen (s : State) : Option Nat :=
  if s.role = .active then (if s.proposeH then some s.pair.hFrame else none)
  else match s.pair.exch with
    | some x => if bitOf x.flags 0 && x.handoverFrame == s.tb.frameNo + 2 then some x.handoverFrame else none
    | none => none

/-- The unit to which ACTIVE would move is eligible, or a SYNCING unit of a mixed pair that has run MIXED_MIN frames (R361). -/
def State.handoverFit (s : State) : Bool :=
  let follower := if s.role = .active then s.rd R.PA_STATUS_PARTNER_ROLE else s.role.code
  if s.pair.mixed then follower == 1 && decide (s.rd R.PA_MIXED_MIN ≤ s.pair.mixedRun)
  else follower == 3 && s.pair.test.isNone

/-- READY_HANDOVER (R361). -/
def State.readyHandover (s : State) : Bool := s.handoverSeen.isSome && s.handoverFit

/-- The start cycle of checkpoint k's end: (k + 1) × ⌊G ÷ 16⌋ (R354). -/
def State.ckpt (s : State) (k : Nat) : Nat :=
  -- the first two bytes of the hash, which `digestAt` gives as its low bytes
  s.digestAt ((k + 1) * (s.G / 16)) % 65536

/-- The frame's digest; a unit that has sealed none sends a free value. -/
def State.ownDigest (s : State) : Nat :=
  match s.lat.sealed with
  | some d => d
  | none => s.freeVal % 2 ^ 256

/-- The FLAGS of a digest message (R354). -/
def State.digestFlags (s : State) : Nat :=
  let b (i : Nat) (x : Bool) : Nat := if x then 2 ^ i else 0
  b 0 s.readySwitch + b 1 s.readyHandover + b 2 s.pair.ownInputs + b 3 s.pair.mixed + b 4 s.pair.test.isSome +
    b 5 (s.pair.testOwn == some false) + b 6 s.pair.testOwn.isSome

/-- DIGEST_SEND: at cycle G the unit sends its digest message on both partner links; `tx` is its egress stamp in 1/32 tb (R33,
R354). -/
def execDigestSend (tx : Nat) (s : State) : Next := .next <|
  if !s.bit R.PA_CFG_EN || !(s.inRun || s.pair.joining) then s
  else
    let s := (s.toCycle s.G).settle s.G
    let next := s.nextTick
    let tod := ((s.todUnits : Int) + ((next : Int) - s.tb.frc) * s.incUnits).toNat
    let data := leBytes 2 0x0D01 ++ leBytes 1 s.unitNo ++ leBytes 1 s.role.code ++ leBytes 4 s.digestFlags ++ leBytes 8 s.tb.frameNo ++
      leBytes 32 s.ownDigest ++ leBytes 8 tx ++ leBytes 8 s.pair.rxPrev ++ leBytes 8 next ++ leBytes 8 (tod / 2 ^ 32 / 1000000000) ++
      leBytes 4 (tod / 2 ^ 32 % 1000000000) ++ leBytes 4 tod ++ leBytes 4 (s.rd R.TT_IMG_ID) ++ leBytes 4 (s.rd R.TT_IMG_VER) ++
      (List.range 16).flatMap (fun k => leBytes 2 (s.ckpt k))
    let s := if s.lat.sealed.isNone then s.nextFree else s
    let s := { s with pair := { s.pair with tx } }
    if s.linkUp then s.emit .partner .digest [s.tb.frameNo, next] data else s

/-- Δ and d from the two messages of the previous frame, once this message brings the partner's ingress stamp (R344); Δ is
extrapolated to the partner's NEXT_TICK at the rate over the last 16 frames (DEDUCED, log entry 18). -/
def State.pairAlign (s : State) (m : DigestMsg) : State :=
  let x := s.pair
  let s := if x.txOld = 0 || x.rxPrev = 0 || x.txPartner = 0 || m.rxPrev = 0 then s
    else
      let a : Int := (x.rxPrev : Int) - x.txPartner
      let b : Int := (m.rxPrev : Int) - x.txOld
      let delta := roundDiv (a - b) 2
      let s := (s.wr R.PA_OFFSET (ofInt 32 (satInt 32 delta))).wr R.PA_LINKDELAY (min (2 ^ 32 - 1) (roundDiv (a + b) 2).toNat)
      { s with pair := { s.pair with offsets := ((x.rxPrev, delta) :: x.offsets).take 17, delta } }
  if !s.following then s
  else match s.pair.offsets with
    | [] => s
    | (t, d) :: rest =>
      let at_ : Int := m.nextTick * 32 + d
      let d := match rest.getLast? with
        | some (t0, d0) => if t0 < t then d + roundDiv ((d - d0) * (at_ - t)) ((t : Int) - t0) else d
        | none => d
      { s with pair := { s.pair with next := some (roundDiv (m.nextTick * 32 + d) 32).toNat, delta := d } }

/-- How the partner's message compares with the own digest (R355). -/
inductive Outcome where
  | agree | mismatch | none
  deriving DecidableEq, Repr

/-- The comparison of a message with the unit's own frame `n` (R355). -/
def State.compareMsg (s : State) (n : Nat) (m : DigestMsg) : Outcome :=
  if !s.lockstep m.role || bitOf m.flags 3 || bitOf m.flags 2 || s.pair.ownInputs then .none
  else if m.frameNo == n && some m.digest == s.lat.sealed then .agree
  else .mismatch

/-- The commitments of frame N − 2 from both messages (R123, R361). -/
def State.commit (s : State) (m : DigestMsg) : State :=
  let out := s.compareMsg s.tb.frameNo m
  let frame := s.tb.frameNo + 2
  let s := match s.proposed with
    | none => s
    | some _ =>
      if out == Outcome.agree && s.readySwitch && bitOf m.flags 0 then
        let s := s.modeState 4 0
        { s with tt := { s.tt with switch := s.tt.switch.map (fun (w : Switch) => { w with frame := some frame, proposed := true }) } }
      else s.abandonSwitch
  match s.handoverSeen with
  | none => s
  | some h =>
    if s.readyHandover && bitOf m.flags 1 && (out == Outcome.agree || (s.pair.mixed && bitOf m.flags 3)) then
      { s.wr R.PA_HANDOVER_STATE 2 with pair := { s.pair with hFrame := h } }
    else
      ((s.wr R.PA_HANDOVER_STATE 5).wr R.PA_EVENTS_HANDOVER_ABANDONED 1).wake 0x0704 0 0x0720

/-- DIGEST_MESSAGE_RX: the partner's message, counted when it is received by the tick − 300 tb (R344, R355). -/
def execDigestMessageRx (m : DigestMsg) (s : State) : Next := .next <|
  if !s.bit R.PA_CFG_EN || m.unit == s.unitNo || s.pair.msg.isSome || decide (s.nextTick < s.tb.frc + 300) then s
  else
    let was := s.rd R.PA_STATUS_PARTNER_ROLE
    let s := (s.wr R.PA_STATUS_PARTNER_SEEN 1).wr R.PA_STATUS_PARTNER_ROLE m.role
    let s := { s with pair := { s.pair with
      msg := some m, testPartner := if bitOf m.flags 6 then some (!bitOf m.flags 5) else s.pair.testPartner } }
    let s := s.pairAlign m
    let s := if s.role = .active && m.role = 3 && was = 1 then s.wr R.PA_EVENTS_JOINED 1 else s
    -- a STANDBY that has left for SYNCING has asked for a state transfer (R348, R363)
    let s := if s.role = .active && m.role = 1 && was = 3 && !s.pair.mixed then
        { s.wr R.PA_JOIN_STATUS_XFER 1 with pair := { s.pair with xferAt := some s.tb.frc, compared := false, xferCopy := [] } }
      else s
    if s.inRun then ((s.settleNow).commit m) else s

end Sys2Proof.Machine
end

