-- ==== Sys2Proof/Machine/PairOps.lean ====
section
/-! DEFINITION. Redundant pairs at the tick and by command: outcomes and roles (R344, R345, R355, R356, R363), failover (R358,
R359), handover and revert (R361, R362), join, leave and state transfer (R357, R360, R364 to R366). -/

namespace Sys2Proof.Machine

open Sys2Proof

/-! ### What ends and begins -/

/-- A handover armed or committed is dropped; its holder is released (R359, R361, R380). -/
def State.dropHandover (s : State) : State :=
  if s.rd R.PA_HANDOVER_STATE = 1 || s.rd R.PA_HANDOVER_STATE = 2 then
    let s := ((s.wr R.PA_HANDOVER_STATE 5).wr R.PA_EVENTS_HANDOVER_ABANDONED 1).wake 0x0704 0 0x0720
    { s with acc := { s.acc with handoverHolder := none } }
  else s

/-- The state transfer fails (R365, R366). -/
def State.xferFails (s : State) : State :=
  let s := ((s.wr R.PA_JOIN_STATUS_XFER 5).wr R.PA_EVENTS_XFER_FAILED 1).wake 0x0702 0 0x0721
  { s with pair := { s.pair with xferAt := none, joining := false, xferCopy := [], finalAt := none } }

/-- A STANDBY leaves for SYNCING and asks for a state transfer (R344, R348, R363). -/
def State.toResync (s : State) : State :=
  let s := (s.wr R.PA_AGREE_RUN 0).wr R.PA_JOIN_STATUS_XFER 1
  let s := { s with pair := { s.pair with resync := true, compared := false, xferAt := some s.tb.frc, test := none, testOwn := none, testPartner := none } }
  (s.path [2, 0]).setRole .syncing

/-- ACTIVE ends its pair and drives on as SOLO (R356): what it gated is released, a handover is dropped. -/
def State.toSolo (s : State) : State :=
  let s := ((s.ungate).dropHandover).wr R.PA_AGREE_RUN 0
  let s := if s.pair.xferAt.isSome then s.xferFails else s
  let s := { s with pair := { s.pair with
    mixed := false, mixedRun := 0, compared := false, test := none, testOwn := none, testPartner := none, partnerIn := none, down := 0 } }
  (s.setRole .solo).prepareDone

/-! ### The end of a frame (R344, R345, R355, R359, R363) -/

/-- TOD follows the ACTIVE's, and the tick error is noted (R344) (DEDUCED, log entry 18). -/
def State.pairAlignTick (s : State) : State :=
  if !s.following then s
  else
    let s := match s.pair.msg with
      | some m => { s with tb := { s.tb with sec := m.todSec, ns := m.todNs, frac := m.todFrac } }
      | none => s
    match s.pair.next with
    | some t =>
      if !s.canListens then s
      else
        let err : Int := (s.tb.frc : Int) - t
        let s := s.wr R.PA_TICK_ERR (ofInt 16 (satInt 16 err))
        let s := if 2 < err.natAbs then s.wr R.PA_EVENTS_ALIGN_ERR 1 else s
        if 50 < err.natAbs && !s.pair.mixed && s.pair.xferAt.isNone then s.toResync else s
    | none => s

/-- The outcome of the comparison of the frame that ends (R355): a missing message is a mismatch (R33).  A partner that sends none and whose HEALTHY
line is low has left RUN and holds role SOLO (R342, R343): there is nothing to compare (DEDUCED, log entry 18). -/
def State.outcome (s : State) : Outcome :=
  match s.pair.msg with
  | some m => s.compareMsg s.tb.frameNo m
  | none =>
    if s.bit R.PA_STATUS_PARTNER_HEALTHY && s.lockstep (s.rd R.PA_STATUS_PARTNER_ROLE) && !s.pair.ownInputs then .mismatch else .none

/-- What a MISMATCH records (R355, R363). -/
def State.countMismatch (s : State) : State :=
  let s := ((s.wr R.PA_EVENTS_MISMATCH 1).inc R.PA_MISMATCHES).wr64 R.PA_LAST_MISMATCH_LO R.PA_LAST_MISMATCH_HI s.tb.frameNo
  let s := s.wr R.PA_AGREE_RUN 0
  match s.pair.msg with
  | some m => s.wr R.PA_FIRST_CKPT (((List.range 16).find? (fun k => m.ckpt.getD k 0 != s.ckpt k)).getD 16)
  | none => s

/-- A second mismatch within 1 h ends the pair on the PREFERRED unit (R363). -/
def State.pairAlarm (s : State) : State :=
  let s := s.wr R.PA_EVENTS_PAIR_ALARM 1
  if !s.preferred then s.stopHere
  else if s.role = .active then s.toSolo
  else
    -- a STANDBY that is PREFERRED takes ACTIVE first, with the moves of a handover
    ((({ s with pair := { s.pair with hold := true } }).takeActive .solo).wr R.PA_EVENTS_HANDOVER 1).inc R.PA_HANDOVERS

/-- What a MISMATCH starts (R363, R366). -/
def State.mismatch (s : State) : State :=
  let s := s.countMismatch
  if s.pair.test.isSome then s
  else if s.role = .syncing then s.xferFails.stopHere
  else if s.role = .active && s.rd R.PA_STATUS_PARTNER_ROLE = 1 then s
  else if s.pair.lastMis.any (fun t => decide (s.tb.frc ≤ t + 360000000000)) then s.pairAlarm
  else { s with pair := { s.pair with lastMis := some s.tb.frc, test := some s.tb.frc, testOwn := none, testPartner := none } }

/-- An AGREE counts, outside a test window (R355, R363). -/
def State.agree (s : State) : State :=
  if s.pair.test.isSome then s
  else
    let s := if s.rd R.PA_AGREE_RUN = 0 then { s with pair := { s.pair with agreeAt := s.tb.frc } } else s
    s.inc R.PA_AGREE_RUN

/-- A takeover at this tick (R358, R359). -/
def State.takeover (s : State) : State :=
  let s := ((s.wr R.PA_EVENTS_FAILOVER 1).inc R.PA_FAILOVERS).wr R.PA_AGREE_RUN 0
  let s := s.dropHandover
  let s := { s with pair := { s.pair with
    takeover := none, hold := true, resync := false, xferAt := none, mixed := false, mixedRun := 0, compared := false, test := none,
    testOwn := none, testPartner := none } }
  s.takeActive .solo

/-- Every part but the small ones of R364: banks, the state store's operand, summary, chain and ingest areas, the loop records. -/
def xferTracked (a : Nat) : Bool := decide (a < Config.bankEnd) || (decide (0x01100000 ≤ a) && decide (a < 0x03020000))

/-- The final round reaches the joining unit's memory (R364). -/
def State.finalWrites (s : State) (x : XferFinal) : State :=
  let s := (x.granules.filter (fun g => xferTracked g.1)).foldl (fun s g => s.setBytes g.1 (g.2.take 32)) s
  let s := x.dabs.foldl (fun s d => s.setBytes (Config.sramBase (s.physTile d.1) + d.2.1) (d.2.2.take 32)) s
  let s := x.counts.zipIdx.foldl (fun s c => s.setWord (0x03030800 + 16 * c.2 + 4) c.1) s
  -- a mode word that changes loses a prepared switch (R118); a period that changes moves the sweeps (R278)
  let s := if s.modeWord = x.active + 2 ^ 16 * x.mirror then s else s.loseSwitch
  let was := s.P
  let s := s.modeFlip x.active x.mirror
  let s := if s.P = was then s else s.chainPeriod
  let s := (List.range 8).foldl (fun s p =>
    (s.updCan p (fun c => { c with seq := x.canSeq.getD p c.seq })).updChain p (fun c => { c with sweepNo := x.sweeps.getD p c.sweepNo })) s
  { s with tb := { s.tb with frameNo := x.frameNo - 1, pairTick := x.pairTick } }

/-- The joining unit enters RUN as SYNCING at the tick after the final round (R364, R365): its tiles hold 0, the rest of their data
SRAM the image's DATA contents; its MRAM copy is written anew. -/
def State.joinEntry (s : State) (x : XferFinal) : State :=
  let s := match s.tt.base with
    | some b => s.loadSram b
    | none => s
  let s := (List.range 36).foldl (fun s p => (s.updTile p (fun _ => Tile.reset)).clearMem (Config.rxBase p) (Config.rxBase p + 0x200)) s
  let s := s.finalWrites x
  let s := ((s.wr R.TT_RUN_STATUS_STARTED 1).wr R.TT_RUN_STATUS_KIND_LAST 2).wr R.PA_JOIN_STATUS_XFER 4
  let s := (s.wr64 R.TT_RUN_FIRST_LO R.TT_RUN_FIRST_HI x.frameNo).wr64 R.TT_RUN_LAST_LO R.TT_RUN_LAST_HI 0
  let s := { s with
    unit := .run
    tt := { s.tt with coldCopy := some s.regionCells, hotOk := false, firstRun := true }
    pair := { s.pair with joining := false, finalAt := none, xferAt := none, compared := true, mixed := false } }.runMs
  s.setRole .syncing

/-- A SYNCING unit that ran on while its state was transferred again is in step (R348, R364). -/
def State.resyncEntry (s : State) (x : XferFinal) : State :=
  let s := (s.finalWrites x).wr R.PA_JOIN_STATUS_XFER 4
  { s with pair := { s.pair with finalAt := none, xferAt := none, compared := true, resync := false } }

/-- The partner that joined enters SYNCING at this tick: SOLO becomes ACTIVE (R356). -/
def State.partnerEnters (s : State) (mixed : Bool) : State :=
  let s := { s with pair := { s.pair with partnerIn := none, mixed, mixedRun := 0, compared := !mixed } }
  let s := if mixed then s.wr R.PA_EVENTS_JOINED 1 else s
  if s.role = .solo then (s.wr R.PA_AGREE_RUN 0).setRole .active else s

/-- A switch proposed in the frame that ends, or due to be, that the message pair has not committed is abandoned (R123). -/
def State.abandonProposed (s : State) : State :=
  if (s.proposed.isSome || s.switchAhead.isSome) && s.rd R.TT_MODE_STATUS_STATE != 4 then s.abandonSwitch else s

/-- What acts by role at a tick at which no takeover does. -/
def State.pairActs (s : State) : State :=
  let s := s.abandonProposed
  let s := if s.pair.msg.isNone && s.handoverSeen.isSome then s.dropHandover else s
  let s := match s.outcome with
    | .agree => s.agree
    | .mismatch => s.mismatch
    | .none => s
  let s := if s.role = .standby && s.pair.ownInputs then s.toResync else s
  if s.role = .active && !s.bit R.PA_STATUS_PARTNER_HEALTHY then s.toSolo else s

/-- The pair at the tick that ends the frame in progress; FRC stands at the tick (R344, R345, R355 to R359, R364). -/
def State.pairTick (s : State) : State :=
  let follow := s.following
  let tick := if follow then ((s.pair.msg.map (·.nextTick)).getD (s.tb.pairTick + s.P)) else s.tb.frc
  let s := s.pairAlignTick
  let take := s.pair.takeover.isSome && s.eligible
  let s : State := { s with tb := { s.tb with pairTick := if take then s.tb.frc else tick } }
  let s : State := if take then s.abandonProposed.takeover else s.pairActs
  let s : State := match s.pair.partnerIn with
    | some m => if s.inRun && (s.role == .solo || s.role == .active) then s.partnerEnters m else s
    | none => s
  let s : State := match s.pair.finalAt with
    | some x => if s.pair.joining && s.inStop then s.joinEntry x else if s.role = .syncing then s.resyncEntry x else s
    | none => s
  let both := s.role != .solo && !s.linkUp && s.bit R.PA_STATUS_PARTNER_HEALTHY && s.healthy
  let x := s.pair
  let s := s.wr R.PA_STATUS_PARTNER_SEEN (if x.msg.isSome then 1 else 0)
  { s with pair := { x with
    txOld := x.tx, tx := 0, rxPrev := (x.msg.map (·.rx)).getD 0, txPartner := (x.msg.map (·.tx)).getD 0, next := none
    msg := none, exch := none, intake := [], ownInputs := false, cut := false, takeover := none
    mixedRun := if x.mixed then x.mixedRun + 1 else 0, down := if both then x.down + 1 else 0 } }

/-! ### Failover (R358) -/

/-- FAILOVER_CHECK: at T − 100 tb an eligible unit decides to take over at tick T. -/
def execFailoverCheck (s : State) : Next := .next <|
  let T := s.nextTick
  s.upTo (T - 100) (fun s =>
    let silent := match s.pair.markAt with
      | some t => !(decide (T - s.P ≤ t) && decide (t < T - 100))
      | none => true
    if s.eligible && s.lat.marker && (!s.bit R.PA_STATUS_PARTNER_HEALTHY || silent) then
      { s with pair := { s.pair with takeover := some T } }
    else s)

/-- PARTNER_LINKS_LOST: both links down for 3 frames with both HEALTHY lines asserted: ACTIVE drives on as SOLO, the other unit
stops (R360). -/
def execPartnerLinksLost (s : State) : Next := .next <|
  if s.pair.down < 3 || s.role = .solo then s
  else
    let s := s.toTick
    if s.role = .active then s.toSolo
    else
      let s := { s with pair := { s.pair with separated := true } }
      (s.wr R.PA_EVENTS_LINKS_LOST 1).stopSoon

/-! ### Handover (R361, R362) -/

/-- Arm a handover at frame `at_`, 0 the earliest, or refuse it (R361, R371). -/
def State.armHandover (s : State) (at_ : Nat) : State :=
  let x := ((s.timetable).map (·.decl.exStart)).getD 0
  let least := s.tb.frameNo + (if s.cycleNow < x then 2 else 3)
  let h := if at_ = 0 then least else at_
  let reason :=
    if s.role != .active then 4
    else if s.pair.xferAt.isSome || s.pair.test.isSome || s.rd R.PA_HANDOVER_STATE = 1 || s.rd R.PA_HANDOVER_STATE = 2 then 3
    else if !s.handoverFit then 1
    else if h < least then 2
    else 0
  if reason = 0 then
    { (s.wr R.PA_HANDOVER_STATE 1).wr R.PA_HANDOVER_REASON 0 with pair := { s.pair with hFrame := h } }
  else if s.rd R.PA_HANDOVER_STATE = 1 || s.rd R.PA_HANDOVER_STATE = 2 then s.wr R.PA_HANDOVER_REASON reason
  else (s.wr R.PA_HANDOVER_STATE 4).wr R.PA_HANDOVER_REASON reason

/-- A write of 1 to PA_CMD.HANDOVER, with PA_HANDOVER_AT (R361, R371). -/
def execPaCmdHandover (s : State) : Next := .next (s.armHandover (s.rd64 R.PA_HANDOVER_AT_H_LO R.PA_HANDOVER_AT_H_HI))

/-- HANDOVER_TAKES_EFFECT: at boundary H ACTIVE moves to the partner (R356, R360, R361). -/
def execHandoverTakesEffect (s : State) : Next := .next <|
  if s.rd R.PA_HANDOVER_STATE != 2 || s.pair.hFrame != s.tickFrame || s.role = .solo then s
  else
    let s := s.toTick
    let s := (((s.wr R.PA_HANDOVER_STATE 3).wr R.PA_EVENTS_HANDOVER 1).inc R.PA_HANDOVERS).wake 0x0704 0 0
    if s.role = .active then
      let s := s.setRole (if s.pair.mixed then .syncing else .standby)
      let s := { s with acc := { s.acc with handoverHolder := none } }
      if s.pair.stopAfter then
        { s with tt := { s.tt with stopAt := some (s.tickFrame + 1) }, pair := { s.pair with stopAfter := false } }
      else s
    else s.takeActive .active

/-- PAIR_REVERT: a PREFERRED STANDBY that has agreed for REVERT_HOLD seconds orders a handover to itself over the management path
(R362). -/
def execPairRevert (s : State) : Next := .next <|
  if s.bit R.PA_CFG_REVERT && s.preferred && s.role == .standby && decide (0 < s.rd R.PA_AGREE_RUN) &&
      decide (s.pair.agreeAt + s.rd R.PA_TIMES_REVERT_HOLD * 100000000 ≤ s.tb.frc) then s.path [1]
  else s

/-! ### Join and leave (R357, R360, R371) -/

/-- The hash of the retained configuration of FG_, DIO_, CH_, CF_ and PA_CFG and of the route table (R357) (DEDUCED, log entry 18). -/
def State.cfgHash (s : State) : Nat :=
  let vals (rows : List RegRow) : Bytes := (rows.filter (fun r => r.acc == .rwl)).flatMap (fun r =>
    (List.range r.n1).flatMap (fun i => (List.range r.n2).flatMap (fun j => leBytes 4 (s.rd r i j))))
  Config.sha384 (vals (R.blockFG ++ R.blockCHU ++ R.blockDIO ++ R.blockCH ++ R.blockCF ++
      [R.PA_CFG_EN, R.PA_CFG_PREFERRED, R.PA_CFG_REVERT, R.PA_CFG_AUTOJOIN, R.PA_CFG_MIXED_FAILOVER]) ++
    (s.mem.filter (fun c => decide (Config.routeBase ≤ c.1) && decide (c.1 < Config.routeShadow))).flatMap (fun c => leBytes 4 (c.1 - Config.routeBase) ++ [c.2]))

/-- A join with equal base ID and VER is a lockstep join, else a mixed one (R357; DEDUCED, log entry 18). -/
def State.joinMixed (s : State) (q : PartnerInfo) : Bool := !(s.rd R.TT_IMG_ID == q.baseId && s.rd R.TT_IMG_VER == q.baseVer)

/-- The reason a join is refused with, in the order of R357's table; 0 for none (DEDUCED, log entries 18, 65). -/
def State.joinReason (s : State) (q : PartnerInfo) : Nat :=
  let mine := (List.range 16).map (fun k => match s.slotImage (k + 1) with
    | some m => (m.id, m.ver)
    | none => (0, 0))
  let fits := match s.tt.base with
    | some b => b.shared.pair == 1 && q.capable && b.decl.period == q.period && b.shared.exAddr == q.exAddr &&
        b.shared.exSize == q.exSize && b.decl.exStart == q.exStart
    | none => false
  if !s.bit R.PA_STATUS_PARTNER_HEALTHY then 1
  else if q.hasPartner then 2
  else if !s.linkUp || s.trust.partner.isNone then 6
  else if !s.joinMixed q && mine != q.slots then 3
  else if s.joinMixed q && !fits then 4
  else if s.cfgHash != q.cfgHash then 5
  else if q.busy || s.pair.joining then 7
  else 0

/-- JOIN (R357): a lockstep join proceeds by state transfer, a mixed one by a WARM start; the partner is told. -/
def State.join (s : State) (q : PartnerInfo) : State :=
  let r := s.joinReason q
  let s := s.wr R.PA_JOIN_STATUS_REASON r
  if r != 0 then (s.wr R.PA_EVENTS_JOIN_REFUSED 1).wake 0x0702 0 (0x0700 + r)
  else
    let mixed := s.joinMixed q
    let s := s.path [2, if mixed then 1 else 0]
    let s := { s with pair := { s.pair with joining := true, mixed, mixedRun := 0, separated := false } }
    if mixed then { s with tt := { s.tt with starting := some 0 } }
    else
      let s := match s.tt.base with
        | some b => (s.loadImage b).loadSram b
        | none => s
      { (s.wr R.PA_JOIN_STATUS_XFER 1).wr R.PA_JOIN_STATUS_ROUND 0 with pair := { s.pair with xferAt := some s.tb.frc } }

/-- A join asked for by the register alone: the partner is asked over the management path for what R357 judges; without its HEALTHY line, or without a
link to ask it on, the join is refused at once (R357) (DEDUCED, log entry 18). -/
def State.joinAsk (s : State) : State :=
  if !s.inStop || !s.bit R.PA_CFG_EN then s
  else if !s.bit R.PA_STATUS_PARTNER_HEALTHY || !s.linkUp then
    ((s.wr R.PA_JOIN_STATUS_REASON (if s.bit R.PA_STATUS_PARTNER_HEALTHY then 6 else 1)).wr R.PA_EVENTS_JOIN_REFUSED 1)
  else { s with pair := { s.pair with asked := true } }.path [9]

/-- The partner's answer. -/
def State.joinAnswer (s : State) (q : PartnerInfo) : State :=
  if !s.pair.asked then s
  else
    let s := { s with pair := { s.pair with asked := false } }
    if s.inStop && s.bit R.PA_CFG_EN then s.join q else s

/-- A write of 1 to PA_CMD.JOIN, with what the partner answers over the management path; a unit joins from STOP (R357, R371). -/
def execPaCmdJoin (q : PartnerInfo) (s : State) : Next := .next (if s.inStop && s.bit R.PA_CFG_EN then s.join q else s)

/-- AUTOJOIN: a separated unit joins again once a link has been up for 10 s (R360). -/
def execAutojoin (q : PartnerInfo) (s : State) : Next := .next <|
  if s.pair.separated && s.bit R.PA_CFG_AUTOJOIN && s.inStop && s.bit R.PA_CFG_EN &&
      s.pair.upAt.any (fun t => decide (t + 1000000000 ≤ s.tb.frc)) then s.join q
  else s

/-- Leave the pair and stop at the next boundary (R371). -/
def State.leave (s : State) : State :=
  if s.inRun then s.stopHere else s

/-- A write of 1 to PA_CMD.LEAVE (R371). -/
def execPaCmdLeave (s : State) : Next := .next s.leave

/-- Cancel an armed handover or a state transfer (R371). -/
def State.pairCancel (s : State) : State :=
  let s : State := if s.rd R.PA_HANDOVER_STATE = 1 then
      let s := (s.wr R.PA_HANDOVER_STATE 0).wake 0x0704 0 0x0720
      { s with acc := { s.acc with handoverHolder := none } }
    else s
  if s.pair.xferAt.isSome then
    let s := (s.wr R.PA_JOIN_STATUS_XFER 0).wake 0x0702 0 0x0721
    { s with pair := { s.pair with xferAt := none, joining := false, xferCopy := [], finalAt := none } }
  else s

/-- A write of 1 to PA_CMD.CANCEL (R371). -/
def execPaCmdCancel (s : State) : Next := .next s.pairCancel

/-- STANDBY_PROMOTION: a SYNCING unit becomes STANDBY when AGREE_MIN consecutive frames agree (R356, R366). -/
def execStandbyPromotion (s : State) : Next := .next <|
  if s.role != .syncing || s.pair.mixed || !s.pair.compared || s.rd R.PA_AGREE_RUN < s.rd R.PA_TIMES_AGREE_MIN then s
  else (s.toTick.setRole .standby).wake 0x0702 0 0

/-! ### State transfer (R364, R365) -/

/-- The tracked part of memory. -/
def State.xferCells (s : State) : List Host.Cell := s.mem.filter (fun c => xferTracked c.1)

/-- The granules at which two memories differ (DEDUCED, log entry 18). -/
def dirtyGranules (a b : List Host.Cell) : List Nat :=
  ((a.filter (fun c => !b.contains c) ++ b.filter (fun c => !a.contains c)).map (fun c => c.1 / 32 * 32)).eraseDups

/-- The DABS items of the frame so far. -/
def State.dabsItems (s : State) : List DigestItem := s.lat.absorbed.filter (fun e => e.order == 18)

/-- The bytes the links that are up carry in [marker + 200 tb, tick − 300 tb) outside the digest window, at 0.09 tb a byte (R365). -/
def State.xferBudget (s : State) : Nat :=
  let links := s.rd R.PA_STATUS_LINK0 + s.rd R.PA_STATUS_LINK1
  let marker := ((s.timetable).map (·.decl.marker)).getD 0 / 8
  links * ((s.P - (marker + 500) - Config.digestWindow) * 100 / 9)

/-- The granules of a list with their contents, as sent. -/
def State.granuleBytes (s : State) (gs : List Nat) : Bytes := gs.flatMap (fun a => leBytes 4 a ++ s.bytes a 32)

/-- STATE_TRANSFER_ROUND: the bulk copy or a round of the granules dirtied since the one before completes (R365).  The unit that
runs sends; `gs` is what the joining unit receives. -/
def execStateTransferRound (gs : List (Nat × Bytes)) (s : State) : Next := .next <|
  if s.pair.xferAt.isNone || s.rd R.PA_JOIN_STATUS_XFER = 3 then s
  else if s.pair.joining || s.role = .syncing then
    let s := if s.pair.joining then (gs.filter (fun g => xferTracked g.1)).foldl (fun s g => s.setBytes g.1 (g.2.take 32)) s else s
    ((s.inc R.PA_JOIN_STATUS_ROUND).wr R.PA_JOIN_STATUS_XFER 2).wr R.PA_JOIN_STATUS_DIRTY (min 255 ((32 * gs.length + 65535) / 65536))
  else if !s.inRun then s
  else
    let s := s.settleNow
    let set := dirtyGranules s.xferCells s.pair.xferCopy
    let bytes := 32 * set.length
    let fits := decide (bytes + 40 * s.dabsItems.length ≤ s.xferBudget)
    let s := (s.path [3, set.length] (s.granuleBytes set)).inc R.PA_JOIN_STATUS_ROUND
    let s := (s.wr R.PA_JOIN_STATUS_DIRTY (min 255 ((bytes + 65535) / 65536))).wr R.PA_JOIN_STATUS_XFER (if fits then 3 else 2)
    { s with pair := { s.pair with xferCopy := s.xferCells } }

/-- STATE_TRANSFER_FINAL: after the marker of frame F − 1 the unit that runs sends the last granules, its DABS items and the small
parts, and the joining unit (`x` is what it receives) enters RUN as SYNCING at tick F (R364, R365). -/
def execStateTransferFinal (x : XferFinal) (s : State) : Next := .next <|
  if s.pair.xferAt.isNone then s
  else if s.pair.joining || s.role = .syncing then
    { s.wr R.PA_JOIN_STATUS_XFER 3 with pair := { s.pair with finalAt := some x } }
  else if !s.inRun || !s.lat.marker || s.rd R.PA_JOIN_STATUS_XFER != 3 then s
  else
    let s := s.settleNow
    let set := dirtyGranules s.xferCells s.pair.xferCopy
    let counts := (List.range 32).map (fun d => s.word (0x03030800 + 16 * d + 4))
    let s := s.path [4, set.length, s.modeWord, s.tb.frameNo + 1, s.nextTick] (s.granuleBytes set ++ s.dabsItems.flatMap (·.data) ++
      counts.flatMap (leBytes 4) ++ (List.range 8).flatMap (fun p => leBytes 4 (s.canPort p).seq ++ leBytes 2 (s.chain p).sweepNo))
    { s.wr R.PA_JOIN_STATUS_XFER 4 with pair := { s.pair with xferAt := none, xferCopy := [], partnerIn := some false } }

/-- STATE_TRANSFER_TIMEOUT: no round fits within 60 s (R365). -/
def execStateTransferTimeout (s : State) : Next := .next <|
  match s.pair.xferAt with
  | some t =>
    if t + 6000000000 ≤ s.tb.frc && s.pair.finalAt.isNone then
      if s.role = .syncing then s.xferFails.leave else s.xferFails
    else s
  | none => s

/-! ### Self-test after a mismatch (R363) -/

/-- What the pair does once both results are known. -/
def State.testActs (s : State) (own partner : Bool) : State :=
  let s := { s with pair := { s.pair with test := none, testOwn := none, testPartner := none } }
  if s.role = .active then
    match own, partner with
    | true, true => s
    | true, false => s.toSolo
    | false, true =>
      let s := s.armHandover 0
      { s with pair := { s.pair with stopAfter := s.rd R.PA_HANDOVER_STATE == 1 } }
    | false, false => (s.wr R.PA_EVENTS_PAIR_ALARM 1).toSolo
  else
    match partner, own with
    | true, true => s.toResync
    | true, false => s.stopSoon
    | false, true => s
    | false, false => (s.wr R.PA_EVENTS_PAIR_ALARM 1).stopSoon

/-- PAIR_SELFTEST_COMPLETE: the own test ends with `pass`; once both results are known the pair acts at the first boundary
(R363). -/
def execPairSelftestComplete (pass : Bool) (s : State) : Next := .next <|
  if s.pair.test.isNone || (s.role != .active && s.role != .standby) then s
  else
    let s := { s with pair := { s.pair with testOwn := some (s.pair.testOwn.getD pass) } }
    match s.pair.testOwn, s.pair.testPartner with
    | some a, some b => s.toTick.testActs a b
    | _, _ => s

end Sys2Proof.Machine
end

