-- ==== Sys2Proof/Machine/LockGroups.lean ====
section
/-! DEFINITION. Output latches (R29, R57, R132, R150) and the firing of a lock group (R54, R56, R58, R60). -/

namespace Sys2Proof.Machine

open Sys2Proof

/-! ### Latches -/

/-- Channel `ch` latches a granule's VALUE and OFLAGS; HOLD keeps the level of a program value (R150). -/
def State.latchChan (s : State) (ch : Nat) (x : Nat × Nat) : State :=
  let d := s.granuleDrive (ch / 8) (ch % 8) x.1 x.2
  s.updChan ch (fun c => { c with latched := some x, held := if bitOf x.2 0 then c.held else some d })

/-- The discrete block latches the outputs of `mask` from an image (VALUE, SAFE_REQ); HOLD keeps program states (R150). -/
def State.latchDos (s : State) (mask : Nat) (x : Nat × Nat) : State :=
  let pick (old new : Nat) : Nat := (old &&& (2 ^ 32 - 1 - mask)) ||| (new &&& mask)
  let (v, q) := s.dio.latched.getD (0, 2 ^ 32 - 1)
  s.updDio (fun d => { d with
    latched := some (pick v x.1, pick q x.2)
    held := d.held.mapIdx (fun o h => if bitOf mask o && !bitOf x.2 o then some (bitOf x.1 o) else h) })

/-- OUTPUT_LATCH: at a RUN tick every output that is no lock-group member latches the value transferred in the frame before, where a
valid copy has arrived; what the groups' members may latch becomes ready (R29, R57, R515). -/
def State.latchTick (s : State) : State :=
  let s := (List.range 96).foldl (fun s ch =>
    let c := s.chan ch
    let s := match c.xfer with
      | none => s
      | some x =>
        if !c.copyOk then s.updChan ch (fun c => { c with crossErr := true })
        else
          let s := s.updChan ch (fun c => { c with ready := some x })
          if s.isMember 2 ch then s else s.latchChan ch x
    s.updChan ch (fun c => { c with xfer := none, copyOk := false })) s
  let members := ofBits 28 (fun o => s.isMember 4 o)
  let s := match s.dio.got with
    | none => s
    | some x => (s.latchDos (2 ^ 32 - 1 - members) x).updDio (fun d => { d with ready := some x })
  s.updDio (fun d => { d with xfer := none, sent := false, got := none })

/-! ### Firing -/

/-- INPUT_CAPTURE: channel `ch` emits an extra result ending at the firing tb, delivered in the next frame (R58, R214).  `m` is
what the filter gives over [f − K × W, f), converted as a window's is; an unread one is a free value. -/
def State.capChan (s : State) (ch : Nat) (m : Option Meas) : State :=
  let g := ch / 8
  let t := ch % 8
  if s.chMode g t = 0 || !(s.group g).supply then s
  else
    let p := m.bind (fun m => (s.reading ch m).p)
    let value := match p with
      | some p => (s.engWord g t p 1).1
      | none => s.freeVal % 2 ^ 32
    let s := if p.isNone then s.nextFree else s
    let frame := s.tb.frameNo + 1
    let s := if (s.chan ch).caps.any (fun k => k.frame == frame) then s.keepFlags g t (2 ^ 18) else s
    s.updChan ch (fun c => { c with
      caps := c.caps.filter (fun k => k.frame != frame) ++ [{ value, frc := s.tb.frc, frame }] })

/-- One member acts at the firing tb (R56); the second result says that a port's previous transmit still waits (R60). -/
def State.memberActs (s : State) (caps : List (Nat × Meas)) (m : Nat × Nat) : State × Bool :=
  match m.1 with
  | 1 => (s.capChan m.2 ((caps.find? (fun c => c.1 == m.2)).map (·.2)), false)
  | 2 => (match (s.chan m.2).ready with
    | some x => s.latchChan m.2 x
    | none => s, false)
  | 5 => s.canFire m.2
  | 6 => (if s.tb.frc = s.tb.lastTick then s.strobe m.2 else s, false)
  | 7 => (if s.bit R.TB_TP_CTRL_PPS_OUT_EN then s.ppsPulse s.tb.sec (32 * s.tb.frc) else s, false)
  | _ => (s, false)

/-- All members of group `g` act in the tb now. -/
def State.fire (s : State) (g : Nat) (caps : List (Nat × Meas)) : State :=
  let ms := s.lgMembers g
  let s := ms.foldl (fun s m =>
    let (s, overlaps) := s.memberActs caps m
    if overlaps && s.rd R.TB_LG_MODE g == 1 then s.wr R.TB_LG_OVERLAP 1 g else s) s
  let mask (k : Nat) : Nat := ofBits 32 (fun i => ms.contains (k, i))
  let s := if mask 3 = 0 then s else s.diCapture g (mask 3) s.tb.frc (s.tb.frameNo + 1)
  let s := match s.dio.ready with
    | some x => if mask 4 = 0 then s else s.latchDos (mask 4) x
    | none => s
  (s.wr R.TB_LG_FIRED 1 g).driveAll

/-- The tb at which the TOD is first at or after `u`; the tb after a step that passed `u` (R54, R60). -/
def State.todTb (s : State) (u : Nat) : Nat :=
  if u < s.todUnits then max s.tb.frc ((s.tb.stepAt.map (· + 1)).getD 0)
  else s.tb.frc + (u - s.todUnits + s.incUnits - 1) / s.incUnits

/-- One-shot `g` fires and is no longer armed. -/
def State.fireArmed (s : State) (g : Nat) (caps : List (Nat × Meas)) : State :=
  { s with tb := { s.tb with armed := s.tb.armed.filter (· != g) } }.fire g caps

/-- A periodic group fires, once in its frame. -/
def State.firePeriodic (s : State) (g : Nat) (caps : List (Nat × Meas)) : State :=
  { s with tb := { s.tb with fired := g :: s.tb.fired } }.fire g caps

/-- LG_FIRE: lock group `g` fires by its trigger (R54, R56, R60); `caps` gives what the filters of its channel captures answer. -/
def execLgFire (g : Nat) (caps : List (Nat × Meas)) (s : State) : Next := .next <|
  if 32 ≤ g then s
  else match s.rd R.TB_LG_MODE g with
    | 1 =>
      let at_ := s.tb.lastTick + s.rd R.TB_LG_OFFSET g
      if s.lgSelects g s.tb.frameNo && decide (at_ < s.nextTick) && decide (s.tb.frc ≤ at_) &&
          !s.tb.fired.contains g then
        (s.toFrc at_).firePeriodic g caps
      else s
    | 2 =>
      let at_ := s.rd64 R.TB_LG_TIME_LO R.TB_LG_TIME_HI g
      if s.tb.armed.contains g && decide (s.tb.frc ≤ at_) then s.upTo at_ (fun s => s.fireArmed g caps)
      else s
    | 3 =>
      if s.tb.armed.contains g then
        s.upTo (s.todTb (s.lgTod g)) (fun s => s.fireArmed g caps)
      else s
    | 4 =>
      if s.tb.ppsFire.contains g then
        s.upTo ((s.tb.lastPps.getD (32 * s.tb.frc)) / 32 + 1) (fun s => { s with tb := { s.tb with ppsFire := s.tb.ppsFire.filter (· != g) } }.fire g caps)
      else s
    | _ => s

end Sys2Proof.Machine
end

