-- ==== Sys2Proof/Machine/FrameTick.lean ====
section
/-! DEFINITION. The frame tick (R28, R29, R34, R48 to R52, R119 to R121, R147 to R149). -/

namespace Sys2Proof.Machine

open Sys2Proof

/-- A periodic group selected in the frame that ends, whose OFFSET is not below the frame's length, has not fired (R60). -/
def State.offsetRange (s : State) : State :=
  (List.range 32).foldl (fun s g =>
    if s.rd R.TB_LG_MODE g = 1 && s.lgSelects g s.tb.frameNo && decide (s.tb.frc - s.tb.lastTick ≤ s.rd R.TB_LG_OFFSET g) then
      s.wr R.TB_LG_OFFSET_RANGE 1 g
    else s) s

/-- TT_ALIGN_STATUS of a tick whose target is `target` (R51, R52) (DEDUCED, log entry 49). -/
def State.alignStatus (s : State) (target : Int) : State :=
  let d : Int := (s.tb.frc : Int) - target
  let s := (s.wr R.TT_ALIGN_STATUS_OFFSET (ofInt 16 (satInt 16 d))).wr R.TT_ALIGN_STATUS_ALIGNED (if d = 0 then 1 else 0)
  if s.rd R.TT_ALIGN_LIMIT < d.natAbs then s.wr R.TT_ALIGN_STATUS_MISALIGNED 1 else s

/-- A switch flips: its delta writes are complete, a new period moves sweep closes (R120, R121, R278). -/
def State.flip (s : State) (w : Switch) : State :=
  let was := s.P
  let s := s.finishSwitch w
  if s.P = was then s else s.chainPeriod

/-! ### ARM (R119, R122) -/

/-- The delta is written at once (R122). -/
def State.writeDelta (s : State) (ds : List DeltaWrite) : State := ds.foldl (fun s w => s.setBytes w.addr w.data) s

/-- ARM (R119): a refusal sets REASON and leaves the switch as it is; NOTPREP and LATE report as refused (DEDUCED, log entry 34). -/
def State.modeArm (s : State) (at_ : Nat) : State :=
  match s.armCheck at_, s.tt.switch with
  | .inl r, _ => if r = mrBusy then s.wr R.TT_MODE_STATUS_REASON r
                 else if s.tt.switch.isSome then s.wr R.TT_MODE_STATUS_REASON r else s.modeState 6 r
  | .inr 0, some w => ((s.writeDelta w.delta).flip w).driveAll
  | .inr _, some w =>
    ({ s with tt := { s.tt with switch := some { w with frame := some (s.tb.frameNo + s.armLeast), at_ } } }).modeState 3 0
  | .inr _, none => s

/-- A write of 1 to TT_MODE_CTRL.ARM, with TT_MODE_AT (R119). -/
def execTtModeArm (s : State) : Next := .next (s.modeArm (s.rd64 R.TT_MODE_AT_LO R.TT_MODE_AT_HI))

/-! ### The tick -/

/-- HALT_ENTRY and STOP at the tick: a switch due at it is completed, one not due is ABANDONED (R125). -/
def State.departs (s : State) (due : Option Switch) (overrun : Bool) : State :=
  let last := s.tb.frameNo - 1
  let suppressed := s.lat.suppress
  let s := match due with
    | some w => s.flip w
    | none => s.abandonArmed
  if overrun then
    ((s.wr R.SS_EVENTS_OVERRUN 1).inc R.SS_OVERRUNS).enterHalt (if suppressed then 2 else 1) last
  else s.enterStop last

/-- The windows that begin at the tick begin with what the outputs drive after it (R217). -/
def State.openWindows (s : State) : State :=
  { s with chans := s.chans.mapIdx (fun ch c =>
      if c.wStart = s.tb.lastTick then { c with openSafe := c.drive.src == .safe, openAlarm := s.alarmDriven (ch / 8) (ch % 8) c } else c) }

/-- RUN begins with the frame this tick opens (R145 to R147); a unit that joins a mixed pair takes the ACTIVE's frame number and
becomes SYNCING (R345, R357). -/
def State.runEnter (s : State) (kind : Nat) (follow : Option Nat) : State :=
  let mixed := s.pair.joining && s.pair.mixed
  let s := { s with tb := { s.tb with frameNo := if mixed then follow.getD s.tb.frameNo else s.tb.frameNo } }
  let s := s.wr64 R.TT_RUN_FIRST_LO R.TT_RUN_FIRST_HI (s.tb.frameNo + 1)
  let s := (s.wr64 R.TT_RUN_LAST_LO R.TT_RUN_LAST_HI 0).wr R.TT_RUN_STATUS_STARTED 1
  let s := s.wr R.TT_RUN_STATUS_KIND_LAST kind
  let s := { s with unit := .run, tt := { s.tt with firstRun := true, starting := none, stopAt := none, stopCmd := false, hotOk := false } }.runMs
  if mixed then ({ s with pair := { s.pair with joining := false } }.setRole .syncing).wake 0x0702 0 0 else s

/-- A frame boundary at FRC `T`: the frame number advances, inputs freeze, outputs latch and boundary actions take effect; with
`enter` RUN begins with a start of that kind (DEDUCED, log entry 49). -/
def State.frameTickAt (s : State) (T : Nat) (enter : Option Nat) : State :=
  let target := s.tickTarget (s.tb.base + s.P)
  let aligned := !s.following && s.rd R.TT_ALIGN_MODE == 1
  let ran := s.inRun
  let follow := s.pair.msg.map (·.frameNo)
  let due := if ran then s.switchDue else none
  let s := s.toFrc T
  let s := if ran then s.settle (8 * (s.tb.frc - s.tb.lastTick)) else s
  let s := match due with
    | some w => s.deltaRest w
    | none => s
  let s := if aligned then s.alignStatus target else (s.wr R.TT_ALIGN_STATUS_OFFSET 0).wr R.TT_ALIGN_STATUS_ALIGNED 0
  let s := (s.commitBefore s.tb.frameNo).offsetRange.pairTick
  let s := match enter with
    | some k => s.runEnter k follow
    | none => s
  let stop := ran && s.tt.stopAt.any (fun f => decide (f ≤ s.tb.frameNo + 1))
  let overrun := ran && !s.lat.marker
  let s := { s with
    tb := { s.tb with frameNo := (s.tb.frameNo + 1) % 2 ^ 64, lastTick := s.tb.frc, base := s.tb.frc, fired := [] }
    -- what latches at this tick was transferred under the map of the frame that ends (R120)
    tt := { s.tt with driveMap := s.tt.map } }
  let s := if overrun || stop then s.departs due overrun
    else match due with
      | some w => s.flip w
      | none => s
  let s := s.relocFlip.svShadowTick
  let s := if s.inRun then s.newFrame else s
  let s := if ran && s.inRun then { s with tt := { s.tt with firstRun := false } }.latchTick else s
  let s := ((s.driveAll.openWindows.freezeFields).freezeDio).freezeChains
  s.canTick.ingestStrobe

/-- The partner may take over from this unit, which is ACTIVE (R356, R483). -/
def State.partnerEligible (s : State) : Bool :=
  s.role == .active && s.handoverFit && s.bit R.PA_STATUS_PARTNER_HEALTHY && (!s.pair.mixed || s.bit R.PA_CFG_MIXED_FAILOVER)

/-- The lattice stops for the power-fail warning (R482, R483): HALT with cause 6 in RUN, `last` being the last frame, and the journal
is flushed again (DEDUCED, log entry 15). -/
def State.powerStop (s : State) (last : Nat) : State :=
  let s := if s.inRun then { s with sup := { s.sup with keep := s.partnerEligible } }.enterHalt 6 last else s
  { s with sup := { s.sup with latticeStop := true } }.flushJournal

/-- The next frame boundary; the first one at or after the power-fail warning stops the lattice, and the frame it opens never starts
(R483). -/
def State.frameTick (s : State) : State :=
  let t := s.frameTickAt s.nextTick none
  if s.sup.pfwAt.isSome && !s.sup.latticeStop then t.powerStop (t.tb.frameNo - 1) else t

/-- FRAME_TICK (R48): ticks run in STOP, RUN and HALT. -/
def execFrameTick (s : State) : Next := .next <|
  match s.unit with
  | .stop | .run | .halt => s.frameTick
  | _ => s

end Sys2Proof.Machine
end

