-- ==== Sys2Proof/Machine/RunState.lean ====
section
/-! DEFINITION. The run state by register command: start, entry into RUN, stop, erasure of the retentive copy (R144 to R148, R152). -/

namespace Sys2Proof.Machine

open Sys2Proof

/-- The opcode of START, whose requests wait for RUN. -/
def opStart : Nat := 0x0301

/-- TT_RUN_STATUS.REFUSE takes a reason and START is answered with it (R146, R385). -/
def State.startRefuse (s : State) (r : Nat) (status : Nat) : State :=
  let s := { s with tt := { s.tt with starting := none }, fw := { s.fw with auto := false } }
  (s.wr R.TT_RUN_STATUS_REFUSE r).wake opStart 0 status

/-- The pair role forbids a start: the partner runs, or this unit is not PREFERRED and its partner is present (R357; DEDUCED, log entry 18).
A unit that joins by a mixed join starts under it, and an AUTORUN start waits for the PREFERRED unit no longer than R458 says. -/
def State.startRole (s : State) : Bool :=
  s.bit R.PA_CFG_EN && !s.pair.joining && (s.bit R.PA_STATUS_PARTNER_HEALTHY || (!s.preferred && s.linkUp && !s.fw.auto))

/-- The reasons of R146 that a held base does not change, 0 for none. -/
def State.startReason (s : State) (kind : Nat) : Nat :=
  if !s.inStop then 1
  else if s.tt.slot0.isNone && s.tt.base.isNone then 2
  else if s.bit R.TT_ADMITTED_VALID && s.slotBad (s.rd R.TT_MODE_CUR_ACTIVE) then 4
  else if s.bit R.TT_ADMITTED_VALID && s.modeMismatch s.tt.map then 5
  else if kind = 2 && !s.tt.hotOk then 6
  else if s.startRole then 7
  else 0

/-- KIND 3 acts as WARM (R152). -/
def startKind (kind : Nat) : Nat := if kind % 4 = 3 then 0 else kind % 4

/-- START is checked; RUN_ENTRY follows within 200 ms, after the admission where one is needed (R146).  An accepted START sets REFUSE to 0; a
second START while one initialises leaves that one as it is: refused it only reports its reason, else it does nothing (DESIGN CHOICE, log entry 89). -/
def State.start (s : State) (kind : Nat) : State :=
  let k := startKind kind
  let r := s.startReason k
  if s.tt.starting.isSome then (if r != 0 then s.wr R.TT_RUN_STATUS_REFUSE r else s)
  else if r != 0 then s.startRefuse r (0x0300 + r)
  else { s.wr R.TT_RUN_STATUS_REFUSE 0 with tt := { s.tt with starting := some k } }

/-- A write of 1 to TT_RUN_CTRL.START, with the KIND of the word while the lock is open (R146, R152). -/
def execTtRunStart (kind : Nat) (s : State) : Next := .next <|
  let s := if s.lockOpen then s.wr R.TT_RUN_CTRL_KIND kind else s
  s.start (s.rd R.TT_RUN_CTRL_KIND)

/-- The tick at which RUN begins: the tb after the command is accepted in free alignment, else the next tick (R50, R52). -/
def State.entryTick (s : State) : Nat :=
  if s.rd R.TT_ALIGN_MODE = 0 && !s.following then s.tb.frc + 1 else s.nextTick

/-- RUN_ENTRY: admission where none stands, initialisation, and the first RUN frame with outputs safe (R145 to R147) (DESIGN CHOICE, log entries 23, 86). -/
def execRunEntry (s : State) : Next := .next <|
  match s.tt.starting with
  | none => s
  | some kind =>
    if !s.inStop || s.sup.pfwAt.isSome then s
    else
      let s := if s.bit R.TT_ADMITTED_VALID then s else (s.admRun 0 0).admDone
      match s.tt.base with
      | none => s.startRefuse 3 (s.rd R.TT_ADM_STATUS_CODE)
      | some b =>
        if !s.bit R.TT_ADMITTED_VALID then s.startRefuse 3 (s.rd R.TT_ADM_STATUS_CODE)
        else
          let r := s.startReason kind
          if r != 0 then s.startRefuse r (0x0300 + r)
          else
            let s := if s.pair.joining then s.path [5, 1] else s
            ((s.loadStart b kind).frameTickAt s.entryTick (some kind)).wake opStart 0 0

/-- A stop is ordered for the next boundary (R148) (DEDUCED, log entry 71). -/
def State.stopOrder (s : State) : State :=
  if s.inRun then { s with tt := { s.tt with stopAt := some (s.tt.stopAt.getD (s.tb.frameNo + 1)), stopCmd := true } } else s

/-- A write of 1 to TT_RUN_CTRL.STOP (R148). -/
def execTtRunStop (s : State) : Next := .next s.stopOrder

/-- STOP_TAKES_EFFECT: the boundary at which the ordered stop acts (R125, R148). -/
def execStopTakesEffect (s : State) : Next := .next (if s.inRun && s.tt.stopAt.isSome then s.frameTick else s)

/-- The MRAM copy is erased (R152). -/
def State.retClear (s : State) : State :=
  let s := s.clearMem Config.mramBase (Config.mramBase + 0x100000)
  { s with tt := { s.tt with mram := none, journal := [], sealedRecs := [], coldCopy := none, throughPending := [] } }.retBusy

/-- A write of 1 to TT_RET_CTRL.CLEAR: in STOP with the lock open (R152). -/
def execTtRetClear (s : State) : Next := .next (if s.inStop && s.lockOpen then s.retClear else s)

end Sys2Proof.Machine
end

