-- ==== Sys2Proof/Machine/Indicator.lean ====
section
/-! DEFINITION. The front indicator (R439 to R452): the display gateway, the panel's controller, its rectangles and legal-zone pages. -/

namespace Sys2Proof.Machine

open Sys2Proof

/-! ### What the module sees of the gateway -/

/-- The DG_ fields that report the controller's state follow it (R452). -/
def State.dgShow (s : State) : State :=
  let d := s.disp
  let b (x : Bool) : Nat := if x then 1 else 0
  let s := (s.wr R.DG_STATUS_READY (b d.ready)).wr R.DG_STATUS_REPAINT (b d.repaint)
  let s := (s.wr R.DG_STATUS_CRACK (b d.crack)).wr R.DG_STATUS_PUMP (b d.pump)
  let s := (s.wr R.DG_STATUS_LEGAL_WAIT (b d.legalWait)).wr R.DG_STATUS_IN_FLIGHT d.flight.length
  let s := s.wr R.DG_STATUS_QUEUED d.queue.length
  match d.done with
  | (t, o) :: _ => ((s.wr R.DG_DONE_TICKET t).wr R.DG_DONE_OUTCOME o).wr R.DG_DONE_VALID 1
  | [] => ((s.wr R.DG_DONE_TICKET 0).wr R.DG_DONE_OUTCOME 0).wr R.DG_DONE_VALID 0

/-! ### Rectangles (R442 to R446) -/

/-- Two rectangles share at least one pixel (R445). -/
def Rect.overlaps (a b : Rect) : Bool :=
  decide (a.x < b.x + b.w) && decide (b.x < a.x + a.w) && decide (a.y < b.y + b.h) && decide (b.y < a.y + a.h)

/-- The controller may start rectangles: it answers, the panel is whole, no warning stands, no start repaint runs, and none waits to be
repainted (R449 to R451). -/
def State.dgRuns (s : State) : Bool :=
  s.disp.ready && !s.disp.crack && s.sup.pfwAt.isNone && !s.disp.repaint && s.disp.redo.isEmpty &&
    !(s.disp.flight.any (fun f => f.rect.silent && !f.rect.legal))

/-- One of the 4 places is free; on the charge pump only one rectangle is in flight (R445, R448). -/
def State.dgPlace (s : State) : Bool :=
  decide (s.disp.flight.length < 4) && (!s.disp.pump || s.disp.flight.isEmpty)

/-- `since` of every waiting rectangle: the first instant at which the conditions of R445 hold, as long as they do; `before` are the
rectangles queued before. -/
def sinceOf (s : State) (before : List Rect) : List Rect → List Rect
  | [] => []
  | r :: rs =>
    let ok := s.dgRuns && s.dgPlace && !s.disp.legalWait && !(s.disp.flight.any (fun f => f.rect.overlaps r)) && !(before.any (fun b => b.overlaps r))
    { r with since := if ok then some (r.since.getD s.tb.frc) else none } :: sinceOf s (before ++ [r]) rs

/-- The start conditions are looked at again, and the gateway reports. -/
def State.dgUpdate (s : State) : State :=
  { s with disp := { s.disp with queue := sinceOf s [] s.disp.queue } }.dgShow

/-- The opcodes of IND_RECT and IND_CLEAR, whose requests wait for their rectangle (R446). -/
def opRect : Nat := 0x0B01
def opClear : Nat := 0x0B03

/-- A ticket is reported with its outcome: into the completion queue of 32 entries while it has room, and to the command that waits.
A rectangle that was not painted answers its command with INTERNAL, whose cause is journalled (R385, R446). -/
def State.dgReport (s : State) (ticket outcome : Nat) : State :=
  let s := if s.disp.done.length < 32 then { s with disp := { s.disp with done := s.disp.done ++ [(ticket, outcome)] } } else s
  if outcome = 0 then ((s.inc R.DG_COUNT_DONE).wake opRect ticket 0).wake opClear ticket 0
  else ((s.journal 0x0D .internal [outcome, ticket]).wake opRect ticket 0x000D).wake opClear ticket 0x000D

/-- Report a list of rectangles of the management area that reported tickets stand for. -/
def State.dgReportAll (s : State) (rs : List Rect) (outcome : Nat) : State :=
  (rs.filter (fun r => !r.silent && !r.legal)).foldl (fun s r => s.dgReport r.ticket outcome) s

/-- The order in which R443 refuses, 0 for none; `n` pixel bytes have come. -/
def State.dgCode (s : State) (x y w h wave n : Nat) (px : Bytes) : Nat :=
  if decide (y < 64) && decide (0 < h) then 1
  else if w = 0 || h = 0 || 400 < x + w || 240 < y + h then 2
  else if x % 4 ≠ 0 || w % 4 ≠ 0 then 3
  else if n ≠ w * h / 4 then 4
  else if 2 < wave then 5
  else if wave = 2 && px.any (fun b => (List.range 4).any (fun i => let l := bitsOf b.toNat (2 * i) 2; l == 1 || l == 2)) then 6
  else if s.disp.crack then 7
  else if 16 ≤ s.disp.queue.length then 8
  else if !s.disp.ready then 9
  else 0

/-- A submission: a ticket, or the refusal code (R443). -/
def State.dgSubmit (s : State) (x y w h wave : Nat) (px : Bytes) : State × Nat :=
  let c := s.dgCode x y w h wave px.length px
  if c = 0 then
    let t := s.disp.ticket
    let r : Rect := { x, y, w, h, wave, ticket := t, pixels := px, since := none, silent := false, legal := false, vals := [] }
    let s := { s with disp := { s.disp with queue := s.disp.queue ++ [r], ticket := (t + 1) % 256 } }
    let s := ((s.wr R.DG_SUB_TICKET t).wr R.DG_SUB_ACCEPTED 1).wr R.DG_SUB_REFUSED 0
    (s.dgUpdate, 0)
  else
    let s := ((s.wr R.DG_SUB_CODE c).wr R.DG_SUB_REFUSED 1).wr R.DG_SUB_ACCEPTED 0
    (s.inc R.DG_COUNT_REFUSED, c)

/-- The first `n` bytes of DG_BUF. -/
def State.dgBuf (s : State) (n : Nat) : Bytes :=
  ((List.range ((n + 3) / 4)).flatMap (fun i => leBytes 4 (s.rd R.DG_BUF i))).take n

/-- DG_CTRL.SUBMIT: the rectangle of DG_RECT, DG_SIZE and DG_CTRL.WAVE with the first W × H ÷ 4 bytes of DG_BUF (R443, R452). -/
def execDgSubmit (s : State) : Next :=
  let w := s.rd R.DG_SIZE_W
  let h := s.rd R.DG_SIZE_H
  .next (s.dgSubmit (s.rd R.DG_RECT_X) (s.rd R.DG_RECT_Y) w h (s.rd R.DG_CTRL_WAVE) (s.dgBuf (min 17600 (w * h / 4)))).1

/-- DG_DONE_POP.POP removes the head completion (R452). -/
def execDgDonePop (s : State) : Next := .next { s with disp := { s.disp with done := s.disp.done.drop 1 } }.dgShow

/-! ### Painting (R444, R445) -/

/-- No rectangle starts at this panel temperature (0.1 °C) (DESIGN CHOICE, log entry 20). -/
def tempHold (temp : Int) : Bool := decide (temp < -150) || decide (700 < temp)

/-- Phases of a waveform at a panel temperature (DESIGN CHOICE, log entry 20). -/
def phases (wave : Nat) (temp : Int) : Nat :=
  let n := match wave with | 0 => 30 | 1 => 15 | _ => 6
  if 0 ≤ temp && temp < 500 then n else 2 * n

/-- DG_TEMP and TEMP_HOLD take a measurement (R444). -/
def State.dgTemp (s : State) (temp : Int) : State :=
  (s.wr R.DG_TEMP (ofInt 16 temp)).wr R.DG_STATUS_TEMP_HOLD (if tempHold temp then 1 else 0)

/-- A rectangle goes into flight: 20 ms a phase (DESIGN CHOICE, log entry 20). -/
def State.dgFly (s : State) (r : Rect) (temp : Int) : State :=
  { s with disp := { s.disp with flight := s.disp.flight ++ [{ rect := r, done := s.tb.frc + 2000000 * phases r.wave temp }] } }

/-- The ASCII codes of the pattern NO METROLOGY, which the legal zone of NPS-96D-X shows for good (R1, R4). -/
def noMetrology : List Nat := [0x4E, 0x4F, 0x20, 0x4D, 0x45, 0x54, 0x52, 0x4F, 0x4C, 0x4F, 0x47, 0x59]

/-- What a painting of the legal zone puts there: on NPS-96D-M the values wanted and the compartment time at which they were committed (R441), on
NPS-96D-X the fixed pattern alone (R1, R4). -/
def State.legalPaint (s : State) : List Nat := if Config.variantM then s.disp.want ++ [s.disp.wantAt.1, s.disp.wantAt.2] else noMetrology

/-- The waiting legal-zone update as a rectangle, painted with GREY (R444). -/
def State.legalRect (s : State) : Rect :=
  { x := 0, y := 0, w := 400, h := 64, wave := 1, ticket := 0, pixels := [], since := none, silent := true, legal := true, vals := s.legalPaint }

/-- The management rectangle that starts next: of those whose conditions hold for 2 ms, the one they have held for longest. -/
def nextRect (frc : Nat) : List Rect → Option Rect
  | [] => none
  | r :: rs =>
    let due (x : Rect) : Option Nat := x.since.filter (fun t => decide (t + 200000 ≤ frc))
    match due r, nextRect frc rs with
    | none, n => n
    | some _, none => some r
    | some t, some r' => if t ≤ r'.since.getD 0 then some r else some r'

/-- A rectangle starts: one to repaint with FULL, a legal-zone update as soon as a place is free, else a waiting rectangle 2 ms after its
conditions hold; none outside −15 °C to 70 °C (R444, R445, R450). -/
def State.dgStart (s : State) (temp : Int) : State :=
  if !s.disp.ready || s.disp.crack then s
  else
    let s := s.dgTemp temp
    if tempHold temp || s.sup.pfwAt.isSome || !s.dgPlace then s
    else match s.disp.redo with
      | r :: rs => ({ s with disp := { s.disp with redo := rs } }.dgFly { r with wave := 0, silent := true } temp).dgUpdate
      | [] =>
        if s.disp.repaint then s
        else if s.disp.legalWait then
          if s.disp.flight.any (fun f => f.rect.legal) then s
          else ({ s with disp := { s.disp with legalWait := false } }.dgFly s.legalRect temp).dgUpdate
        else match nextRect s.tb.frc s.disp.queue with
          | none => s
          | some r =>
            ({ s with disp := { s.disp with queue := s.disp.queue.filter (fun q => q.ticket != r.ticket) } }.dgFly r temp).dgUpdate

/-- A waiting rectangle starts its waveform at panel temperature `temp` (0.1 °C). -/
def execRectangleStart (temp : Int) (s : State) : Next := .next (if s.fw.restarting.contains 6 then s else s.dgStart temp)

/-- Pixels of a rectangle of the management area as rows of (address, bytes) in the panel. -/
def State.panelPut (s : State) (x y w h : Nat) (px : Bytes) : State :=
  (List.range h).foldl (fun s j => if y + j < 64 then s
    else s.setBytes (Config.panelBase + (y + j - 64) * 100 + x / 4) ((px.drop (j * (w / 4))).take (w / 4))) s

/-- A rectangle's area holds what a waveform left when it stopped: free values (R450). -/
def State.panelFree (s : State) (r : Rect) : State :=
  let n := r.h * (r.w / 4)
  let px := (List.range n).map (fun i => BitVec.ofNat 8 (Config.freeNat (s.free + i)))
  let s := { s.panelPut r.x r.y r.w r.h px with free := s.free + n }
  if r.y < 64 then { s with disp := { s.disp with shown := none } } else s

/-- The whole panel as a start repaint paints it: the legal zone, and the management area at level 3 (R451). -/
def State.wholeRect (s : State) : Rect :=
  { x := 0, y := 0, w := 400, h := 240, wave := 0, ticket := 0, pixels := List.replicate 24000 0xFF, since := none, silent := true, legal := false, vals := s.legalPaint }

/-- The rectangle's last phase ends: its pixels stand on the panel (DESIGN CHOICE, log entry 20). -/
def State.dgPainted (s : State) (r : Rect) : State :=
  let s := if r.legal then s else s.panelPut r.x r.y r.w r.h r.pixels
  if r.y < 64 then { s with disp := { s.disp with shown := some r.vals } } else s

/-- The rectangle in flight that ends first. -/
def firstDone : List Flight → Option Flight
  | [] => none
  | f :: fs => match firstDone fs with
    | none => some f
    | some g => if f.done ≤ g.done then some f else some g

/-- A rectangle completes: DONE is reported (R446), the start repaint ends with REPAINT_DONE (R451). -/
def execRectangleComplete (s : State) : Next := .next <|
  match firstDone s.disp.flight with
  | none => s
  | some f =>
    if s.tb.frc < f.done then s
    else
      let s := { s with disp := { s.disp with flight := s.disp.flight.erase f } }
      let s := s.dgPainted f.rect
      let s := if f.rect.h = 240 then
          { s.wr R.DG_STATUS_REPAINT_DONE 1 with disp := { s.disp with repaint := false } }
        else s
      (s.dgReportAll [f.rect] 0).dgUpdate

/-! ### The legal zone (R441) -/

/-- The parameter set in bytes: every value in 4 bytes, in the order of its ID and system. -/
def MetParams.bytes (p : MetParams) : Bytes :=
  (p.ctP ++ p.ctS ++ p.vtP ++ p.vtS ++ p.shunt ++ p.divider ++ p.weight ++ [p.enabled, p.pages, p.period]).flatMap (leBytes 4)

/-- CFG_HASH (R422). -/
def State.cfgHashMet (s : State) : Bytes := (leBytes 48 (Config.sha384 s.met.params.bytes)).take 16

/-- The registers of a page, whole units rounded down (DESIGN CHOICE, log entry 20). -/
def State.pageVals (s : State) (page : Nat) : List Nat :=
  let reg (i : Nat) : Nat := (s.met.regs.getD i (0, 0)).1
  let part (i n unit : Nat) : List Nat := (List.range n).map (fun k => reg (i + k) / unit)
  match page with
  | 0 => part 0 2 1000000
  | 1 => part 2 4 1000000
  | 2 => part 6 2 1000000
  | 3 => part 8 4 1000000
  | 4 => part 12 2 1000000 ++ part 14 2 1000
  | 5 => part 16 2 1000000 ++ part 18 2 1000
  | 6 => part 20 4 1
  | _ => [Config.compSerial, Config.serial, Config.swId, s.met.sealCount, leNat s.cfgHashMet]

/-- What the legal zone shows: on NPS-96D-X the fixed pattern of R1, else the page with its header (R441) (DESIGN CHOICE, log entry 20). -/
def State.legalVals (s : State) : List Nat :=
  if Config.variantM then
    [s.disp.page, Config.compSerial, Config.swId, s.met.sealCount, if s.met.latch then 1 else 0, if s.met.lid then 1 else 0] ++
      s.pageVals s.disp.page
  else noMetrology

/-- A legal-zone update waits whenever a value of the page has changed (R441). -/
def State.dgLegal (s : State) : State :=
  let v := s.legalVals
  if Config.variantM && s.disp.ready && s.disp.want != v then
    { s with disp := { s.disp with want := v, wantAt := (s.met.sec, s.met.ns), legalWait := true } }.dgUpdate
  else s

/-- The next page enabled by parameter 0x0009 after `p`; page 7 always is. -/
def nextPage (pages p : Nat) : Nat :=
  (((List.range 8).map (fun i => (p + 1 + i) % 8)).find? (fun q => q == 7 || bitOf pages q)).getD 7

/-- Every 10 s the legal zone moves to the next page (R441). -/
def execLegalPageAdvance (s : State) : Next := .next <|
  if Config.variantM && s.disp.ready && decide (s.disp.pageAt + 1000000000 ≤ s.tb.frc) then
    let s := { s with disp := { s.disp with page := nextPage s.met.params.pages s.disp.page, pageAt := s.tb.frc } }
    s.dgLegal
  else s

/-! ### Rails, crack loop, power (R447 to R451) -/

/-- A supplied rail leaves ±5 %: the charge pump takes over (R448) (DESIGN CHOICE, log entry 85). -/
def execRailOutOfTolerance (s : State) : Next := .next { s with disp := { s.disp with pump := true, pumpAt := s.tb.frc } }.dgUpdate

/-- The supplied rails, good for 1 s, are taken back when nothing is in flight (R448). -/
def execPumpRelease (s : State) : Next := .next <|
  if s.disp.flight.isEmpty && decide (s.disp.pumpAt + 100000000 ≤ s.tb.frc) then { s with disp := { s.disp with pump := false } }.dgUpdate else s

/-- Driving stops: what is in flight leaves its area as it is. -/
def State.dgHalt (s : State) : State :=
  let s := s.disp.flight.foldl (fun s f => s.panelFree f.rect) s
  { s with disp := { s.disp with flight := [] } }

/-- The crack loop is measured; open, driving stops and every rectangle is ABORTED_CRACK (R449) (DESIGN CHOICE, log entry 20). -/
def State.dgCrack (s : State) : State :=
  let all := s.disp.flight.map (·.rect) ++ s.disp.queue
  let s := s.dgHalt
  let s := { s with disp := { s.disp with crack := true, queue := [], redo := [], legalWait := false, repaint := false } }
  (s.dgReportAll all 2).dgUpdate

/-- A measurement of the crack loop (R449) (DESIGN CHOICE, log entry 85). -/
def execCrackCheck (broken : Bool) (s : State) : Next := .next <|
  if broken && s.disp.ready && !s.disp.crack then s.dgCrack else s.dgUpdate

/-- The power-fail warning stops what is in flight: ABORTED_POWER, to be repainted if the warning clears (R450). -/
def State.dgWarn (s : State) : State :=
  let rs := s.disp.flight.map (·.rect)
  let s := s.dgHalt
  let s := { s with disp := { s.disp with redo := s.disp.redo ++ rs.map (fun (r : Rect) => { r with silent := true }) } }
  (s.dgReportAll rs 1).dgUpdate

/-- The controller loses its supply: its queue and image copy are lost (R450). -/
def State.dgDown (s : State) : State :=
  let lost := (s.disp.queue.filter (fun r => !r.silent)).map (·.ticket)
  let s := s.dgHalt
  { s with disp := { s.disp with ready := false, repaint := true, queue := [], redo := [], legalWait := false, pump := false, lost := s.disp.lost ++ lost } }.dgUpdate

/-- The controller starts: it measures the loop, reports what it lost as CLEARED, and repaints the whole panel with FULL; the page is
the first one enabled (R449, R451) (DESIGN CHOICE, log entry 20). -/
def execStartRepaint (temp : Int) (broken : Bool) (s : State) : Next := .next <|
  if s.disp.ready || (Config.variantM && !s.met.powered) then s
  else
    let lost := s.disp.lost
    let s := { s with disp := { s.disp with ready := true, crack := broken, repaint := !broken, lost := [], page := nextPage s.met.params.pages 7, pageAt := s.tb.frc } }
    let s := { s with disp := { s.disp with want := s.legalVals, wantAt := (s.met.sec, s.met.ns), legalWait := false } }
    let s := lost.foldl (fun s t => s.dgReport t 3) s
    let s := { s with disp := { s.disp with redo := if broken then [] else [s.wholeRect] } }
    (s.dgStart temp).dgUpdate

/-! ### Command packets of group 0x0B -/

/-- Submit for a command: it waits for the completion, or is refused with 0x0B00 + code (R385, R446). -/
def State.indSubmit (s : State) (r : Req) (c : Cmd) (x y w h wave : Nat) (px : Bytes) : State :=
  let t := s.disp.ticket
  let (s, code) := s.dgSubmit x y w h wave px
  if code = 0 then s.await r c t else s.reply r c (0x0B00 + code)

/-- IND_RECT submits with GREY (R443, R444). -/
def execIndRect (r : Req) (x y w h : Nat) (pixels : Bytes) (s : State) : Next :=
  let c : Cmd := { op := opRect, level := .operator }
  .next (s.command r c (fun s => s.indSubmit r c x y w h 1 pixels))

/-- IND_STATUS answers the gateway's queue state. -/
def execIndStatus (r : Req) (s : State) : Next :=
  let c : Cmd := { op := 0x0B02, level := .observer }
  .next (s.command r c (fun s => s.reply r c 0 [s.rd R.DG_STATUS_READY, s.rd R.DG_STATUS_REPAINT, s.rd R.DG_STATUS_CRACK, s.rd R.DG_STATUS_LEGAL_WAIT,
    s.rd R.DG_STATUS_IN_FLIGHT, s.rd R.DG_STATUS_QUEUED]))

/-- IND_CLEAR submits the whole management area at level 3 with FULL (R444). -/
def execIndClear (r : Req) (s : State) : Next :=
  let c : Cmd := { op := opClear, level := .operator }
  .next (s.command r c (fun s => s.indSubmit r c 0 64 400 176 0 (List.replicate 17600 0xFF)))

end Sys2Proof.Machine
end

