-- ==== Sys2Proof/Machine/Metrology.lean ====
section
/-! DEFINITION. The sealed metrology compartment (R411 to R437) and the module's side of its mailbox (R424 to R427, R438).  It keeps its own time in µs; none of
its rows does anything on NPS-96D-X (R1). -/

namespace Sys2Proof.Machine

open Sys2Proof

/-- A compartment row: nothing happens on NPS-96D-X, nor, when it needs the supply, without it (DESIGN CHOICE, log entry 19). -/
def State.metRow (s : State) (supply : Bool) (f : State → State) : Next :=
  .next (if Config.variantM && (!supply || s.met.powered) then f s else s)

/-! ### Audit log (R428 to R430) -/

/-- The class of a code (R430): 1 legal. -/
def auditClass (code : Nat) : Nat := if [0x10, 0x11, 0x12, 0x20, 0x21, 0x40, 0x41].contains code then 1 else 0

/-- Codes of seal, lid and power events, which may use the last 16 positions (R428). -/
def auditReserved (code : Nat) : Bool := [0x01, 0x02, 0x03, 0x04, 0x10, 0x11, 0x12].contains code

/-- 4,080 legal entries are held (R428). -/
def State.logFull (s : State) : Bool := decide (4080 ≤ (s.met.log.filter (fun e => e.cls == 1)).length)

/-- The list without its first operational entry. -/
def dropOperational : List AuditEntry → List AuditEntry
  | [] => []
  | e :: es => if e.cls == 0 then es else e :: dropOperational es

/-- A log with a new entry: at its capacity the oldest operational entry is overwritten; `none` when only legal ones are held. -/
def auditPut (log : List AuditEntry) (e : AuditEntry) : Option (List AuditEntry) :=
  if log.length < (if auditReserved e.code then 4096 else 4080) then some (log ++ [e])
  else if log.any (fun x => x.cls == 0) then some (dropOperational log ++ [e])
  else none

/-- An audit entry is written; its EVENT record is to be sent (R420, R429). -/
def State.audit (s : State) (code sys old new : Nat) : State :=
  let m := s.met
  let e : AuditEntry := { seq := m.auditSeq + 1, sec := m.sec % 2 ^ 48, ms := m.ns / 1000000, code, sys, cls := auditClass code, old := old % 2 ^ 64, new := new % 2 ^ 64 }
  match auditPut m.log e with
  | none => s
  | some log => { s with met := { m with auditSeq := m.auditSeq + 1, log, unsent := m.unsent ++ [e] } }

/-- The 32 bytes of an entry (R429). -/
def AuditEntry.bytes (e : AuditEntry) : Bytes :=
  leBytes 4 e.seq ++ leBytes 6 e.sec ++ leBytes 2 e.ms ++ leBytes 2 e.code ++ leBytes 1 e.sys ++ leBytes 1 e.cls ++ leBytes 8 e.old ++ leBytes 8 e.new

/-! ### Records (R420 to R422) -/

/-- FLAGS (R421). -/
def State.metFlags (s : State) : Nat :=
  let b (x : Bool) (i : Nat) : Nat := if x then 2 ^ i else 0
  b s.met.latch 0 + b s.met.clockInvalid 1 + b s.met.lastPartial 2 + b s.met.measErr 3 + b s.logFull 4 + b s.met.lid 5

/-- The state word of STATUS (R422). -/
def State.metState (s : State) : Nat :=
  let b (x : Bool) (i : Nat) : Nat := if x then 2 ^ i else 0
  b s.met.latch 0 + b s.met.lid 1 + s.met.phases.getD 0 0 % 8 * 4 + s.met.phases.getD 1 0 % 8 * 32 + b (s.met.overload.any (· != 0)) 8 +
    min 4095 s.met.log.length * 2 ^ 16

/-- A record leaves over the one-way link with the next INDEX and the compartment's signature (R420, R421). -/
def State.metSend (s : State) (kind : Nat) (payload : Bytes) : State :=
  let m := s.met
  let len := 160 + payload.length
  let body := leBytes 4 0x4352474D ++ leBytes 2 1 ++ leBytes 1 kind ++ leBytes 1 s.metFlags ++ leBytes 2 len ++ leBytes 2 0 ++ leBytes 4 (m.index + 1) ++
    leBytes 8 Config.compSerial ++ leBytes 8 Config.serial ++ leBytes 8 m.sec ++ leBytes 4 m.ns ++ leBytes 4 Config.swId ++ leBytes 4 m.sealCount ++ leBytes 12 0 ++ payload
  { s.emit .compartment .frame [kind, m.index + 1] (body ++ (Config.metSign body ++ List.replicate 96 0).take 96) with met := { m with index := m.index + 1 } }

/-- EVENT records of the entries written leave, unless the start still holds them back (R420, R437). -/
def State.metEvents (s : State) : State :=
  if s.met.starting then s
  else
    let es := s.met.unsent
    let s := { s with met := { s.met with unsent := [] } }
    es.foldl (fun s e => s.metSend 3 e.bytes) s

/-! ### Parameters (R432) -/

/-- A parameter's value; `none` for an ID and system that name none. -/
def MetParams.get (p : MetParams) (id sys : Nat) : Option Nat :=
  let at_ (l : List Nat) (b n : Nat) : Option Nat := if b ≤ sys && sys < b + n then some (l.getD (sys - b) 0) else none
  match id with
  | 1 => at_ p.ctP 0 2
  | 2 => at_ p.ctS 0 2
  | 3 => at_ p.vtP 0 2
  | 4 => at_ p.vtS 0 2
  | 5 => at_ p.shunt 2 2
  | 6 => at_ p.divider 2 2
  | 7 => at_ p.weight 4 4
  | 8 => some p.enabled
  | 9 => some p.pages
  | 10 => some p.period
  | _ => none

/-- A parameter set to a value. -/
def MetParams.set (p : MetParams) (id sys v : Nat) : MetParams :=
  match id with
  | 1 => { p with ctP := p.ctP.set sys v }
  | 2 => { p with ctS := p.ctS.set sys v }
  | 3 => { p with vtP := p.vtP.set sys v }
  | 4 => { p with vtS := p.vtS.set sys v }
  | 5 => { p with shunt := p.shunt.set (sys - 2) v }
  | 6 => { p with divider := p.divider.set (sys - 2) v }
  | 7 => { p with weight := p.weight.set (sys - 4) v }
  | 8 => { p with enabled := v }
  | 9 => { p with pages := v }
  | 10 => { p with period := v }
  | _ => p

/-- The ranges of R432. -/
def metRange (id v ns : Nat) : Bool :=
  match id with
  | 1 => decide (1 ≤ v) && decide (v ≤ 50000)
  | 2 => v == 1 || v == 5
  | 3 => decide (100 ≤ v) && decide (v ≤ 800000)
  | 4 => decide (100 ≤ v) && decide (v ≤ 500)
  | 5 => decide (1 ≤ v) && decide (v ≤ 20000)
  | 6 => decide (1 ≤ v) && decide (v ≤ 1000)
  | 7 => decide (1 ≤ v) && decide (v ≤ 1000000)
  | 8 => decide (v ≤ 255)
  | 9 => decide (v ≤ 255)
  | 10 => [1, 2, 3, 4, 5, 6, 10, 12, 15, 20, 30, 60].contains v
  | 11 => decide (v < 2 ^ 64) && decide (ns < 1000000000)
  | 12 => decide (1 ≤ v) && decide (v ≤ 99999999)
  | _ => false

/-- The parameters as the writes still waiting leave them. -/
def State.metNext (s : State) : MetParams := s.met.waiting.foldl (fun p w => p.set w.1 w.2.1 w.2.2.1) s.met.params

/-! ### Metering (R413, R415, R416) -/

/-- Add `x` (10⁻⁹ of a base unit) to a register of 3.6 × 10⁹ such parts a unit. -/
def regAdd (x : Nat) (r : Nat × Nat) : Nat × Nat :=
  ((r.1 + (r.2 + x) / 3600000000) % 2 ^ 64, (r.2 + x) % 3600000000)

/-- A signed amount into an import and an export register. -/
def regSplit (x : Int) (imp : Nat) (l : List (Nat × Nat)) : List (Nat × Nat) :=
  if 0 ≤ x then l.modify imp (regAdd x.toNat) else l.modify (imp + 1) (regAdd (-x).toNat)

/-- The quadrant of R_Q1 to R_Q4 by the signs of P and Q. -/
def quadrant (p q : Int) : Nat := if 0 ≤ q then (if 0 ≤ p then 0 else 1) else (if p < 0 then 2 else 3)

/-- The energy of an AC system in primary values: × CT ratio × VT ratio (R413). -/
def acPrimary (p : MetParams) (i : Nat) (e : Int) : Int :=
  roundDiv (e * (p.ctP.getD i 1 * p.vtP.getD i 100 : Nat)) (p.ctS.getD i 1 * p.vtS.getD i 100 : Nat)

/-- The registers after a part of an interval, of the systems parameter 0x0008 enables. -/
def metRegs (p : MetParams) (x : MeterIn) (l : List (Nat × Nat)) : List (Nat × Nat) :=
  let ac (l : List (Nat × Nat)) (i : Nat) : List (Nat × Nat) :=
    if !bitOf p.enabled i then l
    else
      let e := x.ac.getD i (0, 0)
      let a := acPrimary p i e.1
      let q := acPrimary p i e.2
      (regSplit a (6 * i) l).modify (6 * i + 2 + quadrant a q) (regAdd q.natAbs)
  let dc (l : List (Nat × Nat)) (i : Nat) : List (Nat × Nat) :=
    if !bitOf p.enabled (2 + i) then l
    else
      let e := x.dc.getD i (0, 0)
      let a : Int := (p.shunt.getD i 100 : Nat)
      regSplit (roundDiv (e.2 * a * 50) 3) (14 + 4 * i) (regSplit (roundDiv (e.1 * (p.divider.getD i 100 : Nat) * a * 50) 3) (12 + 4 * i) l)
  let pi (l : List (Nat × Nat)) (i : Nat) : List (Nat × Nat) :=
    if !bitOf p.enabled (4 + i) then l
    else l.modify (20 + i) (fun r => ((r.1 + x.pulses.getD i 0 * p.weight.getD i 1) % 2 ^ 64, r.2))
  [0, 1, 2, 3].foldl pi ([0, 1].foldl dc ([0, 1].foldl ac l))

/-- The compartment's clock runs on by `us` µs. -/
def Met.tick (m : Met) (us : Nat) : Met :=
  let n := m.ns + us * 1000
  { m with sec := (m.sec + n / 1000000000) % 2 ^ 64, ns := n % 1000000000, up := m.up + us }

/-- A part of `us` µs of the interval in progress is committed: energy, INTERVALS, and PARTIALS with its mark (R415, R416). -/
def State.metCommit (s : State) (x : MeterIn) (us : Nat) (part : Bool) : State :=
  let m := s.met.tick us
  { s with met := { m with
      regs := metRegs m.params x m.regs, intervals := m.intervals + 1, partials := if part then m.partials + 1 else m.partials, lastPartial := part } }

/-- The interval boundary: waiting writes take effect (R432). -/
def State.metBoundary (s : State) : State :=
  let ws := s.met.waiting
  let p := s.metNext
  let s := { s with met := { s.met with params := p, waiting := [], partUs := 0 } }
  let s := match ws.reverse.find? (fun w => w.1 == 12) with
    | some (_, _, v, _) => { s with met := { s.met with armed := some (v, s.met.up) } }
    | none => s
  match ws.reverse.find? (fun w => w.1 == 11) with
  | some (_, _, sec, ns) => { s with met := { s.met with sec, ns, clockInvalid := false } }
  | none => s

/-- The flags of R421 as they stand join those of the profile period in progress. -/
def State.profileFlags (s : State) : State := { s with met := { s.met with pflags := s.met.pflags ||| s.metFlags } }

/-- A 10 ms interval ends and is committed; its remainder after a split is marked PARTIAL (R415, R436). -/
def execMeteringIntervalEnd (part : MeterIn) (s : State) : Next := s.metRow true fun s =>
  (s.metCommit part (10000 - s.met.partUs) (s.met.partUs != 0)).metBoundary.profileFlags.dgLegal

/-- At the warning the interval in progress is split `us` µs after its last commit (R436). -/
def State.metSplit (s : State) (x : MeterIn) : State :=
  if !Config.variantM || !s.met.powered then s
  else
    let s := s.audit 0x0002 0xFF s.met.intervals 0
    let left := 10000 - s.met.partUs
    let us := min x.us left
    if us = 0 || us = left then s.metEvents
    else
      let s := s.metCommit x us true
      let s := { s with met := { s.met with partUs := s.met.partUs + us } }
      (s.audit 0x0004 0xFF us s.met.intervals).profileFlags.metEvents.dgLegal

/-- The warning clears with the auxiliary supply still there (R436). -/
def State.metWarnClear (s : State) : State :=
  if !Config.variantM || !s.met.powered then s else (s.audit 0x0003 0xFF 0 0).metEvents

/-- The 12 V auxiliary falls below its limit: the interval is committed up to that instant, and the compartment stops (R436, R450). -/
def execAuxSupplyLow (part : MeterIn) (s : State) : Next :=
  if Config.variantM then s.metRow true fun s =>
    let us := min part.us (10000 - s.met.partUs)
    let s := s.metCommit part us true
    let s := (s.audit 0x0004 0xFF us s.met.intervals).profileFlags
    let s := { s with met := { s.met with powered := false, partUs := 0, armed := none } }
    s.dgDown
  else .next s.dgDown

/-- The auxiliary supply returns after `secs` s: the latch is read, POWER_UP logged, the panel is repainted by START_REPAINT, and CERT, STATUS
and the pending EVENT records follow (R431, R437). -/
def execAuxSupplyReturn (secs : Nat) (clockOk : Bool) (s : State) : Next := s.metRow false fun s =>
  if s.met.powered then s
  else
    let m := s.met
    let s := { s with met := { m with
      powered := true, starting := true, sec := (m.sec + secs) % 2 ^ 64, clockInvalid := m.clockInvalid || !clockOk,
      totalsAt := none, statusAt := none, certAt := none } }
    let s := if s.met.latch then
        let s := if s.met.counted then s else { s with met := { s.met with counted := true, sealCount := (s.met.sealCount + 1) % 2 ^ 32 } }
        s.audit 0x0010 0xFF 0 1
      else s
    let s := if s.met.lid && !s.met.lidLogged then ({ s with met := { s.met with lidLogged := true } }).audit 0x0012 0xFF 0 0 else s
    (s.audit 0x0001 0xFF secs 0).profileFlags

/-! ### Records the compartment sends (R418, R420, R422) -/

/-- Registers `i` to `i + n - 1` in 8 bytes each. -/
def State.regBytes (s : State) (i n : Nat) : Bytes := (List.range n).flatMap (fun k => leBytes 8 (s.met.regs.getD (i + k) (0, 0)).1)

/-- TOTALS once a second of the compartment clock, with the next audit entry of the replay (R420, R422, R427). -/
def execTotalsRecordSend (s : State) : Next := s.metRow true fun s =>
  if s.met.totalsAt = some s.met.sec then s
  else
    let e := s.met.log.getD (s.met.replay % max 1 s.met.log.length) { seq := 0, sec := 0, ms := 0, code := 0, sys := 0, cls := 0, old := 0, new := 0 }
    let s := s.metSend 1 (s.regBytes 0 24 ++ leBytes 8 s.met.intervals ++ leBytes 4 s.met.partials ++ leBytes 4 0 ++ e.bytes)
    { s with met := { s.met with totalsAt := some s.met.sec, replay := (s.met.replay + 1) % max 1 s.met.log.length } }

/-- A profile period ends: PROFILE holds each register's increase (R418, R422). -/
def execProfilePeriodEnd (s : State) : Next := s.metRow true fun s =>
  let per := 60 * s.met.params.period
  let now := s.met.sec / per * per
  if now = s.met.pstart then s
  else
    let inc (i : Nat) : Nat := (s.met.regs.getD i (0, 0)).1 - s.met.base.getD i 0
    let words := [0, 6].flatMap (fun b => [inc b, inc (b + 1), inc (b + 2) + inc (b + 3), inc (b + 4) + inc (b + 5)]) ++
      [inc 12, inc 13, inc 16, inc 17, inc 20, inc 21, inc 22, inc 23]
    let s := s.metSend 2 (leBytes 8 s.met.pstart ++ leBytes 4 per ++ leBytes 4 s.met.pflags ++ words.flatMap (leBytes 8))
    { s with met := { s.met with base := s.met.regs.map (·.1), pstart := now, pflags := s.metFlags } }

/-- The word a change of which makes STATUS due: FLAGS and the state word (R420). -/
def State.metWord (s : State) : Nat := s.metFlags + 2 ^ 8 * s.metState

/-- The momentary values in primary terms (R413, R422). -/
def statusBytes (p : MetParams) (m : MeterNow) : Bytes :=
  let ac (i : Nat) : Bytes :=
    let a := m.ac.getD i { v := [], i := [], p := 0, q := 0, f := 0 }
    let vt (x : Int) : Int := x * (p.vtP.getD i 100 : Nat)
    let ct (x : Int) : Int := x * (p.ctP.getD i 1 : Nat)
    let vs : Int := (p.vtS.getD i 100 : Nat)
    let cs : Int := (p.ctS.getD i 1 : Nat)
    let w (x : Int) : Bytes := leBytes 4 (ofInt 32 x)
    (List.range 3).flatMap (fun k => w (roundDiv (vt (a.v.getD k 0 : Nat)) (vs * 10000))) ++
    (List.range 3).flatMap (fun k => w (roundDiv (ct (a.i.getD k 0 : Nat)) (cs * 1000))) ++
    w (roundDiv (vt (ct a.p)) (vs * cs * 10000)) ++ w (roundDiv (vt (ct a.q)) (vs * cs * 10000)) ++ leBytes 4 a.f ++ leBytes 4 0
  let dc (i : Nat) : Bytes :=
    let d := m.dc.getD i (0, 0)
    leBytes 8 (ofInt 64 (roundDiv (d.1 * (p.divider.getD i 100 : Nat)) 1000)) ++ leBytes 8 (ofInt 64 (roundDiv (d.2 * (p.shunt.getD i 100 : Nat)) 60000))
  ac 0 ++ ac 1 ++ dc 0 ++ dc 1

/-- STATUS every 10 s and on a change of FLAGS or the state word; the first one after a start lets the pending EVENT records go (R420, R437). -/
def execStatusRecordSend (m : MeterNow) (s : State) : Next := s.metRow true fun s =>
  let due := match s.met.statusAt with
    | none => true
    | some t => decide (t + 10000000 ≤ s.met.up) || s.met.statusWord != s.metWord
  if !due then s
  else
    let s := s.metSend 4 (statusBytes s.met.params m ++ s.cfgHashMet ++ leBytes 4 s.metState)
    { s with met := { s.met with statusAt := some s.met.up, statusWord := s.metWord, starting := false } }.metEvents

/-- CERT at start and every 60 s, as two records (R420, R422). -/
def execCertRecordSend (s : State) : Next := s.metRow true fun s =>
  let due := match s.met.certAt with
    | none => true
    | some t => decide (t + 60000000 ≤ s.met.up)
  if !due then s
  else
    let part (k : Nat) (b : Bytes) : Bytes := leBytes 1 k ++ leBytes 1 2 ++ leBytes 2 b.length ++ b
    let s := s.metSend 5 (part 0 (Config.metCert.take 348))
    let s := s.metSend 5 (part 1 ((Config.metCert.drop 348).take 348))
    { s with met := { s.met with certAt := some s.met.up } }

/-! ### Events (R430 to R434) -/

/-- A self-test failure or a bad FRAM copy is logged (R430); the other codes are written by their own rows. -/
def execAuditEntryWrite (code sys old new : Nat) (s : State) : Next := s.metRow true fun s =>
  if code = 0x0040 then ({ s with met := { s.met with measErr := true } }.audit code sys old new).metEvents
  else if code = 0x0041 then (s.audit code 0xFF (old % 2) 0).metEvents
  else s

/-- The phases of an AC system below 46 V are now `mask` (R430). -/
def execPhaseLoss (sys mask : Nat) (s : State) : Next := s.metRow true fun s =>
  if 2 ≤ sys then s
  else
    let was := s.met.phases.getD sys 0
    let now := mask % 8
    let s := { s with met := { s.met with phases := s.met.phases.set sys now } }
    let lost := now &&& (7 - was)
    let back := was &&& (7 - now)
    let s := if lost != 0 then s.audit 0x0030 sys lost 0 else s
    (if back != 0 then s.audit 0x0031 sys back 0 else s).metEvents

/-- The phases of a system above Imax are now `mask`, its peak `peak` mA (R430). -/
def execOverload (sys mask peak : Nat) (s : State) : Next := s.metRow true fun s =>
  if 4 ≤ sys then s
  else
    let was := s.met.overload.getD sys 0
    let now := mask % 8
    let s := { s with met := { s.met with overload := s.met.overload.set sys now } }
    (if now &&& (7 - was) != 0 then s.audit 0x0032 sys now peak else s).metEvents

/-- The cover is lifted: the latch goes OPEN, with supply or without; a break seen is logged and counted (R431, R433). -/
def execSealCoverOpen (s : State) : Next := s.metRow false fun s =>
  let fresh := !s.met.latch
  let s := { s with met := { s.met with cover := true, latch := true, counted := s.met.counted && !fresh } }
  if fresh && s.met.powered then
    let s := { s with met := { s.met with counted := true, sealCount := (s.met.sealCount + 1) % 2 ^ 32 } }
    (s.audit 0x0010 0xFF 0 0).profileFlags.metEvents.dgLegal
  else s

/-- A programming-mode write of the service window (R432): accepted only while the latch is OPEN, in range, and the log not full. -/
def execServiceWindowWrite (id sys v ns : Nat) (s : State) : Next := s.metRow true fun s =>
  if !s.met.latch || !metRange id v ns || s.logFull then s
  else if id = 12 then
    let old := ((s.met.waiting.reverse.find? (fun w => w.1 == 12)).map (·.2.2.1)).getD ((s.met.armed.map (·.1)).getD 0)
    ({ s with met := { s.met with waiting := s.met.waiting ++ [(12, 0xFF, v, 0)] } }.audit 0x0020 0xFF old v).metEvents
  else if id = 11 then
    ({ s with met := { s.met with waiting := s.met.waiting ++ [(11, 0xFF, v, ns)] } }.audit 0x0021 0xFF s.met.sec v).metEvents
  else match s.metNext.get id sys with
    | none => s
    | some old => ({ s with met := { s.met with waiting := s.met.waiting ++ [(id, sys, v, 0)] } }.audit 0x0020 (if id ≤ 7 then sys else 0xFF) old v).metEvents

/-- A read of the service window answers the parameter in force (R432). -/
def execServiceWindowRead (id sys : Nat) (s : State) : Next := s.metRow true fun s =>
  match id with
  | 11 => s.emit .service .reply [11, s.met.sec, s.met.ns]
  | 12 => s.emit .service .reply [12, (s.met.armed.map (·.1)).getD 0]
  | _ => match s.met.params.get id sys with
    | none => s
    | some v => s.emit .service .reply [id, v]

/-- An armed reseal lapses after 120 s (R433). -/
def execResealArmExpiry (s : State) : Next := s.metRow true fun s =>
  match s.met.armed with
  | some (_, t) => if t + 120000000 ≤ s.met.up then { s with met := { s.met with armed := none } } else s
  | none => s

/-- The cover is closed: with a reseal armed the latch returns (R433); else it stays OPEN. -/
def execSealCoverClose (s : State) : Next := s.metRow false fun s =>
  let s := { s with met := { s.met with cover := false } }
  match s.met.armed with
  | some (n, t) =>
    if s.met.powered && s.met.latch && decide (s.met.up < t + 120000000) then
      let s := { s with met := { s.met with latch := false, counted := false, armed := none } }
      (s.audit 0x0011 0xFF 0 n).metEvents.dgLegal
    else s
  | none => s

/-- The enclosure is opened: LID_OPENED for good, logged once (R434). -/
def execLidOpen (s : State) : Next := s.metRow false fun s =>
  if s.met.lid then s
  else
    let s := { s with met := { s.met with lid := true, lidLogged := s.met.powered } }
    if s.met.powered then (s.audit 0x0012 0xFF 0 0).profileFlags.metEvents.dgLegal else s

/-! ### The module's side (R424 to R427, R438) -/

/-- The MG_ fields follow the queue. -/
def State.mgShow (s : State) : State :=
  let q := s.mg.queue
  let s := (s.wr R.MG_STATUS_RX_AVAIL (if q.isEmpty then 0 else 1)).wr R.MG_RX_INFO_COUNT q.length
  match q with
  | [] =>
    let s := (s.wr R.MG_RX_INFO_LEN 0).wr R.MG_RX_INFO_KIND 0
    let s := (s.wr64 R.MG_RX_FRC_LO R.MG_RX_FRC_HI 0).wr64 R.MG_RX_SEC_LO R.MG_RX_SEC_HI 0
    (s.wr R.MG_RX_NS 0).wr R.MG_RX_FRAC 0
  | r :: _ =>
    let s := (s.wr R.MG_RX_INFO_LEN (leNat ((r.data.drop 8).take 2))).wr R.MG_RX_INFO_KIND (leNat ((r.data.drop 6).take 1))
    let s := (s.wr64 R.MG_RX_FRC_LO R.MG_RX_FRC_HI r.frc).wr64 R.MG_RX_SEC_LO R.MG_RX_SEC_HI r.sec
    (s.wr R.MG_RX_NS r.ns).wr R.MG_RX_FRAC r.frac

/-- A good record enters the queue of 32, stamped with its arrival; one that finds it full is discarded (R424). -/
def State.mgStore (s : State) (data : Bytes) : State :=
  if 32 ≤ s.mg.queue.length then (s.wr R.MG_STATUS_OVERFLOW 1).inc R.MG_DROPPED
  else
    let r : MgRecord := { data, frc := s.tb.frc, sec := s.tb.sec, ns := s.tb.ns, frac := s.tb.frac }
    { s with mg := { s.mg with queue := s.mg.queue ++ [r] } }.mgShow

/-- A link frame ends: a good one is stamped and queued, one that fails its CRC-32 or finds the queue full is discarded and counted (R424). -/
def execMgRecordRx (data : Bytes) (crcOk : Bool) (s : State) : Next := s.metRow false fun s =>
  if !crcOk then (s.wr R.MG_STATUS_CRC_ERR 1).inc R.MG_CRC
  else
    let s := s.inc R.MG_RECEIVED
    let s := { s with mg := { s.mg with lastGood := some s.tb.frc } }
    let flags := leNat ((data.drop 7).take 1)
    let s := (s.wr R.MG_STATUS_SEAL_FLAG (flags % 2)).wr R.MG_STATUS_LID_FLAG (flags / 32 % 2)
    s.mgStore data

/-- POP removes the head record (R438). -/
def execMgRxPop (s : State) : Next := s.metRow false fun s =>
  { s with mg := { s.mg with queue := s.mg.queue.drop 1 } }.mgShow

/-- An audit entry's bytes join the module's copy of the log, by SEQ (R427). -/
def auditCopy (l : List (Nat × Bytes)) (e : Bytes) : List (Nat × Bytes) :=
  let seq := leNat (e.take 4)
  if seq = 0 then l
  else
    let l := alIns l seq e
    if l.length ≤ 4096 then l
    else match l.find? (fun x => leNat ((x.2.drop 15).take 1) == 0) with
      | some x => alDel l x.1
      | none => l.drop 1

/-- The seal flag of a verified record: the alarm with the first one that reports it broken, the end of Metrology sessions with the one
that reports it whole (R383, R426) (DEDUCED, log entry 82). -/
def State.sealReport (s : State) (broken : Bool) : State :=
  let was := s.mg.sealBroken
  let s := { s with mg := { s.mg with sealBroken := broken } }
  if broken && !was then
    ({ s with mg := { s.mg with alarm := true } }.notify 0x09 0x0900 0 []).journal 0x10 .sealAlarm
  else if was && !broken then
    (s.acc.sessions.filter (fun x => x.level == .metrology)).foldl (fun s x => s.closeSession x.id) s
  else s

/-- The management core takes the head record and verifies it; `ok`: its signature verifies under the certificate last received.  A genuine
record is stored by INDEX, one that fails is journalled (R423, R424). -/
def execRecordVerify (ok : Bool) (s : State) : Next := s.metRow false fun s =>
  match s.mg.queue with
  | [] => s
  | r :: rest =>
    let s := { s with mg := { s.mg with queue := rest } }.mgShow
    let field (o n : Nat) : Nat := leNat ((r.data.drop o).take n)
    let payload := (r.data.drop 0x40).take (r.data.length - 160)
    if !(ok && field 0x18 8 == Config.serial) then s.journal 0x10 .failure [field 0x0C 4]
    else
      let m := s.mg
      let m := { m with store := ((field 0x0C 4, r) :: m.store.filter (fun x => x.1 != field 0x0C 4)).take 65536 }
      let m := match field 6 1 with
        | 1 => { m with audit := auditCopy m.audit (payload.drop 0xD0) }
        | 3 => { m with audit := auditCopy m.audit payload }
        | 4 => { m with status := some r }
        | 5 => { m with cert := alIns m.cert (leNat (payload.take 1)) ((payload.drop 4).take (leNat ((payload.drop 2).take 2))) }
        | _ => m
      { s with mg := m }.sealReport (bitOf (field 7 1) 0)

end Sys2Proof.Machine
end

