-- ==== Sys2Proof/Machine/Zeroise.lean ====
section
/-! DEFINITION. What the enclave shows of ownership, and zeroisation (R394, R398, R406, R407, R410). -/

namespace Sys2Proof.Machine

open Sys2Proof

/-! ### Ownership -/

/-- The KEY_ID of a public key: the first 8 bytes of its SHA-384 (R398). -/
def keyId (key : Nat) : Nat := leNat ((leBytes 48 (Config.sha384 (leBytes 96 key))).take 8)

/-- The ownership fields of SE_STATUS and SE_OWNER_ID follow the enclave (R410). -/
def State.seShow (s : State) : State :=
  let b (x : Bool) : Nat := if x then 1 else 0
  let s := (s.wr R.SE_STATUS_OWNED (b s.trust.owner.isSome)).wr R.SE_STATUS_MEMBER (b s.trust.member.isSome)
  let s := (s.wr R.SE_STATUS_BOUND (b s.trust.partner.isSome)).wr R.SE_STATUS_Z_PENDING (b (s.trust.zeroise != 0))
  s.wr64 R.SE_OWNER_ID_LO R.SE_OWNER_ID_HI ((s.trust.owner.map keyId).getD 0)

/-! ### Zeroisation (R406, R407) -/

/-- Session level: every TLS and peer session, traffic secret and MACsec key is erased; partner links go down. -/
def State.zeroiseSessions (s : State) : State :=
  let s := s.acc.sessions.foldl (fun s x => s.closeSession x.id) s
  let s := { s with trust := { s.trust with peers := [] }, eth := { s.eth with macsec := s.eth.macsec.map (fun _ => MacSec.reset) } }
  ((List.range 6).foldl (fun s p => s.wr R.ES_MACSEC_KEY_OK 0 p) s).pairLinks

/-- What the Owner level erases beside it: the module becomes UNOWNED. -/
def State.zeroiseOwner (s : State) : State :=
  let s := { s with
    trust := { s.trust with owner := none, fik := none, successor := none, revoked := [], member := none, partner := none }
    acc := { s.acc with failPw := 0, pwLast := 0, pwUntil := none, failCr := 0, crUntil := none, tlsFails := [], pwHash := none } }
  s.wr R.SE_STATUS_FIELD_LOCK 0

/-- A zeroisation of level 1 to 3 (R406); the unit state does not change (R407). -/
def State.zeroiseAll (s : State) (level : Nat) : State :=
  let s := s.zeroiseSessions
  let s := if 2 ≤ level then s.zeroiseOwner else s
  let s := if 3 ≤ level then
      { s with trust := { s.trust with floors := [], dead := true }, tt := { s.tt with floors := [] } }
    else s
  ({ s with trust := { s.trust with zeroise := 0 } }.wr R.SE_EVENTS_ZEROISED 1).seShow

/-- A zeroisation is ordered.  While a power-fail warning stands, the hold-up of 20 ms covers the session level alone: the rest completes at the next start
or when the warning clears (R406, R407, R482) (DEDUCED, log entry 56). -/
def State.zeroise (s : State) (level : Nat) : State :=
  if 2 ≤ level && s.sup.pfwAt.isSome then
    let s := s.zeroiseSessions
    { s with trust := { s.trust with zeroise := max level s.trust.zeroise } }.seShow
  else s.zeroiseAll level

/-- A zeroisation that awaits completion completes (R407). -/
def State.zeroiseRest (s : State) : State := if s.trust.zeroise = 0 then s else s.zeroiseAll s.trust.zeroise

end Sys2Proof.Machine
end

