-- ==== Sys2Proof/Machine/Supervisor.lean ====
section
/-! DEFINITION. The safety supervisor: feeds, the power-fail warning and the shutdown, faults that lead to HALT, trip outputs (R474 to R485, R506, R507). -/

namespace Sys2Proof.Machine

open Sys2Proof

/-! ### Supply feeds (R506, R507) -/

/-- Feed `n` reads `mv` mV: SS_FEED, FEEDn_OK and FEEDn_LOST follow (R495, R506). -/
def State.feedReads (s : State) (n mv : Nat) (on : Bool) : State :=
  let s := { s with sup := { s.sup with feeds := s.sup.feeds.set n mv, feedOn := s.sup.feedOn.set n on } }
  let ok := if on && 18000 ≤ mv && mv ≤ 32000 then 1 else 0
  if n = 0 then
    let s := if s.bit R.SS_STATUS_FEED0_OK && ok == 0 then s.wr R.SS_EVENTS_FEED0_LOST 1 else s
    (s.wr R.SS_FEED_FEED0 mv).wr R.SS_STATUS_FEED0_OK ok
  else
    let s := if s.bit R.SS_STATUS_FEED1_OK && ok == 0 then s.wr R.SS_EVENTS_FEED1_LOST 1 else s
    (s.wr R.SS_FEED_FEED1 mv).wr R.SS_STATUS_FEED1_OK ok

/-- A feed is measured at `mv` mV, outside its range or inside it again (DESIGN CHOICE, log entry 85). -/
def execFeedOutOfRange (n mv : Nat) (s : State) : Next := .next <|
  if 2 ≤ n then s else s.feedReads n mv (s.sup.feedOn.getD n true)

/-- A feed above 33.0 V is disconnected by its input switch, and counts as lost (R507). -/
def execFeedOvervoltage (n : Nat) (s : State) : Next := .next <|
  if 2 ≤ n then s
  else
    let s := s.feedReads n (max 33001 (s.sup.feeds.getD n 0)) false
    if n = 0 then s.wr R.SS_EVENTS_FEED0_LOST 1 else s.wr R.SS_EVENTS_FEED1_LOST 1

/-- A feed that has stayed below 32.5 V for 100 ms is reconnected at `mv` mV (R507). -/
def execFeedReconnect (n mv : Nat) (s : State) : Next := .next <|
  if 2 ≤ n || 32500 ≤ mv then s else s.feedReads n mv true

/-! ### Power-fail warning (R481 to R485) -/

/-- The warning rises (R481, R482): HEALTHY falls, the journal is flushed, metrology splits its interval, the indicator stops, trips follow; in
BOOT the sequence stops (R458) (DEDUCED, log entry 15). -/
def execPowerFailWarning (part : MeterIn) (s : State) : Next := .next <|
  if s.unit == .off || s.sup.pfwAt.isSome then s
  else
    let s := { s with sup := { s.sup with pfwAt := some s.tb.frc, pfwClearAt := none, latticeStop := s.sup.latticeStop || s.unit == UnitState.boot } }
    let s := ((s.wr R.SS_STATUS_PFW 1).inc R.SS_PFW).journal 0x0B .pfw
    ((s.evalTrips.metSplit part).dgWarn).flushJournal

/-- The warning clears (R481, R484): before the lattice stop nothing has stopped; the compartment logs it and the indicator goes on (R436, R450) (DEDUCED, log entry 15). -/
def execPowerFailWarningClear (s : State) : Next := .next <|
  if s.sup.pfwAt.isNone then s
  else
    let s := (s.wr R.SS_STATUS_PFW 0).evalTrips
    let s :=
      if s.sup.latticeStop then { s with sup := { s.sup with pfwAt := none, pfwClearAt := some s.tb.frc } }
      else ({ s with sup := { s.sup with pfwAt := none } }.wr R.SS_EVENTS_PFW_SEEN 1).zeroiseRest.journal 0x0B .warnCleared
    s.metWarnClear.dgUpdate

/-- The lattice stops at the first frame tick at or after the warning, or 1,500,000 tb after it (R483) (DEDUCED, log entry 15). -/
def execLatticeStop (s : State) : Next := .next <|
  match s.sup.pfwAt with
  | none => s
  | some t =>
    if s.sup.latticeStop then s
    else if s.nextTick ≤ t + 1500000 then s.frameTick
    else (s.toFrc (t + 1500000)).powerStop s.tb.frameNo

/-- The hold-up ends 20 ms after the warning (R36, R482): the unit is OFF; every session, RAM and output goes, the trip switches open; a record still
sealed is lost (R485) (DEDUCED, log entry 15). -/
def execHoldUpEnd (s : State) : Next := .next <|
  match s.sup.pfwAt with
  | none => s
  | some t =>
    if s.tb.frc < t + 2000000 then s
    else
      let s := if s.inRun then s.powerStop s.tb.frameNo else s
      let lost := min 1 s.tt.sealedRecs.length
      let s := s.acc.sessions.foldl (fun s x => s.closeSession x.id) s
      let s := { s.wr R.TT_RET_FRAME_LOST lost with
        unit := .off
        tt := { s.tt with sealedRecs := [], throughPending := [] }
        sup := { s.sup with supply := false, keep := false }
        groups := s.groups.map (fun (g : Group) => { g with supply := false }) }
      (s.wr R.DIO_STATUS_OUT_OFF 1).evalTrips.driveAll

/-! ### Faults that lead to HALT (R475, R476) -/

/-- A fault with a HALT cause: outside RUN it only counts as an event (R475). -/
def State.faultHalt (s : State) (cause : Nat) : State := if s.inRun then s.enterHalt cause s.tb.frameNo else s

/-- No tick for 1.01 × P + 1 µs by the supervisor's clock (R475). -/
def execTickLost (s : State) : Next := .next (((s.wr R.SS_EVENTS_TICK_LOST 1).inc R.SS_TICK_LOST).faultHalt 3)

/-- The highest junction temperature reads `temp` × 0.1 °C, above 115 °C for 100 ms: over-temperature (R475) (DESIGN CHOICE, log entry 85). -/
def execOverTemperature (temp : Int) (s : State) : Next := .next <|
  let s := { s.wr R.SS_TEMP (ofInt 16 temp) with sup := { s.sup with temp } }
  if 1150 < temp then (s.wr R.SS_EVENTS_TEMP 1).faultHalt 4 else s

/-- A core rail outside ±8 % for 50 µs (R475). -/
def execRailOutOfRange (s : State) : Next := .next ((s.wr R.SS_EVENTS_RAIL 1).faultHalt 5)

/-! ### Trip outputs (R478, R479) -/

/-- Ones written to SS_TRIP.CMD trip their outputs (DEDUCED, log entry 59). -/
def execSsTripCmd (v : Nat) (s : State) : Next := .next (s.evalTrips (v % 16))

/-- Ones written to SS_TRIP.LATCH reset their trips where no source holds (R479). -/
def State.tripReset (s : State) (v : Nat) : State :=
  let keep := ofBits 4 (fun i => bitOf (s.rd R.SS_TRIP_LATCH) i && (!bitOf v i || s.tripNow i))
  (s.wr R.SS_TRIP_LATCH keep).evalTrips

def execSsTripLatchReset (v : Nat) (s : State) : Next := .next (s.tripReset v)

end Sys2Proof.Machine
end

