-- ==== Sys2Proof/Machine/Health.lean ====
section
/-! DEFINITION. The health and spares controller: wear evaluation, switch-ins, the journal's flush and the clearing of counters (R486 to R495). -/

namespace Sys2Proof.Machine

open Sys2Proof

/-! ### Parts and spares (R487 to R489) -/

/-- The array, link or device a part of a row, lane, phase or block kind belongs to, the parts each has, and its spares (R487). -/
def spareGroup (k i : Nat) : Nat × Nat :=
  match k with
  | 3 => (i / 768, 16)
  | 4 => (i / 2048, 41)
  | 5 => (0, 2622)
  | 6 => (i, 1)
  | 7 => (0, 2)
  | 8 => (0, 4)
  | _ => (0, 25)

/-- Parts in service of a kind with no chapter of its own. -/
def partCount (k : Nat) : Nat :=
  match k with
  | 3 => 27648 | 4 => 32768 | 5 => 131072 | 6 => 120 | 7 => 6 | 8 => 24 | _ => 65536

/-- The lowest-numbered free spare for part `i` of kind `k`, 3 to 8 or 10 (R489) (DEDUCED, log entry 38). -/
def State.freeSpare (s : State) (k i : Nat) : Option Nat :=
  let (g, n) := spareGroup k i
  (List.range n).find? (fun x => !(s.hs.maps.any (fun m => m.1 == k && (spareGroup k m.2.1).1 == g && m.2.2 == x)))

/-- HS_STATUS.BUSY follows the switch-ins in progress (DEDUCED, log entry 76). -/
def State.hsBusy (s : State) : State := s.wr R.HS_STATUS_BUSY (if s.hs.switches.isEmpty then 0 else 1)

/-- A switch-in is noted as in progress. -/
def State.hsNote (s : State) (k i spare : Nat) : State :=
  let x : SwitchIn := { kind := k, index := i, spare, ready := false }
  ((({ s with hs := { s.hs with switches := s.hs.switches ++ [x] } }).hsBusy).wr
    R.HS_SWITCH_STATUS_STATE 1).wr R.HS_SWITCH_STATUS_REASON 0

/-- A switch-in is refused with a reason: 1 EXHAUSTED, 2 BUSY, 3 CHECK, 4 STATE. -/
def State.hsRefuse (s : State) (r : Nat) : State := (s.wr R.HS_SWITCH_STATUS_STATE 4).wr R.HS_SWITCH_STATUS_REASON r

/-- A switch-in of part `i` of kind `k` is refused: 1 EXHAUSTED, 2 BUSY.  A converter's group shows it too, with its own numbers 3 and 2 (R239). -/
def State.hsDeny (s : State) (k i r : Nat) : State :=
  let s := s.hsRefuse r
  if k = 2 && i < 96 then (s.wr R.FG_SPARE_STATUS_REFUSED 1 (i / 8)).wr R.FG_SPARE_STATUS_REASON (if r = 1 then 3 else 2) (i / 8) else s

/-- The switch-in of part `i` of kind `k` begins: the spare is chosen and the switch ordered for its point (R487, R489).  INDEX is the physical tile or
unit, the channel, the row, lane, phase or block, the oscillator. -/
def State.hsStart (s : State) (k i : Nat) : State :=
  if s.hs.switches.any (fun x => x.kind == k) then s.hsDeny k i 2
  else if s.rd R.HS_INV_SPARE k = 0 then s.hsDeny k i 1
  else match k with
    | 0 =>
      if decide (36 ≤ i) || s.rd R.LT_PHYS_STATE i != 0 then s.hsRefuse 4
      else
        let l := s.rd R.LT_PHYS_LOGICAL i
        if s.lat.relocOrder.isSome || s.lat.relocCopied.isSome then s.hsRefuse 2
        else match s.spareTiles.find? (fun t => (s.placementCheck (s.placement.set l t)).isNone) with
          | none => s.hsRefuse 3
          | some t =>
          let s := { s.wr R.LT_PHYS_STATE 3 t with lat := { s.lat with relocOrder := some (l, t) } }
          s.hsNote 0 i t
    | 1 =>
      if decide (9 ≤ i) || s.rd R.SV_PHYS_STATE i != 0 then s.hsRefuse 4
      else if s.lat.svReloc.isSome then s.hsRefuse 2
      else match (List.range 9).find? (fun p => s.rd R.SV_PHYS_STATE p == 1) with
        | none => s.hsRefuse 1
        | some p => (s.svRelocOrder (s.rd R.SV_PHYS_LOGICAL i) p).hsNote 1 i p
    | 2 =>
      if 96 ≤ i then s.hsRefuse 4
      else
        let r := s.spareReason (i / 8) (i % 8)
        let conv := (s.spareConv (i / 8)).getD 8
        let s := s.spareStart (i / 8) (i % 8)
        match r with
        | 0 => s.hsNote 2 i conv
        | 2 => s.hsRefuse 2
        | 3 => s.hsRefuse 1
        | _ => s.hsRefuse 4
    | 9 =>
      if 2 ≤ i || s.rd R.TB_STATUS_REF_ACTIVE != i then s.hsRefuse 4
      else (s.orderOsc (1 - i)).hsNote 9 i (1 - i)
    | _ =>
      if 11 ≤ k || partCount k ≤ i then s.hsRefuse 4
      else match s.freeSpare k i with
        | none => s.hsRefuse 1
        | some x => s.hsNote k i x

/-- Switch-ins wait in BOOT and RECOVERY until STOP (R489). -/
def State.hsWaits (s : State) : Bool := s.unit == .boot || s.unit == .recovery

/-- Order a switch-in: it waits behind another of its kind, and in BOOT and RECOVERY (DEDUCED, log entry 76). -/
def State.hsOrder (s : State) (k i : Nat) : State :=
  if s.hsWaits || s.hs.switches.any (fun x => x.kind == k) then
    if s.hs.waiting.contains (k, i) then s else { s with hs := { s.hs with waiting := s.hs.waiting ++ [(k, i)] } }
  else s.hsStart k i

/-- Waiting switch-ins begin where nothing of their kind is in progress (DEDUCED, log entry 76). -/
def State.hsNext (s : State) : State :=
  if s.hsWaits then s
  else
    let ws := s.hs.waiting
    let s := { s with hs := { s.hs with waiting := [] } }
    ws.foldl (fun s w => s.hsOrder w.1 w.2) s

/-- A write of 1 to HS_SWITCH.START, with KIND and INDEX of the word while the lock is open (R489, R495). -/
def execHsSwitchStart (kind index : Nat) (s : State) : Next := .next <|
  let s := if s.lockOpen then (s.wr R.HS_SWITCH_KIND kind).wr R.HS_SWITCH_INDEX index else s
  let k := s.rd R.HS_SWITCH_KIND
  let i := s.rd R.HS_SWITCH_INDEX
  if s.hsWaits then (s.hsOrder k i).wr R.HS_SWITCH_STATUS_STATE 1 else s.hsStart k i

/-- Whether a switch-in has taken effect in its own machinery, or may now: tiles, solver units and converters by their registers, the
oscillator by the source in use, rows once copied, the other kinds at their point (R487). -/
def State.hsReady (s : State) (x : SwitchIn) : Bool :=
  match x.kind with
  | 0 => s.rd R.LT_PHYS_STATE x.index == 2
  | 1 => s.rd R.SV_PHYS_STATE x.index == 2
  | 2 => (s.group (x.index / 8)).shadow.isNone
  | 3 | 4 | 5 => x.ready
  | 9 => s.rd R.TB_STATUS_REF_ACTIVE == x.spare
  | _ => true

/-- The time of the point at which a switch-in of a kind takes effect (R487): rows at a frame boundary, lanes in the guard band, the rest at once. -/
def State.hsPoint (s : State) (k : Nat) : State :=
  match k with
  | 3 | 4 | 5 => if s.inRun then s.toTick else s
  | 6 | 7 => if s.inRun then s.toCycle s.G else s
  | _ => s

/-- The switch-in of kind `k` takes effect: the map is in the health record, the worn part is FAILED, the journal has an entry, and the next one of the kind
may begin (R489). -/
def execSwitchInCommit (k : Nat) (s : State) : Next := .next <|
  match s.hs.switches.find? (fun x => x.kind == k) with
  | none => s
  | some x =>
    if !s.hsReady x then s
    else
      let s := s.hsPoint k
      let s := if k = 0 || k = 1 || k = 2 then s else { s with hs := { s.hs with maps := s.hs.maps ++ [(k, x.index, x.spare)] } }.hsUse k
      let s := { s with hs := { s.hs with
        switches := s.hs.switches.filter (fun y => y.kind != k)
        beyond := s.hs.beyond.filter (fun b => !(b.1 == k && b.2.1 == x.index))
        warned := s.hs.warned.filter (fun w => w != (k, x.index)) } }
      ((s.hsBusy.wr R.HS_SWITCH_STATUS_STATE 3).journal 0x0E .switchIn [k, x.index, x.spare]).hsNext

/-- At G + 2,048 tc a row's 256 bytes are copied into its spare; the remap follows at the next tick (R488). -/
def execRowSpareCopy (k : Nat) (s : State) : Next := .next <|
  if !(s.hs.switches.any (fun x => x.kind == k && !x.ready && 3 ≤ k && k ≤ 5)) then s
  else
    let s := if s.inRun then s.toCycle (s.G + 2048) else s
    { s with hs := { s.hs with switches := s.hs.switches.map (fun (x : SwitchIn) => if x.kind == k then { x with ready := true } else x) } }.wr
      R.HS_SWITCH_STATUS_STATE 2

/-- A write of 1 to HS_SWITCH.CANCEL cancels the switch-in of KIND that has not committed (R495). -/
def State.hsCancel (s : State) (k : Nat) : State :=
  match s.hs.switches.find? (fun x => x.kind == k) with
  | none => { s with hs := { s.hs with waiting := s.hs.waiting.filter (fun w => w.1 != k) } }
  | some x =>
    let gone (s : State) : State :=
      (({ s with hs := { s.hs with switches := s.hs.switches.filter (fun y => y.kind != k) } }).hsBusy).wr R.HS_SWITCH_STATUS_STATE 0
    match k with
    | 0 =>
      if s.lat.relocOrder.isSome then gone (({ s with lat := { s.lat with relocOrder := none } }.wr R.LT_PHYS_STATE 1 x.spare).wake opRelocate 0 0x0C05) else s
    | 1 =>
      if s.lat.svReloc.isSome then gone (({ s with lat := { s.lat with svReloc := none } }.wr R.SV_RELOC_STATUS_PENDING 0).wake opRelocate 1 0x0C05) else s
    | 2 =>
      if (s.group (x.index / 8)).shadow.isSome then
        gone (s.spareCancel (x.index / 8))
      else s
    | 9 => if s.tb.oscOrder.isSome then gone { s with tb := { s.tb with oscOrder := none } } else s
    | _ => if x.ready then s else gone s

def execHsSwitchCancel (s : State) : Next := .next (s.hsCancel (s.rd R.HS_SWITCH_KIND))

/-! ### Wear (R486, R490) -/

/-- Immediate kinds act at the first crossing of ACT (R486). -/
def wearImmediate (k : Nat) : Bool := 2 ≤ k && k ≤ 5

/-- Whether a part's measures pass a threshold of its kind: tiles and solver units by margin below the low half or errors above the high half, SerDes
lanes by an eye margin below, the rest by a measure above. -/
def wearBeyond (k thr m e : Nat) : Bool :=
  if thr = 0 then false
  else if k < 2 then decide (m < thr % 65536) || decide (thr / 65536 < e)
  else if k = 7 then decide (m < thr)
  else decide (thr < m)

/-- The measure of a converter: CH_XCHK_DEV in % of DRIFT_LIM (R486). -/
def State.driftPercent (s : State) (ch : Nat) : Nat :=
  (toInt 32 (s.rd R.CH_XCHK_DEV (ch / 8) (ch % 8))).natAbs * 100 / max 1 (s.rd R.CH_DRIFT_LIM (ch / 8) (ch % 8))

/-- An ACT crossing: a switch-in where HS_CTRL.AUTO allows one and a spare is left, else a report (R486, R490) (DEDUCED, log entry 38). -/
def State.wearAct (s : State) (k i : Nat) : State :=
  let s := s.journal 0x0E .wear [k, i, 2]
  if bitOf (s.rd R.HS_CTRL_AUTO) k && s.rd R.HS_INV_SPARE k != 0 then s.hsOrder k i else s

/-- What the spare visits after `x`: the next terminal that is not DISABLED, then the references (8), then from 0 again. -/
def State.nextVisit (s : State) (g x : Nat) : Nat :=
  let live := (List.range 8).filter (fun t => s.chMode g t != 0)
  if x < 8 then (live.find? (fun t => decide (x < t))).getD 8 else live.headD 8

/-- The spare's comparison at terminal `x`: a deviation above the limit on 3 consecutive visits sets DRIFT and is reported, which for a converter
is an ACT crossing (R236, R486). -/
def State.crossChecked (s : State) (g x : Nat) (dev : Int) : State :=
  let ch := 8 * g + x
  let n := (s.chan ch).devRuns + 1
  let s := s.wr R.CH_XCHK_DEV (ofInt 32 dev) g x
  if s.rd R.CH_DRIFT_LIM g x < dev.natAbs then
    let s := s.updChan ch (fun c => { c with devRuns := n })
    if n < 3 then s else (s.wr R.CH_FLAGS_B14 1 g x).wearAct 2 ch
  else s.updChan ch (fun c => { c with devRuns := 0 })

/-- CROSS_CHECK_VISIT: the free spare ends a visit of 1 s; `dev` is the deviation in 0.001 % of span, `refOff` whether a reference
reads off by more than 0.02 % (R236). -/
def execCrossCheckVisit (g : Nat) (dev : Int) (refOff : Bool) (s : State) : Next := .next <|
  if 12 ≤ g || s.rd R.FG_SPARE_STATUS_STATE g != 0 || !(s.group g).supply ||
      decide (s.tb.frc < (s.group g).visitAt + 100000000) then s
  else
    let x := s.rd R.FG_SPARE_STATUS_XCHK g
    let s := if x < 8 then (if s.chMode g x = 0 then s else s.crossChecked g x dev)
      else if refOff then s.wr R.FG_STATUS_REF_DEV 1 g else s
    (s.wr R.FG_SPARE_STATUS_XCHK (s.nextVisit g x) g).updGroup g (fun y => { y with visitAt := s.tb.frc })

/-- The latest evaluation of part `i` of kind `k`. -/
def State.evalAt (s : State) (k i : Nat) : Option Nat := (s.hs.evals.find? (fun e => e.1 == k && e.2.1 == i)).map (·.2.2)

/-- An evaluation of part `i` of kind `k` falls due 60 s after the one before; a program failure shows at once (R486). -/
def State.evalDue (s : State) (k i : Nat) (failed : Bool) : Bool := failed || (s.evalAt k i).all (fun t => decide (t + 6000000000 ≤ s.tb.frc))

/-- Part `i` of kind `k` is evaluated: measures `m` and, for kinds with two, `e`; `failed` for a program failure of a flash block (R486).  A converter
is measured from its registers (DEDUCED, log entry 38). -/
def execWearEvaluation (k i m e : Nat) (failed : Bool) (s : State) : Next := .next <|
  if 11 ≤ k || !s.evalDue k i failed then s
  else
    let s := { s with hs := { s.hs with evals := (k, i, s.tb.frc) :: s.hs.evals.filter (fun e => !(e.1 == k && e.2.1 == i)) } }
    let m := if k = 2 then s.driftPercent i else m
    let warn := wearBeyond k (s.rd R.HS_THR_WARN k) m e || failed
    let act := if k = 2 then s.bit R.CH_FLAGS_B14 (i / 8) (i % 8) else wearBeyond k (s.rd R.HS_THR_ACT k) m e || (failed && k == 10)
    let s :=
      if warn && !s.hs.warned.contains (k, i) then
        ({ s with hs := { s.hs with warned := (k, i) :: s.hs.warned } }.wr R.HS_WARN (s.rd R.HS_WARN ||| 2 ^ k)).journal 0x0E .wear [k, i, 1]
      else if warn then s
      else { s with hs := { s.hs with warned := s.hs.warned.filter (fun w => w != (k, i)) } }
    let run := ((s.hs.beyond.find? (fun b => b.1 == k && b.2.1 == i)).map (·.2.2)).getD 0
    let rest := s.hs.beyond.filter (fun b => !(b.1 == k && b.2.1 == i))
    if !act then { s with hs := { s.hs with beyond := rest } }
    else
      let n := run + 1
      let due := if wearImmediate k || failed then run == 0 else n == 3
      let s := { s with hs := { s.hs with beyond := (k, i, n) :: rest } }
      if due then s.wearAct k i else s

/-! ### Journal and counters (R493, R494) -/

/-- The RAM buffer is flushed when it holds 16 entries or its oldest is 100 ms old (R493) (DESIGN CHOICE, log entry 86). -/
def execJournalFlush (s : State) : Next := .next <|
  let old := s.jr.ram.getLast?.any (fun e => decide (e.frc + 10000000 ≤ s.tb.frc))
  if 16 ≤ s.jr.ram.length || old then s.flushJournal else s

/-- The counters the register maps mark as cleared through HS_. -/
def hsCounters : List RegRow :=
  [R.LT_PHYS_ECC_COR, R.LT_SHADOW_STATUS_COUNT, R.LT_BANK_ECC_COR, R.SV_PHYS_ECC_COR, R.FG_CROSS_ERR_COUNT, R.DIO_CROSS_ERR_COUNT,
   R.CH_SWEEPS, R.CH_SKIPPED, R.CH_MISSING, R.CH_CRC, R.CH_RETRIES, R.CH_QFLAGS,
   R.CF_RX, R.CF_TX, R.CF_ERR, R.CF_BUSOFF, R.CF_LOST, R.ES_QDROP,
   R.PA_MISMATCHES, R.PA_FAILOVERS, R.PA_HANDOVERS, R.PA_EXCH_MISS, R.PA_RING_DROP, R.SE_VERIFY_FAILS,
   R.MG_RECEIVED, R.MG_CRC, R.MG_DROPPED, R.DG_COUNT_DONE, R.DG_COUNT_REFUSED,
   R.SS_OVERRUNS, R.SS_LATE, R.SS_TICK_LOST, R.SS_TRIPS, R.SS_PFW, R.HS_ARB_RETRY]

/-- The block number of an address (R494) (DEDUCED, log entry 66). -/
def blockOf (addr : Nat) : Nat := (addr - 0x40000000) / 0x10000

/-- Clear the counters of a block, for one group or port or for all (R494) (DEDUCED, log entry 66). -/
def State.hsClear (s : State) (block unit : Nat) : State :=
  (hsCounters.filter (fun r => blockOf r.base == block)).foldl (fun s r =>
    (List.range r.n1).foldl (fun s i =>
      if r.n1 = 1 || unit = 0xFF || unit = i then (List.range r.n2).foldl (fun s j => s.wr r 0 i j) s else s) s) s

/-- A write of 1 to HS_CLEAR.GO with BLOCK and UNIT (R494). -/
def execHsClearGo (block unit : Nat) (s : State) : Next := .next <|
  let s := (s.wr R.HS_CLEAR_BLOCK block).wr R.HS_CLEAR_UNIT unit
  s.hsClear (s.rd R.HS_CLEAR_BLOCK) (s.rd R.HS_CLEAR_UNIT)

end Sys2Proof.Machine
end

