-- ==== Sys2Proof/Machine/Trust.lean ====
section
/-! DEFINITION. Identity and trust (R391 to R410): command sessions by their credentials, peer sessions, ownership, revocation, floors, tamper and
zeroisation, the enclave mailbox. -/

namespace Sys2Proof.Machine

open Sys2Proof

/-! ### Floors -/

/-- The index of a part code (R453), on this build: BRIDGE exists on NPS-96D-X only. -/
def partIndex (code : Nat) : Option Nat :=
  if 0x0101 ≤ code && code ≤ 0x0109 && !(code == 0x0107 && Config.variantM) then some (code - 0x0101) else none

/-- The floor of a part. -/
def State.partFloor (s : State) (p : Nat) : Nat := alGet 0 s.trust.floors p

/-! ### Tamper (R405) -/

/-- The action of tamper input `i` (R405). -/
def State.tamperAct (s : State) (i : Nat) : State :=
  let a := if i = 3 then 3 else bitsOf (s.rd R.SE_TAMPER_ACTIONS) (2 * i) 2
  let s := (s.journal 0x0C .tamper [i, a]).wr R.SE_EVENTS_TAMPER (s.rd R.SE_EVENTS_TAMPER ||| 2 ^ i)
  match a with
  | 0 => s
  | 1 => s.notify 0x0A 0x0A00 0 [i]
  | 2 => s.zeroise 1
  | _ => s.zeroise 2

/-- A tamper input opens, and its action is taken, or closes; without supply TI0 and TI3 are latched for the next start (R405). -/
def execTamperInput (i : Nat) (opened : Bool) (s : State) : Next := .next <|
  if 4 ≤ i then s
  else if s.unit == .off then
    if opened && (i == 0 || i == 3) && !s.trust.latched.contains i then { s with trust := { s.trust with latched := s.trust.latched ++ [i] } } else s
  else
    let was := s.rd R.SE_TAMPER_STATE
    let now := if opened then was ||| 2 ^ i else was &&& (15 - 2 ^ i)
    let s := (s.wr R.SE_TAMPER_STATE now).wr R.SE_STATUS_TAMPER_NOW (if now = 0 then 0 else 1)
    if opened && !bitOf was i then s.tamperAct i else s

/-! ### Handshakes (R373, R374, R390, R394 to R396, R402, R403) -/

/-- The dates of a credential hold, or TOD is not valid and they are not checked (R396). -/
def State.datesOk (s : State) (c : Cred) : Bool :=
  !s.bit R.TB_STATUS_TOD_VALID || (decide (c.notBefore ≤ s.tb.sec) && decide (s.tb.sec ≤ c.notAfter))

/-- A credential verifies under the owner key (R396). -/
def State.credOk (s : State) (c : Cred) : Bool :=
  c.sigOk && s.trust.owner == some c.signer && !s.trust.revoked.contains c.fingerprint && s.datesOk c

/-- A self-signed certificate. -/
def selfSigned (c : Cred) : Bool := c.sigOk && c.signer == c.key

/-- The session a certificate opens on a carrier: its level, and whether it is a candidate session; `none` when the handshake fails (DEDUCED, log entry 82). -/
def State.sessionFor (s : State) (carrier : Carrier) (c : Cred) : Option (Level × Bool) :=
  match s.trust.owner with
  | none => if selfSigned c && carrier == .service then some (.observer, true) else none
  | some k =>
    if selfSigned c && c.key == k then some (.owner, false)
    else if selfSigned c && s.trust.successor == some c.key then some (.observer, true)
    else match c.ou with
      | .level .metrology => if s.credOk c && Config.variantM && s.mg.sealBroken then some (.metrology, false) else none
      | .level l => if s.credOk c then some (l, false) else none
      | _ => none

/-- The command service runs: from the Management stage of BOOT on, and not while the management core restarts (R375, R456, R461) (DEDUCED, log entry 80). -/
def State.serviceUp (s : State) : Bool :=
  s.unit != .off && s.unit != .recovery && (s.unit != .boot || decide (3 ≤ s.rd R.BT_STATUS_STAGE)) && !s.fw.restarting.contains 0

/-- Whether the carrier can take another session (R372). -/
def State.carrierFull (s : State) (c : Carrier) : Bool :=
  let tcp := s.acc.sessions.filter (fun x => match x.carrier with | .can _ => false | _ => true)
  match c with
  | .can p => s.acc.sessions.any (fun x => x.carrier == .can p)
  | .service => decide (8 ≤ tcp.length) || decide (2 ≤ (tcp.filter (fun x => x.carrier == .service)).length)
  | .plant _ => decide (8 ≤ tcp.length)

/-- The carrier answers: a plant port with an address, the service port, a CAN FD port with CF_SVC.EN (R315, R372). -/
def State.carrierOn (s : State) (c : Carrier) : Bool :=
  match c with
  | .plant p => decide (p < 4) && (s.acc.nets[p]?).any (fun n => n.addr != 0)
  | .service => true
  | .can p => decide (p < 8) && s.bit R.CF_SVC_EN p

/-- A failed handshake is counted for its source: 10 within 60 s refuse it for 60 s (R390). -/
def State.tlsFail (s : State) (source : Nat) : State :=
  let l := s.acc.tlsFails
  let x := (l.find? (fun x => x.source == source)).getD { source, count := 0, since := s.tb.frc, until_ := none }
  let x := if x.since + 6000000000 ≤ s.tb.frc then { source, count := 0, since := s.tb.frc, until_ := none } else x
  let x : TlsFails := { x with count := x.count + 1, until_ := if 10 ≤ x.count + 1 then some (s.tb.frc + 6000000000) else x.until_ }
  let s := { s with acc := { s.acc with tlsFails := x :: l.filter (fun y => y.source != source) } }
  let s := s.journal 0xFF .failure [source]
  if x.count = 10 then s.journal 0xFF .lockout [2, source] else s

/-- A peer session opens across switch port `p` (R402, R403). -/
def State.peerOpen (s : State) (p : Nat) (h : Handshake) : State :=
  if 6 ≤ p then s
  else if s.trust.member.isNone then s.emit (.eth p) .notice [0x0A17]
  else match h.cred with
    | some c =>
      if h.tlsOk && s.credOk c && c.ou == .peer && (decide (p < 4) || s.trust.partner == some c.serial) then
        { s with trust := { s.trust with peers := { port := p, serial := c.serial, ended := none } :: s.trust.peers.filter (fun x => x.port != p) } }
      else s
    | none => s

/-- A handshake sets up a session, or fails (R373); one too many is set up and closed with NOTICE 0x0104 (R374) (DESIGN CHOICE, log entry 50). -/
def execSessionHandshake (h : Handshake) (s : State) : Next := .next <|
  if !s.serviceUp then s
  else match h.peer with
    | some p => s.peerOpen p h
    | none =>
      if !s.carrierOn h.carrier || s.acc.tlsFails.any (fun x => x.source == h.source && x.until_.any (fun t => decide (s.tb.frc < t))) then s
      else match (if h.tlsOk then h.cred.bind (s.sessionFor h.carrier) else none), h.cred with
        | some (level, cand), some c =>
          let id := s.acc.nextId
          let unchecked := !s.bit R.TB_STATUS_TOD_VALID
          let s := { s with acc := { s.acc with nextId := id + 1 } }.wr R.SE_STATUS_DATES_UNCHECKED (if unchecked then 1 else 0)
          if s.carrierFull h.carrier then s.notice id 0x0104
          else
            let x : Session := { id, level, cred := c.fingerprint, carrier := h.carrier, source := h.source, hello := false, classes := 0, queue := [],
                                 lastRx := s.tb.frc, keyFrc := s.tb.frc, records := 0, reopen := none, challenge := none, cand, key := c.key, unchecked }
            let s := { s with acc := { s.acc with sessions := s.acc.sessions ++ [x] } }
            match h.carrier with
            | .can p => (s.wr R.CF_SVC_STATUS_OPEN 1 p).wr R.CF_SVC_STATUS_HOST h.source p
            | _ => s
        | _, _ => s.tlsFail h.source

/-- 120 s without a packet close a session after NOTICE 0x0105 (R374). -/
def execSessionIdleTimeout (session : Nat) (s : State) : Next := .next <|
  match s.session? session with
  | some x => if x.lastRx + 12000000000 ≤ s.tb.frc then s.notice session 0x0105 else s
  | none => s

/-- Keys are updated after 2²⁴ records or 1 h (R373). -/
def execTlsKeyUpdate (session : Nat) (s : State) : Next := .next <|
  match s.session? session with
  | some x =>
    if 2 ^ 24 ≤ x.records || decide (x.keyFrc + 360000000000 ≤ s.tb.frc) then s.updSession session (fun x => { x with records := 0, keyFrc := s.tb.frc }) else s
  | none => s

/-- A header whose LEN breaks the rules of R376: NOTICE 0x0002, and the session is closed. -/
def execMalformedHeader (session : Nat) (s : State) : Next := .next (if (s.session? session).isSome then s.notice session 0x0002 else s)

/-- An opcode outside R384's list returns 0x0001. -/
def execUndefinedOpcode (r : Req) (op : Nat) (s : State) : Next :=
  let c : Cmd := { op, level := .observer }
  .next (s.command r c (fun s => s.reply r c 0x0001))

/-- A host closes or loses session `session`, or the peer of switch port `peer` its peer session (R380, R404). -/
def execConnectionClosed (session : Nat) (peer : Option Nat) (s : State) : Next := .next <|
  match peer with
  | some p =>
    { s with trust := { s.trust with peers := s.trust.peers.map (fun (x : Peer) =>
        if x.port == p && x.ended.isNone then { x with ended := some s.tb.frc } else x) } }
  | none => if (s.session? session).isSome then s.closeSession session else s

/-- 60 s after its peer session ended unrestored, the MACsec keys of port `p` are erased and its link carries no frames (R404). -/
def execPeerSessionKeyExpiry (p : Nat) (s : State) : Next := .next <|
  if p < 6 && s.trust.peers.any (fun x => x.port == p && x.ended.any (fun t => decide (t + 6000000000 ≤ s.tb.frc))) then
    let s := { s with trust := { s.trust with peers := s.trust.peers.filter (fun x => x.port != p) } }
    ((s.updSec p (fun _ => MacSec.reset)).wr R.ES_MACSEC_KEY_OK 0 p).pairLinks
  else s

/-! ### Ownership and credentials (R394 to R403, R408) -/

/-- ID_CERT answers the certificates and the owner KEY_ID or 0. -/
def execIdCert (r : Req) (s : State) : Next :=
  let c : Cmd := { op := 0x0A10, level := .observer }
  .next (s.command r c (fun s => s.reply r c 0 [(s.trust.owner.map keyId).getD 0] (Config.deviceCert ++ Config.caCert)))

/-- OWN_TAKE makes the candidate's key the owner key and installs FIK (R394, R395); `tamper`: a tamper event meets it (R407). -/
def execOwnTake (r : Req) (fik kcv : Nat) (tamper : Bool) (s : State) : Next :=
  let c : Cmd := { op := 0x0A11, level := .observer }
  .next (s.command r c (fun s => match s.session? r.session with
    | none => s
    | some x =>
      if !x.cand || (s.trust.owner.isNone && x.carrier != .service) then s.reply r c 0x0A12
      else if s.trust.owner.isSome && s.trust.successor != some x.key then s.reply r c 0x0A11
      else if kcv != Config.kcv fik then s.reply r c 0x0A19
      else if tamper then s.reply r c 0x0A16
      else
        let s := if s.trust.owner.isSome then
            { s with
              trust := { s.trust with revoked := [] }
              acc := { s.acc with failPw := 0, pwLast := 0, pwUntil := none, failCr := 0, crUntil := none, tlsFails := [], pwHash := none } }.wr R.SE_STATUS_FIELD_LOCK 0
          else s
        ({ s with trust := { s.trust with owner := some x.key, fik := some fik, successor := none } }.seShow).reply r c 0))

/-- OWN_RELEASE names the successor's key (R395). -/
def execOwnRelease (r : Req) (successor : Nat) (s : State) : Next :=
  let c : Cmd := { op := 0x0A12, level := .owner }
  .next (s.command r c (fun s => { s with trust := { s.trust with successor := some successor } }.reply r c 0))

/-- CRED_REVOKE adds fingerprints; every open session with one is closed after NOTICE 0x0A13 (R397). -/
def execCredRevoke (r : Req) (fps : List Nat) (s : State) : Next :=
  let c : Cmd := { op := 0x0A13, level := .owner }
  .next (s.command r c (fun s =>
    let new := fps.eraseDups.filter (fun f => !s.trust.revoked.contains f)
    if 1024 < s.trust.revoked.length + new.length then s.reply r c 0x0A14
    else
      let s := { s with trust := { s.trust with revoked := s.trust.revoked ++ new } }.reply r c 0
      (s.acc.sessions.filter (fun x => new.contains x.cred)).foldl (fun s x => s.notice x.id 0x0A13) s))

/-- CRED_UNREVOKE removes fingerprints (R397). -/
def execCredUnrevoke (r : Req) (fps : List Nat) (s : State) : Next :=
  let c : Cmd := { op := 0x0A14, level := .owner }
  .next (s.command r c (fun s => { s with trust := { s.trust with revoked := s.trust.revoked.filter (fun f => !fps.contains f) } }.reply r c 0))

/-- CRED_LIST answers the revocation list. -/
def execCredList (r : Req) (s : State) : Next :=
  let c : Cmd := { op := 0x0A15, level := .observer }
  .next (s.command r c (fun s => s.reply r c 0 s.trust.revoked))

/-- MEMBER_CERT_SET installs the membership certificate, checked under R396: OU PEER, the module's serial and DIK (R402). -/
def execMemberCertSet (r : Req) (cert : Cred) (data : Bytes) (s : State) : Next :=
  let c : Cmd := { op := 0x0A16, level := .owner, lock := true }
  .next (s.command r c (fun s =>
    if s.credOk cert && cert.ou == .peer && cert.serial == Config.serial && cert.key == Config.dik then
      ({ s with trust := { s.trust with member := some data } }.seShow).reply r c 0
    else s.reply r c 0x0003 [1]))

/-- PEER_BIND records the partner's serial, or clears it with 0 (R403). -/
def execPeerBind (r : Req) (partner : Nat) (s : State) : Next :=
  let c : Cmd := { op := 0x0A17, level := .owner, lock := true }
  .next (s.command r c (fun s =>
    ({ s with trust := { s.trust with partner := if partner = 0 then none else some partner } }.seShow).reply r c 0))

/-- FLOOR_SET lowers a floor (R401): KIND 0 base, 1 overlay, 2 part. -/
def execFloorSet (r : Req) (kind id ver : Nat) (s : State) : Next :=
  let c : Cmd := { op := 0x0A18, level := .owner, lock := true }
  .next (s.command r c (fun s =>
    match kind with
    | 0 | 1 =>
      let k := 2 * id + kind
      if alGet 0 s.tt.floors k < ver then s.reply r c 0x0A18
      else { s with tt := { s.tt with floors := alPut 0 s.tt.floors k ver } }.reply r c 0
    | 2 => match partIndex id with
      | none => s.reply r c 0x0009
      | some p =>
        if s.partFloor p < ver then s.reply r c 0x0A18
        else { s with trust := { s.trust with floors := alPut 0 s.trust.floors p ver } }.reply r c 0
    | _ => s.reply r c 0x0003 [1]))

/-- FLOOR_READ answers every floor: of images as (2 × ID + kind, VER), then of parts. -/
def execFloorRead (r : Req) (s : State) : Next :=
  let c : Cmd := { op := 0x0A19, level := .observer }
  .next (s.command r c (fun s => s.reply r c 0 (s.tt.floors.flatMap (fun f => [f.1, f.2]) ++ (List.range 9).map s.partFloor)))

/-- ZEROISE (R406): LEVEL 3 needs the module serial as CONFIRM. -/
def execZeroise (r : Req) (level confirm : Nat) (s : State) : Next :=
  let c : Cmd := { op := 0x0A1A, level := .owner }
  .next (s.command r c (fun s =>
    if level = 0 || 3 < level || (level == 3 && confirm != Config.serial) then s.reply r c 0x0A15
    else (s.reply r c 0).zeroise level))

/-- TAMPER_CFG sets the actions of TI0 to TI2 (R405). -/
def execTamperCfg (r : Req) (actions : Nat) (s : State) : Next :=
  let c : Cmd := { op := 0x0A1B, level := .owner, lock := true }
  .next (s.command r c (fun s => (s.wr R.SE_TAMPER_ACTIONS (actions % 64 + 192)).reply r c 0))

/-- TAMPER_READ answers SE_TAMPER_STATE and the journal entries of tamper events. -/
def execTamperRead (r : Req) (s : State) : Next :=
  let c : Cmd := { op := 0x0A1C, level := .observer }
  .next (s.command r c (fun s => s.reply r c 0 ([s.rd R.SE_TAMPER_ACTIONS + 256 * s.rd R.SE_TAMPER_STATE] ++
    ((s.jr.ram ++ s.jr.flash).filter (fun e => e.event == .tamper)).map (·.seq))))

/-! ### The enclave mailbox (R410) -/

/-- GO passes the request buffer to the enclave (DESIGN CHOICE, log entry 50). -/
def execSeMboxGo (s : State) : Next := .next (if s.bit R.SE_MBOX_BUSY then s else s.wr R.SE_MBOX_BUSY 1)

/-- The enclave finishes: DONE, and a reply and status whose content the spec leaves to the enclave (free values) (DESIGN CHOICE, log entry 50). -/
def execSeReplyReady (s : State) : Next := .next <|
  if !s.bit R.SE_MBOX_BUSY || s.fw.restarting.contains 1 then s
  else
    let s := (List.range 128).foldl (fun s i => (s.wr R.SE_MBOX_RSP s.freeVal i).nextFree) s
    (((s.wr R.SE_MBOX_STATUS s.freeVal).nextFree).wr R.SE_MBOX_BUSY 0).wr R.SE_MBOX_DONE 1

end Sys2Proof.Machine
end

