-- ==== Sys2Proof/Machine/Resets.lean ====
section
/-! DEFINITION. The reset kinds (R14, R16, R17): power-on reset, module reset, lattice reset, and the module reset the supervisor makes after a
brownout (R484). -/

namespace Sys2Proof.Machine

open Sys2Proof

/-! ### Register fields -/

/-- The copy of a row that a key of the field store names (DESIGN CHOICE, log entry 1). -/
def RegRow.copyOf (r : RegRow) (k : Nat) : Option (Nat × Nat) :=
  let i := if r.s1 = 0 then 0 else (k - r.key 0 0) / (32 * r.s1)
  let j := if r.s2 = 0 then 0 else (k - r.key i 0) / (32 * r.s2)
  if i < r.n1 && j < r.n2 && r.key i j == k then some (i, j) else none

/-- Every copy of the rows takes its reset value, which is the row's default (R14). -/
def State.resetRows (s : State) (rows : List RegRow) : State :=
  { s with regs := s.regs.filter (fun kv => !(rows.any (fun r => (r.copyOf kv.1).isSome))) }

/-- The reset entries of CF_TXB_CFG differ by copy: buffer 31 takes 2 (R319). -/
def State.resetTxb (s : State) : State := (List.range 8).foldl (fun s p => s.wr R.CF_TXB_CFG_RELEASE 2 p 31) s

/-- Status of units a POR or MRST leaves unchanged: feeds and temperature at the supervisor, the fault lines, the pair's discrete lines, the
tamper inputs (DEDUCED, log entry 53). -/
def liveRows : List RegRow :=
  [R.SS_STATUS_FEED0_OK, R.SS_STATUS_FEED1_OK, R.SS_FEED_FEED0, R.SS_FEED_FEED1, R.SS_TEMP, R.CH_LINE_STATE, R.CH_LINE_CURRENT,
   R.PA_STATUS_PARTNER_HEALTHY, R.PA_STATUS_PARTNER_DRIVE, R.SE_STATUS_TAMPER_NOW, R.SE_TAMPER_STATE]

/-- What the supervisor's own status adds to them at an MRST, which leaves it unchanged (R16). -/
def supervisorRows : List RegRow := [R.SS_STATUS_PFW, R.SS_STATUS_OSC_OK, R.SS_TRIP_CAUSE_NOW, R.SS_TRIP_OPEN]

/-- Fields that show a standing condition of a unit an LRST leaves unchanged (R16): links, supplies and lines, the clock, the pair, the
enclave, the compartment and the panel, firmware, spares.  They take their reset value and show the condition again at once (DEDUCED,
log entry 53). -/
def conditionRows : List RegRow :=
  [R.DIO_STATUS_SUP0_LOW, R.DIO_STATUS_SUP1_LOW, R.CH_STATUS_BREAK, R.CH_LINE_STATE, R.CH_LINE_CURRENT, R.CH_NODE_UNREACHABLE,
   R.CF_HP_PENDING, R.CF_SVC_STATUS_OPEN, R.CF_SVC_STATUS_HOST, R.CF_TXB_PEND, R.ES_STATUS_BUF_LOW, R.ES_PORT_CFG_LINK,
   R.ES_PORT_CFG_SPEED_NOW, R.PT_STATUS_STATE, R.PT_STATUS_IN_SPEC, R.PT_STATUS_SLAVE_PORT, R.PT_HOLD_TIME, R.PT_PORT_PSTATE,
   R.PA_STATUS_PARTNER_ROLE, R.PA_STATUS_PARTNER_SEEN, R.PA_STATUS_LINK0, R.PA_STATUS_LINK1, R.PA_STATUS_PARTNER_HEALTHY,
   R.PA_STATUS_PARTNER_DRIVE, R.PA_STATUS_DRIVING, R.PA_STATUS_MIXED, R.PA_STATUS_ELIGIBLE, R.PA_STATUS_TESTING, R.SE_STATUS_TAMPER_NOW,
   R.SE_STATUS_DATES_UNCHECKED, R.SE_TAMPER_STATE, R.SE_MBOX_RSP, R.SE_MBOX_BUSY, R.SE_MBOX_STATUS, R.MG_STATUS_FITTED, R.MG_RX_DATA,
   R.DG_STATUS_LEGAL_WAIT, R.DG_STATUS_IN_FLIGHT, R.DG_STATUS_QUEUED, R.DG_DONE_TICKET, R.DG_DONE_OUTCOME, R.DG_DONE_VALID, R.DG_TEMP,
   R.BT_STATUS_STAGE, R.BT_STATUS_RECOVERY, R.BT_STATUS_REASON, R.BT_STATUS_FAILED_PARTS, R.BT_PART_LOADED, R.BT_FWD_STATE, R.BT_FWD_HOP,
   R.BT_FWD_FAILED, R.BT_NODE_STATE, R.BT_NODE_BLOCKS, R.BT_NODE_VERIFIED, R.BT_NODE_LAGGING, R.SS_STATUS_PFW, R.SS_STATUS_FEED0_OK,
   R.SS_STATUS_FEED1_OK, R.SS_STATUS_OSC_OK, R.SS_STATUS_HEALTHY, R.SS_FEED_FEED0, R.SS_FEED_FEED1, R.SS_TEMP, R.SS_TRIP_CAUSE_NOW,
   R.SS_TRIP_OPEN, R.HS_STATUS_BUSY, R.HS_SWITCH_STATUS_STATE, R.HS_JOURNAL_PENDING]

/-- Rows a POR resets. -/
def porRows : List RegRow := R.all.filter (fun r => r.por.isSome && !liveRows.contains r)

/-- Rows an MRST resets. -/
def mrstRows : List RegRow := R.all.filter (fun r => r.mrst.isSome && !liveRows.contains r && !supervisorRows.contains r)

/-- Rows an LRST resets (R14) but for the conditions that stand (R16). -/
def lrstRows : List RegRow := R.all.filter (fun r => r.lrst.isSome && !conditionRows.contains r)

/-! ### Lattice reset -/

/-- Lattice, engines and admitted timetable are reset (R16): admission, relocations and calls end, an armed switch is ABANDONED (R125), and no base is
admitted (DEDUCED, log entries 53, 57). -/
def State.latticeReset (s : State) : State :=
  let s := (List.range s.tt.sealedRecs.length).foldl (fun s _ => s.commitRecord) s
  let s := s.canHalt
  let s := (List.range 36).foldl (fun s p => if s.rd R.LT_PHYS_STATE p = 3 then s.wr R.LT_PHYS_STATE 1 p else s) s
  let armed := s.rd R.TT_MODE_STATUS_STATE = 3 || s.rd R.TT_MODE_STATUS_STATE = 4
  let s := s.resetRows lrstRows
  let s := (if armed then s.abandonSwitch else s).dropSwitch
  let s := { s with
    lat := Lattice.reset
    loopResyncs := []
    staged := s.staged.filter (fun x => decide (x.1 < 0x40010000 * 32) || decide (0x40050000 * 32 ≤ x.1))
    tb := { s.tb with armed := [], fired := [], ppsFire := [] }
    tt := { s.tt with base := none, admitting := none, partnerHash := none, stopAt := none, stopCmd := false, starting := none, hotOk := false, firstRun := false, map := [], driveMap := [],
                      capture := [], coldCopy := none } }
  let s := ((s.wake opAdmit 0 0xFFFF).wake opRelocate 0 0x0C05).wake opRelocate 1 0x0C05
  (s.wake opStart 0 0x0008).stopWaits 0x0008 []

/-- LRST: the unit goes to STOP; the supervisor's safe-state line is held for the reset and every output keeps its safe value (R16, R17) (DEDUCED, log entries 53, 57). -/
def State.lrst (s : State) : State :=
  match s.unit with
  | .stop | .run | .halt =>
    let s := s.safeLine true
    let s := if s.inRun then s.exitRun .stop s.tb.frameNo else s
    let s := { s.latticeReset with unit := UnitState.stop, sup := { s.sup with keep := false } }
    (s.retBusy.evalTrips).safeLine false
  | _ => s

/-- LATTICE_RESET (R16). -/
def execLatticeReset (s : State) : Next := .next s.lrst

/-- A write of 1 to TT_RUN_CTRL.LRST (R16, R152). -/
def execTtRunLrst (s : State) : Next := .next s.lrst

/-! ### Module reset and power-on reset -/

/-- What an MRST and a POR do alike beside register fields (R16, R17): sessions and requests end, every port, group and block starts anew, groups and
discrete outputs without module control, BOOT begins at stage 0 (DEDUCED, log entry 44). -/
def State.restart (s : State) (cause : Nat) : State :=
  let s := s.latticeReset
  { s.wr R.BT_LAST_CAUSE cause with
    unit := .boot
    role := .solo
    staged := []
    latch := []
    tb := { s.tb with frameNo := 0, base := s.tb.frc, pairTick := 0, oscOrder := none, extOrdered := false }
    acc := { s.acc with sessions := [], lock := none, waiters := [], modeHolder := none, handoverHolder := none, transfers := [] }
    jr := { s.jr with ram := [] }
    chans := List.replicate 96 Chan.reset
    groups := s.groups.map (fun (g : Group) => { Group.reset with supply := g.supply, nv := g.nv })
    harts := s.harts.map (fun (h : Hart) => { Hart.reset with polls := h.polls })
    dio := { Dio.reset with refresh := s.tb.frc / 1000 + 1 }
    hs := { s.hs with switches := [], beyond := [], waiting := [], evals := [] }
    pair := Pair.reset
    chains := s.chains.map (fun (c : ChainPort) => { ChainPort.reset with configs := c.configs, faultSince := c.faultSince, faultHeld := c.faultHeld })
    ingest := Ingest.reset
    cans := List.replicate 8 CanPort.reset
    eth := Eth.reset
    ptp := Ptp.reset
    disp := if Config.variantM then { s.disp with done := [] } else { Disp.reset with ticket := s.disp.ticket }
    mg := { s.mg with queue := [], lastGood := none }
    trust := { s.trust with peers := [] }
    sup := { s.sup with keep := false, latticeStop := s.sup.pfwAt.isSome }
    fw := { s.fw with restarting := [], commanded := [], forward := none, recXfer := none, written := [], tx := List.replicate 8 NodeTx.reset,
                      bootAt := s.tb.frc, autorun := none, auto := false } }

/-- MRST with its cause (R16, R473): FRC, TOD and the supervisor go on (DEDUCED, log entry 44). -/
def State.mrst (s : State) (cause : Nat) : State :=
  if s.unit == .off then s
  else
    let s := if s.inRun then s.exitRun .stop s.tb.frameNo else s
    ((((s.restart cause).resetRows mrstRows).resetTxb.dgShow.retBusy).evalTrips).safeLine false

/-- MODULE_RESET (R16); RECOVERY is left only by its RESTART or by POR (R470). -/
def execModuleReset (s : State) : Next := .next (if s.unit == .recovery then s else s.mrst 1)

/-- The rest of a time that FRC measured, counted on from FRC 0: time without supply does not count (R390). -/
def afterOff (frc : Nat) (t : Option Nat) : Option Nat := t.map (fun t => t - frc)

/-- POR (R16): FRC starts at 0; what stands in flash, MRAM, the enclave, the compartment and on its panel stays. -/
def State.por (s : State) : State :=
  let frc := s.tb.frc
  let kept := s.mem.filter (fun c => (decide (Config.mramBase ≤ c.1) && decide (c.1 < Config.mramBase + 0x100000)) ||
    (decide (Config.panelBase ≤ c.1) && decide (c.1 < Config.dramBase)))
  let s := { s.restart 0 with mem := kept }
  let s := { s.resetRows porRows with
    tb := TimeBase.reset
    tt := { s.tt with throughPending := [] }
    acc := { s.acc with pwUntil := afterOff frc s.acc.pwUntil, crUntil := afterOff frc s.acc.crUntil,
                        tlsFails := s.acc.tlsFails.map (fun (x : TlsFails) => { x with since := x.since - frc, until_ := afterOff frc x.until_ }) }
    groups := s.groups.map (fun (g : Group) => { g with supply := true })
    dio := Dio.reset
    sup := { Sup.reset with feeds := s.sup.feeds, temp := s.sup.temp }
    disp := { s.disp with
      pageAt := s.disp.pageAt - frc, pumpAt := s.disp.pumpAt - frc
      queue := s.disp.queue.map (fun (x : Rect) => { x with since := afterOff frc x.since })
      flight := s.disp.flight.map (fun (x : Flight) => { x with done := x.done - frc }) }
    chains := s.chains.map (fun (c : ChainPort) => { c with faultSince := c.faultSince.map (fun _ => 0), faultHeld := false })
    fw := { s.fw with bootAt := 0 } }
  s.resetTxb.dgShow.retBusy.driveAll

/-- POWER_ON_RESET (R16, R43, R456). -/
def execPowerOnReset (s : State) : Next := .next s.por

/-- BROWNOUT_RESTART: the warning has stayed clear for 100 ms after the lattice stop (R484). -/
def execBrownoutRestart (s : State) : Next := .next <|
  if s.sup.latticeStop && s.sup.supply && s.unit != .off && s.sup.pfwAt.isNone &&
      s.sup.pfwClearAt.any (fun t => decide (t + 10000000 ≤ s.tb.frc)) then
    let s := (s.mrst 1).wr R.SS_EVENTS_BROWNOUT_RESTART 1
    { s with sup := { s.sup with pfwClearAt := none } }
  else s

end Sys2Proof.Machine
end

