-- ==== Sys2Proof/Machine/Parts.lean ====
section
/-! DEFINITION. Firmware parts and their banks (R453, R454), verification of a part (R400, R472), and the retained configuration that CONFIG
holds (R453). -/

namespace Sys2Proof.Machine

open Sys2Proof

/-! ### Banks (R454, R473) -/

/-- Indices of R453. -/
def partMgmt : Nat := 0
def partEnclave : Nat := 1
def partPartner : Nat := 5
def partNode : Nat := 7
def partConfig : Nat := 8

/-- Parts of each activation kind (R453). -/
def scheduled (p : Nat) : Bool := [0, 1, 2, 6, 7].contains p
def commanded (p : Nat) : Bool := [3, 4, 5].contains p

/-- The longest image of a part, bytes (R459). -/
def partSize (p : Nat) : Nat := if p = 0 then 0x400000 else if p = 7 then 0x20000 else 0x100000

/-- The image in bank `b` (0 A, 1 B) of a part. -/
def State.partBank (s : State) (p b : Nat) : Option FwImage :=
  match s.fw.banks[p]? with
  | some x => if b = 0 then x.1 else x.2
  | none => none

/-- The number of the inactive bank. -/
def State.idleBank (s : State) (p : Nat) : Nat := 1 - s.rd R.BT_PART_ACTIVE p

/-- The flag and VER fields of a bank. -/
def bankOk (b : Nat) : RegRow := if b = 0 then R.BT_PART_A_OK else R.BT_PART_B_OK
def bankVer (b : Nat) : RegRow := if b = 0 then R.BT_PART_VER_A else R.BT_PART_VER_B

/-- Bank `b` of part `p` takes a verified image, or is erased or invalid. -/
def State.setBank (s : State) (p b : Nat) (f : Option FwImage) : State :=
  let s := { s with fw := { s.fw with banks := updAt s.fw.banks p (fun x => if b = 0 then (f, x.2) else (x.1, f)) } }
  (s.wr (bankOk b) (if f.isSome then 1 else 0) p).wr (bankVer b) ((f.map (·.ver)).getD 0) p

/-- The staged image of a part: in its inactive bank, or the staged node image (R454). -/
def State.staged? (s : State) (p : Nat) : Option FwImage :=
  if p = partNode then s.fw.node
  else if s.bit (bankOk (s.idleBank p)) p then s.partBank p (s.idleBank p) else none

/-- Stage a verified image: a commanded part and CONFIG wait with PENDING 2 (R473); the node update begins anew. -/
def State.stagePart (s : State) (p : Nat) (f : FwImage) : State :=
  if p = partNode then
    let s := (List.range 8).foldl (fun s q => (((s.wr R.BT_NODE_STATE 0 q).wr R.BT_NODE_BLOCKS 0 q).wr R.BT_NODE_VERIFIED 0 q).wr R.BT_NODE_LAGGING 0 q) s
    { s with fw := { s.fw with node := some f, tx := List.replicate 8 NodeTx.reset } }
  else
    let s := s.setBank p (s.idleBank p) (some f)
    if scheduled p then s else s.wr R.BT_PART_PENDING 2 p

/-- A pending activation ends. -/
def State.pendNone (s : State) (p : Nat) : State :=
  let s := ((s.wr R.BT_PART_PENDING 0 p).wr R.BT_SCHED_AT_LO 0 p).wr R.BT_SCHED_AT_HI 0 p
  { s with fw := { s.fw with commanded := s.fw.commanded.filter (fun x => x != p) } }

/-- The inactive bank of a part is erased; a pending activation is cancelled with a journal entry, and an
UPDATE_ACTIVATE that waits for it is answered with INTERNAL (R385, R459, R460). -/
def State.erasePart (s : State) (p : Nat) : State :=
  let s := if s.rd R.BT_PART_PENDING p = 0 then s else ((s.pendNone p).journal 0x0F .updateCancelled [p]).wake 0x0406 p 0x000D
  if p = partNode then { s with fw := { s.fw with node := none, tx := List.replicate 8 NodeTx.reset } } else s.setBank p (s.idleBank p) none

/-! ### Timetable slots (R110, R457) -/

/-- Slot `k` takes an image, not admitted yet, or is empty; TT_SLOT shows it, and a PREPARED switch that names it is lost (R118). -/
def State.setSlot (s : State) (k : Nat) (m : Option Image) : State :=
  if k = 0 then { s with tt := { s.tt with slot0 := m } }
  else
    let s := if s.tt.switch.any (fun w => bitOf w.active (k - 1)) then s.loseSwitch else s
    let s := { s with tt := { s.tt with slots := updAt s.tt.slots (k - 1) (fun (x : Slot) => { x with image := m }) } }
    let s := ((s.wr R.TT_SLOT_KIND ((m.map (·.kind)).getD 0) (k - 1)).wr R.TT_SLOT_VALID 0 (k - 1)).wr R.TT_SLOT_STALE 0 (k - 1)
    ((s.wr R.TT_SLOT_CODE 0 (k - 1)).wr R.TT_SLOT_ID ((m.map (·.id)).getD 0) (k - 1)).wr R.TT_SLOT_VER ((m.map (·.ver)).getD 0) (k - 1)

/-! ### Verification (R400, R455, R472) -/

/-- A part's image verifies: its first block of KIND 1, both blocks in order, both of KIND 1 while the module is UNOWNED, VER not below the floor;
ENCLAVE is verified against the release keys only (R455). -/
def State.partVerifies (s : State) (p : Nat) (f : FwImage) : Bool :=
  s.signerOk f.vendor && f.vendor.kind == 1 &&
    (p == partEnclave || (s.signerOk f.outer && (s.trust.owner.isSome || f.outer.kind == 1) && decide (s.partFloor p ≤ f.ver)))

/-- Verification of an image that is to be staged: every step for every part. -/
def State.stageVerifies (s : State) (p : Nat) (f : FwImage) : Bool :=
  s.partVerifies p f && s.signerOk f.outer && (s.trust.owner.isSome || f.outer.kind == 1) && decide (s.partFloor p ≤ f.ver)

/-! ### The retained configuration -/

/-- The rows whose values CFG_SAVE retains: configuration fields of the access lock, kept over an LRST but not over a POR, outside the time base and the
shadow setting of the solver. -/
def configRows : List RegRow :=
  R.all.filter (fun r => r.acc == .rwl && r.por.isSome && r.lrst.isNone && decide (0x40010000 ≤ r.base) &&
    !(decide (0x40030000 ≤ r.base) && decide (r.base < 0x40040000)))

/-- PA_CFG, PA_TIMES and PA_MIXED, kept by their registers (R371) and carried to a new partner (R370, R467). -/
def pairRows : List RegRow :=
  [R.PA_CFG_EN, R.PA_CFG_PREFERRED, R.PA_CFG_REVERT, R.PA_CFG_AUTOJOIN, R.PA_CFG_MIXED_FAILOVER, R.PA_TIMES_REVERT_HOLD, R.PA_TIMES_AGREE_MIN,
   R.PA_MIXED_MIN]

/-- The row and copy of a key among some rows. -/
def rowOf (rows : List RegRow) (k : Nat) : Option (RegRow × Nat × Nat) :=
  rows.findSome? (fun r => (r.copyOf k).map (fun c => (r, c.1, c.2)))

/-- The key of byte `o` of the route table in a retained configuration. -/
def routeKey (o : Nat) : Nat := 2 ^ 48 + o

/-- The configuration in force, as CONFIG holds it (DESIGN CHOICE, log entry 21). -/
def State.configNow (s : State) : List (Nat × Nat) :=
  s.regs.filter (fun kv => (rowOf (configRows ++ pairRows) kv.1).isSome) ++
    (List.range 8).map (fun p => (R.CF_TXB_CFG_RELEASE.key p 31, s.rd R.CF_TXB_CFG_RELEASE p 31)) ++
    ((s.mem.filter (fun c => decide (Config.routeBase ≤ c.1) && decide (c.1 < Config.routeBase + 0x40000))).map
      (fun c => (routeKey (c.1 - Config.routeBase), c.2.toNat)))

/-- Set the listed fields that belong to `rows`. -/
def State.putFields (s : State) (rows : List RegRow) (l : List (Nat × Nat)) : State :=
  l.foldl (fun s kv => match rowOf rows kv.1 with
    | some (r, i, j) => s.wr r kv.2 i j
    | none => s) s

/-- The retained configuration is applied (R456): its fields and the route table (DESIGN CHOICE, log entry 21). -/
def State.putConfig (s : State) (l : List (Nat × Nat)) : State :=
  let s := ((s.resetRows configRows).resetTxb).putFields configRows l
  let s := s.clearMem Config.routeBase (Config.routeBase + 0x40000)
  (l.filter (fun kv => decide (routeKey 0 ≤ kv.1))).foldl (fun s kv => s.setByte (Config.routeBase + (kv.1 - routeKey 0)) (BitVec.ofNat 8 kv.2)) s

end Sys2Proof.Machine
end

