-- ==== Sys2Proof/Machine/Boot.lean ====
section
/-! DEFINITION. The boot sequence (R391, R455 to R458, R491, R493, R510): one command per stage, RECOVERY, and the start under AUTORUN. -/

namespace Sys2Proof.Machine

open Sys2Proof

/-! ### Loading parts (R455, R457) -/

/-- Bank `b` of a part is verified at a start: content that fails in flash is lost, an image that fails is shown invalid. -/
def State.checkBank (s : State) (x : BootIn) (p b : Nat) : State × Bool :=
  if x.bad.contains (p, b) then (s.setBank p b none, false)
  else if (s.partBank p b).any (s.partVerifies p) then (s, true)
  else ((s.wr (bankOk b) 0 p).wr (bankVer b) 0 p, false)

/-- A part starts from its active bank, else from the inactive one with BANK_FALLBACK; with neither its bit of FAILED_PARTS is set (R457). -/
def State.loadPart (s : State) (x : BootIn) (p : Nat) : State :=
  let (s, ok) := s.checkBank x p (s.rd R.BT_PART_ACTIVE p)
  if ok then s.wr R.BT_PART_LOADED 1 p
  else
    let b := s.idleBank p
    let (s, ok) := s.checkBank x p b
    if ok then (((s.wr R.BT_PART_ACTIVE b p).pendNone p).wr R.BT_STATUS_BANK_FALLBACK 1).wr R.BT_PART_LOADED 1 p
    else s.wr R.BT_STATUS_FAILED_PARTS (s.rd R.BT_STATUS_FAILED_PARTS ||| 2 ^ p)

/-- RECOVERY with its REASON (R457, R470). -/
def State.toRecovery (s : State) : State :=
  let s := s.acc.sessions.foldl (fun s x => s.closeSession x.id) s
  { (s.wr R.BT_STATUS_RECOVERY 1).wr R.BT_STATUS_REASON (if bitOf (s.rd R.BT_STATUS_FAILED_PARTS) 0 then 1 else 2) with unit := UnitState.recovery }

/-- The parts of a stage are loaded; the stage ends, or the unit enters RECOVERY. -/
def State.loadStage (s : State) (x : BootIn) (ps : List Nat) (stage : Nat) : State :=
  let s := ps.foldl (fun s p => s.loadPart x p) s
  if s.rd R.BT_STATUS_FAILED_PARTS = 0 then s.wr R.BT_STATUS_STAGE stage else s.toRecovery

/-! ### Stages (R456) -/

/-- Stage 1: at a POR the PUF root is rebuilt; what the enclave has pending completes, and ENCLAVE starts (R391, R405, R407) (DEDUCED, log entry 56). -/
def State.bootEnclave (s : State) (x : BootIn) : State :=
  let por := s.rd R.BT_LAST_CAUSE == 0
  if s.trust.dead || !(if por then x.puf else s.bit R.SE_STATUS_PUF_OK) then s.wr R.SE_STATUS_PUF_OK 0
  else
    let s := s.wr R.SE_STATUS_PUF_OK 1
    let s := if s.trust.reenrol && por then
        ({ s with trust := { s.trust with reenrol := false } }.wr R.SE_STATUS_REENROLLED 1).journal 0x0C .wear []
      else s
    let s := if x.drift && por then { s with trust := { s.trust with reenrol := true } } else s
    let s := s.zeroiseRest
    let open_ := s.trust.latched
    let s := open_.foldl (fun s i => s.tamperAct i) { s with trust := { s.trust with latched := [] } }
    s.seShow.loadStage x [partEnclave] 2

/-- Stage 2: the health record and the journal are read, MGMT starts (R491, R493). -/
def State.bootMgmt (s : State) (x : BootIn) : State :=
  if !x.record then s.wr R.HS_STATUS_RECORD_OK 0
  else
    let s := s.wr R.HS_STATUS_RECORD_OK 1
    let found := match s.jr.flash with
      | e :: _ => e.seq + 1
      | [] => 0
    let lost := s.jr.nextSeq - found
    let s := s.wr R.HS_JOURNAL_LOST (min (2 ^ 32 - 1) lost)
    let s := if lost = 0 then s else s.journal 0x0E .lostEntries [lost]
    s.loadStage x [partMgmt] 3

/-- Stage 4: CONFIG is applied, groups and blocks take their configuration and safe values and await RESUME, chains are woken (R231, R259, R270). -/
def State.bootConfig (s : State) (x : BootIn) : State :=
  let s := if s.rd R.BT_PART_PENDING partConfig = 2 && (s.staged? partConfig).isSome then
      ((s.wr R.BT_PART_ACTIVE (s.idleBank partConfig) partConfig).pendNone partConfig).wr R.BT_STATUS_ACTIVATED 1
    else s
  let s := s.loadStage x [partConfig] 5
  match s.unit, s.partBank partConfig (s.rd R.BT_PART_ACTIVE partConfig) with
  | .boot, some f =>
    let s := { s with trust := { s.trust with floors := alPut 0 s.trust.floors partConfig (max f.ver (s.partFloor partConfig)) } }
    let s := s.putConfig f.config
    let nv (g t : Nat) : Nat × Nat × Nat × Nat := (s.rd R.CH_CFG_MODE g t, s.rd R.CH_CFG_RANGE g t, s.rd R.CH_CFG_SINK g t, s.rd R.CH_CFG_WIRES g t)
    let s := { s with
      groups := s.groups.mapIdx (fun g (x : Group) => { x with order := true, nv := (List.range 8).map (nv g) })
      dio := { s.dio with order := true } }
    let s := s.routeCopy Config.routeBase Config.routeShadow
    let s := (List.range 8).foldl (fun s p => s.canFresh p) s
    let s := (List.range 4).foldl (fun s p => s.loadCorr p) s
    let s := (List.range 8).foldl (fun s p =>
      if s.chainOn p then
        let s := if s.chainRing p then s.wr R.CH_STATUS_STATE csFarEnd (p + 1) else s
        s.chainWake p
      else s) s
    s.pairLinks
  | _, _ => s

/-- The copy of slot `k` found bad in flash is replaced by the older one (R457). -/
def State.olderSlot (s : State) (k : Nat) : State :=
  match s.fw.older.getD k none with
  | none => s.setSlot k none
  | some m => (s.setSlot k (some m)).wr R.BT_STATUS_BANK_FALLBACK 1

/-- BOOT ends in STOP; with AUTORUN the unit starts WARM, or in a pair joins, starts or waits for its partner (R458) (DEDUCED, log entry 52).  The first
tick falls P after the end of BOOT (DESIGN CHOICE, log entry 87); the conversion windows begin there (R212). -/
def State.bootEnd (s : State) (x : BootIn) : State :=
  let ms := min 65535 ((s.tb.frc - s.fw.bootAt) / 100000)
  let s := ((s.wr R.BT_STATUS_STAGE 6).wr R.BT_LAST_STOP_MS ms).wr R.BT_LAST_RUN_MS 0
  let s := { s with
    unit := UnitState.stop, tb := { s.tb with base := s.tb.frc }
    chans := s.chans.map (fun (c : Chan) => { c with hist := [], wStart := s.tb.frc, closed := false }) }
  let s := s.evalTrips.driveAll.hsNext
  let auto (s : State) : State := { s with fw := { s.fw with auto := true } }
  if !s.bit R.TT_RUN_CTRL_AUTORUN then s
  else if !s.bit R.PA_CFG_EN then (auto s).start 0
  else if s.bit R.PA_STATUS_PARTNER_HEALTHY then (auto s).join x.partner
  else if s.preferred then (auto s).start 0
  else { s with fw := { s.fw with autorun := some s.tb.frc } }

/-- Stage 5: the base image and the slots are verified and admitted (R99). -/
def State.bootImage (s : State) (x : BootIn) : State :=
  let s := (List.range 17).foldl (fun s k => if x.bad.any (fun b => b.1 == 100 + k) then s.olderSlot k else s) s
  let s := if s.tt.slot0.isSome then s.admRun 0 0 else s
  let s := if s.bit R.TT_ADMITTED_VALID then
      (List.range 16).foldl (fun s k => if (s.slotImage (k + 1)).isSome then s.admRun (k + 1) 0 else s) s
    else s
  s.bootEnd x

/-- A unit that waits for its PREFERRED partner joins it once it is HEALTHY, and starts after 5 s without it (R458). -/
def State.bootWaits (s : State) (x : BootIn) : State :=
  match s.fw.autorun with
  | none => s
  | some t =>
    let auto (s : State) : State := { s with fw := { s.fw with autorun := none, auto := true } }
    if s.bit R.PA_STATUS_PARTNER_HEALTHY then (auto s).join x.partner
    else if t + 500000000 ≤ s.tb.frc then (auto s).start 0
    else s

/-- BOOT_STAGE_COMPLETE: the stage of BT_STATUS.STAGE ends (R456); a power-fail warning stops the sequence (R458), a start below −25 °C waits in
stage 0 (R510) (DESIGN CHOICE, log entries 23, 86). -/
def execBootStageComplete (x : BootIn) (s : State) : Next := .next <|
  if s.unit == .stop then s.bootWaits x
  else if s.unit != .boot || s.sup.latticeStop then s
  else match s.rd R.BT_STATUS_STAGE with
    | 0 => if x.cold then s else (s.wr R.SS_STATUS_OSC_OK 1).wr R.BT_STATUS_STAGE 1
    | 1 => s.bootEnclave x
    | 2 => s.bootMgmt x
    | 3 => s.loadStage x ([2, 3, 4, 5] ++ (if Config.variantM then [] else [6])) 4
    | 4 => s.bootConfig x
    | _ => s.bootImage x

end Sys2Proof.Machine
end

