-- ==== Sys2Proof/Machine/ImageBytes.lean ====
section
/-! DEFINITION. The byte layout of images (R103 to R106, R108, R112, R116, R117) and of signer blocks (R398): what the received bytes of a transfer hold.
What the spec gives no encoding of (bundles, the packing of slot-plan records, the ENGINE section, what cryptography finds) comes with the
command's operand (DEDUCED, log entry 93). -/

namespace Sys2Proof.Machine

open Sys2Proof

/-! ### Fields -/

/-- `n` bytes at offset `off`, and the little-endian number in them. -/
def slice (b : Bytes) (off n : Nat) : Bytes := (b.drop off).take n
def field (b : Bytes) (off n : Nat) : Nat := leNat (slice b off n)

/-- The bytes of `[a, e)` exist and are 0. -/
def zeros (b : Bytes) (a e : Nat) : Bool := (slice b a (e - a)).all (· == 0) && decide (e ≤ b.length)

/-- Entries of `n` bytes, as many as there are whole. -/
def entries (n : Nat) (b : Bytes) : List Bytes := (List.range (b.length / n)).map (fun k => slice b (n * k) n)

/-! ### The signer block (R398) -/

/-- A signer block at `off` of the bytes, with what cryptography finds from `x`: layout, reserved bytes, KIND and TARGET. -/
def signerAt (b : Bytes) (off : Nat) (encrypted : Bool) (x : Signer) : Signer :=
  let kind := field b (off + 6) 1
  { x with
    formOk := field b off 4 == 0x4B424753 && field b (off + 4) 2 == 1 && decide (1 ≤ kind) && decide (kind ≤ 3) &&
      field b (off + 7) 1 == (if encrypted then 1 else 0) && (encrypted || zeros b (off + 0x10) (off + 0x44)) &&
      zeros b (off + 0x44) (off + 0x48) && (kind == 3 || zeros b (off + 0x50) (off + 0x110)) && zeros b (off + 0x170) (off + 0x180)
    kind, target := field b (off + 0x48) 8 }

/-! ### The section table (R104) -/

/-- Entry `i` of the section table, its HASH, and its reserved bytes. -/
def sectAt (b : Bytes) (i : Nat) : Sect :=
  let e := 0x80 + 64 * i
  { type := field b e 2, index := field b (e + 2) 2, off := field b (e + 4) 4, len := field b (e + 8) 4 }
def sectHash (b : Bytes) (i : Nat) : Nat := field b (0x80 + 64 * i + 0x10) 48

/-- The section table. -/
def sectsOf (b : Bytes) : List Sect := (List.range (min 128 (field b 0x1C 2))).map (sectAt b)

/-- The stored bytes of a section, and those of the first section of a type and index with its table position. -/
def stored (b : Bytes) (x : Sect) : Bytes := slice b x.off x.len
def findSect (b : Bytes) (type index : Nat) : Option (Sect × Nat) := (sectsOf b).zipIdx.find? (fun x => x.1.type == type && x.1.index == index)

/-- The content of a section: the stored bytes, or the plaintext of an encrypted image's (R399); none where the image has no such section. -/
def content (b : Bytes) (type : Nat) (index : Nat := 0) : Bytes :=
  match findSect b type index with
  | none => []
  | some (x, i) =>
    if field b 7 1 % 2 = 1 && type != 0xF0 then Config.sectionPlain (slice b 0 0x80) i (stored b x) else stored b x

/-- Every HASH agrees with its section's stored bytes (R104). -/
def hashesAgree (b : Bytes) : Bool := (sectsOf b).zipIdx.all (fun (x, i) => Config.sha384 (stored b x) == sectHash b i)

/-- The SHA-384 over the stored layout sections in ascending TYPE (R106). -/
def layoutDigest (b : Bytes) : Nat :=
  Config.sha384 ([0x02, 0x03, 0x04, 0x05, 0x06, 0x07, 0x08, 0x09].flatMap (fun ty => match findSect b ty 0 with
    | some (x, _) => stored b x
    | none => []))

/-- Zero padding between the section table, the sections and the signer block (R103). -/
def padded (b : Bytes) : Bool :=
  let xs := sectsOf b
  let ends := (0x80 + 64 * xs.length) :: xs.map (fun x => x.off + x.len)
  (ends.zip (xs.map (·.off) ++ [field b 0x54 4])).all (fun (e, o) => zeros b e o)

/-! ### The declaration sections (R105, R112, R116, R117, R108) -/

def declOf (d : Bytes) : Decl :=
  { period := field d 0 4, subframes := field d 4 2, inEnd := field d 8 4, execStart := field d 0x0C 4, outStart := field d 0x10 4,
    outEnd := field d 0x14 4, exStart := field d 0x18 4, cutOver := field d 0x1C 4, marker := field d 0x20 4 }

def sharedOfBytes (d : Bytes) : Shared :=
  { pair := field d 0 1, exAddr := field d 4 4, exSize := field d 8 4, retAddr := field d 0x0C 4, retSize := field d 0x10 4, retBound := field d 0x14 4 }

def ringOfBytes (d : Bytes) : RingDecl := { ring := field d 0 1, dir := field d 1 1, owner := field d 2 1, depth := field d 4 4 }

def limitOfBytes (d : Bytes) : LimitDef := { addr := field d 0 4, qm := field d 4 1, min := toInt 32 (field d 8 4), max := toInt 32 (field d 12 4) }

def chanOfBytes (d : Bytes) : ChanDef := { kind := field d 0 1, logical := field d 1 1, physical := field d 2 1, modeClass := field d 3 1 }

/-- KIND and two numbers of a byte each: a mirror's triplet, a MAPSET item. -/
def tripletOf (d : Bytes) : Nat × Nat × Nat := (field d 0 1, field d 1 1, field d 2 1)

/-- The definitions of a MIRROR section, `none` where a definition is cut short. -/
def mirrorsOf : Nat → Bytes → Option (List (List (Nat × Nat × Nat)))
  | 0, d => if d.isEmpty then some [] else none
  | fuel + 1, d =>
    if d.isEmpty then some []
    else
      let n := field d 0 1
      if d.length < 1 + 3 * n then none
      else (mirrorsOf fuel (d.drop (1 + 3 * n))).map (fun ds => (entries 3 (slice d 1 (3 * n))).map tripletOf :: ds)

/-- The items of a PARAMSET section, `none` where an item is cut short. -/
def paramItemsOf : Nat → Bytes → Option (List ParamItem)
  | 0, d => if d.isEmpty then some [] else none
  | fuel + 1, d =>
    if d.isEmpty then some []
    else
      let n := 32 * field d 4 2
      if d.length < 6 + n then none
      else (paramItemsOf fuel (d.drop (6 + n))).map (fun is => { area := field d 0 2, offset := field d 2 2, bytes := slice d 6 n } :: is)

/-- The records of a RELOC section. -/
def relocOf (d : Bytes) : List (List Nat) :=
  if d.isEmpty then [] else (entries 32 (slice d 64 (32 * field d 0 2))).map (fun r => r.map (·.toNat))

/-! ### A timetable image (R103) -/

/-- The lengths and reserved bytes of the sections an image carries. -/
def sectionForms (b : Bytes) (x : Image) : Bool :=
  let has (ty : Nat) : Bool := (findSect b ty 0).isSome
  let d := content b 1
  (!has 1 || d.length == 0x100) && (!has 2 || decide (0x18 ≤ (content b 2).length)) && (content b 3).length % 2 == 0 &&
  (content b 4).length % 8 == 0 && (entries 8 (content b 4)).all (fun e => field e 3 1 == 0) &&
  (content b 6).length % 16 == 0 && (entries 16 (content b 6)).all (fun e => field e 2 2 == 0 && field e 12 4 == 0) &&
  (content b 7).length % 16 == 0 && (entries 16 (content b 7)).all (fun e => field e 5 3 == 0) &&
  (content b 8).length % 4 == 0 && (mirrorsOf 8 (content b 9)).isSome &&
  (!has 0x15 || (let r := content b 0x15
    decide (1 ≤ field r 0 2) && decide (field r 0 2 ≤ 64) && r.length == 64 + 32 * field r 0 2 && zeros r 2 64)) &&
  (paramItemsOf (content b 0x20).length (content b 0x20)).isSome && (content b 0x21).length % 6 == 0 && (content b 0x22).length % 3 == 0 &&
  (List.range 32).all (fun l => (content b 0x10 l).length == 16 * ((x.code[l]?).map (fun c => c.bundles.length)).getD 0)

/-- MAGIC, FORMAT, the reserved bytes, TOTAL_LEN, SIGNER_OFFSET and the padding (R103, R398). -/
def headerForm (b : Bytes) : Bool :=
  let so := field b 0x54 4
  field b 0 4 == 0x5454584A && field b 4 2 == 1 && decide (field b 7 1 ≤ 1) && decide (1 ≤ field b 0x1C 2) && decide (field b 0x1C 2 ≤ 128) &&
  zeros b 0x1E 0x20 && zeros b 0x69 0x80 && so % 64 == 0 && field b 0x50 4 == b.length && so + 384 == b.length &&
  (sectsOf b).zipIdx.all (fun (x, i) => decide (x.off + x.len ≤ so) && zeros b (0x80 + 64 * i + 0x0C) (0x80 + 64 * i + 0x10)) && padded b

/-- The image that the bytes of a transfer hold; `x` gives bundles, slot plan, ENGINE contents and the findings of the cryptography. -/
def imageOf (b : Bytes) (x : Image) : Image :=
  let d := content b 1
  { wellFormed := headerForm b && sectionForms b x
    hashesOk := hashesAgree b
    flags := field b 7 1, toolId := field b 0x58 4, toolVer := field b 0x5C 4, buildSec := field b 0x60 8
    sects := sectsOf b
    signer := signerAt b (field b 0x54 4) (field b 7 1 % 2 == 1) x.signer
    kind := field b 6 1, id := field b 8 4, ver := field b 0x0C 4, baseId := field b 0x10 4
    baseVerMin := field b 0x14 4, baseVerMax := field b 0x18 4
    layoutDigest := field b 0x20 48, digestSelf := layoutDigest b
    totalLen := field b 0x50 4, minHwRev := field b 0x68 1
    decl := declOf d, shared := sharedOfBytes (content b 2)
    bankmap := (entries 2 (content b 3)).map (fun e => (field e 0 1, field e 1 1))
    rings := (entries 8 (content b 4)).map ringOfBytes
    params := (entries 16 (content b 6)).map (fun e => (field e 0 2, field e 4 4, field e 8 4))
    limits := (entries 16 (content b 7)).map limitOfBytes
    chans := (entries 4 (content b 8)).map chanOfBytes
    mirrors := (mirrorsOf 8 (content b 9)).getD []
    code := (List.range (if d.isEmpty then 0 else 32)).map (fun l =>
      { first := field d (0x80 + 4 * l) 2, last := field d (0x82 + 4 * l) 2, entry := field d (0x40 + 2 * l) 2
        bundles := ((x.code[l]?).map (·.bundles)).getD [] })
    data := ((sectsOf b).filter (fun s => s.type == 0x11)).map (fun s => (s.index, content b 0x11 s.index))
    bankInit := ((sectsOf b).filter (fun s => s.type == 0x12)).map (fun s => (s.index, content b 0x12 s.index))
    engine := if (findSect b 0x13 0).isSome then x.engine else []
    slotPlan := x.slotPlan
    reloc := relocOf (content b 0x15)
    paramSet := (paramItemsOf (content b 0x20).length (content b 0x20)).getD []
    limitSet := (entries 6 (content b 0x21)).map (fun e => (field e 0 2, toInt 32 (field e 2 4)))
    mapSet := (entries 3 (content b 0x22)).map tripletOf }

/-! ### A firmware part (R398, R453) -/

/-- The image of a firmware part that the bytes hold: its length, SHA-384 and body, and the two signer blocks at its end. -/
def partOf (b : Bytes) (x : FwImage) : FwImage :=
  { x with
    len := b.length, hash := Config.sha384 b, body := b.take (b.length - 768)
    vendor := signerAt b (b.length - 768) x.vendor.fik.isSome x.vendor
    outer := signerAt b (b.length - 384) x.outer.fik.isSome x.outer }

/-- What the received bytes are. -/
def contentOf (b : Bytes) : Content → Content
  | .image x => .image (imageOf b x)
  | .part f => .part (partOf b f)
  | .unreadable => .unreadable

end Sys2Proof.Machine
end

