-- ==== Sys2Proof/Machine/Updates.lean ====
section
/-! DEFINITION. Image transfers (R380, R459, R460) and updates of firmware parts: schedule, activation, bank selection (R461 to R465), and forwarding along
the plant ring (R466, R467). -/

namespace Sys2Proof.Machine

open Sys2Proof

/-! ### Image transfers -/

/-- The transfer a session has in progress. -/
def State.transfer? (s : State) (id : Nat) : Option Transfer := s.acc.transfers.find? (fun t => t.session == id)

/-- The transfer of a session ends. -/
def State.dropTransfer (s : State) (id : Nat) : State := { s with acc := { s.acc with transfers := s.acc.transfers.filter (fun t => t.session != id) } }

/-- Slot `k` is named in the mode word in force (R110). -/
def State.slotInForce (s : State) (k : Nat) : Bool := decide (1 ≤ k) && bitOf (s.rd R.TT_MODE_CUR_ACTIVE) (k - 1)

/-- XFER_BEGIN opens a transfer into a slot, or into a part's inactive bank, which it erases (R110, R459, R460) (DESIGN CHOICE, log entry 54). -/
def execXferBegin (r : Req) (target length hash : Nat) (s : State) : Next :=
  let c : Cmd := { op := 0x0401, level := .engineer, lock := true, field := true }
  .next (s.command r c (fun s =>
    let open_ (s : State) : State :=
      let t : Transfer := { session := r.session, target, length, hash, chunks := [] }
      let s := s.dropTransfer r.session
      { s with acc := { s.acc with transfers := s.acc.transfers ++ [t] } }.reply r c 0
    match s.acc.transfers.find? (fun t => t.target == target && t.session != r.session) with
    | some t => s.reply r c 0x000C [t.session]
    | none =>
      if target ≤ 16 then
        if s.slotInForce target then s.reply r c 0x0404
        else open_ (if 1 ≤ target && s.tt.switch.any (fun w => bitOf w.active (target - 1)) then s.loseSwitch else s)
      else match partIndex target with
        | none => s.reply r c 0x0009
        | some p => if partSize p < length then s.reply r c 0x0405 else open_ (s.erasePart p)))

/-- XFER_CHUNK takes 1 to 16,384 bytes inside the declared length (DESIGN CHOICE, log entry 54). -/
def execXferChunk (r : Req) (offset : Nat) (data : Bytes) (s : State) : Next :=
  let c : Cmd := { op := 0x0402, level := .engineer }
  .next (s.command r c (fun s => match s.transfer? r.session with
    | none => s.reply r c 0x0401
    | some t =>
      if data.isEmpty || decide (16384 < data.length) then s.reply r c 0x0003 [2]
      else if t.length < offset + data.length then s.reply r c 0x0402
      else { s with acc := { s.acc with transfers := s.acc.transfers.map (fun (x : Transfer) =>
          if x.session == r.session then { x with chunks := x.chunks ++ [(offset, data)] } else x) } }.reply r c 0))

/-- How far the chunks reach without a gap, from 0 (DESIGN CHOICE, log entry 54). -/
def coverage (chunks : List (Nat × Bytes)) : Nat :=
  chunks.foldl (fun pos _ => chunks.foldl (fun pos k => if k.1 ≤ pos then max pos (k.1 + k.2.length) else pos) pos) 0

/-- The bytes received: a later chunk stands over an earlier one. -/
def received (t : Transfer) : Bytes :=
  t.chunks.foldl (fun b k => b.take k.1 ++ k.2 ++ b.drop (k.1 + k.2.length)) (List.replicate t.length 0)

/-- The received bytes are taken into their target once they verify (R400, R459); the status (DESIGN CHOICE, log entry 22). -/
def State.takeContent (s : State) (target : Nat) (content : Content) : State × Nat :=
  match partIndex target, content with
  | none, .image m =>
    if s.slotInForce target then (s, 0x0404)
    else if s.signerOk m.signer && m.signer.kind != 1 && decide (alGet 0 s.tt.floors (floorKey m) ≤ m.ver) then
      let old := s.held target
      ({ s.setSlot target (some m) with fw := { s.fw with older := s.fw.older.set target old } }, 0)
    else (s.verifyFailed, 0x0408)
  | some p, .part f => if s.stageVerifies p f then (s.stagePart p f, 0) else (s.verifyFailed, 0x0408)
  | _, _ => (s.verifyFailed, 0x0408)

/-- XFER_END checks the bytes received, for gaps, their SHA-384 and their signatures, and stages or loads what they hold (R103 to R106, R398 to R400) (DESIGN CHOICE,
log entries 23, 54; DEDUCED, log entry 93). -/
def execXferEnd (r : Req) (content : Content) (s : State) : Next :=
  let c : Cmd := { op := 0x0403, level := .engineer }
  .next (s.command r c (fun s => match s.transfer? r.session with
    | none => s.reply r c 0x0401
    | some t =>
      if coverage t.chunks < t.length then s.reply r c 0x0402
      else
        let s := s.dropTransfer r.session
        if Config.sha384 (received t) != t.hash then s.reply r c 0x0403
        else
          let (s, st) := s.takeContent t.target (contentOf (received t) content)
          s.reply r c st (if st = 0 then [0] else [])))

/-- XFER_ABORT discards the transfer. -/
def execXferAbort (r : Req) (s : State) : Next :=
  let c : Cmd := { op := 0x0404, level := .engineer }
  .next (s.command r c (fun s =>
    if (s.transfer? r.session).isNone then s.reply r c 0x0401 else (s.dropTransfer r.session).reply r c 0))

/-! ### Scheduling (R461 to R465) -/

/-- Part `p` activates at the first boundary at or after FRC `at_` (DEDUCED, log entry 55). -/
def State.schedule (s : State) (p at_ : Nat) : State := (s.wr R.BT_PART_PENDING 1 p).wr64 R.BT_SCHED_AT_LO R.BT_SCHED_AT_HI at_ p

/-- The opcodes whose requests wait for the partner, for the boundary, for the plants. -/
def opSchedule : Nat := 0x0405
def opActivate : Nat := 0x0406
def opForward : Nat := 0x0408

/-- UPDATE_SCHEDULE (R461); in a pair the partner must hold the same image, and schedules it too (R464).  The wait's key holds part and time. -/
def execUpdateSchedule (r : Req) (part : Nat) (at_ : Time) (s : State) : Next :=
  let c : Cmd := { op := opSchedule, level := .engineer, lock := true, field := true }
  .next (s.command r c (fun s => match partIndex part, s.timeFrc at_ with
    | none, _ => s.reply r c 0x0009
    | some p, t =>
      if !scheduled p then s.reply r c 0x0407
      else match t, s.staged? p with
        | none, _ => s.reply r c 0x0601
        | some t, f =>
          if t < s.tb.frc + 100000000 then s.reply r c 0x0406
          else match f with
            | none => s.reply r c 0x0408
            | some f =>
              if s.role == .solo then (s.schedule p t).reply r c 0
              else (s.path [9, p, ((t : Int) - roundDiv s.pair.delta 32).toNat, f.ver, f.hash]).await r c (16 * t + p)))

/-- The partner confirms, or refuses, a schedule it was sent. -/
def State.scheduleConfirmed (s : State) (p : Nat) (ok : Bool) : State :=
  match s.acc.waiters.find? (fun w => w.op == opSchedule && w.key % 16 == p) with
  | none => s
  | some w => (if ok then s.schedule p (w.key / 16) else s).wake opSchedule w.key (if ok then 0 else 0x0409)

/-- A schedule that the partner sends is taken when the same image is staged here (R464). -/
def State.scheduleFrom (s : State) (p at_ ver hash : Nat) : State :=
  if scheduled p && (s.staged? p).any (fun f => f.ver == ver && f.hash == hash) then (s.schedule p at_).path [10, p, 1] else s.path [10, p, 0]

/-- UPDATE_ACTIVATE orders a commanded part for the next boundary (R462, R464) (DEDUCED, log entry 55). -/
def execUpdateActivate (r : Req) (part : Nat) (s : State) : Next :=
  let c : Cmd := { op := opActivate, level := .engineer, lock := true, field := true }
  .next (s.command r c (fun s => match partIndex part with
    | none => s.reply r c 0x0009
    | some p =>
      if !commanded p then s.reply r c 0x0407
      else if !s.fw.commanded.isEmpty || s.fw.restarting.any (fun x => x == 3 || x == 5 || decide (16 ≤ x)) then s.reply r c 0x0007
      else if p = partPartner && s.bit R.PA_CFG_EN && s.role != .active && s.role != .solo then s.reply r c 0x000B
      else if (s.staged? p).isNone then s.reply r c 0x0408
      else { s with fw := { s.fw with commanded := [p] } }.await r c p))

/-- UPDATE_STATUS: per part its flags and pending activation, VER of bank A and B, and AT. -/
def execUpdateStatus (r : Req) (s : State) : Next :=
  let c : Cmd := { op := 0x0407, level := .observer }
  .next (s.command r c (fun s => s.reply r c 0 ((List.range 9).flatMap (fun p =>
    [s.rd R.BT_PART_ACTIVE p, s.rd R.BT_PART_A_OK p, s.rd R.BT_PART_B_OK p, s.rd R.BT_PART_PENDING p, s.rd R.BT_PART_VER_A p, s.rd R.BT_PART_VER_B p,
     s.rd64 R.BT_SCHED_AT_LO R.BT_SCHED_AT_HI p]))))

/-- BANK_SELECT: the bank must hold an image at or above its floor; a scheduled part switches at the next boundary, a commanded one at its next
UPDATE_ACTIVATE, CONFIG at the next start (R465). -/
def execBankSelect (r : Req) (part bank : Nat) (s : State) : Next :=
  let c : Cmd := { op := 0x0409, level := .owner, lock := true }
  .next (s.command r c (fun s => match partIndex part with
    | none => s.reply r c 0x0009
    | some p =>
      if p = partNode then s.reply r c 0x0009
      else if 2 ≤ bank then s.reply r c 0x0003 [2]
      else if !s.bit (bankOk bank) p || !(s.partBank p bank).any (fun f => decide (s.partFloor p ≤ f.ver)) then s.reply r c 0x0408
      else
        let s := s.pendNone p
        let s := if s.rd R.BT_PART_ACTIVE p = bank then s
          else if scheduled p then s.schedule p s.tb.frc
          else s.wr R.BT_PART_PENDING 2 p
        s.reply r c 0))

/-! ### Activation (R401, R461 to R464) -/

/-- The part starts from its other bank: the floor rises, ACTIVATED and LAST_FRAME report it (R401, R473). -/
def State.activate (s : State) (p : Nat) : State :=
  let ver := ((s.staged? p).map (·.ver)).getD 0
  let s := if p = partNode then s else s.wr R.BT_PART_ACTIVE (s.idleBank p) p
  let s := { s with trust := { s.trust with floors := alPut 0 s.trust.floors p (max ver (s.partFloor p)) } }
  ((s.wr R.BT_PART_LAST_FRAME s.tb.frameNo p).wr R.BT_STATUS_ACTIVATED 1).pendNone p

/-- A part is restarting (DESIGN CHOICE, log entry 50). -/
def State.restarts (s : State) (p : Nat) : State := { s with fw := { s.fw with restarting := p :: s.fw.restarting.filter (fun x => x != p) } }

/-- What an activated scheduled part does at its boundary: the management core restarts without its sessions, the enclave's mailbox is BUSY, the bridge holds
back rectangles, the chain ports send IMG_ACTIVATE (R461, R469); the field controllers change nothing (DEDUCED, log entry 55). -/
def State.activated (s : State) (p : Nat) : State :=
  match p with
  | 0 => (s.acc.sessions.foldl (fun s x => (s.notice x.id (s.freeVal % 65536)).nextFree) s).restarts 0
  | 1 => (s.wr R.SE_MBOX_BUSY 1).restarts 1
  | 6 => s.restarts 6
  | 7 => { s with fw := { s.fw with tx := s.fw.tx.map (fun (x : NodeTx) => { x with activate := true }) } }
  | _ => s

/-- UPDATE_ACTIVATION: the first boundary at or after the scheduled time; in BOOT and RECOVERY it cancels the activation (R461, R463) (DEDUCED, log entry 55). -/
def execUpdateActivation (part : Nat) (s : State) : Next := .next <|
  if 9 ≤ part || s.rd R.BT_PART_PENDING part != 1 then s
  else
    let at_ := s.rd64 R.BT_SCHED_AT_LO R.BT_SCHED_AT_HI part
    match s.unit with
    | .boot | .recovery => if at_ ≤ s.tb.frc then s.pendNone part else s
    | .off => s
    | _ =>
      let t := s.toTick
      if at_ ≤ t.tb.frc then (t.activate part).activated part else s

/-- PAUSE in µs (R462). -/
def State.pause (s : State) (p : Nat) : Nat :=
  match p with
  | 3 => 35000
  | 5 => 500000
  | _ => ((List.range 8).filter (fun q => s.chainOn q)).foldl (fun m q => max m (s.rd R.CH_SWEEP_PERIOD_F q * s.P / 100)) 0

/-- What an activated commanded part does (R462, R464): the switch stops forwarding, each chain port restarts at its next strobe, the pair ends in SOLO
and both units restart their partner links. -/
def State.commandedActs (s : State) (p : Nat) : State :=
  match p with
  | 3 => s.restarts 3
  | 4 => ((List.range 8).filter (fun q => s.chainOn q)).foldl (fun s q => s.restarts (16 + q)) s
  | _ => (((if s.role == .active then s.toSolo.path [11] else s).restarts 5)).pairLinks

/-- COMMANDED_ACTIVATION: the first boundary after UPDATE_ACTIVATE (R462). -/
def execCommandedActivation (s : State) : Next := .next <|
  match s.unit, s.fw.commanded with
  | .stop, p :: _ | .run, p :: _ | .halt, p :: _ =>
    let s := s.toTick
    ((s.activate p).commandedActs p).wake opActivate p 0 [s.pause p]
  | .boot, p :: _ | .recovery, p :: _ => s.pendNone p
  | _, _ => s

/-- The partner's order to restart the partner-link controllers: the unit stops, and joins once they are back (R464). -/
def State.restartLinks (s : State) : State :=
  let s := if s.inRun then s.stopHere else s
  ({ s with pair := { s.pair with separated := true } }.restarts partPartner).pairLinks

/-- PART_RESTART_COMPLETE: the part runs its new firmware (R461, R462); a partner that stopped for it joins by state transfer, whatever AUTOJOIN holds
(R464) (DESIGN CHOICE, log entry 86). -/
def execPartRestartComplete (part : Nat) (q : PartnerInfo) (s : State) : Next := .next <|
  if !s.fw.restarting.contains part || decide (16 ≤ part) then s
  else
    let s := { s with fw := { s.fw with restarting := s.fw.restarting.filter (fun x => x != part) } }
    match part with
    | 1 => s.wr R.SE_MBOX_BUSY 0
    | 5 =>
      let s := s.pairLinks
      if s.pair.separated && s.inStop && s.bit R.PA_CFG_EN then s.join q else s
    | 6 => s.dgUpdate
    | _ => s

/-! ### Along the plant ring (R466, R467) -/

/-- UPDATE_FORWARD sends the staged image of a part to the first plant of the list. -/
def execUpdateForward (r : Req) (part : Nat) (plants : List Nat) (s : State) : Next :=
  let c : Cmd := { op := opForward, level := .engineer, lock := true }
  .next (s.command r c (fun s => match partIndex part with
    | none => s.reply r c 0x0009
    | some p => match s.staged? p, plants with
      | none, _ => s.reply r c 0x0408
      | _, [] => s.reply r c 0x0003 [2]
      | some f, q :: qs =>
        if s.fw.forward.isSome then s.reply r c 0x0007
        else if s.trust.member.isNone then s.reply r c 0x0A17
        else
          let s := ((s.wr R.BT_FWD_STATE 1).wr R.BT_FWD_HOP 0).wr R.BT_FWD_FAILED 0
          let s := s.emit (.plant q) .path ([p, f.ver, f.hash] ++ qs) f.body
          { s with fw := { s.fw with forward := some { part := p, plants, pos := 0, at_ := s.tb.frc, session := r.session, tag := r.tag } } }.await r c))

/-- A plant confirms its hop to the originating module. -/
def State.hopConfirmed (s : State) (plant : Nat) : State :=
  match s.fw.forward with
  | none => s
  | some f =>
    if f.plants[f.pos]? != some plant then s
    else if f.pos + 1 < f.plants.length then
      { s.wr R.BT_FWD_HOP (f.pos + 1) with fw := { s.fw with forward := some { f with pos := f.pos + 1, at_ := s.tb.frc } } }
    else
      let s := (s.wr R.BT_FWD_HOP (f.pos + 1)).wr R.BT_FWD_STATE 2
      { s with fw := { s.fw with forward := none } }.wake opForward 0 0

/-- A forwarded image is verified in full, staged unless the same one is, confirmed to its origin and sent on; one that fails is not confirmed (R466). -/
def State.hopArrives (s : State) (p : Nat) (f : FwImage) (origin : Nat) (rest : List Nat) : State :=
  if 9 ≤ p || (p == 6 && Config.variantM) || s.trust.member.isNone then s
  else if !s.stageVerifies p f then s.verifyFailed
  else
    let same := (s.staged? p).any (fun g => g.ver == f.ver && g.hash == f.hash)
    let s := if same then s else (s.erasePart p).stagePart p f
    let s := s.emit (.plant origin) .path [p]
    match rest with
    | q :: qs => s.emit (.plant q) .path ([p, f.ver, f.hash, origin] ++ qs) f.body
    | [] => s

/-- Firmware, base and slots of the partner arrive at a new module: staged, each made active, and one MRST (R467); the pair configuration that CONFIG carries
is taken (R370). -/
def State.replaced (s : State) (parts : List (Nat × FwImage)) (base : Option Image) (slots : List (Option Image)) : State :=
  if !s.inStop || s.trust.partner.isNone then s
  else
    let s := parts.foldl (fun s x =>
      if x.1 = partNode || decide (9 ≤ x.1) || !s.stageVerifies x.1 x.2 then s
      else
        let s := ((s.erasePart x.1).stagePart x.1 x.2)
        let s := ((s.wr R.BT_PART_ACTIVE (s.idleBank x.1) x.1).pendNone x.1).wr R.BT_STATUS_ACTIVATED 1
        let s := { s with trust := { s.trust with floors := alPut 0 s.trust.floors x.1 (max x.2.ver (s.partFloor x.1)) } }
        if x.1 = partConfig then s.putFields pairRows x.2.config else s) s
    let s := s.setSlot 0 base
    let s := (slots.zipIdx).foldl (fun s x => if x.2 < 16 then s.setSlot (x.2 + 1) x.1 else s) s
    s.mrst 3

/-- The parts whose active VER differs from the new module's, the base and the slots go to it over the management path (R467). -/
def State.replaceFrom (s : State) (vers : List Nat) : State :=
  let s := ((List.range 9).filter (fun p => p != partNode)).foldl (fun s p =>
    match s.partBank p (s.rd R.BT_PART_ACTIVE p) with
    | some f => if p != partConfig && vers[p]? == some f.ver then s else s.path [12, p, f.ver, f.hash] f.body
    | none => s) s
  (List.range 17).foldl (fun s k => match s.held k with
    | some m => s.path [13, k, m.id, m.ver]
    | none => s) s

/-- FORWARD_HOP (R466, R467). -/
def execForwardHop (h : HopIn) (s : State) : Next := .next <|
  if !s.serviceUp then s
  else match h with
    | .confirm plant => s.hopConfirmed plant
    | .arrive p f origin rest => s.hopArrives p f origin rest
    | .replacement parts base slots => s.replaced parts base slots
    | .askFrom vers => if s.trust.partner.isSome then s.replaceFrom vers else s

/-- FORWARD_HOP_TIMEOUT: a hop not confirmed within 120 s stops the chain (R466). -/
def execForwardHopTimeout (s : State) : Next := .next <|
  match s.fw.forward with
  | none => s
  | some f =>
    if s.tb.frc < f.at_ + 12000000000 then s
    else
      let plant := f.plants.getD f.pos 0
      let s := (s.wr R.BT_FWD_STATE 3).wr R.BT_FWD_FAILED plant
      { s with fw := { s.fw with forward := none } }.wake opForward 0 0x0409 [plant]

end Sys2Proof.Machine
end

