-- ==== Sys2Proof/Machine/NodeImages.lean ====
section
/-! DEFINITION. Node images down the chains (R468, R469) and ROM recovery (R470 to R472). -/

namespace Sys2Proof.Machine

open Sys2Proof

/-! ### Node images -/

/-- Change a port's node update. -/
def State.updTx (s : State) (p : Nat) (f : NodeTx → NodeTx) : State := { s with fw := { s.fw with tx := updAt s.fw.tx p f } }

/-- The end of the gap the port stands in (R277) (DEDUCED, log entry 56). -/
def State.gapEnd (s : State) (p : Nat) : Option Nat :=
  (s.nextStrobe p).map (fun S => if s.tb.frc + s.chainLead p + 1000 < S then S - s.chainLead p - 1000 else S - 1000)

/-- The duration of a frame with `n` payload bytes, tb (R469). -/
def frameTb (n : Nat) : Nat := (64 + 8 * n) * 25

/-- A broadcast of `n` payload bytes may begin: after the queued commands and the broadcast before it, and so that it ends with its transit before the end
of the gap (R469). -/
def State.nodeSlot (s : State) (p n : Nat) : Bool :=
  s.chainTx && s.chainOn p && (s.chainState p == csRunning || s.chainState p == csSplit) && (s.chain p).queue.isEmpty && (s.chain p).sentCmd.isNone &&
    s.chainGap p { session := 0, tag := 0, op := 0, code := 0x10, h := 0, payload := List.replicate n 0 } && decide ((s.chain p).lastBcast + frameTb n ≤ s.tb.frc) && !(s.gapEnd p).any (fun e => decide (e ≤ s.tb.frc + frameTb n + 10000))

/-- Broadcast from each end that reaches nodes. -/
def State.nodeBcast (s : State) (p code : Nat) (payload : Bytes) : State :=
  let s := s.chainBcast p false code payload
  if (s.chain p).split then s.chainBcast p true code payload else s

/-- A unicast of the module's own to home position `h`. -/
def State.nodeAsk (s : State) (p code h : Nat) : State := s.chainSendCmd p { session := 0, tag := 0, op := 0, code, h, payload := [] }

/-- The home positions of the nodes that can be reached. -/
def State.nodesHere (s : State) (p : Nat) : List Nat := ((List.range (s.chainN p)).map (· + 1)).filter (fun h => (s.chainReach p h).isSome)

/-- What the answers of a round say: blocks missing somewhere begin a new pass from the lowest; complete nodes are ended; else the port is done and its
verified nodes are counted (R469). -/
def State.nodeRound (s : State) (p : Nat) (f : FwImage) : State :=
  let st := (s.fw.tx.getD p NodeTx.reset).stats
  match (st.filter (fun x => x.2.1 != 0xFFFF && decide (x.2.2.1 ≤ 1))).map (fun x => x.2.1) with
  | m :: ms => (s.updTx p (fun x => { x with next := ms.foldl min m, stats := [] })).wr R.BT_NODE_STATE 1 p |>.wr R.BT_NODE_BLOCKS 0 p
  | [] => match (st.filter (fun x => x.2.2.1 == 2)).map (·.1) with
    | h :: hs => s.updTx p (fun x => { x with ends := h :: hs })
    | [] =>
      let good := st.filter (fun x => x.2.2.1 == 3 || x.2.2.2 == f.ver)
      (s.wr R.BT_NODE_VERIFIED good.length p).wr R.BT_NODE_STATE 3 p

/-- The next frame of a port's node update (DESIGN CHOICE, log entry 14; DEDUCED, log entry 56). -/
def State.nodeStep (s : State) (p : Nat) (f : FwImage) : State :=
  let x := s.fw.tx.getD p NodeTx.reset
  if x.activate && s.nodeSlot p 4 then
    let lag := (s.nodesHere p).length - s.rd R.BT_NODE_VERIFIED p
    ((s.nodeBcast p 0x14 (leBytes 4 f.ver)).updTx p (fun x => { x with activate := false })).wr R.BT_NODE_LAGGING (min 127 lag) p |>.wr R.BT_NODE_STATE 4 p
  else match s.rd R.BT_NODE_STATE p with
    | 0 =>
      if s.nodeSlot p 12 then
        ((s.nodeBcast p 0x10 (leBytes 4 f.len ++ leBytes 4 f.ver ++ leBytes 4 (Config.crc32 f.body))).updTx p (fun x => { x with next := 0, stats := [], ask := [], ends := [] })).wr
          R.BT_NODE_STATE 1 p |>.wr R.BT_NODE_BLOCKS 0 p
      else s
    | 1 =>
      if f.len ≤ 32 * x.next then (s.updTx p (fun x => { x with ask := s.nodesHere p, stats := [] })).wr R.BT_NODE_STATE 2 p
      else if s.nodeSlot p 36 then
        let data := ((f.body.drop (32 * x.next)).take 32 ++ List.replicate 32 0).take 32
        ((s.nodeBcast p 0x11 (leBytes 4 (32 * x.next) ++ data)).updTx p (fun x => { x with next := x.next + 1 })).inc R.BT_NODE_BLOCKS p
      else s
    | 2 =>
      if !s.nodeSlot p 0 then s
      else match x.ends, x.ask with
        | h :: hs, _ =>
          (s.nodeAsk p 0x13 h).updTx p (fun x => { x with ends := hs, ask := if hs.isEmpty then s.nodesHere p else x.ask, stats := if hs.isEmpty then [] else x.stats })
        | [], h :: hs => (s.nodeAsk p 0x12 h).updTx p (fun x => { x with ask := hs })
        | [], [] => s.nodeRound p f
    | _ => s

/-- NODE_IMAGE_SEND: port `p` sends the next frame of the staged node image in a gap (R468, R469) (DEDUCED, log entry 56). -/
def execNodeImageSend (p : Nat) (s : State) : Next := .next <|
  match s.fw.node with
  | some f => if p < 8 then s.nodeStep p f else s
  | none => s

/-! ### Recovery (R470 to R472) -/

/-- A reply of the recovery protocol: its request, STATUS and fields; a transfer in progress has been heard of. -/
def State.recReply (s : State) (code status : Nat) (params : List Nat := []) : State :=
  let s := s.emit .service .reply ([code, status] ++ params)
  { s with fw := { s.fw with recXfer := s.fw.recXfer.map (fun (x : RecXfer) => { x with at_ := s.tb.frc }) } }

/-- RECOVERY_INFO: serial, REASON, FAILED_PARTS, BT_PART of every part, floors. -/
def execRecoveryInfo (s : State) : Next := .next <|
  if s.unit != .recovery then s
  else s.recReply 1 0 ([Config.serial, s.rd R.BT_STATUS_REASON, s.rd R.BT_STATUS_FAILED_PARTS] ++
    (List.range 9).flatMap (fun p => [s.rd R.BT_PART_ACTIVE p, s.rd R.BT_PART_A_OK p, s.rd R.BT_PART_B_OK p, s.rd R.BT_PART_PENDING p, s.rd R.BT_PART_LOADED p,
      s.rd R.BT_PART_VER_A p, s.rd R.BT_PART_VER_B p, s.rd R.BT_PART_LAST_FRAME p]) ++ (List.range 9).map s.partFloor)

/-- The bank a recovery image goes to: the failed bank, or bank A when both failed; with none failed, the inactive one (R471) (DEDUCED, log entry 55). -/
def State.recBank (s : State) (p : Nat) : Nat :=
  if !s.bit R.BT_PART_A_OK p then 0 else if !s.bit R.BT_PART_B_OK p then 1 else s.idleBank p

/-- RECOVERY_BEGIN erases the bank of a failed part, or of MGMT, and opens its transfer (R470). -/
def execRecoveryBegin (part length : Nat) (s : State) : Next := .next <|
  if s.unit != .recovery then s
  else match partIndex part with
    | none => s.recReply 2 0x0009
    | some p =>
      if p != partMgmt && !bitOf (s.rd R.BT_STATUS_FAILED_PARTS) p then s.recReply 2 0x0009
      else if partSize p < length then s.recReply 2 0x0405
      else
        let b := s.recBank p
        let s := s.setBank p b none
        { s with fw := { s.fw with recXfer := some { part := p, bank := b, len := length, data := [], at_ := s.tb.frc },
                                   written := s.fw.written.filter (fun w => w.1 != p) } }.recReply 2 0

/-- RECOVERY_DATA: up to 1,024 bytes that continue the previous request (R471). -/
def execRecoveryData (offset : Nat) (data : Bytes) (s : State) : Next := .next <|
  if s.unit != .recovery then s
  else match s.fw.recXfer with
    | none => s.recReply 3 0x0401
    | some x =>
      if 1024 < data.length then s.recReply 3 0x0003 [2]
      else if offset != x.data.length || decide (x.len < offset + data.length) then s.recReply 3 0x0402
      else { s with fw := { s.fw with recXfer := some { x with data := x.data ++ data, at_ := s.tb.frc } } }.recReply 3 0

/-- RECOVERY_END: the image is verified in full before its bank counts as valid (R470 to R472). -/
def execRecoveryEnd (hash : Nat) (content : Content) (s : State) : Next := .next <|
  if s.unit != .recovery then s
  else match s.fw.recXfer with
    | none => s.recReply 4 0x0401
    | some x =>
      if x.data.length < x.len then s.recReply 4 0x0402
      else
        let s := { s with fw := { s.fw with recXfer := none } }
        if Config.sha384 x.data != hash then s.recReply 4 0x0403
        else match contentOf x.data content with
          | .part f =>
            if s.stageVerifies x.part f then
              let s := s.setBank x.part x.bank (some f)
              { s with fw := { s.fw with written := (x.part, x.bank) :: s.fw.written } }.recReply 4 0
            else s.verifyFailed.recReply 4 0x0408
          | _ => s.verifyFailed.recReply 4 0x0408

/-- RECOVERY_RESTART: an MRST that makes the written banks active (R471). -/
def execRecoveryRestart (s : State) : Next := .next <|
  if s.unit != .recovery then s
  else
    let s := s.recReply 5 0
    let s := s.fw.written.foldl (fun s w => s.wr R.BT_PART_ACTIVE w.2 w.1) s
    s.mrst 2

/-- RECOVERY_IDLE_TIMEOUT: a host that has sent no request for 10 s loses its transfer (R471). -/
def execRecoveryIdleTimeout (s : State) : Next := .next <|
  match s.fw.recXfer with
  | some x => if x.at_ + 1000000000 ≤ s.tb.frc then { s with fw := { s.fw with recXfer := none } } else s
  | none => s

end Sys2Proof.Machine
end

