-- ==== Sys2Proof/Machine/Registers.lean ====
section
/-! DEFINITION. Reading and writing registers through the management core's map (R11 to R15, R23, R64): access codes, reserved bits, the access
lock, staging copies, fields that show a condition as it stands, and the registers whose writes act. -/

namespace Sys2Proof.Machine

open Sys2Proof

/-! ### Addresses (R11, R13, R15) -/

/-- An aligned word of a register block. -/
def regAddr (a : Nat) : Bool := decide (0x40000000 ≤ a) && decide (a < 0x40110000) && a % 4 == 0

/-- The fields of the register at an address: row and copy. -/
def fieldsAt (a : Nat) : List (RegRow × Nat × Nat) :=
  R.all.filterMap (fun r => (r.copyOf (32 * a + r.lo)).map (fun c => (r, c.1, c.2)))

/-- Registers of the metrology mailbox; absent on NPS-96D-X (R3). -/
def mailboxAddr (a : Nat) : Bool := decide (0x40100000 ≤ a) && decide (a < 0x40110000)

/-- An offset within one of `n` blocks of 0x1000 bytes from `base`: block and offset. -/
def blockAt (base n a : Nat) : Option (Nat × Nat) :=
  if base ≤ a && decide (a < base + 0x1000 * n) then some ((a - base) / 0x1000, (a - base) % 0x1000) else none

/-! ### Reading (R12, R13, R64) -/

/-- TT_RUN_STATUS.STATE (R152). -/
def UnitState.code : UnitState → Nat
  | .boot => 1 | .stop => 2 | .run => 3 | .halt => 4 | _ => 0

/-- A number from the records `32 w` to `32 w + 31` of the loop window whose FLAGS meet `mask` (R177). -/
def State.loopSum (s : State) (w mask : Nat) : Nat :=
  ofBits 32 (fun j => (s.word (loopRecAddr (32 * w + j) + 0x0C) &&& mask) != 0)

/-- The SERIAL of the node CH_ID_SEL names (R293). -/
def State.nodeSerial (s : State) (p : Nat) : Nat :=
  match (s.chain p).nodes.find? (fun n => n.h == s.rd R.CH_ID_SEL_POS p) with
  | some n => n.serial
  | none => 0

/-- Fields that show a condition as it stands: the row and what copy `i` reads. -/
def State.views (s : State) : List (RegRow × (Nat → Nat)) :=
  let b (x : Bool) : Nat := if x then 1 else 0
  [(R.TB_FRC_LO, fun _ => s.tb.frc), (R.TB_FRC_HI, fun _ => s.tb.frcShadow),
   (R.TT_FRAME_NO_LO, fun _ => s.tb.frameNo), (R.TT_FRAME_NO_HI, fun _ => s.tb.frameNo / 2 ^ 32),
   (R.TT_LAST_TICK_LO, fun _ => s.tb.lastTick), (R.TT_LAST_TICK_HI, fun _ => s.tb.lastTick / 2 ^ 32),
   (R.TT_RUN_STATUS_STATE, fun _ => UnitState.code s.unit),
   (R.LP_FLAGSUM, fun w => s.loopSum w 0xFFFFFFFF), (R.LP_MISSSUM, fun w => s.loopSum w 0x80),
   (R.LP_WIN_DATA, fun _ => s.word s.lpWinAddr), (R.SV_WIN_DATA, fun _ => s.word s.svWinAddr),
   (R.CH_ID_LO, s.nodeSerial), (R.CH_ID_HI, fun p => s.nodeSerial p / 2 ^ 32),
   (R.ES_RT_DATA, fun _ => s.word (Config.routeShadow + 4 * s.rd R.ES_RT_ADDR)),
   (R.PT_HOLD_TIME, fun _ => if s.rd R.PT_STATUS_STATE = 3 then min (2 ^ 32 - 1) ((s.tb.frc - s.ptp.lostAt) / 100000000) else 0),
   (R.PA_STATUS_ROLE, fun _ => Role.code s.role), (R.PA_STATUS_DRIVING, fun _ => b s.driving), (R.PA_STATUS_MIXED, fun _ => b s.pair.mixed),
   (R.PA_STATUS_ELIGIBLE, fun _ => b s.eligible), (R.PA_STATUS_TESTING, fun _ => b s.pair.test.isSome),
   (R.SE_SERIAL_LO, fun _ => Config.serial), (R.SE_SERIAL_HI, fun _ => Config.serial / 2 ^ 32),
   (R.MG_STATUS_FITTED, fun _ => b Config.variantM),
   (R.MG_STATUS_LINK_OK, fun _ => b (s.mg.lastGood.any (fun t => decide (s.tb.frc < t + 200000000)))),
   (R.MG_RX_DATA, fun k => leNat ((((s.mg.queue.head?.map (·.data)).getD []).drop (4 * k)).take 4)),
   (R.SS_STATUS_HEALTHY, fun _ => b s.healthy),
   (R.HS_JOURNAL_NEXT_SEQ, fun _ => s.jr.nextSeq), (R.HS_JOURNAL_PENDING, fun _ => s.jr.ram.length)]

/-- What a field reads: WO reads 0 (R12), CH_RATE.N and K and the lock groups' N read 1 for 0 (R64, R240) (DEDUCED, log entry 27). -/
def State.fieldRead (s : State) (r : RegRow) (i j : Nat) : Nat :=
  if r.acc = .wo then 0
  else match s.views.find? (fun v => v.1 == r) with
    | some v => v.2 i % 2 ^ r.width
    | none =>
      let n := s.rd r i j
      if n = 0 && [R.TB_LG_N, R.CH_RATE_N, R.CH_RATE_K].contains r then 1 else n

/-- The word at an address as it stands; reserved bits read 0 (R13), MG_ reads 0 on NPS-96D-X (R3). -/
def State.regWord (s : State) (a : Nat) : Nat :=
  if !regAddr a || (mailboxAddr a && !Config.variantM) then 0
  else (fieldsAt a).foldl (fun w f => w + s.fieldRead f.1 f.2.1 f.2.2 * 2 ^ f.1.lo) 0

/-- The low words of 64-bit status registers whose read latches the high word (R64, R152, R371, R438, R473) (DESIGN CHOICE, log entry 61). -/
def wideLow (a : Nat) : Bool :=
  [0x40010010, 0x40010018, 0x40010288, 0x40010290, 0x400102A8, 0x400A0058, 0x40100010].contains a ||
    (decide (0x400F0200 ≤ a) && decide (a < 0x400F0248) && a % 8 == 0)

/-- The LT_, SV_ and LP_ blocks, whose registers the lattice sets. -/
def latticeAddr (a : Nat) : Bool := decide (0x40020000 ≤ a) && decide (a < 0x40050000)

/-- The channel whose HART registers hold an address (R261). -/
def hartAddrChan (a : Nat) : Option Nat :=
  let o := a - 0x40050000
  if 0x40050000 ≤ a && decide (o / 0x1000 < 12) && decide (0x800 ≤ o % 0x1000) && decide (o % 0x1000 < 0xA00) then
    some (o / 0x1000 * 8 + (o % 0x1000 - 0x800) / 0x40)
  else none

/-- A read through the map, with what it does: what is due in the lattice has arrived (R75), a modem's state is the one of now (R261), the FRC's low word copies the high one into its shadow (R44), a wide low word latches its high
one, the engines' windows are read under R22. -/
def State.regRead (s : State) (a : Nat) : State × Nat :=
  let s := if !regAddr a then s else if latticeAddr a then s.landNow else match hartAddrChan a with
    | some ch => s.hartNow ch
    | none => s
  if a = 0x40000008 then ({ s with tb := { s.tb with frcShadow := s.tb.frc / 2 ^ 32 % 2 ^ 32 } }, s.regWord a)
  else if a = 0x40040014 then s.loopRead s.lpWinAddr 0
  else if a = 0x40030104 then s.storeRead s.svWinAddr 0
  else if wideLow a then ({ s with latch := alIns s.latch (a + 4) (s.regWord (a + 4)) }, s.regWord a)
  else if wideLow (a - 4) then (s, alGet 0 s.latch a)
  else (s, s.regWord a)

/-- Reads of `n` consecutive words (DESIGN CHOICE, log entry 61). -/
def State.regReads (s : State) (a : Nat) : Nat → State × List Nat
  | 0 => (s, [])
  | n + 1 =>
    let (s, v) := s.regRead a
    let (s, vs) := State.regReads s (a + 4) n
    (s, v :: vs)

/-- WIDE_COUNTER_LOW_READ: the low word is answered, the high word latched for the next read (R64) (DESIGN CHOICE, log entry 61). -/
def execWideCounterLowRead (addr : Nat) (s : State) : Next := .next <|
  if wideLow addr then
    let (s, v) := s.regRead addr
    { s with rdata := v }
  else s

/-! ### Writing (R12, R13, R23) -/

/-- Fields whose writes go to a staging copy (R233, R261, R293, R317): the channel and HART registers of a group, and every RWL field of the DIO_,
CH_ and CF_ blocks (DEDUCED, log entry 27). -/
def stagedAddr (a : Nat) : Bool :=
  (decide (0x40050000 ≤ a) && decide (a < 0x4005C000) && decide (0x100 ≤ a % 0x1000)) || (decide (0x40060000 ≤ a) && decide (a < 0x40090000))

/-- One field takes its bits of a written word by its access code (DEDUCED, log entry 27). -/
def State.fieldWrite (s : State) (a v : Nat) (r : RegRow) (i j : Nat) : State :=
  let x := bitsOf v r.lo r.width
  match r.acc with
  | .ro | .wo => s
  | .rw => s.wr r x i j
  | .w1c => s.wr r (s.rd r i j &&& (2 ^ r.width - 1 - x)) i j
  | .rwl => if !s.lockOpen then s else if stagedAddr a then s.stage r x i j else s.wr r x i j

/-- Every field of the register at `a` takes its bits. -/
def State.putWord (s : State) (a v : Nat) : State := (fieldsAt a).foldl (fun s f => s.fieldWrite a v f.1 f.2.1 f.2.2) s

/-- The next state of a meaning. -/
def State.act (s : State) (f : State → Next) : State :=
  match f s with
  | .next t => t
  | _ => s

/-- `f` where bit `b` of the word is 1. -/
def State.onBit (s : State) (v b : Nat) (f : State → Next) : State := if bitOf v b then s.act f else s

/-- TB_ registers whose writes act: source, snapshot, TOD set registers, increment, lock groups and members, time port (R38, R44, R46, R47, R55,
R64, R337). -/
def State.tbWrite (s : State) (a v : Nat) : State :=
  let o := a - 0x40000000
  if o = 0 then (s.refSel (bitsOf v 0 2)).onBit v 4 execSnap
  else if 0x30 ≤ o && o ≤ 0x44 then
    if s.servoOwns then s.wr R.PT_STATUS_SW_IGNORED 1
    else s.putWord a (if o = 0x38 then min 999999999 (v % 2 ^ 30) else v)
  else if o = 0x48 then (s.onBit v 0 execTodsetNow).onBit v 1 execTodsetArm
  else if o = 0x50 || o = 0x54 then s.act (execTbIncWrite (o == 0x54) v)
  else if o = 0x60 then
    let s := s.putWord a v
    s.wr R.TB_TP_CTRL_WIDTH (max 1 (min 5000 (s.rd R.TB_TP_CTRL_WIDTH)))
  else if 0x200 ≤ o && o < 0x600 then
    let g := (o - 0x200) / 0x20
    if o % 0x20 = 0x14 then s.onBit v 0 (execLgOneShotArm g) else s.act (execLgConfigWrite g (o % 0x20) v)
  else if 0x800 ≤ o && o < 0x1000 then s.act (execLgMemberWrite ((o - 0x800) / 4) v)
  else s.putWord a v

/-- TT_ registers whose writes act (R49, R99, R118, R119, R146, R148, R152). -/
def State.ttWrite (s : State) (a v : Nat) : State :=
  let o := a - 0x40010000
  if o = 0 then s.act (execFramePeriodWrite v)
  else if o = 0x40 then
    let s := s.putWord a v
    (s.onBit v 0 (execTtAdmStart (s.rd R.TT_ADM_CTRL_SLOT) (s.rd R.TT_ADM_CTRL_PLACEMENT))).onBit v 1 execTtAdmAbort
  else if o = 0x104 then
    let before := s.regWord a
    let s := s.putWord a v
    if s.regWord a = before then s else s.loseSwitch
  else if o = 0x110 then ((s.onBit v 0 execTtModePrepare).onBit v 1 execTtModeArm).onBit v 2 execTtModeCancel
  else if o = 0x280 then
    let s := s.putWord a v
    ((s.onBit v 0 (execTtRunStart (s.rd R.TT_RUN_CTRL_KIND))).onBit v 1 execTtRunStop).onBit v 2 execTtRunLrst
  else if o = 0x2A0 then s.onBit v 0 execTtRetClear
  else s.putWord a v

/-- LT_, LP_ and SV_ registers whose writes act, after what is due in the lattice (R75, R94, R95, R176, R201 to R204). -/
def State.engineWrite (s : State) (a v : Nat) : State :=
  let s := s.landNow
  if a = 0x40020200 then
    let s := s.putWord a v
    (s.onBit v 16 (execLtRelocCheck (s.rd R.LT_RELOC_LOGICAL) (s.rd R.LT_RELOC_TARGET))).onBit v 17 execLtRelocCommit
  else if a = 0x40040014 then s.act (execLpWinWrite v)
  else if a = 0x40030104 then s.act (execSvWinWrite v)
  else if a = 0x400300C0 then (s.putWord a v).onBit v 16 execSvRelocCommit
  else if a = 0x400300D0 then if s.lockOpen then s.svShadowOrder (bitsOf v 0 3) (bitOf v 8) else s
  else if a = 0x40030120 then (s.onBit v 0 execSvDmaStart).onBit v 1 execSvDmaAbort
  else s.putWord a v

/-- FG_ registers of group `g` whose writes act (R233, R237, R240). -/
def State.fgWrite (s : State) (g o a v : Nat) : State :=
  if o = 0x20 then (s.onBit v 0 (execFgApply g)).onBit v 1 (execFgApplyCancel g)
  else if o = 0x30 then
    let s := s.putWord a v
    (s.onBit v 8 (execFgSpareStart g (s.rd R.FG_SPARE_CTRL_TERMINAL g))).onBit v 9 (execFgSpareCancel g)
  else if 0x100 ≤ o && o < 0x300 && o % 0x40 = 0x2C then s.act (execChFlagsWrite (8 * g + (o - 0x100) / 0x40) v)
  else s.putWord a v

/-- CH_ registers of port `p` whose writes act (R270, R272, R281, R282). -/
def State.chainWrite (s : State) (p o a v : Nat) : State :=
  let s := s.putWord a v
  if o = 0 then
    let s := ((s.onBit v 4 (execChApply p)).onBit v 5 (execChCancel p)).onBit v 6 (execChDiscover p)
    ((s.onBit v 7 (execChWake p)).onBit v 8 (execChSleep p)).onBit v 9 (execChFaultClr p)
  else s

/-- CF_ registers of port `p` whose writes act (R309, R312, R317). -/
def State.canWrite (s : State) (p o a v : Nat) : State :=
  let s := s.putWord a v
  if o = 0 then ((s.onBit v 8 (execCfApply p)).onBit v 9 (execCfCancel p)).onBit v 10 (execCfRecover p (bitOf v 11))
  else if o = 0x68 then s.act (execCfTxbAbort p v)
  else s

/-- ES_ and PT_ registers whose writes act (R325, R330, R336). -/
def State.ethWrite (s : State) (a v : Nat) : State :=
  if a = 0x40090000 then
    -- RED_MODE is written in STOP and BOOT only
    let red := if s.inStop || s.unit == .boot then bitsOf v 4 3 else s.rd R.ES_CTRL_RED_MODE
    s.putWord a (v % 16 + 16 * red)
  else if a = 0x40090200 then (s.onBit v 0 execEsRtApply).onBit v 1 execEsRtCancel
  else if a = 0x40090208 then if s.lockOpen then s.setWord (Config.routeShadow + 4 * s.rd R.ES_RT_ADDR) v else s
  else if a = 0x40090820 then if s.lockOpen then s.servoCfg (bitsOf v 0 1) (bitsOf v 1 1) else s
  else s.putWord a v

/-- PA_, SS_, SE_, DG_, HS_ and MG_ registers whose writes act (R371, R410, R438, R452, R478, R479, R489, R490, R494). -/
def State.unitWrite (s : State) (a v : Nat) : State :=
  if a = 0x400A0000 then (s.putWord a v).pairLinks
  else if a = 0x400A0014 then (((if bitOf v 0 then s.joinAsk else s).onBit v 1 execPaCmdLeave).onBit v 2 execPaCmdHandover).onBit v 3 execPaCmdCancel
  else if a = 0x400B0010 || (0x400B0020 ≤ a && a < 0x400B0040) then (s.putWord a v).evalTrips
  else if a = 0x400B0040 then (s.tripReset (v % 16)).act (execSsTripCmd (bitsOf v 16 4))
  else if a = 0x400C0500 then s.onBit v 0 execSeMboxGo
  else if a = 0x400D000C then (s.putWord a v).onBit v 8 execDgSubmit
  else if a = 0x400D0018 then s.onBit v 0 execDgDonePop
  else if a = 0x400E0000 then (s.putWord a v).hsLevels
  else if a = 0x400E0010 then
    let s := s.putWord a v
    (s.onBit v 28 (execHsSwitchStart (s.rd R.HS_SWITCH_KIND) (s.rd R.HS_SWITCH_INDEX))).onBit v 29 execHsSwitchCancel
  else if a = 0x400E0020 then
    let s := s.putWord a v
    s.onBit v 31 (execHsClearGo (s.rd R.HS_CLEAR_BLOCK) (s.rd R.HS_CLEAR_UNIT))
  else if mailboxAddr a then
    if !Config.variantM then s
    else if a = 0x40100004 then s.onBit v 0 execMgRxPop
    else s.putWord a v
  else s.putWord a v

/-- A write of an aligned word through the map; outside every block it does nothing (R11, R13). -/
def State.regWrite (s : State) (a v : Nat) : State :=
  if !regAddr a then s
  else if a < 0x40010000 then s.tbWrite a v
  else if a < 0x40020000 then s.ttWrite a v
  else if a < 0x40050000 then s.engineWrite a v
  else match blockAt 0x40050000 12 a, blockAt 0x40070000 8 a, blockAt 0x40080000 8 a with
    | some (g, o), _, _ => s.fgWrite g o a v
    | _, some (p, o), _ => s.chainWrite p o a v
    | _, _, some (p, o) => s.canWrite p o a v
    | _, _, _ =>
      if a = 0x40060020 then (s.onBit v 0 execDioApply).onBit v 1 execDioApplyCancel
      else if a = 0x40078000 then ((s.putWord a v).onBit v 1 execChIngApply).onBit v 2 execChIngCancel
      else if 0x40090000 ≤ a && a < 0x400A0000 then s.ethWrite a v
      else s.unitWrite a v

/-- REGISTER_WRITE: a transfer of `size` bytes; a narrower or unaligned one is ignored (R11). -/
def execRegisterWrite (addr value size : Nat) (s : State) : Next := .next (if size = 4 then s.regWrite addr (value % 2 ^ 32) else s)

end Sys2Proof.Machine
end

