-- ==== Sys2Proof/Machine/PathRx.lean ====
section
/-! DEFINITION. Messages of the partner's management core over the management path (R345, R357, R362, R365, R381, R464). -/

namespace Sys2Proof.Machine

open Sys2Proof

/-- The partner's join request: a lockstep join begins a state transfer in this unit, which runs (R357, R365). -/
def State.partnerJoins (s : State) (mixed : Bool) : State :=
  if !s.inRun || mixed then s
  else
    let s := (s.wr R.PA_JOIN_STATUS_XFER 1).wr R.PA_JOIN_STATUS_ROUND 0
    { s with pair := { s.pair with xferAt := some s.tb.frc, xferCopy := [] } }

/-- The partner's report of its preparation: its hash, or a refusal, which MODE_PREPARE's reply passes on with the partner's UNIT (R119, R381) (DEDUCED, log entry 58). -/
def State.partnerPrepared (s : State) (hash : Option Nat) (reason : Nat) : State :=
  if s.role != .active then s
  else match hash with
    | some h => { s with tt := { s.tt with partnerHash := some h } }.prepareDone
    | none =>
      if s.rd R.TT_MODE_STATUS_STATE = 1 || s.rd R.TT_MODE_STATUS_STATE = 2 then
        (((s.modeState 6 mrPartner).modeEvent).dropSwitch).wake opModePrepare 0 (0x0200 + reason) (s.unitParam false)
      else s

/-- MANAGEMENT_PATH_MESSAGE_RX: a message from the partner's management core (DEDUCED, log entry 58). -/
def execManagementPathMessageRx (m : PathMsg) (s : State) : Next := .next <|
  if s.unit == .off || s.fw.restarting.contains 0 || !s.bit R.PA_CFG_EN then s
  else match m with
    | .revert => if s.role == .active then s.armHandover 0 else s
    | .joinRequest mixed => s.partnerJoins mixed
    | .joinInfo q => s.joinAnswer q
    | .entering => if s.inRun then { s with pair := { s.pair with partnerIn := some true } } else s
    | .prepare active mirror => if s.role == .standby || s.role == .syncing then s.modePrepare active mirror else s
    | .prepared hash reason => s.partnerPrepared hash reason
    | .cancel => if s.role == .standby || s.role == .syncing then s.modeCancel else s
    | .schedule part at_ ver hash => s.scheduleFrom part at_ ver hash
    | .scheduled part ok => s.scheduleConfirmed part ok
    | .restartLinks => if s.role == .solo then s else s.restartLinks

end Sys2Proof.Machine
end

