-- ==== Sys2Proof/Machine/Commands.lean ====
section
/-! DEFINITION. Command packets of groups 0x01, 0x02 and 0x03 (R372 to R381, R384): the session, mode switches, running, admission, retentive data,
rings and data reads. -/

namespace Sys2Proof.Machine

open Sys2Proof

/-! ### Shared -/

/-- A command of another session than a resource's holder is refused with the holder's ID (R380). -/
def State.heldBy (s : State) (r : Req) (c : Cmd) (holder : Option Nat) (f : State → State) : State :=
  match holder with
  | some id => if id = r.session then f s else s.reply r c 0x000C [id]
  | none => f s

/-- A value out of range is refused with its PID (R377) (DEDUCED, log entry 11; DESIGN CHOICE, log entry 62). -/
def State.inRange (s : State) (r : Req) (c : Cmd) (pid : Nat) (ok : Bool) (f : State → State) : State :=
  if ok then f s else s.reply r c 0x0003 [pid]

/-- A value of range, or an item absent, by its own status (DEDUCED, log entry 11). -/
def State.require (s : State) (r : Req) (c : Cmd) (ok : Bool) (status : Nat) (f : State → State) : State :=
  if ok then f s else s.reply r c status

/-- The ASCII codes of the order code, NPS-96D-M or NPS-96D-X (R1, R2). -/
def orderCode : Bytes := [0x4E, 0x50, 0x53, 0x2D, 0x39, 0x36, 0x44, 0x2D, if Config.variantM then 0x4D else 0x58]

/-- VER of the active bank of each part (R453). -/
def State.partVers (s : State) : List Nat := (List.range 9).map (fun p => s.rd (bankVer (s.rd R.BT_PART_ACTIVE p)) p)

/-! ### The session (R2, R372 to R374) -/

/-- HELLO: protocol version 1; the reply identifies the module and the session. -/
def execHello (r : Req) (version : Nat) (_host : Bytes) (s : State) : Next :=
  let c : Cmd := { op := 0x0101, level := .observer }
  .next (s.command r c (fun s =>
    if version != 1 then s.reply r c 0x0101
    else
      let s := s.updSession r.session (fun x => { x with hello := true })
      let level := ((s.session? r.session).map (fun x => if x.level == .metrology then 4 else levelRank x.level)).getD 0
      s.reply r c 0 ([if Config.variantM then 1 else 0, Config.serial, Config.hwRev] ++ s.partVers ++
        [UnitState.code s.unit, Role.code s.role, r.session, level]) orderCode))

/-- PING answers the FRC and keeps the session open. -/
def execPing (r : Req) (s : State) : Next :=
  let c : Cmd := { op := 0x0102, level := .observer }
  .next (s.command r c (fun s => s.reply r c 0 [s.tb.frc]))

/-- STATUS; the spec does not say what the alarm summary holds (a free value) (DEDUCED, log entry 59). -/
def execStatus (r : Req) (s : State) : Next :=
  let c : Cmd := { op := 0x0103, level := .observer }
  .next (s.command r c (fun s =>
    (s.reply r c 0 [UnitState.code s.unit, Role.code s.role, s.regWord 0x40010284, s.regWord 0x40010100, s.regWord 0x40090808,
      s.freeVal % 2 ^ 32]).nextFree))

/-- SUBSCRIBE: bit g for the notifications of group g. -/
def execSubscribe (r : Req) (classes : Nat) (s : State) : Next :=
  let c : Cmd := { op := 0x0104, level := .observer }
  .next (s.command r c (fun s => (s.updSession r.session (fun x => { x with classes })).reply r c 0))

/-- VERSIONS: slot, ID and VER of every loaded image, then VER of every part. -/
def execVersions (r : Req) (s : State) : Next :=
  let c : Cmd := { op := 0x0105, level := .observer }
  .next (s.command r c (fun s =>
    let images := (List.range 17).filterMap (fun k => (s.held k).map (fun m => [k, m.id, m.ver]))
    s.reply r c 0 (images.flatten ++ s.partVers)))

/-- BYE is answered, and the session closed. -/
def execBye (r : Req) (s : State) : Next :=
  let c : Cmd := { op := 0x0106, level := .observer }
  .next (s.command r c (fun s => (s.reply r c 0).closeSession r.session))

/-! ### Mode switches (R114 to R126, R380, R381) -/

/-- MODE_READ: TT_MODE_CUR, TT_SLOT, ID and VER of slots 1 to 16, and the slot names, each ended by a 0. -/
def execModeRead (r : Req) (s : State) : Next :=
  let c : Cmd := { op := 0x0201, level := .observer, active := true }
  .next (s.command r c (fun s =>
    s.reply r c 0 (s.regWord 0x40010100 :: (List.range 16).flatMap (fun k =>
        [s.rd R.TT_SLOT_KIND k, s.rd R.TT_SLOT_VALID k, s.rd R.TT_SLOT_STALE k, s.rd R.TT_SLOT_CODE k, s.rd R.TT_SLOT_ID k, s.rd R.TT_SLOT_VER k]))
      (s.tt.slots.flatMap (fun x => x.name.map (BitVec.ofNat 8) ++ [0]))))

/-- MODE_PREPARE: the session becomes the holder; the reply comes when the unit, and in a pair its partner, hold PREPARED (R118, R381). -/
def execModePrepare (r : Req) (mode : Nat) (s : State) : Next :=
  let c : Cmd := { op := opModePrepare, level := .operator, active := true }
  .next (s.command r c (fun s => s.heldBy r c s.acc.modeHolder (fun s => s.inRange r c 1 (mode < 2 ^ 24) (fun s =>
    let st := s.rd R.TT_MODE_STATUS_STATE
    let s := s.modePrepare (bitsOf mode 0 16) (bitsOf mode 16 8)
    if st = 3 || st = 4 then s.reply r c (0x0200 + mrBusy) (s.unitParam true)
    else
      let s := { s with acc := { s.acc with modeHolder := some r.session } }.await r c
      if s.role == .active then s.path [6, bitsOf mode 0 16, bitsOf mode 16 8] else s))))

/-- MODE_ARM: the reply gives the boundary, or the reason of the refusal (R119). -/
def execModeArm (r : Req) (at_ : Time) (s : State) : Next :=
  let c : Cmd := { op := 0x0203, level := .operator, active := true }
  .next (s.command r c (fun s => s.heldBy r c s.acc.modeHolder (fun s =>
    match s.timeFrc at_ with
    | none => s.reply r c 0x0601
    | some t =>
      match s.armCheck t with
      | .inl reason => ((s.modeArm t).reply r c (0x0200 + reason) (s.unitParam true))
      | .inr k =>
        let frc := if k = 0 then s.tb.frc else s.nextTick + (k - 1) * s.P
        let frame := s.tb.frameNo + k
        ((s.wr64 R.TT_MODE_AT_LO R.TT_MODE_AT_HI t).modeArm t).reply r c 0 [frame, frc])))

/-- MODE_STATUS answers TT_MODE_STATUS and TT_MODE_LAST. -/
def execModeStatus (r : Req) (s : State) : Next :=
  let c : Cmd := { op := 0x0204, level := .observer, active := true }
  .next (s.command r c (fun s => s.reply r c 0 [s.regWord 0x40010114, s.rd64 R.TT_MODE_LAST_FRAME_LO R.TT_MODE_LAST_FRAME_HI]))

/-- MODE_CANCEL in PREPARED or ARMED; a pair's partner cancels too.  Elsewhere nothing is prepared (R124) (DEDUCED, log entry 34). -/
def execModeCancel (r : Req) (s : State) : Next :=
  let c : Cmd := { op := 0x0205, level := .operator, active := true }
  .next (s.command r c (fun s => s.heldBy r c s.acc.modeHolder (fun s =>
    let st := s.rd R.TT_MODE_STATUS_STATE
    if st = 2 || st = 3 then
      let s := s.modeCancel
      (if s.role == .active then s.path [8] else s).reply r c 0
    else s.reply r c (0x0200 + mrNotprep) (s.unitParam true))))

/-- SLOT_RENAME: 0 to 16 printable ASCII characters, at once (R6) (DESIGN CHOICE, log entry 62). -/
def execSlotRename (r : Req) (slot : Nat) (name : List Nat) (s : State) : Next :=
  let c : Cmd := { op := 0x0207, level := .engineer, active := true }
  .next (s.command r c (fun s =>
    if slot = 0 || 16 < slot then s.reply r c 0x0009
    else s.inRange r c 2 (decide (name.length ≤ 16) && name.all (fun x => decide (0x20 ≤ x) && decide (x ≤ 0x7E))) (fun s =>
      { s with tt := { s.tt with slots := updAt s.tt.slots (slot - 1) (fun (x : Slot) => { x with name }) } }.reply r c 0)))

/-- SLOT_CLEAR empties a slot not in force; its name stays (R110). -/
def execSlotClear (r : Req) (slot : Nat) (s : State) : Next :=
  let c : Cmd := { op := 0x0208, level := .engineer, lock := true, active := true }
  .next (s.command r c (fun s =>
    if slot = 0 || 16 < slot then s.reply r c 0x0009
    else if s.slotInForce slot then s.reply r c 0x0404
    else ((s.setSlot slot none).reply r c 0)))

/-! ### Running (R145 to R152) -/

/-- START: the reply comes once the unit runs, or with the reason of the refusal (DESIGN CHOICE, log entry 23); while an accepted START initialises it is
answered 0x0007 (DESIGN CHOICE, log entry 89). -/
def execStart (r : Req) (kind : Nat) (s : State) : Next :=
  let c : Cmd := { op := opStart, level := .engineer, field := true }
  .next (s.command r c (fun s => s.inRange r c 1 (kind < 4) (fun s =>
    if s.tt.starting.isSome then s.reply r c 0x0007
    else ((s.await r c).wr R.TT_RUN_CTRL_KIND kind).start kind)))

/-- STOP: the reply comes after the boundary, with its frame (DEDUCED, log entry 71). -/
def execStop (r : Req) (s : State) : Next :=
  let c : Cmd := { op := 0x0302, level := .engineer, field := true }
  .next (s.command r c (fun s => s.require r c s.inRun 0x0008 (fun s => (s.await r c).stopOrder)))

/-- LRST (R16); in BOOT the gate has refused it. -/
def execLrst (r : Req) (s : State) : Next :=
  let c : Cmd := { op := 0x0303, level := .engineer, lock := true, field := true }
  .next (s.command r c (fun s => (s.lrst).reply r c 0))

/-- RUN_STATUS answers TT_RUN_STATUS, FIRST, LAST, TT_RET_STATUS and TT_RET_FRAME. -/
def execRunStatus (r : Req) (s : State) : Next :=
  let c : Cmd := { op := 0x0304, level := .observer }
  .next (s.command r c (fun s => s.reply r c 0 [s.regWord 0x40010284, s.rd64 R.TT_RUN_FIRST_LO R.TT_RUN_FIRST_HI,
    s.rd64 R.TT_RUN_LAST_LO R.TT_RUN_LAST_HI, s.regWord 0x400102A4, s.rd64 R.TT_RET_FRAME_LO R.TT_RET_FRAME_HI]))

/-- ADMIT: the reply comes with the outcome; a base is admitted in STOP only (R99, R100) (DESIGN CHOICE, log entry 23). -/
def execAdmitCmd (r : Req) (slot placement : Nat) (s : State) : Next :=
  let c : Cmd := { op := opAdmit, level := .engineer, lock := true, field := true }
  .next (s.command r c (fun s => s.inRange r c 1 (slot < 17) (fun s => s.inRange r c 2 (placement < 2) (fun s =>
    if s.bit R.TT_ADM_STATUS_BUSY then s.reply r c 0x0007
    else if slot = 0 && !s.inStop then s.reply r c 0x0008
    else (s.await r c).admStart slot placement))))

/-- ADMIT_STATUS answers TT_ADM_STATUS, WHERE, CYCLE and RES. -/
def execAdmitStatus (r : Req) (s : State) : Next :=
  let c : Cmd := { op := 0x0306, level := .observer }
  .next (s.command r c (fun s => s.reply r c 0 [s.regWord 0x40010044, s.rd R.TT_ADM_WHERE_TILE, s.rd R.TT_ADM_WHERE_BUNDLE,
    s.rd R.TT_ADM_WHERE_RESP, s.rd R.TT_ADM_CYCLE, s.rd R.TT_ADM_RES_KIND, s.rd R.TT_ADM_RES_INDEX]))

/-- AUTORUN sets TT_RUN_CTRL.AUTORUN (R152, R458). -/
def execAutorun (r : Req) (on : Nat) (s : State) : Next :=
  let c : Cmd := { op := 0x0307, level := .engineer, lock := true }
  .next (s.command r c (fun s => s.inRange r c 1 (on < 2) (fun s => (s.wr R.TT_RUN_CTRL_AUTORUN on).reply r c 0)))

/-! ### Retentive data (R140, R144, R152) -/

/-- Words read one by one, each served in its turn (R22). -/
def State.serveAll (s : State) (ws : List Nat) : State := ws.foldl (fun s a => s.serve [a] 0) s

/-- RET_EXPORT answers image ID, address, size and the bytes of the region. -/
def execRetExport (r : Req) (s : State) : Next :=
  let c : Cmd := { op := 0x0308, level := .engineer }
  .next (s.command r c (fun s =>
    let (lo, size) := s.retRegion
    let s := s.serveAll (wordsAt lo size)
    s.reply r c 0 [((s.tt.base).map (·.id)).getD 0, lo, size] (s.bytes lo size)))

/-- RET_IMPORT writes into the region, in STOP, through to the MRAM copy (R144). -/
def execRetImport (r : Req) (offset : Nat) (data : Bytes) (s : State) : Next :=
  let c : Cmd := { op := 0x0309, level := .engineer, lock := true }
  .next (s.command r c (fun s => s.require r c s.inStop 0x0008 (fun s =>
    let (lo, size) := s.retRegion
    s.inRange r c 1 (decide (offset + data.length ≤ size)) (fun s =>
      (s.act (execPortbBankWrite (lo + offset) data 0)).reply r c 0))))

/-- RET_CLEAR erases the MRAM copy, in STOP (R152). -/
def execRetClear (r : Req) (s : State) : Next :=
  let c : Cmd := { op := 0x030A, level := .engineer, lock := true }
  .next (s.command r c (fun s => s.require r c s.inStop 0x0008 (fun s => (s.retClear).reply r c 0)))

/-! ### Rings and data (R30, R84, R203, R349) -/

/-- The entries of 64 bytes of a byte string. -/
def entriesOf (b : Bytes) : List Bytes := (List.range (b.length / 64)).map (fun k => (b.drop (64 * k)).take 64)

/-- Entries put onto a ring until one finds it full: how many it took (DEDUCED, log entry 83). -/
def State.putAll (s : State) (q : Nat) : List Bytes → State × Nat
  | [] => (s, 0)
  | e :: es =>
    match s.ringPut q e with
    | (s, .full) => (s, 0)
    | (s, .undeclared) => (s, 0)
    | (s, _) =>
      let (s, n) := State.putAll s q es
      (s, n + 1)

/-- A ring that does not exist, or is not declared in the direction a command needs (R385) (DEDUCED, log entry 83). -/
def State.ringBad (s : State) (q dir : Nat) : Option Nat :=
  if 128 ≤ q || (s.ring q).depth = 0 then some 0x0009
  else if (s.ring q).dir != dir then some 0x0310
  else none

/-- RING_PUT enqueues 1 to 16 entries; a ring full before the last leaves ENQUEUED with RING_FULL (DEDUCED, log entry 83). -/
def execRingPut (r : Req) (ring : Nat) (entries : Bytes) (s : State) : Next :=
  let c : Cmd := { op := 0x030B, level := .operator }
  .next (s.command r c (fun s =>
    s.inRange r c 2 (entries.length % 64 == 0 && decide (64 ≤ entries.length) && decide (entries.length ≤ 1024)) (fun s =>
      match s.ringBad ring 0 with
      | some st => s.reply r c st
      | none =>
        let (s, n) := s.putAll ring (entriesOf entries)
        s.reply r c (if 64 * n = entries.length then 0 else 0x0311) [n])))

/-- RING_GET takes up to MAX entries from an outbound ring. -/
def execRingGet (r : Req) (ring most : Nat) (s : State) : Next :=
  let c : Cmd := { op := 0x030C, level := .operator }
  .next (s.command r c (fun s => s.inRange r c 2 (decide (most ≤ 16)) (fun s =>
    match s.ringBad ring 1 with
    | some st => s.reply r c st
    | none =>
      let (s, es) := s.ringTake ring most
      s.reply r c 0 [] es.flatten)))

/-- The kind of memory byte `a` belongs to: 0 a bank, 1 the state store, 2 the loop window. -/
def dataKind (a : Nat) : Option Nat :=
  if a < Config.bankEnd then some 0
  else if Config.storeBase ≤ a && a < Config.storeEnd then some 1
  else if Config.loopBase ≤ a && a < Config.loopEnd then some 2
  else none

/-- DATA_READ: bytes of the banks through port B, or of a window through its read path; a range that spans a bank and a window, or leaves them, is
out of range. -/
def execDataRead (r : Req) (addr len : Nat) (s : State) : Next :=
  let c : Cmd := { op := 0x030D, level := .observer }
  .next (s.command r c (fun s => s.inRange r c 2 (decide (len ≤ 16384)) (fun s =>
    let k := dataKind addr
    let e := dataKind (addr + max 1 len - 1)
    if k.isNone || e.isNone then s.reply r c 0x0003 [1]
    else if k != e && (k == some 0 || e == some 0) then s.reply r c 0x0003 [2]
    else
      let s := s.serveAll (wordsAt addr len)
      s.reply r c 0 [] (s.readBytes addr len))))

end Sys2Proof.Machine
end

