-- ==== Sys2Proof/Machine/ConfigCommands.lean ====
section
/-! DEFINITION. Command packets of group 0x05 (R384): configuration words, applies, the retained configuration, channels, HART, CAN FD and
sticky flags; and the raw register reads and writes of group 0x0C. -/

namespace Sys2Proof.Machine

open Sys2Proof

/-! ### Words (R11, R12, R23) -/

/-- Words read through the map: 1 to 4,096 of them, each inside a register block. -/
def State.readWords (s : State) (r : Req) (c : Cmd) (addr count : Nat) : State :=
  s.inRange r c 2 (decide (1 ≤ count) && decide (count ≤ 4096)) (fun s =>
    if (List.range count).all (fun i => regAddr (addr + 4 * i)) then
      let (s, ws) := s.regReads addr count
      s.reply r c 0 ws
    else s.reply r c 0x0C13)

/-- The bits of the fields at an address whose access code is in a list (DEDUCED, log entry 63). -/
def fieldMask (a : Nat) (accs : List AccessCode) : Nat :=
  (fieldsAt a).foldl (fun m f => if accs.contains f.1.acc then m ||| (2 ^ f.1.width - 1) * 2 ^ f.1.lo else m) 0

/-- CFG_READ answers configuration words. -/
def execCfgRead (r : Req) (addr count : Nat) (s : State) : Next :=
  let c : Cmd := { op := 0x0501, level := .observer }
  .next (s.command r c (fun s => s.readWords r c addr count))

/-- CFG_WRITE writes RWL and RW fields only: every other field of a named word takes 0, which changes none (DEDUCED, log entry 63). -/
def execCfgWrite (r : Req) (pairs : List (Nat × Nat)) (s : State) : Next :=
  let c : Cmd := { op := 0x0502, level := .engineer, lock := true }
  .next (s.command r c (fun s => s.inRange r c 1 (!pairs.isEmpty) (fun s =>
    if pairs.all (fun x => regAddr x.1) then
      (pairs.foldl (fun s x => s.regWrite x.1 (x.2 &&& fieldMask x.1 [.rw, .rwl])) s).reply r c 0
    else s.reply r c 0x0C13)))

/-- REG_READ answers registers. -/
def execRegRead (r : Req) (addr count : Nat) (s : State) : Next :=
  let c : Cmd := { op := 0x0C08, level := .observer }
  .next (s.command r c (fun s => s.readWords r c addr count))

/-- REG_WRITE writes a register as any other write of the core does. -/
def execRegWrite (r : Req) (addr value : Nat) (s : State) : Next :=
  let c : Cmd := { op := 0x0C09, level := .owner, lock := true }
  .next (s.command r c (fun s =>
    if regAddr addr then (s.regWrite addr value).reply r c 0 else s.reply r c 0x0C13))

/-- The W1C bits of a mask at an address are cleared; a trip latch under R479 (DEDUCED, log entry 63). -/
def State.clearFlags (s : State) (a mask : Nat) : State :=
  let m := mask &&& fieldMask a [.w1c]
  if a = 0x400B0040 then s.tripReset (m % 16)
  else match blockAt 0x40050000 12 a with
    | some (g, o) =>
      if 0x100 ≤ o && o < 0x300 && o % 0x40 = 0x2C then s.act (execChFlagsWrite (8 * g + (o - 0x100) / 0x40) m)
      else (fieldsAt a).foldl (fun s f => if f.1.acc = .w1c then s.fieldWrite a m f.1 f.2.1 f.2.2 else s) s
    | none => (fieldsAt a).foldl (fun s f => if f.1.acc = .w1c then s.fieldWrite a m f.1 f.2.1 f.2.2 else s) s

/-- FLAG_CLEAR clears W1C fields under a mask. -/
def execFlagClear (r : Req) (addr mask : Nat) (s : State) : Next :=
  let c : Cmd := { op := 0x050E, level := .operator }
  .next (s.command r c (fun s =>
    if regAddr addr then (s.clearFlags addr mask).reply r c 0 else s.reply r c 0x0C13))

/-! ### Applies (R233, R261, R272, R293, R317, R330) -/

/-- A block with an apply of its own. -/
inductive ApplyBlock where
  | group (g : Nat)
  | discrete
  | chain (p : Nat)
  | ingest
  | can (p : Nat)
  | routes
  deriving DecidableEq, Repr

/-- The block at a base. -/
def applyBlock (b : Nat) : Option ApplyBlock :=
  if b % 0x1000 = 0 && decide (fgBase 0 ≤ b) && decide (b < fgBase 12) then some (.group ((b - fgBase 0) / 0x1000))
  else if b = 0x40060000 then some .discrete
  else if b % 0x1000 = 0 && decide (chainBase 0 ≤ b) && decide (b < chainBase 8) then some (.chain ((b - chainBase 0) / 0x1000))
  else if b = ingBase then some .ingest
  else if b % 0x1000 = 0 && decide (canBase 0 ≤ b) && decide (b < canBase 8) then some (.can ((b - canBase 0) / 0x1000))
  else if b = 0x40090200 then some .routes
  else none

/-- Submit what is staged for a block. -/
def State.submit (s : State) : ApplyBlock → State
  | .group g => s.fgApply g
  | .discrete => s.dioApply
  | .chain p => s.chainApply p
  | .ingest => s.ingApply
  | .can p => s.canApply p
  | .routes => s.routeApply

/-- Discard what is staged for a block. -/
def State.discard (s : State) : ApplyBlock → State
  | .group g => s.fgCancel g
  | .discrete => s.dioCancel
  | .chain p => s.chainCancel p
  | .ingest => s.ingCancel
  | .can p => s.canCancel p
  | .routes => s.routeCancel

/-- CFG_APPLY: the reply gives the outcome, after the tick or with the refusal. -/
def execCfgApply (r : Req) (block : Nat) (s : State) : Next :=
  let c : Cmd := { op := opCfgApply, level := .engineer, lock := true }
  .next (s.command r c (fun s => match applyBlock block with
    | some b => (s.await r c block).submit b
    | none => s.reply r c 0x0003 [1]))

/-- CFG_CANCEL discards the staged changes of a block. -/
def execCfgCancel (r : Req) (block : Nat) (s : State) : Next :=
  let c : Cmd := { op := 0x0504, level := .engineer, lock := true }
  .next (s.command r c (fun s => match applyBlock block with
    | some b => (s.discard b).reply r c 0
    | none => s.reply r c 0x0003 [1]))

/-- CFG_SAVE writes the configuration in force into the inactive bank of CONFIG and makes that bank the active one. -/
def execCfgSave (r : Req) (s : State) : Next :=
  let c : Cmd := { op := 0x0505, level := .engineer, lock := true }
  .next (s.command r c (fun s =>
    let b := s.idleBank partConfig
    let f : FwImage := { FwImage.delivered with ver := s.rd (bankVer (s.rd R.BT_PART_ACTIVE partConfig)) partConfig, config := s.configNow }
    (((s.setBank partConfig b (some f)).wr R.BT_PART_ACTIVE b partConfig).pendNone partConfig).reply r c 0))

/-! ### Channels and interfaces (R217, R235, R372) -/

/-- The address of CH_FLAGS of a channel. -/
def chFlagsAddr (ch : Nat) : Nat := fgBase (ch / 8) + 0x100 + 0x40 * (ch % 8) + 0x2C

/-- CHAN_READ answers a channel's FG_IN granule of the latest tick and its CH_FLAGS (DESIGN CHOICE, log entry 62). -/
def execChanRead (r : Req) (channel : Nat) (s : State) : Next :=
  let c : Cmd := { op := 0x0506, level := .observer }
  .next (s.command r c (fun s => s.require r c (channel < 96) 0x0009 (fun s =>
    s.reply r c 0 [s.regWord (chFlagsAddr channel)] (((s.lat.inFg.getD (channel / 8) []).drop (32 * (channel % 8))).take 32))))

/-- NET_CFG sets the address, mask, gateway and TCP port of a plant interface (0 to 3) or of the service port (4). -/
def execNetCfg (r : Req) (iface addr mask gw port : Nat) (s : State) : Next :=
  let c : Cmd := { op := 0x0507, level := .engineer, lock := true }
  .next (s.command r c (fun s => s.require r c (iface < 5) 0x0009 (fun s =>
    s.inRange r c 5 (decide (1024 ≤ port) && decide (port ≤ 65535)) (fun s =>
      let n : NetIf := { addr := addr % 2 ^ 32, mask := mask % 2 ^ 32, gw := gw % 2 ^ 32, port }
      { s with acc := { s.acc with nets := s.acc.nets.set iface n } }.reply r c 0))))

/-- TRIM_SET stages a channel's field trim and submits its group's apply; the reply gives the outcome (DESIGN CHOICE, log entry 62; DEDUCED, log entry 63). -/
def execTrimSet (r : Req) (channel gain offset : Nat) (s : State) : Next :=
  let c : Cmd := { op := opTrimSet, level := .engineer, lock := true }
  .next (s.command r c (fun s => s.require r c (channel < 96) 0x0009 (fun s =>
    let g := channel / 8
    let s := (s.stage R.CH_TRIM_GAIN gain g (channel % 8)).stage R.CH_TRIM_OFFSET offset g (channel % 8)
    (s.await r c (fgBase g)).fgApply g)))

/-! ### HART (R242, R243) -/

/-- HART_PASS queues a host's request; the reply carries the response, or says why there is none. -/
def execHartPass (r : Req) (channel address command : Nat) (data : Bytes) (s : State) : Next :=
  let c : Cmd := { op := opHartPass, level := .operator }
  .next (s.command r c (fun s => s.require r c (channel < 96) 0x0009 (fun s => s.inRange r c 2 (s.hartAddr channel address) (fun s =>
    if !s.hartOn channel then s.reply r c 0x0551
    else if hartDepth ≤ (s.hart channel).queue.length then s.reply r c stBusy
    else
      let q : HartReq := { session := r.session, tag := r.tag, entry := none, address, command, data, queued := s.tb.frc }
      s.updHart channel (fun h => { h with queue := h.queue ++ [q] })))))

/-- A kept message as numbers: kind (0 a polled response, 1 a burst message), address, command, communication and device status, length. -/
def hartNumbers (kind : Nat) (m : HartMsg) : List Nat := [kind, m.address, m.command, m.comm, m.status, m.data.length]

/-- HART_READ answers the latest polled responses and burst messages of a channel. -/
def execHartRead (r : Req) (channel : Nat) (s : State) : Next :=
  let c : Cmd := { op := 0x050A, level := .observer }
  .next (s.command r c (fun s => s.require r c (channel < 96) 0x0009 (fun s =>
    let h := s.hart channel
    s.reply r c 0 (h.responses.flatMap (hartNumbers 0) ++ h.bursts.flatMap (hartNumbers 1)) ((h.responses ++ h.bursts).flatMap (·.data)))))

/-- HART_POLL_SET sets a channel's poll list: up to 16 entries of an address, a command and a period of 1 to 3,600 s. -/
def execHartPollSet (r : Req) (channel : Nat) (list : List (Nat × Nat × Nat)) (s : State) : Next :=
  let c : Cmd := { op := 0x050B, level := .engineer, lock := true }
  .next (s.command r c (fun s => s.require r c (channel < 96) 0x0009 (fun s =>
    s.inRange r c 2 (decide (list.length ≤ 16) && list.all (fun e => s.hartAddr channel e.1 && decide (1 ≤ e.2.2) && decide (e.2.2 ≤ 3600))) (fun s =>
      let polls : List HartPoll := list.map (fun e => { address := e.1, command := e.2.1, period := e.2.2, last := none })
      (s.updHart channel (fun h => { h with polls, queue := h.queue.filter (fun q => q.entry.isNone) })).reply r c 0))))

/-! ### CAN FD (R305, R312) -/

/-- CAN_RECOVER orders the recovery of a port in bus-off. -/
def execCanRecover (r : Req) (port flush : Nat) (s : State) : Next :=
  let c : Cmd := { op := 0x050C, level := .operator }
  .next (s.command r c (fun s => s.require r c (port < 8) 0x0009 (fun s => s.inRange r c 2 (flush < 2) (fun s =>
    (s.canRecover port (flush == 1)).reply r c 0))))

/-- CAN_SEND takes a transmit record of 64 bytes, or one with its continuation, for a buffer of the management core. -/
def execCanSend (r : Req) (port : Nat) (rec : Bytes) (s : State) : Next :=
  let c : Cmd := { op := 0x050D, level := .operator }
  .next (s.command r c (fun s => s.require r c (port < 8) 0x0009 (fun s => s.inRange r c 2 (rec.length == 64 || rec.length == 128) (fun s =>
    let put (s : State) (b : Bytes) : State := if b.isEmpty then s else s.act (execCanTxRecord port (some b))
    (put (put s (rec.take 64)) (rec.drop 64)).reply r c 0))))

end Sys2Proof.Machine
end

