-- ==== Sys2Proof/Machine/TimePairCommands.lean ====
section
/-! DEFINITION. Command packets of groups 0x06 and 0x07 (R384): time, lock groups and the reference source; the redundant pair. -/

namespace Sys2Proof.Machine

open Sys2Proof

/-! ### Time (R38, R44 to R47, R54, R60, R337) -/

/-- TIME_READ answers FRC, TOD (seconds, ns, 2⁻³² ns), TB_STATUS, PT_STATUS and PT_OFFSET. -/
def execTimeRead (r : Req) (s : State) : Next :=
  let c : Cmd := { op := 0x0601, level := .observer }
  .next (s.command r c (fun s => s.reply r c 0 [s.tb.frc, s.tb.sec, s.tb.ns, s.tb.frac, s.regWord 0x40000004, s.regWord 0x40090808,
    s.regWord 0x4009080C]))

/-- The TB_TODSET registers take a step. -/
def State.putTodset (s : State) (t : TodStep) : State :=
  let s := (s.wr64 R.TB_TODSET_SEC_LO R.TB_TODSET_SEC_HI t.sec).wr R.TB_TODSET_NS (min 999999999 t.ns)
  (s.wr R.TB_TODSET_FRAC t.frac).wr64 R.TB_TODSET_AT_LO R.TB_TODSET_AT_HI t.at_

/-- TOD_SET steps TOD at once (AT 0) or when the FRC equals AT; a past AT is refused (DEDUCED, log entry 69). -/
def execTodSet (r : Req) (sec ns frac at_ : Nat) (s : State) : Next :=
  let c : Cmd := { op := 0x0602, level := .engineer, lock := true }
  .next (s.command r c (fun s =>
    if s.servoOwns then s.reply r c 0x0602
    else
      let s := s.putTodset { sec, ns, frac, at_ }
      if at_ = 0 then s.todNow.reply r c 0
      else (s.todArm s.todsetRegs).reply r c (if s.todsetRegs.at_ < s.tb.frc then 0x0603 else 0)))

/-- INC_SET sets the TOD increment, clamped to its limits; NS beyond its five bits counts as 31 (DEDUCED, log entry 69). -/
def execIncSet (r : Req) (ns frac : Nat) (s : State) : Next :=
  let c : Cmd := { op := 0x0603, level := .engineer, lock := true }
  .next (s.command r c (fun s =>
    if s.servoOwns then s.reply r c 0x0602 else (s.setInc (min 31 ns * 2 ^ 32 + frac % 2 ^ 32)).reply r c 0))

/-- SERVO_CFG sets the servo's MODE and RESTEP. -/
def execServoCfg (r : Req) (mode restep : Nat) (s : State) : Next :=
  let c : Cmd := { op := 0x0604, level := .engineer, lock := true }
  .next (s.command r c (fun s => s.inRange r c 1 (mode < 2) (fun s => s.inRange r c 2 (restep < 2) (fun s =>
    (s.servoCfg mode restep).reply r c 0))))

/-- TIME and NS of a one-shot group for a time: an FRC in mode 2, a TOD in mode 3, each converted where the other was given (DEDUCED, log entry 59). -/
def State.lgTime (s : State) (g : Nat) (t : Time) : Option (Nat × Nat) :=
  if s.rd R.TB_LG_MODE g = 2 then (s.timeFrc t).map (fun n => (n, s.rd R.TB_LG_NS g))
  else match t with
    | .tod sec ns _ => if s.bit R.TB_STATUS_TOD_VALID then some (sec, ns) else none
    | .frc n =>
      let u := (((s.todUnits : Nat) : Int) + ((n : Int) - s.tb.frc) * s.incUnits).toNat / 2 ^ 32
      some (u / 1000000000, u % 1000000000)

/-- LG_ARM arms a one-shot lock group at a time; a group in another mode has nothing to arm (DEDUCED, log entry 59). -/
def execLgArm (r : Req) (group : Nat) (at_ : Time) (s : State) : Next :=
  let c : Cmd := { op := 0x0605, level := .operator }
  .next (s.command r c (fun s =>
    s.inRange r c 1 (decide (group < 32) && (s.rd R.TB_LG_MODE group == 2 || s.rd R.TB_LG_MODE group == 3)) (fun s =>
      match s.lgTime group at_ with
      | none => s.reply r c 0x0601
      | some (t, ns) =>
        let s := (s.wr64 R.TB_LG_TIME_LO R.TB_LG_TIME_HI t group).wr R.TB_LG_NS ns group
        (s.lgArm group).reply r c (if s.lgPast group then 0x0605 else 0))))

/-- REF_SELECT selects the reference source; the external one in STOP only. -/
def execRefSelect (r : Req) (source : Nat) (s : State) : Next :=
  let c : Cmd := { op := 0x0606, level := .engineer, lock := true }
  .next (s.command r c (fun s => s.inRange r c 1 (source < 3) (fun s =>
    if source = 2 && !s.inStop then s.reply r c 0x0008 else (s.refSel source).reply r c 0)))

/-! ### The pair (R357, R361, R371, R380) -/

/-- The opcodes of JOIN and HANDOVER, whose requests wait. -/
def opJoin : Nat := 0x0702
def opLeave : Nat := 0x0703
def opHandover : Nat := 0x0704

/-- PAIR_STATUS answers PA_STATUS, PA_EVENTS, PA_JOIN_STATUS and PA_HANDOVER_STATUS. -/
def execPairStatus (r : Req) (s : State) : Next :=
  let c : Cmd := { op := 0x0701, level := .observer }
  .next (s.command r c (fun s => s.reply r c 0 [s.regWord 0x400A000C, s.regWord 0x400A0010, s.regWord 0x400A0018, s.regWord 0x400A0028]))

/-- JOIN from STOP: the reply comes at STANDBY, at mixed SYNCING or with a refusal; without pairing there is no partner, and a join under way is
busy (DEDUCED, log entry 65). -/
def execJoin (r : Req) (q : PartnerInfo) (s : State) : Next :=
  let c : Cmd := { op := opJoin, level := .engineer, field := true }
  .next (s.command r c (fun s =>
    if !s.inStop then s.reply r c 0x0008
    else if !s.bit R.PA_CFG_EN then s.reply r c 0x0701
    else if s.pair.joining then ((s.wr R.PA_JOIN_STATUS_REASON 7).wr R.PA_EVENTS_JOIN_REFUSED 1).reply r c 0x0707
    else (s.await r c).join q))

/-- LEAVE: the unit leaves its pair and stops; the reply gives the boundary. -/
def execLeave (r : Req) (s : State) : Next :=
  let c : Cmd := { op := opLeave, level := .engineer, field := true }
  .next (s.command r c (fun s => s.require r c s.inRun 0x0008 (fun s => (s.await r c).leave)))

/-- HANDOVER arms a handover at a frame number, 0 the earliest: the session holds it until it is done, refused or abandoned. -/
def execHandover (r : Req) (at_ : Nat) (s : State) : Next :=
  let c : Cmd := { op := opHandover, level := .operator, active := true }
  .next (s.command r c (fun s => s.heldBy r c s.acc.handoverHolder (fun s =>
    let s := s.armHandover at_
    let reason := s.rd R.PA_HANDOVER_REASON
    if reason = 0 then { s with acc := { s.acc with handoverHolder := some r.session } }.await r c
    else s.reply r c (0x0710 + reason))))

/-- PAIR_CANCEL cancels an armed handover or a state transfer. -/
def execPairCancel (r : Req) (s : State) : Next :=
  let c : Cmd := { op := 0x0705, level := .operator, active := true }
  .next (s.command r c (fun s => s.heldBy r c s.acc.handoverHolder (fun s => (s.pairCancel).reply r c 0)))

/-- PAIR_CFG writes PA_CFG, PA_TIMES and PA_MIXED. -/
def execPairCfg (r : Req) (cfg times mixed : Nat) (s : State) : Next :=
  let c : Cmd := { op := 0x0706, level := .engineer, lock := true }
  .next (s.command r c (fun s => s.inRange r c 1 (cfg < 32) (fun s =>
    s.inRange r c 2 (decide (1 ≤ bitsOf times 0 12) && decide (bitsOf times 0 12 ≤ 3600) && decide (1 ≤ bitsOf times 16 8)) (fun s =>
      s.inRange r c 3 (decide (1 ≤ mixed) && decide (mixed < 65536)) (fun s =>
        (((s.regWrite 0x400A0000 cfg).regWrite 0x400A0004 times).regWrite 0x400A0008 mixed).reply r c 0)))))

end Sys2Proof.Machine
end

