-- ==== Sys2Proof/Machine/ChainMetCommands.lean ====
section
/-! DEFINITION. Command packets of groups 0x08 and 0x09 (R384): cell chains and node slots; the metrology compartment's records. -/

namespace Sys2Proof.Machine

open Sys2Proof

/-! ### Cell chains (R266, R268, R270, R277, R280, R281, R293) -/

/-- `f` for a port that runs a chain (DEDUCED, log entry 64). -/
def State.onChain (s : State) (r : Req) (c : Cmd) (p : Nat) (f : State → State) : State := s.require r c (s.chainOn p) 0x0009 f

/-- `f` for a port that runs a chain and does not sleep (DEDUCED, log entry 64). -/
def State.onAwake (s : State) (r : Req) (c : Cmd) (p : Nat) (f : State → State) : State :=
  s.onChain r c p (fun s => s.require r c (s.chainState p != csSleeping) 0x0812 f)

/-- A host's command goes into a port's queue; its reply comes with the node's answer, or once a broadcast is sent. -/
def State.chainAsk (s : State) (r : Req) (c : Cmd) (p code h : Nat) (payload : Bytes) : State :=
  match s.chainQueue p { session := r.session, tag := r.tag, op := c.op, code, h, payload } with
  | (s, true) => s
  | (s, false) => s.reply r c 0x0007

/-- A unicast to the node at a home position, refused where no end reaches it. -/
def State.unicastAsk (s : State) (r : Req) (c : Cmd) (p code h : Nat) (payload : Bytes) : State :=
  s.onAwake r c p (fun s => s.require r c (s.chainReach p h).isSome 0x0810 (fun s => s.chainAsk r c p code h payload))

/-- CHAIN_STATUS answers CH_STATUS, CH_LINE, CH_SWEEP_NO, CH_BREAK and the counters of a port. -/
def execChainStatus (r : Req) (port : Nat) (s : State) : Next :=
  let c : Cmd := { op := 0x0801, level := .observer, active := true }
  .next (s.command r c (fun s => s.require r c (port < 8) 0x0009 (fun s =>
    s.reply r c 0 ([0x04, 0x1C, 0x20, 0x24, 0x30, 0x34, 0x38, 0x3C, 0x40].map (fun o => s.regWord (chainBase port + o))))))

/-- CHAIN_PASS sends a command of the host's to a node. -/
def execChainPass (r : Req) (port pos code : Nat) (payload : Bytes) (s : State) : Next :=
  let c : Cmd := { op := 0x0802, level := .engineer, active := true }
  .next (s.command r c (fun s => s.unicastAsk r c port code pos payload))

/-- CHAIN_DISCOVER orders discovery. -/
def execChainDiscover (r : Req) (port : Nat) (s : State) : Next :=
  let c : Cmd := { op := 0x0803, level := .operator, active := true }
  .next (s.command r c (fun s => s.onAwake r c port (fun s => (s.chainDiscover port).reply r c 0)))

/-- CHAIN_WAKE wakes a chain. -/
def execChainWake (r : Req) (port : Nat) (s : State) : Next :=
  let c : Cmd := { op := 0x0804, level := .operator, active := true }
  .next (s.command r c (fun s => s.onChain r c port (fun s => (s.chainWake port).reply r c 0)))

/-- CHAIN_SLEEP orders a planned sleep. -/
def execChainSleep (r : Req) (port : Nat) (s : State) : Next :=
  let c : Cmd := { op := 0x0805, level := .operator, active := true }
  .next (s.command r c (fun s => s.onAwake r c port (fun s => (s.chainSleep port).reply r c 0)))

/-- BAL_SET gives a node its balancing mode and 16 targets. -/
def execBalSet (r : Req) (port pos mode : Nat) (targets : Bytes) (s : State) : Next :=
  let c : Cmd := { op := 0x0806, level := .operator, active := true }
  .next (s.command r c (fun s => s.inRange r c 3 (mode < 3) (fun s => s.inRange r c 4 (targets.length == 32) (fun s =>
    s.unicastAsk r c port 0x09 pos (leBytes 1 mode ++ leBytes 1 0 ++ targets)))))

/-- CHAIN_FAULT_CLR queues FAULT_CLR (DEDUCED, log entry 64). -/
def execChainFaultClr (r : Req) (port : Nat) (s : State) : Next :=
  let c : Cmd := { op := 0x0807, level := .operator, active := true }
  .next (s.command r c (fun s => s.onAwake r c port (fun s => s.chainAsk r c port 0x0B 0 [])))

/-- The published buffer of a slot: that of the port or of the ingest source it belongs to (R275, R285, R292) (DEDUCED, log entry 64). -/
def State.slotPub (s : State) (k : Nat) : Nat :=
  match (List.range 8).find? (fun p => s.chainOn p && decide (s.rd R.CH_SLOT_BASE p ≤ k) && decide (k < s.rd R.CH_SLOT_BASE p + s.chainN p)) with
  | some p => s.rd R.CH_SWEEP_NO p % 2
  | none =>
    if (List.range 15).any (fun e => s.bit R.CH_ING_SRC_VALID e && decide (s.rd R.CH_ING_SRC_FIRST_SLOT e ≤ k) &&
        decide (k < s.rd R.CH_ING_SRC_FIRST_SLOT e + s.rd R.CH_ING_SRC_COUNT e)) then s.rd R.CH_ING_SWEEP % 2
    else 0

/-- SLOT_READ answers up to 128 slot buffers: the published ones, or the buffer named (DEDUCED, log entry 64). -/
def execSlotRead (r : Req) (first count : Nat) (buffer : Option Nat) (s : State) : Next :=
  let c : Cmd := { op := 0x0808, level := .observer, active := true }
  .next (s.command r c (fun s => s.require r c (first < 8192) 0x0009 (fun s =>
    s.inRange r c 2 (decide (1 ≤ count) && decide (count ≤ 128) && decide (first + count ≤ 8192)) (fun s =>
      s.inRange r c 3 (buffer.all (fun b => decide (b < 2))) (fun s =>
        s.reply r c 0 [] ((List.range count).flatMap (fun i =>
          s.bytes (slotAddr (first + i) (buffer.getD (s.slotPub (first + i)))) 128)))))))

/-- NODE_STATUS asks a node for its STAT payload. -/
def execNodeStatus (r : Req) (port pos : Nat) (s : State) : Next :=
  let c : Cmd := { op := 0x0809, level := .observer, active := true }
  .next (s.command r c (fun s => s.unicastAsk r c port 0x0A pos []))

/-! ### Metrology (R3, R423 to R427) -/

/-- A metrology command on a module without the compartment returns NOT_FITTED (R3) (DESIGN CHOICE, log entry 19). -/
def State.fitted (s : State) (r : Req) (c : Cmd) (f : State → State) : State := s.require r c Config.variantM 0x0901 f

/-- A stored record with its two arrival stamps: FRC, and TOD in 16 bytes (R424). -/
def MgRecord.stamped (m : MgRecord) : Bytes := m.data ++ leBytes 8 m.frc ++ leBytes 8 m.sec ++ leBytes 4 m.ns ++ leBytes 4 m.frac

/-- MET_STATUS answers the latest status record (DEDUCED, log entry 65). -/
def execMetStatus (r : Req) (s : State) : Next :=
  let c : Cmd := { op := 0x0901, level := .observer }
  .next (s.command r c (fun s => s.fitted r c (fun s => match s.mg.status with
    | some m => s.reply r c 0 [] m.data
    | none => s.reply r c 0x0009)))

/-- MET_RECORDS answers the stored records from an INDEX on, each with its stamps (DESIGN CHOICE, log entry 62). -/
def execMetRecords (r : Req) (from_ count : Nat) (s : State) : Next :=
  let c : Cmd := { op := 0x0902, level := .observer }
  .next (s.command r c (fun s => s.fitted r c (fun s =>
    if !s.mg.store.any (fun x => x.1 == from_) then s.reply r c 0x0902
    else
      let got := (List.range count).filterMap (fun i => (s.mg.store.find? (fun x => x.1 == from_ + i)).map (·.2))
      s.reply r c 0 [got.length] (got.flatMap MgRecord.stamped))))

/-- MET_AUDIT answers audit entries by position, 0 the oldest (DEDUCED, log entry 65). -/
def execMetAudit (r : Req) (from_ count : Nat) (s : State) : Next :=
  let c : Cmd := { op := 0x0903, level := .observer }
  .next (s.command r c (fun s => s.fitted r c (fun s =>
    if s.mg.audit.length ≤ from_ then s.reply r c 0x0009
    else
      let got := ((s.mg.audit.drop from_).take count).map (·.2)
      s.reply r c 0 [got.length] got.flatten)))

/-- MET_CERT answers the compartment certificate last received (DEDUCED, log entry 65). -/
def execMetCert (r : Req) (s : State) : Next :=
  let c : Cmd := { op := 0x0904, level := .observer }
  .next (s.command r c (fun s => s.fitted r c (fun s =>
    if s.mg.cert.isEmpty then s.reply r c 0x0009 else s.reply r c 0 [] (s.mg.cert.flatMap (·.2)))))

/-- MET_ALARM_ACK acknowledges the seal alarm (R426). -/
def execMetAlarmAck (r : Req) (s : State) : Next :=
  let c : Cmd := { op := 0x0908, level := .metrology }
  .next (s.command r c (fun s => s.fitted r c (fun s => { s with mg := { s.mg with alarm := false } }.reply r c 0)))

end Sys2Proof.Machine
end

