-- ==== Sys2Proof/Machine/AccessCommands.lean ====
section
/-! DEFINITION. Command packets of group 0x0A for access (R386 to R390): the access lock, the field lock, reopens by password and by challenge, and
the lockouts. -/

namespace Sys2Proof.Machine

open Sys2Proof

/-- One minute and one second in tb. -/
def minuteTb : Nat := 6000000000
def secondTb : Nat := 100000000

/-! ### The access lock and the field lock (R386, R387) -/

/-- The number of a level, Metrology last. -/
def levelCode : Level → Nat
  | .observer => 0 | .operator => 1 | .engineer => 2 | .owner => 3 | .metrology => 4

/-- WHOAMI answers session ID, level, credential ID, access-lock holder or 0, field-lock state, the FRC at which a reopen ends or 0, and
DATES_UNCHECKED (R396). -/
def execWhoami (r : Req) (s : State) : Next :=
  let c : Cmd := { op := 0x0A01, level := .observer }
  .next (s.command r c (fun s => match s.session? r.session with
    | none => s
    | some x => s.reply r c 0 [x.id, levelCode x.level, x.cred, ((s.acc.lock).map (·.session)).getD 0, s.rd R.SE_STATUS_FIELD_LOCK,
        if x.reopened s.tb.frc then x.reopen.getD 0 else 0, if x.unchecked then 1 else 0]))

/-- LOCK_OPEN gives the access lock to the session for 1 to 480 minutes without an L command; under the field lock an Engineer needs a reopen. -/
def execLockOpen (r : Req) (minutes : Nat) (s : State) : Next :=
  let c : Cmd := { op := 0x0A02, level := .engineer, field := true }
  .next (s.command r c (fun s => s.inRange r c 1 (decide (1 ≤ minutes) && decide (minutes ≤ 480)) (fun s =>
    s.heldBy r c (s.acc.lock.map (·.session)) (fun s =>
      { s with acc := { s.acc with lock := some { session := r.session, minutes, lastUse := s.tb.frc } } }.reply r c 0))))

/-- LOCK_CLOSE releases the lock the session holds (DEDUCED, log entry 81). -/
def execLockClose (r : Req) (s : State) : Next :=
  let c : Cmd := { op := 0x0A03, level := .engineer }
  .next (s.command r c (fun s =>
    s.heldBy r c (s.acc.lock.map (·.session)) (fun s => s.require r c s.acc.lock.isSome 0x0005 (fun s =>
      { s with acc := { s.acc with lock := none } }.reply r c 0))))

/-- LOCK_TIMEOUT: the lock ends once its minutes have passed without an L command of its holder. -/
def execLockTimeout (s : State) : Next := .next <|
  match s.acc.lock with
  | some l => if l.lastUse + l.minutes * minuteTb ≤ s.tb.frc then { s with acc := { s.acc with lock := none } } else s
  | none => s

/-- FIELD_LOCK engages or releases the field lock; engaging it ends another session's holding of the access lock and every reopen. -/
def execFieldLock (r : Req) (engage : Nat) (s : State) : Next :=
  let c : Cmd := { op := 0x0A04, level := .owner }
  .next (s.command r c (fun s => s.inRange r c 1 (engage < 2) (fun s =>
    let s := s.wr R.SE_STATUS_FIELD_LOCK engage
    let s : State := if engage = 1 then
        { s with acc := { s.acc with
          lock := s.acc.lock.filter (fun l => l.session == r.session)
          sessions := s.acc.sessions.map (fun (x : Session) => { x with reopen := none }) } }
      else s
    s.reply r c 0)))

/-! ### Reopens (R388, R389) -/

/-- The credential of a request's session. -/
def State.credOf (s : State) (r : Req) : Nat := ((s.session? r.session).map (·.cred)).getD 0

/-- A reopen of `minutes` begins: FAIL_PW and FAIL_CR are 0, and the journal has an entry (DEDUCED, log entry 67). -/
def State.grantReopen (s : State) (r : Req) (minutes : Nat) : State :=
  let s := s.updSession r.session (fun x => { x with reopen := some (s.tb.frc + minutes * minuteTb) })
  let s := { s with acc := { s.acc with failPw := 0, pwLast := 0, pwUntil := none, failCr := 0, crUntil := none } }
  s.journal 0xFF .reopen [minutes] r.session (s.credOf r)

/-- Seconds left of a lockout, rounded up. -/
def State.lockedFor (s : State) (until_ : Option Nat) : Nat :=
  match until_ with
  | some t => (t - s.tb.frc + secondTb - 1) / secondTb
  | none => 0

/-- A lockout of `secs` begins: noted in SE_EVENTS and in the journal (1 password, 0 challenge) (DEDUCED, log entry 67). -/
def State.lockoutBegins (s : State) (r : Req) (kind secs : Nat) : State :=
  (s.wr R.SE_EVENTS_LOCKOUT 1).journal 0xFF .lockout [kind, secs] r.session (s.credOf r)

/-- A wrong password is counted: from the fifth on each begins a lockout, 60 s and then twice the last, up to 86,400 s (R390) (DEDUCED, log entry 67). -/
def State.failPassword (s : State) (r : Req) : State :=
  let s := s.journal 0xFF .failure [1] r.session (s.credOf r)
  let n := s.acc.failPw + 1
  let s := { s with acc := { s.acc with failPw := n } }
  if n < 5 then s
  else
    let secs := if s.acc.pwLast = 0 then 60 else min 86400 (2 * s.acc.pwLast)
    { s with acc := { s.acc with pwLast := secs, pwUntil := some (s.tb.frc + secs * secondTb) } }.lockoutBegins r 1 secs

/-- A bad signature is counted: from the third on CHALLENGE is locked out for 900 s (R390) (DEDUCED, log entry 67). -/
def State.failResponse (s : State) (r : Req) : State :=
  let s := s.journal 0xFF .failure [0] r.session (s.credOf r)
  let n := s.acc.failCr + 1
  let s := { s with acc := { s.acc with failCr := n } }
  if n < 3 then s
  else { s with acc := { s.acc with crUntil := some (s.tb.frc + 900 * secondTb) } }.lockoutBegins r 0 900

/-- REOPEN_PW: the right password grants a reopen for 1 to 480 minutes; before PW_SET none is right, and none is counted (DEDUCED, log entry 67). -/
def execReopenPw (r : Req) (password : Bytes) (minutes : Nat) (s : State) : Next :=
  let c : Cmd := { op := 0x0A05, level := .engineer }
  .next (s.command r c (fun s => s.inRange r c 2 (decide (1 ≤ minutes) && decide (minutes ≤ 480)) (fun s =>
    match s.acc.pwHash with
    | none => s.reply r c 0x0A01
    | some h =>
      if !s.bit R.SE_STATUS_FIELD_LOCK then s.reply r c 0x0A06
      else if s.lockedFor s.acc.pwUntil != 0 then s.reply r c 0x0A02 [s.lockedFor s.acc.pwUntil]
      else if Config.pwVerifier password = h then (s.grantReopen r minutes).reply r c 0
      else (s.failPassword r).reply r c 0x0A01)))

/-- REOPEN_EXPIRY: a reopen ends when its minutes have passed. -/
def execReopenExpiry (session : Nat) (s : State) : Next := .next <|
  match (s.session? session).bind (·.reopen) with
  | some t => if t ≤ s.tb.frc then s.updSession session (fun x => { x with reopen := none }) else s
  | none => s

/-- The 96 bytes of a challenge to a session (R389). -/
def challengeBytes (session : Nat) (x : Challenge) : Bytes :=
  leBytes 32 x.nonce ++ leBytes 8 Config.serial ++ leBytes 4 session ++ leBytes 2 x.minutes ++ leBytes 8 x.frc ++ List.replicate 42 0

/-- CHALLENGE issues a challenge for 1 to 1,440 minutes, in place of an earlier one. -/
def execChallenge (r : Req) (minutes : Nat) (s : State) : Next :=
  let c : Cmd := { op := 0x0A06, level := .engineer }
  .next (s.command r c (fun s => s.inRange r c 1 (decide (1 ≤ minutes) && decide (minutes ≤ 1440)) (fun s =>
    if !s.bit R.SE_STATUS_FIELD_LOCK then s.reply r c 0x0A06
    else if s.lockedFor s.acc.crUntil != 0 then s.reply r c 0x0A02 [s.lockedFor s.acc.crUntil]
    else
      let x : Challenge := { nonce := Config.nonce s.free, minutes, frc := s.tb.frc }
      ((s.nextFree).updSession r.session (fun y => { y with challenge := some x })).reply r c 0 [] (challengeBytes r.session x))))

/-- RESPONSE: a valid signature within 10 minutes of issue grants the reopen; the challenge is used up either way. -/
def execResponse (r : Req) (signature : Bytes) (s : State) : Next :=
  let c : Cmd := { op := 0x0A07, level := .engineer }
  .next (s.command r c (fun s => s.inRange r c 1 (signature.length == 96) (fun s =>
    let was := (s.session? r.session).bind (·.challenge)
    let s := s.updSession r.session (fun y => { y with challenge := none })
    match was with
    | none => s.reply r c 0x0A04
    | some x =>
      if x.frc + 10 * minuteTb < s.tb.frc then s.reply r c 0x0A04
      else if !s.bit R.SE_STATUS_FIELD_LOCK then s.reply r c 0x0A06
      else if s.trust.owner.any (fun k => Config.sigValid k (challengeBytes r.session x) signature) then (s.grantReopen r x.minutes).reply r c 0
      else (s.failResponse r).reply r c 0x0A03)))

/-- PW_SET: 12 to 64 printable ASCII characters. -/
def execPwSet (r : Req) (password : Bytes) (s : State) : Next :=
  let c : Cmd := { op := 0x0A08, level := .owner }
  .next (s.command r c (fun s =>
    if decide (12 ≤ password.length) && decide (password.length ≤ 64) && password.all (fun b => decide (0x20 ≤ b.toNat) && decide (b.toNat ≤ 0x7E)) then
      { s with acc := { s.acc with pwHash := some (Config.pwVerifier password) } }.reply r c 0
    else s.reply r c 0x0A05))

/-! ### Lockouts (R390) -/

/-- LOCKOUT_READ answers FAIL_PW and FAIL_CR, each with the seconds left of its lockout, then source, count and seconds left of every FAIL_TLS. -/
def execLockoutRead (r : Req) (s : State) : Next :=
  let c : Cmd := { op := 0x0A09, level := .observer }
  .next (s.command r c (fun s => s.reply r c 0 ([s.acc.failPw, s.lockedFor s.acc.pwUntil, s.acc.failCr, s.lockedFor s.acc.crUntil] ++
    s.acc.tlsFails.flatMap (fun x => [x.source, x.count, s.lockedFor x.until_]))))

/-- LOCKOUT_RESET sets FAIL_PW and FAIL_CR to 0 and ends their lockouts (DEDUCED, log entry 67). -/
def execLockoutReset (r : Req) (s : State) : Next :=
  let c : Cmd := { op := 0x0A0A, level := .owner }
  .next (s.command r c (fun s =>
    { s with acc := { s.acc with failPw := 0, pwLast := 0, pwUntil := none, failCr := 0, crUntil := none } }.reply r c 0))

/-- LOCKOUT_EXPIRY: every lockout whose time has passed ends. -/
def execLockoutExpiry (s : State) : Next := .next <|
  let live (u : Option Nat) : Option Nat := u.filter (fun t => decide (s.tb.frc < t))
  { s with acc := { s.acc with
      pwUntil := live s.acc.pwUntil
      crUntil := live s.acc.crUntil
      tlsFails := s.acc.tlsFails.filter (fun x => x.until_.all (fun t => decide (s.tb.frc < t))) } }

end Sys2Proof.Machine
end

