-- ==== Sys2Proof/Machine/Maintenance.lean ====
section
/-! DEFINITION. Command packets of group 0x0C (R384): counters, the event journal, spares, relocations, solver shadows, the self-test and route
counters. -/

namespace Sys2Proof.Machine

open Sys2Proof

/-! ### Counters and the journal (R492 to R494) -/

/-- The counters of a block, row by row and copy by copy. -/
def State.counters (s : State) (block : Nat) : List Nat :=
  (hsCounters.filter (fun r => blockOf r.base == block)).flatMap (fun r =>
    (List.range r.n1).flatMap (fun i => (List.range r.n2).map (fun j => s.rd r i j)))

/-- COUNTERS_READ answers the counters of a register block (DEDUCED, log entry 66). -/
def execCountersRead (r : Req) (block : Nat) (s : State) : Next :=
  let c : Cmd := { op := 0x0C01, level := .observer }
  .next (s.command r c (fun s => s.inRange r c 1 (block < 17) (fun s => s.reply r c 0 (s.counters block))))

/-- COUNTERS_CLEAR clears them through HS_CLEAR (DEDUCED, log entry 66). -/
def execCountersClear (r : Req) (block : Nat) (s : State) : Next :=
  let c : Cmd := { op := 0x0C02, level := .engineer }
  .next (s.command r c (fun s => s.inRange r c 1 (block < 17) (fun s => (s.act (execHsClearGo block 0xFF)).reply r c 0)))

/-- The number of an event, under which `Config.journalCode` gives its CODE (DESIGN CHOICE, log entry 8). -/
def JEvent.no : JEvent → Nat
  | .lostEntries => 0 | .oscSwitch => 1 | .warnCleared => 2 | .updateCancelled => 3 | .sealAlarm => 4 | .tamper => 5 | .wear => 6
  | .switchIn => 7 | .exhausted => 8 | .lockout => 9 | .reopen => 10 | .failure => 11 | .internal => 12 | .pfw => 13 | .halt => 14

/-- The 64 bytes of a journal entry (R492) (DESIGN CHOICE, log entry 8). -/
def JEntry.bytes (e : JEntry) : Bytes :=
  leBytes 4 e.seq ++ leBytes 2 e.source ++ leBytes 2 (Config.journalCode e.event.no) ++ leBytes 8 e.frc ++
    leBytes 8 e.sec ++ leBytes 4 e.ns ++ leBytes 4 e.frac ++ leBytes 4 e.session ++ leBytes 8 e.cred ++
    (List.range 5).flatMap (fun i => leBytes 4 (e.data.getD i 0))

/-- JOURNAL_READ answers the entries held with SEQ from FROM on, COUNT numbers of them (DESIGN CHOICE, log entry 62; DEDUCED, log entry 66). -/
def execJournalRead (r : Req) (from_ count : Nat) (s : State) : Next :=
  let c : Cmd := { op := 0x0C03, level := .observer }
  .next (s.command r c (fun s =>
    let got := ((s.jr.ram ++ s.jr.flash).filter (fun e => decide (from_ ≤ e.seq) && decide (e.seq < from_ + count))).reverse
    if got.isEmpty then s.reply r c 0x0009 else s.reply r c 0 [got.length] (got.flatMap JEntry.bytes)))

/-! ### Spares (R94, R95, R201, R202, R237, R239, R487) -/

/-- SPARES_READ answers in-service, spare and failed parts of each kind. -/
def execSparesRead (r : Req) (s : State) : Next :=
  let c : Cmd := { op := 0x0C04, level := .observer }
  .next (s.command r c (fun s => s.reply r c 0 ((List.range 11).flatMap (fun k =>
    [s.rd R.HS_INV_IN_SERVICE k, s.rd R.HS_INV_SPARE k, s.rd R.HS_INV_FAILED k]))))

/-- SPARE_SWITCH starts a converter switch-in, answered when the spare has taken over, or cancels it (DEDUCED, log entry 68). -/
def execSpareSwitch (r : Req) (group terminal cancel : Nat) (s : State) : Next :=
  let c : Cmd := { op := opSpare, level := .engineer, lock := true }
  .next (s.command r c (fun s => s.inRange r c 1 (group < 12) (fun s => s.inRange r c 2 (terminal < 8) (fun s =>
    s.inRange r c 3 (cancel < 2) (fun s =>
      if cancel = 1 then (s.spareCancel group).reply r c 0
      else match s.spareReason group terminal with
        | 0 => (s.await r c group).spareStart group terminal
        | n => (s.spareStart group terminal).reply r c (0x0C00 + n))))))

/-- RELOCATE moves a logical tile (KIND 0), after its placement check, or a logical solver unit (KIND 1) to a spare; the reply comes with the boundary
at which it takes effect, or with the refusal (DEDUCED, log entry 68). -/
def execRelocate (r : Req) (kind logical target : Nat) (s : State) : Next :=
  let c : Cmd := { op := opRelocate, level := .engineer, lock := true }
  .next (s.command r c (fun s => s.inRange r c 1 (kind < 2) (fun s =>
    s.inRange r c 2 (decide (logical < if kind = 0 then 32 else 8)) (fun s => s.inRange r c 3 (decide (target < if kind = 0 then 36 else 9)) (fun s =>
      if kind = 0 then
        if s.lat.relocCheck.isSome || s.lat.relocOrder.isSome || s.lat.relocCopied.isSome then s.reply r c 0x0007
        else if s.rd R.LT_PHYS_STATE target != 1 then (s.relocCheck logical target).reply r c 0x0C11
        else (s.await r c 0).relocCheck logical target
      else
        if s.lat.svReloc.isSome then s.reply r c 0x0007
        else if s.rd R.SV_PHYS_STATE target != 1 then (s.svRelocOrder logical target).reply r c 0x0C11
        else (s.await r c 1).svRelocOrder logical target)))))

/-- SHADOW_SET lets a spare solver unit shadow a logical unit, or ends it (DEDUCED, log entry 68). -/
def execShadowSet (r : Req) (logical en : Nat) (s : State) : Next :=
  let c : Cmd := { op := 0x0C07, level := .engineer, lock := true }
  .next (s.command r c (fun s => s.inRange r c 1 (logical < 8) (fun s => s.inRange r c 2 (en < 2) (fun s =>
    (s.svShadowOrder logical (en == 1)).reply r c 0))))

/-! ### Self-test and routes -/

/-- SELFTEST runs the self-test, in STOP; `failed`: the part it finds failing (DEDUCED, log entry 68). -/
def execSelftest (r : Req) (failed : Option Nat) (s : State) : Next :=
  let c : Cmd := { op := 0x0C0A, level := .engineer, field := true }
  .next (s.command r c (fun s => s.require r c s.inStop 0x0008 (fun s => match failed with
    | none => s.reply r c 0 [0]
    | some p => s.reply r c 0x0C12 [p])))

/-- ROUTE_COUNTERS answers frames carried and SEQ gaps of a route entry (R329) (DESIGN CHOICE, log entry 62). -/
def execRouteCounters (r : Req) (entry : Nat) (s : State) : Next :=
  let c : Cmd := { op := 0x0C0B, level := .observer }
  .next (s.command r c (fun s => s.require r c (entry < 8192) 0x0009 (fun s => s.reply r c 0 [(s.route entry).frames, (s.route entry).gaps])))

end Sys2Proof.Machine
end

