-- ==== Sys2Proof/Machine/Dispatch.lean ====
section
/-! DEFINITION. One arm per command: its meaning, in Sys2Proof/Machine/. -/

namespace Sys2Proof.Machine

open Sys2Proof

def exec (i : Instr) (s : State) : Host.Outcome State Fault Refusal :=
  match i with
  | .powerOnReset => Sys2Proof.Machine.execPowerOnReset s
  | .moduleReset => Sys2Proof.Machine.execModuleReset s
  | .latticeReset => Sys2Proof.Machine.execLatticeReset s
  | .bootStageComplete x => Sys2Proof.Machine.execBootStageComplete x s
  | .powerFailWarning part => Sys2Proof.Machine.execPowerFailWarning part s
  | .powerFailWarningClear => Sys2Proof.Machine.execPowerFailWarningClear s
  | .latticeStop => Sys2Proof.Machine.execLatticeStop s
  | .brownoutRestart => Sys2Proof.Machine.execBrownoutRestart s
  | .feedOutOfRange n mv => Sys2Proof.Machine.execFeedOutOfRange n mv s
  | .feedOvervoltage n => Sys2Proof.Machine.execFeedOvervoltage n s
  | .feedReconnect n mv => Sys2Proof.Machine.execFeedReconnect n mv s
  | .unplannedOscSwitch => Sys2Proof.Machine.execUnplannedOscSwitch s
  | .plannedOscSwitch => Sys2Proof.Machine.execPlannedOscSwitch s
  | .refSelWrite v => Sys2Proof.Machine.execRefSelWrite v s
  | .externalLock => Sys2Proof.Machine.execExternalLock s
  | .externalRefLost => Sys2Proof.Machine.execExternalRefLost s
  | .snap => Sys2Proof.Machine.execSnap s
  | .frcLoRead => Sys2Proof.Machine.execFrcLoRead s
  | .wideCounterLowRead addr => Sys2Proof.Machine.execWideCounterLowRead addr s
  | .tbIncWrite frac v => Sys2Proof.Machine.execTbIncWrite frac v s
  | .todsetNow => Sys2Proof.Machine.execTodsetNow s
  | .todsetArm => Sys2Proof.Machine.execTodsetArm s
  | .todStepApply => Sys2Proof.Machine.execTodStepApply s
  | .frameTick => Sys2Proof.Machine.execFrameTick s
  | .framePeriodWrite w => Sys2Proof.Machine.execFramePeriodWrite w s
  | .lgConfigWrite g word v => Sys2Proof.Machine.execLgConfigWrite g word v s
  | .lgMemberWrite m v => Sys2Proof.Machine.execLgMemberWrite m v s
  | .lgOneShotArm g => Sys2Proof.Machine.execLgOneShotArm g s
  | .lgFire g caps => Sys2Proof.Machine.execLgFire g caps s
  | .ppsInEdge sub => Sys2Proof.Machine.execPpsInEdge sub s
  | .ppsOutPulse => Sys2Proof.Machine.execPpsOutPulse s
  | .aluOp at_ o => Sys2Proof.Machine.execAluOp at_ o s
  | .satOp at_ o => Sys2Proof.Machine.execSatOp at_ o s
  | .mul at_ d a b n => Sys2Proof.Machine.execMul at_ d a b n s
  | .mac at_ acc a b => Sys2Proof.Machine.execMac at_ acc a b s
  | .accrd at_ d acc n => Sys2Proof.Machine.execAccrd at_ d acc n s
  | .div at_ d a b n => Sys2Proof.Machine.execDiv at_ d a b n s
  | .sqrt at_ d a n => Sys2Proof.Machine.execSqrt at_ d a n s
  | .br at_ cond target => Sys2Proof.Machine.execBr at_ cond target s
  | .loopn at_ count first last => Sys2Proof.Machine.execLoopn at_ count first last s
  | .wait at_ n => Sys2Proof.Machine.execWait at_ n s
  | .endf at_ => Sys2Proof.Machine.execEndf at_ s
  | .lld at_ d addr size ecc => Sys2Proof.Machine.execLld at_ d addr size ecc s
  | .lst at_ src addr size => Sys2Proof.Machine.execLst at_ src addr size s
  | .recv at_ entry off size dst ecc => Sys2Proof.Machine.execRecv at_ entry off size dst ecc s
  | .sld at_ m addr size dst ecc => Sys2Proof.Machine.execSld at_ m addr size dst ecc s
  | .sharedLoadResponse => Sys2Proof.Machine.execSharedLoadResponse s
  | .sst at_ m addr size src ecc => Sys2Proof.Machine.execSst at_ m addr size src ecc s
  | .send at_ m dest entry src ecc => Sys2Proof.Machine.execSend at_ m dest entry src ecc s
  | .sendDelivery => Sys2Proof.Machine.execSendDelivery s
  | .rpoll at_ q addr => Sys2Proof.Machine.execRpoll at_ q addr s
  | .renq at_ q addr d ecc => Sys2Proof.Machine.execRenq at_ q addr d ecc s
  | .ecall at_ m e desc bad cor mis => Sys2Proof.Machine.execEcall at_ m e desc bad cor mis s
  | .engineCallComplete e => Sys2Proof.Machine.execEngineCallComplete e s
  | .xstart at_ m x ecc => Sys2Proof.Machine.execXstart at_ m x ecc s
  | .transferComplete ok => Sys2Proof.Machine.execTransferComplete ok s
  | .dabs at_ m addr ecc => Sys2Proof.Machine.execDabs at_ m addr ecc s
  | .dseal at_ m => Sys2Proof.Machine.execDseal at_ m s
  | .digestSealComplete => Sys2Proof.Machine.execDigestSealComplete s
  | .fcm at_ => Sys2Proof.Machine.execFcm at_ s
  | .retentiveRecordCommit => Sys2Proof.Machine.execRetentiveRecordCommit s
  | .retentiveFold => Sys2Proof.Machine.execRetentiveFold s
  | .mgmtRingEnqueue q entry => Sys2Proof.Machine.execMgmtRingEnqueue q entry s
  | .asyncAccessRetry mailbox => Sys2Proof.Machine.execAsyncAccessRetry mailbox s
  | .portbBankWrite addr data sub => Sys2Proof.Machine.execPortbBankWrite addr data sub s
  | .retentiveWriteThrough => Sys2Proof.Machine.execRetentiveWriteThrough s
  | .digestSend tx => Sys2Proof.Machine.execDigestSend tx s
  | .inputExchangeSend ecc => Sys2Proof.Machine.execInputExchangeSend ecc s
  | .exchangeMessageRx m => Sys2Proof.Machine.execExchangeMessageRx m s
  | .exchangeCutover ecc => Sys2Proof.Machine.execExchangeCutover ecc s
  | .ttAdmStart slot placement => Sys2Proof.Machine.execTtAdmStart slot placement s
  | .ttAdmAbort => Sys2Proof.Machine.execTtAdmAbort s
  | .admissionComplete => Sys2Proof.Machine.execAdmissionComplete s
  | .ltRelocCheck logical target => Sys2Proof.Machine.execLtRelocCheck logical target s
  | .placementCheckComplete => Sys2Proof.Machine.execPlacementCheckComplete s
  | .ltRelocCommit => Sys2Proof.Machine.execLtRelocCommit s
  | .tileRelocation ecc => Sys2Proof.Machine.execTileRelocation ecc s
  | .tileShadow logical phys ecc => Sys2Proof.Machine.execTileShadow logical phys ecc s
  | .tileShadowCompare phys => Sys2Proof.Machine.execTileShadowCompare phys s
  | .ttModePrepare => Sys2Proof.Machine.execTtModePrepare s
  | .modePrepareComplete => Sys2Proof.Machine.execModePrepareComplete s
  | .ttModeArm => Sys2Proof.Machine.execTtModeArm s
  | .ttModeCancel => Sys2Proof.Machine.execTtModeCancel s
  | .modeDeltaWrites j => Sys2Proof.Machine.execModeDeltaWrites j s
  | .ttRunStart kind => Sys2Proof.Machine.execTtRunStart kind s
  | .runEntry => Sys2Proof.Machine.execRunEntry s
  | .ttRunStop => Sys2Proof.Machine.execTtRunStop s
  | .stopTakesEffect => Sys2Proof.Machine.execStopTakesEffect s
  | .ttRunLrst => Sys2Proof.Machine.execTtRunLrst s
  | .ttRetClear => Sys2Proof.Machine.execTtRetClear s
  | .lpWinWrite v => Sys2Proof.Machine.execLpWinWrite v s
  | .lpWinRead sub => Sys2Proof.Machine.execLpWinRead sub s
  | .svWinWrite v => Sys2Proof.Machine.execSvWinWrite v s
  | .svWinRead sub => Sys2Proof.Machine.execSvWinRead sub s
  | .svDmaStart => Sys2Proof.Machine.execSvDmaStart s
  | .svDmaAbort => Sys2Proof.Machine.execSvDmaAbort s
  | .svDmaComplete retries bad => Sys2Proof.Machine.execSvDmaComplete retries bad s
  | .svRelocCommit => Sys2Proof.Machine.execSvRelocCommit s
  | .solverRelocation => Sys2Proof.Machine.execSolverRelocation s
  | .conversionWindowEnd ch m => Sys2Proof.Machine.execConversionWindowEnd ch m s
  | .fieldControlFrame g ok => Sys2Proof.Machine.execFieldControlFrame g ok s
  | .groupFallbackEntry g => Sys2Proof.Machine.execGroupFallbackEntry g s
  | .groupResume g => Sys2Proof.Machine.execGroupResume g s
  | .safeStateLineAssert => Sys2Proof.Machine.execSafeStateLineAssert s
  | .groupSupplyFail g => Sys2Proof.Machine.execGroupSupplyFail g s
  | .fgApply g => Sys2Proof.Machine.execFgApply g s
  | .fgApplyCancel g => Sys2Proof.Machine.execFgApplyCancel g s
  | .fgApplyTakesEffect g => Sys2Proof.Machine.execFgApplyTakesEffect g s
  | .crossCheckVisit g dev refOff => Sys2Proof.Machine.execCrossCheckVisit g dev refOff s
  | .fgSpareStart g terminal => Sys2Proof.Machine.execFgSpareStart g terminal s
  | .fgSpareCancel g => Sys2Proof.Machine.execFgSpareCancel g s
  | .spareTakeover g => Sys2Proof.Machine.execSpareTakeover g s
  | .loopPowerSample draw => Sys2Proof.Machine.execLoopPowerSample draw s
  | .chFlagsWrite ch v => Sys2Proof.Machine.execChFlagsWrite ch v s
  | .hartPollDue ch entry => Sys2Proof.Machine.execHartPollDue ch entry s
  | .hartFrameStart ch loopFree => Sys2Proof.Machine.execHartFrameStart ch loopFree s
  | .hartResponseRx ch m => Sys2Proof.Machine.execHartResponseRx ch m s
  | .hartResponseTimeout ch => Sys2Proof.Machine.execHartResponseTimeout ch s
  | .hartRequestExpired ch => Sys2Proof.Machine.execHartRequestExpired ch s
  | .hartBurstRx ch m => Sys2Proof.Machine.execHartBurstRx ch m s
  | .diRefresh volts check ok => Sys2Proof.Machine.execDiRefresh volts check ok s
  | .diInputStale => Sys2Proof.Machine.execDiInputStale s
  | .doImageFrame ok => Sys2Proof.Machine.execDoImageFrame ok s
  | .doControlFrame ok => Sys2Proof.Machine.execDoControlFrame ok s
  | .doBlockDeenergise => Sys2Proof.Machine.execDoBlockDeenergise s
  | .doBlockResume => Sys2Proof.Machine.execDoBlockResume s
  | .doCurrentLimit o ev => Sys2Proof.Machine.execDoCurrentLimit o ev s
  | .doThermalRestart o => Sys2Proof.Machine.execDoThermalRestart o s
  | .fieldSupplyLow half low => Sys2Proof.Machine.execFieldSupplyLow half low s
  | .dioApply => Sys2Proof.Machine.execDioApply s
  | .dioApplyCancel => Sys2Proof.Machine.execDioApplyCancel s
  | .dioApplyTakesEffect => Sys2Proof.Machine.execDioApplyTakesEffect s
  | .chApply p => Sys2Proof.Machine.execChApply p s
  | .chCancel p => Sys2Proof.Machine.execChCancel p s
  | .chainApplyTakesEffect p => Sys2Proof.Machine.execChainApplyTakesEffect p s
  | .chDiscover p => Sys2Proof.Machine.execChDiscover p s
  | .chainDiscoveryStart p => Sys2Proof.Machine.execChainDiscoveryStart p s
  | .discoveryComplete p => Sys2Proof.Machine.execDiscoveryComplete p s
  | .chWake p => Sys2Proof.Machine.execChWake p s
  | .chSleep p => Sys2Proof.Machine.execChSleep p s
  | .chFaultClr p => Sys2Proof.Machine.execChFaultClr p s
  | .quietSend p far => Sys2Proof.Machine.execQuietSend p far s
  | .sampleStrobe p => Sys2Proof.Machine.execSampleStrobe p s
  | .readoutSend p => Sys2Proof.Machine.execReadoutSend p s
  | .dataFrameRx p d => Sys2Proof.Machine.execDataFrameRx p d s
  | .chainRetrySend p far first last => Sys2Proof.Machine.execChainRetrySend p far first last s
  | .chainBreak p far => Sys2Proof.Machine.execChainBreak p far s
  | .sweepClose p => Sys2Proof.Machine.execSweepClose p s
  | .sweepPublish p => Sys2Proof.Machine.execSweepPublish p s
  | .keep p => Sys2Proof.Machine.execKeep p s
  | .chainQueueSend p => Sys2Proof.Machine.execChainQueueSend p s
  | .chainResponseRx p r => Sys2Proof.Machine.execChainResponseRx p r s
  | .faultLineChange p current => Sys2Proof.Machine.execFaultLineChange p current s
  | .chainFaultTrip p => Sys2Proof.Machine.execChainFaultTrip p s
  | .forwardedChainItemRx item => Sys2Proof.Machine.execForwardedChainItemRx item s
  | .ingestMessageRx m => Sys2Proof.Machine.execIngestMessageRx m s
  | .ingestPublish => Sys2Proof.Machine.execIngestPublish s
  | .ingestSend p => Sys2Proof.Machine.execIngestSend p s
  | .chIngApply => Sys2Proof.Machine.execChIngApply s
  | .chIngCancel => Sys2Proof.Machine.execChIngCancel s
  | .ingestApplyTakesEffect => Sys2Proof.Machine.execIngestApplyTakesEffect s
  | .nodeImageSend p => Sys2Proof.Machine.execNodeImageSend p s
  | .canFrameRx p f => Sys2Proof.Machine.execCanFrameRx p f s
  | .canTxRecord p rec => Sys2Proof.Machine.execCanTxRecord p rec s
  | .canTxStart p loopDelay => Sys2Proof.Machine.execCanTxStart p loopDelay s
  | .canTxComplete p e => Sys2Proof.Machine.execCanTxComplete p e s
  | .canBusOff p => Sys2Proof.Machine.execCanBusOff p s
  | .cfRecover p flush => Sys2Proof.Machine.execCfRecover p flush s
  | .canRecoveryComplete p => Sys2Proof.Machine.execCanRecoveryComplete p s
  | .cfTxbAbort p v => Sys2Proof.Machine.execCfTxbAbort p v s
  | .cfApply p => Sys2Proof.Machine.execCfApply p s
  | .cfCancel p => Sys2Proof.Machine.execCfCancel p s
  | .cfApplyTakesEffect p => Sys2Proof.Machine.execCfApplyTakesEffect p s
  | .canServiceSegmentRx p data => Sys2Proof.Machine.execCanServiceSegmentRx p data s
  | .canServiceGapTimeout p => Sys2Proof.Machine.execCanServiceGapTimeout p s
  | .ethFrameRx p f => Sys2Proof.Machine.execEthFrameRx p f s
  | .ethFrameTx p => Sys2Proof.Machine.execEthFrameTx p s
  | .routeEntryDrain q => Sys2Proof.Machine.execRouteEntryDrain q s
  | .fabricFrameSend entry => Sys2Proof.Machine.execFabricFrameSend entry s
  | .fabricFrameRx f => Sys2Proof.Machine.execFabricFrameRx f s
  | .esRtApply => Sys2Proof.Machine.execEsRtApply s
  | .esRtCancel => Sys2Proof.Machine.execEsRtCancel s
  | .routeTableSwap => Sys2Proof.Machine.execRouteTableSwap s
  | .prpSupervisionSend => Sys2Proof.Machine.execPrpSupervisionSend s
  | .macsecRekey p => Sys2Proof.Machine.execMacsecRekey p s
  | .macsecOldAssociationExpiry p => Sys2Proof.Machine.execMacsecOldAssociationExpiry p s
  | .peerSessionKeyExpiry p => Sys2Proof.Machine.execPeerSessionKeyExpiry p s
  | .ptpMessageRx p domain m => Sys2Proof.Machine.execPtpMessageRx p domain m s
  | .ptpMessageTx p m => Sys2Proof.Machine.execPtpMessageTx p m s
  | .ptpMasterLost => Sys2Proof.Machine.execPtpMasterLost s
  | .partnerHealthyChange on => Sys2Proof.Machine.execPartnerHealthyChange on s
  | .partnerMarkPulse => Sys2Proof.Machine.execPartnerMarkPulse s
  | .partnerDriveChange on => Sys2Proof.Machine.execPartnerDriveChange on s
  | .partnerLinkChange k up => Sys2Proof.Machine.execPartnerLinkChange k up s
  | .digestMessageRx m => Sys2Proof.Machine.execDigestMessageRx m s
  | .gatedRingMirrorRx q entry => Sys2Proof.Machine.execGatedRingMirrorRx q entry s
  | .failoverCheck => Sys2Proof.Machine.execFailoverCheck s
  | .partnerLinksLost => Sys2Proof.Machine.execPartnerLinksLost s
  | .autojoin q => Sys2Proof.Machine.execAutojoin q s
  | .paCmdJoin q => Sys2Proof.Machine.execPaCmdJoin q s
  | .paCmdLeave => Sys2Proof.Machine.execPaCmdLeave s
  | .paCmdHandover => Sys2Proof.Machine.execPaCmdHandover s
  | .paCmdCancel => Sys2Proof.Machine.execPaCmdCancel s
  | .handoverTakesEffect => Sys2Proof.Machine.execHandoverTakesEffect s
  | .pairRevert => Sys2Proof.Machine.execPairRevert s
  | .standbyPromotion => Sys2Proof.Machine.execStandbyPromotion s
  | .stateTransferRound gs => Sys2Proof.Machine.execStateTransferRound gs s
  | .stateTransferFinal x => Sys2Proof.Machine.execStateTransferFinal x s
  | .stateTransferTimeout => Sys2Proof.Machine.execStateTransferTimeout s
  | .pairSelftestComplete pass => Sys2Proof.Machine.execPairSelftestComplete pass s
  | .sessionHandshake h => Sys2Proof.Machine.execSessionHandshake h s
  | .sessionIdleTimeout session => Sys2Proof.Machine.execSessionIdleTimeout session s
  | .tlsKeyUpdate session => Sys2Proof.Machine.execTlsKeyUpdate session s
  | .malformedHeader session => Sys2Proof.Machine.execMalformedHeader session s
  | .undefinedOpcode r op => Sys2Proof.Machine.execUndefinedOpcode r op s
  | .hello r version host => Sys2Proof.Machine.execHello r version host s
  | .ping r => Sys2Proof.Machine.execPing r s
  | .status r => Sys2Proof.Machine.execStatus r s
  | .subscribe r classes => Sys2Proof.Machine.execSubscribe r classes s
  | .versions r => Sys2Proof.Machine.execVersions r s
  | .bye r => Sys2Proof.Machine.execBye r s
  | .modeRead r => Sys2Proof.Machine.execModeRead r s
  | .modePrepare r mode => Sys2Proof.Machine.execModePrepare r mode s
  | .modeArm r at_ => Sys2Proof.Machine.execModeArm r at_ s
  | .modeStatus r => Sys2Proof.Machine.execModeStatus r s
  | .modeCancel r => Sys2Proof.Machine.execModeCancel r s
  | .slotRename r slot name => Sys2Proof.Machine.execSlotRename r slot name s
  | .slotClear r slot => Sys2Proof.Machine.execSlotClear r slot s
  | .start r kind => Sys2Proof.Machine.execStart r kind s
  | .stop r => Sys2Proof.Machine.execStop r s
  | .lrst r => Sys2Proof.Machine.execLrst r s
  | .runStatus r => Sys2Proof.Machine.execRunStatus r s
  | .admitCmd r slot placement => Sys2Proof.Machine.execAdmitCmd r slot placement s
  | .admitStatus r => Sys2Proof.Machine.execAdmitStatus r s
  | .autorun r on => Sys2Proof.Machine.execAutorun r on s
  | .retExport r => Sys2Proof.Machine.execRetExport r s
  | .retImport r offset data => Sys2Proof.Machine.execRetImport r offset data s
  | .retClear r => Sys2Proof.Machine.execRetClear r s
  | .ringPut r ring entries => Sys2Proof.Machine.execRingPut r ring entries s
  | .ringGet r ring most => Sys2Proof.Machine.execRingGet r ring most s
  | .dataRead r addr len => Sys2Proof.Machine.execDataRead r addr len s
  | .xferBegin r target length hash => Sys2Proof.Machine.execXferBegin r target length hash s
  | .xferChunk r offset data => Sys2Proof.Machine.execXferChunk r offset data s
  | .xferEnd r content => Sys2Proof.Machine.execXferEnd r content s
  | .xferAbort r => Sys2Proof.Machine.execXferAbort r s
  | .updateSchedule r part at_ => Sys2Proof.Machine.execUpdateSchedule r part at_ s
  | .updateActivate r part => Sys2Proof.Machine.execUpdateActivate r part s
  | .updateStatus r => Sys2Proof.Machine.execUpdateStatus r s
  | .updateForward r part plants => Sys2Proof.Machine.execUpdateForward r part plants s
  | .bankSelect r part bank => Sys2Proof.Machine.execBankSelect r part bank s
  | .cfgRead r addr count => Sys2Proof.Machine.execCfgRead r addr count s
  | .cfgWrite r pairs => Sys2Proof.Machine.execCfgWrite r pairs s
  | .cfgApply r block => Sys2Proof.Machine.execCfgApply r block s
  | .cfgCancel r block => Sys2Proof.Machine.execCfgCancel r block s
  | .cfgSave r => Sys2Proof.Machine.execCfgSave r s
  | .chanRead r channel => Sys2Proof.Machine.execChanRead r channel s
  | .netCfg r iface addr mask gw port => Sys2Proof.Machine.execNetCfg r iface addr mask gw port s
  | .trimSet r channel gain offset => Sys2Proof.Machine.execTrimSet r channel gain offset s
  | .hartPass r channel address command data => Sys2Proof.Machine.execHartPass r channel address command data s
  | .hartRead r channel => Sys2Proof.Machine.execHartRead r channel s
  | .hartPollSet r channel list => Sys2Proof.Machine.execHartPollSet r channel list s
  | .canRecover r port flush => Sys2Proof.Machine.execCanRecover r port flush s
  | .canSend r port rec => Sys2Proof.Machine.execCanSend r port rec s
  | .flagClear r addr mask => Sys2Proof.Machine.execFlagClear r addr mask s
  | .timeRead r => Sys2Proof.Machine.execTimeRead r s
  | .todSet r sec ns frac at_ => Sys2Proof.Machine.execTodSet r sec ns frac at_ s
  | .incSet r ns frac => Sys2Proof.Machine.execIncSet r ns frac s
  | .servoCfg r mode restep => Sys2Proof.Machine.execServoCfg r mode restep s
  | .lgArm r group at_ => Sys2Proof.Machine.execLgArm r group at_ s
  | .refSelect r source => Sys2Proof.Machine.execRefSelect r source s
  | .pairStatus r => Sys2Proof.Machine.execPairStatus r s
  | .join r q => Sys2Proof.Machine.execJoin r q s
  | .leave r => Sys2Proof.Machine.execLeave r s
  | .handover r at_ => Sys2Proof.Machine.execHandover r at_ s
  | .pairCancel r => Sys2Proof.Machine.execPairCancel r s
  | .pairCfg r cfg times mixed => Sys2Proof.Machine.execPairCfg r cfg times mixed s
  | .chainStatus r port => Sys2Proof.Machine.execChainStatus r port s
  | .chainPass r port pos code payload => Sys2Proof.Machine.execChainPass r port pos code payload s
  | .chainDiscover r port => Sys2Proof.Machine.execChainDiscover r port s
  | .chainWake r port => Sys2Proof.Machine.execChainWake r port s
  | .chainSleep r port => Sys2Proof.Machine.execChainSleep r port s
  | .balSet r port pos mode targets => Sys2Proof.Machine.execBalSet r port pos mode targets s
  | .chainFaultClr r port => Sys2Proof.Machine.execChainFaultClr r port s
  | .slotRead r first count buffer => Sys2Proof.Machine.execSlotRead r first count buffer s
  | .nodeStatus r port pos => Sys2Proof.Machine.execNodeStatus r port pos s
  | .metStatus r => Sys2Proof.Machine.execMetStatus r s
  | .metRecords r from_ count => Sys2Proof.Machine.execMetRecords r from_ count s
  | .metAudit r from_ count => Sys2Proof.Machine.execMetAudit r from_ count s
  | .metCert r => Sys2Proof.Machine.execMetCert r s
  | .metAlarmAck r => Sys2Proof.Machine.execMetAlarmAck r s
  | .whoami r => Sys2Proof.Machine.execWhoami r s
  | .lockOpen r minutes => Sys2Proof.Machine.execLockOpen r minutes s
  | .lockClose r => Sys2Proof.Machine.execLockClose r s
  | .lockTimeout => Sys2Proof.Machine.execLockTimeout s
  | .fieldLock r engage => Sys2Proof.Machine.execFieldLock r engage s
  | .reopenPw r password minutes => Sys2Proof.Machine.execReopenPw r password minutes s
  | .reopenExpiry session => Sys2Proof.Machine.execReopenExpiry session s
  | .challenge r minutes => Sys2Proof.Machine.execChallenge r minutes s
  | .response r signature => Sys2Proof.Machine.execResponse r signature s
  | .pwSet r password => Sys2Proof.Machine.execPwSet r password s
  | .lockoutRead r => Sys2Proof.Machine.execLockoutRead r s
  | .lockoutReset r => Sys2Proof.Machine.execLockoutReset r s
  | .lockoutExpiry => Sys2Proof.Machine.execLockoutExpiry s
  | .indRect r x y w h pixels => Sys2Proof.Machine.execIndRect r x y w h pixels s
  | .indStatus r => Sys2Proof.Machine.execIndStatus r s
  | .indClear r => Sys2Proof.Machine.execIndClear r s
  | .countersRead r block => Sys2Proof.Machine.execCountersRead r block s
  | .countersClear r block => Sys2Proof.Machine.execCountersClear r block s
  | .journalRead r from_ count => Sys2Proof.Machine.execJournalRead r from_ count s
  | .sparesRead r => Sys2Proof.Machine.execSparesRead r s
  | .spareSwitch r group terminal cancel => Sys2Proof.Machine.execSpareSwitch r group terminal cancel s
  | .relocate r kind logical target => Sys2Proof.Machine.execRelocate r kind logical target s
  | .shadowSet r logical en => Sys2Proof.Machine.execShadowSet r logical en s
  | .regRead r addr count => Sys2Proof.Machine.execRegRead r addr count s
  | .regWrite r addr value => Sys2Proof.Machine.execRegWrite r addr value s
  | .selftest r failed => Sys2Proof.Machine.execSelftest r failed s
  | .routeCounters r entry => Sys2Proof.Machine.execRouteCounters r entry s
  | .idCert r => Sys2Proof.Machine.execIdCert r s
  | .ownTake r fik kcv tamper => Sys2Proof.Machine.execOwnTake r fik kcv tamper s
  | .ownRelease r successor => Sys2Proof.Machine.execOwnRelease r successor s
  | .credRevoke r fps => Sys2Proof.Machine.execCredRevoke r fps s
  | .credUnrevoke r fps => Sys2Proof.Machine.execCredUnrevoke r fps s
  | .credList r => Sys2Proof.Machine.execCredList r s
  | .memberCertSet r cert data => Sys2Proof.Machine.execMemberCertSet r cert data s
  | .peerBind r partner => Sys2Proof.Machine.execPeerBind r partner s
  | .floorSet r kind id ver => Sys2Proof.Machine.execFloorSet r kind id ver s
  | .floorRead r => Sys2Proof.Machine.execFloorRead r s
  | .zeroise r level confirm => Sys2Proof.Machine.execZeroise r level confirm s
  | .tamperCfg r actions => Sys2Proof.Machine.execTamperCfg r actions s
  | .tamperRead r => Sys2Proof.Machine.execTamperRead r s
  | .tamperInput input opened => Sys2Proof.Machine.execTamperInput input opened s
  | .seMboxGo => Sys2Proof.Machine.execSeMboxGo s
  | .seReplyReady => Sys2Proof.Machine.execSeReplyReady s
  | .meteringIntervalEnd part => Sys2Proof.Machine.execMeteringIntervalEnd part s
  | .profilePeriodEnd => Sys2Proof.Machine.execProfilePeriodEnd s
  | .totalsRecordSend => Sys2Proof.Machine.execTotalsRecordSend s
  | .statusRecordSend m => Sys2Proof.Machine.execStatusRecordSend m s
  | .certRecordSend => Sys2Proof.Machine.execCertRecordSend s
  | .auditEntryWrite code sys old new => Sys2Proof.Machine.execAuditEntryWrite code sys old new s
  | .phaseLoss sys mask => Sys2Proof.Machine.execPhaseLoss sys mask s
  | .overload sys mask peak => Sys2Proof.Machine.execOverload sys mask peak s
  | .mgRecordRx data crcOk => Sys2Proof.Machine.execMgRecordRx data crcOk s
  | .mgRxPop => Sys2Proof.Machine.execMgRxPop s
  | .recordVerify ok => Sys2Proof.Machine.execRecordVerify ok s
  | .sealCoverOpen => Sys2Proof.Machine.execSealCoverOpen s
  | .serviceWindowWrite id sys v ns => Sys2Proof.Machine.execServiceWindowWrite id sys v ns s
  | .serviceWindowRead id sys => Sys2Proof.Machine.execServiceWindowRead id sys s
  | .resealArmExpiry => Sys2Proof.Machine.execResealArmExpiry s
  | .sealCoverClose => Sys2Proof.Machine.execSealCoverClose s
  | .lidOpen => Sys2Proof.Machine.execLidOpen s
  | .auxSupplyLow part => Sys2Proof.Machine.execAuxSupplyLow part s
  | .auxSupplyReturn secs clockOk => Sys2Proof.Machine.execAuxSupplyReturn secs clockOk s
  | .dgSubmit => Sys2Proof.Machine.execDgSubmit s
  | .rectangleStart temp => Sys2Proof.Machine.execRectangleStart temp s
  | .rectangleComplete => Sys2Proof.Machine.execRectangleComplete s
  | .dgDonePop => Sys2Proof.Machine.execDgDonePop s
  | .legalPageAdvance => Sys2Proof.Machine.execLegalPageAdvance s
  | .railOutOfTolerance => Sys2Proof.Machine.execRailOutOfTolerance s
  | .pumpRelease => Sys2Proof.Machine.execPumpRelease s
  | .crackCheck broken => Sys2Proof.Machine.execCrackCheck broken s
  | .startRepaint temp broken => Sys2Proof.Machine.execStartRepaint temp broken s
  | .updateActivation part => Sys2Proof.Machine.execUpdateActivation part s
  | .commandedActivation => Sys2Proof.Machine.execCommandedActivation s
  | .forwardHop h => Sys2Proof.Machine.execForwardHop h s
  | .forwardHopTimeout => Sys2Proof.Machine.execForwardHopTimeout s
  | .recoveryInfo => Sys2Proof.Machine.execRecoveryInfo s
  | .recoveryBegin part length => Sys2Proof.Machine.execRecoveryBegin part length s
  | .recoveryData offset data => Sys2Proof.Machine.execRecoveryData offset data s
  | .recoveryEnd hash content => Sys2Proof.Machine.execRecoveryEnd hash content s
  | .recoveryRestart => Sys2Proof.Machine.execRecoveryRestart s
  | .recoveryIdleTimeout => Sys2Proof.Machine.execRecoveryIdleTimeout s
  | .tickLost => Sys2Proof.Machine.execTickLost s
  | .overTemperature temp => Sys2Proof.Machine.execOverTemperature temp s
  | .railOutOfRange => Sys2Proof.Machine.execRailOutOfRange s
  | .ssTripCmd bits => Sys2Proof.Machine.execSsTripCmd bits s
  | .ssTripLatchReset bits => Sys2Proof.Machine.execSsTripLatchReset bits s
  | .wearEvaluation k idx m e failed => Sys2Proof.Machine.execWearEvaluation k idx m e failed s
  | .hsSwitchStart kind index => Sys2Proof.Machine.execHsSwitchStart kind index s
  | .hsSwitchCancel => Sys2Proof.Machine.execHsSwitchCancel s
  | .switchInCommit k => Sys2Proof.Machine.execSwitchInCommit k s
  | .rowSpareCopy k => Sys2Proof.Machine.execRowSpareCopy k s
  | .journalFlush => Sys2Proof.Machine.execJournalFlush s
  | .hsClearGo block unit => Sys2Proof.Machine.execHsClearGo block unit s
  | .registerWrite addr value size => Sys2Proof.Machine.execRegisterWrite addr value size s
  | .holdUpEnd => Sys2Proof.Machine.execHoldUpEnd s
  | .groupSupplyReturn g => Sys2Proof.Machine.execGroupSupplyReturn g s
  | .portLinkChange p speed => Sys2Proof.Machine.execPortLinkChange p speed s
  | .canBusError p lec tx exempt more => Sys2Proof.Machine.execCanBusError p lec tx exempt more s
  | .connectionClosed session peer => Sys2Proof.Machine.execConnectionClosed session peer s
  | .farEndCommandRx p quiet pos => Sys2Proof.Machine.execFarEndCommandRx p quiet pos s
  | .managementPathMessageRx m => Sys2Proof.Machine.execManagementPathMessageRx m s
  | .partRestartComplete part q => Sys2Proof.Machine.execPartRestartComplete part q s
  | .supervisionMissing => Sys2Proof.Machine.execSupervisionMissing s

end Sys2Proof.Machine
end

