-- ==== Sys2Proof/Machine/Step.lean ====
section
/-! DEFINITION. One step: the command at the front of the queue has its effect; with none waiting one tb passes (R43, R45). -/

namespace Sys2Proof.Machine

open Sys2Proof

/-- The next state of the block (DESIGN CHOICE, log entries 7, 84). -/
def step (s : State) : Host.Outcome State Fault Refusal :=
  match s.pending with
  | [] => .next (s.pass 1)
  | c :: cs => exec c { s with pending := cs }

/-- The state with the command a word spells put at the front of the queue; unchanged where it spells none (DESIGN CHOICE, log entry 23). -/
def State.withFetchWord (s : State) (nbits w : Nat) : State :=
  match decodeTableWord nbits w with
  | some c => { s with pending := c :: s.pending }
  | none => s

end Sys2Proof.Machine
end

