-- ==== Sys2Proof/Safety.lean ====
section
/-! DEFINITION. What counts as a sound state: the canonical forms of the two stores and the bounds the spec gives the counters and
journals that only commands of the table change; and the terms in which statements say what a step leaves alone. -/

namespace Sys2Proof.Safety

open Sys2Proof Sys2Proof.Machine

/-- Canonical form of memory: addresses strictly rising and no byte listed that equals what an unlisted address reads as (0). -/
def memoryWf (m : List Host.Cell) : Bool := alSorted m && m.all (fun c => c.2 != 0)

/-- The state is sound: memory is canonical, the field store lists its keys rising, FRC is a 64-bit number (R43), the journal's RAM
buffer holds at most 64 entries and its flash region at most 65,536 (R493). -/
structure Sound (s : State) : Prop where
  memory : memoryWf s.mem = true
  fields : alSorted s.regs = true
  frc : s.tb.frc < 2 ^ 64
  ram : s.jr.ram.length ≤ 64
  flash : s.jr.flash.length ≤ 65536

/-! ### What statements say of a step -/

/-- Nothing but the fields with the listed keys may differ: no other register field, no byte of memory, no other part of the state. -/
def onlyFields (s t : State) (ks : List Nat) : Prop :=
  t = { s with regs := t.regs } ∧ ∀ (d k : Nat), k ∉ ks → alGet d t.regs k = alGet d s.regs k

/-- The issue of a tile operation; none for every other command. -/
def tileIssue : Instr → Option Issue
  | .aluOp i _ => some i
  | .satOp i _ => some i
  | .mul i _ _ _ _ => some i
  | .mac i _ _ _ => some i
  | .accrd i _ _ _ => some i
  | .div i _ _ _ _ => some i
  | .sqrt i _ _ _ => some i
  | .br i _ _ => some i
  | .loopn i _ _ _ => some i
  | .wait i _ => some i
  | .endf i => some i
  | .lld i _ _ _ _ => some i
  | .lst i _ _ _ => some i
  | .recv i _ _ _ _ _ => some i
  | .sld i _ _ _ _ _ => some i
  | .sst i _ _ _ _ _ => some i
  | .send i _ _ _ _ _ => some i
  | .rpoll i _ _ => some i
  | .renq i _ _ _ _ => some i
  | .ecall i _ _ _ _ _ _ => some i
  | .xstart i _ _ _ => some i
  | .dabs i _ _ _ => some i
  | .dseal i _ => some i
  | .fcm i => some i
  | _ => none

/-- Nothing but the command service's sessions, requests and lock use, and the list of what was sent, may differ. -/
def serviceOnly (s t : State) : Prop := t = { s with acc := t.acc, sent := t.sent }

/-- What R374 to R387 ask of a command packet before its command runs, on the state and the packet alone: its session is there, with fewer
than 16 requests outstanding and past HELLO; in BOOT its group is 0x01 or 0x0C; a session for the owner take does no more than that; every
parameter has its form; the level suffices; the field lock, where engaged, does not stop it; an L command's session holds the lock; a
command for the ACTIVE unit meets it there. -/
def Passes (s : State) (r : Req) (c : Cmd) : Prop :=
  r.badPid = 0 ∧ ∃ x, s.acc.sessions.find? (fun x => x.id == r.session) = some x ∧
    x.queue.length < 16 ∧
    (x.hello = true ∨ c.op = 0x0101) ∧
    (s.unit ≠ .boot ∨ c.op / 256 = 0x01 ∨ c.op / 256 = 0x0C) ∧
    (x.cand = false ∨ c.op ∈ [0x0101, 0x0102, 0x0A10, 0x0A11]) ∧
    (if c.level = .metrology then x.level = .metrology else levelRank c.level ≤ levelRank x.level) ∧
    (c.field = false ∨ s.bit R.SE_STATUS_FIELD_LOCK = false ∨ x.level = .owner ∨ (∃ t, x.reopen = some t ∧ s.tb.frc < t)) ∧
    (c.lock = false ∨ ∃ l, s.acc.lock = some l ∧ l.session = r.session) ∧
    (c.active = false ∨ s.rd R.PA_CFG_EN = 0 ∨ s.role = .solo ∨ s.role = .active)

/-- The commands that end a metering interval, whole or partial, and so add to the compartment's registers (R415, R436). -/
def metersEnergy : Instr → Bool
  | .meteringIntervalEnd _ => true
  | .auxSupplyLow _ => true
  | .powerFailWarning _ => true
  | _ => false

end Sys2Proof.Safety
end

