-- ==== Sys2Proof/Certificates/Slice0/Obligations.lean ====
section
/-! DEFINITION. The statements made about the model, each a closed proposition over exec, step, the reset state or a named
operation.  A docstring gives the rules of spec/ a statement formalises or rests on. -/

section

open Sys2Proof Sys2Proof.Machine Sys2Proof.Safety

/-- Captures of the free-running counter and the time of day (states R44). A write of 1 to SNAP captures FRC and TOD of the
same tb in the eight SNAP fields and changes nothing else; a write of 1 to SNAP through the register map is that command;
a read of TB_FRC_LO answers the low word and copies the high word of FRC into the shadow, changing nothing else, and the
next read of TB_FRC_HI answers that shadow. -/
def Obligations.TimeBaseCaptures : Prop :=
  (∀ (s : State), (Sound s) → (∃ t, exec .snap s = .next t ∧
      t.rd64 R.TB_SNAP_FRC_LO R.TB_SNAP_FRC_HI = s.tb.frc ∧ t.rd64 R.TB_SNAP_SEC_LO R.TB_SNAP_SEC_HI = s.tb.sec % 2 ^ 64 ∧
      t.rd R.TB_SNAP_NS = s.tb.ns % 2 ^ 30 ∧ t.rd R.TB_SNAP_FRAC = s.tb.frac % 2 ^ 32 ∧
      onlyFields s t [R.TB_SNAP_FRC_LO.key 0 0, R.TB_SNAP_FRC_HI.key 0 0, R.TB_SNAP_SEC_LO.key 0 0, R.TB_SNAP_SEC_HI.key 0 0,
        R.TB_SNAP_NS.key 0 0, R.TB_SNAP_FRAC.key 0 0])) ∧
  (∀ (s : State), (exec .frcLoRead s =
      .next { s with rdata := s.tb.frc % 2 ^ 32, tb := { s.tb with frcShadow := s.tb.frc / 2 ^ 32 % 2 ^ 32 } })) ∧
  (∀ (s : State), ((State.regRead { s with tb := { s.tb with frcShadow := s.tb.frc / 2 ^ 32 % 2 ^ 32 } } 0x4000000C).2 = s.tb.frc / 2 ^ 32 % 2 ^ 32)) ∧
  (∀ (s : State), (∀ v < 2 ^ 32, v / 16 % 2 = 1 → exec (.registerWrite 0x40000000 v 4) s = exec .snap (s.refSel (v % 4))))

/-- Setting the time of day and its increment (rests on R46, R47). Where neither the servo nor the pair mechanism owns the
registers: NOW sets TOD from the TODSET fields, sets TOD_VALID and cancels a waiting step; ARM with an AT not yet passed
keeps the step and applies it at the tb at which the FRC equals AT, one passed sets SET_PAST; an increment outside 9.990
to 10.010 ns is clamped and sets INC_CLAMP, one inside is written as it is. Owned registers ignore the write and set
SW_IGNORED. -/
def Obligations.TimeOfDaySteps : Prop :=
  (∀ (s : State), (s.servoOwns = false) → (exec .todsetNow s = .next { s.wr R.TB_STATUS_TOD_VALID 1 with
      tb := { s.tb with sec := s.rd64 R.TB_TODSET_SEC_LO R.TB_TODSET_SEC_HI, ns := min 999999999 (s.rd R.TB_TODSET_NS),
                        frac := s.rd R.TB_TODSET_FRAC, step := none, stepAt := some s.tb.frc } })) ∧
  (∀ (s : State), (s.servoOwns = false) → (s.tb.frc ≤ s.todsetRegs.at_) → (exec .todsetArm s = .next { s with tb := { s.tb with step := some s.todsetRegs } })) ∧
  (∀ (s : State), (s.servoOwns = false) → (s.todsetRegs.at_ < s.tb.frc) → (exec .todsetArm s =
      .next { s.wr R.TB_STATUS_SET_PAST 1 with tb := { s.tb with step := none } })) ∧
  (∀ (s : State) (x : TodStep), (s.tb.step = some x) → (s.servoOwns = false) → (exec .todStepApply s = .next { (s.toFrc x.at_).wr R.TB_STATUS_TOD_VALID 1 with
      tb := { (s.toFrc x.at_).tb with sec := x.sec, ns := x.ns, frac := x.frac, step := none, stepAt := some (s.toFrc x.at_).tb.frc } })) ∧
  (∀ (s : State) (v : Nat), (s.servoOwns = false) → (incMin ≤ v % 32 * 2 ^ 32 + s.rd R.TB_INC_FRAC) → (v % 32 * 2 ^ 32 + s.rd R.TB_INC_FRAC ≤ incMax) → (exec (.tbIncWrite false v) s =
      .next ((s.wr R.TB_INC_NS ((v % 32 * 2 ^ 32 + s.rd R.TB_INC_FRAC) / 2 ^ 32)).wr R.TB_INC_FRAC (v % 32 * 2 ^ 32 + s.rd R.TB_INC_FRAC)))) ∧
  (∀ (s : State) (v : Nat), (s.servoOwns = false) → (incMax < s.rd R.TB_INC_NS * 2 ^ 32 + v % 2 ^ 32) → (exec (.tbIncWrite true v) s =
      .next (((s.wr R.TB_INC_NS (incMax / 2 ^ 32)).wr R.TB_INC_FRAC incMax).wr R.TB_STATUS_INC_CLAMP 1))) ∧
  (∀ (s : State) (frac : Bool) (v : Nat), (s.servoOwns = true) → (exec (.tbIncWrite frac v) s = .next (s.wr R.PT_STATUS_SW_IGNORED 1) ∧
      exec .todsetNow s = .next (s.wr R.PT_STATUS_SW_IGNORED 1) ∧ exec .todsetArm s = .next (s.wr R.PT_STATUS_SW_IGNORED 1)))

/-- Reference switches between the oscillators and the external source (rests on R38, R40, R41, R42). An oscillator that fails
is replaced at once by the other: UNPLANNED is set, its OK flag falls, it is counted and journalled; an ordered switch
waits for the guard band of the first frame that began after the order; the external source is ordered only in STOP and in
use when the loop locks; its loss brings back the primary with EXT_LOST. -/
def Obligations.OscillatorsAndExternalReference : Prop :=
  (∀ (s : State), (s.rd R.TB_STATUS_REF_ACTIVE = 0) → (exec .unplannedOscSwitch s =
      .next (((((s.refTo 1).wr R.TB_STATUS_PRIMARY_OK 0).wr R.TB_OSC_EVENT_UNPLANNED 1).hsUse 9).journal 0 .oscSwitch [0, 1]))) ∧
  (∀ (s : State), (s.rd R.TB_STATUS_REF_ACTIVE = 1) → (exec .unplannedOscSwitch s =
      .next (((((s.refTo 0).wr R.TB_STATUS_SPARE_OK 0).wr R.TB_OSC_EVENT_UNPLANNED 1).hsUse 9).journal 0 .oscSwitch [1, 0]))) ∧
  (∀ (s : State) (v f : Nat), (s.tb.oscOrder = some (v, f)) → (f < s.tb.frameNo) → (exec .plannedOscSwitch s =
      .next (((s.toFrc (s.tb.lastTick + s.P * 19 / 20)).refTo v).wr R.TB_OSC_EVENT_PLANNED 1))) ∧
  (∀ (s : State), (s.unit = .stop) → (exec (.refSelWrite 2) s = .next { s.wr R.TB_CTRL_REF_SEL 2 with tb := { s.tb with oscOrder := none, extOrdered := true } })) ∧
  (∀ (s : State) (v : Nat), (v % 4 = 3) → (exec (.refSelWrite v) s = .next s)) ∧
  (∀ (s : State), (s.tb.extOrdered = true) → (s.unit = .stop) → (exec .externalLock s =
      .next { (s.wr R.TB_STATUS_EXT_LOCK 1).wr R.TB_STATUS_REF_ACTIVE 2 with tb := { s.tb with extOrdered := false } })) ∧
  (∀ (s : State), (s.rd R.TB_STATUS_REF_ACTIVE = 2) → (exec .externalRefLost s = .next ((s.refTo 0).wr R.TB_OSC_EVENT_EXT_LOST 1)))

/-- Frame period, lock groups and the time port (rests on R49, R53, R54, R55, R59, R60, R62, R63). In STOP with the lock held
a frame period of 25 to 2,000 whose subframes divide it is taken, any other sets CFG_ERR; the configuration words of a
lock group without a SAMPLE strobe member are written as they stand; a member entry that names a free member is taken; ARM
arms a mode-2 group whose time lies ahead; a periodic group fires at its offset in its frame; an edge at PPS in is stamped
in FRC; the PPS pulse leaves at the next second boundary, in 1/32 tb and ahead by PPS_DELAY; a one-shot whose time has
passed sets PAST and is not armed. -/
def Obligations.FramePeriodAndLockGroups : Prop :=
  (∀ (s : State) (w : Nat), (s.lockOpen = true) → (s.unit = .stop) → (25 ≤ bitsOf w 0 11) → (bitsOf w 0 11 ≤ 2000) → (bitsOf w 0 11 * 1000 % (bitsOf w 16 8 + 1) = 0) → (exec (.framePeriodWrite w) s =
      .next ((s.wr R.TT_FRAME_PERIOD (bitsOf w 0 11)).wr R.TT_FRAME_PERIOD_SUBFRAMES (bitsOf w 16 8)))) ∧
  (∀ (s : State) (w : Nat), (s.lockOpen = true) → (s.unit ≠ .stop) → (exec (.framePeriodWrite w) s = .next (s.wr R.TT_ALIGN_STATUS_CFG_ERR 1))) ∧
  (∀ (s : State) (g v : Nat), (g < 32) → (s.lockOpen = true) → (exec (.lgConfigWrite g 8 v) s = .next (s.wr R.TB_LG_TIME_LO v g) ∧ exec (.lgConfigWrite g 12 v) s = .next (s.wr R.TB_LG_TIME_HI v g) ∧
      exec (.lgConfigWrite g 16 v) s = .next (s.wr R.TB_LG_NS v g) ∧ exec (.lgConfigWrite g 28 v) s = .next (s.wr R.TB_LG_PHASE v g))) ∧
  (∀ (s : State) (m v : Nat), (m < 512) → (s.lockOpen = true) → (s.lgmOk m v = true) → (exec (.lgMemberWrite m v) s = .next ((((s.wr R.TB_LGM_INDEX v m).wr R.TB_LGM_KIND (bitsOf v 8 4) m).wr
      R.TB_LGM_LG (bitsOf v 16 5) m).wr R.TB_LGM_VALID (bitsOf v 31 1) m))) ∧
  (∀ (s : State) (g : Nat), (g < 32) → (s.rd R.TB_LG_MODE g = 2) → (s.tb.frc ≤ s.rd64 R.TB_LG_TIME_LO R.TB_LG_TIME_HI g) → (g ∉ s.tb.armed) → (exec (.lgOneShotArm g) s =
      .next { s with tb := { s.tb with armed := g :: s.tb.armed } })) ∧
  (∀ (s : State) (g : Nat), (g < 32) → (s.rd R.TB_LG_MODE g = 2) → (s.rd64 R.TB_LG_TIME_LO R.TB_LG_TIME_HI g < s.tb.frc) → (exec (.lgOneShotArm g) s = .next { s.wr R.TB_LG_PAST 1 g with tb := { s.tb with armed := s.tb.armed.filter (· != g) } })) ∧
  (∀ (s : State) (g : Nat) (caps : List (Nat × Meas)), (g < 32) → (s.rd R.TB_LG_MODE g = 1) → (s.tb.frameNo % s.lgN g = s.rd R.TB_LG_PHASE g % s.lgN g) → (s.tb.lastTick + s.rd R.TB_LG_OFFSET g < s.nextTick) → (s.tb.frc ≤ s.tb.lastTick + s.rd R.TB_LG_OFFSET g) → (s.tb.fired.contains g = false) → (exec (.lgFire g caps) s =
      .next ((s.toFrc (s.tb.lastTick + s.rd R.TB_LG_OFFSET g)).firePeriodic g caps))) ∧
  (∀ (s : State) (sub : Nat), (s.bit R.TB_TP_CTRL_PPS_IN_EN = true) → (Sound s) → (∃ t, exec (.ppsInEdge sub) s = .next t ∧ t.tb.lastPps = some (32 * s.tb.frc + sub % 32) ∧ t.tb.frc = s.tb.frc ∧
      t.rd64 R.TB_PPS_FRC_LO R.TB_PPS_FRC_HI = s.tb.frc ∧ t.rd R.TB_TP_STATUS_PPS_SEEN = 1 ∧ t.mem = s.mem)) ∧
  (∀ (s : State) (sec : Nat) (e : Int), (s.nextPps = some (sec, e)) → (s.bit R.TB_TP_CTRL_PPS_OUT_EN = true) → (s.isMember 7 0 = false) → (∃ t, exec .ppsOutPulse s = .next t ∧ t = (s.toFrc (e.toNat / 32)).ppsPulse sec e ∧ t.tb.ppsOut = some e ∧
      t.sent = ⟨.timePort, .pps, [sec, s.ppsWidth, e.toNat / 32, e.toNat % 32], []⟩ :: s.sent))

/-- Arithmetic operations of the tiles (rests on R67, R69, R70, R71). An operation that can issue, names registers below 64
and issues before the guard band completes: each runner of the tile gets the result readable at issue plus latency (ALU
and SAT 1, MUL and MAC 3, ACCRD 2, DIV and SQRT 18), rounded once and saturated with TSR.SAT, DIV of zero with DIVZ; the
divider is then busy for 16 cycles. G0 reads as 0. A register above 63 is a fault with code 0x3108, and an operation that
cannot issue changes nothing. -/
def Obligations.TileArithmetic : Prop :=
  (∀ (s : State) (i : Issue) (f : AluFn) (d a b : Nat), (s.canIssue i = true) → (d < 64) → (a < 64) → (b < 64) → (i.t < s.G) → (exec (.aluOp i (.bin f d a b)) s = .next ((s.startIssue i).eachTile i (fun s p => s.pend p (i.t + 1) (.g d) [(aluBin f (s.gr p a) (s.gr p b)).toNat])))) ∧
  (∀ (s : State) (i : Issue) (d : Nat) (v : Word), (s.canIssue i = true) → (d < 64) → (i.t < s.G) → (exec (.aluOp i (.imm d v)) s = .next ((s.startIssue i).eachTile i (fun s p => s.pend p (i.t + 1) (.g d) [v.toNat])))) ∧
  (∀ (s : State) (i : Issue) (d a b : Nat), (s.canIssue i = true) → (d < 64) → (a < 64) → (b < 64) → (i.t < s.G) → (exec (.satOp i (.add d a b)) s = .next ((s.startIssue i).eachTile i (fun s p => s.result p i.t 1 d (satWord (s.gri p a + s.gri p b)) 0)))) ∧
  (∀ (s : State) (i : Issue) (d a b n : Nat), (s.canIssue i = true) → (d < 64) → (a < 64) → (b < 64) → (2 * n < 64) → (i.t < s.G) → (exec (.mul i d a b n) s = .next ((s.startIssue i).eachTile i (fun s p => s.result p i.t 3 d (satWord (scaleR (s.gri p a * s.gri p b) (-(n : Int)))) 0)))) ∧
  (∀ (s : State) (i : Issue) (x a b : Nat), (s.canIssue i = true) → (a < 64) → (b < 64) → (x < 4) → (i.t < s.G) → (exec (.mac i x a b) s = .next ((s.startIssue i).eachTile i (fun s p => s.pend p (i.t + 3) (.acc x) [accBits (s.accNow p x + s.gri p a * s.gri p b)])))) ∧
  (∀ (s : State) (i : Issue) (d x n : Nat), (s.canIssue i = true) → (d < 64) → (x < 4) → (n < 64) → (i.t < s.G) → (exec (.accrd i d x n) s = .next ((s.startIssue i).eachTile i (fun s p => s.result p i.t 2 d (satWord (scaleR ((s.tile p).acc.getD x 0).toInt (-(n : Int)))) 0)))) ∧
  (∀ (s : State) (i : Issue) (d a b n : Nat), (s.canIssue i = true) → (d < 64) → (a < 64) → (b < 64) → (2 * n < 64) → ((s.tile (s.physTile i.tile)).divFree ≤ i.t) → (i.t < s.G) → (exec (.div i d a b n) s = .next ((s.startIssue i).eachTile i (fun s p => (s.useDiv p i.t).result p i.t 18 d (divVal (s.gri p a) (s.gri p b) n).1 (divVal (s.gri p a) (s.gri p b) n).2)))) ∧
  (∀ (s : State) (i : Issue) (d a n : Nat), (s.canIssue i = true) → (d < 64) → (a < 64) → (2 * n < 64) → ((s.tile (s.physTile i.tile)).divFree ≤ i.t) → (i.t < s.G) → (exec (.sqrt i d a n) s = .next ((s.startIssue i).eachTile i (fun s p => (s.useDiv p i.t).result p i.t 18 d (sqrtVal (s.gri p a) n) 0)))) ∧
  (∀ (a : Int) (n : Nat), (divVal a 0 n = ((if 0 < a then 2 ^ 31 - 1 else if a < 0 then 2 ^ 31 else 0, false), tsrDivz))) ∧
  (∀ (s : State) (i : Issue) (d : Nat) (v : Word), (s.canIssue i = true) → (64 ≤ d) → (exec (.aluOp i (.imm d v)) s = .fault (.outsideContract 0x3108))) ∧
  (∀ (s : State) (i : Issue) (o : AluOp), (s.canIssue i = false) → (exec (.aluOp i o) s = .next s)) ∧
  (∀ (s : State) (p : Nat), (s.gr p 0 = 0))

/-- Control flow, the digest and the frame-complete marker (rests on R70, R73, R74, R76, R92, R93). A branch whose condition
holds sets its target with one bundle to follow; LOOPN stacks a loop; WAIT idles the tile for n cycles; ENDF ends it for
the frame; DABS and DSEAL travel the mesh to the digest; the seal completes; FCM of T0 posts the marker two cycles after
issue, seals the retentive record and marks the partner; one posted in the guard band counts as late. A tile that is
shadowed sends its state to the comparison when it ends. -/
def Obligations.TileControlFlow : Prop :=
  (∀ (s : State) (i : Issue) (c t : Nat), (s.canIssue i = true) → (c < 64) → (t < 4096) → (i.t < s.G) → (exec (.br i c t) s = .next ((s.startIssue i).eachTile i (fun s p => if Config.truth (s.gr p c) then s.updTile p (fun x => { x with branch := some (t, 1) }) else s)))) ∧
  (∀ (s : State) (i : Issue) (n a b : Nat), (s.canIssue i = true) → (b < 4096) → (a < b) → (1 ≤ n) → ((s.tile (s.physTile i.tile)).loops.length < 4) → (i.t < s.G) → (exec (.loopn i n a b) s = .next ((s.startIssue i).eachTile i (fun s p => s.updTile p (fun x => { x with loops := { first := a, last := b, left := n } :: x.loops }))))) ∧
  (∀ (s : State) (i : Issue) (n : Nat), (s.canIssue i = true) → (1 ≤ n) → (n ≤ 65536) → (i.t < s.G) → (exec (.wait i n) s = .next ((s.startIssue i).eachTile i (fun s p => s.updTile p (fun x => { x with idle := i.t + n }))))) ∧
  (∀ (s : State) (i : Issue), (s.canIssue i = true) → (i.t < s.G) → (∃ u, u = (s.startIssue i).eachTile i (fun s p => s.updTile p (fun x => { x with ended := some (i.t + 1) })) ∧ exec (.endf i) s = .next (if (u.shadowsOf i.tile).isEmpty then u else u.bus (i.t + 1) false (.shadowHash i.tile)))) ∧
  (∀ (s : State) (i : Issue) (m : Mesh) (addr : Nat) (e : Ecc), (s.canIssue i = true) → (hops (s.routerOf i.tile) (attachAt attachExch) ≤ m.d) → (m.w ≤ 15) → (m.d ≤ 10) → (addr + 32 ≤ 0x20000) → (meshAt m i.t < s.G) → (exec (.dabs i m addr e) s = .next (((s.startIssue i).source i (.sram addr) 32 e).1.bus (meshAt m i.t) false (.absorb i.tile addr ((s.startIssue i).source i (.sram addr) 32 e).2)))) ∧
  (∀ (s : State) (i : Issue) (m : Mesh), (s.canIssue i = true) → (i.tile = 0) → (hops (s.routerOf i.tile) (attachAt attachExch) ≤ m.d) → (m.w ≤ 15) → (m.d ≤ 10) → (s.sealing = false) → (s.digestLate (meshAt m i.t) = false) → (meshAt m i.t + 256 < s.G) → (exec (.dseal i m) s = .next ((s.startIssue i).bus (meshAt m i.t) false .seal))) ∧
  (∀ (s u : State) (i : Issue), (s.canIssue i = true) → (i.tile = 0) → ((s.settleThrough i.t).lat.sealed.isSome = true) → (s.lat.marker = false) → ((s.settle (i.t + 2)).workLeft (i.t + 2) = false) → ((s.startIssue i).tb.lastTick + (i.t + 2) / 8 < (s.startIssue i).nextTick) → (u = ((s.startIssue i).toCycle (i.t + 2)).settle (i.t + 2)) → (u.lat.suppress = false) → (i.t + 2 < u.G) → (exec (.fcm i) s = .next ({ u with lat := { u.lat with marker := true, markerLate := false } }.sealRecord.emit .partner .mark [u.tb.frameNo]))) ∧
  (∀ (s u : State) (i : Issue), (s.canIssue i = true) → (i.tile = 0) → ((s.settleThrough i.t).lat.sealed.isSome = true) → (s.lat.marker = false) → ((s.settle (i.t + 2)).workLeft (i.t + 2) = false) → ((s.startIssue i).tb.lastTick + (i.t + 2) / 8 < (s.startIssue i).nextTick) → (u = ((s.startIssue i).toCycle (i.t + 2)).settle (i.t + 2)) → (u.lat.suppress = false) → (u.G ≤ i.t + 2) → (exec (.fcm i) s = .next (((({ u with lat := { u.lat with marker := true, markerLate := true } }.wr R.SS_EVENTS_LATE 1).inc R.SS_LATE).sealRecord).emit .partner .mark [u.tb.frameNo]))) ∧
  (∀ (s : State), (exec .digestSealComplete s = .next ((s.runBusTo (fun a => match a with | .seal => true | _ => false)).runBusTo (fun a => match a with | .sealed _ => true | _ => false))))

/-- Local memory, the receive buffer and the mesh (rests on R70, R72, R78, R80). Inside its limits a local load or RECV of 4,
8, 16 or 32 bytes (a DEDUCED choice, log entry 29) delivers its words two cycles after issue with its ECC event, a local
store is seen by a load one cycle later, and SLD, SST and SEND travel the mesh by W, D and the cycle formulas of R80; what
a store, SEND or DABS takes from a data operand is what the tile holds where no ECC event meets the read, and the
responses and deliveries arrive at their cycles. Data SRAM beyond 0x20000 is a fault with code 0x3107. -/
def Obligations.TileMemoryAndMesh : Prop :=
  (∀ (s : State) (i : Issue) (d addr n : Nat) (e : Ecc), (s.canIssue i = true) → (addr + n ≤ 0x20000) → ([4, 8, 16, 32].contains n = true) → (n ≤ 32) → (d + (n + 3) / 4 ≤ 64) → (i.t < s.G) → (exec (.lld i d addr n e) s = .next ((s.startIssue i).eachTile i (fun s p => s.localRead i p (Config.sramBase p + addr) n (.g d) e)))) ∧
  (∀ (s : State) (i : Issue) (src addr n : Nat), (s.canIssue i = true) → (addr + n ≤ 0x20000) → ([4, 8, 16, 32].contains n = true) → (n ≤ 32) → (src + (n + 3) / 4 ≤ 64) → (i.t < s.G) → (exec (.lst i src addr n) s = .next ((s.startIssue i).eachTile i (fun s p => s.pend p (i.t + 1) (.sram addr) (wordsOf (s.locBytes p (.g src) n)))))) ∧
  (∀ (s : State) (i : Issue) (src addr n : Nat), (s.canIssue i = true) → (0x20000 < addr + n) → (exec (.lst i src addr n) s = .fault (.outsideContract 0x3107))) ∧
  (∀ (s : State) (i : Issue) (k off n : Nat) (dst : Loc) (e : Ecc), (s.canIssue i = true) → ([4, 8, 16, 32].contains n = true) → (off + n ≤ 32) → ((locOk dst n).2 = true) → (k < 16) → (i.t < s.G) → (exec (.recv i k off n dst e) s = .next ((s.startIssue i).eachTile i (fun s p => s.localRead i p (Config.rxBase p + 32 * k + off) n dst e)))) ∧
  (∀ (s : State) (i : Issue) (m : Mesh) (addr size : Nat) (dst : Loc) (e : Ecc), (s.canIssue i = true) → (hops (s.routerOf i.tile) (attachAt ((s.target addr).getD 0)) ≤ m.d) → (m.w ≤ 15) → (m.d ≤ 10) → ((locOk dst size).2 = true) → (s.accessOk addr size false = true) → ((s.clearOfCalls (meshAt m i.t) addr size).2 = true) → (i.t + m.w + 4 * m.d + 6 < s.G) → (exec (.sld i m addr size dst e) s = .next ((s.startIssue i).bus (meshAt m i.t) false (.load i.tile addr size dst (i.t + m.w + 4 * m.d + 6) e)))) ∧
  (∀ (s : State) (i : Issue) (m : Mesh) (addr size : Nat) (src : Loc) (e : Ecc), (s.canIssue i = true) → (hops (s.routerOf i.tile) (attachAt ((s.target addr).getD 0)) ≤ m.d) → (m.w ≤ 15) → (m.d ≤ 10) → ((locOk src size).2 = true) → (s.accessOk addr size true = true) → ((s.clearOfCalls (meshAt m i.t) addr size).2 = true) → (meshAt m i.t < s.G) → (exec (.sst i m addr size src e) s = .next (((s.startIssue i).source i src size e).1.bus (meshAt m i.t) true (.store 0 addr ((s.startIssue i).source i src size e).2)))) ∧
  (∀ (s : State) (i : Issue) (m : Mesh) (dest n : Nat) (src : Loc) (e : Ecc), (s.canIssue i = true) → (hops (s.routerOf i.tile) (s.routerOf dest) ≤ m.d) → (m.w ≤ 15) → (m.d ≤ 10) → (dest < 32) → ((locOk src 32).2 = true) → (n < 16) → (meshAt m i.t < s.G) → (exec (.send i m dest n src e) s = .next (((s.startIssue i).source i src 32 e).1.bus (meshAt m i.t - 1) true (.send dest n ((s.startIssue i).source i src 32 e).2)))) ∧
  (∀ (s : State) (i : Issue) (l : Loc) (n : Nat), (s.source i l n .clean = (s, s.locBytes (s.physTile i.tile) l n))) ∧
  (∀ (s : State), (exec .sendDelivery s = .next (s.runBusTo (fun a => match a with | .send _ _ _ => true | _ => false)))) ∧
  (∀ (s : State) (t l : Nat) (dst : Loc) (data : Bytes) (e : Ecc) (rest : List BusEv), (s.lat.bus = ⟨2 * t, .respond l dst data e⟩ :: rest) → (exec .sharedLoadResponse s = .next ((s.toCycle t).settleThrough t)))

/-- Rings and the asynchronous side of the banks (rests on R21, R22, R30, R84, R85, R86, R87, R144, R349). RPOLL takes the
entries whose enqueue completed before its cycle, at most four, and delivers a count word and the entries eight cycles
later; RENQ stores an entry or reports a full ring; an enqueue by the management core stands in the ring, is gated in an
ACTIVE unit and mirrored, is discarded in any other, and is refused by a full ring; an asynchronous access that meets the
timetabled side is retried and counted; a port-B write reaches the banks once the timetabled side leaves its words alone,
each retry counted; the retentive region refuses it in RUN and takes it through to MRAM in STOP. -/
def Obligations.RingsAndPortB : Prop :=
  (∀ (s : State) (i : Issue) (q addr : Nat) (got : List RingEntry), (s.canIssue i = true) → (q < 128) → (0 < (s.ring q).depth) → ((s.ring q).dir = 0) → ((s.ring q).owner = i.tile) → ((s.ring q).busy ≤ s.absCycle i.t) → ((s.lat.rings.filter (fun x => decide (s.absCycle i.t < x.busy))).length < 4) → (addr + 260 ≤ 0x20000) → (i.t + 7 < s.G) → (got = (((s.startIssue i).ring q).entries.takeWhile (fun e => decide (e.at_ < (s.startIssue i).absCycle i.t))).take 4) → (exec (.rpoll i q addr) s = .next (((s.startIssue i).updRing q (fun r => { r with entries := r.entries.drop got.length, busy := (s.startIssue i).absCycle i.t + 8 })).deliver i.tile (i.t + 8) (.sram addr) (leBytes 4 got.length ++ got.flatMap (·.data))))) ∧
  (∀ (s u : State) (i : Issue) (q addr d : Nat) (e : Ecc) (b : Bytes), (s.canIssue i = true) → (q < 128) → (0 < (s.ring q).depth) → ((s.ring q).dir = 1) → ((s.ring q).owner = i.tile) → ((s.ring q).busy ≤ s.absCycle i.t) → ((s.lat.rings.filter (fun x => decide (s.absCycle i.t < x.busy))).length < 4) → (addr + 64 ≤ 0x20000) → (d < 64) → (i.t + 3 < s.G) → (u = ((s.startIssue i).source i (.sram addr) 64 e).1) → (b = ((s.startIssue i).source i (.sram addr) 64 e).2) → ((u.ring q).entries.length < (u.ring q).depth) → (exec (.renq i q addr d e) s = .next ((u.updRing q (fun r => { r with entries := r.entries ++ [{ at_ := (s.startIssue i).absCycle i.t + 4, data := b }], busy := (s.startIssue i).absCycle i.t + 4 })).deliver i.tile (i.t + 4) (.g d) (leBytes 4 0)))) ∧
  (∀ (s u : State) (i : Issue) (q addr d : Nat) (e : Ecc) (b : Bytes), (s.canIssue i = true) → (q < 128) → (0 < (s.ring q).depth) → ((s.ring q).dir = 1) → ((s.ring q).owner = i.tile) → ((s.ring q).busy ≤ s.absCycle i.t) → ((s.lat.rings.filter (fun x => decide (s.absCycle i.t < x.busy))).length < 4) → (addr + 64 ≤ 0x20000) → (d < 64) → (i.t + 3 < s.G) → (u = ((s.startIssue i).source i (.sram addr) 64 e).1) → (b = ((s.startIssue i).source i (.sram addr) 64 e).2) → ((u.ring q).depth ≤ (u.ring q).entries.length) → (exec (.renq i q addr d e) s = .next (((u.updRing q (fun r => { r with overflow := r.overflow + 1, busy := (s.startIssue i).absCycle i.t + 4 })).deliver i.tile (i.t + 4) (.g d) (leBytes 4 1)).eachTile i (fun s p => s.flag p (i.t + 4) tsrRingfull)))) ∧
  (∀ (s : State) (q : Nat) (entry : Bytes), (q < 128) → (0 < (s.ring q).depth) → ((s.ring q).dir = 0) → (s.role = .solo) → ((s.ring q).entries.length < (s.ring q).depth) → ((s.ring q).busy ≤ s.absNow) → (exec (.mgmtRingEnqueue q entry) s = .next ((s.retries 0).updRing q (fun r => { r with entries := r.entries ++ [{ at_ := s.absNow, data := pad64 entry }] })))) ∧
  (∀ (s : State) (q : Nat) (entry : Bytes), (q < 128) → (0 < (s.ring q).depth) → ((s.ring q).dir = 0) → (s.role = .standby) → ((s.ring q).busy ≤ s.absNow) → (exec (.mgmtRingEnqueue q entry) s = .next ((s.retries 0).inc R.PA_RING_DROP))) ∧
  (∀ (s : State) (q : Nat) (entry : Bytes), (q < 128) → (0 < (s.ring q).depth) → ((s.ring q).dir = 0) → (s.role = .solo) → ((s.ring q).depth ≤ (s.ring q).entries.length) → ((s.ring q).busy ≤ s.absNow) → (exec (.mgmtRingEnqueue q entry) s = .next (s.retries 0))) ∧
  (∀ (s : State), (exec (.asyncAccessRetry false) s = .next (s.retries 1) ∧ exec (.asyncAccessRetry true) s = .next ((s.retries 1).inc R.SE_MBOX_RETRIES))) ∧
  (∀ (s : State) (addr : Nat) (data : Bytes) (sub : Nat), (addr + data.length ≤ Config.bankEnd) → (data ≠ []) → (s.inRun = false) → (s.inRetentive addr data.length = false) → (exec (.portbBankWrite addr data sub) s = .next (s.setBytes addr data))) ∧
  (∀ (s u : State) (addr : Nat) (data : Bytes) (sub : Nat), (addr + data.length ≤ Config.bankEnd) → (data ≠ []) → (s.inRun = true) → (u = s.serve (wordsAt addr data.length) sub) → (u.inRetentive addr data.length = false) → (exec (.portbBankWrite addr data sub) s = .next (u.setBytes addr data))) ∧
  (∀ (s u : State) (addr : Nat) (data : Bytes) (sub : Nat), (addr + data.length ≤ Config.bankEnd) → (data ≠ []) → (s.inRun = true) → (u = s.serve (wordsAt addr data.length) sub) → (u.inRetentive addr data.length = true) → (u.inRun = true) → (exec (.portbBankWrite addr data sub) s = .next (u.wr R.TT_RET_STATUS_PORTB_REFUSED 1))) ∧
  (∀ (s : State) (addr : Nat) (data : Bytes) (sub : Nat), (Config.bankEnd < addr + data.length) → (exec (.portbBankWrite addr data sub) s = .next s)) ∧
  (∀ (s : State) (ws : List Nat) (sub : Nat), (s.inRun = true) → (s.serve ws sub = (s.settle (8 * (s.tb.frc - s.tb.lastTick) + sub % 8 + s.retriesAt ws (s.lat.bus.length + 400) (8 * (s.tb.frc - s.tb.lastTick) + sub % 8))).retries (s.retriesAt ws (s.lat.bus.length + 400) (8 * (s.tb.frc - s.tb.lastTick) + sub % 8))))

/-- Engine calls and transfers (rests on R88, R90, R116, R154, R254, R256). An ECALL that passes its checks, and meets no call
in progress of its engine or with an overlapping region, puts a call under way from its delivery cycle to that cycle plus
its latency; a completion settles all that is due by that cycle, and with no call of the engine under way it changes
nothing; the call's beginning sets the busy bit, its end takes it out of the calls in progress; an XSTART puts its
descriptor under way until eight cycles and one per granule after its delivery; with no transfer under way a completion
changes nothing; an input transfer completes at its cycle. -/
def Obligations.EngineCallsAndTransfers : Prop :=
  (∀ (s : State) (i : Issue) (m : Mesh) (desc : Nat) (bad : List (Nat × Nat)) (cor : Nat) (mis : Bool), (s.canIssue i = true) → (hops (s.routerOf i.tile) (attachAt attachLoop) ≤ m.d) → (m.w ≤ 15) → (m.d ≤ 10) → (s.callOk .loop desc = true) → ((s.callsDuring (meshAt m i.t) (meshAt m i.t + s.callLatency .loop desc)).all (fun x => x.engine != .loop && !regionsClash (s.callRegion .loop desc) (s.callRegion x.engine x.desc)) = true) → (meshAt m i.t + s.callLatency .loop desc < s.G) → (exec (.ecall i m .loop desc bad cor mis) s = .next ((s.startIssue i).startCall { engine := .loop, desc, start := meshAt m i.t, done := meshAt m i.t + s.callLatency .loop desc, bad, cor, mis, samples := [], seen := [], hash := [], blocks := [], tally := [] }))) ∧
  (∀ (s : State) (i : Issue) (m : Mesh) (u desc : Nat) (bad : List (Nat × Nat)) (cor : Nat) (mis : Bool), (s.canIssue i = true) → (hops (s.routerOf i.tile) (attachAt attachSolver) ≤ m.d) → (m.w ≤ 15) → (m.d ≤ 10) → (u < 8) → (s.callOk (.solver u) desc = true) → ((s.callsDuring (meshAt m i.t) (meshAt m i.t + s.callLatency (.solver u) desc)).all (fun x => x.engine != (.solver u) && !regionsClash (s.callRegion (.solver u) desc) (s.callRegion x.engine x.desc)) = true) → (meshAt m i.t + s.callLatency (.solver u) desc < s.G) → (exec (.ecall i m (.solver u) desc bad cor mis) s = .next ((s.startIssue i).startCall { engine := .solver u, desc, start := meshAt m i.t, done := meshAt m i.t + s.callLatency (.solver u) desc, bad, cor, mis, samples := [], seen := [], hash := [], blocks := [], tally := [] }))) ∧
  (∀ (s : State) (e : Engine), (s.lat.calls.find? (fun x => x.engine == e) = none) → (exec (.engineCallComplete e) s = .next s)) ∧
  (∀ (s : State) (e : Engine) (c : Call), (s.lat.calls.find? (fun x => x.engine == e) = some c) → (exec (.engineCallComplete e) s = .next ((s.toCycle c.done).settle c.done))) ∧
  (∀ (s : State) (c : Nat) (e : Engine) (start : Nat) (x : Call), (s.callAt e start = some x) → (s.busAct c (.begin e) = s.setBusy e true ∧ s.busAct c (.finish e start) = s.callFinish x ∧ (s.callFinish x).lat.calls = s.lat.calls.filter (fun y => !(y.engine == x.engine && y.start == x.start)))) ∧
  (∀ (s : State) (i : Issue) (m : Mesh) (g a : Nat) (ecc : List (Nat × Ecc)), (s.canIssue i = true) → (hops (s.routerOf i.tile) (attachAt attachXfer) ≤ m.d) → (m.w ≤ 15) → (m.d ≤ 10) → (g < 12) → (a % 32 = 0) → (a + 32 * xGranules (.fgOut g a) ≤ Config.bankEnd) → (s.lat.xfers.all (fun y => decide (y.done ≤ meshAt m i.t) || decide (meshAt m i.t + 8 + xGranules (.fgOut g a) ≤ y.start)) = true) → (s.xPhase (.fgOut g a) (meshAt m i.t) (meshAt m i.t + 8 + xGranules (.fgOut g a)) = true) → (meshAt m i.t + 8 + xGranules (.fgOut g a) < s.G) → (exec (.xstart i m (.fgOut g a) ecc) s = .next { (s.startIssue i).startOutput (.fgOut g a) (meshAt m i.t) ecc with lat := { ((s.startIssue i).startOutput (.fgOut g a) (meshAt m i.t) ecc).lat with xfers := ((s.startIssue i).startOutput (.fgOut g a) (meshAt m i.t) ecc).lat.xfers ++ [{ desc := .fgOut g a, start := meshAt m i.t, done := meshAt m i.t + 8 + xGranules (.fgOut g a), data := [] }] } })) ∧
  (∀ (s : State) (i : Issue) (m : Mesh) (a : Nat) (ecc : List (Nat × Ecc)), (s.canIssue i = true) → (hops (s.routerOf i.tile) (attachAt attachXfer) ≤ m.d) → (m.w ≤ 15) → (m.d ≤ 10) → (a % 32 = 0) → (a + 32 * xGranules (.dioIn a) ≤ Config.bankEnd) → (s.lat.xfers.all (fun y => decide (y.done ≤ meshAt m i.t) || decide (meshAt m i.t + 8 + xGranules (.dioIn a) ≤ y.start)) = true) → (s.xPhase (.dioIn a) (meshAt m i.t) (meshAt m i.t + 8 + xGranules (.dioIn a)) = true) → (meshAt m i.t + 8 + xGranules (.dioIn a) < s.G) → (exec (.xstart i m (.dioIn a) ecc) s = .next { (s.startIssue i).startInput (.dioIn a) (meshAt m i.t) with lat := { ((s.startIssue i).startInput (.dioIn a) (meshAt m i.t)).lat with xfers := ((s.startIssue i).startInput (.dioIn a) (meshAt m i.t)).lat.xfers ++ [{ desc := .dioIn a, start := meshAt m i.t, done := meshAt m i.t + 8 + xGranules (.dioIn a), data := [] }] } })) ∧
  (∀ (s : State) (ok : Bool), (s.lat.xfers = []) → (exec (.transferComplete ok) s = .next s)) ∧
  (∀ (s : State) (ok : Bool) (x y : Xfer) (l l2 : List Xfer) (g a : Nat), (s.lat.xfers = x :: l) → (((s.toCycle x.done).settle x.done).lat.xfers = y :: l2) → (y.desc = .fgIn g a) → (exec (.transferComplete ok) s = .next { (s.toCycle x.done).settle x.done with lat := { ((s.toCycle x.done).settle x.done).lat with xfers := l2 } }))

/-- The retentive copy (rests on R142, R143, R144, R152). A sealed record of an earlier frame becomes durable: TT_RET_FRAME
names its frame; a durable record with its commit marker and a good CRC-32 is folded into the MRAM copy, one without its
marker is only dropped; writes taken through port B reach the copy; CLEAR in STOP with the lock open erases the copy and
nothing else of memory, and otherwise changes nothing. -/
def Obligations.RetentiveRecords : Prop :=
  (∀ (s : State) (r : RetRecord) (rs : List RetRecord), (s.tt.sealedRecs = r :: rs) → (r.frame < s.tb.frameNo) → (exec .retentiveRecordCommit s = .next s.commitRecord)) ∧
  (∀ (s : State), (s.tt.sealedRecs = []) → (exec .retentiveRecordCommit s = .next s)) ∧
  (∀ (s : State) (r : RetRecord) (rs : List RetRecord), (s.tt.journal = r :: rs) → (r.marker = true) → (r.crc = Config.crc32 r.body) → (exec .retentiveFold s = .next { s.mramPut r.granules with tt := { (s.mramPut r.granules).tt with journal := rs } }.retBusy)) ∧
  (∀ (s : State) (r : RetRecord) (rs : List RetRecord), (s.tt.journal = r :: rs) → (r.marker = false) → (exec .retentiveFold s = .next { s with tt := { s.tt with journal := rs } }.retBusy)) ∧
  (∀ (s : State), (exec .retentiveWriteThrough s = .next { s.mramPut s.tt.throughPending with tt := { (s.mramPut s.tt.throughPending).tt with throughPending := [] } })) ∧
  (∀ (s : State), (s.unit = .stop) → (s.lockOpen = true) → (exec .ttRetClear s = .next s.retClear)) ∧
  (∀ (s : State), (s.lockOpen = false) → (exec .ttRetClear s = .next s))

/-- The frame tick and the run state (rests on R34, R48, R50, R52, R145, R146, R148, R149, R483). A frame tick takes place in
STOP, RUN and HALT and in no other state: the frame number advances at the tick; START with every check passed is taken
and RUN_ENTRY enters RUN at the next tick; each refusal reason of R146 is set in REFUSE; STOP in RUN orders a stop for the
next boundary, at which it takes effect. -/
def Obligations.FrameTickAndRunState : Prop :=
  (∀ (s : State), (s.unit = .stop ∨ s.unit = .run ∨ s.unit = .halt) → (s.sup.pfwAt = none) → (exec .frameTick s = .next (s.frameTickAt s.nextTick none))) ∧
  (∀ (s : State), (s.unit ≠ .stop) → (s.unit ≠ .run) → (s.unit ≠ .halt) → (exec .frameTick s = .next s)) ∧
  (∀ (s : State) (kind : Nat), (s.lockOpen = false) → (s.startReason (startKind (s.rd R.TT_RUN_CTRL_KIND)) = 0) → (s.tt.starting = none) → (exec (.ttRunStart kind) s = .next { s.wr R.TT_RUN_STATUS_REFUSE 0 with tt := { s.tt with starting := some (startKind (s.rd R.TT_RUN_CTRL_KIND)) } })) ∧
  (∀ (s : State) (kind : Nat), (s.lockOpen = false) → (s.unit = .run) → (s.tt.starting = none) → (exec (.ttRunStart kind) s = .next (s.startRefuse 1 0x0301))) ∧
  (∀ (s : State) (kind : Nat), (s.lockOpen = false) → (s.unit = .stop) → (s.tt.slot0 = none) → (s.tt.base = none) → (s.tt.starting = none) → (exec (.ttRunStart kind) s = .next (s.startRefuse 2 0x0302))) ∧
  (∀ (s : State) (kind : Nat), (s.lockOpen = false) → (s.startReason (startKind (s.rd R.TT_RUN_CTRL_KIND)) = 0) → (s.tt.starting.isSome = true) → (exec (.ttRunStart kind) s = .next s)) ∧
  (∀ (s : State), (s.tt.starting = none) → (exec .runEntry s = .next s)) ∧
  (∀ (s : State) (b : Image) (kind : Nat), (s.tt.starting = some kind) → (s.unit = .stop) → (s.sup.pfwAt = none) → (s.bit R.TT_ADMITTED_VALID = true) → (s.tt.base = some b) → (s.startReason kind = 0) → (s.pair.joining = false) → (exec .runEntry s = .next (((s.loadStart b kind).frameTickAt s.entryTick (some kind)).wake opStart 0 0))) ∧
  (∀ (s : State), (s.unit = .run) → (s.tt.stopAt = none) → (exec .ttRunStop s = .next { s with tt := { s.tt with stopAt := some (s.tb.frameNo + 1), stopCmd := true } })) ∧
  (∀ (s : State), (s.unit ≠ .run) → (exec .ttRunStop s = .next s)) ∧
  (∀ (s : State) (f : Nat), (s.unit = .run) → (s.tt.stopAt = some f) → (exec .stopTakesEffect s = .next s.frameTick))

/-- Admission, placement check, relocation and shadow of a tile (rests on R94, R95, R96, R99, R100, R102, R110). An admission
starts in STOP and ends with its result; ABORT ends it with CODE 0xFFFF; a placement check of a move starts, ends with
PASS and CODE, and COMMIT after it orders the move, which the guard band carries out; a shadow on a spare starts in RUN
and is not a second time in the same frame; its comparison, where the states were equal and no suspicion stands, counts;
with no spare it is UNCOVERED. -/
def Obligations.AdmissionAndPlacement : Prop :=
  (∀ (s : State) (placement : Nat), (s.bit R.TT_ADM_STATUS_BUSY = false) → (s.unit = .stop) → (exec (.ttAdmStart 0 placement) s = .next { ((s.wr R.TT_ADM_CTRL_SLOT 0).wr R.TT_ADM_CTRL_PLACEMENT (placement % 2)).wr R.TT_ADM_STATUS_BUSY 1 with
      tt := { s.tt with admitting := some (0, placement % 2) } })) ∧
  (∀ (s : State) (k placement : Nat), (s.bit R.TT_ADM_STATUS_BUSY = false) → (k < 16) → (((s.wr R.TT_ADM_CTRL_SLOT (k + 1)).wr R.TT_ADM_CTRL_PLACEMENT (placement % 2)).bit R.TT_ADMITTED_VALID = true) → (exec (.ttAdmStart (k + 1) placement) s =
      .next { ((s.wr R.TT_ADM_CTRL_SLOT (k + 1)).wr R.TT_ADM_CTRL_PLACEMENT (placement % 2)).wr R.TT_ADM_STATUS_BUSY 1 with tt := { s.tt with admitting := some (k + 1, placement % 2) } })) ∧
  (∀ (s : State) (slot placement : Nat), (s.bit R.TT_ADM_STATUS_BUSY = true) → (exec (.ttAdmStart slot placement) s = .next s)) ∧
  (∀ (s : State) (x : Nat × Nat), (s.tt.admitting = some x) → (exec .ttAdmAbort s = .next (State.wake { (s.wr R.TT_ADM_STATUS_BUSY 0).wr R.TT_ADM_STATUS_CODE 0xFFFF with tt := { s.tt with admitting := none } } opAdmit 0 0xFFFF))) ∧
  (∀ (s : State), (s.tt.admitting = none) → (exec .ttAdmAbort s = .next s ∧ exec .admissionComplete s = .next s)) ∧
  (∀ (s : State) (slot placement : Nat), (s.tt.admitting = some (slot, placement)) → (exec .admissionComplete s = .next (s.admRun slot placement).admDone)) ∧
  (∀ (s : State) (logical target : Nat), (s.lockOpen = false) → (s.bit R.LT_RELOC_STATUS_BUSY = false) → (exec (.ltRelocCheck logical target) s = .next (s.relocCheck (s.rd R.LT_RELOC_LOGICAL) (s.rd R.LT_RELOC_TARGET)))) ∧
  (∀ (s : State) (l t : Nat), (s.lat.relocCheck = some (l, t)) → (s.placementCheck (s.placement.set l t) = none) → (s.acc.waiters = []) → (exec .placementCheckComplete s = .next { ((s.wr R.LT_RELOC_STATUS_BUSY 0).wr R.LT_RELOC_STATUS_PASS 1).wr R.LT_RELOC_STATUS_CODE 0 with
      lat := { s.lat with relocCheck := none, relocPassed := some (l, t) } })) ∧
  (∀ (s : State), (s.lat.relocPassed = some (s.rd R.LT_RELOC_LOGICAL, s.rd R.LT_RELOC_TARGET)) → (exec .ltRelocCommit s = .next s.relocCommit)) ∧
  (∀ (s : State), (s.lat.relocPassed = none) → (exec .ltRelocCommit s = .next s)) ∧
  (∀ (s u : State) (l t : Nat) (e : Ecc), (s.lat.relocOrder = some (l, t)) → (u = ((s.toCycle (s.G + 4096)).settle (s.G + 4096)).copyOut l t e) → (exec (.tileRelocation e) s = .next { u with lat := { u.lat with relocOrder := none, relocCopied := some (l, t) } })) ∧
  (∀ (s : State) (e : Ecc), (s.lat.relocOrder = none) → (exec (.tileRelocation e) s = .next s)) ∧
  (∀ (s u : State) (l p : Nat) (e : Ecc), (s.spareTiles.contains p = true) → (s.unit = .run) → (l < 32) → (s.lat.shadows.any (fun x => x.phys == p) = false) → (u = (((s.toCycle (s.G + 4096)).settle (s.G + 4096)).copyOut l p e).wr R.LT_SHADOW_STATUS_BUSY 1) → (exec (.tileShadow l p e) s = .next { u with lat := { u.lat with shadows := { phys := p, logical := l, frame := u.tb.frameNo + 1, same := none, compared := false } :: u.lat.shadows } })) ∧
  (∀ (s : State) (logical phys : Nat) (ecc : Ecc), (s.spareTiles = []) → (exec (.tileShadow logical phys ecc) s = .next (s.wr R.LT_SHADOW_STATUS_UNCOVERED 1))) ∧
  (∀ (s : State) (phys : Nat), (s.shadowAt phys = none) → (exec (.tileShadowCompare phys) s = .next s)) ∧
  (∀ (s u v : State) (phys : Nat) (x : Shadow), (s.unit = .run) → ((s.shadowAt phys).isSome = true) → (u = (s.toCycle s.G).settle s.G) → (u.shadowAt phys = some x) → (x.same = some true) → (x.compared = false) → (u.lat.shadowSuspect.find? (fun y => y.1 == x.logical && y.2 != phys) = none) → (v = { u with lat := { u.lat with shadows := u.lat.shadows.map (fun (y : Shadow) => if y.phys == phys then { y with compared := true } else y) } }) → (exec (.tileShadowCompare phys) s = .next ((v.inc R.LT_SHADOW_STATUS_COUNT).wr R.LT_SHADOW_STATUS_BUSY (if v.lat.shadows.all (·.compared) then 0 else 1))))

/-- Mode switches (rests on R118, R119, R120, R122, R124, R125). PREPARE of the NEXT word loses an earlier switch and enters
PREPARING, and while a switch is armed sets only REASON; the preparation ends PREPARED with its hash and delta, or refused
with a reason; ARM gives a prepared switch its earliest frame and its time; CANCEL drops a prepared or armed switch and
changes nothing otherwise; the delta writes run in order in the guard band before the switch. -/
def Obligations.ModeSwitches : Prop :=
  (∀ (s u : State), (s.rd R.TT_MODE_STATUS_STATE ≠ 3) → (s.rd R.TT_MODE_STATUS_STATE ≠ 4) → (u = (((s.loseSwitch).wr R.TT_MODE_NEXT_ACTIVE (s.rd R.TT_MODE_NEXT_ACTIVE)).wr R.TT_MODE_NEXT_MIRROR (s.rd R.TT_MODE_NEXT_MIRROR)).modeState 1 0) → (exec .ttModePrepare s = .next { u with tt := { u.tt with partnerHash := none } })) ∧
  (∀ (s : State), (s.rd R.TT_MODE_STATUS_STATE = 3) → (exec .ttModePrepare s = .next (s.wr R.TT_MODE_STATUS_REASON mrBusy))) ∧
  (∀ (s : State), (s.rd R.TT_MODE_STATUS_STATE = 1) → (s.tt.base = none) → (exec .modePrepareComplete s = .next (s.refusePrepare mrSlot))) ∧
  (∀ (s u : State) (b : Image) (delta : List DeltaWrite) (a m h : Nat), (s.rd R.TT_MODE_STATUS_STATE = 1) → (s.tt.base = some b) → (s.role = .solo) → (a = s.rd R.TT_MODE_NEXT_ACTIVE) → (m = s.rd R.TT_MODE_NEXT_MIRROR) → (delta = s.deltaFor b (s.rd R.TT_MODE_CUR_ACTIVE) a) → (s.prepareReason b a m delta = none) → (h = s.switchHash a m delta) → (u = { s with tt := { s.tt with switch := some { active := a, mirror := m, delta, hash := h, frame := none, at_ := 0, proposed := false, written := 0 } } }) → (exec .modePrepareComplete s = .next (((u.showHash h).wr R.TT_MODE_STATUS_DELTA ((delta.length + 3) / 4)).modeState 2 0).prepareDone)) ∧
  (∀ (s : State) (w : Switch) (k : Nat), (s.tt.switch = some w) → (s.armCheck (s.rd64 R.TT_MODE_AT_LO R.TT_MODE_AT_HI) = .inr (k + 1)) → (exec .ttModeArm s = .next (State.modeState { s with tt := { s.tt with switch := some { w with frame := some (s.tb.frameNo + s.armLeast), at_ := s.rd64 R.TT_MODE_AT_LO R.TT_MODE_AT_HI } } } 3 0))) ∧
  (∀ (s : State) (w : Switch), (s.tt.switch = some w) → (s.armCheck (s.rd64 R.TT_MODE_AT_LO R.TT_MODE_AT_HI) = .inr 0) → (exec .ttModeArm s = .next ((s.writeDelta w.delta).flip w).driveAll)) ∧
  (∀ (s : State), (s.rd R.TT_MODE_STATUS_STATE = 2 ∨ s.rd R.TT_MODE_STATUS_STATE = 3) → (exec .ttModeCancel s = .next (s.modeState 0 0).dropSwitch)) ∧
  (∀ (s : State), (s.rd R.TT_MODE_STATUS_STATE ≠ 2) → (s.rd R.TT_MODE_STATUS_STATE ≠ 3) → (exec .ttModeCancel s = .next s)) ∧
  (∀ (s : State) (w : Switch) (j : Nat), (s.switchDue = some w) → (s.unit = .run) → (j = w.written) → (j < 1024) → (exec (.modeDeltaWrites j) s = .next (((s.toCycle (s.G + 512 + j)).modeState 4 0).deltaStep { w with frame := some (s.tb.frameNo + 1) } j))) ∧
  (∀ (s : State) (j : Nat), (s.switchDue = none) → (exec (.modeDeltaWrites j) s = .next s))

/-- Loop window, state store window, bulk copies and solver relocation (rests on R176, R201, R202, R203, R204). A window read
delivers the word, with its retries counted; a write outside STOP, or outside the record range of the loop window, is
refused and changes no memory; a bulk copy starts once, can be stopped, and at its end has copied exactly its range, or
nothing where the range leaves the state store; a solver relocation takes effect at a tick. -/
def Obligations.EngineWindowsAndBulkCopies : Prop :=
  (∀ (s : State) (sub : Nat), (s.inRun = false) → (exec (.lpWinRead sub) s = .next { s with rdata := s.readWord s.lpWinAddr })) ∧
  (∀ (s : State) (sub n : Nat), (s.inRun = true) → (n = s.retriesAt [s.lpWinAddr] (s.lat.bus.length + 400) (8 * (s.tb.frc - s.tb.lastTick) + sub % 8)) → (exec (.lpWinRead sub) s = .next { (s.settle (8 * (s.tb.frc - s.tb.lastTick) + sub % 8 + n)).retries n with rdata := ((s.settle (8 * (s.tb.frc - s.tb.lastTick) + sub % 8 + n)).retries n).readWord s.lpWinAddr })) ∧
  (∀ (s : State) (v : Nat), (s.unit = .stop) → (s.lpWinAddr < 0x03020000) → (reservedByte s.lpWinAddr = true) → (exec (.lpWinWrite v) s = .next s)) ∧
  (∀ (s : State) (v : Nat), (s.unit = .stop) → (s.lpWinAddr < 0x03020000) → (reservedByte s.lpWinAddr = false) → (exec (.lpWinWrite v) s = .next (s.setWord s.lpWinAddr v))) ∧
  (∀ (s : State) (v : Nat), (s.unit ≠ .stop ∨ 0x03020000 ≤ s.lpWinAddr) → (exec (.lpWinWrite v) s = .next (s.wr R.LP_STATUS_WIN_WR_REFUSED 1))) ∧
  (∀ (s : State) (sub : Nat), (exec (.svWinRead sub) s = .next { s.serve [s.svWinAddr] sub with rdata := (s.serve [s.svWinAddr] sub).readWord s.svWinAddr })) ∧
  (∀ (s : State) (v : Nat), (s.unit = .stop) → (s.svWinAddr < 0x02800000) → (reservedByte s.svWinAddr = false) → (exec (.svWinWrite v) s = .next (s.setWord s.svWinAddr v))) ∧
  (∀ (s : State) (v : Nat), (s.unit ≠ .stop) → (exec (.svWinWrite v) s = .next (s.wr R.SV_STATUS_WIN_WR_REFUSED 1))) ∧
  (∀ (s : State), (s.bit R.SV_DMA_BUSY = false) → (exec .svDmaStart s = .next ((s.wr R.SV_DMA_BUSY 1).wr R.SV_DMA_RETRIES 0))) ∧
  (∀ (s : State), (s.bit R.SV_DMA_BUSY = true) → (exec .svDmaStart s = .next s)) ∧
  (∀ (s : State), (exec .svDmaAbort s = .next (s.wr R.SV_DMA_BUSY 0))) ∧
  (∀ (s : State) (n : Nat), (s.bit R.SV_DMA_BUSY = true) → (32 * s.rd R.SV_DMA_SRC + 32 * s.rd R.SV_DMA_LEN ≤ Config.storeEnd - Config.storeBase) → (exec (.svDmaComplete n none) s = .next
      (((((s.settleNow.wr R.SV_DMA_BUSY 0).wr R.SV_DMA_DONE 1).wr R.SV_DMA_RETRIES (min 65535 n)).retries n).copyMem (Config.storeBase + 32 * s.rd R.SV_DMA_SRC)
        (Config.dramBase + s.rd64 R.SV_DMA_DST_LO R.SV_DMA_DST_HI) (32 * s.rd R.SV_DMA_LEN)))) ∧
  (∀ (s : State) (n : Nat) (bad : Option Nat), (s.bit R.SV_DMA_BUSY = true) → (Config.storeEnd - Config.storeBase < 32 * s.rd R.SV_DMA_SRC + 32 * s.rd R.SV_DMA_LEN) → (exec (.svDmaComplete n bad) s = .next
      (((((s.settleNow.wr R.SV_DMA_BUSY 0).wr R.SV_DMA_DONE 1).wr R.SV_DMA_RETRIES (min 65535 n)).retries n).wr R.SV_DMA_ERR 1))) ∧
  (∀ (s : State), (exec .svRelocCommit s = .next (s.svRelocOrder (s.rd R.SV_RELOC_CTRL_LOGICAL) (s.rd R.SV_RELOC_CTRL_TARGET)))) ∧
  (∀ (s : State) (u p : Nat), (s.lat.svReloc = some (u, p)) → (exec .solverRelocation s = .next (s.toTick.svRelocFlip u p))) ∧
  (∀ (s v : State), (s.unit = .stop) → (s.rd R.SV_RELOC_CTRL_TARGET < 9) → (s.rd R.SV_PHYS_STATE (s.rd R.SV_RELOC_CTRL_TARGET) = 1) → (v = (((((s.wr R.SV_PHYS_STATE 2 (s.rd R.SV_MAP_PHYS (s.rd R.SV_RELOC_CTRL_LOGICAL))).wr R.SV_PHYS_LOGICAL 0 (s.rd R.SV_MAP_PHYS (s.rd R.SV_RELOC_CTRL_LOGICAL))).wr R.SV_PHYS_STATE 0 (s.rd R.SV_RELOC_CTRL_TARGET)).wr R.SV_PHYS_LOGICAL (s.rd R.SV_RELOC_CTRL_LOGICAL) (s.rd R.SV_RELOC_CTRL_TARGET)).wr R.SV_MAP_PHYS (s.rd R.SV_RELOC_CTRL_TARGET) (s.rd R.SV_RELOC_CTRL_LOGICAL)).wr R.SV_RELOC_STATUS_PENDING 0) → (exec .svRelocCommit s = .next ((State.hsUse { v.wr R.SV_RELOC_STATUS_DONE 1 with lat := { v.lat with svReloc := none } } 1).wake opRelocate 1 0))) ∧
  (∀ (s : State), (s.unit ≠ .stop) → (s.rd R.SV_RELOC_CTRL_TARGET < 9) → (s.rd R.SV_PHYS_STATE (s.rd R.SV_RELOC_CTRL_TARGET) = 1) → (exec .svRelocCommit s = .next { s.wr R.SV_RELOC_STATUS_PENDING 1 with lat := { s.lat with svReloc := some (s.rd R.SV_RELOC_CTRL_LOGICAL, s.rd R.SV_RELOC_CTRL_TARGET) } })) ∧
  (∀ (s : State), (9 ≤ s.rd R.SV_RELOC_CTRL_TARGET ∨ s.rd R.SV_PHYS_STATE (s.rd R.SV_RELOC_CTRL_TARGET) ≠ 1) → (exec .svRelocCommit s = .next (s.wr R.SV_RELOC_STATUS_REFUSED 1))) ∧
  (∀ (s : State), (s.lat.svReloc = none) → (exec .solverRelocation s = .next s))

/-- Conversion windows, control frames, fallback and supplies of the field groups (rests on R211, R227, R229, R230, R231,
R232, R515). The window of a channel in use closes at its end; a valid control frame counts and sets CROSS_OK, an invalid
one clears it and counts as an error; 100 invalid ones in a row bring fallback and 100 valid ones end it at a tick; a
failed supply and its return act on their group only; the loop power limit applies to every group. -/
def Obligations.FieldGroupCrossings : Prop :=
  (∀ (s : State) (ch e : Nat) (m : Meas), (ch < 96) → (s.chMode (ch / 8) (ch % 8) ≠ 0) → ((s.group (ch / 8)).supply = true) → (s.windowEnd ch = some e) → ((s.toFrc e).cjWaits ch = false) → (exec (.conversionWindowEnd ch m) s = .next (((s.toFrc e).closeWindow ch m).closeParked (ch / 8)))) ∧
  (∀ (s : State) (ch e : Nat) (m : Meas), (ch < 96) → (s.chMode (ch / 8) (ch % 8) ≠ 0) → ((s.group (ch / 8)).supply = true) → (s.windowEnd ch = some e) → ((s.toFrc e).cjWaits ch = true) → (exec (.conversionWindowEnd ch m) s = .next ((s.toFrc e).updChan ch (fun c => { c with parked := some m })))) ∧
  (∀ (s : State) (ch : Nat) (m : Meas), (ch < 96) → ((s.group (ch / 8)).supply = true) → (s.chMode (ch / 8) (ch % 8) = 0) → (exec (.conversionWindowEnd ch m) s = .next (if m.limit = true ∧ s.bit R.FG_STATUS_FALLBACK (ch / 8) = true ∧ s.driveMode (ch / 8) (ch % 8) = 9 then s.keepFlags (ch / 8) (ch % 8) 0x600 else s))) ∧
  (∀ (s : State) (ch : Nat) (m : Meas), (96 ≤ ch ∨ (s.group (ch / 8)).supply = false) → (exec (.conversionWindowEnd ch m) s = .next s)) ∧
  (∀ (s : State) (g : Nat), (g < 12) → ((s.group g).supply = true) → (exec (.fieldControlFrame g true) s = .next (s.upTo (max s.tb.frc (((s.group g).ctlAt.map (· + 1000)).getD 0)) (fun s =>
      ((((s.updGroup g (fun x => { x with ctlAt := some s.tb.frc })).updGroup g (fun x => { x with valid := x.valid + 1, invalid := 0 })).wr R.FG_STATUS_CROSS_OK 1 g).updGroupChans g Chan.arrive))))) ∧
  (∀ (s : State) (g : Nat), (g < 12) → ((s.group g).supply = true) → (exec (.fieldControlFrame g false) s = .next (s.upTo (max s.tb.frc (((s.group g).ctlAt.map (· + 1000)).getD 0)) (fun s =>
      (((((s.updGroup g (fun x => { x with ctlAt := some s.tb.frc })).updGroup g (fun x => { x with valid := 0, invalid := x.invalid + 1 })).wr R.FG_STATUS_CROSS_OK 0 g).inc
      R.FG_CROSS_ERR_COUNT g).updGroupChans g (fun c => { c with crossErr := true })))))) ∧
  (∀ (s : State) (g : Nat), (g < 12) → (100 ≤ (s.group g).invalid) → ((s.group g).supply = true) → (s.bit R.FG_STATUS_FALLBACK g = false) → (exec (.groupFallbackEntry g) s = .next ((s.updGroup g (fun x => { x with lost := true, order := false })).fallback g true))) ∧
  (∀ (s : State) (g : Nat), ((s.group g).invalid < 100) → (exec (.groupFallbackEntry g) s = .next s)) ∧
  (∀ (s : State) (g : Nat), (g < 12) → (s.bit R.FG_STATUS_FALLBACK g = true) → ((s.group g).supply = true) → (s.unit ≠ .boot) → ((s.group g).order = true ∨ 100 ≤ (s.group g).valid) → (exec (.groupResume g) s = .next (((s.toTick.updGroup g (fun x => { x with lost := false, order := false })).wr R.FG_STATUS_FALLBACK 0 g).driveChans))) ∧
  (∀ (s : State) (g : Nat), (s.bit R.FG_STATUS_FALLBACK g = false) → (exec (.groupResume g) s = .next s)) ∧
  (∀ (s : State), (exec .safeStateLineAssert s = .next (s.safeLine true))) ∧
  (∀ (s : State) (g : Nat), (g < 12) → (exec (.groupSupplyFail g) s = .next ((((s.updGroup g (fun x => { x with supply := false, valid := 0, invalid := 0, shadow := none })).wr R.FG_STATUS_CROSS_OK 0 g).driveChans).wake opSpare g 0x0C05))) ∧
  (∀ (s : State) (g : Nat), (g < 12) → ((s.group g).supply = false) → (exec (.groupSupplyReturn g) s = .next (((s.updGroup g (fun x => { x with supply := true })).updGroupChans g (fun c => { c with
      latched := none, ready := none, copyOk := false, held := none })).fallback g false))) ∧
  (∀ (s : State) (draw : List Nat) (at_ : Nat), (at_ = max s.sup.loopAt ((s.tb.frc + 99999) / 100000 * 100000)) → (s.ticking = false ∨ max s.tb.frc at_ < s.nextTick) → (((List.range 12).map (fun g => min (draw.getD g 0) ((s.toFrc at_).rd R.FG_POWER_LIMIT g))).sum < 38000) → ((s.toFrc at_).bit R.FG_STATUS_MODULE_LIMIT 0 = false) → (exec (.loopPowerSample draw) s = .next ((List.range 12).foldl (fun u g =>
      (((u.wr R.FG_POWER_DRAW (min (min (draw.getD g 0) ((s.toFrc at_).rd R.FG_POWER_LIMIT g)) 5000) g).wr R.FG_POWER_LIMIT 5000 g).wr R.FG_STATUS_MODULE_LIMIT 0 g).wr R.FG_STATUS_POWER_LIMIT (if 5000 ≤ draw.getD g 0 then 1 else 0) g)
      { s.toFrc at_ with sup := { (s.toFrc at_).sup with loopLow := some ((s.toFrc at_).sup.loopLow.getD (s.toFrc at_).tb.frc), loopAt := (s.toFrc at_).tb.frc + 100000 } }))) ∧
  (∀ (s : State) (draw : List Nat) (at_ : Nat), (at_ = max s.sup.loopAt ((s.tb.frc + 99999) / 100000 * 100000)) → (s.ticking = false ∨ max s.tb.frc at_ < s.nextTick) → (40000 < ((List.range 12).map (fun g => min (draw.getD g 0) ((s.toFrc at_).rd R.FG_POWER_LIMIT g))).sum) → (exec (.loopPowerSample draw) s = .next ((List.range 12).foldl (fun u g =>
      (((u.wr R.FG_POWER_DRAW (min (min (draw.getD g 0) ((s.toFrc at_).rd R.FG_POWER_LIMIT g)) 3330) g).wr R.FG_POWER_LIMIT 3330 g).wr R.FG_STATUS_MODULE_LIMIT 1 g).wr R.FG_STATUS_POWER_LIMIT (if 3330 ≤ draw.getD g 0 then 1 else 0) g)
      { s.toFrc at_ with sup := { (s.toFrc at_).sup with loopLow := none, loopAt := (s.toFrc at_).tb.frc + 100000 } })))

/-- Applies, spare converters and sticky flags of the field groups (rests on R118, R233, R236, R237, R239, R240, R487). An
apply of staged changes is submitted, cancelled or takes effect at a tick; a spare converter starts shadowing a terminal
or refuses with a reason, can be cancelled, and takes the terminal over when the shadow ends; a cross-check visit records
its deviation; ones written to CH_FLAGS clear sticky bits. -/
def Obligations.FieldGroupChanges : Prop :=
  (∀ (s : State) (g : Nat), (g < 12) → (exec (.fgApply g) s = .next (s.fgApply g) ∧ exec (.fgApplyCancel g) s = .next (s.fgCancel g))) ∧
  (∀ (s : State) (g : Nat), (12 ≤ g) → (exec (.fgApply g) s = .next s ∧ exec (.fgApplyCancel g) s = .next s)) ∧
  (∀ (s : State) (g : Nat), (s.bit R.FG_STATUS_APPLY_PENDING g = false) → (exec (.fgApplyTakesEffect g) s = .next s)) ∧
  (∀ (s : State) (g r t : Nat), (g < 12) → (s.bit R.FG_STATUS_APPLY_PENDING g = true) → (s.toTick.fgRefusal g = some (r, t)) → (exec (.fgApplyTakesEffect g) s = .next ((s.toTick.fgRefuse g r t).applyDone (fgBase g) (0x0510 + r) [t]))) ∧
  (∀ (s u v : State) (g : Nat), (g < 12) → (s.bit R.FG_STATUS_APPLY_PENDING g = true) → (s.toTick.fgRefusal g = none) → (u = (List.range 8).foldl (fun s t => s.applyTerminal g t) s.toTick) → (v = (((((u.wr R.FG_STATUS_APPLY_PENDING 0 g).wr R.FG_APPLY_STATUS_DONE 1 g).wr R.FG_APPLY_STATUS_REASON 0 g).rateAdapted).driveChans).applyDone (fgBase g) 0) → (exec (.fgApplyTakesEffect g) s = .next (if (List.range 8).any (fun t => s.toTick.changes g t chRows) then v.loseSwitch else v))) ∧
  (∀ (s : State) (g : Nat) (dev : Int) (off : Bool), (12 ≤ g) → (exec (.crossCheckVisit g dev off) s = .next s)) ∧
  (∀ (s : State) (g : Nat) (dev : Int), (g < 12) → (s.rd R.FG_SPARE_STATUS_STATE g = 0) → ((s.group g).supply = true) → (¬ s.rd R.FG_SPARE_STATUS_XCHK g < 8) → ((s.group g).visitAt + 100000000 ≤ s.tb.frc) → (exec (.crossCheckVisit g dev true) s = .next (((s.wr R.FG_STATUS_REF_DEV 1 g).wr R.FG_SPARE_STATUS_XCHK ((s.wr R.FG_STATUS_REF_DEV 1 g).nextVisit g (s.rd R.FG_SPARE_STATUS_XCHK g)) g).updGroup g (fun y => { y with visitAt := s.tb.frc })))) ∧
  (∀ (s : State) (g x : Nat) (dev : Int), (g < 12) → (s.rd R.FG_SPARE_STATUS_STATE g = 0) → ((s.group g).supply = true) → (s.rd R.FG_SPARE_STATUS_XCHK g = x) → (x < 8) → (s.chMode g x ≠ 0) → (dev.natAbs ≤ s.rd R.CH_DRIFT_LIM g x) → ((s.group g).visitAt + 100000000 ≤ s.tb.frc) → (exec (.crossCheckVisit g dev false) s = .next ((((s.wr R.CH_XCHK_DEV (ofInt 32 dev) g x).updChan (8 * g + x) (fun c => { c with devRuns := 0 })).wr R.FG_SPARE_STATUS_XCHK
      (((s.wr R.CH_XCHK_DEV (ofInt 32 dev) g x).updChan (8 * g + x) (fun c => { c with devRuns := 0 })).nextVisit g x) g).updGroup g (fun y => { y with visitAt := s.tb.frc })))) ∧
  (∀ (s : State) (g t c : Nat), (g < 12) → (t < 8) → (s.spareReason g t = 0) → (s.spareConv g = some c) → (exec (.fgSpareStart g t) s = .next ((((s.updGroup g (fun x => { x with shadow := some { terminal := t, conv := c, until_ := s.shadowEnd g t } })).wr
      R.FG_SPARE_STATUS_STATE 1 g).wr R.FG_SPARE_STATUS_TERMINAL t g).wr R.FG_SPARE_STATUS_REASON 0 g))) ∧
  (∀ (s : State) (g t : Nat), (g < 12) → (t < 8) → (s.chMode g t = 0) → (exec (.fgSpareStart g t) s = .next ((s.wr R.FG_SPARE_STATUS_REFUSED 1 g).wr R.FG_SPARE_STATUS_REASON 1 g))) ∧
  (∀ (s : State) (g : Nat), (exec (.fgSpareCancel g) s = .next (s.spareCancel g))) ∧
  (∀ (s : State) (g : Nat), ((s.group g).shadow = none) → (exec (.spareTakeover g) s = .next s)) ∧
  (∀ (s v w : State) (g : Nat) (sh : FgShadow), (g < 12) → ((s.group g).shadow = some sh) → (sh.until_ ≤ s.tickFrame) → (v = ((s.toTick.wr (convRow sh.terminal) sh.conv g).wr (convState sh.conv) 0 g).wr (convState (s.toTick.convOf g sh.terminal)) 2 g) → (w = ((v.wr R.FG_SPARE_STATUS_STATE 2 g).wr R.FG_SPARE_STATUS_TERMINAL sh.terminal g).wr R.FG_SPARE_STATUS_DONE 1 g) → (exec (.spareTakeover g) s = .next ((((w.wr R.FG_STATUS_EXHAUSTED (if (w.spareConv g).isNone then 1 else 0) g).updGroup g (fun x => { x with shadow := none })).hsUse 2).wake opSpare g 0))) ∧
  (∀ (s : State) (ch v : Nat), (ch < 96) → (bitOf v 9 = true) → (exec (.chFlagsWrite ch v) s = .next ((flagRows.foldl (fun s f => if bitOf v f.1 then s.wr f.2 0 (ch / 8) (ch % 8) else s) s).wr R.CH_SHORTFALL_MAX 0 (ch / 8) (ch % 8)))) ∧
  (∀ (s : State) (ch v : Nat), (ch < 96) → (bitOf v 9 = false) → (exec (.chFlagsWrite ch v) s = .next (flagRows.foldl (fun s f => if bitOf v f.1 then s.wr f.2 0 (ch / 8) (ch % 8) else s) s)))

/-- HART requests, frames and responses (rests on R241, R242, R243, R244, R246, R247). A due poll is queued once; a frame
starts from an idle modem with a free loop and puts its request in progress; a valid response completes the request and
counts, an error or a missing response is a failed try; a request that has waited more than 10 s is removed; a burst
message is counted and kept while BURST_RX is 1. -/
def Obligations.HartTransactions : Prop :=
  (∀ (s : State) (ch e : Nat) (p : HartPoll), ((s.hart ch).polls[e]? = some p) → (s.hartOn ch = true) → (p.last = none) → (((s.hart ch).queue ++ (s.hart ch).cur.toList).any (fun q => q.entry == some e) = false) → ((s.hart ch).queue.length < hartDepth) → (exec (.hartPollDue ch e) s = .next (s.updHart ch (fun h => { h with queue := h.queue ++ [{ session := 0, tag := 0, entry := some e, address := p.address, command := p.command, data := [], queued := s.tb.frc }] })))) ∧
  (∀ (s : State) (ch e : Nat), ((s.hart ch).polls[e]? = none) → (exec (.hartPollDue ch e) s = .next s)) ∧
  (∀ (s : State) (ch : Nat) (q : HartReq), (s.hartOn ch = true) → (s.rd R.HART_STATUS_STATE (ch / 8) (ch % 8) = 0) → (s.hartHeld ch = false) → (s.bit R.FG_STATUS_FALLBACK (ch / 8) = false) → ((s.hart ch).cur = none) → (hartNext (s.hart ch).queue = some q) → (q.entry = none) → (s.bit R.HART_CFG_SYNC (ch / 8) (ch % 8) = false) → (exec (.hartFrameStart ch true) s = .next (((((s.updHart ch (fun h => { h with queue := h.queue.filter (fun x => x != q), cur := some q, tries := 0, txEnd := some (s.tb.frc + hartTime (s.hartPreamble ch) q) })).emit (.hart ch) .frame
      [(s.updHart ch (fun h => { h with queue := h.queue.filter (fun x => x != q), cur := some q, tries := 0, txEnd := some (s.tb.frc + hartTime (s.hartPreamble ch) q) })).hartPreamble ch, q.address, q.command] q.data)).updChan ch (fun c => { c with hartTx := true })).hartState ch 1))) ∧
  (∀ (s : State) (ch : Nat), (s.hartOn ch = false) → (exec (.hartFrameStart ch true) s = .next s)) ∧
  (∀ (s u : State) (ch : Nat) (m : HartMsg) (q : HartReq), ((s.hart ch).cur = some q) → (s.rd R.HART_STATUS_STATE (ch / 8) (ch % 8) ≠ 0) → (s.hartSends ch = false) → (m.comm = 0) → (u = ((s.hartState ch 3).hartHeard ch m).updHart ch (fun h => { h with cur := none, tries := 0, responses := if q.entry.isSome then hartKeep h.responses m else h.responses })) → (exec (.hartResponseRx ch m) s = .next ((((u.hartState ch 0).hartOutcome ch true).inc R.HART_COUNT_OK (ch / 8) (ch % 8)).hartReply q 0 ([0, BitVec.ofNat 8 m.status] ++ m.data)))) ∧
  (∀ (s : State) (ch : Nat) (m : HartMsg) (q : HartReq), ((s.hart ch).cur = some q) → (s.rd R.HART_STATUS_STATE (ch / 8) (ch % 8) ≠ 0) → (s.hartSends ch = false) → (m.comm ≠ 0) → (exec (.hartResponseRx ch m) s = .next (((s.hartState ch 3).hartHeard ch m).hartFail ch q))) ∧
  (∀ (s : State) (ch : Nat) (q : HartReq), ((s.hart ch).cur = some q) → (s.rd R.HART_STATUS_STATE (ch / 8) (ch % 8) ≠ 0) → (s.hartSends ch = false) → (exec (.hartResponseTimeout ch) s = .next (s.hartFail ch q))) ∧
  (∀ (s : State) (ch : Nat), ((s.hart ch).cur = none) → (exec (.hartResponseTimeout ch) s = .next s)) ∧
  (∀ (s : State) (ch : Nat) (q : HartReq), ((s.hart ch).queue.find? (fun q => decide (q.queued + 1000000000 < s.tb.frc)) = some q) → (exec (.hartRequestExpired ch) s = .next ((s.updHart ch (fun h => { h with queue := h.queue.filter (fun x => x != q) })).hartReply q stBusy))) ∧
  (∀ (s : State) (ch : Nat), ((s.hart ch).queue = []) → (exec (.hartRequestExpired ch) s = .next s)) ∧
  (∀ (s : State) (ch : Nat) (m : HartMsg), (s.hartOn ch = true) → (s.bit R.FG_STATUS_FALLBACK (ch / 8) = false) → (((s.hartHeard ch m).inc R.HART_COUNT_BURST (ch / 8) (ch % 8)).bit R.HART_CFG_BURST_RX (ch / 8) (ch % 8) = true) → (exec (.hartBurstRx ch m) s = .next (((s.hartHeard ch m).inc R.HART_COUNT_BURST (ch / 8) (ch % 8)).updHart ch (fun h => { h with bursts := hartKeep h.bursts m })))) ∧
  (∀ (s : State) (ch : Nat) (m : HartMsg), (s.hartOn ch = false ∨ s.bit R.FG_STATUS_FALLBACK (ch / 8) = true) → (exec (.hartBurstRx ch m) s = .next s))

/-- Refreshes, control frames, faults and supply of the discrete I/O (rests on R249, R250, R255, R256, R257, R258, R259). A
refresh before the next tick takes effect at its time: a valid one sets IN_OK and runs the filters, an invalid one clears
it and counts; 100 misses make the inputs stale; a valid control frame counts and carries the image, 100 invalid ones de-
energise the block, which resumes at a tick; an output that overheats turns off and restarts after 100 ms; a low field
supply is shown and is a fault of its half. -/
def Obligations.DiscreteIoRefreshesAndOutputs : Prop :=
  (∀ (s u : State) (volts : List Int) (check : Nat), (1000 * s.nextRefresh 500 + 500 < s.nextTick) → (u = (s.toFrc (1000 * s.nextRefresh 500 + 500)).updDio (fun x => { x with refresh := s.nextRefresh 500 + 1 })) → (u.dio.missed < 100) → (check % 4 = 0) → (exec (.diRefresh volts check true) s = .next (((u.nextFree.updDio (fun x => { x with missed := 0, check := 0 })).wr R.DIO_STATUS_IN_OK 1).diFilter (u.diInverted (u.diSamples volts))))) ∧
  (∀ (s u : State) (volts : List Int) (check : Nat), (1000 * s.nextRefresh 500 + 500 < s.nextTick) → (u = (s.toFrc (1000 * s.nextRefresh 500 + 500)).updDio (fun x => { x with refresh := s.nextRefresh 500 + 1 })) → (100 ≤ u.dio.missed) → (check % 4 = 3) → (exec (.diRefresh volts check true) s = .next ((((((u.updDio (fun x => { x with init := 2 ^ 32 - 1 })).nextFree.updDio (fun x => { x with missed := 0, check := 3 })).dioFault 0).dioFault 1).wr R.DIO_STATUS_IN_OK 1).diFilter
      ((u.updDio (fun x => { x with init := 2 ^ 32 - 1 })).diInverted ((u.updDio (fun x => { x with init := 2 ^ 32 - 1 })).diSamples volts))))) ∧
  (∀ (s : State) (d : Nat) (mv : Int), (15000 ≤ mv) → (s.diSample d mv = true)) ∧
  (∀ (s : State) (d : Nat) (mv : Int), (mv ≤ 5000) → (s.diSample d mv = false)) ∧
  (∀ (s u : State) (volts : List Int) (check : Nat), (1000 * s.nextRefresh 400 + 400 < s.nextTick) → (u = (s.toFrc (1000 * s.nextRefresh 400 + 400)).updDio (fun x => { x with refresh := s.nextRefresh 400 + 1 })) → (exec (.diRefresh volts check false) s = .next (((u.updDio (fun x => { x with missed := x.missed + 1, wCross := true })).wr R.DIO_STATUS_IN_OK 0).inc R.DIO_CROSS_ERR_COUNT))) ∧
  (∀ (s : State), (100 ≤ s.dio.missed) → (exec .diInputStale s = .next (s.wr R.DIO_STATUS_IN_STALE 1))) ∧
  (∀ (s : State), (s.dio.missed < 100) → (exec .diInputStale s = .next s)) ∧
  (∀ (s : State) (x : Nat × Nat), (s.dio.xfer = some x) → (s.dio.sent = false) → (exec (.doImageFrame true) s = .next (s.updDio (fun d => { d with sent := true, got := some x })) ∧ exec (.doImageFrame false) s = .next ((s.updDio (fun d => { d with sent := true })).inc R.DIO_CROSS_ERR_COUNT))) ∧
  (∀ (s : State) (ok : Bool), (s.dio.sent = true) → (exec (.doImageFrame ok) s = .next s)) ∧
  (∀ (s : State) (ok : Bool), (s.dio.xfer = none) → (exec (.doImageFrame ok) s = .next s)) ∧
  (∀ (s : State), (exec (.doControlFrame true) s = .next (s.upTo ((s.dio.ctlAt.map (· + 1000)).getD 0) (fun s => ((s.updDio (fun x => { x with ctlAt := some s.tb.frc })).updDio (fun x => { x with valid := x.valid + 1, invalid := 0, got := if x.sent then x.xfer else x.got })).wr R.DIO_STATUS_OUT_OK 1)) ∧
      exec (.doControlFrame false) s = .next (s.upTo ((s.dio.ctlAt.map (· + 1000)).getD 0) (fun s => (((s.updDio (fun x => { x with ctlAt := some s.tb.frc })).updDio (fun x => { x with valid := 0, invalid := x.invalid + 1 })).wr R.DIO_STATUS_OUT_OK 0).inc R.DIO_CROSS_ERR_COUNT)))) ∧
  (∀ (s : State), (100 ≤ s.dio.invalid) → (s.bit R.DIO_STATUS_OUT_OFF = false) → (exec .doBlockDeenergise s = .next ((s.updDio (fun x => { x with lost := true, order := false })).deenergise))) ∧
  (∀ (s : State), (s.dio.invalid < 100) → (exec .doBlockDeenergise s = .next s)) ∧
  (∀ (s : State), (s.bit R.DIO_STATUS_OUT_OFF = true) → (s.unit ≠ .boot) → (s.dio.order = true ∨ s.dio.lost = true ∧ 100 ≤ s.dio.valid) → (exec .doBlockResume s = .next (((s.toTick.updDio (fun x => { x with lost := false, order := false })).wr R.DIO_STATUS_OUT_OFF 0).driveDos))) ∧
  (∀ (s : State), (s.unit = .boot) → (exec .doBlockResume s = .next s)) ∧
  (∀ (s : State) (o : Nat), (o < 32) → (s.doTerminal o = true) → (exec (.doCurrentLimit o .limit) s = .next ((s.updDio (fun x => { x with limited := o :: x.limited.filter (· != o) })).dioFault (o / 16)) ∧
      exec (.doCurrentLimit o .shutdown) s = .next ((s.updDio (fun x => { x with limited := o :: x.limited.filter (· != o), thermal := (o, s.tb.frc) :: x.thermal })).dioFault (o / 16)))) ∧
  (∀ (s : State) (o : Nat), (o < 32) → (exec (.doCurrentLimit o .ended) s = .next (s.updDio (fun x => { x with limited := x.limited.filter (· != o) })))) ∧
  (∀ (s : State) (o : Nat), (s.doTerminal o = false) → (exec (.doCurrentLimit o .limit) s = .next s ∧ exec (.doCurrentLimit o .shutdown) s = .next s)) ∧
  (∀ (s : State) (o : Nat), (exec (.doThermalRestart o) s = .next (s.updDio (fun x => { x with thermal := x.thermal.filter (fun y => !(y.1 == o && decide (y.2 + 10000000 ≤ s.tb.frc))) })))) ∧
  (∀ (s : State), (exec (.fieldSupplyLow 0 true) s = .next ((s.wr R.DIO_STATUS_SUP0_LOW 1).dioFault 0) ∧ exec (.fieldSupplyLow 0 false) s = .next (s.wr R.DIO_STATUS_SUP0_LOW 0) ∧
      exec (.fieldSupplyLow 1 true) s = .next ((s.wr R.DIO_STATUS_SUP1_LOW 1).dioFault 1) ∧ exec (.fieldSupplyLow 1 false) s = .next (s.wr R.DIO_STATUS_SUP1_LOW 0))) ∧
  (∀ (s : State) (h : Nat) (low : Bool), (2 ≤ h) → (exec (.fieldSupplyLow h low) s = .next s)) ∧
  (∀ (s : State), (exec .dioApply s = .next s.dioApply ∧ exec .dioApplyCancel s = .next s.dioCancel)) ∧
  (∀ (s : State), (s.dio.applying = false) → (exec .dioApplyTakesEffect s = .next s)) ∧
  (∀ (s : State) (r d : Nat), (s.dio.applying = true) → (s.toTick.dioRefusal = some (r, d)) → (exec .dioApplyTakesEffect s = .next ((s.toTick.dioRefuse r d).applyDone 0x40060000 (0x0520 + r) [d]))) ∧
  (∀ (s u v : State), (s.dio.applying = true) → (s.toTick.dioRefusal = none) → (u = (List.range 28).foldl (fun s o => doRows.foldl (fun s r => s.adopt r o) s) ((List.range 32).foldl (fun s d => diRows.foldl (fun s r => s.adopt r d) s) ((s.toTick.adopt R.DIO_IN_TYPE).adopt R.DIO_IN_CONT))) → (v = u.updDio (fun x => { x with applying := false, init := x.init ||| ofBits 32 s.toTick.diChanged, count := x.count.mapIdx (fun d n => if bitOf (ofBits 32 (fun d => s.toTick.sg R.DIO_IN_CFG_COUNT_EN d != s.toTick.rd R.DIO_IN_CFG_COUNT_EN d)) d then 0 else n) })) → (exec .dioApplyTakesEffect s = .next ((((v.wr R.DIO_APPLY_STATUS_DONE 1).wr R.DIO_APPLY_STATUS_REASON 0).driveDos).applyDone 0x40060000 0)))

/-- Discovery, strobes and sweeps of the cell chains (rests on R266, R270, R271, R273, R274, R275, R276, R279, R289). A
discovery starts outside a read-back; QUIET leaves at the lead before the strobe, the strobe begins the sweep, READOUT
leaves 20,000 tb after DELAY; a DATA frame inside the read-back writes its record, one with a bad CRC counts; a retry goes
out where its worst case ends before close; a break is shown; the window closes at its time and the sweep is published at
its tick. -/
def Obligations.ChainSweeps : Prop :=
  (∀ (s : State) (p : Nat), (s.chainOn p = true) → (s.chainState p ≠ csSleeping) → (exec (.chDiscover p) s = .next (s.chainOrder p s.tb.frc))) ∧
  (∀ (s : State) (p : Nat), (s.chainOn p = false) → (exec (.chDiscover p) s = .next s)) ∧
  (∀ (s : State) (p : Nat), ((s.chain p).order = none) → (exec (.chainDiscoveryStart p) s = .next s)) ∧
  (∀ (s : State) (p t : Nat), ((s.chain p).order = some t) → (s.chainOn p = true) → (((s.chain p).sweep.any (fun w => !w.closed)) = false) → (exec (.chainDiscoveryStart p) s = .next (s.upTo t (fun s =>
      let u := (List.range 384).foldl (fun s k => s.wr R.CH_NODE_PRESENT 0 p k) ((s.wr R.CH_STATUS_STATE csDiscovering p).updChain p (fun c => { c with order := none }))
      if u.chainRing p then (u.chainBcast p false 0x05 (leBytes 2 1 ++ leBytes 2 ((s.chainN p + 1) / 2))).chainBcast p true 0x05 (leBytes 2 1 ++ leBytes 2 (s.chainN p / 2))
      else u.chainBcast p false 0x05 (leBytes 2 1 ++ leBytes 2 (s.chainN p)))))) ∧
  (∀ (s : State) (p : Nat), (s.chainState p ≠ csDiscovering) → (exec (.discoveryComplete p) s = .next s)) ∧
  (∀ (s : State) (p : Nat), (p < 8) → (s.chainState p = csDiscovering) → ((s.chain p).order = none) → (exec (.discoveryComplete p) s = .next (
      let here := (List.range 384).filter (fun k => s.bit R.CH_NODE_PRESENT p k)
      let amax := here.foldl (fun a k => max a (max (s.rd R.CH_NODE_A_HOME p k) (s.rd R.CH_NODE_A_FAR p k))) 0
      let u := s.wr R.CH_AMAX amax p
      let u := if here.length = s.chainN p then u else (u.wr R.CH_STATUS_COUNT_MISMATCH 1 p).chainEvent p 1
      let u := if u.rd R.CH_TIMING_DELAY p < amax + 1000 then (u.wr R.CH_STATUS_DELAY_SHORT 1 p).chainEvent p 4 else u
      let u := (List.range (s.chainN p)).foldl (fun u k => u.wr R.CH_NODE_UNREACHABLE (if (u.chainReach p (k + 1)).isNone then 1 else 0) p k) u
      let u := (u.chain p).configs.foldl (fun u c =>
        match (u.chain p).nodes.find? (fun x => x.h == c.1), u.chainReach p c.1 with
        | some x, some (far, hop) => if x.crc = Config.nodeCfgCrc c.2 then u else u.chainSend p far 0x08 hop (c.2.take 7 ++ leBytes 1 (if !u.chainRing p && c.1 == s.chainN p then 1 else 0))
        | _, _ => u) u
      (u.wr R.CH_STATUS_STATE (if here.isEmpty then csNoResponse else if (u.chain p).split then csSplit else csRunning) p).chainRemeasure p))) ∧
  (∀ (s : State) (p S : Nat), (s.chainOn p = true) → (s.chainState p = csRunning) → (s.nextStrobe p = some S) → ((s.chain p).quiet ≠ some S) → (exec (.quietSend p false) s = .next (s.upTo (S - s.chainLead p) (fun t => (t.chainBcast p false 0x02 (leBytes 2 (s.rd R.CH_QUIET_POST p) ++
      leBytes 2 ((s.chainLead p + s.rd R.CH_TIMING_DELAY p + s.rd R.CH_QUIET_POST p + 10000 + 999) / 1000))).updChain p (fun c => { c with quiet := some S, whole := false }))))) ∧
  (∀ (s : State) (p : Nat) (far : Bool), (s.chainOn p = false) → (exec (.quietSend p far) s = .next s)) ∧
  (∀ (s : State) (p : Nat), (p < 8) → (s.tb.frc = s.tb.lastTick) → (s.rd R.CH_SWEEP_SRC p ≠ 2) → (s.strobeIn p 0 = true) → ((s.chain p).sweep = none) → (exec (.sampleStrobe p) s = .next (s.strobe p))) ∧
  (∀ (s : State) (p : Nat), (s.strobeIn p 0 = false) → (exec (.sampleStrobe p) s = .next s)) ∧
  (∀ (s : State) (p : Nat), ((s.chain p).sweep = none) → (exec (.readoutSend p) s = .next s ∧ exec (.sweepClose p) s = .next s ∧ exec (.sweepPublish p) s = .next s ∧ exec (.chainBreak p true) s = .next s ∧ exec (.chainRetrySend p true 1 1) s = .next s)) ∧
  (∀ (s : State) (p : Nat) (w : Sweep), ((s.chain p).sweep = some w) → (w.readout = false) → (w.closed = false) → (exec (.readoutSend p) s = .next (s.upTo (w.frc + s.rd R.CH_TIMING_DELAY p + 20000) (fun s =>
      let send (u : State) (far : Bool) (a : Nat) : State := if a = 0 then u else u.chainBcast p far 0x03 (leBytes 2 1 ++ leBytes 2 a)
      let u := s.updSweep p (fun w => { w with readout := true })
      if w.split then send (send u false (u.rd R.CH_BREAK_A p)) true (u.rd R.CH_BREAK_B p)
      else if u.chainRing p then send (send u false ((s.chainN p + 1) / 2)) true (s.chainN p / 2) else send u false (s.chainN p))))) ∧
  (∀ (s : State) (p : Nat) (d : ChainData), (p < 8) → (d.crcOk = false) → (exec (.dataFrameRx p d) s = .next (s.inc R.CH_CRC p))) ∧
  (∀ (s u : State) (p h : Nat) (d : ChainData) (w : Sweep), (p < 8) → (d.crcOk = true) → ((s.chain p).sweep = some w) → (w.closed = false) → (s.tb.frc < w.close) → (h = s.homeOf p d.far d.pos) → (1 ≤ h) → (h ≤ s.chainN p) → (u = (s.putNode p h w.q (s.dataRecord p w h d)).wr R.CH_NODE_NSTAT d.nstat p (h - 1)) → (exec (.dataFrameRx p d) s = .next ((u.updSweep p (fun x => { x with got := ((h, s.dataState p w h d) :: x.got.filter (fun g => g.1 != h)), lastHome := (if d.far then x.lastHome else max x.lastHome h), lastFar := (if d.far then max x.lastFar d.pos else x.lastFar) })).chainForward 0 [p, h] (s.dataRecord p w h d)))) ∧
  (∀ (s : State) (p a : Nat) (far : Bool) (w : Sweep), ((s.chain p).sweep = some w) → (w.readout = true) → (w.closed = false) → (1 ≤ a) → (a ≤ 254) → (a ≤ s.chainN p) → (max s.tb.frc (s.chain p).keepEnd + (2600 + 110 * (a - 1) + 10010) < w.close) → (exec (.chainRetrySend p far a a) s = .next (s.upTo (max s.tb.frc (s.chain p).keepEnd) (fun s => ((s.inc R.CH_RETRIES p).updSweep p (fun w => { w with retried := s.homeOf p far a :: w.retried })).chainSend p far 0x04 a [])))) ∧
  (∀ (s u v : State) (p : Nat) (w : Sweep), ((s.chain p).sweep = some w) → (w.readout = true) → (w.closed = false) → (w.got.length ≠ s.chainN p) → (u = s.updSweep p (fun w => { w with brokeHome := true })) → (v = (u.wr R.CH_BREAK_A w.lastHome p).wr R.CH_STATUS_BREAK 1 p) → (exec (.chainBreak p false) s = .next (v.chainForward 1 [p, v.rd R.CH_BREAK_A p, v.rd R.CH_BREAK_B p]))) ∧
  (∀ (s : State) (p : Nat) (w : Sweep), ((s.chain p).sweep = some w) → (w.closed = false) → (s.chainFollows = false) → (exec (.sweepClose p) s = .next (s.upTo w.close (fun s => s.closeSweep p w)))) ∧
  (∀ (s : State) (p : Nat) (w : Sweep), ((s.chain p).sweep = some w) → (s.tb.frc = s.tb.lastTick) → (w.pub ≤ s.tb.frameNo) → (w.closed = true) → (exec (.sweepPublish p) s = .next (
      let got := ((s.chain p).sweep.map (·.got)).getD []
      let count (k : Nat) : Nat := (got.filter (fun g => bitOf g.2 k)).length
      let pub : Published := { frc := w.frc + s.rd R.CH_TIMING_DELAY p, frame := s.tb.frameNo % 2 ^ 32, valid := count 0, missing := count 1, qflag := count 4, sec := w.sec, ns := w.ns }
      let u := (s.wr R.CH_SWEEP_NO w.q p).inc R.CH_SWEEPS p
      let u := u.wr R.CH_QFLAGS (min 65535 (u.rd R.CH_QFLAGS p + count 4)) p
      let u := got.foldl (fun u g => u.wr R.CH_NODE_MISSING_LAST (if bitOf g.2 1 then 1 else 0) p (g.1 - 1)) u
      let u := u.wr R.CH_STATUS_STATE (if (u.chain p).split then csSplit else csRunning) p
      ((u.updChain p (fun c => { c with sweep := none, pub })).freezeChains).updChain p (fun c => { c with events := 0 }))))

/-- Applies, queued commands, sleep, fault line and forwarded items of the cell chains (rests on R272, R277, R281, R282, R283,
R284, R290, R292, R293). An apply is submitted, cancelled or takes effect at a quiet tick; WAKE, SLEEP and FAULT_CLR act
on a port that runs; the oldest queued command goes in a gap; a response answers the command it belongs to; KEEP goes out
after 500 ms; a QUIET at the far end with POS = N shows the ring whole; a fault line that lasts 100 µs trips; a following
unit writes forwarded items; an external message is taken under R292 and published at its tick. -/
def Obligations.ChainCommandsLinesAndIngest : Prop :=
  (∀ (s : State) (p : Nat), (p < 8) → (exec (.chApply p) s = .next (s.chainApply p) ∧ exec (.chCancel p) s = .next (s.chainCancel p))) ∧
  (∀ (s : State) (p : Nat), (8 ≤ p) → (exec (.chApply p) s = .next s ∧ exec (.chCancel p) s = .next s)) ∧
  (∀ (s : State) (p : Nat), (s.bit R.CH_STATUS_APPLY_PENDING p = false) → (exec (.chainApplyTakesEffect p) s = .next s)) ∧
  (∀ (s : State) (p r : Nat), (p < 8) → (s.bit R.CH_STATUS_APPLY_PENDING p = true) → (s.toTick.chainQuietTick p s.toTick.tb.frc = true) → (s.toTick.chainStaged p = r + 1) → (exec (.chainApplyTakesEffect p) s = .next ((s.toTick.chainRefuse p (r + 1)).applyDone (chainBase p) (0x0800 + (r + 1))))) ∧
  (∀ (s u v : State) (p : Nat), (p < 8) → (s.bit R.CH_STATUS_APPLY_PENDING p = true) → (s.toTick.chainQuietTick p s.toTick.tb.frc = true) → (s.toTick.chainStaged p = 0) → (u = chainRows.foldl (fun s r => s.adopt r p) s.toTick) → (v = (((u.wr R.CH_STATUS_APPLY_PENDING 0 p).wr R.CH_STATUS_DONE 1 p).wr R.CH_STATUS_REASON 0 p).applyDone (chainBase p) 0) → (v.bit R.CH_CTRL_EN p = true) → (v.chainRing p = false) → (v.chainState (p + 1) ≠ csFarEnd ∨ p % 2 = 1) → (exec (.chainApplyTakesEffect p) s = .next (((v.wr R.CH_STATUS_STATE csDiscovering p).chainOrder p v.tb.frc).updChain p (fun c => { c with split := false, quiet := none })))) ∧
  (∀ (s : State) (p : Nat), (exec (.chWake p) s = .next (s.chainWake p) ∧ exec (.chSleep p) s = .next (s.chainSleep p))) ∧
  (∀ (s : State) (p : Nat), (s.chainOn p = true) → (exec (.chFaultClr p) s = .next (s.chainQueue p { session := 0, tag := 0, op := 0, code := 0x0B, h := 0, payload := [] }).1)) ∧
  (∀ (s : State) (p : Nat), (s.chainOn p = false) → (exec (.chFaultClr p) s = .next s)) ∧
  (∀ (s : State) (p : Nat) (q : ChainCmd) (qs : List ChainCmd), ((s.chain p).queue = q :: qs) → (s.chainOn p = true) → (s.chainState p = csRunning) → ((s.chain p).sentCmd = none) → ((s.chain p).sleepy = false) → (s.chainGap p q = true) → (exec (.chainQueueSend p) s = .next (((s.updChain p (fun x => { x with queue := x.queue.erase q })).chainSendCmd p q).chainSleepNow p))) ∧
  (∀ (s : State) (p : Nat), ((s.chain p).queue = []) → ((s.chain p).sentCmd = none) → (exec (.chainQueueSend p) s = .next s)) ∧
  (∀ (s : State) (p h : Nat) (r : ChainResp) (c : ChainCmd), (p < 8) → (h = s.homeOf p r.far r.pos) → (1 ≤ h) → (h ≤ 384) → (s.chainState p ≠ csDiscovering) → ((s.chain p).sentCmd = some c) → (c.h = h) → (r.code ≠ 0x8F) → (c.session ≠ 0) → (exec (.chainResponseRx p r) s = .next ((((s.updChain p (fun x => { x with sentCmd := none })).nodeAnswer p h c.code r).chainReply c 0 [] r.payload).chainSleepNow p))) ∧
  (∀ (s : State) (p : Nat) (r : ChainResp), (8 ≤ p) → (exec (.chainResponseRx p r) s = .next s)) ∧
  (∀ (s : State) (p : Nat), (s.chainOn p = true) → (s.chainState p ≠ csSleeping) → ((s.chain p).lastBcast + 50000000 ≤ s.tb.frc) → ((s.chain p).sweep = none) → ((s.chain p).split = false) → (s.nextStrobe p = none) → (exec (.keep p) s = .next ((s.chainBcast p false 0x0D []).updChain p (fun c => { c with keepEnd := (s.chainBcast p false 0x0D []).tb.frc + 1600 })))) ∧
  (∀ (s : State) (p : Nat), (s.tb.frc < (s.chain p).lastBcast + 50000000) → (exec (.keep p) s = .next s)) ∧
  (∀ (s : State) (p : Nat), (s.chainOn p = true) → (s.chainRing p = true) → (exec (.farEndCommandRx p false (s.chainN p)) s = .next (s.updSweep p (fun w => { w with sampleFar := true })))) ∧
  (∀ (s : State) (p pos : Nat) (quiet : Bool), (pos ≠ s.chainN p) → (exec (.farEndCommandRx p quiet pos) s = .next s)) ∧
  (∀ (s : State) (p c : Nat), (p < 8) → (80 < c) → (exec (.faultLineChange p c) s = .next (((((s.wr R.CH_LINE_CURRENT (min 255 c) p).wr R.CH_LINE_STATE 1 p).wr R.CH_LINE_FAULT_SEEN 1 p).updChain p (fun x => { x with
      faultSince := some (x.faultSince.getD s.tb.frc) })).evalTrips))) ∧
  (∀ (s : State) (p t : Nat), ((s.chain p).faultSince = some t) → (exec (.chainFaultTrip p) s = .next (s.upTo (t + 10000) (fun s => (s.updChain p (fun c => { c with faultHeld := true })).evalTrips)))) ∧
  (∀ (s : State) (p : Nat), ((s.chain p).faultSince = none) → (exec (.chainFaultTrip p) s = .next s)) ∧
  (∀ (s : State) (p a b : Nat), (s.chainFollows = true) → (p < 8) → (exec (.forwardedChainItemRx (.brk p a b)) s = .next (((s.wr R.CH_BREAK_A a p).wr R.CH_BREAK_B b p).wr R.CH_STATUS_BREAK 1 p))) ∧
  (∀ (s : State) (i : ChainItem), (s.chainFollows = false) → (exec (.forwardedChainItemRx i) s = .next s)) ∧
  (∀ (s : State) (m : IngestMsg), (exec (.ingestMessageRx m) s = .next (s.ingestMessage m))) ∧
  (∀ (s : State), (s.ingest.strobe = none) → (exec .ingestPublish s = .next s)) ∧
  (∀ (s : State) (frc sec ns pub : Nat), (s.ingest.strobe = some (frc, sec, ns, pub)) → (s.tb.frc ≠ s.tb.lastTick ∨ s.tb.frameNo < pub) → (exec .ingestPublish s = .next s)) ∧
  (∀ (s : State) (frc sec ns pub : Nat), (s.ingest.strobe = some (frc, sec, ns, pub)) → (s.tb.frc = s.tb.lastTick) → (pub ≤ s.tb.frameNo) → (∃ u : State, exec .ingestPublish s = .next (u.freezeChains.ingestStrobe) ∧ u.ingest.strobe = none ∧ u.ingest.got = [])) ∧
  (∀ (s : State), (exec .chIngApply s = .next s.ingApply ∧ exec .chIngCancel s = .next s.ingCancel)) ∧
  (∀ (s : State), (s.bit R.CH_ING_STATUS_APPLY_PENDING = false) → (exec .ingestApplyTakesEffect s = .next s)) ∧
  (∀ (s u : State), (s.bit R.CH_ING_STATUS_APPLY_PENDING = true) → (s.ingest.strobe = none) → (s.ingReason = 0) → (u = ingRows.foldl (fun s r => (List.range r.2).foldl (fun s i => s.adopt r.1 i) s) s) → (exec .ingestApplyTakesEffect s = .next ((((u.wr R.CH_ING_STATUS_APPLY_PENDING 0).wr R.CH_ING_STATUS_DONE 1).wr R.CH_ING_STATUS_REASON 0).applyDone ingBase 0))) ∧
  (∀ (s : State) (r : Nat), (s.bit R.CH_ING_STATUS_APPLY_PENDING = true) → (s.ingest.strobe = none) → (s.ingReason = r + 1) → (exec .ingestApplyTakesEffect s = .next ((s.ingRefuse (r + 1)).applyDone ingBase (0x0800 + (r + 1)))))

/-- CAN FD ports (rests on R296, R299, R305, R308, R309, R311, R312, R315, R316, R317, R318, R319). A bus error counts where
its port takes part; a transmit counter above 255 takes the port to bus-off, from which RECOVER and 128 times 11 recessive
bits bring it back; a record loads its buffer; the lowest pending frame starts; a completed attempt completes, fails or
repeats its buffer; a received frame is taken by its filters, an FD frame with FD_EN 0 is an error; service segments and
their gap; applies, cancels and aborts. -/
def Obligations.CanPorts : Prop :=
  (∀ (s : State) (p lec n : Nat) (tx ex : Bool), (p < 8) → ([1, 2, 5].contains (s.canState p) = true) → (1 ≤ lec) → (lec ≤ 6) → (exec (.canBusError p lec tx ex n) s = .next (s.canError p lec tx ex n))) ∧
  (∀ (s : State) (p lec n : Nat) (tx ex : Bool), (8 ≤ p) → (exec (.canBusError p lec tx ex n) s = .next s)) ∧
  (∀ (s u : State) (p : Nat), (p < 8) → (s.canState p = 2) → (255 < (s.canPort p).txErr) → ((s.canPort p).onBus = none) → (u = (s.wr R.CF_STATUS_STATE 3 p).inc R.CF_BUSOFF p) → (exec (.canBusOff p) s = .next ((((u.wr R.CF_STATUS_TEC 255 p).canMark p 0 R.CF_EVENTS_BUSOFF).canEvent p 3 0 0).canPend p))) ∧
  (∀ (s u : State) (p b frc : Nat), (p < 8) → (s.canState p = 2) → (255 < (s.canPort p).txErr) → ((s.canPort p).onBus = some (b, frc)) → (u = (((s.updCan p (fun c => { c with onBus := none })).canFailed p b 2 frc).wr R.CF_STATUS_STATE 3 p).inc R.CF_BUSOFF p) → (exec (.canBusOff p) s = .next ((((u.wr R.CF_STATUS_TEC 255 p).canMark p 0 R.CF_EVENTS_BUSOFF).canEvent p 3 0 0).canPend p))) ∧
  (∀ (s : State) (p : Nat), ((s.canPort p).txErr ≤ 255) → (exec (.canBusOff p) s = .next s)) ∧
  (∀ (s : State) (p : Nat) (r : Bytes), (p < 8) → (s.canListens = false) → (exec (.canTxRecord p (some r)) s = .next (s.canRecord p false r))) ∧
  (∀ (s : State) (p : Nat), (p < 8) → ((s.ringTake (s.rd R.CF_RING_TX_Q p) 1).1.canListens = false) → ((s.ringTake (s.rd R.CF_RING_TX_Q p) 1).1.inRun = true) → (exec (.canTxRecord p none) s = .next ((s.ringTake (s.rd R.CF_RING_TX_Q p) 1).2.foldl (fun s r => s.canRecord p true r) (s.ringTake (s.rd R.CF_RING_TX_Q p) 1).1))) ∧
  (∀ (s u : State) (p d b : Nat) (m : CanMsg), (s.canSends p = true) → ((s.canPort p).onBus = none) → ((s.canPort p).lowest = some (b, m)) → (bitOf m.ctrl 4 = false) → (u = (s.updCan p (fun c => { c with onBus := some (b, s.tb.frc) })).updBuf p b (fun x => { x with pend := false })) → (u.rd R.CF_CTRL_MODE p = 0) → (exec (.canTxStart p d) s = .next (u.emit (.can p) .frame [m.idw, m.ctrl, u.tb.frc] m.data))) ∧
  (∀ (s : State) (p d : Nat), (s.canSends p = false) → (exec (.canTxStart p d) s = .next s)) ∧
  (∀ (s : State) (p : Nat) (e : CanTxEnd), ((s.canPort p).onBus = none) → (exec (.canTxComplete p e) s = .next s)) ∧
  (∀ (s v u : State) (p b frc : Nat), ((s.canPort p).onBus = some (b, frc)) → (v = s.updCan p (fun c => { c with onBus := none })) → ((v.canBuf p b).abort = false) → (((v.canBuf p b).msg.any (fun m => bitOf m.ctrl 24)) = false) → (b ≠ 30) → (u = v.updBuf p b (fun x => x.leave true true)) → (exec (.canTxComplete p .lost) s = .next (u.canRefresh p) ∧ exec (.canTxComplete p .error) s = .next (u.canRefresh p))) ∧
  (∀ (s v u : State) (p b frc : Nat), ((s.canPort p).onBus = some (b, frc)) → (v = s.updCan p (fun c => { c with onBus := none })) → ((v.canBuf p b).abort = true) → (b ≠ 30) → (u = (v.updBuf p b (fun x => x.leave false false)).canDone p b false 3 frc) → (exec (.canTxComplete p .lost) s = .next (u.canRefresh p) ∧ exec (.canTxComplete p .error) s = .next (u.canRefresh p))) ∧
  (∀ (s v u : State) (p b frc : Nat), ((s.canPort p).onBus = some (b, frc)) → (b ≠ 30) → (v = ((s.updCan p (fun c => { c with onBus := none })).updCan p (fun c => { c with txErr := c.txErr - 1 })).inc R.CF_TX p) → (u = (v.updBuf p b (fun x => x.leave (v.canKeeps p b) false)).canDone p b true 0 frc) → (u.rd R.CF_CTRL_MODE p = 0) → (exec (.canTxComplete p .ok) s = .next (u.canRefresh p))) ∧
  (∀ (s : State) (p : Nat), (s.tb.frc ≠ s.nextTick) → (s.canTable p = s)) ∧
  (∀ (s : State) (p : Nat), (s.tb.frc = s.nextTick) → (s.canTable p = s.canApplied p)) ∧
  (∀ (s u : State) (p : Nat) (f : CanFrame), (u = s.canTable p) → (u.canHears p = true) → (f.fdf = false) → (exec (.canFrameRx p f) s = .next (u.canReceive p f))) ∧
  (∀ (s u : State) (p : Nat) (f : CanFrame), (u = s.canTable p) → (u.canHears p = true) → (f.fdf = true) → (u.bit R.CF_CTRL_FD_EN p = true) → (f.res = false) → (exec (.canFrameRx p f) s = .next (u.canReceive p f))) ∧
  (∀ (s u : State) (p : Nat) (f : CanFrame), (u = s.canTable p) → (u.canHears p = true) → (f.fdf = true) → (u.bit R.CF_CTRL_FD_EN p = true) → (f.res = true) → (exec (.canFrameRx p f) s = .next (if u.bit R.CF_CTRL_PXHD p = true then u.wr R.CF_EVENTS_PEX 1 p else u.canError p 2 false false 0))) ∧
  (∀ (s u : State) (p : Nat) (f : CanFrame), (u = s.canTable p) → (u.canHears p = true) → (f.fdf = true) → (u.bit R.CF_CTRL_FD_EN p = false) → (exec (.canFrameRx p f) s = .next (u.canError p 2 false false 0))) ∧
  (∀ (s u : State) (p : Nat) (f : CanFrame), (u = s.canTable p) → (u.canHears p = false) → (exec (.canFrameRx p f) s = .next u)) ∧
  (∀ (s u : State) (p : Nat) (data : Bytes), (u = s.canTable p) → (u.canHears p = true) → (u.bit R.CF_SVC_EN p = true) → (exec (.canServiceSegmentRx p data) s = .next ((u.inc R.CF_RX p).canSegment p data))) ∧
  (∀ (s u : State) (p : Nat) (data : Bytes), (u = s.canTable p) → (u.bit R.CF_SVC_EN p = false ∨ u.canHears p = false) → (exec (.canServiceSegmentRx p data) s = .next u)) ∧
  (∀ (s : State) (p n : Nat), (p < 8) → ((s.canPort p).svcSeq = some n) → ((s.canPort p).svcAt + 100000000 < s.tb.frc) → (exec (.canServiceGapTimeout p) s = .next (s.canSvcDrop p))) ∧
  (∀ (s : State) (p : Nat), ((s.canPort p).svcSeq = none) → (exec (.canServiceGapTimeout p) s = .next s)) ∧
  (∀ (s : State) (p : Nat) (fl : Bool), (exec (.cfRecover p fl) s = .next (s.canRecover p fl))) ∧
  (∀ (s : State) (p : Nat), (p < 8) → (s.canState p = 4) → ((s.canPort p).recoverAt + 1408 * s.canBit p ≤ s.tb.frc) → (exec (.canRecoveryComplete p) s = .next ((((((s.wr R.CF_STATUS_STATE 1 p).canMark p 1 R.CF_EVENTS_RECOVERED).updCan p (fun c => { c with txErr := 0, rxErr := 0 })).canEvent p 3 0 0)).canRefresh p))) ∧
  (∀ (s : State) (p : Nat), (s.canState p ≠ 4) → (exec (.canRecoveryComplete p) s = .next s)) ∧
  (∀ (s : State) (p v : Nat), (p < 8) → (exec (.cfTxbAbort p v) s = .next ((List.range 32).foldl (fun s b => if bitOf v b && !s.canOwned p b then s.canAbort p b 3 else s) s))) ∧
  (∀ (s : State) (p : Nat), (p < 8) → (exec (.cfApply p) s = .next (s.canApply p) ∧ exec (.cfCancel p) s = .next (s.canCancel p))) ∧
  (∀ (s : State) (p v : Nat), (8 ≤ p) → (exec (.cfTxbAbort p v) s = .next s ∧ exec (.cfApply p) s = .next s ∧ exec (.cfCancel p) s = .next s)) ∧
  (∀ (s : State) (p : Nat), (s.bit R.CF_STATUS_APPLY_PENDING p = false) → (exec (.cfApplyTakesEffect p) s = .next s)) ∧
  (∀ (s : State) (p r : Nat), (p < 8) → (s.bit R.CF_STATUS_APPLY_PENDING p = true) → (s.toTick.bit R.CF_STATUS_APPLY_PENDING p = true) → (s.toTick.canReason p = r + 1) → (exec (.cfApplyTakesEffect p) s = .next ((s.toTick.canRefuse p (r + 1)).applyDone (canBase p) (0x0530 + (r + 1))))) ∧
  (∀ (s u : State) (p : Nat), (p < 8) → (s.bit R.CF_STATUS_APPLY_PENDING p = true) → (s.toTick.bit R.CF_STATUS_APPLY_PENDING p = true) → (s.toTick.canReason p = 0) → (s.toTick.canState p = 0) → (u = ((((s.toTick.adoptAll canRows p (canBase p) (canBase (p + 1))).wr R.CF_STATUS_APPLY_PENDING 0 p).wr R.CF_STATUS_DONE 1 p).wr R.CF_APPLY_REASON 0 p).applyDone (canBase p) 0) → (exec (.cfApplyTakesEffect p) s = .next (u.canFresh p)))

/-- The switch, MACsec and the fabric (rests on R320, R321, R324, R325, R326, R327, R328, R329, R330, R332, R340). A frame
received on an enabled port with link is counted, and learned and forwarded or dropped with its counter; the highest queue
sends its next frame; supervision frames leave every 2 s and their absence sets RED_ERR; a rekey installs the next
association and its old one expires; routed entries wait for their frame, received ones are checked by SEQ; the route
table swaps at a tick; a published sweep goes to its DEST. -/
def Obligations.SwitchAndFabric : Prop :=
  (∀ (s : State) (p : Nat) (f : EthFrame), (s.bit R.ES_CTRL_EN = false) → (exec (.ethFrameRx p f) s = .next s)) ∧
  (∀ (s u : State) (p : Nat) (f : EthFrame), (p < 7) → (s.switchHolds p = false) → (s.bit R.ES_CTRL_EN = true) → (s.bit R.ES_PORT_CFG_EN p = true) → (s.bit R.ES_PORT_CFG_LINK p = true) → (u = s.inc R.ES_PORT_CFG_RX p) → (u.secOn p = false) → (f.len ≤ 2048) → (f.supervision = false) → (u.twin p = none) → (exec (.ethFrameRx p f) s = .next (u.ethForward p f))) ∧
  (∀ (s u : State) (p : Nat) (f : EthFrame), (p < 4) → (s.switchHolds p = false) → (s.bit R.ES_CTRL_EN = true) → (s.bit R.ES_PORT_CFG_EN p = true) → (s.bit R.ES_PORT_CFG_LINK p = true) → (u = s.inc R.ES_PORT_CFG_RX p) → (2048 < f.len) → (exec (.ethFrameRx p f) s = .next (u.inc R.ES_PORT_CFG_OVERSIZE p))) ∧
  (∀ (s : State) (p : Nat), (s.bit R.ES_CTRL_EN = false) → (exec (.ethFrameTx p) s = .next s)) ∧
  (∀ (s u : State) (p q : Nat) (f : EthFrame) (fs : List EthFrame), (p = 6 ∨ p = 7) → (s.bit R.ES_CTRL_EN = true) → (s.bit R.ES_PORT_CFG_EN p = true) → (s.bit R.ES_PORT_CFG_LINK p = true) → ((List.range 8).reverse.find? (fun q => !(s.eth.queues.getD (8 * p + q) []).isEmpty) = some q) → (s.eth.queues.getD (8 * p + q) [] = f :: fs) → (u = (s.updEth (fun e => { e with queues := updAt e.queues (8 * p + q) (fun _ => fs) })).bufLow) → (exec (.ethFrameTx p) s = .next (((if p < 7 then u.inc R.ES_PORT_CFG_TX p else u).emit (.eth p) .frame [f.dst, f.src, f.etype, f.len] f.payload).secSent p))) ∧
  (∀ (s : State), ((List.range 4).filter (fun p => (s.twin p).isSome) = []) → (exec .prpSupervisionSend s = .next s)) ∧
  (∀ (s : State), ((List.range 4).filter (fun p => (s.twin p).isSome) = [0, 1]) → (s.eth.supTx + 200000000 ≤ s.tb.frc) → (exec .prpSupervisionSend s = .next (((s.updEth (fun e => { e with supTx := s.tb.frc })).emit (.eth 0) .mark [0x88FB]).emit (.eth 1) .mark [0x88FB]))) ∧
  (∀ (s : State) (p : Nat), (p < 4) → ((s.twin p).isSome = true) → (s.eth.supRx.getD (p / 2) 0 + 600000000 ≤ s.tb.frc) → (exec .supervisionMissing s = .next (s.wr R.ES_STATUS_RED_ERR 1))) ∧
  (∀ (s : State), (∀ p, p < 4 → (s.twin p).isSome = true → s.tb.frc < s.eth.supRx.getD (p / 2) 0 + 600000000) → (exec .supervisionMissing s = .next s)) ∧
  (∀ (s : State), (exec .esRtApply s = .next s.routeApply ∧ exec .esRtCancel s = .next s.routeCancel)) ∧
  (∀ (s : State) (p : Nat), (6 ≤ p ∨ s.trust.peers = []) → (exec (.macsecRekey p) s = .next s)) ∧
  (∀ (s : State) (p : Nat) (m : MacSec), (p < 4) → ((s.trust.peers.any (fun x => x.port == p && x.ended.isNone)) = true) → (s.eth.macsec.getD p MacSec.reset = m) → (s.bit R.ES_MACSEC_KEY_OK p = true) → (exec (.macsecRekey p) s = .next ((((s.updSec p (fun _ => { an := (m.an + 1) % 4, nextPn := 1, old := some (m.an, s.tb.frc + 100000000, m.nextPn), txPn := 0 })).wr R.ES_MACSEC_AN_TX ((m.an + 1) % 4) p).wr R.ES_MACSEC_KEY_OK 1 p).pairLinks))) ∧
  (∀ (s : State) (p a t n : Nat), ((s.eth.macsec.getD p MacSec.reset).old = some (a, t, n)) → (t ≤ s.tb.frc) → (exec (.macsecOldAssociationExpiry p) s = .next (s.updSec p (fun m => { m with old := none })))) ∧
  (∀ (s : State) (p : Nat), ((s.eth.macsec.getD p MacSec.reset).old = none) → (exec (.macsecOldAssociationExpiry p) s = .next s)) ∧
  (∀ (s : State) (e : Nat), (s.fw.restarting.contains 3 = false) → (exec (.fabricFrameSend e) s = .next (s.fabricFlush e))) ∧
  (∀ (s : State) (q : Nat), (((s.routeValid Config.routeBase).any (fun e => s.routeDir e == 0 && s.routeKind e == 0 && s.routeRing e == q)) = false) → (exec (.routeEntryDrain q) s = .next s)) ∧
  (∀ (s : State) (q : Nat), (s.fw.restarting.contains 3 = false) → (((s.routeValid Config.routeBase).any (fun e => s.routeDir e == 0 && s.routeKind e == 0 && s.routeRing e == q)) = true) → ((s.ringTake q 1).2 = []) → (exec (.routeEntryDrain q) s = .next (s.ringTake q 1).1)) ∧
  (∀ (s : State) (f : FabricFrame), (f.version ≠ 1) → (exec (.fabricFrameRx f) s = .next s)) ∧
  (∀ (s : State) (f : FabricFrame) (e : Nat), (f.dst = s.rd R.ES_PLANT) → (f.version = 1) → ((s.routeValid Config.routeBase).find? (fun e => s.routeDir e == 1 && s.routePeer e == f.src && s.routeId e == f.route && s.routeKind e == f.kind) = some e) → (f.kind = 0) → ((s.route e).seqRx = none) → (exec (.fabricFrameRx f) s = .next (f.entries.foldl (fun s d => s.fabricPut (s.routeRing e) d) (s.setRoute { s.route e with seqRx := some f.seq, frames := (s.route e).frames + 1, gaps := (s.route e).gaps })))) ∧
  (∀ (s : State), (s.bit R.ES_RT_STATUS_PENDING = false) → (exec .routeTableSwap s = .next s)) ∧
  (∀ (s u : State), (s.bit R.ES_RT_STATUS_PENDING = true) → (u = (s.toTick.eth.routes.map (·.entry)).foldl (fun s e => s.fabricFlush e) s.toTick) → (u.routeDup = false) → (exec .routeTableSwap s = .next ((((u.routeCopy Config.routeShadow Config.routeBase).wr R.ES_RT_STATUS_PENDING 0).wr R.ES_RT_STATUS_DONE 1).applyDone 0x40090200 0))) ∧
  (∀ (s u : State), (s.bit R.ES_RT_STATUS_PENDING = true) → (u = (s.toTick.eth.routes.map (·.entry)).foldl (fun s e => s.fabricFlush e) s.toTick) → (u.routeDup = true) → (exec .routeTableSwap s = .next (((u.wr R.ES_RT_STATUS_REFUSED 1).wr R.ES_RT_STATUS_PENDING 0).applyDone 0x40090200 0x0541))) ∧
  (∀ (s : State) (p : Nat), (s.bit R.CH_ING_OUT_EN p = false) → (exec (.ingestSend p) s = .next s)) ∧
  (∀ (s : State) (p e : Nat), (p < 8) → (s.bit R.CH_ING_OUT_EN p = true) → (s.rd R.CH_SWEEPS p ≠ 0) → ((s.routeValid Config.routeBase).find? (fun e => s.routeDir e == 0 && s.routeKind e == 1 && s.routePeer e == s.rd R.CH_ING_OUT_DEST p) = some e) → (exec (.ingestSend p) s = .next ((s.ingMessages p).foldl (fun s m => s.fabricOut e 1 m) s))) ∧
  (∀ (s : State) (p v : Nat), (p < 4) → (1 ≤ v) → (v ≤ 2) → (s.rd R.ES_PORT_CFG_SPEED p = 0 ∨ s.rd R.ES_PORT_CFG_SPEED p = v) → (exec (.portLinkChange p v) s = .next (((s.wr R.ES_PORT_CFG_SPEED_NOW v p).wr R.ES_PORT_CFG_LINK 1 p).loadCorr p))) ∧
  (∀ (s : State) (p v : Nat), (p < 4) → (1 ≤ v) → (s.rd R.ES_PORT_CFG_SPEED p ≠ 0) → (s.rd R.ES_PORT_CFG_SPEED p ≠ v) → (exec (.portLinkChange p v) s = .next s)) ∧
  (∀ (s : State) (v : Nat), (v = 0 ∨ v = 4) → (exec (.portLinkChange 6 v) s = .next ((s.wr R.ES_PORT_CFG_SPEED_NOW v 6).wr R.ES_PORT_CFG_LINK (if v = 0 then 0 else 1) 6)))

/-- PTP messages (rests on R333, R334, R335, R336). A message on a port where PTP runs is stamped and used: an announce, a
Sync with its origin, a Delay_Resp, a peer delay response; each message that leaves carries its time or has its follow-up
queued; a lost master in lock enters holdover. -/
def Obligations.NetworkTime : Prop :=
  (∀ (s : State) (p d : Nat) (m : PtpMsg), (s.ptpOn p = false ∨ d ≠ s.rd R.PT_CTRL_DOMAIN) → (exec (.ptpMessageRx p d m) s = .next s)) ∧
  (∀ (s : State) (p d : Nat) (st c : Nat), (s.ptpOn p = true) → (d = s.rd R.PT_CTRL_DOMAIN) → (exec (.ptpMessageRx p d (.announce st c)) s = .next (s.ptpAnnounce p st c))) ∧
  (∀ (s : State) (p d : Nat) (raw corr o : Int), (s.ptpOn p = true) → (d = s.rd R.PT_CTRL_DOMAIN) → (exec (.ptpMessageRx p d (.sync raw corr (some o))) s = .next ((s.updPtp p (fun x => { x with t2 := some (s.ptpIn p raw - s.ptpAsym p - corr), t1 := some o })).ptpOffset p) ∧
      exec (.ptpMessageRx p d (.sync raw corr none)) s = .next (s.updPtp p (fun x => { x with t2 := some (s.ptpIn p raw - s.ptpAsym p - corr), t1 := none })))) ∧
  (∀ (s : State) (p d : Nat) (o c : Int), (s.ptpOn p = true) → (d = s.rd R.PT_CTRL_DOMAIN) → ((s.ptp.ports.getD p PtpPort.reset).t1 = none) → (exec (.ptpMessageRx p d (.followUp o c)) s = .next ((s.updPtp p (fun x => { x with t1 := some (o + c) })).ptpOffset p))) ∧
  (∀ (s : State) (p d : Nat) (t1 t2 t3 t4 corr : Int), (s.ptpOn p = true) → (d = s.rd R.PT_CTRL_DOMAIN) → ((s.ptp.ports.getD p PtpPort.reset).t1 = some t1) → ((s.ptp.ports.getD p PtpPort.reset).t2 = some t2) → ((s.ptp.ports.getD p PtpPort.reset).t3 = some t3) → (s.ptpP2P = false) → (exec (.ptpMessageRx p d (.delayResp t4 corr)) s = .next ((s.ptpPath p (roundDiv ((t2 - t1) + (t4 - corr - t3)) 2)).ptpOffset p))) ∧
  (∀ (s : State) (p d : Nat) (raw : Int), (s.ptpOn p = true) → (d = s.rd R.PT_CTRL_DOMAIN) → (s.ptpMute = false) → (s.ptpP2P = false) → (exec (.ptpMessageRx p d (.delayReq raw)) s = .next (s.ptpSend p 9 [(s.ptpIn p raw).toNat]))) ∧
  (∀ (s : State) (p d : Nat) (raw : Int), (s.ptpOn p = true) → (d = s.rd R.PT_CTRL_DOMAIN) → (exec (.ptpMessageRx p d (.pdelayReq raw)) s = .next (s.updPtp p (fun x => { x with reqRx := some (s.ptpIn p raw) })))) ∧
  (∀ (s : State) (p d : Nat) (raw corr p1 : Int), (s.ptpOn p = true) → (d = s.rd R.PT_CTRL_DOMAIN) → ((s.ptp.ports.getD p PtpPort.reset).p1 = some p1) → (exec (.ptpMessageRx p d (.pdelayResp raw corr none)) s = .next (s.ptpPath p (roundDiv (s.ptpIn p raw - s.ptpAsym p - p1 - corr) 2)))) ∧
  (∀ (s : State) (p : Nat) (m : PtpOut), (s.ptpOn p = false) → (exec (.ptpMessageTx p m) s = .next s)) ∧
  (∀ (s : State) (p : Nat), (s.ptpOn p = true) → (s.ptpMute = true) → (exec (.ptpMessageTx p .announce) s = .next s ∧ ∀ raw, exec (.ptpMessageTx p (.sync raw)) s = .next s)) ∧
  (∀ (s : State) (p : Nat) (raw : Int), (s.ptpOn p = true) → (s.ptpMute = false) → (s.bit R.PT_CTRL_TWO_STEP = false) → (exec (.ptpMessageTx p (.sync raw)) s = .next (s.ptpSend p 0 [(s.ptpOut p raw).toNat]) ∧
      exec (.ptpMessageTx p .announce) s = .next ((s.ptpSend p 11 [s.clockClass, s.rd R.PT_UTC_OFFSET]).nextFree))) ∧
  (∀ (s : State) (p : Nat) (raw : Int), (s.ptpOn p = true) → (s.ptpMute = false) → (s.bit R.PT_CTRL_TWO_STEP = true) → (exec (.ptpMessageTx p (.sync raw)) s = .next ((s.ptpSend p 0 []).ptpSend p 8 [(s.ptpOut p raw).toNat]))) ∧
  (∀ (s : State) (p : Nat) (raw : Int), (s.ptpOn p = true) → (exec (.ptpMessageTx p (.delayReq raw)) s = .next ((s.updPtp p (fun x => { x with t3 := some (s.ptpOut p raw - s.ptpAsym p) })).ptpSend p 1 []) ∧
      exec (.ptpMessageTx p (.pdelayReq raw)) s = .next ((s.updPtp p (fun x => { x with p1 := some (s.ptpOut p raw - s.ptpAsym p) })).ptpSend p 2 []) ∧
      exec (.ptpMessageTx p .delayResp) s = .next (s.ptpSend p 9 []))) ∧
  (∀ (s u : State), (s.fw.restarting.contains 3 = false) → (s.rd R.PT_STATUS_SLAVE_PORT = 3) → (u = (s.wr R.PT_PORT_PSTATE 4 3).wr R.PT_STATUS_SLAVE_PORT 7) → (u.rd R.PT_STATUS_STATE = 2) → (exec .ptpMasterLost s = .next { u.servo 3 with ptp := { u.ptp with lostAt := u.tb.frc } })) ∧
  (∀ (s : State), (s.fw.restarting.contains 3 = true) → (exec .ptpMasterLost s = .next s)) ∧
  (∀ (s u : State), (s.fw.restarting.contains 3 = false) → (s.rd R.PT_STATUS_SLAVE_PORT = 7) → (u = s.wr R.PT_STATUS_SLAVE_PORT 7) → (u.rd R.PT_STATUS_STATE = 2) → (exec .ptpMasterLost s = .next { u.servo 3 with ptp := { u.ptp with lostAt := u.tb.frc } }))

/-- Partner lines, exchange, mirrored rings and digests (rests on R33, R341, R342, R343, R346, R347, R348, R349, R354, R355).
The lines between the units set their status bits; the ACTIVE unit sends the exchange message at its cycle, a following
unit buffers the one of the frame and cuts over at its cycle, or counts a miss; a mirrored ring entry waits for its
release; each unit sends its digest at cycle G and takes its partner's. -/
def Obligations.PairLinesAndMessages : Prop :=
  (∀ (s : State) (on : Bool), (exec (.partnerHealthyChange on) s = .next (s.wr R.PA_STATUS_PARTNER_HEALTHY (if on then 1 else 0)) ∧ exec .partnerMarkPulse s = .next { s with pair := { s.pair with markAt := some s.tb.frc } })) ∧
  (∀ (s : State), (s.sup.keep = false) → (s.role ≠ .solo) → (exec (.partnerDriveChange true) s = .next { s.wr R.PA_STATUS_PARTNER_DRIVE 1 with pair := { s.pair with hold := s.pair.hold } })) ∧
  (∀ (s : State), (exec (.partnerDriveChange false) s = .next (State.driveDated { s.wr R.PA_STATUS_PARTNER_DRIVE 0 with pair := { s.pair with hold := false } } s.driving))) ∧
  (∀ (s : State) (k : Nat) (up : Bool), (k < 2) → (exec (.partnerLinkChange k up) s = .next ((s.wr R.ES_PORT_CFG_LINK (if up then 1 else 0) (4 + k)).pairLinks))) ∧
  (∀ (s u : State) (m : Image) (ecc : List (Nat × Ecc)), (s.pairImage = some m) → (s.role = .active) → (s.pair.cut = false) → (s.tb.frc ≤ s.tb.lastTick + m.decl.exStart / 8) → (u = (((s.toCycle m.decl.exStart).settleThrough m.decl.exStart).regionEcc m ecc).propose) → (exec (.inputExchangeSend ecc) s = .next (State.emit { u with pair := { u.pair with intake := u.intakeNow } } .partner .exchange [m.decl.exStart] (State.exchangeBytes { u with pair := { u.pair with intake := u.intakeNow } } m u.intakeNow)))) ∧
  (∀ (s : State) (m : Image) (ecc : List (Nat × Ecc)), (s.pairImage = some m) → (s.role ≠ .active) → (exec (.inputExchangeSend ecc) s = .next s)) ∧
  (∀ (s : State) (ecc : List (Nat × Ecc)), (s.pairImage = none) → (exec (.inputExchangeSend ecc) s = .next s ∧ exec (.exchangeCutover ecc) s = .next s)) ∧
  (∀ (s : State) (m : ExchMsg), (m.ok = true) → (s.canListens = true) → (s.inRun = true) → (m.unit ≠ s.unitNo) → (s.pair.exch = none) → (m.frameNo = s.tb.frameNo) → (s.pair.cut = false) → (exec (.exchangeMessageRx m) s = .next (State.canCut { s with pair := { s.pair with exch := some m } } m.can))) ∧
  (∀ (s : State) (m : ExchMsg), (m.ok = false) → (exec (.exchangeMessageRx m) s = .next s)) ∧
  (∀ (s w q u v : State) (m : Image) (ecc : List (Nat × Ecc)), (s.pairImage = some m) → (s.pair.cut = false) → (s.tb.frc ≤ s.tb.lastTick + m.decl.cutOver / 8) → (w = (s.toCycle m.decl.cutOver).settle m.decl.cutOver) → (w.role = .solo) → (q = w.regionEcc m ecc) → (q.canListens = false) → (u = { q with pair := { q.pair with cut := true } }) → (v = (List.range ((m.shared.exSize + 31) / 32)).foldl (fun s k => ((s.bus (m.decl.cutOver + k) true (.store 1 (m.shared.exAddr + 32 * k) (((u.ownRegion m).drop (32 * k)).take 32))).cutMirrors (m.shared.exAddr + 32 * k) (((u.ownRegion m).drop (32 * k)).take 32)).foldl (fun s w => s.bus (m.decl.cutOver + k) true (.priv w.1 w.2)) (s.bus (m.decl.cutOver + k) true (.store 1 (m.shared.exAddr + 32 * k) (((u.ownRegion m).drop (32 * k)).take 32)))) u) → (v.role = .solo) → (exec (.exchangeCutover ecc) s = .next (v))) ∧
  (∀ (s w u v : State) (m : Image) (ecc : List (Nat × Ecc)), (s.pairImage = some m) → (s.pair.cut = false) → (s.tb.frc ≤ s.tb.lastTick + m.decl.cutOver / 8) → (w = (s.toCycle m.decl.cutOver).settle m.decl.cutOver) → (w.role = .active) → (u = { w with pair := { w.pair with cut := true } }) → (v = (List.range ((m.shared.exSize + 31) / 32)).foldl (fun s k => ((s.bus (m.decl.cutOver + k) true (.store 1 (m.shared.exAddr + 32 * k) (((u.ownRegion m).drop (32 * k)).take 32))).cutMirrors (m.shared.exAddr + 32 * k) (((u.ownRegion m).drop (32 * k)).take 32)).foldl (fun s w => s.bus (m.decl.cutOver + k) true (.priv w.1 w.2)) (s.bus (m.decl.cutOver + k) true (.store 1 (m.shared.exAddr + 32 * k) (((u.ownRegion m).drop (32 * k)).take 32)))) u) → (v.role = .active) → (exec (.exchangeCutover ecc) s = .next (v.release m.decl.cutOver v.pair.intake))) ∧
  (∀ (s w q u v : State) (m : Image) (ecc : List (Nat × Ecc)) (x : ExchMsg), (s.pairImage = some m) → (s.pair.cut = false) → (s.tb.frc ≤ s.tb.lastTick + m.decl.cutOver / 8) → (w = (s.toCycle m.decl.cutOver).settle m.decl.cutOver) → (w.role = .standby) → (q = w.regionEcc m ecc) → (q.pair.exch = some x) → (q.canListens = true) → (u = { q with pair := { q.pair with cut := true } }) → (v = (List.range ((m.shared.exSize + 31) / 32)).foldl (fun s k => ((s.bus (m.decl.cutOver + k) true (.store 1 (m.shared.exAddr + 32 * k) ((x.region.drop (32 * k)).take 32))).cutMirrors (m.shared.exAddr + 32 * k) ((x.region.drop (32 * k)).take 32)).foldl (fun s w => s.bus (m.decl.cutOver + k) true (.priv w.1 w.2)) (s.bus (m.decl.cutOver + k) true (.store 1 (m.shared.exAddr + 32 * k) ((x.region.drop (32 * k)).take 32)))) u) → (v.role = .standby) → (exec (.exchangeCutover ecc) s = .next (v.release m.decl.cutOver x.intake))) ∧
  (∀ (s w q u0 y u v : State) (m : Image) (ecc : List (Nat × Ecc)), (s.pairImage = some m) → (s.pair.cut = false) → (s.tb.frc ≤ s.tb.lastTick + m.decl.cutOver / 8) → (w = (s.toCycle m.decl.cutOver).settle m.decl.cutOver) → (w.role = .standby) → (q = w.regionEcc m ecc) → (q.pair.exch = none) → (q.canListens = true) → (u0 = { q with pair := { q.pair with cut := true } }) → (y = (u0.wr R.PA_EVENTS_EXCH_MISS 1).inc R.PA_EXCH_MISS) → (u = { y with pair := { q.pair with cut := true, ownInputs := true } }) → (v = (List.range ((m.shared.exSize + 31) / 32)).foldl (fun s k => ((s.bus (m.decl.cutOver + k) true (.store 1 (m.shared.exAddr + 32 * k) (((u.ownRegion m).drop (32 * k)).take 32))).cutMirrors (m.shared.exAddr + 32 * k) (((u.ownRegion m).drop (32 * k)).take 32)).foldl (fun s w => s.bus (m.decl.cutOver + k) true (.priv w.1 w.2)) (s.bus (m.decl.cutOver + k) true (.store 1 (m.shared.exAddr + 32 * k) (((u.ownRegion m).drop (32 * k)).take 32)))) u) → (v.role = .standby) → (exec (.exchangeCutover ecc) s = .next (v.release m.decl.cutOver []))) ∧
  (∀ (s : State) (q : Nat) (e : Bytes), (s.canListens = true) → (q < 128) → (0 < (s.ring q).depth) → ((s.ring q).dir = 0) → ((s.ring q).entries.length + (s.ring q).gated.length < (s.ring q).depth) → (exec (.gatedRingMirrorRx q e) s = .next (s.updRing q (fun r => { r with gated := r.gated ++ [{ at_ := s.absNow, data := pad64 e }] })))) ∧
  (∀ (s : State) (q : Nat) (e : Bytes), (s.canListens = false) → (exec (.gatedRingMirrorRx q e) s = .next s)) ∧
  (∀ (s : State) (tx : Nat), (s.bit R.PA_CFG_EN = false) → (exec (.digestSend tx) s = .next s)) ∧
  (∀ (s u : State) (tx : Nat), (s.bit R.PA_CFG_EN = true) → (s.inRun = true) → (u = (s.toCycle s.G).settle s.G) → (u.lat.sealed.isNone = false) → (State.linkUp { u with pair := { u.pair with tx } } = false) → (exec (.digestSend tx) s = .next { u with pair := { u.pair with tx } })) ∧
  (∀ (s : State) (m : DigestMsg), (s.bit R.PA_CFG_EN = false ∨ m.unit = s.unitNo) → (exec (.digestMessageRx m) s = .next s)) ∧
  (∀ (s u v : State) (m : DigestMsg), (s.bit R.PA_CFG_EN = true) → (m.unit ≠ s.unitNo) → (s.pair.msg = none) → (s.tb.frc + 300 ≤ s.nextTick) → (u = (s.wr R.PA_STATUS_PARTNER_SEEN 1).wr R.PA_STATUS_PARTNER_ROLE m.role) → (v = State.pairAlign { u with pair := { u.pair with msg := some m, testPartner := if bitOf m.flags 6 then some (!bitOf m.flags 5) else u.pair.testPartner } } m) → (v.role = .standby) → (v.inRun = true) → (exec (.digestMessageRx m) s = .next (v.settleNow.commit m)))

/-- Failover, handover, join, leave and state transfer (rests on R356, R357, R360, R361, R362, R363, R364, R365, R366, R371).
An eligible unit whose partner falls silent takes over at its tick; both links down for three frames separate the units; a
handover is armed and takes effect at its boundary; a unit joins from STOP, and again by AUTOJOIN; a SYNCING unit becomes
STANDBY after AGREE_MIN frames; a state transfer runs by rounds to its final one, or times out; the pair test ends and its
outcome acts; a message of the management path has its effect. -/
def Obligations.PairTransitions : Prop :=
  (∀ (s u : State), (s.ticking = false ∨ s.tb.frc < s.nextTick) → (0 < s.nextTick) → (u = s.toFrc (s.nextTick - 100)) → (u.eligible = true) → (u.lat.marker = true) → (u.bit R.PA_STATUS_PARTNER_HEALTHY = false ∨ u.pair.markAt = none) → (exec .failoverCheck s = .next { u with pair := { u.pair with takeover := some s.nextTick } })) ∧
  (∀ (s : State), (s.pair.down < 3) → (exec .partnerLinksLost s = .next s)) ∧
  (∀ (s : State), (3 ≤ s.pair.down) → (s.toTick.role = .active) → (s.role = .active) → (exec .partnerLinksLost s = .next s.toTick.toSolo)) ∧
  (∀ (s : State), (3 ≤ s.pair.down) → (s.role = .standby) → (s.toTick.role = .standby) → (exec .partnerLinksLost s = .next ((State.wr { s.toTick with pair := { s.toTick.pair with separated := true } } R.PA_EVENTS_LINKS_LOST 1).stopSoon))) ∧
  (∀ (s : State), (exec .paCmdHandover s = .next (s.armHandover (s.rd64 R.PA_HANDOVER_AT_H_LO R.PA_HANDOVER_AT_H_HI)) ∧ exec .paCmdLeave s = .next s.leave ∧ exec .paCmdCancel s = .next s.pairCancel)) ∧
  (∀ (s : State), (s.rd R.PA_HANDOVER_STATE ≠ 2) → (exec .handoverTakesEffect s = .next s)) ∧
  (∀ (s u : State), (s.rd R.PA_HANDOVER_STATE = 2) → (s.pair.hFrame = s.tickFrame) → (s.role = .standby) → (u = (((s.toTick.wr R.PA_HANDOVER_STATE 3).wr R.PA_EVENTS_HANDOVER 1).inc R.PA_HANDOVERS).wake 0x0704 0 0) → (u.role = .standby) → (exec .handoverTakesEffect s = .next (u.takeActive .active))) ∧
  (∀ (s : State), (s.bit R.PA_CFG_REVERT = true) → (s.preferred = true) → (s.role = .standby) → (0 < s.rd R.PA_AGREE_RUN) → (s.pair.agreeAt + s.rd R.PA_TIMES_REVERT_HOLD * 100000000 ≤ s.tb.frc) → (exec .pairRevert s = .next (s.path [1]))) ∧
  (∀ (s : State), (s.role ≠ .standby) → (exec .pairRevert s = .next s)) ∧
  (∀ (s : State) (q : PartnerInfo), (s.unit = .stop) → (s.bit R.PA_CFG_EN = true) → (exec (.paCmdJoin q) s = .next (s.join q))) ∧
  (∀ (s : State) (q : PartnerInfo), (s.unit ≠ .stop) → (exec (.paCmdJoin q) s = .next s ∧ exec (.autojoin q) s = .next s)) ∧
  (∀ (s : State) (q : PartnerInfo) (t : Nat), (s.pair.separated = true) → (s.bit R.PA_CFG_AUTOJOIN = true) → (s.unit = .stop) → (s.bit R.PA_CFG_EN = true) → (s.pair.upAt = some t) → (t + 1000000000 ≤ s.tb.frc) → (exec (.autojoin q) s = .next (s.join q))) ∧
  (∀ (s : State), (s.role = .syncing) → (s.pair.mixed = false) → (s.pair.compared = true) → (s.rd R.PA_TIMES_AGREE_MIN ≤ s.rd R.PA_AGREE_RUN) → (exec .standbyPromotion s = .next ((s.toTick.setRole .standby).wake 0x0702 0 0))) ∧
  (∀ (s : State), (s.role ≠ .syncing) → (exec .standbyPromotion s = .next s)) ∧
  (∀ (s : State) (gs : List (Nat × Bytes)), (s.pair.xferAt = none) → (exec (.stateTransferRound gs) s = .next s)) ∧
  (∀ (s u : State) (gs : List (Nat × Bytes)) (t : Nat), (s.pair.xferAt = some t) → (s.rd R.PA_JOIN_STATUS_XFER ≠ 3) → (s.pair.joining = true) → (u = (gs.filter (fun g => xferTracked g.1)).foldl (fun s g => s.setBytes g.1 (g.2.take 32)) s) → (exec (.stateTransferRound gs) s = .next (((u.inc R.PA_JOIN_STATUS_ROUND).wr R.PA_JOIN_STATUS_XFER 2).wr R.PA_JOIN_STATUS_DIRTY (min 255 ((32 * gs.length + 65535) / 65536))))) ∧
  (∀ (s : State) (x : XferFinal) (t : Nat), (s.pair.xferAt = some t) → (s.pair.joining = true) → (exec (.stateTransferFinal x) s = .next { s.wr R.PA_JOIN_STATUS_XFER 3 with pair := { s.pair with finalAt := some x } })) ∧
  (∀ (s : State) (x : XferFinal), (s.pair.xferAt = none) → (exec (.stateTransferFinal x) s = .next s ∧ exec .stateTransferTimeout s = .next s)) ∧
  (∀ (s : State) (t : Nat), (s.pair.xferAt = some t) → (t + 6000000000 ≤ s.tb.frc) → (s.pair.finalAt = none) → (s.role ≠ .syncing) → (exec .stateTransferTimeout s = .next s.xferFails)) ∧
  (∀ (s u : State) (p a b : Bool), (s.pair.test.isNone = false) → (s.role = .active) → (u = { s with pair := { s.pair with testOwn := some (s.pair.testOwn.getD p) } }) → (u.pair.testOwn = some a) → (u.pair.testPartner = some b) → (exec (.pairSelftestComplete p) s = .next (u.toTick.testActs a b))) ∧
  (∀ (s : State) (p : Bool), (s.pair.test.isNone = true) → (exec (.pairSelftestComplete p) s = .next s)) ∧
  (∀ (s : State) (m : PathMsg), (s.bit R.PA_CFG_EN = false) → (exec (.managementPathMessageRx m) s = .next s)) ∧
  (∀ (s : State) (h : Option Nat) (r : Nat), (s.unit ≠ .off) → (s.fw.restarting.contains 0 = false) → (s.bit R.PA_CFG_EN = true) → (s.inRun = true) → (exec (.managementPathMessageRx (.prepared h r)) s = .next (s.partnerPrepared h r) ∧ exec (.managementPathMessageRx .entering) s = .next { s with pair := { s.pair with partnerIn := some true } } ∧
      (∀ m, exec (.managementPathMessageRx (.joinRequest m)) s = .next (s.partnerJoins m)) ∧ (∀ a b c d, exec (.managementPathMessageRx (.schedule a b c d)) s = .next (s.scheduleFrom a b c d)) ∧
      (∀ a o, exec (.managementPathMessageRx (.scheduled a o)) s = .next (s.scheduleConfirmed a o))))

/-- The reflective indicator and its gateway (rests on R436, R441, R443, R444, R446, R448, R449, R450, R451, R452). A
rectangle is submitted by register or by packet; the head completion is taken; a waiting rectangle starts and completes,
reporting DONE and repainting; the legal page moves every 10 s; the charge pump takes over the rails and is released when
nothing is in flight; a broken crack loop stops the panel; a start repaints the whole panel. -/
def Obligations.IndicatorGateway : Prop :=
  (∀ (s : State), (exec .dgSubmit s = .next (s.dgSubmit (s.rd R.DG_RECT_X) (s.rd R.DG_RECT_Y) (s.rd R.DG_SIZE_W) (s.rd R.DG_SIZE_H) (s.rd R.DG_CTRL_WAVE) (s.dgBuf (min 17600 (s.rd R.DG_SIZE_W * s.rd R.DG_SIZE_H / 4)))).1)) ∧
  (∀ (s : State), (exec .dgDonePop s = .next (State.dgShow { s with disp := { s.disp with done := s.disp.done.drop 1 } }))) ∧
  (∀ (s : State) (temp : Int), (s.fw.restarting.contains 6 = false) → (exec (.rectangleStart temp) s = .next (s.dgStart temp))) ∧
  (∀ (s : State) (temp : Int), (s.fw.restarting.contains 6 = true) → (exec (.rectangleStart temp) s = .next s)) ∧
  (∀ (s : State), (firstDone s.disp.flight = none) → (exec .rectangleComplete s = .next s)) ∧
  (∀ (s : State) (f : Flight), (firstDone s.disp.flight = some f) → (f.done ≤ s.tb.frc) → (f.rect.h ≠ 240) → (exec .rectangleComplete s = .next ((((State.dgPainted { s with disp := { s.disp with flight := s.disp.flight.erase f } } f.rect).dgReportAll [f.rect] 0)).dgUpdate))) ∧
  (∀ (s : State), (s.disp.ready = true) → (s.disp.pageAt + 1000000000 ≤ s.tb.frc) → (exec .legalPageAdvance s = .next (if Config.variantM then State.dgLegal { s with disp := { s.disp with page := nextPage s.met.params.pages s.disp.page, pageAt := s.tb.frc } } else s))) ∧
  (∀ (s : State), (s.disp.ready = false) → (exec .legalPageAdvance s = .next s)) ∧
  (∀ (s : State), (exec .railOutOfTolerance s = .next (State.dgUpdate { s with disp := { s.disp with pump := true, pumpAt := s.tb.frc } }))) ∧
  (∀ (s : State), (s.disp.flight = []) → (s.tb.frc < s.disp.pumpAt + 100000000) → (exec .pumpRelease s = .next s)) ∧
  (∀ (s : State), (s.disp.flight = []) → (s.disp.pumpAt + 100000000 ≤ s.tb.frc) → (exec .pumpRelease s = .next (State.dgUpdate { s with disp := { s.disp with pump := false } }))) ∧
  (∀ (s : State) (f : Flight) (fs : List Flight), (s.disp.flight = f :: fs) → (exec .pumpRelease s = .next s)) ∧
  (∀ (s : State), (s.disp.ready = true) → (s.disp.crack = false) → (exec (.crackCheck true) s = .next s.dgCrack ∧ exec (.crackCheck false) s = .next s.dgUpdate)) ∧
  (∀ (s u v : State) (temp : Int), (s.disp.ready = false) → (s.met.powered = true) → (u = { s with disp := { s.disp with ready := true, crack := false, repaint := true, lost := [], page := nextPage s.met.params.pages 7, pageAt := s.tb.frc } }) → (v = s.disp.lost.foldl (fun s t => s.dgReport t 3) { u with disp := { u.disp with want := u.legalVals, wantAt := (u.met.sec, u.met.ns), legalWait := false } }) → (exec (.startRepaint temp false) s = .next ((State.dgStart { v with disp := { v.disp with redo := [v.wholeRect] } } temp).dgUpdate))) ∧
  (∀ (s : State) (temp : Int) (b : Bool), (s.disp.ready = true) → (exec (.startRepaint temp b) s = .next s)) ∧
  (∀ (s : State) (r : Req) (x : Nat) (y : Nat) (w : Nat) (h : Nat) (pixels : Bytes), (Passes s r { op := opRect, level := .operator }) → (exec (.indRect r x y w h pixels) s = .next (let t := s.takeReq r { op := opRect, level := .operator }; State.indSubmit t r { op := opRect, level := .operator } x y w h 1 pixels))) ∧
  (∀ (s : State) (r : Req), (Passes s r { op := opClear, level := .operator }) → (exec (.indClear r) s = .next (let t := s.takeReq r { op := opClear, level := .operator }; State.indSubmit t r { op := opClear, level := .operator } 0 64 400 176 0 (List.replicate 17600 0xFF)))) ∧
  (∀ (s : State) (r : Req), (Passes s r { op := 0x0B02, level := .observer }) → (exec (.indStatus r) s = .next (let t := s.takeReq r { op := 0x0B02, level := .observer }; State.reply t r { op := 0x0B02, level := .observer } 0 [t.rd R.DG_STATUS_READY, t.rd R.DG_STATUS_REPAINT, t.rd R.DG_STATUS_CRACK, t.rd R.DG_STATUS_LEGAL_WAIT, t.rd R.DG_STATUS_IN_FLIGHT, t.rd R.DG_STATUS_QUEUED])))

/-- Feeds, power failure, trips and supervisor faults (rests on R36, R475, R476, R481, R482, R483, R484, R507). A feed is
read, disconnected above 33.0 V and reconnected below 32.5 V; the power-fail warning flushes the journal and is shown, its
clearing before the lattice stop undoes it; the lattice stops by the first tick at or after it or 15 ms after it; the unit
is OFF 20 ms after it; a lost tick, over-temperature and a rail out of range set their event and halt the unit. -/
def Obligations.SupplySupervision : Prop :=
  (∀ (s : State) (n mv : Nat), (n < 2) → (exec (.feedOutOfRange n mv) s = .next (s.feedReads n mv (s.sup.feedOn.getD n true)))) ∧
  (∀ (s : State), (exec (.feedOvervoltage 0) s = .next ((s.feedReads 0 (max 33001 (s.sup.feeds.getD 0 0)) false).wr R.SS_EVENTS_FEED0_LOST 1) ∧ exec (.feedOvervoltage 1) s = .next ((s.feedReads 1 (max 33001 (s.sup.feeds.getD 1 0)) false).wr R.SS_EVENTS_FEED1_LOST 1))) ∧
  (∀ (s : State) (n mv : Nat), (2 ≤ n) → (exec (.feedOutOfRange n mv) s = .next s ∧ exec (.feedOvervoltage n) s = .next s ∧ exec (.feedReconnect n mv) s = .next s)) ∧
  (∀ (s : State) (n mv : Nat), (n < 2) → (mv < 32500) → (exec (.feedReconnect n mv) s = .next (s.feedReads n mv true))) ∧
  (∀ (s u : State) (x : MeterIn), (s.unit ≠ .off) → (s.sup.pfwAt = none) → (u = State.journal (State.inc (State.wr { s with sup := { s.sup with pfwAt := some s.tb.frc, pfwClearAt := none, latticeStop := s.sup.latticeStop || s.unit == UnitState.boot } } R.SS_STATUS_PFW 1) R.SS_PFW) 0x0B .pfw) → (exec (.powerFailWarning x) s = .next (((u.evalTrips.metSplit x).dgWarn).flushJournal))) ∧
  (∀ (s : State) (x : MeterIn), (s.unit = .off) → (exec (.powerFailWarning x) s = .next s)) ∧
  (∀ (s : State), (s.sup.pfwAt = none) → (exec .powerFailWarningClear s = .next s ∧ exec .latticeStop s = .next s ∧ exec .holdUpEnd s = .next s)) ∧
  (∀ (s u : State) (t : Nat), (s.sup.pfwAt = some t) → (u = (s.wr R.SS_STATUS_PFW 0).evalTrips) → (u.sup.latticeStop = false) → (exec .powerFailWarningClear s = .next (((((State.wr { u with sup := { u.sup with pfwAt := none } } R.SS_EVENTS_PFW_SEEN 1).zeroiseRest).journal 0x0B .warnCleared).metWarnClear).dgUpdate))) ∧
  (∀ (s : State) (t : Nat), (s.sup.pfwAt = some t) → (s.sup.latticeStop = false) → (s.nextTick ≤ t + 1500000) → (exec .latticeStop s = .next s.frameTick)) ∧
  (∀ (s : State) (t : Nat), (s.sup.pfwAt = some t) → (s.sup.latticeStop = false) → (t + 1500000 < s.nextTick) → (exec .latticeStop s = .next ((s.toFrc (t + 1500000)).powerStop s.tb.frameNo))) ∧
  (∀ (s u v : State) (t : Nat), (s.sup.pfwAt = some t) → (t + 2000000 ≤ s.tb.frc) → (s.inRun = false) → (u = s.acc.sessions.foldl (fun s x => s.closeSession x.id) s) → (v = { u.wr R.TT_RET_FRAME_LOST (min 1 s.tt.sealedRecs.length) with unit := .off, tt := { u.tt with sealedRecs := [], throughPending := [] }, sup := { u.sup with supply := false, keep := false }, groups := u.groups.map (fun (g : Group) => { g with supply := false }) }) → (exec .holdUpEnd s = .next (((v.wr R.DIO_STATUS_OUT_OFF 1).evalTrips).driveAll))) ∧
  (∀ (s : State) (v : Nat), (exec .tickLost s = .next (((s.wr R.SS_EVENTS_TICK_LOST 1).inc R.SS_TICK_LOST).faultHalt 3) ∧ exec .railOutOfRange s = .next ((s.wr R.SS_EVENTS_RAIL 1).faultHalt 5) ∧
      exec (.ssTripCmd v) s = .next (s.evalTrips (v % 16)) ∧ exec (.ssTripLatchReset v) s = .next (s.tripReset v))) ∧
  (∀ (s : State) (temp : Int), (1150 < temp) → (exec (.overTemperature temp) s = .next ((State.wr { s.wr R.SS_TEMP (ofInt 16 temp) with sup := { s.sup with temp } } R.SS_EVENTS_TEMP 1).faultHalt 4))) ∧
  (∀ (s : State) (temp : Int), (temp ≤ 1150) → (exec (.overTemperature temp) s = .next { s.wr R.SS_TEMP (ofInt 16 temp) with sup := { s.sup with temp } }))

/-- Wear evaluation, switch-ins and the journal buffer (rests on R486, R487, R488, R489, R492, R493, R494, R495). A switch-in
is ordered or waits, its copy is made in the guard band, it commits into the map with a journal entry, or is cancelled; an
evaluation beyond WARN sets its bit and one journal entry, one beyond ACT counts and acts; an entry made takes the next
SEQ and the stamps of the tb, or is counted as lost while the RAM buffer holds 64; the buffer is flushed at 16 entries or
100 ms, of which the newest 65,536 stay; CLEAR clears a block's counters. -/
def Obligations.HealthAndSpares : Prop :=
  (∀ (s : State) (k i : Nat), (s.lockOpen = false) → (s.hsWaits = false) → (exec (.hsSwitchStart k i) s = .next (s.hsStart (s.rd R.HS_SWITCH_KIND) (s.rd R.HS_SWITCH_INDEX)))) ∧
  (∀ (s u : State) (k i : Nat), (s.lockOpen = true) → (u = (s.wr R.HS_SWITCH_KIND k).wr R.HS_SWITCH_INDEX i) → (u.hsWaits = true) → (exec (.hsSwitchStart k i) s = .next ((u.hsOrder (u.rd R.HS_SWITCH_KIND) (u.rd R.HS_SWITCH_INDEX)).wr R.HS_SWITCH_STATUS_STATE 1))) ∧
  (∀ (s : State) (k : Nat), (s.hs.switches = []) → (exec (.switchInCommit k) s = .next s ∧ exec (.rowSpareCopy k) s = .next s)) ∧
  (∀ (s u v : State) (k i sp : Nat) (rdy : Bool), (s.hs.switches.find? (fun x => x.kind == k) = some ⟨k, i, sp, rdy⟩) → (s.hsReady ⟨k, i, sp, rdy⟩ = true) → (3 ≤ k) → (u = State.hsUse { s.hsPoint k with hs := { (s.hsPoint k).hs with maps := (s.hsPoint k).hs.maps ++ [(k, i, sp)] } } k) → (v = { u with hs := { u.hs with switches := u.hs.switches.filter (fun y => y.kind != k), beyond := u.hs.beyond.filter (fun b => !(b.1 == k && b.2.1 == i)), warned := u.hs.warned.filter (fun w => w != (k, i)) } }) → (exec (.switchInCommit k) s = .next (((v.hsBusy.wr R.HS_SWITCH_STATUS_STATE 3).journal 0x0E .switchIn [k, i, sp]).hsNext))) ∧
  (∀ (s : State) (k : Nat), (3 ≤ k) → (k ≤ 5) → ((s.hs.switches.any (fun x => x.kind == k && !x.ready)) = true) → (s.inRun = false) → (exec (.rowSpareCopy k) s = .next (State.wr { s with hs := { s.hs with switches := s.hs.switches.map (fun (x : SwitchIn) => if x.kind == k then { x with ready := true } else x) } } R.HS_SWITCH_STATUS_STATE 2))) ∧
  (∀ (s : State), (exec .hsSwitchCancel s = .next (s.hsCancel (s.rd R.HS_SWITCH_KIND)))) ∧
  (∀ (s : State) (k i m e : Nat) (f : Bool), (11 ≤ k) → (exec (.wearEvaluation k i m e f) s = .next s)) ∧
  (∀ (s : State) (k i m e : Nat), (s.evalDue k i false = false) → (exec (.wearEvaluation k i m e false) s = .next s)) ∧
  (∀ (s u v : State) (k i m e : Nat), (k < 11) → (k ≠ 2) → (s.evalDue k i false = true) → (u = { s with hs := { s.hs with evals := (k, i, s.tb.frc) :: s.hs.evals.filter (fun e => !(e.1 == k && e.2.1 == i)) } }) → (wearBeyond k (u.rd R.HS_THR_WARN k) m e = true) → (u.hs.warned.contains (k, i) = false) → (v = State.journal (State.wr { u with hs := { u.hs with warned := (k, i) :: u.hs.warned } } R.HS_WARN (u.rd R.HS_WARN ||| 2 ^ k)) 0x0E .wear [k, i, 1]) → (wearBeyond k (v.rd R.HS_THR_ACT k) m e = false) → (exec (.wearEvaluation k i m e false) s = .next { v with hs := { v.hs with beyond := v.hs.beyond.filter (fun b => !(b.1 == k && b.2.1 == i)) } })) ∧
  (∀ (s : State), (16 ≤ s.jr.ram.length) → (exec .journalFlush s = .next s.flushJournal)) ∧
  (∀ (s : State), (s.jr.ram = []) → (exec .journalFlush s = .next s)) ∧
  (∀ (s : State) (b n : Nat), (exec (.hsClearGo b n) s = .next (((s.wr R.HS_CLEAR_BLOCK b).wr R.HS_CLEAR_UNIT n).hsClear (((s.wr R.HS_CLEAR_BLOCK b).wr R.HS_CLEAR_UNIT n).rd R.HS_CLEAR_BLOCK) (((s.wr R.HS_CLEAR_BLOCK b).wr R.HS_CLEAR_UNIT n).rd R.HS_CLEAR_UNIT)))) ∧
  (∀ (s : State) (src : Nat) (e : JEvent) (d : List Nat), (s.jr.ram.length < 64) → (s.journal src e d = { s with jr := { s.jr with nextSeq := (s.jr.nextSeq + 1) % 2 ^ 32, ram := { seq := s.jr.nextSeq, source := src, event := e, frc := s.tb.frc, sec := s.tb.sec, ns := s.tb.ns, frac := s.tb.frac, session := 0, cred := 0, data := d } :: s.jr.ram } })) ∧
  (∀ (s : State) (src : Nat) (e : JEvent) (d : List Nat), (64 ≤ s.jr.ram.length) → (s.journal src e d = State.inc { s with jr := { s.jr with nextSeq := (s.jr.nextSeq + 1) % 2 ^ 32 } } R.HS_JOURNAL_LOST)) ∧
  (∀ (s : State), (s.flushJournal = { s with jr := { s.jr with flash := (s.jr.ram ++ s.jr.flash).take 65536, ram := [] } }))

/-- The metering compartment (rests on R413, R415, R418, R420, R422, R427, R428, R430, R436, R437). On NPS-96D-M, with its
supply: an interval ends and is committed; TOTALS leave once a second with the audit replay, PROFILE at the end of its
period, STATUS and CERT when due; the audit log takes self-test failures, phase losses and overloads; the auxiliary supply
falls and returns. On NPS-96D-X nothing of the compartment happens (log entry 19). -/
def Obligations.MeteringCompartment : Prop :=
  (∀ (s : State) (x : MeterIn), (s.met.powered = true) → (exec (.meteringIntervalEnd x) s = .next (if Config.variantM then ((s.metCommit x (10000 - s.met.partUs) (s.met.partUs != 0)).metBoundary.profileFlags.dgLegal) else s))) ∧
  (∀ (s : State) (x : MeterIn), (s.met.powered = false) → (exec (.meteringIntervalEnd x) s = .next s ∧ exec .totalsRecordSend s = .next s ∧ exec .profilePeriodEnd s = .next s ∧ exec .certRecordSend s = .next s ∧ exec .resealArmExpiry s = .next s)) ∧
  (∀ (s u : State) (x : MeterIn), (s.met.powered = true) → (u = State.profileFlags (State.audit (s.metCommit x (min x.us (10000 - s.met.partUs)) true) 0x0004 0xFF (min x.us (10000 - s.met.partUs)) (s.metCommit x (min x.us (10000 - s.met.partUs)) true).met.intervals)) → (exec (.auxSupplyLow x) s = .next (if Config.variantM then State.dgDown { u with met := { u.met with powered := false, partUs := 0, armed := none } } else s.dgDown))) ∧
  (∀ (s u : State) (n : Nat), (s.met.powered = false) → (s.met.latch = false) → (s.met.lid = false) → (u = { s with met := { s.met with powered := true, starting := true, sec := (s.met.sec + n) % 2 ^ 64, clockInvalid := s.met.clockInvalid || false, totalsAt := none, statusAt := none, certAt := none } }) → (exec (.auxSupplyReturn n true) s = .next (if Config.variantM then ((u.audit 0x0001 0xFF n 0).profileFlags) else s))) ∧
  (∀ (s : State), (s.met.powered = true) → (s.met.totalsAt = some s.met.sec) → (exec .totalsRecordSend s = .next (if Config.variantM then s else s))) ∧
  (∀ (s u : State) (e : AuditEntry), (s.met.powered = true) → (s.met.totalsAt ≠ some s.met.sec) → (e = s.met.log.getD (s.met.replay % max 1 s.met.log.length) { seq := 0, sec := 0, ms := 0, code := 0, sys := 0, cls := 0, old := 0, new := 0 }) → (u = s.metSend 1 (s.regBytes 0 24 ++ leBytes 8 s.met.intervals ++ leBytes 4 s.met.partials ++ leBytes 4 0 ++ e.bytes)) → (exec .totalsRecordSend s = .next (if Config.variantM then { u with met := { u.met with totalsAt := some u.met.sec, replay := (u.met.replay + 1) % max 1 u.met.log.length } } else s))) ∧
  (∀ (s : State), (s.met.powered = true) → (s.met.sec / (60 * s.met.params.period) * (60 * s.met.params.period) = s.met.pstart) → (exec .profilePeriodEnd s = .next (if Config.variantM then s else s))) ∧
  (∀ (s : State), (s.met.powered = true) → (s.met.sec / (60 * s.met.params.period) * (60 * s.met.params.period) ≠ s.met.pstart) → (∃ u : State, exec .profilePeriodEnd s = .next (if Config.variantM then { u with met := { u.met with base := u.met.regs.map (·.1), pstart := s.met.sec / (60 * s.met.params.period) * (60 * s.met.params.period), pflags := u.metFlags } } else s) ∧ u.met.sec = s.met.sec)) ∧
  (∀ (s u : State) (x : MeterNow), (s.met.powered = true) → (s.met.statusAt = none) → (u = s.metSend 4 (statusBytes s.met.params x ++ s.cfgHashMet ++ leBytes 4 s.metState)) → (exec (.statusRecordSend x) s = .next (if Config.variantM then (State.metEvents { u with met := { u.met with statusAt := some u.met.up, statusWord := u.metWord, starting := false } }) else s))) ∧
  (∀ (s u v : State), (s.met.powered = true) → (s.met.certAt = none) → (u = s.metSend 5 (leBytes 1 0 ++ leBytes 1 2 ++ leBytes 2 (Config.metCert.take 348).length ++ Config.metCert.take 348)) → (v = u.metSend 5 (leBytes 1 1 ++ leBytes 1 2 ++ leBytes 2 ((Config.metCert.drop 348).take 348).length ++ (Config.metCert.drop 348).take 348)) → (exec .certRecordSend s = .next (if Config.variantM then { v with met := { v.met with certAt := some v.met.up } } else s))) ∧
  (∀ (s : State) (c a o n : Nat), (s.met.powered = true) → (c = 0x0040) → (exec (.auditEntryWrite c a o n) s = .next (if Config.variantM then ((State.audit { s with met := { s.met with measErr := true } } c a o n).metEvents) else s))) ∧
  (∀ (s : State) (c a o n : Nat), (s.met.powered = true) → (c ≠ 0x0040) → (c ≠ 0x0041) → (exec (.auditEntryWrite c a o n) s = .next (if Config.variantM then s else s))) ∧
  (∀ (s : State) (y k : Nat), (s.met.powered = true) → (2 ≤ y) → (exec (.phaseLoss y k) s = .next (if Config.variantM then s else s))) ∧
  (∀ (s u : State) (y k : Nat), (s.met.powered = true) → (y < 2) → (k % 8 = 7) → (s.met.phases.getD y 0 = 0) → (u = { s with met := { s.met with phases := s.met.phases.set y (k % 8) } }) → (exec (.phaseLoss y k) s = .next (if Config.variantM then ((u.audit 0x0030 y 7 0).metEvents) else s))) ∧
  (∀ (s u : State) (y k a : Nat), (s.met.powered = true) → (y < 4) → (k % 8 = 7) → (s.met.overload.getD y 0 = 0) → (u = { s with met := { s.met with overload := s.met.overload.set y (k % 8) } }) → (exec (.overload y k a) s = .next (if Config.variantM then ((u.audit 0x0032 y 7 a).metEvents) else s)))

/-- Seal, service window and the module's mailbox (rests on R423, R424, R431, R432, R433, R434, R438). Lifting the cover opens
the latch, with supply or without, logged and counted when seen; closing it with a reseal armed returns the latch; the lid
is logged once; the service window writes a parameter only while the latch is OPEN and answers reads; an armed reseal
lapses after 120 s; a good link frame is stored, a bad one counted; POP and the verification of the head record. -/
def Obligations.SealServiceWindowAndMailbox : Prop :=
  (∀ (s u v : State), (s.met.powered = true) → (s.met.latch = false) → (u = { s with met := { s.met with cover := true, latch := true, counted := s.met.counted && !true } }) → (v = { u with met := { u.met with counted := true, sealCount := (u.met.sealCount + 1) % 2 ^ 32 } }) → (exec .sealCoverOpen s = .next (if Config.variantM then ((v.audit 0x0010 0xFF 0 0).profileFlags.metEvents.dgLegal) else s))) ∧
  (∀ (s : State), (s.met.latch = true) → (exec .sealCoverOpen s = .next (if Config.variantM then { s with met := { s.met with cover := true, latch := true, counted := s.met.counted && !false } } else s))) ∧
  (∀ (s : State) (i y v n : Nat), (s.met.powered = true) → (s.met.latch = false) → (exec (.serviceWindowWrite i y v n) s = .next (if Config.variantM then s else s))) ∧
  (∀ (s : State) (y v n : Nat), (s.met.powered = true) → (s.met.latch = true) → (metRange 12 v n = true) → (s.logFull = false) → (exec (.serviceWindowWrite 12 y v n) s = .next (if Config.variantM then (State.metEvents (State.audit { s with met := { s.met with waiting := s.met.waiting ++ [(12, 0xFF, v, 0)] } } 0x0020 0xFF (((s.met.waiting.reverse.find? (fun w => w.1 == 12)).map (·.2.2.1)).getD ((s.met.armed.map (·.1)).getD 0)) v)) else s))) ∧
  (∀ (s : State) (y : Nat), (s.met.powered = true) → (exec (.serviceWindowRead 11 y) s = .next (if Config.variantM then (s.emit .service .reply [11, s.met.sec, s.met.ns]) else s))) ∧
  (∀ (s : State) (t n : Nat), (s.met.powered = true) → (s.met.armed = some (n, t)) → (t + 120000000 ≤ s.met.up) → (exec .resealArmExpiry s = .next (if Config.variantM then { s with met := { s.met with armed := none } } else s))) ∧
  (∀ (s : State), (s.met.powered = true) → (s.met.armed = none) → (exec .resealArmExpiry s = .next (if Config.variantM then s else s))) ∧
  (∀ (s u : State) (n t : Nat), (s.met.powered = true) → (s.met.armed = some (n, t)) → (s.met.latch = true) → (s.met.up < t + 120000000) → (u = { s with met := { s.met with cover := false, latch := false, counted := false, armed := none } }) → (exec .sealCoverClose s = .next (if Config.variantM then ((u.audit 0x0011 0xFF 0 n).metEvents.dgLegal) else s))) ∧
  (∀ (s : State), (s.met.armed = none) → (exec .sealCoverClose s = .next (if Config.variantM then { s with met := { s.met with cover := false } } else s))) ∧
  (∀ (s : State), (s.met.powered = true) → (s.met.lid = false) → (exec .lidOpen s = .next (if Config.variantM then ((State.audit { s with met := { s.met with lid := true, lidLogged := true } } 0x0012 0xFF 0 0).profileFlags.metEvents.dgLegal) else s))) ∧
  (∀ (s : State), (s.met.lid = true) → (exec .lidOpen s = .next (if Config.variantM then s else s))) ∧
  (∀ (s : State) (d : Bytes), (exec (.mgRecordRx d false) s = .next (if Config.variantM then ((s.wr R.MG_STATUS_CRC_ERR 1).inc R.MG_CRC) else s))) ∧
  (∀ (s v u : State) (d : Bytes), (v = s.inc R.MG_RECEIVED) → (u = { v with mg := { v.mg with lastGood := some v.tb.frc } }) → (exec (.mgRecordRx d true) s = .next (if Config.variantM then (((u.wr R.MG_STATUS_SEAL_FLAG (leNat ((d.drop 7).take 1) % 2)).wr R.MG_STATUS_LID_FLAG (leNat ((d.drop 7).take 1) / 32 % 2)).mgStore d) else s))) ∧
  (∀ (s : State), (exec .mgRxPop s = .next (if Config.variantM then (State.mgShow { s with mg := { s.mg with queue := s.mg.queue.drop 1 } }) else s))) ∧
  (∀ (s : State) (ok : Bool), (s.mg.queue = []) → (exec (.recordVerify ok) s = .next (if Config.variantM then s else s))) ∧
  (∀ (s u : State) (r : MgRecord) (l : List MgRecord), (s.mg.queue = r :: l) → (u = State.mgShow { s with mg := { s.mg with queue := l } }) → (exec (.recordVerify false) s = .next (if Config.variantM then (u.journal 0x10 .failure [leNat ((r.data.drop 0x0C).take 4)]) else s))) ∧
  (∀ (s : State) (ok : Bool) (r : MgRecord) (l : List MgRecord), (s.mg.queue = r :: l) → (∃ t, exec (.recordVerify ok) s = .next t ∧ (Config.variantM = true → t.mg.queue = l)))

/-- Resets and the boot sequence (rests on R16, R43, R152, R391, R456, R457, R458, R470, R484, R491, R510). A POWER_ON_RESET
leaves the unit in BOOT, SOLO, with the time base of reset, no session, lock, journal buffer, lattice content or base; a
MODULE_RESET does so with the FRC going on, and changes nothing in RECOVERY or without supply; LATTICE_RESET and a write
of 1 to LRST leave the unit in STOP with the lattice reset and no base, and change nothing in BOOT, RECOVERY and without
supply; a brownout restarts the module 100 ms after the warning has cleared. Each boot stage leads to the next or to
RECOVERY, a PUF failure or a lost health record keeps the stage, a cold start waits in stage 0, a power failure stops the
sequence. -/
def Obligations.ResetsAndBootStages : Prop :=
  (∀ (s : State), (s.unit = .stop ∨ s.unit = .run ∨ s.unit = .halt) → (∃ t, exec .latticeReset s = .next t ∧ exec .ttRunLrst s = .next t ∧ t.unit = .stop ∧ t.tb.frc = s.tb.frc ∧ t.lat = Lattice.reset ∧ t.tt.base = none)) ∧
  (∀ (s : State), (s.unit ≠ .stop) → (s.unit ≠ .run) → (s.unit ≠ .halt) → (exec .latticeReset s = .next s ∧ exec .ttRunLrst s = .next s)) ∧
  (∀ (s : State), (∃ t, exec .powerOnReset s = .next t ∧ t.unit = .boot ∧ t.role = .solo ∧ t.tb = TimeBase.reset ∧ t.acc.sessions = [] ∧ t.acc.lock = none ∧ t.jr.ram = [] ∧ t.lat = Lattice.reset ∧ t.tt.base = none)) ∧
  (∀ (s : State), (s.unit ≠ .recovery) → (s.unit ≠ .off) → (∃ t, exec .moduleReset s = .next t ∧ t.unit = .boot ∧ t.role = .solo ∧ t.tb.frc = s.tb.frc ∧ t.tb.frameNo = 0 ∧ t.acc.sessions = [] ∧ t.acc.lock = none ∧ t.jr.ram = [] ∧ t.lat = Lattice.reset ∧ t.tt.base = none)) ∧
  (∀ (s : State), (s.unit = .recovery ∨ s.unit = .off) → (exec .moduleReset s = .next s)) ∧
  (∀ (s : State), (s.sup.latticeStop = false) → (exec .brownoutRestart s = .next s)) ∧
  (∀ (s : State) (t : Nat), (s.sup.latticeStop = true) → (s.sup.supply = true) → (s.unit ≠ .off) → (s.sup.pfwAt = none) → (s.sup.pfwClearAt = some t) → (t + 10000000 ≤ s.tb.frc) → (exec .brownoutRestart s = .next (let u := (s.mrst 1).wr R.SS_EVENTS_BROWNOUT_RESTART 1; { u with sup := { u.sup with pfwClearAt := none } }))) ∧
  (∀ (s : State) (k : Nat), (s.unit ≠ .off) → ((s.mrst k).unit = .boot ∧ (s.mrst k).role = .solo ∧ (s.mrst k).tb.frc = s.tb.frc)) ∧
  (∀ (s : State) (x : BootIn), (s.unit = .stop) → (s.fw.autorun = none) → (exec (.bootStageComplete x) s = .next s)) ∧
  (∀ (s : State) (x : BootIn) (n : Nat), (s.unit = .stop) → (s.fw.autorun = some n) → (s.bit R.PA_STATUS_PARTNER_HEALTHY = false) → (exec (.bootStageComplete x) s = .next (if n + 500000000 ≤ s.tb.frc then State.start { s with fw := { s.fw with autorun := none, auto := true } } 0 else s))) ∧
  (∀ (s : State) (x : BootIn), (s.unit = .boot) → (s.sup.latticeStop = true) → (exec (.bootStageComplete x) s = .next s)) ∧
  (∀ (s : State) (x : BootIn), (s.unit = .boot) → (s.sup.latticeStop = false) → (s.rd R.BT_STATUS_STAGE = 0) → (x.cold = false) → (exec (.bootStageComplete x) s = .next ((s.wr R.SS_STATUS_OSC_OK 1).wr R.BT_STATUS_STAGE 1))) ∧
  (∀ (s : State) (x : BootIn), (s.unit = .boot) → (s.sup.latticeStop = false) → (s.rd R.BT_STATUS_STAGE = 0) → (x.cold = true) → (exec (.bootStageComplete x) s = .next s)) ∧
  (∀ (s : State) (x : BootIn), (s.unit = .boot) → (s.sup.latticeStop = false) → (s.rd R.BT_STATUS_STAGE = 1) → (s.trust.dead = false) → ((if s.rd R.BT_LAST_CAUSE = 0 then x.puf else s.bit R.SE_STATUS_PUF_OK) = false) → (exec (.bootStageComplete x) s = .next (s.wr R.SE_STATUS_PUF_OK 0))) ∧
  (∀ (s : State) (x : BootIn), (s.unit = .boot) → (s.sup.latticeStop = false) → (s.rd R.BT_STATUS_STAGE = 1) → (s.trust.dead = false) → (s.rd R.BT_LAST_CAUSE ≠ 0) → (s.bit R.SE_STATUS_PUF_OK = true) → (s.trust.zeroise = 0) → (s.trust.latched = []) → (exec (.bootStageComplete x) s = .next (State.loadStage (State.seShow (s.wr R.SE_STATUS_PUF_OK 1)) x [partEnclave] 2))) ∧
  (∀ (s : State) (x : BootIn), (s.unit = .boot) → (s.sup.latticeStop = false) → (s.rd R.BT_STATUS_STAGE = 2) → (x.record = false) → (exec (.bootStageComplete x) s = .next (s.wr R.HS_STATUS_RECORD_OK 0))) ∧
  (∀ (s : State) (x : BootIn), (s.unit = .boot) → (s.sup.latticeStop = false) → (s.rd R.BT_STATUS_STAGE = 2) → (x.record = true) → (s.jr.flash = []) → (s.jr.nextSeq = 0) → (exec (.bootStageComplete x) s = .next (State.loadStage ((s.wr R.HS_STATUS_RECORD_OK 1).wr R.HS_JOURNAL_LOST 0) x [partMgmt] 3))) ∧
  (∀ (s : State) (x : BootIn) (ps : List Nat) (k : Nat), (s.loadStage x ps k = (let u := ps.foldl (fun s p => s.loadPart x p) s; if u.rd R.BT_STATUS_FAILED_PARTS = 0 then u.wr R.BT_STATUS_STAGE k else u.toRecovery) ∧ s.toRecovery.unit = .recovery)) ∧
  (∀ (s : State) (x : BootIn) (p : Nat), (x.bad.contains (p, s.rd R.BT_PART_ACTIVE p) = false) → ((s.partBank p (s.rd R.BT_PART_ACTIVE p)).any (s.partVerifies p) = true) → (s.loadPart x p = s.wr R.BT_PART_LOADED 1 p)) ∧
  (∀ (s : State) (x : BootIn) (p : Nat), (s.partBank p 0 = none) → (s.partBank p 1 = none) → (x.bad = []) → (∃ u : State, s.loadPart x p = u.wr R.BT_STATUS_FAILED_PARTS (u.rd R.BT_STATUS_FAILED_PARTS ||| 2 ^ p))) ∧
  (∀ (s : State) (x : BootIn), (s.unit = .boot) → (s.sup.latticeStop = false) → (s.rd R.BT_STATUS_STAGE = 1) → (exec (.bootStageComplete x) s = .next (s.bootEnclave x))) ∧
  (∀ (s : State) (x : BootIn), (s.unit = .boot) → (s.sup.latticeStop = false) → (s.rd R.BT_STATUS_STAGE = 2) → (exec (.bootStageComplete x) s = .next (s.bootMgmt x))) ∧
  (∀ (s : State) (x : BootIn), (s.unit = .boot) → (s.sup.latticeStop = false) → (s.rd R.BT_STATUS_STAGE = 3) → (exec (.bootStageComplete x) s = .next (s.loadStage x ([2, 3, 4, 5] ++ (if Config.variantM then [] else [6])) 4))) ∧
  (∀ (s : State) (x : BootIn), (s.unit = .boot) → (s.sup.latticeStop = false) → (s.rd R.BT_STATUS_STAGE = 4) → (exec (.bootStageComplete x) s = .next (s.bootConfig x))) ∧
  (∀ (s : State) (x : BootIn), (s.unit = .boot) → (s.sup.latticeStop = false) → (s.rd R.BT_STATUS_STAGE = 5) → (exec (.bootStageComplete x) s = .next (s.bootImage x)))

/-- Tamper inputs, sessions and peer sessions (rests on R373, R374, R376, R380, R404, R405). An input that opens is shown and
its action taken once; without supply TI0 and TI3 are latched; a failed handshake is counted; an idle session closes after
120 s with NOTICE 0x0105; keys are updated when due; a malformed header closes its session; an ended peer session keeps
its keys 60 s. -/
def Obligations.TamperSessionsAndPeers : Prop :=
  (∀ (s : State) (i : Nat) (b : Bool), (4 ≤ i) → (exec (.tamperInput i b) s = .next s)) ∧
  (∀ (s : State) (i : Nat), (i < 4) → (s.unit ≠ .off) → (bitOf (s.rd R.SE_TAMPER_STATE) i = false) → (s.rd R.SE_TAMPER_STATE ||| 2 ^ i ≠ 0) → (exec (.tamperInput i true) s = .next (((s.wr R.SE_TAMPER_STATE (s.rd R.SE_TAMPER_STATE ||| 2 ^ i)).wr R.SE_STATUS_TAMPER_NOW 1).tamperAct i))) ∧
  (∀ (s : State), (s.unit = .off) → (s.trust.latched = []) → (exec (.tamperInput 0 true) s = .next { s with trust := { s.trust with latched := [0] } } ∧ exec (.tamperInput 3 true) s = .next { s with trust := { s.trust with latched := [3] } } ∧ exec (.tamperInput 1 true) s = .next s)) ∧
  (∀ (s : State) (h : Handshake), (s.serviceUp = false) → (exec (.sessionHandshake h) s = .next s)) ∧
  (∀ (s : State) (h : Handshake), (s.serviceUp = true) → (h.peer = none) → (s.carrierOn h.carrier = true) → (s.acc.tlsFails = []) → (h.tlsOk = false) → (exec (.sessionHandshake h) s = .next (s.tlsFail h.source))) ∧
  (∀ (s u : State) (h : Handshake) (c : Cred) (lv : Level) (cand : Bool) (x : Session), (s.serviceUp = true) → (h.peer = none) → (h.carrier = .service) → (s.carrierOn .service = true) → (s.acc.tlsFails = []) → (h.tlsOk = true) → (h.cred = some c) → (s.sessionFor .service c = some (lv, cand)) → (u = State.wr { s with acc := { s.acc with nextId := s.acc.nextId + 1 } } R.SE_STATUS_DATES_UNCHECKED (if !s.bit R.TB_STATUS_TOD_VALID then 1 else 0)) → (u.carrierFull .service = false) → (x = { id := s.acc.nextId, level := lv, cred := c.fingerprint, carrier := h.carrier, source := h.source, hello := false, classes := 0, queue := [], lastRx := u.tb.frc, keyFrc := u.tb.frc, records := 0, reopen := none, challenge := none, cand, key := c.key, unchecked := !s.bit R.TB_STATUS_TOD_VALID }) → (exec (.sessionHandshake h) s = .next { u with acc := { u.acc with sessions := u.acc.sessions ++ [x] } })) ∧
  (∀ (s : State) (x : Session), (s.session? x.id = some x) → (x.lastRx + 12000000000 ≤ s.tb.frc) → (exec (.sessionIdleTimeout x.id) s = .next (s.notice x.id 0x0105))) ∧
  (∀ (s : State) (x : Session), (s.session? x.id = some x) → (x.records < 2 ^ 24) → (s.tb.frc < x.keyFrc + 360000000000) → (exec (.tlsKeyUpdate x.id) s = .next s)) ∧
  (∀ (s : State) (x : Session), (s.session? x.id = some x) → (x.keyFrc + 360000000000 ≤ s.tb.frc) → (exec (.tlsKeyUpdate x.id) s = .next (s.updSession x.id (fun x => { x with records := 0, keyFrc := s.tb.frc })))) ∧
  (∀ (s : State) (n : Nat), (s.session? n = none) → (exec (.sessionIdleTimeout n) s = .next s ∧ exec (.tlsKeyUpdate n) s = .next s ∧ exec (.malformedHeader n) s = .next s ∧ exec (.connectionClosed n none) s = .next s)) ∧
  (∀ (s : State) (n : Nat), ((s.session? n).isSome = true) → (exec (.malformedHeader n) s = .next (s.notice n 0x0002) ∧ exec (.connectionClosed n none) s = .next (s.closeSession n))) ∧
  (∀ (s : State) (n p : Nat), (exec (.connectionClosed n (some p)) s = .next { s with trust := { s.trust with peers := s.trust.peers.map (fun (x : Peer) => if x.port == p && x.ended.isNone then { x with ended := some s.tb.frc } else x) } })) ∧
  (∀ (s : State) (p : Nat), (6 ≤ p) → (exec (.peerSessionKeyExpiry p) s = .next s)) ∧
  (∀ (s u : State) (p t : Nat) (x : Peer), (p < 6) → (s.trust.peers = [x]) → (x.port = p) → (x.ended = some t) → (t + 6000000000 ≤ s.tb.frc) → (u = { s with trust := { s.trust with peers := [] } }) → (exec (.peerSessionKeyExpiry p) s = .next (((u.updSec p (fun _ => MacSec.reset)).wr R.ES_MACSEC_KEY_OK 0 p).pairLinks))) ∧
  (∀ (s : State) (r : Req) (op : Nat), (Passes s r { op, level := .observer }) → (op / 256 ≠ 9) → (exec (.undefinedOpcode r op) s = .next (State.reply (s.takeReq r { op, level := .observer }) r { op, level := .observer } 0x0001))) ∧
  (∀ (s : State) (r : Req) (op : Nat), (Passes s r { op, level := .observer }) → (op / 256 = 9) → (exec (.undefinedOpcode r op) s = .next (State.reply (s.takeReq r { op, level := .observer }) r { op, level := .observer } (if Config.variantM = true then 0x0001 else 0x0901))))

/-- Owner, credentials, floors and the enclave mailbox (rests on R394, R395, R397, R401, R402, R403, R405, R406). A packet of
group 0x0A about ownership that passes its checks: the certificates and owner KEY_ID, a take and its refusals, the release
to a successor, the revocation list and its limit of 1,024, the membership certificate, the partner, floors, zeroisation,
the tamper actions. The enclave mailbox takes one request at a time. -/
def Obligations.OwnershipCommands : Prop :=
  (∀ (s : State) (r : Req), (Passes s r { op := 0x0A10, level := .observer }) → (exec (.idCert r) s = .next (let t := s.takeReq r { op := 0x0A10, level := .observer }; State.reply t r { op := 0x0A10, level := .observer } 0 [(t.trust.owner.map keyId).getD 0] (Config.deviceCert ++ Config.caCert)))) ∧
  (∀ (s : State) (r : Req) (fik : Nat) (kcv : Nat) (b : Bool) (x : Session), (Passes s r { op := 0x0A11, level := .observer }) → (s.session? r.session = some x) → (x.cand = false) → (exec (.ownTake r fik kcv b) s = .next (let t := s.takeReq r { op := 0x0A11, level := .observer }; State.reply t r { op := 0x0A11, level := .observer } 0x0A12))) ∧
  (∀ (s : State) (r : Req) (fik : Nat) (kcv : Nat) (x : Session), (Passes s r { op := 0x0A11, level := .observer }) → (s.session? r.session = some x) → (x.cand = true) → (x.carrier = .service) → (s.trust.owner = none) → (kcv = Config.kcv fik) → (exec (.ownTake r fik kcv false) s = .next (let t := s.takeReq r { op := 0x0A11, level := .observer }; (State.seShow { t with trust := { t.trust with owner := some x.key, fik := some fik, successor := none } }).reply r { op := 0x0A11, level := .observer } 0))) ∧
  (∀ (s : State) (r : Req) (k : Nat), (Passes s r { op := 0x0A12, level := .owner }) → (exec (.ownRelease r k) s = .next (let t := s.takeReq r { op := 0x0A12, level := .owner }; State.reply { t with trust := { t.trust with successor := some k } } r { op := 0x0A12, level := .owner } 0))) ∧
  (∀ (s : State) (r : Req) (fps : List Nat), (Passes s r { op := 0x0A13, level := .owner }) → (1024 < s.trust.revoked.length + (fps.eraseDups.filter (fun f => !s.trust.revoked.contains f)).length) → (exec (.credRevoke r fps) s = .next (let t := s.takeReq r { op := 0x0A13, level := .owner }; State.reply t r { op := 0x0A13, level := .owner } 0x0A14))) ∧
  (∀ (s : State) (r : Req) (fps : List Nat), (Passes s r { op := 0x0A13, level := .owner }) → (s.trust.revoked.length + (fps.eraseDups.filter (fun f => !s.trust.revoked.contains f)).length ≤ 1024) → (exec (.credRevoke r fps) s = .next (let t := s.takeReq r { op := 0x0A13, level := .owner }; let n := fps.eraseDups.filter (fun f => !t.trust.revoked.contains f); let u := State.reply { t with trust := { t.trust with revoked := t.trust.revoked ++ n } } r { op := 0x0A13, level := .owner } 0; (u.acc.sessions.filter (fun x => n.contains x.cred)).foldl (fun s x => s.notice x.id 0x0A13) u))) ∧
  (∀ (s : State) (r : Req) (fps : List Nat), (Passes s r { op := 0x0A14, level := .owner }) → (exec (.credUnrevoke r fps) s = .next (let t := s.takeReq r { op := 0x0A14, level := .owner }; State.reply { t with trust := { t.trust with revoked := t.trust.revoked.filter (fun f => !fps.contains f) } } r { op := 0x0A14, level := .owner } 0))) ∧
  (∀ (s : State) (r : Req), (Passes s r { op := 0x0A15, level := .observer }) → (exec (.credList r) s = .next (let t := s.takeReq r { op := 0x0A15, level := .observer }; State.reply t r { op := 0x0A15, level := .observer } 0 t.trust.revoked))) ∧
  (∀ (s : State) (r : Req) (cert : Cred) (d : Bytes), (Passes s r { op := 0x0A16, level := .owner, lock := true }) → (s.credOk cert = true) → (cert.ou = .peer) → (cert.serial = Config.serial) → (cert.key = Config.dik) → (exec (.memberCertSet r cert d) s = .next (let t := s.takeReq r { op := 0x0A16, level := .owner, lock := true }; (State.seShow { t with trust := { t.trust with member := some d } }).reply r { op := 0x0A16, level := .owner, lock := true } 0))) ∧
  (∀ (s : State) (r : Req) (cert : Cred) (d : Bytes), (Passes s r { op := 0x0A16, level := .owner, lock := true }) → (s.credOk cert = false) → (exec (.memberCertSet r cert d) s = .next (let t := s.takeReq r { op := 0x0A16, level := .owner, lock := true }; State.reply t r { op := 0x0A16, level := .owner, lock := true } 0x0003 [1]))) ∧
  (∀ (s : State) (r : Req) (n : Nat), (Passes s r { op := 0x0A17, level := .owner, lock := true }) → (exec (.peerBind r n) s = .next (let t := s.takeReq r { op := 0x0A17, level := .owner, lock := true }; (State.seShow { t with trust := { t.trust with partner := if n = 0 then none else some n } }).reply r { op := 0x0A17, level := .owner, lock := true } 0))) ∧
  (∀ (s : State) (r : Req) (k : Nat) (i : Nat) (v : Nat), (Passes s r { op := 0x0A18, level := .owner, lock := true }) → (k < 2) → (v ≤ alGet 0 s.tt.floors (2 * i + k)) → (exec (.floorSet r k i v) s = .next (let t := s.takeReq r { op := 0x0A18, level := .owner, lock := true }; State.reply { t with tt := { t.tt with floors := alPut 0 t.tt.floors (2 * i + k) v } } r { op := 0x0A18, level := .owner, lock := true } 0))) ∧
  (∀ (s : State) (r : Req) (k : Nat) (i : Nat) (v : Nat), (Passes s r { op := 0x0A18, level := .owner, lock := true }) → (k < 2) → (alGet 0 s.tt.floors (2 * i + k) < v) → (exec (.floorSet r k i v) s = .next (let t := s.takeReq r { op := 0x0A18, level := .owner, lock := true }; State.reply t r { op := 0x0A18, level := .owner, lock := true } 0x0A18))) ∧
  (∀ (s : State) (r : Req) (p : Nat) (i : Nat) (v : Nat), (Passes s r { op := 0x0A18, level := .owner, lock := true }) → (partIndex i = some p) → (v ≤ s.partFloor p) → (exec (.floorSet r 2 i v) s = .next (let t := s.takeReq r { op := 0x0A18, level := .owner, lock := true }; State.reply { t with trust := { t.trust with floors := alPut 0 t.trust.floors p v } } r { op := 0x0A18, level := .owner, lock := true } 0))) ∧
  (∀ (s : State) (r : Req), (Passes s r { op := 0x0A19, level := .observer }) → (exec (.floorRead r) s = .next (let t := s.takeReq r { op := 0x0A19, level := .observer }; State.reply t r { op := 0x0A19, level := .observer } 0 (t.tt.floors.flatMap (fun f => [f.1, f.2]) ++ (List.range 9).map t.partFloor)))) ∧
  (∀ (s : State) (r : Req) (n : Nat) (k : Nat), (Passes s r { op := 0x0A1A, level := .owner }) → (n = 1 ∨ n = 2) → (exec (.zeroise r n k) s = .next (let t := s.takeReq r { op := 0x0A1A, level := .owner }; (State.reply t r { op := 0x0A1A, level := .owner } 0).zeroise n))) ∧
  (∀ (s : State) (r : Req), (Passes s r { op := 0x0A1A, level := .owner }) → (exec (.zeroise r 3 Config.serial) s = .next (let t := s.takeReq r { op := 0x0A1A, level := .owner }; (State.reply t r { op := 0x0A1A, level := .owner } 0).zeroise 3))) ∧
  (∀ (s : State) (r : Req) (n : Nat) (k : Nat), (Passes s r { op := 0x0A1A, level := .owner }) → (n = 0 ∨ 3 < n ∨ (n = 3 ∧ k ≠ Config.serial)) → (exec (.zeroise r n k) s = .next (let t := s.takeReq r { op := 0x0A1A, level := .owner }; State.reply t r { op := 0x0A1A, level := .owner } 0x0A15))) ∧
  (∀ (s : State) (r : Req) (a : Nat), (Passes s r { op := 0x0A1B, level := .owner, lock := true }) → (exec (.tamperCfg r a) s = .next (let t := s.takeReq r { op := 0x0A1B, level := .owner, lock := true }; (t.wr R.SE_TAMPER_ACTIONS (a % 64 + 192)).reply r { op := 0x0A1B, level := .owner, lock := true } 0))) ∧
  (∀ (s : State) (r : Req), (Passes s r { op := 0x0A1C, level := .observer }) → (exec (.tamperRead r) s = .next (let t := s.takeReq r { op := 0x0A1C, level := .observer }; State.reply t r { op := 0x0A1C, level := .observer } 0 ([t.rd R.SE_TAMPER_ACTIONS + 256 * t.rd R.SE_TAMPER_STATE] ++ ((t.jr.ram ++ t.jr.flash).filter (fun e => e.event == .tamper)).map (·.seq))))) ∧
  (∀ (s : State), (s.bit R.SE_MBOX_BUSY = false) → (exec .seMboxGo s = .next (s.wr R.SE_MBOX_BUSY 1) ∧ exec .seReplyReady s = .next s)) ∧
  (∀ (s : State), (s.bit R.SE_MBOX_BUSY = true) → (exec .seMboxGo s = .next s)) ∧
  (∀ (s u : State), (s.bit R.SE_MBOX_BUSY = true) → (s.fw.restarting.contains 1 = false) → (u = (List.range 128).foldl (fun s i => (s.wr R.SE_MBOX_RSP s.freeVal i).nextFree) s) → (exec .seReplyReady s = .next ((((u.wr R.SE_MBOX_STATUS u.freeVal).nextFree).wr R.SE_MBOX_BUSY 0).wr R.SE_MBOX_DONE 1)))

/-- Image transfers, firmware activations and forwarding (rests on R110, R459, R460, R461, R462, R463, R464, R465, R466). A
transfer opens into a slot not in force or erases the idle bank of a part, takes chunks inside its length, and ends
verified or with a gap; a scheduled part switches at the first boundary at or after its time, a commanded one at the next
boundary; in BOOT and RECOVERY the activation is cancelled; a hop not confirmed in 120 s stops the chain. -/
def Obligations.TransfersAndActivations : Prop :=
  (∀ (s : State) (r : Req) (k : Nat) (n : Nat) (h : Nat), (Passes s r { op := 0x0401, level := .engineer, lock := true, field := true }) → (s.acc.transfers = []) → (1 ≤ k) → (k ≤ 16) → (s.slotInForce k = false) → (s.tt.switch = none) → (exec (.xferBegin r k n h) s = .next (let t := s.takeReq r { op := 0x0401, level := .engineer, lock := true, field := true }; State.reply { t.dropTransfer r.session with acc := { (t.dropTransfer r.session).acc with transfers := (t.dropTransfer r.session).acc.transfers ++ [{ session := r.session, target := k, length := n, hash := h, chunks := [] }] } } r { op := 0x0401, level := .engineer, lock := true, field := true } 0))) ∧
  (∀ (s : State) (r : Req) (k : Nat) (n : Nat) (h : Nat) (p : Nat), (Passes s r { op := 0x0401, level := .engineer, lock := true, field := true }) → (s.acc.transfers = []) → (16 < k) → (partIndex k = some p) → (n ≤ partSize p) → (exec (.xferBegin r k n h) s = .next (let t := s.takeReq r { op := 0x0401, level := .engineer, lock := true, field := true }; let u := (t.erasePart p).dropTransfer r.session; State.reply { u with acc := { u.acc with transfers := u.acc.transfers ++ [{ session := r.session, target := k, length := n, hash := h, chunks := [] }] } } r { op := 0x0401, level := .engineer, lock := true, field := true } 0))) ∧
  (∀ (s : State) (r : Req) (k : Nat) (n : Nat) (h : Nat), (Passes s r { op := 0x0401, level := .engineer, lock := true, field := true }) → (s.acc.transfers = []) → (k ≤ 16) → (s.slotInForce k = true) → (exec (.xferBegin r k n h) s = .next (let t := s.takeReq r { op := 0x0401, level := .engineer, lock := true, field := true }; State.reply t r { op := 0x0401, level := .engineer, lock := true, field := true } 0x0404))) ∧
  (∀ (s : State) (r : Req) (o : Nat) (d : Bytes), (Passes s r { op := 0x0402, level := .engineer }) → (s.transfer? r.session = none) → (exec (.xferChunk r o d) s = .next (let t := s.takeReq r { op := 0x0402, level := .engineer }; State.reply t r { op := 0x0402, level := .engineer } 0x0401))) ∧
  (∀ (s : State) (r : Req) (o : Nat) (d : Bytes) (x : Transfer), (Passes s r { op := 0x0402, level := .engineer }) → (s.transfer? r.session = some x) → (d ≠ []) → (d.length ≤ 16384) → (o + d.length ≤ x.length) → (exec (.xferChunk r o d) s = .next (let t := s.takeReq r { op := 0x0402, level := .engineer }; State.reply { t with acc := { t.acc with transfers := t.acc.transfers.map (fun (x : Transfer) => if x.session == r.session then { x with chunks := x.chunks ++ [(o, d)] } else x) } } r { op := 0x0402, level := .engineer } 0))) ∧
  (∀ (s : State) (r : Req) (c : Content) (x : Transfer), (Passes s r { op := 0x0403, level := .engineer }) → (s.transfer? r.session = some x) → (coverage x.chunks < x.length) → (exec (.xferEnd r c) s = .next (let t := s.takeReq r { op := 0x0403, level := .engineer }; State.reply t r { op := 0x0403, level := .engineer } 0x0402))) ∧
  (∀ (s : State) (r : Req) (c : Content) (x : Transfer), (Passes s r { op := 0x0403, level := .engineer }) → (s.transfer? r.session = some x) → (x.length ≤ coverage x.chunks) → (Config.sha384 (received x) = x.hash) → (exec (.xferEnd r c) s = .next (let t := s.takeReq r { op := 0x0403, level := .engineer }; let o := (t.dropTransfer r.session).takeContent x.target (contentOf (received x) c); State.reply o.1 r { op := 0x0403, level := .engineer } o.2 (if o.2 = 0 then [0] else [])))) ∧
  (∀ (s : State) (r : Req) (c : Content) (x : Transfer), (Passes s r { op := 0x0403, level := .engineer }) → (s.transfer? r.session = some x) → (x.length ≤ coverage x.chunks) → (Config.sha384 (received x) ≠ x.hash) → (exec (.xferEnd r c) s = .next (let t := s.takeReq r { op := 0x0403, level := .engineer }; State.reply (t.dropTransfer r.session) r { op := 0x0403, level := .engineer } 0x0403))) ∧
  (∀ (s : State) (r : Req) (c : Content), (Passes s r { op := 0x0403, level := .engineer }) → (s.transfer? r.session = none) → (exec (.xferEnd r c) s = .next (let t := s.takeReq r { op := 0x0403, level := .engineer }; State.reply t r { op := 0x0403, level := .engineer } 0x0401))) ∧
  (∀ (s : State) (r : Req), (Passes s r { op := 0x0404, level := .engineer }) → ((s.transfer? r.session).isNone = false) → (exec (.xferAbort r) s = .next (let t := s.takeReq r { op := 0x0404, level := .engineer }; (t.dropTransfer r.session).reply r { op := 0x0404, level := .engineer } 0))) ∧
  (∀ (s : State) (r : Req) (a : Nat) (w : Time) (p : Nat) (n : Nat) (f : FwImage), (Passes s r { op := opSchedule, level := .engineer, lock := true, field := true }) → (partIndex a = some p) → (scheduled p = true) → (s.timeFrc w = some n) → (s.staged? p = some f) → (s.tb.frc + 100000000 ≤ n) → (s.role = .solo) → (exec (.updateSchedule r a w) s = .next (let t := s.takeReq r { op := opSchedule, level := .engineer, lock := true, field := true }; (t.schedule p n).reply r { op := opSchedule, level := .engineer, lock := true, field := true } 0))) ∧
  (∀ (s : State) (r : Req) (a : Nat) (w : Time) (p : Nat), (Passes s r { op := opSchedule, level := .engineer, lock := true, field := true }) → (partIndex a = some p) → (scheduled p = false) → (exec (.updateSchedule r a w) s = .next (let t := s.takeReq r { op := opSchedule, level := .engineer, lock := true, field := true }; State.reply t r { op := opSchedule, level := .engineer, lock := true, field := true } 0x0407))) ∧
  (∀ (s : State) (r : Req) (a : Nat) (p : Nat), (Passes s r { op := opActivate, level := .engineer, lock := true, field := true }) → (partIndex a = some p) → (commanded p = true) → (p ≠ partPartner) → (s.fw.commanded = []) → (s.fw.restarting = []) → ((s.staged? p).isSome = true) → (exec (.updateActivate r a) s = .next (let t := s.takeReq r { op := opActivate, level := .engineer, lock := true, field := true }; State.await { t with fw := { t.fw with commanded := [p] } } r { op := opActivate, level := .engineer, lock := true, field := true } p))) ∧
  (∀ (s : State) (r : Req), (Passes s r { op := 0x0407, level := .observer }) → (exec (.updateStatus r) s = .next (let t := s.takeReq r { op := 0x0407, level := .observer }; State.reply t r { op := 0x0407, level := .observer } 0 ((List.range 9).flatMap (fun p => [t.rd R.BT_PART_ACTIVE p, t.rd R.BT_PART_A_OK p, t.rd R.BT_PART_B_OK p, t.rd R.BT_PART_PENDING p, t.rd R.BT_PART_VER_A p, t.rd R.BT_PART_VER_B p, t.rd64 R.BT_SCHED_AT_LO R.BT_SCHED_AT_HI p]))))) ∧
  (∀ (s : State) (r : Req) (a : Nat) (b : Nat) (p : Nat) (f : FwImage), (Passes s r { op := 0x0409, level := .owner, lock := true }) → (partIndex a = some p) → (p ≠ partNode) → (b < 2) → (s.bit (bankOk b) p = true) → (s.partBank p b = some f) → (s.partFloor p ≤ f.ver) → (scheduled p = true) → ((s.pendNone p).rd R.BT_PART_ACTIVE p ≠ b) → (exec (.bankSelect r a b) s = .next (let t := s.takeReq r { op := 0x0409, level := .owner, lock := true }; let u := t.pendNone p; (u.schedule p u.tb.frc).reply r { op := 0x0409, level := .owner, lock := true } 0))) ∧
  (∀ (s : State) (p : Nat), (s.rd R.BT_PART_PENDING p ≠ 1) → (exec (.updateActivation p) s = .next s)) ∧
  (∀ (s t : State) (p : Nat), (p < 9) → (s.rd R.BT_PART_PENDING p = 1) → (s.unit = .stop) → (t = s.toTick) → (s.rd64 R.BT_SCHED_AT_LO R.BT_SCHED_AT_HI p ≤ t.tb.frc) → (exec (.updateActivation p) s = .next ((t.activate p).activated p))) ∧
  (∀ (s : State) (p : Nat), (p < 9) → (s.rd R.BT_PART_PENDING p = 1) → (s.unit = .recovery ∨ s.unit = .boot) → (s.rd64 R.BT_SCHED_AT_LO R.BT_SCHED_AT_HI p ≤ s.tb.frc) → (exec (.updateActivation p) s = .next (s.pendNone p))) ∧
  (∀ (s t : State) (p : Nat) (l : List Nat), (s.unit = .stop ∨ s.unit = .run ∨ s.unit = .halt) → (s.fw.commanded = p :: l) → (t = s.toTick) → (exec .commandedActivation s = .next (State.wake ((t.activate p).commandedActs p) opActivate p 0 [t.pause p]))) ∧
  (∀ (s : State), (s.fw.commanded = []) → (exec .commandedActivation s = .next s)) ∧
  (∀ (s : State) (p : Nat) (q : PartnerInfo), (s.fw.restarting.contains p = false) → (exec (.partRestartComplete p q) s = .next s)) ∧
  (∀ (s u : State) (q : PartnerInfo), (s.fw.restarting.contains 1 = true) → (u = { s with fw := { s.fw with restarting := s.fw.restarting.filter (fun x => x != 1) } }) → (exec (.partRestartComplete 1 q) s = .next (u.wr R.SE_MBOX_BUSY 0))) ∧
  (∀ (s : State) (r : Req) (a : Nat) (p : Nat) (n : Nat) (ns : List Nat) (f : FwImage), (Passes s r { op := opForward, level := .engineer, lock := true }) → (partIndex a = some p) → (s.staged? p = some f) → (s.fw.forward = none) → (s.trust.member.isNone = false) → (exec (.updateForward r a (n :: ns)) s = .next (let t := s.takeReq r { op := opForward, level := .engineer, lock := true }; let u := State.emit (((t.wr R.BT_FWD_STATE 1).wr R.BT_FWD_HOP 0).wr R.BT_FWD_FAILED 0) (.plant n) .path ([p, f.ver, f.hash] ++ ns) f.body; State.await { u with fw := { u.fw with forward := some { part := p, plants := n :: ns, pos := 0, at_ := u.tb.frc, session := r.session, tag := r.tag } } } r { op := opForward, level := .engineer, lock := true }))) ∧
  (∀ (s : State) (n : Nat), (s.serviceUp = true) → (exec (.forwardHop (.confirm n)) s = .next (s.hopConfirmed n) ∧ (∀ p f o l, exec (.forwardHop (.arrive p f o l)) s = .next (s.hopArrives p f o l)) ∧ (∀ a b c, exec (.forwardHop (.replacement a b c)) s = .next (s.replaced a b c)))) ∧
  (∀ (s : State) (h : HopIn), (s.serviceUp = false) → (exec (.forwardHop h) s = .next s)) ∧
  (∀ (s : State), (s.fw.forward = none) → (exec .forwardHopTimeout s = .next s)) ∧
  (∀ (s u : State) (f : Forward), (s.fw.forward = some f) → (f.at_ + 12000000000 ≤ s.tb.frc) → (u = (s.wr R.BT_FWD_STATE 3).wr R.BT_FWD_FAILED (f.plants.getD f.pos 0)) → (exec .forwardHopTimeout s = .next (State.wake { u with fw := { u.fw with forward := none } } opForward 0 0x0409 [f.plants.getD f.pos 0])))

/-- Node firmware and the recovery protocol (rests on R468, R470, R471, R472). The staged node image is sent step by step on a
port below 8; RECOVERY answers INFO, erases the bank of a failed part or of MGMT, takes data that continue the previous
request, ends after verification and restarts into the written banks; a transfer idle for 10 s is lost; elsewhere the
requests change nothing. -/
def Obligations.NodeImagesAndRecovery : Prop :=
  (∀ (s : State) (f : FwImage) (p : Nat), (s.fw.node = some f) → (p < 8) → (exec (.nodeImageSend p) s = .next (s.nodeStep p f))) ∧
  (∀ (s : State) (p : Nat), (s.fw.node = none) → (exec (.nodeImageSend p) s = .next s)) ∧
  (∀ (s : State) (p n o h : Nat) (d : Bytes) (c : Content), (s.unit ≠ .recovery) → (exec .recoveryInfo s = .next s ∧ exec (.recoveryBegin p n) s = .next s ∧ exec (.recoveryData o d) s = .next s ∧ exec (.recoveryEnd h c) s = .next s ∧ exec .recoveryRestart s = .next s)) ∧
  (∀ (s : State), (s.unit = .recovery) → (exec .recoveryInfo s = .next (s.recReply 1 0 ([Config.serial, s.rd R.BT_STATUS_REASON, s.rd R.BT_STATUS_FAILED_PARTS] ++
    (List.range 9).flatMap (fun p => [s.rd R.BT_PART_ACTIVE p, s.rd R.BT_PART_A_OK p, s.rd R.BT_PART_B_OK p, s.rd R.BT_PART_PENDING p, s.rd R.BT_PART_LOADED p,
      s.rd R.BT_PART_VER_A p, s.rd R.BT_PART_VER_B p, s.rd R.BT_PART_LAST_FRAME p]) ++ (List.range 9).map s.partFloor)))) ∧
  (∀ (s u : State) (a p n : Nat), (s.unit = .recovery) → (partIndex a = some p) → (bitOf (s.rd R.BT_STATUS_FAILED_PARTS) p = true) → (n ≤ partSize p) → (u = s.setBank p (s.recBank p) none) → (exec (.recoveryBegin a n) s = .next (State.recReply { u with fw := { u.fw with recXfer := some { part := p, bank := s.recBank p, len := n, data := [], at_ := u.tb.frc }, written := u.fw.written.filter (fun w => w.1 != p) } } 2 0))) ∧
  (∀ (s : State) (o : Nat) (d : Bytes) (h : Nat) (c : Content), (s.unit = .recovery) → (s.fw.recXfer = none) → (exec (.recoveryData o d) s = .next (s.recReply 3 0x0401) ∧ exec (.recoveryEnd h c) s = .next (s.recReply 4 0x0401) ∧ exec .recoveryIdleTimeout s = .next s)) ∧
  (∀ (s : State) (x : RecXfer) (d : Bytes), (s.unit = .recovery) → (s.fw.recXfer = some x) → (d.length ≤ 1024) → (x.data.length + d.length ≤ x.len) → (exec (.recoveryData x.data.length d) s = .next (State.recReply { s with fw := { s.fw with recXfer := some { x with data := x.data ++ d, at_ := s.tb.frc } } } 3 0))) ∧
  (∀ (s : State) (x : RecXfer) (h : Nat) (c : Content), (s.unit = .recovery) → (s.fw.recXfer = some x) → (x.data.length < x.len) → (exec (.recoveryEnd h c) s = .next (s.recReply 4 0x0402))) ∧
  (∀ (s : State) (x : RecXfer) (c : Content), (s.unit = .recovery) → (s.fw.recXfer = some x) → (x.len ≤ x.data.length) → (exec (.recoveryEnd (Config.sha384 x.data) c) s = .next (let u : State := { s with fw := { s.fw with recXfer := none } }; match contentOf x.data c with | .part f => (if u.stageVerifies x.part f = true then (let v := u.setBank x.part x.bank (some f); State.recReply { v with fw := { v.fw with written := (x.part, x.bank) :: v.fw.written } } 4 0) else u.verifyFailed.recReply 4 0x0408) | _ => u.verifyFailed.recReply 4 0x0408))) ∧
  (∀ (s : State) (x : RecXfer) (h : Nat) (c : Content), (s.unit = .recovery) → (s.fw.recXfer = some x) → (x.len ≤ x.data.length) → (Config.sha384 x.data ≠ h) → (exec (.recoveryEnd h c) s = .next (State.recReply { s with fw := { s.fw with recXfer := none } } 4 0x0403))) ∧
  (∀ (s u : State), (s.unit = .recovery) → (u = s.recReply 5 0) → (exec .recoveryRestart s = .next (State.mrst (u.fw.written.foldl (fun s w => s.wr R.BT_PART_ACTIVE w.2 w.1) u) 2))) ∧
  (∀ (s : State) (x : RecXfer), (s.fw.recXfer = some x) → (x.at_ + 1000000000 ≤ s.tb.frc) → (exec .recoveryIdleTimeout s = .next { s with fw := { s.fw with recXfer := none } }))

/-- Commands of the session and mode groups (rests on R110, R118, R119, R377, R378, R381, R384). A packet of groups 0x01 and
0x02 that passes its checks: HELLO with version 1 opens the session to other packets; PING, STATUS, SUBSCRIBE, VERSIONS,
BYE; the slots are read, renamed and cleared; a mode is prepared, armed, read and cancelled by the session that holds it. -/
def Obligations.SessionAndModeCommands : Prop :=
  (∀ (s : State) (r : Req) (n : Nat) (d : Bytes), (Passes s r { op := 0x0101, level := .observer }) → (n ≠ 1) → (exec (.hello r n d) s = .next (let t := s.takeReq r { op := 0x0101, level := .observer }; State.reply t r { op := 0x0101, level := .observer } 0x0101))) ∧
  (∀ (s : State) (r : Req) (d : Bytes), (Passes s r { op := 0x0101, level := .observer }) → (exec (.hello r 1 d) s = .next (let t := s.takeReq r { op := 0x0101, level := .observer }; let u := t.updSession r.session (fun x => { x with hello := true }); State.reply u r { op := 0x0101, level := .observer } 0 ([if Config.variantM then 1 else 0, Config.serial, Config.hwRev] ++ u.partVers ++ [UnitState.code u.unit, Role.code u.role, r.session, ((u.session? r.session).map (fun x => if x.level == .metrology then 4 else levelRank x.level)).getD 0]) orderCode))) ∧
  (∀ (s : State) (r : Req), (Passes s r { op := 0x0102, level := .observer }) → (exec (.ping r) s = .next (let t := s.takeReq r { op := 0x0102, level := .observer }; State.reply t r { op := 0x0102, level := .observer } 0 [t.tb.frc]))) ∧
  (∀ (s : State) (r : Req), (Passes s r { op := 0x0103, level := .observer }) → (exec (.status r) s = .next (let t := s.takeReq r { op := 0x0103, level := .observer }; (State.reply t r { op := 0x0103, level := .observer } 0 [UnitState.code t.unit, Role.code t.role, t.regWord 0x40010284, t.regWord 0x40010100, t.regWord 0x40090808, t.freeVal % 2 ^ 32]).nextFree))) ∧
  (∀ (s : State) (r : Req) (n : Nat), (Passes s r { op := 0x0104, level := .observer }) → (exec (.subscribe r n) s = .next (let t := s.takeReq r { op := 0x0104, level := .observer }; (t.updSession r.session (fun x => { x with classes := n })).reply r { op := 0x0104, level := .observer } 0))) ∧
  (∀ (s : State) (r : Req), (Passes s r { op := 0x0105, level := .observer }) → (exec (.versions r) s = .next (let t := s.takeReq r { op := 0x0105, level := .observer }; State.reply t r { op := 0x0105, level := .observer } 0 (((List.range 17).filterMap (fun k => (t.held k).map (fun m => [k, m.id, m.ver]))).flatten ++ t.partVers)))) ∧
  (∀ (s : State) (r : Req), (Passes s r { op := 0x0106, level := .observer }) → (exec (.bye r) s = .next (let t := s.takeReq r { op := 0x0106, level := .observer }; (State.reply t r { op := 0x0106, level := .observer } 0).closeSession r.session))) ∧
  (∀ (s : State) (r : Req), (Passes s r { op := 0x0201, level := .observer, active := true }) → (exec (.modeRead r) s = .next (let t := s.takeReq r { op := 0x0201, level := .observer, active := true }; State.reply t r { op := 0x0201, level := .observer, active := true } 0 (t.regWord 0x40010100 :: (List.range 16).flatMap (fun k => [t.rd R.TT_SLOT_KIND k, t.rd R.TT_SLOT_VALID k, t.rd R.TT_SLOT_STALE k, t.rd R.TT_SLOT_CODE k, t.rd R.TT_SLOT_ID k, t.rd R.TT_SLOT_VER k])) (t.tt.slots.flatMap (fun x => x.name.map (BitVec.ofNat 8) ++ [0]))))) ∧
  (∀ (s : State) (r : Req) (m : Nat), (Passes s r { op := opModePrepare, level := .operator, active := true }) → (s.acc.modeHolder = none) → (m < 2 ^ 24) → (s.rd R.TT_MODE_STATUS_STATE ≠ 3) → (s.rd R.TT_MODE_STATUS_STATE ≠ 4) → (exec (.modePrepare r m) s = .next (let t := s.takeReq r { op := opModePrepare, level := .operator, active := true }; let u := t.modePrepare (bitsOf m 0 16) (bitsOf m 16 8); let v := State.await { u with acc := { u.acc with modeHolder := some r.session } } r { op := opModePrepare, level := .operator, active := true }; if v.role == .active then v.path [6, bitsOf m 0 16, bitsOf m 16 8] else v))) ∧
  (∀ (s : State) (r : Req) (m : Nat), (Passes s r { op := opModePrepare, level := .operator, active := true }) → (s.acc.modeHolder = none) → (2 ^ 24 ≤ m) → (exec (.modePrepare r m) s = .next (let t := s.takeReq r { op := opModePrepare, level := .operator, active := true }; State.reply t r { op := opModePrepare, level := .operator, active := true } 0x0003 [1]))) ∧
  (∀ (s : State) (r : Req) (w : Time) (n : Nat) (k : Nat), (Passes s r { op := 0x0203, level := .operator, active := true }) → (s.acc.modeHolder = none) → (s.timeFrc w = some n) → (s.armCheck n = .inr k) → (exec (.modeArm r w) s = .next (let t := s.takeReq r { op := 0x0203, level := .operator, active := true }; ((t.wr64 R.TT_MODE_AT_LO R.TT_MODE_AT_HI n).modeArm n).reply r { op := 0x0203, level := .operator, active := true } 0 [t.tb.frameNo + k, if k = 0 then t.tb.frc else t.nextTick + (k - 1) * t.P]))) ∧
  (∀ (s : State) (r : Req) (w : Time) (n : Nat) (e : Nat), (Passes s r { op := 0x0203, level := .operator, active := true }) → (s.acc.modeHolder = none) → (s.timeFrc w = some n) → (s.armCheck n = .inl e) → (exec (.modeArm r w) s = .next (let t := s.takeReq r { op := 0x0203, level := .operator, active := true }; (t.modeArm n).reply r { op := 0x0203, level := .operator, active := true } (0x0200 + e) (t.unitParam true)))) ∧
  (∀ (s : State) (r : Req), (Passes s r { op := 0x0204, level := .observer, active := true }) → (exec (.modeStatus r) s = .next (let t := s.takeReq r { op := 0x0204, level := .observer, active := true }; State.reply t r { op := 0x0204, level := .observer, active := true } 0 [t.regWord 0x40010114, t.rd64 R.TT_MODE_LAST_FRAME_LO R.TT_MODE_LAST_FRAME_HI]))) ∧
  (∀ (s : State) (r : Req), (Passes s r { op := 0x0205, level := .operator, active := true }) → (s.acc.modeHolder = none) → (s.rd R.TT_MODE_STATUS_STATE = 2 ∨ s.rd R.TT_MODE_STATUS_STATE = 3) → (exec (.modeCancel r) s = .next (let t := s.takeReq r { op := 0x0205, level := .operator, active := true }; let u := t.modeCancel; State.reply (if u.role == .active then u.path [8] else u) r { op := 0x0205, level := .operator, active := true } 0))) ∧
  (∀ (s : State) (r : Req), (Passes s r { op := 0x0205, level := .operator, active := true }) → (s.acc.modeHolder = none) → (s.rd R.TT_MODE_STATUS_STATE = 0) → (exec (.modeCancel r) s = .next (let t := s.takeReq r { op := 0x0205, level := .operator, active := true }; State.reply t r { op := 0x0205, level := .operator, active := true } 0x0206 (t.unitParam true)))) ∧
  (∀ (s : State) (r : Req) (n : Nat), (Passes s r { op := 0x0205, level := .operator, active := true }) → (s.acc.modeHolder = some n) → (n ≠ r.session) → (exec (.modeCancel r) s = .next (let t := s.takeReq r { op := 0x0205, level := .operator, active := true }; State.reply t r { op := 0x0205, level := .operator, active := true } 0x000C [n]))) ∧
  (∀ (s : State) (r : Req) (k : Nat) (l : List Nat), (Passes s r { op := 0x0207, level := .engineer, active := true }) → (1 ≤ k) → (k ≤ 16) → ((decide (l.length ≤ 16) && l.all (fun x => decide (0x20 ≤ x) && decide (x ≤ 0x7E))) = true) → (exec (.slotRename r k l) s = .next (let t := s.takeReq r { op := 0x0207, level := .engineer, active := true }; State.reply { t with tt := { t.tt with slots := updAt t.tt.slots (k - 1) (fun (x : Slot) => { x with name := l }) } } r { op := 0x0207, level := .engineer, active := true } 0))) ∧
  (∀ (s : State) (r : Req) (k : Nat) (l : List Nat), (Passes s r { op := 0x0207, level := .engineer, active := true }) → (k = 0 ∨ 16 < k) → (exec (.slotRename r k l) s = .next (let t := s.takeReq r { op := 0x0207, level := .engineer, active := true }; State.reply t r { op := 0x0207, level := .engineer, active := true } 0x0009))) ∧
  (∀ (s : State) (r : Req) (k : Nat), (Passes s r { op := 0x0208, level := .engineer, lock := true, active := true }) → (1 ≤ k) → (k ≤ 16) → (s.slotInForce k = false) → (exec (.slotClear r k) s = .next (let t := s.takeReq r { op := 0x0208, level := .engineer, lock := true, active := true }; (t.setSlot k none).reply r { op := 0x0208, level := .engineer, lock := true, active := true } 0)))

/-- Commands of the run group (rests on R16, R99, R100, R144, R152, R458). A packet of group 0x03 that passes its checks:
START and STOP wait for their boundary, LRST resets, ADMIT waits for its outcome, AUTORUN sets its field, the retentive
region is exported, imported and cleared, rings take and give entries, data are read from the banks or a window. -/
def Obligations.RunAndRingCommands : Prop :=
  (∀ (s : State) (r : Req) (k : Nat), (Passes s r { op := opStart, level := .engineer, field := true }) → (k < 4) → (s.tt.starting = none) → (exec (.start r k) s = .next (let t := s.takeReq r { op := opStart, level := .engineer, field := true }; State.start ((t.await r { op := opStart, level := .engineer, field := true }).wr R.TT_RUN_CTRL_KIND k) k))) ∧
  (∀ (s : State) (r : Req) (k : Nat), (Passes s r { op := opStart, level := .engineer, field := true }) → (k < 4) → (s.tt.starting.isSome = true) → (exec (.start r k) s = .next (let t := s.takeReq r { op := opStart, level := .engineer, field := true }; State.reply t r { op := opStart, level := .engineer, field := true } 0x0007))) ∧
  (∀ (s : State) (r : Req), (Passes s r { op := 0x0302, level := .engineer, field := true }) → (s.inRun = true) → (exec (.stop r) s = .next (let t := s.takeReq r { op := 0x0302, level := .engineer, field := true }; (t.await r { op := 0x0302, level := .engineer, field := true }).stopOrder))) ∧
  (∀ (s : State) (r : Req), (Passes s r { op := 0x0302, level := .engineer, field := true }) → (s.inRun = false) → (exec (.stop r) s = .next (let t := s.takeReq r { op := 0x0302, level := .engineer, field := true }; State.reply t r { op := 0x0302, level := .engineer, field := true } 0x0008))) ∧
  (∀ (s : State) (r : Req), (Passes s r { op := 0x0303, level := .engineer, lock := true, field := true }) → (exec (.lrst r) s = .next (let t := s.takeReq r { op := 0x0303, level := .engineer, lock := true, field := true }; t.lrst.reply r { op := 0x0303, level := .engineer, lock := true, field := true } 0))) ∧
  (∀ (s : State) (r : Req), (Passes s r { op := 0x0304, level := .observer }) → (exec (.runStatus r) s = .next (let t := s.takeReq r { op := 0x0304, level := .observer }; State.reply t r { op := 0x0304, level := .observer } 0 [t.regWord 0x40010284, t.rd64 R.TT_RUN_FIRST_LO R.TT_RUN_FIRST_HI, t.rd64 R.TT_RUN_LAST_LO R.TT_RUN_LAST_HI, t.regWord 0x400102A4, t.rd64 R.TT_RET_FRAME_LO R.TT_RET_FRAME_HI]))) ∧
  (∀ (s : State) (r : Req) (k : Nat) (p : Nat), (Passes s r { op := opAdmit, level := .engineer, lock := true, field := true }) → (k < 17) → (p < 2) → (s.bit R.TT_ADM_STATUS_BUSY = false) → (k ≠ 0) → (exec (.admitCmd r k p) s = .next (let t := s.takeReq r { op := opAdmit, level := .engineer, lock := true, field := true }; (t.await r { op := opAdmit, level := .engineer, lock := true, field := true }).admStart k p))) ∧
  (∀ (s : State) (r : Req) (p : Nat), (Passes s r { op := opAdmit, level := .engineer, lock := true, field := true }) → (p < 2) → (s.bit R.TT_ADM_STATUS_BUSY = false) → (s.inStop = false) → (exec (.admitCmd r 0 p) s = .next (let t := s.takeReq r { op := opAdmit, level := .engineer, lock := true, field := true }; State.reply t r { op := opAdmit, level := .engineer, lock := true, field := true } 0x0008))) ∧
  (∀ (s : State) (r : Req), (Passes s r { op := 0x0306, level := .observer }) → (exec (.admitStatus r) s = .next (let t := s.takeReq r { op := 0x0306, level := .observer }; State.reply t r { op := 0x0306, level := .observer } 0 [t.regWord 0x40010044, t.rd R.TT_ADM_WHERE_TILE, t.rd R.TT_ADM_WHERE_BUNDLE, t.rd R.TT_ADM_WHERE_RESP, t.rd R.TT_ADM_CYCLE, t.rd R.TT_ADM_RES_KIND, t.rd R.TT_ADM_RES_INDEX]))) ∧
  (∀ (s : State) (r : Req) (n : Nat), (Passes s r { op := 0x0307, level := .engineer, lock := true }) → (n < 2) → (exec (.autorun r n) s = .next (let t := s.takeReq r { op := 0x0307, level := .engineer, lock := true }; (t.wr R.TT_RUN_CTRL_AUTORUN n).reply r { op := 0x0307, level := .engineer, lock := true } 0))) ∧
  (∀ (s : State) (r : Req), (Passes s r { op := 0x0308, level := .engineer }) → (exec (.retExport r) s = .next (let t := s.takeReq r { op := 0x0308, level := .engineer }; let u := t.serveAll (wordsAt t.retRegion.1 t.retRegion.2); State.reply u r { op := 0x0308, level := .engineer } 0 [((u.tt.base).map (·.id)).getD 0, t.retRegion.1, t.retRegion.2] (u.bytes t.retRegion.1 t.retRegion.2)))) ∧
  (∀ (s : State) (r : Req) (o : Nat) (d : Bytes), (Passes s r { op := 0x0309, level := .engineer, lock := true }) → (s.inStop = true) → (o + d.length ≤ s.retRegion.2) → (exec (.retImport r o d) s = .next (let t := s.takeReq r { op := 0x0309, level := .engineer, lock := true }; (t.act (execPortbBankWrite (t.retRegion.1 + o) d 0)).reply r { op := 0x0309, level := .engineer, lock := true } 0))) ∧
  (∀ (s : State) (r : Req), (Passes s r { op := 0x030A, level := .engineer, lock := true }) → (s.inStop = true) → (exec (.retClear r) s = .next (let t := s.takeReq r { op := 0x030A, level := .engineer, lock := true }; t.retClear.reply r { op := 0x030A, level := .engineer, lock := true } 0))) ∧
  (∀ (s : State) (r : Req) (k : Nat) (e : Bytes), (Passes s r { op := 0x030B, level := .operator }) → ((e.length % 64 == 0 && decide (64 ≤ e.length) && decide (e.length ≤ 1024)) = true) → (s.ringBad k 0 = none) → (exec (.ringPut r k e) s = .next (let t := s.takeReq r { op := 0x030B, level := .operator }; let u := (t.putAll k (entriesOf e)).1; let n := (t.putAll k (entriesOf e)).2; State.reply u r { op := 0x030B, level := .operator } (if 64 * n = e.length then 0 else 0x0311) [n]))) ∧
  (∀ (s : State) (r : Req) (k : Nat) (n : Nat), (Passes s r { op := 0x030C, level := .operator }) → (n ≤ 16) → (s.ringBad k 1 = none) → (exec (.ringGet r k n) s = .next (let t := s.takeReq r { op := 0x030C, level := .operator }; let u := (t.ringTake k n).1; let l := (t.ringTake k n).2; State.reply u r { op := 0x030C, level := .operator } 0 [] l.flatten))) ∧
  (∀ (s : State) (r : Req) (a : Nat) (n : Nat), (Passes s r { op := 0x030D, level := .observer }) → (n ≤ 16384) → (dataKind a = some 0) → (dataKind (a + max 1 n - 1) = some 0) → (exec (.dataRead r a n) s = .next (let t := s.takeReq r { op := 0x030D, level := .observer }; let u := t.serveAll (wordsAt a n); State.reply u r { op := 0x030D, level := .observer } 0 [] (u.readBytes a n)))) ∧
  (∀ (s : State) (r : Req) (a : Nat) (n : Nat), (Passes s r { op := 0x030D, level := .observer }) → (n ≤ 16384) → (dataKind a = none) → (exec (.dataRead r a n) s = .next (let t := s.takeReq r { op := 0x030D, level := .observer }; State.reply t r { op := 0x030D, level := .observer } 0x0003 [1])))

/-- Commands of the configuration group (rests on R233, R241, R303, R473). A packet of group 0x05 that passes its checks, and
the register packets of group 0x0C: words are read from register addresses only, configuration words take their RW and RWL
fields, an apply waits for its outcome, a discard and a save are answered, a channel, its HART queue and its poll list are
reached below 96, an interface below 5, a CAN port below 8. -/
def Obligations.ConfigurationCommands : Prop :=
  (∀ (s : State) (r : Req) (a : Nat) (k : Nat), (Passes s r { op := 0x0501, level := .observer }) → (1 ≤ k) → (k ≤ 4096) → ((List.range k).all (fun i => regAddr (a + 4 * i)) = true) → (exec (.cfgRead r a k) s = .next (let t := s.takeReq r { op := 0x0501, level := .observer }; let u := (t.regReads a k).1; let l := (t.regReads a k).2; State.reply u r { op := 0x0501, level := .observer } 0 l))) ∧
  (∀ (s : State) (r : Req) (a : Nat) (k : Nat), (Passes s r { op := 0x0C08, level := .observer }) → (1 ≤ k) → (k ≤ 4096) → ((List.range k).all (fun i => regAddr (a + 4 * i)) = true) → (exec (.regRead r a k) s = .next (let t := s.takeReq r { op := 0x0C08, level := .observer }; let u := (t.regReads a k).1; let l := (t.regReads a k).2; State.reply u r { op := 0x0C08, level := .observer } 0 l))) ∧
  (∀ (s : State) (r : Req) (l : List (Nat × Nat)), (Passes s r { op := 0x0502, level := .engineer, lock := true }) → (l.isEmpty = false) → (l.all (fun x => regAddr x.1) = true) → (exec (.cfgWrite r l) s = .next (let t := s.takeReq r { op := 0x0502, level := .engineer, lock := true }; (l.foldl (fun s x => s.regWrite x.1 (x.2 &&& fieldMask x.1 [.rw, .rwl])) t).reply r { op := 0x0502, level := .engineer, lock := true } 0))) ∧
  (∀ (s : State) (r : Req) (a : Nat) (v : Nat), (Passes s r { op := 0x0C09, level := .owner, lock := true }) → (regAddr a = true) → (exec (.regWrite r a v) s = .next (let t := s.takeReq r { op := 0x0C09, level := .owner, lock := true }; (t.regWrite a v).reply r { op := 0x0C09, level := .owner, lock := true } 0))) ∧
  (∀ (s : State) (r : Req) (a : Nat) (v : Nat), (Passes s r { op := 0x0C09, level := .owner, lock := true }) → (regAddr a = false) → (exec (.regWrite r a v) s = .next (let t := s.takeReq r { op := 0x0C09, level := .owner, lock := true }; State.reply t r { op := 0x0C09, level := .owner, lock := true } 0x0C13))) ∧
  (∀ (s : State) (r : Req) (a : Nat) (m : Nat), (Passes s r { op := 0x050E, level := .operator }) → (regAddr a = true) → (exec (.flagClear r a m) s = .next (let t := s.takeReq r { op := 0x050E, level := .operator }; (t.clearFlags a m).reply r { op := 0x050E, level := .operator } 0))) ∧
  (∀ (s : State) (r : Req) (n : Nat) (b : ApplyBlock), (Passes s r { op := opCfgApply, level := .engineer, lock := true }) → (applyBlock n = some b) → (exec (.cfgApply r n) s = .next (let t := s.takeReq r { op := opCfgApply, level := .engineer, lock := true }; (t.await r { op := opCfgApply, level := .engineer, lock := true } n).submit b))) ∧
  (∀ (s : State) (r : Req) (n : Nat), (Passes s r { op := opCfgApply, level := .engineer, lock := true }) → (applyBlock n = none) → (exec (.cfgApply r n) s = .next (let t := s.takeReq r { op := opCfgApply, level := .engineer, lock := true }; State.reply t r { op := opCfgApply, level := .engineer, lock := true } 0x0003 [1]))) ∧
  (∀ (s : State) (r : Req) (n : Nat) (b : ApplyBlock), (Passes s r { op := 0x0504, level := .engineer, lock := true }) → (applyBlock n = some b) → (exec (.cfgCancel r n) s = .next (let t := s.takeReq r { op := 0x0504, level := .engineer, lock := true }; (t.discard b).reply r { op := 0x0504, level := .engineer, lock := true } 0))) ∧
  (∀ (s : State) (r : Req), (Passes s r { op := 0x0505, level := .engineer, lock := true }) → (exec (.cfgSave r) s = .next (let t := s.takeReq r { op := 0x0505, level := .engineer, lock := true }; let b := t.idleBank partConfig; let f := { FwImage.delivered with ver := t.rd (bankVer (t.rd R.BT_PART_ACTIVE partConfig)) partConfig, config := t.configNow }; State.reply (((t.setBank partConfig b (some f)).wr R.BT_PART_ACTIVE b partConfig).pendNone partConfig) r { op := 0x0505, level := .engineer, lock := true } 0))) ∧
  (∀ (s : State) (r : Req) (k : Nat), (Passes s r { op := 0x0506, level := .observer }) → (k < 96) → (exec (.chanRead r k) s = .next (let t := s.takeReq r { op := 0x0506, level := .observer }; State.reply t r { op := 0x0506, level := .observer } 0 [t.regWord (chFlagsAddr k)] (((t.lat.inFg.getD (k / 8) []).drop (32 * (k % 8))).take 32)))) ∧
  (∀ (s : State) (r : Req) (k : Nat), (Passes s r { op := 0x0506, level := .observer }) → (96 ≤ k) → (exec (.chanRead r k) s = .next (let t := s.takeReq r { op := 0x0506, level := .observer }; State.reply t r { op := 0x0506, level := .observer } 0x0009))) ∧
  (∀ (s : State) (r : Req) (i : Nat) (a : Nat) (m : Nat) (g : Nat) (p : Nat), (Passes s r { op := 0x0507, level := .engineer, lock := true }) → (i < 5) → (1024 ≤ p) → (p ≤ 65535) → (exec (.netCfg r i a m g p) s = .next (let t := s.takeReq r { op := 0x0507, level := .engineer, lock := true }; State.reply { t with acc := { t.acc with nets := t.acc.nets.set i { addr := a % 2 ^ 32, mask := m % 2 ^ 32, gw := g % 2 ^ 32, port := p } } } r { op := 0x0507, level := .engineer, lock := true } 0))) ∧
  (∀ (s : State) (r : Req) (k : Nat) (g : Nat) (o : Nat), (Passes s r { op := opTrimSet, level := .engineer, lock := true }) → (k < 96) → (exec (.trimSet r k g o) s = .next (let t := s.takeReq r { op := opTrimSet, level := .engineer, lock := true }; let u := (t.stage R.CH_TRIM_GAIN g (k / 8) (k % 8)).stage R.CH_TRIM_OFFSET o (k / 8) (k % 8); (u.await r { op := opTrimSet, level := .engineer, lock := true } (fgBase (k / 8))).fgApply (k / 8)))) ∧
  (∀ (s : State) (r : Req) (k : Nat) (a : Nat) (o : Nat) (d : Bytes), (Passes s r { op := opHartPass, level := .operator }) → (k < 96) → (s.hartAddr k a = true) → (s.hartOn k = true) → ((s.hart k).queue.length < hartDepth) → (exec (.hartPass r k a o d) s = .next (let t := s.takeReq r { op := opHartPass, level := .operator }; t.updHart k (fun h => { h with queue := h.queue ++ [{ session := r.session, tag := r.tag, entry := none, address := a, command := o, data := d, queued := t.tb.frc }] })))) ∧
  (∀ (s : State) (r : Req) (k : Nat) (a : Nat) (o : Nat) (d : Bytes), (Passes s r { op := opHartPass, level := .operator }) → (k < 96) → (s.hartAddr k a = false) → (exec (.hartPass r k a o d) s = .next (let t := s.takeReq r { op := opHartPass, level := .operator }; State.reply t r { op := opHartPass, level := .operator } 0x0003 [2]))) ∧
  (∀ (s : State) (r : Req) (k : Nat) (a : Nat) (o : Nat) (d : Bytes), (Passes s r { op := opHartPass, level := .operator }) → (k < 96) → (s.hartAddr k a = true) → (s.hartOn k = false) → (exec (.hartPass r k a o d) s = .next (let t := s.takeReq r { op := opHartPass, level := .operator }; State.reply t r { op := opHartPass, level := .operator } 0x0551))) ∧
  (∀ (s : State) (r : Req) (k : Nat), (Passes s r { op := 0x050A, level := .observer }) → (k < 96) → (exec (.hartRead r k) s = .next (let t := s.takeReq r { op := 0x050A, level := .observer }; State.reply t r { op := 0x050A, level := .observer } 0 ((t.hart k).responses.flatMap (hartNumbers 0) ++ (t.hart k).bursts.flatMap (hartNumbers 1)) (((t.hart k).responses ++ (t.hart k).bursts).flatMap (·.data))))) ∧
  (∀ (s : State) (r : Req) (k : Nat) (l : List (Nat × Nat × Nat)), (Passes s r { op := 0x050B, level := .engineer, lock := true }) → (k < 96) → ((decide (l.length ≤ 16) && l.all (fun e => s.hartAddr k e.1 && decide (1 ≤ e.2.2) && decide (e.2.2 ≤ 3600))) = true) → (exec (.hartPollSet r k l) s = .next (let t := s.takeReq r { op := 0x050B, level := .engineer, lock := true }; (t.updHart k (fun h => { h with polls := l.map (fun e => { address := e.1, command := e.2.1, period := e.2.2, last := none }), queue := h.queue.filter (fun q => q.entry.isNone) })).reply r { op := 0x050B, level := .engineer, lock := true } 0))) ∧
  (∀ (s : State) (r : Req) (p : Nat) (f : Nat), (Passes s r { op := 0x050C, level := .operator }) → (p < 8) → (f < 2) → (exec (.canRecover r p f) s = .next (let t := s.takeReq r { op := 0x050C, level := .operator }; (t.canRecover p (f == 1)).reply r { op := 0x050C, level := .operator } 0))) ∧
  (∀ (s : State) (r : Req) (p : Nat) (d : Bytes), (Passes s r { op := 0x050D, level := .operator }) → (p < 8) → (d.length = 64) → (exec (.canSend r p d) s = .next (let t := s.takeReq r { op := 0x050D, level := .operator }; (t.act (execCanTxRecord p (some d))).reply r { op := 0x050D, level := .operator } 0))) ∧
  (∀ (s : State) (r : Req) (p : Nat) (d : Bytes), (Passes s r { op := 0x050D, level := .operator }) → (8 ≤ p) → (exec (.canSend r p d) s = .next (let t := s.takeReq r { op := 0x050D, level := .operator }; State.reply t r { op := 0x050D, level := .operator } 0x0009)))

/-- Commands of the time and pair groups (rests on R46, R47, R55, R336, R351, R358, R362, R367). A packet of groups 0x06 and
0x07 that passes its checks: the time is read; TOD, the increment, the servo and the reference are set unless the servo
owns them; a one-shot lock group is armed; the pair status is read; JOIN and LEAVE wait for their outcome; a handover is
armed, held and cancelled; PAIR_CFG writes its registers. -/
def Obligations.TimeAndPairCommands : Prop :=
  (∀ (s : State) (r : Req), (Passes s r { op := 0x0601, level := .observer }) → (exec (.timeRead r) s = .next (let t := s.takeReq r { op := 0x0601, level := .observer }; State.reply t r { op := 0x0601, level := .observer } 0 [t.tb.frc, t.tb.sec, t.tb.ns, t.tb.frac, t.regWord 0x40000004, t.regWord 0x40090808, t.regWord 0x4009080C]))) ∧
  (∀ (s : State) (r : Req) (a : Nat) (b : Nat) (c : Nat) (d : Nat), (Passes s r { op := 0x0602, level := .engineer, lock := true }) → (s.servoOwns = true) → (exec (.todSet r a b c d) s = .next (let t := s.takeReq r { op := 0x0602, level := .engineer, lock := true }; State.reply t r { op := 0x0602, level := .engineer, lock := true } 0x0602))) ∧
  (∀ (s : State) (r : Req) (a : Nat) (b : Nat) (c : Nat), (Passes s r { op := 0x0602, level := .engineer, lock := true }) → (s.servoOwns = false) → (exec (.todSet r a b c 0) s = .next (let t := s.takeReq r { op := 0x0602, level := .engineer, lock := true }; (t.putTodset { sec := a, ns := b, frac := c, at_ := 0 }).todNow.reply r { op := 0x0602, level := .engineer, lock := true } 0))) ∧
  (∀ (s : State) (r : Req) (a : Nat) (b : Nat) (c : Nat) (d : Nat), (Passes s r { op := 0x0602, level := .engineer, lock := true }) → (s.servoOwns = false) → (d ≠ 0) → (exec (.todSet r a b c d) s = .next (let t := s.takeReq r { op := 0x0602, level := .engineer, lock := true }; let u := t.putTodset { sec := a, ns := b, frac := c, at_ := d }; State.reply (u.todArm u.todsetRegs) r { op := 0x0602, level := .engineer, lock := true } (if u.todsetRegs.at_ < u.tb.frc then 0x0603 else 0)))) ∧
  (∀ (s : State) (r : Req) (a : Nat) (b : Nat), (Passes s r { op := 0x0603, level := .engineer, lock := true }) → (s.servoOwns = false) → (exec (.incSet r a b) s = .next (let t := s.takeReq r { op := 0x0603, level := .engineer, lock := true }; (t.setInc (min 31 a * 2 ^ 32 + b % 2 ^ 32)).reply r { op := 0x0603, level := .engineer, lock := true } 0))) ∧
  (∀ (s : State) (r : Req) (a : Nat) (b : Nat), (Passes s r { op := 0x0603, level := .engineer, lock := true }) → (s.servoOwns = true) → (exec (.incSet r a b) s = .next (let t := s.takeReq r { op := 0x0603, level := .engineer, lock := true }; State.reply t r { op := 0x0603, level := .engineer, lock := true } 0x0602))) ∧
  (∀ (s : State) (r : Req) (a : Nat) (b : Nat), (Passes s r { op := 0x0604, level := .engineer, lock := true }) → (a < 2) → (b < 2) → (exec (.servoCfg r a b) s = .next (let t := s.takeReq r { op := 0x0604, level := .engineer, lock := true }; (t.servoCfg a b).reply r { op := 0x0604, level := .engineer, lock := true } 0))) ∧
  (∀ (s : State) (r : Req) (g : Nat) (w : Time) (n : Nat) (m : Nat), (Passes s r { op := 0x0605, level := .operator }) → ((decide (g < 32) && (s.rd R.TB_LG_MODE g == 2 || s.rd R.TB_LG_MODE g == 3)) = true) → (s.lgTime g w = some (n, m)) → (exec (.lgArm r g w) s = .next (let t := s.takeReq r { op := 0x0605, level := .operator }; let u := (t.wr64 R.TB_LG_TIME_LO R.TB_LG_TIME_HI n g).wr R.TB_LG_NS m g; (u.lgArm g).reply r { op := 0x0605, level := .operator } (if u.lgPast g then 0x0605 else 0)))) ∧
  (∀ (s : State) (r : Req) (n : Nat), (Passes s r { op := 0x0606, level := .engineer, lock := true }) → (n < 2) → (exec (.refSelect r n) s = .next (let t := s.takeReq r { op := 0x0606, level := .engineer, lock := true }; (t.refSel n).reply r { op := 0x0606, level := .engineer, lock := true } 0))) ∧
  (∀ (s : State) (r : Req), (Passes s r { op := 0x0606, level := .engineer, lock := true }) → (s.inStop = true) → (exec (.refSelect r 2) s = .next (let t := s.takeReq r { op := 0x0606, level := .engineer, lock := true }; (t.refSel 2).reply r { op := 0x0606, level := .engineer, lock := true } 0))) ∧
  (∀ (s : State) (r : Req), (Passes s r { op := 0x0606, level := .engineer, lock := true }) → (s.inStop = false) → (exec (.refSelect r 2) s = .next (let t := s.takeReq r { op := 0x0606, level := .engineer, lock := true }; State.reply t r { op := 0x0606, level := .engineer, lock := true } 0x0008))) ∧
  (∀ (s : State) (r : Req), (Passes s r { op := 0x0701, level := .observer }) → (exec (.pairStatus r) s = .next (let t := s.takeReq r { op := 0x0701, level := .observer }; State.reply t r { op := 0x0701, level := .observer } 0 [t.regWord 0x400A000C, t.regWord 0x400A0010, t.regWord 0x400A0018, t.regWord 0x400A0028]))) ∧
  (∀ (s : State) (r : Req) (q : PartnerInfo), (Passes s r { op := opJoin, level := .engineer, field := true }) → (s.inStop = true) → (s.bit R.PA_CFG_EN = true) → (s.pair.joining = false) → (exec (.join r q) s = .next (let t := s.takeReq r { op := opJoin, level := .engineer, field := true }; (t.await r { op := opJoin, level := .engineer, field := true }).join q))) ∧
  (∀ (s : State) (r : Req) (q : PartnerInfo), (Passes s r { op := opJoin, level := .engineer, field := true }) → (s.inStop = true) → (s.bit R.PA_CFG_EN = false) → (exec (.join r q) s = .next (let t := s.takeReq r { op := opJoin, level := .engineer, field := true }; State.reply t r { op := opJoin, level := .engineer, field := true } 0x0701))) ∧
  (∀ (s : State) (r : Req) (q : PartnerInfo), (Passes s r { op := opJoin, level := .engineer, field := true }) → (s.inStop = false) → (exec (.join r q) s = .next (let t := s.takeReq r { op := opJoin, level := .engineer, field := true }; State.reply t r { op := opJoin, level := .engineer, field := true } 0x0008))) ∧
  (∀ (s : State) (r : Req), (Passes s r { op := opLeave, level := .engineer, field := true }) → (s.inRun = true) → (exec (.leave r) s = .next (let t := s.takeReq r { op := opLeave, level := .engineer, field := true }; (t.await r { op := opLeave, level := .engineer, field := true }).leave))) ∧
  (∀ (s : State) (r : Req), (Passes s r { op := opLeave, level := .engineer, field := true }) → (s.inRun = false) → (exec (.leave r) s = .next (let t := s.takeReq r { op := opLeave, level := .engineer, field := true }; State.reply t r { op := opLeave, level := .engineer, field := true } 0x0008))) ∧
  (∀ (s : State) (r : Req) (n : Nat), (Passes s r { op := opHandover, level := .operator, active := true }) → (s.acc.handoverHolder = none) → (exec (.handover r n) s = .next (let t := s.takeReq r { op := opHandover, level := .operator, active := true }; let u := t.armHandover n; if u.rd R.PA_HANDOVER_REASON = 0 then State.await { u with acc := { u.acc with handoverHolder := some r.session } } r { op := opHandover, level := .operator, active := true } else State.reply u r { op := opHandover, level := .operator, active := true } (0x0710 + u.rd R.PA_HANDOVER_REASON)))) ∧
  (∀ (s : State) (r : Req), (Passes s r { op := 0x0705, level := .operator, active := true }) → (s.acc.handoverHolder = none) → (exec (.pairCancel r) s = .next (let t := s.takeReq r { op := 0x0705, level := .operator, active := true }; t.pairCancel.reply r { op := 0x0705, level := .operator, active := true } 0))) ∧
  (∀ (s : State) (r : Req) (a : Nat) (b : Nat) (c : Nat), (Passes s r { op := 0x0706, level := .engineer, lock := true }) → (a < 32) → ((decide (1 ≤ bitsOf b 0 12) && decide (bitsOf b 0 12 ≤ 3600) && decide (1 ≤ bitsOf b 16 8)) = true) → ((decide (1 ≤ c) && decide (c < 65536)) = true) → (exec (.pairCfg r a b c) s = .next (let t := s.takeReq r { op := 0x0706, level := .engineer, lock := true }; (((t.regWrite 0x400A0000 a).regWrite 0x400A0004 b).regWrite 0x400A0008 c).reply r { op := 0x0706, level := .engineer, lock := true } 0)))

/-- Commands of the chain and metering groups (rests on R278, R280, R281, R289, R424, R426). A packet of groups 0x08 and 0x09
that passes its checks: a port that runs no chain answers 0x0009, a sleeping one 0x0812; unicast and broadcast commands
are queued, or 0x0007; slot buffers are read; on NPS-96D-M the stored records, the certificate and the audit entries are
read and the alarm acknowledged, on NPS-96D-X the answer is 0x0901 (log entry 19). -/
def Obligations.ChainAndMeteringCommands : Prop :=
  (∀ (s : State) (r : Req) (p : Nat), (Passes s r { op := 0x0801, level := .observer, active := true }) → (p < 8) → (exec (.chainStatus r p) s = .next (let t := s.takeReq r { op := 0x0801, level := .observer, active := true }; State.reply t r { op := 0x0801, level := .observer, active := true } 0 ([0x04, 0x1C, 0x20, 0x24, 0x30, 0x34, 0x38, 0x3C, 0x40].map (fun o => t.regWord (chainBase p + o)))))) ∧
  (∀ (s : State) (r : Req) (p : Nat), (Passes s r { op := 0x0803, level := .operator, active := true }) → (s.chainOn p = true) → (s.chainState p ≠ csSleeping) → (exec (.chainDiscover r p) s = .next (let t := s.takeReq r { op := 0x0803, level := .operator, active := true }; (t.chainDiscover p).reply r { op := 0x0803, level := .operator, active := true } 0))) ∧
  (∀ (s : State) (r : Req) (p : Nat), (Passes s r { op := 0x0805, level := .operator, active := true }) → (s.chainOn p = true) → (s.chainState p ≠ csSleeping) → (exec (.chainSleep r p) s = .next (let t := s.takeReq r { op := 0x0805, level := .operator, active := true }; (t.chainSleep p).reply r { op := 0x0805, level := .operator, active := true } 0))) ∧
  (∀ (s : State) (r : Req) (p : Nat), (Passes s r { op := 0x0804, level := .operator, active := true }) → (s.chainOn p = true) → (exec (.chainWake r p) s = .next (let t := s.takeReq r { op := 0x0804, level := .operator, active := true }; (t.chainWake p).reply r { op := 0x0804, level := .operator, active := true } 0))) ∧
  (∀ (s : State) (r : Req) (p : Nat), (Passes s r { op := 0x0804, level := .operator, active := true }) → (s.chainOn p = false) → (exec (.chainWake r p) s = .next (let t := s.takeReq r { op := 0x0804, level := .operator, active := true }; State.reply t r { op := 0x0804, level := .operator, active := true } 0x0009))) ∧
  (∀ (s : State) (r : Req) (p : Nat), (Passes s r { op := 0x0805, level := .operator, active := true }) → (s.chainOn p = true) → (s.chainState p = csSleeping) → (exec (.chainSleep r p) s = .next (let t := s.takeReq r { op := 0x0805, level := .operator, active := true }; State.reply t r { op := 0x0805, level := .operator, active := true } 0x0812))) ∧
  (∀ (s : State) (r : Req) (p : Nat) (h : Nat) (o : Nat) (d : Bytes), (Passes s r { op := 0x0802, level := .engineer, active := true }) → (s.chainOn p = true) → (s.chainState p ≠ csSleeping) → ((s.chainReach p h).isSome = true) → ((s.chain p).queue.length < 32) → (exec (.chainPass r p h o d) s = .next (let t := s.takeReq r { op := 0x0802, level := .engineer, active := true }; t.updChain p (fun x => { x with queue := x.queue ++ [{ session := r.session, tag := r.tag, op := 0x0802, code := o, h, payload := d }] })))) ∧
  (∀ (s : State) (r : Req) (p : Nat) (h : Nat) (o : Nat) (d : Bytes), (Passes s r { op := 0x0802, level := .engineer, active := true }) → (s.chainOn p = true) → (s.chainState p ≠ csSleeping) → ((s.chainReach p h).isSome = false) → (exec (.chainPass r p h o d) s = .next (let t := s.takeReq r { op := 0x0802, level := .engineer, active := true }; State.reply t r { op := 0x0802, level := .engineer, active := true } 0x0810))) ∧
  (∀ (s : State) (r : Req) (p : Nat) (h : Nat) (m : Nat) (d : Bytes), (Passes s r { op := 0x0806, level := .operator, active := true }) → (m < 3) → (d.length = 32) → (s.chainOn p = true) → (s.chainState p ≠ csSleeping) → ((s.chainReach p h).isSome = true) → (exec (.balSet r p h m d) s = .next (let t := s.takeReq r { op := 0x0806, level := .operator, active := true }; State.chainAsk t r { op := 0x0806, level := .operator, active := true } p 0x09 h (leBytes 1 m ++ leBytes 1 0 ++ d)))) ∧
  (∀ (s : State) (r : Req) (p : Nat), (Passes s r { op := 0x0807, level := .operator, active := true }) → (s.chainOn p = true) → (s.chainState p ≠ csSleeping) → (exec (.chainFaultClr r p) s = .next (let t := s.takeReq r { op := 0x0807, level := .operator, active := true }; State.chainAsk t r { op := 0x0807, level := .operator, active := true } p 0x0B 0 []))) ∧
  (∀ (s : State) (r : Req) (p : Nat) (h : Nat), (Passes s r { op := 0x0809, level := .observer, active := true }) → (s.chainOn p = true) → (s.chainState p ≠ csSleeping) → ((s.chainReach p h).isSome = true) → (exec (.nodeStatus r p h) s = .next (let t := s.takeReq r { op := 0x0809, level := .observer, active := true }; State.chainAsk t r { op := 0x0809, level := .observer, active := true } p 0x0A h []))) ∧
  (∀ (s : State) (r : Req) (c : Cmd) (p o h : Nat) (d : Bytes), (32 ≤ (s.chain p).queue.length) → (s.chainAsk r c p o h d = State.reply (s.wr R.CH_STATUS_Q_FULL 1 p) r c 0x0007)) ∧
  (∀ (s : State) (r : Req) (n : Nat) (k : Nat), (Passes s r { op := 0x0808, level := .observer, active := true }) → (1 ≤ k) → (k ≤ 128) → (n + k ≤ 8192) → (exec (.slotRead r n k none) s = .next (let t := s.takeReq r { op := 0x0808, level := .observer, active := true }; State.reply t r { op := 0x0808, level := .observer, active := true } 0 [] ((List.range k).flatMap (fun i => t.bytes (slotAddr (n + i) (t.slotPub (n + i))) 128))))) ∧
  (∀ (s : State) (r : Req) (n : Nat) (k : Nat) (b : Option Nat), (Passes s r { op := 0x0808, level := .observer, active := true }) → (8192 ≤ n) → (exec (.slotRead r n k b) s = .next (let t := s.takeReq r { op := 0x0808, level := .observer, active := true }; State.reply t r { op := 0x0808, level := .observer, active := true } 0x0009))) ∧
  (∀ (s : State) (r : Req), (Passes s r { op := 0x0901, level := .observer }) → (s.mg.status = none) → (exec (.metStatus r) s = .next (if Config.variantM = true then (let t := s.takeReq r { op := 0x0901, level := .observer }; State.reply t r { op := 0x0901, level := .observer } 0x0009) else State.reply (s.takeReq r { op := 0x0901, level := .observer }) r { op := 0x0901, level := .observer } 0x0901))) ∧
  (∀ (s : State) (r : Req) (n : Nat) (k : Nat), (Passes s r { op := 0x0902, level := .observer }) → (s.mg.store.any (fun x => x.1 == n) = false) → (exec (.metRecords r n k) s = .next (if Config.variantM = true then (let t := s.takeReq r { op := 0x0902, level := .observer }; State.reply t r { op := 0x0902, level := .observer } 0x0902) else State.reply (s.takeReq r { op := 0x0902, level := .observer }) r { op := 0x0902, level := .observer } 0x0901))) ∧
  (∀ (s : State) (r : Req) (n : Nat) (k : Nat), (Passes s r { op := 0x0903, level := .observer }) → (s.mg.audit.length ≤ n) → (exec (.metAudit r n k) s = .next (if Config.variantM = true then (let t := s.takeReq r { op := 0x0903, level := .observer }; State.reply t r { op := 0x0903, level := .observer } 0x0009) else State.reply (s.takeReq r { op := 0x0903, level := .observer }) r { op := 0x0903, level := .observer } 0x0901))) ∧
  (∀ (s : State) (r : Req), (Passes s r { op := 0x0904, level := .observer }) → (s.mg.cert.isEmpty = true) → (exec (.metCert r) s = .next (if Config.variantM = true then (let t := s.takeReq r { op := 0x0904, level := .observer }; State.reply t r { op := 0x0904, level := .observer } 0x0009) else State.reply (s.takeReq r { op := 0x0904, level := .observer }) r { op := 0x0904, level := .observer } 0x0901))) ∧
  (∀ (s : State) (r : Req) (m : MgRecord), (Passes s r { op := 0x0901, level := .observer }) → (s.mg.status = some m) → (exec (.metStatus r) s = .next (if Config.variantM = true then (let t := s.takeReq r { op := 0x0901, level := .observer }; State.reply t r { op := 0x0901, level := .observer } 0 [] m.data) else State.reply (s.takeReq r { op := 0x0901, level := .observer }) r { op := 0x0901, level := .observer } 0x0901))) ∧
  (∀ (s : State) (r : Req) (n : Nat) (k : Nat), (Passes s r { op := 0x0902, level := .observer }) → (s.mg.store.any (fun x => x.1 == n) = true) → (exec (.metRecords r n k) s = .next (if Config.variantM = true then (let t := s.takeReq r { op := 0x0902, level := .observer }; let l := (List.range k).filterMap (fun i => (t.mg.store.find? (fun x => x.1 == n + i)).map (·.2)); State.reply t r { op := 0x0902, level := .observer } 0 [l.length] (l.flatMap MgRecord.stamped)) else State.reply (s.takeReq r { op := 0x0902, level := .observer }) r { op := 0x0902, level := .observer } 0x0901))) ∧
  (∀ (s : State) (r : Req) (n : Nat) (k : Nat), (Passes s r { op := 0x0903, level := .observer }) → (n < s.mg.audit.length) → (exec (.metAudit r n k) s = .next (if Config.variantM = true then (let t := s.takeReq r { op := 0x0903, level := .observer }; let l := ((t.mg.audit.drop n).take k).map (·.2); State.reply t r { op := 0x0903, level := .observer } 0 [l.length] l.flatten) else State.reply (s.takeReq r { op := 0x0903, level := .observer }) r { op := 0x0903, level := .observer } 0x0901))) ∧
  (∀ (s : State) (r : Req), (Passes s r { op := 0x0904, level := .observer }) → (s.mg.cert.isEmpty = false) → (exec (.metCert r) s = .next (if Config.variantM = true then (let t := s.takeReq r { op := 0x0904, level := .observer }; State.reply t r { op := 0x0904, level := .observer } 0 [] (t.mg.cert.flatMap (·.2))) else State.reply (s.takeReq r { op := 0x0904, level := .observer }) r { op := 0x0904, level := .observer } 0x0901))) ∧
  (∀ (s : State) (r : Req), (Passes s r { op := 0x0908, level := .metrology }) → (exec (.metAlarmAck r) s = .next (if Config.variantM = true then (let t := s.takeReq r { op := 0x0908, level := .metrology }; State.reply { t with mg := { t.mg with alarm := false } } r { op := 0x0908, level := .metrology } 0) else State.reply (s.takeReq r { op := 0x0908, level := .metrology }) r { op := 0x0908, level := .metrology } 0x0901)))

/-- Access lock, field lock, reopening and lockouts (rests on R382, R383, R386, R387, R388, R389, R390, R391, R392). A packet
of group 0x0A about access that passes its checks: who is asking; the access lock taken, released and timed out; the field
lock engaged, which ends every reopen; a reopen by password or signed challenge, and its failures; the password set;
lockouts read, reset and expired. -/
def Obligations.AccessCommands : Prop :=
  (∀ (s : State) (r : Req) (x : Session), (Passes s r { op := 0x0A01, level := .observer }) → (s.session? r.session = some x) → (exec (.whoami r) s = .next (let t := s.takeReq r { op := 0x0A01, level := .observer }; State.reply t r { op := 0x0A01, level := .observer } 0 [x.id, levelCode x.level, x.cred, ((t.acc.lock).map (·.session)).getD 0, t.rd R.SE_STATUS_FIELD_LOCK, if x.reopened t.tb.frc then x.reopen.getD 0 else 0, if x.unchecked then 1 else 0]))) ∧
  (∀ (s : State) (r : Req) (n : Nat), (Passes s r { op := 0x0A02, level := .engineer, field := true }) → (1 ≤ n) → (n ≤ 480) → (s.acc.lock = none) → (exec (.lockOpen r n) s = .next (let t := s.takeReq r { op := 0x0A02, level := .engineer, field := true }; State.reply { t with acc := { t.acc with lock := some { session := r.session, minutes := n, lastUse := t.tb.frc } } } r { op := 0x0A02, level := .engineer, field := true } 0))) ∧
  (∀ (s : State) (r : Req) (n : Nat) (x : LockHold), (Passes s r { op := 0x0A02, level := .engineer, field := true }) → (1 ≤ n) → (n ≤ 480) → (s.acc.lock = some x) → (x.session ≠ r.session) → (exec (.lockOpen r n) s = .next (let t := s.takeReq r { op := 0x0A02, level := .engineer, field := true }; State.reply t r { op := 0x0A02, level := .engineer, field := true } 0x000C [x.session]))) ∧
  (∀ (s : State) (r : Req) (x : LockHold), (Passes s r { op := 0x0A03, level := .engineer }) → (s.acc.lock = some x) → (x.session = r.session) → (exec (.lockClose r) s = .next (let t := s.takeReq r { op := 0x0A03, level := .engineer }; State.reply { t with acc := { t.acc with lock := none } } r { op := 0x0A03, level := .engineer } 0))) ∧
  (∀ (s : State) (r : Req) (x : LockHold), (Passes s r { op := 0x0A03, level := .engineer }) → (s.acc.lock = some x) → (x.session ≠ r.session) → (exec (.lockClose r) s = .next (let t := s.takeReq r { op := 0x0A03, level := .engineer }; State.reply t r { op := 0x0A03, level := .engineer } 0x000C [x.session]))) ∧
  (∀ (s : State) (r : Req), (Passes s r { op := 0x0A03, level := .engineer }) → (s.acc.lock = none) → (exec (.lockClose r) s = .next (let t := s.takeReq r { op := 0x0A03, level := .engineer }; State.reply t r { op := 0x0A03, level := .engineer } 0x0005))) ∧
  (∀ (s : State) (x : LockHold), (s.acc.lock = some x) → (x.lastUse + x.minutes * minuteTb ≤ s.tb.frc) → (exec .lockTimeout s = .next { s with acc := { s.acc with lock := none } })) ∧
  (∀ (s : State), (s.acc.lock = none) → (exec .lockTimeout s = .next s)) ∧
  (∀ (s : State) (x : LockHold), (s.acc.lock = some x) → (s.tb.frc < x.lastUse + x.minutes * minuteTb) → (exec .lockTimeout s = .next s)) ∧
  (∀ (s : State) (r : Req), (Passes s r { op := 0x0A04, level := .owner }) → (exec (.fieldLock r 0) s = .next (let t := s.takeReq r { op := 0x0A04, level := .owner }; (t.wr R.SE_STATUS_FIELD_LOCK 0).reply r { op := 0x0A04, level := .owner } 0))) ∧
  (∀ (s : State) (r : Req), (Passes s r { op := 0x0A04, level := .owner }) → (exec (.fieldLock r 1) s = .next (let t := s.takeReq r { op := 0x0A04, level := .owner }; let u := t.wr R.SE_STATUS_FIELD_LOCK 1; State.reply { u with acc := { u.acc with lock := u.acc.lock.filter (fun l => l.session == r.session), sessions := u.acc.sessions.map (fun (x : Session) => { x with reopen := none }) } } r { op := 0x0A04, level := .owner } 0))) ∧
  (∀ (s : State) (r : Req) (d : Bytes) (n : Nat), (Passes s r { op := 0x0A05, level := .engineer }) → (1 ≤ n) → (n ≤ 480) → (s.acc.pwHash = none) → (exec (.reopenPw r d n) s = .next (let t := s.takeReq r { op := 0x0A05, level := .engineer }; State.reply t r { op := 0x0A05, level := .engineer } 0x0A01))) ∧
  (∀ (s : State) (r : Req) (d : Bytes) (n : Nat), (Passes s r { op := 0x0A05, level := .engineer }) → (1 ≤ n) → (n ≤ 480) → (s.acc.pwHash = some (Config.pwVerifier d)) → (s.bit R.SE_STATUS_FIELD_LOCK = true) → (s.lockedFor s.acc.pwUntil = 0) → (exec (.reopenPw r d n) s = .next (let t := s.takeReq r { op := 0x0A05, level := .engineer }; (t.grantReopen r n).reply r { op := 0x0A05, level := .engineer } 0))) ∧
  (∀ (s : State) (r : Req) (d : Bytes) (n : Nat) (v : Nat), (Passes s r { op := 0x0A05, level := .engineer }) → (1 ≤ n) → (n ≤ 480) → (s.acc.pwHash = some v) → (s.bit R.SE_STATUS_FIELD_LOCK = false) → (exec (.reopenPw r d n) s = .next (let t := s.takeReq r { op := 0x0A05, level := .engineer }; State.reply t r { op := 0x0A05, level := .engineer } 0x0A06))) ∧
  (∀ (s : State) (n t : Nat) (x : Session), (s.session? n = some x) → (x.reopen = some t) → (t ≤ s.tb.frc) → (exec (.reopenExpiry n) s = .next (s.updSession n (fun x => { x with reopen := none })))) ∧
  (∀ (s : State) (n : Nat), ((s.session? n).bind (·.reopen) = none) → (exec (.reopenExpiry n) s = .next s)) ∧
  (∀ (s : State) (r : Req) (n : Nat), (Passes s r { op := 0x0A06, level := .engineer }) → (1 ≤ n) → (n ≤ 1440) → (s.bit R.SE_STATUS_FIELD_LOCK = true) → (s.lockedFor s.acc.crUntil = 0) → (exec (.challenge r n) s = .next (let t := s.takeReq r { op := 0x0A06, level := .engineer }; let x := { nonce := Config.nonce t.free, minutes := n, frc := t.tb.frc }; ((t.nextFree).updSession r.session (fun y => { y with challenge := some x })).reply r { op := 0x0A06, level := .engineer } 0 [] (challengeBytes r.session x)))) ∧
  (∀ (s : State) (r : Req) (n : Nat), (Passes s r { op := 0x0A06, level := .engineer }) → (1 ≤ n) → (n ≤ 1440) → (s.bit R.SE_STATUS_FIELD_LOCK = false) → (exec (.challenge r n) s = .next (let t := s.takeReq r { op := 0x0A06, level := .engineer }; State.reply t r { op := 0x0A06, level := .engineer } 0x0A06))) ∧
  (∀ (s : State) (r : Req) (d : Bytes) (y : Session), (Passes s r { op := 0x0A07, level := .engineer }) → (d.length = 96) → (s.session? r.session = some y) → (y.challenge = none) → (exec (.response r d) s = .next (let t := s.takeReq r { op := 0x0A07, level := .engineer }; (t.updSession r.session (fun y => { y with challenge := none })).reply r { op := 0x0A07, level := .engineer } 0x0A04))) ∧
  (∀ (s : State) (r : Req) (d : Bytes) (x : Challenge) (y : Session), (Passes s r { op := 0x0A07, level := .engineer }) → (d.length = 96) → (s.session? r.session = some y) → (y.challenge = some x) → (s.tb.frc ≤ x.frc + 10 * minuteTb) → (s.bit R.SE_STATUS_FIELD_LOCK = true) → (exec (.response r d) s = .next (let t := s.takeReq r { op := 0x0A07, level := .engineer }; let u := t.updSession r.session (fun y => { y with challenge := none }); (if u.trust.owner.any (fun k => Config.sigValid k (challengeBytes r.session x) d) then (u.grantReopen r x.minutes).reply r { op := 0x0A07, level := .engineer } 0 else (u.failResponse r).reply r { op := 0x0A07, level := .engineer } 0x0A03)))) ∧
  (∀ (s : State) (r : Req) (d : Bytes), (Passes s r { op := 0x0A08, level := .owner }) → ((decide (12 ≤ d.length) && decide (d.length ≤ 64) && d.all (fun b => decide (0x20 ≤ b.toNat) && decide (b.toNat ≤ 0x7E))) = true) → (exec (.pwSet r d) s = .next (let t := s.takeReq r { op := 0x0A08, level := .owner }; State.reply { t with acc := { t.acc with pwHash := some (Config.pwVerifier d) } } r { op := 0x0A08, level := .owner } 0))) ∧
  (∀ (s : State) (r : Req) (d : Bytes), (Passes s r { op := 0x0A08, level := .owner }) → (d.length < 12) → (exec (.pwSet r d) s = .next (let t := s.takeReq r { op := 0x0A08, level := .owner }; State.reply t r { op := 0x0A08, level := .owner } 0x0A05))) ∧
  (∀ (s : State) (r : Req), (Passes s r { op := 0x0A09, level := .observer }) → (exec (.lockoutRead r) s = .next (let t := s.takeReq r { op := 0x0A09, level := .observer }; State.reply t r { op := 0x0A09, level := .observer } 0 ([t.acc.failPw, t.lockedFor t.acc.pwUntil, t.acc.failCr, t.lockedFor t.acc.crUntil] ++ t.acc.tlsFails.flatMap (fun x => [x.source, x.count, t.lockedFor x.until_]))))) ∧
  (∀ (s : State) (r : Req), (Passes s r { op := 0x0A0A, level := .owner }) → (exec (.lockoutReset r) s = .next (let t := s.takeReq r { op := 0x0A0A, level := .owner }; State.reply { t with acc := { t.acc with failPw := 0, pwLast := 0, pwUntil := none, failCr := 0, crUntil := none } } r { op := 0x0A0A, level := .owner } 0))) ∧
  (∀ (s : State), (exec .lockoutExpiry s = .next { s with acc := { s.acc with pwUntil := s.acc.pwUntil.filter (fun t => decide (s.tb.frc < t)), crUntil := s.acc.crUntil.filter (fun t => decide (s.tb.frc < t)), tlsFails := s.acc.tlsFails.filter (fun x => x.until_.all (fun t => decide (s.tb.frc < t))) } }))

/-- Commands of the maintenance group (rests on R94, R202, R248, R329, R486, R492, R495). A packet of group 0x0C that passes
its checks: counters of the 17 blocks are read and cleared, held journal entries and the inventory read, a converter spare
switched in, a tile or solver unit relocated to a spare, a solver shadow set, the self-test run in STOP, a route entry's
counters read. -/
def Obligations.MaintenanceCommands : Prop :=
  (∀ (s : State) (r : Req) (b : Nat), (Passes s r { op := 0x0C01, level := .observer }) → (b < 17) → (exec (.countersRead r b) s = .next (let t := s.takeReq r { op := 0x0C01, level := .observer }; State.reply t r { op := 0x0C01, level := .observer } 0 (t.counters b)))) ∧
  (∀ (s : State) (r : Req) (b : Nat), (Passes s r { op := 0x0C02, level := .engineer }) → (b < 17) → (exec (.countersClear r b) s = .next (let t := s.takeReq r { op := 0x0C02, level := .engineer }; (t.act (execHsClearGo b 0xFF)).reply r { op := 0x0C02, level := .engineer } 0))) ∧
  (∀ (s : State) (r : Req) (b : Nat), (Passes s r { op := 0x0C01, level := .observer }) → (17 ≤ b) → (exec (.countersRead r b) s = .next (let t := s.takeReq r { op := 0x0C01, level := .observer }; State.reply t r { op := 0x0C01, level := .observer } 0x0003 [1]))) ∧
  (∀ (s : State) (r : Req) (n : Nat) (k : Nat), (Passes s r { op := 0x0C03, level := .observer }) → ((((s.jr.ram ++ s.jr.flash).filter (fun e => decide (n ≤ e.seq) && decide (e.seq < n + k))).reverse).isEmpty = false) → (exec (.journalRead r n k) s = .next (let t := s.takeReq r { op := 0x0C03, level := .observer }; let l := ((t.jr.ram ++ t.jr.flash).filter (fun e => decide (n ≤ e.seq) && decide (e.seq < n + k))).reverse; State.reply t r { op := 0x0C03, level := .observer } 0 [l.length] (l.flatMap JEntry.bytes)))) ∧
  (∀ (s : State) (r : Req) (n : Nat) (k : Nat), (Passes s r { op := 0x0C03, level := .observer }) → (s.jr.ram = []) → (s.jr.flash = []) → (exec (.journalRead r n k) s = .next (let t := s.takeReq r { op := 0x0C03, level := .observer }; State.reply t r { op := 0x0C03, level := .observer } 0x0009))) ∧
  (∀ (s : State) (r : Req), (Passes s r { op := 0x0C04, level := .observer }) → (exec (.sparesRead r) s = .next (let t := s.takeReq r { op := 0x0C04, level := .observer }; State.reply t r { op := 0x0C04, level := .observer } 0 ((List.range 11).flatMap (fun k => [t.rd R.HS_INV_IN_SERVICE k, t.rd R.HS_INV_SPARE k, t.rd R.HS_INV_FAILED k]))))) ∧
  (∀ (s : State) (r : Req) (g : Nat) (k : Nat), (Passes s r { op := opSpare, level := .engineer, lock := true }) → (g < 12) → (k < 8) → (s.spareReason g k = 0) → (exec (.spareSwitch r g k 0) s = .next (let t := s.takeReq r { op := opSpare, level := .engineer, lock := true }; (t.await r { op := opSpare, level := .engineer, lock := true } g).spareStart g k))) ∧
  (∀ (s : State) (r : Req) (g : Nat) (k : Nat) (n : Nat), (Passes s r { op := opSpare, level := .engineer, lock := true }) → (g < 12) → (k < 8) → (s.spareReason g k = n + 1) → (exec (.spareSwitch r g k 0) s = .next (let t := s.takeReq r { op := opSpare, level := .engineer, lock := true }; (t.spareStart g k).reply r { op := opSpare, level := .engineer, lock := true } (0x0C00 + (n + 1))))) ∧
  (∀ (s : State) (r : Req) (g : Nat) (k : Nat), (Passes s r { op := opSpare, level := .engineer, lock := true }) → (g < 12) → (k < 8) → (exec (.spareSwitch r g k 1) s = .next (let t := s.takeReq r { op := opSpare, level := .engineer, lock := true }; (t.spareCancel g).reply r { op := opSpare, level := .engineer, lock := true } 0))) ∧
  (∀ (s : State) (r : Req) (l : Nat) (p : Nat), (Passes s r { op := opRelocate, level := .engineer, lock := true }) → (l < 32) → (p < 36) → (s.lat.relocCheck = none) → (s.lat.relocOrder = none) → (s.lat.relocCopied = none) → (s.rd R.LT_PHYS_STATE p = 1) → (exec (.relocate r 0 l p) s = .next (let t := s.takeReq r { op := opRelocate, level := .engineer, lock := true }; (t.await r { op := opRelocate, level := .engineer, lock := true } 0).relocCheck l p))) ∧
  (∀ (s : State) (r : Req) (l : Nat) (p : Nat), (Passes s r { op := opRelocate, level := .engineer, lock := true }) → (l < 8) → (p < 9) → (s.lat.svReloc = none) → (s.rd R.SV_PHYS_STATE p = 1) → (exec (.relocate r 1 l p) s = .next (let t := s.takeReq r { op := opRelocate, level := .engineer, lock := true }; (t.await r { op := opRelocate, level := .engineer, lock := true } 1).svRelocOrder l p))) ∧
  (∀ (s : State) (r : Req) (l : Nat) (p : Nat), (Passes s r { op := opRelocate, level := .engineer, lock := true }) → (l < 32) → (p < 36) → (s.lat.relocCheck = none) → (s.lat.relocOrder = none) → (s.lat.relocCopied = none) → (s.rd R.LT_PHYS_STATE p ≠ 1) → (exec (.relocate r 0 l p) s = .next (let t := s.takeReq r { op := opRelocate, level := .engineer, lock := true }; (t.relocCheck l p).reply r { op := opRelocate, level := .engineer, lock := true } 0x0C11))) ∧
  (∀ (s : State) (r : Req) (l : Nat) (e : Nat), (Passes s r { op := 0x0C07, level := .engineer, lock := true }) → (l < 8) → (e < 2) → (exec (.shadowSet r l e) s = .next (let t := s.takeReq r { op := 0x0C07, level := .engineer, lock := true }; (t.svShadowOrder l (e == 1)).reply r { op := 0x0C07, level := .engineer, lock := true } 0))) ∧
  (∀ (s : State) (r : Req), (Passes s r { op := 0x0C0A, level := .engineer, field := true }) → (s.inStop = true) → (exec (.selftest r none) s = .next (let t := s.takeReq r { op := 0x0C0A, level := .engineer, field := true }; State.reply t r { op := 0x0C0A, level := .engineer, field := true } 0 [0]))) ∧
  (∀ (s : State) (r : Req) (p : Nat), (Passes s r { op := 0x0C0A, level := .engineer, field := true }) → (s.inStop = true) → (exec (.selftest r (some p)) s = .next (let t := s.takeReq r { op := 0x0C0A, level := .engineer, field := true }; State.reply t r { op := 0x0C0A, level := .engineer, field := true } 0x0C12 [p]))) ∧
  (∀ (s : State) (r : Req) (x : Option Nat), (Passes s r { op := 0x0C0A, level := .engineer, field := true }) → (s.inStop = false) → (exec (.selftest r x) s = .next (let t := s.takeReq r { op := 0x0C0A, level := .engineer, field := true }; State.reply t r { op := 0x0C0A, level := .engineer, field := true } 0x0008))) ∧
  (∀ (s : State) (r : Req) (n : Nat), (Passes s r { op := 0x0C0B, level := .observer }) → (n < 8192) → (exec (.routeCounters r n) s = .next (let t := s.takeReq r { op := 0x0C0B, level := .observer }; State.reply t r { op := 0x0C0B, level := .observer } 0 [(t.route n).frames, (t.route n).gaps]))) ∧
  (∀ (s : State) (r : Req) (n : Nat), (Passes s r { op := 0x0C0B, level := .observer }) → (8192 ≤ n) → (exec (.routeCounters r n) s = .next (let t := s.takeReq r { op := 0x0C0B, level := .observer }; State.reply t r { op := 0x0C0B, level := .observer } 0x0009)))

/-- The state after reset is sound (rests on R14, R16, R43, R493). State.reset meets the invariant: memory and the field store
canonical, the FRC a 64-bit number, the journal within its two bounds. -/
def Obligations.ResetStateIsSound : Prop :=
  Sound State.reset

/-- What reset leaves (rests on R14, R43, R46, R47, R64, R261, R495). After reset the FRC is 0, the unit is in BOOT and SOLO,
the queue, memory, staging copies and journals are empty, TOD is not valid, the increment is 10 ns and no fraction, both
oscillators are within limits, the output block is de-energised, and no session or lock is held. -/
def Obligations.ValuesAtReset : Prop :=
  (State.reset.tb.frc = 0 ∧ State.reset.unit = .boot ∧ State.reset.role = .solo ∧ State.reset.pending = [] ∧ State.reset.mem = [] ∧ State.reset.staged = [] ∧ State.reset.jr.ram = [] ∧ State.reset.jr.flash = []) ∧
  (State.reset.bit R.TB_STATUS_TOD_VALID = false ∧ State.reset.rd R.TB_INC_NS = 10 ∧ State.reset.rd R.TB_INC_FRAC = 0 ∧ State.reset.rd R.TB_STATUS_PRIMARY_OK = 1 ∧ State.reset.rd R.TB_STATUS_SPARE_OK = 1) ∧
  (State.reset.rd R.DIO_STATUS_OUT_OFF = 1 ∧ State.reset.rd R.DIO_STATUS_IN_OK = 0 ∧ State.reset.rd R.SS_STATUS_PFW = 0 ∧ State.reset.acc.sessions = [] ∧ State.reset.acc.lock = none)

/-- A step runs the command at the front of the queue (rests on R21). For every command c, queue rest cs and state s, the step
of s with c in front of cs is exec of c on s with cs as its queue. -/
def Obligations.StepRunsTheFrontCommand : Prop :=
  ∀ (s : State) (c : Instr) (cs : List Instr), (step { s with pending := c :: cs } = exec c { s with pending := cs })

/-- An idle step lets one tb pass (rests on R43, R45). With an empty queue the step answers a next state in which the FRC has
counted one modulo 2^64, TOD has gained one increment, and nothing else but the time base differs (the model's choice, log
entry 7). -/
def Obligations.AnIdleStepPassesOneTb : Prop :=
  (∀ (s : State), (s.pending = []) → (step s = .next (s.pass 1))) ∧
  (∀ (s : State), ((s.pass 1).tb.frc = (s.tb.frc + 1) % 2 ^ 64 ∧ (s.pass 1).tb.sec = (s.todUnits + s.incUnits) / 2 ^ 32 / 1000000000 % 2 ^ 64 ∧ (s.pass 1).tb.ns = (s.todUnits + s.incUnits) / 2 ^ 32 % 1000000000 ∧ (s.pass 1).tb.frac = (s.todUnits + s.incUnits) % 2 ^ 32 ∧ ∃ x, s.pass 1 = { s with tb := x }))

/-- The free-running counter (states R43). The FRC is 0 after POR, counts one at every tb, a write to either of its words
changes nothing, and MRST and LRST leave it as it is. -/
def Obligations.FreeRunningCounterIsNeverWritten : Prop :=
  (∀ (s : State), (State.reset.tb.frc = 0 ∧ s.por.tb.frc = 0 ∧ (s.pass 1).tb.frc = (s.tb.frc + 1) % 2 ^ 64)) ∧
  (∀ (s : State) (v n : Nat), (exec (.registerWrite 0x40000008 v n) s = .next s ∧ exec (.registerWrite 0x4000000C v n) s = .next s)) ∧
  (∀ (s : State) (k : Nat), ((s.mrst k).tb.frc = s.tb.frc ∧ s.lrst.tb.frc = s.tb.frc))

/-- Division by zero and results outside the format (states R71). A DIV with a zero divisor sets DIVZ and returns the largest
value, the most negative value or 0 by the sign of the dividend; a DIV or SQRT outside the format saturates toward the
sign of the exact result and sets SAT; a DIV that can issue completes whatever its operands are. -/
def Obligations.DivisionCorners : Prop :=
  (∀ (a : Int) (n : Nat), (divVal a 0 n = ((if 0 < a then 2 ^ 31 - 1 else if a < 0 then 2 ^ 31 else 0, false), tsrDivz))) ∧
  (∀ (a b : Int) (n : Nat), (b ≠ 0) → (divVal a b n = (satWord (roundDiv (a * 2 ^ n) b), 0))) ∧
  (∀ (a : Int) (n : Nat), (0 ≤ a) → (sqrtVal a n = satWord (sqrtR (a.toNat * 2 ^ n)))) ∧
  (∀ (v : Int), (2 ^ 31 ≤ v) → (satWord v = (2 ^ 31 - 1, true))) ∧
  (∀ (v : Int), (v < -(2 ^ 31)) → (satWord v = (2 ^ 31, true))) ∧
  (∀ (v : Int), (-(2 ^ 31) ≤ v) → (v < 2 ^ 31) → (satWord v = (ofInt 32 v, false))) ∧
  (∀ (s : State) (i : Issue) (d a b n : Nat), (s.canIssue i = true) → (d < 64) → (a < 64) → (b < 64) → (2 * n < 64) → ((s.tile (s.physTile i.tile)).divFree ≤ i.t) → (i.t < s.G) → (exec (.div i d a b n) s = .next ((s.startIssue i).eachTile i (fun s p => (s.useDiv p i.t).result p i.t 18 d (divVal (s.gri p a) (s.gri p b) n).1 (divVal (s.gri p a) (s.gri p b) n).2))))

/-- Latency of a loop call (states R157). A loop call listing N records has a latency of 320 + 330 N tile cycles; at 512
records that is 169,280. -/
def Obligations.LoopCallLatency : Prop :=
  ∀ (s : State) (d : Nat), (s.callLatency .loop d = 320 + 330 * leNat (s.bytes d 2) ∧ loopLatency 512 = 169280)

/-- Every step keeps a sound state sound (rests on R13, R43, R493). From every sound state, whatever commands wait, a step
that answers a next state answers a sound one: memory and the field store stay canonical, the FRC stays a 64-bit number,
the journal stays within its bounds. -/
def Obligations.StepKeepsASoundState : Prop :=
  ∀ (s t : State), (Sound s) → (step s = .next t) → (Sound t)

/-- No command touches the queue of waiting commands (rests on R21, R379). Whatever command runs, the commands waiting behind
it stand in the queue afterwards as they did before, in the same order. -/
def Obligations.CommandsLeaveTheQueue : Prop :=
  ∀ (s t : State) (c : Instr), (exec c s = .next t) → (t.pending = s.pending)

/-- Every command completes; only a tile operation outside the contract stops (rests on R71, R99). No command is refused,
every command that is no tile operation answers a next state from every state, and a tile operation that the admission
rules exclude stops under a name of its own. -/
def Obligations.OnlyTileOperationsStop : Prop :=
  (∀ (s : State) (c : Instr), (tileIssue c = none) → (∃ t, exec c s = .next t)) ∧
  (∀ (s : State) (c : Instr) (f : Refusal), (exec c s ≠ .refused f))

/-- A register field reads what was written, cut to its width (rests on R12, R14). In a sound state the field written reads
the value modulo its width, every field at another place reads as before, and nothing but the field store differs. -/
def Obligations.RegisterFieldsReadAfterWrite : Prop :=
  (∀ (s : State) (r : RegRow) (v i j : Nat), (Sound s) → ((s.wr r v i j).rd r i j = v % 2 ^ r.width ∧ (s.wr r v i j) = { s with regs := (s.wr r v i j).regs } ∧ Sound (s.wr r v i j))) ∧
  (∀ (s : State) (r q : RegRow) (v i j k l : Nat), (q.key k l ≠ r.key i j) → ((s.wr r v i j).rd q k l = s.rd q k l))

/-- Memory reads what was stored and nothing else changes (rests on R67, R68, R69). In a sound state the bytes stored at an
address read back, every byte outside them reads as before, and the state stays sound. -/
def Obligations.MemoryReadsAfterWrite : Prop :=
  (∀ (s : State) (a : Nat) (d : Bytes), (Sound s) → ((s.setBytes a d).bytes a d.length = d ∧ Sound (s.setBytes a d))) ∧
  (∀ (s : State) (a x : Nat) (d : Bytes), (x < a ∨ a + d.length ≤ x) → ((s.setBytes a d).byte x = s.byte x))

/-- The access codes of register fields (rests on R12, R23, R44, R64, R386). A written word leaves RO and WO fields, sets RW
fields, clears the W1C bits it holds as 1, and sets RWL fields while the access lock is open, in the staging copy where
the block has one; a WO field reads 0. A word write acts through the register map; a wide low-word read answers the low
word and latches the high one; any other address is no such read. -/
def Obligations.AccessCodesOfFields : Prop :=
  (∀ (s : State) (a v i j : Nat) (r : RegRow), (r.acc = .ro ∨ r.acc = .wo) → (s.fieldWrite a v r i j = s)) ∧
  (∀ (s : State) (a v i j : Nat) (r : RegRow), (r.acc = .rw) → (s.fieldWrite a v r i j = s.wr r (bitsOf v r.lo r.width) i j)) ∧
  (∀ (s : State) (a v i j : Nat) (r : RegRow), (r.acc = .w1c) → (s.fieldWrite a v r i j = s.wr r (s.rd r i j &&& (2 ^ r.width - 1 - bitsOf v r.lo r.width)) i j)) ∧
  (∀ (s : State) (a v i j : Nat) (r : RegRow), (r.acc = .rwl) → (s.lockOpen = false) → (s.fieldWrite a v r i j = s)) ∧
  (∀ (s : State) (a v i j : Nat) (r : RegRow), (r.acc = .rwl) → (s.lockOpen = true) → (stagedAddr a = true) → (s.fieldWrite a v r i j = s.stage r (bitsOf v r.lo r.width) i j)) ∧
  (∀ (s : State) (a v i j : Nat) (r : RegRow), (r.acc = .rwl) → (s.lockOpen = true) → (stagedAddr a = false) → (s.fieldWrite a v r i j = s.wr r (bitsOf v r.lo r.width) i j)) ∧
  (∀ (s : State) (i j : Nat) (r : RegRow), (r.acc = .wo) → (s.fieldRead r i j = 0)) ∧
  (∀ (s : State) (a v : Nat), (exec (.registerWrite a v 4) s = .next (s.regWrite a (v % 2 ^ 32)))) ∧
  (∀ (s : State) (a : Nat), (wideLow a = false) → (exec (.wideCounterLowRead a) s = .next s)) ∧
  (∀ (s : State) (a : Nat), (wideLow a = true) → (exec (.wideCounterLowRead a) s = .next { s with latch := alIns s.latch (a + 4) (s.regWord (a + 4)), rdata := s.regWord a }))

/-- Narrow and unaligned accesses (rests on R11, R13). A write of a transfer that is not of 32 bits or not aligned changes
nothing, and an unaligned read answers 0 and changes nothing. -/
def Obligations.NarrowAccessesDoNothing : Prop :=
  (∀ (s : State) (a v n : Nat), (n ≠ 4 ∨ a % 4 ≠ 0) → (exec (.registerWrite a v n) s = .next s)) ∧
  (∀ (s : State) (a : Nat), (a % 4 ≠ 0) → (s.regRead a = (s, 0)))

/-- What a command packet is refused for (rests on R374, R375, R377, R379, R381, R382, R386, R387). A packet that meets what
R374 to R387 ask runs its command on the state with the request taken, which changes its session alone; a reply in an
otherwise idle session leaves at once with opcode, tag, status and parameters; a seventeenth request answers 0x0103, a
packet before HELLO answers 0x0102 and closes its session, BOOT answers 0x0008 outside groups 0x01 and 0x0C, a level that
is too low 0x0004, an engaged field lock 0x0006, a parameter out of form 0x0002 with its number, a lock not held 0x0005, a
group 0x09 packet on variant X 0x0901 (the order of the tests is the model's, log entries 11 and 82). -/
def Obligations.CommandGateRefusals : Prop :=
  (∀ (s : State) (r : Req) (c : Cmd) (f : State → State), (Passes s r c) → (c.op / 256 ≠ 9 ∨ Config.variantM = true) → (s.command r c f = f (s.takeReq r c) ∧ s.takeReq r c = { s with acc := (s.takeReq r c).acc })) ∧
  (∀ (s : State) (r : Req) (c : Cmd) (x : Session), (s.session? r.session = some x) → ((s.takeReq r c).session? r.session = some { x with queue := x.queue ++ [{ op := c.op, tag := r.tag, reply := none }], lastRx := s.tb.frc, records := x.records + 1 })) ∧
  (∀ (s : State) (r : Req) (c : Cmd) (x : Session) (n : Nat) (ps : List Nat) (d : Bytes), (s.session? r.session = some x) → (x.queue = []) → (((s.takeReq r c).reply r c n ps d).sent = ⟨.host r.session, .reply, [c.op, r.tag, n] ++ ps, d⟩ :: s.sent ∧ ((s.takeReq r c).reply r c n ps d).session? r.session = some { x with queue := [], lastRx := s.tb.frc, records := x.records + 1 })) ∧
  (∀ (s : State) (r : Req) (c : Cmd) (f : State → State), (s.gate r c = some 0x0103) → (s.command r c f = (s.updSession r.session (fun x => { x with lastRx := s.tb.frc })).emit (.host r.session) .reply [c.op, r.tag, 0x0103])) ∧
  (∀ (s : State) (r : Req) (c : Cmd) (f : State → State), (s.gate r c = some 0x0102) → (s.command r c f = ((s.takeReq r { c with lock := false }).reply r c 0x0102).closeSession r.session)) ∧
  (∀ (s : State) (r : Req) (c : Cmd) (x : Session), (s.session? r.session = some x) → (16 ≤ x.queue.length) → (s.gate r c = some 0x0103)) ∧
  (∀ (s : State) (r : Req) (c : Cmd) (x : Session), (s.session? r.session = some x) → (x.queue.length < 16) → (x.hello = false) → (c.op ≠ 0x0101) → (s.gate r c = some 0x0102)) ∧
  (∀ (s : State) (r : Req) (c : Cmd) (x : Session), (s.session? r.session = some x) → (x.queue.length < 16) → (x.hello = true) → (s.unit = .boot) → (c.op / 256 ≠ 0x01) → (c.op / 256 ≠ 0x0C) → (s.gate r c = some 0x0008)) ∧
  (∀ (s : State) (r : Req) (c : Cmd) (x : Session) (f : State → State), (s.session? r.session = some x) → (x.queue.length < 16) → (x.hello = true) → (s.unit ≠ .boot) → (x.cand = false) → (c.op / 256 ≠ 9 ∨ Config.variantM = true) → (r.badPid ≠ 0) → (s.command r c f = (s.takeReq r { c with lock := false }).reply r c 0x0002 [r.badPid - 1])) ∧
  (∀ (s : State) (r : Req) (c : Cmd) (x : Session), (s.session? r.session = some x) → (x.queue.length < 16) → (x.hello = true) → (s.unit ≠ .boot) → (x.cand = false) → (c.op / 256 ≠ 9 ∨ Config.variantM = true) → (r.badPid = 0) → (c.level ≠ .metrology) → (levelRank x.level < levelRank c.level) → (s.gate r c = some 0x0004)) ∧
  (∀ (s : State) (r : Req) (c : Cmd) (x : Session), (s.session? r.session = some x) → (x.queue.length < 16) → (x.hello = true) → (s.unit ≠ .boot) → (x.cand = false) → (c.op / 256 ≠ 9 ∨ Config.variantM = true) → (r.badPid = 0) → (c.level = .metrology) → (x.level ≠ .metrology) → (s.gate r c = some 0x0004)) ∧
  (∀ (s : State) (r : Req) (c : Cmd) (x : Session), (s.session? r.session = some x) → (x.queue.length < 16) → (x.hello = true) → (s.unit ≠ .boot) → (x.cand = false) → (c.op / 256 ≠ 9 ∨ Config.variantM = true) → (r.badPid = 0) → (c.level ≠ .metrology) → (levelRank c.level ≤ levelRank x.level) → (s.bit R.SE_STATUS_FIELD_LOCK = true) → (c.field = true) → (x.level ≠ .owner) → (x.reopen = none) → (s.gate r c = some 0x0006)) ∧
  (∀ (s : State) (r : Req) (c : Cmd) (x : Session), (s.session? r.session = some x) → (x.queue.length < 16) → (x.hello = true) → (s.unit ≠ .boot) → (x.cand = false) → (c.op / 256 ≠ 9 ∨ Config.variantM = true) → (r.badPid = 0) → (c.level ≠ .metrology) → (levelRank c.level ≤ levelRank x.level) → (s.bit R.SE_STATUS_FIELD_LOCK = false) → (c.lock = true) → (s.acc.lock = none) → (s.gate r c = some 0x0005)) ∧
  (∀ (s : State) (r : Req) (c : Cmd) (x : Session), (s.session? r.session = some x) → (x.queue.length < 16) → (x.hello = true) → (s.unit ≠ .boot) → (x.cand = false) → (c.op / 256 = 9) → (Config.variantM = false → s.gate r c = some 0x0901))

/-- The frame of the reading command packets (rests on R374, R379, R380, R382). A packet that only reads (PING, SUBSCRIBE,
VERSIONS, the status and journal packets and the others named) from a session that has said HELLO changes no register, no
memory, no queue and no unit: only the sessions and requests of the command service, the use of its lock, and the list of
what was sent. -/
def Obligations.ReadingPacketsChangeNothingElse : Prop :=
  (∀ (s t : State) (r : Req) (x : Session), (s.session? r.session = some x) → (x.hello = true) → ((exec (.ping r) s = .next t → serviceOnly s t) ∧
      (∀ a0, exec (.subscribe r a0) s = .next t → serviceOnly s t) ∧
      (exec (.versions r) s = .next t → serviceOnly s t) ∧
      (exec (.modeRead r) s = .next t → serviceOnly s t) ∧
      (exec (.modeStatus r) s = .next t → serviceOnly s t) ∧
      (exec (.runStatus r) s = .next t → serviceOnly s t) ∧
      (exec (.admitStatus r) s = .next t → serviceOnly s t))) ∧
  (∀ (s t : State) (r : Req) (x : Session), (s.session? r.session = some x) → (x.hello = true) → ((exec (.updateStatus r) s = .next t → serviceOnly s t) ∧
      (∀ a0, exec (.chanRead r a0) s = .next t → serviceOnly s t) ∧
      (∀ a0, exec (.hartRead r a0) s = .next t → serviceOnly s t) ∧
      (exec (.timeRead r) s = .next t → serviceOnly s t) ∧
      (exec (.pairStatus r) s = .next t → serviceOnly s t) ∧
      (∀ a0, exec (.chainStatus r a0) s = .next t → serviceOnly s t) ∧
      (∀ a0 a1 a2, exec (.slotRead r a0 a1 a2) s = .next t → serviceOnly s t))) ∧
  (∀ (s t : State) (r : Req) (x : Session), (s.session? r.session = some x) → (x.hello = true) → ((exec (.whoami r) s = .next t → serviceOnly s t) ∧
      (exec (.lockoutRead r) s = .next t → serviceOnly s t) ∧
      (∀ a0, exec (.countersRead r a0) s = .next t → serviceOnly s t) ∧
      (∀ a0 a1, exec (.journalRead r a0 a1) s = .next t → serviceOnly s t) ∧
      (exec (.sparesRead r) s = .next t → serviceOnly s t) ∧
      (∀ a0, exec (.routeCounters r a0) s = .next t → serviceOnly s t) ∧
      (exec (.idCert r) s = .next t → serviceOnly s t))) ∧
  (∀ (s t : State) (r : Req) (x : Session), (s.session? r.session = some x) → (x.hello = true) → ((exec (.credList r) s = .next t → serviceOnly s t) ∧
      (exec (.floorRead r) s = .next t → serviceOnly s t) ∧
      (exec (.tamperRead r) s = .next t → serviceOnly s t) ∧
      (exec (.metStatus r) s = .next t → serviceOnly s t) ∧
      (∀ a0 a1, exec (.metRecords r a0 a1) s = .next t → serviceOnly s t) ∧
      (∀ a0 a1, exec (.metAudit r a0 a1) s = .next t → serviceOnly s t) ∧
      (exec (.metCert r) s = .next t → serviceOnly s t)))

/-- The frame of a refused command packet (rests on R374, R379, R385). Whatever packet of whatever session is refused by the
gate with any code but 0x0102 (which also closes the session), nothing but the command service and the list of what was
sent differs. -/
def Obligations.RefusedPacketsChangeNothingElse : Prop :=
  ∀ (s : State) (r : Req) (c : Cmd) (f : State → State) (n : Nat), (s.gate r c = some n) → (n ≠ 0x0102) → (serviceOnly s (s.command r c f))

/-- No command but metering changes a metering register (states R417). From every state, every command other than the end of a
metering interval, the fall of the auxiliary supply and the power-fail warning (which end an interval, whole or partial)
leaves the 24 registers and their residues exactly as they were, seal breaks, resets, zeroisation and every packet
included; an amount metered only adds to a register that does not pass 2^64. -/
def Obligations.OnlyMeteringChangesTheRegisters : Prop :=
  (∀ (s t : State) (c : Instr), (metersEnergy c = false) → (exec c s = .next t) → (t.met.regs = s.met.regs)) ∧
  (∀ (x : Nat) (r : Nat × Nat), (r.1 + (r.2 + x) / 3600000000 < 2 ^ 64) → (r.1 ≤ (regAdd x r).1 ∧ (regAdd x r).1 * 3600000000 + (regAdd x r).2 = r.1 * 3600000000 + r.2 + x))

end
end

