-- ==== Sys2Proof/Laws/Exec.lean ====
section
/-! SUPPORT. One equation per command: exec answers the command's meaning.  True by rfl, so that no later proof unfolds
the 393 arms of exec. -/

set_option Elab.async false

namespace Sys2Proof.Laws

open Sys2Proof Sys2Proof.Machine

@[simp] theorem exec_powerOnReset (s : State) : exec .powerOnReset s = execPowerOnReset s := rfl
@[simp] theorem exec_moduleReset (s : State) : exec .moduleReset s = execModuleReset s := rfl
@[simp] theorem exec_latticeReset (s : State) : exec .latticeReset s = execLatticeReset s := rfl
@[simp] theorem exec_bootStageComplete {x} (s : State) : exec (.bootStageComplete x) s = execBootStageComplete x s := rfl
@[simp] theorem exec_powerFailWarning {part} (s : State) : exec (.powerFailWarning part) s = execPowerFailWarning part s := rfl
@[simp] theorem exec_powerFailWarningClear (s : State) : exec .powerFailWarningClear s = execPowerFailWarningClear s := rfl
@[simp] theorem exec_latticeStop (s : State) : exec .latticeStop s = execLatticeStop s := rfl
@[simp] theorem exec_brownoutRestart (s : State) : exec .brownoutRestart s = execBrownoutRestart s := rfl
@[simp] theorem exec_feedOutOfRange {n mv} (s : State) : exec (.feedOutOfRange n mv) s = execFeedOutOfRange n mv s := rfl
@[simp] theorem exec_feedOvervoltage {n} (s : State) : exec (.feedOvervoltage n) s = execFeedOvervoltage n s := rfl
@[simp] theorem exec_feedReconnect {n mv} (s : State) : exec (.feedReconnect n mv) s = execFeedReconnect n mv s := rfl
@[simp] theorem exec_unplannedOscSwitch (s : State) : exec .unplannedOscSwitch s = execUnplannedOscSwitch s := rfl
@[simp] theorem exec_plannedOscSwitch (s : State) : exec .plannedOscSwitch s = execPlannedOscSwitch s := rfl
@[simp] theorem exec_refSelWrite {v} (s : State) : exec (.refSelWrite v) s = execRefSelWrite v s := rfl
@[simp] theorem exec_externalLock (s : State) : exec .externalLock s = execExternalLock s := rfl
@[simp] theorem exec_externalRefLost (s : State) : exec .externalRefLost s = execExternalRefLost s := rfl
@[simp] theorem exec_snap (s : State) : exec .snap s = execSnap s := rfl
@[simp] theorem exec_frcLoRead (s : State) : exec .frcLoRead s = execFrcLoRead s := rfl
@[simp] theorem exec_wideCounterLowRead {addr} (s : State) : exec (.wideCounterLowRead addr) s = execWideCounterLowRead addr s := rfl
@[simp] theorem exec_tbIncWrite {frac v} (s : State) : exec (.tbIncWrite frac v) s = execTbIncWrite frac v s := rfl
@[simp] theorem exec_todsetNow (s : State) : exec .todsetNow s = execTodsetNow s := rfl
@[simp] theorem exec_todsetArm (s : State) : exec .todsetArm s = execTodsetArm s := rfl
@[simp] theorem exec_todStepApply (s : State) : exec .todStepApply s = execTodStepApply s := rfl
@[simp] theorem exec_frameTick (s : State) : exec .frameTick s = execFrameTick s := rfl
@[simp] theorem exec_framePeriodWrite {w} (s : State) : exec (.framePeriodWrite w) s = execFramePeriodWrite w s := rfl
@[simp] theorem exec_lgConfigWrite {g word v} (s : State) : exec (.lgConfigWrite g word v) s = execLgConfigWrite g word v s := rfl
@[simp] theorem exec_lgMemberWrite {m v} (s : State) : exec (.lgMemberWrite m v) s = execLgMemberWrite m v s := rfl
@[simp] theorem exec_lgOneShotArm {g} (s : State) : exec (.lgOneShotArm g) s = execLgOneShotArm g s := rfl
@[simp] theorem exec_lgFire {g caps} (s : State) : exec (.lgFire g caps) s = execLgFire g caps s := rfl
@[simp] theorem exec_ppsInEdge {sub} (s : State) : exec (.ppsInEdge sub) s = execPpsInEdge sub s := rfl
@[simp] theorem exec_ppsOutPulse (s : State) : exec .ppsOutPulse s = execPpsOutPulse s := rfl
@[simp] theorem exec_aluOp {at_ o} (s : State) : exec (.aluOp at_ o) s = execAluOp at_ o s := rfl
@[simp] theorem exec_satOp {at_ o} (s : State) : exec (.satOp at_ o) s = execSatOp at_ o s := rfl
@[simp] theorem exec_mul {at_ d a b n} (s : State) : exec (.mul at_ d a b n) s = execMul at_ d a b n s := rfl
@[simp] theorem exec_mac {at_ acc a b} (s : State) : exec (.mac at_ acc a b) s = execMac at_ acc a b s := rfl
@[simp] theorem exec_accrd {at_ d acc n} (s : State) : exec (.accrd at_ d acc n) s = execAccrd at_ d acc n s := rfl
@[simp] theorem exec_div {at_ d a b n} (s : State) : exec (.div at_ d a b n) s = execDiv at_ d a b n s := rfl
@[simp] theorem exec_sqrt {at_ d a n} (s : State) : exec (.sqrt at_ d a n) s = execSqrt at_ d a n s := rfl
@[simp] theorem exec_br {at_ cond target} (s : State) : exec (.br at_ cond target) s = execBr at_ cond target s := rfl
@[simp] theorem exec_loopn {at_ count first last} (s : State) : exec (.loopn at_ count first last) s = execLoopn at_ count first last s := rfl
@[simp] theorem exec_wait {at_ n} (s : State) : exec (.wait at_ n) s = execWait at_ n s := rfl
@[simp] theorem exec_endf {at_} (s : State) : exec (.endf at_) s = execEndf at_ s := rfl
@[simp] theorem exec_lld {at_ d addr size ecc} (s : State) : exec (.lld at_ d addr size ecc) s = execLld at_ d addr size ecc s := rfl
@[simp] theorem exec_lst {at_ src addr size} (s : State) : exec (.lst at_ src addr size) s = execLst at_ src addr size s := rfl
@[simp] theorem exec_recv {at_ entry off size dst ecc} (s : State) : exec (.recv at_ entry off size dst ecc) s = execRecv at_ entry off size dst ecc s := rfl
@[simp] theorem exec_sld {at_ m addr size dst ecc} (s : State) : exec (.sld at_ m addr size dst ecc) s = execSld at_ m addr size dst ecc s := rfl
@[simp] theorem exec_sharedLoadResponse (s : State) : exec .sharedLoadResponse s = execSharedLoadResponse s := rfl
@[simp] theorem exec_sst {at_ m addr size src ecc} (s : State) : exec (.sst at_ m addr size src ecc) s = execSst at_ m addr size src ecc s := rfl
@[simp] theorem exec_send {at_ m dest entry src ecc} (s : State) : exec (.send at_ m dest entry src ecc) s = execSend at_ m dest entry src ecc s := rfl
@[simp] theorem exec_sendDelivery (s : State) : exec .sendDelivery s = execSendDelivery s := rfl
@[simp] theorem exec_rpoll {at_ q addr} (s : State) : exec (.rpoll at_ q addr) s = execRpoll at_ q addr s := rfl
@[simp] theorem exec_renq {at_ q addr d ecc} (s : State) : exec (.renq at_ q addr d ecc) s = execRenq at_ q addr d ecc s := rfl
@[simp] theorem exec_ecall {at_ m e desc bad cor mis} (s : State) : exec (.ecall at_ m e desc bad cor mis) s = execEcall at_ m e desc bad cor mis s := rfl
@[simp] theorem exec_engineCallComplete {e} (s : State) : exec (.engineCallComplete e) s = execEngineCallComplete e s := rfl
@[simp] theorem exec_xstart {at_ m x ecc} (s : State) : exec (.xstart at_ m x ecc) s = execXstart at_ m x ecc s := rfl
@[simp] theorem exec_transferComplete {ok} (s : State) : exec (.transferComplete ok) s = execTransferComplete ok s := rfl
@[simp] theorem exec_dabs {at_ m addr ecc} (s : State) : exec (.dabs at_ m addr ecc) s = execDabs at_ m addr ecc s := rfl
@[simp] theorem exec_dseal {at_ m} (s : State) : exec (.dseal at_ m) s = execDseal at_ m s := rfl
@[simp] theorem exec_digestSealComplete (s : State) : exec .digestSealComplete s = execDigestSealComplete s := rfl
@[simp] theorem exec_fcm {at_} (s : State) : exec (.fcm at_) s = execFcm at_ s := rfl
@[simp] theorem exec_retentiveRecordCommit (s : State) : exec .retentiveRecordCommit s = execRetentiveRecordCommit s := rfl
@[simp] theorem exec_retentiveFold (s : State) : exec .retentiveFold s = execRetentiveFold s := rfl
@[simp] theorem exec_mgmtRingEnqueue {q entry} (s : State) : exec (.mgmtRingEnqueue q entry) s = execMgmtRingEnqueue q entry s := rfl
@[simp] theorem exec_asyncAccessRetry {mailbox} (s : State) : exec (.asyncAccessRetry mailbox) s = execAsyncAccessRetry mailbox s := rfl
@[simp] theorem exec_portbBankWrite {addr data sub} (s : State) : exec (.portbBankWrite addr data sub) s = execPortbBankWrite addr data sub s := rfl
@[simp] theorem exec_retentiveWriteThrough (s : State) : exec .retentiveWriteThrough s = execRetentiveWriteThrough s := rfl
@[simp] theorem exec_digestSend {tx} (s : State) : exec (.digestSend tx) s = execDigestSend tx s := rfl
@[simp] theorem exec_inputExchangeSend {ecc} (s : State) : exec (.inputExchangeSend ecc) s = execInputExchangeSend ecc s := rfl
@[simp] theorem exec_exchangeMessageRx {m} (s : State) : exec (.exchangeMessageRx m) s = execExchangeMessageRx m s := rfl
@[simp] theorem exec_exchangeCutover {ecc} (s : State) : exec (.exchangeCutover ecc) s = execExchangeCutover ecc s := rfl
@[simp] theorem exec_ttAdmStart {slot placement} (s : State) : exec (.ttAdmStart slot placement) s = execTtAdmStart slot placement s := rfl
@[simp] theorem exec_ttAdmAbort (s : State) : exec .ttAdmAbort s = execTtAdmAbort s := rfl
@[simp] theorem exec_admissionComplete (s : State) : exec .admissionComplete s = execAdmissionComplete s := rfl
@[simp] theorem exec_ltRelocCheck {logical target} (s : State) : exec (.ltRelocCheck logical target) s = execLtRelocCheck logical target s := rfl
@[simp] theorem exec_placementCheckComplete (s : State) : exec .placementCheckComplete s = execPlacementCheckComplete s := rfl
@[simp] theorem exec_ltRelocCommit (s : State) : exec .ltRelocCommit s = execLtRelocCommit s := rfl
@[simp] theorem exec_tileRelocation {ecc} (s : State) : exec (.tileRelocation ecc) s = execTileRelocation ecc s := rfl
@[simp] theorem exec_tileShadow {logical phys ecc} (s : State) : exec (.tileShadow logical phys ecc) s = execTileShadow logical phys ecc s := rfl
@[simp] theorem exec_tileShadowCompare {phys} (s : State) : exec (.tileShadowCompare phys) s = execTileShadowCompare phys s := rfl
@[simp] theorem exec_ttModePrepare (s : State) : exec .ttModePrepare s = execTtModePrepare s := rfl
@[simp] theorem exec_modePrepareComplete (s : State) : exec .modePrepareComplete s = execModePrepareComplete s := rfl
@[simp] theorem exec_ttModeArm (s : State) : exec .ttModeArm s = execTtModeArm s := rfl
@[simp] theorem exec_ttModeCancel (s : State) : exec .ttModeCancel s = execTtModeCancel s := rfl
@[simp] theorem exec_modeDeltaWrites {j} (s : State) : exec (.modeDeltaWrites j) s = execModeDeltaWrites j s := rfl
@[simp] theorem exec_ttRunStart {kind} (s : State) : exec (.ttRunStart kind) s = execTtRunStart kind s := rfl
@[simp] theorem exec_runEntry (s : State) : exec .runEntry s = execRunEntry s := rfl
@[simp] theorem exec_ttRunStop (s : State) : exec .ttRunStop s = execTtRunStop s := rfl
@[simp] theorem exec_stopTakesEffect (s : State) : exec .stopTakesEffect s = execStopTakesEffect s := rfl
@[simp] theorem exec_ttRunLrst (s : State) : exec .ttRunLrst s = execTtRunLrst s := rfl
@[simp] theorem exec_ttRetClear (s : State) : exec .ttRetClear s = execTtRetClear s := rfl
@[simp] theorem exec_lpWinWrite {v} (s : State) : exec (.lpWinWrite v) s = execLpWinWrite v s := rfl
@[simp] theorem exec_lpWinRead {sub} (s : State) : exec (.lpWinRead sub) s = execLpWinRead sub s := rfl
@[simp] theorem exec_svWinWrite {v} (s : State) : exec (.svWinWrite v) s = execSvWinWrite v s := rfl
@[simp] theorem exec_svWinRead {retries} (s : State) : exec (.svWinRead retries) s = execSvWinRead retries s := rfl
@[simp] theorem exec_svDmaStart (s : State) : exec .svDmaStart s = execSvDmaStart s := rfl
@[simp] theorem exec_svDmaAbort (s : State) : exec .svDmaAbort s = execSvDmaAbort s := rfl
@[simp] theorem exec_svDmaComplete {retries bad} (s : State) : exec (.svDmaComplete retries bad) s = execSvDmaComplete retries bad s := rfl
@[simp] theorem exec_svRelocCommit (s : State) : exec .svRelocCommit s = execSvRelocCommit s := rfl
@[simp] theorem exec_solverRelocation (s : State) : exec .solverRelocation s = execSolverRelocation s := rfl
@[simp] theorem exec_conversionWindowEnd {ch m} (s : State) : exec (.conversionWindowEnd ch m) s = execConversionWindowEnd ch m s := rfl
@[simp] theorem exec_fieldControlFrame {g ok} (s : State) : exec (.fieldControlFrame g ok) s = execFieldControlFrame g ok s := rfl
@[simp] theorem exec_groupFallbackEntry {g} (s : State) : exec (.groupFallbackEntry g) s = execGroupFallbackEntry g s := rfl
@[simp] theorem exec_groupResume {g} (s : State) : exec (.groupResume g) s = execGroupResume g s := rfl
@[simp] theorem exec_safeStateLineAssert (s : State) : exec .safeStateLineAssert s = execSafeStateLineAssert s := rfl
@[simp] theorem exec_groupSupplyFail {g} (s : State) : exec (.groupSupplyFail g) s = execGroupSupplyFail g s := rfl
@[simp] theorem exec_fgApply {g} (s : State) : exec (.fgApply g) s = execFgApply g s := rfl
@[simp] theorem exec_fgApplyCancel {g} (s : State) : exec (.fgApplyCancel g) s = execFgApplyCancel g s := rfl
@[simp] theorem exec_fgApplyTakesEffect {g} (s : State) : exec (.fgApplyTakesEffect g) s = execFgApplyTakesEffect g s := rfl
@[simp] theorem exec_crossCheckVisit {g dev refOff} (s : State) : exec (.crossCheckVisit g dev refOff) s = execCrossCheckVisit g dev refOff s := rfl
@[simp] theorem exec_fgSpareStart {g terminal} (s : State) : exec (.fgSpareStart g terminal) s = execFgSpareStart g terminal s := rfl
@[simp] theorem exec_fgSpareCancel {g} (s : State) : exec (.fgSpareCancel g) s = execFgSpareCancel g s := rfl
@[simp] theorem exec_spareTakeover {g} (s : State) : exec (.spareTakeover g) s = execSpareTakeover g s := rfl
@[simp] theorem exec_loopPowerSample {draw} (s : State) : exec (.loopPowerSample draw) s = execLoopPowerSample draw s := rfl
@[simp] theorem exec_chFlagsWrite {ch v} (s : State) : exec (.chFlagsWrite ch v) s = execChFlagsWrite ch v s := rfl
@[simp] theorem exec_hartPollDue {ch entry} (s : State) : exec (.hartPollDue ch entry) s = execHartPollDue ch entry s := rfl
@[simp] theorem exec_hartFrameStart {ch loopFree} (s : State) : exec (.hartFrameStart ch loopFree) s = execHartFrameStart ch loopFree s := rfl
@[simp] theorem exec_hartResponseRx {ch m} (s : State) : exec (.hartResponseRx ch m) s = execHartResponseRx ch m s := rfl
@[simp] theorem exec_hartResponseTimeout {ch} (s : State) : exec (.hartResponseTimeout ch) s = execHartResponseTimeout ch s := rfl
@[simp] theorem exec_hartRequestExpired {ch} (s : State) : exec (.hartRequestExpired ch) s = execHartRequestExpired ch s := rfl
@[simp] theorem exec_hartBurstRx {ch m} (s : State) : exec (.hartBurstRx ch m) s = execHartBurstRx ch m s := rfl
@[simp] theorem exec_diRefresh {volts check ok} (s : State) : exec (.diRefresh volts check ok) s = execDiRefresh volts check ok s := rfl
@[simp] theorem exec_diInputStale (s : State) : exec .diInputStale s = execDiInputStale s := rfl
@[simp] theorem exec_doImageFrame {ok} (s : State) : exec (.doImageFrame ok) s = execDoImageFrame ok s := rfl
@[simp] theorem exec_doControlFrame {ok} (s : State) : exec (.doControlFrame ok) s = execDoControlFrame ok s := rfl
@[simp] theorem exec_doBlockDeenergise (s : State) : exec .doBlockDeenergise s = execDoBlockDeenergise s := rfl
@[simp] theorem exec_doBlockResume (s : State) : exec .doBlockResume s = execDoBlockResume s := rfl
@[simp] theorem exec_doCurrentLimit {o ev} (s : State) : exec (.doCurrentLimit o ev) s = execDoCurrentLimit o ev s := rfl
@[simp] theorem exec_doThermalRestart {o} (s : State) : exec (.doThermalRestart o) s = execDoThermalRestart o s := rfl
@[simp] theorem exec_fieldSupplyLow {half low} (s : State) : exec (.fieldSupplyLow half low) s = execFieldSupplyLow half low s := rfl
@[simp] theorem exec_dioApply (s : State) : exec .dioApply s = execDioApply s := rfl
@[simp] theorem exec_dioApplyCancel (s : State) : exec .dioApplyCancel s = execDioApplyCancel s := rfl
@[simp] theorem exec_dioApplyTakesEffect (s : State) : exec .dioApplyTakesEffect s = execDioApplyTakesEffect s := rfl
@[simp] theorem exec_chApply {p} (s : State) : exec (.chApply p) s = execChApply p s := rfl
@[simp] theorem exec_chCancel {p} (s : State) : exec (.chCancel p) s = execChCancel p s := rfl
@[simp] theorem exec_chainApplyTakesEffect {p} (s : State) : exec (.chainApplyTakesEffect p) s = execChainApplyTakesEffect p s := rfl
@[simp] theorem exec_chDiscover {p} (s : State) : exec (.chDiscover p) s = execChDiscover p s := rfl
@[simp] theorem exec_chainDiscoveryStart {p} (s : State) : exec (.chainDiscoveryStart p) s = execChainDiscoveryStart p s := rfl
@[simp] theorem exec_discoveryComplete {p} (s : State) : exec (.discoveryComplete p) s = execDiscoveryComplete p s := rfl
@[simp] theorem exec_chWake {p} (s : State) : exec (.chWake p) s = execChWake p s := rfl
@[simp] theorem exec_chSleep {p} (s : State) : exec (.chSleep p) s = execChSleep p s := rfl
@[simp] theorem exec_chFaultClr {p} (s : State) : exec (.chFaultClr p) s = execChFaultClr p s := rfl
@[simp] theorem exec_quietSend {p far} (s : State) : exec (.quietSend p far) s = execQuietSend p far s := rfl
@[simp] theorem exec_sampleStrobe {p} (s : State) : exec (.sampleStrobe p) s = execSampleStrobe p s := rfl
@[simp] theorem exec_readoutSend {p} (s : State) : exec (.readoutSend p) s = execReadoutSend p s := rfl
@[simp] theorem exec_dataFrameRx {p d} (s : State) : exec (.dataFrameRx p d) s = execDataFrameRx p d s := rfl
@[simp] theorem exec_chainRetrySend {p far first last} (s : State) : exec (.chainRetrySend p far first last) s = execChainRetrySend p far first last s := rfl
@[simp] theorem exec_chainBreak {p far} (s : State) : exec (.chainBreak p far) s = execChainBreak p far s := rfl
@[simp] theorem exec_sweepClose {p} (s : State) : exec (.sweepClose p) s = execSweepClose p s := rfl
@[simp] theorem exec_sweepPublish {p} (s : State) : exec (.sweepPublish p) s = execSweepPublish p s := rfl
@[simp] theorem exec_keep {p} (s : State) : exec (.keep p) s = execKeep p s := rfl
@[simp] theorem exec_chainQueueSend {p} (s : State) : exec (.chainQueueSend p) s = execChainQueueSend p s := rfl
@[simp] theorem exec_chainResponseRx {p r} (s : State) : exec (.chainResponseRx p r) s = execChainResponseRx p r s := rfl
@[simp] theorem exec_faultLineChange {p current} (s : State) : exec (.faultLineChange p current) s = execFaultLineChange p current s := rfl
@[simp] theorem exec_chainFaultTrip {p} (s : State) : exec (.chainFaultTrip p) s = execChainFaultTrip p s := rfl
@[simp] theorem exec_forwardedChainItemRx {item} (s : State) : exec (.forwardedChainItemRx item) s = execForwardedChainItemRx item s := rfl
@[simp] theorem exec_ingestMessageRx {m} (s : State) : exec (.ingestMessageRx m) s = execIngestMessageRx m s := rfl
@[simp] theorem exec_ingestPublish (s : State) : exec .ingestPublish s = execIngestPublish s := rfl
@[simp] theorem exec_ingestSend {p} (s : State) : exec (.ingestSend p) s = execIngestSend p s := rfl
@[simp] theorem exec_chIngApply (s : State) : exec .chIngApply s = execChIngApply s := rfl
@[simp] theorem exec_chIngCancel (s : State) : exec .chIngCancel s = execChIngCancel s := rfl
@[simp] theorem exec_ingestApplyTakesEffect (s : State) : exec .ingestApplyTakesEffect s = execIngestApplyTakesEffect s := rfl
@[simp] theorem exec_nodeImageSend {p} (s : State) : exec (.nodeImageSend p) s = execNodeImageSend p s := rfl
@[simp] theorem exec_canFrameRx {p f} (s : State) : exec (.canFrameRx p f) s = execCanFrameRx p f s := rfl
@[simp] theorem exec_canTxRecord {p rec} (s : State) : exec (.canTxRecord p rec) s = execCanTxRecord p rec s := rfl
@[simp] theorem exec_canTxStart {p loopDelay} (s : State) : exec (.canTxStart p loopDelay) s = execCanTxStart p loopDelay s := rfl
@[simp] theorem exec_canTxComplete {p e} (s : State) : exec (.canTxComplete p e) s = execCanTxComplete p e s := rfl
@[simp] theorem exec_canBusOff {p} (s : State) : exec (.canBusOff p) s = execCanBusOff p s := rfl
@[simp] theorem exec_cfRecover {p flush} (s : State) : exec (.cfRecover p flush) s = execCfRecover p flush s := rfl
@[simp] theorem exec_canRecoveryComplete {p} (s : State) : exec (.canRecoveryComplete p) s = execCanRecoveryComplete p s := rfl
@[simp] theorem exec_cfTxbAbort {p v} (s : State) : exec (.cfTxbAbort p v) s = execCfTxbAbort p v s := rfl
@[simp] theorem exec_cfApply {p} (s : State) : exec (.cfApply p) s = execCfApply p s := rfl
@[simp] theorem exec_cfCancel {p} (s : State) : exec (.cfCancel p) s = execCfCancel p s := rfl
@[simp] theorem exec_cfApplyTakesEffect {p} (s : State) : exec (.cfApplyTakesEffect p) s = execCfApplyTakesEffect p s := rfl
@[simp] theorem exec_canServiceSegmentRx {p data} (s : State) : exec (.canServiceSegmentRx p data) s = execCanServiceSegmentRx p data s := rfl
@[simp] theorem exec_canServiceGapTimeout {p} (s : State) : exec (.canServiceGapTimeout p) s = execCanServiceGapTimeout p s := rfl
@[simp] theorem exec_ethFrameRx {p f} (s : State) : exec (.ethFrameRx p f) s = execEthFrameRx p f s := rfl
@[simp] theorem exec_ethFrameTx {p} (s : State) : exec (.ethFrameTx p) s = execEthFrameTx p s := rfl
@[simp] theorem exec_routeEntryDrain {q} (s : State) : exec (.routeEntryDrain q) s = execRouteEntryDrain q s := rfl
@[simp] theorem exec_fabricFrameSend {entry} (s : State) : exec (.fabricFrameSend entry) s = execFabricFrameSend entry s := rfl
@[simp] theorem exec_fabricFrameRx {f} (s : State) : exec (.fabricFrameRx f) s = execFabricFrameRx f s := rfl
@[simp] theorem exec_esRtApply (s : State) : exec .esRtApply s = execEsRtApply s := rfl
@[simp] theorem exec_esRtCancel (s : State) : exec .esRtCancel s = execEsRtCancel s := rfl
@[simp] theorem exec_routeTableSwap (s : State) : exec .routeTableSwap s = execRouteTableSwap s := rfl
@[simp] theorem exec_prpSupervisionSend (s : State) : exec .prpSupervisionSend s = execPrpSupervisionSend s := rfl
@[simp] theorem exec_macsecRekey {p} (s : State) : exec (.macsecRekey p) s = execMacsecRekey p s := rfl
@[simp] theorem exec_macsecOldAssociationExpiry {p} (s : State) : exec (.macsecOldAssociationExpiry p) s = execMacsecOldAssociationExpiry p s := rfl
@[simp] theorem exec_peerSessionKeyExpiry {p} (s : State) : exec (.peerSessionKeyExpiry p) s = execPeerSessionKeyExpiry p s := rfl
@[simp] theorem exec_ptpMessageRx {p domain m} (s : State) : exec (.ptpMessageRx p domain m) s = execPtpMessageRx p domain m s := rfl
@[simp] theorem exec_ptpMessageTx {p m} (s : State) : exec (.ptpMessageTx p m) s = execPtpMessageTx p m s := rfl
@[simp] theorem exec_ptpMasterLost (s : State) : exec .ptpMasterLost s = execPtpMasterLost s := rfl
@[simp] theorem exec_partnerHealthyChange {on} (s : State) : exec (.partnerHealthyChange on) s = execPartnerHealthyChange on s := rfl
@[simp] theorem exec_partnerMarkPulse (s : State) : exec .partnerMarkPulse s = execPartnerMarkPulse s := rfl
@[simp] theorem exec_partnerDriveChange {on} (s : State) : exec (.partnerDriveChange on) s = execPartnerDriveChange on s := rfl
@[simp] theorem exec_partnerLinkChange {k up} (s : State) : exec (.partnerLinkChange k up) s = execPartnerLinkChange k up s := rfl
@[simp] theorem exec_digestMessageRx {m} (s : State) : exec (.digestMessageRx m) s = execDigestMessageRx m s := rfl
@[simp] theorem exec_gatedRingMirrorRx {q entry} (s : State) : exec (.gatedRingMirrorRx q entry) s = execGatedRingMirrorRx q entry s := rfl
@[simp] theorem exec_failoverCheck (s : State) : exec .failoverCheck s = execFailoverCheck s := rfl
@[simp] theorem exec_partnerLinksLost (s : State) : exec .partnerLinksLost s = execPartnerLinksLost s := rfl
@[simp] theorem exec_autojoin {q} (s : State) : exec (.autojoin q) s = execAutojoin q s := rfl
@[simp] theorem exec_paCmdJoin {q} (s : State) : exec (.paCmdJoin q) s = execPaCmdJoin q s := rfl
@[simp] theorem exec_paCmdLeave (s : State) : exec .paCmdLeave s = execPaCmdLeave s := rfl
@[simp] theorem exec_paCmdHandover (s : State) : exec .paCmdHandover s = execPaCmdHandover s := rfl
@[simp] theorem exec_paCmdCancel (s : State) : exec .paCmdCancel s = execPaCmdCancel s := rfl
@[simp] theorem exec_handoverTakesEffect (s : State) : exec .handoverTakesEffect s = execHandoverTakesEffect s := rfl
@[simp] theorem exec_pairRevert (s : State) : exec .pairRevert s = execPairRevert s := rfl
@[simp] theorem exec_standbyPromotion (s : State) : exec .standbyPromotion s = execStandbyPromotion s := rfl
@[simp] theorem exec_stateTransferRound {gs} (s : State) : exec (.stateTransferRound gs) s = execStateTransferRound gs s := rfl
@[simp] theorem exec_stateTransferFinal {x} (s : State) : exec (.stateTransferFinal x) s = execStateTransferFinal x s := rfl
@[simp] theorem exec_stateTransferTimeout (s : State) : exec .stateTransferTimeout s = execStateTransferTimeout s := rfl
@[simp] theorem exec_pairSelftestComplete {pass} (s : State) : exec (.pairSelftestComplete pass) s = execPairSelftestComplete pass s := rfl
@[simp] theorem exec_sessionHandshake {h} (s : State) : exec (.sessionHandshake h) s = execSessionHandshake h s := rfl
@[simp] theorem exec_sessionIdleTimeout {session} (s : State) : exec (.sessionIdleTimeout session) s = execSessionIdleTimeout session s := rfl
@[simp] theorem exec_tlsKeyUpdate {session} (s : State) : exec (.tlsKeyUpdate session) s = execTlsKeyUpdate session s := rfl
@[simp] theorem exec_malformedHeader {session} (s : State) : exec (.malformedHeader session) s = execMalformedHeader session s := rfl
@[simp] theorem exec_undefinedOpcode {r op} (s : State) : exec (.undefinedOpcode r op) s = execUndefinedOpcode r op s := rfl
@[simp] theorem exec_hello {r version host} (s : State) : exec (.hello r version host) s = execHello r version host s := rfl
@[simp] theorem exec_ping {r} (s : State) : exec (.ping r) s = execPing r s := rfl
@[simp] theorem exec_status {r} (s : State) : exec (.status r) s = execStatus r s := rfl
@[simp] theorem exec_subscribe {r classes} (s : State) : exec (.subscribe r classes) s = execSubscribe r classes s := rfl
@[simp] theorem exec_versions {r} (s : State) : exec (.versions r) s = execVersions r s := rfl
@[simp] theorem exec_bye {r} (s : State) : exec (.bye r) s = execBye r s := rfl
@[simp] theorem exec_modeRead {r} (s : State) : exec (.modeRead r) s = execModeRead r s := rfl
@[simp] theorem exec_modePrepare {r mode} (s : State) : exec (.modePrepare r mode) s = execModePrepare r mode s := rfl
@[simp] theorem exec_modeArm {r at_} (s : State) : exec (.modeArm r at_) s = execModeArm r at_ s := rfl
@[simp] theorem exec_modeStatus {r} (s : State) : exec (.modeStatus r) s = execModeStatus r s := rfl
@[simp] theorem exec_modeCancel {r} (s : State) : exec (.modeCancel r) s = execModeCancel r s := rfl
@[simp] theorem exec_slotRename {r slot name} (s : State) : exec (.slotRename r slot name) s = execSlotRename r slot name s := rfl
@[simp] theorem exec_slotClear {r slot} (s : State) : exec (.slotClear r slot) s = execSlotClear r slot s := rfl
@[simp] theorem exec_start {r kind} (s : State) : exec (.start r kind) s = execStart r kind s := rfl
@[simp] theorem exec_stop {r} (s : State) : exec (.stop r) s = execStop r s := rfl
@[simp] theorem exec_lrst {r} (s : State) : exec (.lrst r) s = execLrst r s := rfl
@[simp] theorem exec_runStatus {r} (s : State) : exec (.runStatus r) s = execRunStatus r s := rfl
@[simp] theorem exec_admitCmd {r slot placement} (s : State) : exec (.admitCmd r slot placement) s = execAdmitCmd r slot placement s := rfl
@[simp] theorem exec_admitStatus {r} (s : State) : exec (.admitStatus r) s = execAdmitStatus r s := rfl
@[simp] theorem exec_autorun {r on} (s : State) : exec (.autorun r on) s = execAutorun r on s := rfl
@[simp] theorem exec_retExport {r} (s : State) : exec (.retExport r) s = execRetExport r s := rfl
@[simp] theorem exec_retImport {r offset data} (s : State) : exec (.retImport r offset data) s = execRetImport r offset data s := rfl
@[simp] theorem exec_retClear {r} (s : State) : exec (.retClear r) s = execRetClear r s := rfl
@[simp] theorem exec_ringPut {r ring entries} (s : State) : exec (.ringPut r ring entries) s = execRingPut r ring entries s := rfl
@[simp] theorem exec_ringGet {r ring most} (s : State) : exec (.ringGet r ring most) s = execRingGet r ring most s := rfl
@[simp] theorem exec_dataRead {r addr len} (s : State) : exec (.dataRead r addr len) s = execDataRead r addr len s := rfl
@[simp] theorem exec_xferBegin {r target length hash} (s : State) : exec (.xferBegin r target length hash) s = execXferBegin r target length hash s := rfl
@[simp] theorem exec_xferChunk {r offset data} (s : State) : exec (.xferChunk r offset data) s = execXferChunk r offset data s := rfl
@[simp] theorem exec_xferEnd {r content} (s : State) : exec (.xferEnd r content) s = execXferEnd r content s := rfl
@[simp] theorem exec_xferAbort {r} (s : State) : exec (.xferAbort r) s = execXferAbort r s := rfl
@[simp] theorem exec_updateSchedule {r part at_} (s : State) : exec (.updateSchedule r part at_) s = execUpdateSchedule r part at_ s := rfl
@[simp] theorem exec_updateActivate {r part} (s : State) : exec (.updateActivate r part) s = execUpdateActivate r part s := rfl
@[simp] theorem exec_updateStatus {r} (s : State) : exec (.updateStatus r) s = execUpdateStatus r s := rfl
@[simp] theorem exec_updateForward {r part plants} (s : State) : exec (.updateForward r part plants) s = execUpdateForward r part plants s := rfl
@[simp] theorem exec_bankSelect {r part bank} (s : State) : exec (.bankSelect r part bank) s = execBankSelect r part bank s := rfl
@[simp] theorem exec_cfgRead {r addr count} (s : State) : exec (.cfgRead r addr count) s = execCfgRead r addr count s := rfl
@[simp] theorem exec_cfgWrite {r pairs} (s : State) : exec (.cfgWrite r pairs) s = execCfgWrite r pairs s := rfl
@[simp] theorem exec_cfgApply {r block} (s : State) : exec (.cfgApply r block) s = execCfgApply r block s := rfl
@[simp] theorem exec_cfgCancel {r block} (s : State) : exec (.cfgCancel r block) s = execCfgCancel r block s := rfl
@[simp] theorem exec_cfgSave {r} (s : State) : exec (.cfgSave r) s = execCfgSave r s := rfl
@[simp] theorem exec_chanRead {r channel} (s : State) : exec (.chanRead r channel) s = execChanRead r channel s := rfl
@[simp] theorem exec_netCfg {r iface addr mask gw port} (s : State) : exec (.netCfg r iface addr mask gw port) s = execNetCfg r iface addr mask gw port s := rfl
@[simp] theorem exec_trimSet {r channel gain offset} (s : State) : exec (.trimSet r channel gain offset) s = execTrimSet r channel gain offset s := rfl
@[simp] theorem exec_hartPass {r channel address command data} (s : State) : exec (.hartPass r channel address command data) s = execHartPass r channel address command data s := rfl
@[simp] theorem exec_hartRead {r channel} (s : State) : exec (.hartRead r channel) s = execHartRead r channel s := rfl
@[simp] theorem exec_hartPollSet {r channel list} (s : State) : exec (.hartPollSet r channel list) s = execHartPollSet r channel list s := rfl
@[simp] theorem exec_canRecover {r port flush} (s : State) : exec (.canRecover r port flush) s = execCanRecover r port flush s := rfl
@[simp] theorem exec_canSend {r port rec} (s : State) : exec (.canSend r port rec) s = execCanSend r port rec s := rfl
@[simp] theorem exec_flagClear {r addr mask} (s : State) : exec (.flagClear r addr mask) s = execFlagClear r addr mask s := rfl
@[simp] theorem exec_timeRead {r} (s : State) : exec (.timeRead r) s = execTimeRead r s := rfl
@[simp] theorem exec_todSet {r sec ns frac at_} (s : State) : exec (.todSet r sec ns frac at_) s = execTodSet r sec ns frac at_ s := rfl
@[simp] theorem exec_incSet {r ns frac} (s : State) : exec (.incSet r ns frac) s = execIncSet r ns frac s := rfl
@[simp] theorem exec_servoCfg {r mode restep} (s : State) : exec (.servoCfg r mode restep) s = execServoCfg r mode restep s := rfl
@[simp] theorem exec_lgArm {r group at_} (s : State) : exec (.lgArm r group at_) s = execLgArm r group at_ s := rfl
@[simp] theorem exec_refSelect {r source} (s : State) : exec (.refSelect r source) s = execRefSelect r source s := rfl
@[simp] theorem exec_pairStatus {r} (s : State) : exec (.pairStatus r) s = execPairStatus r s := rfl
@[simp] theorem exec_join {r q} (s : State) : exec (.join r q) s = execJoin r q s := rfl
@[simp] theorem exec_leave {r} (s : State) : exec (.leave r) s = execLeave r s := rfl
@[simp] theorem exec_handover {r at_} (s : State) : exec (.handover r at_) s = execHandover r at_ s := rfl
@[simp] theorem exec_pairCancel {r} (s : State) : exec (.pairCancel r) s = execPairCancel r s := rfl
@[simp] theorem exec_pairCfg {r cfg times mixed} (s : State) : exec (.pairCfg r cfg times mixed) s = execPairCfg r cfg times mixed s := rfl
@[simp] theorem exec_chainStatus {r port} (s : State) : exec (.chainStatus r port) s = execChainStatus r port s := rfl
@[simp] theorem exec_chainPass {r port pos code payload} (s : State) : exec (.chainPass r port pos code payload) s = execChainPass r port pos code payload s := rfl
@[simp] theorem exec_chainDiscover {r port} (s : State) : exec (.chainDiscover r port) s = execChainDiscover r port s := rfl
@[simp] theorem exec_chainWake {r port} (s : State) : exec (.chainWake r port) s = execChainWake r port s := rfl
@[simp] theorem exec_chainSleep {r port} (s : State) : exec (.chainSleep r port) s = execChainSleep r port s := rfl
@[simp] theorem exec_balSet {r port pos mode targets} (s : State) : exec (.balSet r port pos mode targets) s = execBalSet r port pos mode targets s := rfl
@[simp] theorem exec_chainFaultClr {r port} (s : State) : exec (.chainFaultClr r port) s = execChainFaultClr r port s := rfl
@[simp] theorem exec_slotRead {r first count buffer} (s : State) : exec (.slotRead r first count buffer) s = execSlotRead r first count buffer s := rfl
@[simp] theorem exec_nodeStatus {r port pos} (s : State) : exec (.nodeStatus r port pos) s = execNodeStatus r port pos s := rfl
@[simp] theorem exec_metStatus {r} (s : State) : exec (.metStatus r) s = execMetStatus r s := rfl
@[simp] theorem exec_metRecords {r from_ count} (s : State) : exec (.metRecords r from_ count) s = execMetRecords r from_ count s := rfl
@[simp] theorem exec_metAudit {r from_ count} (s : State) : exec (.metAudit r from_ count) s = execMetAudit r from_ count s := rfl
@[simp] theorem exec_metCert {r} (s : State) : exec (.metCert r) s = execMetCert r s := rfl
@[simp] theorem exec_metAlarmAck {r} (s : State) : exec (.metAlarmAck r) s = execMetAlarmAck r s := rfl
@[simp] theorem exec_whoami {r} (s : State) : exec (.whoami r) s = execWhoami r s := rfl
@[simp] theorem exec_lockOpen {r minutes} (s : State) : exec (.lockOpen r minutes) s = execLockOpen r minutes s := rfl
@[simp] theorem exec_lockClose {r} (s : State) : exec (.lockClose r) s = execLockClose r s := rfl
@[simp] theorem exec_lockTimeout (s : State) : exec .lockTimeout s = execLockTimeout s := rfl
@[simp] theorem exec_fieldLock {r engage} (s : State) : exec (.fieldLock r engage) s = execFieldLock r engage s := rfl
@[simp] theorem exec_reopenPw {r password minutes} (s : State) : exec (.reopenPw r password minutes) s = execReopenPw r password minutes s := rfl
@[simp] theorem exec_reopenExpiry {session} (s : State) : exec (.reopenExpiry session) s = execReopenExpiry session s := rfl
@[simp] theorem exec_challenge {r minutes} (s : State) : exec (.challenge r minutes) s = execChallenge r minutes s := rfl
@[simp] theorem exec_response {r signature} (s : State) : exec (.response r signature) s = execResponse r signature s := rfl
@[simp] theorem exec_pwSet {r password} (s : State) : exec (.pwSet r password) s = execPwSet r password s := rfl
@[simp] theorem exec_lockoutRead {r} (s : State) : exec (.lockoutRead r) s = execLockoutRead r s := rfl
@[simp] theorem exec_lockoutReset {r} (s : State) : exec (.lockoutReset r) s = execLockoutReset r s := rfl
@[simp] theorem exec_lockoutExpiry (s : State) : exec .lockoutExpiry s = execLockoutExpiry s := rfl
@[simp] theorem exec_indRect {r x y w h pixels} (s : State) : exec (.indRect r x y w h pixels) s = execIndRect r x y w h pixels s := rfl
@[simp] theorem exec_indStatus {r} (s : State) : exec (.indStatus r) s = execIndStatus r s := rfl
@[simp] theorem exec_indClear {r} (s : State) : exec (.indClear r) s = execIndClear r s := rfl
@[simp] theorem exec_countersRead {r block} (s : State) : exec (.countersRead r block) s = execCountersRead r block s := rfl
@[simp] theorem exec_countersClear {r block} (s : State) : exec (.countersClear r block) s = execCountersClear r block s := rfl
@[simp] theorem exec_journalRead {r from_ count} (s : State) : exec (.journalRead r from_ count) s = execJournalRead r from_ count s := rfl
@[simp] theorem exec_sparesRead {r} (s : State) : exec (.sparesRead r) s = execSparesRead r s := rfl
@[simp] theorem exec_spareSwitch {r group terminal cancel} (s : State) : exec (.spareSwitch r group terminal cancel) s = execSpareSwitch r group terminal cancel s := rfl
@[simp] theorem exec_relocate {r kind logical target} (s : State) : exec (.relocate r kind logical target) s = execRelocate r kind logical target s := rfl
@[simp] theorem exec_shadowSet {r logical en} (s : State) : exec (.shadowSet r logical en) s = execShadowSet r logical en s := rfl
@[simp] theorem exec_regRead {r addr count} (s : State) : exec (.regRead r addr count) s = execRegRead r addr count s := rfl
@[simp] theorem exec_regWrite {r addr value} (s : State) : exec (.regWrite r addr value) s = execRegWrite r addr value s := rfl
@[simp] theorem exec_selftest {r failed} (s : State) : exec (.selftest r failed) s = execSelftest r failed s := rfl
@[simp] theorem exec_routeCounters {r entry} (s : State) : exec (.routeCounters r entry) s = execRouteCounters r entry s := rfl
@[simp] theorem exec_idCert {r} (s : State) : exec (.idCert r) s = execIdCert r s := rfl
@[simp] theorem exec_ownTake {r fik kcv tamper} (s : State) : exec (.ownTake r fik kcv tamper) s = execOwnTake r fik kcv tamper s := rfl
@[simp] theorem exec_ownRelease {r successor} (s : State) : exec (.ownRelease r successor) s = execOwnRelease r successor s := rfl
@[simp] theorem exec_credRevoke {r fps} (s : State) : exec (.credRevoke r fps) s = execCredRevoke r fps s := rfl
@[simp] theorem exec_credUnrevoke {r fps} (s : State) : exec (.credUnrevoke r fps) s = execCredUnrevoke r fps s := rfl
@[simp] theorem exec_credList {r} (s : State) : exec (.credList r) s = execCredList r s := rfl
@[simp] theorem exec_memberCertSet {r cert data} (s : State) : exec (.memberCertSet r cert data) s = execMemberCertSet r cert data s := rfl
@[simp] theorem exec_peerBind {r partner} (s : State) : exec (.peerBind r partner) s = execPeerBind r partner s := rfl
@[simp] theorem exec_floorSet {r kind id ver} (s : State) : exec (.floorSet r kind id ver) s = execFloorSet r kind id ver s := rfl
@[simp] theorem exec_floorRead {r} (s : State) : exec (.floorRead r) s = execFloorRead r s := rfl
@[simp] theorem exec_zeroise {r level confirm} (s : State) : exec (.zeroise r level confirm) s = execZeroise r level confirm s := rfl
@[simp] theorem exec_tamperCfg {r actions} (s : State) : exec (.tamperCfg r actions) s = execTamperCfg r actions s := rfl
@[simp] theorem exec_tamperRead {r} (s : State) : exec (.tamperRead r) s = execTamperRead r s := rfl
@[simp] theorem exec_tamperInput {input opened} (s : State) : exec (.tamperInput input opened) s = execTamperInput input opened s := rfl
@[simp] theorem exec_seMboxGo (s : State) : exec .seMboxGo s = execSeMboxGo s := rfl
@[simp] theorem exec_seReplyReady (s : State) : exec .seReplyReady s = execSeReplyReady s := rfl
@[simp] theorem exec_meteringIntervalEnd {part} (s : State) : exec (.meteringIntervalEnd part) s = execMeteringIntervalEnd part s := rfl
@[simp] theorem exec_profilePeriodEnd (s : State) : exec .profilePeriodEnd s = execProfilePeriodEnd s := rfl
@[simp] theorem exec_totalsRecordSend (s : State) : exec .totalsRecordSend s = execTotalsRecordSend s := rfl
@[simp] theorem exec_statusRecordSend {m} (s : State) : exec (.statusRecordSend m) s = execStatusRecordSend m s := rfl
@[simp] theorem exec_certRecordSend (s : State) : exec .certRecordSend s = execCertRecordSend s := rfl
@[simp] theorem exec_auditEntryWrite {code sys old new} (s : State) : exec (.auditEntryWrite code sys old new) s = execAuditEntryWrite code sys old new s := rfl
@[simp] theorem exec_phaseLoss {sys mask} (s : State) : exec (.phaseLoss sys mask) s = execPhaseLoss sys mask s := rfl
@[simp] theorem exec_overload {sys mask peak} (s : State) : exec (.overload sys mask peak) s = execOverload sys mask peak s := rfl
@[simp] theorem exec_mgRecordRx {data crcOk} (s : State) : exec (.mgRecordRx data crcOk) s = execMgRecordRx data crcOk s := rfl
@[simp] theorem exec_mgRxPop (s : State) : exec .mgRxPop s = execMgRxPop s := rfl
@[simp] theorem exec_recordVerify {ok} (s : State) : exec (.recordVerify ok) s = execRecordVerify ok s := rfl
@[simp] theorem exec_sealCoverOpen (s : State) : exec .sealCoverOpen s = execSealCoverOpen s := rfl
@[simp] theorem exec_serviceWindowWrite {id sys v ns} (s : State) : exec (.serviceWindowWrite id sys v ns) s = execServiceWindowWrite id sys v ns s := rfl
@[simp] theorem exec_serviceWindowRead {id sys} (s : State) : exec (.serviceWindowRead id sys) s = execServiceWindowRead id sys s := rfl
@[simp] theorem exec_resealArmExpiry (s : State) : exec .resealArmExpiry s = execResealArmExpiry s := rfl
@[simp] theorem exec_sealCoverClose (s : State) : exec .sealCoverClose s = execSealCoverClose s := rfl
@[simp] theorem exec_lidOpen (s : State) : exec .lidOpen s = execLidOpen s := rfl
@[simp] theorem exec_auxSupplyLow {part} (s : State) : exec (.auxSupplyLow part) s = execAuxSupplyLow part s := rfl
@[simp] theorem exec_auxSupplyReturn {secs clockOk} (s : State) : exec (.auxSupplyReturn secs clockOk) s = execAuxSupplyReturn secs clockOk s := rfl
@[simp] theorem exec_dgSubmit (s : State) : exec .dgSubmit s = execDgSubmit s := rfl
@[simp] theorem exec_rectangleStart {temp} (s : State) : exec (.rectangleStart temp) s = execRectangleStart temp s := rfl
@[simp] theorem exec_rectangleComplete (s : State) : exec .rectangleComplete s = execRectangleComplete s := rfl
@[simp] theorem exec_dgDonePop (s : State) : exec .dgDonePop s = execDgDonePop s := rfl
@[simp] theorem exec_legalPageAdvance (s : State) : exec .legalPageAdvance s = execLegalPageAdvance s := rfl
@[simp] theorem exec_railOutOfTolerance (s : State) : exec .railOutOfTolerance s = execRailOutOfTolerance s := rfl
@[simp] theorem exec_pumpRelease (s : State) : exec .pumpRelease s = execPumpRelease s := rfl
@[simp] theorem exec_crackCheck {broken} (s : State) : exec (.crackCheck broken) s = execCrackCheck broken s := rfl
@[simp] theorem exec_startRepaint {temp broken} (s : State) : exec (.startRepaint temp broken) s = execStartRepaint temp broken s := rfl
@[simp] theorem exec_updateActivation {part} (s : State) : exec (.updateActivation part) s = execUpdateActivation part s := rfl
@[simp] theorem exec_commandedActivation (s : State) : exec .commandedActivation s = execCommandedActivation s := rfl
@[simp] theorem exec_forwardHop {h} (s : State) : exec (.forwardHop h) s = execForwardHop h s := rfl
@[simp] theorem exec_forwardHopTimeout (s : State) : exec .forwardHopTimeout s = execForwardHopTimeout s := rfl
@[simp] theorem exec_recoveryInfo (s : State) : exec .recoveryInfo s = execRecoveryInfo s := rfl
@[simp] theorem exec_recoveryBegin {part length} (s : State) : exec (.recoveryBegin part length) s = execRecoveryBegin part length s := rfl
@[simp] theorem exec_recoveryData {offset data} (s : State) : exec (.recoveryData offset data) s = execRecoveryData offset data s := rfl
@[simp] theorem exec_recoveryEnd {hash content} (s : State) : exec (.recoveryEnd hash content) s = execRecoveryEnd hash content s := rfl
@[simp] theorem exec_recoveryRestart (s : State) : exec .recoveryRestart s = execRecoveryRestart s := rfl
@[simp] theorem exec_recoveryIdleTimeout (s : State) : exec .recoveryIdleTimeout s = execRecoveryIdleTimeout s := rfl
@[simp] theorem exec_tickLost (s : State) : exec .tickLost s = execTickLost s := rfl
@[simp] theorem exec_overTemperature {temp} (s : State) : exec (.overTemperature temp) s = execOverTemperature temp s := rfl
@[simp] theorem exec_railOutOfRange (s : State) : exec .railOutOfRange s = execRailOutOfRange s := rfl
@[simp] theorem exec_ssTripCmd {bits} (s : State) : exec (.ssTripCmd bits) s = execSsTripCmd bits s := rfl
@[simp] theorem exec_ssTripLatchReset {bits} (s : State) : exec (.ssTripLatchReset bits) s = execSsTripLatchReset bits s := rfl
@[simp] theorem exec_wearEvaluation {k idx m e failed} (s : State) : exec (.wearEvaluation k idx m e failed) s = execWearEvaluation k idx m e failed s := rfl
@[simp] theorem exec_hsSwitchStart {kind index} (s : State) : exec (.hsSwitchStart kind index) s = execHsSwitchStart kind index s := rfl
@[simp] theorem exec_hsSwitchCancel (s : State) : exec .hsSwitchCancel s = execHsSwitchCancel s := rfl
@[simp] theorem exec_switchInCommit {k} (s : State) : exec (.switchInCommit k) s = execSwitchInCommit k s := rfl
@[simp] theorem exec_rowSpareCopy {k} (s : State) : exec (.rowSpareCopy k) s = execRowSpareCopy k s := rfl
@[simp] theorem exec_journalFlush (s : State) : exec .journalFlush s = execJournalFlush s := rfl
@[simp] theorem exec_hsClearGo {block unit} (s : State) : exec (.hsClearGo block unit) s = execHsClearGo block unit s := rfl
@[simp] theorem exec_registerWrite {addr value size} (s : State) : exec (.registerWrite addr value size) s = execRegisterWrite addr value size s := rfl
@[simp] theorem exec_holdUpEnd (s : State) : exec .holdUpEnd s = execHoldUpEnd s := rfl
@[simp] theorem exec_groupSupplyReturn {g} (s : State) : exec (.groupSupplyReturn g) s = execGroupSupplyReturn g s := rfl
@[simp] theorem exec_portLinkChange {p speed} (s : State) : exec (.portLinkChange p speed) s = execPortLinkChange p speed s := rfl
@[simp] theorem exec_canBusError {p lec tx exempt more} (s : State) : exec (.canBusError p lec tx exempt more) s = execCanBusError p lec tx exempt more s := rfl
@[simp] theorem exec_connectionClosed {session peer} (s : State) : exec (.connectionClosed session peer) s = execConnectionClosed session peer s := rfl
@[simp] theorem exec_farEndCommandRx {p quiet pos} (s : State) : exec (.farEndCommandRx p quiet pos) s = execFarEndCommandRx p quiet pos s := rfl
@[simp] theorem exec_managementPathMessageRx {m} (s : State) : exec (.managementPathMessageRx m) s = execManagementPathMessageRx m s := rfl
@[simp] theorem exec_partRestartComplete {part q} (s : State) : exec (.partRestartComplete part q) s = execPartRestartComplete part q s := rfl
@[simp] theorem exec_supervisionMissing (s : State) : exec .supervisionMissing s = execSupervisionMissing s := rfl

end Sys2Proof.Laws
end

