-- ==== Sys2Proof/Laws/Gate.lean ====
section
/-! SUPPORT. The gate of the command packets: a packet that meets what R374 to R387 ask of it runs, and what taking a request changes. -/

set_option Elab.async false

namespace Sys2Proof.Laws

open Sys2Proof Sys2Proof.Machine Sys2Proof.Safety

/-- A packet that passes runs; one of group 0x09 does so on variant M only. -/
theorem gate_of_passes {s : State} {r : Req} {c : Cmd} (h : Passes s r c) (hv : c.op / 256 ≠ 9 ∨ Config.variantM = true) :
    s.gate r c = none := by
  obtain ⟨hp, x, hx, hq, hh, hb, hc, hl, hf, hk, ha⟩ := h
  have e1 : ¬ x.queue.length ≥ 16 := Nat.not_le.2 hq
  have e2 : (!x.hello && c.op != 0x0101) = false := by rcases hh with h | h <;> simp [h]
  have e3 : (s.unit == .boot && c.op / 256 != 0x01 && c.op / 256 != 0x0C) = false := by
    rcases hb with h | h | h
    · simp [h]
    · simp [h]
    · simp [h]
  have e4 : (x.cand && !([0x0101, 0x0102, 0x0A10, 0x0A11].contains c.op)) = false := by
    rcases hc with h | h
    · simp [h]
    · have : [0x0101, 0x0102, 0x0A10, 0x0A11].contains c.op = true := List.contains_iff_mem.2 h
      rw [this]; simp
  have e5 : (c.op / 256 == 9 && !Config.variantM) = false := by
    rcases hv with h | h
    · simp [h]
    · simp [h]
  have e6 : (r.badPid != 0) = false := by simp [hp]
  have e7 : (if c.level = .metrology then x.level != .metrology else decide (levelRank x.level < levelRank c.level)) = false := by
    by_cases hm : c.level = .metrology
    · rw [if_pos hm] at hl ⊢; simp [hl]
    · rw [if_neg hm] at hl ⊢; simp [Nat.not_lt.2 hl]
  have e8 : (s.bit R.SE_STATUS_FIELD_LOCK && c.field && x.level != .owner && !Session.reopened x s.tb.frc) = false := by
    rcases hf with h | h | h | ⟨t, h, h'⟩
    · simp [h]
    · simp [h]
    · simp [h]
    · simp [Session.reopened, h, h']
  have e9 : (c.lock && !(s.acc.lock.any (fun l => l.session == r.session))) = false := by
    rcases hk with h | ⟨l, h, h'⟩
    · simp [h]
    · simp [h, h']
  have e10 : (c.active && s.rd R.PA_CFG_EN == 1 && s.role != .solo && s.role != .active) = false := by
    rcases ha with h | h | h | h
    · simp [h]
    · simp [h]
    · simp [h]
    · simp [h]
  have hs : s.session? r.session = some x := hx
  simp only [State.gate, hs, e1, e2, e3, e4, e5, e6, e7, e8, e9, e10, Bool.false_eq_true, if_false]

/-- On variant X a packet of group 0x09 that passes otherwise is refused with 0x0901 (R3). -/
theorem gate_variant {s : State} {r : Req} {c : Cmd} (h : Passes s r c) (hg : c.op / 256 = 9) (hv : Config.variantM = false) :
    s.gate r c = some 0x0901 := by
  obtain ⟨hp, x, hx, hq, hh, hb, hc, hl, hf, hk, ha⟩ := h
  have e1 : ¬ x.queue.length ≥ 16 := Nat.not_le.2 hq
  have e2 : (!x.hello && c.op != 0x0101) = false := by rcases hh with h | h <;> simp [h]
  have e3 : (s.unit == .boot && c.op / 256 != 0x01 && c.op / 256 != 0x0C) = false := by
    rcases hb with h | h | h
    · simp [h]
    · omega
    · omega
  have e4 : (x.cand && !([0x0101, 0x0102, 0x0A10, 0x0A11].contains c.op)) = false := by
    rcases hc with h | h
    · simp [h]
    · have : [0x0101, 0x0102, 0x0A10, 0x0A11].contains c.op = true := List.contains_iff_mem.2 h
      rw [this]; simp
  have e5 : (c.op / 256 == 9 && !Config.variantM) = true := by simp [hg, hv]
  have hs : s.session? r.session = some x := hx
  simp only [State.gate, hs, e1, e2, e3, e4, e5, Bool.false_eq_true, if_false, if_true]

/-- A packet that passes runs its command on the state with the request taken. -/
theorem command_of_passes {s : State} {r : Req} {c : Cmd} (h : Passes s r c) (hv : c.op / 256 ≠ 9 ∨ Config.variantM = true)
    (f : State → State) : s.command r c f = f (s.takeReq r c) := by
  simp only [State.command, gate_of_passes h hv]

/-- Taking a request changes the command service only. -/
theorem takeReq_frame (s : State) (r : Req) (c : Cmd) : s.takeReq r c = { s with acc := (s.takeReq r c).acc } := by
  unfold State.takeReq
  split <;> rfl

/-- The session of a request that has been taken: the request is the last of those outstanding. -/
theorem session_takeReq {s : State} {r : Req} {c : Cmd} {x : Session} (h : s.session? r.session = some x) :
    (s.takeReq r c).session? r.session =
      some { x with queue := x.queue ++ [{ op := c.op, tag := r.tag, reply := none }], lastRx := s.tb.frc, records := x.records + 1 } := by
  have g : ∀ (l : List Session) (f : Session → Session) (n : Nat), (∀ y, (f y).id = y.id) → l.find? (fun x => x.id == n) = some x →
      (l.map (fun x => if x.id == n then f x else x)).find? (fun x => x.id == n) = some (f x) := by
    intro l f n hf hl
    induction l with
    | nil => cases hl
    | cons y ys ih =>
      rw [List.find?_cons] at hl
      rw [List.map_cons, List.find?_cons]
      by_cases e : (y.id == n) = true
      · rw [e] at hl
        cases hl
        rw [if_pos e, hf, e]
      · have e' : (y.id == n) = false := by simpa using e
        rw [e'] at hl
        rw [if_neg e, e']
        exact ih hl
  have k := g s.acc.sessions (fun x => { x with queue := x.queue ++ [{ op := c.op, tag := r.tag, reply := none }], lastRx := s.tb.frc, records := x.records + 1 })
    r.session (fun _ => rfl) h
  unfold State.takeReq
  split
  · exact k
  · exact k

end Sys2Proof.Laws
end

