-- ==== Sys2Proof/Laws/Store.lean ====
section
/-! SUPPORT. Sorted association lists, register fields and memory: read after write, a write leaves every other place alone, and
every operation over memory keeps the canonical form. -/

set_option Elab.async false

namespace Sys2Proof.Laws

open Sys2Proof Sys2Proof.Machine Sys2Proof.Safety

variable {α : Type}

theorem alGet_alIns_same (d : α) (l : List (Nat × α)) (k : Nat) (v : α) : alGet d (alIns l k v) k = v := by
  induction l with
  | nil => simp [alIns, alGet]
  | cons c l ih =>
    obtain ⟨k', v'⟩ := c
    simp only [alIns]
    split
    · simp [alGet]
    · split
      · simp [alGet]
      · simp [alGet, *]

theorem alGet_alIns_other (d : α) (l : List (Nat × α)) (k j : Nat) (v : α) (h : j ≠ k) : alGet d (alIns l k v) j = alGet d l j := by
  induction l with
  | nil => simp [alIns, alGet, h]
  | cons c l ih =>
    obtain ⟨k', v'⟩ := c
    simp only [alIns]
    split
    · simp [alGet, h]
    · split
      · subst k'; simp [alGet, h]
      · simp [alGet, ih]

/-- The smallest key of a sorted list stands first. -/
theorem alSorted_cons {k : Nat} {v : α} {l : List (Nat × α)} :
    alSorted ((k, v) :: l) = true ↔ (∀ c ∈ l, k < c.1) ∧ alSorted l = true := by
  induction l generalizing k v with
  | nil => simp [alSorted]
  | cons c l ih =>
    obtain ⟨k', v'⟩ := c
    simp only [alSorted, Bool.and_eq_true, decide_eq_true_eq]
    constructor
    · rintro ⟨h1, h2⟩
      refine ⟨?_, h2⟩
      intro c hc
      rcases List.mem_cons.1 hc with rfl | hc
      · exact h1
      · exact Nat.lt_trans h1 ((ih.1 h2).1 c hc)
    · rintro ⟨h1, h2⟩
      exact ⟨h1 (k', v') (by simp), h2⟩

theorem alGet_above (d : α) (l : List (Nat × α)) (k : Nat) (h : ∀ c ∈ l, k < c.1) : alGet d l k = d := by
  induction l with
  | nil => rfl
  | cons c l ih =>
    have hk : k ≠ c.1 := Nat.ne_of_lt (h c (by simp))
    simp only [alGet, if_neg hk]
    exact ih (fun c' hc => h c' (by simp [hc]))

theorem alGet_alDel_same (d : α) (l : List (Nat × α)) (k : Nat) (h : alSorted l = true) : alGet d (alDel l k) k = d := by
  induction l with
  | nil => rfl
  | cons c l ih =>
    obtain ⟨k', v'⟩ := c
    have hs := alSorted_cons.1 h
    simp only [alDel]
    split
    · subst k'; exact alGet_above d l k hs.1
    · simp [alGet, *]

theorem alGet_alDel_other (d : α) (l : List (Nat × α)) (k j : Nat) (h : j ≠ k) : alGet d (alDel l k) j = alGet d l j := by
  induction l with
  | nil => rfl
  | cons c l ih =>
    obtain ⟨k', v'⟩ := c
    simp only [alDel]
    split
    · subst k'; simp [alGet, h]
    · simp [alGet, ih]

theorem alDel_mem {l : List (Nat × α)} {k : Nat} {c : Nat × α} (h : c ∈ alDel l k) : c ∈ l := by
  induction l with
  | nil => simp [alDel] at h
  | cons e l ih =>
    obtain ⟨k', v'⟩ := e
    simp only [alDel] at h
    split at h
    · exact List.mem_cons_of_mem _ h
    · rcases List.mem_cons.1 h with h | h
      · simp [h]
      · exact List.mem_cons_of_mem _ (ih h)

theorem alIns_mem {l : List (Nat × α)} {k : Nat} {v : α} {c : Nat × α} (h : c ∈ alIns l k v) : c = (k, v) ∨ c ∈ l := by
  induction l with
  | nil => simpa [alIns] using h
  | cons e l ih =>
    obtain ⟨k', v'⟩ := e
    simp only [alIns] at h
    split at h
    · simpa using h
    · split at h
      · rcases List.mem_cons.1 h with h | h
        · exact .inl h
        · exact .inr (List.mem_cons_of_mem _ h)
      · rcases List.mem_cons.1 h with h | h
        · simp [h]
        · exact (ih h).imp id (List.mem_cons_of_mem _)

theorem alDel_sorted {l : List (Nat × α)} (k : Nat) (h : alSorted l = true) : alSorted (alDel l k) = true := by
  induction l with
  | nil => rfl
  | cons e l ih =>
    obtain ⟨k', v'⟩ := e
    have hs := alSorted_cons.1 h
    simp only [alDel]
    split
    · exact hs.2
    · exact alSorted_cons.2 ⟨fun c hc => hs.1 c (alDel_mem hc), ih hs.2⟩

theorem alIns_sorted {l : List (Nat × α)} (k : Nat) (v : α) (h : alSorted l = true) : alSorted (alIns l k v) = true := by
  induction l with
  | nil => rfl
  | cons e l ih =>
    obtain ⟨k', v'⟩ := e
    have hs := alSorted_cons.1 h
    simp only [alIns]
    split
    · rename_i hk
      exact alSorted_cons.2 ⟨fun c hc => (List.mem_cons.1 hc).elim (fun e => e ▸ hk) (fun hc => Nat.lt_trans hk (hs.1 c hc)), h⟩
    · split
      · rename_i hk; subst k'; exact alSorted_cons.2 hs
      · refine alSorted_cons.2 ⟨fun c hc => ?_, ih hs.2⟩
        rcases alIns_mem hc with rfl | hc
        · show k' < k
          omega
        · exact hs.1 c hc

theorem alPut_sorted [DecidableEq α] (d : α) {l : List (Nat × α)} (k : Nat) (v : α) (h : alSorted l = true) :
    alSorted (alPut d l k v) = true := by
  unfold alPut
  split
  · exact alDel_sorted k h
  · exact alIns_sorted k v h

theorem alGet_alPut_same [DecidableEq α] (d : α) {l : List (Nat × α)} (k : Nat) (v : α) (h : alSorted l = true) :
    alGet d (alPut d l k v) k = v := by
  unfold alPut
  split
  · rename_i e; rw [e]; exact alGet_alDel_same d l k h
  · exact alGet_alIns_same d l k v

theorem alGet_alPut_other [DecidableEq α] (d e : α) {l : List (Nat × α)} (k j : Nat) (v : α) (h : j ≠ k) :
    alGet e (alPut d l k v) j = alGet e l j := by
  unfold alPut
  split
  · exact alGet_alDel_other e l k j h
  · exact alGet_alIns_other e l k j v h

theorem filter_sorted {l : List (Nat × α)} (f : Nat × α → Bool) (h : alSorted l = true) : alSorted (l.filter f) = true := by
  induction l with
  | nil => rfl
  | cons e l ih =>
    obtain ⟨k', v'⟩ := e
    have hs := alSorted_cons.1 h
    rw [List.filter_cons]
    split
    · exact alSorted_cons.2 ⟨fun c hc => hs.1 c (List.mem_filter.1 hc).1, ih hs.2⟩
    · exact ih hs.2

/-! ### Memory keeps its canonical form -/

theorem memoryWf_alPut {m : List Host.Cell} (a : Nat) (b : Byte) (h : memoryWf m = true) : memoryWf (alPut 0 m a b) = true := by
  simp only [memoryWf, Bool.and_eq_true, List.all_eq_true, bne_iff_ne, ne_eq] at h ⊢
  refine ⟨alPut_sorted 0 a b h.1, ?_⟩
  intro c hc
  unfold alPut at hc
  split at hc
  · exact h.2 c (alDel_mem hc)
  · rcases alIns_mem hc with rfl | hc
    · assumption
    · exact h.2 c hc

theorem memoryWf_cellsPut {m : List Host.Cell} (a : Nat) (bs : Bytes) (h : memoryWf m = true) : memoryWf (cellsPut m a bs) = true := by
  induction bs generalizing m a with
  | nil => exact h
  | cons b bs ih => exact ih (a + 1) (memoryWf_alPut a b h)

theorem memoryWf_filter {m : List Host.Cell} (f : Host.Cell → Bool) (h : memoryWf m = true) : memoryWf (m.filter f) = true := by
  simp only [memoryWf, Bool.and_eq_true, List.all_eq_true] at h ⊢
  exact ⟨filter_sorted f h.1, fun c hc => h.2 c (List.mem_filter.1 hc).1⟩

/-! ### Bytes -/

@[simp] theorem byte_setByte_same (s : State) (a : Nat) (b : Byte) (h : alSorted s.mem = true) : (s.setByte a b).byte a = b :=
  alGet_alPut_same 0 a b h

@[simp] theorem byte_setByte_other (s : State) (a x : Nat) (b : Byte) (h : x ≠ a) : (s.setByte a b).byte x = s.byte x :=
  alGet_alPut_other 0 0 a x b h

theorem alGet_cellsPut_below (m : List Host.Cell) (a x : Nat) (bs : Bytes) (h : x < a ∨ a + bs.length ≤ x) :
    alGet 0 (cellsPut m a bs) x = alGet 0 m x := by
  induction bs generalizing m a with
  | nil => rfl
  | cons b bs ih =>
    rw [cellsPut, ih _ _ (by simp at h; omega)]
    exact alGet_alPut_other 0 0 a x b (by simp at h; omega)

/-- A byte outside the written range reads as before. -/
theorem byte_setBytes_other (s : State) (a x : Nat) (bs : Bytes) (h : x < a ∨ a + bs.length ≤ x) :
    (s.setBytes a bs).byte x = s.byte x := alGet_cellsPut_below s.mem a x bs h

/-! ### Register fields -/

theorem rd_wr_same (s : State) (r : RegRow) (v i j : Nat) (h : alSorted s.regs = true) :
    (s.wr r v i j).rd r i j = v % 2 ^ r.width := alGet_alPut_same _ _ _ h

/-- A write leaves every field with another key alone. -/
theorem rd_wr_ne (s : State) (r r' : RegRow) (v i j i' j' : Nat) (h : r'.key i' j' ≠ r.key i j) :
    (s.wr r v i j).rd r' i' j' = s.rd r' i' j' := alGet_alPut_other _ _ _ _ _ h

theorem wr_sorted (s : State) (r : RegRow) (v i j : Nat) (h : alSorted s.regs = true) : alSorted (s.wr r v i j).regs = true :=
  alPut_sorted _ _ _ h

end Sys2Proof.Laws
end

