-- ==== Sys2Proof/Laws/Keeps.lean ====
section
/-! SUPPORT. `Keeps q s`: the queue is the list of `q`, and the state is sound if the proposition of `q` holds. How it passes through a record
update, a local definition, a choice and a fold: the steps every preservation lemma is made of. -/

set_option Elab.async false

namespace Sys2Proof.Laws

open Sys2Proof Sys2Proof.Machine Sys2Proof.Safety

/-- Under `q.1` the state is sound; the queue is `q.2.1`; and where `q.2.2` names metering registers, they are these (R417). -/
def Keeps (q : Prop × List Instr × Option (List (Nat × Nat))) (s : State) : Prop := (q.1 → Sound s) ∧ s.pending = q.2.1 ∧ ∀ r, q.2.2 = some r → s.met.regs = r

variable {q : Prop × List Instr × Option (List (Nat × Nat))} {s t : State}

/-- A record update that leaves the queue, the two stores, the time base and the journal. -/
theorem keeps_upd {x_staged : List (Nat × Nat)} {x_latch : List (Nat × Nat)} {x_rdata : Nat} {x_free : Nat} {x_sent : List Sent} {x_unit : UnitState} {x_role : Role} {x_lat : Lattice} {x_tt : Timetable} {x_acc : Service} {x_loopResyncs : List Nat} {x_chans : List Chan} {x_groups : List Group} {x_harts : List Hart} {x_dio : Dio} {x_sup : Sup} {x_hs : Health} {x_pair : Pair} {x_chains : List ChainPort} {x_ingest : Ingest} {x_cans : List CanPort} {x_eth : Eth} {x_ptp : Ptp} {x_disp : Disp} {x_met : Met} {x_mg : MgSide} {x_trust : Trust} {x_fw : Firmware}
    (h : Keeps q s) (hm : x_met.regs = s.met.regs := by rfl) : Keeps q ⟨s.pending, s.regs, s.mem, x_staged, x_latch, x_rdata, x_free, x_sent, x_unit, x_role, s.tb, x_lat, x_tt, x_acc, s.jr, x_loopResyncs, x_chans, x_groups, x_harts, x_dio, x_sup, x_hs, x_pair, x_chains, x_ingest, x_cans, x_eth, x_ptp, x_disp, x_met, x_mg, x_trust, x_fw⟩ := by
  refine ⟨fun hp => ?_, h.2.1, fun r e => hm.trans (h.2.2 r e)⟩
  obtain ⟨h1, h2, h3, h4, h5⟩ := h.1 hp
  exact ⟨h1, h2, h3, h4, h5⟩

/-- The same with a time base whose FRC stays. -/
theorem keeps_tb {x_staged : List (Nat × Nat)} {x_latch : List (Nat × Nat)} {x_rdata : Nat} {x_free : Nat} {x_sent : List Sent} {x_unit : UnitState} {x_role : Role} {x_lat : Lattice} {x_tt : Timetable} {x_acc : Service} {x_loopResyncs : List Nat} {x_chans : List Chan} {x_groups : List Group} {x_harts : List Hart} {x_dio : Dio} {x_sup : Sup} {x_hs : Health} {x_pair : Pair} {x_chains : List ChainPort} {x_ingest : Ingest} {x_cans : List CanPort} {x_eth : Eth} {x_ptp : Ptp} {x_disp : Disp} {x_met : Met} {x_mg : MgSide} {x_trust : Trust} {x_fw : Firmware} {y_sec : Nat} {y_ns : Nat} {y_frac : Nat} {y_frcShadow : Nat} {y_step : Option TodStep} {y_stepAt : Option Nat} {y_frameNo : Nat} {y_lastTick : Nat} {y_base : Nat} {y_pairTick : Nat} {y_oscOrder : Option (Nat × Nat)} {y_extOrdered : Bool} {y_armed : List Nat} {y_fired : List Nat} {y_lastPps : Option Nat} {y_ppsFire : List Nat} {y_ppsOut : Option Int} {y_tenM : Option Nat}
    (h : Keeps q s) (hm : x_met.regs = s.met.regs := by rfl) : Keeps q ⟨s.pending, s.regs, s.mem, x_staged, x_latch, x_rdata, x_free, x_sent, x_unit, x_role, ⟨s.tb.frc, y_sec, y_ns, y_frac, y_frcShadow, y_step, y_stepAt, y_frameNo, y_lastTick, y_base, y_pairTick, y_oscOrder, y_extOrdered, y_armed, y_fired, y_lastPps, y_ppsFire, y_ppsOut, y_tenM⟩, x_lat, x_tt, x_acc, s.jr, x_loopResyncs, x_chans, x_groups, x_harts, x_dio, x_sup, x_hs, x_pair, x_chains, x_ingest, x_cans, x_eth, x_ptp, x_disp, x_met, x_mg, x_trust, x_fw⟩ := by
  refine ⟨fun hp => ?_, h.2.1, fun r e => hm.trans (h.2.2 r e)⟩
  obtain ⟨h1, h2, h3, h4, h5⟩ := h.1 hp
  exact ⟨h1, h2, h3, h4, h5⟩

/-- The same with the FRC of another sound state. -/
theorem keeps_tb2 {x_staged : List (Nat × Nat)} {x_latch : List (Nat × Nat)} {x_rdata : Nat} {x_free : Nat} {x_sent : List Sent} {x_unit : UnitState} {x_role : Role} {x_lat : Lattice} {x_tt : Timetable} {x_acc : Service} {x_loopResyncs : List Nat} {x_chans : List Chan} {x_groups : List Group} {x_harts : List Hart} {x_dio : Dio} {x_sup : Sup} {x_hs : Health} {x_pair : Pair} {x_chains : List ChainPort} {x_ingest : Ingest} {x_cans : List CanPort} {x_eth : Eth} {x_ptp : Ptp} {x_disp : Disp} {x_met : Met} {x_mg : MgSide} {x_trust : Trust} {x_fw : Firmware} {y_sec : Nat} {y_ns : Nat} {y_frac : Nat} {y_frcShadow : Nat} {y_step : Option TodStep} {y_stepAt : Option Nat} {y_frameNo : Nat} {y_lastTick : Nat} {y_base : Nat} {y_pairTick : Nat} {y_oscOrder : Option (Nat × Nat)} {y_extOrdered : Bool} {y_armed : List Nat} {y_fired : List Nat} {y_lastPps : Option Nat} {y_ppsFire : List Nat} {y_ppsOut : Option Int} {y_tenM : Option Nat}
    (h : Keeps q s) (h' : Keeps q t) (hm : x_met.regs = s.met.regs := by rfl) : Keeps q ⟨s.pending, s.regs, s.mem, x_staged, x_latch, x_rdata, x_free, x_sent, x_unit, x_role, ⟨t.tb.frc, y_sec, y_ns, y_frac, y_frcShadow, y_step, y_stepAt, y_frameNo, y_lastTick, y_base, y_pairTick, y_oscOrder, y_extOrdered, y_armed, y_fired, y_lastPps, y_ppsFire, y_ppsOut, y_tenM⟩, x_lat, x_tt, x_acc, s.jr, x_loopResyncs, x_chans, x_groups, x_harts, x_dio, x_sup, x_hs, x_pair, x_chains, x_ingest, x_cans, x_eth, x_ptp, x_disp, x_met, x_mg, x_trust, x_fw⟩ := by
  refine ⟨fun hp => ?_, h.2.1, fun r e => hm.trans (h.2.2 r e)⟩
  obtain ⟨h1, h2, h3, h4, h5⟩ := h.1 hp
  exact ⟨h1, h2, (h'.1 hp).frc, h4, h5⟩

/-- The same with an FRC within 64 bits. -/
theorem keeps_frc {x_staged : List (Nat × Nat)} {x_latch : List (Nat × Nat)} {x_rdata : Nat} {x_free : Nat} {x_sent : List Sent} {x_unit : UnitState} {x_role : Role} {x_lat : Lattice} {x_tt : Timetable} {x_acc : Service} {x_loopResyncs : List Nat} {x_chans : List Chan} {x_groups : List Group} {x_harts : List Hart} {x_dio : Dio} {x_sup : Sup} {x_hs : Health} {x_pair : Pair} {x_chains : List ChainPort} {x_ingest : Ingest} {x_cans : List CanPort} {x_eth : Eth} {x_ptp : Ptp} {x_disp : Disp} {x_met : Met} {x_mg : MgSide} {x_trust : Trust} {x_fw : Firmware} {x_tb : TimeBase}
    (h : Keeps q s) (hf : x_tb.frc < 2 ^ 64) (hm : x_met.regs = s.met.regs := by rfl) : Keeps q ⟨s.pending, s.regs, s.mem, x_staged, x_latch, x_rdata, x_free, x_sent, x_unit, x_role, x_tb, x_lat, x_tt, x_acc, s.jr, x_loopResyncs, x_chans, x_groups, x_harts, x_dio, x_sup, x_hs, x_pair, x_chains, x_ingest, x_cans, x_eth, x_ptp, x_disp, x_met, x_mg, x_trust, x_fw⟩ := by
  refine ⟨fun hp => ?_, h.2.1, fun r e => hm.trans (h.2.2 r e)⟩
  obtain ⟨h1, h2, h3, h4, h5⟩ := h.1 hp
  exact ⟨h1, h2, hf, h4, h5⟩

theorem mod_frc (n : Nat) : n % 2 ^ 64 < 2 ^ 64 := Nat.mod_lt _ (Nat.two_pow_pos 64)

theorem keeps_cut (h : Keeps q s) (f : Keeps q s → Keeps q t) : Keeps q t := f h

/-- A time base named on the way. -/
theorem keeps_tbid (_ : TimeBase) (h : Keeps q s) : Keeps q s := h

/-- A compartment state named on the way. -/
theorem keeps_metid (_ : Met) (h : Keeps q s) : Keeps q s := h

/-- The same for a local function between states. -/
theorem keeps_cutF {f : State → State} (h : ∀ s, Keeps q s → Keeps q (f s))
    (g : (∀ s, Keeps q s → Keeps q (f s)) → Keeps q t) : Keeps q t := g h

theorem keeps_cutG {β : Type} {f : State → β → State} (h : ∀ s b, Keeps q s → Keeps q (f s b))
    (g : (∀ s b, Keeps q s → Keeps q (f s b)) → Keeps q t) : Keeps q t := g h

theorem keeps_cutH {β γ : Type} {f : State → β → γ → State} (h : ∀ s b c, Keeps q s → Keeps q (f s b c))
    (g : (∀ s b c, Keeps q s → Keeps q (f s b c)) → Keeps q t) : Keeps q t := g h

theorem keeps_ite {c : Prop} [Decidable c] (h1 : Keeps q s) (h2 : Keeps q t) : Keeps q (if c then s else t) := by
  split <;> assumption

theorem keeps_ite' {c : Prop} [Decidable c] (h1 : c → Keeps q s) (h2 : ¬c → Keeps q t) : Keeps q (if c then s else t) := by
  split
  · exact h1 ‹_›
  · exact h2 ‹_›

theorem keeps_fst {β : Type} {p : State × β} {b : β} (e : p = (s, b)) (h : Keeps q p.1) : Keeps q s := by
  rw [e] at h; exact h

theorem keeps_foldl {β : Type} {f : State → β → State} {l : List β} (h : Keeps q s)
    (hf : ∀ s b, Keeps q s → Keeps q (f s b)) : Keeps q (l.foldl f s) := by
  induction l generalizing s with
  | nil => exact h
  | cons b l ih => exact ih (hf s b h)

theorem keeps_foldl_fst {β γ : Type} {f : State × γ → β → State × γ} {l : List β} {p : State × γ} (h : Keeps q p.1)
    (hf : ∀ p b, Keeps q p.1 → Keeps q (f p b).1) : Keeps q (l.foldl f p).1 := by
  induction l generalizing p with
  | nil => exact h
  | cons b l ih => exact ih (hf p b h)

/-- What a meaning answers keeps the queue and soundness when it is a next state. -/
structure KeepsN (q : Prop × List Instr × Option (List (Nat × Nat))) (n : Next) : Prop where
  next : ∀ t, n = .next t → Keeps q t

theorem keepsN_next (h : Keeps q s) : KeepsN q (.next s) := ⟨fun _ e => by cases e; exact h⟩

theorem keepsN_cut {n : Next} (h : Keeps q s) (f : Keeps q s → KeepsN q n) : KeepsN q n := f h

theorem keepsN_fault {f : Fault} : KeepsN q (.fault f) := ⟨fun _ e => nomatch e⟩

theorem keepsN_ite {c : Prop} [Decidable c] {m n : Next} (h1 : KeepsN q m) (h2 : KeepsN q n) : KeepsN q (if c then m else n) := by
  split <;> assumption

end Sys2Proof.Laws
end

