-- ==== Sys2Proof/Laws/KeepsCore.lean ====
section
/-! SUPPORT. Every operation and meaning of the stores, the engines, the control path, the time base and the lattice leaves the queue of waiting commands alone and keeps a sound state sound. -/

set_option Elab.async false

namespace Sys2Proof.Laws

open Sys2Proof Sys2Proof.Machine Sys2Proof.Safety

variable {q : Prop × List Instr × Option (List (Nat × Nat))} {s : State}

/-! ### Ops -/

theorem wr_keeps (h : Keeps q s) : Keeps q (State.wr s a1 a2 a3 a4) := by
  refine ⟨fun hp => ?_, h.2⟩
  obtain ⟨h1, h2, h3, h4, h5⟩ := h.1 hp
  exact ⟨h1, alPut_sorted _ _ _ h2, h3, h4, h5⟩

theorem inc_keeps (h : Keeps q s) : Keeps q (State.inc s a1 a2 a3) := by
  unfold State.inc
  repeat' first
    | with_reducible assumption
    | with_reducible refine keeps_ite ?_ ?_
    | with_reducible apply wr_keeps
    | split

theorem incWrap_keeps (h : Keeps q s) : Keeps q (State.incWrap s a1 a2 a3) := by
  unfold State.incWrap
  repeat' first
    | with_reducible assumption
    | with_reducible apply wr_keeps

theorem wr64_keeps (h : Keeps q s) : Keeps q (State.wr64 s a1 a2 a3 a4) := by
  unfold State.wr64
  repeat' first
    | with_reducible assumption
    | with_reducible apply wr_keeps

theorem setByte_keeps (h : Keeps q s) : Keeps q (State.setByte s a1 a2) := by
  refine ⟨fun hp => ?_, h.2⟩
  obtain ⟨h1, h2, h3, h4, h5⟩ := h.1 hp
  exact ⟨memoryWf_alPut _ _ h1, h2, h3, h4, h5⟩

theorem setBytes_keeps (h : Keeps q s) : Keeps q (State.setBytes s a1 a2) := by
  refine ⟨fun hp => ?_, h.2⟩
  obtain ⟨h1, h2, h3, h4, h5⟩ := h.1 hp
  exact ⟨memoryWf_cellsPut _ _ h1, h2, h3, h4, h5⟩

theorem clearMem_keeps (h : Keeps q s) : Keeps q (State.clearMem s a1 a2) := by
  refine ⟨fun hp => ?_, h.2⟩
  obtain ⟨h1, h2, h3, h4, h5⟩ := h.1 hp
  exact ⟨memoryWf_filter _ h1, h2, h3, h4, h5⟩

theorem setWord_keeps (h : Keeps q s) : Keeps q (State.setWord s a1 a2) := by
  unfold State.setWord
  repeat' first
    | with_reducible assumption
    | with_reducible apply setBytes_keeps

theorem nextFree_keeps (h : Keeps q s) : Keeps q (State.nextFree s) := by
  unfold State.nextFree
  repeat' first
    | with_reducible assumption
    | (extract_lets +onlyGivenNames y; with_reducible refine keeps_cut (s := y) ?_ ?_; unfold y; clear y; rotate_left; intro hy; clear_value y; revert y; intros)
    | with_reducible refine keeps_upd (by with_reducible assumption)
    | (extract_lets +onlyGivenNames y; clear_value y; revert y; intros)
    | with_reducible refine keeps_upd ?_

theorem setTod_keeps (h : Keeps q s) : Keeps q (State.setTod s a1) := by
  unfold State.setTod
  repeat' first
    | with_reducible assumption
    | (extract_lets +onlyGivenNames y; with_reducible refine keeps_cut (s := y) ?_ ?_; unfold y; clear y; rotate_left; intro hy; clear_value y; revert y; intros)
    | (extract_lets +onlyGivenNames y; with_reducible refine keeps_tbid y ?_; revert y; intro _)
    | (with_reducible refine keeps_tb ?_; with_reducible assumption)
    | (with_reducible refine keeps_tb2 (t := s) ?_ ?_ <;> with_reducible assumption)
    | with_reducible refine keeps_upd (by with_reducible assumption)
    | (extract_lets +onlyGivenNames y; clear_value y; revert y; intros)
    | with_reducible refine keeps_upd ?_

theorem pass_keeps (h : Keeps q s) : Keeps q (State.pass s a1) := by
  unfold State.pass
  exact keeps_frc (setTod_keeps h) (mod_frc _)

theorem toFrc_keeps (h : Keeps q s) : Keeps q (State.toFrc s a1) := by
  unfold State.toFrc
  repeat' first
    | with_reducible assumption
    | with_reducible refine keeps_ite ?_ ?_
    | with_reducible apply pass_keeps
    | split

theorem toCycle_keeps (h : Keeps q s) : Keeps q (State.toCycle s a1) := by
  unfold State.toCycle
  repeat' first
    | with_reducible assumption
    | with_reducible apply toFrc_keeps

theorem emit_keeps (h : Keeps q s) : Keeps q (State.emit s a1 a2 a3 a4) := by
  unfold State.emit
  repeat' first
    | with_reducible assumption
    | (extract_lets +onlyGivenNames y; with_reducible refine keeps_cut (s := y) ?_ ?_; unfold y; clear y; rotate_left; intro hy; clear_value y; revert y; intros)
    | with_reducible refine keeps_upd (by with_reducible assumption)
    | (extract_lets +onlyGivenNames y; clear_value y; revert y; intros)
    | with_reducible refine keeps_upd ?_

theorem notify_keeps (h : Keeps q s) : Keeps q (State.notify s a1 a2 a3 a4) := by
  unfold State.notify
  repeat' first
    | with_reducible assumption
    | with_reducible apply emit_keeps
    | with_reducible refine keeps_foldl ?_ (fun _ _ hs => ?_)
    | intro _ _ hs
    | intro _ hs
    | intro hs

theorem journal_keeps (h : Keeps q s) : Keeps q (State.journal s a1 a2 a3 a4 a5) := by
  unfold State.journal
  simp only
  refine keeps_ite' (fun hc => ?_) (fun _ => ?_)
  · refine ⟨fun hp => ?_, h.2⟩
    obtain ⟨h1, h2, h3, h4, h5⟩ := h.1 hp
    exact ⟨h1, h2, h3, hc, h5⟩
  · refine inc_keeps ⟨fun hp => ?_, h.2⟩
    obtain ⟨h1, h2, h3, h4, h5⟩ := h.1 hp
    exact ⟨h1, h2, h3, h4, h5⟩

/-! ### LoopEngine -/

theorem loopStatus_keeps (h : Keeps q s) : Keeps q (State.loopStatus s a1 a2) := by
  unfold State.loopStatus
  repeat' first
    | with_reducible assumption
    | (extract_lets +onlyGivenNames y; with_reducible refine keeps_cut (s := y) ?_ ?_; unfold y; clear y; rotate_left; intro hy; clear_value y; revert y; intros)
    | (extract_lets +onlyGivenNames y; with_reducible refine keeps_cutH (f := y) ?_ ?_; unfold y; clear y; rotate_left; intro hy; clear_value y; revert y; intro fH hH)
    | (extract_lets +onlyGivenNames y; clear_value y; revert y; intros)
    | with_reducible refine keeps_ite ?_ ?_
    | with_reducible apply hH
    | with_reducible apply wr_keeps
    | intro _ _ hs
    | intro _ hs
    | intro hs
    | split

theorem updCall_keeps (h : Keeps q s) : Keeps q (State.updCall s a1 a2 a3) := by
  unfold State.updCall
  repeat' first
    | with_reducible assumption
    | (extract_lets +onlyGivenNames y; with_reducible refine keeps_cut (s := y) ?_ ?_; unfold y; clear y; rotate_left; intro hy; clear_value y; revert y; intros)
    | with_reducible refine keeps_upd (by with_reducible assumption)
    | (extract_lets +onlyGivenNames y; clear_value y; revert y; intros)
    | with_reducible refine keeps_ite ?_ ?_
    | intro _ _ hs
    | intro _ hs
    | intro hs
    | split
    | with_reducible refine keeps_upd ?_

theorem readBad_keeps (h : Keeps q s) : Keeps q (State.readBad s a1 a2).1 := by
  induction a2 generalizing s a1 with
  | nil => exact h
  | cons i bad ih => exact ih (nextFree_keeps h)

theorem loopSample_keeps (h : Keeps q s) : Keeps q (State.loopSample s a1 a2 a3) := by
  unfold State.loopSample
  repeat' first
    | with_reducible assumption
    | (extract_lets +onlyGivenNames y; with_reducible refine keeps_cut (s := y) ?_ ?_; unfold y; clear y; rotate_left; intro hy; clear_value y; revert y; intros)
    | with_reducible refine keeps_upd (by with_reducible assumption)
    | (extract_lets +onlyGivenNames y; clear_value y; revert y; intros)
    | with_reducible refine keeps_ite ?_ ?_
    | with_reducible apply readBad_keeps
    | with_reducible apply updCall_keeps
    | intro _ _ hs
    | intro _ hs
    | intro hs
    | split
    | with_reducible refine keeps_fst (by with_reducible assumption) ?_
    | with_reducible refine keeps_upd ?_

theorem loopExecute_keeps (h : Keeps q s) : Keeps q (State.loopExecute s a1 a2) := by
  unfold State.loopExecute
  repeat' first
    | with_reducible assumption
    | (extract_lets +onlyGivenNames y; with_reducible refine keeps_cut (s := y) ?_ ?_; unfold y; clear y; rotate_left; intro hy; clear_value y; revert y; intros)
    | with_reducible refine keeps_upd (by with_reducible assumption)
    | (extract_lets +onlyGivenNames y; clear_value y; revert y; intros)
    | with_reducible refine keeps_ite ?_ ?_
    | with_reducible apply readBad_keeps
    | with_reducible apply updCall_keeps
    | with_reducible apply wr_keeps
    | intro _ _ hs
    | intro _ hs
    | intro hs
    | split
    | with_reducible refine keeps_fst (by with_reducible assumption) ?_
    | with_reducible refine keeps_upd ?_

theorem loopStore_keeps (h : Keeps q s) : Keeps q (State.loopStore s a1 a2 a3) := by
  unfold State.loopStore
  repeat' first
    | with_reducible assumption
    | (extract_lets +onlyGivenNames y; with_reducible refine keeps_cut (s := y) ?_ ?_; unfold y; clear y; rotate_left; intro hy; clear_value y; revert y; intros)
    | (extract_lets +onlyGivenNames y; clear_value y; revert y; intros)
    | with_reducible apply setWord_keeps

theorem loopFinish_keeps (h : Keeps q s) : Keeps q (State.loopFinish s a1 a2) := by
  unfold State.loopFinish
  repeat' first
    | with_reducible assumption
    | (extract_lets +onlyGivenNames y; with_reducible refine keeps_cut (s := y) ?_ ?_; unfold y; clear y; rotate_left; intro hy; clear_value y; revert y; intros)
    | with_reducible refine keeps_upd (by with_reducible assumption)
    | (extract_lets +onlyGivenNames y; clear_value y; revert y; intros)
    | with_reducible refine keeps_ite ?_ ?_
    | with_reducible apply loopStatus_keeps
    | with_reducible apply updCall_keeps
    | intro _ _ hs
    | intro _ hs
    | intro hs
    | split
    | with_reducible refine keeps_upd ?_

theorem loopDone_keeps (h : Keeps q s) : Keeps q (State.loopDone s a1).1 := by
  unfold State.loopDone
  repeat' first
    | with_reducible assumption
    | with_reducible apply inc_keeps

/-! ### Solver -/

theorem svProblem_keeps (h : Keeps q s) : Keeps q (State.svProblem s a1 a2 a3 a4).1 := by
  unfold State.svProblem
  simp only []
  split
  · exact readBad_keeps h
  · exact h

theorem svFlags_keeps (h : Keeps q s) : Keeps q (State.svFlags s a1) := by
  unfold State.svFlags
  repeat' first
    | with_reducible assumption
    | (extract_lets +onlyGivenNames y; with_reducible refine keeps_cut (s := y) ?_ ?_; unfold y; clear y; rotate_left; intro hy; clear_value y; revert y; intros)
    | (extract_lets +onlyGivenNames y; with_reducible refine keeps_cutH (f := y) ?_ ?_; unfold y; clear y; rotate_left; intro hy; clear_value y; revert y; intro fH hH)
    | (extract_lets +onlyGivenNames y; clear_value y; revert y; intros)
    | with_reducible refine keeps_ite ?_ ?_
    | with_reducible apply hH
    | with_reducible apply wr_keeps
    | with_reducible refine keeps_foldl ?_ (fun _ _ hs => ?_)
    | intro _ _ hs
    | intro _ hs
    | intro hs
    | split

theorem svSolve_keeps (h : Keeps q s) : Keeps q (State.svSolve s a1 a2 a3 a4).1 := by
  induction a4 generalizing s with
  | nil => exact h
  | cons k ks ih => exact ih (svProblem_keeps h)

theorem waveLoad_keeps (h : Keeps q s) : Keeps q (State.waveLoad s a1 a2) := by
  unfold State.waveLoad
  repeat' first
    | with_reducible assumption
    | (extract_lets +onlyGivenNames y; with_reducible refine keeps_cut (s := y) ?_ ?_; unfold y; clear y; rotate_left; intro hy; clear_value y; revert y; intros)
    | with_reducible refine keeps_upd (by with_reducible assumption)
    | (extract_lets +onlyGivenNames y; clear_value y; revert y; intros)
    | with_reducible apply svSolve_keeps
    | with_reducible apply updCall_keeps
    | with_reducible apply svFlags_keeps
    | intro _ _ hs
    | intro _ hs
    | intro hs
    | split
    | with_reducible refine keeps_fst (by with_reducible assumption) ?_
    | with_reducible refine keeps_upd ?_

theorem waveStore_keeps (h : Keeps q s) : Keeps q (State.waveStore s a1 a2 a3) := by
  unfold State.waveStore
  repeat' first
    | with_reducible assumption
    | (extract_lets +onlyGivenNames y; with_reducible refine keeps_cut (s := y) ?_ ?_; unfold y; clear y; rotate_left; intro hy; clear_value y; revert y; intros)
    | with_reducible refine keeps_upd (by with_reducible assumption)
    | (extract_lets +onlyGivenNames y; clear_value y; revert y; intros)
    | with_reducible apply setWord_keeps
    | with_reducible refine keeps_foldl ?_ (fun _ _ hs => ?_)
    | intro _ _ hs
    | intro _ hs
    | intro hs
    | split
    | with_reducible refine keeps_fst (by with_reducible assumption) ?_
    | with_reducible refine keeps_upd ?_

theorem solverDone_keeps (h : Keeps q s) : Keeps q (State.solverDone s a1 a2).1 := by
  unfold State.solverDone
  repeat' first
    | with_reducible assumption
    | (extract_lets +onlyGivenNames y; with_reducible refine keeps_cut (s := y) ?_ ?_; unfold y; clear y; rotate_left; intro hy; clear_value y; revert y; intros)
    | (extract_lets +onlyGivenNames y; clear_value y; revert y; intros)
    | with_reducible apply setBytes_keeps
    | with_reducible apply inc_keeps

/-! ### Control -/

theorem updSession_keeps (h : Keeps q s) : Keeps q (State.updSession s a1 a2) := by
  unfold State.updSession
  repeat' first
    | with_reducible assumption
    | (extract_lets +onlyGivenNames y; with_reducible refine keeps_cut (s := y) ?_ ?_; unfold y; clear y; rotate_left; intro hy; clear_value y; revert y; intros)
    | with_reducible refine keeps_upd (by with_reducible assumption)
    | (extract_lets +onlyGivenNames y; clear_value y; revert y; intros)
    | with_reducible refine keeps_ite ?_ ?_
    | intro _ _ hs
    | intro _ hs
    | intro hs
    | split
    | with_reducible refine keeps_upd ?_

theorem answer_keeps (h : Keeps q s) : Keeps q (State.answer s a1) := by
  unfold State.answer
  repeat' first
    | with_reducible assumption
    | (extract_lets +onlyGivenNames y; with_reducible refine keeps_cut (s := y) ?_ ?_; unfold y; clear y; rotate_left; intro hy; clear_value y; revert y; intros)
    | with_reducible refine keeps_upd (by with_reducible assumption)
    | (extract_lets +onlyGivenNames y; clear_value y; revert y; intros)
    | with_reducible refine keeps_ite ?_ ?_
    | with_reducible apply updSession_keeps
    | with_reducible apply emit_keeps
    | with_reducible refine keeps_foldl ?_ (fun _ _ hs => ?_)
    | intro _ _ hs
    | intro _ hs
    | intro hs
    | split
    | with_reducible refine keeps_fst (by with_reducible assumption) ?_
    | with_reducible refine keeps_upd ?_

theorem takeReq_keeps (h : Keeps q s) : Keeps q (State.takeReq s a1 a2) := by
  unfold State.takeReq
  repeat' first
    | with_reducible assumption
    | (extract_lets +onlyGivenNames y; with_reducible refine keeps_cut (s := y) ?_ ?_; unfold y; clear y; rotate_left; intro hy; clear_value y; revert y; intros)
    | with_reducible refine keeps_upd (by with_reducible assumption)
    | (extract_lets +onlyGivenNames y; clear_value y; revert y; intros)
    | with_reducible refine keeps_ite ?_ ?_
    | with_reducible apply updSession_keeps
    | intro _ _ hs
    | intro _ hs
    | intro hs
    | split
    | with_reducible refine keeps_upd ?_

theorem reply_keeps (h : Keeps q s) : Keeps q (State.reply s a1 a2 a3 a4 a5) := by
  unfold State.reply
  repeat' first
    | with_reducible assumption
    | with_reducible apply answer_keeps

theorem await_keeps (h : Keeps q s) : Keeps q (State.await s a1 a2 a3) := by
  unfold State.await
  repeat' first
    | with_reducible assumption
    | (extract_lets +onlyGivenNames y; with_reducible refine keeps_cut (s := y) ?_ ?_; unfold y; clear y; rotate_left; intro hy; clear_value y; revert y; intros)
    | with_reducible refine keeps_upd (by with_reducible assumption)
    | (extract_lets +onlyGivenNames y; clear_value y; revert y; intros)
    | with_reducible refine keeps_upd ?_

theorem wake_keeps (h : Keeps q s) : Keeps q (State.wake s a1 a2 a3 a4 a5) := by
  unfold State.wake
  repeat' first
    | with_reducible assumption
    | (extract_lets +onlyGivenNames y; with_reducible refine keeps_cut (s := y) ?_ ?_; unfold y; clear y; rotate_left; intro hy; clear_value y; revert y; intros)
    | with_reducible refine keeps_upd (by with_reducible assumption)
    | (extract_lets +onlyGivenNames y; clear_value y; revert y; intros)
    | with_reducible apply answer_keeps
    | with_reducible refine keeps_foldl ?_ (fun _ _ hs => ?_)
    | intro _ _ hs
    | intro _ hs
    | intro hs
    | with_reducible refine keeps_upd ?_

theorem closeSession_keeps (h : Keeps q s) : Keeps q (State.closeSession s a1) := by
  unfold State.closeSession
  repeat' first
    | with_reducible assumption
    | (extract_lets +onlyGivenNames y; with_reducible refine keeps_cut (s := y) ?_ ?_; unfold y; clear y; rotate_left; intro hy; clear_value y; revert y; intros)
    | with_reducible refine keeps_upd (by with_reducible assumption)
    | (extract_lets +onlyGivenNames y; clear_value y; revert y; intros)
    | with_reducible refine keeps_ite ?_ ?_
    | with_reducible apply wr_keeps
    | with_reducible apply emit_keeps
    | intro _ _ hs
    | intro _ hs
    | intro hs
    | split
    | with_reducible refine keeps_fst (by with_reducible assumption) ?_
    | with_reducible refine keeps_upd ?_

theorem notice_keeps (h : Keeps q s) : Keeps q (State.notice s a1 a2) := by
  unfold State.notice
  repeat' first
    | with_reducible assumption
    | with_reducible apply closeSession_keeps
    | with_reducible apply emit_keeps

theorem command_keeps (h : Keeps q s) (hf : ∀ s, Keeps q s → Keeps q (f s)) : Keeps q (State.command s a1 a2 f) := by
  unfold State.command
  repeat' first
    | with_reducible assumption
    | (extract_lets +onlyGivenNames y; with_reducible refine keeps_cut (s := y) ?_ ?_; unfold y; clear y; rotate_left; intro hy; clear_value y; revert y; intros)
    | with_reducible refine keeps_upd (by with_reducible assumption)
    | (extract_lets +onlyGivenNames y; clear_value y; revert y; intros)
    | with_reducible refine keeps_ite ?_ ?_
    | with_reducible apply closeSession_keeps
    | with_reducible apply reply_keeps
    | with_reducible apply takeReq_keeps
    | with_reducible apply emit_keeps
    | with_reducible apply updSession_keeps
    | with_reducible apply hf
    | intro _ _ hs
    | intro _ hs
    | intro hs
    | split
    | with_reducible refine keeps_fst (by with_reducible assumption) ?_
    | with_reducible refine keeps_upd ?_

theorem updChan_keeps (h : Keeps q s) : Keeps q (State.updChan s a1 a2) := by
  unfold State.updChan
  repeat' first
    | with_reducible assumption
    | (extract_lets +onlyGivenNames y; with_reducible refine keeps_cut (s := y) ?_ ?_; unfold y; clear y; rotate_left; intro hy; clear_value y; revert y; intros)
    | with_reducible refine keeps_upd (by with_reducible assumption)
    | (extract_lets +onlyGivenNames y; clear_value y; revert y; intros)
    | with_reducible refine keeps_upd ?_

theorem updGroup_keeps (h : Keeps q s) : Keeps q (State.updGroup s a1 a2) := by
  unfold State.updGroup
  repeat' first
    | with_reducible assumption
    | (extract_lets +onlyGivenNames y; with_reducible refine keeps_cut (s := y) ?_ ?_; unfold y; clear y; rotate_left; intro hy; clear_value y; revert y; intros)
    | with_reducible refine keeps_upd (by with_reducible assumption)
    | (extract_lets +onlyGivenNames y; clear_value y; revert y; intros)
    | with_reducible refine keeps_upd ?_

theorem driveChans_keeps (h : Keeps q s) : Keeps q (State.driveChans s) := by
  unfold State.driveChans
  repeat' first
    | with_reducible assumption
    | (extract_lets +onlyGivenNames y; with_reducible refine keeps_cut (s := y) ?_ ?_; unfold y; clear y; rotate_left; intro hy; clear_value y; revert y; intros)
    | with_reducible refine keeps_upd (by with_reducible assumption)
    | (extract_lets +onlyGivenNames y; clear_value y; revert y; intros)
    | with_reducible refine keeps_ite ?_ ?_
    | with_reducible apply updChan_keeps
    | with_reducible refine keeps_foldl ?_ (fun _ _ hs => ?_)
    | intro _ _ hs
    | intro _ hs
    | intro hs
    | split
    | with_reducible refine keeps_upd ?_

theorem driveDos_keeps (h : Keeps q s) : Keeps q (State.driveDos s) := by
  unfold State.driveDos
  repeat' first
    | with_reducible assumption
    | (extract_lets +onlyGivenNames y; with_reducible refine keeps_cut (s := y) ?_ ?_; unfold y; clear y; rotate_left; intro hy; clear_value y; revert y; intros)
    | with_reducible refine keeps_upd (by with_reducible assumption)
    | (extract_lets +onlyGivenNames y; clear_value y; revert y; intros)
    | with_reducible refine keeps_ite ?_ ?_
    | with_reducible apply wr_keeps
    | intro _ _ hs
    | intro _ hs
    | intro hs
    | split
    | with_reducible refine keeps_upd ?_

theorem driveAll_keeps (h : Keeps q s) : Keeps q (State.driveAll s) := by
  unfold State.driveAll
  repeat' first
    | with_reducible assumption
    | with_reducible apply driveDos_keeps
    | with_reducible apply driveChans_keeps

theorem safeLine_keeps (h : Keeps q s) : Keeps q (State.safeLine s a1) := by
  unfold State.safeLine
  repeat' first
    | with_reducible assumption
    | with_reducible refine keeps_ite ?_ ?_
    | with_reducible apply driveAll_keeps
    | with_reducible apply wr_keeps
    | split

theorem tripLatch_keeps (h : Keeps q s) : Keeps q (State.tripLatch s a1 a2) := by
  unfold State.tripLatch
  repeat' first
    | with_reducible assumption
    | (extract_lets +onlyGivenNames y; with_reducible refine keeps_cut (s := y) ?_ ?_; unfold y; clear y; rotate_left; intro hy; clear_value y; revert y; intros)
    | (extract_lets +onlyGivenNames y; clear_value y; revert y; intros)
    | with_reducible refine keeps_ite ?_ ?_
    | with_reducible apply wr_keeps
    | with_reducible apply inc_keeps
    | split
    | with_reducible refine keeps_fst (by with_reducible assumption) ?_

theorem evalTrips_keeps (h : Keeps q s) : Keeps q (State.evalTrips s a1) := by
  unfold State.evalTrips
  repeat' first
    | with_reducible assumption
    | (extract_lets +onlyGivenNames y; with_reducible refine keeps_cut (s := y) ?_ ?_; unfold y; clear y; rotate_left; intro hy; clear_value y; revert y; intros)
    | (extract_lets +onlyGivenNames y; clear_value y; revert y; intros)
    | with_reducible refine keeps_ite ?_ ?_
    | with_reducible apply tripLatch_keeps
    | with_reducible apply wr_keeps
    | with_reducible apply driveDos_keeps
    | with_reducible refine keeps_foldl ?_ (fun _ _ hs => ?_)
    | intro _ _ hs
    | intro _ hs
    | intro hs
    | split

theorem hsLevels_keeps (h : Keeps q s) : Keeps q (State.hsLevels s) := by
  unfold State.hsLevels
  repeat' first
    | with_reducible assumption
    | (extract_lets +onlyGivenNames y; with_reducible refine keeps_cut (s := y) ?_ ?_; unfold y; clear y; rotate_left; intro hy; clear_value y; revert y; intros)
    | (extract_lets +onlyGivenNames y; clear_value y; revert y; intros)
    | with_reducible refine keeps_ite ?_ ?_
    | with_reducible apply wr_keeps
    | with_reducible apply notify_keeps
    | with_reducible apply journal_keeps
    | with_reducible refine keeps_foldl ?_ (fun _ _ hs => ?_)
    | intro _ _ hs
    | intro _ hs
    | intro hs
    | split

theorem hsUse_keeps (h : Keeps q s) : Keeps q (State.hsUse s a1) := by
  unfold State.hsUse
  repeat' first
    | with_reducible assumption
    | (extract_lets +onlyGivenNames y; with_reducible refine keeps_cut (s := y) ?_ ?_; unfold y; clear y; rotate_left; intro hy; clear_value y; revert y; intros)
    | (extract_lets +onlyGivenNames y; clear_value y; revert y; intros)
    | with_reducible apply inc_keeps
    | with_reducible apply hsLevels_keeps
    | with_reducible apply wr_keeps

theorem suppressMarker_keeps (h : Keeps q s) : Keeps q (State.suppressMarker s) := by
  unfold State.suppressMarker
  repeat' first
    | with_reducible assumption
    | (extract_lets +onlyGivenNames y; with_reducible refine keeps_cut (s := y) ?_ ?_; unfold y; clear y; rotate_left; intro hy; clear_value y; revert y; intros)
    | with_reducible refine keeps_upd (by with_reducible assumption)
    | (extract_lets +onlyGivenNames y; clear_value y; revert y; intros)
    | with_reducible refine keeps_ite ?_ ?_
    | split
    | with_reducible refine keeps_upd ?_

/-! ### TimeBase -/

theorem refTo_keeps (h : Keeps q s) : Keeps q (State.refTo s a1) := by
  unfold State.refTo
  repeat' first
    | with_reducible assumption
    | (extract_lets +onlyGivenNames y; with_reducible refine keeps_cut (s := y) ?_ ?_; unfold y; clear y; rotate_left; intro hy; clear_value y; revert y; intros)
    | (extract_lets +onlyGivenNames y; with_reducible refine keeps_tbid y ?_; revert y; intro _)
    | (with_reducible refine keeps_tb ?_; with_reducible assumption)
    | (with_reducible refine keeps_tb2 (t := s) ?_ ?_ <;> with_reducible assumption)
    | with_reducible refine keeps_upd (by with_reducible assumption)
    | (extract_lets +onlyGivenNames y; clear_value y; revert y; intros)
    | with_reducible apply wr_keeps
    | with_reducible refine keeps_upd ?_

theorem extLost_keeps (h : Keeps q s) : Keeps q (State.extLost s) := by
  unfold State.extLost
  repeat' first
    | with_reducible assumption
    | with_reducible apply wr_keeps
    | with_reducible apply refTo_keeps

theorem execUnplannedOscSwitch_keeps (h : Keeps q s) : KeepsN q (execUnplannedOscSwitch s) := by
  unfold execUnplannedOscSwitch
  repeat' first
    | with_reducible assumption
    | with_reducible refine keepsN_next ?_
    | (extract_lets +onlyGivenNames y; with_reducible refine keeps_cut (s := y) ?_ ?_; unfold y; clear y; rotate_left; intro hy; clear_value y; revert y; intros)
    | with_reducible refine keeps_upd (by with_reducible assumption)
    | (extract_lets +onlyGivenNames y; clear_value y; revert y; intros)
    | with_reducible apply journal_keeps
    | with_reducible apply hsUse_keeps
    | with_reducible apply wr_keeps
    | with_reducible apply refTo_keeps
    | with_reducible apply extLost_keeps
    | split
    | with_reducible refine keeps_fst (by with_reducible assumption) ?_
    | with_reducible refine keeps_upd ?_

theorem orderOsc_keeps (h : Keeps q s) : Keeps q (State.orderOsc s a1) := by
  unfold State.orderOsc
  repeat' first
    | with_reducible assumption
    | (extract_lets +onlyGivenNames y; with_reducible refine keeps_cut (s := y) ?_ ?_; unfold y; clear y; rotate_left; intro hy; clear_value y; revert y; intros)
    | (extract_lets +onlyGivenNames y; with_reducible refine keeps_tbid y ?_; revert y; intro _)
    | (with_reducible refine keeps_tb ?_; with_reducible assumption)
    | (with_reducible refine keeps_tb2 (t := s) ?_ ?_ <;> with_reducible assumption)
    | with_reducible refine keeps_upd (by with_reducible assumption)
    | (extract_lets +onlyGivenNames y; clear_value y; revert y; intros)
    | with_reducible refine keeps_upd ?_

theorem execPlannedOscSwitch_keeps (h : Keeps q s) : KeepsN q (execPlannedOscSwitch s) := by
  unfold execPlannedOscSwitch
  repeat' first
    | with_reducible assumption
    | with_reducible refine keepsN_next ?_
    | (extract_lets +onlyGivenNames y; with_reducible refine keeps_cut (s := y) ?_ ?_; unfold y; clear y; rotate_left; intro hy; clear_value y; revert y; intros)
    | with_reducible refine keeps_upd (by with_reducible assumption)
    | (extract_lets +onlyGivenNames y; clear_value y; revert y; intros)
    | with_reducible refine keeps_ite ?_ ?_
    | with_reducible refine keepsN_ite ?_ ?_
    | with_reducible apply wr_keeps
    | with_reducible apply refTo_keeps
    | with_reducible apply toFrc_keeps
    | split
    | with_reducible refine keeps_fst (by with_reducible assumption) ?_
    | with_reducible refine keeps_upd ?_

theorem refSel_keeps (h : Keeps q s) : Keeps q (State.refSel s a1) := by
  unfold State.refSel
  repeat' first
    | with_reducible assumption
    | (extract_lets +onlyGivenNames y; with_reducible refine keeps_cut (s := y) ?_ ?_; unfold y; clear y; rotate_left; intro hy; clear_value y; revert y; intros)
    | (extract_lets +onlyGivenNames y; with_reducible refine keeps_tbid y ?_; revert y; intro _)
    | (with_reducible refine keeps_tb ?_; with_reducible assumption)
    | (with_reducible refine keeps_tb2 (t := s) ?_ ?_ <;> with_reducible assumption)
    | with_reducible refine keeps_upd (by with_reducible assumption)
    | (extract_lets +onlyGivenNames y; clear_value y; revert y; intros)
    | with_reducible refine keeps_ite ?_ ?_
    | with_reducible apply wr_keeps
    | with_reducible apply orderOsc_keeps
    | split
    | with_reducible refine keeps_fst (by with_reducible assumption) ?_
    | with_reducible refine keeps_upd ?_

theorem execRefSelWrite_keeps (h : Keeps q s) : KeepsN q (execRefSelWrite a1 s) := by
  unfold execRefSelWrite
  repeat' first
    | with_reducible assumption
    | with_reducible refine keepsN_next ?_
    | with_reducible apply refSel_keeps

theorem execExternalLock_keeps (h : Keeps q s) : KeepsN q (execExternalLock s) := by
  unfold execExternalLock
  repeat' first
    | with_reducible assumption
    | with_reducible refine keepsN_next ?_
    | (extract_lets +onlyGivenNames y; with_reducible refine keeps_cut (s := y) ?_ ?_; unfold y; clear y; rotate_left; intro hy; clear_value y; revert y; intros)
    | (extract_lets +onlyGivenNames y; with_reducible refine keeps_tbid y ?_; revert y; intro _)
    | (with_reducible refine keeps_tb ?_; with_reducible assumption)
    | (with_reducible refine keeps_tb2 (t := s) ?_ ?_ <;> with_reducible assumption)
    | with_reducible refine keeps_upd (by with_reducible assumption)
    | (extract_lets +onlyGivenNames y; clear_value y; revert y; intros)
    | with_reducible refine keeps_ite ?_ ?_
    | with_reducible refine keepsN_ite ?_ ?_
    | with_reducible apply wr_keeps
    | split
    | with_reducible refine keeps_upd ?_

theorem execExternalRefLost_keeps (h : Keeps q s) : KeepsN q (execExternalRefLost s) := by
  unfold execExternalRefLost
  repeat' first
    | with_reducible assumption
    | with_reducible refine keepsN_next ?_
    | with_reducible refine keeps_ite ?_ ?_
    | with_reducible refine keepsN_ite ?_ ?_
    | with_reducible apply extLost_keeps
    | split

theorem snap_keeps (h : Keeps q s) : Keeps q (State.snap s) := by
  unfold State.snap
  repeat' first
    | with_reducible assumption
    | (extract_lets +onlyGivenNames y; with_reducible refine keeps_cut (s := y) ?_ ?_; unfold y; clear y; rotate_left; intro hy; clear_value y; revert y; intros)
    | (extract_lets +onlyGivenNames y; clear_value y; revert y; intros)
    | with_reducible apply wr64_keeps
    | with_reducible apply wr_keeps

theorem execSnap_keeps (h : Keeps q s) : KeepsN q (execSnap s) := by
  unfold execSnap
  repeat' first
    | with_reducible assumption
    | with_reducible refine keepsN_next ?_
    | with_reducible apply snap_keeps

theorem execFrcLoRead_keeps (h : Keeps q s) : KeepsN q (execFrcLoRead s) := by
  unfold execFrcLoRead
  repeat' first
    | with_reducible assumption
    | with_reducible refine keepsN_next ?_
    | (extract_lets +onlyGivenNames y; with_reducible refine keeps_cut (s := y) ?_ ?_; unfold y; clear y; rotate_left; intro hy; clear_value y; revert y; intros)
    | (extract_lets +onlyGivenNames y; with_reducible refine keeps_tbid y ?_; revert y; intro _)
    | (with_reducible refine keeps_tb ?_; with_reducible assumption)
    | (with_reducible refine keeps_tb2 (t := s) ?_ ?_ <;> with_reducible assumption)
    | with_reducible refine keeps_upd (by with_reducible assumption)
    | (extract_lets +onlyGivenNames y; clear_value y; revert y; intros)
    | with_reducible refine keeps_upd ?_

theorem setInc_keeps (h : Keeps q s) : Keeps q (State.setInc s a1) := by
  unfold State.setInc
  repeat' first
    | with_reducible assumption
    | (extract_lets +onlyGivenNames y; with_reducible refine keeps_cut (s := y) ?_ ?_; unfold y; clear y; rotate_left; intro hy; clear_value y; revert y; intros)
    | (extract_lets +onlyGivenNames y; clear_value y; revert y; intros)
    | with_reducible refine keeps_ite ?_ ?_
    | with_reducible apply wr_keeps
    | split

theorem execTbIncWrite_keeps (h : Keeps q s) : KeepsN q (execTbIncWrite a1 a2 s) := by
  unfold execTbIncWrite
  repeat' first
    | with_reducible assumption
    | with_reducible refine keepsN_next ?_
    | with_reducible refine keeps_ite ?_ ?_
    | with_reducible refine keepsN_ite ?_ ?_
    | with_reducible apply wr_keeps
    | with_reducible apply setInc_keeps
    | split

theorem applyStep_keeps (h : Keeps q s) : Keeps q (State.applyStep s a1) := by
  unfold State.applyStep
  repeat' first
    | with_reducible assumption
    | (extract_lets +onlyGivenNames y; with_reducible refine keeps_cut (s := y) ?_ ?_; unfold y; clear y; rotate_left; intro hy; clear_value y; revert y; intros)
    | (extract_lets +onlyGivenNames y; with_reducible refine keeps_tbid y ?_; revert y; intro _)
    | (with_reducible refine keeps_tb ?_; with_reducible assumption)
    | (with_reducible refine keeps_tb2 (t := s) ?_ ?_ <;> with_reducible assumption)
    | with_reducible refine keeps_upd (by with_reducible assumption)
    | (extract_lets +onlyGivenNames y; clear_value y; revert y; intros)
    | with_reducible apply wr_keeps
    | with_reducible refine keeps_upd ?_

theorem todNow_keeps (h : Keeps q s) : Keeps q (State.todNow s) := by
  unfold State.todNow
  repeat' first
    | with_reducible assumption
    | with_reducible apply applyStep_keeps

theorem execTodsetNow_keeps (h : Keeps q s) : KeepsN q (execTodsetNow s) := by
  unfold execTodsetNow
  repeat' first
    | with_reducible assumption
    | with_reducible refine keepsN_next ?_
    | with_reducible refine keeps_ite ?_ ?_
    | with_reducible refine keepsN_ite ?_ ?_
    | with_reducible apply wr_keeps
    | with_reducible apply todNow_keeps
    | split

theorem todArm_keeps (h : Keeps q s) : Keeps q (State.todArm s a1) := by
  unfold State.todArm
  repeat' first
    | with_reducible assumption
    | (extract_lets +onlyGivenNames y; with_reducible refine keeps_cut (s := y) ?_ ?_; unfold y; clear y; rotate_left; intro hy; clear_value y; revert y; intros)
    | (extract_lets +onlyGivenNames y; with_reducible refine keeps_tbid y ?_; revert y; intro _)
    | (with_reducible refine keeps_tb ?_; with_reducible assumption)
    | (with_reducible refine keeps_tb2 (t := s) ?_ ?_ <;> with_reducible assumption)
    | with_reducible refine keeps_upd (by with_reducible assumption)
    | (extract_lets +onlyGivenNames y; clear_value y; revert y; intros)
    | with_reducible refine keeps_ite ?_ ?_
    | with_reducible apply wr_keeps
    | split
    | with_reducible refine keeps_upd ?_

theorem execTodsetArm_keeps (h : Keeps q s) : KeepsN q (execTodsetArm s) := by
  unfold execTodsetArm
  repeat' first
    | with_reducible assumption
    | with_reducible refine keepsN_next ?_
    | with_reducible refine keeps_ite ?_ ?_
    | with_reducible refine keepsN_ite ?_ ?_
    | with_reducible apply wr_keeps
    | with_reducible apply todArm_keeps
    | split

theorem execTodStepApply_keeps (h : Keeps q s) : KeepsN q (execTodStepApply s) := by
  unfold execTodStepApply
  repeat' first
    | with_reducible assumption
    | with_reducible refine keepsN_next ?_
    | (extract_lets +onlyGivenNames y; with_reducible refine keeps_cut (s := y) ?_ ?_; unfold y; clear y; rotate_left; intro hy; clear_value y; revert y; intros)
    | with_reducible refine keeps_upd (by with_reducible assumption)
    | (extract_lets +onlyGivenNames y; clear_value y; revert y; intros)
    | with_reducible refine keeps_ite ?_ ?_
    | with_reducible refine keepsN_ite ?_ ?_
    | with_reducible apply applyStep_keeps
    | with_reducible apply toFrc_keeps
    | with_reducible apply wr_keeps
    | split
    | with_reducible refine keeps_fst (by with_reducible assumption) ?_
    | with_reducible refine keeps_upd ?_

theorem execFramePeriodWrite_keeps (h : Keeps q s) : KeepsN q (execFramePeriodWrite a1 s) := by
  unfold execFramePeriodWrite
  repeat' first
    | with_reducible assumption
    | with_reducible refine keepsN_next ?_
    | (extract_lets +onlyGivenNames y; with_reducible refine keeps_cut (s := y) ?_ ?_; unfold y; clear y; rotate_left; intro hy; clear_value y; revert y; intros)
    | (extract_lets +onlyGivenNames y; clear_value y; revert y; intros)
    | with_reducible refine keeps_ite ?_ ?_
    | with_reducible refine keepsN_ite ?_ ?_
    | with_reducible apply wr_keeps
    | split

theorem execLgConfigWrite_keeps (h : Keeps q s) : KeepsN q (execLgConfigWrite a1 a2 a3 s) := by
  unfold execLgConfigWrite
  repeat' first
    | with_reducible assumption
    | with_reducible refine keepsN_next ?_
    | (extract_lets +onlyGivenNames y; with_reducible refine keeps_cut (s := y) ?_ ?_; unfold y; clear y; rotate_left; intro hy; clear_value y; revert y; intros)
    | (extract_lets +onlyGivenNames y; with_reducible refine keeps_cutH (f := y) ?_ ?_; unfold y; clear y; rotate_left; intro hy; clear_value y; revert y; intro fH hH)
    | with_reducible refine keeps_upd (by with_reducible assumption)
    | (extract_lets +onlyGivenNames y; clear_value y; revert y; intros)
    | with_reducible refine keeps_ite ?_ ?_
    | with_reducible refine keepsN_ite ?_ ?_
    | with_reducible apply hH
    | with_reducible apply wr_keeps
    | intro _ _ hs
    | intro _ hs
    | intro hs
    | split
    | with_reducible refine keeps_fst (by with_reducible assumption) ?_
    | with_reducible refine keeps_upd ?_

theorem execLgMemberWrite_keeps (h : Keeps q s) : KeepsN q (execLgMemberWrite a1 a2 s) := by
  unfold execLgMemberWrite
  repeat' first
    | with_reducible assumption
    | with_reducible refine keepsN_next ?_
    | with_reducible refine keeps_ite ?_ ?_
    | with_reducible refine keepsN_ite ?_ ?_
    | with_reducible apply wr_keeps
    | split

theorem lgArm_keeps (h : Keeps q s) : Keeps q (State.lgArm s a1) := by
  unfold State.lgArm
  repeat' first
    | with_reducible assumption
    | (extract_lets +onlyGivenNames y; with_reducible refine keeps_cut (s := y) ?_ ?_; unfold y; clear y; rotate_left; intro hy; clear_value y; revert y; intros)
    | (extract_lets +onlyGivenNames y; with_reducible refine keeps_tbid y ?_; revert y; intro _)
    | (with_reducible refine keeps_tb ?_; with_reducible assumption)
    | (with_reducible refine keeps_tb2 (t := s) ?_ ?_ <;> with_reducible assumption)
    | with_reducible refine keeps_upd (by with_reducible assumption)
    | (extract_lets +onlyGivenNames y; clear_value y; revert y; intros)
    | with_reducible refine keeps_ite ?_ ?_
    | with_reducible apply wr_keeps
    | split
    | with_reducible refine keeps_upd ?_

theorem execLgOneShotArm_keeps (h : Keeps q s) : KeepsN q (execLgOneShotArm a1 s) := by
  unfold execLgOneShotArm
  repeat' first
    | with_reducible assumption
    | with_reducible refine keepsN_next ?_
    | with_reducible refine keeps_ite ?_ ?_
    | with_reducible refine keepsN_ite ?_ ?_
    | with_reducible apply lgArm_keeps
    | split

theorem execPpsInEdge_keeps (h : Keeps q s) : KeepsN q (execPpsInEdge a1 s) := by
  unfold execPpsInEdge
  repeat' first
    | with_reducible assumption
    | with_reducible refine keepsN_next ?_
    | (extract_lets +onlyGivenNames y; with_reducible refine keeps_cut (s := y) ?_ ?_; unfold y; clear y; rotate_left; intro hy; clear_value y; revert y; intros)
    | (extract_lets +onlyGivenNames y; with_reducible refine keeps_tbid y ?_; revert y; intro _)
    | (with_reducible refine keeps_tb ?_; with_reducible assumption)
    | (with_reducible refine keeps_tb2 (t := s) ?_ ?_ <;> with_reducible assumption)
    | with_reducible refine keeps_upd (by with_reducible assumption)
    | (extract_lets +onlyGivenNames y; clear_value y; revert y; intros)
    | with_reducible refine keeps_ite ?_ ?_
    | with_reducible refine keepsN_ite ?_ ?_
    | with_reducible apply wr64_keeps
    | with_reducible apply wr_keeps
    | intro _ _ hs
    | intro _ hs
    | intro hs
    | split
    | with_reducible refine keeps_fst (by with_reducible assumption) ?_
    | with_reducible refine keeps_upd ?_

theorem ppsPulse_keeps (h : Keeps q s) : Keeps q (State.ppsPulse s a1 a2) := by
  unfold State.ppsPulse
  repeat' first
    | with_reducible assumption
    | (extract_lets +onlyGivenNames y; with_reducible refine keeps_cut (s := y) ?_ ?_; unfold y; clear y; rotate_left; intro hy; clear_value y; revert y; intros)
    | (extract_lets +onlyGivenNames y; with_reducible refine keeps_tbid y ?_; revert y; intro _)
    | (with_reducible refine keeps_tb ?_; with_reducible assumption)
    | (with_reducible refine keeps_tb2 (t := s) ?_ ?_ <;> with_reducible assumption)
    | with_reducible refine keeps_upd (by with_reducible assumption)
    | (extract_lets +onlyGivenNames y; clear_value y; revert y; intros)
    | with_reducible apply emit_keeps
    | with_reducible refine keeps_upd ?_

theorem execPpsOutPulse_keeps (h : Keeps q s) : KeepsN q (execPpsOutPulse s) := by
  unfold execPpsOutPulse
  repeat' first
    | with_reducible assumption
    | with_reducible refine keepsN_next ?_
    | (extract_lets +onlyGivenNames y; with_reducible refine keeps_cut (s := y) ?_ ?_; unfold y; clear y; rotate_left; intro hy; clear_value y; revert y; intros)
    | with_reducible refine keeps_upd (by with_reducible assumption)
    | (extract_lets +onlyGivenNames y; clear_value y; revert y; intros)
    | with_reducible refine keeps_ite ?_ ?_
    | with_reducible refine keepsN_ite ?_ ?_
    | with_reducible apply toFrc_keeps
    | with_reducible apply ppsPulse_keeps
    | split
    | with_reducible refine keeps_fst (by with_reducible assumption) ?_
    | with_reducible refine keeps_upd ?_

/-! ### Lattice -/

theorem updTile_keeps (h : Keeps q s) : Keeps q (State.updTile s a1 a2) := by
  unfold State.updTile
  repeat' first
    | with_reducible assumption
    | (extract_lets +onlyGivenNames y; with_reducible refine keeps_cut (s := y) ?_ ?_; unfold y; clear y; rotate_left; intro hy; clear_value y; revert y; intros)
    | with_reducible refine keeps_upd (by with_reducible assumption)
    | (extract_lets +onlyGivenNames y; clear_value y; revert y; intros)
    | with_reducible refine keeps_upd ?_

theorem setTsr_keeps (h : Keeps q s) : Keeps q (State.setTsr s a1 a2) := by
  unfold State.setTsr
  repeat' first
    | with_reducible assumption
    | with_reducible apply wr_keeps

theorem setTsrAt_keeps (h : Keeps q s) : Keeps q (State.setTsrAt s a1 a2) := by
  unfold State.setTsrAt
  repeat' first
    | with_reducible assumption
    | (extract_lets +onlyGivenNames y; with_reducible refine keeps_cut (s := y) ?_ ?_; unfold y; clear y; rotate_left; intro hy; clear_value y; revert y; intros)
    | with_reducible refine keeps_upd (by with_reducible assumption)
    | (extract_lets +onlyGivenNames y; clear_value y; revert y; intros)
    | with_reducible apply updTile_keeps
    | with_reducible apply setTsr_keeps
    | intro _ _ hs
    | intro _ hs
    | intro hs
    | split
    | with_reducible refine keeps_fst (by with_reducible assumption) ?_
    | with_reducible refine keeps_upd ?_

theorem landOne_keeps (h : Keeps q s) : Keeps q (State.landOne s a1 a2) := by
  unfold State.landOne
  repeat' first
    | with_reducible assumption
    | (extract_lets +onlyGivenNames y; with_reducible refine keeps_cut (s := y) ?_ ?_; unfold y; clear y; rotate_left; intro hy; clear_value y; revert y; intros)
    | with_reducible refine keeps_upd (by with_reducible assumption)
    | (extract_lets +onlyGivenNames y; clear_value y; revert y; intros)
    | with_reducible apply updTile_keeps
    | with_reducible apply setBytes_keeps
    | with_reducible apply setTsrAt_keeps
    | intro _ _ hs
    | intro _ hs
    | intro hs
    | split
    | with_reducible refine keeps_fst (by with_reducible assumption) ?_
    | with_reducible refine keeps_upd ?_

theorem land_keeps (h : Keeps q s) : Keeps q (State.land s a1 a2) := by
  unfold State.land
  repeat' first
    | with_reducible assumption
    | (extract_lets +onlyGivenNames y; with_reducible refine keeps_cut (s := y) ?_ ?_; unfold y; clear y; rotate_left; intro hy; clear_value y; revert y; intros)
    | with_reducible refine keeps_upd (by with_reducible assumption)
    | (extract_lets +onlyGivenNames y; clear_value y; revert y; intros)
    | with_reducible apply updTile_keeps
    | with_reducible apply landOne_keeps
    | with_reducible refine keeps_foldl ?_ (fun _ _ hs => ?_)
    | intro _ _ hs
    | intro _ hs
    | intro hs
    | with_reducible refine keeps_upd ?_

theorem landAll_keeps (h : Keeps q s) : Keeps q (State.landAll s a1) := by
  unfold State.landAll
  repeat' first
    | with_reducible assumption
    | with_reducible apply land_keeps

theorem pend_keeps (h : Keeps q s) : Keeps q (State.pend s a1 a2 a3 a4) := by
  unfold State.pend
  repeat' first
    | with_reducible assumption
    | (extract_lets +onlyGivenNames y; with_reducible refine keeps_cut (s := y) ?_ ?_; unfold y; clear y; rotate_left; intro hy; clear_value y; revert y; intros)
    | with_reducible refine keeps_upd (by with_reducible assumption)
    | (extract_lets +onlyGivenNames y; clear_value y; revert y; intros)
    | with_reducible apply updTile_keeps
    | intro _ _ hs
    | intro _ hs
    | intro hs
    | with_reducible refine keeps_upd ?_

theorem flag_keeps (h : Keeps q s) : Keeps q (State.flag s a1 a2 a3) := by
  unfold State.flag
  repeat' first
    | with_reducible assumption
    | with_reducible refine keeps_ite ?_ ?_
    | with_reducible apply pend_keeps
    | split

theorem shadowHashes_keeps (h : Keeps q s) : Keeps q (State.shadowHashes s a1 a2) := by
  unfold State.shadowHashes
  repeat' first
    | with_reducible assumption
    | (extract_lets +onlyGivenNames y; with_reducible refine keeps_cut (s := y) ?_ ?_; unfold y; clear y; rotate_left; intro hy; clear_value y; revert y; intros)
    | with_reducible refine keeps_upd (by with_reducible assumption)
    | (extract_lets +onlyGivenNames y; clear_value y; revert y; intros)
    | with_reducible refine keeps_ite ?_ ?_
    | with_reducible apply land_keeps
    | with_reducible refine keeps_foldl ?_ (fun _ _ hs => ?_)
    | intro _ _ hs
    | intro _ hs
    | intro hs
    | split
    | with_reducible refine keeps_upd ?_

theorem absorb_keeps (h : Keeps q s) : Keeps q (State.absorb s a1 a2 a3) := by
  unfold State.absorb
  repeat' first
    | with_reducible assumption
    | (extract_lets +onlyGivenNames y; with_reducible refine keeps_cut (s := y) ?_ ?_; unfold y; clear y; rotate_left; intro hy; clear_value y; revert y; intros)
    | with_reducible refine keeps_upd (by with_reducible assumption)
    | (extract_lets +onlyGivenNames y; clear_value y; revert y; intros)
    | with_reducible refine keeps_upd ?_

theorem tap_keeps (h : Keeps q s) : Keeps q (State.tap s a1 a2) := by
  unfold State.tap
  repeat' first
    | with_reducible assumption
    | (extract_lets +onlyGivenNames y; with_reducible refine keeps_cut (s := y) ?_ ?_; unfold y; clear y; rotate_left; intro hy; clear_value y; revert y; intros)
    | with_reducible refine keeps_upd (by with_reducible assumption)
    | (extract_lets +onlyGivenNames y; clear_value y; revert y; intros)
    | with_reducible refine keeps_ite ?_ ?_
    | with_reducible refine keeps_foldl ?_ (fun _ _ hs => ?_)
    | intro _ _ hs
    | intro _ hs
    | intro hs
    | split
    | with_reducible refine keeps_fst (by with_reducible assumption) ?_
    | with_reducible refine keeps_upd ?_

theorem portA_keeps (h : Keeps q s) : Keeps q (State.portA s a1 a2 a3 a4) := by
  unfold State.portA
  repeat' first
    | with_reducible assumption
    | (extract_lets +onlyGivenNames y; with_reducible refine keeps_cut (s := y) ?_ ?_; unfold y; clear y; rotate_left; intro hy; clear_value y; revert y; intros)
    | (extract_lets +onlyGivenNames y; clear_value y; revert y; intros)
    | with_reducible apply absorb_keeps
    | with_reducible apply tap_keeps
    | with_reducible apply setBytes_keeps

theorem bankEcc_keeps (h : Keeps q s) : Keeps q (State.bankEcc s a1 a2) := by
  unfold State.bankEcc
  repeat' first
    | with_reducible assumption
    | (extract_lets +onlyGivenNames y; with_reducible refine keeps_cut (s := y) ?_ ?_; unfold y; clear y; rotate_left; intro hy; clear_value y; revert y; intros)
    | with_reducible refine keeps_upd (by with_reducible assumption)
    | (extract_lets +onlyGivenNames y; clear_value y; revert y; intros)
    | with_reducible refine keeps_ite ?_ ?_
    | with_reducible apply inc_keeps
    | with_reducible apply suppressMarker_keeps
    | with_reducible apply wr_keeps
    | split
    | with_reducible refine keeps_fst (by with_reducible assumption) ?_
    | with_reducible refine keeps_upd ?_

theorem tileEcc_keeps (h : Keeps q s) : Keeps q (State.tileEcc s a1 a2 a3) := by
  cases a3
  · exact h
  · exact inc_keeps (flag_keeps h)
  · exact suppressMarker_keeps (flag_keeps h)

theorem loadEcc_keeps (h : Keeps q s) : Keeps q (State.loadEcc s a1 a2 a3 a4) := by
  unfold State.loadEcc
  repeat' first
    | with_reducible assumption
    | (extract_lets +onlyGivenNames y; with_reducible refine keeps_cut (s := y) ?_ ?_; unfold y; clear y; rotate_left; intro hy; clear_value y; revert y; intros)
    | with_reducible refine keeps_upd (by with_reducible assumption)
    | (extract_lets +onlyGivenNames y; clear_value y; revert y; intros)
    | with_reducible apply bankEcc_keeps
    | with_reducible apply flag_keeps
    | split
    | with_reducible refine keeps_fst (by with_reducible assumption) ?_
    | with_reducible refine keeps_upd ?_

theorem eccData_keeps (h : Keeps q s) : Keeps q (State.eccData s a1 a2).1 := by
  unfold State.eccData
  repeat' first
    | with_reducible assumption
    | with_reducible refine keeps_ite ?_ ?_
    | with_reducible apply nextFree_keeps
    | split

theorem bus_keeps (h : Keeps q s) : Keeps q (State.bus s a1 a2 a3) := by
  unfold State.bus
  repeat' first
    | with_reducible assumption
    | (extract_lets +onlyGivenNames y; with_reducible refine keeps_cut (s := y) ?_ ?_; unfold y; clear y; rotate_left; intro hy; clear_value y; revert y; intros)
    | with_reducible refine keeps_upd (by with_reducible assumption)
    | (extract_lets +onlyGivenNames y; clear_value y; revert y; intros)
    | with_reducible refine keeps_ite ?_ ?_
    | split
    | with_reducible refine keeps_upd ?_

theorem deliver_keeps (h : Keeps q s) : Keeps q (State.deliver s a1 a2 a3 a4) := by
  unfold State.deliver
  repeat' first
    | with_reducible assumption
    | with_reducible apply pend_keeps
    | with_reducible refine keeps_foldl ?_ (fun _ _ hs => ?_)
    | intro _ _ hs
    | intro _ hs
    | intro hs

theorem setBusy_keeps (h : Keeps q s) : Keeps q (State.setBusy s a1 a2) := by
  unfold State.setBusy
  repeat' first
    | with_reducible assumption
    | (extract_lets +onlyGivenNames y; with_reducible refine keeps_cut (s := y) ?_ ?_; unfold y; clear y; rotate_left; intro hy; clear_value y; revert y; intros)
    | with_reducible refine keeps_upd (by with_reducible assumption)
    | (extract_lets +onlyGivenNames y; clear_value y; revert y; intros)
    | with_reducible refine keeps_ite ?_ ?_
    | with_reducible apply wr_keeps
    | split
    | with_reducible refine keeps_fst (by with_reducible assumption) ?_
    | with_reducible refine keeps_upd ?_

theorem svShadow_keeps (h : Keeps q s) : Keeps q (State.svShadow s a1 a2) := by
  unfold State.svShadow
  repeat' first
    | with_reducible assumption
    | (extract_lets +onlyGivenNames y; with_reducible refine keeps_cut (s := y) ?_ ?_; unfold y; clear y; rotate_left; intro hy; clear_value y; revert y; intros)
    | (extract_lets +onlyGivenNames y; clear_value y; revert y; intros)
    | with_reducible refine keeps_ite ?_ ?_
    | with_reducible apply inc_keeps
    | with_reducible apply wr_keeps
    | intro _ _ hs
    | intro _ hs
    | intro hs
    | split

theorem loopStep_keeps (h : Keeps q s) : Keeps q (State.loopStep s a1 a2 a3) := by
  unfold State.loopStep
  repeat' first
    | with_reducible assumption
    | (extract_lets +onlyGivenNames y; with_reducible refine keeps_cut (s := y) ?_ ?_; unfold y; clear y; rotate_left; intro hy; clear_value y; revert y; intros)
    | (extract_lets +onlyGivenNames y; clear_value y; revert y; intros)
    | with_reducible refine keeps_ite ?_ ?_
    | with_reducible apply bus_keeps
    | with_reducible apply loopSample_keeps
    | with_reducible apply loopExecute_keeps
    | with_reducible apply suppressMarker_keeps
    | with_reducible apply loopStore_keeps
    | with_reducible apply loopFinish_keeps
    | intro _ _ hs
    | intro _ hs
    | intro hs
    | split

theorem waveStep_keeps (h : Keeps q s) : Keeps q (State.waveStep s a1 a2 a3) := by
  unfold State.waveStep
  repeat' first
    | with_reducible assumption
    | (extract_lets +onlyGivenNames y; with_reducible refine keeps_cut (s := y) ?_ ?_; unfold y; clear y; rotate_left; intro hy; clear_value y; revert y; intros)
    | with_reducible refine keeps_upd (by with_reducible assumption)
    | (extract_lets +onlyGivenNames y; clear_value y; revert y; intros)
    | with_reducible refine keeps_ite ?_ ?_
    | with_reducible apply waveLoad_keeps
    | with_reducible apply suppressMarker_keeps
    | with_reducible apply bus_keeps
    | with_reducible apply waveStore_keeps
    | intro _ _ hs
    | intro _ hs
    | intro hs
    | split
    | with_reducible refine keeps_fst (by with_reducible assumption) ?_
    | with_reducible refine keeps_upd ?_

theorem callFinish_keeps (h : Keeps q s) : Keeps q (State.callFinish s a1) := by
  unfold State.callFinish
  repeat' first
    | with_reducible assumption
    | (extract_lets +onlyGivenNames y; with_reducible refine keeps_cut (s := y) ?_ ?_; unfold y; clear y; rotate_left; intro hy; clear_value y; revert y; intros)
    | with_reducible refine keeps_upd (by with_reducible assumption)
    | (extract_lets +onlyGivenNames y; clear_value y; revert y; intros)
    | with_reducible apply setBusy_keeps
    | with_reducible apply loopDone_keeps
    | with_reducible apply absorb_keeps
    | with_reducible apply solverDone_keeps
    | with_reducible apply wr_keeps
    | with_reducible apply svShadow_keeps
    | intro _ _ hs
    | intro _ hs
    | intro hs
    | split
    | with_reducible refine keeps_fst (by with_reducible assumption) ?_
    | with_reducible refine keeps_upd ?_

theorem onCall_keeps (h : Keeps q s) (hf : ∀ c, Keeps q (f c)) : Keeps q (State.onCall s a1 a2 f) := by
  unfold State.onCall
  repeat' first
    | with_reducible assumption
    | (extract_lets +onlyGivenNames y; with_reducible refine keeps_cut (s := y) ?_ ?_; unfold y; clear y; rotate_left; intro hy; clear_value y; revert y; intros)
    | with_reducible refine keeps_upd (by with_reducible assumption)
    | (extract_lets +onlyGivenNames y; clear_value y; revert y; intros)
    | with_reducible apply hf
    | split
    | with_reducible refine keeps_fst (by with_reducible assumption) ?_
    | with_reducible refine keeps_upd ?_

theorem busAct_keeps (h : Keeps q s) : Keeps q (State.busAct s a1 a2) := by
  unfold State.busAct
  repeat' first
    | with_reducible assumption
    | (extract_lets +onlyGivenNames y; with_reducible refine keeps_cut (s := y) ?_ ?_; unfold y; clear y; rotate_left; intro hy; clear_value y; revert y; intros)
    | with_reducible refine keeps_upd (by with_reducible assumption)
    | (extract_lets +onlyGivenNames y; clear_value y; revert y; intros)
    | with_reducible refine keeps_ite ?_ ?_
    | with_reducible apply eccData_keeps
    | with_reducible apply loadEcc_keeps
    | with_reducible apply bus_keeps
    | with_reducible apply deliver_keeps
    | with_reducible apply portA_keeps
    | with_reducible apply setBytes_keeps
    | with_reducible apply bankEcc_keeps
    | with_reducible apply absorb_keeps
    | with_reducible apply shadowHashes_keeps
    | with_reducible apply setBusy_keeps
    | with_reducible apply onCall_keeps
    | with_reducible apply loopStep_keeps
    | with_reducible apply waveStep_keeps
    | with_reducible apply callFinish_keeps
    | with_reducible refine keeps_foldl ?_ (fun _ _ hs => ?_)
    | intro _ _ hs
    | intro _ hs
    | intro hs
    | split
    | with_reducible refine keeps_fst (by with_reducible assumption) ?_
    | with_reducible refine keeps_upd ?_

theorem settleN_keeps (h : Keeps q s) : Keeps q (State.settleN a1 s a2) := by
  induction a1 generalizing s with
  | zero => exact h
  | succ n ih =>
    unfold State.settleN
    split
    · exact h
    · split
      · exact ih (busAct_keeps (keeps_upd h))
      · exact h

theorem settle_keeps (h : Keeps q s) : Keeps q (State.settle s a1) := by
  unfold State.settle
  repeat' first
    | with_reducible assumption
    | with_reducible apply settleN_keeps

theorem settleThrough_keeps (h : Keeps q s) : Keeps q (State.settleThrough s a1) := by
  unfold State.settleThrough
  repeat' first
    | with_reducible assumption
    | with_reducible apply settle_keeps

theorem startIssue_keeps (h : Keeps q s) : Keeps q (State.startIssue s a1) := by
  unfold State.startIssue
  repeat' first
    | with_reducible assumption
    | (extract_lets +onlyGivenNames y; with_reducible refine keeps_cut (s := y) ?_ ?_; unfold y; clear y; rotate_left; intro hy; clear_value y; revert y; intros)
    | (extract_lets +onlyGivenNames y; clear_value y; revert y; intros)
    | with_reducible apply settle_keeps
    | with_reducible apply toCycle_keeps
    | with_reducible apply updTile_keeps
    | with_reducible apply land_keeps
    | with_reducible refine keeps_foldl ?_ (fun _ _ hs => ?_)
    | intro _ _ hs
    | intro _ hs
    | intro hs

theorem landNow_keeps (h : Keeps q s) : Keeps q (State.landNow s) := by
  unfold State.landNow
  repeat' first
    | with_reducible assumption
    | (extract_lets +onlyGivenNames y; with_reducible refine keeps_cut (s := y) ?_ ?_; unfold y; clear y; rotate_left; intro hy; clear_value y; revert y; intros)
    | (extract_lets +onlyGivenNames y; clear_value y; revert y; intros)
    | with_reducible refine keeps_ite ?_ ?_
    | with_reducible apply land_keeps
    | with_reducible apply settle_keeps
    | with_reducible refine keeps_foldl ?_ (fun _ _ hs => ?_)
    | intro _ _ hs
    | intro _ hs
    | intro hs
    | split

theorem issue_keeps (h : Keeps q s) (hf : ∀ s, Keeps q s → Keeps q (f s)) : KeepsN q (State.issue s a1 a2 f) := by
  unfold State.issue
  repeat' first
    | with_reducible assumption
    | with_reducible refine keepsN_next ?_
    | (extract_lets +onlyGivenNames y; with_reducible refine keeps_cut (s := y) ?_ ?_; unfold y; clear y; rotate_left; intro hy; clear_value y; revert y; intros)
    | with_reducible refine keeps_upd (by with_reducible assumption)
    | (extract_lets +onlyGivenNames y; clear_value y; revert y; intros)
    | with_reducible refine keeps_ite ?_ ?_
    | with_reducible refine keepsN_ite ?_ ?_
    | with_reducible exact keepsN_fault
    | with_reducible apply startIssue_keeps
    | with_reducible apply hf
    | split
    | with_reducible refine keeps_fst (by with_reducible assumption) ?_
    | with_reducible refine keeps_upd ?_

theorem runBusTo_keeps (h : Keeps q s) : Keeps q (State.runBusTo s a1) := by
  unfold State.runBusTo
  repeat' first
    | with_reducible assumption
    | (extract_lets +onlyGivenNames y; with_reducible refine keeps_cut (s := y) ?_ ?_; unfold y; clear y; rotate_left; intro hy; clear_value y; revert y; intros)
    | with_reducible refine keeps_upd (by with_reducible assumption)
    | (extract_lets +onlyGivenNames y; clear_value y; revert y; intros)
    | with_reducible apply settleThrough_keeps
    | with_reducible apply toCycle_keeps
    | intro _ _ hs
    | intro _ hs
    | intro hs
    | split
    | with_reducible refine keeps_fst (by with_reducible assumption) ?_
    | with_reducible refine keeps_upd ?_

/-! ### TileOps -/

theorem result_keeps (h : Keeps q s) : Keeps q (State.result s a1 a2 a3 a4 a5 a6) := by
  unfold State.result
  repeat' first
    | with_reducible assumption
    | with_reducible refine keeps_ite ?_ ?_
    | with_reducible apply flag_keeps
    | with_reducible apply pend_keeps
    | split

theorem eachTile_keeps (h : Keeps q s) (hf : ∀ s n, Keeps q s → Keeps q (f s n)) : Keeps q (State.eachTile s a1 f) := by
  exact keeps_foldl h (fun s n hs => hf s n hs)

theorem aluOp_keeps (h : Keeps q s) : Keeps q (State.aluOp s a1 a2 a3) := by
  unfold State.aluOp
  repeat' first
    | with_reducible assumption
    | with_reducible refine keeps_ite ?_ ?_
    | with_reducible apply pend_keeps
    | split

theorem execAluOp_keeps (h : Keeps q s) : KeepsN q (execAluOp a1 a2 s) := by
  unfold execAluOp
  repeat' first
    | with_reducible assumption
    | with_reducible refine keepsN_next ?_
    | with_reducible apply issue_keeps
    | with_reducible apply eachTile_keeps
    | with_reducible apply aluOp_keeps
    | intro _ _ hs
    | intro _ hs
    | intro hs

theorem execSatOp_keeps (h : Keeps q s) : KeepsN q (execSatOp a1 a2 s) := by
  unfold execSatOp
  repeat' first
    | with_reducible assumption
    | with_reducible refine keepsN_next ?_
    | with_reducible apply issue_keeps
    | with_reducible apply eachTile_keeps
    | with_reducible apply result_keeps
    | intro _ _ hs
    | intro _ hs
    | intro hs

theorem execMul_keeps (h : Keeps q s) : KeepsN q (execMul a1 a2 a3 a4 a5 s) := by
  unfold execMul
  repeat' first
    | with_reducible assumption
    | with_reducible refine keepsN_next ?_
    | with_reducible apply issue_keeps
    | with_reducible apply eachTile_keeps
    | with_reducible apply result_keeps
    | intro _ _ hs
    | intro _ hs
    | intro hs

theorem execMac_keeps (h : Keeps q s) : KeepsN q (execMac a1 a2 a3 a4 s) := by
  unfold execMac
  repeat' first
    | with_reducible assumption
    | with_reducible refine keepsN_next ?_
    | with_reducible apply issue_keeps
    | with_reducible apply eachTile_keeps
    | with_reducible apply pend_keeps
    | intro _ _ hs
    | intro _ hs
    | intro hs

theorem execAccrd_keeps (h : Keeps q s) : KeepsN q (execAccrd a1 a2 a3 a4 s) := by
  unfold execAccrd
  repeat' first
    | with_reducible assumption
    | with_reducible refine keepsN_next ?_
    | with_reducible apply issue_keeps
    | with_reducible apply eachTile_keeps
    | with_reducible apply result_keeps
    | intro _ _ hs
    | intro _ hs
    | intro hs

theorem useDiv_keeps (h : Keeps q s) : Keeps q (State.useDiv s a1 a2) := by
  unfold State.useDiv
  repeat' first
    | with_reducible assumption
    | (extract_lets +onlyGivenNames y; with_reducible refine keeps_cut (s := y) ?_ ?_; unfold y; clear y; rotate_left; intro hy; clear_value y; revert y; intros)
    | with_reducible refine keeps_upd (by with_reducible assumption)
    | (extract_lets +onlyGivenNames y; clear_value y; revert y; intros)
    | with_reducible apply updTile_keeps
    | intro _ _ hs
    | intro _ hs
    | intro hs
    | with_reducible refine keeps_upd ?_

theorem execDiv_keeps (h : Keeps q s) : KeepsN q (execDiv a1 a2 a3 a4 a5 s) := by
  unfold execDiv
  repeat' first
    | with_reducible assumption
    | with_reducible refine keepsN_next ?_
    | (extract_lets +onlyGivenNames y; with_reducible refine keeps_cut (s := y) ?_ ?_; unfold y; clear y; rotate_left; intro hy; clear_value y; revert y; intros)
    | (extract_lets +onlyGivenNames y; clear_value y; revert y; intros)
    | with_reducible apply issue_keeps
    | with_reducible apply eachTile_keeps
    | with_reducible apply result_keeps
    | with_reducible apply useDiv_keeps
    | intro _ _ hs
    | intro _ hs
    | intro hs

theorem execSqrt_keeps (h : Keeps q s) : KeepsN q (execSqrt a1 a2 a3 a4 s) := by
  unfold execSqrt
  repeat' first
    | with_reducible assumption
    | with_reducible refine keepsN_next ?_
    | with_reducible apply issue_keeps
    | with_reducible apply eachTile_keeps
    | with_reducible apply result_keeps
    | with_reducible apply useDiv_keeps
    | intro _ _ hs
    | intro _ hs
    | intro hs

theorem execBr_keeps (h : Keeps q s) : KeepsN q (execBr a1 a2 a3 s) := by
  unfold execBr
  repeat' first
    | with_reducible assumption
    | with_reducible refine keepsN_next ?_
    | (extract_lets +onlyGivenNames y; with_reducible refine keeps_cut (s := y) ?_ ?_; unfold y; clear y; rotate_left; intro hy; clear_value y; revert y; intros)
    | with_reducible refine keeps_upd (by with_reducible assumption)
    | (extract_lets +onlyGivenNames y; clear_value y; revert y; intros)
    | with_reducible refine keeps_ite ?_ ?_
    | with_reducible refine keepsN_ite ?_ ?_
    | with_reducible apply issue_keeps
    | with_reducible apply eachTile_keeps
    | with_reducible apply updTile_keeps
    | intro _ _ hs
    | intro _ hs
    | intro hs
    | split
    | with_reducible refine keeps_upd ?_

theorem execLoopn_keeps (h : Keeps q s) : KeepsN q (execLoopn a1 a2 a3 a4 s) := by
  unfold execLoopn
  repeat' first
    | with_reducible assumption
    | with_reducible refine keepsN_next ?_
    | (extract_lets +onlyGivenNames y; with_reducible refine keeps_cut (s := y) ?_ ?_; unfold y; clear y; rotate_left; intro hy; clear_value y; revert y; intros)
    | with_reducible refine keeps_upd (by with_reducible assumption)
    | (extract_lets +onlyGivenNames y; clear_value y; revert y; intros)
    | with_reducible apply issue_keeps
    | with_reducible apply eachTile_keeps
    | with_reducible apply updTile_keeps
    | intro _ _ hs
    | intro _ hs
    | intro hs
    | with_reducible refine keeps_upd ?_

theorem execWait_keeps (h : Keeps q s) : KeepsN q (execWait a1 a2 s) := by
  unfold execWait
  repeat' first
    | with_reducible assumption
    | with_reducible refine keepsN_next ?_
    | (extract_lets +onlyGivenNames y; with_reducible refine keeps_cut (s := y) ?_ ?_; unfold y; clear y; rotate_left; intro hy; clear_value y; revert y; intros)
    | with_reducible refine keeps_upd (by with_reducible assumption)
    | (extract_lets +onlyGivenNames y; clear_value y; revert y; intros)
    | with_reducible apply issue_keeps
    | with_reducible apply eachTile_keeps
    | with_reducible apply updTile_keeps
    | intro _ _ hs
    | intro _ hs
    | intro hs
    | with_reducible refine keeps_upd ?_

theorem execEndf_keeps (h : Keeps q s) : KeepsN q (execEndf a1 s) := by
  unfold execEndf
  repeat' first
    | with_reducible assumption
    | with_reducible refine keepsN_next ?_
    | (extract_lets +onlyGivenNames y; with_reducible refine keeps_cut (s := y) ?_ ?_; unfold y; clear y; rotate_left; intro hy; clear_value y; revert y; intros)
    | with_reducible refine keeps_upd (by with_reducible assumption)
    | (extract_lets +onlyGivenNames y; clear_value y; revert y; intros)
    | with_reducible refine keeps_ite ?_ ?_
    | with_reducible refine keepsN_ite ?_ ?_
    | with_reducible apply issue_keeps
    | with_reducible apply eachTile_keeps
    | with_reducible apply updTile_keeps
    | with_reducible apply bus_keeps
    | intro _ _ hs
    | intro _ hs
    | intro hs
    | split
    | with_reducible refine keeps_upd ?_

theorem localRead_keeps (h : Keeps q s) : Keeps q (State.localRead s a1 a2 a3 a4 a5 a6) := by
  unfold State.localRead
  repeat' first
    | with_reducible assumption
    | (extract_lets +onlyGivenNames y; with_reducible refine keeps_cut (s := y) ?_ ?_; unfold y; clear y; rotate_left; intro hy; clear_value y; revert y; intros)
    | (extract_lets +onlyGivenNames y; clear_value y; revert y; intros)
    | with_reducible refine keeps_ite ?_ ?_
    | with_reducible apply eccData_keeps
    | with_reducible apply pend_keeps
    | with_reducible apply tileEcc_keeps
    | split
    | with_reducible refine keeps_fst (by with_reducible assumption) ?_

theorem source_keeps (h : Keeps q s) : Keeps q (State.source s a1 a2 a3 a4).1 := by
  unfold State.source
  repeat' first
    | with_reducible assumption
    | (extract_lets +onlyGivenNames y; with_reducible refine keeps_cut (s := y) ?_ ?_; unfold y; clear y; rotate_left; intro hy; clear_value y; revert y; intros)
    | with_reducible refine keeps_upd (by with_reducible assumption)
    | (extract_lets +onlyGivenNames y; clear_value y; revert y; intros)
    | with_reducible apply eccData_keeps
    | with_reducible apply tileEcc_keeps
    | split
    | with_reducible refine keeps_fst (by with_reducible assumption) ?_
    | with_reducible refine keeps_upd ?_

theorem execLld_keeps (h : Keeps q s) : KeepsN q (execLld a1 a2 a3 a4 a5 s) := by
  unfold execLld
  repeat' first
    | with_reducible assumption
    | with_reducible refine keepsN_next ?_
    | with_reducible apply issue_keeps
    | with_reducible apply eachTile_keeps
    | with_reducible apply localRead_keeps
    | intro _ _ hs
    | intro _ hs
    | intro hs

theorem execLst_keeps (h : Keeps q s) : KeepsN q (execLst a1 a2 a3 a4 s) := by
  unfold execLst
  repeat' first
    | with_reducible assumption
    | with_reducible refine keepsN_next ?_
    | with_reducible apply issue_keeps
    | with_reducible apply eachTile_keeps
    | with_reducible apply pend_keeps
    | intro _ _ hs
    | intro _ hs
    | intro hs

theorem execRecv_keeps (h : Keeps q s) : KeepsN q (execRecv a1 a2 a3 a4 a5 a6 s) := by
  unfold execRecv
  repeat' first
    | with_reducible assumption
    | with_reducible refine keepsN_next ?_
    | with_reducible apply issue_keeps
    | with_reducible apply eachTile_keeps
    | with_reducible apply localRead_keeps
    | intro _ _ hs
    | intro _ hs
    | intro hs

theorem execSld_keeps (h : Keeps q s) : KeepsN q (execSld a1 a2 a3 a4 a5 a6 s) := by
  unfold execSld
  repeat' first
    | with_reducible assumption
    | with_reducible refine keepsN_next ?_
    | (extract_lets +onlyGivenNames y; with_reducible refine keeps_cut (s := y) ?_ ?_; unfold y; clear y; rotate_left; intro hy; clear_value y; revert y; intros)
    | (extract_lets +onlyGivenNames y; clear_value y; revert y; intros)
    | with_reducible apply issue_keeps
    | with_reducible apply bus_keeps
    | intro _ _ hs
    | intro _ hs
    | intro hs

theorem execSst_keeps (h : Keeps q s) : KeepsN q (execSst a1 a2 a3 a4 a5 a6 s) := by
  unfold execSst
  repeat' first
    | with_reducible assumption
    | with_reducible refine keepsN_next ?_
    | (extract_lets +onlyGivenNames y; with_reducible refine keeps_cut (s := y) ?_ ?_; unfold y; clear y; rotate_left; intro hy; clear_value y; revert y; intros)
    | (extract_lets +onlyGivenNames y; clear_value y; revert y; intros)
    | with_reducible apply issue_keeps
    | with_reducible apply source_keeps
    | with_reducible apply bus_keeps
    | intro _ _ hs
    | intro _ hs
    | intro hs
    | split
    | with_reducible refine keeps_fst (by with_reducible assumption) ?_

theorem execSend_keeps (h : Keeps q s) : KeepsN q (execSend a1 a2 a3 a4 a5 a6 s) := by
  unfold execSend
  repeat' first
    | with_reducible assumption
    | with_reducible refine keepsN_next ?_
    | (extract_lets +onlyGivenNames y; with_reducible refine keeps_cut (s := y) ?_ ?_; unfold y; clear y; rotate_left; intro hy; clear_value y; revert y; intros)
    | (extract_lets +onlyGivenNames y; clear_value y; revert y; intros)
    | with_reducible apply issue_keeps
    | with_reducible apply source_keeps
    | with_reducible apply bus_keeps
    | intro _ _ hs
    | intro _ hs
    | intro hs
    | split
    | with_reducible refine keeps_fst (by with_reducible assumption) ?_

theorem execSharedLoadResponse_keeps (h : Keeps q s) : KeepsN q (execSharedLoadResponse s) := by
  unfold execSharedLoadResponse
  repeat' first
    | with_reducible assumption
    | with_reducible refine keepsN_next ?_
    | (extract_lets +onlyGivenNames y; with_reducible refine keeps_cut (s := y) ?_ ?_; unfold y; clear y; rotate_left; intro hy; clear_value y; revert y; intros)
    | with_reducible refine keeps_upd (by with_reducible assumption)
    | (extract_lets +onlyGivenNames y; clear_value y; revert y; intros)
    | with_reducible refine keeps_ite ?_ ?_
    | with_reducible refine keepsN_ite ?_ ?_
    | with_reducible apply runBusTo_keeps
    | intro _ _ hs
    | intro _ hs
    | intro hs
    | split
    | with_reducible refine keeps_fst (by with_reducible assumption) ?_
    | with_reducible refine keeps_upd ?_

theorem execSendDelivery_keeps (h : Keeps q s) : KeepsN q (execSendDelivery s) := by
  unfold execSendDelivery
  repeat' first
    | with_reducible assumption
    | with_reducible refine keepsN_next ?_
    | (extract_lets +onlyGivenNames y; with_reducible refine keeps_cut (s := y) ?_ ?_; unfold y; clear y; rotate_left; intro hy; clear_value y; revert y; intros)
    | with_reducible refine keeps_upd (by with_reducible assumption)
    | (extract_lets +onlyGivenNames y; clear_value y; revert y; intros)
    | with_reducible apply runBusTo_keeps
    | intro _ _ hs
    | intro _ hs
    | intro hs
    | split
    | with_reducible refine keeps_fst (by with_reducible assumption) ?_
    | with_reducible refine keeps_upd ?_

theorem updRing_keeps (h : Keeps q s) : Keeps q (State.updRing s a1 a2) := by
  unfold State.updRing
  repeat' first
    | with_reducible assumption
    | (extract_lets +onlyGivenNames y; with_reducible refine keeps_cut (s := y) ?_ ?_; unfold y; clear y; rotate_left; intro hy; clear_value y; revert y; intros)
    | with_reducible refine keeps_upd (by with_reducible assumption)
    | (extract_lets +onlyGivenNames y; clear_value y; revert y; intros)
    | with_reducible refine keeps_upd ?_

theorem execRpoll_keeps (h : Keeps q s) : KeepsN q (execRpoll a1 a2 a3 s) := by
  unfold execRpoll
  repeat' first
    | with_reducible assumption
    | with_reducible refine keepsN_next ?_
    | (extract_lets +onlyGivenNames y; with_reducible refine keeps_cut (s := y) ?_ ?_; unfold y; clear y; rotate_left; intro hy; clear_value y; revert y; intros)
    | with_reducible refine keeps_upd (by with_reducible assumption)
    | (extract_lets +onlyGivenNames y; clear_value y; revert y; intros)
    | with_reducible apply issue_keeps
    | with_reducible apply updRing_keeps
    | with_reducible apply deliver_keeps
    | intro _ _ hs
    | intro _ hs
    | intro hs
    | with_reducible refine keeps_upd ?_

theorem execRenq_keeps (h : Keeps q s) : KeepsN q (execRenq a1 a2 a3 a4 a5 s) := by
  unfold execRenq
  repeat' first
    | with_reducible assumption
    | with_reducible refine keepsN_next ?_
    | (extract_lets +onlyGivenNames y; with_reducible refine keeps_cut (s := y) ?_ ?_; unfold y; clear y; rotate_left; intro hy; clear_value y; revert y; intros)
    | with_reducible refine keeps_upd (by with_reducible assumption)
    | (extract_lets +onlyGivenNames y; clear_value y; revert y; intros)
    | with_reducible refine keeps_ite ?_ ?_
    | with_reducible refine keepsN_ite ?_ ?_
    | with_reducible apply issue_keeps
    | with_reducible apply source_keeps
    | with_reducible apply updRing_keeps
    | with_reducible apply deliver_keeps
    | with_reducible apply eachTile_keeps
    | with_reducible apply flag_keeps
    | intro _ _ hs
    | intro _ hs
    | intro hs
    | split
    | with_reducible refine keeps_fst (by with_reducible assumption) ?_
    | with_reducible refine keeps_upd ?_

theorem startCall_keeps (h : Keeps q s) : Keeps q (State.startCall s a1) := by
  unfold State.startCall
  repeat' first
    | with_reducible assumption
    | (extract_lets +onlyGivenNames y; with_reducible refine keeps_cut (s := y) ?_ ?_; unfold y; clear y; rotate_left; intro hy; clear_value y; revert y; intros)
    | with_reducible refine keeps_upd (by with_reducible assumption)
    | (extract_lets +onlyGivenNames y; clear_value y; revert y; intros)
    | with_reducible apply bus_keeps
    | split
    | with_reducible refine keeps_fst (by with_reducible assumption) ?_
    | with_reducible refine keeps_upd ?_

theorem execEcall_keeps (h : Keeps q s) : KeepsN q (execEcall a1 a2 a3 a4 a5 a6 a7 s) := by
  unfold execEcall
  repeat' first
    | with_reducible assumption
    | with_reducible refine keepsN_next ?_
    | (extract_lets +onlyGivenNames y; with_reducible refine keeps_cut (s := y) ?_ ?_; unfold y; clear y; rotate_left; intro hy; clear_value y; revert y; intros)
    | with_reducible refine keeps_upd (by with_reducible assumption)
    | (extract_lets +onlyGivenNames y; clear_value y; revert y; intros)
    | with_reducible apply issue_keeps
    | with_reducible apply startCall_keeps
    | intro _ _ hs
    | intro _ hs
    | intro hs
    | split
    | with_reducible refine keeps_fst (by with_reducible assumption) ?_
    | with_reducible refine keeps_upd ?_

theorem execEngineCallComplete_keeps (h : Keeps q s) : KeepsN q (execEngineCallComplete a1 s) := by
  unfold execEngineCallComplete
  repeat' first
    | with_reducible assumption
    | with_reducible refine keepsN_next ?_
    | (extract_lets +onlyGivenNames y; with_reducible refine keeps_cut (s := y) ?_ ?_; unfold y; clear y; rotate_left; intro hy; clear_value y; revert y; intros)
    | with_reducible refine keeps_upd (by with_reducible assumption)
    | (extract_lets +onlyGivenNames y; clear_value y; revert y; intros)
    | with_reducible apply settle_keeps
    | with_reducible apply toCycle_keeps
    | intro _ _ hs
    | intro _ hs
    | intro hs
    | split
    | with_reducible refine keeps_fst (by with_reducible assumption) ?_
    | with_reducible refine keeps_upd ?_

theorem execDabs_keeps (h : Keeps q s) : KeepsN q (execDabs a1 a2 a3 a4 s) := by
  unfold execDabs
  repeat' first
    | with_reducible assumption
    | with_reducible refine keepsN_next ?_
    | (extract_lets +onlyGivenNames y; with_reducible refine keeps_cut (s := y) ?_ ?_; unfold y; clear y; rotate_left; intro hy; clear_value y; revert y; intros)
    | (extract_lets +onlyGivenNames y; clear_value y; revert y; intros)
    | with_reducible apply issue_keeps
    | with_reducible apply source_keeps
    | with_reducible apply bus_keeps
    | intro _ _ hs
    | intro _ hs
    | intro hs
    | split
    | with_reducible refine keeps_fst (by with_reducible assumption) ?_

theorem execDseal_keeps (h : Keeps q s) : KeepsN q (execDseal a1 a2 s) := by
  unfold execDseal
  repeat' first
    | with_reducible assumption
    | with_reducible refine keepsN_next ?_
    | (extract_lets +onlyGivenNames y; with_reducible refine keeps_cut (s := y) ?_ ?_; unfold y; clear y; rotate_left; intro hy; clear_value y; revert y; intros)
    | with_reducible refine keeps_upd (by with_reducible assumption)
    | (extract_lets +onlyGivenNames y; clear_value y; revert y; intros)
    | with_reducible apply issue_keeps
    | with_reducible apply bus_keeps
    | intro _ _ hs
    | intro _ hs
    | intro hs
    | split
    | with_reducible refine keeps_fst (by with_reducible assumption) ?_
    | with_reducible refine keeps_upd ?_

theorem execDigestSealComplete_keeps (h : Keeps q s) : KeepsN q (execDigestSealComplete s) := by
  unfold execDigestSealComplete
  repeat' first
    | with_reducible assumption
    | with_reducible refine keepsN_next ?_
    | (extract_lets +onlyGivenNames y; with_reducible refine keeps_cut (s := y) ?_ ?_; unfold y; clear y; rotate_left; intro hy; clear_value y; revert y; intros)
    | with_reducible refine keeps_upd (by with_reducible assumption)
    | (extract_lets +onlyGivenNames y; clear_value y; revert y; intros)
    | with_reducible apply runBusTo_keeps
    | intro _ _ hs
    | intro _ hs
    | intro hs
    | split
    | with_reducible refine keeps_fst (by with_reducible assumption) ?_
    | with_reducible refine keeps_upd ?_

theorem sealRecord_keeps (h : Keeps q s) : Keeps q (State.sealRecord s) := by
  unfold State.sealRecord
  repeat' first
    | with_reducible assumption
    | (extract_lets +onlyGivenNames y; with_reducible refine keeps_cut (s := y) ?_ ?_; unfold y; clear y; rotate_left; intro hy; clear_value y; revert y; intros)
    | with_reducible refine keeps_upd (by with_reducible assumption)
    | (extract_lets +onlyGivenNames y; clear_value y; revert y; intros)
    | with_reducible refine keeps_ite ?_ ?_
    | with_reducible apply wr_keeps
    | intro _ _ hs
    | intro _ hs
    | intro hs
    | split
    | with_reducible refine keeps_fst (by with_reducible assumption) ?_
    | with_reducible refine keeps_upd ?_

theorem execFcm_keeps (h : Keeps q s) : KeepsN q (execFcm a1 s) := by
  unfold execFcm
  repeat' first
    | with_reducible assumption
    | with_reducible refine keepsN_next ?_
    | (extract_lets +onlyGivenNames y; with_reducible refine keeps_cut (s := y) ?_ ?_; unfold y; clear y; rotate_left; intro hy; clear_value y; revert y; intros)
    | with_reducible refine keeps_upd (by with_reducible assumption)
    | (extract_lets +onlyGivenNames y; clear_value y; revert y; intros)
    | with_reducible refine keeps_ite ?_ ?_
    | with_reducible refine keepsN_ite ?_ ?_
    | with_reducible apply settle_keeps
    | with_reducible apply settleThrough_keeps
    | with_reducible apply issue_keeps
    | with_reducible apply toCycle_keeps
    | with_reducible apply inc_keeps
    | with_reducible apply wr_keeps
    | with_reducible apply emit_keeps
    | with_reducible apply sealRecord_keeps
    | intro _ _ hs
    | intro _ hs
    | intro hs
    | split
    | with_reducible refine keeps_upd ?_

/-! ### Mgmt -/

theorem retries_keeps (h : Keeps q s) : Keeps q (State.retries s a1) := by
  unfold State.retries
  repeat' first
    | with_reducible assumption
    | with_reducible apply wr_keeps

theorem execAsyncAccessRetry_keeps (h : Keeps q s) : KeepsN q (execAsyncAccessRetry a1 s) := by
  unfold execAsyncAccessRetry
  repeat' first
    | with_reducible assumption
    | with_reducible refine keepsN_next ?_
    | (extract_lets +onlyGivenNames y; with_reducible refine keeps_cut (s := y) ?_ ?_; unfold y; clear y; rotate_left; intro hy; clear_value y; revert y; intros)
    | (extract_lets +onlyGivenNames y; clear_value y; revert y; intros)
    | with_reducible refine keeps_ite ?_ ?_
    | with_reducible refine keepsN_ite ?_ ?_
    | with_reducible apply retries_keeps
    | with_reducible apply inc_keeps
    | split

theorem serve_keeps (h : Keeps q s) : Keeps q (State.serve s a1 a2) := by
  unfold State.serve
  repeat' first
    | with_reducible assumption
    | (extract_lets +onlyGivenNames y; with_reducible refine keeps_cut (s := y) ?_ ?_; unfold y; clear y; rotate_left; intro hy; clear_value y; revert y; intros)
    | (extract_lets +onlyGivenNames y; clear_value y; revert y; intros)
    | with_reducible refine keeps_ite ?_ ?_
    | with_reducible apply retries_keeps
    | with_reducible apply settle_keeps
    | split

theorem settleNow_keeps (h : Keeps q s) : Keeps q (State.settleNow s) := by
  unfold State.settleNow
  repeat' first
    | with_reducible assumption
    | with_reducible refine keeps_ite ?_ ?_
    | with_reducible apply settle_keeps
    | split

theorem ringPut_keeps (h : Keeps q s) : Keeps q (State.ringPut s a1 a2).1 := by
  unfold State.ringPut
  repeat' first
    | with_reducible assumption
    | (extract_lets +onlyGivenNames y; with_reducible refine keeps_cut (s := y) ?_ ?_; unfold y; clear y; rotate_left; intro hy; clear_value y; revert y; intros)
    | with_reducible refine keeps_upd (by with_reducible assumption)
    | (extract_lets +onlyGivenNames y; clear_value y; revert y; intros)
    | with_reducible refine keeps_ite ?_ ?_
    | with_reducible apply retries_keeps
    | with_reducible apply updRing_keeps
    | with_reducible apply emit_keeps
    | with_reducible apply inc_keeps
    | intro _ _ hs
    | intro _ hs
    | intro hs
    | split
    | with_reducible refine keeps_fst (by with_reducible assumption) ?_
    | with_reducible refine keeps_upd ?_

theorem execMgmtRingEnqueue_keeps (h : Keeps q s) : KeepsN q (execMgmtRingEnqueue a1 a2 s) := by
  unfold execMgmtRingEnqueue
  repeat' first
    | with_reducible assumption
    | with_reducible refine keepsN_next ?_
    | with_reducible apply ringPut_keeps

theorem ringTake_keeps (h : Keeps q s) : Keeps q (State.ringTake s a1 a2).1 := by
  unfold State.ringTake
  repeat' first
    | with_reducible assumption
    | (extract_lets +onlyGivenNames y; with_reducible refine keeps_cut (s := y) ?_ ?_; unfold y; clear y; rotate_left; intro hy; clear_value y; revert y; intros)
    | with_reducible refine keeps_upd (by with_reducible assumption)
    | (extract_lets +onlyGivenNames y; clear_value y; revert y; intros)
    | with_reducible refine keeps_ite ?_ ?_
    | with_reducible apply retries_keeps
    | with_reducible apply updRing_keeps
    | intro _ _ hs
    | intro _ hs
    | intro hs
    | split
    | with_reducible refine keeps_upd ?_

theorem execPortbBankWrite_keeps (h : Keeps q s) : KeepsN q (execPortbBankWrite a1 a2 a3 s) := by
  unfold execPortbBankWrite
  repeat' first
    | with_reducible assumption
    | with_reducible refine keepsN_next ?_
    | (extract_lets +onlyGivenNames y; with_reducible refine keeps_cut (s := y) ?_ ?_; unfold y; clear y; rotate_left; intro hy; clear_value y; revert y; intros)
    | with_reducible refine keeps_upd (by with_reducible assumption)
    | (extract_lets +onlyGivenNames y; clear_value y; revert y; intros)
    | with_reducible refine keeps_ite ?_ ?_
    | with_reducible refine keepsN_ite ?_ ?_
    | with_reducible apply serve_keeps
    | with_reducible apply wr_keeps
    | with_reducible apply setBytes_keeps
    | intro _ _ hs
    | intro _ hs
    | intro hs
    | split
    | with_reducible refine keeps_upd ?_

theorem mramPut_keeps (h : Keeps q s) : Keeps q (State.mramPut s a1) := by
  unfold State.mramPut
  repeat' first
    | with_reducible assumption
    | with_reducible apply setBytes_keeps
    | with_reducible refine keeps_foldl ?_ (fun _ _ hs => ?_)
    | intro _ _ hs
    | intro _ hs
    | intro hs

theorem retBusy_keeps (h : Keeps q s) : Keeps q (State.retBusy s) := by
  unfold State.retBusy
  repeat' first
    | with_reducible assumption
    | with_reducible refine keeps_ite ?_ ?_
    | with_reducible apply wr_keeps
    | split

theorem execRetentiveWriteThrough_keeps (h : Keeps q s) : KeepsN q (execRetentiveWriteThrough s) := by
  unfold execRetentiveWriteThrough
  repeat' first
    | with_reducible assumption
    | with_reducible refine keepsN_next ?_
    | (extract_lets +onlyGivenNames y; with_reducible refine keeps_cut (s := y) ?_ ?_; unfold y; clear y; rotate_left; intro hy; clear_value y; revert y; intros)
    | with_reducible refine keeps_upd (by with_reducible assumption)
    | (extract_lets +onlyGivenNames y; clear_value y; revert y; intros)
    | with_reducible apply mramPut_keeps
    | with_reducible refine keeps_upd ?_

theorem mramOverwrite_keeps (h : Keeps q s) : Keeps q (State.mramOverwrite s) := by
  unfold State.mramOverwrite
  repeat' first
    | with_reducible assumption
    | (extract_lets +onlyGivenNames y; with_reducible refine keeps_cut (s := y) ?_ ?_; unfold y; clear y; rotate_left; intro hy; clear_value y; revert y; intros)
    | with_reducible refine keeps_upd (by with_reducible assumption)
    | (extract_lets +onlyGivenNames y; clear_value y; revert y; intros)
    | with_reducible apply clearMem_keeps
    | with_reducible apply setByte_keeps
    | with_reducible refine keeps_foldl ?_ (fun _ _ hs => ?_)
    | intro _ _ hs
    | intro _ hs
    | intro hs
    | split
    | with_reducible refine keeps_fst (by with_reducible assumption) ?_
    | with_reducible refine keeps_upd ?_

theorem commitRecord_keeps (h : Keeps q s) : Keeps q (State.commitRecord s) := by
  unfold State.commitRecord
  repeat' first
    | with_reducible assumption
    | (extract_lets +onlyGivenNames y; with_reducible refine keeps_cut (s := y) ?_ ?_; unfold y; clear y; rotate_left; intro hy; clear_value y; revert y; intros)
    | with_reducible refine keeps_upd (by with_reducible assumption)
    | (extract_lets +onlyGivenNames y; clear_value y; revert y; intros)
    | with_reducible apply mramOverwrite_keeps
    | with_reducible apply retBusy_keeps
    | with_reducible apply wr64_keeps
    | split
    | with_reducible refine keeps_fst (by with_reducible assumption) ?_
    | with_reducible refine keeps_upd ?_

theorem execRetentiveRecordCommit_keeps (h : Keeps q s) : KeepsN q (execRetentiveRecordCommit s) := by
  unfold execRetentiveRecordCommit
  repeat' first
    | with_reducible assumption
    | with_reducible refine keepsN_next ?_
    | (extract_lets +onlyGivenNames y; with_reducible refine keeps_cut (s := y) ?_ ?_; unfold y; clear y; rotate_left; intro hy; clear_value y; revert y; intros)
    | with_reducible refine keeps_upd (by with_reducible assumption)
    | (extract_lets +onlyGivenNames y; clear_value y; revert y; intros)
    | with_reducible refine keeps_ite ?_ ?_
    | with_reducible refine keepsN_ite ?_ ?_
    | with_reducible apply commitRecord_keeps
    | split
    | with_reducible refine keeps_fst (by with_reducible assumption) ?_
    | with_reducible refine keeps_upd ?_

theorem commitBefore_keeps (h : Keeps q s) : Keeps q (State.commitBefore s a1) := by
  unfold State.commitBefore
  repeat' first
    | with_reducible assumption
    | (extract_lets +onlyGivenNames y; with_reducible refine keeps_cut (s := y) ?_ ?_; unfold y; clear y; rotate_left; intro hy; clear_value y; revert y; intros)
    | with_reducible refine keeps_upd (by with_reducible assumption)
    | (extract_lets +onlyGivenNames y; clear_value y; revert y; intros)
    | with_reducible refine keeps_ite ?_ ?_
    | with_reducible apply commitRecord_keeps
    | with_reducible refine keeps_foldl ?_ (fun _ _ hs => ?_)
    | intro _ _ hs
    | intro _ hs
    | intro hs
    | split
    | with_reducible refine keeps_fst (by with_reducible assumption) ?_
    | with_reducible refine keeps_upd ?_

theorem foldRecord_keeps (h : Keeps q s) : Keeps q (State.foldRecord s) := by
  unfold State.foldRecord
  repeat' first
    | with_reducible assumption
    | (extract_lets +onlyGivenNames y; with_reducible refine keeps_cut (s := y) ?_ ?_; unfold y; clear y; rotate_left; intro hy; clear_value y; revert y; intros)
    | with_reducible refine keeps_upd (by with_reducible assumption)
    | (extract_lets +onlyGivenNames y; clear_value y; revert y; intros)
    | with_reducible refine keeps_ite ?_ ?_
    | with_reducible apply mramPut_keeps
    | with_reducible apply retBusy_keeps
    | split
    | with_reducible refine keeps_fst (by with_reducible assumption) ?_
    | with_reducible refine keeps_upd ?_

theorem execRetentiveFold_keeps (h : Keeps q s) : KeepsN q (execRetentiveFold s) := by
  unfold execRetentiveFold
  repeat' first
    | with_reducible assumption
    | with_reducible refine keepsN_next ?_
    | with_reducible apply foldRecord_keeps
    | with_reducible refine keeps_foldl ?_ (fun _ _ hs => ?_)

theorem foldAll_keeps (h : Keeps q s) : Keeps q (State.foldAll s) := by
  unfold State.foldAll
  repeat' first
    | with_reducible assumption
    | with_reducible apply foldRecord_keeps
    | with_reducible refine keeps_foldl ?_ (fun _ _ hs => ?_)
    | intro _ _ hs
    | intro _ hs
    | intro hs

end Sys2Proof.Laws
end

