-- ==== Sys2Proof/Laws/KeepsTimetable.lean ====
section
/-! SUPPORT. Every operation and meaning of admission, mode switches and the end of a tick leaves the queue of waiting commands alone and keeps a sound state sound. -/

set_option Elab.async false

namespace Sys2Proof.Laws

open Sys2Proof Sys2Proof.Machine Sys2Proof.Safety

variable {q : Prop × List Instr × Option (List (Nat × Nat))} {s : State}

/-! ### Admission -/

theorem withEngine_keeps (h : Keeps q s) : Keeps q (State.withEngine s a1) := by
  unfold State.withEngine
  repeat' first
    | with_reducible assumption
    | with_reducible apply setBytes_keeps
    | with_reducible apply clearMem_keeps
    | with_reducible refine keeps_foldl ?_ (fun _ _ hs => ?_)
    | intro _ _ hs
    | intro _ hs
    | intro hs

/-! ### Rates -/

theorem rateAdapted_keeps (h : Keeps q s) : Keeps q (State.rateAdapted s) := by
  unfold State.rateAdapted
  repeat' first
    | with_reducible assumption
    | with_reducible refine keeps_ite ?_ ?_
    | with_reducible apply wr_keeps
    | with_reducible refine keeps_foldl ?_ (fun _ _ hs => ?_)
    | intro _ _ hs
    | intro _ hs
    | intro hs
    | split

/-! ### Modes -/

theorem modeState_keeps (h : Keeps q s) : Keeps q (State.modeState s a1 a2) := by
  unfold State.modeState
  repeat' first
    | with_reducible assumption
    | with_reducible apply wr_keeps

theorem modeEvent_keeps (h : Keeps q s) : Keeps q (State.modeEvent s) := by
  unfold State.modeEvent
  repeat' first
    | with_reducible assumption
    | (extract_lets +onlyGivenNames y; with_reducible refine keeps_cut (s := y) ?_ ?_; unfold y; clear y; rotate_left; intro hy; clear_value y; revert y; intros)
    | (extract_lets +onlyGivenNames y; clear_value y; revert y; intros)
    | with_reducible refine keeps_ite ?_ ?_
    | with_reducible apply notify_keeps
    | split

theorem dropSwitch_keeps (h : Keeps q s) : Keeps q (State.dropSwitch s) := by
  unfold State.dropSwitch
  repeat' first
    | with_reducible assumption
    | (extract_lets +onlyGivenNames y; with_reducible refine keeps_cut (s := y) ?_ ?_; unfold y; clear y; rotate_left; intro hy; clear_value y; revert y; intros)
    | with_reducible refine keeps_upd (by with_reducible assumption)
    | (extract_lets +onlyGivenNames y; clear_value y; revert y; intros)
    | with_reducible refine keeps_upd ?_

theorem loseSwitch_keeps (h : Keeps q s) : Keeps q (State.loseSwitch s) := by
  unfold State.loseSwitch
  repeat' first
    | with_reducible assumption
    | with_reducible refine keeps_ite ?_ ?_
    | with_reducible apply wake_keeps
    | with_reducible apply dropSwitch_keeps
    | with_reducible apply modeState_keeps
    | split

theorem abandonSwitch_keeps (h : Keeps q s) : Keeps q (State.abandonSwitch s) := by
  unfold State.abandonSwitch
  repeat' first
    | with_reducible assumption
    | (extract_lets +onlyGivenNames y; with_reducible refine keeps_cut (s := y) ?_ ?_; unfold y; clear y; rotate_left; intro hy; clear_value y; revert y; intros)
    | with_reducible refine keeps_upd (by with_reducible assumption)
    | (extract_lets +onlyGivenNames y; clear_value y; revert y; intros)
    | with_reducible apply dropSwitch_keeps
    | with_reducible apply modeEvent_keeps
    | with_reducible apply wr_keeps
    | with_reducible apply modeState_keeps
    | split
    | with_reducible refine keeps_fst (by with_reducible assumption) ?_
    | with_reducible refine keeps_upd ?_

theorem slotsInForce_keeps (h : Keeps q s) : Keeps q (State.slotsInForce s) := by
  unfold State.slotsInForce
  repeat' first
    | with_reducible assumption
    | with_reducible refine keeps_ite ?_ ?_
    | with_reducible apply wr_keeps
    | with_reducible refine keeps_foldl ?_ (fun _ _ hs => ?_)
    | intro _ _ hs
    | intro _ hs
    | intro hs
    | split

theorem showPlan_keeps (h : Keeps q s) : Keeps q (State.showPlan s a1) := by
  unfold State.showPlan
  repeat' first
    | with_reducible assumption
    | (extract_lets +onlyGivenNames y; with_reducible refine keeps_cut (s := y) ?_ ?_; unfold y; clear y; rotate_left; intro hy; clear_value y; revert y; intros)
    | (extract_lets +onlyGivenNames y; clear_value y; revert y; intros)
    | with_reducible apply wr_keeps
    | with_reducible refine keeps_foldl ?_ (fun _ _ hs => ?_)
    | intro _ _ hs
    | intro _ hs
    | intro hs

theorem modeFlip_keeps (h : Keeps q s) : Keeps q (State.modeFlip s a1 a2) := by
  unfold State.modeFlip
  repeat' first
    | with_reducible assumption
    | (extract_lets +onlyGivenNames y; with_reducible refine keeps_cut (s := y) ?_ ?_; unfold y; clear y; rotate_left; intro hy; clear_value y; revert y; intros)
    | with_reducible refine keeps_upd (by with_reducible assumption)
    | (extract_lets +onlyGivenNames y; clear_value y; revert y; intros)
    | with_reducible apply slotsInForce_keeps
    | with_reducible apply wr_keeps
    | with_reducible apply rateAdapted_keeps
    | with_reducible apply showPlan_keeps
    | split
    | with_reducible refine keeps_fst (by with_reducible assumption) ?_
    | with_reducible refine keeps_upd ?_

theorem finishSwitch_keeps (h : Keeps q s) : Keeps q (State.finishSwitch s a1) := by
  unfold State.finishSwitch
  repeat' first
    | with_reducible assumption
    | (extract_lets +onlyGivenNames y; with_reducible refine keeps_cut (s := y) ?_ ?_; unfold y; clear y; rotate_left; intro hy; clear_value y; revert y; intros)
    | (extract_lets +onlyGivenNames y; clear_value y; revert y; intros)
    | with_reducible apply wr64_keeps
    | with_reducible apply modeFlip_keeps
    | with_reducible apply wr_keeps
    | with_reducible apply inc_keeps
    | with_reducible apply dropSwitch_keeps
    | with_reducible apply modeEvent_keeps
    | with_reducible apply modeState_keeps

theorem modePrepare_keeps (h : Keeps q s) : Keeps q (State.modePrepare s a1 a2) := by
  unfold State.modePrepare
  repeat' first
    | with_reducible assumption
    | (extract_lets +onlyGivenNames y; with_reducible refine keeps_cut (s := y) ?_ ?_; unfold y; clear y; rotate_left; intro hy; clear_value y; revert y; intros)
    | with_reducible refine keeps_upd (by with_reducible assumption)
    | (extract_lets +onlyGivenNames y; clear_value y; revert y; intros)
    | with_reducible refine keeps_ite ?_ ?_
    | with_reducible apply wr_keeps
    | with_reducible apply loseSwitch_keeps
    | with_reducible apply modeState_keeps
    | split
    | with_reducible refine keeps_upd ?_

theorem execTtModePrepare_keeps (h : Keeps q s) : KeepsN q (execTtModePrepare s) := by
  unfold execTtModePrepare
  repeat' first
    | with_reducible assumption
    | with_reducible refine keepsN_next ?_
    | with_reducible apply modePrepare_keeps

theorem showHash_keeps (h : Keeps q s) : Keeps q (State.showHash s a1) := by
  unfold State.showHash
  repeat' first
    | with_reducible assumption
    | with_reducible apply wr_keeps
    | with_reducible refine keeps_foldl ?_ (fun _ _ hs => ?_)
    | intro _ _ hs
    | intro _ hs
    | intro hs

theorem refusePrepare_keeps (h : Keeps q s) : Keeps q (State.refusePrepare s a1) := by
  unfold State.refusePrepare
  repeat' first
    | with_reducible assumption
    | (extract_lets +onlyGivenNames y; with_reducible refine keeps_cut (s := y) ?_ ?_; unfold y; clear y; rotate_left; intro hy; clear_value y; revert y; intros)
    | (extract_lets +onlyGivenNames y; clear_value y; revert y; intros)
    | with_reducible refine keeps_ite ?_ ?_
    | with_reducible apply wake_keeps
    | with_reducible apply dropSwitch_keeps
    | with_reducible apply modeEvent_keeps
    | with_reducible apply modeState_keeps
    | with_reducible apply emit_keeps
    | split

theorem prepareDone_keeps (h : Keeps q s) : Keeps q (State.prepareDone s) := by
  unfold State.prepareDone
  repeat' first
    | with_reducible assumption
    | (extract_lets +onlyGivenNames y; with_reducible refine keeps_cut (s := y) ?_ ?_; unfold y; clear y; rotate_left; intro hy; clear_value y; revert y; intros)
    | with_reducible refine keeps_upd (by with_reducible assumption)
    | (extract_lets +onlyGivenNames y; clear_value y; revert y; intros)
    | with_reducible refine keeps_ite ?_ ?_
    | with_reducible apply wake_keeps
    | split
    | with_reducible refine keeps_fst (by with_reducible assumption) ?_
    | with_reducible refine keeps_upd ?_

theorem execModePrepareComplete_keeps (h : Keeps q s) : KeepsN q (execModePrepareComplete s) := by
  unfold execModePrepareComplete
  repeat' first
    | with_reducible assumption
    | with_reducible refine keepsN_next ?_
    | (extract_lets +onlyGivenNames y; with_reducible refine keeps_cut (s := y) ?_ ?_; unfold y; clear y; rotate_left; intro hy; clear_value y; revert y; intros)
    | with_reducible refine keeps_upd (by with_reducible assumption)
    | (extract_lets +onlyGivenNames y; clear_value y; revert y; intros)
    | with_reducible refine keeps_ite ?_ ?_
    | with_reducible refine keepsN_ite ?_ ?_
    | with_reducible apply refusePrepare_keeps
    | with_reducible apply modeState_keeps
    | with_reducible apply wr_keeps
    | with_reducible apply showHash_keeps
    | with_reducible apply emit_keeps
    | with_reducible apply prepareDone_keeps
    | split
    | with_reducible refine keeps_fst (by with_reducible assumption) ?_
    | with_reducible refine keeps_upd ?_

theorem modeCancel_keeps (h : Keeps q s) : Keeps q (State.modeCancel s) := by
  unfold State.modeCancel
  repeat' first
    | with_reducible assumption
    | (extract_lets +onlyGivenNames y; with_reducible refine keeps_cut (s := y) ?_ ?_; unfold y; clear y; rotate_left; intro hy; clear_value y; revert y; intros)
    | (extract_lets +onlyGivenNames y; clear_value y; revert y; intros)
    | with_reducible refine keeps_ite ?_ ?_
    | with_reducible apply dropSwitch_keeps
    | with_reducible apply modeState_keeps
    | split

theorem execTtModeCancel_keeps (h : Keeps q s) : KeepsN q (execTtModeCancel s) := by
  unfold execTtModeCancel
  repeat' first
    | with_reducible assumption
    | with_reducible refine keepsN_next ?_
    | with_reducible apply modeCancel_keeps

theorem deltaStep_keeps (h : Keeps q s) : Keeps q (State.deltaStep s a1 a2) := by
  unfold State.deltaStep
  repeat' first
    | with_reducible assumption
    | (extract_lets +onlyGivenNames y; with_reducible refine keeps_cut (s := y) ?_ ?_; unfold y; clear y; rotate_left; intro hy; clear_value y; revert y; intros)
    | with_reducible refine keeps_upd (by with_reducible assumption)
    | (extract_lets +onlyGivenNames y; clear_value y; revert y; intros)
    | with_reducible apply tap_keeps
    | with_reducible apply setBytes_keeps
    | with_reducible refine keeps_foldl ?_ (fun _ _ hs => ?_)
    | intro _ _ hs
    | intro _ hs
    | intro hs
    | with_reducible refine keeps_upd ?_

theorem execModeDeltaWrites_keeps (h : Keeps q s) : KeepsN q (execModeDeltaWrites a1 s) := by
  unfold execModeDeltaWrites
  repeat' first
    | with_reducible assumption
    | with_reducible refine keepsN_next ?_
    | (extract_lets +onlyGivenNames y; with_reducible refine keeps_cut (s := y) ?_ ?_; unfold y; clear y; rotate_left; intro hy; clear_value y; revert y; intros)
    | with_reducible refine keeps_upd (by with_reducible assumption)
    | (extract_lets +onlyGivenNames y; clear_value y; revert y; intros)
    | with_reducible refine keeps_ite ?_ ?_
    | with_reducible refine keepsN_ite ?_ ?_
    | with_reducible apply deltaStep_keeps
    | with_reducible apply modeState_keeps
    | with_reducible apply toCycle_keeps
    | split
    | with_reducible refine keeps_fst (by with_reducible assumption) ?_
    | with_reducible refine keeps_upd ?_

theorem deltaRest_keeps (h : Keeps q s) : Keeps q (State.deltaRest s a1) := by
  unfold State.deltaRest
  repeat' first
    | with_reducible assumption
    | with_reducible refine keeps_ite ?_ ?_
    | with_reducible apply deltaStep_keeps
    | with_reducible refine keeps_foldl ?_ (fun _ _ hs => ?_)
    | intro _ _ hs
    | intro _ hs
    | intro hs
    | split

/-! ### AdmitOps -/

theorem showFail_keeps (h : Keeps q s) : Keeps q (State.showFail s a1) := by
  unfold State.showFail
  repeat' first
    | with_reducible assumption
    | (extract_lets +onlyGivenNames y; with_reducible refine keeps_cut (s := y) ?_ ?_; unfold y; clear y; rotate_left; intro hy; clear_value y; revert y; intros)
    | (extract_lets +onlyGivenNames y; clear_value y; revert y; intros)
    | with_reducible refine keeps_ite ?_ ?_
    | with_reducible apply wr_keeps
    | split

theorem showGroups_keeps (h : Keeps q s) : Keeps q (State.showGroups s a1) := by
  unfold State.showGroups
  repeat' first
    | with_reducible assumption
    | (extract_lets +onlyGivenNames y; with_reducible refine keeps_cut (s := y) ?_ ?_; unfold y; clear y; rotate_left; intro hy; clear_value y; revert y; intros)
    | (extract_lets +onlyGivenNames y; clear_value y; revert y; intros)
    | with_reducible apply wr_keeps
    | with_reducible refine keeps_foldl ?_ (fun _ _ hs => ?_)
    | intro _ _ hs
    | intro _ hs
    | intro hs

theorem raiseFloor_keeps (h : Keeps q s) : Keeps q (State.raiseFloor s a1) := by
  unfold State.raiseFloor
  repeat' first
    | with_reducible assumption
    | (extract_lets +onlyGivenNames y; with_reducible refine keeps_cut (s := y) ?_ ?_; unfold y; clear y; rotate_left; intro hy; clear_value y; revert y; intros)
    | with_reducible refine keeps_upd (by with_reducible assumption)
    | (extract_lets +onlyGivenNames y; clear_value y; revert y; intros)
    | with_reducible refine keeps_upd ?_

theorem staleSlots_keeps (h : Keeps q s) : Keeps q (State.staleSlots s a1) := by
  unfold State.staleSlots
  repeat' first
    | with_reducible assumption
    | (extract_lets +onlyGivenNames y; with_reducible refine keeps_cut (s := y) ?_ ?_; unfold y; clear y; rotate_left; intro hy; clear_value y; revert y; intros)
    | with_reducible refine keeps_upd (by with_reducible assumption)
    | (extract_lets +onlyGivenNames y; clear_value y; revert y; intros)
    | with_reducible refine keeps_ite ?_ ?_
    | with_reducible apply wr_keeps
    | with_reducible refine keeps_foldl ?_ (fun _ _ hs => ?_)
    | intro _ _ hs
    | intro _ hs
    | intro hs
    | split
    | with_reducible refine keeps_fst (by with_reducible assumption) ?_
    | with_reducible refine keeps_upd ?_

theorem loadBase_keeps (h : Keeps q s) : Keeps q (State.loadBase s a1) := by
  unfold State.loadBase
  repeat' first
    | with_reducible assumption
    | (extract_lets +onlyGivenNames y; with_reducible refine keeps_cut (s := y) ?_ ?_; unfold y; clear y; rotate_left; intro hy; clear_value y; revert y; intros)
    | with_reducible refine keeps_upd (by with_reducible assumption)
    | (extract_lets +onlyGivenNames y; clear_value y; revert y; intros)
    | with_reducible refine keeps_ite ?_ ?_
    | with_reducible apply wr_keeps
    | with_reducible apply showGroups_keeps
    | with_reducible apply modeFlip_keeps
    | with_reducible apply staleSlots_keeps
    | with_reducible apply abandonSwitch_keeps
    | with_reducible apply loseSwitch_keeps
    | split
    | with_reducible refine keeps_upd ?_

theorem slotChanges_keeps (h : Keeps q s) : Keeps q (State.slotChanges s a1) := by
  unfold State.slotChanges
  repeat' first
    | with_reducible assumption
    | with_reducible refine keeps_ite ?_ ?_
    | with_reducible apply loseSwitch_keeps
    | split

theorem verifyFailed_keeps (h : Keeps q s) : Keeps q (State.verifyFailed s) := by
  unfold State.verifyFailed
  repeat' first
    | with_reducible assumption
    | with_reducible apply inc_keeps
    | with_reducible apply wr_keeps

theorem admitted_keeps (h : Keeps q s) : Keeps q (State.admitted s a1 a2 a3 a4) := by
  unfold State.admitted
  repeat' first
    | with_reducible assumption
    | (extract_lets +onlyGivenNames y; with_reducible refine keeps_cut (s := y) ?_ ?_; unfold y; clear y; rotate_left; intro hy; clear_value y; revert y; intros)
    | with_reducible refine keeps_upd (by with_reducible assumption)
    | (extract_lets +onlyGivenNames y; clear_value y; revert y; intros)
    | with_reducible refine keeps_ite ?_ ?_
    | with_reducible apply showFail_keeps
    | with_reducible apply verifyFailed_keeps
    | with_reducible apply wr_keeps
    | with_reducible apply slotChanges_keeps
    | with_reducible apply raiseFloor_keeps
    | with_reducible apply loadBase_keeps
    | split
    | with_reducible refine keeps_fst (by with_reducible assumption) ?_
    | with_reducible refine keeps_upd ?_

theorem admDone_keeps (h : Keeps q s) : Keeps q (State.admDone s) := by
  unfold State.admDone
  repeat' first
    | with_reducible assumption
    | (extract_lets +onlyGivenNames y; with_reducible refine keeps_cut (s := y) ?_ ?_; unfold y; clear y; rotate_left; intro hy; clear_value y; revert y; intros)
    | with_reducible refine keeps_upd (by with_reducible assumption)
    | (extract_lets +onlyGivenNames y; clear_value y; revert y; intros)
    | with_reducible refine keeps_ite ?_ ?_
    | with_reducible apply wr_keeps
    | with_reducible apply wake_keeps
    | split
    | with_reducible refine keeps_upd ?_

theorem admStart_keeps (h : Keeps q s) : Keeps q (State.admStart s a1 a2) := by
  unfold State.admStart
  repeat' first
    | with_reducible assumption
    | (extract_lets +onlyGivenNames y; with_reducible refine keeps_cut (s := y) ?_ ?_; unfold y; clear y; rotate_left; intro hy; clear_value y; revert y; intros)
    | with_reducible refine keeps_upd (by with_reducible assumption)
    | (extract_lets +onlyGivenNames y; clear_value y; revert y; intros)
    | with_reducible refine keeps_ite ?_ ?_
    | with_reducible apply wr_keeps
    | with_reducible apply admDone_keeps
    | with_reducible apply showFail_keeps
    | split
    | with_reducible refine keeps_upd ?_

theorem execTtAdmStart_keeps (h : Keeps q s) : KeepsN q (execTtAdmStart a1 a2 s) := by
  unfold execTtAdmStart
  repeat' first
    | with_reducible assumption
    | with_reducible refine keepsN_next ?_
    | with_reducible apply admStart_keeps

theorem execTtAdmAbort_keeps (h : Keeps q s) : KeepsN q (execTtAdmAbort s) := by
  unfold execTtAdmAbort
  repeat' first
    | with_reducible assumption
    | with_reducible refine keepsN_next ?_
    | (extract_lets +onlyGivenNames y; with_reducible refine keeps_cut (s := y) ?_ ?_; unfold y; clear y; rotate_left; intro hy; clear_value y; revert y; intros)
    | with_reducible refine keeps_upd (by with_reducible assumption)
    | (extract_lets +onlyGivenNames y; clear_value y; revert y; intros)
    | with_reducible apply wr_keeps
    | with_reducible apply wake_keeps
    | split
    | with_reducible refine keeps_fst (by with_reducible assumption) ?_
    | with_reducible refine keeps_upd ?_

theorem admRun_keeps (h : Keeps q s) : Keeps q (State.admRun s a1 a2) := by
  unfold State.admRun
  repeat' first
    | with_reducible assumption
    | (extract_lets +onlyGivenNames y; with_reducible refine keeps_cut (s := y) ?_ ?_; unfold y; clear y; rotate_left; intro hy; clear_value y; revert y; intros)
    | with_reducible refine keeps_upd (by with_reducible assumption)
    | (extract_lets +onlyGivenNames y; clear_value y; revert y; intros)
    | with_reducible refine keeps_ite ?_ ?_
    | with_reducible apply showFail_keeps
    | with_reducible apply wr_keeps
    | with_reducible apply admitted_keeps
    | split
    | with_reducible refine keeps_fst (by with_reducible assumption) ?_
    | with_reducible refine keeps_upd ?_

theorem execAdmissionComplete_keeps (h : Keeps q s) : KeepsN q (execAdmissionComplete s) := by
  unfold execAdmissionComplete
  repeat' first
    | with_reducible assumption
    | with_reducible refine keepsN_next ?_
    | (extract_lets +onlyGivenNames y; with_reducible refine keeps_cut (s := y) ?_ ?_; unfold y; clear y; rotate_left; intro hy; clear_value y; revert y; intros)
    | with_reducible refine keeps_upd (by with_reducible assumption)
    | (extract_lets +onlyGivenNames y; clear_value y; revert y; intros)
    | with_reducible apply admDone_keeps
    | with_reducible apply admRun_keeps
    | split
    | with_reducible refine keeps_fst (by with_reducible assumption) ?_
    | with_reducible refine keeps_upd ?_

theorem relocCheck_keeps (h : Keeps q s) : Keeps q (State.relocCheck s a1 a2) := by
  unfold State.relocCheck
  repeat' first
    | with_reducible assumption
    | (extract_lets +onlyGivenNames y; with_reducible refine keeps_cut (s := y) ?_ ?_; unfold y; clear y; rotate_left; intro hy; clear_value y; revert y; intros)
    | with_reducible refine keeps_upd (by with_reducible assumption)
    | (extract_lets +onlyGivenNames y; clear_value y; revert y; intros)
    | with_reducible refine keeps_ite ?_ ?_
    | with_reducible apply wr_keeps
    | split
    | with_reducible refine keeps_upd ?_

theorem execLtRelocCheck_keeps (h : Keeps q s) : KeepsN q (execLtRelocCheck a1 a2 s) := by
  unfold execLtRelocCheck
  repeat' first
    | with_reducible assumption
    | with_reducible refine keepsN_next ?_
    | (extract_lets +onlyGivenNames y; with_reducible refine keeps_cut (s := y) ?_ ?_; unfold y; clear y; rotate_left; intro hy; clear_value y; revert y; intros)
    | (extract_lets +onlyGivenNames y; clear_value y; revert y; intros)
    | with_reducible refine keeps_ite ?_ ?_
    | with_reducible refine keepsN_ite ?_ ?_
    | with_reducible apply wr_keeps
    | with_reducible apply relocCheck_keeps
    | split

theorem copyMem_keeps (h : Keeps q s) : Keeps q (State.copyMem s a1 a2 a3) := by
  unfold State.copyMem
  repeat' first
    | with_reducible assumption
    | (extract_lets +onlyGivenNames y; with_reducible refine keeps_cut (s := y) ?_ ?_; unfold y; clear y; rotate_left; intro hy; clear_value y; revert y; intros)
    | (extract_lets +onlyGivenNames y; clear_value y; revert y; intros)
    | with_reducible apply setByte_keeps
    | with_reducible apply clearMem_keeps
    | with_reducible refine keeps_foldl ?_ (fun _ _ hs => ?_)
    | intro _ _ hs
    | intro _ hs
    | intro hs

theorem copyTile_keeps (h : Keeps q s) : Keeps q (State.copyTile s a1 a2) := by
  unfold State.copyTile
  repeat' first
    | with_reducible assumption
    | (extract_lets +onlyGivenNames y; with_reducible refine keeps_cut (s := y) ?_ ?_; unfold y; clear y; rotate_left; intro hy; clear_value y; revert y; intros)
    | with_reducible refine keeps_upd (by with_reducible assumption)
    | (extract_lets +onlyGivenNames y; clear_value y; revert y; intros)
    | with_reducible apply copyMem_keeps
    | with_reducible apply updTile_keeps
    | intro _ _ hs
    | intro _ hs
    | intro hs
    | with_reducible refine keeps_upd ?_

theorem copyOut_keeps (h : Keeps q s) : Keeps q (State.copyOut s a1 a2 a3) := by
  unfold State.copyOut
  repeat' first
    | with_reducible assumption
    | (extract_lets +onlyGivenNames y; with_reducible refine keeps_cut (s := y) ?_ ?_; unfold y; clear y; rotate_left; intro hy; clear_value y; revert y; intros)
    | (extract_lets +onlyGivenNames y; clear_value y; revert y; intros)
    | with_reducible apply copyTile_keeps
    | with_reducible apply land_keeps
    | with_reducible apply tileEcc_keeps

theorem relocFlip_keeps (h : Keeps q s) : Keeps q (State.relocFlip s) := by
  unfold State.relocFlip
  repeat' first
    | with_reducible assumption
    | (extract_lets +onlyGivenNames y; with_reducible refine keeps_cut (s := y) ?_ ?_; unfold y; clear y; rotate_left; intro hy; clear_value y; revert y; intros)
    | with_reducible refine keeps_upd (by with_reducible assumption)
    | (extract_lets +onlyGivenNames y; clear_value y; revert y; intros)
    | with_reducible apply wr_keeps
    | with_reducible apply wake_keeps
    | with_reducible apply hsUse_keeps
    | split
    | with_reducible refine keeps_fst (by with_reducible assumption) ?_
    | with_reducible refine keeps_upd ?_

theorem relocCommit_keeps (h : Keeps q s) : Keeps q (State.relocCommit s) := by
  unfold State.relocCommit
  repeat' first
    | with_reducible assumption
    | (extract_lets +onlyGivenNames y; with_reducible refine keeps_cut (s := y) ?_ ?_; unfold y; clear y; rotate_left; intro hy; clear_value y; revert y; intros)
    | with_reducible refine keeps_upd (by with_reducible assumption)
    | (extract_lets +onlyGivenNames y; clear_value y; revert y; intros)
    | with_reducible refine keeps_ite ?_ ?_
    | with_reducible apply wr_keeps
    | with_reducible apply copyOut_keeps
    | with_reducible apply relocFlip_keeps
    | split
    | with_reducible refine keeps_fst (by with_reducible assumption) ?_
    | with_reducible refine keeps_upd ?_

theorem execPlacementCheckComplete_keeps (h : Keeps q s) : KeepsN q (execPlacementCheckComplete s) := by
  unfold execPlacementCheckComplete
  repeat' first
    | with_reducible assumption
    | with_reducible refine keepsN_next ?_
    | (extract_lets +onlyGivenNames y; with_reducible refine keeps_cut (s := y) ?_ ?_; unfold y; clear y; rotate_left; intro hy; clear_value y; revert y; intros)
    | with_reducible refine keeps_upd (by with_reducible assumption)
    | (extract_lets +onlyGivenNames y; clear_value y; revert y; intros)
    | with_reducible refine keeps_ite ?_ ?_
    | with_reducible refine keepsN_ite ?_ ?_
    | with_reducible apply wr_keeps
    | with_reducible apply relocCommit_keeps
    | with_reducible apply wake_keeps
    | intro _ _ hs
    | intro _ hs
    | intro hs
    | split
    | with_reducible refine keeps_fst (by with_reducible assumption) ?_
    | with_reducible refine keeps_upd ?_

theorem execLtRelocCommit_keeps (h : Keeps q s) : KeepsN q (execLtRelocCommit s) := by
  unfold execLtRelocCommit
  repeat' first
    | with_reducible assumption
    | with_reducible refine keepsN_next ?_
    | with_reducible refine keeps_ite ?_ ?_
    | with_reducible refine keepsN_ite ?_ ?_
    | with_reducible apply relocCommit_keeps
    | split

theorem execTileRelocation_keeps (h : Keeps q s) : KeepsN q (execTileRelocation a1 s) := by
  unfold execTileRelocation
  repeat' first
    | with_reducible assumption
    | with_reducible refine keepsN_next ?_
    | (extract_lets +onlyGivenNames y; with_reducible refine keeps_cut (s := y) ?_ ?_; unfold y; clear y; rotate_left; intro hy; clear_value y; revert y; intros)
    | with_reducible refine keeps_upd (by with_reducible assumption)
    | (extract_lets +onlyGivenNames y; clear_value y; revert y; intros)
    | with_reducible apply copyOut_keeps
    | with_reducible apply settle_keeps
    | with_reducible apply toCycle_keeps
    | split
    | with_reducible refine keeps_fst (by with_reducible assumption) ?_
    | with_reducible refine keeps_upd ?_

theorem execTileShadow_keeps (h : Keeps q s) : KeepsN q (execTileShadow a1 a2 a3 s) := by
  unfold execTileShadow
  repeat' first
    | with_reducible assumption
    | with_reducible refine keepsN_next ?_
    | (extract_lets +onlyGivenNames y; with_reducible refine keeps_cut (s := y) ?_ ?_; unfold y; clear y; rotate_left; intro hy; clear_value y; revert y; intros)
    | with_reducible refine keeps_upd (by with_reducible assumption)
    | (extract_lets +onlyGivenNames y; clear_value y; revert y; intros)
    | with_reducible refine keeps_ite ?_ ?_
    | with_reducible refine keepsN_ite ?_ ?_
    | with_reducible apply wr_keeps
    | with_reducible apply copyOut_keeps
    | with_reducible apply settle_keeps
    | with_reducible apply toCycle_keeps
    | intro _ _ hs
    | intro _ hs
    | intro hs
    | split
    | with_reducible refine keeps_upd ?_

theorem tileFails_keeps (h : Keeps q s) : Keeps q (State.tileFails s a1) := by
  unfold State.tileFails
  repeat' first
    | with_reducible assumption
    | (extract_lets +onlyGivenNames y; with_reducible refine keeps_cut (s := y) ?_ ?_; unfold y; clear y; rotate_left; intro hy; clear_value y; revert y; intros)
    | with_reducible refine keeps_upd (by with_reducible assumption)
    | (extract_lets +onlyGivenNames y; clear_value y; revert y; intros)
    | with_reducible apply wr_keeps
    | with_reducible refine keeps_upd ?_

theorem execTileShadowCompare_keeps (h : Keeps q s) : KeepsN q (execTileShadowCompare a1 s) := by
  unfold execTileShadowCompare
  repeat' first
    | with_reducible assumption
    | with_reducible refine keepsN_next ?_
    | (extract_lets +onlyGivenNames y; with_reducible refine keeps_cut (s := y) ?_ ?_; unfold y; clear y; rotate_left; intro hy; clear_value y; revert y; intros)
    | (extract_lets +onlyGivenNames y; with_reducible refine keeps_cutF (f := y) ?_ ?_; unfold y; clear y; rotate_left; intro hy; clear_value y; revert y; intro fF hF)
    | with_reducible refine keeps_upd (by with_reducible assumption)
    | (extract_lets +onlyGivenNames y; clear_value y; revert y; intros)
    | with_reducible refine keeps_ite ?_ ?_
    | with_reducible refine keepsN_ite ?_ ?_
    | with_reducible apply hF
    | with_reducible apply settle_keeps
    | with_reducible apply toCycle_keeps
    | with_reducible apply wr_keeps
    | with_reducible apply inc_keeps
    | with_reducible apply hsUse_keeps
    | with_reducible apply tileFails_keeps
    | intro _ _ hs
    | intro _ hs
    | intro hs
    | split
    | with_reducible refine keeps_fst (by with_reducible assumption) ?_
    | with_reducible refine keeps_upd ?_

/-! ### Ticks -/

theorem toTick_keeps (h : Keeps q s) : Keeps q (State.toTick s) := by
  unfold State.toTick
  repeat' first
    | with_reducible assumption
    | with_reducible refine keeps_ite ?_ ?_
    | with_reducible apply toFrc_keeps
    | split

theorem stage_keeps (h : Keeps q s) : Keeps q (State.stage s a1 a2 a3 a4) := by
  unfold State.stage
  repeat' first
    | with_reducible assumption
    | (extract_lets +onlyGivenNames y; with_reducible refine keeps_cut (s := y) ?_ ?_; unfold y; clear y; rotate_left; intro hy; clear_value y; revert y; intros)
    | with_reducible refine keeps_upd (by with_reducible assumption)
    | (extract_lets +onlyGivenNames y; clear_value y; revert y; intros)
    | with_reducible refine keeps_upd ?_

theorem adopt_keeps (h : Keeps q s) : Keeps q (State.adopt s a1 a2 a3) := by
  unfold State.adopt
  repeat' first
    | with_reducible assumption
    | (extract_lets +onlyGivenNames y; with_reducible refine keeps_cut (s := y) ?_ ?_; unfold y; clear y; rotate_left; intro hy; clear_value y; revert y; intros)
    | with_reducible refine keeps_upd (by with_reducible assumption)
    | (extract_lets +onlyGivenNames y; clear_value y; revert y; intros)
    | with_reducible apply wr_keeps
    | with_reducible refine keeps_upd ?_

theorem unstage_keeps (h : Keeps q s) : Keeps q (State.unstage s a1 a2) := by
  unfold State.unstage
  repeat' first
    | with_reducible assumption
    | (extract_lets +onlyGivenNames y; with_reducible refine keeps_cut (s := y) ?_ ?_; unfold y; clear y; rotate_left; intro hy; clear_value y; revert y; intros)
    | with_reducible refine keeps_upd (by with_reducible assumption)
    | (extract_lets +onlyGivenNames y; clear_value y; revert y; intros)
    | intro _ _ hs
    | intro _ hs
    | intro hs
    | with_reducible refine keeps_upd ?_

theorem applyDone_keeps (h : Keeps q s) : Keeps q (State.applyDone s a1 a2 a3) := by
  unfold State.applyDone
  repeat' first
    | with_reducible assumption
    | with_reducible apply wake_keeps

theorem upTo_keeps (h : Keeps q s) (hf : ∀ s, Keeps q s → Keeps q (f s)) : Keeps q (State.upTo s a1 f) := by
  unfold State.upTo
  repeat' first
    | with_reducible assumption
    | with_reducible refine keeps_ite ?_ ?_
    | with_reducible apply toFrc_keeps
    | with_reducible apply hf
    | split

end Sys2Proof.Laws
end

