-- ==== Sys2Proof/Laws/KeepsFields.lean ====
section
/-! SUPPORT. Every operation and meaning of field groups, HART, discrete I/O, engine windows, chains, ingest and CAN leaves the queue of waiting commands alone and keeps a sound state sound. -/

set_option Elab.async false

namespace Sys2Proof.Laws

open Sys2Proof Sys2Proof.Machine Sys2Proof.Safety

variable {q : Prop × List Instr × Option (List (Nat × Nat))} {s : State}

/-! ### FieldGroups -/

theorem keepFlags_keeps (h : Keeps q s) : Keeps q (State.keepFlags s a1 a2 a3) := by
  unfold State.keepFlags
  repeat' first
    | with_reducible assumption
    | with_reducible refine keeps_ite ?_ ?_
    | with_reducible apply wr_keeps
    | with_reducible refine keeps_foldl ?_ (fun _ _ hs => ?_)
    | intro _ _ hs
    | intro _ hs
    | intro hs
    | split

theorem closeWindow_keeps (h : Keeps q s) : Keeps q (State.closeWindow s a1 a2) := by
  unfold State.closeWindow
  repeat' first
    | with_reducible assumption
    | (extract_lets +onlyGivenNames y; with_reducible refine keeps_cut (s := y) ?_ ?_; unfold y; clear y; rotate_left; intro hy; clear_value y; revert y; intros)
    | with_reducible refine keeps_upd (by with_reducible assumption)
    | (extract_lets +onlyGivenNames y; clear_value y; revert y; intros)
    | with_reducible refine keeps_ite ?_ ?_
    | with_reducible apply wr_keeps
    | with_reducible apply nextFree_keeps
    | with_reducible apply keepFlags_keeps
    | with_reducible apply updChan_keeps
    | intro _ _ hs
    | intro _ hs
    | intro hs
    | split
    | with_reducible refine keeps_fst (by with_reducible assumption) ?_
    | with_reducible refine keeps_upd ?_

theorem closeParked_keeps (h : Keeps q s) : Keeps q (State.closeParked s a1) := by
  unfold State.closeParked
  repeat' first
    | with_reducible assumption
    | (extract_lets +onlyGivenNames y; with_reducible refine keeps_cut (s := y) ?_ ?_; unfold y; clear y; rotate_left; intro hy; clear_value y; revert y; intros)
    | with_reducible refine keeps_upd (by with_reducible assumption)
    | (extract_lets +onlyGivenNames y; clear_value y; revert y; intros)
    | with_reducible refine keeps_ite ?_ ?_
    | with_reducible apply closeWindow_keeps
    | with_reducible apply updChan_keeps
    | with_reducible refine keeps_foldl ?_ (fun _ _ hs => ?_)
    | intro _ _ hs
    | intro _ hs
    | intro hs
    | split
    | with_reducible refine keeps_fst (by with_reducible assumption) ?_
    | with_reducible refine keeps_upd ?_

theorem fallbackMeas_keeps (h : Keeps q s) : Keeps q (State.fallbackMeas s a1 a2) := by
  unfold State.fallbackMeas
  repeat' first
    | with_reducible assumption
    | with_reducible refine keeps_ite ?_ ?_
    | with_reducible apply keepFlags_keeps
    | split

theorem execConversionWindowEnd_keeps (h : Keeps q s) : KeepsN q (execConversionWindowEnd a1 a2 s) := by
  unfold execConversionWindowEnd
  repeat' first
    | with_reducible assumption
    | with_reducible refine keepsN_next ?_
    | (extract_lets +onlyGivenNames y; with_reducible refine keeps_cut (s := y) ?_ ?_; unfold y; clear y; rotate_left; intro hy; clear_value y; revert y; intros)
    | with_reducible refine keeps_upd (by with_reducible assumption)
    | (extract_lets +onlyGivenNames y; clear_value y; revert y; intros)
    | with_reducible refine keeps_ite ?_ ?_
    | with_reducible refine keepsN_ite ?_ ?_
    | with_reducible apply fallbackMeas_keeps
    | with_reducible apply toFrc_keeps
    | with_reducible apply updChan_keeps
    | with_reducible apply closeParked_keeps
    | with_reducible apply closeWindow_keeps
    | intro _ _ hs
    | intro _ hs
    | intro hs
    | split
    | with_reducible refine keeps_fst (by with_reducible assumption) ?_
    | with_reducible refine keeps_upd ?_

theorem freezeFields_keeps (h : Keeps q s) : Keeps q (State.freezeFields s) := by
  unfold State.freezeFields
  repeat' first
    | with_reducible assumption
    | (extract_lets +onlyGivenNames y; with_reducible refine keeps_cut (s := y) ?_ ?_; unfold y; clear y; rotate_left; intro hy; clear_value y; revert y; intros)
    | with_reducible refine keeps_upd (by with_reducible assumption)
    | (extract_lets +onlyGivenNames y; clear_value y; revert y; intros)
    | intro _ _ hs
    | intro _ hs
    | intro hs
    | with_reducible refine keeps_upd ?_

theorem updGroupChans_keeps (h : Keeps q s) : Keeps q (State.updGroupChans s a1 a2) := by
  unfold State.updGroupChans
  repeat' first
    | with_reducible assumption
    | (extract_lets +onlyGivenNames y; with_reducible refine keeps_cut (s := y) ?_ ?_; unfold y; clear y; rotate_left; intro hy; clear_value y; revert y; intros)
    | with_reducible refine keeps_upd (by with_reducible assumption)
    | (extract_lets +onlyGivenNames y; clear_value y; revert y; intros)
    | with_reducible refine keeps_ite ?_ ?_
    | intro _ _ hs
    | intro _ hs
    | intro hs
    | split
    | with_reducible refine keeps_upd ?_

theorem crossFail_keeps (h : Keeps q s) : Keeps q (State.crossFail s a1) := by
  unfold State.crossFail
  repeat' first
    | with_reducible assumption
    | (extract_lets +onlyGivenNames y; with_reducible refine keeps_cut (s := y) ?_ ?_; unfold y; clear y; rotate_left; intro hy; clear_value y; revert y; intros)
    | with_reducible refine keeps_upd (by with_reducible assumption)
    | (extract_lets +onlyGivenNames y; clear_value y; revert y; intros)
    | with_reducible apply updGroupChans_keeps
    | with_reducible apply inc_keeps
    | intro _ _ hs
    | intro _ hs
    | intro hs
    | with_reducible refine keeps_upd ?_

theorem execFieldControlFrame_keeps (h : Keeps q s) : KeepsN q (execFieldControlFrame a1 a2 s) := by
  unfold execFieldControlFrame
  repeat' first
    | with_reducible assumption
    | with_reducible refine keepsN_next ?_
    | (extract_lets +onlyGivenNames y; with_reducible refine keeps_cut (s := y) ?_ ?_; unfold y; clear y; rotate_left; intro hy; clear_value y; revert y; intros)
    | with_reducible refine keeps_upd (by with_reducible assumption)
    | (extract_lets +onlyGivenNames y; clear_value y; revert y; intros)
    | with_reducible refine keeps_ite ?_ ?_
    | with_reducible refine keepsN_ite ?_ ?_
    | with_reducible apply upTo_keeps
    | with_reducible apply updGroup_keeps
    | with_reducible apply updGroupChans_keeps
    | with_reducible apply wr_keeps
    | with_reducible apply crossFail_keeps
    | intro _ _ hs
    | intro _ hs
    | intro hs
    | split
    | with_reducible refine keeps_upd ?_

theorem fallback_keeps (h : Keeps q s) : Keeps q (State.fallback s a1 a2) := by
  unfold State.fallback
  repeat' first
    | with_reducible assumption
    | (extract_lets +onlyGivenNames y; with_reducible refine keeps_cut (s := y) ?_ ?_; unfold y; clear y; rotate_left; intro hy; clear_value y; revert y; intros)
    | (extract_lets +onlyGivenNames y; clear_value y; revert y; intros)
    | with_reducible refine keeps_ite ?_ ?_
    | with_reducible apply wr_keeps
    | with_reducible apply driveChans_keeps
    | with_reducible refine keeps_foldl ?_ (fun _ _ hs => ?_)
    | intro _ _ hs
    | intro _ hs
    | intro hs
    | split

theorem execGroupFallbackEntry_keeps (h : Keeps q s) : KeepsN q (execGroupFallbackEntry a1 s) := by
  unfold execGroupFallbackEntry
  repeat' first
    | with_reducible assumption
    | with_reducible refine keepsN_next ?_
    | (extract_lets +onlyGivenNames y; with_reducible refine keeps_cut (s := y) ?_ ?_; unfold y; clear y; rotate_left; intro hy; clear_value y; revert y; intros)
    | with_reducible refine keeps_upd (by with_reducible assumption)
    | (extract_lets +onlyGivenNames y; clear_value y; revert y; intros)
    | with_reducible refine keeps_ite ?_ ?_
    | with_reducible refine keepsN_ite ?_ ?_
    | with_reducible apply fallback_keeps
    | with_reducible apply updGroup_keeps
    | intro _ _ hs
    | intro _ hs
    | intro hs
    | split
    | with_reducible refine keeps_upd ?_

theorem execGroupResume_keeps (h : Keeps q s) : KeepsN q (execGroupResume a1 s) := by
  unfold execGroupResume
  repeat' first
    | with_reducible assumption
    | with_reducible refine keepsN_next ?_
    | (extract_lets +onlyGivenNames y; with_reducible refine keeps_cut (s := y) ?_ ?_; unfold y; clear y; rotate_left; intro hy; clear_value y; revert y; intros)
    | with_reducible refine keeps_upd (by with_reducible assumption)
    | (extract_lets +onlyGivenNames y; clear_value y; revert y; intros)
    | with_reducible refine keeps_ite ?_ ?_
    | with_reducible refine keepsN_ite ?_ ?_
    | with_reducible apply driveChans_keeps
    | with_reducible apply wr_keeps
    | with_reducible apply updGroup_keeps
    | with_reducible apply toTick_keeps
    | intro _ _ hs
    | intro _ hs
    | intro hs
    | split
    | with_reducible refine keeps_upd ?_

theorem execSafeStateLineAssert_keeps (h : Keeps q s) : KeepsN q (execSafeStateLineAssert s) := by
  unfold execSafeStateLineAssert
  repeat' first
    | with_reducible assumption
    | with_reducible refine keepsN_next ?_
    | with_reducible apply safeLine_keeps

theorem execGroupSupplyFail_keeps (h : Keeps q s) : KeepsN q (execGroupSupplyFail a1 s) := by
  unfold execGroupSupplyFail
  repeat' first
    | with_reducible assumption
    | with_reducible refine keepsN_next ?_
    | (extract_lets +onlyGivenNames y; with_reducible refine keeps_cut (s := y) ?_ ?_; unfold y; clear y; rotate_left; intro hy; clear_value y; revert y; intros)
    | with_reducible refine keeps_upd (by with_reducible assumption)
    | (extract_lets +onlyGivenNames y; clear_value y; revert y; intros)
    | with_reducible refine keeps_ite ?_ ?_
    | with_reducible refine keepsN_ite ?_ ?_
    | with_reducible apply wake_keeps
    | with_reducible apply driveChans_keeps
    | with_reducible apply wr_keeps
    | with_reducible apply updGroup_keeps
    | intro _ _ hs
    | intro _ hs
    | intro hs
    | split
    | with_reducible refine keeps_upd ?_

theorem execGroupSupplyReturn_keeps (h : Keeps q s) : KeepsN q (execGroupSupplyReturn a1 s) := by
  unfold execGroupSupplyReturn
  repeat' first
    | with_reducible assumption
    | with_reducible refine keepsN_next ?_
    | (extract_lets +onlyGivenNames y; with_reducible refine keeps_cut (s := y) ?_ ?_; unfold y; clear y; rotate_left; intro hy; clear_value y; revert y; intros)
    | with_reducible refine keeps_upd (by with_reducible assumption)
    | (extract_lets +onlyGivenNames y; clear_value y; revert y; intros)
    | with_reducible refine keeps_ite ?_ ?_
    | with_reducible refine keepsN_ite ?_ ?_
    | with_reducible apply fallback_keeps
    | with_reducible apply updGroupChans_keeps
    | with_reducible apply updGroup_keeps
    | intro _ _ hs
    | intro _ hs
    | intro hs
    | split
    | with_reducible refine keeps_upd ?_

theorem fgRefuse_keeps (h : Keeps q s) : Keeps q (State.fgRefuse s a1 a2 a3) := by
  unfold State.fgRefuse
  repeat' first
    | with_reducible assumption
    | with_reducible apply wr_keeps

theorem fgApply_keeps (h : Keeps q s) : Keeps q (State.fgApply s a1) := by
  unfold State.fgApply
  repeat' first
    | with_reducible assumption
    | (extract_lets +onlyGivenNames y; with_reducible refine keeps_cut (s := y) ?_ ?_; unfold y; clear y; rotate_left; intro hy; clear_value y; revert y; intros)
    | with_reducible refine keeps_upd (by with_reducible assumption)
    | (extract_lets +onlyGivenNames y; clear_value y; revert y; intros)
    | with_reducible apply applyDone_keeps
    | with_reducible apply fgRefuse_keeps
    | with_reducible apply wr_keeps
    | split
    | with_reducible refine keeps_fst (by with_reducible assumption) ?_
    | with_reducible refine keeps_upd ?_

theorem execFgApply_keeps (h : Keeps q s) : KeepsN q (execFgApply a1 s) := by
  unfold execFgApply
  repeat' first
    | with_reducible assumption
    | with_reducible refine keepsN_next ?_
    | with_reducible refine keeps_ite ?_ ?_
    | with_reducible refine keepsN_ite ?_ ?_
    | with_reducible apply fgApply_keeps
    | split

theorem fgCancel_keeps (h : Keeps q s) : Keeps q (State.fgCancel s a1) := by
  unfold State.fgCancel
  repeat' first
    | with_reducible assumption
    | with_reducible apply applyDone_keeps
    | with_reducible apply wr_keeps
    | with_reducible apply unstage_keeps

theorem execFgApplyCancel_keeps (h : Keeps q s) : KeepsN q (execFgApplyCancel a1 s) := by
  unfold execFgApplyCancel
  repeat' first
    | with_reducible assumption
    | with_reducible refine keepsN_next ?_
    | with_reducible refine keeps_ite ?_ ?_
    | with_reducible refine keepsN_ite ?_ ?_
    | with_reducible apply fgCancel_keeps
    | split

theorem applyTerminal_keeps (h : Keeps q s) : Keeps q (State.applyTerminal s a1 a2) := by
  unfold State.applyTerminal
  repeat' first
    | with_reducible assumption
    | (extract_lets +onlyGivenNames y; with_reducible refine keeps_cut (s := y) ?_ ?_; unfold y; clear y; rotate_left; intro hy; clear_value y; revert y; intros)
    | with_reducible refine keeps_upd (by with_reducible assumption)
    | (extract_lets +onlyGivenNames y; clear_value y; revert y; intros)
    | with_reducible refine keeps_ite ?_ ?_
    | with_reducible apply adopt_keeps
    | with_reducible apply updChan_keeps
    | with_reducible apply updGroup_keeps
    | with_reducible refine keeps_foldl ?_ (fun _ _ hs => ?_)
    | intro _ _ hs
    | intro _ hs
    | intro hs
    | split
    | with_reducible refine keeps_upd ?_

theorem execFgApplyTakesEffect_keeps (h : Keeps q s) : KeepsN q (execFgApplyTakesEffect a1 s) := by
  unfold execFgApplyTakesEffect
  repeat' first
    | with_reducible assumption
    | with_reducible refine keepsN_next ?_
    | (extract_lets +onlyGivenNames y; with_reducible refine keeps_cut (s := y) ?_ ?_; unfold y; clear y; rotate_left; intro hy; clear_value y; revert y; intros)
    | with_reducible refine keeps_upd (by with_reducible assumption)
    | (extract_lets +onlyGivenNames y; clear_value y; revert y; intros)
    | with_reducible refine keeps_ite ?_ ?_
    | with_reducible refine keepsN_ite ?_ ?_
    | with_reducible apply toTick_keeps
    | with_reducible apply applyDone_keeps
    | with_reducible apply fgRefuse_keeps
    | with_reducible apply applyTerminal_keeps
    | with_reducible apply wr_keeps
    | with_reducible apply driveChans_keeps
    | with_reducible apply rateAdapted_keeps
    | with_reducible apply loseSwitch_keeps
    | with_reducible refine keeps_foldl ?_ (fun _ _ hs => ?_)
    | intro _ _ hs
    | intro _ hs
    | intro hs
    | split
    | with_reducible refine keeps_fst (by with_reducible assumption) ?_
    | with_reducible refine keeps_upd ?_

theorem spareStart_keeps (h : Keeps q s) : Keeps q (State.spareStart s a1 a2) := by
  unfold State.spareStart
  repeat' first
    | with_reducible assumption
    | (extract_lets +onlyGivenNames y; with_reducible refine keeps_cut (s := y) ?_ ?_; unfold y; clear y; rotate_left; intro hy; clear_value y; revert y; intros)
    | with_reducible refine keeps_upd (by with_reducible assumption)
    | (extract_lets +onlyGivenNames y; clear_value y; revert y; intros)
    | with_reducible apply updGroup_keeps
    | with_reducible apply wr_keeps
    | intro _ _ hs
    | intro _ hs
    | intro hs
    | split
    | with_reducible refine keeps_fst (by with_reducible assumption) ?_
    | with_reducible refine keeps_upd ?_

theorem execFgSpareStart_keeps (h : Keeps q s) : KeepsN q (execFgSpareStart a1 a2 s) := by
  unfold execFgSpareStart
  repeat' first
    | with_reducible assumption
    | with_reducible refine keepsN_next ?_
    | with_reducible refine keeps_ite ?_ ?_
    | with_reducible refine keepsN_ite ?_ ?_
    | with_reducible apply spareStart_keeps
    | split

theorem spareCancel_keeps (h : Keeps q s) : Keeps q (State.spareCancel s a1) := by
  unfold State.spareCancel
  repeat' first
    | with_reducible assumption
    | (extract_lets +onlyGivenNames y; with_reducible refine keeps_cut (s := y) ?_ ?_; unfold y; clear y; rotate_left; intro hy; clear_value y; revert y; intros)
    | with_reducible refine keeps_upd (by with_reducible assumption)
    | (extract_lets +onlyGivenNames y; clear_value y; revert y; intros)
    | with_reducible refine keeps_ite ?_ ?_
    | with_reducible apply wake_keeps
    | with_reducible apply wr_keeps
    | with_reducible apply updGroup_keeps
    | intro _ _ hs
    | intro _ hs
    | intro hs
    | split
    | with_reducible refine keeps_upd ?_

theorem execFgSpareCancel_keeps (h : Keeps q s) : KeepsN q (execFgSpareCancel a1 s) := by
  unfold execFgSpareCancel
  repeat' first
    | with_reducible assumption
    | with_reducible refine keepsN_next ?_
    | with_reducible apply spareCancel_keeps

theorem execSpareTakeover_keeps (h : Keeps q s) : KeepsN q (execSpareTakeover a1 s) := by
  unfold execSpareTakeover
  repeat' first
    | with_reducible assumption
    | with_reducible refine keepsN_next ?_
    | (extract_lets +onlyGivenNames y; with_reducible refine keeps_cut (s := y) ?_ ?_; unfold y; clear y; rotate_left; intro hy; clear_value y; revert y; intros)
    | with_reducible refine keeps_upd (by with_reducible assumption)
    | (extract_lets +onlyGivenNames y; clear_value y; revert y; intros)
    | with_reducible refine keeps_ite ?_ ?_
    | with_reducible refine keepsN_ite ?_ ?_
    | with_reducible apply toTick_keeps
    | with_reducible apply wr_keeps
    | with_reducible apply wake_keeps
    | with_reducible apply hsUse_keeps
    | with_reducible apply updGroup_keeps
    | intro _ _ hs
    | intro _ hs
    | intro hs
    | split
    | with_reducible refine keeps_fst (by with_reducible assumption) ?_
    | with_reducible refine keeps_upd ?_

theorem execLoopPowerSample_keeps (h : Keeps q s) : KeepsN q (execLoopPowerSample a1 s) := by
  unfold execLoopPowerSample
  repeat' first
    | with_reducible assumption
    | with_reducible refine keepsN_next ?_
    | (extract_lets +onlyGivenNames y; with_reducible refine keeps_cut (s := y) ?_ ?_; unfold y; clear y; rotate_left; intro hy; clear_value y; revert y; intros)
    | with_reducible refine keeps_upd (by with_reducible assumption)
    | (extract_lets +onlyGivenNames y; clear_value y; revert y; intros)
    | with_reducible refine keeps_ite ?_ ?_
    | with_reducible refine keepsN_ite ?_ ?_
    | with_reducible apply upTo_keeps
    | with_reducible apply wr_keeps
    | with_reducible refine keeps_foldl ?_ (fun _ _ hs => ?_)
    | intro _ _ hs
    | intro _ hs
    | intro hs
    | split
    | with_reducible refine keeps_upd ?_

theorem execChFlagsWrite_keeps (h : Keeps q s) : KeepsN q (execChFlagsWrite a1 a2 s) := by
  unfold execChFlagsWrite
  repeat' first
    | with_reducible assumption
    | with_reducible refine keepsN_next ?_
    | (extract_lets +onlyGivenNames y; with_reducible refine keeps_cut (s := y) ?_ ?_; unfold y; clear y; rotate_left; intro hy; clear_value y; revert y; intros)
    | (extract_lets +onlyGivenNames y; clear_value y; revert y; intros)
    | with_reducible refine keeps_ite ?_ ?_
    | with_reducible refine keepsN_ite ?_ ?_
    | with_reducible apply wr_keeps
    | with_reducible refine keeps_foldl ?_ (fun _ _ hs => ?_)
    | intro _ _ hs
    | intro _ hs
    | intro hs
    | split

/-! ### Hart -/

theorem updHart_keeps (h : Keeps q s) : Keeps q (State.updHart s a1 a2) := by
  unfold State.updHart
  repeat' first
    | with_reducible assumption
    | (extract_lets +onlyGivenNames y; with_reducible refine keeps_cut (s := y) ?_ ?_; unfold y; clear y; rotate_left; intro hy; clear_value y; revert y; intros)
    | with_reducible refine keeps_upd (by with_reducible assumption)
    | (extract_lets +onlyGivenNames y; clear_value y; revert y; intros)
    | with_reducible apply wr_keeps
    | with_reducible refine keeps_upd ?_

theorem hartState_keeps (h : Keeps q s) : Keeps q (State.hartState s a1 a2) := by
  unfold State.hartState
  repeat' first
    | with_reducible assumption
    | with_reducible apply wr_keeps

theorem hartReply_keeps (h : Keeps q s) : Keeps q (State.hartReply s a1 a2 a3) := by
  unfold State.hartReply
  repeat' first
    | with_reducible assumption
    | (extract_lets +onlyGivenNames y; with_reducible refine keeps_cut (s := y) ?_ ?_; unfold y; clear y; rotate_left; intro hy; clear_value y; revert y; intros)
    | with_reducible refine keeps_upd (by with_reducible assumption)
    | (extract_lets +onlyGivenNames y; clear_value y; revert y; intros)
    | with_reducible apply answer_keeps
    | split
    | with_reducible refine keeps_fst (by with_reducible assumption) ?_
    | with_reducible refine keeps_upd ?_

theorem execHartPollDue_keeps (h : Keeps q s) : KeepsN q (execHartPollDue a1 a2 s) := by
  unfold execHartPollDue
  repeat' first
    | with_reducible assumption
    | with_reducible refine keepsN_next ?_
    | (extract_lets +onlyGivenNames y; with_reducible refine keeps_cut (s := y) ?_ ?_; unfold y; clear y; rotate_left; intro hy; clear_value y; revert y; intros)
    | with_reducible refine keeps_upd (by with_reducible assumption)
    | (extract_lets +onlyGivenNames y; clear_value y; revert y; intros)
    | with_reducible refine keeps_ite ?_ ?_
    | with_reducible refine keepsN_ite ?_ ?_
    | with_reducible apply updHart_keeps
    | intro _ _ hs
    | intro _ hs
    | intro hs
    | split
    | with_reducible refine keeps_fst (by with_reducible assumption) ?_
    | with_reducible refine keeps_upd ?_

theorem hartNow_keeps (h : Keeps q s) : Keeps q (State.hartNow s a1) := by
  unfold State.hartNow
  repeat' first
    | with_reducible assumption
    | with_reducible refine keeps_ite ?_ ?_
    | with_reducible apply hartState_keeps
    | split

theorem execHartFrameStart_keeps (h : Keeps q s) : KeepsN q (execHartFrameStart a1 a2 s) := by
  unfold execHartFrameStart
  repeat' first
    | with_reducible assumption
    | with_reducible refine keepsN_next ?_
    | (extract_lets +onlyGivenNames y; with_reducible refine keeps_cut (s := y) ?_ ?_; unfold y; clear y; rotate_left; intro hy; clear_value y; revert y; intros)
    | with_reducible refine keeps_upd (by with_reducible assumption)
    | (extract_lets +onlyGivenNames y; clear_value y; revert y; intros)
    | with_reducible refine keeps_ite ?_ ?_
    | with_reducible refine keepsN_ite ?_ ?_
    | with_reducible apply updHart_keeps
    | with_reducible apply emit_keeps
    | with_reducible apply hartState_keeps
    | with_reducible apply updChan_keeps
    | intro _ _ hs
    | intro _ hs
    | intro hs
    | split
    | with_reducible refine keeps_fst (by with_reducible assumption) ?_
    | with_reducible refine keeps_upd ?_

theorem hartHeard_keeps (h : Keeps q s) : Keeps q (State.hartHeard s a1 a2) := by
  unfold State.hartHeard
  repeat' first
    | with_reducible assumption
    | (extract_lets +onlyGivenNames y; with_reducible refine keeps_cut (s := y) ?_ ?_; unfold y; clear y; rotate_left; intro hy; clear_value y; revert y; intros)
    | with_reducible refine keeps_upd (by with_reducible assumption)
    | (extract_lets +onlyGivenNames y; clear_value y; revert y; intros)
    | with_reducible refine keeps_ite ?_ ?_
    | with_reducible apply updHart_keeps
    | with_reducible apply updChan_keeps
    | intro _ _ hs
    | intro _ hs
    | intro hs
    | split
    | with_reducible refine keeps_fst (by with_reducible assumption) ?_
    | with_reducible refine keeps_upd ?_

theorem hartOutcome_keeps (h : Keeps q s) : Keeps q (State.hartOutcome s a1 a2) := by
  unfold State.hartOutcome
  repeat' first
    | with_reducible assumption
    | (extract_lets +onlyGivenNames y; with_reducible refine keeps_cut (s := y) ?_ ?_; unfold y; clear y; rotate_left; intro hy; clear_value y; revert y; intros)
    | with_reducible refine keeps_upd (by with_reducible assumption)
    | (extract_lets +onlyGivenNames y; clear_value y; revert y; intros)
    | with_reducible refine keeps_ite ?_ ?_
    | with_reducible apply updChan_keeps
    | intro _ _ hs
    | intro _ hs
    | intro hs
    | split
    | with_reducible refine keeps_upd ?_

theorem hartFail_keeps (h : Keeps q s) : Keeps q (State.hartFail s a1 a2) := by
  unfold State.hartFail
  repeat' first
    | with_reducible assumption
    | (extract_lets +onlyGivenNames y; with_reducible refine keeps_cut (s := y) ?_ ?_; unfold y; clear y; rotate_left; intro hy; clear_value y; revert y; intros)
    | with_reducible refine keeps_upd (by with_reducible assumption)
    | (extract_lets +onlyGivenNames y; clear_value y; revert y; intros)
    | with_reducible refine keeps_ite ?_ ?_
    | with_reducible apply hartState_keeps
    | with_reducible apply updHart_keeps
    | with_reducible apply hartReply_keeps
    | with_reducible apply inc_keeps
    | with_reducible apply hartOutcome_keeps
    | intro _ _ hs
    | intro _ hs
    | intro hs
    | split
    | with_reducible refine keeps_upd ?_

theorem execHartResponseRx_keeps (h : Keeps q s) : KeepsN q (execHartResponseRx a1 a2 s) := by
  unfold execHartResponseRx
  repeat' first
    | with_reducible assumption
    | with_reducible refine keepsN_next ?_
    | (extract_lets +onlyGivenNames y; with_reducible refine keeps_cut (s := y) ?_ ?_; unfold y; clear y; rotate_left; intro hy; clear_value y; revert y; intros)
    | with_reducible refine keeps_upd (by with_reducible assumption)
    | (extract_lets +onlyGivenNames y; clear_value y; revert y; intros)
    | with_reducible refine keeps_ite ?_ ?_
    | with_reducible refine keepsN_ite ?_ ?_
    | with_reducible apply hartHeard_keeps
    | with_reducible apply hartState_keeps
    | with_reducible apply hartFail_keeps
    | with_reducible apply updHart_keeps
    | with_reducible apply inc_keeps
    | with_reducible apply hartOutcome_keeps
    | with_reducible apply hartReply_keeps
    | intro _ _ hs
    | intro _ hs
    | intro hs
    | split
    | with_reducible refine keeps_fst (by with_reducible assumption) ?_
    | with_reducible refine keeps_upd ?_

theorem execHartResponseTimeout_keeps (h : Keeps q s) : KeepsN q (execHartResponseTimeout a1 s) := by
  unfold execHartResponseTimeout
  repeat' first
    | with_reducible assumption
    | with_reducible refine keepsN_next ?_
    | (extract_lets +onlyGivenNames y; with_reducible refine keeps_cut (s := y) ?_ ?_; unfold y; clear y; rotate_left; intro hy; clear_value y; revert y; intros)
    | with_reducible refine keeps_upd (by with_reducible assumption)
    | (extract_lets +onlyGivenNames y; clear_value y; revert y; intros)
    | with_reducible refine keeps_ite ?_ ?_
    | with_reducible refine keepsN_ite ?_ ?_
    | with_reducible apply hartFail_keeps
    | split
    | with_reducible refine keeps_fst (by with_reducible assumption) ?_
    | with_reducible refine keeps_upd ?_

theorem execHartRequestExpired_keeps (h : Keeps q s) : KeepsN q (execHartRequestExpired a1 s) := by
  unfold execHartRequestExpired
  repeat' first
    | with_reducible assumption
    | with_reducible refine keepsN_next ?_
    | (extract_lets +onlyGivenNames y; with_reducible refine keeps_cut (s := y) ?_ ?_; unfold y; clear y; rotate_left; intro hy; clear_value y; revert y; intros)
    | with_reducible refine keeps_upd (by with_reducible assumption)
    | (extract_lets +onlyGivenNames y; clear_value y; revert y; intros)
    | with_reducible apply hartReply_keeps
    | with_reducible apply updHart_keeps
    | intro _ _ hs
    | intro _ hs
    | intro hs
    | split
    | with_reducible refine keeps_fst (by with_reducible assumption) ?_
    | with_reducible refine keeps_upd ?_

theorem execHartBurstRx_keeps (h : Keeps q s) : KeepsN q (execHartBurstRx a1 a2 s) := by
  unfold execHartBurstRx
  repeat' first
    | with_reducible assumption
    | with_reducible refine keepsN_next ?_
    | (extract_lets +onlyGivenNames y; with_reducible refine keeps_cut (s := y) ?_ ?_; unfold y; clear y; rotate_left; intro hy; clear_value y; revert y; intros)
    | with_reducible refine keeps_upd (by with_reducible assumption)
    | (extract_lets +onlyGivenNames y; clear_value y; revert y; intros)
    | with_reducible refine keeps_ite ?_ ?_
    | with_reducible refine keepsN_ite ?_ ?_
    | with_reducible apply inc_keeps
    | with_reducible apply hartHeard_keeps
    | with_reducible apply updHart_keeps
    | intro _ _ hs
    | intro _ hs
    | intro hs
    | split
    | with_reducible refine keeps_upd ?_

/-! ### Dio -/

theorem updDio_keeps (h : Keeps q s) : Keeps q (State.updDio s a1) := by
  unfold State.updDio
  repeat' first
    | with_reducible assumption
    | (extract_lets +onlyGivenNames y; with_reducible refine keeps_cut (s := y) ?_ ?_; unfold y; clear y; rotate_left; intro hy; clear_value y; revert y; intros)
    | with_reducible refine keeps_upd (by with_reducible assumption)
    | (extract_lets +onlyGivenNames y; clear_value y; revert y; intros)
    | with_reducible refine keeps_upd ?_

theorem diFilter_keeps (h : Keeps q s) : Keeps q (State.diFilter s a1) := by
  unfold State.diFilter
  repeat' first
    | with_reducible assumption
    | (extract_lets +onlyGivenNames y; with_reducible refine keeps_cut (s := y) ?_ ?_; unfold y; clear y; rotate_left; intro hy; clear_value y; revert y; intros)
    | with_reducible refine keeps_upd (by with_reducible assumption)
    | (extract_lets +onlyGivenNames y; clear_value y; revert y; intros)
    | with_reducible refine keeps_ite ?_ ?_
    | with_reducible apply updDio_keeps
    | with_reducible apply wr_keeps
    | intro _ _ hs
    | intro _ hs
    | intro hs
    | split
    | with_reducible refine keeps_upd ?_

theorem diCapture_keeps (h : Keeps q s) : Keeps q (State.diCapture s a1 a2 a3 a4) := by
  unfold State.diCapture
  repeat' first
    | with_reducible assumption
    | (extract_lets +onlyGivenNames y; with_reducible refine keeps_cut (s := y) ?_ ?_; unfold y; clear y; rotate_left; intro hy; clear_value y; revert y; intros)
    | (extract_lets +onlyGivenNames y; with_reducible refine keeps_cutF (f := y) ?_ ?_; unfold y; clear y; rotate_left; intro hy; clear_value y; revert y; intro fF hF)
    | with_reducible refine keeps_upd (by with_reducible assumption)
    | (extract_lets +onlyGivenNames y; clear_value y; revert y; intros)
    | with_reducible refine keeps_ite ?_ ?_
    | with_reducible apply hF
    | with_reducible apply wr_keeps
    | with_reducible apply updDio_keeps
    | intro _ _ hs
    | intro _ hs
    | intro hs
    | split
    | with_reducible refine keeps_upd ?_

theorem dioFault_keeps (h : Keeps q s) : Keeps q (State.dioFault s a1) := by
  unfold State.dioFault
  repeat' first
    | with_reducible assumption
    | (extract_lets +onlyGivenNames y; with_reducible refine keeps_cut (s := y) ?_ ?_; unfold y; clear y; rotate_left; intro hy; clear_value y; revert y; intros)
    | with_reducible refine keeps_upd (by with_reducible assumption)
    | (extract_lets +onlyGivenNames y; clear_value y; revert y; intros)
    | with_reducible refine keeps_ite ?_ ?_
    | with_reducible apply wr_keeps
    | with_reducible apply updDio_keeps
    | intro _ _ hs
    | intro _ hs
    | intro hs
    | split
    | with_reducible refine keeps_upd ?_

theorem execDiRefresh_keeps (h : Keeps q s) : KeepsN q (execDiRefresh a1 a2 a3 s) := by
  unfold execDiRefresh
  repeat' first
    | with_reducible assumption
    | with_reducible refine keepsN_next ?_
    | (extract_lets +onlyGivenNames y; with_reducible refine keeps_cut (s := y) ?_ ?_; unfold y; clear y; rotate_left; intro hy; clear_value y; revert y; intros)
    | with_reducible refine keeps_upd (by with_reducible assumption)
    | (extract_lets +onlyGivenNames y; clear_value y; revert y; intros)
    | with_reducible refine keeps_ite ?_ ?_
    | with_reducible refine keepsN_ite ?_ ?_
    | with_reducible apply updDio_keeps
    | with_reducible apply toFrc_keeps
    | with_reducible apply nextFree_keeps
    | with_reducible apply dioFault_keeps
    | with_reducible apply diFilter_keeps
    | with_reducible apply wr_keeps
    | with_reducible apply inc_keeps
    | with_reducible refine keeps_foldl ?_ (fun _ _ hs => ?_)
    | intro _ _ hs
    | intro _ hs
    | intro hs
    | split
    | with_reducible refine keeps_upd ?_

theorem execDiInputStale_keeps (h : Keeps q s) : KeepsN q (execDiInputStale s) := by
  unfold execDiInputStale
  repeat' first
    | with_reducible assumption
    | with_reducible refine keepsN_next ?_
    | with_reducible refine keeps_ite ?_ ?_
    | with_reducible refine keepsN_ite ?_ ?_
    | with_reducible apply wr_keeps
    | split

theorem freezeDio_keeps (h : Keeps q s) : Keeps q (State.freezeDio s) := by
  unfold State.freezeDio
  repeat' first
    | with_reducible assumption
    | (extract_lets +onlyGivenNames y; with_reducible refine keeps_cut (s := y) ?_ ?_; unfold y; clear y; rotate_left; intro hy; clear_value y; revert y; intros)
    | with_reducible refine keeps_upd (by with_reducible assumption)
    | (extract_lets +onlyGivenNames y; clear_value y; revert y; intros)
    | with_reducible apply updDio_keeps
    | intro _ _ hs
    | intro _ hs
    | intro hs
    | with_reducible refine keeps_upd ?_

theorem execDoImageFrame_keeps (h : Keeps q s) : KeepsN q (execDoImageFrame a1 s) := by
  unfold execDoImageFrame
  repeat' first
    | with_reducible assumption
    | with_reducible refine keepsN_next ?_
    | (extract_lets +onlyGivenNames y; with_reducible refine keeps_cut (s := y) ?_ ?_; unfold y; clear y; rotate_left; intro hy; clear_value y; revert y; intros)
    | with_reducible refine keeps_upd (by with_reducible assumption)
    | (extract_lets +onlyGivenNames y; clear_value y; revert y; intros)
    | with_reducible refine keeps_ite ?_ ?_
    | with_reducible refine keepsN_ite ?_ ?_
    | with_reducible apply updDio_keeps
    | with_reducible apply inc_keeps
    | intro _ _ hs
    | intro _ hs
    | intro hs
    | split
    | with_reducible refine keeps_upd ?_

theorem execDoControlFrame_keeps (h : Keeps q s) : KeepsN q (execDoControlFrame a1 s) := by
  unfold execDoControlFrame
  repeat' first
    | with_reducible assumption
    | with_reducible refine keepsN_next ?_
    | (extract_lets +onlyGivenNames y; with_reducible refine keeps_cut (s := y) ?_ ?_; unfold y; clear y; rotate_left; intro hy; clear_value y; revert y; intros)
    | with_reducible refine keeps_upd (by with_reducible assumption)
    | (extract_lets +onlyGivenNames y; clear_value y; revert y; intros)
    | with_reducible refine keeps_ite ?_ ?_
    | with_reducible refine keepsN_ite ?_ ?_
    | with_reducible apply upTo_keeps
    | with_reducible apply updDio_keeps
    | with_reducible apply wr_keeps
    | with_reducible apply inc_keeps
    | intro _ _ hs
    | intro _ hs
    | intro hs
    | split
    | with_reducible refine keeps_upd ?_

theorem deenergise_keeps (h : Keeps q s) : Keeps q (State.deenergise s) := by
  unfold State.deenergise
  repeat' first
    | with_reducible assumption
    | with_reducible apply driveDos_keeps
    | with_reducible apply wr_keeps

theorem execDoBlockDeenergise_keeps (h : Keeps q s) : KeepsN q (execDoBlockDeenergise s) := by
  unfold execDoBlockDeenergise
  repeat' first
    | with_reducible assumption
    | with_reducible refine keepsN_next ?_
    | (extract_lets +onlyGivenNames y; with_reducible refine keeps_cut (s := y) ?_ ?_; unfold y; clear y; rotate_left; intro hy; clear_value y; revert y; intros)
    | with_reducible refine keeps_upd (by with_reducible assumption)
    | (extract_lets +onlyGivenNames y; clear_value y; revert y; intros)
    | with_reducible refine keeps_ite ?_ ?_
    | with_reducible refine keepsN_ite ?_ ?_
    | with_reducible apply deenergise_keeps
    | with_reducible apply updDio_keeps
    | intro _ _ hs
    | intro _ hs
    | intro hs
    | split
    | with_reducible refine keeps_upd ?_

theorem execDoBlockResume_keeps (h : Keeps q s) : KeepsN q (execDoBlockResume s) := by
  unfold execDoBlockResume
  repeat' first
    | with_reducible assumption
    | with_reducible refine keepsN_next ?_
    | (extract_lets +onlyGivenNames y; with_reducible refine keeps_cut (s := y) ?_ ?_; unfold y; clear y; rotate_left; intro hy; clear_value y; revert y; intros)
    | with_reducible refine keeps_upd (by with_reducible assumption)
    | (extract_lets +onlyGivenNames y; clear_value y; revert y; intros)
    | with_reducible refine keeps_ite ?_ ?_
    | with_reducible refine keepsN_ite ?_ ?_
    | with_reducible apply driveDos_keeps
    | with_reducible apply wr_keeps
    | with_reducible apply updDio_keeps
    | with_reducible apply toTick_keeps
    | intro _ _ hs
    | intro _ hs
    | intro hs
    | split
    | with_reducible refine keeps_upd ?_

theorem execDoCurrentLimit_keeps (h : Keeps q s) : KeepsN q (execDoCurrentLimit a1 a2 s) := by
  unfold execDoCurrentLimit
  repeat' first
    | with_reducible assumption
    | with_reducible refine keepsN_next ?_
    | (extract_lets +onlyGivenNames y; with_reducible refine keeps_cut (s := y) ?_ ?_; unfold y; clear y; rotate_left; intro hy; clear_value y; revert y; intros)
    | with_reducible refine keeps_upd (by with_reducible assumption)
    | (extract_lets +onlyGivenNames y; clear_value y; revert y; intros)
    | with_reducible refine keeps_ite ?_ ?_
    | with_reducible refine keepsN_ite ?_ ?_
    | with_reducible apply dioFault_keeps
    | with_reducible apply updDio_keeps
    | intro _ _ hs
    | intro _ hs
    | intro hs
    | split
    | with_reducible refine keeps_fst (by with_reducible assumption) ?_
    | with_reducible refine keeps_upd ?_

theorem execDoThermalRestart_keeps (h : Keeps q s) : KeepsN q (execDoThermalRestart a1 s) := by
  unfold execDoThermalRestart
  repeat' first
    | with_reducible assumption
    | with_reducible refine keepsN_next ?_
    | (extract_lets +onlyGivenNames y; with_reducible refine keeps_cut (s := y) ?_ ?_; unfold y; clear y; rotate_left; intro hy; clear_value y; revert y; intros)
    | with_reducible refine keeps_upd (by with_reducible assumption)
    | (extract_lets +onlyGivenNames y; clear_value y; revert y; intros)
    | with_reducible apply updDio_keeps
    | intro _ _ hs
    | intro _ hs
    | intro hs
    | with_reducible refine keeps_upd ?_

theorem execFieldSupplyLow_keeps (h : Keeps q s) : KeepsN q (execFieldSupplyLow a1 a2 s) := by
  unfold execFieldSupplyLow
  repeat' first
    | with_reducible assumption
    | with_reducible refine keepsN_next ?_
    | (extract_lets +onlyGivenNames y; with_reducible refine keeps_cut (s := y) ?_ ?_; unfold y; clear y; rotate_left; intro hy; clear_value y; revert y; intros)
    | (extract_lets +onlyGivenNames y; clear_value y; revert y; intros)
    | with_reducible refine keeps_ite ?_ ?_
    | with_reducible refine keepsN_ite ?_ ?_
    | with_reducible apply wr_keeps
    | with_reducible apply dioFault_keeps
    | split

theorem dioRefuse_keeps (h : Keeps q s) : Keeps q (State.dioRefuse s a1 a2) := by
  unfold State.dioRefuse
  repeat' first
    | with_reducible assumption
    | (extract_lets +onlyGivenNames y; with_reducible refine keeps_cut (s := y) ?_ ?_; unfold y; clear y; rotate_left; intro hy; clear_value y; revert y; intros)
    | with_reducible refine keeps_upd (by with_reducible assumption)
    | (extract_lets +onlyGivenNames y; clear_value y; revert y; intros)
    | with_reducible apply updDio_keeps
    | with_reducible apply wr_keeps
    | intro _ _ hs
    | intro _ hs
    | intro hs
    | with_reducible refine keeps_upd ?_

theorem dioApply_keeps (h : Keeps q s) : Keeps q (State.dioApply s) := by
  unfold State.dioApply
  repeat' first
    | with_reducible assumption
    | (extract_lets +onlyGivenNames y; with_reducible refine keeps_cut (s := y) ?_ ?_; unfold y; clear y; rotate_left; intro hy; clear_value y; revert y; intros)
    | with_reducible refine keeps_upd (by with_reducible assumption)
    | (extract_lets +onlyGivenNames y; clear_value y; revert y; intros)
    | with_reducible apply applyDone_keeps
    | with_reducible apply dioRefuse_keeps
    | with_reducible apply updDio_keeps
    | with_reducible apply wr_keeps
    | intro _ _ hs
    | intro _ hs
    | intro hs
    | split
    | with_reducible refine keeps_fst (by with_reducible assumption) ?_
    | with_reducible refine keeps_upd ?_

theorem execDioApply_keeps (h : Keeps q s) : KeepsN q (execDioApply s) := by
  unfold execDioApply
  repeat' first
    | with_reducible assumption
    | with_reducible refine keepsN_next ?_
    | with_reducible apply dioApply_keeps

theorem dioCancel_keeps (h : Keeps q s) : Keeps q (State.dioCancel s) := by
  unfold State.dioCancel
  repeat' first
    | with_reducible assumption
    | (extract_lets +onlyGivenNames y; with_reducible refine keeps_cut (s := y) ?_ ?_; unfold y; clear y; rotate_left; intro hy; clear_value y; revert y; intros)
    | with_reducible refine keeps_upd (by with_reducible assumption)
    | (extract_lets +onlyGivenNames y; clear_value y; revert y; intros)
    | with_reducible apply applyDone_keeps
    | with_reducible apply updDio_keeps
    | with_reducible apply unstage_keeps
    | intro _ _ hs
    | intro _ hs
    | intro hs
    | with_reducible refine keeps_upd ?_

theorem execDioApplyCancel_keeps (h : Keeps q s) : KeepsN q (execDioApplyCancel s) := by
  unfold execDioApplyCancel
  repeat' first
    | with_reducible assumption
    | with_reducible refine keepsN_next ?_
    | with_reducible apply dioCancel_keeps

theorem execDioApplyTakesEffect_keeps (h : Keeps q s) : KeepsN q (execDioApplyTakesEffect s) := by
  unfold execDioApplyTakesEffect
  repeat' first
    | with_reducible assumption
    | with_reducible refine keepsN_next ?_
    | (extract_lets +onlyGivenNames y; with_reducible refine keeps_cut (s := y) ?_ ?_; unfold y; clear y; rotate_left; intro hy; clear_value y; revert y; intros)
    | with_reducible refine keeps_upd (by with_reducible assumption)
    | (extract_lets +onlyGivenNames y; clear_value y; revert y; intros)
    | with_reducible refine keeps_ite ?_ ?_
    | with_reducible refine keepsN_ite ?_ ?_
    | with_reducible apply toTick_keeps
    | with_reducible apply applyDone_keeps
    | with_reducible apply dioRefuse_keeps
    | with_reducible apply adopt_keeps
    | with_reducible apply updDio_keeps
    | with_reducible apply driveDos_keeps
    | with_reducible apply wr_keeps
    | with_reducible refine keeps_foldl ?_ (fun _ _ hs => ?_)
    | intro _ _ hs
    | intro _ hs
    | intro hs
    | split
    | with_reducible refine keeps_fst (by with_reducible assumption) ?_
    | with_reducible refine keeps_upd ?_

/-! ### EngineWindows -/

theorem loopRead_keeps (h : Keeps q s) : Keeps q (State.loopRead s a1 a2).1 := by
  unfold State.loopRead
  repeat' first
    | with_reducible assumption
    | (extract_lets +onlyGivenNames y; with_reducible refine keeps_cut (s := y) ?_ ?_; unfold y; clear y; rotate_left; intro hy; clear_value y; revert y; intros)
    | (extract_lets +onlyGivenNames y; clear_value y; revert y; intros)
    | with_reducible apply serve_keeps

theorem execLpWinRead_keeps (h : Keeps q s) : KeepsN q (execLpWinRead a1 s) := by
  unfold execLpWinRead
  repeat' first
    | with_reducible assumption
    | with_reducible refine keepsN_next ?_
    | (extract_lets +onlyGivenNames y; with_reducible refine keeps_cut (s := y) ?_ ?_; unfold y; clear y; rotate_left; intro hy; clear_value y; revert y; intros)
    | with_reducible refine keeps_upd (by with_reducible assumption)
    | (extract_lets +onlyGivenNames y; clear_value y; revert y; intros)
    | with_reducible apply loopRead_keeps
    | split
    | with_reducible refine keeps_fst (by with_reducible assumption) ?_
    | with_reducible refine keeps_upd ?_

theorem loopWrite_keeps (h : Keeps q s) : Keeps q (State.loopWrite s a1 a2) := by
  unfold State.loopWrite
  repeat' first
    | with_reducible assumption
    | with_reducible refine keeps_ite ?_ ?_
    | with_reducible apply setWord_keeps
    | with_reducible apply wr_keeps
    | split

theorem execLpWinWrite_keeps (h : Keeps q s) : KeepsN q (execLpWinWrite a1 s) := by
  unfold execLpWinWrite
  repeat' first
    | with_reducible assumption
    | with_reducible refine keepsN_next ?_
    | with_reducible apply loopWrite_keeps

theorem storeRead_keeps (h : Keeps q s) : Keeps q (State.storeRead s a1 a2).1 := by
  unfold State.storeRead
  repeat' first
    | with_reducible assumption
    | (extract_lets +onlyGivenNames y; with_reducible refine keeps_cut (s := y) ?_ ?_; unfold y; clear y; rotate_left; intro hy; clear_value y; revert y; intros)
    | (extract_lets +onlyGivenNames y; clear_value y; revert y; intros)
    | with_reducible apply serve_keeps

theorem execSvWinRead_keeps (h : Keeps q s) : KeepsN q (execSvWinRead a1 s) := by
  unfold execSvWinRead
  repeat' first
    | with_reducible assumption
    | with_reducible refine keepsN_next ?_
    | (extract_lets +onlyGivenNames y; with_reducible refine keeps_cut (s := y) ?_ ?_; unfold y; clear y; rotate_left; intro hy; clear_value y; revert y; intros)
    | with_reducible refine keeps_upd (by with_reducible assumption)
    | (extract_lets +onlyGivenNames y; clear_value y; revert y; intros)
    | with_reducible apply storeRead_keeps
    | split
    | with_reducible refine keeps_fst (by with_reducible assumption) ?_
    | with_reducible refine keeps_upd ?_

theorem storeWrite_keeps (h : Keeps q s) : Keeps q (State.storeWrite s a1 a2) := by
  unfold State.storeWrite
  repeat' first
    | with_reducible assumption
    | with_reducible refine keeps_ite ?_ ?_
    | with_reducible apply setWord_keeps
    | with_reducible apply wr_keeps
    | split

theorem execSvWinWrite_keeps (h : Keeps q s) : KeepsN q (execSvWinWrite a1 s) := by
  unfold execSvWinWrite
  repeat' first
    | with_reducible assumption
    | with_reducible refine keepsN_next ?_
    | with_reducible apply storeWrite_keeps

theorem execSvDmaStart_keeps (h : Keeps q s) : KeepsN q (execSvDmaStart s) := by
  unfold execSvDmaStart
  repeat' first
    | with_reducible assumption
    | with_reducible refine keepsN_next ?_
    | with_reducible refine keeps_ite ?_ ?_
    | with_reducible refine keepsN_ite ?_ ?_
    | with_reducible apply wr_keeps
    | split

theorem execSvDmaAbort_keeps (h : Keeps q s) : KeepsN q (execSvDmaAbort s) := by
  unfold execSvDmaAbort
  repeat' first
    | with_reducible assumption
    | with_reducible refine keepsN_next ?_
    | with_reducible apply wr_keeps

theorem execSvDmaComplete_keeps (h : Keeps q s) : KeepsN q (execSvDmaComplete a1 a2 s) := by
  unfold execSvDmaComplete
  repeat' first
    | with_reducible assumption
    | with_reducible refine keepsN_next ?_
    | (extract_lets +onlyGivenNames y; with_reducible refine keeps_cut (s := y) ?_ ?_; unfold y; clear y; rotate_left; intro hy; clear_value y; revert y; intros)
    | with_reducible refine keeps_upd (by with_reducible assumption)
    | (extract_lets +onlyGivenNames y; clear_value y; revert y; intros)
    | with_reducible refine keeps_ite ?_ ?_
    | with_reducible refine keepsN_ite ?_ ?_
    | with_reducible apply settleNow_keeps
    | with_reducible apply wr_keeps
    | with_reducible apply retries_keeps
    | with_reducible apply copyMem_keeps
    | with_reducible apply nextFree_keeps
    | with_reducible apply setBytes_keeps
    | split
    | with_reducible refine keeps_fst (by with_reducible assumption) ?_
    | with_reducible refine keeps_upd ?_

theorem svRelocFlip_keeps (h : Keeps q s) : Keeps q (State.svRelocFlip s a1 a2) := by
  unfold State.svRelocFlip
  repeat' first
    | with_reducible assumption
    | (extract_lets +onlyGivenNames y; with_reducible refine keeps_cut (s := y) ?_ ?_; unfold y; clear y; rotate_left; intro hy; clear_value y; revert y; intros)
    | with_reducible refine keeps_upd (by with_reducible assumption)
    | (extract_lets +onlyGivenNames y; clear_value y; revert y; intros)
    | with_reducible apply wr_keeps
    | with_reducible apply wake_keeps
    | with_reducible apply hsUse_keeps
    | with_reducible refine keeps_upd ?_

theorem svRelocOrder_keeps (h : Keeps q s) : Keeps q (State.svRelocOrder s a1 a2) := by
  unfold State.svRelocOrder
  repeat' first
    | with_reducible assumption
    | (extract_lets +onlyGivenNames y; with_reducible refine keeps_cut (s := y) ?_ ?_; unfold y; clear y; rotate_left; intro hy; clear_value y; revert y; intros)
    | with_reducible refine keeps_upd (by with_reducible assumption)
    | (extract_lets +onlyGivenNames y; clear_value y; revert y; intros)
    | with_reducible refine keeps_ite ?_ ?_
    | with_reducible apply svRelocFlip_keeps
    | with_reducible apply wr_keeps
    | split
    | with_reducible refine keeps_upd ?_

theorem execSvRelocCommit_keeps (h : Keeps q s) : KeepsN q (execSvRelocCommit s) := by
  unfold execSvRelocCommit
  repeat' first
    | with_reducible assumption
    | with_reducible refine keepsN_next ?_
    | with_reducible apply svRelocOrder_keeps

theorem execSolverRelocation_keeps (h : Keeps q s) : KeepsN q (execSolverRelocation s) := by
  unfold execSolverRelocation
  repeat' first
    | with_reducible assumption
    | with_reducible refine keepsN_next ?_
    | (extract_lets +onlyGivenNames y; with_reducible refine keeps_cut (s := y) ?_ ?_; unfold y; clear y; rotate_left; intro hy; clear_value y; revert y; intros)
    | with_reducible refine keeps_upd (by with_reducible assumption)
    | (extract_lets +onlyGivenNames y; clear_value y; revert y; intros)
    | with_reducible apply svRelocFlip_keeps
    | with_reducible apply toTick_keeps
    | split
    | with_reducible refine keeps_fst (by with_reducible assumption) ?_
    | with_reducible refine keeps_upd ?_

theorem svShadowSet_keeps (h : Keeps q s) : Keeps q (State.svShadowSet s a1 a2) := by
  unfold State.svShadowSet
  repeat' first
    | with_reducible assumption
    | (extract_lets +onlyGivenNames y; with_reducible refine keeps_cut (s := y) ?_ ?_; unfold y; clear y; rotate_left; intro hy; clear_value y; revert y; intros)
    | with_reducible refine keeps_upd (by with_reducible assumption)
    | (extract_lets +onlyGivenNames y; clear_value y; revert y; intros)
    | with_reducible refine keeps_ite ?_ ?_
    | with_reducible apply wr_keeps
    | with_reducible refine keeps_foldl ?_ (fun _ _ hs => ?_)
    | intro _ _ hs
    | intro _ hs
    | intro hs
    | split
    | with_reducible refine keeps_fst (by with_reducible assumption) ?_
    | with_reducible refine keeps_upd ?_

theorem svShadowOrder_keeps (h : Keeps q s) : Keeps q (State.svShadowOrder s a1 a2) := by
  unfold State.svShadowOrder
  repeat' first
    | with_reducible assumption
    | with_reducible refine keeps_ite ?_ ?_
    | with_reducible apply stage_keeps
    | with_reducible apply svShadowSet_keeps
    | split

theorem svShadowTick_keeps (h : Keeps q s) : Keeps q (State.svShadowTick s) := by
  unfold State.svShadowTick
  repeat' first
    | with_reducible assumption
    | with_reducible refine keeps_ite ?_ ?_
    | with_reducible apply unstage_keeps
    | with_reducible apply svShadowSet_keeps
    | intro _ _ hs
    | intro _ hs
    | intro hs
    | split

/-! ### Chains -/

theorem updChain_keeps (h : Keeps q s) : Keeps q (State.updChain s a1 a2) := by
  unfold State.updChain
  repeat' first
    | with_reducible assumption
    | (extract_lets +onlyGivenNames y; with_reducible refine keeps_cut (s := y) ?_ ?_; unfold y; clear y; rotate_left; intro hy; clear_value y; revert y; intros)
    | with_reducible refine keeps_upd (by with_reducible assumption)
    | (extract_lets +onlyGivenNames y; clear_value y; revert y; intros)
    | with_reducible refine keeps_upd ?_

theorem updSweep_keeps (h : Keeps q s) : Keeps q (State.updSweep s a1 a2) := by
  unfold State.updSweep
  repeat' first
    | with_reducible assumption
    | (extract_lets +onlyGivenNames y; with_reducible refine keeps_cut (s := y) ?_ ?_; unfold y; clear y; rotate_left; intro hy; clear_value y; revert y; intros)
    | with_reducible refine keeps_upd (by with_reducible assumption)
    | (extract_lets +onlyGivenNames y; clear_value y; revert y; intros)
    | with_reducible apply updChain_keeps
    | intro _ _ hs
    | intro _ hs
    | intro hs
    | with_reducible refine keeps_upd ?_

theorem chainSend_keeps (h : Keeps q s) : Keeps q (State.chainSend s a1 a2 a3 a4 a5) := by
  unfold State.chainSend
  repeat' first
    | with_reducible assumption
    | with_reducible refine keeps_ite ?_ ?_
    | with_reducible apply emit_keeps
    | split

theorem chainBcast_keeps (h : Keeps q s) : Keeps q (State.chainBcast s a1 a2 a3 a4) := by
  unfold State.chainBcast
  repeat' first
    | with_reducible assumption
    | (extract_lets +onlyGivenNames y; with_reducible refine keeps_cut (s := y) ?_ ?_; unfold y; clear y; rotate_left; intro hy; clear_value y; revert y; intros)
    | with_reducible refine keeps_upd (by with_reducible assumption)
    | (extract_lets +onlyGivenNames y; clear_value y; revert y; intros)
    | with_reducible apply updChain_keeps
    | with_reducible apply chainSend_keeps
    | intro _ _ hs
    | intro _ hs
    | intro hs
    | with_reducible refine keeps_upd ?_

theorem chainEvent_keeps (h : Keeps q s) : Keeps q (State.chainEvent s a1 a2) := by
  unfold State.chainEvent
  repeat' first
    | with_reducible assumption
    | (extract_lets +onlyGivenNames y; with_reducible refine keeps_cut (s := y) ?_ ?_; unfold y; clear y; rotate_left; intro hy; clear_value y; revert y; intros)
    | with_reducible refine keeps_upd (by with_reducible assumption)
    | (extract_lets +onlyGivenNames y; clear_value y; revert y; intros)
    | with_reducible apply updChain_keeps
    | intro _ _ hs
    | intro _ hs
    | intro hs
    | with_reducible refine keeps_upd ?_

theorem chainForward_keeps (h : Keeps q s) : Keeps q (State.chainForward s a1 a2 a3) := by
  unfold State.chainForward
  repeat' first
    | with_reducible assumption
    | with_reducible refine keeps_ite ?_ ?_
    | with_reducible apply emit_keeps
    | split

theorem chainRefuse_keeps (h : Keeps q s) : Keeps q (State.chainRefuse s a1 a2) := by
  unfold State.chainRefuse
  repeat' first
    | with_reducible assumption
    | with_reducible apply wr_keeps

theorem chainApply_keeps (h : Keeps q s) : Keeps q (State.chainApply s a1) := by
  unfold State.chainApply
  repeat' first
    | with_reducible assumption
    | (extract_lets +onlyGivenNames y; with_reducible refine keeps_cut (s := y) ?_ ?_; unfold y; clear y; rotate_left; intro hy; clear_value y; revert y; intros)
    | with_reducible refine keeps_upd (by with_reducible assumption)
    | (extract_lets +onlyGivenNames y; clear_value y; revert y; intros)
    | with_reducible apply wr_keeps
    | with_reducible apply applyDone_keeps
    | with_reducible apply chainRefuse_keeps
    | split
    | with_reducible refine keeps_fst (by with_reducible assumption) ?_
    | with_reducible refine keeps_upd ?_

theorem execChApply_keeps (h : Keeps q s) : KeepsN q (execChApply a1 s) := by
  unfold execChApply
  repeat' first
    | with_reducible assumption
    | with_reducible refine keepsN_next ?_
    | with_reducible refine keeps_ite ?_ ?_
    | with_reducible refine keepsN_ite ?_ ?_
    | with_reducible apply chainApply_keeps
    | split

theorem chainCancel_keeps (h : Keeps q s) : Keeps q (State.chainCancel s a1) := by
  unfold State.chainCancel
  repeat' first
    | with_reducible assumption
    | with_reducible apply applyDone_keeps
    | with_reducible apply wr_keeps
    | with_reducible apply unstage_keeps

theorem execChCancel_keeps (h : Keeps q s) : KeepsN q (execChCancel a1 s) := by
  unfold execChCancel
  repeat' first
    | with_reducible assumption
    | with_reducible refine keepsN_next ?_
    | with_reducible refine keeps_ite ?_ ?_
    | with_reducible refine keepsN_ite ?_ ?_
    | with_reducible apply chainCancel_keeps
    | split

theorem chainOrder_keeps (h : Keeps q s) : Keeps q (State.chainOrder s a1 a2) := by
  unfold State.chainOrder
  repeat' first
    | with_reducible assumption
    | (extract_lets +onlyGivenNames y; with_reducible refine keeps_cut (s := y) ?_ ?_; unfold y; clear y; rotate_left; intro hy; clear_value y; revert y; intros)
    | with_reducible refine keeps_upd (by with_reducible assumption)
    | (extract_lets +onlyGivenNames y; clear_value y; revert y; intros)
    | with_reducible apply updChain_keeps
    | intro _ _ hs
    | intro _ hs
    | intro hs
    | with_reducible refine keeps_upd ?_

theorem execChainApplyTakesEffect_keeps (h : Keeps q s) : KeepsN q (execChainApplyTakesEffect a1 s) := by
  unfold execChainApplyTakesEffect
  repeat' first
    | with_reducible assumption
    | with_reducible refine keepsN_next ?_
    | (extract_lets +onlyGivenNames y; with_reducible refine keeps_cut (s := y) ?_ ?_; unfold y; clear y; rotate_left; intro hy; clear_value y; revert y; intros)
    | (extract_lets +onlyGivenNames y; with_reducible refine keeps_cutG (f := y) ?_ ?_; unfold y; clear y; rotate_left; intro hy; clear_value y; revert y; intro fG hG)
    | with_reducible refine keeps_upd (by with_reducible assumption)
    | (extract_lets +onlyGivenNames y; clear_value y; revert y; intros)
    | with_reducible refine keeps_ite ?_ ?_
    | with_reducible refine keepsN_ite ?_ ?_
    | with_reducible apply hG
    | with_reducible apply toTick_keeps
    | with_reducible apply adopt_keeps
    | with_reducible apply applyDone_keeps
    | with_reducible apply wr_keeps
    | with_reducible apply updChain_keeps
    | with_reducible apply chainOrder_keeps
    | with_reducible apply chainRefuse_keeps
    | with_reducible refine keeps_foldl ?_ (fun _ _ hs => ?_)
    | intro _ _ hs
    | intro _ hs
    | intro hs
    | split
    | with_reducible refine keeps_fst (by with_reducible assumption) ?_
    | with_reducible refine keeps_upd ?_

theorem chainDiscover_keeps (h : Keeps q s) : Keeps q (State.chainDiscover s a1) := by
  unfold State.chainDiscover
  repeat' first
    | with_reducible assumption
    | with_reducible refine keeps_ite ?_ ?_
    | with_reducible apply chainOrder_keeps
    | split

theorem execChDiscover_keeps (h : Keeps q s) : KeepsN q (execChDiscover a1 s) := by
  unfold execChDiscover
  repeat' first
    | with_reducible assumption
    | with_reducible refine keepsN_next ?_
    | with_reducible apply chainDiscover_keeps

theorem execChainDiscoveryStart_keeps (h : Keeps q s) : KeepsN q (execChainDiscoveryStart a1 s) := by
  unfold execChainDiscoveryStart
  repeat' first
    | with_reducible assumption
    | with_reducible refine keepsN_next ?_
    | (extract_lets +onlyGivenNames y; with_reducible refine keeps_cut (s := y) ?_ ?_; unfold y; clear y; rotate_left; intro hy; clear_value y; revert y; intros)
    | with_reducible refine keeps_upd (by with_reducible assumption)
    | (extract_lets +onlyGivenNames y; clear_value y; revert y; intros)
    | with_reducible refine keeps_ite ?_ ?_
    | with_reducible refine keepsN_ite ?_ ?_
    | with_reducible apply upTo_keeps
    | with_reducible apply updChain_keeps
    | with_reducible apply wr_keeps
    | with_reducible apply chainBcast_keeps
    | with_reducible refine keeps_foldl ?_ (fun _ _ hs => ?_)
    | intro _ _ hs
    | intro _ hs
    | intro hs
    | split
    | with_reducible refine keeps_fst (by with_reducible assumption) ?_
    | with_reducible refine keeps_upd ?_

theorem chainEchoes_keeps (h : Keeps q s) : Keeps q (State.chainEchoes s a1 a2) := by
  unfold State.chainEchoes
  repeat' first
    | with_reducible assumption
    | (extract_lets +onlyGivenNames y; with_reducible refine keeps_cut (s := y) ?_ ?_; unfold y; clear y; rotate_left; intro hy; clear_value y; revert y; intros)
    | (extract_lets +onlyGivenNames y; with_reducible refine keeps_cutH (f := y) ?_ ?_; unfold y; clear y; rotate_left; intro hy; clear_value y; revert y; intro fH hH)
    | (extract_lets +onlyGivenNames y; clear_value y; revert y; intros)
    | with_reducible refine keeps_ite ?_ ?_
    | with_reducible apply hH
    | with_reducible apply chainSend_keeps
    | intro _ _ hs
    | intro _ hs
    | intro hs
    | split

theorem chainIdent_keeps (h : Keeps q s) : Keeps q (State.chainIdent s a1 a2 a3) := by
  unfold State.chainIdent
  repeat' first
    | with_reducible assumption
    | (extract_lets +onlyGivenNames y; with_reducible refine keeps_cut (s := y) ?_ ?_; unfold y; clear y; rotate_left; intro hy; clear_value y; revert y; intros)
    | with_reducible refine keeps_upd (by with_reducible assumption)
    | (extract_lets +onlyGivenNames y; clear_value y; revert y; intros)
    | with_reducible refine keeps_ite ?_ ?_
    | with_reducible apply wr_keeps
    | with_reducible apply chainEvent_keeps
    | with_reducible apply chainEchoes_keeps
    | with_reducible apply updChain_keeps
    | intro _ _ hs
    | intro _ hs
    | intro hs
    | split
    | with_reducible refine keeps_upd ?_

theorem chainEcho_keeps (h : Keeps q s) : Keeps q (State.chainEcho s a1 a2) := by
  unfold State.chainEcho
  repeat' first
    | with_reducible assumption
    | (extract_lets +onlyGivenNames y; with_reducible refine keeps_cut (s := y) ?_ ?_; unfold y; clear y; rotate_left; intro hy; clear_value y; revert y; intros)
    | (extract_lets +onlyGivenNames y; clear_value y; revert y; intros)
    | with_reducible refine keeps_ite ?_ ?_
    | with_reducible apply chainSend_keeps
    | with_reducible apply wr_keeps
    | split

theorem chainQueue_keeps (h : Keeps q s) : Keeps q (State.chainQueue s a1 a2).1 := by
  unfold State.chainQueue
  repeat' first
    | with_reducible assumption
    | (extract_lets +onlyGivenNames y; with_reducible refine keeps_cut (s := y) ?_ ?_; unfold y; clear y; rotate_left; intro hy; clear_value y; revert y; intros)
    | with_reducible refine keeps_upd (by with_reducible assumption)
    | (extract_lets +onlyGivenNames y; clear_value y; revert y; intros)
    | with_reducible refine keeps_ite ?_ ?_
    | with_reducible apply wr_keeps
    | with_reducible apply updChain_keeps
    | intro _ _ hs
    | intro _ hs
    | intro hs
    | split
    | with_reducible refine keeps_upd ?_

theorem chainRemeasure_keeps (h : Keeps q s) : Keeps q (State.chainRemeasure s a1) := by
  unfold State.chainRemeasure
  repeat' first
    | with_reducible assumption
    | with_reducible apply chainQueue_keeps
    | with_reducible refine keeps_foldl ?_ (fun _ _ hs => ?_)
    | intro _ _ hs
    | intro _ hs
    | intro hs

theorem execDiscoveryComplete_keeps (h : Keeps q s) : KeepsN q (execDiscoveryComplete a1 s) := by
  unfold execDiscoveryComplete
  repeat' first
    | with_reducible assumption
    | with_reducible refine keepsN_next ?_
    | (extract_lets +onlyGivenNames y; with_reducible refine keeps_cut (s := y) ?_ ?_; unfold y; clear y; rotate_left; intro hy; clear_value y; revert y; intros)
    | with_reducible refine keeps_upd (by with_reducible assumption)
    | (extract_lets +onlyGivenNames y; clear_value y; revert y; intros)
    | with_reducible refine keeps_ite ?_ ?_
    | with_reducible refine keepsN_ite ?_ ?_
    | with_reducible apply wr_keeps
    | with_reducible apply chainEvent_keeps
    | with_reducible apply chainSend_keeps
    | with_reducible apply chainRemeasure_keeps
    | with_reducible refine keeps_foldl ?_ (fun _ _ hs => ?_)
    | intro _ _ hs
    | intro _ hs
    | intro hs
    | split
    | with_reducible refine keeps_fst (by with_reducible assumption) ?_
    | with_reducible refine keeps_upd ?_

theorem chainWake_keeps (h : Keeps q s) : Keeps q (State.chainWake s a1) := by
  unfold State.chainWake
  repeat' first
    | with_reducible assumption
    | (extract_lets +onlyGivenNames y; with_reducible refine keeps_cut (s := y) ?_ ?_; unfold y; clear y; rotate_left; intro hy; clear_value y; revert y; intros)
    | with_reducible refine keeps_upd (by with_reducible assumption)
    | (extract_lets +onlyGivenNames y; clear_value y; revert y; intros)
    | with_reducible refine keeps_ite ?_ ?_
    | with_reducible apply emit_keeps
    | with_reducible apply chainOrder_keeps
    | with_reducible apply updChain_keeps
    | with_reducible apply wr_keeps
    | intro _ _ hs
    | intro _ hs
    | intro hs
    | split
    | with_reducible refine keeps_upd ?_

theorem execChWake_keeps (h : Keeps q s) : KeepsN q (execChWake a1 s) := by
  unfold execChWake
  repeat' first
    | with_reducible assumption
    | with_reducible refine keepsN_next ?_
    | with_reducible apply chainWake_keeps

theorem chainReply_keeps (h : Keeps q s) : Keeps q (State.chainReply s a1 a2 a3 a4) := by
  unfold State.chainReply
  repeat' first
    | with_reducible assumption
    | with_reducible refine keeps_ite ?_ ?_
    | with_reducible apply answer_keeps
    | split

theorem execChFaultClr_keeps (h : Keeps q s) : KeepsN q (execChFaultClr a1 s) := by
  unfold execChFaultClr
  repeat' first
    | with_reducible assumption
    | with_reducible refine keepsN_next ?_
    | with_reducible refine keeps_ite ?_ ?_
    | with_reducible refine keepsN_ite ?_ ?_
    | with_reducible apply chainQueue_keeps
    | split

theorem chainSendCmd_keeps (h : Keeps q s) : Keeps q (State.chainSendCmd s a1 a2) := by
  unfold State.chainSendCmd
  repeat' first
    | with_reducible assumption
    | (extract_lets +onlyGivenNames y; with_reducible refine keeps_cut (s := y) ?_ ?_; unfold y; clear y; rotate_left; intro hy; clear_value y; revert y; intros)
    | with_reducible refine keeps_upd (by with_reducible assumption)
    | (extract_lets +onlyGivenNames y; clear_value y; revert y; intros)
    | with_reducible refine keeps_ite ?_ ?_
    | with_reducible apply chainBcast_keeps
    | with_reducible apply chainReply_keeps
    | with_reducible apply chainSend_keeps
    | with_reducible apply updChain_keeps
    | intro _ _ hs
    | intro _ hs
    | intro hs
    | split
    | with_reducible refine keeps_fst (by with_reducible assumption) ?_
    | with_reducible refine keeps_upd ?_

theorem chainSleepNow_keeps (h : Keeps q s) : Keeps q (State.chainSleepNow s a1) := by
  unfold State.chainSleepNow
  repeat' first
    | with_reducible assumption
    | (extract_lets +onlyGivenNames y; with_reducible refine keeps_cut (s := y) ?_ ?_; unfold y; clear y; rotate_left; intro hy; clear_value y; revert y; intros)
    | with_reducible refine keeps_upd (by with_reducible assumption)
    | (extract_lets +onlyGivenNames y; clear_value y; revert y; intros)
    | with_reducible refine keeps_ite ?_ ?_
    | with_reducible apply chainBcast_keeps
    | with_reducible apply updChain_keeps
    | with_reducible apply wr_keeps
    | intro _ _ hs
    | intro _ hs
    | intro hs
    | split
    | with_reducible refine keeps_upd ?_

theorem chainExpire_keeps (h : Keeps q s) : Keeps q (State.chainExpire s a1) := by
  unfold State.chainExpire
  repeat' first
    | with_reducible assumption
    | (extract_lets +onlyGivenNames y; with_reducible refine keeps_cut (s := y) ?_ ?_; unfold y; clear y; rotate_left; intro hy; clear_value y; revert y; intros)
    | with_reducible refine keeps_upd (by with_reducible assumption)
    | (extract_lets +onlyGivenNames y; clear_value y; revert y; intros)
    | with_reducible refine keeps_ite ?_ ?_
    | with_reducible apply chainSleepNow_keeps
    | with_reducible apply chainReply_keeps
    | with_reducible apply journal_keeps
    | with_reducible apply updChain_keeps
    | intro _ _ hs
    | intro _ hs
    | intro hs
    | split
    | with_reducible refine keeps_fst (by with_reducible assumption) ?_
    | with_reducible refine keeps_upd ?_

theorem execChainQueueSend_keeps (h : Keeps q s) : KeepsN q (execChainQueueSend a1 s) := by
  unfold execChainQueueSend
  repeat' first
    | with_reducible assumption
    | with_reducible refine keepsN_next ?_
    | (extract_lets +onlyGivenNames y; with_reducible refine keeps_cut (s := y) ?_ ?_; unfold y; clear y; rotate_left; intro hy; clear_value y; revert y; intros)
    | with_reducible refine keeps_upd (by with_reducible assumption)
    | (extract_lets +onlyGivenNames y; clear_value y; revert y; intros)
    | with_reducible refine keeps_ite ?_ ?_
    | with_reducible refine keepsN_ite ?_ ?_
    | with_reducible apply chainExpire_keeps
    | with_reducible apply chainSleepNow_keeps
    | with_reducible apply chainSendCmd_keeps
    | with_reducible apply updChain_keeps
    | intro _ _ hs
    | intro _ hs
    | intro hs
    | split
    | with_reducible refine keeps_fst (by with_reducible assumption) ?_
    | with_reducible refine keeps_upd ?_

theorem nodeAnswer_keeps (h : Keeps q s) : Keeps q (State.nodeAnswer s a1 a2 a3 a4) := by
  unfold State.nodeAnswer
  repeat' first
    | with_reducible assumption
    | (extract_lets +onlyGivenNames y; with_reducible refine keeps_cut (s := y) ?_ ?_; unfold y; clear y; rotate_left; intro hy; clear_value y; revert y; intros)
    | with_reducible refine keeps_upd (by with_reducible assumption)
    | (extract_lets +onlyGivenNames y; clear_value y; revert y; intros)
    | with_reducible refine keeps_ite ?_ ?_
    | intro _ _ hs
    | intro _ hs
    | intro hs
    | split
    | with_reducible refine keeps_upd ?_

theorem execChainResponseRx_keeps (h : Keeps q s) : KeepsN q (execChainResponseRx a1 a2 s) := by
  unfold execChainResponseRx
  repeat' first
    | with_reducible assumption
    | with_reducible refine keepsN_next ?_
    | (extract_lets +onlyGivenNames y; with_reducible refine keeps_cut (s := y) ?_ ?_; unfold y; clear y; rotate_left; intro hy; clear_value y; revert y; intros)
    | with_reducible refine keeps_upd (by with_reducible assumption)
    | (extract_lets +onlyGivenNames y; clear_value y; revert y; intros)
    | with_reducible refine keeps_ite ?_ ?_
    | with_reducible refine keepsN_ite ?_ ?_
    | with_reducible apply chainIdent_keeps
    | with_reducible apply chainEcho_keeps
    | with_reducible apply nodeAnswer_keeps
    | with_reducible apply updChain_keeps
    | with_reducible apply chainSleepNow_keeps
    | with_reducible apply chainReply_keeps
    | intro _ _ hs
    | intro _ hs
    | intro hs
    | split
    | with_reducible refine keeps_fst (by with_reducible assumption) ?_
    | with_reducible refine keeps_upd ?_

theorem chainSleep_keeps (h : Keeps q s) : Keeps q (State.chainSleep s a1) := by
  unfold State.chainSleep
  repeat' first
    | with_reducible assumption
    | (extract_lets +onlyGivenNames y; with_reducible refine keeps_cut (s := y) ?_ ?_; unfold y; clear y; rotate_left; intro hy; clear_value y; revert y; intros)
    | with_reducible refine keeps_upd (by with_reducible assumption)
    | (extract_lets +onlyGivenNames y; clear_value y; revert y; intros)
    | with_reducible refine keeps_ite ?_ ?_
    | with_reducible apply chainSleepNow_keeps
    | with_reducible apply updChain_keeps
    | intro _ _ hs
    | intro _ hs
    | intro hs
    | split
    | with_reducible refine keeps_upd ?_

theorem execChSleep_keeps (h : Keeps q s) : KeepsN q (execChSleep a1 s) := by
  unfold execChSleep
  repeat' first
    | with_reducible assumption
    | with_reducible refine keepsN_next ?_
    | with_reducible apply chainSleep_keeps

theorem execQuietSend_keeps (h : Keeps q s) : KeepsN q (execQuietSend a1 a2 s) := by
  unfold execQuietSend
  repeat' first
    | with_reducible assumption
    | with_reducible refine keepsN_next ?_
    | (extract_lets +onlyGivenNames y; with_reducible refine keeps_cut (s := y) ?_ ?_; unfold y; clear y; rotate_left; intro hy; clear_value y; revert y; intros)
    | with_reducible refine keeps_upd (by with_reducible assumption)
    | (extract_lets +onlyGivenNames y; clear_value y; revert y; intros)
    | with_reducible refine keeps_ite ?_ ?_
    | with_reducible refine keepsN_ite ?_ ?_
    | with_reducible apply upTo_keeps
    | with_reducible apply chainBcast_keeps
    | with_reducible apply updChain_keeps
    | intro _ _ hs
    | intro _ hs
    | intro hs
    | split
    | with_reducible refine keeps_fst (by with_reducible assumption) ?_
    | with_reducible refine keeps_upd ?_

theorem strobe_keeps (h : Keeps q s) : Keeps q (State.strobe s a1) := by
  unfold State.strobe
  repeat' first
    | with_reducible assumption
    | (extract_lets +onlyGivenNames y; with_reducible refine keeps_cut (s := y) ?_ ?_; unfold y; clear y; rotate_left; intro hy; clear_value y; revert y; intros)
    | with_reducible refine keeps_upd (by with_reducible assumption)
    | (extract_lets +onlyGivenNames y; clear_value y; revert y; intros)
    | with_reducible refine keeps_ite ?_ ?_
    | with_reducible apply chainEvent_keeps
    | with_reducible apply inc_keeps
    | with_reducible apply chainBcast_keeps
    | with_reducible apply updChain_keeps
    | intro _ _ hs
    | intro _ hs
    | intro hs
    | split
    | with_reducible refine keeps_upd ?_

theorem execSampleStrobe_keeps (h : Keeps q s) : KeepsN q (execSampleStrobe a1 s) := by
  unfold execSampleStrobe
  repeat' first
    | with_reducible assumption
    | with_reducible refine keepsN_next ?_
    | with_reducible refine keeps_ite ?_ ?_
    | with_reducible refine keepsN_ite ?_ ?_
    | with_reducible apply strobe_keeps
    | intro _ _ hs
    | intro _ hs
    | intro hs
    | split

theorem execReadoutSend_keeps (h : Keeps q s) : KeepsN q (execReadoutSend a1 s) := by
  unfold execReadoutSend
  repeat' first
    | with_reducible assumption
    | with_reducible refine keepsN_next ?_
    | (extract_lets +onlyGivenNames y; with_reducible refine keeps_cut (s := y) ?_ ?_; unfold y; clear y; rotate_left; intro hy; clear_value y; revert y; intros)
    | (extract_lets +onlyGivenNames y; with_reducible refine keeps_cutH (f := y) ?_ ?_; unfold y; clear y; rotate_left; intro hy; clear_value y; revert y; intro fH hH)
    | with_reducible refine keeps_upd (by with_reducible assumption)
    | (extract_lets +onlyGivenNames y; clear_value y; revert y; intros)
    | with_reducible refine keeps_ite ?_ ?_
    | with_reducible refine keepsN_ite ?_ ?_
    | with_reducible apply hH
    | with_reducible apply upTo_keeps
    | with_reducible apply chainBcast_keeps
    | with_reducible apply updSweep_keeps
    | intro _ _ hs
    | intro _ hs
    | intro hs
    | split
    | with_reducible refine keeps_fst (by with_reducible assumption) ?_
    | with_reducible refine keeps_upd ?_

theorem putNode_keeps (h : Keeps q s) : Keeps q (State.putNode s a1 a2 a3 a4) := by
  unfold State.putNode
  repeat' first
    | with_reducible assumption
    | with_reducible apply setBytes_keeps

theorem execDataFrameRx_keeps (h : Keeps q s) : KeepsN q (execDataFrameRx a1 a2 s) := by
  unfold execDataFrameRx
  repeat' first
    | with_reducible assumption
    | with_reducible refine keepsN_next ?_
    | (extract_lets +onlyGivenNames y; with_reducible refine keeps_cut (s := y) ?_ ?_; unfold y; clear y; rotate_left; intro hy; clear_value y; revert y; intros)
    | with_reducible refine keeps_upd (by with_reducible assumption)
    | (extract_lets +onlyGivenNames y; clear_value y; revert y; intros)
    | with_reducible refine keeps_ite ?_ ?_
    | with_reducible refine keepsN_ite ?_ ?_
    | with_reducible apply inc_keeps
    | with_reducible apply wr_keeps
    | with_reducible apply putNode_keeps
    | with_reducible apply updSweep_keeps
    | with_reducible apply chainForward_keeps
    | with_reducible apply chainReply_keeps
    | with_reducible apply updChain_keeps
    | intro _ _ hs
    | intro _ hs
    | intro hs
    | split
    | with_reducible refine keeps_fst (by with_reducible assumption) ?_
    | with_reducible refine keeps_upd ?_

theorem execChainRetrySend_keeps (h : Keeps q s) : KeepsN q (execChainRetrySend a1 a2 a3 a4 s) := by
  unfold execChainRetrySend
  repeat' first
    | with_reducible assumption
    | with_reducible refine keepsN_next ?_
    | (extract_lets +onlyGivenNames y; with_reducible refine keeps_cut (s := y) ?_ ?_; unfold y; clear y; rotate_left; intro hy; clear_value y; revert y; intros)
    | with_reducible refine keeps_upd (by with_reducible assumption)
    | (extract_lets +onlyGivenNames y; clear_value y; revert y; intros)
    | with_reducible refine keeps_ite ?_ ?_
    | with_reducible refine keepsN_ite ?_ ?_
    | with_reducible apply upTo_keeps
    | with_reducible apply updSweep_keeps
    | with_reducible apply inc_keeps
    | with_reducible apply chainSend_keeps
    | with_reducible apply chainBcast_keeps
    | intro _ _ hs
    | intro _ hs
    | intro hs
    | split
    | with_reducible refine keeps_fst (by with_reducible assumption) ?_
    | with_reducible refine keeps_upd ?_

theorem execChainBreak_keeps (h : Keeps q s) : KeepsN q (execChainBreak a1 a2 s) := by
  unfold execChainBreak
  repeat' first
    | with_reducible assumption
    | with_reducible refine keepsN_next ?_
    | (extract_lets +onlyGivenNames y; with_reducible refine keeps_cut (s := y) ?_ ?_; unfold y; clear y; rotate_left; intro hy; clear_value y; revert y; intros)
    | with_reducible refine keeps_upd (by with_reducible assumption)
    | (extract_lets +onlyGivenNames y; clear_value y; revert y; intros)
    | with_reducible refine keeps_ite ?_ ?_
    | with_reducible refine keepsN_ite ?_ ?_
    | with_reducible apply updSweep_keeps
    | with_reducible apply wr_keeps
    | with_reducible apply chainForward_keeps
    | intro _ _ hs
    | intro _ hs
    | intro hs
    | split
    | with_reducible refine keeps_fst (by with_reducible assumption) ?_
    | with_reducible refine keeps_upd ?_

theorem closeSweep_keeps (h : Keeps q s) : Keeps q (State.closeSweep s a1 a2) := by
  unfold State.closeSweep
  repeat' first
    | with_reducible assumption
    | (extract_lets +onlyGivenNames y; with_reducible refine keeps_cut (s := y) ?_ ?_; unfold y; clear y; rotate_left; intro hy; clear_value y; revert y; intros)
    | with_reducible refine keeps_upd (by with_reducible assumption)
    | (extract_lets +onlyGivenNames y; clear_value y; revert y; intros)
    | with_reducible refine keeps_ite ?_ ?_
    | with_reducible apply putNode_keeps
    | with_reducible apply wr_keeps
    | with_reducible apply updSweep_keeps
    | with_reducible apply updChain_keeps
    | with_reducible apply chainForward_keeps
    | with_reducible refine keeps_foldl ?_ (fun _ _ hs => ?_)
    | intro _ _ hs
    | intro _ hs
    | intro hs
    | split
    | with_reducible refine keeps_upd ?_

theorem execSweepClose_keeps (h : Keeps q s) : KeepsN q (execSweepClose a1 s) := by
  unfold execSweepClose
  repeat' first
    | with_reducible assumption
    | with_reducible refine keepsN_next ?_
    | (extract_lets +onlyGivenNames y; with_reducible refine keeps_cut (s := y) ?_ ?_; unfold y; clear y; rotate_left; intro hy; clear_value y; revert y; intros)
    | with_reducible refine keeps_upd (by with_reducible assumption)
    | (extract_lets +onlyGivenNames y; clear_value y; revert y; intros)
    | with_reducible refine keeps_ite ?_ ?_
    | with_reducible refine keepsN_ite ?_ ?_
    | with_reducible apply upTo_keeps
    | with_reducible apply closeSweep_keeps
    | intro _ _ hs
    | intro _ hs
    | intro hs
    | split
    | with_reducible refine keeps_fst (by with_reducible assumption) ?_
    | with_reducible refine keeps_upd ?_

theorem freezeChains_keeps (h : Keeps q s) : Keeps q (State.freezeChains s) := by
  unfold State.freezeChains
  repeat' first
    | with_reducible assumption
    | (extract_lets +onlyGivenNames y; with_reducible refine keeps_cut (s := y) ?_ ?_; unfold y; clear y; rotate_left; intro hy; clear_value y; revert y; intros)
    | with_reducible refine keeps_upd (by with_reducible assumption)
    | (extract_lets +onlyGivenNames y; clear_value y; revert y; intros)
    | with_reducible refine keeps_upd ?_

theorem execSweepPublish_keeps (h : Keeps q s) : KeepsN q (execSweepPublish a1 s) := by
  unfold execSweepPublish
  repeat' first
    | with_reducible assumption
    | with_reducible refine keepsN_next ?_
    | (extract_lets +onlyGivenNames y; with_reducible refine keeps_cut (s := y) ?_ ?_; unfold y; clear y; rotate_left; intro hy; clear_value y; revert y; intros)
    | with_reducible refine keeps_upd (by with_reducible assumption)
    | (extract_lets +onlyGivenNames y; clear_value y; revert y; intros)
    | with_reducible refine keeps_ite ?_ ?_
    | with_reducible refine keepsN_ite ?_ ?_
    | with_reducible apply closeSweep_keeps
    | with_reducible apply chainEvent_keeps
    | with_reducible apply wr_keeps
    | with_reducible apply inc_keeps
    | with_reducible apply freezeChains_keeps
    | with_reducible apply updChain_keeps
    | with_reducible refine keeps_foldl ?_ (fun _ _ hs => ?_)
    | intro _ _ hs
    | intro _ hs
    | intro hs
    | split
    | with_reducible refine keeps_fst (by with_reducible assumption) ?_
    | with_reducible refine keeps_upd ?_

theorem execKeep_keeps (h : Keeps q s) : KeepsN q (execKeep a1 s) := by
  unfold execKeep
  repeat' first
    | with_reducible assumption
    | with_reducible refine keepsN_next ?_
    | (extract_lets +onlyGivenNames y; with_reducible refine keeps_cut (s := y) ?_ ?_; unfold y; clear y; rotate_left; intro hy; clear_value y; revert y; intros)
    | with_reducible refine keeps_upd (by with_reducible assumption)
    | (extract_lets +onlyGivenNames y; clear_value y; revert y; intros)
    | with_reducible refine keeps_ite ?_ ?_
    | with_reducible refine keepsN_ite ?_ ?_
    | with_reducible apply chainBcast_keeps
    | with_reducible apply updChain_keeps
    | intro _ _ hs
    | intro _ hs
    | intro hs
    | split
    | with_reducible refine keeps_fst (by with_reducible assumption) ?_
    | with_reducible refine keeps_upd ?_

theorem execFarEndCommandRx_keeps (h : Keeps q s) : KeepsN q (execFarEndCommandRx a1 a2 a3 s) := by
  unfold execFarEndCommandRx
  repeat' first
    | with_reducible assumption
    | with_reducible refine keepsN_next ?_
    | (extract_lets +onlyGivenNames y; with_reducible refine keeps_cut (s := y) ?_ ?_; unfold y; clear y; rotate_left; intro hy; clear_value y; revert y; intros)
    | with_reducible refine keeps_upd (by with_reducible assumption)
    | (extract_lets +onlyGivenNames y; clear_value y; revert y; intros)
    | with_reducible refine keeps_ite ?_ ?_
    | with_reducible refine keepsN_ite ?_ ?_
    | with_reducible apply updChain_keeps
    | with_reducible apply wr_keeps
    | with_reducible apply updSweep_keeps
    | intro _ _ hs
    | intro _ hs
    | intro hs
    | split
    | with_reducible refine keeps_upd ?_

theorem chainPeriod_keeps (h : Keeps q s) : Keeps q (State.chainPeriod s) := by
  unfold State.chainPeriod
  repeat' first
    | with_reducible assumption
    | (extract_lets +onlyGivenNames y; with_reducible refine keeps_cut (s := y) ?_ ?_; unfold y; clear y; rotate_left; intro hy; clear_value y; revert y; intros)
    | with_reducible refine keeps_upd (by with_reducible assumption)
    | (extract_lets +onlyGivenNames y; clear_value y; revert y; intros)
    | with_reducible refine keeps_ite ?_ ?_
    | with_reducible apply updSweep_keeps
    | with_reducible apply chainEvent_keeps
    | with_reducible apply wr_keeps
    | with_reducible refine keeps_foldl ?_ (fun _ _ hs => ?_)
    | intro _ _ hs
    | intro _ hs
    | intro hs
    | split
    | with_reducible refine keeps_upd ?_

theorem execFaultLineChange_keeps (h : Keeps q s) : KeepsN q (execFaultLineChange a1 a2 s) := by
  unfold execFaultLineChange
  repeat' first
    | with_reducible assumption
    | with_reducible refine keepsN_next ?_
    | (extract_lets +onlyGivenNames y; with_reducible refine keeps_cut (s := y) ?_ ?_; unfold y; clear y; rotate_left; intro hy; clear_value y; revert y; intros)
    | with_reducible refine keeps_upd (by with_reducible assumption)
    | (extract_lets +onlyGivenNames y; clear_value y; revert y; intros)
    | with_reducible refine keeps_ite ?_ ?_
    | with_reducible refine keepsN_ite ?_ ?_
    | with_reducible exact keepsN_fault
    | with_reducible apply wr_keeps
    | with_reducible apply evalTrips_keeps
    | with_reducible apply updChain_keeps
    | intro _ _ hs
    | intro _ hs
    | intro hs
    | split
    | with_reducible refine keeps_upd ?_

theorem execChainFaultTrip_keeps (h : Keeps q s) : KeepsN q (execChainFaultTrip a1 s) := by
  unfold execChainFaultTrip
  repeat' first
    | with_reducible assumption
    | with_reducible refine keepsN_next ?_
    | (extract_lets +onlyGivenNames y; with_reducible refine keeps_cut (s := y) ?_ ?_; unfold y; clear y; rotate_left; intro hy; clear_value y; revert y; intros)
    | with_reducible refine keeps_upd (by with_reducible assumption)
    | (extract_lets +onlyGivenNames y; clear_value y; revert y; intros)
    | with_reducible exact keepsN_fault
    | with_reducible apply upTo_keeps
    | with_reducible apply evalTrips_keeps
    | with_reducible apply updChain_keeps
    | intro _ _ hs
    | intro _ hs
    | intro hs
    | split
    | with_reducible refine keeps_fst (by with_reducible assumption) ?_
    | with_reducible refine keeps_upd ?_

theorem execForwardedChainItemRx_keeps (h : Keeps q s) : KeepsN q (execForwardedChainItemRx a1 s) := by
  unfold execForwardedChainItemRx
  repeat' first
    | with_reducible assumption
    | with_reducible refine keepsN_next ?_
    | (extract_lets +onlyGivenNames y; with_reducible refine keeps_cut (s := y) ?_ ?_; unfold y; clear y; rotate_left; intro hy; clear_value y; revert y; intros)
    | with_reducible refine keeps_upd (by with_reducible assumption)
    | (extract_lets +onlyGivenNames y; clear_value y; revert y; intros)
    | with_reducible refine keeps_ite ?_ ?_
    | with_reducible refine keepsN_ite ?_ ?_
    | with_reducible apply updSweep_keeps
    | with_reducible apply putNode_keeps
    | with_reducible apply wr_keeps
    | with_reducible apply closeSweep_keeps
    | with_reducible apply setBytes_keeps
    | intro _ _ hs
    | intro _ hs
    | intro hs
    | split
    | with_reducible refine keeps_fst (by with_reducible assumption) ?_
    | with_reducible refine keeps_upd ?_

theorem chainTakeover_keeps (h : Keeps q s) : Keeps q (State.chainTakeover s) := by
  unfold State.chainTakeover
  repeat' first
    | with_reducible assumption
    | (extract_lets +onlyGivenNames y; with_reducible refine keeps_cut (s := y) ?_ ?_; unfold y; clear y; rotate_left; intro hy; clear_value y; revert y; intros)
    | with_reducible refine keeps_upd (by with_reducible assumption)
    | (extract_lets +onlyGivenNames y; clear_value y; revert y; intros)
    | with_reducible refine keeps_ite ?_ ?_
    | with_reducible apply chainBcast_keeps
    | with_reducible refine keeps_foldl ?_ (fun _ _ hs => ?_)
    | intro _ _ hs
    | intro _ hs
    | intro hs
    | split
    | with_reducible refine keeps_fst (by with_reducible assumption) ?_
    | with_reducible refine keeps_upd ?_

/-! ### Ingest -/

theorem ingestStrobe_keeps (h : Keeps q s) : Keeps q (State.ingestStrobe s) := by
  unfold State.ingestStrobe
  repeat' first
    | with_reducible assumption
    | (extract_lets +onlyGivenNames y; with_reducible refine keeps_cut (s := y) ?_ ?_; unfold y; clear y; rotate_left; intro hy; clear_value y; revert y; intros)
    | with_reducible refine keeps_upd (by with_reducible assumption)
    | (extract_lets +onlyGivenNames y; clear_value y; revert y; intros)
    | with_reducible refine keeps_ite ?_ ?_
    | split
    | with_reducible refine keeps_upd ?_

theorem ingestMessage_keeps (h : Keeps q s) : Keeps q (State.ingestMessage s a1) := by
  unfold State.ingestMessage
  repeat' first
    | with_reducible assumption
    | (extract_lets +onlyGivenNames y; with_reducible refine keeps_cut (s := y) ?_ ?_; unfold y; clear y; rotate_left; intro hy; clear_value y; revert y; intros)
    | with_reducible refine keeps_upd (by with_reducible assumption)
    | (extract_lets +onlyGivenNames y; clear_value y; revert y; intros)
    | with_reducible refine keeps_ite ?_ ?_
    | with_reducible apply inc_keeps
    | with_reducible apply setBytes_keeps
    | with_reducible apply chainForward_keeps
    | with_reducible refine keeps_foldl ?_ (fun _ _ hs => ?_)
    | intro _ _ hs
    | intro _ hs
    | intro hs
    | split
    | with_reducible refine keeps_fst (by with_reducible assumption) ?_
    | with_reducible refine keeps_upd ?_

theorem execIngestMessageRx_keeps (h : Keeps q s) : KeepsN q (execIngestMessageRx a1 s) := by
  unfold execIngestMessageRx
  repeat' first
    | with_reducible assumption
    | with_reducible refine keepsN_next ?_
    | with_reducible apply ingestMessage_keeps

theorem execIngestPublish_keeps (h : Keeps q s) : KeepsN q (execIngestPublish s) := by
  unfold execIngestPublish
  repeat' first
    | with_reducible assumption
    | with_reducible refine keepsN_next ?_
    | (extract_lets +onlyGivenNames y; with_reducible refine keeps_cut (s := y) ?_ ?_; unfold y; clear y; rotate_left; intro hy; clear_value y; revert y; intros)
    | with_reducible refine keeps_upd (by with_reducible assumption)
    | (extract_lets +onlyGivenNames y; clear_value y; revert y; intros)
    | with_reducible refine keeps_ite ?_ ?_
    | with_reducible refine keepsN_ite ?_ ?_
    | with_reducible apply setBytes_keeps
    | with_reducible apply wr_keeps
    | with_reducible apply ingestStrobe_keeps
    | with_reducible apply freezeChains_keeps
    | with_reducible refine keeps_foldl ?_ (fun _ _ hs => ?_)
    | intro _ _ hs
    | intro _ hs
    | intro hs
    | split
    | with_reducible refine keeps_fst (by with_reducible assumption) ?_
    | with_reducible refine keeps_upd ?_

theorem ingRefuse_keeps (h : Keeps q s) : Keeps q (State.ingRefuse s a1) := by
  unfold State.ingRefuse
  repeat' first
    | with_reducible assumption
    | with_reducible apply wr_keeps

theorem ingApply_keeps (h : Keeps q s) : Keeps q (State.ingApply s) := by
  unfold State.ingApply
  repeat' first
    | with_reducible assumption
    | (extract_lets +onlyGivenNames y; with_reducible refine keeps_cut (s := y) ?_ ?_; unfold y; clear y; rotate_left; intro hy; clear_value y; revert y; intros)
    | with_reducible refine keeps_upd (by with_reducible assumption)
    | (extract_lets +onlyGivenNames y; clear_value y; revert y; intros)
    | with_reducible apply wr_keeps
    | with_reducible apply applyDone_keeps
    | with_reducible apply ingRefuse_keeps
    | split
    | with_reducible refine keeps_fst (by with_reducible assumption) ?_
    | with_reducible refine keeps_upd ?_

theorem execChIngApply_keeps (h : Keeps q s) : KeepsN q (execChIngApply s) := by
  unfold execChIngApply
  repeat' first
    | with_reducible assumption
    | with_reducible refine keepsN_next ?_
    | with_reducible apply ingApply_keeps

theorem ingCancel_keeps (h : Keeps q s) : Keeps q (State.ingCancel s) := by
  unfold State.ingCancel
  repeat' first
    | with_reducible assumption
    | with_reducible apply applyDone_keeps
    | with_reducible apply wr_keeps
    | with_reducible apply unstage_keeps

theorem execChIngCancel_keeps (h : Keeps q s) : KeepsN q (execChIngCancel s) := by
  unfold execChIngCancel
  repeat' first
    | with_reducible assumption
    | with_reducible refine keepsN_next ?_
    | with_reducible apply ingCancel_keeps

theorem execIngestApplyTakesEffect_keeps (h : Keeps q s) : KeepsN q (execIngestApplyTakesEffect s) := by
  unfold execIngestApplyTakesEffect
  repeat' first
    | with_reducible assumption
    | with_reducible refine keepsN_next ?_
    | (extract_lets +onlyGivenNames y; with_reducible refine keeps_cut (s := y) ?_ ?_; unfold y; clear y; rotate_left; intro hy; clear_value y; revert y; intros)
    | with_reducible refine keeps_upd (by with_reducible assumption)
    | (extract_lets +onlyGivenNames y; clear_value y; revert y; intros)
    | with_reducible refine keeps_ite ?_ ?_
    | with_reducible refine keepsN_ite ?_ ?_
    | with_reducible apply adopt_keeps
    | with_reducible apply applyDone_keeps
    | with_reducible apply wr_keeps
    | with_reducible apply ingRefuse_keeps
    | with_reducible refine keeps_foldl ?_ (fun _ _ hs => ?_)
    | intro _ _ hs
    | intro _ hs
    | intro hs
    | split
    | with_reducible refine keeps_fst (by with_reducible assumption) ?_
    | with_reducible refine keeps_upd ?_

/-! ### Can -/

theorem updCan_keeps (h : Keeps q s) : Keeps q (State.updCan s a1 a2) := by
  unfold State.updCan
  repeat' first
    | with_reducible assumption
    | (extract_lets +onlyGivenNames y; with_reducible refine keeps_cut (s := y) ?_ ?_; unfold y; clear y; rotate_left; intro hy; clear_value y; revert y; intros)
    | with_reducible refine keeps_upd (by with_reducible assumption)
    | (extract_lets +onlyGivenNames y; clear_value y; revert y; intros)
    | with_reducible refine keeps_upd ?_

theorem canPend_keeps (h : Keeps q s) : Keeps q (State.canPend s a1) := by
  unfold State.canPend
  repeat' first
    | with_reducible assumption
    | (extract_lets +onlyGivenNames y; with_reducible refine keeps_cut (s := y) ?_ ?_; unfold y; clear y; rotate_left; intro hy; clear_value y; revert y; intros)
    | (extract_lets +onlyGivenNames y; clear_value y; revert y; intros)
    | with_reducible apply wr_keeps
    | intro _ _ hs
    | intro _ hs
    | intro hs

theorem updBuf_keeps (h : Keeps q s) : Keeps q (State.updBuf s a1 a2 a3) := by
  unfold State.updBuf
  repeat' first
    | with_reducible assumption
    | (extract_lets +onlyGivenNames y; with_reducible refine keeps_cut (s := y) ?_ ?_; unfold y; clear y; rotate_left; intro hy; clear_value y; revert y; intros)
    | with_reducible refine keeps_upd (by with_reducible assumption)
    | (extract_lets +onlyGivenNames y; clear_value y; revert y; intros)
    | with_reducible apply canPend_keeps
    | with_reducible apply updCan_keeps
    | intro _ _ hs
    | intro _ hs
    | intro hs
    | with_reducible refine keeps_upd ?_

theorem canPut_keeps (h : Keeps q s) : Keeps q (State.canPut s a1 a2).1 := by
  unfold State.canPut
  repeat' first
    | with_reducible assumption
    | (extract_lets +onlyGivenNames y; with_reducible refine keeps_cut (s := y) ?_ ?_; unfold y; clear y; rotate_left; intro hy; clear_value y; revert y; intros)
    | (extract_lets +onlyGivenNames y; clear_value y; revert y; intros)
    | with_reducible refine keeps_ite ?_ ?_
    | with_reducible apply emit_keeps
    | with_reducible apply ringPut_keeps
    | with_reducible refine keeps_foldl ?_ (fun _ _ hs => ?_)
    | intro _ _ hs
    | intro _ hs
    | intro hs
    | split

theorem canEventAt_keeps (h : Keeps q s) : Keeps q (State.canEventAt s a1 a2 a3 a4 a5) := by
  unfold State.canEventAt
  repeat' first
    | with_reducible assumption
    | with_reducible apply canPut_keeps

theorem canEvent_keeps (h : Keeps q s) : Keeps q (State.canEvent s a1 a2 a3 a4) := by
  unfold State.canEvent
  repeat' first
    | with_reducible assumption
    | with_reducible apply canEventAt_keeps

theorem canMark_keeps (h : Keeps q s) : Keeps q (State.canMark s a1 a2 a3) := by
  unfold State.canMark
  repeat' first
    | with_reducible assumption
    | (extract_lets +onlyGivenNames y; with_reducible refine keeps_cut (s := y) ?_ ?_; unfold y; clear y; rotate_left; intro hy; clear_value y; revert y; intros)
    | with_reducible refine keeps_upd (by with_reducible assumption)
    | (extract_lets +onlyGivenNames y; clear_value y; revert y; intros)
    | with_reducible apply updCan_keeps
    | with_reducible apply wr_keeps
    | intro _ _ hs
    | intro _ hs
    | intro hs
    | with_reducible refine keeps_upd ?_

theorem canLose_keeps (h : Keeps q s) : Keeps q (State.canLose s a1 a2 a3) := by
  unfold State.canLose
  repeat' first
    | with_reducible assumption
    | with_reducible apply canEvent_keeps
    | with_reducible apply incWrap_keeps
    | with_reducible apply canMark_keeps

theorem canRefresh_keeps (h : Keeps q s) : Keeps q (State.canRefresh s a1) := by
  unfold State.canRefresh
  repeat' first
    | with_reducible assumption
    | (extract_lets +onlyGivenNames y; with_reducible refine keeps_cut (s := y) ?_ ?_; unfold y; clear y; rotate_left; intro hy; clear_value y; revert y; intros)
    | (extract_lets +onlyGivenNames y; clear_value y; revert y; intros)
    | with_reducible refine keeps_ite ?_ ?_
    | with_reducible apply wr_keeps
    | with_reducible apply canPend_keeps
    | with_reducible apply canEvent_keeps
    | split

theorem canFresh_keeps (h : Keeps q s) : Keeps q (State.canFresh s a1) := by
  unfold State.canFresh
  repeat' first
    | with_reducible assumption
    | (extract_lets +onlyGivenNames y; with_reducible refine keeps_cut (s := y) ?_ ?_; unfold y; clear y; rotate_left; intro hy; clear_value y; revert y; intros)
    | with_reducible refine keeps_upd (by with_reducible assumption)
    | (extract_lets +onlyGivenNames y; clear_value y; revert y; intros)
    | with_reducible apply canRefresh_keeps
    | with_reducible apply updCan_keeps
    | intro _ _ hs
    | intro _ hs
    | intro hs
    | with_reducible refine keeps_upd ?_

theorem canError_keeps (h : Keeps q s) : Keeps q (State.canError s a1 a2 a3 a4 a5) := by
  unfold State.canError
  repeat' first
    | with_reducible assumption
    | (extract_lets +onlyGivenNames y; with_reducible refine keeps_cut (s := y) ?_ ?_; unfold y; clear y; rotate_left; intro hy; clear_value y; revert y; intros)
    | with_reducible refine keeps_upd (by with_reducible assumption)
    | (extract_lets +onlyGivenNames y; clear_value y; revert y; intros)
    | with_reducible refine keeps_ite ?_ ?_
    | with_reducible apply inc_keeps
    | with_reducible apply wr_keeps
    | with_reducible apply canRefresh_keeps
    | with_reducible apply updCan_keeps
    | intro _ _ hs
    | intro _ hs
    | intro hs
    | split
    | with_reducible refine keeps_upd ?_

theorem execCanBusError_keeps (h : Keeps q s) : KeepsN q (execCanBusError a1 a2 a3 a4 a5 s) := by
  unfold execCanBusError
  repeat' first
    | with_reducible assumption
    | with_reducible refine keepsN_next ?_
    | with_reducible refine keeps_ite ?_ ?_
    | with_reducible refine keepsN_ite ?_ ?_
    | with_reducible apply canError_keeps
    | split

theorem canDone_keeps (h : Keeps q s) : Keeps q (State.canDone s a1 a2 a3 a4 a5) := by
  unfold State.canDone
  repeat' first
    | with_reducible assumption
    | (extract_lets +onlyGivenNames y; with_reducible refine keeps_cut (s := y) ?_ ?_; unfold y; clear y; rotate_left; intro hy; clear_value y; revert y; intros)
    | with_reducible refine keeps_upd (by with_reducible assumption)
    | (extract_lets +onlyGivenNames y; clear_value y; revert y; intros)
    | with_reducible refine keeps_ite ?_ ?_
    | with_reducible apply updCan_keeps
    | with_reducible apply canEventAt_keeps
    | intro _ _ hs
    | intro _ hs
    | intro hs
    | split
    | with_reducible refine keeps_upd ?_

theorem canFailed_keeps (h : Keeps q s) : Keeps q (State.canFailed s a1 a2 a3 a4) := by
  unfold State.canFailed
  repeat' first
    | with_reducible assumption
    | (extract_lets +onlyGivenNames y; with_reducible refine keeps_cut (s := y) ?_ ?_; unfold y; clear y; rotate_left; intro hy; clear_value y; revert y; intros)
    | (extract_lets +onlyGivenNames y; clear_value y; revert y; intros)
    | with_reducible refine keeps_ite ?_ ?_
    | with_reducible apply canDone_keeps
    | with_reducible apply updBuf_keeps
    | intro _ _ hs
    | intro _ hs
    | intro hs
    | split

theorem execCanBusOff_keeps (h : Keeps q s) : KeepsN q (execCanBusOff a1 s) := by
  unfold execCanBusOff
  repeat' first
    | with_reducible assumption
    | with_reducible refine keepsN_next ?_
    | (extract_lets +onlyGivenNames y; with_reducible refine keeps_cut (s := y) ?_ ?_; unfold y; clear y; rotate_left; intro hy; clear_value y; revert y; intros)
    | with_reducible refine keeps_upd (by with_reducible assumption)
    | (extract_lets +onlyGivenNames y; clear_value y; revert y; intros)
    | with_reducible refine keeps_ite ?_ ?_
    | with_reducible refine keepsN_ite ?_ ?_
    | with_reducible apply canFailed_keeps
    | with_reducible apply updCan_keeps
    | with_reducible apply inc_keeps
    | with_reducible apply wr_keeps
    | with_reducible apply canPend_keeps
    | with_reducible apply canEvent_keeps
    | with_reducible apply canMark_keeps
    | intro _ _ hs
    | intro _ hs
    | intro hs
    | split
    | with_reducible refine keeps_fst (by with_reducible assumption) ?_
    | with_reducible refine keeps_upd ?_

theorem canAbort_keeps (h : Keeps q s) : Keeps q (State.canAbort s a1 a2 a3) := by
  unfold State.canAbort
  repeat' first
    | with_reducible assumption
    | (extract_lets +onlyGivenNames y; with_reducible refine keeps_cut (s := y) ?_ ?_; unfold y; clear y; rotate_left; intro hy; clear_value y; revert y; intros)
    | with_reducible refine keeps_upd (by with_reducible assumption)
    | (extract_lets +onlyGivenNames y; clear_value y; revert y; intros)
    | with_reducible refine keeps_ite ?_ ?_
    | with_reducible apply updBuf_keeps
    | with_reducible apply canDone_keeps
    | intro _ _ hs
    | intro _ hs
    | intro hs
    | split
    | with_reducible refine keeps_upd ?_

theorem canLoad_keeps (h : Keeps q s) : Keeps q (State.canLoad s a1 a2 a3) := by
  unfold State.canLoad
  repeat' first
    | with_reducible assumption
    | (extract_lets +onlyGivenNames y; with_reducible refine keeps_cut (s := y) ?_ ?_; unfold y; clear y; rotate_left; intro hy; clear_value y; revert y; intros)
    | with_reducible refine keeps_upd (by with_reducible assumption)
    | (extract_lets +onlyGivenNames y; clear_value y; revert y; intros)
    | with_reducible refine keeps_ite ?_ ?_
    | with_reducible apply updCan_keeps
    | with_reducible apply updBuf_keeps
    | intro _ _ hs
    | intro _ hs
    | intro hs
    | split
    | with_reducible refine keeps_upd ?_

theorem setCanCont_keeps (h : Keeps q s) : Keeps q (State.setCanCont s a1 a2 a3) := by
  unfold State.setCanCont
  repeat' first
    | with_reducible assumption
    | (extract_lets +onlyGivenNames y; with_reducible refine keeps_cut (s := y) ?_ ?_; unfold y; clear y; rotate_left; intro hy; clear_value y; revert y; intros)
    | with_reducible refine keeps_upd (by with_reducible assumption)
    | (extract_lets +onlyGivenNames y; clear_value y; revert y; intros)
    | with_reducible refine keeps_ite ?_ ?_
    | with_reducible apply updCan_keeps
    | intro _ _ hs
    | intro _ hs
    | intro hs
    | split
    | with_reducible refine keeps_upd ?_

theorem canRecord_keeps (h : Keeps q s) : Keeps q (State.canRecord s a1 a2 a3) := by
  unfold State.canRecord
  repeat' first
    | with_reducible assumption
    | (extract_lets +onlyGivenNames y; with_reducible refine keeps_cut (s := y) ?_ ?_; unfold y; clear y; rotate_left; intro hy; clear_value y; revert y; intros)
    | with_reducible refine keeps_upd (by with_reducible assumption)
    | (extract_lets +onlyGivenNames y; clear_value y; revert y; intros)
    | with_reducible refine keeps_ite ?_ ?_
    | with_reducible apply canLoad_keeps
    | with_reducible apply setCanCont_keeps
    | with_reducible apply wr_keeps
    | with_reducible apply canAbort_keeps
    | split
    | with_reducible refine keeps_fst (by with_reducible assumption) ?_
    | with_reducible refine keeps_upd ?_

theorem execCanTxRecord_keeps (h : Keeps q s) : KeepsN q (execCanTxRecord a1 a2 s) := by
  unfold execCanTxRecord
  repeat' first
    | with_reducible assumption
    | with_reducible refine keepsN_next ?_
    | (extract_lets +onlyGivenNames y; with_reducible refine keeps_cut (s := y) ?_ ?_; unfold y; clear y; rotate_left; intro hy; clear_value y; revert y; intros)
    | with_reducible refine keeps_upd (by with_reducible assumption)
    | (extract_lets +onlyGivenNames y; clear_value y; revert y; intros)
    | with_reducible refine keeps_ite ?_ ?_
    | with_reducible refine keepsN_ite ?_ ?_
    | with_reducible apply canRecord_keeps
    | with_reducible apply ringTake_keeps
    | with_reducible refine keeps_foldl ?_ (fun _ _ hs => ?_)
    | intro _ _ hs
    | intro _ hs
    | intro hs
    | split
    | with_reducible refine keeps_fst (by with_reducible assumption) ?_
    | with_reducible refine keeps_upd ?_

theorem execCanTxStart_keeps (h : Keeps q s) : KeepsN q (execCanTxStart a1 a2 s) := by
  unfold execCanTxStart
  repeat' first
    | with_reducible assumption
    | with_reducible refine keepsN_next ?_
    | (extract_lets +onlyGivenNames y; with_reducible refine keeps_cut (s := y) ?_ ?_; unfold y; clear y; rotate_left; intro hy; clear_value y; revert y; intros)
    | with_reducible refine keeps_upd (by with_reducible assumption)
    | (extract_lets +onlyGivenNames y; clear_value y; revert y; intros)
    | with_reducible refine keeps_ite ?_ ?_
    | with_reducible refine keepsN_ite ?_ ?_
    | with_reducible apply updBuf_keeps
    | with_reducible apply updCan_keeps
    | with_reducible apply wr_keeps
    | with_reducible apply emit_keeps
    | intro _ _ hs
    | intro _ hs
    | intro hs
    | split
    | with_reducible refine keeps_fst (by with_reducible assumption) ?_
    | with_reducible refine keeps_upd ?_

theorem adoptAll_keeps (h : Keeps q s) : Keeps q (State.adoptAll s a1 a2 a3 a4) := by
  unfold State.adoptAll
  repeat' first
    | with_reducible assumption
    | with_reducible apply adopt_keeps
    | with_reducible refine keeps_foldl ?_ (fun _ _ hs => ?_)
    | intro _ _ hs
    | intro _ hs
    | intro hs

theorem canRefuse_keeps (h : Keeps q s) : Keeps q (State.canRefuse s a1 a2) := by
  unfold State.canRefuse
  repeat' first
    | with_reducible assumption
    | with_reducible apply wr_keeps

theorem canApply_keeps (h : Keeps q s) : Keeps q (State.canApply s a1) := by
  unfold State.canApply
  repeat' first
    | with_reducible assumption
    | (extract_lets +onlyGivenNames y; with_reducible refine keeps_cut (s := y) ?_ ?_; unfold y; clear y; rotate_left; intro hy; clear_value y; revert y; intros)
    | with_reducible refine keeps_upd (by with_reducible assumption)
    | (extract_lets +onlyGivenNames y; clear_value y; revert y; intros)
    | with_reducible apply wr_keeps
    | with_reducible apply applyDone_keeps
    | with_reducible apply canRefuse_keeps
    | split
    | with_reducible refine keeps_fst (by with_reducible assumption) ?_
    | with_reducible refine keeps_upd ?_

theorem execCfApply_keeps (h : Keeps q s) : KeepsN q (execCfApply a1 s) := by
  unfold execCfApply
  repeat' first
    | with_reducible assumption
    | with_reducible refine keepsN_next ?_
    | with_reducible refine keeps_ite ?_ ?_
    | with_reducible refine keepsN_ite ?_ ?_
    | with_reducible apply canApply_keeps
    | split

theorem canCancel_keeps (h : Keeps q s) : Keeps q (State.canCancel s a1) := by
  unfold State.canCancel
  repeat' first
    | with_reducible assumption
    | with_reducible apply applyDone_keeps
    | with_reducible apply wr_keeps
    | with_reducible apply unstage_keeps

theorem execCfCancel_keeps (h : Keeps q s) : KeepsN q (execCfCancel a1 s) := by
  unfold execCfCancel
  repeat' first
    | with_reducible assumption
    | with_reducible refine keepsN_next ?_
    | with_reducible refine keeps_ite ?_ ?_
    | with_reducible refine keepsN_ite ?_ ?_
    | with_reducible apply canCancel_keeps
    | split

theorem canApplied_keeps (h : Keeps q s) : Keeps q (State.canApplied s a1) := by
  unfold State.canApplied
  repeat' first
    | with_reducible assumption
    | (extract_lets +onlyGivenNames y; with_reducible refine keeps_cut (s := y) ?_ ?_; unfold y; clear y; rotate_left; intro hy; clear_value y; revert y; intros)
    | with_reducible refine keeps_upd (by with_reducible assumption)
    | (extract_lets +onlyGivenNames y; clear_value y; revert y; intros)
    | with_reducible refine keeps_ite ?_ ?_
    | with_reducible apply adoptAll_keeps
    | with_reducible apply applyDone_keeps
    | with_reducible apply wr_keeps
    | with_reducible apply canFresh_keeps
    | with_reducible apply canRefresh_keeps
    | with_reducible apply canRefuse_keeps
    | split
    | with_reducible refine keeps_fst (by with_reducible assumption) ?_
    | with_reducible refine keeps_upd ?_

theorem execCfApplyTakesEffect_keeps (h : Keeps q s) : KeepsN q (execCfApplyTakesEffect a1 s) := by
  unfold execCfApplyTakesEffect
  repeat' first
    | with_reducible assumption
    | with_reducible refine keepsN_next ?_
    | with_reducible refine keeps_ite ?_ ?_
    | with_reducible refine keepsN_ite ?_ ?_
    | with_reducible apply canApplied_keeps
    | with_reducible apply toTick_keeps
    | split

theorem canTable_keeps (h : Keeps q s) : Keeps q (State.canTable s a1) := by
  unfold State.canTable
  repeat' first
    | with_reducible assumption
    | with_reducible refine keeps_ite ?_ ?_
    | with_reducible apply canApplied_keeps
    | split

theorem canSnapPut_keeps (h : Keeps q s) : Keeps q (State.canSnapPut s a1 a2) := by
  unfold State.canSnapPut
  repeat' first
    | with_reducible assumption
    | (extract_lets +onlyGivenNames y; with_reducible refine keeps_cut (s := y) ?_ ?_; unfold y; clear y; rotate_left; intro hy; clear_value y; revert y; intros)
    | with_reducible refine keeps_upd (by with_reducible assumption)
    | (extract_lets +onlyGivenNames y; clear_value y; revert y; intros)
    | with_reducible refine keeps_ite ?_ ?_
    | with_reducible apply updCan_keeps
    | with_reducible apply canLose_keeps
    | intro _ _ hs
    | intro _ hs
    | intro hs
    | split
    | with_reducible refine keeps_upd ?_

theorem canDeliver_keeps (h : Keeps q s) : Keeps q (State.canDeliver s a1 a2) := by
  unfold State.canDeliver
  repeat' first
    | with_reducible assumption
    | (extract_lets +onlyGivenNames y; with_reducible refine keeps_cut (s := y) ?_ ?_; unfold y; clear y; rotate_left; intro hy; clear_value y; revert y; intros)
    | (extract_lets +onlyGivenNames y; with_reducible refine keeps_cutG (f := y) ?_ ?_; unfold y; clear y; rotate_left; intro hy; clear_value y; revert y; intro fG hG)
    | with_reducible refine keeps_upd (by with_reducible assumption)
    | (extract_lets +onlyGivenNames y; clear_value y; revert y; intros)
    | with_reducible refine keeps_ite ?_ ?_
    | with_reducible apply hG
    | with_reducible apply canPut_keeps
    | with_reducible apply canLose_keeps
    | with_reducible apply wr_keeps
    | with_reducible apply emit_keeps
    | with_reducible apply canSnapPut_keeps
    | intro _ _ hs
    | intro _ hs
    | intro hs
    | split
    | with_reducible refine keeps_fst (by with_reducible assumption) ?_
    | with_reducible refine keeps_upd ?_

theorem canSvcDrop_keeps (h : Keeps q s) : Keeps q (State.canSvcDrop s a1) := by
  unfold State.canSvcDrop
  repeat' first
    | with_reducible assumption
    | (extract_lets +onlyGivenNames y; with_reducible refine keeps_cut (s := y) ?_ ?_; unfold y; clear y; rotate_left; intro hy; clear_value y; revert y; intros)
    | with_reducible refine keeps_upd (by with_reducible assumption)
    | (extract_lets +onlyGivenNames y; clear_value y; revert y; intros)
    | with_reducible apply canEvent_keeps
    | with_reducible apply wr_keeps
    | with_reducible apply updCan_keeps
    | intro _ _ hs
    | intro _ hs
    | intro hs
    | with_reducible refine keeps_upd ?_

theorem canSegment_keeps (h : Keeps q s) : Keeps q (State.canSegment s a1 a2) := by
  unfold State.canSegment
  repeat' first
    | with_reducible assumption
    | (extract_lets +onlyGivenNames y; with_reducible refine keeps_cut (s := y) ?_ ?_; unfold y; clear y; rotate_left; intro hy; clear_value y; revert y; intros)
    | with_reducible refine keeps_upd (by with_reducible assumption)
    | (extract_lets +onlyGivenNames y; clear_value y; revert y; intros)
    | with_reducible refine keeps_ite ?_ ?_
    | with_reducible apply inc_keeps
    | with_reducible apply canSvcDrop_keeps
    | with_reducible apply emit_keeps
    | with_reducible apply updCan_keeps
    | intro _ _ hs
    | intro _ hs
    | intro hs
    | split
    | with_reducible refine keeps_upd ?_

theorem execCanServiceSegmentRx_keeps (h : Keeps q s) : KeepsN q (execCanServiceSegmentRx a1 a2 s) := by
  unfold execCanServiceSegmentRx
  repeat' first
    | with_reducible assumption
    | with_reducible refine keepsN_next ?_
    | (extract_lets +onlyGivenNames y; with_reducible refine keeps_cut (s := y) ?_ ?_; unfold y; clear y; rotate_left; intro hy; clear_value y; revert y; intros)
    | (extract_lets +onlyGivenNames y; clear_value y; revert y; intros)
    | with_reducible refine keeps_ite ?_ ?_
    | with_reducible refine keepsN_ite ?_ ?_
    | with_reducible apply canTable_keeps
    | with_reducible apply canSegment_keeps
    | with_reducible apply inc_keeps
    | split

theorem execCanServiceGapTimeout_keeps (h : Keeps q s) : KeepsN q (execCanServiceGapTimeout a1 s) := by
  unfold execCanServiceGapTimeout
  repeat' first
    | with_reducible assumption
    | with_reducible refine keepsN_next ?_
    | with_reducible refine keeps_ite ?_ ?_
    | with_reducible refine keepsN_ite ?_ ?_
    | with_reducible apply canSvcDrop_keeps
    | split

theorem canReceive_keeps (h : Keeps q s) : Keeps q (State.canReceive s a1 a2) := by
  unfold State.canReceive
  repeat' first
    | with_reducible assumption
    | (extract_lets +onlyGivenNames y; with_reducible refine keeps_cut (s := y) ?_ ?_; unfold y; clear y; rotate_left; intro hy; clear_value y; revert y; intros)
    | with_reducible refine keeps_upd (by with_reducible assumption)
    | (extract_lets +onlyGivenNames y; clear_value y; revert y; intros)
    | with_reducible refine keeps_ite ?_ ?_
    | with_reducible apply updCan_keeps
    | with_reducible apply nextFree_keeps
    | with_reducible apply inc_keeps
    | with_reducible apply canRefresh_keeps
    | with_reducible apply canSegment_keeps
    | with_reducible apply canDeliver_keeps
    | intro _ _ hs
    | intro _ hs
    | intro hs
    | split
    | with_reducible refine keeps_upd ?_

theorem execCanFrameRx_keeps (h : Keeps q s) : KeepsN q (execCanFrameRx a1 a2 s) := by
  unfold execCanFrameRx
  repeat' first
    | with_reducible assumption
    | with_reducible refine keepsN_next ?_
    | (extract_lets +onlyGivenNames y; with_reducible refine keeps_cut (s := y) ?_ ?_; unfold y; clear y; rotate_left; intro hy; clear_value y; revert y; intros)
    | (extract_lets +onlyGivenNames y; clear_value y; revert y; intros)
    | with_reducible refine keeps_ite ?_ ?_
    | with_reducible refine keepsN_ite ?_ ?_
    | with_reducible apply canTable_keeps
    | with_reducible apply canError_keeps
    | with_reducible apply wr_keeps
    | with_reducible apply canReceive_keeps
    | split

theorem canNextSeg_keeps (h : Keeps q s) : Keeps q (State.canNextSeg s a1) := by
  unfold State.canNextSeg
  repeat' first
    | with_reducible assumption
    | (extract_lets +onlyGivenNames y; with_reducible refine keeps_cut (s := y) ?_ ?_; unfold y; clear y; rotate_left; intro hy; clear_value y; revert y; intros)
    | with_reducible refine keeps_upd (by with_reducible assumption)
    | (extract_lets +onlyGivenNames y; clear_value y; revert y; intros)
    | with_reducible apply canLoad_keeps
    | with_reducible apply updCan_keeps
    | intro _ _ hs
    | intro _ hs
    | intro hs
    | split
    | with_reducible refine keeps_fst (by with_reducible assumption) ?_
    | with_reducible refine keeps_upd ?_

theorem execCanTxComplete_keeps (h : Keeps q s) : KeepsN q (execCanTxComplete a1 a2 s) := by
  unfold execCanTxComplete
  repeat' first
    | with_reducible assumption
    | with_reducible refine keepsN_next ?_
    | (extract_lets +onlyGivenNames y; with_reducible refine keeps_cut (s := y) ?_ ?_; unfold y; clear y; rotate_left; intro hy; clear_value y; revert y; intros)
    | with_reducible refine keeps_upd (by with_reducible assumption)
    | (extract_lets +onlyGivenNames y; clear_value y; revert y; intros)
    | with_reducible refine keeps_ite ?_ ?_
    | with_reducible refine keepsN_ite ?_ ?_
    | with_reducible apply updCan_keeps
    | with_reducible apply inc_keeps
    | with_reducible apply canDone_keeps
    | with_reducible apply updBuf_keeps
    | with_reducible apply canReceive_keeps
    | with_reducible apply canFailed_keeps
    | with_reducible apply canNextSeg_keeps
    | with_reducible apply canRefresh_keeps
    | intro _ _ hs
    | intro _ hs
    | intro hs
    | split
    | with_reducible refine keeps_fst (by with_reducible assumption) ?_
    | with_reducible refine keeps_upd ?_

theorem canRecover_keeps (h : Keeps q s) : Keeps q (State.canRecover s a1 a2) := by
  unfold State.canRecover
  repeat' first
    | with_reducible assumption
    | (extract_lets +onlyGivenNames y; with_reducible refine keeps_cut (s := y) ?_ ?_; unfold y; clear y; rotate_left; intro hy; clear_value y; revert y; intros)
    | with_reducible refine keeps_upd (by with_reducible assumption)
    | (extract_lets +onlyGivenNames y; clear_value y; revert y; intros)
    | with_reducible refine keeps_ite ?_ ?_
    | with_reducible apply canAbort_keeps
    | with_reducible apply canEvent_keeps
    | with_reducible apply updCan_keeps
    | with_reducible apply wr_keeps
    | with_reducible refine keeps_foldl ?_ (fun _ _ hs => ?_)
    | intro _ _ hs
    | intro _ hs
    | intro hs
    | split
    | with_reducible refine keeps_upd ?_

theorem execCfRecover_keeps (h : Keeps q s) : KeepsN q (execCfRecover a1 a2 s) := by
  unfold execCfRecover
  repeat' first
    | with_reducible assumption
    | with_reducible refine keepsN_next ?_
    | with_reducible apply canRecover_keeps

theorem execCanRecoveryComplete_keeps (h : Keeps q s) : KeepsN q (execCanRecoveryComplete a1 s) := by
  unfold execCanRecoveryComplete
  repeat' first
    | with_reducible assumption
    | with_reducible refine keepsN_next ?_
    | (extract_lets +onlyGivenNames y; with_reducible refine keeps_cut (s := y) ?_ ?_; unfold y; clear y; rotate_left; intro hy; clear_value y; revert y; intros)
    | with_reducible refine keeps_upd (by with_reducible assumption)
    | (extract_lets +onlyGivenNames y; clear_value y; revert y; intros)
    | with_reducible refine keeps_ite ?_ ?_
    | with_reducible refine keepsN_ite ?_ ?_
    | with_reducible apply canRefresh_keeps
    | with_reducible apply canEvent_keeps
    | with_reducible apply updCan_keeps
    | with_reducible apply canMark_keeps
    | with_reducible apply wr_keeps
    | intro _ _ hs
    | intro _ hs
    | intro hs
    | split
    | with_reducible refine keeps_upd ?_

theorem execCfTxbAbort_keeps (h : Keeps q s) : KeepsN q (execCfTxbAbort a1 a2 s) := by
  unfold execCfTxbAbort
  repeat' first
    | with_reducible assumption
    | with_reducible refine keepsN_next ?_
    | with_reducible refine keeps_ite ?_ ?_
    | with_reducible refine keepsN_ite ?_ ?_
    | with_reducible apply canAbort_keeps
    | with_reducible refine keeps_foldl ?_ (fun _ _ hs => ?_)
    | intro _ _ hs
    | intro _ hs
    | intro hs
    | split

theorem canHalt_keeps (h : Keeps q s) : Keeps q (State.canHalt s) := by
  unfold State.canHalt
  repeat' first
    | with_reducible assumption
    | (extract_lets +onlyGivenNames y; with_reducible refine keeps_cut (s := y) ?_ ?_; unfold y; clear y; rotate_left; intro hy; clear_value y; revert y; intros)
    | with_reducible refine keeps_upd (by with_reducible assumption)
    | (extract_lets +onlyGivenNames y; clear_value y; revert y; intros)
    | with_reducible refine keeps_ite ?_ ?_
    | with_reducible apply canAbort_keeps
    | with_reducible apply updCan_keeps
    | with_reducible refine keeps_foldl ?_ (fun _ _ hs => ?_)
    | intro _ _ hs
    | intro _ hs
    | intro hs
    | split
    | with_reducible refine keeps_upd ?_

theorem canRoles_keeps (h : Keeps q s) : Keeps q (State.canRoles s) := by
  unfold State.canRoles
  repeat' first
    | with_reducible assumption
    | with_reducible refine keeps_ite ?_ ?_
    | with_reducible apply canRefresh_keeps
    | with_reducible apply canFresh_keeps
    | with_reducible refine keeps_foldl ?_ (fun _ _ hs => ?_)
    | intro _ _ hs
    | intro _ hs
    | intro hs
    | split

theorem canTick_keeps (h : Keeps q s) : Keeps q (State.canTick s) := by
  unfold State.canTick
  repeat' first
    | with_reducible assumption
    | (extract_lets +onlyGivenNames y; with_reducible refine keeps_cut (s := y) ?_ ?_; unfold y; clear y; rotate_left; intro hy; clear_value y; revert y; intros)
    | with_reducible refine keeps_upd (by with_reducible assumption)
    | (extract_lets +onlyGivenNames y; clear_value y; revert y; intros)
    | with_reducible refine keeps_ite ?_ ?_
    | with_reducible apply updCan_keeps
    | with_reducible apply canPend_keeps
    | with_reducible refine keeps_foldl ?_ (fun _ _ hs => ?_)
    | intro _ _ hs
    | intro _ hs
    | intro hs
    | split
    | with_reducible refine keeps_upd ?_

theorem canFire_keeps (h : Keeps q s) : Keeps q (State.canFire s a1).1 := by
  unfold State.canFire
  repeat' first
    | with_reducible assumption
    | (extract_lets +onlyGivenNames y; with_reducible refine keeps_cut (s := y) ?_ ?_; unfold y; clear y; rotate_left; intro hy; clear_value y; revert y; intros)
    | with_reducible refine keeps_upd (by with_reducible assumption)
    | (extract_lets +onlyGivenNames y; clear_value y; revert y; intros)
    | with_reducible refine keeps_ite ?_ ?_
    | with_reducible apply updBuf_keeps
    | intro _ _ hs
    | intro _ hs
    | intro hs
    | split
    | with_reducible refine keeps_upd ?_

theorem canSnapshot_keeps (h : Keeps q s) : Keeps q (State.canSnapshot s a1 a2).1 := by
  unfold State.canSnapshot
  repeat' first
    | with_reducible assumption
    | (extract_lets +onlyGivenNames y; with_reducible refine keeps_cut (s := y) ?_ ?_; unfold y; clear y; rotate_left; intro hy; clear_value y; revert y; intros)
    | with_reducible refine keeps_upd (by with_reducible assumption)
    | (extract_lets +onlyGivenNames y; clear_value y; revert y; intros)
    | with_reducible refine keeps_ite ?_ ?_
    | with_reducible apply updCan_keeps
    | intro _ _ hs
    | intro _ hs
    | intro hs
    | split
    | with_reducible refine keeps_upd ?_

end Sys2Proof.Laws
end

