-- ==== Sys2Proof/Laws/KeepsNet.lean ====
section
/-! SUPPORT. Every operation and meaning of the exit from RUN, the Ethernet ports, time synchronisation, transfers and the entry into RUN leaves the queue of waiting commands alone and keeps a sound state sound. -/

set_option Elab.async false

namespace Sys2Proof.Laws

open Sys2Proof Sys2Proof.Machine Sys2Proof.Safety

variable {q : Prop × List Instr × Option (List (Nat × Nat))} {s : State}

/-! ### RunExit -/

theorem flushJournal_keeps (h : Keeps q s) : Keeps q (State.flushJournal s) := by
  refine ⟨fun hp => ?_, h.2⟩
  obtain ⟨h1, h2, h3, h4, h5⟩ := h.1 hp
  exact ⟨h1, h2, h3, Nat.zero_le _, List.length_take_le _ _⟩

theorem ungate_keeps (h : Keeps q s) : Keeps q (State.ungate s) := by
  unfold State.ungate
  repeat' first
    | with_reducible assumption
    | (extract_lets +onlyGivenNames y; with_reducible refine keeps_cut (s := y) ?_ ?_; unfold y; clear y; rotate_left; intro hy; clear_value y; revert y; intros)
    | with_reducible refine keeps_upd (by with_reducible assumption)
    | (extract_lets +onlyGivenNames y; clear_value y; revert y; intros)
    | intro _ _ hs
    | intro _ hs
    | intro hs
    | with_reducible refine keeps_upd ?_

theorem abandonArmed_keeps (h : Keeps q s) : Keeps q (State.abandonArmed s) := by
  unfold State.abandonArmed
  repeat' first
    | with_reducible assumption
    | with_reducible refine keeps_ite ?_ ?_
    | with_reducible apply abandonSwitch_keeps
    | split

theorem pairOut_keeps (h : Keeps q s) : Keeps q (State.pairOut s) := by
  unfold State.pairOut
  repeat' first
    | with_reducible assumption
    | (extract_lets +onlyGivenNames y; with_reducible refine keeps_cut (s := y) ?_ ?_; unfold y; clear y; rotate_left; intro hy; clear_value y; revert y; intros)
    | with_reducible refine keeps_upd (by with_reducible assumption)
    | (extract_lets +onlyGivenNames y; clear_value y; revert y; intros)
    | with_reducible apply wr_keeps
    | with_reducible refine keeps_upd ?_

theorem outputsOff_keeps (h : Keeps q s) : Keeps q (State.outputsOff s) := by
  unfold State.outputsOff
  repeat' first
    | with_reducible assumption
    | (extract_lets +onlyGivenNames y; with_reducible refine keeps_cut (s := y) ?_ ?_; unfold y; clear y; rotate_left; intro hy; clear_value y; revert y; intros)
    | with_reducible refine keeps_upd (by with_reducible assumption)
    | (extract_lets +onlyGivenNames y; clear_value y; revert y; intros)
    | intro _ _ hs
    | intro _ hs
    | intro hs
    | with_reducible refine keeps_upd ?_

theorem latticeIdle_keeps (h : Keeps q s) : Keeps q (State.latticeIdle s) := by
  unfold State.latticeIdle
  repeat' first
    | with_reducible assumption
    | (extract_lets +onlyGivenNames y; with_reducible refine keeps_cut (s := y) ?_ ?_; unfold y; clear y; rotate_left; intro hy; clear_value y; revert y; intros)
    | with_reducible refine keeps_upd (by with_reducible assumption)
    | (extract_lets +onlyGivenNames y; clear_value y; revert y; intros)
    | with_reducible refine keeps_ite ?_ ?_
    | with_reducible apply settleNow_keeps
    | with_reducible apply landAll_keeps
    | with_reducible apply land_keeps
    | with_reducible apply wr_keeps
    | with_reducible refine keeps_foldl ?_ (fun _ _ hs => ?_)
    | intro _ _ hs
    | intro _ hs
    | intro hs
    | split
    | with_reducible refine keeps_upd ?_

theorem exitRun_keeps (h : Keeps q s) : Keeps q (State.exitRun s a1 a2) := by
  unfold State.exitRun
  repeat' first
    | with_reducible assumption
    | (extract_lets +onlyGivenNames y; with_reducible refine keeps_cut (s := y) ?_ ?_; unfold y; clear y; rotate_left; intro hy; clear_value y; revert y; intros)
    | with_reducible refine keeps_upd (by with_reducible assumption)
    | (extract_lets +onlyGivenNames y; clear_value y; revert y; intros)
    | with_reducible refine keeps_ite ?_ ?_
    | with_reducible apply canHalt_keeps
    | with_reducible apply latticeIdle_keeps
    | with_reducible apply outputsOff_keeps
    | with_reducible apply pairOut_keeps
    | with_reducible apply ungate_keeps
    | with_reducible apply wr_keeps
    | with_reducible apply wr64_keeps
    | with_reducible apply driveAll_keeps
    | with_reducible apply evalTrips_keeps
    | with_reducible apply canRoles_keeps
    | split
    | with_reducible refine keeps_upd ?_

theorem stopWaits_keeps (h : Keeps q s) : Keeps q (State.stopWaits s a1 a2) := by
  unfold State.stopWaits
  repeat' first
    | with_reducible assumption
    | with_reducible apply wake_keeps

theorem enterStop_keeps (h : Keeps q s) : Keeps q (State.enterStop s a1) := by
  unfold State.enterStop
  repeat' first
    | with_reducible assumption
    | (extract_lets +onlyGivenNames y; with_reducible refine keeps_cut (s := y) ?_ ?_; unfold y; clear y; rotate_left; intro hy; clear_value y; revert y; intros)
    | with_reducible refine keeps_upd (by with_reducible assumption)
    | (extract_lets +onlyGivenNames y; clear_value y; revert y; intros)
    | with_reducible apply stopWaits_keeps
    | with_reducible apply wr_keeps
    | with_reducible apply exitRun_keeps
    | with_reducible apply abandonArmed_keeps
    | with_reducible refine keeps_upd ?_

theorem stopHere_keeps (h : Keeps q s) : Keeps q (State.stopHere s) := by
  unfold State.stopHere
  repeat' first
    | with_reducible assumption
    | (extract_lets +onlyGivenNames y; with_reducible refine keeps_cut (s := y) ?_ ?_; unfold y; clear y; rotate_left; intro hy; clear_value y; revert y; intros)
    | with_reducible refine keeps_upd (by with_reducible assumption)
    | (extract_lets +onlyGivenNames y; clear_value y; revert y; intros)
    | with_reducible refine keeps_upd ?_

theorem stopSoon_keeps (h : Keeps q s) : Keeps q (State.stopSoon s) := by
  unfold State.stopSoon
  repeat' first
    | with_reducible assumption
    | with_reducible refine keeps_ite ?_ ?_
    | with_reducible apply enterStop_keeps
    | with_reducible apply stopHere_keeps
    | split

theorem enterHalt_keeps (h : Keeps q s) : Keeps q (State.enterHalt s a1 a2) := by
  unfold State.enterHalt
  repeat' first
    | with_reducible assumption
    | (extract_lets +onlyGivenNames y; with_reducible refine keeps_cut (s := y) ?_ ?_; unfold y; clear y; rotate_left; intro hy; clear_value y; revert y; intros)
    | with_reducible refine keeps_upd (by with_reducible assumption)
    | (extract_lets +onlyGivenNames y; clear_value y; revert y; intros)
    | with_reducible refine keeps_ite ?_ ?_
    | with_reducible apply wr_keeps
    | with_reducible apply exitRun_keeps
    | with_reducible apply abandonArmed_keeps
    | with_reducible apply journal_keeps
    | with_reducible apply driveAll_keeps
    | with_reducible apply safeLine_keeps
    | with_reducible apply stopWaits_keeps
    | split
    | with_reducible refine keeps_upd ?_

/-! ### Eth -/

theorem updEth_keeps (h : Keeps q s) : Keeps q (State.updEth s a1) := by
  unfold State.updEth
  repeat' first
    | with_reducible assumption
    | (extract_lets +onlyGivenNames y; with_reducible refine keeps_cut (s := y) ?_ ?_; unfold y; clear y; rotate_left; intro hy; clear_value y; revert y; intros)
    | with_reducible refine keeps_upd (by with_reducible assumption)
    | (extract_lets +onlyGivenNames y; clear_value y; revert y; intros)
    | with_reducible refine keeps_upd ?_

theorem bufLow_keeps (h : Keeps q s) : Keeps q (State.bufLow s) := by
  unfold State.bufLow
  repeat' first
    | with_reducible assumption
    | with_reducible refine keeps_ite ?_ ?_
    | with_reducible apply wr_keeps
    | split

theorem ethEnqueue_keeps (h : Keeps q s) : Keeps q (State.ethEnqueue s a1 a2 a3) := by
  unfold State.ethEnqueue
  repeat' first
    | with_reducible assumption
    | (extract_lets +onlyGivenNames y; with_reducible refine keeps_cut (s := y) ?_ ?_; unfold y; clear y; rotate_left; intro hy; clear_value y; revert y; intros)
    | with_reducible refine keeps_upd (by with_reducible assumption)
    | (extract_lets +onlyGivenNames y; clear_value y; revert y; intros)
    | with_reducible refine keeps_ite ?_ ?_
    | with_reducible apply bufLow_keeps
    | with_reducible apply updEth_keeps
    | with_reducible apply inc_keeps
    | intro _ _ hs
    | intro _ hs
    | intro hs
    | split
    | with_reducible refine keeps_upd ?_

theorem ethSend_keeps (h : Keeps q s) : Keeps q (State.ethSend s a1 a2 a3) := by
  unfold State.ethSend
  repeat' first
    | with_reducible assumption
    | with_reducible apply ethEnqueue_keeps
    | with_reducible refine keeps_foldl ?_ (fun _ _ hs => ?_)
    | intro _ _ hs
    | intro _ hs
    | intro hs

theorem updSec_keeps (h : Keeps q s) : Keeps q (State.updSec s a1 a2) := by
  unfold State.updSec
  repeat' first
    | with_reducible assumption
    | (extract_lets +onlyGivenNames y; with_reducible refine keeps_cut (s := y) ?_ ?_; unfold y; clear y; rotate_left; intro hy; clear_value y; revert y; intros)
    | with_reducible refine keeps_upd (by with_reducible assumption)
    | (extract_lets +onlyGivenNames y; clear_value y; revert y; intros)
    | with_reducible apply updEth_keeps
    | intro _ _ hs
    | intro _ hs
    | intro hs
    | with_reducible refine keeps_upd ?_

theorem pairLinks_keeps (h : Keeps q s) : Keeps q (State.pairLinks s) := by
  unfold State.pairLinks
  repeat' first
    | with_reducible assumption
    | (extract_lets +onlyGivenNames y; with_reducible refine keeps_cut (s := y) ?_ ?_; unfold y; clear y; rotate_left; intro hy; clear_value y; revert y; intros)
    | with_reducible refine keeps_upd (by with_reducible assumption)
    | (extract_lets +onlyGivenNames y; clear_value y; revert y; intros)
    | with_reducible refine keeps_ite ?_ ?_
    | with_reducible apply wr_keeps
    | split
    | with_reducible refine keeps_upd ?_

theorem rekey_keeps (h : Keeps q s) : Keeps q (State.rekey s a1) := by
  unfold State.rekey
  repeat' first
    | with_reducible assumption
    | (extract_lets +onlyGivenNames y; with_reducible refine keeps_cut (s := y) ?_ ?_; unfold y; clear y; rotate_left; intro hy; clear_value y; revert y; intros)
    | (extract_lets +onlyGivenNames y; clear_value y; revert y; intros)
    | with_reducible refine keeps_ite ?_ ?_
    | with_reducible apply toCycle_keeps
    | with_reducible apply pairLinks_keeps
    | with_reducible apply wr_keeps
    | with_reducible apply updSec_keeps
    | intro _ _ hs
    | intro _ hs
    | intro hs
    | split

theorem execMacsecRekey_keeps (h : Keeps q s) : KeepsN q (execMacsecRekey a1 s) := by
  unfold execMacsecRekey
  repeat' first
    | with_reducible assumption
    | with_reducible refine keepsN_next ?_
    | with_reducible apply rekey_keeps

theorem secSent_keeps (h : Keeps q s) : Keeps q (State.secSent s a1) := by
  unfold State.secSent
  repeat' first
    | with_reducible assumption
    | (extract_lets +onlyGivenNames y; with_reducible refine keeps_cut (s := y) ?_ ?_; unfold y; clear y; rotate_left; intro hy; clear_value y; revert y; intros)
    | with_reducible refine keeps_upd (by with_reducible assumption)
    | (extract_lets +onlyGivenNames y; clear_value y; revert y; intros)
    | with_reducible refine keeps_ite ?_ ?_
    | with_reducible apply updSec_keeps
    | with_reducible apply rekey_keeps
    | intro _ _ hs
    | intro _ hs
    | intro hs
    | split
    | with_reducible refine keeps_upd ?_

theorem execMacsecOldAssociationExpiry_keeps (h : Keeps q s) : KeepsN q (execMacsecOldAssociationExpiry a1 s) := by
  unfold execMacsecOldAssociationExpiry
  repeat' first
    | with_reducible assumption
    | with_reducible refine keepsN_next ?_
    | (extract_lets +onlyGivenNames y; with_reducible refine keeps_cut (s := y) ?_ ?_; unfold y; clear y; rotate_left; intro hy; clear_value y; revert y; intros)
    | with_reducible refine keeps_upd (by with_reducible assumption)
    | (extract_lets +onlyGivenNames y; clear_value y; revert y; intros)
    | with_reducible refine keeps_ite ?_ ?_
    | with_reducible refine keepsN_ite ?_ ?_
    | with_reducible apply updSec_keeps
    | intro _ _ hs
    | intro _ hs
    | intro hs
    | split
    | with_reducible refine keeps_fst (by with_reducible assumption) ?_
    | with_reducible refine keeps_upd ?_

theorem ethForward_keeps (h : Keeps q s) : Keeps q (State.ethForward s a1 a2) := by
  unfold State.ethForward
  repeat' first
    | with_reducible assumption
    | (extract_lets +onlyGivenNames y; with_reducible refine keeps_cut (s := y) ?_ ?_; unfold y; clear y; rotate_left; intro hy; clear_value y; revert y; intros)
    | with_reducible refine keeps_upd (by with_reducible assumption)
    | (extract_lets +onlyGivenNames y; clear_value y; revert y; intros)
    | with_reducible refine keeps_ite ?_ ?_
    | with_reducible apply updEth_keeps
    | with_reducible apply ethEnqueue_keeps
    | with_reducible apply wr_keeps
    | with_reducible apply ethSend_keeps
    | intro _ _ hs
    | intro _ hs
    | intro hs
    | split
    | with_reducible refine keeps_fst (by with_reducible assumption) ?_
    | with_reducible refine keeps_upd ?_

theorem execEthFrameRx_keeps (h : Keeps q s) : KeepsN q (execEthFrameRx a1 a2 s) := by
  unfold execEthFrameRx
  repeat' first
    | with_reducible assumption
    | with_reducible refine keepsN_next ?_
    | (extract_lets +onlyGivenNames y; with_reducible refine keeps_cut (s := y) ?_ ?_; unfold y; clear y; rotate_left; intro hy; clear_value y; revert y; intros)
    | with_reducible refine keeps_upd (by with_reducible assumption)
    | (extract_lets +onlyGivenNames y; clear_value y; revert y; intros)
    | with_reducible refine keeps_ite ?_ ?_
    | with_reducible refine keepsN_ite ?_ ?_
    | with_reducible apply inc_keeps
    | with_reducible apply updSec_keeps
    | with_reducible apply updEth_keeps
    | with_reducible apply ethEnqueue_keeps
    | with_reducible apply ethForward_keeps
    | intro _ _ hs
    | intro _ hs
    | intro hs
    | split
    | with_reducible refine keeps_fst (by with_reducible assumption) ?_
    | with_reducible refine keeps_upd ?_

theorem execEthFrameTx_keeps (h : Keeps q s) : KeepsN q (execEthFrameTx a1 s) := by
  unfold execEthFrameTx
  repeat' first
    | with_reducible assumption
    | with_reducible refine keepsN_next ?_
    | (extract_lets +onlyGivenNames y; with_reducible refine keeps_cut (s := y) ?_ ?_; unfold y; clear y; rotate_left; intro hy; clear_value y; revert y; intros)
    | with_reducible refine keeps_upd (by with_reducible assumption)
    | (extract_lets +onlyGivenNames y; clear_value y; revert y; intros)
    | with_reducible refine keeps_ite ?_ ?_
    | with_reducible refine keepsN_ite ?_ ?_
    | with_reducible apply bufLow_keeps
    | with_reducible apply updEth_keeps
    | with_reducible apply inc_keeps
    | with_reducible apply secSent_keeps
    | with_reducible apply emit_keeps
    | intro _ _ hs
    | intro _ hs
    | intro hs
    | split
    | with_reducible refine keeps_fst (by with_reducible assumption) ?_
    | with_reducible refine keeps_upd ?_

theorem execPrpSupervisionSend_keeps (h : Keeps q s) : KeepsN q (execPrpSupervisionSend s) := by
  unfold execPrpSupervisionSend
  repeat' first
    | with_reducible assumption
    | with_reducible refine keepsN_next ?_
    | (extract_lets +onlyGivenNames y; with_reducible refine keeps_cut (s := y) ?_ ?_; unfold y; clear y; rotate_left; intro hy; clear_value y; revert y; intros)
    | with_reducible refine keeps_upd (by with_reducible assumption)
    | (extract_lets +onlyGivenNames y; clear_value y; revert y; intros)
    | with_reducible refine keeps_ite ?_ ?_
    | with_reducible refine keepsN_ite ?_ ?_
    | with_reducible apply emit_keeps
    | with_reducible apply updEth_keeps
    | with_reducible refine keeps_foldl ?_ (fun _ _ hs => ?_)
    | intro _ _ hs
    | intro _ hs
    | intro hs
    | split
    | with_reducible refine keeps_upd ?_

theorem execSupervisionMissing_keeps (h : Keeps q s) : KeepsN q (execSupervisionMissing s) := by
  unfold execSupervisionMissing
  repeat' first
    | with_reducible assumption
    | with_reducible refine keepsN_next ?_
    | with_reducible refine keeps_ite ?_ ?_
    | with_reducible refine keepsN_ite ?_ ?_
    | with_reducible apply wr_keeps
    | intro _ _ hs
    | intro _ hs
    | intro hs
    | split

theorem routeCopy_keeps (h : Keeps q s) : Keeps q (State.routeCopy s a1 a2) := by
  unfold State.routeCopy
  repeat' first
    | with_reducible assumption
    | (extract_lets +onlyGivenNames y; with_reducible refine keeps_cut (s := y) ?_ ?_; unfold y; clear y; rotate_left; intro hy; clear_value y; revert y; intros)
    | (extract_lets +onlyGivenNames y; clear_value y; revert y; intros)
    | with_reducible apply setByte_keeps
    | with_reducible apply clearMem_keeps
    | with_reducible refine keeps_foldl ?_ (fun _ _ hs => ?_)
    | intro _ _ hs
    | intro _ hs
    | intro hs

theorem routeApply_keeps (h : Keeps q s) : Keeps q (State.routeApply s) := by
  unfold State.routeApply
  repeat' first
    | with_reducible assumption
    | with_reducible refine keeps_ite ?_ ?_
    | with_reducible apply applyDone_keeps
    | with_reducible apply wr_keeps
    | split

theorem execEsRtApply_keeps (h : Keeps q s) : KeepsN q (execEsRtApply s) := by
  unfold execEsRtApply
  repeat' first
    | with_reducible assumption
    | with_reducible refine keepsN_next ?_
    | with_reducible apply routeApply_keeps

theorem routeCancel_keeps (h : Keeps q s) : Keeps q (State.routeCancel s) := by
  unfold State.routeCancel
  repeat' first
    | with_reducible assumption
    | with_reducible apply applyDone_keeps
    | with_reducible apply wr_keeps
    | with_reducible apply routeCopy_keeps

theorem execEsRtCancel_keeps (h : Keeps q s) : KeepsN q (execEsRtCancel s) := by
  unfold execEsRtCancel
  repeat' first
    | with_reducible assumption
    | with_reducible refine keepsN_next ?_
    | with_reducible apply routeCancel_keeps

theorem setRoute_keeps (h : Keeps q s) : Keeps q (State.setRoute s a1) := by
  unfold State.setRoute
  repeat' first
    | with_reducible assumption
    | (extract_lets +onlyGivenNames y; with_reducible refine keeps_cut (s := y) ?_ ?_; unfold y; clear y; rotate_left; intro hy; clear_value y; revert y; intros)
    | with_reducible refine keeps_upd (by with_reducible assumption)
    | (extract_lets +onlyGivenNames y; clear_value y; revert y; intros)
    | with_reducible apply updEth_keeps
    | intro _ _ hs
    | intro _ hs
    | intro hs
    | with_reducible refine keeps_upd ?_

theorem fabricOut_keeps (h : Keeps q s) : Keeps q (State.fabricOut s a1 a2 a3) := by
  unfold State.fabricOut
  repeat' first
    | with_reducible assumption
    | (extract_lets +onlyGivenNames y; with_reducible refine keeps_cut (s := y) ?_ ?_; unfold y; clear y; rotate_left; intro hy; clear_value y; revert y; intros)
    | with_reducible refine keeps_upd (by with_reducible assumption)
    | (extract_lets +onlyGivenNames y; clear_value y; revert y; intros)
    | with_reducible refine keeps_ite ?_ ?_
    | with_reducible apply setRoute_keeps
    | with_reducible apply ethSend_keeps
    | split
    | with_reducible refine keeps_upd ?_

theorem fabricFlush_keeps (h : Keeps q s) : Keeps q (State.fabricFlush s a1) := by
  unfold State.fabricFlush
  repeat' first
    | with_reducible assumption
    | (extract_lets +onlyGivenNames y; with_reducible refine keeps_cut (s := y) ?_ ?_; unfold y; clear y; rotate_left; intro hy; clear_value y; revert y; intros)
    | (extract_lets +onlyGivenNames y; clear_value y; revert y; intros)
    | with_reducible refine keeps_ite ?_ ?_
    | with_reducible apply fabricOut_keeps
    | split

theorem execFabricFrameSend_keeps (h : Keeps q s) : KeepsN q (execFabricFrameSend a1 s) := by
  unfold execFabricFrameSend
  repeat' first
    | with_reducible assumption
    | with_reducible refine keepsN_next ?_
    | with_reducible refine keeps_ite ?_ ?_
    | with_reducible refine keepsN_ite ?_ ?_
    | with_reducible apply fabricFlush_keeps
    | split

theorem execRouteEntryDrain_keeps (h : Keeps q s) : KeepsN q (execRouteEntryDrain a1 s) := by
  unfold execRouteEntryDrain
  repeat' first
    | with_reducible assumption
    | with_reducible refine keepsN_next ?_
    | (extract_lets +onlyGivenNames y; with_reducible refine keeps_cut (s := y) ?_ ?_; unfold y; clear y; rotate_left; intro hy; clear_value y; revert y; intros)
    | with_reducible refine keeps_upd (by with_reducible assumption)
    | (extract_lets +onlyGivenNames y; clear_value y; revert y; intros)
    | with_reducible refine keeps_ite ?_ ?_
    | with_reducible refine keepsN_ite ?_ ?_
    | with_reducible apply ringTake_keeps
    | with_reducible apply inc_keeps
    | with_reducible apply fabricFlush_keeps
    | with_reducible apply setRoute_keeps
    | with_reducible refine keeps_foldl ?_ (fun _ _ hs => ?_)
    | intro _ _ hs
    | intro _ hs
    | intro hs
    | split
    | with_reducible refine keeps_fst (by with_reducible assumption) ?_
    | with_reducible refine keeps_upd ?_

theorem fabricPut_keeps (h : Keeps q s) : Keeps q (State.fabricPut s a1 a2) := by
  unfold State.fabricPut
  repeat' first
    | with_reducible assumption
    | (extract_lets +onlyGivenNames y; with_reducible refine keeps_cut (s := y) ?_ ?_; unfold y; clear y; rotate_left; intro hy; clear_value y; revert y; intros)
    | with_reducible refine keeps_upd (by with_reducible assumption)
    | (extract_lets +onlyGivenNames y; clear_value y; revert y; intros)
    | with_reducible apply ringPut_keeps
    | with_reducible apply inc_keeps
    | with_reducible apply emit_keeps
    | split
    | with_reducible refine keeps_fst (by with_reducible assumption) ?_
    | with_reducible refine keeps_upd ?_

theorem execFabricFrameRx_keeps (h : Keeps q s) : KeepsN q (execFabricFrameRx a1 s) := by
  unfold execFabricFrameRx
  repeat' first
    | with_reducible assumption
    | with_reducible refine keepsN_next ?_
    | (extract_lets +onlyGivenNames y; with_reducible refine keeps_cut (s := y) ?_ ?_; unfold y; clear y; rotate_left; intro hy; clear_value y; revert y; intros)
    | with_reducible refine keeps_upd (by with_reducible assumption)
    | (extract_lets +onlyGivenNames y; clear_value y; revert y; intros)
    | with_reducible refine keeps_ite ?_ ?_
    | with_reducible refine keepsN_ite ?_ ?_
    | with_reducible apply inc_keeps
    | with_reducible apply setRoute_keeps
    | with_reducible apply fabricPut_keeps
    | with_reducible apply ingestMessage_keeps
    | with_reducible refine keeps_foldl ?_ (fun _ _ hs => ?_)
    | intro _ _ hs
    | intro _ hs
    | intro hs
    | split
    | with_reducible refine keeps_fst (by with_reducible assumption) ?_
    | with_reducible refine keeps_upd ?_

theorem execRouteTableSwap_keeps (h : Keeps q s) : KeepsN q (execRouteTableSwap s) := by
  unfold execRouteTableSwap
  repeat' first
    | with_reducible assumption
    | with_reducible refine keepsN_next ?_
    | (extract_lets +onlyGivenNames y; with_reducible refine keeps_cut (s := y) ?_ ?_; unfold y; clear y; rotate_left; intro hy; clear_value y; revert y; intros)
    | (extract_lets +onlyGivenNames y; clear_value y; revert y; intros)
    | with_reducible refine keeps_ite ?_ ?_
    | with_reducible refine keepsN_ite ?_ ?_
    | with_reducible apply toTick_keeps
    | with_reducible apply fabricFlush_keeps
    | with_reducible apply applyDone_keeps
    | with_reducible apply wr_keeps
    | with_reducible apply routeCopy_keeps
    | with_reducible refine keeps_foldl ?_ (fun _ _ hs => ?_)
    | intro _ _ hs
    | intro _ hs
    | intro hs
    | split

theorem routesJump_keeps (h : Keeps q s) : Keeps q (State.routesJump s) := by
  unfold State.routesJump
  repeat' first
    | with_reducible assumption
    | (extract_lets +onlyGivenNames y; with_reducible refine keeps_cut (s := y) ?_ ?_; unfold y; clear y; rotate_left; intro hy; clear_value y; revert y; intros)
    | with_reducible refine keeps_upd (by with_reducible assumption)
    | (extract_lets +onlyGivenNames y; clear_value y; revert y; intros)
    | with_reducible apply setRoute_keeps
    | with_reducible refine keeps_foldl ?_ (fun _ _ hs => ?_)
    | intro _ _ hs
    | intro _ hs
    | intro hs
    | with_reducible refine keeps_upd ?_

theorem execIngestSend_keeps (h : Keeps q s) : KeepsN q (execIngestSend a1 s) := by
  unfold execIngestSend
  repeat' first
    | with_reducible assumption
    | with_reducible refine keepsN_next ?_
    | (extract_lets +onlyGivenNames y; with_reducible refine keeps_cut (s := y) ?_ ?_; unfold y; clear y; rotate_left; intro hy; clear_value y; revert y; intros)
    | with_reducible refine keeps_upd (by with_reducible assumption)
    | (extract_lets +onlyGivenNames y; clear_value y; revert y; intros)
    | with_reducible refine keeps_ite ?_ ?_
    | with_reducible refine keepsN_ite ?_ ?_
    | with_reducible apply fabricOut_keeps
    | with_reducible refine keeps_foldl ?_ (fun _ _ hs => ?_)
    | intro _ _ hs
    | intro _ hs
    | intro hs
    | split
    | with_reducible refine keeps_fst (by with_reducible assumption) ?_
    | with_reducible refine keeps_upd ?_

/-! ### Ptp -/

theorem updPtp_keeps (h : Keeps q s) : Keeps q (State.updPtp s a1 a2) := by
  unfold State.updPtp
  repeat' first
    | with_reducible assumption
    | (extract_lets +onlyGivenNames y; with_reducible refine keeps_cut (s := y) ?_ ?_; unfold y; clear y; rotate_left; intro hy; clear_value y; revert y; intros)
    | with_reducible refine keeps_upd (by with_reducible assumption)
    | (extract_lets +onlyGivenNames y; clear_value y; revert y; intros)
    | with_reducible refine keeps_upd ?_

theorem ptpSend_keeps (h : Keeps q s) : Keeps q (State.ptpSend s a1 a2 a3) := by
  unfold State.ptpSend
  repeat' first
    | with_reducible assumption
    | with_reducible refine keeps_ite ?_ ?_
    | with_reducible apply emit_keeps
    | split

theorem servo_keeps (h : Keeps q s) : Keeps q (State.servo s a1) := by
  unfold State.servo
  repeat' first
    | with_reducible assumption
    | with_reducible apply wr_keeps

theorem servoAcquire_keeps (h : Keeps q s) : Keeps q (State.servoAcquire s) := by
  unfold State.servoAcquire
  repeat' first
    | with_reducible assumption
    | (extract_lets +onlyGivenNames y; with_reducible refine keeps_cut (s := y) ?_ ?_; unfold y; clear y; rotate_left; intro hy; clear_value y; revert y; intros)
    | with_reducible refine keeps_upd (by with_reducible assumption)
    | (extract_lets +onlyGivenNames y; clear_value y; revert y; intros)
    | with_reducible apply servo_keeps
    | with_reducible refine keeps_upd ?_

theorem servoCfg_keeps (h : Keeps q s) : Keeps q (State.servoCfg s a1 a2) := by
  unfold State.servoCfg
  repeat' first
    | with_reducible assumption
    | (extract_lets +onlyGivenNames y; with_reducible refine keeps_cut (s := y) ?_ ?_; unfold y; clear y; rotate_left; intro hy; clear_value y; revert y; intros)
    | with_reducible refine keeps_upd (by with_reducible assumption)
    | (extract_lets +onlyGivenNames y; clear_value y; revert y; intros)
    | with_reducible refine keeps_ite ?_ ?_
    | with_reducible apply wr_keeps
    | with_reducible apply servo_keeps
    | with_reducible apply servoAcquire_keeps
    | intro _ _ hs
    | intro _ hs
    | intro hs
    | split
    | with_reducible refine keeps_upd ?_

theorem servoStep_keeps (h : Keeps q s) : Keeps q (State.servoStep s) := by
  unfold State.servoStep
  repeat' first
    | with_reducible assumption
    | (extract_lets +onlyGivenNames y; with_reducible refine keeps_cut (s := y) ?_ ?_; unfold y; clear y; rotate_left; intro hy; clear_value y; revert y; intros)
    | with_reducible refine keeps_upd (by with_reducible assumption)
    | (extract_lets +onlyGivenNames y; clear_value y; revert y; intros)
    | with_reducible apply wr64_keeps
    | with_reducible apply wr_keeps
    | with_reducible apply todArm_keeps
    | with_reducible refine keeps_upd ?_

theorem servoLocked_keeps (h : Keeps q s) : Keeps q (State.servoLocked s a1) := by
  unfold State.servoLocked
  repeat' first
    | with_reducible assumption
    | (extract_lets +onlyGivenNames y; with_reducible refine keeps_cut (s := y) ?_ ?_; unfold y; clear y; rotate_left; intro hy; clear_value y; revert y; intros)
    | with_reducible refine keeps_upd (by with_reducible assumption)
    | (extract_lets +onlyGivenNames y; clear_value y; revert y; intros)
    | with_reducible refine keeps_ite ?_ ?_
    | with_reducible apply wr_keeps
    | with_reducible apply servoAcquire_keeps
    | with_reducible apply setInc_keeps
    | split
    | with_reducible refine keeps_upd ?_

theorem servoResult_keeps (h : Keeps q s) : Keeps q (State.servoResult s a1) := by
  unfold State.servoResult
  repeat' first
    | with_reducible assumption
    | (extract_lets +onlyGivenNames y; with_reducible refine keeps_cut (s := y) ?_ ?_; unfold y; clear y; rotate_left; intro hy; clear_value y; revert y; intros)
    | with_reducible refine keeps_upd (by with_reducible assumption)
    | (extract_lets +onlyGivenNames y; clear_value y; revert y; intros)
    | with_reducible refine keeps_ite ?_ ?_
    | with_reducible apply wr_keeps
    | with_reducible apply servo_keeps
    | with_reducible apply servoStep_keeps
    | with_reducible apply servoLocked_keeps
    | split
    | with_reducible refine keeps_fst (by with_reducible assumption) ?_
    | with_reducible refine keeps_upd ?_

theorem ptpOffset_keeps (h : Keeps q s) : Keeps q (State.ptpOffset s a1) := by
  unfold State.ptpOffset
  repeat' first
    | with_reducible assumption
    | (extract_lets +onlyGivenNames y; with_reducible refine keeps_cut (s := y) ?_ ?_; unfold y; clear y; rotate_left; intro hy; clear_value y; revert y; intros)
    | with_reducible refine keeps_upd (by with_reducible assumption)
    | (extract_lets +onlyGivenNames y; clear_value y; revert y; intros)
    | with_reducible refine keeps_ite ?_ ?_
    | with_reducible apply servoResult_keeps
    | split
    | with_reducible refine keeps_fst (by with_reducible assumption) ?_
    | with_reducible refine keeps_upd ?_

theorem ptpPath_keeps (h : Keeps q s) : Keeps q (State.ptpPath s a1 a2) := by
  unfold State.ptpPath
  repeat' first
    | with_reducible assumption
    | (extract_lets +onlyGivenNames y; with_reducible refine keeps_cut (s := y) ?_ ?_; unfold y; clear y; rotate_left; intro hy; clear_value y; revert y; intros)
    | with_reducible refine keeps_upd (by with_reducible assumption)
    | (extract_lets +onlyGivenNames y; clear_value y; revert y; intros)
    | with_reducible apply wr_keeps
    | with_reducible apply updPtp_keeps
    | intro _ _ hs
    | intro _ hs
    | intro hs
    | with_reducible refine keeps_upd ?_

theorem ptpAnnounce_keeps (h : Keeps q s) : Keeps q (State.ptpAnnounce s a1 a2 a3) := by
  unfold State.ptpAnnounce
  repeat' first
    | with_reducible assumption
    | (extract_lets +onlyGivenNames y; with_reducible refine keeps_cut (s := y) ?_ ?_; unfold y; clear y; rotate_left; intro hy; clear_value y; revert y; intros)
    | with_reducible refine keeps_upd (by with_reducible assumption)
    | (extract_lets +onlyGivenNames y; clear_value y; revert y; intros)
    | with_reducible refine keeps_ite ?_ ?_
    | with_reducible apply wr_keeps
    | with_reducible apply servoAcquire_keeps
    | with_reducible apply servo_keeps
    | split
    | with_reducible refine keeps_fst (by with_reducible assumption) ?_
    | with_reducible refine keeps_upd ?_

theorem execPtpMessageRx_keeps (h : Keeps q s) : KeepsN q (execPtpMessageRx a1 a2 a3 s) := by
  unfold execPtpMessageRx
  repeat' first
    | with_reducible assumption
    | with_reducible refine keepsN_next ?_
    | (extract_lets +onlyGivenNames y; with_reducible refine keeps_cut (s := y) ?_ ?_; unfold y; clear y; rotate_left; intro hy; clear_value y; revert y; intros)
    | with_reducible refine keeps_upd (by with_reducible assumption)
    | (extract_lets +onlyGivenNames y; clear_value y; revert y; intros)
    | with_reducible refine keeps_ite ?_ ?_
    | with_reducible refine keepsN_ite ?_ ?_
    | with_reducible apply ptpAnnounce_keeps
    | with_reducible apply updPtp_keeps
    | with_reducible apply ptpOffset_keeps
    | with_reducible apply ptpPath_keeps
    | with_reducible apply ptpSend_keeps
    | intro _ _ hs
    | intro _ hs
    | intro hs
    | split
    | with_reducible refine keeps_fst (by with_reducible assumption) ?_
    | with_reducible refine keeps_upd ?_

theorem execPtpMessageTx_keeps (h : Keeps q s) : KeepsN q (execPtpMessageTx a1 a2 s) := by
  unfold execPtpMessageTx
  repeat' first
    | with_reducible assumption
    | with_reducible refine keepsN_next ?_
    | (extract_lets +onlyGivenNames y; with_reducible refine keeps_cut (s := y) ?_ ?_; unfold y; clear y; rotate_left; intro hy; clear_value y; revert y; intros)
    | with_reducible refine keeps_upd (by with_reducible assumption)
    | (extract_lets +onlyGivenNames y; clear_value y; revert y; intros)
    | with_reducible refine keeps_ite ?_ ?_
    | with_reducible refine keepsN_ite ?_ ?_
    | with_reducible apply nextFree_keeps
    | with_reducible apply ptpSend_keeps
    | with_reducible apply updPtp_keeps
    | intro _ _ hs
    | intro _ hs
    | intro hs
    | split
    | with_reducible refine keeps_fst (by with_reducible assumption) ?_
    | with_reducible refine keeps_upd ?_

theorem execPtpMasterLost_keeps (h : Keeps q s) : KeepsN q (execPtpMasterLost s) := by
  unfold execPtpMasterLost
  repeat' first
    | with_reducible assumption
    | with_reducible refine keepsN_next ?_
    | (extract_lets +onlyGivenNames y; with_reducible refine keeps_cut (s := y) ?_ ?_; unfold y; clear y; rotate_left; intro hy; clear_value y; revert y; intros)
    | with_reducible refine keeps_upd (by with_reducible assumption)
    | (extract_lets +onlyGivenNames y; clear_value y; revert y; intros)
    | with_reducible refine keeps_ite ?_ ?_
    | with_reducible refine keepsN_ite ?_ ?_
    | with_reducible apply wr_keeps
    | with_reducible apply servo_keeps
    | split
    | with_reducible refine keeps_fst (by with_reducible assumption) ?_
    | with_reducible refine keeps_upd ?_

theorem loadCorr_keeps (h : Keeps q s) : Keeps q (State.loadCorr s a1) := by
  unfold State.loadCorr
  repeat' first
    | with_reducible assumption
    | (extract_lets +onlyGivenNames y; with_reducible refine keeps_cut (s := y) ?_ ?_; unfold y; clear y; rotate_left; intro hy; clear_value y; revert y; intros)
    | (extract_lets +onlyGivenNames y; clear_value y; revert y; intros)
    | with_reducible refine keeps_ite ?_ ?_
    | with_reducible apply wr_keeps
    | split

theorem execPortLinkChange_keeps (h : Keeps q s) : KeepsN q (execPortLinkChange a1 a2 s) := by
  unfold execPortLinkChange
  repeat' first
    | with_reducible assumption
    | with_reducible refine keepsN_next ?_
    | (extract_lets +onlyGivenNames y; with_reducible refine keeps_cut (s := y) ?_ ?_; unfold y; clear y; rotate_left; intro hy; clear_value y; revert y; intros)
    | (extract_lets +onlyGivenNames y; clear_value y; revert y; intros)
    | with_reducible refine keeps_ite ?_ ?_
    | with_reducible refine keepsN_ite ?_ ?_
    | with_reducible apply wr_keeps
    | with_reducible apply loadCorr_keeps
    | split

/-! ### Transfers -/

theorem inputBytes_keeps (h : Keeps q s) : Keeps q (State.inputBytes s a1).1 := by
  unfold State.inputBytes
  repeat' first
    | with_reducible assumption
    | (extract_lets +onlyGivenNames y; with_reducible refine keeps_cut (s := y) ?_ ?_; unfold y; clear y; rotate_left; intro hy; clear_value y; revert y; intros)
    | with_reducible refine keeps_upd (by with_reducible assumption)
    | (extract_lets +onlyGivenNames y; clear_value y; revert y; intros)
    | with_reducible refine keeps_ite ?_ ?_
    | with_reducible apply nextFree_keeps
    | with_reducible apply canSnapshot_keeps
    | with_reducible refine keeps_foldl ?_ (fun _ _ hs => ?_)
    | intro _ _ hs
    | intro _ hs
    | intro hs
    | split
    | with_reducible refine keeps_fst (by with_reducible assumption) ?_
    | with_reducible refine keeps_upd ?_

theorem startInput_keeps (h : Keeps q s) : Keeps q (State.startInput s a1 a2) := by
  unfold State.startInput
  repeat' first
    | with_reducible assumption
    | (extract_lets +onlyGivenNames y; with_reducible refine keeps_cut (s := y) ?_ ?_; unfold y; clear y; rotate_left; intro hy; clear_value y; revert y; intros)
    | with_reducible refine keeps_upd (by with_reducible assumption)
    | (extract_lets +onlyGivenNames y; clear_value y; revert y; intros)
    | with_reducible apply inputBytes_keeps
    | with_reducible apply bus_keeps
    | with_reducible refine keeps_foldl ?_ (fun _ _ hs => ?_)
    | intro _ _ hs
    | intro _ hs
    | intro hs
    | split
    | with_reducible refine keeps_fst (by with_reducible assumption) ?_
    | with_reducible refine keeps_upd ?_

theorem startOutput_keeps (h : Keeps q s) : Keeps q (State.startOutput s a1 a2 a3) := by
  unfold State.startOutput
  repeat' first
    | with_reducible assumption
    | with_reducible apply bus_keeps
    | with_reducible refine keeps_foldl ?_ (fun _ _ hs => ?_)
    | intro _ _ hs
    | intro _ hs
    | intro hs

theorem execXstart_keeps (h : Keeps q s) : KeepsN q (execXstart a1 a2 a3 a4 s) := by
  unfold execXstart
  repeat' first
    | with_reducible assumption
    | with_reducible refine keepsN_next ?_
    | (extract_lets +onlyGivenNames y; with_reducible refine keeps_cut (s := y) ?_ ?_; unfold y; clear y; rotate_left; intro hy; clear_value y; revert y; intros)
    | with_reducible refine keeps_upd (by with_reducible assumption)
    | (extract_lets +onlyGivenNames y; clear_value y; revert y; intros)
    | with_reducible refine keeps_ite ?_ ?_
    | with_reducible refine keepsN_ite ?_ ?_
    | with_reducible apply issue_keeps
    | with_reducible apply startInput_keeps
    | with_reducible apply startOutput_keeps
    | intro _ _ hs
    | intro _ hs
    | intro hs
    | split
    | with_reducible refine keeps_upd ?_

theorem fgOutDone_keeps (h : Keeps q s) : Keeps q (State.fgOutDone s a1 a2 a3) := by
  unfold State.fgOutDone
  repeat' first
    | with_reducible assumption
    | (extract_lets +onlyGivenNames y; with_reducible refine keeps_cut (s := y) ?_ ?_; unfold y; clear y; rotate_left; intro hy; clear_value y; revert y; intros)
    | with_reducible refine keeps_upd (by with_reducible assumption)
    | (extract_lets +onlyGivenNames y; clear_value y; revert y; intros)
    | with_reducible refine keeps_ite ?_ ?_
    | with_reducible apply updChan_keeps
    | with_reducible apply crossFail_keeps
    | with_reducible refine keeps_foldl ?_ (fun _ _ hs => ?_)
    | intro _ _ hs
    | intro _ hs
    | intro hs
    | split
    | with_reducible refine keeps_upd ?_

theorem execTransferComplete_keeps (h : Keeps q s) : KeepsN q (execTransferComplete a1 s) := by
  unfold execTransferComplete
  repeat' first
    | with_reducible assumption
    | with_reducible refine keepsN_next ?_
    | (extract_lets +onlyGivenNames y; with_reducible refine keeps_cut (s := y) ?_ ?_; unfold y; clear y; rotate_left; intro hy; clear_value y; revert y; intros)
    | with_reducible refine keeps_upd (by with_reducible assumption)
    | (extract_lets +onlyGivenNames y; clear_value y; revert y; intros)
    | with_reducible apply settle_keeps
    | with_reducible apply toCycle_keeps
    | with_reducible apply fgOutDone_keeps
    | split
    | with_reducible refine keeps_fst (by with_reducible assumption) ?_
    | with_reducible refine keeps_upd ?_

/-! ### RunInit -/

theorem loadImage_keeps (h : Keeps q s) : Keeps q (State.loadImage s a1) := by
  unfold State.loadImage
  repeat' first
    | with_reducible assumption
    | (extract_lets +onlyGivenNames y; with_reducible refine keeps_cut (s := y) ?_ ?_; unfold y; clear y; rotate_left; intro hy; clear_value y; revert y; intros)
    | (extract_lets +onlyGivenNames y; clear_value y; revert y; intros)
    | with_reducible apply clearMem_keeps
    | with_reducible apply setBytes_keeps
    | with_reducible refine keeps_foldl ?_ (fun _ _ hs => ?_)
    | intro _ _ hs
    | intro _ hs
    | intro hs

theorem loadSram_keeps (h : Keeps q s) : Keeps q (State.loadSram s a1) := by
  unfold State.loadSram
  repeat' first
    | with_reducible assumption
    | (extract_lets +onlyGivenNames y; with_reducible refine keeps_cut (s := y) ?_ ?_; unfold y; clear y; rotate_left; intro hy; clear_value y; revert y; intros)
    | (extract_lets +onlyGivenNames y; clear_value y; revert y; intros)
    | with_reducible apply clearMem_keeps
    | with_reducible apply setBytes_keeps
    | with_reducible refine keeps_foldl ?_ (fun _ _ hs => ?_)
    | intro _ _ hs
    | intro _ hs
    | intro hs

theorem loadRetentive_keeps (h : Keeps q s) : Keeps q (State.loadRetentive s a1 a2) := by
  unfold State.loadRetentive
  repeat' first
    | with_reducible assumption
    | (extract_lets +onlyGivenNames y; with_reducible refine keeps_cut (s := y) ?_ ?_; unfold y; clear y; rotate_left; intro hy; clear_value y; revert y; intros)
    | with_reducible refine keeps_upd (by with_reducible assumption)
    | (extract_lets +onlyGivenNames y; clear_value y; revert y; intros)
    | with_reducible refine keeps_ite ?_ ?_
    | with_reducible apply wr_keeps
    | with_reducible apply clearMem_keeps
    | with_reducible apply setByte_keeps
    | with_reducible refine keeps_foldl ?_ (fun _ _ hs => ?_)
    | intro _ _ hs
    | intro _ hs
    | intro hs
    | split
    | with_reducible refine keeps_upd ?_

theorem firstAll_keeps (h : Keeps q s) : Keeps q (State.firstAll s) := by
  unfold State.firstAll
  repeat' first
    | with_reducible assumption
    | (extract_lets +onlyGivenNames y; with_reducible refine keeps_cut (s := y) ?_ ?_; unfold y; clear y; rotate_left; intro hy; clear_value y; revert y; intros)
    | (extract_lets +onlyGivenNames y; clear_value y; revert y; intros)
    | with_reducible apply setByte_keeps
    | with_reducible refine keeps_foldl ?_ (fun _ _ hs => ?_)
    | intro _ _ hs
    | intro _ hs
    | intro hs

theorem safeRequests_keeps (h : Keeps q s) : Keeps q (State.safeRequests s a1) := by
  unfold State.safeRequests
  repeat' first
    | with_reducible assumption
    | (extract_lets +onlyGivenNames y; with_reducible refine keeps_cut (s := y) ?_ ?_; unfold y; clear y; rotate_left; intro hy; clear_value y; revert y; intros)
    | with_reducible refine keeps_upd (by with_reducible assumption)
    | (extract_lets +onlyGivenNames y; clear_value y; revert y; intros)
    | with_reducible apply setByte_keeps
    | with_reducible apply setWord_keeps
    | with_reducible refine keeps_foldl ?_ (fun _ _ hs => ?_)
    | intro _ _ hs
    | intro _ hs
    | intro hs
    | split
    | with_reducible refine keeps_fst (by with_reducible assumption) ?_
    | with_reducible refine keeps_upd ?_

theorem loadStart_keeps (h : Keeps q s) : Keeps q (State.loadStart s a1 a2) := by
  unfold State.loadStart
  repeat' first
    | with_reducible assumption
    | (extract_lets +onlyGivenNames y; with_reducible refine keeps_cut (s := y) ?_ ?_; unfold y; clear y; rotate_left; intro hy; clear_value y; revert y; intros)
    | (extract_lets +onlyGivenNames y; clear_value y; revert y; intros)
    | with_reducible refine keeps_ite ?_ ?_
    | with_reducible apply wr_keeps
    | with_reducible apply foldAll_keeps
    | with_reducible apply loadRetentive_keeps
    | with_reducible apply loadSram_keeps
    | with_reducible apply loadImage_keeps
    | with_reducible apply safeRequests_keeps
    | with_reducible apply firstAll_keeps
    | with_reducible refine keeps_foldl ?_ (fun _ _ hs => ?_)
    | split

theorem runMs_keeps (h : Keeps q s) : Keeps q (State.runMs s) := by
  unfold State.runMs
  repeat' first
    | with_reducible assumption
    | (extract_lets +onlyGivenNames y; with_reducible refine keeps_cut (s := y) ?_ ?_; unfold y; clear y; rotate_left; intro hy; clear_value y; revert y; intros)
    | with_reducible refine keeps_upd (by with_reducible assumption)
    | (extract_lets +onlyGivenNames y; clear_value y; revert y; intros)
    | with_reducible refine keeps_ite ?_ ?_
    | with_reducible apply wr_keeps
    | split
    | with_reducible refine keeps_upd ?_

theorem restartTiles_keeps (h : Keeps q s) : Keeps q (State.restartTiles s a1) := by
  unfold State.restartTiles
  repeat' first
    | with_reducible assumption
    | (extract_lets +onlyGivenNames y; with_reducible refine keeps_cut (s := y) ?_ ?_; unfold y; clear y; rotate_left; intro hy; clear_value y; revert y; intros)
    | with_reducible refine keeps_upd (by with_reducible assumption)
    | (extract_lets +onlyGivenNames y; clear_value y; revert y; intros)
    | with_reducible refine keeps_ite ?_ ?_
    | with_reducible apply updTile_keeps
    | with_reducible apply landAll_keeps
    | with_reducible refine keeps_foldl ?_ (fun _ _ hs => ?_)
    | intro _ _ hs
    | intro _ hs
    | intro hs
    | split
    | with_reducible refine keeps_upd ?_

theorem newFrame_keeps (h : Keeps q s) : Keeps q (State.newFrame s) := by
  unfold State.newFrame
  repeat' first
    | with_reducible assumption
    | (extract_lets +onlyGivenNames y; with_reducible refine keeps_cut (s := y) ?_ ?_; unfold y; clear y; rotate_left; intro hy; clear_value y; revert y; intros)
    | with_reducible refine keeps_upd (by with_reducible assumption)
    | (extract_lets +onlyGivenNames y; clear_value y; revert y; intros)
    | with_reducible refine keeps_ite ?_ ?_
    | with_reducible apply bus_keeps
    | with_reducible apply restartTiles_keeps
    | intro _ _ hs
    | intro _ hs
    | intro hs
    | split
    | with_reducible refine keeps_fst (by with_reducible assumption) ?_
    | with_reducible refine keeps_upd ?_

end Sys2Proof.Laws
end

