-- ==== Sys2Proof/Laws/KeepsPair.lean ====
section
/-! SUPPORT. Every operation and meaning of the pair, the lock groups and the frame tick leaves the queue of waiting commands alone and keeps a sound state sound. -/

set_option Elab.async false

namespace Sys2Proof.Laws

open Sys2Proof Sys2Proof.Machine Sys2Proof.Safety

variable {q : Prop × List Instr × Option (List (Nat × Nat))} {s : State}

/-! ### Pair -/

theorem driveDated_keeps (h : Keeps q s) : Keeps q (State.driveDated s a1) := by
  unfold State.driveDated
  repeat' first
    | with_reducible assumption
    | (extract_lets +onlyGivenNames y; with_reducible refine keeps_cut (s := y) ?_ ?_; unfold y; clear y; rotate_left; intro hy; clear_value y; revert y; intros)
    | with_reducible refine keeps_upd (by with_reducible assumption)
    | (extract_lets +onlyGivenNames y; clear_value y; revert y; intros)
    | with_reducible refine keeps_ite ?_ ?_
    | split
    | with_reducible refine keeps_upd ?_

theorem setRole_keeps (h : Keeps q s) : Keeps q (State.setRole s a1) := by
  unfold State.setRole
  repeat' first
    | with_reducible assumption
    | (extract_lets +onlyGivenNames y; with_reducible refine keeps_cut (s := y) ?_ ?_; unfold y; clear y; rotate_left; intro hy; clear_value y; revert y; intros)
    | with_reducible refine keeps_upd (by with_reducible assumption)
    | (extract_lets +onlyGivenNames y; clear_value y; revert y; intros)
    | with_reducible refine keeps_ite ?_ ?_
    | with_reducible apply driveDated_keeps
    | with_reducible apply canRoles_keeps
    | with_reducible apply routesJump_keeps
    | split
    | with_reducible refine keeps_upd ?_

theorem takeActive_keeps (h : Keeps q s) : Keeps q (State.takeActive s a1) := by
  unfold State.takeActive
  repeat' first
    | with_reducible assumption
    | with_reducible apply chainTakeover_keeps
    | with_reducible apply setRole_keeps
    | with_reducible apply ungate_keeps

theorem execPartnerHealthyChange_keeps (h : Keeps q s) : KeepsN q (execPartnerHealthyChange a1 s) := by
  unfold execPartnerHealthyChange
  repeat' first
    | with_reducible assumption
    | with_reducible refine keepsN_next ?_
    | with_reducible refine keeps_ite ?_ ?_
    | with_reducible refine keepsN_ite ?_ ?_
    | with_reducible apply wr_keeps
    | split

theorem execPartnerMarkPulse_keeps (h : Keeps q s) : KeepsN q (execPartnerMarkPulse s) := by
  unfold execPartnerMarkPulse
  repeat' first
    | with_reducible assumption
    | with_reducible refine keepsN_next ?_
    | (extract_lets +onlyGivenNames y; with_reducible refine keeps_cut (s := y) ?_ ?_; unfold y; clear y; rotate_left; intro hy; clear_value y; revert y; intros)
    | with_reducible refine keeps_upd (by with_reducible assumption)
    | (extract_lets +onlyGivenNames y; clear_value y; revert y; intros)
    | with_reducible refine keeps_upd ?_

theorem execPartnerDriveChange_keeps (h : Keeps q s) : KeepsN q (execPartnerDriveChange a1 s) := by
  unfold execPartnerDriveChange
  repeat' first
    | with_reducible assumption
    | with_reducible refine keepsN_next ?_
    | (extract_lets +onlyGivenNames y; with_reducible refine keeps_cut (s := y) ?_ ?_; unfold y; clear y; rotate_left; intro hy; clear_value y; revert y; intros)
    | with_reducible refine keeps_upd (by with_reducible assumption)
    | (extract_lets +onlyGivenNames y; clear_value y; revert y; intros)
    | with_reducible refine keeps_ite ?_ ?_
    | with_reducible refine keepsN_ite ?_ ?_
    | with_reducible apply safeLine_keeps
    | with_reducible apply wr_keeps
    | with_reducible apply driveDated_keeps
    | split
    | with_reducible refine keeps_upd ?_

theorem execPartnerLinkChange_keeps (h : Keeps q s) : KeepsN q (execPartnerLinkChange a1 a2 s) := by
  unfold execPartnerLinkChange
  repeat' first
    | with_reducible assumption
    | with_reducible refine keepsN_next ?_
    | with_reducible refine keeps_ite ?_ ?_
    | with_reducible refine keepsN_ite ?_ ?_
    | with_reducible apply pairLinks_keeps
    | with_reducible apply wr_keeps
    | split

theorem path_keeps (h : Keeps q s) : Keeps q (State.path s a1 a2) := by
  unfold State.path
  repeat' first
    | with_reducible assumption
    | with_reducible apply emit_keeps

theorem regionEcc_keeps (h : Keeps q s) : Keeps q (State.regionEcc s a1 a2) := by
  unfold State.regionEcc
  repeat' first
    | with_reducible assumption
    | (extract_lets +onlyGivenNames y; with_reducible refine keeps_cut (s := y) ?_ ?_; unfold y; clear y; rotate_left; intro hy; clear_value y; revert y; intros)
    | with_reducible refine keeps_upd (by with_reducible assumption)
    | (extract_lets +onlyGivenNames y; clear_value y; revert y; intros)
    | with_reducible refine keeps_ite ?_ ?_
    | with_reducible apply eccData_keeps
    | with_reducible apply bankEcc_keeps
    | with_reducible refine keeps_foldl ?_ (fun _ _ hs => ?_)
    | intro _ _ hs
    | intro _ hs
    | intro hs
    | split
    | with_reducible refine keeps_fst (by with_reducible assumption) ?_
    | with_reducible refine keeps_upd ?_

theorem propose_keeps (h : Keeps q s) : Keeps q (State.propose s) := by
  unfold State.propose
  repeat' first
    | with_reducible assumption
    | (extract_lets +onlyGivenNames y; with_reducible refine keeps_cut (s := y) ?_ ?_; unfold y; clear y; rotate_left; intro hy; clear_value y; revert y; intros)
    | with_reducible refine keeps_upd (by with_reducible assumption)
    | (extract_lets +onlyGivenNames y; clear_value y; revert y; intros)
    | split
    | with_reducible refine keeps_fst (by with_reducible assumption) ?_
    | with_reducible refine keeps_upd ?_

theorem execInputExchangeSend_keeps (h : Keeps q s) : KeepsN q (execInputExchangeSend a1 s) := by
  unfold execInputExchangeSend
  repeat' first
    | with_reducible assumption
    | with_reducible refine keepsN_next ?_
    | (extract_lets +onlyGivenNames y; with_reducible refine keeps_cut (s := y) ?_ ?_; unfold y; clear y; rotate_left; intro hy; clear_value y; revert y; intros)
    | with_reducible refine keeps_upd (by with_reducible assumption)
    | (extract_lets +onlyGivenNames y; clear_value y; revert y; intros)
    | with_reducible refine keeps_ite ?_ ?_
    | with_reducible refine keepsN_ite ?_ ?_
    | with_reducible apply propose_keeps
    | with_reducible apply regionEcc_keeps
    | with_reducible apply settleThrough_keeps
    | with_reducible apply toCycle_keeps
    | with_reducible apply emit_keeps
    | split
    | with_reducible refine keeps_fst (by with_reducible assumption) ?_
    | with_reducible refine keeps_upd ?_

theorem canCut_keeps (h : Keeps q s) : Keeps q (State.canCut s a1) := by
  unfold State.canCut
  repeat' first
    | with_reducible assumption
    | (extract_lets +onlyGivenNames y; with_reducible refine keeps_cut (s := y) ?_ ?_; unfold y; clear y; rotate_left; intro hy; clear_value y; revert y; intros)
    | with_reducible refine keeps_upd (by with_reducible assumption)
    | (extract_lets +onlyGivenNames y; clear_value y; revert y; intros)
    | with_reducible apply updCan_keeps
    | with_reducible refine keeps_foldl ?_ (fun _ _ hs => ?_)
    | intro _ _ hs
    | intro _ hs
    | intro hs
    | split
    | with_reducible refine keeps_fst (by with_reducible assumption) ?_
    | with_reducible refine keeps_upd ?_

theorem execExchangeMessageRx_keeps (h : Keeps q s) : KeepsN q (execExchangeMessageRx a1 s) := by
  unfold execExchangeMessageRx
  repeat' first
    | with_reducible assumption
    | with_reducible refine keepsN_next ?_
    | (extract_lets +onlyGivenNames y; with_reducible refine keeps_cut (s := y) ?_ ?_; unfold y; clear y; rotate_left; intro hy; clear_value y; revert y; intros)
    | with_reducible refine keeps_upd (by with_reducible assumption)
    | (extract_lets +onlyGivenNames y; clear_value y; revert y; intros)
    | with_reducible refine keeps_ite ?_ ?_
    | with_reducible refine keepsN_ite ?_ ?_
    | with_reducible apply canCut_keeps
    | split
    | with_reducible refine keeps_upd ?_

theorem release_keeps (h : Keeps q s) : Keeps q (State.release s a1 a2) := by
  unfold State.release
  repeat' first
    | with_reducible assumption
    | (extract_lets +onlyGivenNames y; with_reducible refine keeps_cut (s := y) ?_ ?_; unfold y; clear y; rotate_left; intro hy; clear_value y; revert y; intros)
    | with_reducible refine keeps_upd (by with_reducible assumption)
    | (extract_lets +onlyGivenNames y; clear_value y; revert y; intros)
    | intro _ _ hs
    | intro _ hs
    | intro hs
    | with_reducible refine keeps_upd ?_

theorem execExchangeCutover_keeps (h : Keeps q s) : KeepsN q (execExchangeCutover a1 s) := by
  unfold execExchangeCutover
  repeat' first
    | with_reducible assumption
    | with_reducible refine keepsN_next ?_
    | (extract_lets +onlyGivenNames y; with_reducible refine keeps_cut (s := y) ?_ ?_; unfold y; clear y; rotate_left; intro hy; clear_value y; revert y; intros)
    | with_reducible refine keeps_upd (by with_reducible assumption)
    | (extract_lets +onlyGivenNames y; clear_value y; revert y; intros)
    | with_reducible refine keeps_ite ?_ ?_
    | with_reducible refine keepsN_ite ?_ ?_
    | with_reducible apply settle_keeps
    | with_reducible apply toCycle_keeps
    | with_reducible apply regionEcc_keeps
    | with_reducible apply inc_keeps
    | with_reducible apply wr_keeps
    | with_reducible apply bus_keeps
    | with_reducible apply release_keeps
    | with_reducible refine keeps_foldl ?_ (fun _ _ hs => ?_)
    | intro _ _ hs
    | intro _ hs
    | intro hs
    | split
    | with_reducible refine keeps_fst (by with_reducible assumption) ?_
    | with_reducible refine keeps_upd ?_

theorem execGatedRingMirrorRx_keeps (h : Keeps q s) : KeepsN q (execGatedRingMirrorRx a1 a2 s) := by
  unfold execGatedRingMirrorRx
  repeat' first
    | with_reducible assumption
    | with_reducible refine keepsN_next ?_
    | (extract_lets +onlyGivenNames y; with_reducible refine keeps_cut (s := y) ?_ ?_; unfold y; clear y; rotate_left; intro hy; clear_value y; revert y; intros)
    | with_reducible refine keeps_upd (by with_reducible assumption)
    | (extract_lets +onlyGivenNames y; clear_value y; revert y; intros)
    | with_reducible refine keeps_ite ?_ ?_
    | with_reducible refine keepsN_ite ?_ ?_
    | with_reducible apply updRing_keeps
    | intro _ _ hs
    | intro _ hs
    | intro hs
    | split
    | with_reducible refine keeps_upd ?_

theorem execDigestSend_keeps (h : Keeps q s) : KeepsN q (execDigestSend a1 s) := by
  unfold execDigestSend
  repeat' first
    | with_reducible assumption
    | with_reducible refine keepsN_next ?_
    | (extract_lets +onlyGivenNames y; with_reducible refine keeps_cut (s := y) ?_ ?_; unfold y; clear y; rotate_left; intro hy; clear_value y; revert y; intros)
    | with_reducible refine keeps_upd (by with_reducible assumption)
    | (extract_lets +onlyGivenNames y; clear_value y; revert y; intros)
    | with_reducible refine keeps_ite ?_ ?_
    | with_reducible refine keepsN_ite ?_ ?_
    | with_reducible apply settle_keeps
    | with_reducible apply toCycle_keeps
    | with_reducible apply nextFree_keeps
    | with_reducible apply emit_keeps
    | intro _ _ hs
    | intro _ hs
    | intro hs
    | split
    | with_reducible refine keeps_upd ?_

theorem pairAlign_keeps (h : Keeps q s) : Keeps q (State.pairAlign s a1) := by
  unfold State.pairAlign
  repeat' first
    | with_reducible assumption
    | (extract_lets +onlyGivenNames y; with_reducible refine keeps_cut (s := y) ?_ ?_; unfold y; clear y; rotate_left; intro hy; clear_value y; revert y; intros)
    | with_reducible refine keeps_upd (by with_reducible assumption)
    | (extract_lets +onlyGivenNames y; clear_value y; revert y; intros)
    | with_reducible refine keeps_ite ?_ ?_
    | with_reducible apply wr_keeps
    | split
    | with_reducible refine keeps_fst (by with_reducible assumption) ?_
    | with_reducible refine keeps_upd ?_

theorem commit_keeps (h : Keeps q s) : Keeps q (State.commit s a1) := by
  unfold State.commit
  repeat' first
    | with_reducible assumption
    | (extract_lets +onlyGivenNames y; with_reducible refine keeps_cut (s := y) ?_ ?_; unfold y; clear y; rotate_left; intro hy; clear_value y; revert y; intros)
    | with_reducible refine keeps_upd (by with_reducible assumption)
    | (extract_lets +onlyGivenNames y; clear_value y; revert y; intros)
    | with_reducible refine keeps_ite ?_ ?_
    | with_reducible apply modeState_keeps
    | with_reducible apply abandonSwitch_keeps
    | with_reducible apply wr_keeps
    | with_reducible apply wake_keeps
    | intro _ _ hs
    | intro _ hs
    | intro hs
    | split
    | with_reducible refine keeps_fst (by with_reducible assumption) ?_
    | with_reducible refine keeps_upd ?_

theorem execDigestMessageRx_keeps (h : Keeps q s) : KeepsN q (execDigestMessageRx a1 s) := by
  unfold execDigestMessageRx
  repeat' first
    | with_reducible assumption
    | with_reducible refine keepsN_next ?_
    | (extract_lets +onlyGivenNames y; with_reducible refine keeps_cut (s := y) ?_ ?_; unfold y; clear y; rotate_left; intro hy; clear_value y; revert y; intros)
    | with_reducible refine keeps_upd (by with_reducible assumption)
    | (extract_lets +onlyGivenNames y; clear_value y; revert y; intros)
    | with_reducible refine keeps_ite ?_ ?_
    | with_reducible refine keepsN_ite ?_ ?_
    | with_reducible apply wr_keeps
    | with_reducible apply pairAlign_keeps
    | with_reducible apply commit_keeps
    | with_reducible apply settleNow_keeps
    | split
    | with_reducible refine keeps_upd ?_

/-! ### PairOps -/

theorem dropHandover_keeps (h : Keeps q s) : Keeps q (State.dropHandover s) := by
  unfold State.dropHandover
  repeat' first
    | with_reducible assumption
    | (extract_lets +onlyGivenNames y; with_reducible refine keeps_cut (s := y) ?_ ?_; unfold y; clear y; rotate_left; intro hy; clear_value y; revert y; intros)
    | with_reducible refine keeps_upd (by with_reducible assumption)
    | (extract_lets +onlyGivenNames y; clear_value y; revert y; intros)
    | with_reducible refine keeps_ite ?_ ?_
    | with_reducible apply wake_keeps
    | with_reducible apply wr_keeps
    | split
    | with_reducible refine keeps_upd ?_

theorem xferFails_keeps (h : Keeps q s) : Keeps q (State.xferFails s) := by
  unfold State.xferFails
  repeat' first
    | with_reducible assumption
    | (extract_lets +onlyGivenNames y; with_reducible refine keeps_cut (s := y) ?_ ?_; unfold y; clear y; rotate_left; intro hy; clear_value y; revert y; intros)
    | with_reducible refine keeps_upd (by with_reducible assumption)
    | (extract_lets +onlyGivenNames y; clear_value y; revert y; intros)
    | with_reducible apply wake_keeps
    | with_reducible apply wr_keeps
    | with_reducible refine keeps_upd ?_

theorem toResync_keeps (h : Keeps q s) : Keeps q (State.toResync s) := by
  unfold State.toResync
  repeat' first
    | with_reducible assumption
    | (extract_lets +onlyGivenNames y; with_reducible refine keeps_cut (s := y) ?_ ?_; unfold y; clear y; rotate_left; intro hy; clear_value y; revert y; intros)
    | with_reducible refine keeps_upd (by with_reducible assumption)
    | (extract_lets +onlyGivenNames y; clear_value y; revert y; intros)
    | with_reducible apply wr_keeps
    | with_reducible apply setRole_keeps
    | with_reducible apply path_keeps
    | with_reducible refine keeps_upd ?_

theorem toSolo_keeps (h : Keeps q s) : Keeps q (State.toSolo s) := by
  unfold State.toSolo
  repeat' first
    | with_reducible assumption
    | (extract_lets +onlyGivenNames y; with_reducible refine keeps_cut (s := y) ?_ ?_; unfold y; clear y; rotate_left; intro hy; clear_value y; revert y; intros)
    | with_reducible refine keeps_upd (by with_reducible assumption)
    | (extract_lets +onlyGivenNames y; clear_value y; revert y; intros)
    | with_reducible refine keeps_ite ?_ ?_
    | with_reducible apply wr_keeps
    | with_reducible apply dropHandover_keeps
    | with_reducible apply ungate_keeps
    | with_reducible apply xferFails_keeps
    | with_reducible apply prepareDone_keeps
    | with_reducible apply setRole_keeps
    | split
    | with_reducible refine keeps_upd ?_

theorem pairAlignTick_keeps (h : Keeps q s) : Keeps q (State.pairAlignTick s) := by
  unfold State.pairAlignTick
  repeat' first
    | with_reducible assumption
    | (extract_lets +onlyGivenNames y; with_reducible refine keeps_cut (s := y) ?_ ?_; unfold y; clear y; rotate_left; intro hy; clear_value y; revert y; intros)
    | (extract_lets +onlyGivenNames y; with_reducible refine keeps_tbid y ?_; revert y; intro _)
    | (with_reducible refine keeps_tb ?_; with_reducible assumption)
    | (with_reducible refine keeps_tb2 (t := s) ?_ ?_ <;> with_reducible assumption)
    | with_reducible refine keeps_upd (by with_reducible assumption)
    | (extract_lets +onlyGivenNames y; clear_value y; revert y; intros)
    | with_reducible refine keeps_ite ?_ ?_
    | with_reducible apply wr_keeps
    | with_reducible apply toResync_keeps
    | split
    | with_reducible refine keeps_fst (by with_reducible assumption) ?_
    | with_reducible refine keeps_upd ?_

theorem countMismatch_keeps (h : Keeps q s) : Keeps q (State.countMismatch s) := by
  unfold State.countMismatch
  repeat' first
    | with_reducible assumption
    | (extract_lets +onlyGivenNames y; with_reducible refine keeps_cut (s := y) ?_ ?_; unfold y; clear y; rotate_left; intro hy; clear_value y; revert y; intros)
    | with_reducible refine keeps_upd (by with_reducible assumption)
    | (extract_lets +onlyGivenNames y; clear_value y; revert y; intros)
    | with_reducible apply wr64_keeps
    | with_reducible apply inc_keeps
    | with_reducible apply wr_keeps
    | intro _ _ hs
    | intro _ hs
    | intro hs
    | split
    | with_reducible refine keeps_fst (by with_reducible assumption) ?_
    | with_reducible refine keeps_upd ?_

theorem pairAlarm_keeps (h : Keeps q s) : Keeps q (State.pairAlarm s) := by
  unfold State.pairAlarm
  repeat' first
    | with_reducible assumption
    | (extract_lets +onlyGivenNames y; with_reducible refine keeps_cut (s := y) ?_ ?_; unfold y; clear y; rotate_left; intro hy; clear_value y; revert y; intros)
    | with_reducible refine keeps_upd (by with_reducible assumption)
    | (extract_lets +onlyGivenNames y; clear_value y; revert y; intros)
    | with_reducible refine keeps_ite ?_ ?_
    | with_reducible apply wr_keeps
    | with_reducible apply stopHere_keeps
    | with_reducible apply toSolo_keeps
    | with_reducible apply inc_keeps
    | with_reducible apply takeActive_keeps
    | split
    | with_reducible refine keeps_upd ?_

theorem mismatch_keeps (h : Keeps q s) : Keeps q (State.mismatch s) := by
  unfold State.mismatch
  repeat' first
    | with_reducible assumption
    | (extract_lets +onlyGivenNames y; with_reducible refine keeps_cut (s := y) ?_ ?_; unfold y; clear y; rotate_left; intro hy; clear_value y; revert y; intros)
    | with_reducible refine keeps_upd (by with_reducible assumption)
    | (extract_lets +onlyGivenNames y; clear_value y; revert y; intros)
    | with_reducible refine keeps_ite ?_ ?_
    | with_reducible apply countMismatch_keeps
    | with_reducible apply stopHere_keeps
    | with_reducible apply xferFails_keeps
    | with_reducible apply pairAlarm_keeps
    | intro _ _ hs
    | intro _ hs
    | intro hs
    | split
    | with_reducible refine keeps_fst (by with_reducible assumption) ?_
    | with_reducible refine keeps_upd ?_

theorem agree_keeps (h : Keeps q s) : Keeps q (State.agree s) := by
  unfold State.agree
  repeat' first
    | with_reducible assumption
    | (extract_lets +onlyGivenNames y; with_reducible refine keeps_cut (s := y) ?_ ?_; unfold y; clear y; rotate_left; intro hy; clear_value y; revert y; intros)
    | with_reducible refine keeps_upd (by with_reducible assumption)
    | (extract_lets +onlyGivenNames y; clear_value y; revert y; intros)
    | with_reducible refine keeps_ite ?_ ?_
    | with_reducible apply inc_keeps
    | split
    | with_reducible refine keeps_upd ?_

theorem takeover_keeps (h : Keeps q s) : Keeps q (State.takeover s) := by
  unfold State.takeover
  repeat' first
    | with_reducible assumption
    | (extract_lets +onlyGivenNames y; with_reducible refine keeps_cut (s := y) ?_ ?_; unfold y; clear y; rotate_left; intro hy; clear_value y; revert y; intros)
    | with_reducible refine keeps_upd (by with_reducible assumption)
    | (extract_lets +onlyGivenNames y; clear_value y; revert y; intros)
    | with_reducible apply wr_keeps
    | with_reducible apply inc_keeps
    | with_reducible apply dropHandover_keeps
    | with_reducible apply takeActive_keeps
    | with_reducible refine keeps_upd ?_

theorem finalWrites_keeps (h : Keeps q s) : Keeps q (State.finalWrites s a1) := by
  unfold State.finalWrites
  repeat' first
    | with_reducible assumption
    | (extract_lets +onlyGivenNames y; with_reducible refine keeps_cut (s := y) ?_ ?_; unfold y; clear y; rotate_left; intro hy; clear_value y; revert y; intros)
    | (extract_lets +onlyGivenNames y; with_reducible refine keeps_tbid y ?_; revert y; intro _)
    | (with_reducible refine keeps_tb ?_; with_reducible assumption)
    | (with_reducible refine keeps_tb2 (t := s) ?_ ?_ <;> with_reducible assumption)
    | with_reducible refine keeps_upd (by with_reducible assumption)
    | (extract_lets +onlyGivenNames y; clear_value y; revert y; intros)
    | with_reducible refine keeps_ite ?_ ?_
    | with_reducible apply setBytes_keeps
    | with_reducible apply setWord_keeps
    | with_reducible apply loseSwitch_keeps
    | with_reducible apply modeFlip_keeps
    | with_reducible apply chainPeriod_keeps
    | with_reducible apply updChain_keeps
    | with_reducible apply updCan_keeps
    | with_reducible refine keeps_foldl ?_ (fun _ _ hs => ?_)
    | intro _ _ hs
    | intro _ hs
    | intro hs
    | split
    | with_reducible refine keeps_upd ?_

theorem joinEntry_keeps (h : Keeps q s) : Keeps q (State.joinEntry s a1) := by
  unfold State.joinEntry
  repeat' first
    | with_reducible assumption
    | (extract_lets +onlyGivenNames y; with_reducible refine keeps_cut (s := y) ?_ ?_; unfold y; clear y; rotate_left; intro hy; clear_value y; revert y; intros)
    | with_reducible refine keeps_upd (by with_reducible assumption)
    | (extract_lets +onlyGivenNames y; clear_value y; revert y; intros)
    | with_reducible apply loadSram_keeps
    | with_reducible apply clearMem_keeps
    | with_reducible apply updTile_keeps
    | with_reducible apply finalWrites_keeps
    | with_reducible apply wr_keeps
    | with_reducible apply wr64_keeps
    | with_reducible apply runMs_keeps
    | with_reducible apply setRole_keeps
    | with_reducible refine keeps_foldl ?_ (fun _ _ hs => ?_)
    | intro _ _ hs
    | intro _ hs
    | intro hs
    | split
    | with_reducible refine keeps_fst (by with_reducible assumption) ?_
    | with_reducible refine keeps_upd ?_

theorem resyncEntry_keeps (h : Keeps q s) : Keeps q (State.resyncEntry s a1) := by
  unfold State.resyncEntry
  repeat' first
    | with_reducible assumption
    | (extract_lets +onlyGivenNames y; with_reducible refine keeps_cut (s := y) ?_ ?_; unfold y; clear y; rotate_left; intro hy; clear_value y; revert y; intros)
    | with_reducible refine keeps_upd (by with_reducible assumption)
    | (extract_lets +onlyGivenNames y; clear_value y; revert y; intros)
    | with_reducible apply wr_keeps
    | with_reducible apply finalWrites_keeps
    | with_reducible refine keeps_upd ?_

theorem partnerEnters_keeps (h : Keeps q s) : Keeps q (State.partnerEnters s a1) := by
  unfold State.partnerEnters
  repeat' first
    | with_reducible assumption
    | (extract_lets +onlyGivenNames y; with_reducible refine keeps_cut (s := y) ?_ ?_; unfold y; clear y; rotate_left; intro hy; clear_value y; revert y; intros)
    | with_reducible refine keeps_upd (by with_reducible assumption)
    | (extract_lets +onlyGivenNames y; clear_value y; revert y; intros)
    | with_reducible refine keeps_ite ?_ ?_
    | with_reducible apply wr_keeps
    | with_reducible apply setRole_keeps
    | split
    | with_reducible refine keeps_upd ?_

theorem abandonProposed_keeps (h : Keeps q s) : Keeps q (State.abandonProposed s) := by
  unfold State.abandonProposed
  repeat' first
    | with_reducible assumption
    | with_reducible refine keeps_ite ?_ ?_
    | with_reducible apply abandonSwitch_keeps
    | split

theorem pairActs_keeps (h : Keeps q s) : Keeps q (State.pairActs s) := by
  unfold State.pairActs
  repeat' first
    | with_reducible assumption
    | (extract_lets +onlyGivenNames y; with_reducible refine keeps_cut (s := y) ?_ ?_; unfold y; clear y; rotate_left; intro hy; clear_value y; revert y; intros)
    | with_reducible refine keeps_upd (by with_reducible assumption)
    | (extract_lets +onlyGivenNames y; clear_value y; revert y; intros)
    | with_reducible refine keeps_ite ?_ ?_
    | with_reducible apply abandonProposed_keeps
    | with_reducible apply dropHandover_keeps
    | with_reducible apply agree_keeps
    | with_reducible apply mismatch_keeps
    | with_reducible apply toResync_keeps
    | with_reducible apply toSolo_keeps
    | split
    | with_reducible refine keeps_fst (by with_reducible assumption) ?_
    | with_reducible refine keeps_upd ?_

theorem pairTick_keeps (h : Keeps q s) : Keeps q (State.pairTick s) := by
  unfold State.pairTick
  repeat' first
    | with_reducible assumption
    | (extract_lets +onlyGivenNames y; with_reducible refine keeps_cut (s := y) ?_ ?_; unfold y; clear y; rotate_left; intro hy; clear_value y; revert y; intros)
    | (extract_lets +onlyGivenNames y; with_reducible refine keeps_tbid y ?_; revert y; intro _)
    | (with_reducible refine keeps_tb ?_; with_reducible assumption)
    | (with_reducible refine keeps_tb2 (t := s) ?_ ?_ <;> with_reducible assumption)
    | with_reducible refine keeps_upd (by with_reducible assumption)
    | (extract_lets +onlyGivenNames y; clear_value y; revert y; intros)
    | with_reducible refine keeps_ite ?_ ?_
    | with_reducible apply pairAlignTick_keeps
    | with_reducible apply takeover_keeps
    | with_reducible apply abandonProposed_keeps
    | with_reducible apply pairActs_keeps
    | with_reducible apply partnerEnters_keeps
    | with_reducible apply joinEntry_keeps
    | with_reducible apply resyncEntry_keeps
    | with_reducible apply wr_keeps
    | split
    | with_reducible refine keeps_fst (by with_reducible assumption) ?_
    | with_reducible refine keeps_upd ?_

theorem execFailoverCheck_keeps (h : Keeps q s) : KeepsN q (execFailoverCheck s) := by
  unfold execFailoverCheck
  repeat' first
    | with_reducible assumption
    | with_reducible refine keepsN_next ?_
    | (extract_lets +onlyGivenNames y; with_reducible refine keeps_cut (s := y) ?_ ?_; unfold y; clear y; rotate_left; intro hy; clear_value y; revert y; intros)
    | with_reducible refine keeps_upd (by with_reducible assumption)
    | (extract_lets +onlyGivenNames y; clear_value y; revert y; intros)
    | with_reducible refine keeps_ite ?_ ?_
    | with_reducible refine keepsN_ite ?_ ?_
    | with_reducible apply upTo_keeps
    | intro _ _ hs
    | intro _ hs
    | intro hs
    | split
    | with_reducible refine keeps_fst (by with_reducible assumption) ?_
    | with_reducible refine keeps_upd ?_

theorem execPartnerLinksLost_keeps (h : Keeps q s) : KeepsN q (execPartnerLinksLost s) := by
  unfold execPartnerLinksLost
  repeat' first
    | with_reducible assumption
    | with_reducible refine keepsN_next ?_
    | (extract_lets +onlyGivenNames y; with_reducible refine keeps_cut (s := y) ?_ ?_; unfold y; clear y; rotate_left; intro hy; clear_value y; revert y; intros)
    | with_reducible refine keeps_upd (by with_reducible assumption)
    | (extract_lets +onlyGivenNames y; clear_value y; revert y; intros)
    | with_reducible refine keeps_ite ?_ ?_
    | with_reducible refine keepsN_ite ?_ ?_
    | with_reducible apply toTick_keeps
    | with_reducible apply toSolo_keeps
    | with_reducible apply stopSoon_keeps
    | with_reducible apply wr_keeps
    | split
    | with_reducible refine keeps_upd ?_

theorem armHandover_keeps (h : Keeps q s) : Keeps q (State.armHandover s a1) := by
  unfold State.armHandover
  repeat' first
    | with_reducible assumption
    | (extract_lets +onlyGivenNames y; with_reducible refine keeps_cut (s := y) ?_ ?_; unfold y; clear y; rotate_left; intro hy; clear_value y; revert y; intros)
    | with_reducible refine keeps_upd (by with_reducible assumption)
    | (extract_lets +onlyGivenNames y; clear_value y; revert y; intros)
    | with_reducible refine keeps_ite ?_ ?_
    | with_reducible apply wr_keeps
    | split
    | with_reducible refine keeps_upd ?_

theorem execPaCmdHandover_keeps (h : Keeps q s) : KeepsN q (execPaCmdHandover s) := by
  unfold execPaCmdHandover
  repeat' first
    | with_reducible assumption
    | with_reducible refine keepsN_next ?_
    | with_reducible apply armHandover_keeps

theorem execHandoverTakesEffect_keeps (h : Keeps q s) : KeepsN q (execHandoverTakesEffect s) := by
  unfold execHandoverTakesEffect
  repeat' first
    | with_reducible assumption
    | with_reducible refine keepsN_next ?_
    | (extract_lets +onlyGivenNames y; with_reducible refine keeps_cut (s := y) ?_ ?_; unfold y; clear y; rotate_left; intro hy; clear_value y; revert y; intros)
    | with_reducible refine keeps_upd (by with_reducible assumption)
    | (extract_lets +onlyGivenNames y; clear_value y; revert y; intros)
    | with_reducible refine keeps_ite ?_ ?_
    | with_reducible refine keepsN_ite ?_ ?_
    | with_reducible apply toTick_keeps
    | with_reducible apply wake_keeps
    | with_reducible apply inc_keeps
    | with_reducible apply wr_keeps
    | with_reducible apply setRole_keeps
    | with_reducible apply takeActive_keeps
    | split
    | with_reducible refine keeps_upd ?_

theorem execPairRevert_keeps (h : Keeps q s) : KeepsN q (execPairRevert s) := by
  unfold execPairRevert
  repeat' first
    | with_reducible assumption
    | with_reducible refine keepsN_next ?_
    | with_reducible refine keeps_ite ?_ ?_
    | with_reducible refine keepsN_ite ?_ ?_
    | with_reducible apply path_keeps
    | split

theorem join_keeps (h : Keeps q s) : Keeps q (State.join s a1) := by
  unfold State.join
  repeat' first
    | with_reducible assumption
    | (extract_lets +onlyGivenNames y; with_reducible refine keeps_cut (s := y) ?_ ?_; unfold y; clear y; rotate_left; intro hy; clear_value y; revert y; intros)
    | with_reducible refine keeps_upd (by with_reducible assumption)
    | (extract_lets +onlyGivenNames y; clear_value y; revert y; intros)
    | with_reducible refine keeps_ite ?_ ?_
    | with_reducible apply wr_keeps
    | with_reducible apply wake_keeps
    | with_reducible apply path_keeps
    | with_reducible apply loadSram_keeps
    | with_reducible apply loadImage_keeps
    | split
    | with_reducible refine keeps_fst (by with_reducible assumption) ?_
    | with_reducible refine keeps_upd ?_

theorem joinAsk_keeps (h : Keeps q s) : Keeps q (State.joinAsk s) := by
  unfold State.joinAsk
  repeat' first
    | with_reducible assumption
    | (extract_lets +onlyGivenNames y; with_reducible refine keeps_cut (s := y) ?_ ?_; unfold y; clear y; rotate_left; intro hy; clear_value y; revert y; intros)
    | with_reducible refine keeps_upd (by with_reducible assumption)
    | (extract_lets +onlyGivenNames y; clear_value y; revert y; intros)
    | with_reducible refine keeps_ite ?_ ?_
    | with_reducible apply wr_keeps
    | with_reducible apply path_keeps
    | split
    | with_reducible refine keeps_upd ?_

theorem joinAnswer_keeps (h : Keeps q s) : Keeps q (State.joinAnswer s a1) := by
  unfold State.joinAnswer
  repeat' first
    | with_reducible assumption
    | (extract_lets +onlyGivenNames y; with_reducible refine keeps_cut (s := y) ?_ ?_; unfold y; clear y; rotate_left; intro hy; clear_value y; revert y; intros)
    | with_reducible refine keeps_upd (by with_reducible assumption)
    | (extract_lets +onlyGivenNames y; clear_value y; revert y; intros)
    | with_reducible refine keeps_ite ?_ ?_
    | with_reducible apply join_keeps
    | split
    | with_reducible refine keeps_upd ?_

theorem execPaCmdJoin_keeps (h : Keeps q s) : KeepsN q (execPaCmdJoin a1 s) := by
  unfold execPaCmdJoin
  repeat' first
    | with_reducible assumption
    | with_reducible refine keepsN_next ?_
    | with_reducible refine keeps_ite ?_ ?_
    | with_reducible refine keepsN_ite ?_ ?_
    | with_reducible apply join_keeps
    | split

theorem execAutojoin_keeps (h : Keeps q s) : KeepsN q (execAutojoin a1 s) := by
  unfold execAutojoin
  repeat' first
    | with_reducible assumption
    | with_reducible refine keepsN_next ?_
    | with_reducible refine keeps_ite ?_ ?_
    | with_reducible refine keepsN_ite ?_ ?_
    | with_reducible apply join_keeps
    | intro _ _ hs
    | intro _ hs
    | intro hs
    | split

theorem leave_keeps (h : Keeps q s) : Keeps q (State.leave s) := by
  unfold State.leave
  repeat' first
    | with_reducible assumption
    | with_reducible refine keeps_ite ?_ ?_
    | with_reducible apply stopHere_keeps
    | split

theorem execPaCmdLeave_keeps (h : Keeps q s) : KeepsN q (execPaCmdLeave s) := by
  unfold execPaCmdLeave
  repeat' first
    | with_reducible assumption
    | with_reducible refine keepsN_next ?_
    | with_reducible apply leave_keeps

theorem pairCancel_keeps (h : Keeps q s) : Keeps q (State.pairCancel s) := by
  unfold State.pairCancel
  repeat' first
    | with_reducible assumption
    | (extract_lets +onlyGivenNames y; with_reducible refine keeps_cut (s := y) ?_ ?_; unfold y; clear y; rotate_left; intro hy; clear_value y; revert y; intros)
    | with_reducible refine keeps_upd (by with_reducible assumption)
    | (extract_lets +onlyGivenNames y; clear_value y; revert y; intros)
    | with_reducible refine keeps_ite ?_ ?_
    | with_reducible apply wake_keeps
    | with_reducible apply wr_keeps
    | split
    | with_reducible refine keeps_upd ?_

theorem execPaCmdCancel_keeps (h : Keeps q s) : KeepsN q (execPaCmdCancel s) := by
  unfold execPaCmdCancel
  repeat' first
    | with_reducible assumption
    | with_reducible refine keepsN_next ?_
    | with_reducible apply pairCancel_keeps

theorem execStandbyPromotion_keeps (h : Keeps q s) : KeepsN q (execStandbyPromotion s) := by
  unfold execStandbyPromotion
  repeat' first
    | with_reducible assumption
    | with_reducible refine keepsN_next ?_
    | with_reducible refine keeps_ite ?_ ?_
    | with_reducible refine keepsN_ite ?_ ?_
    | with_reducible apply wake_keeps
    | with_reducible apply setRole_keeps
    | with_reducible apply toTick_keeps
    | split

theorem execStateTransferRound_keeps (h : Keeps q s) : KeepsN q (execStateTransferRound a1 s) := by
  unfold execStateTransferRound
  repeat' first
    | with_reducible assumption
    | with_reducible refine keepsN_next ?_
    | (extract_lets +onlyGivenNames y; with_reducible refine keeps_cut (s := y) ?_ ?_; unfold y; clear y; rotate_left; intro hy; clear_value y; revert y; intros)
    | with_reducible refine keeps_upd (by with_reducible assumption)
    | (extract_lets +onlyGivenNames y; clear_value y; revert y; intros)
    | with_reducible refine keeps_ite ?_ ?_
    | with_reducible refine keepsN_ite ?_ ?_
    | with_reducible apply setBytes_keeps
    | with_reducible apply wr_keeps
    | with_reducible apply inc_keeps
    | with_reducible apply settleNow_keeps
    | with_reducible apply path_keeps
    | with_reducible refine keeps_foldl ?_ (fun _ _ hs => ?_)
    | intro _ _ hs
    | intro _ hs
    | intro hs
    | split
    | with_reducible refine keeps_upd ?_

theorem execStateTransferFinal_keeps (h : Keeps q s) : KeepsN q (execStateTransferFinal a1 s) := by
  unfold execStateTransferFinal
  repeat' first
    | with_reducible assumption
    | with_reducible refine keepsN_next ?_
    | (extract_lets +onlyGivenNames y; with_reducible refine keeps_cut (s := y) ?_ ?_; unfold y; clear y; rotate_left; intro hy; clear_value y; revert y; intros)
    | with_reducible refine keeps_upd (by with_reducible assumption)
    | (extract_lets +onlyGivenNames y; clear_value y; revert y; intros)
    | with_reducible refine keeps_ite ?_ ?_
    | with_reducible refine keepsN_ite ?_ ?_
    | with_reducible apply wr_keeps
    | with_reducible apply settleNow_keeps
    | with_reducible apply path_keeps
    | intro _ _ hs
    | intro _ hs
    | intro hs
    | split
    | with_reducible refine keeps_upd ?_

theorem execStateTransferTimeout_keeps (h : Keeps q s) : KeepsN q (execStateTransferTimeout s) := by
  unfold execStateTransferTimeout
  repeat' first
    | with_reducible assumption
    | with_reducible refine keepsN_next ?_
    | (extract_lets +onlyGivenNames y; with_reducible refine keeps_cut (s := y) ?_ ?_; unfold y; clear y; rotate_left; intro hy; clear_value y; revert y; intros)
    | with_reducible refine keeps_upd (by with_reducible assumption)
    | (extract_lets +onlyGivenNames y; clear_value y; revert y; intros)
    | with_reducible refine keeps_ite ?_ ?_
    | with_reducible refine keepsN_ite ?_ ?_
    | with_reducible apply leave_keeps
    | with_reducible apply xferFails_keeps
    | split
    | with_reducible refine keeps_fst (by with_reducible assumption) ?_
    | with_reducible refine keeps_upd ?_

theorem testActs_keeps (h : Keeps q s) : Keeps q (State.testActs s a1 a2) := by
  unfold State.testActs
  repeat' first
    | with_reducible assumption
    | (extract_lets +onlyGivenNames y; with_reducible refine keeps_cut (s := y) ?_ ?_; unfold y; clear y; rotate_left; intro hy; clear_value y; revert y; intros)
    | with_reducible refine keeps_upd (by with_reducible assumption)
    | (extract_lets +onlyGivenNames y; clear_value y; revert y; intros)
    | with_reducible refine keeps_ite ?_ ?_
    | with_reducible apply toSolo_keeps
    | with_reducible apply armHandover_keeps
    | with_reducible apply wr_keeps
    | with_reducible apply toResync_keeps
    | with_reducible apply stopSoon_keeps
    | split
    | with_reducible refine keeps_fst (by with_reducible assumption) ?_
    | with_reducible refine keeps_upd ?_

theorem execPairSelftestComplete_keeps (h : Keeps q s) : KeepsN q (execPairSelftestComplete a1 s) := by
  unfold execPairSelftestComplete
  repeat' first
    | with_reducible assumption
    | with_reducible refine keepsN_next ?_
    | (extract_lets +onlyGivenNames y; with_reducible refine keeps_cut (s := y) ?_ ?_; unfold y; clear y; rotate_left; intro hy; clear_value y; revert y; intros)
    | with_reducible refine keeps_upd (by with_reducible assumption)
    | (extract_lets +onlyGivenNames y; clear_value y; revert y; intros)
    | with_reducible refine keeps_ite ?_ ?_
    | with_reducible refine keepsN_ite ?_ ?_
    | with_reducible apply testActs_keeps
    | with_reducible apply toTick_keeps
    | split
    | with_reducible refine keeps_fst (by with_reducible assumption) ?_
    | with_reducible refine keeps_upd ?_

/-! ### LockGroups -/

theorem latchChan_keeps (h : Keeps q s) : Keeps q (State.latchChan s a1 a2) := by
  unfold State.latchChan
  repeat' first
    | with_reducible assumption
    | (extract_lets +onlyGivenNames y; with_reducible refine keeps_cut (s := y) ?_ ?_; unfold y; clear y; rotate_left; intro hy; clear_value y; revert y; intros)
    | with_reducible refine keeps_upd (by with_reducible assumption)
    | (extract_lets +onlyGivenNames y; clear_value y; revert y; intros)
    | with_reducible refine keeps_ite ?_ ?_
    | with_reducible apply updChan_keeps
    | intro _ _ hs
    | intro _ hs
    | intro hs
    | split
    | with_reducible refine keeps_upd ?_

theorem latchDos_keeps (h : Keeps q s) : Keeps q (State.latchDos s a1 a2) := by
  unfold State.latchDos
  repeat' first
    | with_reducible assumption
    | (extract_lets +onlyGivenNames y; with_reducible refine keeps_cut (s := y) ?_ ?_; unfold y; clear y; rotate_left; intro hy; clear_value y; revert y; intros)
    | with_reducible refine keeps_upd (by with_reducible assumption)
    | (extract_lets +onlyGivenNames y; clear_value y; revert y; intros)
    | with_reducible refine keeps_ite ?_ ?_
    | with_reducible apply updDio_keeps
    | intro _ _ hs
    | intro _ hs
    | intro hs
    | split
    | with_reducible refine keeps_fst (by with_reducible assumption) ?_
    | with_reducible refine keeps_upd ?_

theorem latchTick_keeps (h : Keeps q s) : Keeps q (State.latchTick s) := by
  unfold State.latchTick
  repeat' first
    | with_reducible assumption
    | (extract_lets +onlyGivenNames y; with_reducible refine keeps_cut (s := y) ?_ ?_; unfold y; clear y; rotate_left; intro hy; clear_value y; revert y; intros)
    | with_reducible refine keeps_upd (by with_reducible assumption)
    | (extract_lets +onlyGivenNames y; clear_value y; revert y; intros)
    | with_reducible refine keeps_ite ?_ ?_
    | with_reducible apply updChan_keeps
    | with_reducible apply latchChan_keeps
    | with_reducible apply updDio_keeps
    | with_reducible apply latchDos_keeps
    | with_reducible refine keeps_foldl ?_ (fun _ _ hs => ?_)
    | intro _ _ hs
    | intro _ hs
    | intro hs
    | split
    | with_reducible refine keeps_fst (by with_reducible assumption) ?_
    | with_reducible refine keeps_upd ?_

theorem capChan_keeps (h : Keeps q s) : Keeps q (State.capChan s a1 a2) := by
  unfold State.capChan
  repeat' first
    | with_reducible assumption
    | (extract_lets +onlyGivenNames y; with_reducible refine keeps_cut (s := y) ?_ ?_; unfold y; clear y; rotate_left; intro hy; clear_value y; revert y; intros)
    | with_reducible refine keeps_upd (by with_reducible assumption)
    | (extract_lets +onlyGivenNames y; clear_value y; revert y; intros)
    | with_reducible refine keeps_ite ?_ ?_
    | with_reducible apply nextFree_keeps
    | with_reducible apply keepFlags_keeps
    | with_reducible apply updChan_keeps
    | intro _ _ hs
    | intro _ hs
    | intro hs
    | split
    | with_reducible refine keeps_fst (by with_reducible assumption) ?_
    | with_reducible refine keeps_upd ?_

theorem memberActs_keeps (h : Keeps q s) : Keeps q (State.memberActs s a1 a2).1 := by
  unfold State.memberActs
  repeat' first
    | with_reducible assumption
    | (extract_lets +onlyGivenNames y; with_reducible refine keeps_cut (s := y) ?_ ?_; unfold y; clear y; rotate_left; intro hy; clear_value y; revert y; intros)
    | with_reducible refine keeps_upd (by with_reducible assumption)
    | (extract_lets +onlyGivenNames y; clear_value y; revert y; intros)
    | with_reducible refine keeps_ite ?_ ?_
    | with_reducible apply capChan_keeps
    | with_reducible apply latchChan_keeps
    | with_reducible apply canFire_keeps
    | with_reducible apply strobe_keeps
    | with_reducible apply ppsPulse_keeps
    | intro _ _ hs
    | intro _ hs
    | intro hs
    | split
    | with_reducible refine keeps_fst (by with_reducible assumption) ?_
    | with_reducible refine keeps_upd ?_

theorem fire_keeps (h : Keeps q s) : Keeps q (State.fire s a1 a2) := by
  unfold State.fire
  repeat' first
    | with_reducible assumption
    | (extract_lets +onlyGivenNames y; with_reducible refine keeps_cut (s := y) ?_ ?_; unfold y; clear y; rotate_left; intro hy; clear_value y; revert y; intros)
    | with_reducible refine keeps_upd (by with_reducible assumption)
    | (extract_lets +onlyGivenNames y; clear_value y; revert y; intros)
    | with_reducible refine keeps_ite ?_ ?_
    | with_reducible apply memberActs_keeps
    | with_reducible apply wr_keeps
    | with_reducible apply diCapture_keeps
    | with_reducible apply latchDos_keeps
    | with_reducible apply driveAll_keeps
    | with_reducible refine keeps_foldl ?_ (fun _ _ hs => ?_)
    | intro _ _ hs
    | intro _ hs
    | intro hs
    | split
    | with_reducible refine keeps_fst (by with_reducible assumption) ?_
    | with_reducible refine keeps_upd ?_

theorem fireArmed_keeps (h : Keeps q s) : Keeps q (State.fireArmed s a1 a2) := by
  unfold State.fireArmed
  repeat' first
    | with_reducible assumption
    | (extract_lets +onlyGivenNames y; with_reducible refine keeps_cut (s := y) ?_ ?_; unfold y; clear y; rotate_left; intro hy; clear_value y; revert y; intros)
    | (extract_lets +onlyGivenNames y; with_reducible refine keeps_tbid y ?_; revert y; intro _)
    | (with_reducible refine keeps_tb ?_; with_reducible assumption)
    | (with_reducible refine keeps_tb2 (t := s) ?_ ?_ <;> with_reducible assumption)
    | with_reducible refine keeps_upd (by with_reducible assumption)
    | (extract_lets +onlyGivenNames y; clear_value y; revert y; intros)
    | with_reducible apply fire_keeps
    | with_reducible refine keeps_upd ?_

theorem firePeriodic_keeps (h : Keeps q s) : Keeps q (State.firePeriodic s a1 a2) := by
  unfold State.firePeriodic
  repeat' first
    | with_reducible assumption
    | (extract_lets +onlyGivenNames y; with_reducible refine keeps_cut (s := y) ?_ ?_; unfold y; clear y; rotate_left; intro hy; clear_value y; revert y; intros)
    | (extract_lets +onlyGivenNames y; with_reducible refine keeps_tbid y ?_; revert y; intro _)
    | (with_reducible refine keeps_tb ?_; with_reducible assumption)
    | (with_reducible refine keeps_tb2 (t := s) ?_ ?_ <;> with_reducible assumption)
    | with_reducible refine keeps_upd (by with_reducible assumption)
    | (extract_lets +onlyGivenNames y; clear_value y; revert y; intros)
    | with_reducible apply fire_keeps
    | with_reducible refine keeps_upd ?_

theorem execLgFire_keeps (h : Keeps q s) : KeepsN q (execLgFire a1 a2 s) := by
  unfold execLgFire
  repeat' first
    | with_reducible assumption
    | with_reducible refine keepsN_next ?_
    | (extract_lets +onlyGivenNames y; with_reducible refine keeps_cut (s := y) ?_ ?_; unfold y; clear y; rotate_left; intro hy; clear_value y; revert y; intros)
    | (extract_lets +onlyGivenNames y; with_reducible refine keeps_tbid y ?_; revert y; intro _)
    | (with_reducible refine keeps_tb ?_; with_reducible assumption)
    | (with_reducible refine keeps_tb2 (t := s) ?_ ?_ <;> with_reducible assumption)
    | with_reducible refine keeps_upd (by with_reducible assumption)
    | (extract_lets +onlyGivenNames y; clear_value y; revert y; intros)
    | with_reducible refine keeps_ite ?_ ?_
    | with_reducible refine keepsN_ite ?_ ?_
    | with_reducible apply firePeriodic_keeps
    | with_reducible apply toFrc_keeps
    | with_reducible apply upTo_keeps
    | with_reducible apply fireArmed_keeps
    | with_reducible apply fire_keeps
    | intro _ _ hs
    | intro _ hs
    | intro hs
    | split
    | with_reducible refine keeps_fst (by with_reducible assumption) ?_
    | with_reducible refine keeps_upd ?_

/-! ### FrameTick -/

theorem offsetRange_keeps (h : Keeps q s) : Keeps q (State.offsetRange s) := by
  unfold State.offsetRange
  repeat' first
    | with_reducible assumption
    | with_reducible refine keeps_ite ?_ ?_
    | with_reducible apply wr_keeps
    | with_reducible refine keeps_foldl ?_ (fun _ _ hs => ?_)
    | intro _ _ hs
    | intro _ hs
    | intro hs
    | split

theorem alignStatus_keeps (h : Keeps q s) : Keeps q (State.alignStatus s a1) := by
  unfold State.alignStatus
  repeat' first
    | with_reducible assumption
    | (extract_lets +onlyGivenNames y; with_reducible refine keeps_cut (s := y) ?_ ?_; unfold y; clear y; rotate_left; intro hy; clear_value y; revert y; intros)
    | (extract_lets +onlyGivenNames y; clear_value y; revert y; intros)
    | with_reducible refine keeps_ite ?_ ?_
    | with_reducible apply wr_keeps
    | split

theorem flip_keeps (h : Keeps q s) : Keeps q (State.flip s a1) := by
  unfold State.flip
  repeat' first
    | with_reducible assumption
    | (extract_lets +onlyGivenNames y; with_reducible refine keeps_cut (s := y) ?_ ?_; unfold y; clear y; rotate_left; intro hy; clear_value y; revert y; intros)
    | (extract_lets +onlyGivenNames y; clear_value y; revert y; intros)
    | with_reducible refine keeps_ite ?_ ?_
    | with_reducible apply finishSwitch_keeps
    | with_reducible apply chainPeriod_keeps
    | split

theorem writeDelta_keeps (h : Keeps q s) : Keeps q (State.writeDelta s a1) := by
  unfold State.writeDelta
  repeat' first
    | with_reducible assumption
    | with_reducible apply setBytes_keeps
    | with_reducible refine keeps_foldl ?_ (fun _ _ hs => ?_)
    | intro _ _ hs
    | intro _ hs
    | intro hs

theorem modeArm_keeps (h : Keeps q s) : Keeps q (State.modeArm s a1) := by
  unfold State.modeArm
  repeat' first
    | with_reducible assumption
    | (extract_lets +onlyGivenNames y; with_reducible refine keeps_cut (s := y) ?_ ?_; unfold y; clear y; rotate_left; intro hy; clear_value y; revert y; intros)
    | with_reducible refine keeps_upd (by with_reducible assumption)
    | (extract_lets +onlyGivenNames y; clear_value y; revert y; intros)
    | with_reducible refine keeps_ite ?_ ?_
    | with_reducible apply wr_keeps
    | with_reducible apply modeState_keeps
    | with_reducible apply driveAll_keeps
    | with_reducible apply flip_keeps
    | with_reducible apply writeDelta_keeps
    | split
    | with_reducible refine keeps_fst (by with_reducible assumption) ?_
    | with_reducible refine keeps_upd ?_

theorem execTtModeArm_keeps (h : Keeps q s) : KeepsN q (execTtModeArm s) := by
  unfold execTtModeArm
  repeat' first
    | with_reducible assumption
    | with_reducible refine keepsN_next ?_
    | with_reducible apply modeArm_keeps

theorem departs_keeps (h : Keeps q s) : Keeps q (State.departs s a1 a2) := by
  unfold State.departs
  repeat' first
    | with_reducible assumption
    | (extract_lets +onlyGivenNames y; with_reducible refine keeps_cut (s := y) ?_ ?_; unfold y; clear y; rotate_left; intro hy; clear_value y; revert y; intros)
    | with_reducible refine keeps_upd (by with_reducible assumption)
    | (extract_lets +onlyGivenNames y; clear_value y; revert y; intros)
    | with_reducible refine keeps_ite ?_ ?_
    | with_reducible apply flip_keeps
    | with_reducible apply abandonArmed_keeps
    | with_reducible apply enterHalt_keeps
    | with_reducible apply inc_keeps
    | with_reducible apply wr_keeps
    | with_reducible apply enterStop_keeps
    | split
    | with_reducible refine keeps_fst (by with_reducible assumption) ?_
    | with_reducible refine keeps_upd ?_

theorem openWindows_keeps (h : Keeps q s) : Keeps q (State.openWindows s) := by
  unfold State.openWindows
  repeat' first
    | with_reducible assumption
    | (extract_lets +onlyGivenNames y; with_reducible refine keeps_cut (s := y) ?_ ?_; unfold y; clear y; rotate_left; intro hy; clear_value y; revert y; intros)
    | with_reducible refine keeps_upd (by with_reducible assumption)
    | (extract_lets +onlyGivenNames y; clear_value y; revert y; intros)
    | with_reducible refine keeps_ite ?_ ?_
    | intro _ _ hs
    | intro _ hs
    | intro hs
    | split
    | with_reducible refine keeps_upd ?_

theorem runEnter_keeps (h : Keeps q s) : Keeps q (State.runEnter s a1 a2) := by
  unfold State.runEnter
  repeat' first
    | with_reducible assumption
    | (extract_lets +onlyGivenNames y; with_reducible refine keeps_cut (s := y) ?_ ?_; unfold y; clear y; rotate_left; intro hy; clear_value y; revert y; intros)
    | (extract_lets +onlyGivenNames y; with_reducible refine keeps_tbid y ?_; revert y; intro _)
    | (with_reducible refine keeps_tb ?_; with_reducible assumption)
    | (with_reducible refine keeps_tb2 (t := s) ?_ ?_ <;> with_reducible assumption)
    | with_reducible refine keeps_upd (by with_reducible assumption)
    | (extract_lets +onlyGivenNames y; clear_value y; revert y; intros)
    | with_reducible refine keeps_ite ?_ ?_
    | with_reducible apply wr64_keeps
    | with_reducible apply wr_keeps
    | with_reducible apply runMs_keeps
    | with_reducible apply wake_keeps
    | with_reducible apply setRole_keeps
    | split
    | with_reducible refine keeps_upd ?_

theorem frameTickAt_keeps (h : Keeps q s) : Keeps q (State.frameTickAt s a1 a2) := by
  unfold State.frameTickAt
  repeat' first
    | with_reducible assumption
    | (extract_lets +onlyGivenNames y; with_reducible refine keeps_cut (s := y) ?_ ?_; unfold y; clear y; rotate_left; intro hy; clear_value y; revert y; intros)
    | (extract_lets +onlyGivenNames y; with_reducible refine keeps_tbid y ?_; revert y; intro _)
    | (with_reducible refine keeps_tb ?_; with_reducible assumption)
    | (with_reducible refine keeps_tb2 (t := s) ?_ ?_ <;> with_reducible assumption)
    | with_reducible refine keeps_upd (by with_reducible assumption)
    | (extract_lets +onlyGivenNames y; clear_value y; revert y; intros)
    | with_reducible refine keeps_ite ?_ ?_
    | with_reducible apply toFrc_keeps
    | with_reducible apply settle_keeps
    | with_reducible apply deltaRest_keeps
    | with_reducible apply alignStatus_keeps
    | with_reducible apply wr_keeps
    | with_reducible apply pairTick_keeps
    | with_reducible apply offsetRange_keeps
    | with_reducible apply commitBefore_keeps
    | with_reducible apply runEnter_keeps
    | with_reducible apply departs_keeps
    | with_reducible apply flip_keeps
    | with_reducible apply svShadowTick_keeps
    | with_reducible apply relocFlip_keeps
    | with_reducible apply newFrame_keeps
    | with_reducible apply latchTick_keeps
    | with_reducible apply freezeChains_keeps
    | with_reducible apply freezeDio_keeps
    | with_reducible apply freezeFields_keeps
    | with_reducible apply openWindows_keeps
    | with_reducible apply driveAll_keeps
    | with_reducible apply ingestStrobe_keeps
    | with_reducible apply canTick_keeps
    | intro _ _ hs
    | intro _ hs
    | intro hs
    | split
    | with_reducible refine keeps_fst (by with_reducible assumption) ?_
    | with_reducible refine keeps_upd ?_

theorem powerStop_keeps (h : Keeps q s) : Keeps q (State.powerStop s a1) := by
  unfold State.powerStop
  repeat' first
    | with_reducible assumption
    | (extract_lets +onlyGivenNames y; with_reducible refine keeps_cut (s := y) ?_ ?_; unfold y; clear y; rotate_left; intro hy; clear_value y; revert y; intros)
    | with_reducible refine keeps_upd (by with_reducible assumption)
    | (extract_lets +onlyGivenNames y; clear_value y; revert y; intros)
    | with_reducible refine keeps_ite ?_ ?_
    | with_reducible apply enterHalt_keeps
    | with_reducible apply flushJournal_keeps
    | split
    | with_reducible refine keeps_upd ?_

theorem frameTick_keeps (h : Keeps q s) : Keeps q (State.frameTick s) := by
  unfold State.frameTick
  repeat' first
    | with_reducible assumption
    | (extract_lets +onlyGivenNames y; with_reducible refine keeps_cut (s := y) ?_ ?_; unfold y; clear y; rotate_left; intro hy; clear_value y; revert y; intros)
    | (extract_lets +onlyGivenNames y; clear_value y; revert y; intros)
    | with_reducible refine keeps_ite ?_ ?_
    | with_reducible apply frameTickAt_keeps
    | with_reducible apply powerStop_keeps
    | split

theorem execFrameTick_keeps (h : Keeps q s) : KeepsN q (execFrameTick s) := by
  unfold execFrameTick
  repeat' first
    | with_reducible assumption
    | with_reducible refine keepsN_next ?_
    | (extract_lets +onlyGivenNames y; with_reducible refine keeps_cut (s := y) ?_ ?_; unfold y; clear y; rotate_left; intro hy; clear_value y; revert y; intros)
    | with_reducible refine keeps_upd (by with_reducible assumption)
    | (extract_lets +onlyGivenNames y; clear_value y; revert y; intros)
    | with_reducible apply frameTick_keeps
    | split
    | with_reducible refine keeps_fst (by with_reducible assumption) ?_
    | with_reducible refine keeps_upd ?_

/-! ### RunState -/

theorem startRefuse_keeps (h : Keeps q s) : Keeps q (State.startRefuse s a1 a2) := by
  unfold State.startRefuse
  repeat' first
    | with_reducible assumption
    | (extract_lets +onlyGivenNames y; with_reducible refine keeps_cut (s := y) ?_ ?_; unfold y; clear y; rotate_left; intro hy; clear_value y; revert y; intros)
    | with_reducible refine keeps_upd (by with_reducible assumption)
    | (extract_lets +onlyGivenNames y; clear_value y; revert y; intros)
    | with_reducible apply wake_keeps
    | with_reducible apply wr_keeps
    | with_reducible refine keeps_upd ?_

theorem start_keeps (h : Keeps q s) : Keeps q (State.start s a1) := by
  unfold State.start
  repeat' first
    | with_reducible assumption
    | (extract_lets +onlyGivenNames y; with_reducible refine keeps_cut (s := y) ?_ ?_; unfold y; clear y; rotate_left; intro hy; clear_value y; revert y; intros)
    | with_reducible refine keeps_upd (by with_reducible assumption)
    | (extract_lets +onlyGivenNames y; clear_value y; revert y; intros)
    | with_reducible refine keeps_ite ?_ ?_
    | with_reducible apply wr_keeps
    | with_reducible apply startRefuse_keeps
    | split
    | with_reducible refine keeps_upd ?_

theorem execTtRunStart_keeps (h : Keeps q s) : KeepsN q (execTtRunStart a1 s) := by
  unfold execTtRunStart
  repeat' first
    | with_reducible assumption
    | with_reducible refine keepsN_next ?_
    | (extract_lets +onlyGivenNames y; with_reducible refine keeps_cut (s := y) ?_ ?_; unfold y; clear y; rotate_left; intro hy; clear_value y; revert y; intros)
    | (extract_lets +onlyGivenNames y; clear_value y; revert y; intros)
    | with_reducible refine keeps_ite ?_ ?_
    | with_reducible refine keepsN_ite ?_ ?_
    | with_reducible apply wr_keeps
    | with_reducible apply start_keeps
    | split

theorem execRunEntry_keeps (h : Keeps q s) : KeepsN q (execRunEntry s) := by
  unfold execRunEntry
  repeat' first
    | with_reducible assumption
    | with_reducible refine keepsN_next ?_
    | (extract_lets +onlyGivenNames y; with_reducible refine keeps_cut (s := y) ?_ ?_; unfold y; clear y; rotate_left; intro hy; clear_value y; revert y; intros)
    | with_reducible refine keeps_upd (by with_reducible assumption)
    | (extract_lets +onlyGivenNames y; clear_value y; revert y; intros)
    | with_reducible refine keeps_ite ?_ ?_
    | with_reducible refine keepsN_ite ?_ ?_
    | with_reducible apply admDone_keeps
    | with_reducible apply admRun_keeps
    | with_reducible apply startRefuse_keeps
    | with_reducible apply path_keeps
    | with_reducible apply wake_keeps
    | with_reducible apply frameTickAt_keeps
    | with_reducible apply loadStart_keeps
    | split
    | with_reducible refine keeps_fst (by with_reducible assumption) ?_
    | with_reducible refine keeps_upd ?_

theorem stopOrder_keeps (h : Keeps q s) : Keeps q (State.stopOrder s) := by
  unfold State.stopOrder
  repeat' first
    | with_reducible assumption
    | (extract_lets +onlyGivenNames y; with_reducible refine keeps_cut (s := y) ?_ ?_; unfold y; clear y; rotate_left; intro hy; clear_value y; revert y; intros)
    | with_reducible refine keeps_upd (by with_reducible assumption)
    | (extract_lets +onlyGivenNames y; clear_value y; revert y; intros)
    | with_reducible refine keeps_ite ?_ ?_
    | split
    | with_reducible refine keeps_upd ?_

theorem execTtRunStop_keeps (h : Keeps q s) : KeepsN q (execTtRunStop s) := by
  unfold execTtRunStop
  repeat' first
    | with_reducible assumption
    | with_reducible refine keepsN_next ?_
    | with_reducible apply stopOrder_keeps

theorem execStopTakesEffect_keeps (h : Keeps q s) : KeepsN q (execStopTakesEffect s) := by
  unfold execStopTakesEffect
  repeat' first
    | with_reducible assumption
    | with_reducible refine keepsN_next ?_
    | with_reducible refine keeps_ite ?_ ?_
    | with_reducible refine keepsN_ite ?_ ?_
    | with_reducible apply frameTick_keeps
    | split

theorem retClear_keeps (h : Keeps q s) : Keeps q (State.retClear s) := by
  unfold State.retClear
  repeat' first
    | with_reducible assumption
    | (extract_lets +onlyGivenNames y; with_reducible refine keeps_cut (s := y) ?_ ?_; unfold y; clear y; rotate_left; intro hy; clear_value y; revert y; intros)
    | with_reducible refine keeps_upd (by with_reducible assumption)
    | (extract_lets +onlyGivenNames y; clear_value y; revert y; intros)
    | with_reducible apply clearMem_keeps
    | with_reducible apply retBusy_keeps
    | with_reducible refine keeps_upd ?_

theorem execTtRetClear_keeps (h : Keeps q s) : KeepsN q (execTtRetClear s) := by
  unfold execTtRetClear
  repeat' first
    | with_reducible assumption
    | with_reducible refine keepsN_next ?_
    | with_reducible refine keeps_ite ?_ ?_
    | with_reducible refine keepsN_ite ?_ ?_
    | with_reducible apply retClear_keeps
    | split

end Sys2Proof.Laws
end

