-- ==== Sys2Proof/Laws/KeepsUnits.lean ====
section
/-! SUPPORT. Every operation and meaning of the indicator, metrology, supervision, health, trust, resets, parts, start-up and updates leaves the queue of waiting commands alone and keeps a sound state sound. -/

set_option Elab.async false

namespace Sys2Proof.Laws

open Sys2Proof Sys2Proof.Machine Sys2Proof.Safety

variable {q : Prop × List Instr × Option (List (Nat × Nat))} {s : State}

/-! ### Indicator -/

theorem dgShow_keeps (h : Keeps q s) : Keeps q (State.dgShow s) := by
  unfold State.dgShow
  repeat' first
    | with_reducible assumption
    | (extract_lets +onlyGivenNames y; with_reducible refine keeps_cut (s := y) ?_ ?_; unfold y; clear y; rotate_left; intro hy; clear_value y; revert y; intros)
    | with_reducible refine keeps_upd (by with_reducible assumption)
    | (extract_lets +onlyGivenNames y; clear_value y; revert y; intros)
    | with_reducible refine keeps_ite ?_ ?_
    | with_reducible apply wr_keeps
    | split
    | with_reducible refine keeps_fst (by with_reducible assumption) ?_
    | with_reducible refine keeps_upd ?_

theorem dgUpdate_keeps (h : Keeps q s) : Keeps q (State.dgUpdate s) := by
  unfold State.dgUpdate
  repeat' first
    | with_reducible assumption
    | (extract_lets +onlyGivenNames y; with_reducible refine keeps_cut (s := y) ?_ ?_; unfold y; clear y; rotate_left; intro hy; clear_value y; revert y; intros)
    | with_reducible refine keeps_upd (by with_reducible assumption)
    | (extract_lets +onlyGivenNames y; clear_value y; revert y; intros)
    | with_reducible apply dgShow_keeps
    | with_reducible refine keeps_upd ?_

theorem dgReport_keeps (h : Keeps q s) : Keeps q (State.dgReport s a1 a2) := by
  unfold State.dgReport
  repeat' first
    | with_reducible assumption
    | (extract_lets +onlyGivenNames y; with_reducible refine keeps_cut (s := y) ?_ ?_; unfold y; clear y; rotate_left; intro hy; clear_value y; revert y; intros)
    | with_reducible refine keeps_upd (by with_reducible assumption)
    | (extract_lets +onlyGivenNames y; clear_value y; revert y; intros)
    | with_reducible refine keeps_ite ?_ ?_
    | with_reducible apply wake_keeps
    | with_reducible apply inc_keeps
    | with_reducible apply journal_keeps
    | split
    | with_reducible refine keeps_upd ?_

theorem dgReportAll_keeps (h : Keeps q s) : Keeps q (State.dgReportAll s a1 a2) := by
  unfold State.dgReportAll
  repeat' first
    | with_reducible assumption
    | with_reducible apply dgReport_keeps
    | with_reducible refine keeps_foldl ?_ (fun _ _ hs => ?_)
    | intro _ _ hs
    | intro _ hs
    | intro hs

theorem dgSubmit_keeps (h : Keeps q s) : Keeps q (State.dgSubmit s a1 a2 a3 a4 a5 a6).1 := by
  unfold State.dgSubmit
  repeat' first
    | with_reducible assumption
    | (extract_lets +onlyGivenNames y; with_reducible refine keeps_cut (s := y) ?_ ?_; unfold y; clear y; rotate_left; intro hy; clear_value y; revert y; intros)
    | with_reducible refine keeps_upd (by with_reducible assumption)
    | (extract_lets +onlyGivenNames y; clear_value y; revert y; intros)
    | with_reducible refine keeps_ite ?_ ?_
    | with_reducible apply wr_keeps
    | with_reducible apply dgUpdate_keeps
    | with_reducible apply inc_keeps
    | split
    | with_reducible refine keeps_upd ?_

theorem execDgSubmit_keeps (h : Keeps q s) : KeepsN q (execDgSubmit s) := by
  unfold execDgSubmit
  repeat' first
    | with_reducible assumption
    | with_reducible refine keepsN_next ?_
    | (extract_lets +onlyGivenNames y; with_reducible refine keeps_cut (s := y) ?_ ?_; unfold y; clear y; rotate_left; intro hy; clear_value y; revert y; intros)
    | (extract_lets +onlyGivenNames y; clear_value y; revert y; intros)
    | with_reducible apply dgSubmit_keeps

theorem execDgDonePop_keeps (h : Keeps q s) : KeepsN q (execDgDonePop s) := by
  unfold execDgDonePop
  repeat' first
    | with_reducible assumption
    | with_reducible refine keepsN_next ?_
    | (extract_lets +onlyGivenNames y; with_reducible refine keeps_cut (s := y) ?_ ?_; unfold y; clear y; rotate_left; intro hy; clear_value y; revert y; intros)
    | with_reducible refine keeps_upd (by with_reducible assumption)
    | (extract_lets +onlyGivenNames y; clear_value y; revert y; intros)
    | with_reducible apply dgShow_keeps
    | with_reducible refine keeps_upd ?_

theorem dgTemp_keeps (h : Keeps q s) : Keeps q (State.dgTemp s a1) := by
  unfold State.dgTemp
  repeat' first
    | with_reducible assumption
    | with_reducible refine keeps_ite ?_ ?_
    | with_reducible apply wr_keeps
    | split

theorem dgFly_keeps (h : Keeps q s) : Keeps q (State.dgFly s a1 a2) := by
  unfold State.dgFly
  repeat' first
    | with_reducible assumption
    | (extract_lets +onlyGivenNames y; with_reducible refine keeps_cut (s := y) ?_ ?_; unfold y; clear y; rotate_left; intro hy; clear_value y; revert y; intros)
    | with_reducible refine keeps_upd (by with_reducible assumption)
    | (extract_lets +onlyGivenNames y; clear_value y; revert y; intros)
    | with_reducible refine keeps_upd ?_

theorem dgStart_keeps (h : Keeps q s) : Keeps q (State.dgStart s a1) := by
  unfold State.dgStart
  repeat' first
    | with_reducible assumption
    | (extract_lets +onlyGivenNames y; with_reducible refine keeps_cut (s := y) ?_ ?_; unfold y; clear y; rotate_left; intro hy; clear_value y; revert y; intros)
    | with_reducible refine keeps_upd (by with_reducible assumption)
    | (extract_lets +onlyGivenNames y; clear_value y; revert y; intros)
    | with_reducible refine keeps_ite ?_ ?_
    | with_reducible apply dgTemp_keeps
    | with_reducible apply dgUpdate_keeps
    | with_reducible apply dgFly_keeps
    | intro _ _ hs
    | intro _ hs
    | intro hs
    | split
    | with_reducible refine keeps_fst (by with_reducible assumption) ?_
    | with_reducible refine keeps_upd ?_

theorem execRectangleStart_keeps (h : Keeps q s) : KeepsN q (execRectangleStart a1 s) := by
  unfold execRectangleStart
  repeat' first
    | with_reducible assumption
    | with_reducible refine keepsN_next ?_
    | with_reducible refine keeps_ite ?_ ?_
    | with_reducible refine keepsN_ite ?_ ?_
    | with_reducible apply dgStart_keeps
    | split

theorem panelPut_keeps (h : Keeps q s) : Keeps q (State.panelPut s a1 a2 a3 a4 a5) := by
  unfold State.panelPut
  repeat' first
    | with_reducible assumption
    | with_reducible refine keeps_ite ?_ ?_
    | with_reducible apply setBytes_keeps
    | with_reducible refine keeps_foldl ?_ (fun _ _ hs => ?_)
    | intro _ _ hs
    | intro _ hs
    | intro hs
    | split

theorem panelFree_keeps (h : Keeps q s) : Keeps q (State.panelFree s a1) := by
  unfold State.panelFree
  repeat' first
    | with_reducible assumption
    | (extract_lets +onlyGivenNames y; with_reducible refine keeps_cut (s := y) ?_ ?_; unfold y; clear y; rotate_left; intro hy; clear_value y; revert y; intros)
    | with_reducible refine keeps_upd (by with_reducible assumption)
    | (extract_lets +onlyGivenNames y; clear_value y; revert y; intros)
    | with_reducible refine keeps_ite ?_ ?_
    | with_reducible apply panelPut_keeps
    | intro _ _ hs
    | intro _ hs
    | intro hs
    | split
    | with_reducible refine keeps_upd ?_

theorem dgPainted_keeps (h : Keeps q s) : Keeps q (State.dgPainted s a1) := by
  unfold State.dgPainted
  repeat' first
    | with_reducible assumption
    | (extract_lets +onlyGivenNames y; with_reducible refine keeps_cut (s := y) ?_ ?_; unfold y; clear y; rotate_left; intro hy; clear_value y; revert y; intros)
    | with_reducible refine keeps_upd (by with_reducible assumption)
    | (extract_lets +onlyGivenNames y; clear_value y; revert y; intros)
    | with_reducible refine keeps_ite ?_ ?_
    | with_reducible apply panelPut_keeps
    | split
    | with_reducible refine keeps_upd ?_

theorem execRectangleComplete_keeps (h : Keeps q s) : KeepsN q (execRectangleComplete s) := by
  unfold execRectangleComplete
  repeat' first
    | with_reducible assumption
    | with_reducible refine keepsN_next ?_
    | (extract_lets +onlyGivenNames y; with_reducible refine keeps_cut (s := y) ?_ ?_; unfold y; clear y; rotate_left; intro hy; clear_value y; revert y; intros)
    | with_reducible refine keeps_upd (by with_reducible assumption)
    | (extract_lets +onlyGivenNames y; clear_value y; revert y; intros)
    | with_reducible refine keeps_ite ?_ ?_
    | with_reducible refine keepsN_ite ?_ ?_
    | with_reducible apply dgPainted_keeps
    | with_reducible apply wr_keeps
    | with_reducible apply dgUpdate_keeps
    | with_reducible apply dgReportAll_keeps
    | split
    | with_reducible refine keeps_fst (by with_reducible assumption) ?_
    | with_reducible refine keeps_upd ?_

theorem dgLegal_keeps (h : Keeps q s) : Keeps q (State.dgLegal s) := by
  unfold State.dgLegal
  repeat' first
    | with_reducible assumption
    | (extract_lets +onlyGivenNames y; with_reducible refine keeps_cut (s := y) ?_ ?_; unfold y; clear y; rotate_left; intro hy; clear_value y; revert y; intros)
    | with_reducible refine keeps_upd (by with_reducible assumption)
    | (extract_lets +onlyGivenNames y; clear_value y; revert y; intros)
    | with_reducible refine keeps_ite ?_ ?_
    | with_reducible apply dgUpdate_keeps
    | split
    | with_reducible refine keeps_upd ?_

theorem execLegalPageAdvance_keeps (h : Keeps q s) : KeepsN q (execLegalPageAdvance s) := by
  unfold execLegalPageAdvance
  repeat' first
    | with_reducible assumption
    | with_reducible refine keepsN_next ?_
    | (extract_lets +onlyGivenNames y; with_reducible refine keeps_cut (s := y) ?_ ?_; unfold y; clear y; rotate_left; intro hy; clear_value y; revert y; intros)
    | with_reducible refine keeps_upd (by with_reducible assumption)
    | (extract_lets +onlyGivenNames y; clear_value y; revert y; intros)
    | with_reducible refine keeps_ite ?_ ?_
    | with_reducible refine keepsN_ite ?_ ?_
    | with_reducible apply dgLegal_keeps
    | split
    | with_reducible refine keeps_upd ?_

theorem execRailOutOfTolerance_keeps (h : Keeps q s) : KeepsN q (execRailOutOfTolerance s) := by
  unfold execRailOutOfTolerance
  repeat' first
    | with_reducible assumption
    | with_reducible refine keepsN_next ?_
    | (extract_lets +onlyGivenNames y; with_reducible refine keeps_cut (s := y) ?_ ?_; unfold y; clear y; rotate_left; intro hy; clear_value y; revert y; intros)
    | with_reducible refine keeps_upd (by with_reducible assumption)
    | (extract_lets +onlyGivenNames y; clear_value y; revert y; intros)
    | with_reducible apply dgUpdate_keeps
    | with_reducible refine keeps_upd ?_

theorem execPumpRelease_keeps (h : Keeps q s) : KeepsN q (execPumpRelease s) := by
  unfold execPumpRelease
  repeat' first
    | with_reducible assumption
    | with_reducible refine keepsN_next ?_
    | (extract_lets +onlyGivenNames y; with_reducible refine keeps_cut (s := y) ?_ ?_; unfold y; clear y; rotate_left; intro hy; clear_value y; revert y; intros)
    | with_reducible refine keeps_upd (by with_reducible assumption)
    | (extract_lets +onlyGivenNames y; clear_value y; revert y; intros)
    | with_reducible refine keeps_ite ?_ ?_
    | with_reducible refine keepsN_ite ?_ ?_
    | with_reducible apply dgUpdate_keeps
    | split
    | with_reducible refine keeps_upd ?_

theorem dgHalt_keeps (h : Keeps q s) : Keeps q (State.dgHalt s) := by
  unfold State.dgHalt
  repeat' first
    | with_reducible assumption
    | (extract_lets +onlyGivenNames y; with_reducible refine keeps_cut (s := y) ?_ ?_; unfold y; clear y; rotate_left; intro hy; clear_value y; revert y; intros)
    | with_reducible refine keeps_upd (by with_reducible assumption)
    | (extract_lets +onlyGivenNames y; clear_value y; revert y; intros)
    | with_reducible apply panelFree_keeps
    | with_reducible refine keeps_foldl ?_ (fun _ _ hs => ?_)
    | intro _ _ hs
    | intro _ hs
    | intro hs
    | with_reducible refine keeps_upd ?_

theorem dgCrack_keeps (h : Keeps q s) : Keeps q (State.dgCrack s) := by
  unfold State.dgCrack
  repeat' first
    | with_reducible assumption
    | (extract_lets +onlyGivenNames y; with_reducible refine keeps_cut (s := y) ?_ ?_; unfold y; clear y; rotate_left; intro hy; clear_value y; revert y; intros)
    | with_reducible refine keeps_upd (by with_reducible assumption)
    | (extract_lets +onlyGivenNames y; clear_value y; revert y; intros)
    | with_reducible apply dgHalt_keeps
    | with_reducible apply dgUpdate_keeps
    | with_reducible apply dgReportAll_keeps
    | with_reducible refine keeps_upd ?_

theorem execCrackCheck_keeps (h : Keeps q s) : KeepsN q (execCrackCheck a1 s) := by
  unfold execCrackCheck
  repeat' first
    | with_reducible assumption
    | with_reducible refine keepsN_next ?_
    | with_reducible refine keeps_ite ?_ ?_
    | with_reducible refine keepsN_ite ?_ ?_
    | with_reducible apply dgCrack_keeps
    | with_reducible apply dgUpdate_keeps
    | split

theorem dgWarn_keeps (h : Keeps q s) : Keeps q (State.dgWarn s) := by
  unfold State.dgWarn
  repeat' first
    | with_reducible assumption
    | (extract_lets +onlyGivenNames y; with_reducible refine keeps_cut (s := y) ?_ ?_; unfold y; clear y; rotate_left; intro hy; clear_value y; revert y; intros)
    | with_reducible refine keeps_upd (by with_reducible assumption)
    | (extract_lets +onlyGivenNames y; clear_value y; revert y; intros)
    | with_reducible apply dgHalt_keeps
    | with_reducible apply dgUpdate_keeps
    | with_reducible apply dgReportAll_keeps
    | intro _ _ hs
    | intro _ hs
    | intro hs
    | with_reducible refine keeps_upd ?_

theorem dgDown_keeps (h : Keeps q s) : Keeps q (State.dgDown s) := by
  unfold State.dgDown
  repeat' first
    | with_reducible assumption
    | (extract_lets +onlyGivenNames y; with_reducible refine keeps_cut (s := y) ?_ ?_; unfold y; clear y; rotate_left; intro hy; clear_value y; revert y; intros)
    | with_reducible refine keeps_upd (by with_reducible assumption)
    | (extract_lets +onlyGivenNames y; clear_value y; revert y; intros)
    | with_reducible apply dgHalt_keeps
    | with_reducible apply dgUpdate_keeps
    | intro _ _ hs
    | intro _ hs
    | intro hs
    | with_reducible refine keeps_upd ?_

theorem execStartRepaint_keeps (h : Keeps q s) : KeepsN q (execStartRepaint a1 a2 s) := by
  unfold execStartRepaint
  repeat' first
    | with_reducible assumption
    | with_reducible refine keepsN_next ?_
    | (extract_lets +onlyGivenNames y; with_reducible refine keeps_cut (s := y) ?_ ?_; unfold y; clear y; rotate_left; intro hy; clear_value y; revert y; intros)
    | with_reducible refine keeps_upd (by with_reducible assumption)
    | (extract_lets +onlyGivenNames y; clear_value y; revert y; intros)
    | with_reducible refine keeps_ite ?_ ?_
    | with_reducible refine keepsN_ite ?_ ?_
    | with_reducible apply dgReport_keeps
    | with_reducible apply dgUpdate_keeps
    | with_reducible apply dgStart_keeps
    | with_reducible refine keeps_foldl ?_ (fun _ _ hs => ?_)
    | intro _ _ hs
    | intro _ hs
    | intro hs
    | split
    | with_reducible refine keeps_upd ?_

theorem indSubmit_keeps (h : Keeps q s) : Keeps q (State.indSubmit s a1 a2 a3 a4 a5 a6 a7 a8) := by
  unfold State.indSubmit
  repeat' first
    | with_reducible assumption
    | (extract_lets +onlyGivenNames y; with_reducible refine keeps_cut (s := y) ?_ ?_; unfold y; clear y; rotate_left; intro hy; clear_value y; revert y; intros)
    | (extract_lets +onlyGivenNames y; clear_value y; revert y; intros)
    | with_reducible refine keeps_ite ?_ ?_
    | with_reducible apply dgSubmit_keeps
    | with_reducible apply await_keeps
    | with_reducible apply reply_keeps
    | split
    | with_reducible refine keeps_fst (by with_reducible assumption) ?_

theorem execIndRect_keeps (h : Keeps q s) : KeepsN q (execIndRect a1 a2 a3 a4 a5 a6 s) := by
  unfold execIndRect
  repeat' first
    | with_reducible assumption
    | with_reducible refine keepsN_next ?_
    | (extract_lets +onlyGivenNames y; with_reducible refine keeps_cut (s := y) ?_ ?_; unfold y; clear y; rotate_left; intro hy; clear_value y; revert y; intros)
    | (extract_lets +onlyGivenNames y; clear_value y; revert y; intros)
    | with_reducible apply command_keeps
    | with_reducible apply indSubmit_keeps
    | intro _ _ hs
    | intro _ hs
    | intro hs

theorem execIndStatus_keeps (h : Keeps q s) : KeepsN q (execIndStatus a1 s) := by
  unfold execIndStatus
  repeat' first
    | with_reducible assumption
    | with_reducible refine keepsN_next ?_
    | (extract_lets +onlyGivenNames y; with_reducible refine keeps_cut (s := y) ?_ ?_; unfold y; clear y; rotate_left; intro hy; clear_value y; revert y; intros)
    | (extract_lets +onlyGivenNames y; clear_value y; revert y; intros)
    | with_reducible apply command_keeps
    | with_reducible apply reply_keeps
    | intro _ _ hs
    | intro _ hs
    | intro hs

theorem execIndClear_keeps (h : Keeps q s) : KeepsN q (execIndClear a1 s) := by
  unfold execIndClear
  repeat' first
    | with_reducible assumption
    | with_reducible refine keepsN_next ?_
    | (extract_lets +onlyGivenNames y; with_reducible refine keeps_cut (s := y) ?_ ?_; unfold y; clear y; rotate_left; intro hy; clear_value y; revert y; intros)
    | (extract_lets +onlyGivenNames y; clear_value y; revert y; intros)
    | with_reducible apply command_keeps
    | with_reducible apply indSubmit_keeps
    | intro _ _ hs
    | intro _ hs
    | intro hs

/-! ### Metrology -/

theorem metRow_keeps (h : Keeps q s) (hf : ∀ s, Keeps q s → Keeps q (f s)) : KeepsN q (State.metRow s a1 f) := by
  unfold State.metRow
  repeat' first
    | with_reducible assumption
    | with_reducible refine keepsN_next ?_
    | with_reducible refine keeps_ite ?_ ?_
    | with_reducible refine keepsN_ite ?_ ?_
    | with_reducible apply hf
    | split

theorem audit_keeps (h : Keeps q s) : Keeps q (State.audit s a1 a2 a3 a4) := by
  unfold State.audit
  repeat' first
    | with_reducible assumption
    | (extract_lets +onlyGivenNames y; with_reducible refine keeps_cut (s := y) ?_ ?_; unfold y; clear y; rotate_left; intro hy; clear_value y; revert y; intros)
    | (extract_lets +onlyGivenNames y; with_reducible refine keeps_metid y ?_; unfold y; clear y)
    | with_reducible refine keeps_upd (by with_reducible assumption)
    | (extract_lets +onlyGivenNames y; clear_value y; revert y; intros)
    | split
    | with_reducible refine keeps_fst (by with_reducible assumption) ?_
    | with_reducible refine keeps_upd ?_

theorem metSend_keeps (h : Keeps q s) : Keeps q (State.metSend s a1 a2) := by
  refine ⟨fun hp => ?_, h.2.1, fun r e => h.2.2 r e⟩
  obtain ⟨h1, h2, h3, h4, h5⟩ := h.1 hp
  exact ⟨h1, h2, h3, h4, h5⟩

theorem metEvents_keeps (h : Keeps q s) : Keeps q (State.metEvents s) := by
  unfold State.metEvents
  repeat' first
    | with_reducible assumption
    | (extract_lets +onlyGivenNames y; with_reducible refine keeps_cut (s := y) ?_ ?_; unfold y; clear y; rotate_left; intro hy; clear_value y; revert y; intros)
    | (extract_lets +onlyGivenNames y; with_reducible refine keeps_metid y ?_; unfold y; clear y)
    | with_reducible refine keeps_upd (by with_reducible assumption)
    | (extract_lets +onlyGivenNames y; clear_value y; revert y; intros)
    | with_reducible refine keeps_ite ?_ ?_
    | with_reducible apply metSend_keeps
    | with_reducible refine keeps_foldl ?_ (fun _ _ hs => ?_)
    | intro _ _ hs
    | intro _ hs
    | intro hs
    | split
    | with_reducible refine keeps_upd ?_

theorem metCommit_keeps (h : Keeps q s) (hq : q.2.2 = none) : Keeps q (State.metCommit s a1 a2 a3) := by
  refine ⟨fun hp => ?_, h.2.1, fun r e => by rw [hq] at e; cases e⟩
  obtain ⟨h1, h2, h3, h4, h5⟩ := h.1 hp
  exact ⟨h1, h2, h3, h4, h5⟩

theorem metBoundary_keeps (h : Keeps q s) : Keeps q (State.metBoundary s) := by
  unfold State.metBoundary
  repeat' first
    | with_reducible assumption
    | (extract_lets +onlyGivenNames y; with_reducible refine keeps_cut (s := y) ?_ ?_; unfold y; clear y; rotate_left; intro hy; clear_value y; revert y; intros)
    | (extract_lets +onlyGivenNames y; with_reducible refine keeps_metid y ?_; unfold y; clear y)
    | with_reducible refine keeps_upd (by with_reducible assumption)
    | (extract_lets +onlyGivenNames y; clear_value y; revert y; intros)
    | intro _ _ hs
    | intro _ hs
    | intro hs
    | split
    | with_reducible refine keeps_fst (by with_reducible assumption) ?_
    | with_reducible refine keeps_upd ?_

theorem profileFlags_keeps (h : Keeps q s) : Keeps q (State.profileFlags s) := by
  unfold State.profileFlags
  repeat' first
    | with_reducible assumption
    | (extract_lets +onlyGivenNames y; with_reducible refine keeps_cut (s := y) ?_ ?_; unfold y; clear y; rotate_left; intro hy; clear_value y; revert y; intros)
    | (extract_lets +onlyGivenNames y; with_reducible refine keeps_metid y ?_; unfold y; clear y)
    | with_reducible refine keeps_upd (by with_reducible assumption)
    | (extract_lets +onlyGivenNames y; clear_value y; revert y; intros)
    | with_reducible refine keeps_upd ?_

theorem execMeteringIntervalEnd_keeps (h : Keeps q s) (hq : q.2.2 = none) : KeepsN q (execMeteringIntervalEnd a1 s) := by
  unfold execMeteringIntervalEnd
  repeat' first
    | with_reducible assumption
    | with_reducible refine keepsN_next ?_
    | with_reducible apply metRow_keeps
    | with_reducible apply dgLegal_keeps
    | with_reducible apply profileFlags_keeps
    | with_reducible apply metBoundary_keeps
    | with_reducible apply metCommit_keeps
    | intro _ _ hs
    | intro _ hs
    | intro hs

theorem metSplit_keeps (h : Keeps q s) (hq : q.2.2 = none) : Keeps q (State.metSplit s a1) := by
  unfold State.metSplit
  repeat' first
    | with_reducible assumption
    | (extract_lets +onlyGivenNames y; with_reducible refine keeps_cut (s := y) ?_ ?_; unfold y; clear y; rotate_left; intro hy; clear_value y; revert y; intros)
    | (extract_lets +onlyGivenNames y; with_reducible refine keeps_metid y ?_; unfold y; clear y)
    | with_reducible refine keeps_upd (by with_reducible assumption)
    | (extract_lets +onlyGivenNames y; clear_value y; revert y; intros)
    | with_reducible refine keeps_ite ?_ ?_
    | with_reducible apply audit_keeps
    | with_reducible apply metEvents_keeps
    | with_reducible apply metCommit_keeps
    | with_reducible apply dgLegal_keeps
    | with_reducible apply profileFlags_keeps
    | split
    | with_reducible refine keeps_upd ?_

theorem metWarnClear_keeps (h : Keeps q s) : Keeps q (State.metWarnClear s) := by
  unfold State.metWarnClear
  repeat' first
    | with_reducible assumption
    | with_reducible refine keeps_ite ?_ ?_
    | with_reducible apply metEvents_keeps
    | with_reducible apply audit_keeps
    | split

theorem execAuxSupplyLow_keeps (h : Keeps q s) (hq : q.2.2 = none) : KeepsN q (execAuxSupplyLow a1 s) := by
  unfold execAuxSupplyLow
  repeat' first
    | with_reducible assumption
    | with_reducible refine keepsN_next ?_
    | (extract_lets +onlyGivenNames y; with_reducible refine keeps_cut (s := y) ?_ ?_; unfold y; clear y; rotate_left; intro hy; clear_value y; revert y; intros)
    | (extract_lets +onlyGivenNames y; with_reducible refine keeps_metid y ?_; unfold y; clear y)
    | with_reducible refine keeps_upd (by with_reducible assumption)
    | (extract_lets +onlyGivenNames y; clear_value y; revert y; intros)
    | with_reducible refine keeps_ite ?_ ?_
    | with_reducible refine keepsN_ite ?_ ?_
    | with_reducible apply metRow_keeps
    | with_reducible apply metCommit_keeps
    | with_reducible apply profileFlags_keeps
    | with_reducible apply audit_keeps
    | with_reducible apply dgDown_keeps
    | intro _ _ hs
    | intro _ hs
    | intro hs
    | split
    | with_reducible refine keeps_upd ?_

theorem execAuxSupplyReturn_keeps (h : Keeps q s) : KeepsN q (execAuxSupplyReturn a1 a2 s) := by
  unfold execAuxSupplyReturn
  repeat' first
    | with_reducible assumption
    | with_reducible refine keepsN_next ?_
    | (extract_lets +onlyGivenNames y; with_reducible refine keeps_cut (s := y) ?_ ?_; unfold y; clear y; rotate_left; intro hy; clear_value y; revert y; intros)
    | (extract_lets +onlyGivenNames y; with_reducible refine keeps_metid y ?_; unfold y; clear y)
    | with_reducible refine keeps_upd (by with_reducible assumption)
    | (extract_lets +onlyGivenNames y; clear_value y; revert y; intros)
    | with_reducible refine keeps_ite ?_ ?_
    | with_reducible refine keepsN_ite ?_ ?_
    | with_reducible apply metRow_keeps
    | with_reducible apply audit_keeps
    | with_reducible apply profileFlags_keeps
    | intro _ _ hs
    | intro _ hs
    | intro hs
    | split
    | with_reducible refine keeps_upd ?_

theorem execTotalsRecordSend_keeps (h : Keeps q s) : KeepsN q (execTotalsRecordSend s) := by
  unfold execTotalsRecordSend
  repeat' first
    | with_reducible assumption
    | with_reducible refine keepsN_next ?_
    | (extract_lets +onlyGivenNames y; with_reducible refine keeps_cut (s := y) ?_ ?_; unfold y; clear y; rotate_left; intro hy; clear_value y; revert y; intros)
    | (extract_lets +onlyGivenNames y; with_reducible refine keeps_metid y ?_; unfold y; clear y)
    | with_reducible refine keeps_upd (by with_reducible assumption)
    | (extract_lets +onlyGivenNames y; clear_value y; revert y; intros)
    | with_reducible refine keeps_ite ?_ ?_
    | with_reducible refine keepsN_ite ?_ ?_
    | with_reducible apply metRow_keeps
    | with_reducible apply metSend_keeps
    | intro _ _ hs
    | intro _ hs
    | intro hs
    | split
    | with_reducible refine keeps_upd ?_

theorem execProfilePeriodEnd_keeps (h : Keeps q s) : KeepsN q (execProfilePeriodEnd s) := by
  unfold execProfilePeriodEnd
  repeat' first
    | with_reducible assumption
    | with_reducible refine keepsN_next ?_
    | (extract_lets +onlyGivenNames y; with_reducible refine keeps_cut (s := y) ?_ ?_; unfold y; clear y; rotate_left; intro hy; clear_value y; revert y; intros)
    | (extract_lets +onlyGivenNames y; with_reducible refine keeps_metid y ?_; unfold y; clear y)
    | with_reducible refine keeps_upd (by with_reducible assumption)
    | (extract_lets +onlyGivenNames y; clear_value y; revert y; intros)
    | with_reducible refine keeps_ite ?_ ?_
    | with_reducible refine keepsN_ite ?_ ?_
    | with_reducible apply metRow_keeps
    | with_reducible apply metSend_keeps
    | intro _ _ hs
    | intro _ hs
    | intro hs
    | split
    | with_reducible refine keeps_upd ?_

theorem execStatusRecordSend_keeps (h : Keeps q s) : KeepsN q (execStatusRecordSend a1 s) := by
  unfold execStatusRecordSend
  repeat' first
    | with_reducible assumption
    | with_reducible refine keepsN_next ?_
    | (extract_lets +onlyGivenNames y; with_reducible refine keeps_cut (s := y) ?_ ?_; unfold y; clear y; rotate_left; intro hy; clear_value y; revert y; intros)
    | (extract_lets +onlyGivenNames y; with_reducible refine keeps_metid y ?_; unfold y; clear y)
    | with_reducible refine keeps_upd (by with_reducible assumption)
    | (extract_lets +onlyGivenNames y; clear_value y; revert y; intros)
    | with_reducible refine keeps_ite ?_ ?_
    | with_reducible refine keepsN_ite ?_ ?_
    | with_reducible apply metRow_keeps
    | with_reducible apply metSend_keeps
    | with_reducible apply metEvents_keeps
    | intro _ _ hs
    | intro _ hs
    | intro hs
    | split
    | with_reducible refine keeps_fst (by with_reducible assumption) ?_
    | with_reducible refine keeps_upd ?_

theorem execCertRecordSend_keeps (h : Keeps q s) : KeepsN q (execCertRecordSend s) := by
  unfold execCertRecordSend
  repeat' first
    | with_reducible assumption
    | with_reducible refine keepsN_next ?_
    | (extract_lets +onlyGivenNames y; with_reducible refine keeps_cut (s := y) ?_ ?_; unfold y; clear y; rotate_left; intro hy; clear_value y; revert y; intros)
    | (extract_lets +onlyGivenNames y; with_reducible refine keeps_metid y ?_; unfold y; clear y)
    | with_reducible refine keeps_upd (by with_reducible assumption)
    | (extract_lets +onlyGivenNames y; clear_value y; revert y; intros)
    | with_reducible refine keeps_ite ?_ ?_
    | with_reducible refine keepsN_ite ?_ ?_
    | with_reducible apply metRow_keeps
    | with_reducible apply metSend_keeps
    | intro _ _ hs
    | intro _ hs
    | intro hs
    | split
    | with_reducible refine keeps_fst (by with_reducible assumption) ?_
    | with_reducible refine keeps_upd ?_

theorem execAuditEntryWrite_keeps (h : Keeps q s) : KeepsN q (execAuditEntryWrite a1 a2 a3 a4 s) := by
  unfold execAuditEntryWrite
  repeat' first
    | with_reducible assumption
    | with_reducible refine keepsN_next ?_
    | (extract_lets +onlyGivenNames y; with_reducible refine keeps_cut (s := y) ?_ ?_; unfold y; clear y; rotate_left; intro hy; clear_value y; revert y; intros)
    | (extract_lets +onlyGivenNames y; with_reducible refine keeps_metid y ?_; unfold y; clear y)
    | with_reducible refine keeps_upd (by with_reducible assumption)
    | (extract_lets +onlyGivenNames y; clear_value y; revert y; intros)
    | with_reducible refine keeps_ite ?_ ?_
    | with_reducible refine keepsN_ite ?_ ?_
    | with_reducible apply metRow_keeps
    | with_reducible apply metEvents_keeps
    | with_reducible apply audit_keeps
    | intro _ _ hs
    | intro _ hs
    | intro hs
    | split
    | with_reducible refine keeps_upd ?_

theorem execPhaseLoss_keeps (h : Keeps q s) : KeepsN q (execPhaseLoss a1 a2 s) := by
  unfold execPhaseLoss
  repeat' first
    | with_reducible assumption
    | with_reducible refine keepsN_next ?_
    | (extract_lets +onlyGivenNames y; with_reducible refine keeps_cut (s := y) ?_ ?_; unfold y; clear y; rotate_left; intro hy; clear_value y; revert y; intros)
    | (extract_lets +onlyGivenNames y; with_reducible refine keeps_metid y ?_; unfold y; clear y)
    | with_reducible refine keeps_upd (by with_reducible assumption)
    | (extract_lets +onlyGivenNames y; clear_value y; revert y; intros)
    | with_reducible refine keeps_ite ?_ ?_
    | with_reducible refine keepsN_ite ?_ ?_
    | with_reducible apply metRow_keeps
    | with_reducible apply audit_keeps
    | with_reducible apply metEvents_keeps
    | intro _ _ hs
    | intro _ hs
    | intro hs
    | split
    | with_reducible refine keeps_upd ?_

theorem execOverload_keeps (h : Keeps q s) : KeepsN q (execOverload a1 a2 a3 s) := by
  unfold execOverload
  repeat' first
    | with_reducible assumption
    | with_reducible refine keepsN_next ?_
    | (extract_lets +onlyGivenNames y; with_reducible refine keeps_cut (s := y) ?_ ?_; unfold y; clear y; rotate_left; intro hy; clear_value y; revert y; intros)
    | (extract_lets +onlyGivenNames y; with_reducible refine keeps_metid y ?_; unfold y; clear y)
    | with_reducible refine keeps_upd (by with_reducible assumption)
    | (extract_lets +onlyGivenNames y; clear_value y; revert y; intros)
    | with_reducible refine keeps_ite ?_ ?_
    | with_reducible refine keepsN_ite ?_ ?_
    | with_reducible apply metRow_keeps
    | with_reducible apply metEvents_keeps
    | with_reducible apply audit_keeps
    | intro _ _ hs
    | intro _ hs
    | intro hs
    | split
    | with_reducible refine keeps_upd ?_

theorem execSealCoverOpen_keeps (h : Keeps q s) : KeepsN q (execSealCoverOpen s) := by
  unfold execSealCoverOpen
  repeat' first
    | with_reducible assumption
    | with_reducible refine keepsN_next ?_
    | (extract_lets +onlyGivenNames y; with_reducible refine keeps_cut (s := y) ?_ ?_; unfold y; clear y; rotate_left; intro hy; clear_value y; revert y; intros)
    | (extract_lets +onlyGivenNames y; with_reducible refine keeps_metid y ?_; unfold y; clear y)
    | with_reducible refine keeps_upd (by with_reducible assumption)
    | (extract_lets +onlyGivenNames y; clear_value y; revert y; intros)
    | with_reducible refine keeps_ite ?_ ?_
    | with_reducible refine keepsN_ite ?_ ?_
    | with_reducible apply metRow_keeps
    | with_reducible apply dgLegal_keeps
    | with_reducible apply metEvents_keeps
    | with_reducible apply profileFlags_keeps
    | with_reducible apply audit_keeps
    | intro _ _ hs
    | intro _ hs
    | intro hs
    | split
    | with_reducible refine keeps_upd ?_

theorem execServiceWindowWrite_keeps (h : Keeps q s) : KeepsN q (execServiceWindowWrite a1 a2 a3 a4 s) := by
  unfold execServiceWindowWrite
  repeat' first
    | with_reducible assumption
    | with_reducible refine keepsN_next ?_
    | (extract_lets +onlyGivenNames y; with_reducible refine keeps_cut (s := y) ?_ ?_; unfold y; clear y; rotate_left; intro hy; clear_value y; revert y; intros)
    | (extract_lets +onlyGivenNames y; with_reducible refine keeps_metid y ?_; unfold y; clear y)
    | with_reducible refine keeps_upd (by with_reducible assumption)
    | (extract_lets +onlyGivenNames y; clear_value y; revert y; intros)
    | with_reducible refine keeps_ite ?_ ?_
    | with_reducible refine keepsN_ite ?_ ?_
    | with_reducible apply metRow_keeps
    | with_reducible apply metEvents_keeps
    | with_reducible apply audit_keeps
    | intro _ _ hs
    | intro _ hs
    | intro hs
    | split
    | with_reducible refine keeps_fst (by with_reducible assumption) ?_
    | with_reducible refine keeps_upd ?_

theorem execServiceWindowRead_keeps (h : Keeps q s) : KeepsN q (execServiceWindowRead a1 a2 s) := by
  unfold execServiceWindowRead
  repeat' first
    | with_reducible assumption
    | with_reducible refine keepsN_next ?_
    | (extract_lets +onlyGivenNames y; with_reducible refine keeps_cut (s := y) ?_ ?_; unfold y; clear y; rotate_left; intro hy; clear_value y; revert y; intros)
    | with_reducible refine keeps_upd (by with_reducible assumption)
    | (extract_lets +onlyGivenNames y; clear_value y; revert y; intros)
    | with_reducible apply metRow_keeps
    | with_reducible apply emit_keeps
    | intro _ _ hs
    | intro _ hs
    | intro hs
    | split
    | with_reducible refine keeps_fst (by with_reducible assumption) ?_
    | with_reducible refine keeps_upd ?_

theorem execResealArmExpiry_keeps (h : Keeps q s) : KeepsN q (execResealArmExpiry s) := by
  unfold execResealArmExpiry
  repeat' first
    | with_reducible assumption
    | with_reducible refine keepsN_next ?_
    | (extract_lets +onlyGivenNames y; with_reducible refine keeps_cut (s := y) ?_ ?_; unfold y; clear y; rotate_left; intro hy; clear_value y; revert y; intros)
    | (extract_lets +onlyGivenNames y; with_reducible refine keeps_metid y ?_; unfold y; clear y)
    | with_reducible refine keeps_upd (by with_reducible assumption)
    | (extract_lets +onlyGivenNames y; clear_value y; revert y; intros)
    | with_reducible refine keeps_ite ?_ ?_
    | with_reducible refine keepsN_ite ?_ ?_
    | with_reducible apply metRow_keeps
    | intro _ _ hs
    | intro _ hs
    | intro hs
    | split
    | with_reducible refine keeps_fst (by with_reducible assumption) ?_
    | with_reducible refine keeps_upd ?_

theorem execSealCoverClose_keeps (h : Keeps q s) : KeepsN q (execSealCoverClose s) := by
  unfold execSealCoverClose
  repeat' first
    | with_reducible assumption
    | with_reducible refine keepsN_next ?_
    | (extract_lets +onlyGivenNames y; with_reducible refine keeps_cut (s := y) ?_ ?_; unfold y; clear y; rotate_left; intro hy; clear_value y; revert y; intros)
    | (extract_lets +onlyGivenNames y; with_reducible refine keeps_metid y ?_; unfold y; clear y)
    | with_reducible refine keeps_upd (by with_reducible assumption)
    | (extract_lets +onlyGivenNames y; clear_value y; revert y; intros)
    | with_reducible refine keeps_ite ?_ ?_
    | with_reducible refine keepsN_ite ?_ ?_
    | with_reducible apply metRow_keeps
    | with_reducible apply dgLegal_keeps
    | with_reducible apply metEvents_keeps
    | with_reducible apply audit_keeps
    | intro _ _ hs
    | intro _ hs
    | intro hs
    | split
    | with_reducible refine keeps_fst (by with_reducible assumption) ?_
    | with_reducible refine keeps_upd ?_

theorem execLidOpen_keeps (h : Keeps q s) : KeepsN q (execLidOpen s) := by
  unfold execLidOpen
  repeat' first
    | with_reducible assumption
    | with_reducible refine keepsN_next ?_
    | (extract_lets +onlyGivenNames y; with_reducible refine keeps_cut (s := y) ?_ ?_; unfold y; clear y; rotate_left; intro hy; clear_value y; revert y; intros)
    | (extract_lets +onlyGivenNames y; with_reducible refine keeps_metid y ?_; unfold y; clear y)
    | with_reducible refine keeps_upd (by with_reducible assumption)
    | (extract_lets +onlyGivenNames y; clear_value y; revert y; intros)
    | with_reducible refine keeps_ite ?_ ?_
    | with_reducible refine keepsN_ite ?_ ?_
    | with_reducible apply metRow_keeps
    | with_reducible apply dgLegal_keeps
    | with_reducible apply metEvents_keeps
    | with_reducible apply profileFlags_keeps
    | with_reducible apply audit_keeps
    | intro _ _ hs
    | intro _ hs
    | intro hs
    | split
    | with_reducible refine keeps_upd ?_

theorem mgShow_keeps (h : Keeps q s) : Keeps q (State.mgShow s) := by
  unfold State.mgShow
  repeat' first
    | with_reducible assumption
    | (extract_lets +onlyGivenNames y; with_reducible refine keeps_cut (s := y) ?_ ?_; unfold y; clear y; rotate_left; intro hy; clear_value y; revert y; intros)
    | with_reducible refine keeps_upd (by with_reducible assumption)
    | (extract_lets +onlyGivenNames y; clear_value y; revert y; intros)
    | with_reducible refine keeps_ite ?_ ?_
    | with_reducible apply wr_keeps
    | with_reducible apply wr64_keeps
    | split
    | with_reducible refine keeps_fst (by with_reducible assumption) ?_
    | with_reducible refine keeps_upd ?_

theorem mgStore_keeps (h : Keeps q s) : Keeps q (State.mgStore s a1) := by
  unfold State.mgStore
  repeat' first
    | with_reducible assumption
    | (extract_lets +onlyGivenNames y; with_reducible refine keeps_cut (s := y) ?_ ?_; unfold y; clear y; rotate_left; intro hy; clear_value y; revert y; intros)
    | with_reducible refine keeps_upd (by with_reducible assumption)
    | (extract_lets +onlyGivenNames y; clear_value y; revert y; intros)
    | with_reducible refine keeps_ite ?_ ?_
    | with_reducible apply inc_keeps
    | with_reducible apply wr_keeps
    | with_reducible apply mgShow_keeps
    | split
    | with_reducible refine keeps_upd ?_

theorem execMgRecordRx_keeps (h : Keeps q s) : KeepsN q (execMgRecordRx a1 a2 s) := by
  unfold execMgRecordRx
  repeat' first
    | with_reducible assumption
    | with_reducible refine keepsN_next ?_
    | (extract_lets +onlyGivenNames y; with_reducible refine keeps_cut (s := y) ?_ ?_; unfold y; clear y; rotate_left; intro hy; clear_value y; revert y; intros)
    | with_reducible refine keeps_upd (by with_reducible assumption)
    | (extract_lets +onlyGivenNames y; clear_value y; revert y; intros)
    | with_reducible refine keeps_ite ?_ ?_
    | with_reducible refine keepsN_ite ?_ ?_
    | with_reducible apply metRow_keeps
    | with_reducible apply inc_keeps
    | with_reducible apply wr_keeps
    | with_reducible apply mgStore_keeps
    | intro _ _ hs
    | intro _ hs
    | intro hs
    | split
    | with_reducible refine keeps_upd ?_

theorem execMgRxPop_keeps (h : Keeps q s) : KeepsN q (execMgRxPop s) := by
  unfold execMgRxPop
  repeat' first
    | with_reducible assumption
    | with_reducible refine keepsN_next ?_
    | (extract_lets +onlyGivenNames y; with_reducible refine keeps_cut (s := y) ?_ ?_; unfold y; clear y; rotate_left; intro hy; clear_value y; revert y; intros)
    | with_reducible refine keeps_upd (by with_reducible assumption)
    | (extract_lets +onlyGivenNames y; clear_value y; revert y; intros)
    | with_reducible apply metRow_keeps
    | with_reducible apply mgShow_keeps
    | intro _ _ hs
    | intro _ hs
    | intro hs
    | with_reducible refine keeps_upd ?_

theorem sealReport_keeps (h : Keeps q s) : Keeps q (State.sealReport s a1) := by
  unfold State.sealReport
  repeat' first
    | with_reducible assumption
    | (extract_lets +onlyGivenNames y; with_reducible refine keeps_cut (s := y) ?_ ?_; unfold y; clear y; rotate_left; intro hy; clear_value y; revert y; intros)
    | with_reducible refine keeps_upd (by with_reducible assumption)
    | (extract_lets +onlyGivenNames y; clear_value y; revert y; intros)
    | with_reducible refine keeps_ite ?_ ?_
    | with_reducible apply journal_keeps
    | with_reducible apply notify_keeps
    | with_reducible apply closeSession_keeps
    | with_reducible refine keeps_foldl ?_ (fun _ _ hs => ?_)
    | intro _ _ hs
    | intro _ hs
    | intro hs
    | split
    | with_reducible refine keeps_upd ?_

theorem execRecordVerify_keeps (h : Keeps q s) : KeepsN q (execRecordVerify a1 s) := by
  unfold execRecordVerify
  repeat' first
    | with_reducible assumption
    | with_reducible refine keepsN_next ?_
    | (extract_lets +onlyGivenNames y; with_reducible refine keeps_cut (s := y) ?_ ?_; unfold y; clear y; rotate_left; intro hy; clear_value y; revert y; intros)
    | with_reducible refine keeps_upd (by with_reducible assumption)
    | (extract_lets +onlyGivenNames y; clear_value y; revert y; intros)
    | with_reducible refine keeps_ite ?_ ?_
    | with_reducible refine keepsN_ite ?_ ?_
    | with_reducible apply metRow_keeps
    | with_reducible apply mgShow_keeps
    | with_reducible apply journal_keeps
    | with_reducible apply sealReport_keeps
    | intro _ _ hs
    | intro _ hs
    | intro hs
    | split
    | with_reducible refine keeps_fst (by with_reducible assumption) ?_
    | with_reducible refine keeps_upd ?_

/-! ### Zeroise -/

theorem seShow_keeps (h : Keeps q s) : Keeps q (State.seShow s) := by
  unfold State.seShow
  repeat' first
    | with_reducible assumption
    | (extract_lets +onlyGivenNames y; with_reducible refine keeps_cut (s := y) ?_ ?_; unfold y; clear y; rotate_left; intro hy; clear_value y; revert y; intros)
    | (extract_lets +onlyGivenNames y; clear_value y; revert y; intros)
    | with_reducible refine keeps_ite ?_ ?_
    | with_reducible apply wr_keeps
    | with_reducible apply wr64_keeps
    | split

theorem zeroiseSessions_keeps (h : Keeps q s) : Keeps q (State.zeroiseSessions s) := by
  unfold State.zeroiseSessions
  repeat' first
    | with_reducible assumption
    | (extract_lets +onlyGivenNames y; with_reducible refine keeps_cut (s := y) ?_ ?_; unfold y; clear y; rotate_left; intro hy; clear_value y; revert y; intros)
    | with_reducible refine keeps_upd (by with_reducible assumption)
    | (extract_lets +onlyGivenNames y; clear_value y; revert y; intros)
    | with_reducible apply closeSession_keeps
    | with_reducible apply pairLinks_keeps
    | with_reducible apply wr_keeps
    | with_reducible refine keeps_foldl ?_ (fun _ _ hs => ?_)
    | intro _ _ hs
    | intro _ hs
    | intro hs
    | with_reducible refine keeps_upd ?_

theorem zeroiseOwner_keeps (h : Keeps q s) : Keeps q (State.zeroiseOwner s) := by
  unfold State.zeroiseOwner
  repeat' first
    | with_reducible assumption
    | (extract_lets +onlyGivenNames y; with_reducible refine keeps_cut (s := y) ?_ ?_; unfold y; clear y; rotate_left; intro hy; clear_value y; revert y; intros)
    | with_reducible refine keeps_upd (by with_reducible assumption)
    | (extract_lets +onlyGivenNames y; clear_value y; revert y; intros)
    | with_reducible apply wr_keeps
    | with_reducible refine keeps_upd ?_

theorem zeroiseAll_keeps (h : Keeps q s) : Keeps q (State.zeroiseAll s a1) := by
  unfold State.zeroiseAll
  repeat' first
    | with_reducible assumption
    | (extract_lets +onlyGivenNames y; with_reducible refine keeps_cut (s := y) ?_ ?_; unfold y; clear y; rotate_left; intro hy; clear_value y; revert y; intros)
    | with_reducible refine keeps_upd (by with_reducible assumption)
    | (extract_lets +onlyGivenNames y; clear_value y; revert y; intros)
    | with_reducible refine keeps_ite ?_ ?_
    | with_reducible apply zeroiseSessions_keeps
    | with_reducible apply zeroiseOwner_keeps
    | with_reducible apply seShow_keeps
    | with_reducible apply wr_keeps
    | split
    | with_reducible refine keeps_upd ?_

theorem zeroise_keeps (h : Keeps q s) : Keeps q (State.zeroise s a1) := by
  unfold State.zeroise
  repeat' first
    | with_reducible assumption
    | (extract_lets +onlyGivenNames y; with_reducible refine keeps_cut (s := y) ?_ ?_; unfold y; clear y; rotate_left; intro hy; clear_value y; revert y; intros)
    | with_reducible refine keeps_upd (by with_reducible assumption)
    | (extract_lets +onlyGivenNames y; clear_value y; revert y; intros)
    | with_reducible refine keeps_ite ?_ ?_
    | with_reducible apply zeroiseSessions_keeps
    | with_reducible apply seShow_keeps
    | with_reducible apply zeroiseAll_keeps
    | split
    | with_reducible refine keeps_upd ?_

theorem zeroiseRest_keeps (h : Keeps q s) : Keeps q (State.zeroiseRest s) := by
  unfold State.zeroiseRest
  repeat' first
    | with_reducible assumption
    | with_reducible refine keeps_ite ?_ ?_
    | with_reducible apply zeroiseAll_keeps
    | split

/-! ### Supervisor -/

theorem feedReads_keeps (h : Keeps q s) : Keeps q (State.feedReads s a1 a2 a3) := by
  unfold State.feedReads
  repeat' first
    | with_reducible assumption
    | (extract_lets +onlyGivenNames y; with_reducible refine keeps_cut (s := y) ?_ ?_; unfold y; clear y; rotate_left; intro hy; clear_value y; revert y; intros)
    | with_reducible refine keeps_upd (by with_reducible assumption)
    | (extract_lets +onlyGivenNames y; clear_value y; revert y; intros)
    | with_reducible refine keeps_ite ?_ ?_
    | with_reducible apply wr_keeps
    | split
    | with_reducible refine keeps_upd ?_

theorem execFeedOutOfRange_keeps (h : Keeps q s) : KeepsN q (execFeedOutOfRange a1 a2 s) := by
  unfold execFeedOutOfRange
  repeat' first
    | with_reducible assumption
    | with_reducible refine keepsN_next ?_
    | with_reducible refine keeps_ite ?_ ?_
    | with_reducible refine keepsN_ite ?_ ?_
    | with_reducible apply feedReads_keeps
    | split

theorem execFeedOvervoltage_keeps (h : Keeps q s) : KeepsN q (execFeedOvervoltage a1 s) := by
  unfold execFeedOvervoltage
  repeat' first
    | with_reducible assumption
    | with_reducible refine keepsN_next ?_
    | (extract_lets +onlyGivenNames y; with_reducible refine keeps_cut (s := y) ?_ ?_; unfold y; clear y; rotate_left; intro hy; clear_value y; revert y; intros)
    | (extract_lets +onlyGivenNames y; clear_value y; revert y; intros)
    | with_reducible refine keeps_ite ?_ ?_
    | with_reducible refine keepsN_ite ?_ ?_
    | with_reducible apply feedReads_keeps
    | with_reducible apply wr_keeps
    | split

theorem execFeedReconnect_keeps (h : Keeps q s) : KeepsN q (execFeedReconnect a1 a2 s) := by
  unfold execFeedReconnect
  repeat' first
    | with_reducible assumption
    | with_reducible refine keepsN_next ?_
    | with_reducible refine keeps_ite ?_ ?_
    | with_reducible refine keepsN_ite ?_ ?_
    | with_reducible apply feedReads_keeps
    | split

theorem execPowerFailWarning_keeps (h : Keeps q s) (hq : q.2.2 = none) : KeepsN q (execPowerFailWarning a1 s) := by
  unfold execPowerFailWarning
  repeat' first
    | with_reducible assumption
    | with_reducible refine keepsN_next ?_
    | (extract_lets +onlyGivenNames y; with_reducible refine keeps_cut (s := y) ?_ ?_; unfold y; clear y; rotate_left; intro hy; clear_value y; revert y; intros)
    | with_reducible refine keeps_upd (by with_reducible assumption)
    | (extract_lets +onlyGivenNames y; clear_value y; revert y; intros)
    | with_reducible refine keeps_ite ?_ ?_
    | with_reducible refine keepsN_ite ?_ ?_
    | with_reducible apply journal_keeps
    | with_reducible apply inc_keeps
    | with_reducible apply wr_keeps
    | with_reducible apply flushJournal_keeps
    | with_reducible apply dgWarn_keeps
    | with_reducible apply metSplit_keeps
    | with_reducible apply evalTrips_keeps
    | split
    | with_reducible refine keeps_upd ?_

theorem execPowerFailWarningClear_keeps (h : Keeps q s) : KeepsN q (execPowerFailWarningClear s) := by
  unfold execPowerFailWarningClear
  repeat' first
    | with_reducible assumption
    | with_reducible refine keepsN_next ?_
    | (extract_lets +onlyGivenNames y; with_reducible refine keeps_cut (s := y) ?_ ?_; unfold y; clear y; rotate_left; intro hy; clear_value y; revert y; intros)
    | with_reducible refine keeps_upd (by with_reducible assumption)
    | (extract_lets +onlyGivenNames y; clear_value y; revert y; intros)
    | with_reducible refine keeps_ite ?_ ?_
    | with_reducible refine keepsN_ite ?_ ?_
    | with_reducible apply evalTrips_keeps
    | with_reducible apply wr_keeps
    | with_reducible apply journal_keeps
    | with_reducible apply zeroiseRest_keeps
    | with_reducible apply dgUpdate_keeps
    | with_reducible apply metWarnClear_keeps
    | split
    | with_reducible refine keeps_upd ?_

theorem execLatticeStop_keeps (h : Keeps q s) : KeepsN q (execLatticeStop s) := by
  unfold execLatticeStop
  repeat' first
    | with_reducible assumption
    | with_reducible refine keepsN_next ?_
    | (extract_lets +onlyGivenNames y; with_reducible refine keeps_cut (s := y) ?_ ?_; unfold y; clear y; rotate_left; intro hy; clear_value y; revert y; intros)
    | with_reducible refine keeps_upd (by with_reducible assumption)
    | (extract_lets +onlyGivenNames y; clear_value y; revert y; intros)
    | with_reducible refine keeps_ite ?_ ?_
    | with_reducible refine keepsN_ite ?_ ?_
    | with_reducible apply frameTick_keeps
    | with_reducible apply powerStop_keeps
    | with_reducible apply toFrc_keeps
    | split
    | with_reducible refine keeps_fst (by with_reducible assumption) ?_
    | with_reducible refine keeps_upd ?_

theorem execHoldUpEnd_keeps (h : Keeps q s) : KeepsN q (execHoldUpEnd s) := by
  unfold execHoldUpEnd
  repeat' first
    | with_reducible assumption
    | with_reducible refine keepsN_next ?_
    | (extract_lets +onlyGivenNames y; with_reducible refine keeps_cut (s := y) ?_ ?_; unfold y; clear y; rotate_left; intro hy; clear_value y; revert y; intros)
    | with_reducible refine keeps_upd (by with_reducible assumption)
    | (extract_lets +onlyGivenNames y; clear_value y; revert y; intros)
    | with_reducible refine keeps_ite ?_ ?_
    | with_reducible refine keepsN_ite ?_ ?_
    | with_reducible apply powerStop_keeps
    | with_reducible apply closeSession_keeps
    | with_reducible apply wr_keeps
    | with_reducible apply driveAll_keeps
    | with_reducible apply evalTrips_keeps
    | with_reducible refine keeps_foldl ?_ (fun _ _ hs => ?_)
    | intro _ _ hs
    | intro _ hs
    | intro hs
    | split
    | with_reducible refine keeps_fst (by with_reducible assumption) ?_
    | with_reducible refine keeps_upd ?_

theorem faultHalt_keeps (h : Keeps q s) : Keeps q (State.faultHalt s a1) := by
  unfold State.faultHalt
  repeat' first
    | with_reducible assumption
    | with_reducible refine keeps_ite ?_ ?_
    | with_reducible apply enterHalt_keeps
    | split

theorem execTickLost_keeps (h : Keeps q s) : KeepsN q (execTickLost s) := by
  unfold execTickLost
  repeat' first
    | with_reducible assumption
    | with_reducible refine keepsN_next ?_
    | with_reducible exact keepsN_fault
    | with_reducible apply faultHalt_keeps
    | with_reducible apply inc_keeps
    | with_reducible apply wr_keeps

theorem execOverTemperature_keeps (h : Keeps q s) : KeepsN q (execOverTemperature a1 s) := by
  unfold execOverTemperature
  repeat' first
    | with_reducible assumption
    | with_reducible refine keepsN_next ?_
    | (extract_lets +onlyGivenNames y; with_reducible refine keeps_cut (s := y) ?_ ?_; unfold y; clear y; rotate_left; intro hy; clear_value y; revert y; intros)
    | with_reducible refine keeps_upd (by with_reducible assumption)
    | (extract_lets +onlyGivenNames y; clear_value y; revert y; intros)
    | with_reducible refine keeps_ite ?_ ?_
    | with_reducible refine keepsN_ite ?_ ?_
    | with_reducible exact keepsN_fault
    | with_reducible apply wr_keeps
    | with_reducible apply faultHalt_keeps
    | split
    | with_reducible refine keeps_upd ?_

theorem execRailOutOfRange_keeps (h : Keeps q s) : KeepsN q (execRailOutOfRange s) := by
  unfold execRailOutOfRange
  repeat' first
    | with_reducible assumption
    | with_reducible refine keepsN_next ?_
    | with_reducible exact keepsN_fault
    | with_reducible apply faultHalt_keeps
    | with_reducible apply wr_keeps

theorem execSsTripCmd_keeps (h : Keeps q s) : KeepsN q (execSsTripCmd a1 s) := by
  unfold execSsTripCmd
  repeat' first
    | with_reducible assumption
    | with_reducible refine keepsN_next ?_
    | with_reducible apply evalTrips_keeps

theorem tripReset_keeps (h : Keeps q s) : Keeps q (State.tripReset s a1) := by
  unfold State.tripReset
  repeat' first
    | with_reducible assumption
    | (extract_lets +onlyGivenNames y; with_reducible refine keeps_cut (s := y) ?_ ?_; unfold y; clear y; rotate_left; intro hy; clear_value y; revert y; intros)
    | (extract_lets +onlyGivenNames y; clear_value y; revert y; intros)
    | with_reducible apply evalTrips_keeps
    | with_reducible apply wr_keeps
    | intro _ _ hs
    | intro _ hs
    | intro hs

theorem execSsTripLatchReset_keeps (h : Keeps q s) : KeepsN q (execSsTripLatchReset a1 s) := by
  unfold execSsTripLatchReset
  repeat' first
    | with_reducible assumption
    | with_reducible refine keepsN_next ?_
    | with_reducible apply tripReset_keeps

/-! ### Health -/

theorem hsBusy_keeps (h : Keeps q s) : Keeps q (State.hsBusy s) := by
  unfold State.hsBusy
  repeat' first
    | with_reducible assumption
    | with_reducible refine keeps_ite ?_ ?_
    | with_reducible apply wr_keeps
    | split

theorem hsNote_keeps (h : Keeps q s) : Keeps q (State.hsNote s a1 a2 a3) := by
  unfold State.hsNote
  repeat' first
    | with_reducible assumption
    | (extract_lets +onlyGivenNames y; with_reducible refine keeps_cut (s := y) ?_ ?_; unfold y; clear y; rotate_left; intro hy; clear_value y; revert y; intros)
    | with_reducible refine keeps_upd (by with_reducible assumption)
    | (extract_lets +onlyGivenNames y; clear_value y; revert y; intros)
    | with_reducible apply wr_keeps
    | with_reducible apply hsBusy_keeps
    | with_reducible refine keeps_upd ?_

theorem hsRefuse_keeps (h : Keeps q s) : Keeps q (State.hsRefuse s a1) := by
  unfold State.hsRefuse
  repeat' first
    | with_reducible assumption
    | with_reducible apply wr_keeps

theorem hsDeny_keeps (h : Keeps q s) : Keeps q (State.hsDeny s a1 a2 a3) := by
  unfold State.hsDeny
  repeat' first
    | with_reducible assumption
    | (extract_lets +onlyGivenNames y; with_reducible refine keeps_cut (s := y) ?_ ?_; unfold y; clear y; rotate_left; intro hy; clear_value y; revert y; intros)
    | (extract_lets +onlyGivenNames y; clear_value y; revert y; intros)
    | with_reducible refine keeps_ite ?_ ?_
    | with_reducible apply hsRefuse_keeps
    | with_reducible apply wr_keeps
    | split

theorem hsStart_keeps (h : Keeps q s) : Keeps q (State.hsStart s a1 a2) := by
  unfold State.hsStart
  repeat' first
    | with_reducible assumption
    | (extract_lets +onlyGivenNames y; with_reducible refine keeps_cut (s := y) ?_ ?_; unfold y; clear y; rotate_left; intro hy; clear_value y; revert y; intros)
    | with_reducible refine keeps_upd (by with_reducible assumption)
    | (extract_lets +onlyGivenNames y; clear_value y; revert y; intros)
    | with_reducible refine keeps_ite ?_ ?_
    | with_reducible apply hsDeny_keeps
    | with_reducible apply hsRefuse_keeps
    | with_reducible apply wr_keeps
    | with_reducible apply hsNote_keeps
    | with_reducible apply svRelocOrder_keeps
    | with_reducible apply spareStart_keeps
    | with_reducible apply orderOsc_keeps
    | intro _ _ hs
    | intro _ hs
    | intro hs
    | split
    | with_reducible refine keeps_fst (by with_reducible assumption) ?_
    | with_reducible refine keeps_upd ?_

theorem hsOrder_keeps (h : Keeps q s) : Keeps q (State.hsOrder s a1 a2) := by
  unfold State.hsOrder
  repeat' first
    | with_reducible assumption
    | (extract_lets +onlyGivenNames y; with_reducible refine keeps_cut (s := y) ?_ ?_; unfold y; clear y; rotate_left; intro hy; clear_value y; revert y; intros)
    | with_reducible refine keeps_upd (by with_reducible assumption)
    | (extract_lets +onlyGivenNames y; clear_value y; revert y; intros)
    | with_reducible refine keeps_ite ?_ ?_
    | with_reducible apply hsStart_keeps
    | intro _ _ hs
    | intro _ hs
    | intro hs
    | split
    | with_reducible refine keeps_upd ?_

theorem hsNext_keeps (h : Keeps q s) : Keeps q (State.hsNext s) := by
  unfold State.hsNext
  repeat' first
    | with_reducible assumption
    | (extract_lets +onlyGivenNames y; with_reducible refine keeps_cut (s := y) ?_ ?_; unfold y; clear y; rotate_left; intro hy; clear_value y; revert y; intros)
    | with_reducible refine keeps_upd (by with_reducible assumption)
    | (extract_lets +onlyGivenNames y; clear_value y; revert y; intros)
    | with_reducible refine keeps_ite ?_ ?_
    | with_reducible apply hsOrder_keeps
    | with_reducible refine keeps_foldl ?_ (fun _ _ hs => ?_)
    | intro _ _ hs
    | intro _ hs
    | intro hs
    | split
    | with_reducible refine keeps_upd ?_

theorem execHsSwitchStart_keeps (h : Keeps q s) : KeepsN q (execHsSwitchStart a1 a2 s) := by
  unfold execHsSwitchStart
  repeat' first
    | with_reducible assumption
    | with_reducible refine keepsN_next ?_
    | (extract_lets +onlyGivenNames y; with_reducible refine keeps_cut (s := y) ?_ ?_; unfold y; clear y; rotate_left; intro hy; clear_value y; revert y; intros)
    | (extract_lets +onlyGivenNames y; clear_value y; revert y; intros)
    | with_reducible refine keeps_ite ?_ ?_
    | with_reducible refine keepsN_ite ?_ ?_
    | with_reducible apply wr_keeps
    | with_reducible apply hsOrder_keeps
    | with_reducible apply hsStart_keeps
    | split

theorem hsPoint_keeps (h : Keeps q s) : Keeps q (State.hsPoint s a1) := by
  unfold State.hsPoint
  repeat' first
    | with_reducible assumption
    | (extract_lets +onlyGivenNames y; with_reducible refine keeps_cut (s := y) ?_ ?_; unfold y; clear y; rotate_left; intro hy; clear_value y; revert y; intros)
    | with_reducible refine keeps_upd (by with_reducible assumption)
    | (extract_lets +onlyGivenNames y; clear_value y; revert y; intros)
    | with_reducible refine keeps_ite ?_ ?_
    | with_reducible apply toTick_keeps
    | with_reducible apply toCycle_keeps
    | split
    | with_reducible refine keeps_fst (by with_reducible assumption) ?_
    | with_reducible refine keeps_upd ?_

theorem execSwitchInCommit_keeps (h : Keeps q s) : KeepsN q (execSwitchInCommit a1 s) := by
  unfold execSwitchInCommit
  repeat' first
    | with_reducible assumption
    | with_reducible refine keepsN_next ?_
    | (extract_lets +onlyGivenNames y; with_reducible refine keeps_cut (s := y) ?_ ?_; unfold y; clear y; rotate_left; intro hy; clear_value y; revert y; intros)
    | with_reducible refine keeps_upd (by with_reducible assumption)
    | (extract_lets +onlyGivenNames y; clear_value y; revert y; intros)
    | with_reducible refine keeps_ite ?_ ?_
    | with_reducible refine keepsN_ite ?_ ?_
    | with_reducible apply hsPoint_keeps
    | with_reducible apply hsUse_keeps
    | with_reducible apply hsNext_keeps
    | with_reducible apply journal_keeps
    | with_reducible apply wr_keeps
    | with_reducible apply hsBusy_keeps
    | intro _ _ hs
    | intro _ hs
    | intro hs
    | split
    | with_reducible refine keeps_fst (by with_reducible assumption) ?_
    | with_reducible refine keeps_upd ?_

theorem execRowSpareCopy_keeps (h : Keeps q s) : KeepsN q (execRowSpareCopy a1 s) := by
  unfold execRowSpareCopy
  repeat' first
    | with_reducible assumption
    | with_reducible refine keepsN_next ?_
    | (extract_lets +onlyGivenNames y; with_reducible refine keeps_cut (s := y) ?_ ?_; unfold y; clear y; rotate_left; intro hy; clear_value y; revert y; intros)
    | with_reducible refine keeps_upd (by with_reducible assumption)
    | (extract_lets +onlyGivenNames y; clear_value y; revert y; intros)
    | with_reducible refine keeps_ite ?_ ?_
    | with_reducible refine keepsN_ite ?_ ?_
    | with_reducible apply toCycle_keeps
    | with_reducible apply wr_keeps
    | intro _ _ hs
    | intro _ hs
    | intro hs
    | split
    | with_reducible refine keeps_upd ?_

theorem hsCancel_keeps (h : Keeps q s) : Keeps q (State.hsCancel s a1) := by
  unfold State.hsCancel
  repeat' first
    | with_reducible assumption
    | (extract_lets +onlyGivenNames y; with_reducible refine keeps_cut (s := y) ?_ ?_; unfold y; clear y; rotate_left; intro hy; clear_value y; revert y; intros)
    | (extract_lets +onlyGivenNames y; with_reducible refine keeps_cutF (f := y) ?_ ?_; unfold y; clear y; rotate_left; intro hy; clear_value y; revert y; intro fF hF)
    | (extract_lets +onlyGivenNames y; with_reducible refine keeps_tbid y ?_; revert y; intro _)
    | (with_reducible refine keeps_tb ?_; with_reducible assumption)
    | (with_reducible refine keeps_tb2 (t := s) ?_ ?_ <;> with_reducible assumption)
    | with_reducible refine keeps_upd (by with_reducible assumption)
    | (extract_lets +onlyGivenNames y; clear_value y; revert y; intros)
    | with_reducible refine keeps_ite ?_ ?_
    | with_reducible apply hF
    | with_reducible apply wr_keeps
    | with_reducible apply hsBusy_keeps
    | with_reducible apply wake_keeps
    | with_reducible apply spareCancel_keeps
    | intro _ _ hs
    | intro _ hs
    | intro hs
    | split
    | with_reducible refine keeps_fst (by with_reducible assumption) ?_
    | with_reducible refine keeps_upd ?_

theorem execHsSwitchCancel_keeps (h : Keeps q s) : KeepsN q (execHsSwitchCancel s) := by
  unfold execHsSwitchCancel
  repeat' first
    | with_reducible assumption
    | with_reducible refine keepsN_next ?_
    | with_reducible apply hsCancel_keeps

theorem wearAct_keeps (h : Keeps q s) : Keeps q (State.wearAct s a1 a2) := by
  unfold State.wearAct
  repeat' first
    | with_reducible assumption
    | (extract_lets +onlyGivenNames y; with_reducible refine keeps_cut (s := y) ?_ ?_; unfold y; clear y; rotate_left; intro hy; clear_value y; revert y; intros)
    | (extract_lets +onlyGivenNames y; clear_value y; revert y; intros)
    | with_reducible refine keeps_ite ?_ ?_
    | with_reducible apply journal_keeps
    | with_reducible apply hsOrder_keeps
    | split

theorem crossChecked_keeps (h : Keeps q s) : Keeps q (State.crossChecked s a1 a2 a3) := by
  unfold State.crossChecked
  repeat' first
    | with_reducible assumption
    | (extract_lets +onlyGivenNames y; with_reducible refine keeps_cut (s := y) ?_ ?_; unfold y; clear y; rotate_left; intro hy; clear_value y; revert y; intros)
    | with_reducible refine keeps_upd (by with_reducible assumption)
    | (extract_lets +onlyGivenNames y; clear_value y; revert y; intros)
    | with_reducible refine keeps_ite ?_ ?_
    | with_reducible apply wr_keeps
    | with_reducible apply updChan_keeps
    | with_reducible apply wearAct_keeps
    | intro _ _ hs
    | intro _ hs
    | intro hs
    | split
    | with_reducible refine keeps_upd ?_

theorem execCrossCheckVisit_keeps (h : Keeps q s) : KeepsN q (execCrossCheckVisit a1 a2 a3 s) := by
  unfold execCrossCheckVisit
  repeat' first
    | with_reducible assumption
    | with_reducible refine keepsN_next ?_
    | (extract_lets +onlyGivenNames y; with_reducible refine keeps_cut (s := y) ?_ ?_; unfold y; clear y; rotate_left; intro hy; clear_value y; revert y; intros)
    | with_reducible refine keeps_upd (by with_reducible assumption)
    | (extract_lets +onlyGivenNames y; clear_value y; revert y; intros)
    | with_reducible refine keeps_ite ?_ ?_
    | with_reducible refine keepsN_ite ?_ ?_
    | with_reducible apply crossChecked_keeps
    | with_reducible apply wr_keeps
    | with_reducible apply updGroup_keeps
    | intro _ _ hs
    | intro _ hs
    | intro hs
    | split
    | with_reducible refine keeps_upd ?_

theorem execWearEvaluation_keeps (h : Keeps q s) : KeepsN q (execWearEvaluation a1 a2 a3 a4 a5 s) := by
  unfold execWearEvaluation
  repeat' first
    | with_reducible assumption
    | with_reducible refine keepsN_next ?_
    | (extract_lets +onlyGivenNames y; with_reducible refine keeps_cut (s := y) ?_ ?_; unfold y; clear y; rotate_left; intro hy; clear_value y; revert y; intros)
    | with_reducible refine keeps_upd (by with_reducible assumption)
    | (extract_lets +onlyGivenNames y; clear_value y; revert y; intros)
    | with_reducible refine keeps_ite ?_ ?_
    | with_reducible refine keepsN_ite ?_ ?_
    | with_reducible apply journal_keeps
    | with_reducible apply wr_keeps
    | with_reducible apply wearAct_keeps
    | intro _ _ hs
    | intro _ hs
    | intro hs
    | split
    | with_reducible refine keeps_upd ?_

theorem execJournalFlush_keeps (h : Keeps q s) : KeepsN q (execJournalFlush s) := by
  unfold execJournalFlush
  repeat' first
    | with_reducible assumption
    | with_reducible refine keepsN_next ?_
    | (extract_lets +onlyGivenNames y; with_reducible refine keeps_cut (s := y) ?_ ?_; unfold y; clear y; rotate_left; intro hy; clear_value y; revert y; intros)
    | (extract_lets +onlyGivenNames y; clear_value y; revert y; intros)
    | with_reducible refine keeps_ite ?_ ?_
    | with_reducible refine keepsN_ite ?_ ?_
    | with_reducible apply flushJournal_keeps
    | intro _ _ hs
    | intro _ hs
    | intro hs
    | split

theorem hsClear_keeps (h : Keeps q s) : Keeps q (State.hsClear s a1 a2) := by
  unfold State.hsClear
  repeat' first
    | with_reducible assumption
    | with_reducible refine keeps_ite ?_ ?_
    | with_reducible apply wr_keeps
    | with_reducible refine keeps_foldl ?_ (fun _ _ hs => ?_)
    | intro _ _ hs
    | intro _ hs
    | intro hs
    | split

theorem execHsClearGo_keeps (h : Keeps q s) : KeepsN q (execHsClearGo a1 a2 s) := by
  unfold execHsClearGo
  repeat' first
    | with_reducible assumption
    | with_reducible refine keepsN_next ?_
    | (extract_lets +onlyGivenNames y; with_reducible refine keeps_cut (s := y) ?_ ?_; unfold y; clear y; rotate_left; intro hy; clear_value y; revert y; intros)
    | (extract_lets +onlyGivenNames y; clear_value y; revert y; intros)
    | with_reducible apply wr_keeps
    | with_reducible apply hsClear_keeps

/-! ### Trust -/

theorem tamperAct_keeps (h : Keeps q s) : Keeps q (State.tamperAct s a1) := by
  unfold State.tamperAct
  repeat' first
    | with_reducible assumption
    | (extract_lets +onlyGivenNames y; with_reducible refine keeps_cut (s := y) ?_ ?_; unfold y; clear y; rotate_left; intro hy; clear_value y; revert y; intros)
    | with_reducible refine keeps_upd (by with_reducible assumption)
    | (extract_lets +onlyGivenNames y; clear_value y; revert y; intros)
    | with_reducible refine keeps_ite ?_ ?_
    | with_reducible apply wr_keeps
    | with_reducible apply journal_keeps
    | with_reducible apply notify_keeps
    | with_reducible apply zeroise_keeps
    | split
    | with_reducible refine keeps_fst (by with_reducible assumption) ?_
    | with_reducible refine keeps_upd ?_

theorem execTamperInput_keeps (h : Keeps q s) : KeepsN q (execTamperInput a1 a2 s) := by
  unfold execTamperInput
  repeat' first
    | with_reducible assumption
    | with_reducible refine keepsN_next ?_
    | (extract_lets +onlyGivenNames y; with_reducible refine keeps_cut (s := y) ?_ ?_; unfold y; clear y; rotate_left; intro hy; clear_value y; revert y; intros)
    | with_reducible refine keeps_upd (by with_reducible assumption)
    | (extract_lets +onlyGivenNames y; clear_value y; revert y; intros)
    | with_reducible refine keeps_ite ?_ ?_
    | with_reducible refine keepsN_ite ?_ ?_
    | with_reducible apply wr_keeps
    | with_reducible apply tamperAct_keeps
    | split
    | with_reducible refine keeps_upd ?_

theorem tlsFail_keeps (h : Keeps q s) : Keeps q (State.tlsFail s a1) := by
  unfold State.tlsFail
  repeat' first
    | with_reducible assumption
    | (extract_lets +onlyGivenNames y; with_reducible refine keeps_cut (s := y) ?_ ?_; unfold y; clear y; rotate_left; intro hy; clear_value y; revert y; intros)
    | with_reducible refine keeps_upd (by with_reducible assumption)
    | (extract_lets +onlyGivenNames y; clear_value y; revert y; intros)
    | with_reducible refine keeps_ite ?_ ?_
    | with_reducible apply journal_keeps
    | intro _ _ hs
    | intro _ hs
    | intro hs
    | split
    | with_reducible refine keeps_upd ?_

theorem peerOpen_keeps (h : Keeps q s) : Keeps q (State.peerOpen s a1 a2) := by
  unfold State.peerOpen
  repeat' first
    | with_reducible assumption
    | (extract_lets +onlyGivenNames y; with_reducible refine keeps_cut (s := y) ?_ ?_; unfold y; clear y; rotate_left; intro hy; clear_value y; revert y; intros)
    | with_reducible refine keeps_upd (by with_reducible assumption)
    | (extract_lets +onlyGivenNames y; clear_value y; revert y; intros)
    | with_reducible refine keeps_ite ?_ ?_
    | with_reducible apply emit_keeps
    | intro _ _ hs
    | intro _ hs
    | intro hs
    | split
    | with_reducible refine keeps_fst (by with_reducible assumption) ?_
    | with_reducible refine keeps_upd ?_

theorem execSessionHandshake_keeps (h : Keeps q s) : KeepsN q (execSessionHandshake a1 s) := by
  unfold execSessionHandshake
  repeat' first
    | with_reducible assumption
    | with_reducible refine keepsN_next ?_
    | (extract_lets +onlyGivenNames y; with_reducible refine keeps_cut (s := y) ?_ ?_; unfold y; clear y; rotate_left; intro hy; clear_value y; revert y; intros)
    | with_reducible refine keeps_upd (by with_reducible assumption)
    | (extract_lets +onlyGivenNames y; clear_value y; revert y; intros)
    | with_reducible refine keeps_ite ?_ ?_
    | with_reducible refine keepsN_ite ?_ ?_
    | with_reducible apply peerOpen_keeps
    | with_reducible apply wr_keeps
    | with_reducible apply notice_keeps
    | with_reducible apply tlsFail_keeps
    | intro _ _ hs
    | intro _ hs
    | intro hs
    | split
    | with_reducible refine keeps_fst (by with_reducible assumption) ?_
    | with_reducible refine keeps_upd ?_

theorem execSessionIdleTimeout_keeps (h : Keeps q s) : KeepsN q (execSessionIdleTimeout a1 s) := by
  unfold execSessionIdleTimeout
  repeat' first
    | with_reducible assumption
    | with_reducible refine keepsN_next ?_
    | (extract_lets +onlyGivenNames y; with_reducible refine keeps_cut (s := y) ?_ ?_; unfold y; clear y; rotate_left; intro hy; clear_value y; revert y; intros)
    | with_reducible refine keeps_upd (by with_reducible assumption)
    | (extract_lets +onlyGivenNames y; clear_value y; revert y; intros)
    | with_reducible refine keeps_ite ?_ ?_
    | with_reducible refine keepsN_ite ?_ ?_
    | with_reducible apply notice_keeps
    | split
    | with_reducible refine keeps_fst (by with_reducible assumption) ?_
    | with_reducible refine keeps_upd ?_

theorem execTlsKeyUpdate_keeps (h : Keeps q s) : KeepsN q (execTlsKeyUpdate a1 s) := by
  unfold execTlsKeyUpdate
  repeat' first
    | with_reducible assumption
    | with_reducible refine keepsN_next ?_
    | (extract_lets +onlyGivenNames y; with_reducible refine keeps_cut (s := y) ?_ ?_; unfold y; clear y; rotate_left; intro hy; clear_value y; revert y; intros)
    | with_reducible refine keeps_upd (by with_reducible assumption)
    | (extract_lets +onlyGivenNames y; clear_value y; revert y; intros)
    | with_reducible refine keeps_ite ?_ ?_
    | with_reducible refine keepsN_ite ?_ ?_
    | with_reducible apply updSession_keeps
    | intro _ _ hs
    | intro _ hs
    | intro hs
    | split
    | with_reducible refine keeps_fst (by with_reducible assumption) ?_
    | with_reducible refine keeps_upd ?_

theorem execMalformedHeader_keeps (h : Keeps q s) : KeepsN q (execMalformedHeader a1 s) := by
  unfold execMalformedHeader
  repeat' first
    | with_reducible assumption
    | with_reducible refine keepsN_next ?_
    | with_reducible refine keeps_ite ?_ ?_
    | with_reducible refine keepsN_ite ?_ ?_
    | with_reducible apply notice_keeps
    | split

theorem execUndefinedOpcode_keeps (h : Keeps q s) : KeepsN q (execUndefinedOpcode a1 a2 s) := by
  unfold execUndefinedOpcode
  repeat' first
    | with_reducible assumption
    | with_reducible refine keepsN_next ?_
    | (extract_lets +onlyGivenNames y; with_reducible refine keeps_cut (s := y) ?_ ?_; unfold y; clear y; rotate_left; intro hy; clear_value y; revert y; intros)
    | (extract_lets +onlyGivenNames y; clear_value y; revert y; intros)
    | with_reducible apply command_keeps
    | with_reducible apply reply_keeps
    | intro _ _ hs
    | intro _ hs
    | intro hs

theorem execConnectionClosed_keeps (h : Keeps q s) : KeepsN q (execConnectionClosed a1 a2 s) := by
  unfold execConnectionClosed
  repeat' first
    | with_reducible assumption
    | with_reducible refine keepsN_next ?_
    | (extract_lets +onlyGivenNames y; with_reducible refine keeps_cut (s := y) ?_ ?_; unfold y; clear y; rotate_left; intro hy; clear_value y; revert y; intros)
    | with_reducible refine keeps_upd (by with_reducible assumption)
    | (extract_lets +onlyGivenNames y; clear_value y; revert y; intros)
    | with_reducible refine keeps_ite ?_ ?_
    | with_reducible refine keepsN_ite ?_ ?_
    | with_reducible apply closeSession_keeps
    | intro _ _ hs
    | intro _ hs
    | intro hs
    | split
    | with_reducible refine keeps_fst (by with_reducible assumption) ?_
    | with_reducible refine keeps_upd ?_

theorem execPeerSessionKeyExpiry_keeps (h : Keeps q s) : KeepsN q (execPeerSessionKeyExpiry a1 s) := by
  unfold execPeerSessionKeyExpiry
  repeat' first
    | with_reducible assumption
    | with_reducible refine keepsN_next ?_
    | (extract_lets +onlyGivenNames y; with_reducible refine keeps_cut (s := y) ?_ ?_; unfold y; clear y; rotate_left; intro hy; clear_value y; revert y; intros)
    | with_reducible refine keeps_upd (by with_reducible assumption)
    | (extract_lets +onlyGivenNames y; clear_value y; revert y; intros)
    | with_reducible refine keeps_ite ?_ ?_
    | with_reducible refine keepsN_ite ?_ ?_
    | with_reducible apply pairLinks_keeps
    | with_reducible apply wr_keeps
    | with_reducible apply updSec_keeps
    | intro _ _ hs
    | intro _ hs
    | intro hs
    | split
    | with_reducible refine keeps_upd ?_

theorem execIdCert_keeps (h : Keeps q s) : KeepsN q (execIdCert a1 s) := by
  unfold execIdCert
  repeat' first
    | with_reducible assumption
    | with_reducible refine keepsN_next ?_
    | (extract_lets +onlyGivenNames y; with_reducible refine keeps_cut (s := y) ?_ ?_; unfold y; clear y; rotate_left; intro hy; clear_value y; revert y; intros)
    | (extract_lets +onlyGivenNames y; clear_value y; revert y; intros)
    | with_reducible apply command_keeps
    | with_reducible apply reply_keeps
    | intro _ _ hs
    | intro _ hs
    | intro hs

theorem execOwnTake_keeps (h : Keeps q s) : KeepsN q (execOwnTake a1 a2 a3 a4 s) := by
  unfold execOwnTake
  repeat' first
    | with_reducible assumption
    | with_reducible refine keepsN_next ?_
    | (extract_lets +onlyGivenNames y; with_reducible refine keeps_cut (s := y) ?_ ?_; unfold y; clear y; rotate_left; intro hy; clear_value y; revert y; intros)
    | with_reducible refine keeps_upd (by with_reducible assumption)
    | (extract_lets +onlyGivenNames y; clear_value y; revert y; intros)
    | with_reducible refine keeps_ite ?_ ?_
    | with_reducible refine keepsN_ite ?_ ?_
    | with_reducible apply command_keeps
    | with_reducible apply reply_keeps
    | with_reducible apply wr_keeps
    | with_reducible apply seShow_keeps
    | intro _ _ hs
    | intro _ hs
    | intro hs
    | split
    | with_reducible refine keeps_fst (by with_reducible assumption) ?_
    | with_reducible refine keeps_upd ?_

theorem execOwnRelease_keeps (h : Keeps q s) : KeepsN q (execOwnRelease a1 a2 s) := by
  unfold execOwnRelease
  repeat' first
    | with_reducible assumption
    | with_reducible refine keepsN_next ?_
    | (extract_lets +onlyGivenNames y; with_reducible refine keeps_cut (s := y) ?_ ?_; unfold y; clear y; rotate_left; intro hy; clear_value y; revert y; intros)
    | with_reducible refine keeps_upd (by with_reducible assumption)
    | (extract_lets +onlyGivenNames y; clear_value y; revert y; intros)
    | with_reducible apply command_keeps
    | with_reducible apply reply_keeps
    | intro _ _ hs
    | intro _ hs
    | intro hs
    | with_reducible refine keeps_upd ?_

theorem execCredRevoke_keeps (h : Keeps q s) : KeepsN q (execCredRevoke a1 a2 s) := by
  unfold execCredRevoke
  repeat' first
    | with_reducible assumption
    | with_reducible refine keepsN_next ?_
    | (extract_lets +onlyGivenNames y; with_reducible refine keeps_cut (s := y) ?_ ?_; unfold y; clear y; rotate_left; intro hy; clear_value y; revert y; intros)
    | with_reducible refine keeps_upd (by with_reducible assumption)
    | (extract_lets +onlyGivenNames y; clear_value y; revert y; intros)
    | with_reducible refine keeps_ite ?_ ?_
    | with_reducible refine keepsN_ite ?_ ?_
    | with_reducible apply command_keeps
    | with_reducible apply reply_keeps
    | with_reducible apply notice_keeps
    | with_reducible refine keeps_foldl ?_ (fun _ _ hs => ?_)
    | intro _ _ hs
    | intro _ hs
    | intro hs
    | split
    | with_reducible refine keeps_upd ?_

theorem execCredUnrevoke_keeps (h : Keeps q s) : KeepsN q (execCredUnrevoke a1 a2 s) := by
  unfold execCredUnrevoke
  repeat' first
    | with_reducible assumption
    | with_reducible refine keepsN_next ?_
    | (extract_lets +onlyGivenNames y; with_reducible refine keeps_cut (s := y) ?_ ?_; unfold y; clear y; rotate_left; intro hy; clear_value y; revert y; intros)
    | with_reducible refine keeps_upd (by with_reducible assumption)
    | (extract_lets +onlyGivenNames y; clear_value y; revert y; intros)
    | with_reducible apply command_keeps
    | with_reducible apply reply_keeps
    | intro _ _ hs
    | intro _ hs
    | intro hs
    | with_reducible refine keeps_upd ?_

theorem execCredList_keeps (h : Keeps q s) : KeepsN q (execCredList a1 s) := by
  unfold execCredList
  repeat' first
    | with_reducible assumption
    | with_reducible refine keepsN_next ?_
    | (extract_lets +onlyGivenNames y; with_reducible refine keeps_cut (s := y) ?_ ?_; unfold y; clear y; rotate_left; intro hy; clear_value y; revert y; intros)
    | (extract_lets +onlyGivenNames y; clear_value y; revert y; intros)
    | with_reducible apply command_keeps
    | with_reducible apply reply_keeps
    | intro _ _ hs
    | intro _ hs
    | intro hs

theorem execMemberCertSet_keeps (h : Keeps q s) : KeepsN q (execMemberCertSet a1 a2 a3 s) := by
  unfold execMemberCertSet
  repeat' first
    | with_reducible assumption
    | with_reducible refine keepsN_next ?_
    | (extract_lets +onlyGivenNames y; with_reducible refine keeps_cut (s := y) ?_ ?_; unfold y; clear y; rotate_left; intro hy; clear_value y; revert y; intros)
    | with_reducible refine keeps_upd (by with_reducible assumption)
    | (extract_lets +onlyGivenNames y; clear_value y; revert y; intros)
    | with_reducible refine keeps_ite ?_ ?_
    | with_reducible refine keepsN_ite ?_ ?_
    | with_reducible apply command_keeps
    | with_reducible apply reply_keeps
    | with_reducible apply seShow_keeps
    | intro _ _ hs
    | intro _ hs
    | intro hs
    | split
    | with_reducible refine keeps_upd ?_

theorem execPeerBind_keeps (h : Keeps q s) : KeepsN q (execPeerBind a1 a2 s) := by
  unfold execPeerBind
  repeat' first
    | with_reducible assumption
    | with_reducible refine keepsN_next ?_
    | (extract_lets +onlyGivenNames y; with_reducible refine keeps_cut (s := y) ?_ ?_; unfold y; clear y; rotate_left; intro hy; clear_value y; revert y; intros)
    | with_reducible refine keeps_upd (by with_reducible assumption)
    | (extract_lets +onlyGivenNames y; clear_value y; revert y; intros)
    | with_reducible refine keeps_ite ?_ ?_
    | with_reducible refine keepsN_ite ?_ ?_
    | with_reducible apply command_keeps
    | with_reducible apply reply_keeps
    | with_reducible apply seShow_keeps
    | intro _ _ hs
    | intro _ hs
    | intro hs
    | split
    | with_reducible refine keeps_upd ?_

theorem execFloorSet_keeps (h : Keeps q s) : KeepsN q (execFloorSet a1 a2 a3 a4 s) := by
  unfold execFloorSet
  repeat' first
    | with_reducible assumption
    | with_reducible refine keepsN_next ?_
    | (extract_lets +onlyGivenNames y; with_reducible refine keeps_cut (s := y) ?_ ?_; unfold y; clear y; rotate_left; intro hy; clear_value y; revert y; intros)
    | with_reducible refine keeps_upd (by with_reducible assumption)
    | (extract_lets +onlyGivenNames y; clear_value y; revert y; intros)
    | with_reducible refine keeps_ite ?_ ?_
    | with_reducible refine keepsN_ite ?_ ?_
    | with_reducible apply command_keeps
    | with_reducible apply reply_keeps
    | intro _ _ hs
    | intro _ hs
    | intro hs
    | split
    | with_reducible refine keeps_fst (by with_reducible assumption) ?_
    | with_reducible refine keeps_upd ?_

theorem execFloorRead_keeps (h : Keeps q s) : KeepsN q (execFloorRead a1 s) := by
  unfold execFloorRead
  repeat' first
    | with_reducible assumption
    | with_reducible refine keepsN_next ?_
    | (extract_lets +onlyGivenNames y; with_reducible refine keeps_cut (s := y) ?_ ?_; unfold y; clear y; rotate_left; intro hy; clear_value y; revert y; intros)
    | (extract_lets +onlyGivenNames y; clear_value y; revert y; intros)
    | with_reducible apply command_keeps
    | with_reducible apply reply_keeps
    | intro _ _ hs
    | intro _ hs
    | intro hs

theorem execZeroise_keeps (h : Keeps q s) : KeepsN q (execZeroise a1 a2 a3 s) := by
  unfold execZeroise
  repeat' first
    | with_reducible assumption
    | with_reducible refine keepsN_next ?_
    | (extract_lets +onlyGivenNames y; with_reducible refine keeps_cut (s := y) ?_ ?_; unfold y; clear y; rotate_left; intro hy; clear_value y; revert y; intros)
    | (extract_lets +onlyGivenNames y; clear_value y; revert y; intros)
    | with_reducible refine keeps_ite ?_ ?_
    | with_reducible refine keepsN_ite ?_ ?_
    | with_reducible apply command_keeps
    | with_reducible apply reply_keeps
    | with_reducible apply zeroise_keeps
    | intro _ _ hs
    | intro _ hs
    | intro hs
    | split

theorem execTamperCfg_keeps (h : Keeps q s) : KeepsN q (execTamperCfg a1 a2 s) := by
  unfold execTamperCfg
  repeat' first
    | with_reducible assumption
    | with_reducible refine keepsN_next ?_
    | (extract_lets +onlyGivenNames y; with_reducible refine keeps_cut (s := y) ?_ ?_; unfold y; clear y; rotate_left; intro hy; clear_value y; revert y; intros)
    | (extract_lets +onlyGivenNames y; clear_value y; revert y; intros)
    | with_reducible apply command_keeps
    | with_reducible apply reply_keeps
    | with_reducible apply wr_keeps
    | intro _ _ hs
    | intro _ hs
    | intro hs

theorem execTamperRead_keeps (h : Keeps q s) : KeepsN q (execTamperRead a1 s) := by
  unfold execTamperRead
  repeat' first
    | with_reducible assumption
    | with_reducible refine keepsN_next ?_
    | (extract_lets +onlyGivenNames y; with_reducible refine keeps_cut (s := y) ?_ ?_; unfold y; clear y; rotate_left; intro hy; clear_value y; revert y; intros)
    | (extract_lets +onlyGivenNames y; clear_value y; revert y; intros)
    | with_reducible apply command_keeps
    | with_reducible apply reply_keeps
    | intro _ _ hs
    | intro _ hs
    | intro hs

theorem execSeMboxGo_keeps (h : Keeps q s) : KeepsN q (execSeMboxGo s) := by
  unfold execSeMboxGo
  repeat' first
    | with_reducible assumption
    | with_reducible refine keepsN_next ?_
    | with_reducible refine keeps_ite ?_ ?_
    | with_reducible refine keepsN_ite ?_ ?_
    | with_reducible apply wr_keeps
    | split

theorem execSeReplyReady_keeps (h : Keeps q s) : KeepsN q (execSeReplyReady s) := by
  unfold execSeReplyReady
  repeat' first
    | with_reducible assumption
    | with_reducible refine keepsN_next ?_
    | (extract_lets +onlyGivenNames y; with_reducible refine keeps_cut (s := y) ?_ ?_; unfold y; clear y; rotate_left; intro hy; clear_value y; revert y; intros)
    | (extract_lets +onlyGivenNames y; clear_value y; revert y; intros)
    | with_reducible refine keeps_ite ?_ ?_
    | with_reducible refine keepsN_ite ?_ ?_
    | with_reducible apply nextFree_keeps
    | with_reducible apply wr_keeps
    | with_reducible refine keeps_foldl ?_ (fun _ _ hs => ?_)
    | intro _ _ hs
    | intro _ hs
    | intro hs
    | split

/-! ### Resets -/

theorem resetRows_keeps (h : Keeps q s) : Keeps q (State.resetRows s a1) := by
  refine ⟨fun hp => ?_, h.2⟩
  obtain ⟨h1, h2, h3, h4, h5⟩ := h.1 hp
  exact ⟨h1, filter_sorted _ h2, h3, h4, h5⟩

theorem resetTxb_keeps (h : Keeps q s) : Keeps q (State.resetTxb s) := by
  unfold State.resetTxb
  repeat' first
    | with_reducible assumption
    | with_reducible apply wr_keeps
    | with_reducible refine keeps_foldl ?_ (fun _ _ hs => ?_)
    | intro _ _ hs
    | intro _ hs
    | intro hs

theorem latticeReset_keeps (h : Keeps q s) : Keeps q (State.latticeReset s) := by
  unfold State.latticeReset
  repeat' first
    | with_reducible assumption
    | (extract_lets +onlyGivenNames y; with_reducible refine keeps_cut (s := y) ?_ ?_; unfold y; clear y; rotate_left; intro hy; clear_value y; revert y; intros)
    | (extract_lets +onlyGivenNames y; with_reducible refine keeps_tbid y ?_; revert y; intro _)
    | (with_reducible refine keeps_tb ?_; with_reducible assumption)
    | (with_reducible refine keeps_tb2 (t := s) ?_ ?_ <;> with_reducible assumption)
    | with_reducible refine keeps_upd (by with_reducible assumption)
    | (extract_lets +onlyGivenNames y; clear_value y; revert y; intros)
    | with_reducible refine keeps_ite ?_ ?_
    | with_reducible apply commitRecord_keeps
    | with_reducible apply canHalt_keeps
    | with_reducible apply wr_keeps
    | with_reducible apply resetRows_keeps
    | with_reducible apply dropSwitch_keeps
    | with_reducible apply abandonSwitch_keeps
    | with_reducible apply wake_keeps
    | with_reducible apply stopWaits_keeps
    | with_reducible refine keeps_foldl ?_ (fun _ _ hs => ?_)
    | intro _ _ hs
    | intro _ hs
    | intro hs
    | split
    | with_reducible refine keeps_upd ?_

theorem lrst_keeps (h : Keeps q s) : Keeps q (State.lrst s) := by
  unfold State.lrst
  repeat' first
    | with_reducible assumption
    | (extract_lets +onlyGivenNames y; with_reducible refine keeps_cut (s := y) ?_ ?_; unfold y; clear y; rotate_left; intro hy; clear_value y; revert y; intros)
    | with_reducible refine keeps_upd (by with_reducible assumption)
    | (extract_lets +onlyGivenNames y; clear_value y; revert y; intros)
    | with_reducible refine keeps_ite ?_ ?_
    | with_reducible apply safeLine_keeps
    | with_reducible apply exitRun_keeps
    | with_reducible apply latticeReset_keeps
    | with_reducible apply evalTrips_keeps
    | with_reducible apply retBusy_keeps
    | split
    | with_reducible refine keeps_fst (by with_reducible assumption) ?_
    | with_reducible refine keeps_upd ?_

theorem execLatticeReset_keeps (h : Keeps q s) : KeepsN q (execLatticeReset s) := by
  unfold execLatticeReset
  repeat' first
    | with_reducible assumption
    | with_reducible refine keepsN_next ?_
    | with_reducible apply lrst_keeps

theorem execTtRunLrst_keeps (h : Keeps q s) : KeepsN q (execTtRunLrst s) := by
  unfold execTtRunLrst
  repeat' first
    | with_reducible assumption
    | with_reducible refine keepsN_next ?_
    | with_reducible apply lrst_keeps

theorem restart_keeps (h : Keeps q s) : Keeps q (State.restart s a1) := by
  have h' := latticeReset_keeps h
  unfold State.restart
  extract_lets +onlyGivenNames y
  change Keeps q y at h'
  clear_value y
  have h'' := wr_keeps (a1 := R.BT_LAST_CAUSE) (a2 := a1) (a3 := 0) (a4 := 0) h'
  extract_lets +onlyGivenNames z
  change Keeps q z at h''
  clear_value z
  exact ⟨fun hp => ⟨(h''.1 hp).memory, (h''.1 hp).fields, (h'.1 hp).frc, Nat.zero_le _, (h'.1 hp).flash⟩, h''.2⟩

theorem mrst_keeps (h : Keeps q s) : Keeps q (State.mrst s a1) := by
  unfold State.mrst
  repeat' first
    | with_reducible assumption
    | (extract_lets +onlyGivenNames y; with_reducible refine keeps_cut (s := y) ?_ ?_; unfold y; clear y; rotate_left; intro hy; clear_value y; revert y; intros)
    | (extract_lets +onlyGivenNames y; clear_value y; revert y; intros)
    | with_reducible refine keeps_ite ?_ ?_
    | with_reducible apply exitRun_keeps
    | with_reducible apply safeLine_keeps
    | with_reducible apply evalTrips_keeps
    | with_reducible apply retBusy_keeps
    | with_reducible apply dgShow_keeps
    | with_reducible apply resetTxb_keeps
    | with_reducible apply resetRows_keeps
    | with_reducible apply restart_keeps
    | split

theorem execModuleReset_keeps (h : Keeps q s) : KeepsN q (execModuleReset s) := by
  unfold execModuleReset
  repeat' first
    | with_reducible assumption
    | with_reducible refine keepsN_next ?_
    | with_reducible refine keeps_ite ?_ ?_
    | with_reducible refine keepsN_ite ?_ ?_
    | with_reducible apply mrst_keeps
    | split

theorem por_keeps (h : Keeps q s) : Keeps q (State.por s) := by
  unfold State.por
  extract_lets +onlyGivenNames frc kept
  have hk : q.1 → memoryWf kept = true := fun hp => memoryWf_filter _ (h.1 hp).memory
  clear_value frc kept
  extract_lets +onlyGivenNames r
  have hr : Keeps q r := restart_keeps h
  clear_value r
  have h1 : Keeps q { r with mem := kept } := ⟨fun hp => ⟨hk hp, (hr.1 hp).fields, (hr.1 hp).frc, (hr.1 hp).ram, (hr.1 hp).flash⟩, hr.2⟩
  extract_lets +onlyGivenNames r1
  change Keeps q r1 at h1
  clear_value r1
  have h2 := resetRows_keeps (a1 := porRows) h1
  extract_lets +onlyGivenNames r2
  change Keeps q r2 at h2
  clear_value r2
  with_reducible apply driveAll_keeps
  with_reducible apply retBusy_keeps
  with_reducible apply dgShow_keeps
  with_reducible apply resetTxb_keeps
  exact keeps_frc h2 (Nat.two_pow_pos 64)

theorem execPowerOnReset_keeps (h : Keeps q s) : KeepsN q (execPowerOnReset s) := by
  unfold execPowerOnReset
  repeat' first
    | with_reducible assumption
    | with_reducible refine keepsN_next ?_
    | with_reducible apply por_keeps

theorem execBrownoutRestart_keeps (h : Keeps q s) : KeepsN q (execBrownoutRestart s) := by
  unfold execBrownoutRestart
  repeat' first
    | with_reducible assumption
    | with_reducible refine keepsN_next ?_
    | (extract_lets +onlyGivenNames y; with_reducible refine keeps_cut (s := y) ?_ ?_; unfold y; clear y; rotate_left; intro hy; clear_value y; revert y; intros)
    | with_reducible refine keeps_upd (by with_reducible assumption)
    | (extract_lets +onlyGivenNames y; clear_value y; revert y; intros)
    | with_reducible refine keeps_ite ?_ ?_
    | with_reducible refine keepsN_ite ?_ ?_
    | with_reducible apply wr_keeps
    | with_reducible apply mrst_keeps
    | intro _ _ hs
    | intro _ hs
    | intro hs
    | split
    | with_reducible refine keeps_upd ?_

/-! ### Parts -/

theorem setBank_keeps (h : Keeps q s) : Keeps q (State.setBank s a1 a2 a3) := by
  unfold State.setBank
  repeat' first
    | with_reducible assumption
    | (extract_lets +onlyGivenNames y; with_reducible refine keeps_cut (s := y) ?_ ?_; unfold y; clear y; rotate_left; intro hy; clear_value y; revert y; intros)
    | with_reducible refine keeps_upd (by with_reducible assumption)
    | (extract_lets +onlyGivenNames y; clear_value y; revert y; intros)
    | with_reducible refine keeps_ite ?_ ?_
    | with_reducible apply wr_keeps
    | intro _ _ hs
    | intro _ hs
    | intro hs
    | split
    | with_reducible refine keeps_upd ?_

theorem stagePart_keeps (h : Keeps q s) : Keeps q (State.stagePart s a1 a2) := by
  unfold State.stagePart
  repeat' first
    | with_reducible assumption
    | (extract_lets +onlyGivenNames y; with_reducible refine keeps_cut (s := y) ?_ ?_; unfold y; clear y; rotate_left; intro hy; clear_value y; revert y; intros)
    | with_reducible refine keeps_upd (by with_reducible assumption)
    | (extract_lets +onlyGivenNames y; clear_value y; revert y; intros)
    | with_reducible refine keeps_ite ?_ ?_
    | with_reducible apply wr_keeps
    | with_reducible apply setBank_keeps
    | with_reducible refine keeps_foldl ?_ (fun _ _ hs => ?_)
    | intro _ _ hs
    | intro _ hs
    | intro hs
    | split
    | with_reducible refine keeps_upd ?_

theorem pendNone_keeps (h : Keeps q s) : Keeps q (State.pendNone s a1) := by
  unfold State.pendNone
  repeat' first
    | with_reducible assumption
    | (extract_lets +onlyGivenNames y; with_reducible refine keeps_cut (s := y) ?_ ?_; unfold y; clear y; rotate_left; intro hy; clear_value y; revert y; intros)
    | with_reducible refine keeps_upd (by with_reducible assumption)
    | (extract_lets +onlyGivenNames y; clear_value y; revert y; intros)
    | with_reducible apply wr_keeps
    | intro _ _ hs
    | intro _ hs
    | intro hs
    | with_reducible refine keeps_upd ?_

theorem erasePart_keeps (h : Keeps q s) : Keeps q (State.erasePart s a1) := by
  unfold State.erasePart
  repeat' first
    | with_reducible assumption
    | (extract_lets +onlyGivenNames y; with_reducible refine keeps_cut (s := y) ?_ ?_; unfold y; clear y; rotate_left; intro hy; clear_value y; revert y; intros)
    | with_reducible refine keeps_upd (by with_reducible assumption)
    | (extract_lets +onlyGivenNames y; clear_value y; revert y; intros)
    | with_reducible refine keeps_ite ?_ ?_
    | with_reducible apply wake_keeps
    | with_reducible apply journal_keeps
    | with_reducible apply pendNone_keeps
    | with_reducible apply setBank_keeps
    | split
    | with_reducible refine keeps_upd ?_

theorem setSlot_keeps (h : Keeps q s) : Keeps q (State.setSlot s a1 a2) := by
  unfold State.setSlot
  repeat' first
    | with_reducible assumption
    | (extract_lets +onlyGivenNames y; with_reducible refine keeps_cut (s := y) ?_ ?_; unfold y; clear y; rotate_left; intro hy; clear_value y; revert y; intros)
    | with_reducible refine keeps_upd (by with_reducible assumption)
    | (extract_lets +onlyGivenNames y; clear_value y; revert y; intros)
    | with_reducible refine keeps_ite ?_ ?_
    | with_reducible apply loseSwitch_keeps
    | with_reducible apply wr_keeps
    | intro _ _ hs
    | intro _ hs
    | intro hs
    | split
    | with_reducible refine keeps_upd ?_

theorem putFields_keeps (h : Keeps q s) : Keeps q (State.putFields s a1 a2) := by
  unfold State.putFields
  repeat' first
    | with_reducible assumption
    | (extract_lets +onlyGivenNames y; with_reducible refine keeps_cut (s := y) ?_ ?_; unfold y; clear y; rotate_left; intro hy; clear_value y; revert y; intros)
    | with_reducible refine keeps_upd (by with_reducible assumption)
    | (extract_lets +onlyGivenNames y; clear_value y; revert y; intros)
    | with_reducible apply wr_keeps
    | with_reducible refine keeps_foldl ?_ (fun _ _ hs => ?_)
    | intro _ _ hs
    | intro _ hs
    | intro hs
    | split
    | with_reducible refine keeps_fst (by with_reducible assumption) ?_
    | with_reducible refine keeps_upd ?_

theorem putConfig_keeps (h : Keeps q s) : Keeps q (State.putConfig s a1) := by
  unfold State.putConfig
  repeat' first
    | with_reducible assumption
    | (extract_lets +onlyGivenNames y; with_reducible refine keeps_cut (s := y) ?_ ?_; unfold y; clear y; rotate_left; intro hy; clear_value y; revert y; intros)
    | (extract_lets +onlyGivenNames y; clear_value y; revert y; intros)
    | with_reducible apply putFields_keeps
    | with_reducible apply resetTxb_keeps
    | with_reducible apply resetRows_keeps
    | with_reducible apply clearMem_keeps
    | with_reducible apply setByte_keeps
    | with_reducible refine keeps_foldl ?_ (fun _ _ hs => ?_)
    | intro _ _ hs
    | intro _ hs
    | intro hs

/-! ### Boot -/

theorem checkBank_keeps (h : Keeps q s) : Keeps q (State.checkBank s a1 a2 a3).1 := by
  unfold State.checkBank
  repeat' first
    | with_reducible assumption
    | with_reducible refine keeps_ite ?_ ?_
    | with_reducible apply setBank_keeps
    | with_reducible apply wr_keeps
    | split

theorem loadPart_keeps (h : Keeps q s) : Keeps q (State.loadPart s a1 a2) := by
  unfold State.loadPart
  repeat' first
    | with_reducible assumption
    | (extract_lets +onlyGivenNames y; with_reducible refine keeps_cut (s := y) ?_ ?_; unfold y; clear y; rotate_left; intro hy; clear_value y; revert y; intros)
    | (extract_lets +onlyGivenNames y; clear_value y; revert y; intros)
    | with_reducible refine keeps_ite ?_ ?_
    | with_reducible apply checkBank_keeps
    | with_reducible apply wr_keeps
    | with_reducible apply pendNone_keeps
    | split
    | with_reducible refine keeps_fst (by with_reducible assumption) ?_

theorem toRecovery_keeps (h : Keeps q s) : Keeps q (State.toRecovery s) := by
  unfold State.toRecovery
  repeat' first
    | with_reducible assumption
    | (extract_lets +onlyGivenNames y; with_reducible refine keeps_cut (s := y) ?_ ?_; unfold y; clear y; rotate_left; intro hy; clear_value y; revert y; intros)
    | with_reducible refine keeps_upd (by with_reducible assumption)
    | (extract_lets +onlyGivenNames y; clear_value y; revert y; intros)
    | with_reducible refine keeps_ite ?_ ?_
    | with_reducible apply closeSession_keeps
    | with_reducible apply wr_keeps
    | with_reducible refine keeps_foldl ?_ (fun _ _ hs => ?_)
    | intro _ _ hs
    | intro _ hs
    | intro hs
    | split
    | with_reducible refine keeps_upd ?_

theorem loadStage_keeps (h : Keeps q s) : Keeps q (State.loadStage s a1 a2 a3) := by
  unfold State.loadStage
  repeat' first
    | with_reducible assumption
    | (extract_lets +onlyGivenNames y; with_reducible refine keeps_cut (s := y) ?_ ?_; unfold y; clear y; rotate_left; intro hy; clear_value y; revert y; intros)
    | (extract_lets +onlyGivenNames y; clear_value y; revert y; intros)
    | with_reducible refine keeps_ite ?_ ?_
    | with_reducible apply loadPart_keeps
    | with_reducible apply wr_keeps
    | with_reducible apply toRecovery_keeps
    | with_reducible refine keeps_foldl ?_ (fun _ _ hs => ?_)
    | intro _ _ hs
    | intro _ hs
    | intro hs
    | split

theorem bootEnclave_keeps (h : Keeps q s) : Keeps q (State.bootEnclave s a1) := by
  unfold State.bootEnclave
  repeat' first
    | with_reducible assumption
    | (extract_lets +onlyGivenNames y; with_reducible refine keeps_cut (s := y) ?_ ?_; unfold y; clear y; rotate_left; intro hy; clear_value y; revert y; intros)
    | with_reducible refine keeps_upd (by with_reducible assumption)
    | (extract_lets +onlyGivenNames y; clear_value y; revert y; intros)
    | with_reducible refine keeps_ite ?_ ?_
    | with_reducible apply wr_keeps
    | with_reducible apply journal_keeps
    | with_reducible apply zeroiseRest_keeps
    | with_reducible apply tamperAct_keeps
    | with_reducible apply loadStage_keeps
    | with_reducible apply seShow_keeps
    | with_reducible refine keeps_foldl ?_ (fun _ _ hs => ?_)
    | intro _ _ hs
    | intro _ hs
    | intro hs
    | split
    | with_reducible refine keeps_upd ?_

theorem bootMgmt_keeps (h : Keeps q s) : Keeps q (State.bootMgmt s a1) := by
  unfold State.bootMgmt
  repeat' first
    | with_reducible assumption
    | (extract_lets +onlyGivenNames y; with_reducible refine keeps_cut (s := y) ?_ ?_; unfold y; clear y; rotate_left; intro hy; clear_value y; revert y; intros)
    | with_reducible refine keeps_upd (by with_reducible assumption)
    | (extract_lets +onlyGivenNames y; clear_value y; revert y; intros)
    | with_reducible refine keeps_ite ?_ ?_
    | with_reducible apply wr_keeps
    | with_reducible apply journal_keeps
    | with_reducible apply loadStage_keeps
    | split
    | with_reducible refine keeps_fst (by with_reducible assumption) ?_
    | with_reducible refine keeps_upd ?_

theorem bootConfig_keeps (h : Keeps q s) : Keeps q (State.bootConfig s a1) := by
  unfold State.bootConfig
  repeat' first
    | with_reducible assumption
    | (extract_lets +onlyGivenNames y; with_reducible refine keeps_cut (s := y) ?_ ?_; unfold y; clear y; rotate_left; intro hy; clear_value y; revert y; intros)
    | with_reducible refine keeps_upd (by with_reducible assumption)
    | (extract_lets +onlyGivenNames y; clear_value y; revert y; intros)
    | with_reducible refine keeps_ite ?_ ?_
    | with_reducible apply wr_keeps
    | with_reducible apply pendNone_keeps
    | with_reducible apply loadStage_keeps
    | with_reducible apply putConfig_keeps
    | with_reducible apply routeCopy_keeps
    | with_reducible apply canFresh_keeps
    | with_reducible apply loadCorr_keeps
    | with_reducible apply chainWake_keeps
    | with_reducible apply pairLinks_keeps
    | with_reducible refine keeps_foldl ?_ (fun _ _ hs => ?_)
    | intro _ _ hs
    | intro _ hs
    | intro hs
    | split
    | with_reducible refine keeps_fst (by with_reducible assumption) ?_
    | with_reducible refine keeps_upd ?_

theorem olderSlot_keeps (h : Keeps q s) : Keeps q (State.olderSlot s a1) := by
  unfold State.olderSlot
  repeat' first
    | with_reducible assumption
    | (extract_lets +onlyGivenNames y; with_reducible refine keeps_cut (s := y) ?_ ?_; unfold y; clear y; rotate_left; intro hy; clear_value y; revert y; intros)
    | with_reducible refine keeps_upd (by with_reducible assumption)
    | (extract_lets +onlyGivenNames y; clear_value y; revert y; intros)
    | with_reducible apply setSlot_keeps
    | with_reducible apply wr_keeps
    | split
    | with_reducible refine keeps_fst (by with_reducible assumption) ?_
    | with_reducible refine keeps_upd ?_

theorem bootEnd_keeps (h : Keeps q s) : Keeps q (State.bootEnd s a1) := by
  unfold State.bootEnd
  repeat' first
    | with_reducible assumption
    | (extract_lets +onlyGivenNames y; with_reducible refine keeps_cut (s := y) ?_ ?_; unfold y; clear y; rotate_left; intro hy; clear_value y; revert y; intros)
    | (extract_lets +onlyGivenNames y; with_reducible refine keeps_cutF (f := y) ?_ ?_; unfold y; clear y; rotate_left; intro hy; clear_value y; revert y; intro fF hF)
    | (extract_lets +onlyGivenNames y; with_reducible refine keeps_tbid y ?_; revert y; intro _)
    | (with_reducible refine keeps_tb ?_; with_reducible assumption)
    | (with_reducible refine keeps_tb2 (t := s) ?_ ?_ <;> with_reducible assumption)
    | with_reducible refine keeps_upd (by with_reducible assumption)
    | (extract_lets +onlyGivenNames y; clear_value y; revert y; intros)
    | with_reducible refine keeps_ite ?_ ?_
    | with_reducible apply hF
    | with_reducible apply wr_keeps
    | with_reducible apply hsNext_keeps
    | with_reducible apply driveAll_keeps
    | with_reducible apply evalTrips_keeps
    | with_reducible apply start_keeps
    | with_reducible apply join_keeps
    | intro _ _ hs
    | intro _ hs
    | intro hs
    | split
    | with_reducible refine keeps_upd ?_

theorem bootImage_keeps (h : Keeps q s) : Keeps q (State.bootImage s a1) := by
  unfold State.bootImage
  repeat' first
    | with_reducible assumption
    | (extract_lets +onlyGivenNames y; with_reducible refine keeps_cut (s := y) ?_ ?_; unfold y; clear y; rotate_left; intro hy; clear_value y; revert y; intros)
    | (extract_lets +onlyGivenNames y; clear_value y; revert y; intros)
    | with_reducible refine keeps_ite ?_ ?_
    | with_reducible apply olderSlot_keeps
    | with_reducible apply admRun_keeps
    | with_reducible apply bootEnd_keeps
    | with_reducible refine keeps_foldl ?_ (fun _ _ hs => ?_)
    | intro _ _ hs
    | intro _ hs
    | intro hs
    | split

theorem bootWaits_keeps (h : Keeps q s) : Keeps q (State.bootWaits s a1) := by
  unfold State.bootWaits
  repeat' first
    | with_reducible assumption
    | (extract_lets +onlyGivenNames y; with_reducible refine keeps_cut (s := y) ?_ ?_; unfold y; clear y; rotate_left; intro hy; clear_value y; revert y; intros)
    | (extract_lets +onlyGivenNames y; with_reducible refine keeps_cutF (f := y) ?_ ?_; unfold y; clear y; rotate_left; intro hy; clear_value y; revert y; intro fF hF)
    | with_reducible refine keeps_upd (by with_reducible assumption)
    | (extract_lets +onlyGivenNames y; clear_value y; revert y; intros)
    | with_reducible refine keeps_ite ?_ ?_
    | with_reducible apply hF
    | with_reducible apply join_keeps
    | with_reducible apply start_keeps
    | intro _ _ hs
    | intro _ hs
    | intro hs
    | split
    | with_reducible refine keeps_fst (by with_reducible assumption) ?_
    | with_reducible refine keeps_upd ?_

theorem execBootStageComplete_keeps (h : Keeps q s) : KeepsN q (execBootStageComplete a1 s) := by
  unfold execBootStageComplete
  repeat' first
    | with_reducible assumption
    | with_reducible refine keepsN_next ?_
    | (extract_lets +onlyGivenNames y; with_reducible refine keeps_cut (s := y) ?_ ?_; unfold y; clear y; rotate_left; intro hy; clear_value y; revert y; intros)
    | with_reducible refine keeps_upd (by with_reducible assumption)
    | (extract_lets +onlyGivenNames y; clear_value y; revert y; intros)
    | with_reducible refine keeps_ite ?_ ?_
    | with_reducible refine keepsN_ite ?_ ?_
    | with_reducible apply bootWaits_keeps
    | with_reducible apply wr_keeps
    | with_reducible apply bootEnclave_keeps
    | with_reducible apply bootMgmt_keeps
    | with_reducible apply loadStage_keeps
    | with_reducible apply bootConfig_keeps
    | with_reducible apply bootImage_keeps
    | split
    | with_reducible refine keeps_fst (by with_reducible assumption) ?_
    | with_reducible refine keeps_upd ?_

/-! ### Updates -/

theorem dropTransfer_keeps (h : Keeps q s) : Keeps q (State.dropTransfer s a1) := by
  unfold State.dropTransfer
  repeat' first
    | with_reducible assumption
    | (extract_lets +onlyGivenNames y; with_reducible refine keeps_cut (s := y) ?_ ?_; unfold y; clear y; rotate_left; intro hy; clear_value y; revert y; intros)
    | with_reducible refine keeps_upd (by with_reducible assumption)
    | (extract_lets +onlyGivenNames y; clear_value y; revert y; intros)
    | intro _ _ hs
    | intro _ hs
    | intro hs
    | with_reducible refine keeps_upd ?_

theorem execXferBegin_keeps (h : Keeps q s) : KeepsN q (execXferBegin a1 a2 a3 a4 s) := by
  unfold execXferBegin
  repeat' first
    | with_reducible assumption
    | with_reducible refine keepsN_next ?_
    | (extract_lets +onlyGivenNames y; with_reducible refine keeps_cut (s := y) ?_ ?_; unfold y; clear y; rotate_left; intro hy; clear_value y; revert y; intros)
    | (extract_lets +onlyGivenNames y; with_reducible refine keeps_cutF (f := y) ?_ ?_; unfold y; clear y; rotate_left; intro hy; clear_value y; revert y; intro fF hF)
    | with_reducible refine keeps_upd (by with_reducible assumption)
    | (extract_lets +onlyGivenNames y; clear_value y; revert y; intros)
    | with_reducible refine keeps_ite ?_ ?_
    | with_reducible refine keepsN_ite ?_ ?_
    | with_reducible apply hF
    | with_reducible apply command_keeps
    | with_reducible apply dropTransfer_keeps
    | with_reducible apply reply_keeps
    | with_reducible apply loseSwitch_keeps
    | with_reducible apply erasePart_keeps
    | intro _ _ hs
    | intro _ hs
    | intro hs
    | split
    | with_reducible refine keeps_fst (by with_reducible assumption) ?_
    | with_reducible refine keeps_upd ?_

theorem execXferChunk_keeps (h : Keeps q s) : KeepsN q (execXferChunk a1 a2 a3 s) := by
  unfold execXferChunk
  repeat' first
    | with_reducible assumption
    | with_reducible refine keepsN_next ?_
    | (extract_lets +onlyGivenNames y; with_reducible refine keeps_cut (s := y) ?_ ?_; unfold y; clear y; rotate_left; intro hy; clear_value y; revert y; intros)
    | with_reducible refine keeps_upd (by with_reducible assumption)
    | (extract_lets +onlyGivenNames y; clear_value y; revert y; intros)
    | with_reducible refine keeps_ite ?_ ?_
    | with_reducible refine keepsN_ite ?_ ?_
    | with_reducible apply command_keeps
    | with_reducible apply reply_keeps
    | intro _ _ hs
    | intro _ hs
    | intro hs
    | split
    | with_reducible refine keeps_fst (by with_reducible assumption) ?_
    | with_reducible refine keeps_upd ?_

theorem takeContent_keeps (h : Keeps q s) : Keeps q (State.takeContent s a1 a2).1 := by
  unfold State.takeContent
  repeat' first
    | with_reducible assumption
    | (extract_lets +onlyGivenNames y; with_reducible refine keeps_cut (s := y) ?_ ?_; unfold y; clear y; rotate_left; intro hy; clear_value y; revert y; intros)
    | with_reducible refine keeps_upd (by with_reducible assumption)
    | (extract_lets +onlyGivenNames y; clear_value y; revert y; intros)
    | with_reducible refine keeps_ite ?_ ?_
    | with_reducible apply setSlot_keeps
    | with_reducible apply verifyFailed_keeps
    | with_reducible apply stagePart_keeps
    | split
    | with_reducible refine keeps_fst (by with_reducible assumption) ?_
    | with_reducible refine keeps_upd ?_

theorem execXferEnd_keeps (h : Keeps q s) : KeepsN q (execXferEnd a1 a2 s) := by
  unfold execXferEnd
  repeat' first
    | with_reducible assumption
    | with_reducible refine keepsN_next ?_
    | (extract_lets +onlyGivenNames y; with_reducible refine keeps_cut (s := y) ?_ ?_; unfold y; clear y; rotate_left; intro hy; clear_value y; revert y; intros)
    | with_reducible refine keeps_upd (by with_reducible assumption)
    | (extract_lets +onlyGivenNames y; clear_value y; revert y; intros)
    | with_reducible refine keeps_ite ?_ ?_
    | with_reducible refine keepsN_ite ?_ ?_
    | with_reducible apply command_keeps
    | with_reducible apply reply_keeps
    | with_reducible apply dropTransfer_keeps
    | with_reducible apply takeContent_keeps
    | intro _ _ hs
    | intro _ hs
    | intro hs
    | split
    | with_reducible refine keeps_fst (by with_reducible assumption) ?_
    | with_reducible refine keeps_upd ?_

theorem execXferAbort_keeps (h : Keeps q s) : KeepsN q (execXferAbort a1 s) := by
  unfold execXferAbort
  repeat' first
    | with_reducible assumption
    | with_reducible refine keepsN_next ?_
    | (extract_lets +onlyGivenNames y; with_reducible refine keeps_cut (s := y) ?_ ?_; unfold y; clear y; rotate_left; intro hy; clear_value y; revert y; intros)
    | (extract_lets +onlyGivenNames y; clear_value y; revert y; intros)
    | with_reducible refine keeps_ite ?_ ?_
    | with_reducible refine keepsN_ite ?_ ?_
    | with_reducible apply command_keeps
    | with_reducible apply reply_keeps
    | with_reducible apply dropTransfer_keeps
    | intro _ _ hs
    | intro _ hs
    | intro hs
    | split

theorem schedule_keeps (h : Keeps q s) : Keeps q (State.schedule s a1 a2) := by
  unfold State.schedule
  repeat' first
    | with_reducible assumption
    | with_reducible apply wr64_keeps
    | with_reducible apply wr_keeps

theorem execUpdateSchedule_keeps (h : Keeps q s) : KeepsN q (execUpdateSchedule a1 a2 a3 s) := by
  unfold execUpdateSchedule
  repeat' first
    | with_reducible assumption
    | with_reducible refine keepsN_next ?_
    | (extract_lets +onlyGivenNames y; with_reducible refine keeps_cut (s := y) ?_ ?_; unfold y; clear y; rotate_left; intro hy; clear_value y; revert y; intros)
    | with_reducible refine keeps_upd (by with_reducible assumption)
    | (extract_lets +onlyGivenNames y; clear_value y; revert y; intros)
    | with_reducible refine keeps_ite ?_ ?_
    | with_reducible refine keepsN_ite ?_ ?_
    | with_reducible apply command_keeps
    | with_reducible apply reply_keeps
    | with_reducible apply schedule_keeps
    | with_reducible apply await_keeps
    | with_reducible apply path_keeps
    | intro _ _ hs
    | intro _ hs
    | intro hs
    | split
    | with_reducible refine keeps_fst (by with_reducible assumption) ?_
    | with_reducible refine keeps_upd ?_

theorem scheduleConfirmed_keeps (h : Keeps q s) : Keeps q (State.scheduleConfirmed s a1 a2) := by
  unfold State.scheduleConfirmed
  repeat' first
    | with_reducible assumption
    | (extract_lets +onlyGivenNames y; with_reducible refine keeps_cut (s := y) ?_ ?_; unfold y; clear y; rotate_left; intro hy; clear_value y; revert y; intros)
    | with_reducible refine keeps_upd (by with_reducible assumption)
    | (extract_lets +onlyGivenNames y; clear_value y; revert y; intros)
    | with_reducible refine keeps_ite ?_ ?_
    | with_reducible apply wake_keeps
    | with_reducible apply schedule_keeps
    | intro _ _ hs
    | intro _ hs
    | intro hs
    | split
    | with_reducible refine keeps_fst (by with_reducible assumption) ?_
    | with_reducible refine keeps_upd ?_

theorem scheduleFrom_keeps (h : Keeps q s) : Keeps q (State.scheduleFrom s a1 a2 a3 a4) := by
  unfold State.scheduleFrom
  repeat' first
    | with_reducible assumption
    | with_reducible refine keeps_ite ?_ ?_
    | with_reducible apply path_keeps
    | with_reducible apply schedule_keeps
    | intro _ _ hs
    | intro _ hs
    | intro hs
    | split

theorem execUpdateActivate_keeps (h : Keeps q s) : KeepsN q (execUpdateActivate a1 a2 s) := by
  unfold execUpdateActivate
  repeat' first
    | with_reducible assumption
    | with_reducible refine keepsN_next ?_
    | (extract_lets +onlyGivenNames y; with_reducible refine keeps_cut (s := y) ?_ ?_; unfold y; clear y; rotate_left; intro hy; clear_value y; revert y; intros)
    | with_reducible refine keeps_upd (by with_reducible assumption)
    | (extract_lets +onlyGivenNames y; clear_value y; revert y; intros)
    | with_reducible refine keeps_ite ?_ ?_
    | with_reducible refine keepsN_ite ?_ ?_
    | with_reducible apply command_keeps
    | with_reducible apply reply_keeps
    | with_reducible apply await_keeps
    | intro _ _ hs
    | intro _ hs
    | intro hs
    | split
    | with_reducible refine keeps_fst (by with_reducible assumption) ?_
    | with_reducible refine keeps_upd ?_

theorem execUpdateStatus_keeps (h : Keeps q s) : KeepsN q (execUpdateStatus a1 s) := by
  unfold execUpdateStatus
  repeat' first
    | with_reducible assumption
    | with_reducible refine keepsN_next ?_
    | (extract_lets +onlyGivenNames y; with_reducible refine keeps_cut (s := y) ?_ ?_; unfold y; clear y; rotate_left; intro hy; clear_value y; revert y; intros)
    | (extract_lets +onlyGivenNames y; clear_value y; revert y; intros)
    | with_reducible apply command_keeps
    | with_reducible apply reply_keeps
    | intro _ _ hs
    | intro _ hs
    | intro hs

theorem execBankSelect_keeps (h : Keeps q s) : KeepsN q (execBankSelect a1 a2 a3 s) := by
  unfold execBankSelect
  repeat' first
    | with_reducible assumption
    | with_reducible refine keepsN_next ?_
    | (extract_lets +onlyGivenNames y; with_reducible refine keeps_cut (s := y) ?_ ?_; unfold y; clear y; rotate_left; intro hy; clear_value y; revert y; intros)
    | with_reducible refine keeps_upd (by with_reducible assumption)
    | (extract_lets +onlyGivenNames y; clear_value y; revert y; intros)
    | with_reducible refine keeps_ite ?_ ?_
    | with_reducible refine keepsN_ite ?_ ?_
    | with_reducible apply command_keeps
    | with_reducible apply reply_keeps
    | with_reducible apply pendNone_keeps
    | with_reducible apply schedule_keeps
    | with_reducible apply wr_keeps
    | intro _ _ hs
    | intro _ hs
    | intro hs
    | split
    | with_reducible refine keeps_fst (by with_reducible assumption) ?_
    | with_reducible refine keeps_upd ?_

theorem activate_keeps (h : Keeps q s) : Keeps q (State.activate s a1) := by
  unfold State.activate
  repeat' first
    | with_reducible assumption
    | (extract_lets +onlyGivenNames y; with_reducible refine keeps_cut (s := y) ?_ ?_; unfold y; clear y; rotate_left; intro hy; clear_value y; revert y; intros)
    | with_reducible refine keeps_upd (by with_reducible assumption)
    | (extract_lets +onlyGivenNames y; clear_value y; revert y; intros)
    | with_reducible refine keeps_ite ?_ ?_
    | with_reducible apply wr_keeps
    | with_reducible apply pendNone_keeps
    | split
    | with_reducible refine keeps_upd ?_

theorem restarts_keeps (h : Keeps q s) : Keeps q (State.restarts s a1) := by
  unfold State.restarts
  repeat' first
    | with_reducible assumption
    | (extract_lets +onlyGivenNames y; with_reducible refine keeps_cut (s := y) ?_ ?_; unfold y; clear y; rotate_left; intro hy; clear_value y; revert y; intros)
    | with_reducible refine keeps_upd (by with_reducible assumption)
    | (extract_lets +onlyGivenNames y; clear_value y; revert y; intros)
    | intro _ _ hs
    | intro _ hs
    | intro hs
    | with_reducible refine keeps_upd ?_

theorem activated_keeps (h : Keeps q s) : Keeps q (State.activated s a1) := by
  unfold State.activated
  repeat' first
    | with_reducible assumption
    | (extract_lets +onlyGivenNames y; with_reducible refine keeps_cut (s := y) ?_ ?_; unfold y; clear y; rotate_left; intro hy; clear_value y; revert y; intros)
    | with_reducible refine keeps_upd (by with_reducible assumption)
    | (extract_lets +onlyGivenNames y; clear_value y; revert y; intros)
    | with_reducible apply restarts_keeps
    | with_reducible apply nextFree_keeps
    | with_reducible apply notice_keeps
    | with_reducible apply wr_keeps
    | with_reducible refine keeps_foldl ?_ (fun _ _ hs => ?_)
    | intro _ _ hs
    | intro _ hs
    | intro hs
    | split
    | with_reducible refine keeps_fst (by with_reducible assumption) ?_
    | with_reducible refine keeps_upd ?_

theorem execUpdateActivation_keeps (h : Keeps q s) : KeepsN q (execUpdateActivation a1 s) := by
  unfold execUpdateActivation
  repeat' first
    | with_reducible assumption
    | with_reducible refine keepsN_next ?_
    | (extract_lets +onlyGivenNames y; with_reducible refine keeps_cut (s := y) ?_ ?_; unfold y; clear y; rotate_left; intro hy; clear_value y; revert y; intros)
    | with_reducible refine keeps_upd (by with_reducible assumption)
    | (extract_lets +onlyGivenNames y; clear_value y; revert y; intros)
    | with_reducible refine keeps_ite ?_ ?_
    | with_reducible refine keepsN_ite ?_ ?_
    | with_reducible apply pendNone_keeps
    | with_reducible apply toTick_keeps
    | with_reducible apply activated_keeps
    | with_reducible apply activate_keeps
    | split
    | with_reducible refine keeps_fst (by with_reducible assumption) ?_
    | with_reducible refine keeps_upd ?_

theorem commandedActs_keeps (h : Keeps q s) : Keeps q (State.commandedActs s a1) := by
  unfold State.commandedActs
  repeat' first
    | with_reducible assumption
    | (extract_lets +onlyGivenNames y; with_reducible refine keeps_cut (s := y) ?_ ?_; unfold y; clear y; rotate_left; intro hy; clear_value y; revert y; intros)
    | with_reducible refine keeps_upd (by with_reducible assumption)
    | (extract_lets +onlyGivenNames y; clear_value y; revert y; intros)
    | with_reducible refine keeps_ite ?_ ?_
    | with_reducible apply restarts_keeps
    | with_reducible apply pairLinks_keeps
    | with_reducible apply path_keeps
    | with_reducible apply toSolo_keeps
    | with_reducible refine keeps_foldl ?_ (fun _ _ hs => ?_)
    | intro _ _ hs
    | intro _ hs
    | intro hs
    | split
    | with_reducible refine keeps_fst (by with_reducible assumption) ?_
    | with_reducible refine keeps_upd ?_

theorem execCommandedActivation_keeps (h : Keeps q s) : KeepsN q (execCommandedActivation s) := by
  unfold execCommandedActivation
  repeat' first
    | with_reducible assumption
    | with_reducible refine keepsN_next ?_
    | (extract_lets +onlyGivenNames y; with_reducible refine keeps_cut (s := y) ?_ ?_; unfold y; clear y; rotate_left; intro hy; clear_value y; revert y; intros)
    | with_reducible refine keeps_upd (by with_reducible assumption)
    | (extract_lets +onlyGivenNames y; clear_value y; revert y; intros)
    | with_reducible apply toTick_keeps
    | with_reducible apply wake_keeps
    | with_reducible apply commandedActs_keeps
    | with_reducible apply activate_keeps
    | with_reducible apply pendNone_keeps
    | split
    | with_reducible refine keeps_fst (by with_reducible assumption) ?_
    | with_reducible refine keeps_upd ?_

theorem restartLinks_keeps (h : Keeps q s) : Keeps q (State.restartLinks s) := by
  unfold State.restartLinks
  repeat' first
    | with_reducible assumption
    | (extract_lets +onlyGivenNames y; with_reducible refine keeps_cut (s := y) ?_ ?_; unfold y; clear y; rotate_left; intro hy; clear_value y; revert y; intros)
    | with_reducible refine keeps_upd (by with_reducible assumption)
    | (extract_lets +onlyGivenNames y; clear_value y; revert y; intros)
    | with_reducible refine keeps_ite ?_ ?_
    | with_reducible apply stopHere_keeps
    | with_reducible apply pairLinks_keeps
    | with_reducible apply restarts_keeps
    | split
    | with_reducible refine keeps_upd ?_

theorem execPartRestartComplete_keeps (h : Keeps q s) : KeepsN q (execPartRestartComplete a1 a2 s) := by
  unfold execPartRestartComplete
  repeat' first
    | with_reducible assumption
    | with_reducible refine keepsN_next ?_
    | (extract_lets +onlyGivenNames y; with_reducible refine keeps_cut (s := y) ?_ ?_; unfold y; clear y; rotate_left; intro hy; clear_value y; revert y; intros)
    | with_reducible refine keeps_upd (by with_reducible assumption)
    | (extract_lets +onlyGivenNames y; clear_value y; revert y; intros)
    | with_reducible refine keeps_ite ?_ ?_
    | with_reducible refine keepsN_ite ?_ ?_
    | with_reducible apply wr_keeps
    | with_reducible apply pairLinks_keeps
    | with_reducible apply join_keeps
    | with_reducible apply dgUpdate_keeps
    | intro _ _ hs
    | intro _ hs
    | intro hs
    | split
    | with_reducible refine keeps_fst (by with_reducible assumption) ?_
    | with_reducible refine keeps_upd ?_

theorem execUpdateForward_keeps (h : Keeps q s) : KeepsN q (execUpdateForward a1 a2 a3 s) := by
  unfold execUpdateForward
  repeat' first
    | with_reducible assumption
    | with_reducible refine keepsN_next ?_
    | (extract_lets +onlyGivenNames y; with_reducible refine keeps_cut (s := y) ?_ ?_; unfold y; clear y; rotate_left; intro hy; clear_value y; revert y; intros)
    | with_reducible refine keeps_upd (by with_reducible assumption)
    | (extract_lets +onlyGivenNames y; clear_value y; revert y; intros)
    | with_reducible refine keeps_ite ?_ ?_
    | with_reducible refine keepsN_ite ?_ ?_
    | with_reducible apply command_keeps
    | with_reducible apply reply_keeps
    | with_reducible apply wr_keeps
    | with_reducible apply emit_keeps
    | with_reducible apply await_keeps
    | intro _ _ hs
    | intro _ hs
    | intro hs
    | split
    | with_reducible refine keeps_fst (by with_reducible assumption) ?_
    | with_reducible refine keeps_upd ?_

theorem hopConfirmed_keeps (h : Keeps q s) : Keeps q (State.hopConfirmed s a1) := by
  unfold State.hopConfirmed
  repeat' first
    | with_reducible assumption
    | (extract_lets +onlyGivenNames y; with_reducible refine keeps_cut (s := y) ?_ ?_; unfold y; clear y; rotate_left; intro hy; clear_value y; revert y; intros)
    | with_reducible refine keeps_upd (by with_reducible assumption)
    | (extract_lets +onlyGivenNames y; clear_value y; revert y; intros)
    | with_reducible refine keeps_ite ?_ ?_
    | with_reducible apply wr_keeps
    | with_reducible apply wake_keeps
    | split
    | with_reducible refine keeps_fst (by with_reducible assumption) ?_
    | with_reducible refine keeps_upd ?_

theorem hopArrives_keeps (h : Keeps q s) : Keeps q (State.hopArrives s a1 a2 a3 a4) := by
  unfold State.hopArrives
  repeat' first
    | with_reducible assumption
    | (extract_lets +onlyGivenNames y; with_reducible refine keeps_cut (s := y) ?_ ?_; unfold y; clear y; rotate_left; intro hy; clear_value y; revert y; intros)
    | with_reducible refine keeps_upd (by with_reducible assumption)
    | (extract_lets +onlyGivenNames y; clear_value y; revert y; intros)
    | with_reducible refine keeps_ite ?_ ?_
    | with_reducible apply verifyFailed_keeps
    | with_reducible apply stagePart_keeps
    | with_reducible apply erasePart_keeps
    | with_reducible apply emit_keeps
    | intro _ _ hs
    | intro _ hs
    | intro hs
    | split
    | with_reducible refine keeps_fst (by with_reducible assumption) ?_
    | with_reducible refine keeps_upd ?_

theorem replaced_keeps (h : Keeps q s) : Keeps q (State.replaced s a1 a2 a3) := by
  unfold State.replaced
  repeat' first
    | with_reducible assumption
    | (extract_lets +onlyGivenNames y; with_reducible refine keeps_cut (s := y) ?_ ?_; unfold y; clear y; rotate_left; intro hy; clear_value y; revert y; intros)
    | with_reducible refine keeps_upd (by with_reducible assumption)
    | (extract_lets +onlyGivenNames y; clear_value y; revert y; intros)
    | with_reducible refine keeps_ite ?_ ?_
    | with_reducible apply stagePart_keeps
    | with_reducible apply erasePart_keeps
    | with_reducible apply wr_keeps
    | with_reducible apply pendNone_keeps
    | with_reducible apply putFields_keeps
    | with_reducible apply setSlot_keeps
    | with_reducible apply mrst_keeps
    | with_reducible refine keeps_foldl ?_ (fun _ _ hs => ?_)
    | intro _ _ hs
    | intro _ hs
    | intro hs
    | split
    | with_reducible refine keeps_upd ?_

theorem replaceFrom_keeps (h : Keeps q s) : Keeps q (State.replaceFrom s a1) := by
  unfold State.replaceFrom
  repeat' first
    | with_reducible assumption
    | (extract_lets +onlyGivenNames y; with_reducible refine keeps_cut (s := y) ?_ ?_; unfold y; clear y; rotate_left; intro hy; clear_value y; revert y; intros)
    | with_reducible refine keeps_upd (by with_reducible assumption)
    | (extract_lets +onlyGivenNames y; clear_value y; revert y; intros)
    | with_reducible refine keeps_ite ?_ ?_
    | with_reducible apply path_keeps
    | with_reducible refine keeps_foldl ?_ (fun _ _ hs => ?_)
    | intro _ _ hs
    | intro _ hs
    | intro hs
    | split
    | with_reducible refine keeps_fst (by with_reducible assumption) ?_
    | with_reducible refine keeps_upd ?_

theorem execForwardHop_keeps (h : Keeps q s) : KeepsN q (execForwardHop a1 s) := by
  unfold execForwardHop
  repeat' first
    | with_reducible assumption
    | with_reducible refine keepsN_next ?_
    | (extract_lets +onlyGivenNames y; with_reducible refine keeps_cut (s := y) ?_ ?_; unfold y; clear y; rotate_left; intro hy; clear_value y; revert y; intros)
    | with_reducible refine keeps_upd (by with_reducible assumption)
    | (extract_lets +onlyGivenNames y; clear_value y; revert y; intros)
    | with_reducible refine keeps_ite ?_ ?_
    | with_reducible refine keepsN_ite ?_ ?_
    | with_reducible apply hopConfirmed_keeps
    | with_reducible apply hopArrives_keeps
    | with_reducible apply replaced_keeps
    | with_reducible apply replaceFrom_keeps
    | split
    | with_reducible refine keeps_fst (by with_reducible assumption) ?_
    | with_reducible refine keeps_upd ?_

theorem execForwardHopTimeout_keeps (h : Keeps q s) : KeepsN q (execForwardHopTimeout s) := by
  unfold execForwardHopTimeout
  repeat' first
    | with_reducible assumption
    | with_reducible refine keepsN_next ?_
    | (extract_lets +onlyGivenNames y; with_reducible refine keeps_cut (s := y) ?_ ?_; unfold y; clear y; rotate_left; intro hy; clear_value y; revert y; intros)
    | with_reducible refine keeps_upd (by with_reducible assumption)
    | (extract_lets +onlyGivenNames y; clear_value y; revert y; intros)
    | with_reducible refine keeps_ite ?_ ?_
    | with_reducible refine keepsN_ite ?_ ?_
    | with_reducible apply wr_keeps
    | with_reducible apply wake_keeps
    | split
    | with_reducible refine keeps_fst (by with_reducible assumption) ?_
    | with_reducible refine keeps_upd ?_

/-! ### NodeImages -/

theorem updTx_keeps (h : Keeps q s) : Keeps q (State.updTx s a1 a2) := by
  unfold State.updTx
  repeat' first
    | with_reducible assumption
    | (extract_lets +onlyGivenNames y; with_reducible refine keeps_cut (s := y) ?_ ?_; unfold y; clear y; rotate_left; intro hy; clear_value y; revert y; intros)
    | with_reducible refine keeps_upd (by with_reducible assumption)
    | (extract_lets +onlyGivenNames y; clear_value y; revert y; intros)
    | with_reducible refine keeps_upd ?_

theorem nodeBcast_keeps (h : Keeps q s) : Keeps q (State.nodeBcast s a1 a2 a3) := by
  unfold State.nodeBcast
  repeat' first
    | with_reducible assumption
    | (extract_lets +onlyGivenNames y; with_reducible refine keeps_cut (s := y) ?_ ?_; unfold y; clear y; rotate_left; intro hy; clear_value y; revert y; intros)
    | (extract_lets +onlyGivenNames y; clear_value y; revert y; intros)
    | with_reducible refine keeps_ite ?_ ?_
    | with_reducible apply chainBcast_keeps
    | split

theorem nodeAsk_keeps (h : Keeps q s) : Keeps q (State.nodeAsk s a1 a2 a3) := by
  unfold State.nodeAsk
  repeat' first
    | with_reducible assumption
    | with_reducible apply chainSendCmd_keeps

theorem nodeRound_keeps (h : Keeps q s) : Keeps q (State.nodeRound s a1 a2) := by
  unfold State.nodeRound
  repeat' first
    | with_reducible assumption
    | (extract_lets +onlyGivenNames y; with_reducible refine keeps_cut (s := y) ?_ ?_; unfold y; clear y; rotate_left; intro hy; clear_value y; revert y; intros)
    | with_reducible refine keeps_upd (by with_reducible assumption)
    | (extract_lets +onlyGivenNames y; clear_value y; revert y; intros)
    | with_reducible apply wr_keeps
    | with_reducible apply updTx_keeps
    | with_reducible refine keeps_foldl ?_ (fun _ _ hs => ?_)
    | intro _ _ hs
    | intro _ hs
    | intro hs
    | split
    | with_reducible refine keeps_fst (by with_reducible assumption) ?_
    | with_reducible refine keeps_upd ?_

theorem nodeStep_keeps (h : Keeps q s) : Keeps q (State.nodeStep s a1 a2) := by
  unfold State.nodeStep
  repeat' first
    | with_reducible assumption
    | (extract_lets +onlyGivenNames y; with_reducible refine keeps_cut (s := y) ?_ ?_; unfold y; clear y; rotate_left; intro hy; clear_value y; revert y; intros)
    | with_reducible refine keeps_upd (by with_reducible assumption)
    | (extract_lets +onlyGivenNames y; clear_value y; revert y; intros)
    | with_reducible refine keeps_ite ?_ ?_
    | with_reducible apply wr_keeps
    | with_reducible apply updTx_keeps
    | with_reducible apply nodeBcast_keeps
    | with_reducible apply inc_keeps
    | with_reducible apply nodeAsk_keeps
    | with_reducible apply nodeRound_keeps
    | intro _ _ hs
    | intro _ hs
    | intro hs
    | split
    | with_reducible refine keeps_fst (by with_reducible assumption) ?_
    | with_reducible refine keeps_upd ?_

theorem execNodeImageSend_keeps (h : Keeps q s) : KeepsN q (execNodeImageSend a1 s) := by
  unfold execNodeImageSend
  repeat' first
    | with_reducible assumption
    | with_reducible refine keepsN_next ?_
    | (extract_lets +onlyGivenNames y; with_reducible refine keeps_cut (s := y) ?_ ?_; unfold y; clear y; rotate_left; intro hy; clear_value y; revert y; intros)
    | with_reducible refine keeps_upd (by with_reducible assumption)
    | (extract_lets +onlyGivenNames y; clear_value y; revert y; intros)
    | with_reducible refine keeps_ite ?_ ?_
    | with_reducible refine keepsN_ite ?_ ?_
    | with_reducible apply nodeStep_keeps
    | split
    | with_reducible refine keeps_fst (by with_reducible assumption) ?_
    | with_reducible refine keeps_upd ?_

theorem recReply_keeps (h : Keeps q s) : Keeps q (State.recReply s a1 a2 a3) := by
  unfold State.recReply
  repeat' first
    | with_reducible assumption
    | (extract_lets +onlyGivenNames y; with_reducible refine keeps_cut (s := y) ?_ ?_; unfold y; clear y; rotate_left; intro hy; clear_value y; revert y; intros)
    | with_reducible refine keeps_upd (by with_reducible assumption)
    | (extract_lets +onlyGivenNames y; clear_value y; revert y; intros)
    | with_reducible apply emit_keeps
    | intro _ _ hs
    | intro _ hs
    | intro hs
    | with_reducible refine keeps_upd ?_

theorem execRecoveryInfo_keeps (h : Keeps q s) : KeepsN q (execRecoveryInfo s) := by
  unfold execRecoveryInfo
  repeat' first
    | with_reducible assumption
    | with_reducible refine keepsN_next ?_
    | with_reducible refine keeps_ite ?_ ?_
    | with_reducible refine keepsN_ite ?_ ?_
    | with_reducible apply recReply_keeps
    | intro _ _ hs
    | intro _ hs
    | intro hs
    | split

theorem execRecoveryBegin_keeps (h : Keeps q s) : KeepsN q (execRecoveryBegin a1 a2 s) := by
  unfold execRecoveryBegin
  repeat' first
    | with_reducible assumption
    | with_reducible refine keepsN_next ?_
    | (extract_lets +onlyGivenNames y; with_reducible refine keeps_cut (s := y) ?_ ?_; unfold y; clear y; rotate_left; intro hy; clear_value y; revert y; intros)
    | with_reducible refine keeps_upd (by with_reducible assumption)
    | (extract_lets +onlyGivenNames y; clear_value y; revert y; intros)
    | with_reducible refine keeps_ite ?_ ?_
    | with_reducible refine keepsN_ite ?_ ?_
    | with_reducible apply recReply_keeps
    | with_reducible apply setBank_keeps
    | intro _ _ hs
    | intro _ hs
    | intro hs
    | split
    | with_reducible refine keeps_fst (by with_reducible assumption) ?_
    | with_reducible refine keeps_upd ?_

theorem execRecoveryData_keeps (h : Keeps q s) : KeepsN q (execRecoveryData a1 a2 s) := by
  unfold execRecoveryData
  repeat' first
    | with_reducible assumption
    | with_reducible refine keepsN_next ?_
    | (extract_lets +onlyGivenNames y; with_reducible refine keeps_cut (s := y) ?_ ?_; unfold y; clear y; rotate_left; intro hy; clear_value y; revert y; intros)
    | with_reducible refine keeps_upd (by with_reducible assumption)
    | (extract_lets +onlyGivenNames y; clear_value y; revert y; intros)
    | with_reducible refine keeps_ite ?_ ?_
    | with_reducible refine keepsN_ite ?_ ?_
    | with_reducible apply recReply_keeps
    | split
    | with_reducible refine keeps_fst (by with_reducible assumption) ?_
    | with_reducible refine keeps_upd ?_

theorem execRecoveryEnd_keeps (h : Keeps q s) : KeepsN q (execRecoveryEnd a1 a2 s) := by
  unfold execRecoveryEnd
  repeat' first
    | with_reducible assumption
    | with_reducible refine keepsN_next ?_
    | (extract_lets +onlyGivenNames y; with_reducible refine keeps_cut (s := y) ?_ ?_; unfold y; clear y; rotate_left; intro hy; clear_value y; revert y; intros)
    | with_reducible refine keeps_upd (by with_reducible assumption)
    | (extract_lets +onlyGivenNames y; clear_value y; revert y; intros)
    | with_reducible refine keeps_ite ?_ ?_
    | with_reducible refine keepsN_ite ?_ ?_
    | with_reducible apply recReply_keeps
    | with_reducible apply setBank_keeps
    | with_reducible apply verifyFailed_keeps
    | split
    | with_reducible refine keeps_fst (by with_reducible assumption) ?_
    | with_reducible refine keeps_upd ?_

theorem execRecoveryRestart_keeps (h : Keeps q s) : KeepsN q (execRecoveryRestart s) := by
  unfold execRecoveryRestart
  repeat' first
    | with_reducible assumption
    | with_reducible refine keepsN_next ?_
    | (extract_lets +onlyGivenNames y; with_reducible refine keeps_cut (s := y) ?_ ?_; unfold y; clear y; rotate_left; intro hy; clear_value y; revert y; intros)
    | (extract_lets +onlyGivenNames y; clear_value y; revert y; intros)
    | with_reducible refine keeps_ite ?_ ?_
    | with_reducible refine keepsN_ite ?_ ?_
    | with_reducible apply recReply_keeps
    | with_reducible apply wr_keeps
    | with_reducible apply mrst_keeps
    | with_reducible refine keeps_foldl ?_ (fun _ _ hs => ?_)
    | intro _ _ hs
    | intro _ hs
    | intro hs
    | split

theorem execRecoveryIdleTimeout_keeps (h : Keeps q s) : KeepsN q (execRecoveryIdleTimeout s) := by
  unfold execRecoveryIdleTimeout
  repeat' first
    | with_reducible assumption
    | with_reducible refine keepsN_next ?_
    | (extract_lets +onlyGivenNames y; with_reducible refine keeps_cut (s := y) ?_ ?_; unfold y; clear y; rotate_left; intro hy; clear_value y; revert y; intros)
    | with_reducible refine keeps_upd (by with_reducible assumption)
    | (extract_lets +onlyGivenNames y; clear_value y; revert y; intros)
    | with_reducible refine keeps_ite ?_ ?_
    | with_reducible refine keepsN_ite ?_ ?_
    | split
    | with_reducible refine keeps_fst (by with_reducible assumption) ?_
    | with_reducible refine keeps_upd ?_

end Sys2Proof.Laws
end

