-- ==== Sys2Proof/Laws/KeepsCommands.lean ====
section
/-! SUPPORT. Every operation and meaning of register accesses, the management path, command packets and maintenance leaves the queue of waiting commands alone and keeps a sound state sound. -/

set_option Elab.async false

namespace Sys2Proof.Laws

open Sys2Proof Sys2Proof.Machine Sys2Proof.Safety

variable {q : Prop × List Instr × Option (List (Nat × Nat))} {s : State}

/-! ### Registers -/

theorem regRead_keeps (h : Keeps q s) : Keeps q (State.regRead s a1).1 := by
  unfold State.regRead
  repeat' first
    | with_reducible assumption
    | (extract_lets +onlyGivenNames y; with_reducible refine keeps_cut (s := y) ?_ ?_; unfold y; clear y; rotate_left; intro hy; clear_value y; revert y; intros)
    | (extract_lets +onlyGivenNames y; with_reducible refine keeps_tbid y ?_; revert y; intro _)
    | (with_reducible refine keeps_tb ?_; with_reducible assumption)
    | (with_reducible refine keeps_tb2 (t := s) ?_ ?_ <;> with_reducible assumption)
    | with_reducible refine keeps_upd (by with_reducible assumption)
    | (extract_lets +onlyGivenNames y; clear_value y; revert y; intros)
    | with_reducible refine keeps_ite ?_ ?_
    | with_reducible apply landNow_keeps
    | with_reducible apply hartNow_keeps
    | with_reducible apply loopRead_keeps
    | with_reducible apply storeRead_keeps
    | split
    | with_reducible refine keeps_fst (by with_reducible assumption) ?_
    | with_reducible refine keeps_upd ?_

theorem regReads_keeps (h : Keeps q s) : Keeps q (State.regReads s a1 a2).1 := by
  induction a2 generalizing s a1 with
  | zero => exact h
  | succ n ih => exact ih (regRead_keeps h)

theorem execWideCounterLowRead_keeps (h : Keeps q s) : KeepsN q (execWideCounterLowRead a1 s) := by
  unfold execWideCounterLowRead
  repeat' first
    | with_reducible assumption
    | with_reducible refine keepsN_next ?_
    | (extract_lets +onlyGivenNames y; with_reducible refine keeps_cut (s := y) ?_ ?_; unfold y; clear y; rotate_left; intro hy; clear_value y; revert y; intros)
    | with_reducible refine keeps_upd (by with_reducible assumption)
    | (extract_lets +onlyGivenNames y; clear_value y; revert y; intros)
    | with_reducible refine keeps_ite ?_ ?_
    | with_reducible refine keepsN_ite ?_ ?_
    | with_reducible apply regRead_keeps
    | split
    | with_reducible refine keeps_fst (by with_reducible assumption) ?_
    | with_reducible refine keeps_upd ?_

theorem fieldWrite_keeps (h : Keeps q s) : Keeps q (State.fieldWrite s a1 a2 a3 a4 a5) := by
  unfold State.fieldWrite
  repeat' first
    | with_reducible assumption
    | (extract_lets +onlyGivenNames y; with_reducible refine keeps_cut (s := y) ?_ ?_; unfold y; clear y; rotate_left; intro hy; clear_value y; revert y; intros)
    | with_reducible refine keeps_upd (by with_reducible assumption)
    | (extract_lets +onlyGivenNames y; clear_value y; revert y; intros)
    | with_reducible refine keeps_ite ?_ ?_
    | with_reducible apply wr_keeps
    | with_reducible apply stage_keeps
    | split
    | with_reducible refine keeps_fst (by with_reducible assumption) ?_
    | with_reducible refine keeps_upd ?_

theorem putWord_keeps (h : Keeps q s) : Keeps q (State.putWord s a1 a2) := by
  unfold State.putWord
  repeat' first
    | with_reducible assumption
    | with_reducible apply fieldWrite_keeps
    | with_reducible refine keeps_foldl ?_ (fun _ _ hs => ?_)
    | intro _ _ hs
    | intro _ hs
    | intro hs

theorem act_keeps (h : Keeps q s) (hf : ∀ s, Keeps q s → KeepsN q (f s)) : Keeps q (State.act s f) := by
  unfold State.act
  split
  · exact (hf s h).next _ ‹_›
  · exact h

theorem onBit_keeps (h : Keeps q s) (hf : ∀ s, Keeps q s → KeepsN q (f s)) : Keeps q (State.onBit s a1 a2 f) := by
  unfold State.onBit
  repeat' first
    | with_reducible assumption
    | with_reducible refine keeps_ite ?_ ?_
    | with_reducible apply act_keeps
    | with_reducible apply hf
    | split

theorem tbWrite_keeps (h : Keeps q s) : Keeps q (State.tbWrite s a1 a2) := by
  unfold State.tbWrite
  repeat' first
    | with_reducible assumption
    | (extract_lets +onlyGivenNames y; with_reducible refine keeps_cut (s := y) ?_ ?_; unfold y; clear y; rotate_left; intro hy; clear_value y; revert y; intros)
    | with_reducible refine keeps_upd (by with_reducible assumption)
    | (extract_lets +onlyGivenNames y; clear_value y; revert y; intros)
    | with_reducible refine keeps_ite ?_ ?_
    | with_reducible apply onBit_keeps
    | with_reducible apply refSel_keeps
    | with_reducible apply execSnap_keeps
    | with_reducible apply wr_keeps
    | with_reducible apply putWord_keeps
    | with_reducible apply execTodsetNow_keeps
    | with_reducible apply execTodsetArm_keeps
    | with_reducible apply act_keeps
    | with_reducible apply execTbIncWrite_keeps
    | with_reducible apply execLgOneShotArm_keeps
    | with_reducible apply execLgConfigWrite_keeps
    | with_reducible apply execLgMemberWrite_keeps
    | with_reducible refine keeps_foldl ?_ (fun _ _ hs => ?_)
    | intro _ _ hs
    | intro _ hs
    | intro hs
    | split
    | with_reducible refine keeps_fst (by with_reducible assumption) ?_
    | with_reducible refine keeps_upd ?_

theorem ttWrite_keeps (h : Keeps q s) : Keeps q (State.ttWrite s a1 a2) := by
  unfold State.ttWrite
  repeat' first
    | with_reducible assumption
    | (extract_lets +onlyGivenNames y; with_reducible refine keeps_cut (s := y) ?_ ?_; unfold y; clear y; rotate_left; intro hy; clear_value y; revert y; intros)
    | with_reducible refine keeps_upd (by with_reducible assumption)
    | (extract_lets +onlyGivenNames y; clear_value y; revert y; intros)
    | with_reducible refine keeps_ite ?_ ?_
    | with_reducible apply act_keeps
    | with_reducible apply execFramePeriodWrite_keeps
    | with_reducible apply putWord_keeps
    | with_reducible apply onBit_keeps
    | with_reducible apply execTtAdmStart_keeps
    | with_reducible apply execTtAdmAbort_keeps
    | with_reducible apply loseSwitch_keeps
    | with_reducible apply execTtModePrepare_keeps
    | with_reducible apply execTtModeArm_keeps
    | with_reducible apply execTtModeCancel_keeps
    | with_reducible apply execTtRunStart_keeps
    | with_reducible apply execTtRunStop_keeps
    | with_reducible apply execTtRunLrst_keeps
    | with_reducible apply execTtRetClear_keeps
    | with_reducible refine keeps_foldl ?_ (fun _ _ hs => ?_)
    | intro _ _ hs
    | intro _ hs
    | intro hs
    | split
    | with_reducible refine keeps_fst (by with_reducible assumption) ?_
    | with_reducible refine keeps_upd ?_

theorem engineWrite_keeps (h : Keeps q s) : Keeps q (State.engineWrite s a1 a2) := by
  unfold State.engineWrite
  repeat' first
    | with_reducible assumption
    | (extract_lets +onlyGivenNames y; with_reducible refine keeps_cut (s := y) ?_ ?_; unfold y; clear y; rotate_left; intro hy; clear_value y; revert y; intros)
    | with_reducible refine keeps_upd (by with_reducible assumption)
    | (extract_lets +onlyGivenNames y; clear_value y; revert y; intros)
    | with_reducible refine keeps_ite ?_ ?_
    | with_reducible apply landNow_keeps
    | with_reducible apply putWord_keeps
    | with_reducible apply onBit_keeps
    | with_reducible apply execLtRelocCheck_keeps
    | with_reducible apply execLtRelocCommit_keeps
    | with_reducible apply act_keeps
    | with_reducible apply execLpWinWrite_keeps
    | with_reducible apply execSvWinWrite_keeps
    | with_reducible apply execSvRelocCommit_keeps
    | with_reducible apply svShadowOrder_keeps
    | with_reducible apply execSvDmaStart_keeps
    | with_reducible apply execSvDmaAbort_keeps
    | with_reducible refine keeps_foldl ?_ (fun _ _ hs => ?_)
    | intro _ _ hs
    | intro _ hs
    | intro hs
    | split
    | with_reducible refine keeps_fst (by with_reducible assumption) ?_
    | with_reducible refine keeps_upd ?_

theorem fgWrite_keeps (h : Keeps q s) : Keeps q (State.fgWrite s a1 a2 a3 a4) := by
  unfold State.fgWrite
  repeat' first
    | with_reducible assumption
    | (extract_lets +onlyGivenNames y; with_reducible refine keeps_cut (s := y) ?_ ?_; unfold y; clear y; rotate_left; intro hy; clear_value y; revert y; intros)
    | with_reducible refine keeps_upd (by with_reducible assumption)
    | (extract_lets +onlyGivenNames y; clear_value y; revert y; intros)
    | with_reducible refine keeps_ite ?_ ?_
    | with_reducible apply onBit_keeps
    | with_reducible apply execFgApply_keeps
    | with_reducible apply execFgApplyCancel_keeps
    | with_reducible apply putWord_keeps
    | with_reducible apply execFgSpareStart_keeps
    | with_reducible apply execFgSpareCancel_keeps
    | with_reducible apply act_keeps
    | with_reducible apply execChFlagsWrite_keeps
    | with_reducible refine keeps_foldl ?_ (fun _ _ hs => ?_)
    | intro _ _ hs
    | intro _ hs
    | intro hs
    | split
    | with_reducible refine keeps_fst (by with_reducible assumption) ?_
    | with_reducible refine keeps_upd ?_

theorem chainWrite_keeps (h : Keeps q s) : Keeps q (State.chainWrite s a1 a2 a3 a4) := by
  unfold State.chainWrite
  repeat' first
    | with_reducible assumption
    | (extract_lets +onlyGivenNames y; with_reducible refine keeps_cut (s := y) ?_ ?_; unfold y; clear y; rotate_left; intro hy; clear_value y; revert y; intros)
    | with_reducible refine keeps_upd (by with_reducible assumption)
    | (extract_lets +onlyGivenNames y; clear_value y; revert y; intros)
    | with_reducible refine keeps_ite ?_ ?_
    | with_reducible apply putWord_keeps
    | with_reducible apply onBit_keeps
    | with_reducible apply execChApply_keeps
    | with_reducible apply execChCancel_keeps
    | with_reducible apply execChDiscover_keeps
    | with_reducible apply execChWake_keeps
    | with_reducible apply execChSleep_keeps
    | with_reducible apply execChFaultClr_keeps
    | with_reducible refine keeps_foldl ?_ (fun _ _ hs => ?_)
    | intro _ _ hs
    | intro _ hs
    | intro hs
    | split
    | with_reducible refine keeps_fst (by with_reducible assumption) ?_
    | with_reducible refine keeps_upd ?_

theorem canWrite_keeps (h : Keeps q s) : Keeps q (State.canWrite s a1 a2 a3 a4) := by
  unfold State.canWrite
  repeat' first
    | with_reducible assumption
    | (extract_lets +onlyGivenNames y; with_reducible refine keeps_cut (s := y) ?_ ?_; unfold y; clear y; rotate_left; intro hy; clear_value y; revert y; intros)
    | with_reducible refine keeps_upd (by with_reducible assumption)
    | (extract_lets +onlyGivenNames y; clear_value y; revert y; intros)
    | with_reducible refine keeps_ite ?_ ?_
    | with_reducible apply putWord_keeps
    | with_reducible apply onBit_keeps
    | with_reducible apply execCfApply_keeps
    | with_reducible apply execCfCancel_keeps
    | with_reducible apply execCfRecover_keeps
    | with_reducible apply act_keeps
    | with_reducible apply execCfTxbAbort_keeps
    | with_reducible refine keeps_foldl ?_ (fun _ _ hs => ?_)
    | intro _ _ hs
    | intro _ hs
    | intro hs
    | split
    | with_reducible refine keeps_fst (by with_reducible assumption) ?_
    | with_reducible refine keeps_upd ?_

theorem ethWrite_keeps (h : Keeps q s) : Keeps q (State.ethWrite s a1 a2) := by
  unfold State.ethWrite
  repeat' first
    | with_reducible assumption
    | (extract_lets +onlyGivenNames y; with_reducible refine keeps_cut (s := y) ?_ ?_; unfold y; clear y; rotate_left; intro hy; clear_value y; revert y; intros)
    | (extract_lets +onlyGivenNames y; clear_value y; revert y; intros)
    | with_reducible refine keeps_ite ?_ ?_
    | with_reducible apply putWord_keeps
    | with_reducible apply onBit_keeps
    | with_reducible apply execEsRtApply_keeps
    | with_reducible apply execEsRtCancel_keeps
    | with_reducible apply setWord_keeps
    | with_reducible apply servoCfg_keeps
    | split

theorem unitWrite_keeps (h : Keeps q s) : Keeps q (State.unitWrite s a1 a2) := by
  unfold State.unitWrite
  repeat' first
    | with_reducible assumption
    | (extract_lets +onlyGivenNames y; with_reducible refine keeps_cut (s := y) ?_ ?_; unfold y; clear y; rotate_left; intro hy; clear_value y; revert y; intros)
    | with_reducible refine keeps_upd (by with_reducible assumption)
    | (extract_lets +onlyGivenNames y; clear_value y; revert y; intros)
    | with_reducible refine keeps_ite ?_ ?_
    | with_reducible apply pairLinks_keeps
    | with_reducible apply putWord_keeps
    | with_reducible apply onBit_keeps
    | with_reducible apply joinAsk_keeps
    | with_reducible apply execPaCmdLeave_keeps
    | with_reducible apply execPaCmdHandover_keeps
    | with_reducible apply execPaCmdCancel_keeps
    | with_reducible apply evalTrips_keeps
    | with_reducible apply act_keeps
    | with_reducible apply tripReset_keeps
    | with_reducible apply execSsTripCmd_keeps
    | with_reducible apply execSeMboxGo_keeps
    | with_reducible apply execDgSubmit_keeps
    | with_reducible apply execDgDonePop_keeps
    | with_reducible apply hsLevels_keeps
    | with_reducible apply execHsSwitchStart_keeps
    | with_reducible apply execHsSwitchCancel_keeps
    | with_reducible apply execHsClearGo_keeps
    | with_reducible apply execMgRxPop_keeps
    | with_reducible refine keeps_foldl ?_ (fun _ _ hs => ?_)
    | intro _ _ hs
    | intro _ hs
    | intro hs
    | split
    | with_reducible refine keeps_fst (by with_reducible assumption) ?_
    | with_reducible refine keeps_upd ?_

theorem regWrite_keeps (h : Keeps q s) : Keeps q (State.regWrite s a1 a2) := by
  unfold State.regWrite
  repeat' first
    | with_reducible assumption
    | (extract_lets +onlyGivenNames y; with_reducible refine keeps_cut (s := y) ?_ ?_; unfold y; clear y; rotate_left; intro hy; clear_value y; revert y; intros)
    | with_reducible refine keeps_upd (by with_reducible assumption)
    | (extract_lets +onlyGivenNames y; clear_value y; revert y; intros)
    | with_reducible refine keeps_ite ?_ ?_
    | with_reducible apply tbWrite_keeps
    | with_reducible apply ttWrite_keeps
    | with_reducible apply engineWrite_keeps
    | with_reducible apply fgWrite_keeps
    | with_reducible apply chainWrite_keeps
    | with_reducible apply canWrite_keeps
    | with_reducible apply onBit_keeps
    | with_reducible apply execDioApply_keeps
    | with_reducible apply execDioApplyCancel_keeps
    | with_reducible apply putWord_keeps
    | with_reducible apply execChIngApply_keeps
    | with_reducible apply execChIngCancel_keeps
    | with_reducible apply ethWrite_keeps
    | with_reducible apply unitWrite_keeps
    | split
    | with_reducible refine keeps_fst (by with_reducible assumption) ?_
    | with_reducible refine keeps_upd ?_

theorem execRegisterWrite_keeps (h : Keeps q s) : KeepsN q (execRegisterWrite a1 a2 a3 s) := by
  unfold execRegisterWrite
  repeat' first
    | with_reducible assumption
    | with_reducible refine keepsN_next ?_
    | with_reducible refine keeps_ite ?_ ?_
    | with_reducible refine keepsN_ite ?_ ?_
    | with_reducible apply regWrite_keeps
    | split

/-! ### PathRx -/

theorem partnerJoins_keeps (h : Keeps q s) : Keeps q (State.partnerJoins s a1) := by
  unfold State.partnerJoins
  repeat' first
    | with_reducible assumption
    | (extract_lets +onlyGivenNames y; with_reducible refine keeps_cut (s := y) ?_ ?_; unfold y; clear y; rotate_left; intro hy; clear_value y; revert y; intros)
    | with_reducible refine keeps_upd (by with_reducible assumption)
    | (extract_lets +onlyGivenNames y; clear_value y; revert y; intros)
    | with_reducible refine keeps_ite ?_ ?_
    | with_reducible apply wr_keeps
    | split
    | with_reducible refine keeps_upd ?_

theorem partnerPrepared_keeps (h : Keeps q s) : Keeps q (State.partnerPrepared s a1 a2) := by
  unfold State.partnerPrepared
  repeat' first
    | with_reducible assumption
    | (extract_lets +onlyGivenNames y; with_reducible refine keeps_cut (s := y) ?_ ?_; unfold y; clear y; rotate_left; intro hy; clear_value y; revert y; intros)
    | with_reducible refine keeps_upd (by with_reducible assumption)
    | (extract_lets +onlyGivenNames y; clear_value y; revert y; intros)
    | with_reducible refine keeps_ite ?_ ?_
    | with_reducible apply prepareDone_keeps
    | with_reducible apply wake_keeps
    | with_reducible apply dropSwitch_keeps
    | with_reducible apply modeEvent_keeps
    | with_reducible apply modeState_keeps
    | split
    | with_reducible refine keeps_fst (by with_reducible assumption) ?_
    | with_reducible refine keeps_upd ?_

theorem execManagementPathMessageRx_keeps (h : Keeps q s) : KeepsN q (execManagementPathMessageRx a1 s) := by
  unfold execManagementPathMessageRx
  repeat' first
    | with_reducible assumption
    | with_reducible refine keepsN_next ?_
    | (extract_lets +onlyGivenNames y; with_reducible refine keeps_cut (s := y) ?_ ?_; unfold y; clear y; rotate_left; intro hy; clear_value y; revert y; intros)
    | with_reducible refine keeps_upd (by with_reducible assumption)
    | (extract_lets +onlyGivenNames y; clear_value y; revert y; intros)
    | with_reducible refine keeps_ite ?_ ?_
    | with_reducible refine keepsN_ite ?_ ?_
    | with_reducible apply armHandover_keeps
    | with_reducible apply partnerJoins_keeps
    | with_reducible apply joinAnswer_keeps
    | with_reducible apply modePrepare_keeps
    | with_reducible apply partnerPrepared_keeps
    | with_reducible apply modeCancel_keeps
    | with_reducible apply scheduleFrom_keeps
    | with_reducible apply scheduleConfirmed_keeps
    | with_reducible apply restartLinks_keeps
    | split
    | with_reducible refine keeps_fst (by with_reducible assumption) ?_
    | with_reducible refine keeps_upd ?_

/-! ### Commands -/

theorem heldBy_keeps (h : Keeps q s) (hf : ∀ s, Keeps q s → Keeps q (f s)) : Keeps q (State.heldBy s a1 a2 a3 f) := by
  unfold State.heldBy
  repeat' first
    | with_reducible assumption
    | (extract_lets +onlyGivenNames y; with_reducible refine keeps_cut (s := y) ?_ ?_; unfold y; clear y; rotate_left; intro hy; clear_value y; revert y; intros)
    | with_reducible refine keeps_upd (by with_reducible assumption)
    | (extract_lets +onlyGivenNames y; clear_value y; revert y; intros)
    | with_reducible refine keeps_ite ?_ ?_
    | with_reducible apply reply_keeps
    | with_reducible apply hf
    | split
    | with_reducible refine keeps_fst (by with_reducible assumption) ?_
    | with_reducible refine keeps_upd ?_

theorem inRange_keeps (h : Keeps q s) (hf : ∀ s, Keeps q s → Keeps q (f s)) : Keeps q (State.inRange s a1 a2 a3 a4 f) := by
  unfold State.inRange
  repeat' first
    | with_reducible assumption
    | with_reducible refine keeps_ite ?_ ?_
    | with_reducible apply reply_keeps
    | with_reducible apply hf
    | split

theorem require_keeps (h : Keeps q s) (hf : ∀ s, Keeps q s → Keeps q (f s)) : Keeps q (State.require s a1 a2 a3 a4 f) := by
  unfold State.require
  repeat' first
    | with_reducible assumption
    | with_reducible refine keeps_ite ?_ ?_
    | with_reducible apply reply_keeps
    | with_reducible apply hf
    | split

theorem execHello_keeps (h : Keeps q s) : KeepsN q (execHello a1 a2 a3 s) := by
  unfold execHello
  repeat' first
    | with_reducible assumption
    | with_reducible refine keepsN_next ?_
    | (extract_lets +onlyGivenNames y; with_reducible refine keeps_cut (s := y) ?_ ?_; unfold y; clear y; rotate_left; intro hy; clear_value y; revert y; intros)
    | with_reducible refine keeps_upd (by with_reducible assumption)
    | (extract_lets +onlyGivenNames y; clear_value y; revert y; intros)
    | with_reducible refine keeps_ite ?_ ?_
    | with_reducible refine keepsN_ite ?_ ?_
    | with_reducible apply command_keeps
    | with_reducible apply reply_keeps
    | with_reducible apply updSession_keeps
    | intro _ _ hs
    | intro _ hs
    | intro hs
    | split
    | with_reducible refine keeps_upd ?_

theorem execPing_keeps (h : Keeps q s) : KeepsN q (execPing a1 s) := by
  unfold execPing
  repeat' first
    | with_reducible assumption
    | with_reducible refine keepsN_next ?_
    | (extract_lets +onlyGivenNames y; with_reducible refine keeps_cut (s := y) ?_ ?_; unfold y; clear y; rotate_left; intro hy; clear_value y; revert y; intros)
    | (extract_lets +onlyGivenNames y; clear_value y; revert y; intros)
    | with_reducible apply command_keeps
    | with_reducible apply reply_keeps
    | intro _ _ hs
    | intro _ hs
    | intro hs

theorem execStatus_keeps (h : Keeps q s) : KeepsN q (execStatus a1 s) := by
  unfold execStatus
  repeat' first
    | with_reducible assumption
    | with_reducible refine keepsN_next ?_
    | (extract_lets +onlyGivenNames y; with_reducible refine keeps_cut (s := y) ?_ ?_; unfold y; clear y; rotate_left; intro hy; clear_value y; revert y; intros)
    | (extract_lets +onlyGivenNames y; clear_value y; revert y; intros)
    | with_reducible apply command_keeps
    | with_reducible apply nextFree_keeps
    | with_reducible apply reply_keeps
    | intro _ _ hs
    | intro _ hs
    | intro hs

theorem execSubscribe_keeps (h : Keeps q s) : KeepsN q (execSubscribe a1 a2 s) := by
  unfold execSubscribe
  repeat' first
    | with_reducible assumption
    | with_reducible refine keepsN_next ?_
    | (extract_lets +onlyGivenNames y; with_reducible refine keeps_cut (s := y) ?_ ?_; unfold y; clear y; rotate_left; intro hy; clear_value y; revert y; intros)
    | with_reducible refine keeps_upd (by with_reducible assumption)
    | (extract_lets +onlyGivenNames y; clear_value y; revert y; intros)
    | with_reducible apply command_keeps
    | with_reducible apply reply_keeps
    | with_reducible apply updSession_keeps
    | intro _ _ hs
    | intro _ hs
    | intro hs
    | with_reducible refine keeps_upd ?_

theorem execVersions_keeps (h : Keeps q s) : KeepsN q (execVersions a1 s) := by
  unfold execVersions
  repeat' first
    | with_reducible assumption
    | with_reducible refine keepsN_next ?_
    | (extract_lets +onlyGivenNames y; with_reducible refine keeps_cut (s := y) ?_ ?_; unfold y; clear y; rotate_left; intro hy; clear_value y; revert y; intros)
    | (extract_lets +onlyGivenNames y; clear_value y; revert y; intros)
    | with_reducible apply command_keeps
    | with_reducible apply reply_keeps
    | intro _ _ hs
    | intro _ hs
    | intro hs

theorem execBye_keeps (h : Keeps q s) : KeepsN q (execBye a1 s) := by
  unfold execBye
  repeat' first
    | with_reducible assumption
    | with_reducible refine keepsN_next ?_
    | (extract_lets +onlyGivenNames y; with_reducible refine keeps_cut (s := y) ?_ ?_; unfold y; clear y; rotate_left; intro hy; clear_value y; revert y; intros)
    | (extract_lets +onlyGivenNames y; clear_value y; revert y; intros)
    | with_reducible apply command_keeps
    | with_reducible apply closeSession_keeps
    | with_reducible apply reply_keeps
    | intro _ _ hs
    | intro _ hs
    | intro hs

theorem execModeRead_keeps (h : Keeps q s) : KeepsN q (execModeRead a1 s) := by
  unfold execModeRead
  repeat' first
    | with_reducible assumption
    | with_reducible refine keepsN_next ?_
    | (extract_lets +onlyGivenNames y; with_reducible refine keeps_cut (s := y) ?_ ?_; unfold y; clear y; rotate_left; intro hy; clear_value y; revert y; intros)
    | (extract_lets +onlyGivenNames y; clear_value y; revert y; intros)
    | with_reducible apply command_keeps
    | with_reducible apply reply_keeps
    | intro _ _ hs
    | intro _ hs
    | intro hs

theorem execModePrepare_keeps (h : Keeps q s) : KeepsN q (execModePrepare a1 a2 s) := by
  unfold execModePrepare
  repeat' first
    | with_reducible assumption
    | with_reducible refine keepsN_next ?_
    | (extract_lets +onlyGivenNames y; with_reducible refine keeps_cut (s := y) ?_ ?_; unfold y; clear y; rotate_left; intro hy; clear_value y; revert y; intros)
    | with_reducible refine keeps_upd (by with_reducible assumption)
    | (extract_lets +onlyGivenNames y; clear_value y; revert y; intros)
    | with_reducible refine keeps_ite ?_ ?_
    | with_reducible refine keepsN_ite ?_ ?_
    | with_reducible apply command_keeps
    | with_reducible apply heldBy_keeps
    | with_reducible apply inRange_keeps
    | with_reducible apply modePrepare_keeps
    | with_reducible apply reply_keeps
    | with_reducible apply await_keeps
    | with_reducible apply path_keeps
    | intro _ _ hs
    | intro _ hs
    | intro hs
    | split
    | with_reducible refine keeps_upd ?_

theorem execModeArm_keeps (h : Keeps q s) : KeepsN q (execModeArm a1 a2 s) := by
  unfold execModeArm
  repeat' first
    | with_reducible assumption
    | with_reducible refine keepsN_next ?_
    | (extract_lets +onlyGivenNames y; with_reducible refine keeps_cut (s := y) ?_ ?_; unfold y; clear y; rotate_left; intro hy; clear_value y; revert y; intros)
    | with_reducible refine keeps_upd (by with_reducible assumption)
    | (extract_lets +onlyGivenNames y; clear_value y; revert y; intros)
    | with_reducible refine keeps_ite ?_ ?_
    | with_reducible refine keepsN_ite ?_ ?_
    | with_reducible apply command_keeps
    | with_reducible apply heldBy_keeps
    | with_reducible apply reply_keeps
    | with_reducible apply modeArm_keeps
    | with_reducible apply wr64_keeps
    | intro _ _ hs
    | intro _ hs
    | intro hs
    | split
    | with_reducible refine keeps_fst (by with_reducible assumption) ?_
    | with_reducible refine keeps_upd ?_

theorem execModeStatus_keeps (h : Keeps q s) : KeepsN q (execModeStatus a1 s) := by
  unfold execModeStatus
  repeat' first
    | with_reducible assumption
    | with_reducible refine keepsN_next ?_
    | (extract_lets +onlyGivenNames y; with_reducible refine keeps_cut (s := y) ?_ ?_; unfold y; clear y; rotate_left; intro hy; clear_value y; revert y; intros)
    | (extract_lets +onlyGivenNames y; clear_value y; revert y; intros)
    | with_reducible apply command_keeps
    | with_reducible apply reply_keeps
    | intro _ _ hs
    | intro _ hs
    | intro hs

theorem execModeCancel_keeps (h : Keeps q s) : KeepsN q (execModeCancel a1 s) := by
  unfold execModeCancel
  repeat' first
    | with_reducible assumption
    | with_reducible refine keepsN_next ?_
    | (extract_lets +onlyGivenNames y; with_reducible refine keeps_cut (s := y) ?_ ?_; unfold y; clear y; rotate_left; intro hy; clear_value y; revert y; intros)
    | (extract_lets +onlyGivenNames y; clear_value y; revert y; intros)
    | with_reducible refine keeps_ite ?_ ?_
    | with_reducible refine keepsN_ite ?_ ?_
    | with_reducible apply command_keeps
    | with_reducible apply heldBy_keeps
    | with_reducible apply modeCancel_keeps
    | with_reducible apply reply_keeps
    | with_reducible apply path_keeps
    | intro _ _ hs
    | intro _ hs
    | intro hs
    | split

theorem execSlotRename_keeps (h : Keeps q s) : KeepsN q (execSlotRename a1 a2 a3 s) := by
  unfold execSlotRename
  repeat' first
    | with_reducible assumption
    | with_reducible refine keepsN_next ?_
    | (extract_lets +onlyGivenNames y; with_reducible refine keeps_cut (s := y) ?_ ?_; unfold y; clear y; rotate_left; intro hy; clear_value y; revert y; intros)
    | with_reducible refine keeps_upd (by with_reducible assumption)
    | (extract_lets +onlyGivenNames y; clear_value y; revert y; intros)
    | with_reducible refine keeps_ite ?_ ?_
    | with_reducible refine keepsN_ite ?_ ?_
    | with_reducible apply command_keeps
    | with_reducible apply reply_keeps
    | with_reducible apply inRange_keeps
    | intro _ _ hs
    | intro _ hs
    | intro hs
    | split
    | with_reducible refine keeps_upd ?_

theorem execSlotClear_keeps (h : Keeps q s) : KeepsN q (execSlotClear a1 a2 s) := by
  unfold execSlotClear
  repeat' first
    | with_reducible assumption
    | with_reducible refine keepsN_next ?_
    | (extract_lets +onlyGivenNames y; with_reducible refine keeps_cut (s := y) ?_ ?_; unfold y; clear y; rotate_left; intro hy; clear_value y; revert y; intros)
    | (extract_lets +onlyGivenNames y; clear_value y; revert y; intros)
    | with_reducible refine keeps_ite ?_ ?_
    | with_reducible refine keepsN_ite ?_ ?_
    | with_reducible apply command_keeps
    | with_reducible apply reply_keeps
    | with_reducible apply setSlot_keeps
    | intro _ _ hs
    | intro _ hs
    | intro hs
    | split

theorem execStart_keeps (h : Keeps q s) : KeepsN q (execStart a1 a2 s) := by
  unfold execStart
  repeat' first
    | with_reducible assumption
    | with_reducible refine keepsN_next ?_
    | (extract_lets +onlyGivenNames y; with_reducible refine keeps_cut (s := y) ?_ ?_; unfold y; clear y; rotate_left; intro hy; clear_value y; revert y; intros)
    | (extract_lets +onlyGivenNames y; clear_value y; revert y; intros)
    | with_reducible refine keeps_ite ?_ ?_
    | with_reducible refine keepsN_ite ?_ ?_
    | with_reducible apply command_keeps
    | with_reducible apply inRange_keeps
    | with_reducible apply reply_keeps
    | with_reducible apply start_keeps
    | with_reducible apply wr_keeps
    | with_reducible apply await_keeps
    | intro _ _ hs
    | intro _ hs
    | intro hs
    | split

theorem execStop_keeps (h : Keeps q s) : KeepsN q (execStop a1 s) := by
  unfold execStop
  repeat' first
    | with_reducible assumption
    | with_reducible refine keepsN_next ?_
    | (extract_lets +onlyGivenNames y; with_reducible refine keeps_cut (s := y) ?_ ?_; unfold y; clear y; rotate_left; intro hy; clear_value y; revert y; intros)
    | (extract_lets +onlyGivenNames y; clear_value y; revert y; intros)
    | with_reducible apply command_keeps
    | with_reducible apply require_keeps
    | with_reducible apply stopOrder_keeps
    | with_reducible apply await_keeps
    | intro _ _ hs
    | intro _ hs
    | intro hs

theorem execLrst_keeps (h : Keeps q s) : KeepsN q (execLrst a1 s) := by
  unfold execLrst
  repeat' first
    | with_reducible assumption
    | with_reducible refine keepsN_next ?_
    | (extract_lets +onlyGivenNames y; with_reducible refine keeps_cut (s := y) ?_ ?_; unfold y; clear y; rotate_left; intro hy; clear_value y; revert y; intros)
    | (extract_lets +onlyGivenNames y; clear_value y; revert y; intros)
    | with_reducible apply command_keeps
    | with_reducible apply reply_keeps
    | with_reducible apply lrst_keeps
    | intro _ _ hs
    | intro _ hs
    | intro hs

theorem execRunStatus_keeps (h : Keeps q s) : KeepsN q (execRunStatus a1 s) := by
  unfold execRunStatus
  repeat' first
    | with_reducible assumption
    | with_reducible refine keepsN_next ?_
    | (extract_lets +onlyGivenNames y; with_reducible refine keeps_cut (s := y) ?_ ?_; unfold y; clear y; rotate_left; intro hy; clear_value y; revert y; intros)
    | (extract_lets +onlyGivenNames y; clear_value y; revert y; intros)
    | with_reducible apply command_keeps
    | with_reducible apply reply_keeps
    | intro _ _ hs
    | intro _ hs
    | intro hs

theorem execAdmitCmd_keeps (h : Keeps q s) : KeepsN q (execAdmitCmd a1 a2 a3 s) := by
  unfold execAdmitCmd
  repeat' first
    | with_reducible assumption
    | with_reducible refine keepsN_next ?_
    | (extract_lets +onlyGivenNames y; with_reducible refine keeps_cut (s := y) ?_ ?_; unfold y; clear y; rotate_left; intro hy; clear_value y; revert y; intros)
    | (extract_lets +onlyGivenNames y; clear_value y; revert y; intros)
    | with_reducible refine keeps_ite ?_ ?_
    | with_reducible refine keepsN_ite ?_ ?_
    | with_reducible apply command_keeps
    | with_reducible apply inRange_keeps
    | with_reducible apply reply_keeps
    | with_reducible apply admStart_keeps
    | with_reducible apply await_keeps
    | intro _ _ hs
    | intro _ hs
    | intro hs
    | split

theorem execAdmitStatus_keeps (h : Keeps q s) : KeepsN q (execAdmitStatus a1 s) := by
  unfold execAdmitStatus
  repeat' first
    | with_reducible assumption
    | with_reducible refine keepsN_next ?_
    | (extract_lets +onlyGivenNames y; with_reducible refine keeps_cut (s := y) ?_ ?_; unfold y; clear y; rotate_left; intro hy; clear_value y; revert y; intros)
    | (extract_lets +onlyGivenNames y; clear_value y; revert y; intros)
    | with_reducible apply command_keeps
    | with_reducible apply reply_keeps
    | intro _ _ hs
    | intro _ hs
    | intro hs

theorem execAutorun_keeps (h : Keeps q s) : KeepsN q (execAutorun a1 a2 s) := by
  unfold execAutorun
  repeat' first
    | with_reducible assumption
    | with_reducible refine keepsN_next ?_
    | (extract_lets +onlyGivenNames y; with_reducible refine keeps_cut (s := y) ?_ ?_; unfold y; clear y; rotate_left; intro hy; clear_value y; revert y; intros)
    | (extract_lets +onlyGivenNames y; clear_value y; revert y; intros)
    | with_reducible apply command_keeps
    | with_reducible apply inRange_keeps
    | with_reducible apply reply_keeps
    | with_reducible apply wr_keeps
    | intro _ _ hs
    | intro _ hs
    | intro hs

theorem serveAll_keeps (h : Keeps q s) : Keeps q (State.serveAll s a1) := by
  unfold State.serveAll
  repeat' first
    | with_reducible assumption
    | with_reducible apply serve_keeps
    | with_reducible refine keeps_foldl ?_ (fun _ _ hs => ?_)
    | intro _ _ hs
    | intro _ hs
    | intro hs

theorem execRetExport_keeps (h : Keeps q s) : KeepsN q (execRetExport a1 s) := by
  unfold execRetExport
  repeat' first
    | with_reducible assumption
    | with_reducible refine keepsN_next ?_
    | (extract_lets +onlyGivenNames y; with_reducible refine keeps_cut (s := y) ?_ ?_; unfold y; clear y; rotate_left; intro hy; clear_value y; revert y; intros)
    | (extract_lets +onlyGivenNames y; clear_value y; revert y; intros)
    | with_reducible apply command_keeps
    | with_reducible apply serveAll_keeps
    | with_reducible apply reply_keeps
    | intro _ _ hs
    | intro _ hs
    | intro hs
    | split
    | with_reducible refine keeps_fst (by with_reducible assumption) ?_

theorem execRetImport_keeps (h : Keeps q s) : KeepsN q (execRetImport a1 a2 a3 s) := by
  unfold execRetImport
  repeat' first
    | with_reducible assumption
    | with_reducible refine keepsN_next ?_
    | (extract_lets +onlyGivenNames y; with_reducible refine keeps_cut (s := y) ?_ ?_; unfold y; clear y; rotate_left; intro hy; clear_value y; revert y; intros)
    | (extract_lets +onlyGivenNames y; clear_value y; revert y; intros)
    | with_reducible apply command_keeps
    | with_reducible apply require_keeps
    | with_reducible apply inRange_keeps
    | with_reducible apply reply_keeps
    | with_reducible apply act_keeps
    | with_reducible apply execPortbBankWrite_keeps
    | intro _ _ hs
    | intro _ hs
    | intro hs
    | split
    | with_reducible refine keeps_fst (by with_reducible assumption) ?_

theorem execRetClear_keeps (h : Keeps q s) : KeepsN q (execRetClear a1 s) := by
  unfold execRetClear
  repeat' first
    | with_reducible assumption
    | with_reducible refine keepsN_next ?_
    | (extract_lets +onlyGivenNames y; with_reducible refine keeps_cut (s := y) ?_ ?_; unfold y; clear y; rotate_left; intro hy; clear_value y; revert y; intros)
    | (extract_lets +onlyGivenNames y; clear_value y; revert y; intros)
    | with_reducible apply command_keeps
    | with_reducible apply require_keeps
    | with_reducible apply reply_keeps
    | with_reducible apply retClear_keeps
    | intro _ _ hs
    | intro _ hs
    | intro hs

theorem putAll_keeps (h : Keeps q s) : Keeps q (State.putAll s a1 a2).1 := by
  induction a2 generalizing s with
  | nil => exact h
  | cons e es ih =>
    have h' := ringPut_keeps (a1 := a1) (a2 := e) h
    unfold State.putAll
    split
    · rename_i e; rw [e] at h'; exact h'
    · rename_i e; rw [e] at h'; exact h'
    · rename_i e; rw [e] at h'; exact ih h'

theorem execRingPut_keeps (h : Keeps q s) : KeepsN q (execRingPut a1 a2 a3 s) := by
  unfold execRingPut
  repeat' first
    | with_reducible assumption
    | with_reducible refine keepsN_next ?_
    | (extract_lets +onlyGivenNames y; with_reducible refine keeps_cut (s := y) ?_ ?_; unfold y; clear y; rotate_left; intro hy; clear_value y; revert y; intros)
    | with_reducible refine keeps_upd (by with_reducible assumption)
    | (extract_lets +onlyGivenNames y; clear_value y; revert y; intros)
    | with_reducible refine keeps_ite ?_ ?_
    | with_reducible refine keepsN_ite ?_ ?_
    | with_reducible apply command_keeps
    | with_reducible apply inRange_keeps
    | with_reducible apply reply_keeps
    | with_reducible apply putAll_keeps
    | intro _ _ hs
    | intro _ hs
    | intro hs
    | split
    | with_reducible refine keeps_fst (by with_reducible assumption) ?_
    | with_reducible refine keeps_upd ?_

theorem execRingGet_keeps (h : Keeps q s) : KeepsN q (execRingGet a1 a2 a3 s) := by
  unfold execRingGet
  repeat' first
    | with_reducible assumption
    | with_reducible refine keepsN_next ?_
    | (extract_lets +onlyGivenNames y; with_reducible refine keeps_cut (s := y) ?_ ?_; unfold y; clear y; rotate_left; intro hy; clear_value y; revert y; intros)
    | with_reducible refine keeps_upd (by with_reducible assumption)
    | (extract_lets +onlyGivenNames y; clear_value y; revert y; intros)
    | with_reducible apply command_keeps
    | with_reducible apply inRange_keeps
    | with_reducible apply reply_keeps
    | with_reducible apply ringTake_keeps
    | intro _ _ hs
    | intro _ hs
    | intro hs
    | split
    | with_reducible refine keeps_fst (by with_reducible assumption) ?_
    | with_reducible refine keeps_upd ?_

theorem execDataRead_keeps (h : Keeps q s) : KeepsN q (execDataRead a1 a2 a3 s) := by
  unfold execDataRead
  repeat' first
    | with_reducible assumption
    | with_reducible refine keepsN_next ?_
    | (extract_lets +onlyGivenNames y; with_reducible refine keeps_cut (s := y) ?_ ?_; unfold y; clear y; rotate_left; intro hy; clear_value y; revert y; intros)
    | (extract_lets +onlyGivenNames y; clear_value y; revert y; intros)
    | with_reducible refine keeps_ite ?_ ?_
    | with_reducible refine keepsN_ite ?_ ?_
    | with_reducible apply command_keeps
    | with_reducible apply inRange_keeps
    | with_reducible apply reply_keeps
    | with_reducible apply serveAll_keeps
    | intro _ _ hs
    | intro _ hs
    | intro hs
    | split

/-! ### ConfigCommands -/

theorem readWords_keeps (h : Keeps q s) : Keeps q (State.readWords s a1 a2 a3 a4) := by
  unfold State.readWords
  repeat' first
    | with_reducible assumption
    | (extract_lets +onlyGivenNames y; with_reducible refine keeps_cut (s := y) ?_ ?_; unfold y; clear y; rotate_left; intro hy; clear_value y; revert y; intros)
    | (extract_lets +onlyGivenNames y; clear_value y; revert y; intros)
    | with_reducible refine keeps_ite ?_ ?_
    | with_reducible apply inRange_keeps
    | with_reducible apply regReads_keeps
    | with_reducible apply reply_keeps
    | intro _ _ hs
    | intro _ hs
    | intro hs
    | split
    | with_reducible refine keeps_fst (by with_reducible assumption) ?_

theorem execCfgRead_keeps (h : Keeps q s) : KeepsN q (execCfgRead a1 a2 a3 s) := by
  unfold execCfgRead
  repeat' first
    | with_reducible assumption
    | with_reducible refine keepsN_next ?_
    | (extract_lets +onlyGivenNames y; with_reducible refine keeps_cut (s := y) ?_ ?_; unfold y; clear y; rotate_left; intro hy; clear_value y; revert y; intros)
    | (extract_lets +onlyGivenNames y; clear_value y; revert y; intros)
    | with_reducible apply command_keeps
    | with_reducible apply readWords_keeps
    | intro _ _ hs
    | intro _ hs
    | intro hs

theorem execCfgWrite_keeps (h : Keeps q s) : KeepsN q (execCfgWrite a1 a2 s) := by
  unfold execCfgWrite
  repeat' first
    | with_reducible assumption
    | with_reducible refine keepsN_next ?_
    | (extract_lets +onlyGivenNames y; with_reducible refine keeps_cut (s := y) ?_ ?_; unfold y; clear y; rotate_left; intro hy; clear_value y; revert y; intros)
    | (extract_lets +onlyGivenNames y; clear_value y; revert y; intros)
    | with_reducible refine keeps_ite ?_ ?_
    | with_reducible refine keepsN_ite ?_ ?_
    | with_reducible apply command_keeps
    | with_reducible apply inRange_keeps
    | with_reducible apply reply_keeps
    | with_reducible apply regWrite_keeps
    | with_reducible refine keeps_foldl ?_ (fun _ _ hs => ?_)
    | intro _ _ hs
    | intro _ hs
    | intro hs
    | split

theorem execRegRead_keeps (h : Keeps q s) : KeepsN q (execRegRead a1 a2 a3 s) := by
  unfold execRegRead
  repeat' first
    | with_reducible assumption
    | with_reducible refine keepsN_next ?_
    | (extract_lets +onlyGivenNames y; with_reducible refine keeps_cut (s := y) ?_ ?_; unfold y; clear y; rotate_left; intro hy; clear_value y; revert y; intros)
    | (extract_lets +onlyGivenNames y; clear_value y; revert y; intros)
    | with_reducible apply command_keeps
    | with_reducible apply readWords_keeps
    | intro _ _ hs
    | intro _ hs
    | intro hs

theorem execRegWrite_keeps (h : Keeps q s) : KeepsN q (execRegWrite a1 a2 a3 s) := by
  unfold execRegWrite
  repeat' first
    | with_reducible assumption
    | with_reducible refine keepsN_next ?_
    | (extract_lets +onlyGivenNames y; with_reducible refine keeps_cut (s := y) ?_ ?_; unfold y; clear y; rotate_left; intro hy; clear_value y; revert y; intros)
    | (extract_lets +onlyGivenNames y; clear_value y; revert y; intros)
    | with_reducible refine keeps_ite ?_ ?_
    | with_reducible refine keepsN_ite ?_ ?_
    | with_reducible apply command_keeps
    | with_reducible apply reply_keeps
    | with_reducible apply regWrite_keeps
    | intro _ _ hs
    | intro _ hs
    | intro hs
    | split

theorem clearFlags_keeps (h : Keeps q s) : Keeps q (State.clearFlags s a1 a2) := by
  unfold State.clearFlags
  repeat' first
    | with_reducible assumption
    | (extract_lets +onlyGivenNames y; with_reducible refine keeps_cut (s := y) ?_ ?_; unfold y; clear y; rotate_left; intro hy; clear_value y; revert y; intros)
    | with_reducible refine keeps_upd (by with_reducible assumption)
    | (extract_lets +onlyGivenNames y; clear_value y; revert y; intros)
    | with_reducible refine keeps_ite ?_ ?_
    | with_reducible apply tripReset_keeps
    | with_reducible apply act_keeps
    | with_reducible apply execChFlagsWrite_keeps
    | with_reducible apply fieldWrite_keeps
    | with_reducible refine keeps_foldl ?_ (fun _ _ hs => ?_)
    | intro _ _ hs
    | intro _ hs
    | intro hs
    | split
    | with_reducible refine keeps_fst (by with_reducible assumption) ?_
    | with_reducible refine keeps_upd ?_

theorem execFlagClear_keeps (h : Keeps q s) : KeepsN q (execFlagClear a1 a2 a3 s) := by
  unfold execFlagClear
  repeat' first
    | with_reducible assumption
    | with_reducible refine keepsN_next ?_
    | (extract_lets +onlyGivenNames y; with_reducible refine keeps_cut (s := y) ?_ ?_; unfold y; clear y; rotate_left; intro hy; clear_value y; revert y; intros)
    | (extract_lets +onlyGivenNames y; clear_value y; revert y; intros)
    | with_reducible refine keeps_ite ?_ ?_
    | with_reducible refine keepsN_ite ?_ ?_
    | with_reducible apply command_keeps
    | with_reducible apply reply_keeps
    | with_reducible apply clearFlags_keeps
    | intro _ _ hs
    | intro _ hs
    | intro hs
    | split

theorem submit_keeps (h : Keeps q s) : Keeps q (State.submit s a1) := by
  unfold State.submit
  repeat' first
    | with_reducible assumption
    | (extract_lets +onlyGivenNames y; with_reducible refine keeps_cut (s := y) ?_ ?_; unfold y; clear y; rotate_left; intro hy; clear_value y; revert y; intros)
    | with_reducible refine keeps_upd (by with_reducible assumption)
    | (extract_lets +onlyGivenNames y; clear_value y; revert y; intros)
    | with_reducible refine keeps_ite ?_ ?_
    | with_reducible apply fgApply_keeps
    | with_reducible apply dioApply_keeps
    | with_reducible apply chainApply_keeps
    | with_reducible apply ingApply_keeps
    | with_reducible apply canApply_keeps
    | with_reducible apply routeApply_keeps
    | with_reducible refine keeps_foldl ?_ (fun _ _ hs => ?_)
    | intro _ _ hs
    | intro _ hs
    | intro hs
    | split
    | with_reducible refine keeps_fst (by with_reducible assumption) ?_
    | with_reducible refine keeps_upd ?_

theorem discard_keeps (h : Keeps q s) : Keeps q (State.discard s a1) := by
  unfold State.discard
  repeat' first
    | with_reducible assumption
    | (extract_lets +onlyGivenNames y; with_reducible refine keeps_cut (s := y) ?_ ?_; unfold y; clear y; rotate_left; intro hy; clear_value y; revert y; intros)
    | with_reducible refine keeps_upd (by with_reducible assumption)
    | (extract_lets +onlyGivenNames y; clear_value y; revert y; intros)
    | with_reducible refine keeps_ite ?_ ?_
    | with_reducible apply fgCancel_keeps
    | with_reducible apply dioCancel_keeps
    | with_reducible apply chainCancel_keeps
    | with_reducible apply ingCancel_keeps
    | with_reducible apply canCancel_keeps
    | with_reducible apply routeCancel_keeps
    | with_reducible refine keeps_foldl ?_ (fun _ _ hs => ?_)
    | intro _ _ hs
    | intro _ hs
    | intro hs
    | split
    | with_reducible refine keeps_fst (by with_reducible assumption) ?_
    | with_reducible refine keeps_upd ?_

theorem execCfgApply_keeps (h : Keeps q s) : KeepsN q (execCfgApply a1 a2 s) := by
  unfold execCfgApply
  repeat' first
    | with_reducible assumption
    | with_reducible refine keepsN_next ?_
    | (extract_lets +onlyGivenNames y; with_reducible refine keeps_cut (s := y) ?_ ?_; unfold y; clear y; rotate_left; intro hy; clear_value y; revert y; intros)
    | with_reducible refine keeps_upd (by with_reducible assumption)
    | (extract_lets +onlyGivenNames y; clear_value y; revert y; intros)
    | with_reducible apply command_keeps
    | with_reducible apply submit_keeps
    | with_reducible apply await_keeps
    | with_reducible apply reply_keeps
    | intro _ _ hs
    | intro _ hs
    | intro hs
    | split
    | with_reducible refine keeps_fst (by with_reducible assumption) ?_
    | with_reducible refine keeps_upd ?_

theorem execCfgCancel_keeps (h : Keeps q s) : KeepsN q (execCfgCancel a1 a2 s) := by
  unfold execCfgCancel
  repeat' first
    | with_reducible assumption
    | with_reducible refine keepsN_next ?_
    | (extract_lets +onlyGivenNames y; with_reducible refine keeps_cut (s := y) ?_ ?_; unfold y; clear y; rotate_left; intro hy; clear_value y; revert y; intros)
    | with_reducible refine keeps_upd (by with_reducible assumption)
    | (extract_lets +onlyGivenNames y; clear_value y; revert y; intros)
    | with_reducible apply command_keeps
    | with_reducible apply reply_keeps
    | with_reducible apply discard_keeps
    | intro _ _ hs
    | intro _ hs
    | intro hs
    | split
    | with_reducible refine keeps_fst (by with_reducible assumption) ?_
    | with_reducible refine keeps_upd ?_

theorem execCfgSave_keeps (h : Keeps q s) : KeepsN q (execCfgSave a1 s) := by
  unfold execCfgSave
  repeat' first
    | with_reducible assumption
    | with_reducible refine keepsN_next ?_
    | (extract_lets +onlyGivenNames y; with_reducible refine keeps_cut (s := y) ?_ ?_; unfold y; clear y; rotate_left; intro hy; clear_value y; revert y; intros)
    | with_reducible refine keeps_upd (by with_reducible assumption)
    | (extract_lets +onlyGivenNames y; clear_value y; revert y; intros)
    | with_reducible apply command_keeps
    | with_reducible apply reply_keeps
    | with_reducible apply pendNone_keeps
    | with_reducible apply wr_keeps
    | with_reducible apply setBank_keeps
    | intro _ _ hs
    | intro _ hs
    | intro hs
    | with_reducible refine keeps_upd ?_

theorem execChanRead_keeps (h : Keeps q s) : KeepsN q (execChanRead a1 a2 s) := by
  unfold execChanRead
  repeat' first
    | with_reducible assumption
    | with_reducible refine keepsN_next ?_
    | (extract_lets +onlyGivenNames y; with_reducible refine keeps_cut (s := y) ?_ ?_; unfold y; clear y; rotate_left; intro hy; clear_value y; revert y; intros)
    | (extract_lets +onlyGivenNames y; clear_value y; revert y; intros)
    | with_reducible apply command_keeps
    | with_reducible apply require_keeps
    | with_reducible apply reply_keeps
    | intro _ _ hs
    | intro _ hs
    | intro hs

theorem execNetCfg_keeps (h : Keeps q s) : KeepsN q (execNetCfg a1 a2 a3 a4 a5 a6 s) := by
  unfold execNetCfg
  repeat' first
    | with_reducible assumption
    | with_reducible refine keepsN_next ?_
    | (extract_lets +onlyGivenNames y; with_reducible refine keeps_cut (s := y) ?_ ?_; unfold y; clear y; rotate_left; intro hy; clear_value y; revert y; intros)
    | with_reducible refine keeps_upd (by with_reducible assumption)
    | (extract_lets +onlyGivenNames y; clear_value y; revert y; intros)
    | with_reducible apply command_keeps
    | with_reducible apply require_keeps
    | with_reducible apply inRange_keeps
    | with_reducible apply reply_keeps
    | intro _ _ hs
    | intro _ hs
    | intro hs
    | with_reducible refine keeps_upd ?_

theorem execTrimSet_keeps (h : Keeps q s) : KeepsN q (execTrimSet a1 a2 a3 a4 s) := by
  unfold execTrimSet
  repeat' first
    | with_reducible assumption
    | with_reducible refine keepsN_next ?_
    | (extract_lets +onlyGivenNames y; with_reducible refine keeps_cut (s := y) ?_ ?_; unfold y; clear y; rotate_left; intro hy; clear_value y; revert y; intros)
    | (extract_lets +onlyGivenNames y; clear_value y; revert y; intros)
    | with_reducible apply command_keeps
    | with_reducible apply require_keeps
    | with_reducible apply stage_keeps
    | with_reducible apply fgApply_keeps
    | with_reducible apply await_keeps
    | intro _ _ hs
    | intro _ hs
    | intro hs

theorem execHartPass_keeps (h : Keeps q s) : KeepsN q (execHartPass a1 a2 a3 a4 a5 s) := by
  unfold execHartPass
  repeat' first
    | with_reducible assumption
    | with_reducible refine keepsN_next ?_
    | (extract_lets +onlyGivenNames y; with_reducible refine keeps_cut (s := y) ?_ ?_; unfold y; clear y; rotate_left; intro hy; clear_value y; revert y; intros)
    | with_reducible refine keeps_upd (by with_reducible assumption)
    | (extract_lets +onlyGivenNames y; clear_value y; revert y; intros)
    | with_reducible refine keeps_ite ?_ ?_
    | with_reducible refine keepsN_ite ?_ ?_
    | with_reducible apply command_keeps
    | with_reducible apply require_keeps
    | with_reducible apply inRange_keeps
    | with_reducible apply reply_keeps
    | with_reducible apply updHart_keeps
    | intro _ _ hs
    | intro _ hs
    | intro hs
    | split
    | with_reducible refine keeps_upd ?_

theorem execHartRead_keeps (h : Keeps q s) : KeepsN q (execHartRead a1 a2 s) := by
  unfold execHartRead
  repeat' first
    | with_reducible assumption
    | with_reducible refine keepsN_next ?_
    | (extract_lets +onlyGivenNames y; with_reducible refine keeps_cut (s := y) ?_ ?_; unfold y; clear y; rotate_left; intro hy; clear_value y; revert y; intros)
    | (extract_lets +onlyGivenNames y; clear_value y; revert y; intros)
    | with_reducible apply command_keeps
    | with_reducible apply require_keeps
    | with_reducible apply reply_keeps
    | intro _ _ hs
    | intro _ hs
    | intro hs

theorem execHartPollSet_keeps (h : Keeps q s) : KeepsN q (execHartPollSet a1 a2 a3 s) := by
  unfold execHartPollSet
  repeat' first
    | with_reducible assumption
    | with_reducible refine keepsN_next ?_
    | (extract_lets +onlyGivenNames y; with_reducible refine keeps_cut (s := y) ?_ ?_; unfold y; clear y; rotate_left; intro hy; clear_value y; revert y; intros)
    | with_reducible refine keeps_upd (by with_reducible assumption)
    | (extract_lets +onlyGivenNames y; clear_value y; revert y; intros)
    | with_reducible apply command_keeps
    | with_reducible apply require_keeps
    | with_reducible apply inRange_keeps
    | with_reducible apply reply_keeps
    | with_reducible apply updHart_keeps
    | intro _ _ hs
    | intro _ hs
    | intro hs
    | with_reducible refine keeps_upd ?_

theorem execCanRecover_keeps (h : Keeps q s) : KeepsN q (execCanRecover a1 a2 a3 s) := by
  unfold execCanRecover
  repeat' first
    | with_reducible assumption
    | with_reducible refine keepsN_next ?_
    | (extract_lets +onlyGivenNames y; with_reducible refine keeps_cut (s := y) ?_ ?_; unfold y; clear y; rotate_left; intro hy; clear_value y; revert y; intros)
    | (extract_lets +onlyGivenNames y; clear_value y; revert y; intros)
    | with_reducible apply command_keeps
    | with_reducible apply require_keeps
    | with_reducible apply inRange_keeps
    | with_reducible apply reply_keeps
    | with_reducible apply canRecover_keeps
    | intro _ _ hs
    | intro _ hs
    | intro hs

theorem execCanSend_keeps (h : Keeps q s) : KeepsN q (execCanSend a1 a2 a3 s) := by
  unfold execCanSend
  repeat' first
    | with_reducible assumption
    | with_reducible refine keepsN_next ?_
    | (extract_lets +onlyGivenNames y; with_reducible refine keeps_cut (s := y) ?_ ?_; unfold y; clear y; rotate_left; intro hy; clear_value y; revert y; intros)
    | (extract_lets +onlyGivenNames y; with_reducible refine keeps_cutG (f := y) ?_ ?_; unfold y; clear y; rotate_left; intro hy; clear_value y; revert y; intro fG hG)
    | (extract_lets +onlyGivenNames y; clear_value y; revert y; intros)
    | with_reducible refine keeps_ite ?_ ?_
    | with_reducible refine keepsN_ite ?_ ?_
    | with_reducible apply hG
    | with_reducible apply command_keeps
    | with_reducible apply require_keeps
    | with_reducible apply inRange_keeps
    | with_reducible apply act_keeps
    | with_reducible apply execCanTxRecord_keeps
    | with_reducible apply reply_keeps
    | intro _ _ hs
    | intro _ hs
    | intro hs
    | split

/-! ### TimePairCommands -/

theorem execTimeRead_keeps (h : Keeps q s) : KeepsN q (execTimeRead a1 s) := by
  unfold execTimeRead
  repeat' first
    | with_reducible assumption
    | with_reducible refine keepsN_next ?_
    | (extract_lets +onlyGivenNames y; with_reducible refine keeps_cut (s := y) ?_ ?_; unfold y; clear y; rotate_left; intro hy; clear_value y; revert y; intros)
    | (extract_lets +onlyGivenNames y; clear_value y; revert y; intros)
    | with_reducible apply command_keeps
    | with_reducible apply reply_keeps
    | intro _ _ hs
    | intro _ hs
    | intro hs

theorem putTodset_keeps (h : Keeps q s) : Keeps q (State.putTodset s a1) := by
  unfold State.putTodset
  repeat' first
    | with_reducible assumption
    | (extract_lets +onlyGivenNames y; with_reducible refine keeps_cut (s := y) ?_ ?_; unfold y; clear y; rotate_left; intro hy; clear_value y; revert y; intros)
    | (extract_lets +onlyGivenNames y; clear_value y; revert y; intros)
    | with_reducible apply wr_keeps
    | with_reducible apply wr64_keeps

theorem execTodSet_keeps (h : Keeps q s) : KeepsN q (execTodSet a1 a2 a3 a4 a5 s) := by
  unfold execTodSet
  repeat' first
    | with_reducible assumption
    | with_reducible refine keepsN_next ?_
    | (extract_lets +onlyGivenNames y; with_reducible refine keeps_cut (s := y) ?_ ?_; unfold y; clear y; rotate_left; intro hy; clear_value y; revert y; intros)
    | (extract_lets +onlyGivenNames y; clear_value y; revert y; intros)
    | with_reducible refine keeps_ite ?_ ?_
    | with_reducible refine keepsN_ite ?_ ?_
    | with_reducible apply command_keeps
    | with_reducible apply reply_keeps
    | with_reducible apply putTodset_keeps
    | with_reducible apply todNow_keeps
    | with_reducible apply todArm_keeps
    | intro _ _ hs
    | intro _ hs
    | intro hs
    | split

theorem execIncSet_keeps (h : Keeps q s) : KeepsN q (execIncSet a1 a2 a3 s) := by
  unfold execIncSet
  repeat' first
    | with_reducible assumption
    | with_reducible refine keepsN_next ?_
    | (extract_lets +onlyGivenNames y; with_reducible refine keeps_cut (s := y) ?_ ?_; unfold y; clear y; rotate_left; intro hy; clear_value y; revert y; intros)
    | (extract_lets +onlyGivenNames y; clear_value y; revert y; intros)
    | with_reducible refine keeps_ite ?_ ?_
    | with_reducible refine keepsN_ite ?_ ?_
    | with_reducible apply command_keeps
    | with_reducible apply reply_keeps
    | with_reducible apply setInc_keeps
    | intro _ _ hs
    | intro _ hs
    | intro hs
    | split

theorem execServoCfg_keeps (h : Keeps q s) : KeepsN q (execServoCfg a1 a2 a3 s) := by
  unfold execServoCfg
  repeat' first
    | with_reducible assumption
    | with_reducible refine keepsN_next ?_
    | (extract_lets +onlyGivenNames y; with_reducible refine keeps_cut (s := y) ?_ ?_; unfold y; clear y; rotate_left; intro hy; clear_value y; revert y; intros)
    | (extract_lets +onlyGivenNames y; clear_value y; revert y; intros)
    | with_reducible apply command_keeps
    | with_reducible apply inRange_keeps
    | with_reducible apply reply_keeps
    | with_reducible apply servoCfg_keeps
    | intro _ _ hs
    | intro _ hs
    | intro hs

theorem execLgArm_keeps (h : Keeps q s) : KeepsN q (execLgArm a1 a2 a3 s) := by
  unfold execLgArm
  repeat' first
    | with_reducible assumption
    | with_reducible refine keepsN_next ?_
    | (extract_lets +onlyGivenNames y; with_reducible refine keeps_cut (s := y) ?_ ?_; unfold y; clear y; rotate_left; intro hy; clear_value y; revert y; intros)
    | with_reducible refine keeps_upd (by with_reducible assumption)
    | (extract_lets +onlyGivenNames y; clear_value y; revert y; intros)
    | with_reducible refine keeps_ite ?_ ?_
    | with_reducible refine keepsN_ite ?_ ?_
    | with_reducible apply command_keeps
    | with_reducible apply inRange_keeps
    | with_reducible apply reply_keeps
    | with_reducible apply wr_keeps
    | with_reducible apply wr64_keeps
    | with_reducible apply lgArm_keeps
    | intro _ _ hs
    | intro _ hs
    | intro hs
    | split
    | with_reducible refine keeps_fst (by with_reducible assumption) ?_
    | with_reducible refine keeps_upd ?_

theorem execRefSelect_keeps (h : Keeps q s) : KeepsN q (execRefSelect a1 a2 s) := by
  unfold execRefSelect
  repeat' first
    | with_reducible assumption
    | with_reducible refine keepsN_next ?_
    | (extract_lets +onlyGivenNames y; with_reducible refine keeps_cut (s := y) ?_ ?_; unfold y; clear y; rotate_left; intro hy; clear_value y; revert y; intros)
    | (extract_lets +onlyGivenNames y; clear_value y; revert y; intros)
    | with_reducible refine keeps_ite ?_ ?_
    | with_reducible refine keepsN_ite ?_ ?_
    | with_reducible apply command_keeps
    | with_reducible apply inRange_keeps
    | with_reducible apply reply_keeps
    | with_reducible apply refSel_keeps
    | intro _ _ hs
    | intro _ hs
    | intro hs
    | split

theorem execPairStatus_keeps (h : Keeps q s) : KeepsN q (execPairStatus a1 s) := by
  unfold execPairStatus
  repeat' first
    | with_reducible assumption
    | with_reducible refine keepsN_next ?_
    | (extract_lets +onlyGivenNames y; with_reducible refine keeps_cut (s := y) ?_ ?_; unfold y; clear y; rotate_left; intro hy; clear_value y; revert y; intros)
    | (extract_lets +onlyGivenNames y; clear_value y; revert y; intros)
    | with_reducible apply command_keeps
    | with_reducible apply reply_keeps
    | intro _ _ hs
    | intro _ hs
    | intro hs

theorem execJoin_keeps (h : Keeps q s) : KeepsN q (execJoin a1 a2 s) := by
  unfold execJoin
  repeat' first
    | with_reducible assumption
    | with_reducible refine keepsN_next ?_
    | (extract_lets +onlyGivenNames y; with_reducible refine keeps_cut (s := y) ?_ ?_; unfold y; clear y; rotate_left; intro hy; clear_value y; revert y; intros)
    | (extract_lets +onlyGivenNames y; clear_value y; revert y; intros)
    | with_reducible refine keeps_ite ?_ ?_
    | with_reducible refine keepsN_ite ?_ ?_
    | with_reducible apply command_keeps
    | with_reducible apply reply_keeps
    | with_reducible apply wr_keeps
    | with_reducible apply join_keeps
    | with_reducible apply await_keeps
    | intro _ _ hs
    | intro _ hs
    | intro hs
    | split

theorem execLeave_keeps (h : Keeps q s) : KeepsN q (execLeave a1 s) := by
  unfold execLeave
  repeat' first
    | with_reducible assumption
    | with_reducible refine keepsN_next ?_
    | (extract_lets +onlyGivenNames y; with_reducible refine keeps_cut (s := y) ?_ ?_; unfold y; clear y; rotate_left; intro hy; clear_value y; revert y; intros)
    | (extract_lets +onlyGivenNames y; clear_value y; revert y; intros)
    | with_reducible apply command_keeps
    | with_reducible apply require_keeps
    | with_reducible apply leave_keeps
    | with_reducible apply await_keeps
    | intro _ _ hs
    | intro _ hs
    | intro hs

theorem execHandover_keeps (h : Keeps q s) : KeepsN q (execHandover a1 a2 s) := by
  unfold execHandover
  repeat' first
    | with_reducible assumption
    | with_reducible refine keepsN_next ?_
    | (extract_lets +onlyGivenNames y; with_reducible refine keeps_cut (s := y) ?_ ?_; unfold y; clear y; rotate_left; intro hy; clear_value y; revert y; intros)
    | with_reducible refine keeps_upd (by with_reducible assumption)
    | (extract_lets +onlyGivenNames y; clear_value y; revert y; intros)
    | with_reducible refine keeps_ite ?_ ?_
    | with_reducible refine keepsN_ite ?_ ?_
    | with_reducible apply command_keeps
    | with_reducible apply heldBy_keeps
    | with_reducible apply armHandover_keeps
    | with_reducible apply await_keeps
    | with_reducible apply reply_keeps
    | intro _ _ hs
    | intro _ hs
    | intro hs
    | split
    | with_reducible refine keeps_upd ?_

theorem execPairCancel_keeps (h : Keeps q s) : KeepsN q (execPairCancel a1 s) := by
  unfold execPairCancel
  repeat' first
    | with_reducible assumption
    | with_reducible refine keepsN_next ?_
    | (extract_lets +onlyGivenNames y; with_reducible refine keeps_cut (s := y) ?_ ?_; unfold y; clear y; rotate_left; intro hy; clear_value y; revert y; intros)
    | (extract_lets +onlyGivenNames y; clear_value y; revert y; intros)
    | with_reducible apply command_keeps
    | with_reducible apply heldBy_keeps
    | with_reducible apply reply_keeps
    | with_reducible apply pairCancel_keeps
    | intro _ _ hs
    | intro _ hs
    | intro hs

theorem execPairCfg_keeps (h : Keeps q s) : KeepsN q (execPairCfg a1 a2 a3 a4 s) := by
  unfold execPairCfg
  repeat' first
    | with_reducible assumption
    | with_reducible refine keepsN_next ?_
    | (extract_lets +onlyGivenNames y; with_reducible refine keeps_cut (s := y) ?_ ?_; unfold y; clear y; rotate_left; intro hy; clear_value y; revert y; intros)
    | (extract_lets +onlyGivenNames y; clear_value y; revert y; intros)
    | with_reducible apply command_keeps
    | with_reducible apply inRange_keeps
    | with_reducible apply reply_keeps
    | with_reducible apply regWrite_keeps
    | intro _ _ hs
    | intro _ hs
    | intro hs

/-! ### ChainMetCommands -/

theorem onChain_keeps (h : Keeps q s) (hf : ∀ s, Keeps q s → Keeps q (f s)) : Keeps q (State.onChain s a1 a2 a3 f) := by
  unfold State.onChain
  repeat' first
    | with_reducible assumption
    | with_reducible apply require_keeps
    | with_reducible apply hf

theorem onAwake_keeps (h : Keeps q s) (hf : ∀ s, Keeps q s → Keeps q (f s)) : Keeps q (State.onAwake s a1 a2 a3 f) := by
  unfold State.onAwake
  repeat' first
    | with_reducible assumption
    | with_reducible apply onChain_keeps
    | with_reducible apply require_keeps
    | with_reducible apply hf
    | intro _ _ hs
    | intro _ hs
    | intro hs

theorem chainAsk_keeps (h : Keeps q s) : Keeps q (State.chainAsk s a1 a2 a3 a4 a5 a6) := by
  unfold State.chainAsk
  repeat' first
    | with_reducible assumption
    | (extract_lets +onlyGivenNames y; with_reducible refine keeps_cut (s := y) ?_ ?_; unfold y; clear y; rotate_left; intro hy; clear_value y; revert y; intros)
    | with_reducible refine keeps_upd (by with_reducible assumption)
    | (extract_lets +onlyGivenNames y; clear_value y; revert y; intros)
    | with_reducible apply chainQueue_keeps
    | with_reducible apply reply_keeps
    | split
    | with_reducible refine keeps_fst (by with_reducible assumption) ?_
    | with_reducible refine keeps_upd ?_

theorem unicastAsk_keeps (h : Keeps q s) : Keeps q (State.unicastAsk s a1 a2 a3 a4 a5 a6) := by
  unfold State.unicastAsk
  repeat' first
    | with_reducible assumption
    | with_reducible apply onAwake_keeps
    | with_reducible apply require_keeps
    | with_reducible apply chainAsk_keeps
    | intro _ _ hs
    | intro _ hs
    | intro hs

theorem execChainStatus_keeps (h : Keeps q s) : KeepsN q (execChainStatus a1 a2 s) := by
  unfold execChainStatus
  repeat' first
    | with_reducible assumption
    | with_reducible refine keepsN_next ?_
    | (extract_lets +onlyGivenNames y; with_reducible refine keeps_cut (s := y) ?_ ?_; unfold y; clear y; rotate_left; intro hy; clear_value y; revert y; intros)
    | (extract_lets +onlyGivenNames y; clear_value y; revert y; intros)
    | with_reducible apply command_keeps
    | with_reducible apply require_keeps
    | with_reducible apply reply_keeps
    | intro _ _ hs
    | intro _ hs
    | intro hs

theorem execChainPass_keeps (h : Keeps q s) : KeepsN q (execChainPass a1 a2 a3 a4 a5 s) := by
  unfold execChainPass
  repeat' first
    | with_reducible assumption
    | with_reducible refine keepsN_next ?_
    | (extract_lets +onlyGivenNames y; with_reducible refine keeps_cut (s := y) ?_ ?_; unfold y; clear y; rotate_left; intro hy; clear_value y; revert y; intros)
    | (extract_lets +onlyGivenNames y; clear_value y; revert y; intros)
    | with_reducible apply command_keeps
    | with_reducible apply unicastAsk_keeps
    | intro _ _ hs
    | intro _ hs
    | intro hs

theorem execChainDiscover_keeps (h : Keeps q s) : KeepsN q (execChainDiscover a1 a2 s) := by
  unfold execChainDiscover
  repeat' first
    | with_reducible assumption
    | with_reducible refine keepsN_next ?_
    | (extract_lets +onlyGivenNames y; with_reducible refine keeps_cut (s := y) ?_ ?_; unfold y; clear y; rotate_left; intro hy; clear_value y; revert y; intros)
    | (extract_lets +onlyGivenNames y; clear_value y; revert y; intros)
    | with_reducible apply command_keeps
    | with_reducible apply onAwake_keeps
    | with_reducible apply reply_keeps
    | with_reducible apply chainDiscover_keeps
    | intro _ _ hs
    | intro _ hs
    | intro hs

theorem execChainWake_keeps (h : Keeps q s) : KeepsN q (execChainWake a1 a2 s) := by
  unfold execChainWake
  repeat' first
    | with_reducible assumption
    | with_reducible refine keepsN_next ?_
    | (extract_lets +onlyGivenNames y; with_reducible refine keeps_cut (s := y) ?_ ?_; unfold y; clear y; rotate_left; intro hy; clear_value y; revert y; intros)
    | (extract_lets +onlyGivenNames y; clear_value y; revert y; intros)
    | with_reducible apply command_keeps
    | with_reducible apply onChain_keeps
    | with_reducible apply reply_keeps
    | with_reducible apply chainWake_keeps
    | intro _ _ hs
    | intro _ hs
    | intro hs

theorem execChainSleep_keeps (h : Keeps q s) : KeepsN q (execChainSleep a1 a2 s) := by
  unfold execChainSleep
  repeat' first
    | with_reducible assumption
    | with_reducible refine keepsN_next ?_
    | (extract_lets +onlyGivenNames y; with_reducible refine keeps_cut (s := y) ?_ ?_; unfold y; clear y; rotate_left; intro hy; clear_value y; revert y; intros)
    | (extract_lets +onlyGivenNames y; clear_value y; revert y; intros)
    | with_reducible apply command_keeps
    | with_reducible apply onAwake_keeps
    | with_reducible apply reply_keeps
    | with_reducible apply chainSleep_keeps
    | intro _ _ hs
    | intro _ hs
    | intro hs

theorem execBalSet_keeps (h : Keeps q s) : KeepsN q (execBalSet a1 a2 a3 a4 a5 s) := by
  unfold execBalSet
  repeat' first
    | with_reducible assumption
    | with_reducible refine keepsN_next ?_
    | (extract_lets +onlyGivenNames y; with_reducible refine keeps_cut (s := y) ?_ ?_; unfold y; clear y; rotate_left; intro hy; clear_value y; revert y; intros)
    | (extract_lets +onlyGivenNames y; clear_value y; revert y; intros)
    | with_reducible apply command_keeps
    | with_reducible apply inRange_keeps
    | with_reducible apply unicastAsk_keeps
    | intro _ _ hs
    | intro _ hs
    | intro hs

theorem execChainFaultClr_keeps (h : Keeps q s) : KeepsN q (execChainFaultClr a1 a2 s) := by
  unfold execChainFaultClr
  repeat' first
    | with_reducible assumption
    | with_reducible refine keepsN_next ?_
    | (extract_lets +onlyGivenNames y; with_reducible refine keeps_cut (s := y) ?_ ?_; unfold y; clear y; rotate_left; intro hy; clear_value y; revert y; intros)
    | (extract_lets +onlyGivenNames y; clear_value y; revert y; intros)
    | with_reducible apply command_keeps
    | with_reducible apply onAwake_keeps
    | with_reducible apply chainAsk_keeps
    | intro _ _ hs
    | intro _ hs
    | intro hs

theorem execSlotRead_keeps (h : Keeps q s) : KeepsN q (execSlotRead a1 a2 a3 a4 s) := by
  unfold execSlotRead
  repeat' first
    | with_reducible assumption
    | with_reducible refine keepsN_next ?_
    | (extract_lets +onlyGivenNames y; with_reducible refine keeps_cut (s := y) ?_ ?_; unfold y; clear y; rotate_left; intro hy; clear_value y; revert y; intros)
    | (extract_lets +onlyGivenNames y; clear_value y; revert y; intros)
    | with_reducible apply command_keeps
    | with_reducible apply require_keeps
    | with_reducible apply inRange_keeps
    | with_reducible apply reply_keeps
    | intro _ _ hs
    | intro _ hs
    | intro hs

theorem execNodeStatus_keeps (h : Keeps q s) : KeepsN q (execNodeStatus a1 a2 a3 s) := by
  unfold execNodeStatus
  repeat' first
    | with_reducible assumption
    | with_reducible refine keepsN_next ?_
    | (extract_lets +onlyGivenNames y; with_reducible refine keeps_cut (s := y) ?_ ?_; unfold y; clear y; rotate_left; intro hy; clear_value y; revert y; intros)
    | (extract_lets +onlyGivenNames y; clear_value y; revert y; intros)
    | with_reducible apply command_keeps
    | with_reducible apply unicastAsk_keeps
    | intro _ _ hs
    | intro _ hs
    | intro hs

theorem fitted_keeps (h : Keeps q s) (hf : ∀ s, Keeps q s → Keeps q (f s)) : Keeps q (State.fitted s a1 a2 f) := by
  unfold State.fitted
  repeat' first
    | with_reducible assumption
    | with_reducible apply require_keeps
    | with_reducible apply hf

theorem execMetStatus_keeps (h : Keeps q s) : KeepsN q (execMetStatus a1 s) := by
  unfold execMetStatus
  repeat' first
    | with_reducible assumption
    | with_reducible refine keepsN_next ?_
    | (extract_lets +onlyGivenNames y; with_reducible refine keeps_cut (s := y) ?_ ?_; unfold y; clear y; rotate_left; intro hy; clear_value y; revert y; intros)
    | with_reducible refine keeps_upd (by with_reducible assumption)
    | (extract_lets +onlyGivenNames y; clear_value y; revert y; intros)
    | with_reducible apply command_keeps
    | with_reducible apply fitted_keeps
    | with_reducible apply reply_keeps
    | intro _ _ hs
    | intro _ hs
    | intro hs
    | split
    | with_reducible refine keeps_fst (by with_reducible assumption) ?_
    | with_reducible refine keeps_upd ?_

theorem execMetRecords_keeps (h : Keeps q s) : KeepsN q (execMetRecords a1 a2 a3 s) := by
  unfold execMetRecords
  repeat' first
    | with_reducible assumption
    | with_reducible refine keepsN_next ?_
    | (extract_lets +onlyGivenNames y; with_reducible refine keeps_cut (s := y) ?_ ?_; unfold y; clear y; rotate_left; intro hy; clear_value y; revert y; intros)
    | (extract_lets +onlyGivenNames y; clear_value y; revert y; intros)
    | with_reducible refine keeps_ite ?_ ?_
    | with_reducible refine keepsN_ite ?_ ?_
    | with_reducible apply command_keeps
    | with_reducible apply fitted_keeps
    | with_reducible apply reply_keeps
    | intro _ _ hs
    | intro _ hs
    | intro hs
    | split

theorem execMetAudit_keeps (h : Keeps q s) : KeepsN q (execMetAudit a1 a2 a3 s) := by
  unfold execMetAudit
  repeat' first
    | with_reducible assumption
    | with_reducible refine keepsN_next ?_
    | (extract_lets +onlyGivenNames y; with_reducible refine keeps_cut (s := y) ?_ ?_; unfold y; clear y; rotate_left; intro hy; clear_value y; revert y; intros)
    | (extract_lets +onlyGivenNames y; clear_value y; revert y; intros)
    | with_reducible refine keeps_ite ?_ ?_
    | with_reducible refine keepsN_ite ?_ ?_
    | with_reducible apply command_keeps
    | with_reducible apply fitted_keeps
    | with_reducible apply reply_keeps
    | intro _ _ hs
    | intro _ hs
    | intro hs
    | split

theorem execMetCert_keeps (h : Keeps q s) : KeepsN q (execMetCert a1 s) := by
  unfold execMetCert
  repeat' first
    | with_reducible assumption
    | with_reducible refine keepsN_next ?_
    | (extract_lets +onlyGivenNames y; with_reducible refine keeps_cut (s := y) ?_ ?_; unfold y; clear y; rotate_left; intro hy; clear_value y; revert y; intros)
    | (extract_lets +onlyGivenNames y; clear_value y; revert y; intros)
    | with_reducible refine keeps_ite ?_ ?_
    | with_reducible refine keepsN_ite ?_ ?_
    | with_reducible apply command_keeps
    | with_reducible apply fitted_keeps
    | with_reducible apply reply_keeps
    | intro _ _ hs
    | intro _ hs
    | intro hs
    | split

theorem execMetAlarmAck_keeps (h : Keeps q s) : KeepsN q (execMetAlarmAck a1 s) := by
  unfold execMetAlarmAck
  repeat' first
    | with_reducible assumption
    | with_reducible refine keepsN_next ?_
    | (extract_lets +onlyGivenNames y; with_reducible refine keeps_cut (s := y) ?_ ?_; unfold y; clear y; rotate_left; intro hy; clear_value y; revert y; intros)
    | with_reducible refine keeps_upd (by with_reducible assumption)
    | (extract_lets +onlyGivenNames y; clear_value y; revert y; intros)
    | with_reducible apply command_keeps
    | with_reducible apply fitted_keeps
    | with_reducible apply reply_keeps
    | intro _ _ hs
    | intro _ hs
    | intro hs
    | with_reducible refine keeps_upd ?_

/-! ### AccessCommands -/

theorem execWhoami_keeps (h : Keeps q s) : KeepsN q (execWhoami a1 s) := by
  unfold execWhoami
  repeat' first
    | with_reducible assumption
    | with_reducible refine keepsN_next ?_
    | (extract_lets +onlyGivenNames y; with_reducible refine keeps_cut (s := y) ?_ ?_; unfold y; clear y; rotate_left; intro hy; clear_value y; revert y; intros)
    | with_reducible refine keeps_upd (by with_reducible assumption)
    | (extract_lets +onlyGivenNames y; clear_value y; revert y; intros)
    | with_reducible refine keeps_ite ?_ ?_
    | with_reducible refine keepsN_ite ?_ ?_
    | with_reducible apply command_keeps
    | with_reducible apply reply_keeps
    | intro _ _ hs
    | intro _ hs
    | intro hs
    | split
    | with_reducible refine keeps_fst (by with_reducible assumption) ?_
    | with_reducible refine keeps_upd ?_

theorem execLockOpen_keeps (h : Keeps q s) : KeepsN q (execLockOpen a1 a2 s) := by
  unfold execLockOpen
  repeat' first
    | with_reducible assumption
    | with_reducible refine keepsN_next ?_
    | (extract_lets +onlyGivenNames y; with_reducible refine keeps_cut (s := y) ?_ ?_; unfold y; clear y; rotate_left; intro hy; clear_value y; revert y; intros)
    | with_reducible refine keeps_upd (by with_reducible assumption)
    | (extract_lets +onlyGivenNames y; clear_value y; revert y; intros)
    | with_reducible apply command_keeps
    | with_reducible apply inRange_keeps
    | with_reducible apply heldBy_keeps
    | with_reducible apply reply_keeps
    | intro _ _ hs
    | intro _ hs
    | intro hs
    | with_reducible refine keeps_upd ?_

theorem execLockClose_keeps (h : Keeps q s) : KeepsN q (execLockClose a1 s) := by
  unfold execLockClose
  repeat' first
    | with_reducible assumption
    | with_reducible refine keepsN_next ?_
    | (extract_lets +onlyGivenNames y; with_reducible refine keeps_cut (s := y) ?_ ?_; unfold y; clear y; rotate_left; intro hy; clear_value y; revert y; intros)
    | with_reducible refine keeps_upd (by with_reducible assumption)
    | (extract_lets +onlyGivenNames y; clear_value y; revert y; intros)
    | with_reducible apply command_keeps
    | with_reducible apply heldBy_keeps
    | with_reducible apply require_keeps
    | with_reducible apply reply_keeps
    | intro _ _ hs
    | intro _ hs
    | intro hs
    | with_reducible refine keeps_upd ?_

theorem execLockTimeout_keeps (h : Keeps q s) : KeepsN q (execLockTimeout s) := by
  unfold execLockTimeout
  repeat' first
    | with_reducible assumption
    | with_reducible refine keepsN_next ?_
    | (extract_lets +onlyGivenNames y; with_reducible refine keeps_cut (s := y) ?_ ?_; unfold y; clear y; rotate_left; intro hy; clear_value y; revert y; intros)
    | with_reducible refine keeps_upd (by with_reducible assumption)
    | (extract_lets +onlyGivenNames y; clear_value y; revert y; intros)
    | with_reducible refine keeps_ite ?_ ?_
    | with_reducible refine keepsN_ite ?_ ?_
    | split
    | with_reducible refine keeps_fst (by with_reducible assumption) ?_
    | with_reducible refine keeps_upd ?_

theorem execFieldLock_keeps (h : Keeps q s) : KeepsN q (execFieldLock a1 a2 s) := by
  unfold execFieldLock
  repeat' first
    | with_reducible assumption
    | with_reducible refine keepsN_next ?_
    | (extract_lets +onlyGivenNames y; with_reducible refine keeps_cut (s := y) ?_ ?_; unfold y; clear y; rotate_left; intro hy; clear_value y; revert y; intros)
    | with_reducible refine keeps_upd (by with_reducible assumption)
    | (extract_lets +onlyGivenNames y; clear_value y; revert y; intros)
    | with_reducible refine keeps_ite ?_ ?_
    | with_reducible refine keepsN_ite ?_ ?_
    | with_reducible apply command_keeps
    | with_reducible apply inRange_keeps
    | with_reducible apply wr_keeps
    | with_reducible apply reply_keeps
    | intro _ _ hs
    | intro _ hs
    | intro hs
    | split
    | with_reducible refine keeps_upd ?_

theorem grantReopen_keeps (h : Keeps q s) : Keeps q (State.grantReopen s a1 a2) := by
  unfold State.grantReopen
  repeat' first
    | with_reducible assumption
    | (extract_lets +onlyGivenNames y; with_reducible refine keeps_cut (s := y) ?_ ?_; unfold y; clear y; rotate_left; intro hy; clear_value y; revert y; intros)
    | with_reducible refine keeps_upd (by with_reducible assumption)
    | (extract_lets +onlyGivenNames y; clear_value y; revert y; intros)
    | with_reducible apply updSession_keeps
    | with_reducible apply journal_keeps
    | intro _ _ hs
    | intro _ hs
    | intro hs
    | with_reducible refine keeps_upd ?_

theorem lockoutBegins_keeps (h : Keeps q s) : Keeps q (State.lockoutBegins s a1 a2 a3) := by
  unfold State.lockoutBegins
  repeat' first
    | with_reducible assumption
    | with_reducible apply journal_keeps
    | with_reducible apply wr_keeps

theorem failPassword_keeps (h : Keeps q s) : Keeps q (State.failPassword s a1) := by
  unfold State.failPassword
  repeat' first
    | with_reducible assumption
    | (extract_lets +onlyGivenNames y; with_reducible refine keeps_cut (s := y) ?_ ?_; unfold y; clear y; rotate_left; intro hy; clear_value y; revert y; intros)
    | with_reducible refine keeps_upd (by with_reducible assumption)
    | (extract_lets +onlyGivenNames y; clear_value y; revert y; intros)
    | with_reducible refine keeps_ite ?_ ?_
    | with_reducible apply journal_keeps
    | with_reducible apply lockoutBegins_keeps
    | split
    | with_reducible refine keeps_upd ?_

theorem failResponse_keeps (h : Keeps q s) : Keeps q (State.failResponse s a1) := by
  unfold State.failResponse
  repeat' first
    | with_reducible assumption
    | (extract_lets +onlyGivenNames y; with_reducible refine keeps_cut (s := y) ?_ ?_; unfold y; clear y; rotate_left; intro hy; clear_value y; revert y; intros)
    | with_reducible refine keeps_upd (by with_reducible assumption)
    | (extract_lets +onlyGivenNames y; clear_value y; revert y; intros)
    | with_reducible refine keeps_ite ?_ ?_
    | with_reducible apply journal_keeps
    | with_reducible apply lockoutBegins_keeps
    | split
    | with_reducible refine keeps_upd ?_

theorem execReopenPw_keeps (h : Keeps q s) : KeepsN q (execReopenPw a1 a2 a3 s) := by
  unfold execReopenPw
  repeat' first
    | with_reducible assumption
    | with_reducible refine keepsN_next ?_
    | (extract_lets +onlyGivenNames y; with_reducible refine keeps_cut (s := y) ?_ ?_; unfold y; clear y; rotate_left; intro hy; clear_value y; revert y; intros)
    | with_reducible refine keeps_upd (by with_reducible assumption)
    | (extract_lets +onlyGivenNames y; clear_value y; revert y; intros)
    | with_reducible refine keeps_ite ?_ ?_
    | with_reducible refine keepsN_ite ?_ ?_
    | with_reducible apply command_keeps
    | with_reducible apply inRange_keeps
    | with_reducible apply reply_keeps
    | with_reducible apply grantReopen_keeps
    | with_reducible apply failPassword_keeps
    | intro _ _ hs
    | intro _ hs
    | intro hs
    | split
    | with_reducible refine keeps_fst (by with_reducible assumption) ?_
    | with_reducible refine keeps_upd ?_

theorem execReopenExpiry_keeps (h : Keeps q s) : KeepsN q (execReopenExpiry a1 s) := by
  unfold execReopenExpiry
  repeat' first
    | with_reducible assumption
    | with_reducible refine keepsN_next ?_
    | (extract_lets +onlyGivenNames y; with_reducible refine keeps_cut (s := y) ?_ ?_; unfold y; clear y; rotate_left; intro hy; clear_value y; revert y; intros)
    | with_reducible refine keeps_upd (by with_reducible assumption)
    | (extract_lets +onlyGivenNames y; clear_value y; revert y; intros)
    | with_reducible refine keeps_ite ?_ ?_
    | with_reducible refine keepsN_ite ?_ ?_
    | with_reducible apply updSession_keeps
    | intro _ _ hs
    | intro _ hs
    | intro hs
    | split
    | with_reducible refine keeps_fst (by with_reducible assumption) ?_
    | with_reducible refine keeps_upd ?_

theorem execChallenge_keeps (h : Keeps q s) : KeepsN q (execChallenge a1 a2 s) := by
  unfold execChallenge
  repeat' first
    | with_reducible assumption
    | with_reducible refine keepsN_next ?_
    | (extract_lets +onlyGivenNames y; with_reducible refine keeps_cut (s := y) ?_ ?_; unfold y; clear y; rotate_left; intro hy; clear_value y; revert y; intros)
    | with_reducible refine keeps_upd (by with_reducible assumption)
    | (extract_lets +onlyGivenNames y; clear_value y; revert y; intros)
    | with_reducible refine keeps_ite ?_ ?_
    | with_reducible refine keepsN_ite ?_ ?_
    | with_reducible apply command_keeps
    | with_reducible apply inRange_keeps
    | with_reducible apply reply_keeps
    | with_reducible apply updSession_keeps
    | with_reducible apply nextFree_keeps
    | intro _ _ hs
    | intro _ hs
    | intro hs
    | split
    | with_reducible refine keeps_upd ?_

theorem execResponse_keeps (h : Keeps q s) : KeepsN q (execResponse a1 a2 s) := by
  unfold execResponse
  repeat' first
    | with_reducible assumption
    | with_reducible refine keepsN_next ?_
    | (extract_lets +onlyGivenNames y; with_reducible refine keeps_cut (s := y) ?_ ?_; unfold y; clear y; rotate_left; intro hy; clear_value y; revert y; intros)
    | with_reducible refine keeps_upd (by with_reducible assumption)
    | (extract_lets +onlyGivenNames y; clear_value y; revert y; intros)
    | with_reducible refine keeps_ite ?_ ?_
    | with_reducible refine keepsN_ite ?_ ?_
    | with_reducible apply command_keeps
    | with_reducible apply inRange_keeps
    | with_reducible apply updSession_keeps
    | with_reducible apply reply_keeps
    | with_reducible apply grantReopen_keeps
    | with_reducible apply failResponse_keeps
    | intro _ _ hs
    | intro _ hs
    | intro hs
    | split
    | with_reducible refine keeps_fst (by with_reducible assumption) ?_
    | with_reducible refine keeps_upd ?_

theorem execPwSet_keeps (h : Keeps q s) : KeepsN q (execPwSet a1 a2 s) := by
  unfold execPwSet
  repeat' first
    | with_reducible assumption
    | with_reducible refine keepsN_next ?_
    | (extract_lets +onlyGivenNames y; with_reducible refine keeps_cut (s := y) ?_ ?_; unfold y; clear y; rotate_left; intro hy; clear_value y; revert y; intros)
    | with_reducible refine keeps_upd (by with_reducible assumption)
    | (extract_lets +onlyGivenNames y; clear_value y; revert y; intros)
    | with_reducible refine keeps_ite ?_ ?_
    | with_reducible refine keepsN_ite ?_ ?_
    | with_reducible apply command_keeps
    | with_reducible apply reply_keeps
    | intro _ _ hs
    | intro _ hs
    | intro hs
    | split
    | with_reducible refine keeps_upd ?_

theorem execLockoutRead_keeps (h : Keeps q s) : KeepsN q (execLockoutRead a1 s) := by
  unfold execLockoutRead
  repeat' first
    | with_reducible assumption
    | with_reducible refine keepsN_next ?_
    | (extract_lets +onlyGivenNames y; with_reducible refine keeps_cut (s := y) ?_ ?_; unfold y; clear y; rotate_left; intro hy; clear_value y; revert y; intros)
    | (extract_lets +onlyGivenNames y; clear_value y; revert y; intros)
    | with_reducible apply command_keeps
    | with_reducible apply reply_keeps
    | intro _ _ hs
    | intro _ hs
    | intro hs

theorem execLockoutReset_keeps (h : Keeps q s) : KeepsN q (execLockoutReset a1 s) := by
  unfold execLockoutReset
  repeat' first
    | with_reducible assumption
    | with_reducible refine keepsN_next ?_
    | (extract_lets +onlyGivenNames y; with_reducible refine keeps_cut (s := y) ?_ ?_; unfold y; clear y; rotate_left; intro hy; clear_value y; revert y; intros)
    | with_reducible refine keeps_upd (by with_reducible assumption)
    | (extract_lets +onlyGivenNames y; clear_value y; revert y; intros)
    | with_reducible apply command_keeps
    | with_reducible apply reply_keeps
    | intro _ _ hs
    | intro _ hs
    | intro hs
    | with_reducible refine keeps_upd ?_

theorem execLockoutExpiry_keeps (h : Keeps q s) : KeepsN q (execLockoutExpiry s) := by
  unfold execLockoutExpiry
  repeat' first
    | with_reducible assumption
    | with_reducible refine keepsN_next ?_
    | (extract_lets +onlyGivenNames y; with_reducible refine keeps_cut (s := y) ?_ ?_; unfold y; clear y; rotate_left; intro hy; clear_value y; revert y; intros)
    | with_reducible refine keeps_upd (by with_reducible assumption)
    | (extract_lets +onlyGivenNames y; clear_value y; revert y; intros)
    | intro _ _ hs
    | intro _ hs
    | intro hs
    | with_reducible refine keeps_upd ?_

/-! ### Maintenance -/

theorem execCountersRead_keeps (h : Keeps q s) : KeepsN q (execCountersRead a1 a2 s) := by
  unfold execCountersRead
  repeat' first
    | with_reducible assumption
    | with_reducible refine keepsN_next ?_
    | (extract_lets +onlyGivenNames y; with_reducible refine keeps_cut (s := y) ?_ ?_; unfold y; clear y; rotate_left; intro hy; clear_value y; revert y; intros)
    | (extract_lets +onlyGivenNames y; clear_value y; revert y; intros)
    | with_reducible apply command_keeps
    | with_reducible apply inRange_keeps
    | with_reducible apply reply_keeps
    | intro _ _ hs
    | intro _ hs
    | intro hs

theorem execCountersClear_keeps (h : Keeps q s) : KeepsN q (execCountersClear a1 a2 s) := by
  unfold execCountersClear
  repeat' first
    | with_reducible assumption
    | with_reducible refine keepsN_next ?_
    | (extract_lets +onlyGivenNames y; with_reducible refine keeps_cut (s := y) ?_ ?_; unfold y; clear y; rotate_left; intro hy; clear_value y; revert y; intros)
    | (extract_lets +onlyGivenNames y; clear_value y; revert y; intros)
    | with_reducible apply command_keeps
    | with_reducible apply inRange_keeps
    | with_reducible apply reply_keeps
    | with_reducible apply act_keeps
    | with_reducible apply execHsClearGo_keeps
    | intro _ _ hs
    | intro _ hs
    | intro hs

theorem execJournalRead_keeps (h : Keeps q s) : KeepsN q (execJournalRead a1 a2 a3 s) := by
  unfold execJournalRead
  repeat' first
    | with_reducible assumption
    | with_reducible refine keepsN_next ?_
    | (extract_lets +onlyGivenNames y; with_reducible refine keeps_cut (s := y) ?_ ?_; unfold y; clear y; rotate_left; intro hy; clear_value y; revert y; intros)
    | (extract_lets +onlyGivenNames y; clear_value y; revert y; intros)
    | with_reducible refine keeps_ite ?_ ?_
    | with_reducible refine keepsN_ite ?_ ?_
    | with_reducible apply command_keeps
    | with_reducible apply reply_keeps
    | intro _ _ hs
    | intro _ hs
    | intro hs
    | split

theorem execSparesRead_keeps (h : Keeps q s) : KeepsN q (execSparesRead a1 s) := by
  unfold execSparesRead
  repeat' first
    | with_reducible assumption
    | with_reducible refine keepsN_next ?_
    | (extract_lets +onlyGivenNames y; with_reducible refine keeps_cut (s := y) ?_ ?_; unfold y; clear y; rotate_left; intro hy; clear_value y; revert y; intros)
    | (extract_lets +onlyGivenNames y; clear_value y; revert y; intros)
    | with_reducible apply command_keeps
    | with_reducible apply reply_keeps
    | intro _ _ hs
    | intro _ hs
    | intro hs

theorem execSpareSwitch_keeps (h : Keeps q s) : KeepsN q (execSpareSwitch a1 a2 a3 a4 s) := by
  unfold execSpareSwitch
  repeat' first
    | with_reducible assumption
    | with_reducible refine keepsN_next ?_
    | (extract_lets +onlyGivenNames y; with_reducible refine keeps_cut (s := y) ?_ ?_; unfold y; clear y; rotate_left; intro hy; clear_value y; revert y; intros)
    | with_reducible refine keeps_upd (by with_reducible assumption)
    | (extract_lets +onlyGivenNames y; clear_value y; revert y; intros)
    | with_reducible refine keeps_ite ?_ ?_
    | with_reducible refine keepsN_ite ?_ ?_
    | with_reducible apply command_keeps
    | with_reducible apply inRange_keeps
    | with_reducible apply reply_keeps
    | with_reducible apply spareCancel_keeps
    | with_reducible apply spareStart_keeps
    | with_reducible apply await_keeps
    | intro _ _ hs
    | intro _ hs
    | intro hs
    | split
    | with_reducible refine keeps_fst (by with_reducible assumption) ?_
    | with_reducible refine keeps_upd ?_

theorem execRelocate_keeps (h : Keeps q s) : KeepsN q (execRelocate a1 a2 a3 a4 s) := by
  unfold execRelocate
  repeat' first
    | with_reducible assumption
    | with_reducible refine keepsN_next ?_
    | (extract_lets +onlyGivenNames y; with_reducible refine keeps_cut (s := y) ?_ ?_; unfold y; clear y; rotate_left; intro hy; clear_value y; revert y; intros)
    | (extract_lets +onlyGivenNames y; clear_value y; revert y; intros)
    | with_reducible refine keeps_ite ?_ ?_
    | with_reducible refine keepsN_ite ?_ ?_
    | with_reducible apply command_keeps
    | with_reducible apply inRange_keeps
    | with_reducible apply reply_keeps
    | with_reducible apply relocCheck_keeps
    | with_reducible apply await_keeps
    | with_reducible apply svRelocOrder_keeps
    | intro _ _ hs
    | intro _ hs
    | intro hs
    | split

theorem execShadowSet_keeps (h : Keeps q s) : KeepsN q (execShadowSet a1 a2 a3 s) := by
  unfold execShadowSet
  repeat' first
    | with_reducible assumption
    | with_reducible refine keepsN_next ?_
    | (extract_lets +onlyGivenNames y; with_reducible refine keeps_cut (s := y) ?_ ?_; unfold y; clear y; rotate_left; intro hy; clear_value y; revert y; intros)
    | (extract_lets +onlyGivenNames y; clear_value y; revert y; intros)
    | with_reducible apply command_keeps
    | with_reducible apply inRange_keeps
    | with_reducible apply reply_keeps
    | with_reducible apply svShadowOrder_keeps
    | intro _ _ hs
    | intro _ hs
    | intro hs

theorem execSelftest_keeps (h : Keeps q s) : KeepsN q (execSelftest a1 a2 s) := by
  unfold execSelftest
  repeat' first
    | with_reducible assumption
    | with_reducible refine keepsN_next ?_
    | (extract_lets +onlyGivenNames y; with_reducible refine keeps_cut (s := y) ?_ ?_; unfold y; clear y; rotate_left; intro hy; clear_value y; revert y; intros)
    | with_reducible refine keeps_upd (by with_reducible assumption)
    | (extract_lets +onlyGivenNames y; clear_value y; revert y; intros)
    | with_reducible apply command_keeps
    | with_reducible apply require_keeps
    | with_reducible apply reply_keeps
    | intro _ _ hs
    | intro _ hs
    | intro hs
    | split
    | with_reducible refine keeps_fst (by with_reducible assumption) ?_
    | with_reducible refine keeps_upd ?_

theorem execRouteCounters_keeps (h : Keeps q s) : KeepsN q (execRouteCounters a1 a2 s) := by
  unfold execRouteCounters
  repeat' first
    | with_reducible assumption
    | with_reducible refine keepsN_next ?_
    | (extract_lets +onlyGivenNames y; with_reducible refine keeps_cut (s := y) ?_ ?_; unfold y; clear y; rotate_left; intro hy; clear_value y; revert y; intros)
    | (extract_lets +onlyGivenNames y; clear_value y; revert y; intros)
    | with_reducible apply command_keeps
    | with_reducible apply require_keeps
    | with_reducible apply reply_keeps
    | intro _ _ hs
    | intro _ hs
    | intro hs

end Sys2Proof.Laws
end

