-- ==== Sys2Proof/Laws/KeepsExec.lean ====
section
/-! SUPPORT. Every command leaves the queue of waiting commands alone and keeps a sound state sound, and only the commands that meter energy
change the metering registers. -/

set_option Elab.async false

namespace Sys2Proof.Laws

open Sys2Proof Sys2Proof.Machine Sys2Proof.Safety

variable {q : Prop × List Instr × Option (List (Nat × Nat))} {s : State}

theorem exec_keeps (c : Instr) (h : Keeps q s) (hq : q.2.2 = none ∨ metersEnergy c = false) : KeepsN q (exec c s) := by
  cases c
  · exact execPowerOnReset_keeps h
  · exact execModuleReset_keeps h
  · exact execLatticeReset_keeps h
  · exact execBootStageComplete_keeps h
  · exact execPowerFailWarning_keeps h (hq.resolve_right (by simp [metersEnergy]))
  · exact execPowerFailWarningClear_keeps h
  · exact execLatticeStop_keeps h
  · exact execBrownoutRestart_keeps h
  · exact execFeedOutOfRange_keeps h
  · exact execFeedOvervoltage_keeps h
  · exact execFeedReconnect_keeps h
  · exact execUnplannedOscSwitch_keeps h
  · exact execPlannedOscSwitch_keeps h
  · exact execRefSelWrite_keeps h
  · exact execExternalLock_keeps h
  · exact execExternalRefLost_keeps h
  · exact execSnap_keeps h
  · exact execFrcLoRead_keeps h
  · exact execWideCounterLowRead_keeps h
  · exact execTbIncWrite_keeps h
  · exact execTodsetNow_keeps h
  · exact execTodsetArm_keeps h
  · exact execTodStepApply_keeps h
  · exact execFrameTick_keeps h
  · exact execFramePeriodWrite_keeps h
  · exact execLgConfigWrite_keeps h
  · exact execLgMemberWrite_keeps h
  · exact execLgOneShotArm_keeps h
  · exact execLgFire_keeps h
  · exact execPpsInEdge_keeps h
  · exact execPpsOutPulse_keeps h
  · exact execAluOp_keeps h
  · exact execSatOp_keeps h
  · exact execMul_keeps h
  · exact execMac_keeps h
  · exact execAccrd_keeps h
  · exact execDiv_keeps h
  · exact execSqrt_keeps h
  · exact execBr_keeps h
  · exact execLoopn_keeps h
  · exact execWait_keeps h
  · exact execEndf_keeps h
  · exact execLld_keeps h
  · exact execLst_keeps h
  · exact execRecv_keeps h
  · exact execSld_keeps h
  · exact execSharedLoadResponse_keeps h
  · exact execSst_keeps h
  · exact execSend_keeps h
  · exact execSendDelivery_keeps h
  · exact execRpoll_keeps h
  · exact execRenq_keeps h
  · exact execEcall_keeps h
  · exact execEngineCallComplete_keeps h
  · exact execXstart_keeps h
  · exact execTransferComplete_keeps h
  · exact execDabs_keeps h
  · exact execDseal_keeps h
  · exact execDigestSealComplete_keeps h
  · exact execFcm_keeps h
  · exact execRetentiveRecordCommit_keeps h
  · exact execRetentiveFold_keeps h
  · exact execMgmtRingEnqueue_keeps h
  · exact execAsyncAccessRetry_keeps h
  · exact execPortbBankWrite_keeps h
  · exact execRetentiveWriteThrough_keeps h
  · exact execDigestSend_keeps h
  · exact execInputExchangeSend_keeps h
  · exact execExchangeMessageRx_keeps h
  · exact execExchangeCutover_keeps h
  · exact execTtAdmStart_keeps h
  · exact execTtAdmAbort_keeps h
  · exact execAdmissionComplete_keeps h
  · exact execLtRelocCheck_keeps h
  · exact execPlacementCheckComplete_keeps h
  · exact execLtRelocCommit_keeps h
  · exact execTileRelocation_keeps h
  · exact execTileShadow_keeps h
  · exact execTileShadowCompare_keeps h
  · exact execTtModePrepare_keeps h
  · exact execModePrepareComplete_keeps h
  · exact execTtModeArm_keeps h
  · exact execTtModeCancel_keeps h
  · exact execModeDeltaWrites_keeps h
  · exact execTtRunStart_keeps h
  · exact execRunEntry_keeps h
  · exact execTtRunStop_keeps h
  · exact execStopTakesEffect_keeps h
  · exact execTtRunLrst_keeps h
  · exact execTtRetClear_keeps h
  · exact execLpWinWrite_keeps h
  · exact execLpWinRead_keeps h
  · exact execSvWinWrite_keeps h
  · exact execSvWinRead_keeps h
  · exact execSvDmaStart_keeps h
  · exact execSvDmaAbort_keeps h
  · exact execSvDmaComplete_keeps h
  · exact execSvRelocCommit_keeps h
  · exact execSolverRelocation_keeps h
  · exact execConversionWindowEnd_keeps h
  · exact execFieldControlFrame_keeps h
  · exact execGroupFallbackEntry_keeps h
  · exact execGroupResume_keeps h
  · exact execSafeStateLineAssert_keeps h
  · exact execGroupSupplyFail_keeps h
  · exact execFgApply_keeps h
  · exact execFgApplyCancel_keeps h
  · exact execFgApplyTakesEffect_keeps h
  · exact execCrossCheckVisit_keeps h
  · exact execFgSpareStart_keeps h
  · exact execFgSpareCancel_keeps h
  · exact execSpareTakeover_keeps h
  · exact execLoopPowerSample_keeps h
  · exact execChFlagsWrite_keeps h
  · exact execHartPollDue_keeps h
  · exact execHartFrameStart_keeps h
  · exact execHartResponseRx_keeps h
  · exact execHartResponseTimeout_keeps h
  · exact execHartRequestExpired_keeps h
  · exact execHartBurstRx_keeps h
  · exact execDiRefresh_keeps h
  · exact execDiInputStale_keeps h
  · exact execDoImageFrame_keeps h
  · exact execDoControlFrame_keeps h
  · exact execDoBlockDeenergise_keeps h
  · exact execDoBlockResume_keeps h
  · exact execDoCurrentLimit_keeps h
  · exact execDoThermalRestart_keeps h
  · exact execFieldSupplyLow_keeps h
  · exact execDioApply_keeps h
  · exact execDioApplyCancel_keeps h
  · exact execDioApplyTakesEffect_keeps h
  · exact execChApply_keeps h
  · exact execChCancel_keeps h
  · exact execChainApplyTakesEffect_keeps h
  · exact execChDiscover_keeps h
  · exact execChainDiscoveryStart_keeps h
  · exact execDiscoveryComplete_keeps h
  · exact execChWake_keeps h
  · exact execChSleep_keeps h
  · exact execChFaultClr_keeps h
  · exact execQuietSend_keeps h
  · exact execSampleStrobe_keeps h
  · exact execReadoutSend_keeps h
  · exact execDataFrameRx_keeps h
  · exact execChainRetrySend_keeps h
  · exact execChainBreak_keeps h
  · exact execSweepClose_keeps h
  · exact execSweepPublish_keeps h
  · exact execKeep_keeps h
  · exact execChainQueueSend_keeps h
  · exact execChainResponseRx_keeps h
  · exact execFaultLineChange_keeps h
  · exact execChainFaultTrip_keeps h
  · exact execForwardedChainItemRx_keeps h
  · exact execIngestMessageRx_keeps h
  · exact execIngestPublish_keeps h
  · exact execIngestSend_keeps h
  · exact execChIngApply_keeps h
  · exact execChIngCancel_keeps h
  · exact execIngestApplyTakesEffect_keeps h
  · exact execNodeImageSend_keeps h
  · exact execCanFrameRx_keeps h
  · exact execCanTxRecord_keeps h
  · exact execCanTxStart_keeps h
  · exact execCanTxComplete_keeps h
  · exact execCanBusOff_keeps h
  · exact execCfRecover_keeps h
  · exact execCanRecoveryComplete_keeps h
  · exact execCfTxbAbort_keeps h
  · exact execCfApply_keeps h
  · exact execCfCancel_keeps h
  · exact execCfApplyTakesEffect_keeps h
  · exact execCanServiceSegmentRx_keeps h
  · exact execCanServiceGapTimeout_keeps h
  · exact execEthFrameRx_keeps h
  · exact execEthFrameTx_keeps h
  · exact execRouteEntryDrain_keeps h
  · exact execFabricFrameSend_keeps h
  · exact execFabricFrameRx_keeps h
  · exact execEsRtApply_keeps h
  · exact execEsRtCancel_keeps h
  · exact execRouteTableSwap_keeps h
  · exact execPrpSupervisionSend_keeps h
  · exact execMacsecRekey_keeps h
  · exact execMacsecOldAssociationExpiry_keeps h
  · exact execPeerSessionKeyExpiry_keeps h
  · exact execPtpMessageRx_keeps h
  · exact execPtpMessageTx_keeps h
  · exact execPtpMasterLost_keeps h
  · exact execPartnerHealthyChange_keeps h
  · exact execPartnerMarkPulse_keeps h
  · exact execPartnerDriveChange_keeps h
  · exact execPartnerLinkChange_keeps h
  · exact execDigestMessageRx_keeps h
  · exact execGatedRingMirrorRx_keeps h
  · exact execFailoverCheck_keeps h
  · exact execPartnerLinksLost_keeps h
  · exact execAutojoin_keeps h
  · exact execPaCmdJoin_keeps h
  · exact execPaCmdLeave_keeps h
  · exact execPaCmdHandover_keeps h
  · exact execPaCmdCancel_keeps h
  · exact execHandoverTakesEffect_keeps h
  · exact execPairRevert_keeps h
  · exact execStandbyPromotion_keeps h
  · exact execStateTransferRound_keeps h
  · exact execStateTransferFinal_keeps h
  · exact execStateTransferTimeout_keeps h
  · exact execPairSelftestComplete_keeps h
  · exact execSessionHandshake_keeps h
  · exact execSessionIdleTimeout_keeps h
  · exact execTlsKeyUpdate_keeps h
  · exact execMalformedHeader_keeps h
  · exact execUndefinedOpcode_keeps h
  · exact execHello_keeps (a3 := []) h
  · exact execPing_keeps h
  · exact execStatus_keeps h
  · exact execSubscribe_keeps h
  · exact execVersions_keeps h
  · exact execBye_keeps h
  · exact execModeRead_keeps h
  · exact execModePrepare_keeps h
  · exact execModeArm_keeps h
  · exact execModeStatus_keeps h
  · exact execModeCancel_keeps h
  · exact execSlotRename_keeps h
  · exact execSlotClear_keeps h
  · exact execStart_keeps h
  · exact execStop_keeps h
  · exact execLrst_keeps h
  · exact execRunStatus_keeps h
  · exact execAdmitCmd_keeps h
  · exact execAdmitStatus_keeps h
  · exact execAutorun_keeps h
  · exact execRetExport_keeps h
  · exact execRetImport_keeps h
  · exact execRetClear_keeps h
  · exact execRingPut_keeps h
  · exact execRingGet_keeps h
  · exact execDataRead_keeps h
  · exact execXferBegin_keeps h
  · exact execXferChunk_keeps h
  · exact execXferEnd_keeps h
  · exact execXferAbort_keeps h
  · exact execUpdateSchedule_keeps h
  · exact execUpdateActivate_keeps h
  · exact execUpdateStatus_keeps h
  · exact execUpdateForward_keeps h
  · exact execBankSelect_keeps h
  · exact execCfgRead_keeps h
  · exact execCfgWrite_keeps h
  · exact execCfgApply_keeps h
  · exact execCfgCancel_keeps h
  · exact execCfgSave_keeps h
  · exact execChanRead_keeps h
  · exact execNetCfg_keeps h
  · exact execTrimSet_keeps h
  · exact execHartPass_keeps h
  · exact execHartRead_keeps h
  · exact execHartPollSet_keeps h
  · exact execCanRecover_keeps h
  · exact execCanSend_keeps h
  · exact execFlagClear_keeps h
  · exact execTimeRead_keeps h
  · exact execTodSet_keeps h
  · exact execIncSet_keeps h
  · exact execServoCfg_keeps h
  · exact execLgArm_keeps h
  · exact execRefSelect_keeps h
  · exact execPairStatus_keeps h
  · exact execJoin_keeps h
  · exact execLeave_keeps h
  · exact execHandover_keeps h
  · exact execPairCancel_keeps h
  · exact execPairCfg_keeps h
  · exact execChainStatus_keeps h
  · exact execChainPass_keeps h
  · exact execChainDiscover_keeps h
  · exact execChainWake_keeps h
  · exact execChainSleep_keeps h
  · exact execBalSet_keeps h
  · exact execChainFaultClr_keeps h
  · exact execSlotRead_keeps h
  · exact execNodeStatus_keeps h
  · exact execMetStatus_keeps h
  · exact execMetRecords_keeps h
  · exact execMetAudit_keeps h
  · exact execMetCert_keeps h
  · exact execMetAlarmAck_keeps h
  · exact execWhoami_keeps h
  · exact execLockOpen_keeps h
  · exact execLockClose_keeps h
  · exact execLockTimeout_keeps h
  · exact execFieldLock_keeps h
  · exact execReopenPw_keeps h
  · exact execReopenExpiry_keeps h
  · exact execChallenge_keeps h
  · exact execResponse_keeps h
  · exact execPwSet_keeps h
  · exact execLockoutRead_keeps h
  · exact execLockoutReset_keeps h
  · exact execLockoutExpiry_keeps h
  · exact execIndRect_keeps h
  · exact execIndStatus_keeps h
  · exact execIndClear_keeps h
  · exact execCountersRead_keeps h
  · exact execCountersClear_keeps h
  · exact execJournalRead_keeps h
  · exact execSparesRead_keeps h
  · exact execSpareSwitch_keeps h
  · exact execRelocate_keeps h
  · exact execShadowSet_keeps h
  · exact execRegRead_keeps h
  · exact execRegWrite_keeps h
  · exact execSelftest_keeps h
  · exact execRouteCounters_keeps h
  · exact execIdCert_keeps h
  · exact execOwnTake_keeps h
  · exact execOwnRelease_keeps h
  · exact execCredRevoke_keeps h
  · exact execCredUnrevoke_keeps h
  · exact execCredList_keeps h
  · exact execMemberCertSet_keeps h
  · exact execPeerBind_keeps h
  · exact execFloorSet_keeps h
  · exact execFloorRead_keeps h
  · exact execZeroise_keeps h
  · exact execTamperCfg_keeps h
  · exact execTamperRead_keeps h
  · exact execTamperInput_keeps h
  · exact execSeMboxGo_keeps h
  · exact execSeReplyReady_keeps h
  · exact execMeteringIntervalEnd_keeps h (hq.resolve_right (by simp [metersEnergy]))
  · exact execProfilePeriodEnd_keeps h
  · exact execTotalsRecordSend_keeps h
  · exact execStatusRecordSend_keeps h
  · exact execCertRecordSend_keeps h
  · exact execAuditEntryWrite_keeps h
  · exact execPhaseLoss_keeps h
  · exact execOverload_keeps h
  · exact execMgRecordRx_keeps h
  · exact execMgRxPop_keeps h
  · exact execRecordVerify_keeps h
  · exact execSealCoverOpen_keeps h
  · exact execServiceWindowWrite_keeps h
  · exact execServiceWindowRead_keeps h
  · exact execResealArmExpiry_keeps h
  · exact execSealCoverClose_keeps h
  · exact execLidOpen_keeps h
  · exact execAuxSupplyLow_keeps h (hq.resolve_right (by simp [metersEnergy]))
  · exact execAuxSupplyReturn_keeps h
  · exact execDgSubmit_keeps h
  · exact execRectangleStart_keeps h
  · exact execRectangleComplete_keeps h
  · exact execDgDonePop_keeps h
  · exact execLegalPageAdvance_keeps h
  · exact execRailOutOfTolerance_keeps h
  · exact execPumpRelease_keeps h
  · exact execCrackCheck_keeps h
  · exact execStartRepaint_keeps h
  · exact execUpdateActivation_keeps h
  · exact execCommandedActivation_keeps h
  · exact execForwardHop_keeps h
  · exact execForwardHopTimeout_keeps h
  · exact execRecoveryInfo_keeps h
  · exact execRecoveryBegin_keeps h
  · exact execRecoveryData_keeps h
  · exact execRecoveryEnd_keeps h
  · exact execRecoveryRestart_keeps h
  · exact execRecoveryIdleTimeout_keeps h
  · exact execTickLost_keeps h
  · exact execOverTemperature_keeps h
  · exact execRailOutOfRange_keeps h
  · exact execSsTripCmd_keeps h
  · exact execSsTripLatchReset_keeps h
  · exact execWearEvaluation_keeps h
  · exact execHsSwitchStart_keeps h
  · exact execHsSwitchCancel_keeps h
  · exact execSwitchInCommit_keeps h
  · exact execRowSpareCopy_keeps h
  · exact execJournalFlush_keeps h
  · exact execHsClearGo_keeps h
  · exact execRegisterWrite_keeps h
  · exact execHoldUpEnd_keeps h
  · exact execGroupSupplyReturn_keeps h
  · exact execPortLinkChange_keeps h
  · exact execCanBusError_keeps h
  · exact execConnectionClosed_keeps h
  · exact execFarEndCommandRx_keeps h
  · exact execManagementPathMessageRx_keeps h
  · exact execPartRestartComplete_keeps h
  · exact execSupervisionMissing_keeps h

end Sys2Proof.Laws
end

