-- ==== Sys2Proof/Laws/ResetFrc.lean ====
section
/-! SUPPORT. The resets MRST and LRST leave the FRC as it is, and POR sets it to 0 (R16, R43): `Keeps n s` says that the FRC of `s` is `n`. -/

set_option Elab.async false

namespace Sys2Proof.Laws.Frc

open Sys2Proof Sys2Proof.Machine Sys2Proof.Safety

/-- The FRC is `q`. -/
def Keeps (q : Nat) (s : State) : Prop := s.tb.frc = q

variable {q : Nat} {s t : State}

/-- A record update that leaves the queue, the two stores, the time base and the journal. -/
theorem keeps_upd {x_staged : List (Nat × Nat)} {x_latch : List (Nat × Nat)} {x_rdata : Nat} {x_free : Nat} {x_sent : List Sent} {x_unit : UnitState} {x_role : Role} {x_lat : Lattice} {x_tt : Timetable} {x_acc : Service} {x_loopResyncs : List Nat} {x_chans : List Chan} {x_groups : List Group} {x_harts : List Hart} {x_dio : Dio} {x_sup : Sup} {x_hs : Health} {x_pair : Pair} {x_chains : List ChainPort} {x_ingest : Ingest} {x_cans : List CanPort} {x_eth : Eth} {x_ptp : Ptp} {x_disp : Disp} {x_met : Met} {x_mg : MgSide} {x_trust : Trust} {x_fw : Firmware}
    (h : Keeps q s) : Keeps q ⟨s.pending, s.regs, s.mem, x_staged, x_latch, x_rdata, x_free, x_sent, x_unit, x_role, s.tb, x_lat, x_tt, x_acc, s.jr, x_loopResyncs, x_chans, x_groups, x_harts, x_dio, x_sup, x_hs, x_pair, x_chains, x_ingest, x_cans, x_eth, x_ptp, x_disp, x_met, x_mg, x_trust, x_fw⟩ := by
  exact h

/-- The same with a time base whose FRC stays. -/
theorem keeps_tb {x_staged : List (Nat × Nat)} {x_latch : List (Nat × Nat)} {x_rdata : Nat} {x_free : Nat} {x_sent : List Sent} {x_unit : UnitState} {x_role : Role} {x_lat : Lattice} {x_tt : Timetable} {x_acc : Service} {x_loopResyncs : List Nat} {x_chans : List Chan} {x_groups : List Group} {x_harts : List Hart} {x_dio : Dio} {x_sup : Sup} {x_hs : Health} {x_pair : Pair} {x_chains : List ChainPort} {x_ingest : Ingest} {x_cans : List CanPort} {x_eth : Eth} {x_ptp : Ptp} {x_disp : Disp} {x_met : Met} {x_mg : MgSide} {x_trust : Trust} {x_fw : Firmware} {y_sec : Nat} {y_ns : Nat} {y_frac : Nat} {y_frcShadow : Nat} {y_step : Option TodStep} {y_stepAt : Option Nat} {y_frameNo : Nat} {y_lastTick : Nat} {y_base : Nat} {y_pairTick : Nat} {y_oscOrder : Option (Nat × Nat)} {y_extOrdered : Bool} {y_armed : List Nat} {y_fired : List Nat} {y_lastPps : Option Nat} {y_ppsFire : List Nat} {y_ppsOut : Option Int} {y_tenM : Option Nat}
    (h : Keeps q s) : Keeps q ⟨s.pending, s.regs, s.mem, x_staged, x_latch, x_rdata, x_free, x_sent, x_unit, x_role, ⟨s.tb.frc, y_sec, y_ns, y_frac, y_frcShadow, y_step, y_stepAt, y_frameNo, y_lastTick, y_base, y_pairTick, y_oscOrder, y_extOrdered, y_armed, y_fired, y_lastPps, y_ppsFire, y_ppsOut, y_tenM⟩, x_lat, x_tt, x_acc, s.jr, x_loopResyncs, x_chans, x_groups, x_harts, x_dio, x_sup, x_hs, x_pair, x_chains, x_ingest, x_cans, x_eth, x_ptp, x_disp, x_met, x_mg, x_trust, x_fw⟩ := by
  exact h

/-- The same with the FRC of another sound state. -/
theorem keeps_tb2 {x_staged : List (Nat × Nat)} {x_latch : List (Nat × Nat)} {x_rdata : Nat} {x_free : Nat} {x_sent : List Sent} {x_unit : UnitState} {x_role : Role} {x_lat : Lattice} {x_tt : Timetable} {x_acc : Service} {x_loopResyncs : List Nat} {x_chans : List Chan} {x_groups : List Group} {x_harts : List Hart} {x_dio : Dio} {x_sup : Sup} {x_hs : Health} {x_pair : Pair} {x_chains : List ChainPort} {x_ingest : Ingest} {x_cans : List CanPort} {x_eth : Eth} {x_ptp : Ptp} {x_disp : Disp} {x_met : Met} {x_mg : MgSide} {x_trust : Trust} {x_fw : Firmware} {y_sec : Nat} {y_ns : Nat} {y_frac : Nat} {y_frcShadow : Nat} {y_step : Option TodStep} {y_stepAt : Option Nat} {y_frameNo : Nat} {y_lastTick : Nat} {y_base : Nat} {y_pairTick : Nat} {y_oscOrder : Option (Nat × Nat)} {y_extOrdered : Bool} {y_armed : List Nat} {y_fired : List Nat} {y_lastPps : Option Nat} {y_ppsFire : List Nat} {y_ppsOut : Option Int} {y_tenM : Option Nat}
    (_ : Keeps q s) (h' : Keeps q t) : Keeps q ⟨s.pending, s.regs, s.mem, x_staged, x_latch, x_rdata, x_free, x_sent, x_unit, x_role, ⟨t.tb.frc, y_sec, y_ns, y_frac, y_frcShadow, y_step, y_stepAt, y_frameNo, y_lastTick, y_base, y_pairTick, y_oscOrder, y_extOrdered, y_armed, y_fired, y_lastPps, y_ppsFire, y_ppsOut, y_tenM⟩, x_lat, x_tt, x_acc, s.jr, x_loopResyncs, x_chans, x_groups, x_harts, x_dio, x_sup, x_hs, x_pair, x_chains, x_ingest, x_cans, x_eth, x_ptp, x_disp, x_met, x_mg, x_trust, x_fw⟩ := by
  exact h'

theorem keeps_cut (h : Keeps q s) (f : Keeps q s → Keeps q t) : Keeps q t := f h

/-- A time base named on the way. -/
theorem keeps_tbid (_ : TimeBase) (h : Keeps q s) : Keeps q s := h

/-- The same for a local function between states. -/
theorem keeps_cutF {f : State → State} (h : ∀ s, Keeps q s → Keeps q (f s))
    (g : (∀ s, Keeps q s → Keeps q (f s)) → Keeps q t) : Keeps q t := g h

theorem keeps_cutG {β : Type} {f : State → β → State} (h : ∀ s b, Keeps q s → Keeps q (f s b))
    (g : (∀ s b, Keeps q s → Keeps q (f s b)) → Keeps q t) : Keeps q t := g h

theorem keeps_cutH {β γ : Type} {f : State → β → γ → State} (h : ∀ s b c, Keeps q s → Keeps q (f s b c))
    (g : (∀ s b c, Keeps q s → Keeps q (f s b c)) → Keeps q t) : Keeps q t := g h

theorem keeps_ite {c : Prop} [Decidable c] (h1 : Keeps q s) (h2 : Keeps q t) : Keeps q (if c then s else t) := by
  split <;> assumption

theorem keeps_ite' {c : Prop} [Decidable c] (h1 : c → Keeps q s) (h2 : ¬c → Keeps q t) : Keeps q (if c then s else t) := by
  split
  · exact h1 ‹_›
  · exact h2 ‹_›

theorem keeps_fst {β : Type} {p : State × β} {b : β} (e : p = (s, b)) (h : Keeps q p.1) : Keeps q s := by
  rw [e] at h; exact h

theorem keeps_foldl {β : Type} {f : State → β → State} {l : List β} (h : Keeps q s)
    (hf : ∀ s b, Keeps q s → Keeps q (f s b)) : Keeps q (l.foldl f s) := by
  induction l generalizing s with
  | nil => exact h
  | cons b l ih => exact ih (hf s b h)

theorem keeps_foldl_fst {β γ : Type} {f : State × γ → β → State × γ} {l : List β} {p : State × γ} (h : Keeps q p.1)
    (hf : ∀ p b, Keeps q p.1 → Keeps q (f p b).1) : Keeps q (l.foldl f p).1 := by
  induction l generalizing p with
  | nil => exact h
  | cons b l ih => exact ih (hf p b h)


theorem wr_keeps (h : Keeps q s) : Keeps q (State.wr s a1 a2 a3 a4) := by
  exact h

theorem inc_keeps (h : Keeps q s) : Keeps q (State.inc s a1 a2 a3) := by
  unfold State.inc
  repeat' first
    | with_reducible assumption
    | with_reducible refine keeps_ite ?_ ?_
    | with_reducible apply wr_keeps
    | split

theorem wr64_keeps (h : Keeps q s) : Keeps q (State.wr64 s a1 a2 a3 a4) := by
  unfold State.wr64
  repeat' first
    | with_reducible assumption
    | with_reducible apply wr_keeps

theorem setByte_keeps (h : Keeps q s) : Keeps q (State.setByte s a1 a2) := by
  exact h

theorem setBytes_keeps (h : Keeps q s) : Keeps q (State.setBytes s a1 a2) := by
  exact h

theorem clearMem_keeps (h : Keeps q s) : Keeps q (State.clearMem s a1 a2) := by
  exact h

theorem setWord_keeps (h : Keeps q s) : Keeps q (State.setWord s a1 a2) := by
  unfold State.setWord
  repeat' first
    | with_reducible assumption
    | with_reducible apply setBytes_keeps

theorem nextFree_keeps (h : Keeps q s) : Keeps q (State.nextFree s) := by
  unfold State.nextFree
  repeat' first
    | with_reducible assumption
    | (extract_lets +onlyGivenNames y; with_reducible refine keeps_cut (s := y) ?_ ?_; unfold y; clear y; rotate_left; intro hy; clear_value y; revert y; intros)
    | with_reducible refine keeps_upd (by with_reducible assumption)
    | (extract_lets +onlyGivenNames y; clear_value y; revert y; intros)
    | with_reducible refine keeps_upd ?_

theorem emit_keeps (h : Keeps q s) : Keeps q (State.emit s a1 a2 a3 a4) := by
  unfold State.emit
  repeat' first
    | with_reducible assumption
    | (extract_lets +onlyGivenNames y; with_reducible refine keeps_cut (s := y) ?_ ?_; unfold y; clear y; rotate_left; intro hy; clear_value y; revert y; intros)
    | with_reducible refine keeps_upd (by with_reducible assumption)
    | (extract_lets +onlyGivenNames y; clear_value y; revert y; intros)
    | with_reducible refine keeps_upd ?_

theorem notify_keeps (h : Keeps q s) : Keeps q (State.notify s a1 a2 a3 a4) := by
  unfold State.notify
  repeat' first
    | with_reducible assumption
    | with_reducible apply emit_keeps
    | with_reducible refine keeps_foldl ?_ (fun _ _ hs => ?_)
    | intro _ _ hs
    | intro _ hs
    | intro hs

theorem loopStatus_keeps (h : Keeps q s) : Keeps q (State.loopStatus s a1 a2) := by
  unfold State.loopStatus
  repeat' first
    | with_reducible assumption
    | (extract_lets +onlyGivenNames y; with_reducible refine keeps_cut (s := y) ?_ ?_; unfold y; clear y; rotate_left; intro hy; clear_value y; revert y; intros)
    | (extract_lets +onlyGivenNames y; with_reducible refine keeps_cutH (f := y) ?_ ?_; unfold y; clear y; rotate_left; intro hy; clear_value y; revert y; intro fH hH)
    | (extract_lets +onlyGivenNames y; clear_value y; revert y; intros)
    | with_reducible refine keeps_ite ?_ ?_
    | with_reducible apply hH
    | with_reducible apply wr_keeps
    | intro _ _ hs
    | intro _ hs
    | intro hs
    | split

theorem updCall_keeps (h : Keeps q s) : Keeps q (State.updCall s a1 a2 a3) := by
  unfold State.updCall
  repeat' first
    | with_reducible assumption
    | (extract_lets +onlyGivenNames y; with_reducible refine keeps_cut (s := y) ?_ ?_; unfold y; clear y; rotate_left; intro hy; clear_value y; revert y; intros)
    | with_reducible refine keeps_upd (by with_reducible assumption)
    | (extract_lets +onlyGivenNames y; clear_value y; revert y; intros)
    | with_reducible refine keeps_ite ?_ ?_
    | intro _ _ hs
    | intro _ hs
    | intro hs
    | split
    | with_reducible refine keeps_upd ?_

theorem readBad_keeps (h : Keeps q s) : Keeps q (State.readBad s a1 a2).1 := by
  induction a2 generalizing s a1 with
  | nil => exact h
  | cons i bad ih => exact ih (nextFree_keeps h)

theorem loopSample_keeps (h : Keeps q s) : Keeps q (State.loopSample s a1 a2 a3) := by
  unfold State.loopSample
  repeat' first
    | with_reducible assumption
    | (extract_lets +onlyGivenNames y; with_reducible refine keeps_cut (s := y) ?_ ?_; unfold y; clear y; rotate_left; intro hy; clear_value y; revert y; intros)
    | with_reducible refine keeps_upd (by with_reducible assumption)
    | (extract_lets +onlyGivenNames y; clear_value y; revert y; intros)
    | with_reducible refine keeps_ite ?_ ?_
    | with_reducible apply readBad_keeps
    | with_reducible apply updCall_keeps
    | intro _ _ hs
    | intro _ hs
    | intro hs
    | split
    | with_reducible refine keeps_fst (by with_reducible assumption) ?_
    | with_reducible refine keeps_upd ?_

theorem loopExecute_keeps (h : Keeps q s) : Keeps q (State.loopExecute s a1 a2) := by
  unfold State.loopExecute
  repeat' first
    | with_reducible assumption
    | (extract_lets +onlyGivenNames y; with_reducible refine keeps_cut (s := y) ?_ ?_; unfold y; clear y; rotate_left; intro hy; clear_value y; revert y; intros)
    | with_reducible refine keeps_upd (by with_reducible assumption)
    | (extract_lets +onlyGivenNames y; clear_value y; revert y; intros)
    | with_reducible refine keeps_ite ?_ ?_
    | with_reducible apply readBad_keeps
    | with_reducible apply updCall_keeps
    | with_reducible apply wr_keeps
    | intro _ _ hs
    | intro _ hs
    | intro hs
    | split
    | with_reducible refine keeps_fst (by with_reducible assumption) ?_
    | with_reducible refine keeps_upd ?_

theorem loopStore_keeps (h : Keeps q s) : Keeps q (State.loopStore s a1 a2 a3) := by
  unfold State.loopStore
  repeat' first
    | with_reducible assumption
    | (extract_lets +onlyGivenNames y; with_reducible refine keeps_cut (s := y) ?_ ?_; unfold y; clear y; rotate_left; intro hy; clear_value y; revert y; intros)
    | (extract_lets +onlyGivenNames y; clear_value y; revert y; intros)
    | with_reducible apply setWord_keeps

theorem loopFinish_keeps (h : Keeps q s) : Keeps q (State.loopFinish s a1 a2) := by
  unfold State.loopFinish
  repeat' first
    | with_reducible assumption
    | (extract_lets +onlyGivenNames y; with_reducible refine keeps_cut (s := y) ?_ ?_; unfold y; clear y; rotate_left; intro hy; clear_value y; revert y; intros)
    | with_reducible refine keeps_upd (by with_reducible assumption)
    | (extract_lets +onlyGivenNames y; clear_value y; revert y; intros)
    | with_reducible refine keeps_ite ?_ ?_
    | with_reducible apply loopStatus_keeps
    | with_reducible apply updCall_keeps
    | intro _ _ hs
    | intro _ hs
    | intro hs
    | split
    | with_reducible refine keeps_upd ?_

theorem loopDone_keeps (h : Keeps q s) : Keeps q (State.loopDone s a1).1 := by
  unfold State.loopDone
  repeat' first
    | with_reducible assumption
    | with_reducible apply inc_keeps

theorem svProblem_keeps (h : Keeps q s) : Keeps q (State.svProblem s a1 a2 a3 a4).1 := by
  unfold State.svProblem
  simp only []
  split
  · exact readBad_keeps h
  · exact h

theorem svFlags_keeps (h : Keeps q s) : Keeps q (State.svFlags s a1) := by
  unfold State.svFlags
  repeat' first
    | with_reducible assumption
    | (extract_lets +onlyGivenNames y; with_reducible refine keeps_cut (s := y) ?_ ?_; unfold y; clear y; rotate_left; intro hy; clear_value y; revert y; intros)
    | (extract_lets +onlyGivenNames y; with_reducible refine keeps_cutH (f := y) ?_ ?_; unfold y; clear y; rotate_left; intro hy; clear_value y; revert y; intro fH hH)
    | (extract_lets +onlyGivenNames y; clear_value y; revert y; intros)
    | with_reducible refine keeps_ite ?_ ?_
    | with_reducible apply hH
    | with_reducible apply wr_keeps
    | with_reducible refine keeps_foldl ?_ (fun _ _ hs => ?_)
    | intro _ _ hs
    | intro _ hs
    | intro hs
    | split

theorem svSolve_keeps (h : Keeps q s) : Keeps q (State.svSolve s a1 a2 a3 a4).1 := by
  induction a4 generalizing s with
  | nil => exact h
  | cons k ks ih => exact ih (svProblem_keeps h)

theorem waveLoad_keeps (h : Keeps q s) : Keeps q (State.waveLoad s a1 a2) := by
  unfold State.waveLoad
  repeat' first
    | with_reducible assumption
    | (extract_lets +onlyGivenNames y; with_reducible refine keeps_cut (s := y) ?_ ?_; unfold y; clear y; rotate_left; intro hy; clear_value y; revert y; intros)
    | with_reducible refine keeps_upd (by with_reducible assumption)
    | (extract_lets +onlyGivenNames y; clear_value y; revert y; intros)
    | with_reducible apply svSolve_keeps
    | with_reducible apply updCall_keeps
    | with_reducible apply svFlags_keeps
    | intro _ _ hs
    | intro _ hs
    | intro hs
    | split
    | with_reducible refine keeps_fst (by with_reducible assumption) ?_
    | with_reducible refine keeps_upd ?_

theorem waveStore_keeps (h : Keeps q s) : Keeps q (State.waveStore s a1 a2 a3) := by
  unfold State.waveStore
  repeat' first
    | with_reducible assumption
    | (extract_lets +onlyGivenNames y; with_reducible refine keeps_cut (s := y) ?_ ?_; unfold y; clear y; rotate_left; intro hy; clear_value y; revert y; intros)
    | with_reducible refine keeps_upd (by with_reducible assumption)
    | (extract_lets +onlyGivenNames y; clear_value y; revert y; intros)
    | with_reducible apply setWord_keeps
    | with_reducible refine keeps_foldl ?_ (fun _ _ hs => ?_)
    | intro _ _ hs
    | intro _ hs
    | intro hs
    | split
    | with_reducible refine keeps_fst (by with_reducible assumption) ?_
    | with_reducible refine keeps_upd ?_

theorem solverDone_keeps (h : Keeps q s) : Keeps q (State.solverDone s a1 a2).1 := by
  unfold State.solverDone
  repeat' first
    | with_reducible assumption
    | (extract_lets +onlyGivenNames y; with_reducible refine keeps_cut (s := y) ?_ ?_; unfold y; clear y; rotate_left; intro hy; clear_value y; revert y; intros)
    | (extract_lets +onlyGivenNames y; clear_value y; revert y; intros)
    | with_reducible apply setBytes_keeps
    | with_reducible apply inc_keeps

theorem updSession_keeps (h : Keeps q s) : Keeps q (State.updSession s a1 a2) := by
  unfold State.updSession
  repeat' first
    | with_reducible assumption
    | (extract_lets +onlyGivenNames y; with_reducible refine keeps_cut (s := y) ?_ ?_; unfold y; clear y; rotate_left; intro hy; clear_value y; revert y; intros)
    | with_reducible refine keeps_upd (by with_reducible assumption)
    | (extract_lets +onlyGivenNames y; clear_value y; revert y; intros)
    | with_reducible refine keeps_ite ?_ ?_
    | intro _ _ hs
    | intro _ hs
    | intro hs
    | split
    | with_reducible refine keeps_upd ?_

theorem answer_keeps (h : Keeps q s) : Keeps q (State.answer s a1) := by
  unfold State.answer
  repeat' first
    | with_reducible assumption
    | (extract_lets +onlyGivenNames y; with_reducible refine keeps_cut (s := y) ?_ ?_; unfold y; clear y; rotate_left; intro hy; clear_value y; revert y; intros)
    | with_reducible refine keeps_upd (by with_reducible assumption)
    | (extract_lets +onlyGivenNames y; clear_value y; revert y; intros)
    | with_reducible refine keeps_ite ?_ ?_
    | with_reducible apply updSession_keeps
    | with_reducible apply emit_keeps
    | with_reducible refine keeps_foldl ?_ (fun _ _ hs => ?_)
    | intro _ _ hs
    | intro _ hs
    | intro hs
    | split
    | with_reducible refine keeps_fst (by with_reducible assumption) ?_
    | with_reducible refine keeps_upd ?_

theorem wake_keeps (h : Keeps q s) : Keeps q (State.wake s a1 a2 a3 a4 a5) := by
  unfold State.wake
  repeat' first
    | with_reducible assumption
    | (extract_lets +onlyGivenNames y; with_reducible refine keeps_cut (s := y) ?_ ?_; unfold y; clear y; rotate_left; intro hy; clear_value y; revert y; intros)
    | with_reducible refine keeps_upd (by with_reducible assumption)
    | (extract_lets +onlyGivenNames y; clear_value y; revert y; intros)
    | with_reducible apply answer_keeps
    | with_reducible refine keeps_foldl ?_ (fun _ _ hs => ?_)
    | intro _ _ hs
    | intro _ hs
    | intro hs
    | with_reducible refine keeps_upd ?_

theorem updChan_keeps (h : Keeps q s) : Keeps q (State.updChan s a1 a2) := by
  unfold State.updChan
  repeat' first
    | with_reducible assumption
    | (extract_lets +onlyGivenNames y; with_reducible refine keeps_cut (s := y) ?_ ?_; unfold y; clear y; rotate_left; intro hy; clear_value y; revert y; intros)
    | with_reducible refine keeps_upd (by with_reducible assumption)
    | (extract_lets +onlyGivenNames y; clear_value y; revert y; intros)
    | with_reducible refine keeps_upd ?_

theorem driveChans_keeps (h : Keeps q s) : Keeps q (State.driveChans s) := by
  unfold State.driveChans
  repeat' first
    | with_reducible assumption
    | (extract_lets +onlyGivenNames y; with_reducible refine keeps_cut (s := y) ?_ ?_; unfold y; clear y; rotate_left; intro hy; clear_value y; revert y; intros)
    | with_reducible refine keeps_upd (by with_reducible assumption)
    | (extract_lets +onlyGivenNames y; clear_value y; revert y; intros)
    | with_reducible refine keeps_ite ?_ ?_
    | with_reducible apply updChan_keeps
    | with_reducible refine keeps_foldl ?_ (fun _ _ hs => ?_)
    | intro _ _ hs
    | intro _ hs
    | intro hs
    | split
    | with_reducible refine keeps_upd ?_

theorem driveDos_keeps (h : Keeps q s) : Keeps q (State.driveDos s) := by
  unfold State.driveDos
  repeat' first
    | with_reducible assumption
    | (extract_lets +onlyGivenNames y; with_reducible refine keeps_cut (s := y) ?_ ?_; unfold y; clear y; rotate_left; intro hy; clear_value y; revert y; intros)
    | with_reducible refine keeps_upd (by with_reducible assumption)
    | (extract_lets +onlyGivenNames y; clear_value y; revert y; intros)
    | with_reducible refine keeps_ite ?_ ?_
    | with_reducible apply wr_keeps
    | intro _ _ hs
    | intro _ hs
    | intro hs
    | split
    | with_reducible refine keeps_upd ?_

theorem driveAll_keeps (h : Keeps q s) : Keeps q (State.driveAll s) := by
  unfold State.driveAll
  repeat' first
    | with_reducible assumption
    | with_reducible apply driveDos_keeps
    | with_reducible apply driveChans_keeps

theorem safeLine_keeps (h : Keeps q s) : Keeps q (State.safeLine s a1) := by
  unfold State.safeLine
  repeat' first
    | with_reducible assumption
    | with_reducible refine keeps_ite ?_ ?_
    | with_reducible apply driveAll_keeps
    | with_reducible apply wr_keeps
    | split

theorem tripLatch_keeps (h : Keeps q s) : Keeps q (State.tripLatch s a1 a2) := by
  unfold State.tripLatch
  repeat' first
    | with_reducible assumption
    | (extract_lets +onlyGivenNames y; with_reducible refine keeps_cut (s := y) ?_ ?_; unfold y; clear y; rotate_left; intro hy; clear_value y; revert y; intros)
    | (extract_lets +onlyGivenNames y; clear_value y; revert y; intros)
    | with_reducible refine keeps_ite ?_ ?_
    | with_reducible apply wr_keeps
    | with_reducible apply inc_keeps
    | split
    | with_reducible refine keeps_fst (by with_reducible assumption) ?_

theorem evalTrips_keeps (h : Keeps q s) : Keeps q (State.evalTrips s a1) := by
  unfold State.evalTrips
  repeat' first
    | with_reducible assumption
    | (extract_lets +onlyGivenNames y; with_reducible refine keeps_cut (s := y) ?_ ?_; unfold y; clear y; rotate_left; intro hy; clear_value y; revert y; intros)
    | (extract_lets +onlyGivenNames y; clear_value y; revert y; intros)
    | with_reducible refine keeps_ite ?_ ?_
    | with_reducible apply tripLatch_keeps
    | with_reducible apply wr_keeps
    | with_reducible apply driveDos_keeps
    | with_reducible refine keeps_foldl ?_ (fun _ _ hs => ?_)
    | intro _ _ hs
    | intro _ hs
    | intro hs
    | split

theorem suppressMarker_keeps (h : Keeps q s) : Keeps q (State.suppressMarker s) := by
  unfold State.suppressMarker
  repeat' first
    | with_reducible assumption
    | (extract_lets +onlyGivenNames y; with_reducible refine keeps_cut (s := y) ?_ ?_; unfold y; clear y; rotate_left; intro hy; clear_value y; revert y; intros)
    | with_reducible refine keeps_upd (by with_reducible assumption)
    | (extract_lets +onlyGivenNames y; clear_value y; revert y; intros)
    | with_reducible refine keeps_ite ?_ ?_
    | split
    | with_reducible refine keeps_upd ?_

theorem updTile_keeps (h : Keeps q s) : Keeps q (State.updTile s a1 a2) := by
  unfold State.updTile
  repeat' first
    | with_reducible assumption
    | (extract_lets +onlyGivenNames y; with_reducible refine keeps_cut (s := y) ?_ ?_; unfold y; clear y; rotate_left; intro hy; clear_value y; revert y; intros)
    | with_reducible refine keeps_upd (by with_reducible assumption)
    | (extract_lets +onlyGivenNames y; clear_value y; revert y; intros)
    | with_reducible refine keeps_upd ?_

theorem setTsr_keeps (h : Keeps q s) : Keeps q (State.setTsr s a1 a2) := by
  unfold State.setTsr
  repeat' first
    | with_reducible assumption
    | with_reducible apply wr_keeps

theorem setTsrAt_keeps (h : Keeps q s) : Keeps q (State.setTsrAt s a1 a2) := by
  unfold State.setTsrAt
  repeat' first
    | with_reducible assumption
    | (extract_lets +onlyGivenNames y; with_reducible refine keeps_cut (s := y) ?_ ?_; unfold y; clear y; rotate_left; intro hy; clear_value y; revert y; intros)
    | with_reducible refine keeps_upd (by with_reducible assumption)
    | (extract_lets +onlyGivenNames y; clear_value y; revert y; intros)
    | with_reducible apply updTile_keeps
    | with_reducible apply setTsr_keeps
    | intro _ _ hs
    | intro _ hs
    | intro hs
    | split
    | with_reducible refine keeps_fst (by with_reducible assumption) ?_
    | with_reducible refine keeps_upd ?_

theorem landOne_keeps (h : Keeps q s) : Keeps q (State.landOne s a1 a2) := by
  unfold State.landOne
  repeat' first
    | with_reducible assumption
    | (extract_lets +onlyGivenNames y; with_reducible refine keeps_cut (s := y) ?_ ?_; unfold y; clear y; rotate_left; intro hy; clear_value y; revert y; intros)
    | with_reducible refine keeps_upd (by with_reducible assumption)
    | (extract_lets +onlyGivenNames y; clear_value y; revert y; intros)
    | with_reducible apply updTile_keeps
    | with_reducible apply setBytes_keeps
    | with_reducible apply setTsrAt_keeps
    | intro _ _ hs
    | intro _ hs
    | intro hs
    | split
    | with_reducible refine keeps_fst (by with_reducible assumption) ?_
    | with_reducible refine keeps_upd ?_

theorem land_keeps (h : Keeps q s) : Keeps q (State.land s a1 a2) := by
  unfold State.land
  repeat' first
    | with_reducible assumption
    | (extract_lets +onlyGivenNames y; with_reducible refine keeps_cut (s := y) ?_ ?_; unfold y; clear y; rotate_left; intro hy; clear_value y; revert y; intros)
    | with_reducible refine keeps_upd (by with_reducible assumption)
    | (extract_lets +onlyGivenNames y; clear_value y; revert y; intros)
    | with_reducible apply updTile_keeps
    | with_reducible apply landOne_keeps
    | with_reducible refine keeps_foldl ?_ (fun _ _ hs => ?_)
    | intro _ _ hs
    | intro _ hs
    | intro hs
    | with_reducible refine keeps_upd ?_

theorem landAll_keeps (h : Keeps q s) : Keeps q (State.landAll s a1) := by
  unfold State.landAll
  repeat' first
    | with_reducible assumption
    | with_reducible apply land_keeps

theorem pend_keeps (h : Keeps q s) : Keeps q (State.pend s a1 a2 a3 a4) := by
  unfold State.pend
  repeat' first
    | with_reducible assumption
    | (extract_lets +onlyGivenNames y; with_reducible refine keeps_cut (s := y) ?_ ?_; unfold y; clear y; rotate_left; intro hy; clear_value y; revert y; intros)
    | with_reducible refine keeps_upd (by with_reducible assumption)
    | (extract_lets +onlyGivenNames y; clear_value y; revert y; intros)
    | with_reducible apply updTile_keeps
    | intro _ _ hs
    | intro _ hs
    | intro hs
    | with_reducible refine keeps_upd ?_

theorem flag_keeps (h : Keeps q s) : Keeps q (State.flag s a1 a2 a3) := by
  unfold State.flag
  repeat' first
    | with_reducible assumption
    | with_reducible refine keeps_ite ?_ ?_
    | with_reducible apply pend_keeps
    | split

theorem shadowHashes_keeps (h : Keeps q s) : Keeps q (State.shadowHashes s a1 a2) := by
  unfold State.shadowHashes
  repeat' first
    | with_reducible assumption
    | (extract_lets +onlyGivenNames y; with_reducible refine keeps_cut (s := y) ?_ ?_; unfold y; clear y; rotate_left; intro hy; clear_value y; revert y; intros)
    | with_reducible refine keeps_upd (by with_reducible assumption)
    | (extract_lets +onlyGivenNames y; clear_value y; revert y; intros)
    | with_reducible refine keeps_ite ?_ ?_
    | with_reducible apply land_keeps
    | with_reducible refine keeps_foldl ?_ (fun _ _ hs => ?_)
    | intro _ _ hs
    | intro _ hs
    | intro hs
    | split
    | with_reducible refine keeps_upd ?_

theorem absorb_keeps (h : Keeps q s) : Keeps q (State.absorb s a1 a2 a3) := by
  unfold State.absorb
  repeat' first
    | with_reducible assumption
    | (extract_lets +onlyGivenNames y; with_reducible refine keeps_cut (s := y) ?_ ?_; unfold y; clear y; rotate_left; intro hy; clear_value y; revert y; intros)
    | with_reducible refine keeps_upd (by with_reducible assumption)
    | (extract_lets +onlyGivenNames y; clear_value y; revert y; intros)
    | with_reducible refine keeps_upd ?_

theorem tap_keeps (h : Keeps q s) : Keeps q (State.tap s a1 a2) := by
  unfold State.tap
  repeat' first
    | with_reducible assumption
    | (extract_lets +onlyGivenNames y; with_reducible refine keeps_cut (s := y) ?_ ?_; unfold y; clear y; rotate_left; intro hy; clear_value y; revert y; intros)
    | with_reducible refine keeps_upd (by with_reducible assumption)
    | (extract_lets +onlyGivenNames y; clear_value y; revert y; intros)
    | with_reducible refine keeps_ite ?_ ?_
    | with_reducible refine keeps_foldl ?_ (fun _ _ hs => ?_)
    | intro _ _ hs
    | intro _ hs
    | intro hs
    | split
    | with_reducible refine keeps_fst (by with_reducible assumption) ?_
    | with_reducible refine keeps_upd ?_

theorem portA_keeps (h : Keeps q s) : Keeps q (State.portA s a1 a2 a3 a4) := by
  unfold State.portA
  repeat' first
    | with_reducible assumption
    | (extract_lets +onlyGivenNames y; with_reducible refine keeps_cut (s := y) ?_ ?_; unfold y; clear y; rotate_left; intro hy; clear_value y; revert y; intros)
    | (extract_lets +onlyGivenNames y; clear_value y; revert y; intros)
    | with_reducible apply absorb_keeps
    | with_reducible apply tap_keeps
    | with_reducible apply setBytes_keeps

theorem bankEcc_keeps (h : Keeps q s) : Keeps q (State.bankEcc s a1 a2) := by
  unfold State.bankEcc
  repeat' first
    | with_reducible assumption
    | (extract_lets +onlyGivenNames y; with_reducible refine keeps_cut (s := y) ?_ ?_; unfold y; clear y; rotate_left; intro hy; clear_value y; revert y; intros)
    | with_reducible refine keeps_upd (by with_reducible assumption)
    | (extract_lets +onlyGivenNames y; clear_value y; revert y; intros)
    | with_reducible refine keeps_ite ?_ ?_
    | with_reducible apply inc_keeps
    | with_reducible apply suppressMarker_keeps
    | with_reducible apply wr_keeps
    | split
    | with_reducible refine keeps_fst (by with_reducible assumption) ?_
    | with_reducible refine keeps_upd ?_

theorem loadEcc_keeps (h : Keeps q s) : Keeps q (State.loadEcc s a1 a2 a3 a4) := by
  unfold State.loadEcc
  repeat' first
    | with_reducible assumption
    | (extract_lets +onlyGivenNames y; with_reducible refine keeps_cut (s := y) ?_ ?_; unfold y; clear y; rotate_left; intro hy; clear_value y; revert y; intros)
    | with_reducible refine keeps_upd (by with_reducible assumption)
    | (extract_lets +onlyGivenNames y; clear_value y; revert y; intros)
    | with_reducible apply bankEcc_keeps
    | with_reducible apply flag_keeps
    | split
    | with_reducible refine keeps_fst (by with_reducible assumption) ?_
    | with_reducible refine keeps_upd ?_

theorem eccData_keeps (h : Keeps q s) : Keeps q (State.eccData s a1 a2).1 := by
  unfold State.eccData
  repeat' first
    | with_reducible assumption
    | with_reducible refine keeps_ite ?_ ?_
    | with_reducible apply nextFree_keeps
    | split

theorem bus_keeps (h : Keeps q s) : Keeps q (State.bus s a1 a2 a3) := by
  unfold State.bus
  repeat' first
    | with_reducible assumption
    | (extract_lets +onlyGivenNames y; with_reducible refine keeps_cut (s := y) ?_ ?_; unfold y; clear y; rotate_left; intro hy; clear_value y; revert y; intros)
    | with_reducible refine keeps_upd (by with_reducible assumption)
    | (extract_lets +onlyGivenNames y; clear_value y; revert y; intros)
    | with_reducible refine keeps_ite ?_ ?_
    | split
    | with_reducible refine keeps_upd ?_

theorem deliver_keeps (h : Keeps q s) : Keeps q (State.deliver s a1 a2 a3 a4) := by
  unfold State.deliver
  repeat' first
    | with_reducible assumption
    | with_reducible apply pend_keeps
    | with_reducible refine keeps_foldl ?_ (fun _ _ hs => ?_)
    | intro _ _ hs
    | intro _ hs
    | intro hs

theorem setBusy_keeps (h : Keeps q s) : Keeps q (State.setBusy s a1 a2) := by
  unfold State.setBusy
  repeat' first
    | with_reducible assumption
    | (extract_lets +onlyGivenNames y; with_reducible refine keeps_cut (s := y) ?_ ?_; unfold y; clear y; rotate_left; intro hy; clear_value y; revert y; intros)
    | with_reducible refine keeps_upd (by with_reducible assumption)
    | (extract_lets +onlyGivenNames y; clear_value y; revert y; intros)
    | with_reducible refine keeps_ite ?_ ?_
    | with_reducible apply wr_keeps
    | split
    | with_reducible refine keeps_fst (by with_reducible assumption) ?_
    | with_reducible refine keeps_upd ?_

theorem svShadow_keeps (h : Keeps q s) : Keeps q (State.svShadow s a1 a2) := by
  unfold State.svShadow
  repeat' first
    | with_reducible assumption
    | (extract_lets +onlyGivenNames y; with_reducible refine keeps_cut (s := y) ?_ ?_; unfold y; clear y; rotate_left; intro hy; clear_value y; revert y; intros)
    | (extract_lets +onlyGivenNames y; clear_value y; revert y; intros)
    | with_reducible refine keeps_ite ?_ ?_
    | with_reducible apply inc_keeps
    | with_reducible apply wr_keeps
    | intro _ _ hs
    | intro _ hs
    | intro hs
    | split

theorem loopStep_keeps (h : Keeps q s) : Keeps q (State.loopStep s a1 a2 a3) := by
  unfold State.loopStep
  repeat' first
    | with_reducible assumption
    | (extract_lets +onlyGivenNames y; with_reducible refine keeps_cut (s := y) ?_ ?_; unfold y; clear y; rotate_left; intro hy; clear_value y; revert y; intros)
    | (extract_lets +onlyGivenNames y; clear_value y; revert y; intros)
    | with_reducible refine keeps_ite ?_ ?_
    | with_reducible apply bus_keeps
    | with_reducible apply loopSample_keeps
    | with_reducible apply loopExecute_keeps
    | with_reducible apply suppressMarker_keeps
    | with_reducible apply loopStore_keeps
    | with_reducible apply loopFinish_keeps
    | intro _ _ hs
    | intro _ hs
    | intro hs
    | split

theorem waveStep_keeps (h : Keeps q s) : Keeps q (State.waveStep s a1 a2 a3) := by
  unfold State.waveStep
  repeat' first
    | with_reducible assumption
    | (extract_lets +onlyGivenNames y; with_reducible refine keeps_cut (s := y) ?_ ?_; unfold y; clear y; rotate_left; intro hy; clear_value y; revert y; intros)
    | with_reducible refine keeps_upd (by with_reducible assumption)
    | (extract_lets +onlyGivenNames y; clear_value y; revert y; intros)
    | with_reducible refine keeps_ite ?_ ?_
    | with_reducible apply waveLoad_keeps
    | with_reducible apply suppressMarker_keeps
    | with_reducible apply bus_keeps
    | with_reducible apply waveStore_keeps
    | intro _ _ hs
    | intro _ hs
    | intro hs
    | split
    | with_reducible refine keeps_fst (by with_reducible assumption) ?_
    | with_reducible refine keeps_upd ?_

theorem callFinish_keeps (h : Keeps q s) : Keeps q (State.callFinish s a1) := by
  unfold State.callFinish
  repeat' first
    | with_reducible assumption
    | (extract_lets +onlyGivenNames y; with_reducible refine keeps_cut (s := y) ?_ ?_; unfold y; clear y; rotate_left; intro hy; clear_value y; revert y; intros)
    | with_reducible refine keeps_upd (by with_reducible assumption)
    | (extract_lets +onlyGivenNames y; clear_value y; revert y; intros)
    | with_reducible apply setBusy_keeps
    | with_reducible apply loopDone_keeps
    | with_reducible apply absorb_keeps
    | with_reducible apply solverDone_keeps
    | with_reducible apply wr_keeps
    | with_reducible apply svShadow_keeps
    | intro _ _ hs
    | intro _ hs
    | intro hs
    | split
    | with_reducible refine keeps_fst (by with_reducible assumption) ?_
    | with_reducible refine keeps_upd ?_

theorem onCall_keeps (h : Keeps q s) (hf : ∀ c, Keeps q (f c)) : Keeps q (State.onCall s a1 a2 f) := by
  unfold State.onCall
  repeat' first
    | with_reducible assumption
    | (extract_lets +onlyGivenNames y; with_reducible refine keeps_cut (s := y) ?_ ?_; unfold y; clear y; rotate_left; intro hy; clear_value y; revert y; intros)
    | with_reducible refine keeps_upd (by with_reducible assumption)
    | (extract_lets +onlyGivenNames y; clear_value y; revert y; intros)
    | with_reducible apply hf
    | split
    | with_reducible refine keeps_fst (by with_reducible assumption) ?_
    | with_reducible refine keeps_upd ?_

theorem busAct_keeps (h : Keeps q s) : Keeps q (State.busAct s a1 a2) := by
  unfold State.busAct
  repeat' first
    | with_reducible assumption
    | (extract_lets +onlyGivenNames y; with_reducible refine keeps_cut (s := y) ?_ ?_; unfold y; clear y; rotate_left; intro hy; clear_value y; revert y; intros)
    | with_reducible refine keeps_upd (by with_reducible assumption)
    | (extract_lets +onlyGivenNames y; clear_value y; revert y; intros)
    | with_reducible refine keeps_ite ?_ ?_
    | with_reducible apply eccData_keeps
    | with_reducible apply loadEcc_keeps
    | with_reducible apply bus_keeps
    | with_reducible apply deliver_keeps
    | with_reducible apply portA_keeps
    | with_reducible apply setBytes_keeps
    | with_reducible apply bankEcc_keeps
    | with_reducible apply absorb_keeps
    | with_reducible apply shadowHashes_keeps
    | with_reducible apply setBusy_keeps
    | with_reducible apply onCall_keeps
    | with_reducible apply loopStep_keeps
    | with_reducible apply waveStep_keeps
    | with_reducible apply callFinish_keeps
    | with_reducible refine keeps_foldl ?_ (fun _ _ hs => ?_)
    | intro _ _ hs
    | intro _ hs
    | intro hs
    | split
    | with_reducible refine keeps_fst (by with_reducible assumption) ?_
    | with_reducible refine keeps_upd ?_

theorem settleN_keeps (h : Keeps q s) : Keeps q (State.settleN a1 s a2) := by
  induction a1 generalizing s with
  | zero => exact h
  | succ n ih =>
    unfold State.settleN
    split
    · exact h
    · split
      · exact ih (busAct_keeps (keeps_upd h))
      · exact h

theorem settle_keeps (h : Keeps q s) : Keeps q (State.settle s a1) := by
  unfold State.settle
  repeat' first
    | with_reducible assumption
    | with_reducible apply settleN_keeps

theorem updRing_keeps (h : Keeps q s) : Keeps q (State.updRing s a1 a2) := by
  unfold State.updRing
  repeat' first
    | with_reducible assumption
    | (extract_lets +onlyGivenNames y; with_reducible refine keeps_cut (s := y) ?_ ?_; unfold y; clear y; rotate_left; intro hy; clear_value y; revert y; intros)
    | with_reducible refine keeps_upd (by with_reducible assumption)
    | (extract_lets +onlyGivenNames y; clear_value y; revert y; intros)
    | with_reducible refine keeps_upd ?_

theorem retries_keeps (h : Keeps q s) : Keeps q (State.retries s a1) := by
  unfold State.retries
  repeat' first
    | with_reducible assumption
    | with_reducible apply wr_keeps

theorem settleNow_keeps (h : Keeps q s) : Keeps q (State.settleNow s) := by
  unfold State.settleNow
  repeat' first
    | with_reducible assumption
    | with_reducible refine keeps_ite ?_ ?_
    | with_reducible apply settle_keeps
    | split

theorem ringPut_keeps (h : Keeps q s) : Keeps q (State.ringPut s a1 a2).1 := by
  unfold State.ringPut
  repeat' first
    | with_reducible assumption
    | (extract_lets +onlyGivenNames y; with_reducible refine keeps_cut (s := y) ?_ ?_; unfold y; clear y; rotate_left; intro hy; clear_value y; revert y; intros)
    | with_reducible refine keeps_upd (by with_reducible assumption)
    | (extract_lets +onlyGivenNames y; clear_value y; revert y; intros)
    | with_reducible refine keeps_ite ?_ ?_
    | with_reducible apply retries_keeps
    | with_reducible apply updRing_keeps
    | with_reducible apply emit_keeps
    | with_reducible apply inc_keeps
    | intro _ _ hs
    | intro _ hs
    | intro hs
    | split
    | with_reducible refine keeps_fst (by with_reducible assumption) ?_
    | with_reducible refine keeps_upd ?_

theorem retBusy_keeps (h : Keeps q s) : Keeps q (State.retBusy s) := by
  unfold State.retBusy
  repeat' first
    | with_reducible assumption
    | with_reducible refine keeps_ite ?_ ?_
    | with_reducible apply wr_keeps
    | split

theorem mramOverwrite_keeps (h : Keeps q s) : Keeps q (State.mramOverwrite s) := by
  unfold State.mramOverwrite
  repeat' first
    | with_reducible assumption
    | (extract_lets +onlyGivenNames y; with_reducible refine keeps_cut (s := y) ?_ ?_; unfold y; clear y; rotate_left; intro hy; clear_value y; revert y; intros)
    | with_reducible refine keeps_upd (by with_reducible assumption)
    | (extract_lets +onlyGivenNames y; clear_value y; revert y; intros)
    | with_reducible apply clearMem_keeps
    | with_reducible apply setByte_keeps
    | with_reducible refine keeps_foldl ?_ (fun _ _ hs => ?_)
    | intro _ _ hs
    | intro _ hs
    | intro hs
    | split
    | with_reducible refine keeps_fst (by with_reducible assumption) ?_
    | with_reducible refine keeps_upd ?_

theorem commitRecord_keeps (h : Keeps q s) : Keeps q (State.commitRecord s) := by
  unfold State.commitRecord
  repeat' first
    | with_reducible assumption
    | (extract_lets +onlyGivenNames y; with_reducible refine keeps_cut (s := y) ?_ ?_; unfold y; clear y; rotate_left; intro hy; clear_value y; revert y; intros)
    | with_reducible refine keeps_upd (by with_reducible assumption)
    | (extract_lets +onlyGivenNames y; clear_value y; revert y; intros)
    | with_reducible apply mramOverwrite_keeps
    | with_reducible apply retBusy_keeps
    | with_reducible apply wr64_keeps
    | split
    | with_reducible refine keeps_fst (by with_reducible assumption) ?_
    | with_reducible refine keeps_upd ?_

theorem modeState_keeps (h : Keeps q s) : Keeps q (State.modeState s a1 a2) := by
  unfold State.modeState
  repeat' first
    | with_reducible assumption
    | with_reducible apply wr_keeps

theorem modeEvent_keeps (h : Keeps q s) : Keeps q (State.modeEvent s) := by
  unfold State.modeEvent
  repeat' first
    | with_reducible assumption
    | (extract_lets +onlyGivenNames y; with_reducible refine keeps_cut (s := y) ?_ ?_; unfold y; clear y; rotate_left; intro hy; clear_value y; revert y; intros)
    | (extract_lets +onlyGivenNames y; clear_value y; revert y; intros)
    | with_reducible refine keeps_ite ?_ ?_
    | with_reducible apply notify_keeps
    | split

theorem dropSwitch_keeps (h : Keeps q s) : Keeps q (State.dropSwitch s) := by
  unfold State.dropSwitch
  repeat' first
    | with_reducible assumption
    | (extract_lets +onlyGivenNames y; with_reducible refine keeps_cut (s := y) ?_ ?_; unfold y; clear y; rotate_left; intro hy; clear_value y; revert y; intros)
    | with_reducible refine keeps_upd (by with_reducible assumption)
    | (extract_lets +onlyGivenNames y; clear_value y; revert y; intros)
    | with_reducible refine keeps_upd ?_

theorem abandonSwitch_keeps (h : Keeps q s) : Keeps q (State.abandonSwitch s) := by
  unfold State.abandonSwitch
  repeat' first
    | with_reducible assumption
    | (extract_lets +onlyGivenNames y; with_reducible refine keeps_cut (s := y) ?_ ?_; unfold y; clear y; rotate_left; intro hy; clear_value y; revert y; intros)
    | with_reducible refine keeps_upd (by with_reducible assumption)
    | (extract_lets +onlyGivenNames y; clear_value y; revert y; intros)
    | with_reducible apply dropSwitch_keeps
    | with_reducible apply modeEvent_keeps
    | with_reducible apply wr_keeps
    | with_reducible apply modeState_keeps
    | split
    | with_reducible refine keeps_fst (by with_reducible assumption) ?_
    | with_reducible refine keeps_upd ?_

theorem updCan_keeps (h : Keeps q s) : Keeps q (State.updCan s a1 a2) := by
  unfold State.updCan
  repeat' first
    | with_reducible assumption
    | (extract_lets +onlyGivenNames y; with_reducible refine keeps_cut (s := y) ?_ ?_; unfold y; clear y; rotate_left; intro hy; clear_value y; revert y; intros)
    | with_reducible refine keeps_upd (by with_reducible assumption)
    | (extract_lets +onlyGivenNames y; clear_value y; revert y; intros)
    | with_reducible refine keeps_upd ?_

theorem canPend_keeps (h : Keeps q s) : Keeps q (State.canPend s a1) := by
  unfold State.canPend
  repeat' first
    | with_reducible assumption
    | (extract_lets +onlyGivenNames y; with_reducible refine keeps_cut (s := y) ?_ ?_; unfold y; clear y; rotate_left; intro hy; clear_value y; revert y; intros)
    | (extract_lets +onlyGivenNames y; clear_value y; revert y; intros)
    | with_reducible apply wr_keeps
    | intro _ _ hs
    | intro _ hs
    | intro hs

theorem updBuf_keeps (h : Keeps q s) : Keeps q (State.updBuf s a1 a2 a3) := by
  unfold State.updBuf
  repeat' first
    | with_reducible assumption
    | (extract_lets +onlyGivenNames y; with_reducible refine keeps_cut (s := y) ?_ ?_; unfold y; clear y; rotate_left; intro hy; clear_value y; revert y; intros)
    | with_reducible refine keeps_upd (by with_reducible assumption)
    | (extract_lets +onlyGivenNames y; clear_value y; revert y; intros)
    | with_reducible apply canPend_keeps
    | with_reducible apply updCan_keeps
    | intro _ _ hs
    | intro _ hs
    | intro hs
    | with_reducible refine keeps_upd ?_

theorem canPut_keeps (h : Keeps q s) : Keeps q (State.canPut s a1 a2).1 := by
  unfold State.canPut
  repeat' first
    | with_reducible assumption
    | (extract_lets +onlyGivenNames y; with_reducible refine keeps_cut (s := y) ?_ ?_; unfold y; clear y; rotate_left; intro hy; clear_value y; revert y; intros)
    | (extract_lets +onlyGivenNames y; clear_value y; revert y; intros)
    | with_reducible refine keeps_ite ?_ ?_
    | with_reducible apply emit_keeps
    | with_reducible apply ringPut_keeps
    | with_reducible refine keeps_foldl ?_ (fun _ _ hs => ?_)
    | intro _ _ hs
    | intro _ hs
    | intro hs
    | split

theorem canEventAt_keeps (h : Keeps q s) : Keeps q (State.canEventAt s a1 a2 a3 a4 a5) := by
  unfold State.canEventAt
  repeat' first
    | with_reducible assumption
    | with_reducible apply canPut_keeps

theorem canEvent_keeps (h : Keeps q s) : Keeps q (State.canEvent s a1 a2 a3 a4) := by
  unfold State.canEvent
  repeat' first
    | with_reducible assumption
    | with_reducible apply canEventAt_keeps

theorem canRefresh_keeps (h : Keeps q s) : Keeps q (State.canRefresh s a1) := by
  unfold State.canRefresh
  repeat' first
    | with_reducible assumption
    | (extract_lets +onlyGivenNames y; with_reducible refine keeps_cut (s := y) ?_ ?_; unfold y; clear y; rotate_left; intro hy; clear_value y; revert y; intros)
    | (extract_lets +onlyGivenNames y; clear_value y; revert y; intros)
    | with_reducible refine keeps_ite ?_ ?_
    | with_reducible apply wr_keeps
    | with_reducible apply canPend_keeps
    | with_reducible apply canEvent_keeps
    | split

theorem canFresh_keeps (h : Keeps q s) : Keeps q (State.canFresh s a1) := by
  unfold State.canFresh
  repeat' first
    | with_reducible assumption
    | (extract_lets +onlyGivenNames y; with_reducible refine keeps_cut (s := y) ?_ ?_; unfold y; clear y; rotate_left; intro hy; clear_value y; revert y; intros)
    | with_reducible refine keeps_upd (by with_reducible assumption)
    | (extract_lets +onlyGivenNames y; clear_value y; revert y; intros)
    | with_reducible apply canRefresh_keeps
    | with_reducible apply updCan_keeps
    | intro _ _ hs
    | intro _ hs
    | intro hs
    | with_reducible refine keeps_upd ?_

theorem canDone_keeps (h : Keeps q s) : Keeps q (State.canDone s a1 a2 a3 a4 a5) := by
  unfold State.canDone
  repeat' first
    | with_reducible assumption
    | (extract_lets +onlyGivenNames y; with_reducible refine keeps_cut (s := y) ?_ ?_; unfold y; clear y; rotate_left; intro hy; clear_value y; revert y; intros)
    | with_reducible refine keeps_upd (by with_reducible assumption)
    | (extract_lets +onlyGivenNames y; clear_value y; revert y; intros)
    | with_reducible refine keeps_ite ?_ ?_
    | with_reducible apply updCan_keeps
    | with_reducible apply canEventAt_keeps
    | intro _ _ hs
    | intro _ hs
    | intro hs
    | split
    | with_reducible refine keeps_upd ?_

theorem canAbort_keeps (h : Keeps q s) : Keeps q (State.canAbort s a1 a2 a3) := by
  unfold State.canAbort
  repeat' first
    | with_reducible assumption
    | (extract_lets +onlyGivenNames y; with_reducible refine keeps_cut (s := y) ?_ ?_; unfold y; clear y; rotate_left; intro hy; clear_value y; revert y; intros)
    | with_reducible refine keeps_upd (by with_reducible assumption)
    | (extract_lets +onlyGivenNames y; clear_value y; revert y; intros)
    | with_reducible refine keeps_ite ?_ ?_
    | with_reducible apply updBuf_keeps
    | with_reducible apply canDone_keeps
    | intro _ _ hs
    | intro _ hs
    | intro hs
    | split
    | with_reducible refine keeps_upd ?_

theorem canHalt_keeps (h : Keeps q s) : Keeps q (State.canHalt s) := by
  unfold State.canHalt
  repeat' first
    | with_reducible assumption
    | (extract_lets +onlyGivenNames y; with_reducible refine keeps_cut (s := y) ?_ ?_; unfold y; clear y; rotate_left; intro hy; clear_value y; revert y; intros)
    | with_reducible refine keeps_upd (by with_reducible assumption)
    | (extract_lets +onlyGivenNames y; clear_value y; revert y; intros)
    | with_reducible refine keeps_ite ?_ ?_
    | with_reducible apply canAbort_keeps
    | with_reducible apply updCan_keeps
    | with_reducible refine keeps_foldl ?_ (fun _ _ hs => ?_)
    | intro _ _ hs
    | intro _ hs
    | intro hs
    | split
    | with_reducible refine keeps_upd ?_

theorem canRoles_keeps (h : Keeps q s) : Keeps q (State.canRoles s) := by
  unfold State.canRoles
  repeat' first
    | with_reducible assumption
    | with_reducible refine keeps_ite ?_ ?_
    | with_reducible apply canRefresh_keeps
    | with_reducible apply canFresh_keeps
    | with_reducible refine keeps_foldl ?_ (fun _ _ hs => ?_)
    | intro _ _ hs
    | intro _ hs
    | intro hs
    | split

theorem ungate_keeps (h : Keeps q s) : Keeps q (State.ungate s) := by
  unfold State.ungate
  repeat' first
    | with_reducible assumption
    | (extract_lets +onlyGivenNames y; with_reducible refine keeps_cut (s := y) ?_ ?_; unfold y; clear y; rotate_left; intro hy; clear_value y; revert y; intros)
    | with_reducible refine keeps_upd (by with_reducible assumption)
    | (extract_lets +onlyGivenNames y; clear_value y; revert y; intros)
    | intro _ _ hs
    | intro _ hs
    | intro hs
    | with_reducible refine keeps_upd ?_

theorem pairOut_keeps (h : Keeps q s) : Keeps q (State.pairOut s) := by
  unfold State.pairOut
  repeat' first
    | with_reducible assumption
    | (extract_lets +onlyGivenNames y; with_reducible refine keeps_cut (s := y) ?_ ?_; unfold y; clear y; rotate_left; intro hy; clear_value y; revert y; intros)
    | with_reducible refine keeps_upd (by with_reducible assumption)
    | (extract_lets +onlyGivenNames y; clear_value y; revert y; intros)
    | with_reducible apply wr_keeps
    | with_reducible refine keeps_upd ?_

theorem outputsOff_keeps (h : Keeps q s) : Keeps q (State.outputsOff s) := by
  unfold State.outputsOff
  repeat' first
    | with_reducible assumption
    | (extract_lets +onlyGivenNames y; with_reducible refine keeps_cut (s := y) ?_ ?_; unfold y; clear y; rotate_left; intro hy; clear_value y; revert y; intros)
    | with_reducible refine keeps_upd (by with_reducible assumption)
    | (extract_lets +onlyGivenNames y; clear_value y; revert y; intros)
    | intro _ _ hs
    | intro _ hs
    | intro hs
    | with_reducible refine keeps_upd ?_

theorem latticeIdle_keeps (h : Keeps q s) : Keeps q (State.latticeIdle s) := by
  unfold State.latticeIdle
  repeat' first
    | with_reducible assumption
    | (extract_lets +onlyGivenNames y; with_reducible refine keeps_cut (s := y) ?_ ?_; unfold y; clear y; rotate_left; intro hy; clear_value y; revert y; intros)
    | with_reducible refine keeps_upd (by with_reducible assumption)
    | (extract_lets +onlyGivenNames y; clear_value y; revert y; intros)
    | with_reducible refine keeps_ite ?_ ?_
    | with_reducible apply settleNow_keeps
    | with_reducible apply landAll_keeps
    | with_reducible apply land_keeps
    | with_reducible apply wr_keeps
    | with_reducible refine keeps_foldl ?_ (fun _ _ hs => ?_)
    | intro _ _ hs
    | intro _ hs
    | intro hs
    | split
    | with_reducible refine keeps_upd ?_

theorem exitRun_keeps (h : Keeps q s) : Keeps q (State.exitRun s a1 a2) := by
  unfold State.exitRun
  repeat' first
    | with_reducible assumption
    | (extract_lets +onlyGivenNames y; with_reducible refine keeps_cut (s := y) ?_ ?_; unfold y; clear y; rotate_left; intro hy; clear_value y; revert y; intros)
    | with_reducible refine keeps_upd (by with_reducible assumption)
    | (extract_lets +onlyGivenNames y; clear_value y; revert y; intros)
    | with_reducible refine keeps_ite ?_ ?_
    | with_reducible apply canHalt_keeps
    | with_reducible apply latticeIdle_keeps
    | with_reducible apply outputsOff_keeps
    | with_reducible apply pairOut_keeps
    | with_reducible apply ungate_keeps
    | with_reducible apply wr_keeps
    | with_reducible apply wr64_keeps
    | with_reducible apply driveAll_keeps
    | with_reducible apply evalTrips_keeps
    | with_reducible apply canRoles_keeps
    | split
    | with_reducible refine keeps_upd ?_

theorem stopWaits_keeps (h : Keeps q s) : Keeps q (State.stopWaits s a1 a2) := by
  unfold State.stopWaits
  repeat' first
    | with_reducible assumption
    | with_reducible apply wake_keeps

theorem dgShow_keeps (h : Keeps q s) : Keeps q (State.dgShow s) := by
  unfold State.dgShow
  repeat' first
    | with_reducible assumption
    | (extract_lets +onlyGivenNames y; with_reducible refine keeps_cut (s := y) ?_ ?_; unfold y; clear y; rotate_left; intro hy; clear_value y; revert y; intros)
    | with_reducible refine keeps_upd (by with_reducible assumption)
    | (extract_lets +onlyGivenNames y; clear_value y; revert y; intros)
    | with_reducible refine keeps_ite ?_ ?_
    | with_reducible apply wr_keeps
    | split
    | with_reducible refine keeps_fst (by with_reducible assumption) ?_
    | with_reducible refine keeps_upd ?_

theorem resetRows_keeps (h : Keeps q s) : Keeps q (State.resetRows s a1) := by
  exact h

theorem resetTxb_keeps (h : Keeps q s) : Keeps q (State.resetTxb s) := by
  unfold State.resetTxb
  repeat' first
    | with_reducible assumption
    | with_reducible apply wr_keeps
    | with_reducible refine keeps_foldl ?_ (fun _ _ hs => ?_)
    | intro _ _ hs
    | intro _ hs
    | intro hs

theorem latticeReset_keeps (h : Keeps q s) : Keeps q (State.latticeReset s) := by
  unfold State.latticeReset
  repeat' first
    | with_reducible assumption
    | (extract_lets +onlyGivenNames y; with_reducible refine keeps_cut (s := y) ?_ ?_; unfold y; clear y; rotate_left; intro hy; clear_value y; revert y; intros)
    | (extract_lets +onlyGivenNames y; with_reducible refine keeps_tbid y ?_; revert y; intro _)
    | (with_reducible refine keeps_tb ?_; with_reducible assumption)
    | (with_reducible refine keeps_tb2 (t := s) ?_ ?_ <;> with_reducible assumption)
    | with_reducible refine keeps_upd (by with_reducible assumption)
    | (extract_lets +onlyGivenNames y; clear_value y; revert y; intros)
    | with_reducible refine keeps_ite ?_ ?_
    | with_reducible apply commitRecord_keeps
    | with_reducible apply canHalt_keeps
    | with_reducible apply wr_keeps
    | with_reducible apply resetRows_keeps
    | with_reducible apply dropSwitch_keeps
    | with_reducible apply abandonSwitch_keeps
    | with_reducible apply wake_keeps
    | with_reducible apply stopWaits_keeps
    | with_reducible refine keeps_foldl ?_ (fun _ _ hs => ?_)
    | intro _ _ hs
    | intro _ hs
    | intro hs
    | split
    | with_reducible refine keeps_upd ?_

theorem lrst_keeps (h : Keeps q s) : Keeps q (State.lrst s) := by
  unfold State.lrst
  repeat' first
    | with_reducible assumption
    | (extract_lets +onlyGivenNames y; with_reducible refine keeps_cut (s := y) ?_ ?_; unfold y; clear y; rotate_left; intro hy; clear_value y; revert y; intros)
    | with_reducible refine keeps_upd (by with_reducible assumption)
    | (extract_lets +onlyGivenNames y; clear_value y; revert y; intros)
    | with_reducible refine keeps_ite ?_ ?_
    | with_reducible apply safeLine_keeps
    | with_reducible apply exitRun_keeps
    | with_reducible apply latticeReset_keeps
    | with_reducible apply evalTrips_keeps
    | with_reducible apply retBusy_keeps
    | split
    | with_reducible refine keeps_fst (by with_reducible assumption) ?_
    | with_reducible refine keeps_upd ?_

theorem restart_keeps (h : Keeps q s) : Keeps q (State.restart s a1) := by
  unfold State.restart
  extract_lets +onlyGivenNames y
  have h' : Keeps q y := latticeReset_keeps h
  clear_value y
  exact h'

theorem mrst_keeps (h : Keeps q s) : Keeps q (State.mrst s a1) := by
  unfold State.mrst
  repeat' first
    | with_reducible assumption
    | (extract_lets +onlyGivenNames y; with_reducible refine keeps_cut (s := y) ?_ ?_; unfold y; clear y; rotate_left; intro hy; clear_value y; revert y; intros)
    | (extract_lets +onlyGivenNames y; clear_value y; revert y; intros)
    | with_reducible refine keeps_ite ?_ ?_
    | with_reducible apply exitRun_keeps
    | with_reducible apply safeLine_keeps
    | with_reducible apply evalTrips_keeps
    | with_reducible apply retBusy_keeps
    | with_reducible apply dgShow_keeps
    | with_reducible apply resetTxb_keeps
    | with_reducible apply resetRows_keeps
    | with_reducible apply restart_keeps
    | split

theorem por_frc (s : State) : s.por.tb.frc = 0 := by
  suffices h : Keeps 0 s.por from h
  unfold State.por
  extract_lets
  with_reducible apply driveAll_keeps
  with_reducible apply retBusy_keeps
  with_reducible apply dgShow_keeps
  with_reducible apply resetTxb_keeps
  rfl

theorem mrst_frc (s : State) (k : Nat) : (s.mrst k).tb.frc = s.tb.frc := mrst_keeps (a1 := k) (q := s.tb.frc) rfl

theorem lrst_frc (s : State) : s.lrst.tb.frc = s.tb.frc := lrst_keeps (q := s.tb.frc) rfl

end Sys2Proof.Laws.Frc
end

