-- ==== Sys2Proof/Laws/Outputs.lean ====
section
/-! SUPPORT. What driving the outputs and evaluating the trips can change: register fields, channels and the discrete block; and what answering
requests that wait can change: the command service and what was sent.  What the resets of R16 leave follows from it. -/

set_option Elab.async false

namespace Sys2Proof.Laws

open Sys2Proof Sys2Proof.Machine

/-! ### Outputs -/

/-- The state without its register fields, channels and discrete block. -/
def besideOutputs (s : State) : State := { s with regs := [], chans := [], dio := Dio.reset }

theorem besideOutputs_wr (s : State) (r : RegRow) (v i j : Nat) : besideOutputs (s.wr r v i j) = besideOutputs s := rfl

theorem besideOutputs_inc (s : State) (r : RegRow) (i j : Nat) : besideOutputs (s.inc r i j) = besideOutputs s := by
  unfold State.inc
  split <;> rfl

theorem besideOutputs_updChan (s : State) (ch : Nat) (f : Chan → Chan) : besideOutputs (s.updChan ch f) = besideOutputs s := rfl

theorem besideOutputs_foldl {α : Type} {f : State → α → State} (hf : ∀ s a, besideOutputs (f s a) = besideOutputs s) (l : List α) (s : State) :
    besideOutputs (l.foldl f s) = besideOutputs s := by
  induction l generalizing s with
  | nil => rfl
  | cons a l ih => rw [List.foldl_cons, ih, hf]

theorem driveDos_beside (s : State) : besideOutputs s.driveDos = besideOutputs s := by
  unfold State.driveDos
  generalize (if s.sup.keep && !s.bit R.DIO_STATUS_OUT_OFF then _ else _ : Nat) = d
  exact besideOutputs_wr s R.DIO_OUT_NOW d 0 0

theorem driveAll_beside (s : State) : besideOutputs s.driveAll = besideOutputs s := by
  unfold State.driveAll State.driveChans
  rw [driveDos_beside, besideOutputs_foldl (fun s ch => besideOutputs_updChan s ch _)]

theorem safeLine_beside (s : State) (on : Bool) : besideOutputs (s.safeLine on) = besideOutputs s := by
  unfold State.safeLine
  rw [driveAll_beside, besideOutputs_wr]

theorem tripLatch_beside (s : State) (i : Nat) (c : Bool) : besideOutputs (s.tripLatch i c) = besideOutputs s := by
  unfold State.tripLatch
  simp only []
  repeat' split
  all_goals simp only [besideOutputs_wr, besideOutputs_inc]

theorem evalTrips_beside (s : State) (c : Nat) : besideOutputs (s.evalTrips c) = besideOutputs s := by
  unfold State.evalTrips
  simp only [driveDos_beside, besideOutputs_wr]
  exact besideOutputs_foldl (fun s i => tripLatch_beside s i _) _ s

theorem resetTxb_beside (s : State) : besideOutputs s.resetTxb = besideOutputs s :=
  besideOutputs_foldl (fun s p => besideOutputs_wr s R.CF_TXB_CFG_RELEASE 2 p 31) _ s

theorem dgShow_beside (s : State) : besideOutputs s.dgShow = besideOutputs s := by
  unfold State.dgShow
  simp only []
  split <;> simp only [besideOutputs_wr]

theorem retBusy_beside (s : State) : besideOutputs s.retBusy = besideOutputs s := by
  unfold State.retBusy
  exact besideOutputs_wr _ _ _ _ _

/-! ### Answers -/

/-- The state without its command service and what was sent. -/
def besideService (s : State) : State := { s with acc := Service.reset, sent := [] }

theorem besideService_foldl {α : Type} {f : State → α → State} (hf : ∀ s a, besideService (f s a) = besideService s) (l : List α) (s : State) :
    besideService (l.foldl f s) = besideService s := by
  induction l generalizing s with
  | nil => rfl
  | cons a l ih => rw [List.foldl_cons, ih, hf]

theorem emit_beside (s : State) (p : Port) (w : What) (a : List Nat) (d : Bytes) : besideService (s.emit p w a d) = besideService s := rfl

theorem updSession_beside (s : State) (n : Nat) (f : Session → Session) : besideService (s.updSession n f) = besideService s := rfl

theorem answer_beside (s : State) (p : Reply) : besideService (s.answer p) = besideService s := by
  unfold State.answer
  split
  · rfl
  · rw [besideService_foldl (fun s p => emit_beside s _ _ _ _), updSession_beside]

theorem wake_beside (s : State) (op key status : Nat) (ps : List Nat) (d : Bytes) : besideService (s.wake op key status ps d) = besideService s := by
  unfold State.wake
  rw [besideService_foldl (fun s w => answer_beside s _)]
  rfl

theorem stopWaits_beside (s : State) (status : Nat) (ps : List Nat) : besideService (s.stopWaits status ps) = besideService s := by
  unfold State.stopWaits
  rw [wake_beside, wake_beside]

/-! ### What the resets leave (R16) -/

theorem latticeReset_lat (s : State) : s.latticeReset.lat = Lattice.reset := by
  have h : ∀ u v : State, besideService u = besideService v → u.lat = v.lat := fun u v e =>
    show (besideService u).lat = (besideService v).lat from congrArg State.lat e
  unfold State.latticeReset
  simp only []
  rw [h _ _ (stopWaits_beside _ _ _), h _ _ (wake_beside _ _ _ _ _ _), h _ _ (wake_beside _ _ _ _ _ _), h _ _ (wake_beside _ _ _ _ _ _), h _ _ (wake_beside _ _ _ _ _ _)]

theorem latticeReset_base (s : State) : s.latticeReset.tt.base = none := by
  have h : ∀ u v : State, besideService u = besideService v → u.tt = v.tt := fun u v e =>
    show (besideService u).tt = (besideService v).tt from congrArg State.tt e
  unfold State.latticeReset
  simp only []
  rw [h _ _ (stopWaits_beside _ _ _), h _ _ (wake_beside _ _ _ _ _ _), h _ _ (wake_beside _ _ _ _ _ _), h _ _ (wake_beside _ _ _ _ _ _), h _ _ (wake_beside _ _ _ _ _ _)]

/-- What a restart leaves (R16, R17): BOOT, SOLO, no session, lock, journal buffer, lattice content or base. -/
theorem restart_rest (s : State) (k : Nat) : (s.restart k).unit = .boot ∧ (s.restart k).role = .solo ∧ (s.restart k).tb.frameNo = 0 ∧
    (s.restart k).acc.sessions = [] ∧ (s.restart k).acc.lock = none ∧ (s.restart k).jr.ram = [] :=
  ⟨rfl, rfl, rfl, rfl, rfl, rfl⟩

theorem restart_lat (s : State) (k : Nat) : (s.restart k).lat = Lattice.reset := by
  have h := latticeReset_lat s
  unfold State.restart
  generalize s.latticeReset = u at *
  exact h

theorem restart_base (s : State) (k : Nat) : (s.restart k).tt.base = none := by
  have h := latticeReset_base s
  unfold State.restart
  generalize s.latticeReset = u at *
  exact h

/-- What the resets end with leaves all but register fields, channels and the discrete block. -/
theorem resetEnd_beside (s : State) : besideOutputs (State.safeLine (s.retBusy.evalTrips) false) = besideOutputs s := by
  rw [safeLine_beside, evalTrips_beside, retBusy_beside]

/-- A module reset ends as the restart does, but for register fields, channels and the discrete block. -/
theorem mrst_beside {s : State} (k : Nat) (h : s.unit ≠ .off) :
    ∃ u : State, u.tb.frc = s.tb.frc ∧ besideOutputs (s.mrst k) = besideOutputs (u.restart k) := by
  unfold State.mrst
  rw [if_neg (by simpa using h)]
  have hu : (if s.inRun = true then s.exitRun .stop s.tb.frameNo else s).tb.frc = s.tb.frc := by
    split
    · exact Frc.exitRun_keeps rfl
    · rfl
  refine ⟨_, hu, ?_⟩
  generalize (if s.inRun = true then s.exitRun .stop s.tb.frameNo else s) = u
  simp only []
  rw [resetEnd_beside, dgShow_beside, resetTxb_beside]
  generalize u.restart k = v
  rfl

/-- A lattice reset in STOP, RUN or HALT ends in STOP, but for register fields, channels and the discrete block. -/
theorem lrst_beside {s : State} (h : s.unit = .stop ∨ s.unit = .run ∨ s.unit = .halt) :
    ∃ u : State, besideOutputs s.lrst = besideOutputs { u.latticeReset with unit := UnitState.stop, sup := { u.sup with keep := false } } := by
  unfold State.lrst
  rcases h with h | h | h <;>
    (rw [h]
     simp only []
     generalize (if (s.safeLine true).inRun = true then (s.safeLine true).exitRun .stop (s.safeLine true).tb.frameNo else s.safeLine true) = u
     exact ⟨u, resetEnd_beside _⟩)

end Sys2Proof.Laws
end

