-- ==== Sys2Proof/Laws/State.lean ====
section
/-! SUPPORT. What each named update of the state leaves alone, field by field. -/

set_option Elab.async false

namespace Sys2Proof.Laws

open Sys2Proof Sys2Proof.Machine

section
variable (s : State) (r : RegRow) (v : Nat) (i : optParam Nat 0) (j : optParam Nat 0)
@[simp] theorem wr_pending : (State.wr s r v i j).pending = s.pending := rfl
@[simp] theorem wr_mem : (State.wr s r v i j).mem = s.mem := rfl
@[simp] theorem wr_staged : (State.wr s r v i j).staged = s.staged := rfl
@[simp] theorem wr_latch : (State.wr s r v i j).latch = s.latch := rfl
@[simp] theorem wr_rdata : (State.wr s r v i j).rdata = s.rdata := rfl
@[simp] theorem wr_free : (State.wr s r v i j).free = s.free := rfl
@[simp] theorem wr_sent : (State.wr s r v i j).sent = s.sent := rfl
@[simp] theorem wr_unit : (State.wr s r v i j).unit = s.unit := rfl
@[simp] theorem wr_role : (State.wr s r v i j).role = s.role := rfl
@[simp] theorem wr_tb : (State.wr s r v i j).tb = s.tb := rfl
@[simp] theorem wr_lat : (State.wr s r v i j).lat = s.lat := rfl
@[simp] theorem wr_tt : (State.wr s r v i j).tt = s.tt := rfl
@[simp] theorem wr_acc : (State.wr s r v i j).acc = s.acc := rfl
@[simp] theorem wr_jr : (State.wr s r v i j).jr = s.jr := rfl
@[simp] theorem wr_loopResyncs : (State.wr s r v i j).loopResyncs = s.loopResyncs := rfl
@[simp] theorem wr_chans : (State.wr s r v i j).chans = s.chans := rfl
@[simp] theorem wr_groups : (State.wr s r v i j).groups = s.groups := rfl
@[simp] theorem wr_harts : (State.wr s r v i j).harts = s.harts := rfl
@[simp] theorem wr_dio : (State.wr s r v i j).dio = s.dio := rfl
@[simp] theorem wr_sup : (State.wr s r v i j).sup = s.sup := rfl
@[simp] theorem wr_hs : (State.wr s r v i j).hs = s.hs := rfl
@[simp] theorem wr_pair : (State.wr s r v i j).pair = s.pair := rfl
@[simp] theorem wr_chains : (State.wr s r v i j).chains = s.chains := rfl
@[simp] theorem wr_ingest : (State.wr s r v i j).ingest = s.ingest := rfl
@[simp] theorem wr_cans : (State.wr s r v i j).cans = s.cans := rfl
@[simp] theorem wr_eth : (State.wr s r v i j).eth = s.eth := rfl
@[simp] theorem wr_ptp : (State.wr s r v i j).ptp = s.ptp := rfl
@[simp] theorem wr_disp : (State.wr s r v i j).disp = s.disp := rfl
@[simp] theorem wr_met : (State.wr s r v i j).met = s.met := rfl
@[simp] theorem wr_mg : (State.wr s r v i j).mg = s.mg := rfl
@[simp] theorem wr_trust : (State.wr s r v i j).trust = s.trust := rfl
@[simp] theorem wr_fw : (State.wr s r v i j).fw = s.fw := rfl
end

section
variable (s : State) (lo : RegRow) (hi : RegRow) (v : Nat) (i : optParam Nat 0)
@[simp] theorem wr64_pending : (State.wr64 s lo hi v i).pending = s.pending := rfl
@[simp] theorem wr64_mem : (State.wr64 s lo hi v i).mem = s.mem := rfl
@[simp] theorem wr64_staged : (State.wr64 s lo hi v i).staged = s.staged := rfl
@[simp] theorem wr64_latch : (State.wr64 s lo hi v i).latch = s.latch := rfl
@[simp] theorem wr64_rdata : (State.wr64 s lo hi v i).rdata = s.rdata := rfl
@[simp] theorem wr64_free : (State.wr64 s lo hi v i).free = s.free := rfl
@[simp] theorem wr64_sent : (State.wr64 s lo hi v i).sent = s.sent := rfl
@[simp] theorem wr64_unit : (State.wr64 s lo hi v i).unit = s.unit := rfl
@[simp] theorem wr64_role : (State.wr64 s lo hi v i).role = s.role := rfl
@[simp] theorem wr64_tb : (State.wr64 s lo hi v i).tb = s.tb := rfl
@[simp] theorem wr64_lat : (State.wr64 s lo hi v i).lat = s.lat := rfl
@[simp] theorem wr64_tt : (State.wr64 s lo hi v i).tt = s.tt := rfl
@[simp] theorem wr64_acc : (State.wr64 s lo hi v i).acc = s.acc := rfl
@[simp] theorem wr64_jr : (State.wr64 s lo hi v i).jr = s.jr := rfl
@[simp] theorem wr64_loopResyncs : (State.wr64 s lo hi v i).loopResyncs = s.loopResyncs := rfl
@[simp] theorem wr64_chans : (State.wr64 s lo hi v i).chans = s.chans := rfl
@[simp] theorem wr64_groups : (State.wr64 s lo hi v i).groups = s.groups := rfl
@[simp] theorem wr64_harts : (State.wr64 s lo hi v i).harts = s.harts := rfl
@[simp] theorem wr64_dio : (State.wr64 s lo hi v i).dio = s.dio := rfl
@[simp] theorem wr64_sup : (State.wr64 s lo hi v i).sup = s.sup := rfl
@[simp] theorem wr64_hs : (State.wr64 s lo hi v i).hs = s.hs := rfl
@[simp] theorem wr64_pair : (State.wr64 s lo hi v i).pair = s.pair := rfl
@[simp] theorem wr64_chains : (State.wr64 s lo hi v i).chains = s.chains := rfl
@[simp] theorem wr64_ingest : (State.wr64 s lo hi v i).ingest = s.ingest := rfl
@[simp] theorem wr64_cans : (State.wr64 s lo hi v i).cans = s.cans := rfl
@[simp] theorem wr64_eth : (State.wr64 s lo hi v i).eth = s.eth := rfl
@[simp] theorem wr64_ptp : (State.wr64 s lo hi v i).ptp = s.ptp := rfl
@[simp] theorem wr64_disp : (State.wr64 s lo hi v i).disp = s.disp := rfl
@[simp] theorem wr64_met : (State.wr64 s lo hi v i).met = s.met := rfl
@[simp] theorem wr64_mg : (State.wr64 s lo hi v i).mg = s.mg := rfl
@[simp] theorem wr64_trust : (State.wr64 s lo hi v i).trust = s.trust := rfl
@[simp] theorem wr64_fw : (State.wr64 s lo hi v i).fw = s.fw := rfl
end

section
variable (s : State) (a : Nat) (b : Byte)
@[simp] theorem setByte_pending : (State.setByte s a b).pending = s.pending := rfl
@[simp] theorem setByte_regs : (State.setByte s a b).regs = s.regs := rfl
@[simp] theorem setByte_staged : (State.setByte s a b).staged = s.staged := rfl
@[simp] theorem setByte_latch : (State.setByte s a b).latch = s.latch := rfl
@[simp] theorem setByte_rdata : (State.setByte s a b).rdata = s.rdata := rfl
@[simp] theorem setByte_free : (State.setByte s a b).free = s.free := rfl
@[simp] theorem setByte_sent : (State.setByte s a b).sent = s.sent := rfl
@[simp] theorem setByte_unit : (State.setByte s a b).unit = s.unit := rfl
@[simp] theorem setByte_role : (State.setByte s a b).role = s.role := rfl
@[simp] theorem setByte_tb : (State.setByte s a b).tb = s.tb := rfl
@[simp] theorem setByte_lat : (State.setByte s a b).lat = s.lat := rfl
@[simp] theorem setByte_tt : (State.setByte s a b).tt = s.tt := rfl
@[simp] theorem setByte_acc : (State.setByte s a b).acc = s.acc := rfl
@[simp] theorem setByte_jr : (State.setByte s a b).jr = s.jr := rfl
@[simp] theorem setByte_loopResyncs : (State.setByte s a b).loopResyncs = s.loopResyncs := rfl
@[simp] theorem setByte_chans : (State.setByte s a b).chans = s.chans := rfl
@[simp] theorem setByte_groups : (State.setByte s a b).groups = s.groups := rfl
@[simp] theorem setByte_harts : (State.setByte s a b).harts = s.harts := rfl
@[simp] theorem setByte_dio : (State.setByte s a b).dio = s.dio := rfl
@[simp] theorem setByte_sup : (State.setByte s a b).sup = s.sup := rfl
@[simp] theorem setByte_hs : (State.setByte s a b).hs = s.hs := rfl
@[simp] theorem setByte_pair : (State.setByte s a b).pair = s.pair := rfl
@[simp] theorem setByte_chains : (State.setByte s a b).chains = s.chains := rfl
@[simp] theorem setByte_ingest : (State.setByte s a b).ingest = s.ingest := rfl
@[simp] theorem setByte_cans : (State.setByte s a b).cans = s.cans := rfl
@[simp] theorem setByte_eth : (State.setByte s a b).eth = s.eth := rfl
@[simp] theorem setByte_ptp : (State.setByte s a b).ptp = s.ptp := rfl
@[simp] theorem setByte_disp : (State.setByte s a b).disp = s.disp := rfl
@[simp] theorem setByte_met : (State.setByte s a b).met = s.met := rfl
@[simp] theorem setByte_mg : (State.setByte s a b).mg = s.mg := rfl
@[simp] theorem setByte_trust : (State.setByte s a b).trust = s.trust := rfl
@[simp] theorem setByte_fw : (State.setByte s a b).fw = s.fw := rfl
end

section
variable (s : State) (a : Nat) (bs : Bytes)
@[simp] theorem setBytes_pending : (State.setBytes s a bs).pending = s.pending := rfl
@[simp] theorem setBytes_regs : (State.setBytes s a bs).regs = s.regs := rfl
@[simp] theorem setBytes_staged : (State.setBytes s a bs).staged = s.staged := rfl
@[simp] theorem setBytes_latch : (State.setBytes s a bs).latch = s.latch := rfl
@[simp] theorem setBytes_rdata : (State.setBytes s a bs).rdata = s.rdata := rfl
@[simp] theorem setBytes_free : (State.setBytes s a bs).free = s.free := rfl
@[simp] theorem setBytes_sent : (State.setBytes s a bs).sent = s.sent := rfl
@[simp] theorem setBytes_unit : (State.setBytes s a bs).unit = s.unit := rfl
@[simp] theorem setBytes_role : (State.setBytes s a bs).role = s.role := rfl
@[simp] theorem setBytes_tb : (State.setBytes s a bs).tb = s.tb := rfl
@[simp] theorem setBytes_lat : (State.setBytes s a bs).lat = s.lat := rfl
@[simp] theorem setBytes_tt : (State.setBytes s a bs).tt = s.tt := rfl
@[simp] theorem setBytes_acc : (State.setBytes s a bs).acc = s.acc := rfl
@[simp] theorem setBytes_jr : (State.setBytes s a bs).jr = s.jr := rfl
@[simp] theorem setBytes_loopResyncs : (State.setBytes s a bs).loopResyncs = s.loopResyncs := rfl
@[simp] theorem setBytes_chans : (State.setBytes s a bs).chans = s.chans := rfl
@[simp] theorem setBytes_groups : (State.setBytes s a bs).groups = s.groups := rfl
@[simp] theorem setBytes_harts : (State.setBytes s a bs).harts = s.harts := rfl
@[simp] theorem setBytes_dio : (State.setBytes s a bs).dio = s.dio := rfl
@[simp] theorem setBytes_sup : (State.setBytes s a bs).sup = s.sup := rfl
@[simp] theorem setBytes_hs : (State.setBytes s a bs).hs = s.hs := rfl
@[simp] theorem setBytes_pair : (State.setBytes s a bs).pair = s.pair := rfl
@[simp] theorem setBytes_chains : (State.setBytes s a bs).chains = s.chains := rfl
@[simp] theorem setBytes_ingest : (State.setBytes s a bs).ingest = s.ingest := rfl
@[simp] theorem setBytes_cans : (State.setBytes s a bs).cans = s.cans := rfl
@[simp] theorem setBytes_eth : (State.setBytes s a bs).eth = s.eth := rfl
@[simp] theorem setBytes_ptp : (State.setBytes s a bs).ptp = s.ptp := rfl
@[simp] theorem setBytes_disp : (State.setBytes s a bs).disp = s.disp := rfl
@[simp] theorem setBytes_met : (State.setBytes s a bs).met = s.met := rfl
@[simp] theorem setBytes_mg : (State.setBytes s a bs).mg = s.mg := rfl
@[simp] theorem setBytes_trust : (State.setBytes s a bs).trust = s.trust := rfl
@[simp] theorem setBytes_fw : (State.setBytes s a bs).fw = s.fw := rfl
end

section
variable (s : State) (a : Nat) (e : Nat)
@[simp] theorem clearMem_pending : (State.clearMem s a e).pending = s.pending := rfl
@[simp] theorem clearMem_regs : (State.clearMem s a e).regs = s.regs := rfl
@[simp] theorem clearMem_staged : (State.clearMem s a e).staged = s.staged := rfl
@[simp] theorem clearMem_latch : (State.clearMem s a e).latch = s.latch := rfl
@[simp] theorem clearMem_rdata : (State.clearMem s a e).rdata = s.rdata := rfl
@[simp] theorem clearMem_free : (State.clearMem s a e).free = s.free := rfl
@[simp] theorem clearMem_sent : (State.clearMem s a e).sent = s.sent := rfl
@[simp] theorem clearMem_unit : (State.clearMem s a e).unit = s.unit := rfl
@[simp] theorem clearMem_role : (State.clearMem s a e).role = s.role := rfl
@[simp] theorem clearMem_tb : (State.clearMem s a e).tb = s.tb := rfl
@[simp] theorem clearMem_lat : (State.clearMem s a e).lat = s.lat := rfl
@[simp] theorem clearMem_tt : (State.clearMem s a e).tt = s.tt := rfl
@[simp] theorem clearMem_acc : (State.clearMem s a e).acc = s.acc := rfl
@[simp] theorem clearMem_jr : (State.clearMem s a e).jr = s.jr := rfl
@[simp] theorem clearMem_loopResyncs : (State.clearMem s a e).loopResyncs = s.loopResyncs := rfl
@[simp] theorem clearMem_chans : (State.clearMem s a e).chans = s.chans := rfl
@[simp] theorem clearMem_groups : (State.clearMem s a e).groups = s.groups := rfl
@[simp] theorem clearMem_harts : (State.clearMem s a e).harts = s.harts := rfl
@[simp] theorem clearMem_dio : (State.clearMem s a e).dio = s.dio := rfl
@[simp] theorem clearMem_sup : (State.clearMem s a e).sup = s.sup := rfl
@[simp] theorem clearMem_hs : (State.clearMem s a e).hs = s.hs := rfl
@[simp] theorem clearMem_pair : (State.clearMem s a e).pair = s.pair := rfl
@[simp] theorem clearMem_chains : (State.clearMem s a e).chains = s.chains := rfl
@[simp] theorem clearMem_ingest : (State.clearMem s a e).ingest = s.ingest := rfl
@[simp] theorem clearMem_cans : (State.clearMem s a e).cans = s.cans := rfl
@[simp] theorem clearMem_eth : (State.clearMem s a e).eth = s.eth := rfl
@[simp] theorem clearMem_ptp : (State.clearMem s a e).ptp = s.ptp := rfl
@[simp] theorem clearMem_disp : (State.clearMem s a e).disp = s.disp := rfl
@[simp] theorem clearMem_met : (State.clearMem s a e).met = s.met := rfl
@[simp] theorem clearMem_mg : (State.clearMem s a e).mg = s.mg := rfl
@[simp] theorem clearMem_trust : (State.clearMem s a e).trust = s.trust := rfl
@[simp] theorem clearMem_fw : (State.clearMem s a e).fw = s.fw := rfl
end

section
variable (s : State) (a : Nat) (v : Nat)
@[simp] theorem setWord_pending : (State.setWord s a v).pending = s.pending := rfl
@[simp] theorem setWord_regs : (State.setWord s a v).regs = s.regs := rfl
@[simp] theorem setWord_staged : (State.setWord s a v).staged = s.staged := rfl
@[simp] theorem setWord_latch : (State.setWord s a v).latch = s.latch := rfl
@[simp] theorem setWord_rdata : (State.setWord s a v).rdata = s.rdata := rfl
@[simp] theorem setWord_free : (State.setWord s a v).free = s.free := rfl
@[simp] theorem setWord_sent : (State.setWord s a v).sent = s.sent := rfl
@[simp] theorem setWord_unit : (State.setWord s a v).unit = s.unit := rfl
@[simp] theorem setWord_role : (State.setWord s a v).role = s.role := rfl
@[simp] theorem setWord_tb : (State.setWord s a v).tb = s.tb := rfl
@[simp] theorem setWord_lat : (State.setWord s a v).lat = s.lat := rfl
@[simp] theorem setWord_tt : (State.setWord s a v).tt = s.tt := rfl
@[simp] theorem setWord_acc : (State.setWord s a v).acc = s.acc := rfl
@[simp] theorem setWord_jr : (State.setWord s a v).jr = s.jr := rfl
@[simp] theorem setWord_loopResyncs : (State.setWord s a v).loopResyncs = s.loopResyncs := rfl
@[simp] theorem setWord_chans : (State.setWord s a v).chans = s.chans := rfl
@[simp] theorem setWord_groups : (State.setWord s a v).groups = s.groups := rfl
@[simp] theorem setWord_harts : (State.setWord s a v).harts = s.harts := rfl
@[simp] theorem setWord_dio : (State.setWord s a v).dio = s.dio := rfl
@[simp] theorem setWord_sup : (State.setWord s a v).sup = s.sup := rfl
@[simp] theorem setWord_hs : (State.setWord s a v).hs = s.hs := rfl
@[simp] theorem setWord_pair : (State.setWord s a v).pair = s.pair := rfl
@[simp] theorem setWord_chains : (State.setWord s a v).chains = s.chains := rfl
@[simp] theorem setWord_ingest : (State.setWord s a v).ingest = s.ingest := rfl
@[simp] theorem setWord_cans : (State.setWord s a v).cans = s.cans := rfl
@[simp] theorem setWord_eth : (State.setWord s a v).eth = s.eth := rfl
@[simp] theorem setWord_ptp : (State.setWord s a v).ptp = s.ptp := rfl
@[simp] theorem setWord_disp : (State.setWord s a v).disp = s.disp := rfl
@[simp] theorem setWord_met : (State.setWord s a v).met = s.met := rfl
@[simp] theorem setWord_mg : (State.setWord s a v).mg = s.mg := rfl
@[simp] theorem setWord_trust : (State.setWord s a v).trust = s.trust := rfl
@[simp] theorem setWord_fw : (State.setWord s a v).fw = s.fw := rfl
end

section
variable (s : State)
@[simp] theorem nextFree_pending : (State.nextFree s).pending = s.pending := rfl
@[simp] theorem nextFree_regs : (State.nextFree s).regs = s.regs := rfl
@[simp] theorem nextFree_mem : (State.nextFree s).mem = s.mem := rfl
@[simp] theorem nextFree_staged : (State.nextFree s).staged = s.staged := rfl
@[simp] theorem nextFree_latch : (State.nextFree s).latch = s.latch := rfl
@[simp] theorem nextFree_rdata : (State.nextFree s).rdata = s.rdata := rfl
@[simp] theorem nextFree_sent : (State.nextFree s).sent = s.sent := rfl
@[simp] theorem nextFree_unit : (State.nextFree s).unit = s.unit := rfl
@[simp] theorem nextFree_role : (State.nextFree s).role = s.role := rfl
@[simp] theorem nextFree_tb : (State.nextFree s).tb = s.tb := rfl
@[simp] theorem nextFree_lat : (State.nextFree s).lat = s.lat := rfl
@[simp] theorem nextFree_tt : (State.nextFree s).tt = s.tt := rfl
@[simp] theorem nextFree_acc : (State.nextFree s).acc = s.acc := rfl
@[simp] theorem nextFree_jr : (State.nextFree s).jr = s.jr := rfl
@[simp] theorem nextFree_loopResyncs : (State.nextFree s).loopResyncs = s.loopResyncs := rfl
@[simp] theorem nextFree_chans : (State.nextFree s).chans = s.chans := rfl
@[simp] theorem nextFree_groups : (State.nextFree s).groups = s.groups := rfl
@[simp] theorem nextFree_harts : (State.nextFree s).harts = s.harts := rfl
@[simp] theorem nextFree_dio : (State.nextFree s).dio = s.dio := rfl
@[simp] theorem nextFree_sup : (State.nextFree s).sup = s.sup := rfl
@[simp] theorem nextFree_hs : (State.nextFree s).hs = s.hs := rfl
@[simp] theorem nextFree_pair : (State.nextFree s).pair = s.pair := rfl
@[simp] theorem nextFree_chains : (State.nextFree s).chains = s.chains := rfl
@[simp] theorem nextFree_ingest : (State.nextFree s).ingest = s.ingest := rfl
@[simp] theorem nextFree_cans : (State.nextFree s).cans = s.cans := rfl
@[simp] theorem nextFree_eth : (State.nextFree s).eth = s.eth := rfl
@[simp] theorem nextFree_ptp : (State.nextFree s).ptp = s.ptp := rfl
@[simp] theorem nextFree_disp : (State.nextFree s).disp = s.disp := rfl
@[simp] theorem nextFree_met : (State.nextFree s).met = s.met := rfl
@[simp] theorem nextFree_mg : (State.nextFree s).mg = s.mg := rfl
@[simp] theorem nextFree_trust : (State.nextFree s).trust = s.trust := rfl
@[simp] theorem nextFree_fw : (State.nextFree s).fw = s.fw := rfl
end

section
variable (s : State) (u : Nat)
@[simp] theorem setTod_pending : (State.setTod s u).pending = s.pending := rfl
@[simp] theorem setTod_regs : (State.setTod s u).regs = s.regs := rfl
@[simp] theorem setTod_mem : (State.setTod s u).mem = s.mem := rfl
@[simp] theorem setTod_staged : (State.setTod s u).staged = s.staged := rfl
@[simp] theorem setTod_latch : (State.setTod s u).latch = s.latch := rfl
@[simp] theorem setTod_rdata : (State.setTod s u).rdata = s.rdata := rfl
@[simp] theorem setTod_free : (State.setTod s u).free = s.free := rfl
@[simp] theorem setTod_sent : (State.setTod s u).sent = s.sent := rfl
@[simp] theorem setTod_unit : (State.setTod s u).unit = s.unit := rfl
@[simp] theorem setTod_role : (State.setTod s u).role = s.role := rfl
@[simp] theorem setTod_lat : (State.setTod s u).lat = s.lat := rfl
@[simp] theorem setTod_tt : (State.setTod s u).tt = s.tt := rfl
@[simp] theorem setTod_acc : (State.setTod s u).acc = s.acc := rfl
@[simp] theorem setTod_jr : (State.setTod s u).jr = s.jr := rfl
@[simp] theorem setTod_loopResyncs : (State.setTod s u).loopResyncs = s.loopResyncs := rfl
@[simp] theorem setTod_chans : (State.setTod s u).chans = s.chans := rfl
@[simp] theorem setTod_groups : (State.setTod s u).groups = s.groups := rfl
@[simp] theorem setTod_harts : (State.setTod s u).harts = s.harts := rfl
@[simp] theorem setTod_dio : (State.setTod s u).dio = s.dio := rfl
@[simp] theorem setTod_sup : (State.setTod s u).sup = s.sup := rfl
@[simp] theorem setTod_hs : (State.setTod s u).hs = s.hs := rfl
@[simp] theorem setTod_pair : (State.setTod s u).pair = s.pair := rfl
@[simp] theorem setTod_chains : (State.setTod s u).chains = s.chains := rfl
@[simp] theorem setTod_ingest : (State.setTod s u).ingest = s.ingest := rfl
@[simp] theorem setTod_cans : (State.setTod s u).cans = s.cans := rfl
@[simp] theorem setTod_eth : (State.setTod s u).eth = s.eth := rfl
@[simp] theorem setTod_ptp : (State.setTod s u).ptp = s.ptp := rfl
@[simp] theorem setTod_disp : (State.setTod s u).disp = s.disp := rfl
@[simp] theorem setTod_met : (State.setTod s u).met = s.met := rfl
@[simp] theorem setTod_mg : (State.setTod s u).mg = s.mg := rfl
@[simp] theorem setTod_trust : (State.setTod s u).trust = s.trust := rfl
@[simp] theorem setTod_fw : (State.setTod s u).fw = s.fw := rfl
end

section
variable (s : State) (n : Nat)
theorem withTb_pending (x : TimeBase) : ({ s with tb := x } : State).pending = s.pending := rfl
@[simp] theorem pass_pending : (State.pass s n).pending = s.pending := (withTb_pending _ _).trans (setTod_pending s _)
theorem withTb_regs (x : TimeBase) : ({ s with tb := x } : State).regs = s.regs := rfl
@[simp] theorem pass_regs : (State.pass s n).regs = s.regs := (withTb_regs _ _).trans (setTod_regs s _)
theorem withTb_mem (x : TimeBase) : ({ s with tb := x } : State).mem = s.mem := rfl
@[simp] theorem pass_mem : (State.pass s n).mem = s.mem := (withTb_mem _ _).trans (setTod_mem s _)
theorem withTb_staged (x : TimeBase) : ({ s with tb := x } : State).staged = s.staged := rfl
@[simp] theorem pass_staged : (State.pass s n).staged = s.staged := (withTb_staged _ _).trans (setTod_staged s _)
theorem withTb_latch (x : TimeBase) : ({ s with tb := x } : State).latch = s.latch := rfl
@[simp] theorem pass_latch : (State.pass s n).latch = s.latch := (withTb_latch _ _).trans (setTod_latch s _)
theorem withTb_rdata (x : TimeBase) : ({ s with tb := x } : State).rdata = s.rdata := rfl
@[simp] theorem pass_rdata : (State.pass s n).rdata = s.rdata := (withTb_rdata _ _).trans (setTod_rdata s _)
theorem withTb_free (x : TimeBase) : ({ s with tb := x } : State).free = s.free := rfl
@[simp] theorem pass_free : (State.pass s n).free = s.free := (withTb_free _ _).trans (setTod_free s _)
theorem withTb_sent (x : TimeBase) : ({ s with tb := x } : State).sent = s.sent := rfl
@[simp] theorem pass_sent : (State.pass s n).sent = s.sent := (withTb_sent _ _).trans (setTod_sent s _)
theorem withTb_unit (x : TimeBase) : ({ s with tb := x } : State).unit = s.unit := rfl
@[simp] theorem pass_unit : (State.pass s n).unit = s.unit := (withTb_unit _ _).trans (setTod_unit s _)
theorem withTb_role (x : TimeBase) : ({ s with tb := x } : State).role = s.role := rfl
@[simp] theorem pass_role : (State.pass s n).role = s.role := (withTb_role _ _).trans (setTod_role s _)
theorem withTb_lat (x : TimeBase) : ({ s with tb := x } : State).lat = s.lat := rfl
@[simp] theorem pass_lat : (State.pass s n).lat = s.lat := (withTb_lat _ _).trans (setTod_lat s _)
theorem withTb_tt (x : TimeBase) : ({ s with tb := x } : State).tt = s.tt := rfl
@[simp] theorem pass_tt : (State.pass s n).tt = s.tt := (withTb_tt _ _).trans (setTod_tt s _)
theorem withTb_acc (x : TimeBase) : ({ s with tb := x } : State).acc = s.acc := rfl
@[simp] theorem pass_acc : (State.pass s n).acc = s.acc := (withTb_acc _ _).trans (setTod_acc s _)
theorem withTb_jr (x : TimeBase) : ({ s with tb := x } : State).jr = s.jr := rfl
@[simp] theorem pass_jr : (State.pass s n).jr = s.jr := (withTb_jr _ _).trans (setTod_jr s _)
theorem withTb_loopResyncs (x : TimeBase) : ({ s with tb := x } : State).loopResyncs = s.loopResyncs := rfl
@[simp] theorem pass_loopResyncs : (State.pass s n).loopResyncs = s.loopResyncs := (withTb_loopResyncs _ _).trans (setTod_loopResyncs s _)
theorem withTb_chans (x : TimeBase) : ({ s with tb := x } : State).chans = s.chans := rfl
@[simp] theorem pass_chans : (State.pass s n).chans = s.chans := (withTb_chans _ _).trans (setTod_chans s _)
theorem withTb_groups (x : TimeBase) : ({ s with tb := x } : State).groups = s.groups := rfl
@[simp] theorem pass_groups : (State.pass s n).groups = s.groups := (withTb_groups _ _).trans (setTod_groups s _)
theorem withTb_harts (x : TimeBase) : ({ s with tb := x } : State).harts = s.harts := rfl
@[simp] theorem pass_harts : (State.pass s n).harts = s.harts := (withTb_harts _ _).trans (setTod_harts s _)
theorem withTb_dio (x : TimeBase) : ({ s with tb := x } : State).dio = s.dio := rfl
@[simp] theorem pass_dio : (State.pass s n).dio = s.dio := (withTb_dio _ _).trans (setTod_dio s _)
theorem withTb_sup (x : TimeBase) : ({ s with tb := x } : State).sup = s.sup := rfl
@[simp] theorem pass_sup : (State.pass s n).sup = s.sup := (withTb_sup _ _).trans (setTod_sup s _)
theorem withTb_hs (x : TimeBase) : ({ s with tb := x } : State).hs = s.hs := rfl
@[simp] theorem pass_hs : (State.pass s n).hs = s.hs := (withTb_hs _ _).trans (setTod_hs s _)
theorem withTb_pair (x : TimeBase) : ({ s with tb := x } : State).pair = s.pair := rfl
@[simp] theorem pass_pair : (State.pass s n).pair = s.pair := (withTb_pair _ _).trans (setTod_pair s _)
theorem withTb_chains (x : TimeBase) : ({ s with tb := x } : State).chains = s.chains := rfl
@[simp] theorem pass_chains : (State.pass s n).chains = s.chains := (withTb_chains _ _).trans (setTod_chains s _)
theorem withTb_ingest (x : TimeBase) : ({ s with tb := x } : State).ingest = s.ingest := rfl
@[simp] theorem pass_ingest : (State.pass s n).ingest = s.ingest := (withTb_ingest _ _).trans (setTod_ingest s _)
theorem withTb_cans (x : TimeBase) : ({ s with tb := x } : State).cans = s.cans := rfl
@[simp] theorem pass_cans : (State.pass s n).cans = s.cans := (withTb_cans _ _).trans (setTod_cans s _)
theorem withTb_eth (x : TimeBase) : ({ s with tb := x } : State).eth = s.eth := rfl
@[simp] theorem pass_eth : (State.pass s n).eth = s.eth := (withTb_eth _ _).trans (setTod_eth s _)
theorem withTb_ptp (x : TimeBase) : ({ s with tb := x } : State).ptp = s.ptp := rfl
@[simp] theorem pass_ptp : (State.pass s n).ptp = s.ptp := (withTb_ptp _ _).trans (setTod_ptp s _)
theorem withTb_disp (x : TimeBase) : ({ s with tb := x } : State).disp = s.disp := rfl
@[simp] theorem pass_disp : (State.pass s n).disp = s.disp := (withTb_disp _ _).trans (setTod_disp s _)
theorem withTb_met (x : TimeBase) : ({ s with tb := x } : State).met = s.met := rfl
@[simp] theorem pass_met : (State.pass s n).met = s.met := (withTb_met _ _).trans (setTod_met s _)
theorem withTb_mg (x : TimeBase) : ({ s with tb := x } : State).mg = s.mg := rfl
@[simp] theorem pass_mg : (State.pass s n).mg = s.mg := (withTb_mg _ _).trans (setTod_mg s _)
theorem withTb_trust (x : TimeBase) : ({ s with tb := x } : State).trust = s.trust := rfl
@[simp] theorem pass_trust : (State.pass s n).trust = s.trust := (withTb_trust _ _).trans (setTod_trust s _)
theorem withTb_fw (x : TimeBase) : ({ s with tb := x } : State).fw = s.fw := rfl
@[simp] theorem pass_fw : (State.pass s n).fw = s.fw := (withTb_fw _ _).trans (setTod_fw s _)
end

section
variable (s : State) (port : Port) (what : What) (args : List Nat) (data : optParam Bytes [])
@[simp] theorem emit_pending : (State.emit s port what args data).pending = s.pending := rfl
@[simp] theorem emit_regs : (State.emit s port what args data).regs = s.regs := rfl
@[simp] theorem emit_mem : (State.emit s port what args data).mem = s.mem := rfl
@[simp] theorem emit_staged : (State.emit s port what args data).staged = s.staged := rfl
@[simp] theorem emit_latch : (State.emit s port what args data).latch = s.latch := rfl
@[simp] theorem emit_rdata : (State.emit s port what args data).rdata = s.rdata := rfl
@[simp] theorem emit_free : (State.emit s port what args data).free = s.free := rfl
@[simp] theorem emit_unit : (State.emit s port what args data).unit = s.unit := rfl
@[simp] theorem emit_role : (State.emit s port what args data).role = s.role := rfl
@[simp] theorem emit_tb : (State.emit s port what args data).tb = s.tb := rfl
@[simp] theorem emit_lat : (State.emit s port what args data).lat = s.lat := rfl
@[simp] theorem emit_tt : (State.emit s port what args data).tt = s.tt := rfl
@[simp] theorem emit_acc : (State.emit s port what args data).acc = s.acc := rfl
@[simp] theorem emit_jr : (State.emit s port what args data).jr = s.jr := rfl
@[simp] theorem emit_loopResyncs : (State.emit s port what args data).loopResyncs = s.loopResyncs := rfl
@[simp] theorem emit_chans : (State.emit s port what args data).chans = s.chans := rfl
@[simp] theorem emit_groups : (State.emit s port what args data).groups = s.groups := rfl
@[simp] theorem emit_harts : (State.emit s port what args data).harts = s.harts := rfl
@[simp] theorem emit_dio : (State.emit s port what args data).dio = s.dio := rfl
@[simp] theorem emit_sup : (State.emit s port what args data).sup = s.sup := rfl
@[simp] theorem emit_hs : (State.emit s port what args data).hs = s.hs := rfl
@[simp] theorem emit_pair : (State.emit s port what args data).pair = s.pair := rfl
@[simp] theorem emit_chains : (State.emit s port what args data).chains = s.chains := rfl
@[simp] theorem emit_ingest : (State.emit s port what args data).ingest = s.ingest := rfl
@[simp] theorem emit_cans : (State.emit s port what args data).cans = s.cans := rfl
@[simp] theorem emit_eth : (State.emit s port what args data).eth = s.eth := rfl
@[simp] theorem emit_ptp : (State.emit s port what args data).ptp = s.ptp := rfl
@[simp] theorem emit_disp : (State.emit s port what args data).disp = s.disp := rfl
@[simp] theorem emit_met : (State.emit s port what args data).met = s.met := rfl
@[simp] theorem emit_mg : (State.emit s port what args data).mg = s.mg := rfl
@[simp] theorem emit_trust : (State.emit s port what args data).trust = s.trust := rfl
@[simp] theorem emit_fw : (State.emit s port what args data).fw = s.fw := rfl
end

section
variable (s : State) (p : Nat) (f : Tile → Tile)
@[simp] theorem updTile_pending : (State.updTile s p f).pending = s.pending := rfl
@[simp] theorem updTile_regs : (State.updTile s p f).regs = s.regs := rfl
@[simp] theorem updTile_mem : (State.updTile s p f).mem = s.mem := rfl
@[simp] theorem updTile_staged : (State.updTile s p f).staged = s.staged := rfl
@[simp] theorem updTile_latch : (State.updTile s p f).latch = s.latch := rfl
@[simp] theorem updTile_rdata : (State.updTile s p f).rdata = s.rdata := rfl
@[simp] theorem updTile_free : (State.updTile s p f).free = s.free := rfl
@[simp] theorem updTile_sent : (State.updTile s p f).sent = s.sent := rfl
@[simp] theorem updTile_unit : (State.updTile s p f).unit = s.unit := rfl
@[simp] theorem updTile_role : (State.updTile s p f).role = s.role := rfl
@[simp] theorem updTile_tb : (State.updTile s p f).tb = s.tb := rfl
@[simp] theorem updTile_tt : (State.updTile s p f).tt = s.tt := rfl
@[simp] theorem updTile_acc : (State.updTile s p f).acc = s.acc := rfl
@[simp] theorem updTile_jr : (State.updTile s p f).jr = s.jr := rfl
@[simp] theorem updTile_loopResyncs : (State.updTile s p f).loopResyncs = s.loopResyncs := rfl
@[simp] theorem updTile_chans : (State.updTile s p f).chans = s.chans := rfl
@[simp] theorem updTile_groups : (State.updTile s p f).groups = s.groups := rfl
@[simp] theorem updTile_harts : (State.updTile s p f).harts = s.harts := rfl
@[simp] theorem updTile_dio : (State.updTile s p f).dio = s.dio := rfl
@[simp] theorem updTile_sup : (State.updTile s p f).sup = s.sup := rfl
@[simp] theorem updTile_hs : (State.updTile s p f).hs = s.hs := rfl
@[simp] theorem updTile_pair : (State.updTile s p f).pair = s.pair := rfl
@[simp] theorem updTile_chains : (State.updTile s p f).chains = s.chains := rfl
@[simp] theorem updTile_ingest : (State.updTile s p f).ingest = s.ingest := rfl
@[simp] theorem updTile_cans : (State.updTile s p f).cans = s.cans := rfl
@[simp] theorem updTile_eth : (State.updTile s p f).eth = s.eth := rfl
@[simp] theorem updTile_ptp : (State.updTile s p f).ptp = s.ptp := rfl
@[simp] theorem updTile_disp : (State.updTile s p f).disp = s.disp := rfl
@[simp] theorem updTile_met : (State.updTile s p f).met = s.met := rfl
@[simp] theorem updTile_mg : (State.updTile s p f).mg = s.mg := rfl
@[simp] theorem updTile_trust : (State.updTile s p f).trust = s.trust := rfl
@[simp] theorem updTile_fw : (State.updTile s p f).fw = s.fw := rfl
end

section
variable (s : State) (q : Nat) (f : Ring → Ring)
@[simp] theorem updRing_pending : (State.updRing s q f).pending = s.pending := rfl
@[simp] theorem updRing_regs : (State.updRing s q f).regs = s.regs := rfl
@[simp] theorem updRing_mem : (State.updRing s q f).mem = s.mem := rfl
@[simp] theorem updRing_staged : (State.updRing s q f).staged = s.staged := rfl
@[simp] theorem updRing_latch : (State.updRing s q f).latch = s.latch := rfl
@[simp] theorem updRing_rdata : (State.updRing s q f).rdata = s.rdata := rfl
@[simp] theorem updRing_free : (State.updRing s q f).free = s.free := rfl
@[simp] theorem updRing_sent : (State.updRing s q f).sent = s.sent := rfl
@[simp] theorem updRing_unit : (State.updRing s q f).unit = s.unit := rfl
@[simp] theorem updRing_role : (State.updRing s q f).role = s.role := rfl
@[simp] theorem updRing_tb : (State.updRing s q f).tb = s.tb := rfl
@[simp] theorem updRing_acc : (State.updRing s q f).acc = s.acc := rfl
@[simp] theorem updRing_jr : (State.updRing s q f).jr = s.jr := rfl
@[simp] theorem updRing_loopResyncs : (State.updRing s q f).loopResyncs = s.loopResyncs := rfl
@[simp] theorem updRing_chans : (State.updRing s q f).chans = s.chans := rfl
@[simp] theorem updRing_groups : (State.updRing s q f).groups = s.groups := rfl
@[simp] theorem updRing_harts : (State.updRing s q f).harts = s.harts := rfl
@[simp] theorem updRing_dio : (State.updRing s q f).dio = s.dio := rfl
@[simp] theorem updRing_sup : (State.updRing s q f).sup = s.sup := rfl
@[simp] theorem updRing_hs : (State.updRing s q f).hs = s.hs := rfl
@[simp] theorem updRing_pair : (State.updRing s q f).pair = s.pair := rfl
@[simp] theorem updRing_chains : (State.updRing s q f).chains = s.chains := rfl
@[simp] theorem updRing_ingest : (State.updRing s q f).ingest = s.ingest := rfl
@[simp] theorem updRing_cans : (State.updRing s q f).cans = s.cans := rfl
@[simp] theorem updRing_eth : (State.updRing s q f).eth = s.eth := rfl
@[simp] theorem updRing_ptp : (State.updRing s q f).ptp = s.ptp := rfl
@[simp] theorem updRing_disp : (State.updRing s q f).disp = s.disp := rfl
@[simp] theorem updRing_met : (State.updRing s q f).met = s.met := rfl
@[simp] theorem updRing_mg : (State.updRing s q f).mg = s.mg := rfl
@[simp] theorem updRing_trust : (State.updRing s q f).trust = s.trust := rfl
@[simp] theorem updRing_fw : (State.updRing s q f).fw = s.fw := rfl
end

section
variable (s : State) (ch : Nat) (f : Chan → Chan)
@[simp] theorem updChan_pending : (State.updChan s ch f).pending = s.pending := rfl
@[simp] theorem updChan_regs : (State.updChan s ch f).regs = s.regs := rfl
@[simp] theorem updChan_mem : (State.updChan s ch f).mem = s.mem := rfl
@[simp] theorem updChan_staged : (State.updChan s ch f).staged = s.staged := rfl
@[simp] theorem updChan_latch : (State.updChan s ch f).latch = s.latch := rfl
@[simp] theorem updChan_rdata : (State.updChan s ch f).rdata = s.rdata := rfl
@[simp] theorem updChan_free : (State.updChan s ch f).free = s.free := rfl
@[simp] theorem updChan_sent : (State.updChan s ch f).sent = s.sent := rfl
@[simp] theorem updChan_unit : (State.updChan s ch f).unit = s.unit := rfl
@[simp] theorem updChan_role : (State.updChan s ch f).role = s.role := rfl
@[simp] theorem updChan_tb : (State.updChan s ch f).tb = s.tb := rfl
@[simp] theorem updChan_lat : (State.updChan s ch f).lat = s.lat := rfl
@[simp] theorem updChan_tt : (State.updChan s ch f).tt = s.tt := rfl
@[simp] theorem updChan_acc : (State.updChan s ch f).acc = s.acc := rfl
@[simp] theorem updChan_jr : (State.updChan s ch f).jr = s.jr := rfl
@[simp] theorem updChan_loopResyncs : (State.updChan s ch f).loopResyncs = s.loopResyncs := rfl
@[simp] theorem updChan_groups : (State.updChan s ch f).groups = s.groups := rfl
@[simp] theorem updChan_harts : (State.updChan s ch f).harts = s.harts := rfl
@[simp] theorem updChan_dio : (State.updChan s ch f).dio = s.dio := rfl
@[simp] theorem updChan_sup : (State.updChan s ch f).sup = s.sup := rfl
@[simp] theorem updChan_hs : (State.updChan s ch f).hs = s.hs := rfl
@[simp] theorem updChan_pair : (State.updChan s ch f).pair = s.pair := rfl
@[simp] theorem updChan_chains : (State.updChan s ch f).chains = s.chains := rfl
@[simp] theorem updChan_ingest : (State.updChan s ch f).ingest = s.ingest := rfl
@[simp] theorem updChan_cans : (State.updChan s ch f).cans = s.cans := rfl
@[simp] theorem updChan_eth : (State.updChan s ch f).eth = s.eth := rfl
@[simp] theorem updChan_ptp : (State.updChan s ch f).ptp = s.ptp := rfl
@[simp] theorem updChan_disp : (State.updChan s ch f).disp = s.disp := rfl
@[simp] theorem updChan_met : (State.updChan s ch f).met = s.met := rfl
@[simp] theorem updChan_mg : (State.updChan s ch f).mg = s.mg := rfl
@[simp] theorem updChan_trust : (State.updChan s ch f).trust = s.trust := rfl
@[simp] theorem updChan_fw : (State.updChan s ch f).fw = s.fw := rfl
end

section
variable (s : State) (g : Nat) (f : Group → Group)
@[simp] theorem updGroup_pending : (State.updGroup s g f).pending = s.pending := rfl
@[simp] theorem updGroup_regs : (State.updGroup s g f).regs = s.regs := rfl
@[simp] theorem updGroup_mem : (State.updGroup s g f).mem = s.mem := rfl
@[simp] theorem updGroup_staged : (State.updGroup s g f).staged = s.staged := rfl
@[simp] theorem updGroup_latch : (State.updGroup s g f).latch = s.latch := rfl
@[simp] theorem updGroup_rdata : (State.updGroup s g f).rdata = s.rdata := rfl
@[simp] theorem updGroup_free : (State.updGroup s g f).free = s.free := rfl
@[simp] theorem updGroup_sent : (State.updGroup s g f).sent = s.sent := rfl
@[simp] theorem updGroup_unit : (State.updGroup s g f).unit = s.unit := rfl
@[simp] theorem updGroup_role : (State.updGroup s g f).role = s.role := rfl
@[simp] theorem updGroup_tb : (State.updGroup s g f).tb = s.tb := rfl
@[simp] theorem updGroup_lat : (State.updGroup s g f).lat = s.lat := rfl
@[simp] theorem updGroup_tt : (State.updGroup s g f).tt = s.tt := rfl
@[simp] theorem updGroup_acc : (State.updGroup s g f).acc = s.acc := rfl
@[simp] theorem updGroup_jr : (State.updGroup s g f).jr = s.jr := rfl
@[simp] theorem updGroup_loopResyncs : (State.updGroup s g f).loopResyncs = s.loopResyncs := rfl
@[simp] theorem updGroup_chans : (State.updGroup s g f).chans = s.chans := rfl
@[simp] theorem updGroup_harts : (State.updGroup s g f).harts = s.harts := rfl
@[simp] theorem updGroup_dio : (State.updGroup s g f).dio = s.dio := rfl
@[simp] theorem updGroup_sup : (State.updGroup s g f).sup = s.sup := rfl
@[simp] theorem updGroup_hs : (State.updGroup s g f).hs = s.hs := rfl
@[simp] theorem updGroup_pair : (State.updGroup s g f).pair = s.pair := rfl
@[simp] theorem updGroup_chains : (State.updGroup s g f).chains = s.chains := rfl
@[simp] theorem updGroup_ingest : (State.updGroup s g f).ingest = s.ingest := rfl
@[simp] theorem updGroup_cans : (State.updGroup s g f).cans = s.cans := rfl
@[simp] theorem updGroup_eth : (State.updGroup s g f).eth = s.eth := rfl
@[simp] theorem updGroup_ptp : (State.updGroup s g f).ptp = s.ptp := rfl
@[simp] theorem updGroup_disp : (State.updGroup s g f).disp = s.disp := rfl
@[simp] theorem updGroup_met : (State.updGroup s g f).met = s.met := rfl
@[simp] theorem updGroup_mg : (State.updGroup s g f).mg = s.mg := rfl
@[simp] theorem updGroup_trust : (State.updGroup s g f).trust = s.trust := rfl
@[simp] theorem updGroup_fw : (State.updGroup s g f).fw = s.fw := rfl
end

section
variable (s : State) (ch : Nat) (f : Hart → Hart)
@[simp] theorem updHart_pending : (State.updHart s ch f).pending = s.pending := rfl
@[simp] theorem updHart_mem : (State.updHart s ch f).mem = s.mem := rfl
@[simp] theorem updHart_staged : (State.updHart s ch f).staged = s.staged := rfl
@[simp] theorem updHart_latch : (State.updHart s ch f).latch = s.latch := rfl
@[simp] theorem updHart_rdata : (State.updHart s ch f).rdata = s.rdata := rfl
@[simp] theorem updHart_free : (State.updHart s ch f).free = s.free := rfl
@[simp] theorem updHart_sent : (State.updHart s ch f).sent = s.sent := rfl
@[simp] theorem updHart_unit : (State.updHart s ch f).unit = s.unit := rfl
@[simp] theorem updHart_role : (State.updHart s ch f).role = s.role := rfl
@[simp] theorem updHart_tb : (State.updHart s ch f).tb = s.tb := rfl
@[simp] theorem updHart_lat : (State.updHart s ch f).lat = s.lat := rfl
@[simp] theorem updHart_tt : (State.updHart s ch f).tt = s.tt := rfl
@[simp] theorem updHart_acc : (State.updHart s ch f).acc = s.acc := rfl
@[simp] theorem updHart_jr : (State.updHart s ch f).jr = s.jr := rfl
@[simp] theorem updHart_loopResyncs : (State.updHart s ch f).loopResyncs = s.loopResyncs := rfl
@[simp] theorem updHart_chans : (State.updHart s ch f).chans = s.chans := rfl
@[simp] theorem updHart_groups : (State.updHart s ch f).groups = s.groups := rfl
@[simp] theorem updHart_dio : (State.updHart s ch f).dio = s.dio := rfl
@[simp] theorem updHart_sup : (State.updHart s ch f).sup = s.sup := rfl
@[simp] theorem updHart_hs : (State.updHart s ch f).hs = s.hs := rfl
@[simp] theorem updHart_pair : (State.updHart s ch f).pair = s.pair := rfl
@[simp] theorem updHart_chains : (State.updHart s ch f).chains = s.chains := rfl
@[simp] theorem updHart_ingest : (State.updHart s ch f).ingest = s.ingest := rfl
@[simp] theorem updHart_cans : (State.updHart s ch f).cans = s.cans := rfl
@[simp] theorem updHart_eth : (State.updHart s ch f).eth = s.eth := rfl
@[simp] theorem updHart_ptp : (State.updHart s ch f).ptp = s.ptp := rfl
@[simp] theorem updHart_disp : (State.updHart s ch f).disp = s.disp := rfl
@[simp] theorem updHart_met : (State.updHart s ch f).met = s.met := rfl
@[simp] theorem updHart_mg : (State.updHart s ch f).mg = s.mg := rfl
@[simp] theorem updHart_trust : (State.updHart s ch f).trust = s.trust := rfl
@[simp] theorem updHart_fw : (State.updHart s ch f).fw = s.fw := rfl
end

section
variable (s : State) (f : Dio → Dio)
@[simp] theorem updDio_pending : (State.updDio s f).pending = s.pending := rfl
@[simp] theorem updDio_regs : (State.updDio s f).regs = s.regs := rfl
@[simp] theorem updDio_mem : (State.updDio s f).mem = s.mem := rfl
@[simp] theorem updDio_staged : (State.updDio s f).staged = s.staged := rfl
@[simp] theorem updDio_latch : (State.updDio s f).latch = s.latch := rfl
@[simp] theorem updDio_rdata : (State.updDio s f).rdata = s.rdata := rfl
@[simp] theorem updDio_free : (State.updDio s f).free = s.free := rfl
@[simp] theorem updDio_sent : (State.updDio s f).sent = s.sent := rfl
@[simp] theorem updDio_unit : (State.updDio s f).unit = s.unit := rfl
@[simp] theorem updDio_role : (State.updDio s f).role = s.role := rfl
@[simp] theorem updDio_tb : (State.updDio s f).tb = s.tb := rfl
@[simp] theorem updDio_lat : (State.updDio s f).lat = s.lat := rfl
@[simp] theorem updDio_tt : (State.updDio s f).tt = s.tt := rfl
@[simp] theorem updDio_acc : (State.updDio s f).acc = s.acc := rfl
@[simp] theorem updDio_jr : (State.updDio s f).jr = s.jr := rfl
@[simp] theorem updDio_loopResyncs : (State.updDio s f).loopResyncs = s.loopResyncs := rfl
@[simp] theorem updDio_chans : (State.updDio s f).chans = s.chans := rfl
@[simp] theorem updDio_groups : (State.updDio s f).groups = s.groups := rfl
@[simp] theorem updDio_harts : (State.updDio s f).harts = s.harts := rfl
@[simp] theorem updDio_sup : (State.updDio s f).sup = s.sup := rfl
@[simp] theorem updDio_hs : (State.updDio s f).hs = s.hs := rfl
@[simp] theorem updDio_pair : (State.updDio s f).pair = s.pair := rfl
@[simp] theorem updDio_chains : (State.updDio s f).chains = s.chains := rfl
@[simp] theorem updDio_ingest : (State.updDio s f).ingest = s.ingest := rfl
@[simp] theorem updDio_cans : (State.updDio s f).cans = s.cans := rfl
@[simp] theorem updDio_eth : (State.updDio s f).eth = s.eth := rfl
@[simp] theorem updDio_ptp : (State.updDio s f).ptp = s.ptp := rfl
@[simp] theorem updDio_disp : (State.updDio s f).disp = s.disp := rfl
@[simp] theorem updDio_met : (State.updDio s f).met = s.met := rfl
@[simp] theorem updDio_mg : (State.updDio s f).mg = s.mg := rfl
@[simp] theorem updDio_trust : (State.updDio s f).trust = s.trust := rfl
@[simp] theorem updDio_fw : (State.updDio s f).fw = s.fw := rfl
end

section
variable (s : State) (p : Nat) (f : ChainPort → ChainPort)
@[simp] theorem updChain_pending : (State.updChain s p f).pending = s.pending := rfl
@[simp] theorem updChain_regs : (State.updChain s p f).regs = s.regs := rfl
@[simp] theorem updChain_mem : (State.updChain s p f).mem = s.mem := rfl
@[simp] theorem updChain_staged : (State.updChain s p f).staged = s.staged := rfl
@[simp] theorem updChain_latch : (State.updChain s p f).latch = s.latch := rfl
@[simp] theorem updChain_rdata : (State.updChain s p f).rdata = s.rdata := rfl
@[simp] theorem updChain_free : (State.updChain s p f).free = s.free := rfl
@[simp] theorem updChain_sent : (State.updChain s p f).sent = s.sent := rfl
@[simp] theorem updChain_unit : (State.updChain s p f).unit = s.unit := rfl
@[simp] theorem updChain_role : (State.updChain s p f).role = s.role := rfl
@[simp] theorem updChain_tb : (State.updChain s p f).tb = s.tb := rfl
@[simp] theorem updChain_lat : (State.updChain s p f).lat = s.lat := rfl
@[simp] theorem updChain_tt : (State.updChain s p f).tt = s.tt := rfl
@[simp] theorem updChain_acc : (State.updChain s p f).acc = s.acc := rfl
@[simp] theorem updChain_jr : (State.updChain s p f).jr = s.jr := rfl
@[simp] theorem updChain_loopResyncs : (State.updChain s p f).loopResyncs = s.loopResyncs := rfl
@[simp] theorem updChain_chans : (State.updChain s p f).chans = s.chans := rfl
@[simp] theorem updChain_groups : (State.updChain s p f).groups = s.groups := rfl
@[simp] theorem updChain_harts : (State.updChain s p f).harts = s.harts := rfl
@[simp] theorem updChain_dio : (State.updChain s p f).dio = s.dio := rfl
@[simp] theorem updChain_sup : (State.updChain s p f).sup = s.sup := rfl
@[simp] theorem updChain_hs : (State.updChain s p f).hs = s.hs := rfl
@[simp] theorem updChain_pair : (State.updChain s p f).pair = s.pair := rfl
@[simp] theorem updChain_ingest : (State.updChain s p f).ingest = s.ingest := rfl
@[simp] theorem updChain_cans : (State.updChain s p f).cans = s.cans := rfl
@[simp] theorem updChain_eth : (State.updChain s p f).eth = s.eth := rfl
@[simp] theorem updChain_ptp : (State.updChain s p f).ptp = s.ptp := rfl
@[simp] theorem updChain_disp : (State.updChain s p f).disp = s.disp := rfl
@[simp] theorem updChain_met : (State.updChain s p f).met = s.met := rfl
@[simp] theorem updChain_mg : (State.updChain s p f).mg = s.mg := rfl
@[simp] theorem updChain_trust : (State.updChain s p f).trust = s.trust := rfl
@[simp] theorem updChain_fw : (State.updChain s p f).fw = s.fw := rfl
end

section
variable (s : State) (p : Nat) (f : CanPort → CanPort)
@[simp] theorem updCan_pending : (State.updCan s p f).pending = s.pending := rfl
@[simp] theorem updCan_regs : (State.updCan s p f).regs = s.regs := rfl
@[simp] theorem updCan_mem : (State.updCan s p f).mem = s.mem := rfl
@[simp] theorem updCan_staged : (State.updCan s p f).staged = s.staged := rfl
@[simp] theorem updCan_latch : (State.updCan s p f).latch = s.latch := rfl
@[simp] theorem updCan_rdata : (State.updCan s p f).rdata = s.rdata := rfl
@[simp] theorem updCan_free : (State.updCan s p f).free = s.free := rfl
@[simp] theorem updCan_sent : (State.updCan s p f).sent = s.sent := rfl
@[simp] theorem updCan_unit : (State.updCan s p f).unit = s.unit := rfl
@[simp] theorem updCan_role : (State.updCan s p f).role = s.role := rfl
@[simp] theorem updCan_tb : (State.updCan s p f).tb = s.tb := rfl
@[simp] theorem updCan_lat : (State.updCan s p f).lat = s.lat := rfl
@[simp] theorem updCan_tt : (State.updCan s p f).tt = s.tt := rfl
@[simp] theorem updCan_acc : (State.updCan s p f).acc = s.acc := rfl
@[simp] theorem updCan_jr : (State.updCan s p f).jr = s.jr := rfl
@[simp] theorem updCan_loopResyncs : (State.updCan s p f).loopResyncs = s.loopResyncs := rfl
@[simp] theorem updCan_chans : (State.updCan s p f).chans = s.chans := rfl
@[simp] theorem updCan_groups : (State.updCan s p f).groups = s.groups := rfl
@[simp] theorem updCan_harts : (State.updCan s p f).harts = s.harts := rfl
@[simp] theorem updCan_dio : (State.updCan s p f).dio = s.dio := rfl
@[simp] theorem updCan_sup : (State.updCan s p f).sup = s.sup := rfl
@[simp] theorem updCan_hs : (State.updCan s p f).hs = s.hs := rfl
@[simp] theorem updCan_pair : (State.updCan s p f).pair = s.pair := rfl
@[simp] theorem updCan_chains : (State.updCan s p f).chains = s.chains := rfl
@[simp] theorem updCan_ingest : (State.updCan s p f).ingest = s.ingest := rfl
@[simp] theorem updCan_eth : (State.updCan s p f).eth = s.eth := rfl
@[simp] theorem updCan_ptp : (State.updCan s p f).ptp = s.ptp := rfl
@[simp] theorem updCan_disp : (State.updCan s p f).disp = s.disp := rfl
@[simp] theorem updCan_met : (State.updCan s p f).met = s.met := rfl
@[simp] theorem updCan_mg : (State.updCan s p f).mg = s.mg := rfl
@[simp] theorem updCan_trust : (State.updCan s p f).trust = s.trust := rfl
@[simp] theorem updCan_fw : (State.updCan s p f).fw = s.fw := rfl
end

section
variable (s : State) (f : Eth → Eth)
@[simp] theorem updEth_pending : (State.updEth s f).pending = s.pending := rfl
@[simp] theorem updEth_regs : (State.updEth s f).regs = s.regs := rfl
@[simp] theorem updEth_mem : (State.updEth s f).mem = s.mem := rfl
@[simp] theorem updEth_staged : (State.updEth s f).staged = s.staged := rfl
@[simp] theorem updEth_latch : (State.updEth s f).latch = s.latch := rfl
@[simp] theorem updEth_rdata : (State.updEth s f).rdata = s.rdata := rfl
@[simp] theorem updEth_free : (State.updEth s f).free = s.free := rfl
@[simp] theorem updEth_sent : (State.updEth s f).sent = s.sent := rfl
@[simp] theorem updEth_unit : (State.updEth s f).unit = s.unit := rfl
@[simp] theorem updEth_role : (State.updEth s f).role = s.role := rfl
@[simp] theorem updEth_tb : (State.updEth s f).tb = s.tb := rfl
@[simp] theorem updEth_lat : (State.updEth s f).lat = s.lat := rfl
@[simp] theorem updEth_tt : (State.updEth s f).tt = s.tt := rfl
@[simp] theorem updEth_acc : (State.updEth s f).acc = s.acc := rfl
@[simp] theorem updEth_jr : (State.updEth s f).jr = s.jr := rfl
@[simp] theorem updEth_loopResyncs : (State.updEth s f).loopResyncs = s.loopResyncs := rfl
@[simp] theorem updEth_chans : (State.updEth s f).chans = s.chans := rfl
@[simp] theorem updEth_groups : (State.updEth s f).groups = s.groups := rfl
@[simp] theorem updEth_harts : (State.updEth s f).harts = s.harts := rfl
@[simp] theorem updEth_dio : (State.updEth s f).dio = s.dio := rfl
@[simp] theorem updEth_sup : (State.updEth s f).sup = s.sup := rfl
@[simp] theorem updEth_hs : (State.updEth s f).hs = s.hs := rfl
@[simp] theorem updEth_pair : (State.updEth s f).pair = s.pair := rfl
@[simp] theorem updEth_chains : (State.updEth s f).chains = s.chains := rfl
@[simp] theorem updEth_ingest : (State.updEth s f).ingest = s.ingest := rfl
@[simp] theorem updEth_cans : (State.updEth s f).cans = s.cans := rfl
@[simp] theorem updEth_ptp : (State.updEth s f).ptp = s.ptp := rfl
@[simp] theorem updEth_disp : (State.updEth s f).disp = s.disp := rfl
@[simp] theorem updEth_met : (State.updEth s f).met = s.met := rfl
@[simp] theorem updEth_mg : (State.updEth s f).mg = s.mg := rfl
@[simp] theorem updEth_trust : (State.updEth s f).trust = s.trust := rfl
@[simp] theorem updEth_fw : (State.updEth s f).fw = s.fw := rfl
end

section
variable (s : State) (p : Nat) (f : PtpPort → PtpPort)
@[simp] theorem updPtp_pending : (State.updPtp s p f).pending = s.pending := rfl
@[simp] theorem updPtp_regs : (State.updPtp s p f).regs = s.regs := rfl
@[simp] theorem updPtp_mem : (State.updPtp s p f).mem = s.mem := rfl
@[simp] theorem updPtp_staged : (State.updPtp s p f).staged = s.staged := rfl
@[simp] theorem updPtp_latch : (State.updPtp s p f).latch = s.latch := rfl
@[simp] theorem updPtp_rdata : (State.updPtp s p f).rdata = s.rdata := rfl
@[simp] theorem updPtp_free : (State.updPtp s p f).free = s.free := rfl
@[simp] theorem updPtp_sent : (State.updPtp s p f).sent = s.sent := rfl
@[simp] theorem updPtp_unit : (State.updPtp s p f).unit = s.unit := rfl
@[simp] theorem updPtp_role : (State.updPtp s p f).role = s.role := rfl
@[simp] theorem updPtp_tb : (State.updPtp s p f).tb = s.tb := rfl
@[simp] theorem updPtp_lat : (State.updPtp s p f).lat = s.lat := rfl
@[simp] theorem updPtp_tt : (State.updPtp s p f).tt = s.tt := rfl
@[simp] theorem updPtp_acc : (State.updPtp s p f).acc = s.acc := rfl
@[simp] theorem updPtp_jr : (State.updPtp s p f).jr = s.jr := rfl
@[simp] theorem updPtp_loopResyncs : (State.updPtp s p f).loopResyncs = s.loopResyncs := rfl
@[simp] theorem updPtp_chans : (State.updPtp s p f).chans = s.chans := rfl
@[simp] theorem updPtp_groups : (State.updPtp s p f).groups = s.groups := rfl
@[simp] theorem updPtp_harts : (State.updPtp s p f).harts = s.harts := rfl
@[simp] theorem updPtp_dio : (State.updPtp s p f).dio = s.dio := rfl
@[simp] theorem updPtp_sup : (State.updPtp s p f).sup = s.sup := rfl
@[simp] theorem updPtp_hs : (State.updPtp s p f).hs = s.hs := rfl
@[simp] theorem updPtp_pair : (State.updPtp s p f).pair = s.pair := rfl
@[simp] theorem updPtp_chains : (State.updPtp s p f).chains = s.chains := rfl
@[simp] theorem updPtp_ingest : (State.updPtp s p f).ingest = s.ingest := rfl
@[simp] theorem updPtp_cans : (State.updPtp s p f).cans = s.cans := rfl
@[simp] theorem updPtp_eth : (State.updPtp s p f).eth = s.eth := rfl
@[simp] theorem updPtp_disp : (State.updPtp s p f).disp = s.disp := rfl
@[simp] theorem updPtp_met : (State.updPtp s p f).met = s.met := rfl
@[simp] theorem updPtp_mg : (State.updPtp s p f).mg = s.mg := rfl
@[simp] theorem updPtp_trust : (State.updPtp s p f).trust = s.trust := rfl
@[simp] theorem updPtp_fw : (State.updPtp s p f).fw = s.fw := rfl
end

section
variable (s : State) (id : Nat) (f : Session → Session)
@[simp] theorem updSession_pending : (State.updSession s id f).pending = s.pending := rfl
@[simp] theorem updSession_regs : (State.updSession s id f).regs = s.regs := rfl
@[simp] theorem updSession_mem : (State.updSession s id f).mem = s.mem := rfl
@[simp] theorem updSession_staged : (State.updSession s id f).staged = s.staged := rfl
@[simp] theorem updSession_latch : (State.updSession s id f).latch = s.latch := rfl
@[simp] theorem updSession_rdata : (State.updSession s id f).rdata = s.rdata := rfl
@[simp] theorem updSession_free : (State.updSession s id f).free = s.free := rfl
@[simp] theorem updSession_sent : (State.updSession s id f).sent = s.sent := rfl
@[simp] theorem updSession_unit : (State.updSession s id f).unit = s.unit := rfl
@[simp] theorem updSession_role : (State.updSession s id f).role = s.role := rfl
@[simp] theorem updSession_tb : (State.updSession s id f).tb = s.tb := rfl
@[simp] theorem updSession_lat : (State.updSession s id f).lat = s.lat := rfl
@[simp] theorem updSession_tt : (State.updSession s id f).tt = s.tt := rfl
@[simp] theorem updSession_jr : (State.updSession s id f).jr = s.jr := rfl
@[simp] theorem updSession_loopResyncs : (State.updSession s id f).loopResyncs = s.loopResyncs := rfl
@[simp] theorem updSession_chans : (State.updSession s id f).chans = s.chans := rfl
@[simp] theorem updSession_groups : (State.updSession s id f).groups = s.groups := rfl
@[simp] theorem updSession_harts : (State.updSession s id f).harts = s.harts := rfl
@[simp] theorem updSession_dio : (State.updSession s id f).dio = s.dio := rfl
@[simp] theorem updSession_sup : (State.updSession s id f).sup = s.sup := rfl
@[simp] theorem updSession_hs : (State.updSession s id f).hs = s.hs := rfl
@[simp] theorem updSession_pair : (State.updSession s id f).pair = s.pair := rfl
@[simp] theorem updSession_chains : (State.updSession s id f).chains = s.chains := rfl
@[simp] theorem updSession_ingest : (State.updSession s id f).ingest = s.ingest := rfl
@[simp] theorem updSession_cans : (State.updSession s id f).cans = s.cans := rfl
@[simp] theorem updSession_eth : (State.updSession s id f).eth = s.eth := rfl
@[simp] theorem updSession_ptp : (State.updSession s id f).ptp = s.ptp := rfl
@[simp] theorem updSession_disp : (State.updSession s id f).disp = s.disp := rfl
@[simp] theorem updSession_met : (State.updSession s id f).met = s.met := rfl
@[simp] theorem updSession_mg : (State.updSession s id f).mg = s.mg := rfl
@[simp] theorem updSession_trust : (State.updSession s id f).trust = s.trust := rfl
@[simp] theorem updSession_fw : (State.updSession s id f).fw = s.fw := rfl
end

section
variable (s : State) (p : Nat) (f : NodeTx → NodeTx)
@[simp] theorem updTx_pending : (State.updTx s p f).pending = s.pending := rfl
@[simp] theorem updTx_regs : (State.updTx s p f).regs = s.regs := rfl
@[simp] theorem updTx_mem : (State.updTx s p f).mem = s.mem := rfl
@[simp] theorem updTx_staged : (State.updTx s p f).staged = s.staged := rfl
@[simp] theorem updTx_latch : (State.updTx s p f).latch = s.latch := rfl
@[simp] theorem updTx_rdata : (State.updTx s p f).rdata = s.rdata := rfl
@[simp] theorem updTx_free : (State.updTx s p f).free = s.free := rfl
@[simp] theorem updTx_sent : (State.updTx s p f).sent = s.sent := rfl
@[simp] theorem updTx_unit : (State.updTx s p f).unit = s.unit := rfl
@[simp] theorem updTx_role : (State.updTx s p f).role = s.role := rfl
@[simp] theorem updTx_tb : (State.updTx s p f).tb = s.tb := rfl
@[simp] theorem updTx_lat : (State.updTx s p f).lat = s.lat := rfl
@[simp] theorem updTx_tt : (State.updTx s p f).tt = s.tt := rfl
@[simp] theorem updTx_acc : (State.updTx s p f).acc = s.acc := rfl
@[simp] theorem updTx_jr : (State.updTx s p f).jr = s.jr := rfl
@[simp] theorem updTx_loopResyncs : (State.updTx s p f).loopResyncs = s.loopResyncs := rfl
@[simp] theorem updTx_chans : (State.updTx s p f).chans = s.chans := rfl
@[simp] theorem updTx_groups : (State.updTx s p f).groups = s.groups := rfl
@[simp] theorem updTx_harts : (State.updTx s p f).harts = s.harts := rfl
@[simp] theorem updTx_dio : (State.updTx s p f).dio = s.dio := rfl
@[simp] theorem updTx_sup : (State.updTx s p f).sup = s.sup := rfl
@[simp] theorem updTx_hs : (State.updTx s p f).hs = s.hs := rfl
@[simp] theorem updTx_pair : (State.updTx s p f).pair = s.pair := rfl
@[simp] theorem updTx_chains : (State.updTx s p f).chains = s.chains := rfl
@[simp] theorem updTx_ingest : (State.updTx s p f).ingest = s.ingest := rfl
@[simp] theorem updTx_cans : (State.updTx s p f).cans = s.cans := rfl
@[simp] theorem updTx_eth : (State.updTx s p f).eth = s.eth := rfl
@[simp] theorem updTx_ptp : (State.updTx s p f).ptp = s.ptp := rfl
@[simp] theorem updTx_disp : (State.updTx s p f).disp = s.disp := rfl
@[simp] theorem updTx_met : (State.updTx s p f).met = s.met := rfl
@[simp] theorem updTx_mg : (State.updTx s p f).mg = s.mg := rfl
@[simp] theorem updTx_trust : (State.updTx s p f).trust = s.trust := rfl
end

section
variable (s : State) (t : Nat)
@[simp] theorem toFrc_pending : (State.toFrc s t).pending = s.pending := by unfold State.toFrc; split <;> simp only [pass_pending]
@[simp] theorem toFrc_regs : (State.toFrc s t).regs = s.regs := by unfold State.toFrc; split <;> simp only [pass_regs]
@[simp] theorem toFrc_mem : (State.toFrc s t).mem = s.mem := by unfold State.toFrc; split <;> simp only [pass_mem]
@[simp] theorem toFrc_staged : (State.toFrc s t).staged = s.staged := by unfold State.toFrc; split <;> simp only [pass_staged]
@[simp] theorem toFrc_latch : (State.toFrc s t).latch = s.latch := by unfold State.toFrc; split <;> simp only [pass_latch]
@[simp] theorem toFrc_rdata : (State.toFrc s t).rdata = s.rdata := by unfold State.toFrc; split <;> simp only [pass_rdata]
@[simp] theorem toFrc_free : (State.toFrc s t).free = s.free := by unfold State.toFrc; split <;> simp only [pass_free]
@[simp] theorem toFrc_sent : (State.toFrc s t).sent = s.sent := by unfold State.toFrc; split <;> simp only [pass_sent]
@[simp] theorem toFrc_unit : (State.toFrc s t).unit = s.unit := by unfold State.toFrc; split <;> simp only [pass_unit]
@[simp] theorem toFrc_role : (State.toFrc s t).role = s.role := by unfold State.toFrc; split <;> simp only [pass_role]
@[simp] theorem toFrc_lat : (State.toFrc s t).lat = s.lat := by unfold State.toFrc; split <;> simp only [pass_lat]
@[simp] theorem toFrc_tt : (State.toFrc s t).tt = s.tt := by unfold State.toFrc; split <;> simp only [pass_tt]
@[simp] theorem toFrc_acc : (State.toFrc s t).acc = s.acc := by unfold State.toFrc; split <;> simp only [pass_acc]
@[simp] theorem toFrc_jr : (State.toFrc s t).jr = s.jr := by unfold State.toFrc; split <;> simp only [pass_jr]
@[simp] theorem toFrc_loopResyncs : (State.toFrc s t).loopResyncs = s.loopResyncs := by unfold State.toFrc; split <;> simp only [pass_loopResyncs]
@[simp] theorem toFrc_chans : (State.toFrc s t).chans = s.chans := by unfold State.toFrc; split <;> simp only [pass_chans]
@[simp] theorem toFrc_groups : (State.toFrc s t).groups = s.groups := by unfold State.toFrc; split <;> simp only [pass_groups]
@[simp] theorem toFrc_harts : (State.toFrc s t).harts = s.harts := by unfold State.toFrc; split <;> simp only [pass_harts]
@[simp] theorem toFrc_dio : (State.toFrc s t).dio = s.dio := by unfold State.toFrc; split <;> simp only [pass_dio]
@[simp] theorem toFrc_sup : (State.toFrc s t).sup = s.sup := by unfold State.toFrc; split <;> simp only [pass_sup]
@[simp] theorem toFrc_hs : (State.toFrc s t).hs = s.hs := by unfold State.toFrc; split <;> simp only [pass_hs]
@[simp] theorem toFrc_pair : (State.toFrc s t).pair = s.pair := by unfold State.toFrc; split <;> simp only [pass_pair]
@[simp] theorem toFrc_chains : (State.toFrc s t).chains = s.chains := by unfold State.toFrc; split <;> simp only [pass_chains]
@[simp] theorem toFrc_ingest : (State.toFrc s t).ingest = s.ingest := by unfold State.toFrc; split <;> simp only [pass_ingest]
@[simp] theorem toFrc_cans : (State.toFrc s t).cans = s.cans := by unfold State.toFrc; split <;> simp only [pass_cans]
@[simp] theorem toFrc_eth : (State.toFrc s t).eth = s.eth := by unfold State.toFrc; split <;> simp only [pass_eth]
@[simp] theorem toFrc_ptp : (State.toFrc s t).ptp = s.ptp := by unfold State.toFrc; split <;> simp only [pass_ptp]
@[simp] theorem toFrc_disp : (State.toFrc s t).disp = s.disp := by unfold State.toFrc; split <;> simp only [pass_disp]
@[simp] theorem toFrc_met : (State.toFrc s t).met = s.met := by unfold State.toFrc; split <;> simp only [pass_met]
@[simp] theorem toFrc_mg : (State.toFrc s t).mg = s.mg := by unfold State.toFrc; split <;> simp only [pass_mg]
@[simp] theorem toFrc_trust : (State.toFrc s t).trust = s.trust := by unfold State.toFrc; split <;> simp only [pass_trust]
@[simp] theorem toFrc_fw : (State.toFrc s t).fw = s.fw := by unfold State.toFrc; split <;> simp only [pass_fw]
end

@[simp] theorem setTod_frc (s : State) (u : Nat) : (s.setTod u).tb.frc = s.tb.frc := by
  unfold State.setTod; rfl

@[simp] theorem pass_frc (s : State) (n : Nat) : (s.pass n).tb.frc = (s.tb.frc + n) % 2 ^ 64 := by
  unfold State.pass
  simp only [setTod_frc]

/-- Setting TOD changes nothing but the time base. -/
theorem setTod_only (s : State) (u : Nat) : ∃ x, s.setTod u = { s with tb := x } := by
  unfold State.setTod; exact ⟨_, rfl⟩

/-- Time that passes changes nothing but the time base. -/
theorem pass_only (s : State) (n : Nat) : ∃ x, s.pass n = { s with tb := x } := by
  unfold State.pass
  obtain ⟨x, hx⟩ := setTod_only s (s.todUnits + n * s.incUnits)
  simp only [hx]
  exact ⟨_, rfl⟩

end Sys2Proof.Laws
end

