-- ==== Sys2Proof/Tests/Slice0.lean ====
section
/-! SUPPORT. Tests of the model on fixed values, the checks of WellFormed.lean refused one by one, and for every statement with hypotheses a witness
that meets them: one theorem per statement, with one conjunct per clause. -/

set_option Elab.async false

namespace Sys2Proof.Tests

open Sys2Proof Sys2Proof.Machine Sys2Proof.Safety

set_option exponentiation.threshold 1000
set_option maxRecDepth 4000
set_option linter.unusedVariables false

/-! ### Small states and messages -/

def wStop : State := { State.reset with regs := [], unit := .stop }
def wLock : State := { wStop with acc := { wStop.acc with lock := some { session := 1, minutes := 5, lastUse := 0 } } }
def wRun : State := { wStop with unit := .run }
theorem wStop_sound : Sound wStop := ⟨by decide, by decide, by decide, by decide, by decide⟩
def wEnded : State :=
  { wRun with regs := [(R.LT_MAP_X.key 0 0, 1)], lat := { wRun.lat with sealed := some 0, tiles := (List.range 36).map (fun k => { Tile.reset with ended := if k = 1 then none else some 0 }) } }
def wRing (dir : Nat) : State := { wRun with lat := { wRun.lat with rings := List.replicate 127 Ring.reset ++ [{ Ring.reset with depth := 4, dir, owner := 3 }] } }
def wFull : State :=
  { wRun with lat := { wRun.lat with rings := List.replicate 127 Ring.reset ++ [{ Ring.reset with depth := 1, dir := 0, owner := 3, entries := [{ at_ := 0, data := [] }] }] } }
def wSigner : Signer := { formOk := true, kind := 1, key := 0, delegate := 0, sigOk := true, target := 0, fik := none }
def wImage : Image :=
  { wellFormed := true, hashesOk := true, signer := wSigner, kind := 4, id := 1, ver := 1, baseId := 0, baseVerMin := 0, baseVerMax := 0,
    layoutDigest := 0, digestSelf := 0, totalLen := 0, minHwRev := 0,
    decl := { period := 100, subframes := 1, inEnd := 4000, execStart := 0, outStart := 40, outEnd := 4000, exStart := 0, cutOver := 0, marker := 0 },
    shared := { pair := 0, exAddr := 0, exSize := 0, retAddr := 0x100, retSize := 32, retBound := 0 }, bankmap := [], rings := [], params := [],
    limits := [], chans := [], mirrors := [], code := [], data := [], bankInit := [], engine := [], slotPlan := [], reloc := [], paramSet := [],
    limitSet := [], mapSet := [], flags := 0, toolId := 0, toolVer := 0, buildSec := 0, sects := [] }
def wXfer : State := { wRun with tt := { wRun.tt with base := some wImage } }
def wRet : State := wXfer
def wLoop : State := { wRun with mem := [(0x03020000, 1)] }
def wSolve : State :=
  { wRun with mem := [(0x01000000, 1), (0x01000001, 1), (0x01000004, 1), (0x01000006, 1), (0x01000017, 1), (0x01000016, 16), (0x01000018, 32), (0x0100001C, 32), (0x01000021, 1), (0x01000022, 16), (0x01000023, 1), (0x01000024, 32), (0x01000028, 32), (0x0100003C, 1), (0x0100004C, 43), (0x0100004D, 1)] }
def wStart : State := { wStop with regs := [(R.TT_ADMITTED_VALID.key 0 0, 1)], tt := { wStop.tt with base := some wImage, slot0 := some wImage, starting := some 0 } }
def wPut (r l : List (Nat × Nat)) : List (Nat × Nat) := l.foldl (fun r x => alPut (2 ^ 70) r x.1 x.2) r
def wR (l : List (Nat × Nat)) : State := { wStop with regs := wPut [] l }
def wSwitch : Switch := { active := 0, mirror := 0, delta := [], hash := 0, frame := none, proposed := false, written := 0, at_ := 0 }
def wChan (mode : Nat) (l : List (Nat × Nat)) : State :=
  { wStop with regs := wPut [] ((R.CH_CFG_MODE.key 11 7, mode) :: l), groups := List.replicate 12 { Group.reset with supply := true } }
def wMeas : Meas := { mean := 0, atEnd := 0, lead := 0, termV := 0, t0 := 0, t7 := 0, board := 0, limit := false, rail := false, stuck := false }
def wReq : HartReq := { session := 1, tag := 2, entry := none, address := 0, command := 0, data := [], queued := 0 }
def wMsg : HartMsg := { address := 0, command := 0, comm := 0, status := 0, data := [] }
def wHartWith (h : Hart) (l : List (Nat × Nat)) : State :=
  { wR ((R.CH_CFG_MODE.key 11 7, 9) :: (R.CH_CFG_HART_EN.key 11 7, 1) :: l) with harts := List.replicate 95 Hart.reset ++ [h] }
def wHart : State := wHartWith { Hart.reset with polls := [{ address := 0, command := 0, period := 1, last := none }] } []
def wHartQ : State := wHartWith { Hart.reset with queue := [wReq] } [(R.FG_STATUS_FALLBACK.key 11 0, 0)]
def wHartC : State := wHartWith { Hart.reset with cur := some wReq } [(R.HART_STATUS_STATE.key 11 7, 2)]
def wDioBad : State := { wStop with dio := { wStop.dio with applying := true }, staged := [(R.DIO_IN_CFG_TH_ON.key 0 0, 0)] }
def wChain (l : List (Nat × Nat)) : State :=
  wR ((R.CH_CTRL_EN.key 7 0, 1) :: (R.CH_CTRL_RING.key 6 0, 0) :: (R.CH_CTRL_N.key 7 0, 10) :: (R.CH_SWEEP_PERIOD_F.key 7 0, 1) :: (R.CH_SWEEP_SRC.key 7 0, 1) :: l)
def wChainW (c : ChainPort) : State := { wChain [] with chains := List.replicate 7 ChainPort.reset ++ [c] }
def wSw : Sweep :=
  { q := 1, frc := 0, pub := 0, close := 1000000, split := false, readout := true, got := [], retried := [], lastHome := 0, lastFar := 0, brokeHome := false, brokeFar := false, sampleFar := false, closed := false, sec := 0, ns := 0 }
def wSweep (w : Sweep) : State := wChainW { ChainPort.reset with sweep := some w }
def wData : ChainData := { far := false, pos := 10, seq := 0, nstat := 0, qflag := 0, cells := [], temps := [], crcOk := true }
def wCmd : ChainCmd := { session := 1, tag := 1, op := 0, code := 4, h := 10, payload := [] }
def wResp : ChainResp := { far := false, code := 0x80, pos := 10, payload := [], rt := 0 }
def wChainQ : State :=
  { wR [(R.CH_CTRL_N.key 7 0, 10), (R.CH_BREAK_A.key 7 0, 0xFFFF), (R.CH_CTRL_EN.key 7 0, 1), (R.CH_CTRL_RING.key 6 0, 0), (R.CH_STATUS_STATE.key 7 0, csRunning), (R.CH_SWEEP_PERIOD_F.key 7 0, 0)] with chains := List.replicate 7 ChainPort.reset ++ [{ ChainPort.reset with queue := [wCmd] }] }
def wChainC : State := wChainW { ChainPort.reset with sentCmd := some wCmd }
def wChainBad : State := { wR [(R.CH_STATUS_APPLY_PENDING.key 7 0, 1), (R.CH_SWEEP_PERIOD_F.key 7 0, 0)] with staged := [(R.CH_CTRL_EN.key 7 0, 1)] }
def wFollow : State := { wStop with role := .standby }
def wCanMsg : CanMsg := { idw := 5, ctrl := 0, data := [] }
def wCan (st : Nat) (c : CanPort) (l : List (Nat × Nat)) : State := { wR ((R.CF_STATUS_STATE.key 7 0, st) :: l) with cans := List.replicate 7 CanPort.reset ++ [c] }
def wFrame : CanFrame := { id := 1, ide := false, rtr := false, fdf := false, brs := false, esi := false, dlc := 0, data := [], age := 0, res := false }
def wEth : EthFrame :=
  { dst := 2, src := 3, tag := none, etype := 0x0800, len := 64, ptpEvent := false, supervision := false, redSeq := none, an := none, pn := 0, icvOk := true, payload := [] }
def wPort : State :=
  wR [(R.ES_CTRL_EN.key 0 0, 1), (R.ES_PORT_CFG_EN.key 6 0, 1), (R.ES_PORT_CFG_LINK.key 6 0, 1), (R.ES_PORT_CFG_EN.key 3 0, 1), (R.ES_PORT_CFG_LINK.key 3 0, 1), (R.ES_CTRL_RED_MODE.key 0 0, 0)]
def wSec : State := { wR [(R.ES_MACSEC_KEY_OK.key 3 0, 1)] with trust := { wStop.trust with peers := [{ port := 3, serial := 1, ended := none }] } }
def wRoute : State := { wStop with mem := [(Config.routeBase, 1), (Config.routeBase + 2, 5)] }
def wRouteIn : State := { wR [(R.ES_PLANT.key 0 0, 9)] with mem := [(Config.routeBase, 3), (Config.routeBase + 8, 7)] }
def wFab : FabricFrame := { version := 1, kind := 0, src := 7, dst := 9, route := 0, seq := 0, entries := [] }
def wRouteOut : State :=
  { wR [(R.CH_ING_OUT_EN.key 7 0, 1), (R.CH_SWEEPS.key 7 0, 1), (R.CH_ING_OUT_DEST.key 7 0, 7)] with mem := [(Config.routeBase, 5), (Config.routeBase + 8, 7)] }
def wPtp : State := wR [(R.PT_CTRL_EN.key 0 0, 1), (R.PT_PORT_EN.key 3 0, 1), (R.PT_CTRL_TWO_STEP.key 0 0, 0)]
def wPairImg : Image := { wImage with shared := { wImage.shared with pair := 1 } }
def wPair (u : UnitState) (r : Role) (l : List (Nat × Nat)) : State :=
  { wR ((R.PA_CFG_EN.key 0 0, 1) :: l) with unit := u, role := r, tt := { wStop.tt with base := some wPairImg } }
def wInfo : PartnerInfo :=
  { hasPartner := false, baseId := 1, baseVer := 1, slots := [], period := 100000, exAddr := 0, exSize := 0, exStart := 0, capable := true, cfgHash := 0, busy := false }
def wExch : ExchMsg := { ok := true, unit := 1, flags := 0, frameNo := 0, tick := 0, handoverFrame := 0, can := [], intake := [], switch := none, region := [] }
def wDig : DigestMsg :=
  { unit := 1, role := 0, flags := 0, frameNo := 0, digest := 0, tx := 0, rxPrev := 0, nextTick := 0, todSec := 0, todNs := 0, todFrac := 0, imgId := 0, imgVer := 0, ckpt := [], rx := 0 }
def wFinal : XferFinal := { granules := [], dabs := [], counts := [], active := 0, mirror := 0, frameNo := 0, pairTick := 0, canSeq := [], sweeps := [] }
def wJoining : State := { wPair .stop .solo [] with pair := { wStop.pair with joining := true, xferAt := some 0 } }
def wSession (lv : Level) : Session :=
  { id := 1, level := lv, cred := 0, carrier := .service, source := 0, hello := true, classes := 0, queue := [], lastRx := 0, keyFrc := 0, records := 0, reopen := none, challenge := none, cand := false, key := 0, unchecked := false }
def wAcc (lv : Level) : State := { wStop with acc := { wStop.acc with sessions := [wSession lv], lock := some { session := 1, minutes := 5, lastUse := 0 } } }
def wOwn : State := wAcc .owner
def wMetS : State := wAcc .metrology
def wReq1 : Req := { session := 1, tag := 7, badPid := 0 }
def wRect : Rect := { x := 0, y := 64, w := 4, h := 1, wave := 1, ticket := 0, pixels := [0], since := none, silent := false, legal := false, vals := [] }
def wFlight : Flight := { rect := wRect, done := 0 }
def wMeter : MeterIn := { us := 0, ac := [], dc := [], pulses := [] }
def wHsWait : State := { wStop with unit := .boot }
def wJEnt : JEntry := { seq := 0, source := 0, event := .halt, frc := 0, sec := 0, ns := 0, frac := 0, session := 0, cred := 0, data := [] }
def wMet : State := { wStop with met := { wStop.met with powered := true } }
def wBoot : BootIn := { puf := true, drift := false, record := true, cold := false, bad := [], partner := wInfo }
def wCredCand : Cred := { key := 4, signer := 4, sigOk := true, fingerprint := 9, ou := .other, notBefore := 0, notAfter := 0, serial := 0 }
def wHsIn : Handshake := { carrier := .service, source := 0, tlsOk := true, cred := some wCredCand, peer := none }
def wCand : State := { wStop with acc := { wStop.acc with sessions := [{ wSession .observer with cand := true, key := 4 }] } }
def wOwned : State := { wOwn with trust := { wOwn.trust with owner := some 4 } }
def wRevoked : State := { wOwn with trust := { wOwn.trust with revoked := List.replicate 1025 1 } }
def wImageFw : FwImage := { vendor := wSigner, outer := wSigner, ver := 3, hash := 5, len := 0, body := [], config := [] }
def wXferEnd : State := { wOwn with acc := { wOwn.acc with transfers := [{ session := 1, target := 3, length := 4, hash := 0, chunks := [] }] } }
def wStaged (p : Nat) : State :=
  { wOwn with regs := wPut wOwn.regs [(R.BT_PART_B_OK.key p 0, 1), (R.BT_PART_ACTIVE.key p 0, 0)], fw := { wOwn.fw with banks := wOwn.fw.banks.set p (none, some wImageFw) } }
def wSched : State := wR [(R.BT_PART_PENDING.key 3 0, 1)]
def wRec : State := { wStop with unit := .recovery, regs := wPut [] [(R.BT_STATUS_FAILED_PARTS.key 0 0, 2)] }
def wRecX : State := { wRec with fw := { wRec.fw with recXfer := some { part := 1, bank := 0, len := 1, data := [], at_ := 0 } } }
def wForwarding : State :=
  { wStop with fw := { wStop.fw with forward := some { part := 1, plants := [5], pos := 0, at_ := 0, session := 1, tag := 1 } }, tb := { wStop.tb with frc := 12000000000 } }
def wXferFull : State :=
  { wOwn with acc := { wOwn.acc with transfers := [{ session := 1, target := 3, length := 0, hash := Config.sha384 [], chunks := [] }] }, trust := { wOwn.trust with owner := some 0 } }
def wXferHash : State :=
  { wOwn with acc := { wOwn.acc with transfers := [{ session := 1, target := 3, length := 0, hash := Config.sha384 [] + 1, chunks := [] }] }, trust := { wOwn.trust with owner := some 0 } }
def wImage2 : Image := { wImage with signer := { wSigner with kind := 2 } }
def wRecE : State := { wRec with fw := { wRec.fw with recXfer := some { part := 1, bank := 0, len := 0, data := [], at_ := 0 } } }
def wModeS (st : Nat) : State := { wOwn with regs := [(R.TT_MODE_STATUS_STATE.key 0 0, st)] }
def wRunS : State := { wOwn with unit := .run }
def wRecd : MgRecord := { data := [], frc := 0, sec := 0, ns := 0, frac := 0 }
def wArm : State := { wModeS 2 with tt := { wOwn.tt with switch := some wSwitch } }
def wRingS (dir : Nat) : State := { wOwn with lat := (wRing dir).lat }
def wChainS : State := { wChainQ with acc := wOwn.acc }
def wLocked : State := { wOwn with regs := [(R.SE_STATUS_FIELD_LOCK.key 0 0, 1)] }
def wPw : State := { wLocked with acc := { wLocked.acc with pwHash := some (Config.pwVerifier []) } }
def wHandS : State := { wPair .run .active [(R.PA_STATUS_PARTNER_ROLE.key 0 0, 3)] with acc := wOwn.acc }
def wSpareS : State := { wChan 1 [((convState 8).key 11 0, 1), (R.FG_STATUS_FALLBACK.key 11 0, 0)] with acc := wOwn.acc }
def wFullQ : State := { wOwn with acc := { wOwn.acc with sessions := [{ wSession .owner with queue := List.replicate 16 { op := 0x0102, tag := 0, reply := none } }] } }
def wOutOn : State := { wRun with dio := { wStop.dio with drive := 2 ^ 31 } }
def wPtpD : State :=
  wR [(R.PT_CTRL_EN.key 0 0, 1), (R.PT_PORT_EN.key 3 0, 1), (R.PT_CTRL_TWO_STEP.key 0 0, 0), (R.PT_CTRL_SLAVE_ONLY.key 0 0, 0), (R.PT_CTRL_ROLE.key 0 0, 0), (R.PT_CTRL_P2P.key 0 0, 0), (R.PT_CTRL_PROFILE.key 0 0, 0)]

/-! ### Well-formed commands: each check of WellFormed.lean refuses a term that fails it alone -/

def allWf (l : List Instr) : Bool := l.all Instr.wf

def noneWf (l : List Instr) : Bool := l.all (fun i => !i.wf)

theorem test_wf_accepts_1 : allWf [
  .feedOutOfRange 0 0, .feedOvervoltage 0, .feedReconnect 0 0, .lgConfigWrite 0 0 0, .lgMemberWrite 0 0, .lgOneShotArm 0, .lgFire 0 [], .ppsInEdge 0,
   .aluOp ⟨3, 40⟩ (.imm 1 2), .satOp ⟨3, 40⟩ (.neg 1 2), .mul ⟨3, 40⟩ 0 0 0 0, .mac ⟨3, 40⟩ 0 0 0, .accrd ⟨3, 40⟩ 0 0 0, .div ⟨3, 40⟩ 0 0 0 0,
   .sqrt ⟨3, 40⟩ 0 0 0, .br ⟨3, 40⟩ 0 0, .loopn ⟨3, 40⟩ 0 0 0, .wait ⟨3, 40⟩ 0, .endf ⟨3, 40⟩, .lld ⟨3, 40⟩ 0 0 0 .clean, .lst ⟨3, 40⟩ 0 0 0,
   .recv ⟨3, 40⟩ 0 0 0 (.g 1) .clean, .sld ⟨3, 40⟩ ⟨0, 0, false⟩ 0 0 (.g 1) .clean, .sst ⟨3, 40⟩ ⟨0, 0, false⟩ 0 0 (.g 1) .clean,
   .send ⟨3, 40⟩ ⟨0, 0, false⟩ 0 0 (.g 1) .clean, .rpoll ⟨3, 40⟩ 0 0, .renq ⟨3, 40⟩ 0 0 0 .clean, .ecall ⟨3, 40⟩ ⟨0, 0, false⟩ .loop 0 [] 0 false,
   .xstart ⟨3, 40⟩ ⟨0, 0, false⟩ (.dioIn 0) [], .dabs ⟨3, 40⟩ ⟨0, 0, false⟩ 0 .clean, .dseal ⟨3, 40⟩ ⟨0, 0, false⟩, .fcm ⟨3, 40⟩,
   .mgmtRingEnqueue 0 [], .portbBankWrite 0 [] 0, .ttAdmStart 0 0, .ltRelocCheck 0 0, .tileShadow 0 0 .clean, .tileShadowCompare 0, .ttRunStart 0,
   .lpWinRead 0, .svWinRead 0, .conversionWindowEnd 0 wMeas, .fieldControlFrame 0 false, .groupFallbackEntry 0, .groupResume 0, .groupSupplyFail 0,
   .fgApply 0, .fgApplyCancel 0, .fgApplyTakesEffect 0, .crossCheckVisit 0 0 false, .fgSpareStart 0 0, .fgSpareCancel 0, .spareTakeover 0,
   .chFlagsWrite 0 0, .hartPollDue 0 0, .hartFrameStart 0 false, .hartResponseRx 0 wMsg, .hartResponseTimeout 0, .hartRequestExpired 0,
   .hartBurstRx 0 wMsg] = true := by decide

theorem test_wf_accepts_2 : allWf [
  .doCurrentLimit 0 .limit, .doThermalRestart 0, .fieldSupplyLow 0 false, .chApply 0, .chCancel 0, .chainApplyTakesEffect 0, .chDiscover 0,
   .chainDiscoveryStart 0, .discoveryComplete 0, .chWake 0, .chSleep 0, .chFaultClr 0, .quietSend 0 false, .sampleStrobe 0, .readoutSend 0,
   .dataFrameRx 0 wData, .chainRetrySend 0 false 0 0, .chainBreak 0 false, .sweepClose 0, .sweepPublish 0, .keep 0, .chainQueueSend 0,
   .chainResponseRx 0 wResp, .faultLineChange 0 0, .chainFaultTrip 0, .ingestSend 0, .nodeImageSend 0, .canFrameRx 0 wFrame, .canTxRecord 0 none,
   .canTxStart 0 0, .canTxComplete 0 .ok, .canBusOff 0, .cfRecover 0 false, .canRecoveryComplete 0, .cfTxbAbort 0 0, .cfApply 0, .cfCancel 0,
   .cfApplyTakesEffect 0, .canServiceSegmentRx 0 [], .canServiceGapTimeout 0, .ethFrameRx 0 wEth, .ethFrameTx 0, .routeEntryDrain 0,
   .fabricFrameSend 0, .macsecRekey 0, .macsecOldAssociationExpiry 0, .peerSessionKeyExpiry 0, .ptpMessageRx 0 0 (.announce 0 0),
   .ptpMessageTx 0 .announce, .partnerLinkChange 0 false, .gatedRingMirrorRx 0 [], .undefinedOpcode ⟨1, 7, 0⟩ 0, .hello ⟨1, 7, 0⟩ 0 [],
   .ping ⟨1, 7, 0⟩, .status ⟨1, 7, 0⟩, .subscribe ⟨1, 7, 0⟩ 0, .versions ⟨1, 7, 0⟩, .bye ⟨1, 7, 0⟩, .modeRead ⟨1, 7, 0⟩, .modePrepare ⟨1, 7, 0⟩ 0] = true := by decide

theorem test_wf_accepts_3 : allWf [
  .modeArm ⟨1, 7, 0⟩ (.frc 0), .modeStatus ⟨1, 7, 0⟩, .modeCancel ⟨1, 7, 0⟩, .slotRename ⟨1, 7, 0⟩ 0 [], .slotClear ⟨1, 7, 0⟩ 0, .start ⟨1, 7, 0⟩ 0,
   .stop ⟨1, 7, 0⟩, .lrst ⟨1, 7, 0⟩, .runStatus ⟨1, 7, 0⟩, .admitCmd ⟨1, 7, 0⟩ 0 0, .admitStatus ⟨1, 7, 0⟩, .autorun ⟨1, 7, 0⟩ 0,
   .retExport ⟨1, 7, 0⟩, .retImport ⟨1, 7, 0⟩ 0 [], .retClear ⟨1, 7, 0⟩, .ringPut ⟨1, 7, 0⟩ 0 [], .ringGet ⟨1, 7, 0⟩ 0 0, .dataRead ⟨1, 7, 0⟩ 0 0,
   .xferBegin ⟨1, 7, 0⟩ 0 0 0, .xferChunk ⟨1, 7, 0⟩ 0 [], .xferEnd ⟨1, 7, 0⟩ .unreadable, .xferAbort ⟨1, 7, 0⟩, .updateSchedule ⟨1, 7, 0⟩ 0 (.frc 0),
   .updateActivate ⟨1, 7, 0⟩ 0, .updateStatus ⟨1, 7, 0⟩, .updateForward ⟨1, 7, 0⟩ 0 [], .bankSelect ⟨1, 7, 0⟩ 0 0, .cfgRead ⟨1, 7, 0⟩ 0 0,
   .cfgWrite ⟨1, 7, 0⟩ [], .cfgApply ⟨1, 7, 0⟩ 0, .cfgCancel ⟨1, 7, 0⟩ 0, .cfgSave ⟨1, 7, 0⟩, .chanRead ⟨1, 7, 0⟩ 0, .netCfg ⟨1, 7, 0⟩ 0 0 0 0 0,
   .trimSet ⟨1, 7, 0⟩ 0 0 0, .hartPass ⟨1, 7, 0⟩ 0 0 0 [], .hartRead ⟨1, 7, 0⟩ 0, .hartPollSet ⟨1, 7, 0⟩ 0 [], .canRecover ⟨1, 7, 0⟩ 0 0,
   .canSend ⟨1, 7, 0⟩ 0 [], .flagClear ⟨1, 7, 0⟩ 0 0, .timeRead ⟨1, 7, 0⟩, .todSet ⟨1, 7, 0⟩ 0 0 0 0, .incSet ⟨1, 7, 0⟩ 0 0, .servoCfg ⟨1, 7, 0⟩ 0 0,
   .lgArm ⟨1, 7, 0⟩ 0 (.frc 0), .refSelect ⟨1, 7, 0⟩ 0, .pairStatus ⟨1, 7, 0⟩, .join ⟨1, 7, 0⟩ wInfo, .leave ⟨1, 7, 0⟩, .handover ⟨1, 7, 0⟩ 0,
   .pairCancel ⟨1, 7, 0⟩, .pairCfg ⟨1, 7, 0⟩ 0 0 0, .chainStatus ⟨1, 7, 0⟩ 0, .chainPass ⟨1, 7, 0⟩ 0 0 0 [], .chainDiscover ⟨1, 7, 0⟩ 0,
   .chainWake ⟨1, 7, 0⟩ 0, .chainSleep ⟨1, 7, 0⟩ 0, .balSet ⟨1, 7, 0⟩ 0 0 0 [], .chainFaultClr ⟨1, 7, 0⟩ 0] = true := by decide

theorem test_wf_accepts_4 : allWf [
  .slotRead ⟨1, 7, 0⟩ 0 0 none, .nodeStatus ⟨1, 7, 0⟩ 0 0, .metStatus ⟨1, 7, 0⟩, .metRecords ⟨1, 7, 0⟩ 0 0, .metAudit ⟨1, 7, 0⟩ 0 0,
   .metCert ⟨1, 7, 0⟩, .metAlarmAck ⟨1, 7, 0⟩, .whoami ⟨1, 7, 0⟩, .lockOpen ⟨1, 7, 0⟩ 0, .lockClose ⟨1, 7, 0⟩, .fieldLock ⟨1, 7, 0⟩ 0,
   .reopenPw ⟨1, 7, 0⟩ [] 0, .challenge ⟨1, 7, 0⟩ 0, .response ⟨1, 7, 0⟩ [], .pwSet ⟨1, 7, 0⟩ [], .lockoutRead ⟨1, 7, 0⟩, .lockoutReset ⟨1, 7, 0⟩,
   .indRect ⟨1, 7, 0⟩ 0 0 0 0 [], .indStatus ⟨1, 7, 0⟩, .indClear ⟨1, 7, 0⟩, .countersRead ⟨1, 7, 0⟩ 0, .countersClear ⟨1, 7, 0⟩ 0,
   .journalRead ⟨1, 7, 0⟩ 0 0, .sparesRead ⟨1, 7, 0⟩, .spareSwitch ⟨1, 7, 0⟩ 0 0 0, .relocate ⟨1, 7, 0⟩ 0 0 0, .shadowSet ⟨1, 7, 0⟩ 0 0,
   .regRead ⟨1, 7, 0⟩ 0 0, .regWrite ⟨1, 7, 0⟩ 0 0, .selftest ⟨1, 7, 0⟩ none, .routeCounters ⟨1, 7, 0⟩ 0, .idCert ⟨1, 7, 0⟩,
   .ownTake ⟨1, 7, 0⟩ 0 0 false, .ownRelease ⟨1, 7, 0⟩ 0, .credRevoke ⟨1, 7, 0⟩ [], .credUnrevoke ⟨1, 7, 0⟩ [], .credList ⟨1, 7, 0⟩,
   .memberCertSet ⟨1, 7, 0⟩ wCredCand [], .peerBind ⟨1, 7, 0⟩ 0, .floorSet ⟨1, 7, 0⟩ 0 0 0, .floorRead ⟨1, 7, 0⟩, .zeroise ⟨1, 7, 0⟩ 0 0,
   .tamperCfg ⟨1, 7, 0⟩ 0, .tamperRead ⟨1, 7, 0⟩, .tamperInput 0 false, .updateActivation 0, .ssTripCmd 0, .ssTripLatchReset 0,
   .wearEvaluation 0 0 0 0 false, .hsSwitchStart 0 0, .switchInCommit 0, .rowSpareCopy 0, .hsClearGo 0 0, .groupSupplyReturn 0, .portLinkChange 0 0,
   .canBusError 0 0 false false 0, .farEndCommandRx 0 false 0, .partRestartComplete 0 wInfo] = true := by decide

theorem test_wf_refuses_1 : noneWf [
  .feedOutOfRange 2 0, .feedOvervoltage 2, .feedReconnect 2 0, .lgConfigWrite 32 0 0, .lgConfigWrite 0 32 0, .lgMemberWrite 512 0, .lgOneShotArm 32,
   .lgFire 32 [], .ppsInEdge 32, .aluOp ⟨32, 40⟩ (.imm 1 2), .satOp ⟨32, 40⟩ (.neg 1 2), .mul ⟨32, 40⟩ 0 0 0 0, .mac ⟨32, 40⟩ 0 0 0,
   .accrd ⟨32, 40⟩ 0 0 0, .div ⟨32, 40⟩ 0 0 0 0, .sqrt ⟨32, 40⟩ 0 0 0, .br ⟨32, 40⟩ 0 0, .loopn ⟨32, 40⟩ 0 0 0, .wait ⟨32, 40⟩ 0, .endf ⟨32, 40⟩,
   .lld ⟨32, 40⟩ 0 0 0 .clean, .lst ⟨32, 40⟩ 0 0 0, .recv ⟨32, 40⟩ 0 0 0 (.g 1) .clean, .sld ⟨32, 40⟩ ⟨0, 0, false⟩ 0 0 (.g 1) .clean,
   .sst ⟨32, 40⟩ ⟨0, 0, false⟩ 0 0 (.g 1) .clean, .send ⟨32, 40⟩ ⟨0, 0, false⟩ 0 0 (.g 1) .clean, .rpoll ⟨32, 40⟩ 0 0, .renq ⟨32, 40⟩ 0 0 0 .clean,
   .ecall ⟨32, 40⟩ ⟨0, 0, false⟩ .loop 0 [] 0 false, .xstart ⟨32, 40⟩ ⟨0, 0, false⟩ (.dioIn 0) [], .dabs ⟨32, 40⟩ ⟨0, 0, false⟩ 0 .clean,
   .dseal ⟨32, 40⟩ ⟨0, 0, false⟩, .fcm ⟨32, 40⟩, .mgmtRingEnqueue 128 [], .portbBankWrite 0 [] 8, .ttAdmStart 32 0, .ttAdmStart 0 2,
   .ltRelocCheck 32 0, .ltRelocCheck 0 64, .tileShadow 32 0 .clean, .tileShadow 0 36 .clean, .tileShadowCompare 36, .ttRunStart 4, .lpWinRead 8,
   .svWinRead 8] = true := by decide

theorem test_wf_refuses_2 : noneWf [
  .conversionWindowEnd 96 wMeas, .fieldControlFrame 12 false, .groupFallbackEntry 12, .groupResume 12, .groupSupplyFail 12, .fgApply 12,
   .fgApplyCancel 12, .fgApplyTakesEffect 12, .crossCheckVisit 12 0 false, .fgSpareStart 12 0, .fgSpareStart 0 8, .fgSpareCancel 12,
   .spareTakeover 12, .chFlagsWrite 96 0, .hartPollDue 96 0, .hartPollDue 0 16, .hartFrameStart 96 false, .hartResponseRx 96 wMsg,
   .hartResponseTimeout 96, .hartRequestExpired 96, .hartBurstRx 96 wMsg, .doCurrentLimit 32 .limit, .doThermalRestart 32, .fieldSupplyLow 2 false,
   .chApply 8, .chCancel 8, .chainApplyTakesEffect 8, .chDiscover 8, .chainDiscoveryStart 8, .discoveryComplete 8, .chWake 8, .chSleep 8,
   .chFaultClr 8, .quietSend 8 false, .sampleStrobe 8, .readoutSend 8, .dataFrameRx 8 wData, .chainRetrySend 8 false 0 0, .chainBreak 8 false,
   .sweepClose 8, .sweepPublish 8, .keep 8, .chainQueueSend 8, .chainResponseRx 8 wResp, .faultLineChange 8 0] = true := by decide

theorem test_wf_refuses_3 : noneWf [
  .chainFaultTrip 8, .ingestSend 8, .nodeImageSend 8, .canFrameRx 8 wFrame, .canTxRecord 8 none, .canTxStart 8 0, .canTxComplete 8 .ok, .canBusOff 8,
   .cfRecover 8 false, .canRecoveryComplete 8, .cfTxbAbort 8 0, .cfApply 8, .cfCancel 8, .cfApplyTakesEffect 8, .canServiceSegmentRx 8 [],
   .canServiceGapTimeout 8, .ethFrameRx 6 wEth, .ethFrameTx 6, .routeEntryDrain 128, .fabricFrameSend 8192, .macsecRekey 6,
   .macsecOldAssociationExpiry 6, .peerSessionKeyExpiry 6, .ptpMessageRx 4 0 (.announce 0 0), .ptpMessageRx 0 (2 ^ 8) (.announce 0 0),
   .ptpMessageTx 4 .announce, .partnerLinkChange 2 false, .gatedRingMirrorRx 128 [], .undefinedOpcode ⟨2 ^ 32, 7, 0⟩ 0,
   .undefinedOpcode ⟨1, 2 ^ 32, 0⟩ 0, .undefinedOpcode ⟨1, 7, 0⟩ (2 ^ 16), .hello ⟨2 ^ 32, 7, 0⟩ 0 [], .hello ⟨1, 2 ^ 32, 0⟩ 0 [],
   .hello ⟨1, 7, 0⟩ (2 ^ 16) [], .ping ⟨2 ^ 32, 7, 0⟩, .ping ⟨1, 2 ^ 32, 0⟩, .status ⟨2 ^ 32, 7, 0⟩, .status ⟨1, 2 ^ 32, 0⟩,
   .subscribe ⟨2 ^ 32, 7, 0⟩ 0, .subscribe ⟨1, 2 ^ 32, 0⟩ 0, .subscribe ⟨1, 7, 0⟩ (2 ^ 32), .versions ⟨2 ^ 32, 7, 0⟩, .versions ⟨1, 2 ^ 32, 0⟩,
   .bye ⟨2 ^ 32, 7, 0⟩, .bye ⟨1, 2 ^ 32, 0⟩] = true := by decide

theorem test_wf_refuses_4 : noneWf [
  .modeRead ⟨2 ^ 32, 7, 0⟩, .modeRead ⟨1, 2 ^ 32, 0⟩, .modePrepare ⟨2 ^ 32, 7, 0⟩ 0, .modePrepare ⟨1, 2 ^ 32, 0⟩ 0, .modePrepare ⟨1, 7, 0⟩ (2 ^ 32),
   .modeArm ⟨2 ^ 32, 7, 0⟩ (.frc 0), .modeArm ⟨1, 2 ^ 32, 0⟩ (.frc 0), .modeArm ⟨1, 7, 0⟩ (.frc (2 ^ 64)), .modeArm ⟨1, 7, 0⟩ (.tod (2 ^ 64) 0 0),
   .modeArm ⟨1, 7, 0⟩ (.tod 0 (2 ^ 32) 0), .modeArm ⟨1, 7, 0⟩ (.tod 0 0 (2 ^ 32)), .modeStatus ⟨2 ^ 32, 7, 0⟩, .modeStatus ⟨1, 2 ^ 32, 0⟩,
   .modeCancel ⟨2 ^ 32, 7, 0⟩, .modeCancel ⟨1, 2 ^ 32, 0⟩, .slotRename ⟨2 ^ 32, 7, 0⟩ 0 [], .slotRename ⟨1, 2 ^ 32, 0⟩ 0 [],
   .slotRename ⟨1, 7, 0⟩ (2 ^ 8) [], .slotClear ⟨2 ^ 32, 7, 0⟩ 0, .slotClear ⟨1, 2 ^ 32, 0⟩ 0, .slotClear ⟨1, 7, 0⟩ (2 ^ 8), .start ⟨2 ^ 32, 7, 0⟩ 0,
   .start ⟨1, 2 ^ 32, 0⟩ 0, .start ⟨1, 7, 0⟩ (2 ^ 8), .stop ⟨2 ^ 32, 7, 0⟩, .stop ⟨1, 2 ^ 32, 0⟩, .lrst ⟨2 ^ 32, 7, 0⟩, .lrst ⟨1, 2 ^ 32, 0⟩,
   .runStatus ⟨2 ^ 32, 7, 0⟩, .runStatus ⟨1, 2 ^ 32, 0⟩, .admitCmd ⟨2 ^ 32, 7, 0⟩ 0 0, .admitCmd ⟨1, 2 ^ 32, 0⟩ 0 0, .admitCmd ⟨1, 7, 0⟩ (2 ^ 8) 0,
   .admitCmd ⟨1, 7, 0⟩ 0 (2 ^ 8), .admitStatus ⟨2 ^ 32, 7, 0⟩, .admitStatus ⟨1, 2 ^ 32, 0⟩, .autorun ⟨2 ^ 32, 7, 0⟩ 0, .autorun ⟨1, 2 ^ 32, 0⟩ 0,
   .autorun ⟨1, 7, 0⟩ (2 ^ 8), .retExport ⟨2 ^ 32, 7, 0⟩, .retExport ⟨1, 2 ^ 32, 0⟩, .retImport ⟨2 ^ 32, 7, 0⟩ 0 [], .retImport ⟨1, 2 ^ 32, 0⟩ 0 [],
   .retImport ⟨1, 7, 0⟩ (2 ^ 32) [], .retClear ⟨2 ^ 32, 7, 0⟩] = true := by decide

theorem test_wf_refuses_5 : noneWf [
  .retClear ⟨1, 2 ^ 32, 0⟩, .ringPut ⟨2 ^ 32, 7, 0⟩ 0 [], .ringPut ⟨1, 2 ^ 32, 0⟩ 0 [], .ringPut ⟨1, 7, 0⟩ (2 ^ 8) [], .ringGet ⟨2 ^ 32, 7, 0⟩ 0 0,
   .ringGet ⟨1, 2 ^ 32, 0⟩ 0 0, .ringGet ⟨1, 7, 0⟩ (2 ^ 8) 0, .ringGet ⟨1, 7, 0⟩ 0 (2 ^ 8), .dataRead ⟨2 ^ 32, 7, 0⟩ 0 0,
   .dataRead ⟨1, 2 ^ 32, 0⟩ 0 0, .dataRead ⟨1, 7, 0⟩ (2 ^ 32) 0, .dataRead ⟨1, 7, 0⟩ 0 (2 ^ 32), .xferBegin ⟨2 ^ 32, 7, 0⟩ 0 0 0,
   .xferBegin ⟨1, 2 ^ 32, 0⟩ 0 0 0, .xferBegin ⟨1, 7, 0⟩ (2 ^ 16) 0 0, .xferBegin ⟨1, 7, 0⟩ 0 (2 ^ 32) 0, .xferBegin ⟨1, 7, 0⟩ 0 0 (2 ^ 384),
   .xferChunk ⟨2 ^ 32, 7, 0⟩ 0 [], .xferChunk ⟨1, 2 ^ 32, 0⟩ 0 [], .xferChunk ⟨1, 7, 0⟩ (2 ^ 32) [], .xferEnd ⟨2 ^ 32, 7, 0⟩ .unreadable,
   .xferEnd ⟨1, 2 ^ 32, 0⟩ .unreadable, .xferAbort ⟨2 ^ 32, 7, 0⟩, .xferAbort ⟨1, 2 ^ 32, 0⟩, .updateSchedule ⟨2 ^ 32, 7, 0⟩ 0 (.frc 0),
   .updateSchedule ⟨1, 2 ^ 32, 0⟩ 0 (.frc 0), .updateSchedule ⟨1, 7, 0⟩ (2 ^ 16) (.frc 0), .updateSchedule ⟨1, 7, 0⟩ 0 (.frc (2 ^ 64)),
   .updateSchedule ⟨1, 7, 0⟩ 0 (.tod (2 ^ 64) 0 0), .updateSchedule ⟨1, 7, 0⟩ 0 (.tod 0 (2 ^ 32) 0), .updateSchedule ⟨1, 7, 0⟩ 0 (.tod 0 0 (2 ^ 32)),
   .updateActivate ⟨2 ^ 32, 7, 0⟩ 0, .updateActivate ⟨1, 2 ^ 32, 0⟩ 0, .updateActivate ⟨1, 7, 0⟩ (2 ^ 16), .updateStatus ⟨2 ^ 32, 7, 0⟩,
   .updateStatus ⟨1, 2 ^ 32, 0⟩, .updateForward ⟨2 ^ 32, 7, 0⟩ 0 [], .updateForward ⟨1, 2 ^ 32, 0⟩ 0 [], .updateForward ⟨1, 7, 0⟩ (2 ^ 16) [],
   .updateForward ⟨1, 7, 0⟩ 0 [2 ^ 16], .bankSelect ⟨2 ^ 32, 7, 0⟩ 0 0, .bankSelect ⟨1, 2 ^ 32, 0⟩ 0 0, .bankSelect ⟨1, 7, 0⟩ (2 ^ 16) 0,
   .bankSelect ⟨1, 7, 0⟩ 0 (2 ^ 8), .cfgRead ⟨2 ^ 32, 7, 0⟩ 0 0] = true := by decide

theorem test_wf_refuses_6 : noneWf [
  .cfgRead ⟨1, 2 ^ 32, 0⟩ 0 0, .cfgRead ⟨1, 7, 0⟩ (2 ^ 32) 0, .cfgRead ⟨1, 7, 0⟩ 0 (2 ^ 16), .cfgWrite ⟨2 ^ 32, 7, 0⟩ [],
   .cfgWrite ⟨1, 2 ^ 32, 0⟩ [], .cfgWrite ⟨1, 7, 0⟩ [(2 ^ 32, 0)], .cfgWrite ⟨1, 7, 0⟩ [(0, 2 ^ 32)], .cfgApply ⟨2 ^ 32, 7, 0⟩ 0,
   .cfgApply ⟨1, 2 ^ 32, 0⟩ 0, .cfgApply ⟨1, 7, 0⟩ (2 ^ 32), .cfgCancel ⟨2 ^ 32, 7, 0⟩ 0, .cfgCancel ⟨1, 2 ^ 32, 0⟩ 0, .cfgCancel ⟨1, 7, 0⟩ (2 ^ 32),
   .cfgSave ⟨2 ^ 32, 7, 0⟩, .cfgSave ⟨1, 2 ^ 32, 0⟩, .chanRead ⟨2 ^ 32, 7, 0⟩ 0, .chanRead ⟨1, 2 ^ 32, 0⟩ 0, .chanRead ⟨1, 7, 0⟩ (2 ^ 8),
   .netCfg ⟨2 ^ 32, 7, 0⟩ 0 0 0 0 0, .netCfg ⟨1, 2 ^ 32, 0⟩ 0 0 0 0 0, .netCfg ⟨1, 7, 0⟩ (2 ^ 8) 0 0 0 0, .netCfg ⟨1, 7, 0⟩ 0 (2 ^ 32) 0 0 0,
   .netCfg ⟨1, 7, 0⟩ 0 0 (2 ^ 32) 0 0, .netCfg ⟨1, 7, 0⟩ 0 0 0 (2 ^ 32) 0, .netCfg ⟨1, 7, 0⟩ 0 0 0 0 (2 ^ 16), .trimSet ⟨2 ^ 32, 7, 0⟩ 0 0 0,
   .trimSet ⟨1, 2 ^ 32, 0⟩ 0 0 0, .trimSet ⟨1, 7, 0⟩ (2 ^ 8) 0 0, .trimSet ⟨1, 7, 0⟩ 0 (2 ^ 32) 0, .trimSet ⟨1, 7, 0⟩ 0 0 (2 ^ 32),
   .hartPass ⟨2 ^ 32, 7, 0⟩ 0 0 0 [], .hartPass ⟨1, 2 ^ 32, 0⟩ 0 0 0 [], .hartPass ⟨1, 7, 0⟩ (2 ^ 8) 0 0 [], .hartPass ⟨1, 7, 0⟩ 0 (2 ^ 8) 0 [],
   .hartPass ⟨1, 7, 0⟩ 0 0 (2 ^ 16) [], .hartRead ⟨2 ^ 32, 7, 0⟩ 0, .hartRead ⟨1, 2 ^ 32, 0⟩ 0, .hartRead ⟨1, 7, 0⟩ (2 ^ 8),
   .hartPollSet ⟨2 ^ 32, 7, 0⟩ 0 [], .hartPollSet ⟨1, 2 ^ 32, 0⟩ 0 [], .hartPollSet ⟨1, 7, 0⟩ (2 ^ 8) [], .hartPollSet ⟨1, 7, 0⟩ 0 [(2 ^ 8, 0, 0)],
   .hartPollSet ⟨1, 7, 0⟩ 0 [(0, 2 ^ 16, 0)], .hartPollSet ⟨1, 7, 0⟩ 0 [(0, 0, 2 ^ 16)], .canRecover ⟨2 ^ 32, 7, 0⟩ 0 0] = true := by decide

theorem test_wf_refuses_7 : noneWf [
  .canRecover ⟨1, 2 ^ 32, 0⟩ 0 0, .canRecover ⟨1, 7, 0⟩ (2 ^ 8) 0, .canRecover ⟨1, 7, 0⟩ 0 (2 ^ 8), .canSend ⟨2 ^ 32, 7, 0⟩ 0 [],
   .canSend ⟨1, 2 ^ 32, 0⟩ 0 [], .canSend ⟨1, 7, 0⟩ (2 ^ 8) [], .flagClear ⟨2 ^ 32, 7, 0⟩ 0 0, .flagClear ⟨1, 2 ^ 32, 0⟩ 0 0,
   .flagClear ⟨1, 7, 0⟩ (2 ^ 32) 0, .flagClear ⟨1, 7, 0⟩ 0 (2 ^ 32), .timeRead ⟨2 ^ 32, 7, 0⟩, .timeRead ⟨1, 2 ^ 32, 0⟩,
   .todSet ⟨2 ^ 32, 7, 0⟩ 0 0 0 0, .todSet ⟨1, 2 ^ 32, 0⟩ 0 0 0 0, .todSet ⟨1, 7, 0⟩ (2 ^ 64) 0 0 0, .todSet ⟨1, 7, 0⟩ 0 (2 ^ 32) 0 0,
   .todSet ⟨1, 7, 0⟩ 0 0 (2 ^ 32) 0, .todSet ⟨1, 7, 0⟩ 0 0 0 (2 ^ 64), .incSet ⟨2 ^ 32, 7, 0⟩ 0 0, .incSet ⟨1, 2 ^ 32, 0⟩ 0 0,
   .incSet ⟨1, 7, 0⟩ (2 ^ 8) 0, .incSet ⟨1, 7, 0⟩ 0 (2 ^ 32), .servoCfg ⟨2 ^ 32, 7, 0⟩ 0 0, .servoCfg ⟨1, 2 ^ 32, 0⟩ 0 0,
   .servoCfg ⟨1, 7, 0⟩ (2 ^ 8) 0, .servoCfg ⟨1, 7, 0⟩ 0 (2 ^ 8), .lgArm ⟨2 ^ 32, 7, 0⟩ 0 (.frc 0), .lgArm ⟨1, 2 ^ 32, 0⟩ 0 (.frc 0),
   .lgArm ⟨1, 7, 0⟩ (2 ^ 8) (.frc 0), .lgArm ⟨1, 7, 0⟩ 0 (.frc (2 ^ 64)), .lgArm ⟨1, 7, 0⟩ 0 (.tod (2 ^ 64) 0 0),
   .lgArm ⟨1, 7, 0⟩ 0 (.tod 0 (2 ^ 32) 0), .lgArm ⟨1, 7, 0⟩ 0 (.tod 0 0 (2 ^ 32)), .refSelect ⟨2 ^ 32, 7, 0⟩ 0, .refSelect ⟨1, 2 ^ 32, 0⟩ 0,
   .refSelect ⟨1, 7, 0⟩ (2 ^ 8), .pairStatus ⟨2 ^ 32, 7, 0⟩, .pairStatus ⟨1, 2 ^ 32, 0⟩, .join ⟨2 ^ 32, 7, 0⟩ wInfo, .join ⟨1, 2 ^ 32, 0⟩ wInfo,
   .leave ⟨2 ^ 32, 7, 0⟩, .leave ⟨1, 2 ^ 32, 0⟩, .handover ⟨2 ^ 32, 7, 0⟩ 0, .handover ⟨1, 2 ^ 32, 0⟩ 0, .handover ⟨1, 7, 0⟩ (2 ^ 64)] = true := by decide

theorem test_wf_refuses_8 : noneWf [
  .pairCancel ⟨2 ^ 32, 7, 0⟩, .pairCancel ⟨1, 2 ^ 32, 0⟩, .pairCfg ⟨2 ^ 32, 7, 0⟩ 0 0 0, .pairCfg ⟨1, 2 ^ 32, 0⟩ 0 0 0,
   .pairCfg ⟨1, 7, 0⟩ (2 ^ 32) 0 0, .pairCfg ⟨1, 7, 0⟩ 0 (2 ^ 32) 0, .pairCfg ⟨1, 7, 0⟩ 0 0 (2 ^ 32), .chainStatus ⟨2 ^ 32, 7, 0⟩ 0,
   .chainStatus ⟨1, 2 ^ 32, 0⟩ 0, .chainStatus ⟨1, 7, 0⟩ (2 ^ 8), .chainPass ⟨2 ^ 32, 7, 0⟩ 0 0 0 [], .chainPass ⟨1, 2 ^ 32, 0⟩ 0 0 0 [],
   .chainPass ⟨1, 7, 0⟩ (2 ^ 8) 0 0 [], .chainPass ⟨1, 7, 0⟩ 0 (2 ^ 16) 0 [], .chainPass ⟨1, 7, 0⟩ 0 0 (2 ^ 8) [], .chainDiscover ⟨2 ^ 32, 7, 0⟩ 0,
   .chainDiscover ⟨1, 2 ^ 32, 0⟩ 0, .chainDiscover ⟨1, 7, 0⟩ (2 ^ 8), .chainWake ⟨2 ^ 32, 7, 0⟩ 0, .chainWake ⟨1, 2 ^ 32, 0⟩ 0,
   .chainWake ⟨1, 7, 0⟩ (2 ^ 8), .chainSleep ⟨2 ^ 32, 7, 0⟩ 0, .chainSleep ⟨1, 2 ^ 32, 0⟩ 0, .chainSleep ⟨1, 7, 0⟩ (2 ^ 8),
   .balSet ⟨2 ^ 32, 7, 0⟩ 0 0 0 [], .balSet ⟨1, 2 ^ 32, 0⟩ 0 0 0 [], .balSet ⟨1, 7, 0⟩ (2 ^ 8) 0 0 [], .balSet ⟨1, 7, 0⟩ 0 (2 ^ 16) 0 [],
   .balSet ⟨1, 7, 0⟩ 0 0 (2 ^ 8) [], .chainFaultClr ⟨2 ^ 32, 7, 0⟩ 0, .chainFaultClr ⟨1, 2 ^ 32, 0⟩ 0, .chainFaultClr ⟨1, 7, 0⟩ (2 ^ 8),
   .slotRead ⟨2 ^ 32, 7, 0⟩ 0 0 none, .slotRead ⟨1, 2 ^ 32, 0⟩ 0 0 none, .slotRead ⟨1, 7, 0⟩ (2 ^ 16) 0 none, .slotRead ⟨1, 7, 0⟩ 0 (2 ^ 16) none,
   .slotRead ⟨1, 7, 0⟩ 0 0 (some (2 ^ 8)), .nodeStatus ⟨2 ^ 32, 7, 0⟩ 0 0, .nodeStatus ⟨1, 2 ^ 32, 0⟩ 0 0, .nodeStatus ⟨1, 7, 0⟩ (2 ^ 8) 0,
   .nodeStatus ⟨1, 7, 0⟩ 0 (2 ^ 16), .metStatus ⟨2 ^ 32, 7, 0⟩, .metStatus ⟨1, 2 ^ 32, 0⟩, .metRecords ⟨2 ^ 32, 7, 0⟩ 0 0,
   .metRecords ⟨1, 2 ^ 32, 0⟩ 0 0] = true := by decide

theorem test_wf_refuses_9 : noneWf [
  .metRecords ⟨1, 7, 0⟩ (2 ^ 32) 0, .metRecords ⟨1, 7, 0⟩ 0 (2 ^ 16), .metAudit ⟨2 ^ 32, 7, 0⟩ 0 0, .metAudit ⟨1, 2 ^ 32, 0⟩ 0 0,
   .metAudit ⟨1, 7, 0⟩ (2 ^ 16) 0, .metAudit ⟨1, 7, 0⟩ 0 (2 ^ 16), .metCert ⟨2 ^ 32, 7, 0⟩, .metCert ⟨1, 2 ^ 32, 0⟩, .metAlarmAck ⟨2 ^ 32, 7, 0⟩,
   .metAlarmAck ⟨1, 2 ^ 32, 0⟩, .whoami ⟨2 ^ 32, 7, 0⟩, .whoami ⟨1, 2 ^ 32, 0⟩, .lockOpen ⟨2 ^ 32, 7, 0⟩ 0, .lockOpen ⟨1, 2 ^ 32, 0⟩ 0,
   .lockOpen ⟨1, 7, 0⟩ (2 ^ 16), .lockClose ⟨2 ^ 32, 7, 0⟩, .lockClose ⟨1, 2 ^ 32, 0⟩, .fieldLock ⟨2 ^ 32, 7, 0⟩ 0, .fieldLock ⟨1, 2 ^ 32, 0⟩ 0,
   .fieldLock ⟨1, 7, 0⟩ (2 ^ 8), .reopenPw ⟨2 ^ 32, 7, 0⟩ [] 0, .reopenPw ⟨1, 2 ^ 32, 0⟩ [] 0, .reopenPw ⟨1, 7, 0⟩ [] (2 ^ 16),
   .challenge ⟨2 ^ 32, 7, 0⟩ 0, .challenge ⟨1, 2 ^ 32, 0⟩ 0, .challenge ⟨1, 7, 0⟩ (2 ^ 16), .response ⟨2 ^ 32, 7, 0⟩ [], .response ⟨1, 2 ^ 32, 0⟩ [],
   .pwSet ⟨2 ^ 32, 7, 0⟩ [], .pwSet ⟨1, 2 ^ 32, 0⟩ [], .lockoutRead ⟨2 ^ 32, 7, 0⟩, .lockoutRead ⟨1, 2 ^ 32, 0⟩, .lockoutReset ⟨2 ^ 32, 7, 0⟩,
   .lockoutReset ⟨1, 2 ^ 32, 0⟩, .indRect ⟨2 ^ 32, 7, 0⟩ 0 0 0 0 [], .indRect ⟨1, 2 ^ 32, 0⟩ 0 0 0 0 [], .indRect ⟨1, 7, 0⟩ (2 ^ 16) 0 0 0 [],
   .indRect ⟨1, 7, 0⟩ 0 (2 ^ 16) 0 0 [], .indRect ⟨1, 7, 0⟩ 0 0 (2 ^ 16) 0 [], .indRect ⟨1, 7, 0⟩ 0 0 0 (2 ^ 16) [], .indStatus ⟨2 ^ 32, 7, 0⟩,
   .indStatus ⟨1, 2 ^ 32, 0⟩, .indClear ⟨2 ^ 32, 7, 0⟩, .indClear ⟨1, 2 ^ 32, 0⟩, .countersRead ⟨2 ^ 32, 7, 0⟩ 0] = true := by decide

theorem test_wf_refuses_10 : noneWf [
  .countersRead ⟨1, 2 ^ 32, 0⟩ 0, .countersRead ⟨1, 7, 0⟩ (2 ^ 32), .countersClear ⟨2 ^ 32, 7, 0⟩ 0, .countersClear ⟨1, 2 ^ 32, 0⟩ 0,
   .countersClear ⟨1, 7, 0⟩ (2 ^ 32), .journalRead ⟨2 ^ 32, 7, 0⟩ 0 0, .journalRead ⟨1, 2 ^ 32, 0⟩ 0 0, .journalRead ⟨1, 7, 0⟩ (2 ^ 32) 0,
   .journalRead ⟨1, 7, 0⟩ 0 (2 ^ 16), .sparesRead ⟨2 ^ 32, 7, 0⟩, .sparesRead ⟨1, 2 ^ 32, 0⟩, .spareSwitch ⟨2 ^ 32, 7, 0⟩ 0 0 0,
   .spareSwitch ⟨1, 2 ^ 32, 0⟩ 0 0 0, .spareSwitch ⟨1, 7, 0⟩ (2 ^ 8) 0 0, .spareSwitch ⟨1, 7, 0⟩ 0 (2 ^ 8) 0, .spareSwitch ⟨1, 7, 0⟩ 0 0 (2 ^ 8),
   .relocate ⟨2 ^ 32, 7, 0⟩ 0 0 0, .relocate ⟨1, 2 ^ 32, 0⟩ 0 0 0, .relocate ⟨1, 7, 0⟩ (2 ^ 8) 0 0, .relocate ⟨1, 7, 0⟩ 0 (2 ^ 8) 0,
   .relocate ⟨1, 7, 0⟩ 0 0 (2 ^ 8), .shadowSet ⟨2 ^ 32, 7, 0⟩ 0 0, .shadowSet ⟨1, 2 ^ 32, 0⟩ 0 0, .shadowSet ⟨1, 7, 0⟩ (2 ^ 8) 0,
   .shadowSet ⟨1, 7, 0⟩ 0 (2 ^ 8), .regRead ⟨2 ^ 32, 7, 0⟩ 0 0, .regRead ⟨1, 2 ^ 32, 0⟩ 0 0, .regRead ⟨1, 7, 0⟩ (2 ^ 32) 0,
   .regRead ⟨1, 7, 0⟩ 0 (2 ^ 16), .regWrite ⟨2 ^ 32, 7, 0⟩ 0 0, .regWrite ⟨1, 2 ^ 32, 0⟩ 0 0, .regWrite ⟨1, 7, 0⟩ (2 ^ 32) 0,
   .regWrite ⟨1, 7, 0⟩ 0 (2 ^ 32), .selftest ⟨2 ^ 32, 7, 0⟩ none, .selftest ⟨1, 2 ^ 32, 0⟩ none, .routeCounters ⟨2 ^ 32, 7, 0⟩ 0,
   .routeCounters ⟨1, 2 ^ 32, 0⟩ 0, .routeCounters ⟨1, 7, 0⟩ (2 ^ 16), .idCert ⟨2 ^ 32, 7, 0⟩, .idCert ⟨1, 2 ^ 32, 0⟩,
   .ownTake ⟨2 ^ 32, 7, 0⟩ 0 0 false, .ownTake ⟨1, 2 ^ 32, 0⟩ 0 0 false, .ownTake ⟨1, 7, 0⟩ (2 ^ 256) 0 false, .ownTake ⟨1, 7, 0⟩ 0 (2 ^ 64) false,
   .ownRelease ⟨2 ^ 32, 7, 0⟩ 0] = true := by decide

theorem test_wf_refuses_11 : noneWf [
  .ownRelease ⟨1, 2 ^ 32, 0⟩ 0, .ownRelease ⟨1, 7, 0⟩ (2 ^ 768), .credRevoke ⟨2 ^ 32, 7, 0⟩ [], .credRevoke ⟨1, 2 ^ 32, 0⟩ [],
   .credRevoke ⟨1, 7, 0⟩ [2 ^ 64], .credUnrevoke ⟨2 ^ 32, 7, 0⟩ [], .credUnrevoke ⟨1, 2 ^ 32, 0⟩ [], .credUnrevoke ⟨1, 7, 0⟩ [2 ^ 64],
   .credList ⟨2 ^ 32, 7, 0⟩, .credList ⟨1, 2 ^ 32, 0⟩, .memberCertSet ⟨2 ^ 32, 7, 0⟩ wCredCand [], .memberCertSet ⟨1, 2 ^ 32, 0⟩ wCredCand [],
   .peerBind ⟨2 ^ 32, 7, 0⟩ 0, .peerBind ⟨1, 2 ^ 32, 0⟩ 0, .peerBind ⟨1, 7, 0⟩ (2 ^ 64), .floorSet ⟨2 ^ 32, 7, 0⟩ 0 0 0,
   .floorSet ⟨1, 2 ^ 32, 0⟩ 0 0 0, .floorSet ⟨1, 7, 0⟩ (2 ^ 8) 0 0, .floorSet ⟨1, 7, 0⟩ 0 (2 ^ 32) 0, .floorSet ⟨1, 7, 0⟩ 0 0 (2 ^ 32),
   .floorRead ⟨2 ^ 32, 7, 0⟩, .floorRead ⟨1, 2 ^ 32, 0⟩, .zeroise ⟨2 ^ 32, 7, 0⟩ 0 0, .zeroise ⟨1, 2 ^ 32, 0⟩ 0 0, .zeroise ⟨1, 7, 0⟩ (2 ^ 8) 0,
   .zeroise ⟨1, 7, 0⟩ 0 (2 ^ 64), .tamperCfg ⟨2 ^ 32, 7, 0⟩ 0, .tamperCfg ⟨1, 2 ^ 32, 0⟩ 0, .tamperCfg ⟨1, 7, 0⟩ (2 ^ 8), .tamperRead ⟨2 ^ 32, 7, 0⟩,
   .tamperRead ⟨1, 2 ^ 32, 0⟩, .tamperInput 4 false, .updateActivation 9, .ssTripCmd 16, .ssTripLatchReset 16, .wearEvaluation 11 0 0 0 false,
   .hsSwitchStart 11 0, .switchInCommit 11, .rowSpareCopy 11, .hsClearGo 256 0, .hsClearGo 0 256, .groupSupplyReturn 12, .portLinkChange 6 0,
   .canBusError 8 0 false false 0, .canBusError 0 8 false false 0] = true := by decide

theorem test_wf_refuses_12 : noneWf [
  .farEndCommandRx 8 false 0, .partRestartComplete 9 wInfo] = true := by decide

/-- One byte more than a packet holds (R376). -/
def tooLong : Bytes := List.replicate 18409 0

theorem tooLong_packed : packed tooLong = false := by
  unfold packed tooLong; rw [List.length_replicate]; decide

theorem test_wf_refuses_long_1 : (Instr.retImport ⟨1, 7, 0⟩ 0 tooLong).wf = false := by simp [Instr.wf, tooLong_packed]
theorem test_wf_refuses_long_2 : (Instr.ringPut ⟨1, 7, 0⟩ 0 tooLong).wf = false := by simp [Instr.wf, tooLong_packed]
theorem test_wf_refuses_long_3 : (Instr.xferChunk ⟨1, 7, 0⟩ 0 tooLong).wf = false := by simp [Instr.wf, tooLong_packed]
theorem test_wf_refuses_long_4 : (Instr.hartPass ⟨1, 7, 0⟩ 0 0 0 tooLong).wf = false := by simp [Instr.wf, tooLong_packed]
theorem test_wf_refuses_long_5 : (Instr.canSend ⟨1, 7, 0⟩ 0 tooLong).wf = false := by simp [Instr.wf, tooLong_packed]
theorem test_wf_refuses_long_6 : (Instr.chainPass ⟨1, 7, 0⟩ 0 0 0 tooLong).wf = false := by simp [Instr.wf, tooLong_packed]
theorem test_wf_refuses_long_7 : (Instr.balSet ⟨1, 7, 0⟩ 0 0 0 tooLong).wf = false := by simp [Instr.wf, tooLong_packed]
theorem test_wf_refuses_long_8 : (Instr.reopenPw ⟨1, 7, 0⟩ tooLong 0).wf = false := by simp [Instr.wf, tooLong_packed]
theorem test_wf_refuses_long_9 : (Instr.response ⟨1, 7, 0⟩ tooLong).wf = false := by simp [Instr.wf, tooLong_packed]
theorem test_wf_refuses_long_10 : (Instr.pwSet ⟨1, 7, 0⟩ tooLong).wf = false := by simp [Instr.wf, tooLong_packed]
theorem test_wf_refuses_long_11 : (Instr.indRect ⟨1, 7, 0⟩ 0 0 0 0 tooLong).wf = false := by simp [Instr.wf, tooLong_packed]
theorem test_wf_refuses_long_12 : (Instr.memberCertSet ⟨1, 7, 0⟩ wCredCand tooLong).wf = false := by simp [Instr.wf, tooLong_packed]

/-! ### The spec's worked examples and tables -/

/-- One field of the next state. -/
def ofNext {α : Type} (f : State → α) : Host.Outcome State Fault Refusal → Option α
  | .next t => some (f t)
  | _ => none

def svEx (op n r flags count budget : Nat) : SvDesc :=
  { op, n, r, flags, count, phases := 1, phaseAdd := 0, qa := 10, qb := 17, qx := 9, qf := 6, qr := 21, inAddr := 0, inStride := 0,
    inPstride := 0, outAddr := 0, outStride := 0, outPstride := 0, enAddr := 0, budget, tauRel := 0, regRel := 0, tauAbs := 0, tol := 0,
    aMax := 0, bMax := 0, lDecl := 0 }

/-- 06, the propeller-pitch loop: N = 96 takes 32,000 tc. -/
theorem test_loop_latency_96 : loopLatency 96 = 32000 := by decide
/-- 07, thrust allocation: five QP_BOX problems of n = 8 with BUDGET 3,000 take 4,004 tc. -/
theorem test_solver_latency_qp : (svEx 10 8 1 0 5 3000).latency = 4004 := by decide
/-- 07, plant estimation: eleven SOLVE_CHOL problems of n = 32 take 9,300 tc. -/
theorem test_solver_latency_chol : (svEx 6 32 1 0 11 0).latency = 9300 := by decide
/-- 03, the bank load of T9 from B7: attached at 10,008. -/
theorem test_mesh_attachment : meshAt ⟨0, 3, false⟩ 10000 = 10008 := by decide
/-- 03, the spares for T9: (3,2) is three hops from (5,1), (2,2) and (3,3) are four. -/
theorem test_mesh_hops : hops (3, 1) (5, 1) = 2 ∧ hops (3, 2) (5, 1) = 3 ∧ hops (2, 2) (5, 1) = 4 ∧ hops (3, 3) (5, 1) = 4 := by decide
/-- 11, the propulsion bus: the bit timing words, which are the reset values of R316. -/
theorem test_can_bit_timing : State.reset.regWord 0x40080010 = 0x13134E01 ∧ State.reset.regWord 0x40080014 = 0x89092600 := by decide
/-- 12, the OC slave at 2.5 Gbit/s with POINT 0: 1,488 ns out, 2,240 ns in. -/
theorem test_ptp_corrections : ptpCorr 2 0 = (1488, 2240) := by decide
/-- 14, MODE_ARM of the worked example: AT 1,800,000,100 s is FRC 9,075,000,000. -/
theorem test_time_to_frc :
    State.timeFrc { wR [(R.TB_STATUS_TOD_VALID.key 0 0, 1)] with tb := { wStop.tb with frc := 9000000000, sec := 1800000099, ns := 250000000 } }
      (.tod 1800000100 0 0) = some 9075000000 := by decide
/-- 16, the shore link: 80,000 J into A_IMP are 22,222 mWh and a residue. -/
theorem test_metering_interval : regAdd 80000000000000 (0, 0) = (22222, 800000000) := by decide
/-- 16: the two parts of the split interval, 29,600 J and 50,400 J, add up to the same. -/
theorem test_metering_split : regAdd 50400000000000 (regAdd 29600000000000 (0, 0)) = (22222, 800000000) := by decide
/-- 18: an IMG_BLOCK frame of 36 payload bytes occupies 8,800 tb. -/
theorem test_chain_frame_time : frameTb 36 = 8800 := by decide

/-! ### The queue and the step -/

theorem test_step_takes_the_front :
    ofNext (fun t => t.pending) (step { wStop with pending := [.frcLoRead, .snap] }) = some [.snap] := by decide
theorem test_idle_step_counts : ofNext (fun t => t.tb.frc) (step { wStop with tb := { wStop.tb with frc := 2 ^ 64 - 1 } }) = some 0 := by decide
theorem test_no_row_has_bits : decodeTableWord 32 0 = none ∧ decodeTableWord 16 0xFFFF = none := by decide
theorem test_frc_read : ofNext (fun t => (t.rdata, t.tb.frcShadow))
    (exec .frcLoRead { wStop with tb := { wStop.tb with frc := 0x0000000500000007 } }) = some (7, 5) := by decide
theorem test_start_refused_in_run : ofNext (fun t => t.rd R.TT_RUN_STATUS_REFUSE) (exec (.ttRunStart 0) { wStop with unit := .run }) = some 1 := by decide

/-! ### Witnesses: what each statement supposes can be met -/

theorem witness_TimeBaseCaptures :
    (∃ (s : State), (Sound s)) :=
  ⟨wStop, wStop_sound⟩

theorem witness_TimeOfDaySteps :
    (∃ (s : State), (s.servoOwns = false)) ∧
    (∃ (s : State), (s.servoOwns = false) ∧ (s.tb.frc ≤ s.todsetRegs.at_)) ∧
    (∃ (s : State), (s.servoOwns = false) ∧ (s.todsetRegs.at_ < s.tb.frc)) ∧
    (∃ (s : State) (x : TodStep), (s.tb.step = some x) ∧ (s.servoOwns = false)) ∧
    (∃ (s : State) (v : Nat), (s.servoOwns = false) ∧ (incMin ≤ v % 32 * 2 ^ 32 + s.rd R.TB_INC_FRAC) ∧ (v % 32 * 2 ^ 32 + s.rd R.TB_INC_FRAC ≤ incMax)) ∧
    (∃ (s : State) (v : Nat), (s.servoOwns = false) ∧ (incMax < s.rd R.TB_INC_NS * 2 ^ 32 + v % 2 ^ 32)) ∧
    (∃ (s : State) (frac : Bool) (v : Nat), (s.servoOwns = true)) :=
  ⟨⟨wStop, by decide⟩,
   ⟨wStop, by decide⟩,
   ⟨{ wStop with tb := { wStop.tb with frc := 5 } }, by decide⟩,
   ⟨{ wStop with tb := { wStop.tb with step := some ⟨1, 2, 3, 40⟩ } }, ⟨1, 2, 3, 40⟩, by decide⟩,
   ⟨wStop, 10, by decide⟩,
   ⟨wStop, 2 ^ 32 - 1, by decide⟩,
   ⟨{ wStop with role := .standby }, true, 0, by decide⟩⟩

theorem witness_OscillatorsAndExternalReference :
    (∃ (s : State), (s.rd R.TB_STATUS_REF_ACTIVE = 0)) ∧
    (∃ (s : State), (s.rd R.TB_STATUS_REF_ACTIVE = 1)) ∧
    (∃ (s : State) (v f : Nat), (s.tb.oscOrder = some (v, f)) ∧ (f < s.tb.frameNo)) ∧
    (∃ (s : State), (s.unit = .stop)) ∧
    (∃ (s : State) (v : Nat), (v % 4 = 3)) ∧
    (∃ (s : State), (s.tb.extOrdered = true) ∧ (s.unit = .stop)) ∧
    (∃ (s : State), (s.rd R.TB_STATUS_REF_ACTIVE = 2)) :=
  ⟨⟨wStop, by decide⟩,
   ⟨wStop.wr R.TB_STATUS_REF_ACTIVE 1, by decide⟩,
   ⟨{ wStop with tb := { wStop.tb with oscOrder := some (1, 3), frameNo := 4 } }, 1, 3, by decide⟩,
   ⟨wStop, by decide⟩,
   ⟨wStop, 3, by decide⟩,
   ⟨{ wStop with tb := { wStop.tb with extOrdered := true } }, by decide⟩,
   ⟨wStop.wr R.TB_STATUS_REF_ACTIVE 2, by decide⟩⟩

theorem witness_FramePeriodAndLockGroups :
    (∃ (s : State) (w : Nat), (s.lockOpen = true) ∧ (s.unit = .stop) ∧ (25 ≤ bitsOf w 0 11) ∧ (bitsOf w 0 11 ≤ 2000) ∧ (bitsOf w 0 11 * 1000 % (bitsOf w 16 8 + 1) = 0)) ∧
    (∃ (s : State) (w : Nat), (s.lockOpen = true) ∧ (s.unit ≠ .stop)) ∧
    (∃ (s : State) (g v : Nat), (g < 32) ∧ (s.lockOpen = true)) ∧
    (∃ (s : State) (m v : Nat), (m < 512) ∧ (s.lockOpen = true) ∧ (s.lgmOk m v = true)) ∧
    (∃ (s : State) (g : Nat), (g < 32) ∧ (s.rd R.TB_LG_MODE g = 2) ∧ (s.tb.frc ≤ s.rd64 R.TB_LG_TIME_LO R.TB_LG_TIME_HI g) ∧ (g ∉ s.tb.armed)) ∧
    (∃ (s : State) (g : Nat), (g < 32) ∧ (s.rd R.TB_LG_MODE g = 2) ∧ (s.rd64 R.TB_LG_TIME_LO R.TB_LG_TIME_HI g < s.tb.frc)) ∧
    (∃ (s : State) (g : Nat) (caps : List (Nat × Meas)), (g < 32) ∧ (s.rd R.TB_LG_MODE g = 1) ∧ (s.tb.frameNo % s.lgN g = s.rd R.TB_LG_PHASE g % s.lgN g) ∧ (s.tb.lastTick + s.rd R.TB_LG_OFFSET g < s.nextTick) ∧ (s.tb.frc ≤ s.tb.lastTick + s.rd R.TB_LG_OFFSET g) ∧ (s.tb.fired.contains g = false)) ∧
    (∃ (s : State) (sub : Nat), (s.bit R.TB_TP_CTRL_PPS_IN_EN = true) ∧ (Sound s)) ∧
    (∃ (s : State) (sec : Nat) (e : Int), (s.nextPps = some (sec, e)) ∧ (s.bit R.TB_TP_CTRL_PPS_OUT_EN = true) ∧ (s.isMember 7 0 = false)) :=
  ⟨⟨wLock, 100, by decide⟩,
   ⟨{ wLock with unit := .run }, 100, by decide⟩,
   ⟨wLock, 31, 7, by decide⟩,
   ⟨wLock, 511, 0, by decide⟩,
   ⟨wStop.wr R.TB_LG_MODE 2 31, 31, by decide⟩,
   ⟨{ wStop.wr R.TB_LG_MODE 2 31 with tb := { wStop.tb with frc := 1 } }, 31, by decide⟩,
   ⟨wStop.wr R.TB_LG_MODE 1 31, 31, [], by decide⟩,
   ⟨wStop.wr R.TB_TP_CTRL_PPS_IN_EN 1, 0, by decide, ⟨by decide, by decide, by decide, by decide, by decide⟩⟩,
   ⟨{ wStop with regs := [(R.TB_TP_CTRL_PPS_OUT_EN.key 0 0, 1), (R.TB_INC_NS.key 0 0, 10)] }, 0, 0, by decide⟩⟩

theorem witness_TileArithmetic :
    (∃ (s : State) (i : Issue) (f : AluFn) (d a b : Nat), (s.canIssue i = true) ∧ (d < 64) ∧ (a < 64) ∧ (b < 64) ∧ (i.t < s.G)) ∧
    (∃ (s : State) (i : Issue) (d : Nat) (v : Word), (s.canIssue i = true) ∧ (d < 64) ∧ (i.t < s.G)) ∧
    (∃ (s : State) (i : Issue) (d a b : Nat), (s.canIssue i = true) ∧ (d < 64) ∧ (a < 64) ∧ (b < 64) ∧ (i.t < s.G)) ∧
    (∃ (s : State) (i : Issue) (d a b n : Nat), (s.canIssue i = true) ∧ (d < 64) ∧ (a < 64) ∧ (b < 64) ∧ (2 * n < 64) ∧ (i.t < s.G)) ∧
    (∃ (s : State) (i : Issue) (x a b : Nat), (s.canIssue i = true) ∧ (a < 64) ∧ (b < 64) ∧ (x < 4) ∧ (i.t < s.G)) ∧
    (∃ (s : State) (i : Issue) (d x n : Nat), (s.canIssue i = true) ∧ (d < 64) ∧ (x < 4) ∧ (n < 64) ∧ (i.t < s.G)) ∧
    (∃ (s : State) (i : Issue) (d a b n : Nat), (s.canIssue i = true) ∧ (d < 64) ∧ (a < 64) ∧ (b < 64) ∧ (2 * n < 64) ∧ ((s.tile (s.physTile i.tile)).divFree ≤ i.t) ∧ (i.t < s.G)) ∧
    (∃ (s : State) (i : Issue) (d a n : Nat), (s.canIssue i = true) ∧ (d < 64) ∧ (a < 64) ∧ (2 * n < 64) ∧ ((s.tile (s.physTile i.tile)).divFree ≤ i.t) ∧ (i.t < s.G)) ∧
    (∃ (s : State) (i : Issue) (d : Nat) (v : Word), (s.canIssue i = true) ∧ (64 ≤ d)) ∧
    (∃ (s : State) (i : Issue) (o : AluOp), (s.canIssue i = false)) :=
  ⟨⟨wRun, ⟨3, 40⟩, .add, 63, 0, 1, by decide⟩,
   ⟨wRun, ⟨3, 40⟩, 63, 5, by decide⟩,
   ⟨wRun, ⟨3, 40⟩, 63, 0, 1, by decide⟩,
   ⟨wRun, ⟨3, 40⟩, 63, 0, 1, 31, by decide⟩,
   ⟨wRun, ⟨3, 40⟩, 3, 63, 0, by decide⟩,
   ⟨wRun, ⟨3, 40⟩, 63, 3, 63, by decide⟩,
   ⟨wRun, ⟨3, 40⟩, 63, 0, 1, 31, by decide⟩,
   ⟨wRun, ⟨3, 40⟩, 63, 0, 31, by decide⟩,
   ⟨wRun, ⟨3, 40⟩, 64, 5, by decide⟩,
   ⟨wStop, ⟨3, 40⟩, .imm 1 2, by decide⟩⟩

theorem witness_TileControlFlow :
    (∃ (s : State) (i : Issue) (c t : Nat), (s.canIssue i = true) ∧ (c < 64) ∧ (t < 4096) ∧ (i.t < s.G)) ∧
    (∃ (s : State) (i : Issue) (n a b : Nat), (s.canIssue i = true) ∧ (b < 4096) ∧ (a < b) ∧ (1 ≤ n) ∧ ((s.tile (s.physTile i.tile)).loops.length < 4) ∧ (i.t < s.G)) ∧
    (∃ (s : State) (i : Issue) (n : Nat), (s.canIssue i = true) ∧ (1 ≤ n) ∧ (n ≤ 65536) ∧ (i.t < s.G)) ∧
    (∃ (s : State) (i : Issue), (s.canIssue i = true) ∧ (i.t < s.G)) ∧
    (∃ (s : State) (i : Issue) (m : Mesh) (addr : Nat) (e : Ecc), (s.canIssue i = true) ∧ (hops (s.routerOf i.tile) (attachAt attachExch) ≤ m.d) ∧ (m.w ≤ 15) ∧ (m.d ≤ 10) ∧ (addr + 32 ≤ 0x20000) ∧ (meshAt m i.t < s.G)) ∧
    (∃ (s : State) (i : Issue) (m : Mesh), (s.canIssue i = true) ∧ (i.tile = 0) ∧ (hops (s.routerOf i.tile) (attachAt attachExch) ≤ m.d) ∧ (m.w ≤ 15) ∧ (m.d ≤ 10) ∧ (s.sealing = false) ∧ (s.digestLate (meshAt m i.t) = false) ∧ (meshAt m i.t + 256 < s.G)) ∧
    (∃ (s u : State) (i : Issue), (s.canIssue i = true) ∧ (i.tile = 0) ∧ ((s.settleThrough i.t).lat.sealed.isSome = true) ∧ (s.lat.marker = false) ∧ ((s.settle (i.t + 2)).workLeft (i.t + 2) = false) ∧ ((s.startIssue i).tb.lastTick + (i.t + 2) / 8 < (s.startIssue i).nextTick) ∧ (u = ((s.startIssue i).toCycle (i.t + 2)).settle (i.t + 2)) ∧ (u.lat.suppress = false) ∧ (i.t + 2 < u.G)) ∧
    (∃ (s u : State) (i : Issue), (s.canIssue i = true) ∧ (i.tile = 0) ∧ ((s.settleThrough i.t).lat.sealed.isSome = true) ∧ (s.lat.marker = false) ∧ ((s.settle (i.t + 2)).workLeft (i.t + 2) = false) ∧ ((s.startIssue i).tb.lastTick + (i.t + 2) / 8 < (s.startIssue i).nextTick) ∧ (u = ((s.startIssue i).toCycle (i.t + 2)).settle (i.t + 2)) ∧ (u.lat.suppress = false) ∧ (u.G ≤ i.t + 2)) :=
  ⟨⟨wRun, ⟨3, 40⟩, 63, 4095, by decide⟩,
   ⟨wRun, ⟨3, 40⟩, 1, 4094, 4095, by decide⟩,
   ⟨wRun, ⟨3, 40⟩, 65536, by decide⟩,
   ⟨wRun, ⟨3, 40⟩, by decide⟩,
   ⟨wRun, ⟨3, 40⟩, ⟨15, 10, true⟩, 0x1FFE0, .clean, by decide⟩,
   ⟨wRun, ⟨0, 40⟩, ⟨15, 10, true⟩, by decide⟩,
   ⟨wEnded, _, ⟨0, 40⟩, ⟨by decide, by decide, by decide, by decide, by decide, by decide, rfl, by decide, by decide⟩⟩,
   ⟨{ wEnded with regs := wPut wEnded.regs [(R.TT_FRAME_PERIOD.key 0 0, 25)] }, _, ⟨0, 190000⟩, ⟨by decide, by decide, by decide, by decide, by decide, by decide, rfl, by decide, by decide⟩⟩⟩

theorem witness_TileMemoryAndMesh :
    (∃ (s : State) (i : Issue) (d addr n : Nat) (e : Ecc), (s.canIssue i = true) ∧ (addr + n ≤ 0x20000) ∧ ([4, 8, 16, 32].contains n = true) ∧ (n ≤ 32) ∧ (d + (n + 3) / 4 ≤ 64) ∧ (i.t < s.G)) ∧
    (∃ (s : State) (i : Issue) (src addr n : Nat), (s.canIssue i = true) ∧ (addr + n ≤ 0x20000) ∧ ([4, 8, 16, 32].contains n = true) ∧ (n ≤ 32) ∧ (src + (n + 3) / 4 ≤ 64) ∧ (i.t < s.G)) ∧
    (∃ (s : State) (i : Issue) (src addr n : Nat), (s.canIssue i = true) ∧ (0x20000 < addr + n)) ∧
    (∃ (s : State) (i : Issue) (k off n : Nat) (dst : Loc) (e : Ecc), (s.canIssue i = true) ∧ ([4, 8, 16, 32].contains n = true) ∧ (off + n ≤ 32) ∧ ((locOk dst n).2 = true) ∧ (k < 16) ∧ (i.t < s.G)) ∧
    (∃ (s : State) (i : Issue) (m : Mesh) (addr size : Nat) (dst : Loc) (e : Ecc), (s.canIssue i = true) ∧ (hops (s.routerOf i.tile) (attachAt ((s.target addr).getD 0)) ≤ m.d) ∧ (m.w ≤ 15) ∧ (m.d ≤ 10) ∧ ((locOk dst size).2 = true) ∧ (s.accessOk addr size false = true) ∧ ((s.clearOfCalls (meshAt m i.t) addr size).2 = true) ∧ (i.t + m.w + 4 * m.d + 6 < s.G)) ∧
    (∃ (s : State) (i : Issue) (m : Mesh) (addr size : Nat) (src : Loc) (e : Ecc), (s.canIssue i = true) ∧ (hops (s.routerOf i.tile) (attachAt ((s.target addr).getD 0)) ≤ m.d) ∧ (m.w ≤ 15) ∧ (m.d ≤ 10) ∧ ((locOk src size).2 = true) ∧ (s.accessOk addr size true = true) ∧ ((s.clearOfCalls (meshAt m i.t) addr size).2 = true) ∧ (meshAt m i.t < s.G)) ∧
    (∃ (s : State) (i : Issue) (m : Mesh) (dest n : Nat) (src : Loc) (e : Ecc), (s.canIssue i = true) ∧ (hops (s.routerOf i.tile) (s.routerOf dest) ≤ m.d) ∧ (m.w ≤ 15) ∧ (m.d ≤ 10) ∧ (dest < 32) ∧ ((locOk src 32).2 = true) ∧ (n < 16) ∧ (meshAt m i.t < s.G)) ∧
    (∃ (s : State) (t l : Nat) (dst : Loc) (data : Bytes) (e : Ecc) (rest : List BusEv), (s.lat.bus = ⟨2 * t, .respond l dst data e⟩ :: rest)) :=
  ⟨⟨wRun, ⟨3, 40⟩, 56, 0x1FFE0, 32, .clean, by decide⟩,
   ⟨wRun, ⟨3, 40⟩, 63, 0x1FFFC, 4, by decide⟩,
   ⟨wRun, ⟨3, 40⟩, 63, 0x1FFFD, 4, by decide⟩,
   ⟨wRun, ⟨3, 40⟩, 15, 28, 4, .sram 0x1FFFC, .clean, by decide⟩,
   ⟨wRun, ⟨3, 40⟩, ⟨15, 10, true⟩, 0x01000000, 4, .g 63, .clean, by decide⟩,
   ⟨wRun, ⟨3, 40⟩, ⟨15, 10, true⟩, 0x01100000, 4, .g 63, .clean, by decide⟩,
   ⟨wRun, ⟨3, 40⟩, ⟨15, 10, true⟩, 31, 15, .g 56, .clean, by decide⟩,
   ⟨{ wRun with lat := { wRun.lat with bus := [⟨80, .respond 3 (.g 1) [1, 2, 3, 4] .clean⟩] } }, 40, 3, .g 1, [1, 2, 3, 4], .clean, [], by decide⟩⟩

theorem witness_RingsAndPortB :
    (∃ (s : State) (i : Issue) (q addr : Nat) (got : List RingEntry), (s.canIssue i = true) ∧ (q < 128) ∧ (0 < (s.ring q).depth) ∧ ((s.ring q).dir = 0) ∧ ((s.ring q).owner = i.tile) ∧ ((s.ring q).busy ≤ s.absCycle i.t) ∧ ((s.lat.rings.filter (fun x => decide (s.absCycle i.t < x.busy))).length < 4) ∧ (addr + 260 ≤ 0x20000) ∧ (i.t + 7 < s.G) ∧ (got = (((s.startIssue i).ring q).entries.takeWhile (fun e => decide (e.at_ < (s.startIssue i).absCycle i.t))).take 4)) ∧
    (∃ (s u : State) (i : Issue) (q addr d : Nat) (e : Ecc) (b : Bytes), (s.canIssue i = true) ∧ (q < 128) ∧ (0 < (s.ring q).depth) ∧ ((s.ring q).dir = 1) ∧ ((s.ring q).owner = i.tile) ∧ ((s.ring q).busy ≤ s.absCycle i.t) ∧ ((s.lat.rings.filter (fun x => decide (s.absCycle i.t < x.busy))).length < 4) ∧ (addr + 64 ≤ 0x20000) ∧ (d < 64) ∧ (i.t + 3 < s.G) ∧ (u = ((s.startIssue i).source i (.sram addr) 64 e).1) ∧ (b = ((s.startIssue i).source i (.sram addr) 64 e).2) ∧ ((u.ring q).entries.length < (u.ring q).depth)) ∧
    (∃ (s u : State) (i : Issue) (q addr d : Nat) (e : Ecc) (b : Bytes), (s.canIssue i = true) ∧ (q < 128) ∧ (0 < (s.ring q).depth) ∧ ((s.ring q).dir = 1) ∧ ((s.ring q).owner = i.tile) ∧ ((s.ring q).busy ≤ s.absCycle i.t) ∧ ((s.lat.rings.filter (fun x => decide (s.absCycle i.t < x.busy))).length < 4) ∧ (addr + 64 ≤ 0x20000) ∧ (d < 64) ∧ (i.t + 3 < s.G) ∧ (u = ((s.startIssue i).source i (.sram addr) 64 e).1) ∧ (b = ((s.startIssue i).source i (.sram addr) 64 e).2) ∧ ((u.ring q).depth ≤ (u.ring q).entries.length)) ∧
    (∃ (s : State) (q : Nat) (entry : Bytes), (q < 128) ∧ (0 < (s.ring q).depth) ∧ ((s.ring q).dir = 0) ∧ (s.role = .solo) ∧ ((s.ring q).entries.length < (s.ring q).depth) ∧ ((s.ring q).busy ≤ s.absNow)) ∧
    (∃ (s : State) (q : Nat) (entry : Bytes), (q < 128) ∧ (0 < (s.ring q).depth) ∧ ((s.ring q).dir = 0) ∧ (s.role = .standby) ∧ ((s.ring q).busy ≤ s.absNow)) ∧
    (∃ (s : State) (q : Nat) (entry : Bytes), (q < 128) ∧ (0 < (s.ring q).depth) ∧ ((s.ring q).dir = 0) ∧ (s.role = .solo) ∧ ((s.ring q).depth ≤ (s.ring q).entries.length) ∧ ((s.ring q).busy ≤ s.absNow)) ∧
    (∃ (s : State) (addr : Nat) (data : Bytes) (sub : Nat), (addr + data.length ≤ Config.bankEnd) ∧ (data ≠ []) ∧ (s.inRun = false) ∧ (s.inRetentive addr data.length = false)) ∧
    (∃ (s u : State) (addr : Nat) (data : Bytes) (sub : Nat), (addr + data.length ≤ Config.bankEnd) ∧ (data ≠ []) ∧ (s.inRun = true) ∧ (u = s.serve (wordsAt addr data.length) sub) ∧ (u.inRetentive addr data.length = false)) ∧
    (∃ (s u : State) (addr : Nat) (data : Bytes) (sub : Nat), (addr + data.length ≤ Config.bankEnd) ∧ (data ≠ []) ∧ (s.inRun = true) ∧ (u = s.serve (wordsAt addr data.length) sub) ∧ (u.inRetentive addr data.length = true) ∧ (u.inRun = true)) ∧
    (∃ (s : State) (addr : Nat) (data : Bytes) (sub : Nat), (Config.bankEnd < addr + data.length)) ∧
    (∃ (s : State) (ws : List Nat) (sub : Nat), (s.inRun = true)) :=
  ⟨⟨wRing 0, ⟨3, 40⟩, 127, 0x1FEFC, _, ⟨by decide, by decide, by decide, by decide, by decide, by decide, by decide, by decide, by decide, rfl⟩⟩,
   ⟨wRing 1, _, ⟨3, 40⟩, 127, 0x1FFC0, 63, .clean, _, ⟨by decide, by decide, by decide, by decide, by decide, by decide, by decide, by decide, by decide, by decide, rfl, rfl, by decide⟩⟩,
   ⟨{ wRing 1 with lat := { (wRing 1).lat with rings := updAt (wRing 1).lat.rings 127 (fun (r : Ring) => { r with entries := List.replicate 4 { at_ := 0, data := [] } }) } }, _, ⟨3, 40⟩, 127, 0x1FFC0, 63, .clean, _, ⟨by decide, by decide, by decide, by decide, by decide, by decide, by decide, by decide, by decide, by decide, rfl, rfl, by decide⟩⟩,
   ⟨wRing 0, 127, [1, 2], by decide⟩,
   ⟨{ wRing 0 with role := .standby }, 127, [1, 2], by decide⟩,
   ⟨wFull, 127, [1, 2], by decide⟩,
   ⟨wStop, 0, [1], 7, by decide⟩,
   ⟨wRun, _, 0, [1], 7, ⟨by decide, by decide, by decide, rfl, by decide⟩⟩,
   ⟨wRet, _, 0x100, [1], 7, ⟨by decide, by decide, by decide, rfl, by decide, by decide⟩⟩,
   ⟨wStop, 0xFFFFFFF, [1], 7, by decide⟩,
   ⟨wRun, [], 0, by decide⟩⟩

theorem witness_EngineCallsAndTransfers :
    (∃ (s : State) (i : Issue) (m : Mesh) (desc : Nat) (bad : List (Nat × Nat)) (cor : Nat) (mis : Bool), (s.canIssue i = true) ∧ (hops (s.routerOf i.tile) (attachAt attachLoop) ≤ m.d) ∧ (m.w ≤ 15) ∧ (m.d ≤ 10) ∧ (s.callOk .loop desc = true) ∧ ((s.callsDuring (meshAt m i.t) (meshAt m i.t + s.callLatency .loop desc)).all (fun x => x.engine != .loop && !regionsClash (s.callRegion .loop desc) (s.callRegion x.engine x.desc)) = true) ∧ (meshAt m i.t + s.callLatency .loop desc < s.G)) ∧
    (∃ (s : State) (i : Issue) (m : Mesh) (u desc : Nat) (bad : List (Nat × Nat)) (cor : Nat) (mis : Bool), (s.canIssue i = true) ∧ (hops (s.routerOf i.tile) (attachAt attachSolver) ≤ m.d) ∧ (m.w ≤ 15) ∧ (m.d ≤ 10) ∧ (u < 8) ∧ (s.callOk (.solver u) desc = true) ∧ ((s.callsDuring (meshAt m i.t) (meshAt m i.t + s.callLatency (.solver u) desc)).all (fun x => x.engine != (.solver u) && !regionsClash (s.callRegion (.solver u) desc) (s.callRegion x.engine x.desc)) = true) ∧ (meshAt m i.t + s.callLatency (.solver u) desc < s.G)) ∧
    (∃ (s : State) (e : Engine), (s.lat.calls.find? (fun x => x.engine == e) = none)) ∧
    (∃ (s : State) (e : Engine) (c : Call), (s.lat.calls.find? (fun x => x.engine == e) = some c)) ∧
    (∃ (s : State) (c : Nat) (e : Engine) (start : Nat) (x : Call), (s.callAt e start = some x)) ∧
    (∃ (s : State) (i : Issue) (m : Mesh) (g a : Nat) (ecc : List (Nat × Ecc)), (s.canIssue i = true) ∧ (hops (s.routerOf i.tile) (attachAt attachXfer) ≤ m.d) ∧ (m.w ≤ 15) ∧ (m.d ≤ 10) ∧ (g < 12) ∧ (a % 32 = 0) ∧ (a + 32 * xGranules (.fgOut g a) ≤ Config.bankEnd) ∧ (s.lat.xfers.all (fun y => decide (y.done ≤ meshAt m i.t) || decide (meshAt m i.t + 8 + xGranules (.fgOut g a) ≤ y.start)) = true) ∧ (s.xPhase (.fgOut g a) (meshAt m i.t) (meshAt m i.t + 8 + xGranules (.fgOut g a)) = true) ∧ (meshAt m i.t + 8 + xGranules (.fgOut g a) < s.G)) ∧
    (∃ (s : State) (i : Issue) (m : Mesh) (a : Nat) (ecc : List (Nat × Ecc)), (s.canIssue i = true) ∧ (hops (s.routerOf i.tile) (attachAt attachXfer) ≤ m.d) ∧ (m.w ≤ 15) ∧ (m.d ≤ 10) ∧ (a % 32 = 0) ∧ (a + 32 * xGranules (.dioIn a) ≤ Config.bankEnd) ∧ (s.lat.xfers.all (fun y => decide (y.done ≤ meshAt m i.t) || decide (meshAt m i.t + 8 + xGranules (.dioIn a) ≤ y.start)) = true) ∧ (s.xPhase (.dioIn a) (meshAt m i.t) (meshAt m i.t + 8 + xGranules (.dioIn a)) = true) ∧ (meshAt m i.t + 8 + xGranules (.dioIn a) < s.G)) ∧
    (∃ (s : State) (ok : Bool), (s.lat.xfers = [])) ∧
    (∃ (s : State) (ok : Bool) (x y : Xfer) (l l2 : List Xfer) (g a : Nat), (s.lat.xfers = x :: l) ∧ (((s.toCycle x.done).settle x.done).lat.xfers = y :: l2) ∧ (y.desc = .fgIn g a)) :=
  ⟨⟨wLoop, ⟨3, 40⟩, ⟨15, 10, true⟩, 0x03020000, [], 0, false, by decide⟩,
   ⟨wSolve, ⟨3, 40⟩, ⟨15, 10, true⟩, 7, 0x01000000, [], 0, false, by decide⟩,
   ⟨wRun, .loop, by decide⟩,
   ⟨{ wRun with lat := { wRun.lat with calls := [{ engine := .loop, desc := 0, start := 20, done := 60, bad := [], cor := 0, mis := false, samples := [], seen := [], hash := [], blocks := [], tally := [] }] } }, .loop, _, rfl⟩,
   ⟨{ wRun with lat := { wRun.lat with calls := [{ engine := .loop, desc := 0, start := 20, done := 60, bad := [], cor := 0, mis := false, samples := [], seen := [], hash := [], blocks := [], tally := [] }] } }, 59, .loop, 20, _, rfl⟩,
   ⟨wXfer, ⟨3, 40⟩, ⟨15, 10, true⟩, 11, 0, [], by decide⟩,
   ⟨wXfer, ⟨3, 40⟩, ⟨15, 10, true⟩, 0, [], by decide⟩,
   ⟨wRun, true, by decide⟩,
   ⟨{ wRun with lat := { wRun.lat with xfers := [{ desc := .fgIn 0 0, start := 20, done := 36, data := [] }] } }, true, _, _, [], [], 0, 0, ⟨rfl, rfl, rfl⟩⟩⟩

theorem witness_RetentiveRecords :
    (∃ (s : State) (r : RetRecord) (rs : List RetRecord), (s.tt.sealedRecs = r :: rs) ∧ (r.frame < s.tb.frameNo)) ∧
    (∃ (s : State), (s.tt.sealedRecs = [])) ∧
    (∃ (s : State) (r : RetRecord) (rs : List RetRecord), (s.tt.journal = r :: rs) ∧ (r.marker = true) ∧ (r.crc = Config.crc32 r.body)) ∧
    (∃ (s : State) (r : RetRecord) (rs : List RetRecord), (s.tt.journal = r :: rs) ∧ (r.marker = false)) ∧
    (∃ (s : State), (s.unit = .stop) ∧ (s.lockOpen = true)) ∧
    (∃ (s : State), (s.lockOpen = false)) :=
  ⟨⟨{ wRun with tb := { wRun.tb with frameNo := 1 }, tt := { wRun.tt with sealedRecs := [{ frame := 0, crc := Config.crc32 (RetRecord.body { frame := 0, crc := 0, granules := [], marker := true }), granules := [], marker := true }] } }, _, _, ⟨rfl, by decide⟩⟩,
   ⟨wRun, by decide⟩,
   ⟨{ wRun with tt := { wRun.tt with journal := [{ frame := 0, crc := Config.crc32 (RetRecord.body { frame := 0, crc := 0, granules := [], marker := true }), granules := [], marker := true }] } }, _, _, ⟨rfl, rfl, rfl⟩⟩,
   ⟨{ wRun with tt := { wRun.tt with journal := [{ frame := 0, crc := 0, granules := [], marker := false }] } }, _, _, ⟨rfl, rfl⟩⟩,
   ⟨wLock, by decide⟩,
   ⟨wStop, by decide⟩⟩

theorem witness_FrameTickAndRunState :
    (∃ (s : State), (s.unit = .stop ∨ s.unit = .run ∨ s.unit = .halt) ∧ (s.sup.pfwAt = none)) ∧
    (∃ (s : State), (s.unit ≠ .stop) ∧ (s.unit ≠ .run) ∧ (s.unit ≠ .halt)) ∧
    (∃ (s : State) (kind : Nat), (s.lockOpen = false) ∧ (s.startReason (startKind (s.rd R.TT_RUN_CTRL_KIND)) = 0) ∧ (s.tt.starting = none)) ∧
    (∃ (s : State) (kind : Nat), (s.lockOpen = false) ∧ (s.unit = .run) ∧ (s.tt.starting = none)) ∧
    (∃ (s : State) (kind : Nat), (s.lockOpen = false) ∧ (s.unit = .stop) ∧ (s.tt.slot0 = none) ∧ (s.tt.base = none) ∧ (s.tt.starting = none)) ∧
    (∃ (s : State) (kind : Nat), (s.lockOpen = false) ∧ (s.startReason (startKind (s.rd R.TT_RUN_CTRL_KIND)) = 0) ∧ (s.tt.starting.isSome = true)) ∧
    (∃ (s : State), (s.tt.starting = none)) ∧
    (∃ (s : State) (b : Image) (kind : Nat), (s.tt.starting = some kind) ∧ (s.unit = .stop) ∧ (s.sup.pfwAt = none) ∧ (s.bit R.TT_ADMITTED_VALID = true) ∧ (s.tt.base = some b) ∧ (s.startReason kind = 0) ∧ (s.pair.joining = false)) ∧
    (∃ (s : State), (s.unit = .run) ∧ (s.tt.stopAt = none)) ∧
    (∃ (s : State), (s.unit ≠ .run)) ∧
    (∃ (s : State) (f : Nat), (s.unit = .run) ∧ (s.tt.stopAt = some f)) :=
  ⟨⟨wStop, ⟨by decide, by decide⟩⟩,
   ⟨{ wStop with unit := .boot }, by decide⟩,
   ⟨{ wStop with tt := { wStop.tt with slot0 := some wImage } }, 1, by decide⟩,
   ⟨wRun, 0, by decide⟩,
   ⟨wStop, 0, by decide⟩,
   ⟨{ wStop with tt := { wStop.tt with slot0 := some wImage, starting := some 0 } }, 1, by decide⟩,
   ⟨wStop, by decide⟩,
   ⟨wStart, wImage, 0, by decide⟩,
   ⟨wRun, by decide⟩,
   ⟨wStop, by decide⟩,
   ⟨{ wRun with tt := { wRun.tt with stopAt := some 5 } }, 5, by decide⟩⟩

theorem witness_AdmissionAndPlacement :
    (∃ (s : State) (placement : Nat), (s.bit R.TT_ADM_STATUS_BUSY = false) ∧ (s.unit = .stop)) ∧
    (∃ (s : State) (k placement : Nat), (s.bit R.TT_ADM_STATUS_BUSY = false) ∧ (k < 16) ∧ (((s.wr R.TT_ADM_CTRL_SLOT (k + 1)).wr R.TT_ADM_CTRL_PLACEMENT (placement % 2)).bit R.TT_ADMITTED_VALID = true)) ∧
    (∃ (s : State) (slot placement : Nat), (s.bit R.TT_ADM_STATUS_BUSY = true)) ∧
    (∃ (s : State) (x : Nat × Nat), (s.tt.admitting = some x)) ∧
    (∃ (s : State), (s.tt.admitting = none)) ∧
    (∃ (s : State) (slot placement : Nat), (s.tt.admitting = some (slot, placement))) ∧
    (∃ (s : State) (logical target : Nat), (s.lockOpen = false) ∧ (s.bit R.LT_RELOC_STATUS_BUSY = false)) ∧
    (∃ (s : State) (l t : Nat), (s.lat.relocCheck = some (l, t)) ∧ (s.placementCheck (s.placement.set l t) = none) ∧ (s.acc.waiters = [])) ∧
    (∃ (s : State), (s.lat.relocPassed = some (s.rd R.LT_RELOC_LOGICAL, s.rd R.LT_RELOC_TARGET))) ∧
    (∃ (s : State), (s.lat.relocPassed = none)) ∧
    (∃ (s u : State) (l t : Nat) (e : Ecc), (s.lat.relocOrder = some (l, t)) ∧ (u = ((s.toCycle (s.G + 4096)).settle (s.G + 4096)).copyOut l t e)) ∧
    (∃ (s : State) (e : Ecc), (s.lat.relocOrder = none)) ∧
    (∃ (s u : State) (l p : Nat) (e : Ecc), (s.spareTiles.contains p = true) ∧ (s.unit = .run) ∧ (l < 32) ∧ (s.lat.shadows.any (fun x => x.phys == p) = false) ∧ (u = (((s.toCycle (s.G + 4096)).settle (s.G + 4096)).copyOut l p e).wr R.LT_SHADOW_STATUS_BUSY 1)) ∧
    (∃ (s : State) (logical phys : Nat) (ecc : Ecc), (s.spareTiles = [])) ∧
    (∃ (s : State) (phys : Nat), (s.shadowAt phys = none)) ∧
    (∃ (s u v : State) (phys : Nat) (x : Shadow), (s.unit = .run) ∧ ((s.shadowAt phys).isSome = true) ∧ (u = (s.toCycle s.G).settle s.G) ∧ (u.shadowAt phys = some x) ∧ (x.same = some true) ∧ (x.compared = false) ∧ (u.lat.shadowSuspect.find? (fun y => y.1 == x.logical && y.2 != phys) = none) ∧ (v = { u with lat := { u.lat with shadows := u.lat.shadows.map (fun (y : Shadow) => if y.phys == phys then { y with compared := true } else y) } })) :=
  ⟨⟨wStop, 1, by decide⟩,
   ⟨wR [(R.TT_ADMITTED_VALID.key 0 0, 1)], 15, 1, by decide⟩,
   ⟨wR [(R.TT_ADM_STATUS_BUSY.key 0 0, 1)], 16, 0, by decide⟩,
   ⟨{ wStop with tt := { wStop.tt with admitting := some (0, 0) } }, _, rfl⟩,
   ⟨wStop, by decide⟩,
   ⟨{ wStop with tt := { wStop.tt with admitting := some (16, 1) } }, 16, 1, by decide⟩,
   ⟨wStop, 1, 2, by decide⟩,
   ⟨{ wStop with lat := { wStop.lat with relocCheck := some (0, 32) } }, 0, 32, by decide⟩,
   ⟨{ wStop with lat := { wStop.lat with relocPassed := some (0, 0) } }, by decide⟩,
   ⟨wStop, by decide⟩,
   ⟨{ wRun with lat := { wRun.lat with relocOrder := some (0, 32) } }, _, 0, 32, .clean, ⟨rfl, rfl⟩⟩,
   ⟨wRun, .clean, by decide⟩,
   ⟨{ wRun with regs := [(R.LT_PHYS_STATE.key 35 0, 1)] }, _, 31, 35, .clean, ⟨by decide, by decide, by decide, by decide, rfl⟩⟩,
   ⟨wR [], 0, 35, .clean, by decide⟩,
   ⟨wRun, 35, by decide⟩,
   ⟨{ wRun with lat := { wRun.lat with shadows := [{ phys := 35, logical := 0, frame := 0, same := some true, compared := false }] } }, _, _, 35, _, ⟨by decide, by decide, rfl, rfl, rfl, rfl, by decide, rfl⟩⟩⟩

theorem witness_ModeSwitches :
    (∃ (s u : State), (s.rd R.TT_MODE_STATUS_STATE ≠ 3) ∧ (s.rd R.TT_MODE_STATUS_STATE ≠ 4) ∧ (u = (((s.loseSwitch).wr R.TT_MODE_NEXT_ACTIVE (s.rd R.TT_MODE_NEXT_ACTIVE)).wr R.TT_MODE_NEXT_MIRROR (s.rd R.TT_MODE_NEXT_MIRROR)).modeState 1 0)) ∧
    (∃ (s : State), (s.rd R.TT_MODE_STATUS_STATE = 3)) ∧
    (∃ (s : State), (s.rd R.TT_MODE_STATUS_STATE = 1) ∧ (s.tt.base = none)) ∧
    (∃ (s u : State) (b : Image) (delta : List DeltaWrite) (a m h : Nat), (s.rd R.TT_MODE_STATUS_STATE = 1) ∧ (s.tt.base = some b) ∧ (s.role = .solo) ∧ (a = s.rd R.TT_MODE_NEXT_ACTIVE) ∧ (m = s.rd R.TT_MODE_NEXT_MIRROR) ∧ (delta = s.deltaFor b (s.rd R.TT_MODE_CUR_ACTIVE) a) ∧ (s.prepareReason b a m delta = none) ∧ (h = s.switchHash a m delta) ∧ (u = { s with tt := { s.tt with switch := some { active := a, mirror := m, delta, hash := h, frame := none, at_ := 0, proposed := false, written := 0 } } })) ∧
    (∃ (s : State) (w : Switch) (k : Nat), (s.tt.switch = some w) ∧ (s.armCheck (s.rd64 R.TT_MODE_AT_LO R.TT_MODE_AT_HI) = .inr (k + 1))) ∧
    (∃ (s : State) (w : Switch), (s.tt.switch = some w) ∧ (s.armCheck (s.rd64 R.TT_MODE_AT_LO R.TT_MODE_AT_HI) = .inr 0)) ∧
    (∃ (s : State), (s.rd R.TT_MODE_STATUS_STATE = 2 ∨ s.rd R.TT_MODE_STATUS_STATE = 3)) ∧
    (∃ (s : State), (s.rd R.TT_MODE_STATUS_STATE ≠ 2) ∧ (s.rd R.TT_MODE_STATUS_STATE ≠ 3)) ∧
    (∃ (s : State) (w : Switch) (j : Nat), (s.switchDue = some w) ∧ (s.unit = .run) ∧ (j = w.written) ∧ (j < 1024)) ∧
    (∃ (s : State) (j : Nat), (s.switchDue = none)) :=
  ⟨⟨wStop, _, ⟨by decide, by decide, rfl⟩⟩,
   ⟨wR [(R.TT_MODE_STATUS_STATE.key 0 0, 3)], by decide⟩,
   ⟨wR [(R.TT_MODE_STATUS_STATE.key 0 0, 1)], by decide⟩,
   ⟨{ wR [(R.TT_MODE_STATUS_STATE.key 0 0, 1)] with tt := { wStop.tt with base := some wImage } }, _, wImage, _, _, _, _, ⟨by decide, rfl, rfl, rfl, rfl, rfl, by decide, rfl, rfl⟩⟩,
   ⟨{ wR [(R.TT_MODE_STATUS_STATE.key 0 0, 2)] with unit := .run, tt := { wStop.tt with switch := some wSwitch } }, wSwitch, 0, by decide⟩,
   ⟨{ wR [(R.TT_MODE_STATUS_STATE.key 0 0, 2)] with tt := { wStop.tt with switch := some wSwitch } }, wSwitch, by decide⟩,
   ⟨wR [(R.TT_MODE_STATUS_STATE.key 0 0, 3)], by decide⟩,
   ⟨wStop, by decide⟩,
   ⟨{ wR [(R.TT_MODE_STATUS_STATE.key 0 0, 3)] with unit := .run, tt := { wStop.tt with switch := some { wSwitch with frame := some 1 } } }, _, 0, ⟨rfl, by decide, by decide, by decide⟩⟩,
   ⟨wStop, 0, by decide⟩⟩

theorem witness_EngineWindowsAndBulkCopies :
    (∃ (s : State) (sub : Nat), (s.inRun = false)) ∧
    (∃ (s : State) (sub n : Nat), (s.inRun = true) ∧ (n = s.retriesAt [s.lpWinAddr] (s.lat.bus.length + 400) (8 * (s.tb.frc - s.tb.lastTick) + sub % 8))) ∧
    (∃ (s : State) (v : Nat), (s.unit = .stop) ∧ (s.lpWinAddr < 0x03020000) ∧ (reservedByte s.lpWinAddr = true)) ∧
    (∃ (s : State) (v : Nat), (s.unit = .stop) ∧ (s.lpWinAddr < 0x03020000) ∧ (reservedByte s.lpWinAddr = false)) ∧
    (∃ (s : State) (v : Nat), (s.unit ≠ .stop ∨ 0x03020000 ≤ s.lpWinAddr)) ∧
    (∃ (s : State) (v : Nat), (s.unit = .stop) ∧ (s.svWinAddr < 0x02800000) ∧ (reservedByte s.svWinAddr = false)) ∧
    (∃ (s : State) (v : Nat), (s.unit ≠ .stop)) ∧
    (∃ (s : State), (s.bit R.SV_DMA_BUSY = false)) ∧
    (∃ (s : State), (s.bit R.SV_DMA_BUSY = true)) ∧
    (∃ (s : State) (n : Nat), (s.bit R.SV_DMA_BUSY = true) ∧ (32 * s.rd R.SV_DMA_SRC + 32 * s.rd R.SV_DMA_LEN ≤ Config.storeEnd - Config.storeBase)) ∧
    (∃ (s : State) (n : Nat) (bad : Option Nat), (s.bit R.SV_DMA_BUSY = true) ∧ (Config.storeEnd - Config.storeBase < 32 * s.rd R.SV_DMA_SRC + 32 * s.rd R.SV_DMA_LEN)) ∧
    (∃ (s : State) (u p : Nat), (s.lat.svReloc = some (u, p))) ∧
    (∃ (s v : State), (s.unit = .stop) ∧ (s.rd R.SV_RELOC_CTRL_TARGET < 9) ∧ (s.rd R.SV_PHYS_STATE (s.rd R.SV_RELOC_CTRL_TARGET) = 1) ∧ (v = (((((s.wr R.SV_PHYS_STATE 2 (s.rd R.SV_MAP_PHYS (s.rd R.SV_RELOC_CTRL_LOGICAL))).wr R.SV_PHYS_LOGICAL 0 (s.rd R.SV_MAP_PHYS (s.rd R.SV_RELOC_CTRL_LOGICAL))).wr R.SV_PHYS_STATE 0 (s.rd R.SV_RELOC_CTRL_TARGET)).wr R.SV_PHYS_LOGICAL (s.rd R.SV_RELOC_CTRL_LOGICAL) (s.rd R.SV_RELOC_CTRL_TARGET)).wr R.SV_MAP_PHYS (s.rd R.SV_RELOC_CTRL_TARGET) (s.rd R.SV_RELOC_CTRL_LOGICAL)).wr R.SV_RELOC_STATUS_PENDING 0)) ∧
    (∃ (s : State), (s.unit ≠ .stop) ∧ (s.rd R.SV_RELOC_CTRL_TARGET < 9) ∧ (s.rd R.SV_PHYS_STATE (s.rd R.SV_RELOC_CTRL_TARGET) = 1)) ∧
    (∃ (s : State), (9 ≤ s.rd R.SV_RELOC_CTRL_TARGET ∨ s.rd R.SV_PHYS_STATE (s.rd R.SV_RELOC_CTRL_TARGET) ≠ 1)) ∧
    (∃ (s : State), (s.lat.svReloc = none)) :=
  ⟨⟨wStop, 3, by decide⟩,
   ⟨wRun, 3, _, ⟨by decide, rfl⟩⟩,
   ⟨wR [(R.LP_WIN_ADDR.key 0 0, 27)], 7, by decide⟩,
   ⟨wStop, 7, by decide⟩,
   ⟨wRun, 7, by decide⟩,
   ⟨wStop, 7, by decide⟩,
   ⟨wRun, 7, by decide⟩,
   ⟨wStop, by decide⟩,
   ⟨wR [(R.SV_DMA_BUSY.key 0 0, 1)], by decide⟩,
   ⟨wR [(R.SV_DMA_BUSY.key 0 0, 1)], 3, by decide⟩,
   ⟨wR [(R.SV_DMA_BUSY.key 0 0, 1), (R.SV_DMA_SRC.key 0 0, 0x200000)], 3, none, by decide⟩,
   ⟨{ wStop with lat := { wStop.lat with svReloc := some (7, 8) } }, 7, 8, rfl⟩,
   ⟨wR [(R.SV_RELOC_CTRL_TARGET.key 0 0, 8), (R.SV_PHYS_STATE.key 8 0, 1)], _, ⟨by decide, by decide, by decide, rfl⟩⟩,
   ⟨{ wR [(R.SV_RELOC_CTRL_TARGET.key 0 0, 8), (R.SV_PHYS_STATE.key 8 0, 1)] with unit := .run }, by decide⟩,
   ⟨wR [(R.SV_RELOC_CTRL_TARGET.key 0 0, 9)], by decide⟩,
   ⟨wStop, by decide⟩⟩

theorem witness_FieldGroupCrossings :
    (∃ (s : State) (ch e : Nat) (m : Meas), (ch < 96) ∧ (s.chMode (ch / 8) (ch % 8) ≠ 0) ∧ ((s.group (ch / 8)).supply = true) ∧ (s.windowEnd ch = some e) ∧ ((s.toFrc e).cjWaits ch = false)) ∧
    (∃ (s : State) (ch e : Nat) (m : Meas), (ch < 96) ∧ (s.chMode (ch / 8) (ch % 8) ≠ 0) ∧ ((s.group (ch / 8)).supply = true) ∧ (s.windowEnd ch = some e) ∧ ((s.toFrc e).cjWaits ch = true)) ∧
    (∃ (s : State) (ch : Nat) (m : Meas), (ch < 96) ∧ ((s.group (ch / 8)).supply = true) ∧ (s.chMode (ch / 8) (ch % 8) = 0)) ∧
    (∃ (s : State) (ch : Nat) (m : Meas), (96 ≤ ch ∨ (s.group (ch / 8)).supply = false)) ∧
    (∃ (s : State) (g : Nat), (g < 12) ∧ ((s.group g).supply = true)) ∧
    (∃ (s : State) (g : Nat), (g < 12) ∧ ((s.group g).supply = true)) ∧
    (∃ (s : State) (g : Nat), (g < 12) ∧ (100 ≤ (s.group g).invalid) ∧ ((s.group g).supply = true) ∧ (s.bit R.FG_STATUS_FALLBACK g = false)) ∧
    (∃ (s : State) (g : Nat), ((s.group g).invalid < 100)) ∧
    (∃ (s : State) (g : Nat), (g < 12) ∧ (s.bit R.FG_STATUS_FALLBACK g = true) ∧ ((s.group g).supply = true) ∧ (s.unit ≠ .boot) ∧ ((s.group g).order = true ∨ 100 ≤ (s.group g).valid)) ∧
    (∃ (s : State) (g : Nat), (s.bit R.FG_STATUS_FALLBACK g = false)) ∧
    (∃ (s : State) (g : Nat), (g < 12)) ∧
    (∃ (s : State) (g : Nat), (g < 12) ∧ ((s.group g).supply = false)) ∧
    (∃ (s : State) (draw : List Nat) (at_ : Nat), (at_ = max s.sup.loopAt ((s.tb.frc + 99999) / 100000 * 100000)) ∧ (s.ticking = false ∨ max s.tb.frc at_ < s.nextTick) ∧ (((List.range 12).map (fun g => min (draw.getD g 0) ((s.toFrc at_).rd R.FG_POWER_LIMIT g))).sum < 38000) ∧ ((s.toFrc at_).bit R.FG_STATUS_MODULE_LIMIT 0 = false)) ∧
    (∃ (s : State) (draw : List Nat) (at_ : Nat), (at_ = max s.sup.loopAt ((s.tb.frc + 99999) / 100000 * 100000)) ∧ (s.ticking = false ∨ max s.tb.frc at_ < s.nextTick) ∧ (40000 < ((List.range 12).map (fun g => min (draw.getD g 0) ((s.toFrc at_).rd R.FG_POWER_LIMIT g))).sum)) :=
  ⟨⟨wChan 1 [], 95, _, wMeas, ⟨by decide, by decide, by decide, rfl, by decide⟩⟩,
   ⟨{ wChan 6 [(R.CH_CFG_CJ_SRC.key 11 7, 2), (R.CH_CFG_CJ_TERM.key 11 7, 5), (R.CH_CFG_MODE.key 11 5, 5)] with groups := List.replicate 12 { Group.reset with supply := true } }, 95, _, wMeas, ⟨by decide, by decide, by decide, rfl, by decide⟩⟩,
   ⟨{ wStop with groups := List.replicate 12 { Group.reset with supply := true } }, 95, wMeas, by decide⟩,
   ⟨wStop, 96, wMeas, by decide⟩,
   ⟨wChan 1 [], 11, by decide⟩,
   ⟨wChan 1 [], 11, by decide⟩,
   ⟨{ wR [(R.FG_STATUS_FALLBACK.key 11 0, 0)] with groups := List.replicate 12 { Group.reset with supply := true, invalid := 100 } }, 11, by decide⟩,
   ⟨wStop, 11, by decide⟩,
   ⟨{ wR [(R.FG_STATUS_FALLBACK.key 11 0, 1)] with groups := List.replicate 12 { Group.reset with supply := true, valid := 100 } }, 11, by decide⟩,
   ⟨wR [(R.FG_STATUS_FALLBACK.key 11 0, 0)], 11, by decide⟩,
   ⟨wStop, 11, by decide⟩,
   ⟨{ wStop with groups := List.replicate 12 { Group.reset with supply := false } }, 11, by decide⟩,
   ⟨wStop, [1, 2, 3, 4, 5, 6, 7, 8, 9, 10, 11, 12], _, ⟨rfl, by decide, by decide, by decide⟩⟩,
   ⟨wR ((List.range 12).map (fun g => (R.FG_POWER_LIMIT.key g 0, 5000))), List.replicate 12 4000, _, ⟨rfl, by decide, by decide⟩⟩⟩

theorem witness_FieldGroupChanges :
    (∃ (s : State) (g : Nat), (g < 12)) ∧
    (∃ (s : State) (g : Nat), (12 ≤ g)) ∧
    (∃ (s : State) (g : Nat), (s.bit R.FG_STATUS_APPLY_PENDING g = false)) ∧
    (∃ (s : State) (g r t : Nat), (g < 12) ∧ (s.bit R.FG_STATUS_APPLY_PENDING g = true) ∧ (s.toTick.fgRefusal g = some (r, t))) ∧
    (∃ (s u v : State) (g : Nat), (g < 12) ∧ (s.bit R.FG_STATUS_APPLY_PENDING g = true) ∧ (s.toTick.fgRefusal g = none) ∧ (u = (List.range 8).foldl (fun s t => s.applyTerminal g t) s.toTick) ∧ (v = (((((u.wr R.FG_STATUS_APPLY_PENDING 0 g).wr R.FG_APPLY_STATUS_DONE 1 g).wr R.FG_APPLY_STATUS_REASON 0 g).rateAdapted).driveChans).applyDone (fgBase g) 0)) ∧
    (∃ (s : State) (g : Nat) (dev : Int) (off : Bool), (12 ≤ g)) ∧
    (∃ (s : State) (g : Nat) (dev : Int), (g < 12) ∧ (s.rd R.FG_SPARE_STATUS_STATE g = 0) ∧ ((s.group g).supply = true) ∧ (¬ s.rd R.FG_SPARE_STATUS_XCHK g < 8) ∧ ((s.group g).visitAt + 100000000 ≤ s.tb.frc)) ∧
    (∃ (s : State) (g x : Nat) (dev : Int), (g < 12) ∧ (s.rd R.FG_SPARE_STATUS_STATE g = 0) ∧ ((s.group g).supply = true) ∧ (s.rd R.FG_SPARE_STATUS_XCHK g = x) ∧ (x < 8) ∧ (s.chMode g x ≠ 0) ∧ (dev.natAbs ≤ s.rd R.CH_DRIFT_LIM g x) ∧ ((s.group g).visitAt + 100000000 ≤ s.tb.frc)) ∧
    (∃ (s : State) (g t c : Nat), (g < 12) ∧ (t < 8) ∧ (s.spareReason g t = 0) ∧ (s.spareConv g = some c)) ∧
    (∃ (s : State) (g t : Nat), (g < 12) ∧ (t < 8) ∧ (s.chMode g t = 0)) ∧
    (∃ (s : State) (g : Nat), ((s.group g).shadow = none)) ∧
    (∃ (s v w : State) (g : Nat) (sh : FgShadow), (g < 12) ∧ ((s.group g).shadow = some sh) ∧ (sh.until_ ≤ s.tickFrame) ∧ (v = ((s.toTick.wr (convRow sh.terminal) sh.conv g).wr (convState sh.conv) 0 g).wr (convState (s.toTick.convOf g sh.terminal)) 2 g) ∧ (w = ((v.wr R.FG_SPARE_STATUS_STATE 2 g).wr R.FG_SPARE_STATUS_TERMINAL sh.terminal g).wr R.FG_SPARE_STATUS_DONE 1 g)) ∧
    (∃ (s : State) (ch v : Nat), (ch < 96) ∧ (bitOf v 9 = true)) ∧
    (∃ (s : State) (ch v : Nat), (ch < 96) ∧ (bitOf v 9 = false)) :=
  ⟨⟨wStop, 11, by decide⟩,
   ⟨wStop, 12, by decide⟩,
   ⟨wStop, 11, by decide⟩,
   ⟨{ wR [(R.FG_STATUS_APPLY_PENDING.key 11 0, 1)] with staged := [(R.CH_CFG_MODE.key 11 7, 15)] }, 11, _, _, ⟨by decide, by decide, rfl⟩⟩,
   ⟨wR [(R.FG_STATUS_APPLY_PENDING.key 11 0, 1), (R.FG_STATUS_FALLBACK.key 11 0, 0)], _, _, 11, ⟨by decide, by decide, by decide, rfl, rfl⟩⟩,
   ⟨wStop, 12, 5, true, by decide⟩,
   ⟨{ wR [(R.FG_SPARE_STATUS_XCHK.key 11 0, 8)] with groups := List.replicate 12 { Group.reset with supply := true }, tb := { State.reset.tb with frc := 100000000 } }, 11, 0, by decide⟩,
   ⟨{ wChan 1 [(R.FG_SPARE_STATUS_XCHK.key 11 0, 7), (R.CH_DRIFT_LIM.key 11 7, 5)] with tb := { State.reset.tb with frc := 100000000 } }, 11, 7, 5, by decide⟩,
   ⟨wChan 1 [((convState 8).key 11 0, 1), (R.FG_STATUS_FALLBACK.key 11 0, 0)], 11, 7, 8, by decide⟩,
   ⟨wStop, 11, 7, by decide⟩,
   ⟨wStop, 11, by decide⟩,
   ⟨{ wStop with groups := List.replicate 12 { Group.reset with shadow := some { terminal := 7, conv := 8, until_ := 0 } } }, _, _, 11, _, ⟨by decide, rfl, by decide, rfl, rfl⟩⟩,
   ⟨wStop, 95, 512, by decide⟩,
   ⟨wStop, 95, 511, by decide⟩⟩

theorem witness_HartTransactions :
    (∃ (s : State) (ch e : Nat) (p : HartPoll), ((s.hart ch).polls[e]? = some p) ∧ (s.hartOn ch = true) ∧ (p.last = none) ∧ (((s.hart ch).queue ++ (s.hart ch).cur.toList).any (fun q => q.entry == some e) = false) ∧ ((s.hart ch).queue.length < hartDepth)) ∧
    (∃ (s : State) (ch e : Nat), ((s.hart ch).polls[e]? = none)) ∧
    (∃ (s : State) (ch : Nat) (q : HartReq), (s.hartOn ch = true) ∧ (s.rd R.HART_STATUS_STATE (ch / 8) (ch % 8) = 0) ∧ (s.hartHeld ch = false) ∧ (s.bit R.FG_STATUS_FALLBACK (ch / 8) = false) ∧ ((s.hart ch).cur = none) ∧ (hartNext (s.hart ch).queue = some q) ∧ (q.entry = none) ∧ (s.bit R.HART_CFG_SYNC (ch / 8) (ch % 8) = false)) ∧
    (∃ (s : State) (ch : Nat), (s.hartOn ch = false)) ∧
    (∃ (s u : State) (ch : Nat) (m : HartMsg) (q : HartReq), ((s.hart ch).cur = some q) ∧ (s.rd R.HART_STATUS_STATE (ch / 8) (ch % 8) ≠ 0) ∧ (s.hartSends ch = false) ∧ (m.comm = 0) ∧ (u = ((s.hartState ch 3).hartHeard ch m).updHart ch (fun h => { h with cur := none, tries := 0, responses := if q.entry.isSome then hartKeep h.responses m else h.responses }))) ∧
    (∃ (s : State) (ch : Nat) (m : HartMsg) (q : HartReq), ((s.hart ch).cur = some q) ∧ (s.rd R.HART_STATUS_STATE (ch / 8) (ch % 8) ≠ 0) ∧ (s.hartSends ch = false) ∧ (m.comm ≠ 0)) ∧
    (∃ (s : State) (ch : Nat) (q : HartReq), ((s.hart ch).cur = some q) ∧ (s.rd R.HART_STATUS_STATE (ch / 8) (ch % 8) ≠ 0) ∧ (s.hartSends ch = false)) ∧
    (∃ (s : State) (ch : Nat), ((s.hart ch).cur = none)) ∧
    (∃ (s : State) (ch : Nat) (q : HartReq), ((s.hart ch).queue.find? (fun q => decide (q.queued + 1000000000 < s.tb.frc)) = some q)) ∧
    (∃ (s : State) (ch : Nat), ((s.hart ch).queue = [])) ∧
    (∃ (s : State) (ch : Nat) (m : HartMsg), (s.hartOn ch = true) ∧ (s.bit R.FG_STATUS_FALLBACK (ch / 8) = false) ∧ (((s.hartHeard ch m).inc R.HART_COUNT_BURST (ch / 8) (ch % 8)).bit R.HART_CFG_BURST_RX (ch / 8) (ch % 8) = true)) ∧
    (∃ (s : State) (ch : Nat) (m : HartMsg), (s.hartOn ch = false ∨ s.bit R.FG_STATUS_FALLBACK (ch / 8) = true)) :=
  ⟨⟨wHart, 95, 0, _, ⟨rfl, by decide, by decide, by decide, by decide⟩⟩,
   ⟨wStop, 95, 0, by decide⟩,
   ⟨wHartQ, 95, wReq, by decide⟩,
   ⟨wStop, 95, by decide⟩,
   ⟨wHartC, _, 95, wMsg, wReq, ⟨by decide, by decide, by decide, by decide, rfl⟩⟩,
   ⟨wHartC, 95, { wMsg with comm := 1 }, wReq, by decide⟩,
   ⟨wHartC, 95, wReq, by decide⟩,
   ⟨wStop, 95, by decide⟩,
   ⟨{ wHartQ with tb := { wStop.tb with frc := 1000000001 } }, 95, wReq, by decide⟩,
   ⟨wStop, 95, by decide⟩,
   ⟨wHartWith Hart.reset [(R.HART_CFG_BURST_RX.key 11 7, 1), (R.FG_STATUS_FALLBACK.key 11 0, 0)], 95, wMsg, by decide⟩,
   ⟨wStop, 95, wMsg, by decide⟩⟩

theorem witness_DiscreteIoRefreshesAndOutputs :
    (∃ (s u : State) (volts : List Int) (check : Nat), (1000 * s.nextRefresh 500 + 500 < s.nextTick) ∧ (u = (s.toFrc (1000 * s.nextRefresh 500 + 500)).updDio (fun x => { x with refresh := s.nextRefresh 500 + 1 })) ∧ (u.dio.missed < 100) ∧ (check % 4 = 0)) ∧
    (∃ (s u : State) (volts : List Int) (check : Nat), (1000 * s.nextRefresh 500 + 500 < s.nextTick) ∧ (u = (s.toFrc (1000 * s.nextRefresh 500 + 500)).updDio (fun x => { x with refresh := s.nextRefresh 500 + 1 })) ∧ (100 ≤ u.dio.missed) ∧ (check % 4 = 3)) ∧
    (∃ (s : State) (d : Nat) (mv : Int), (15000 ≤ mv)) ∧
    (∃ (s : State) (d : Nat) (mv : Int), (mv ≤ 5000)) ∧
    (∃ (s u : State) (volts : List Int) (check : Nat), (1000 * s.nextRefresh 400 + 400 < s.nextTick) ∧ (u = (s.toFrc (1000 * s.nextRefresh 400 + 400)).updDio (fun x => { x with refresh := s.nextRefresh 400 + 1 }))) ∧
    (∃ (s : State), (100 ≤ s.dio.missed)) ∧
    (∃ (s : State), (s.dio.missed < 100)) ∧
    (∃ (s : State) (x : Nat × Nat), (s.dio.xfer = some x) ∧ (s.dio.sent = false)) ∧
    (∃ (s : State) (ok : Bool), (s.dio.sent = true)) ∧
    (∃ (s : State) (ok : Bool), (s.dio.xfer = none)) ∧
    (∃ (s : State), (100 ≤ s.dio.invalid) ∧ (s.bit R.DIO_STATUS_OUT_OFF = false)) ∧
    (∃ (s : State), (s.dio.invalid < 100)) ∧
    (∃ (s : State), (s.bit R.DIO_STATUS_OUT_OFF = true) ∧ (s.unit ≠ .boot) ∧ (s.dio.order = true ∨ s.dio.lost = true ∧ 100 ≤ s.dio.valid)) ∧
    (∃ (s : State), (s.unit = .boot)) ∧
    (∃ (s : State) (o : Nat), (o < 32) ∧ (s.doTerminal o = true)) ∧
    (∃ (s : State) (o : Nat), (o < 32)) ∧
    (∃ (s : State) (o : Nat), (s.doTerminal o = false)) ∧
    (∃ (s : State) (h : Nat) (low : Bool), (2 ≤ h)) ∧
    (∃ (s : State), (s.dio.applying = false)) ∧
    (∃ (s : State) (r d : Nat), (s.dio.applying = true) ∧ (s.toTick.dioRefusal = some (r, d))) ∧
    (∃ (s u v : State), (s.dio.applying = true) ∧ (s.toTick.dioRefusal = none) ∧ (u = (List.range 28).foldl (fun s o => doRows.foldl (fun s r => s.adopt r o) s) ((List.range 32).foldl (fun s d => diRows.foldl (fun s r => s.adopt r d) s) ((s.toTick.adopt R.DIO_IN_TYPE).adopt R.DIO_IN_CONT))) ∧ (v = u.updDio (fun x => { x with applying := false, init := x.init ||| ofBits 32 s.toTick.diChanged, count := x.count.mapIdx (fun d n => if bitOf (ofBits 32 (fun d => s.toTick.sg R.DIO_IN_CFG_COUNT_EN d != s.toTick.rd R.DIO_IN_CFG_COUNT_EN d)) d then 0 else n) }))) :=
  ⟨⟨wStop, _, [24000], 4, ⟨by decide, rfl, by decide, by decide⟩⟩,
   ⟨{ wStop with dio := { wStop.dio with missed := 100 } }, _, [24000], 3, ⟨by decide, rfl, by decide, by decide⟩⟩,
   ⟨wStop, 31, 15000, by decide⟩,
   ⟨wStop, 31, 5000, by decide⟩,
   ⟨wStop, _, [], 0, ⟨by decide, rfl⟩⟩,
   ⟨{ wStop with dio := { wStop.dio with missed := 100 } }, by decide⟩,
   ⟨wStop, by decide⟩,
   ⟨{ wStop with dio := { wStop.dio with xfer := some (1, 2) } }, _, ⟨rfl, rfl⟩⟩,
   ⟨{ wStop with dio := { wStop.dio with sent := true } }, true, by decide⟩,
   ⟨wStop, true, by decide⟩,
   ⟨{ wR [(R.DIO_STATUS_OUT_OFF.key 0 0, 0)] with dio := { wStop.dio with invalid := 100 } }, by decide⟩,
   ⟨wStop, by decide⟩,
   ⟨{ wR [(R.DIO_STATUS_OUT_OFF.key 0 0, 1)] with dio := { wStop.dio with valid := 100, lost := true } }, by decide⟩,
   ⟨{ wStop with unit := .boot }, by decide⟩,
   ⟨wOutOn, 31, by decide⟩,
   ⟨wStop, 31, by decide⟩,
   ⟨wStop, 31, by decide⟩,
   ⟨wStop, 2, true, by decide⟩,
   ⟨wStop, by decide⟩,
   ⟨wDioBad, 1, 0, by decide⟩,
   ⟨{ wR [(R.DIO_STATUS_OUT_OFF.key 0 0, 0)] with dio := { wStop.dio with applying := true } }, _, _, ⟨by decide, by decide, rfl, rfl⟩⟩⟩

theorem witness_ChainSweeps :
    (∃ (s : State) (p : Nat), (s.chainOn p = true) ∧ (s.chainState p ≠ csSleeping)) ∧
    (∃ (s : State) (p : Nat), (s.chainOn p = false)) ∧
    (∃ (s : State) (p : Nat), ((s.chain p).order = none)) ∧
    (∃ (s : State) (p t : Nat), ((s.chain p).order = some t) ∧ (s.chainOn p = true) ∧ (((s.chain p).sweep.any (fun w => !w.closed)) = false)) ∧
    (∃ (s : State) (p : Nat), (s.chainState p ≠ csDiscovering)) ∧
    (∃ (s : State) (p : Nat), (p < 8) ∧ (s.chainState p = csDiscovering) ∧ ((s.chain p).order = none)) ∧
    (∃ (s : State) (p S : Nat), (s.chainOn p = true) ∧ (s.chainState p = csRunning) ∧ (s.nextStrobe p = some S) ∧ ((s.chain p).quiet ≠ some S)) ∧
    (∃ (s : State) (p : Nat) (far : Bool), (s.chainOn p = false)) ∧
    (∃ (s : State) (p : Nat), (p < 8) ∧ (s.tb.frc = s.tb.lastTick) ∧ (s.rd R.CH_SWEEP_SRC p ≠ 2) ∧ (s.strobeIn p 0 = true) ∧ ((s.chain p).sweep = none)) ∧
    (∃ (s : State) (p : Nat), (s.strobeIn p 0 = false)) ∧
    (∃ (s : State) (p : Nat), ((s.chain p).sweep = none)) ∧
    (∃ (s : State) (p : Nat) (w : Sweep), ((s.chain p).sweep = some w) ∧ (w.readout = false) ∧ (w.closed = false)) ∧
    (∃ (s : State) (p : Nat) (d : ChainData), (p < 8) ∧ (d.crcOk = false)) ∧
    (∃ (s u : State) (p h : Nat) (d : ChainData) (w : Sweep), (p < 8) ∧ (d.crcOk = true) ∧ ((s.chain p).sweep = some w) ∧ (w.closed = false) ∧ (s.tb.frc < w.close) ∧ (h = s.homeOf p d.far d.pos) ∧ (1 ≤ h) ∧ (h ≤ s.chainN p) ∧ (u = (s.putNode p h w.q (s.dataRecord p w h d)).wr R.CH_NODE_NSTAT d.nstat p (h - 1))) ∧
    (∃ (s : State) (p a : Nat) (far : Bool) (w : Sweep), ((s.chain p).sweep = some w) ∧ (w.readout = true) ∧ (w.closed = false) ∧ (1 ≤ a) ∧ (a ≤ 254) ∧ (a ≤ s.chainN p) ∧ (max s.tb.frc (s.chain p).keepEnd + (2600 + 110 * (a - 1) + 10010) < w.close)) ∧
    (∃ (s u v : State) (p : Nat) (w : Sweep), ((s.chain p).sweep = some w) ∧ (w.readout = true) ∧ (w.closed = false) ∧ (w.got.length ≠ s.chainN p) ∧ (u = s.updSweep p (fun w => { w with brokeHome := true })) ∧ (v = (u.wr R.CH_BREAK_A w.lastHome p).wr R.CH_STATUS_BREAK 1 p)) ∧
    (∃ (s : State) (p : Nat) (w : Sweep), ((s.chain p).sweep = some w) ∧ (w.closed = false) ∧ (s.chainFollows = false)) ∧
    (∃ (s : State) (p : Nat) (w : Sweep), ((s.chain p).sweep = some w) ∧ (s.tb.frc = s.tb.lastTick) ∧ (w.pub ≤ s.tb.frameNo) ∧ (w.closed = true)) :=
  ⟨⟨wChain [], 7, by decide⟩,
   ⟨wStop, 7, by decide⟩,
   ⟨wStop, 7, by decide⟩,
   ⟨wChainW { ChainPort.reset with order := some 0 }, 7, 0, by decide⟩,
   ⟨wStop, 7, by decide⟩,
   ⟨wChain [(R.CH_STATUS_STATE.key 7 0, csDiscovering)], 7, by decide⟩,
   ⟨wChain [(R.CH_STATUS_STATE.key 7 0, csRunning)], 7, _, ⟨by decide, by decide, rfl, by decide⟩⟩,
   ⟨wStop, 7, true, by decide⟩,
   ⟨wChain [(R.CH_STATUS_STATE.key 7 0, csRunning), (R.CH_SWEEP_SRC.key 7 0, 1), (R.CH_SWEEP_PHASE.key 7 0, 0)], 7, by decide⟩,
   ⟨wStop, 7, by decide⟩,
   ⟨wStop, 7, by decide⟩,
   ⟨wSweep { wSw with readout := false }, 7, _, ⟨rfl, rfl, rfl⟩⟩,
   ⟨wStop, 7, { wData with crcOk := false }, by decide⟩,
   ⟨wSweep wSw, _, 7, _, wData, wSw, ⟨by decide, by decide, by decide, by decide, by decide, rfl, by decide, by decide, rfl⟩⟩,
   ⟨wSweep wSw, 7, 1, false, wSw, by decide⟩,
   ⟨wSweep wSw, _, _, 7, wSw, ⟨by decide, by decide, by decide, by decide, rfl, rfl⟩⟩,
   ⟨wSweep wSw, 7, wSw, by decide⟩,
   ⟨wSweep { wSw with closed := true }, 7, _, ⟨rfl, by decide, by decide, rfl⟩⟩⟩

theorem witness_ChainCommandsLinesAndIngest :
    (∃ (s : State) (p : Nat), (p < 8)) ∧
    (∃ (s : State) (p : Nat), (8 ≤ p)) ∧
    (∃ (s : State) (p : Nat), (s.bit R.CH_STATUS_APPLY_PENDING p = false)) ∧
    (∃ (s : State) (p r : Nat), (p < 8) ∧ (s.bit R.CH_STATUS_APPLY_PENDING p = true) ∧ (s.toTick.chainQuietTick p s.toTick.tb.frc = true) ∧ (s.toTick.chainStaged p = r + 1)) ∧
    (∃ (s u v : State) (p : Nat), (p < 8) ∧ (s.bit R.CH_STATUS_APPLY_PENDING p = true) ∧ (s.toTick.chainQuietTick p s.toTick.tb.frc = true) ∧ (s.toTick.chainStaged p = 0) ∧ (u = chainRows.foldl (fun s r => s.adopt r p) s.toTick) ∧ (v = (((u.wr R.CH_STATUS_APPLY_PENDING 0 p).wr R.CH_STATUS_DONE 1 p).wr R.CH_STATUS_REASON 0 p).applyDone (chainBase p) 0) ∧ (v.bit R.CH_CTRL_EN p = true) ∧ (v.chainRing p = false) ∧ (v.chainState (p + 1) ≠ csFarEnd ∨ p % 2 = 1)) ∧
    (∃ (s : State) (p : Nat), (s.chainOn p = true)) ∧
    (∃ (s : State) (p : Nat), (s.chainOn p = false)) ∧
    (∃ (s : State) (p : Nat) (q : ChainCmd) (qs : List ChainCmd), ((s.chain p).queue = q :: qs) ∧ (s.chainOn p = true) ∧ (s.chainState p = csRunning) ∧ ((s.chain p).sentCmd = none) ∧ ((s.chain p).sleepy = false) ∧ (s.chainGap p q = true)) ∧
    (∃ (s : State) (p : Nat), ((s.chain p).queue = []) ∧ ((s.chain p).sentCmd = none)) ∧
    (∃ (s : State) (p h : Nat) (r : ChainResp) (c : ChainCmd), (p < 8) ∧ (h = s.homeOf p r.far r.pos) ∧ (1 ≤ h) ∧ (h ≤ 384) ∧ (s.chainState p ≠ csDiscovering) ∧ ((s.chain p).sentCmd = some c) ∧ (c.h = h) ∧ (r.code ≠ 0x8F) ∧ (c.session ≠ 0)) ∧
    (∃ (s : State) (p : Nat) (r : ChainResp), (8 ≤ p)) ∧
    (∃ (s : State) (p : Nat), (s.chainOn p = true) ∧ (s.chainState p ≠ csSleeping) ∧ ((s.chain p).lastBcast + 50000000 ≤ s.tb.frc) ∧ ((s.chain p).sweep = none) ∧ ((s.chain p).split = false) ∧ (s.nextStrobe p = none)) ∧
    (∃ (s : State) (p : Nat), (s.tb.frc < (s.chain p).lastBcast + 50000000)) ∧
    (∃ (s : State) (p : Nat), (s.chainOn p = true) ∧ (s.chainRing p = true)) ∧
    (∃ (s : State) (p pos : Nat) (quiet : Bool), (pos ≠ s.chainN p)) ∧
    (∃ (s : State) (p c : Nat), (p < 8) ∧ (80 < c)) ∧
    (∃ (s : State) (p t : Nat), ((s.chain p).faultSince = some t)) ∧
    (∃ (s : State) (p : Nat), ((s.chain p).faultSince = none)) ∧
    (∃ (s : State) (p a b : Nat), (s.chainFollows = true) ∧ (p < 8)) ∧
    (∃ (s : State) (i : ChainItem), (s.chainFollows = false)) ∧
    (∃ (s : State), (s.ingest.strobe = none)) ∧
    (∃ (s : State) (frc sec ns pub : Nat), (s.ingest.strobe = some (frc, sec, ns, pub)) ∧ (s.tb.frc ≠ s.tb.lastTick ∨ s.tb.frameNo < pub)) ∧
    (∃ (s : State) (frc sec ns pub : Nat), (s.ingest.strobe = some (frc, sec, ns, pub)) ∧ (s.tb.frc = s.tb.lastTick) ∧ (pub ≤ s.tb.frameNo)) ∧
    (∃ (s : State), (s.bit R.CH_ING_STATUS_APPLY_PENDING = false)) ∧
    (∃ (s u : State), (s.bit R.CH_ING_STATUS_APPLY_PENDING = true) ∧ (s.ingest.strobe = none) ∧ (s.ingReason = 0) ∧ (u = ingRows.foldl (fun s r => (List.range r.2).foldl (fun s i => s.adopt r.1 i) s) s)) ∧
    (∃ (s : State) (r : Nat), (s.bit R.CH_ING_STATUS_APPLY_PENDING = true) ∧ (s.ingest.strobe = none) ∧ (s.ingReason = r + 1)) :=
  ⟨⟨wStop, 7, by decide⟩,
   ⟨wStop, 8, by decide⟩,
   ⟨wStop, 7, by decide⟩,
   ⟨wChainBad, 7, _, ⟨by decide, by decide, by decide, rfl⟩⟩,
   ⟨wR [(R.CH_CTRL_EN.key 7 0, 1), (R.CH_CTRL_RING.key 6 0, 0), (R.CH_CTRL_N.key 7 0, 10), (R.CH_SWEEP_SRC.key 7 0, 0), (R.CH_STATUS_APPLY_PENDING.key 7 0, 1)], _, _, 7, ⟨by decide, by decide, by decide, by decide, rfl, rfl, by decide, by decide, by decide⟩⟩,
   ⟨wChain [], 7, by decide⟩,
   ⟨wStop, 7, by decide⟩,
   ⟨wChainQ, 7, _, _, ⟨rfl, by decide, by decide, by decide, by decide, by decide⟩⟩,
   ⟨wStop, 7, by decide⟩,
   ⟨wChainC, 7, _, wResp, wCmd, ⟨by decide, rfl, by decide, by decide, by decide, by decide, by decide, by decide, by decide⟩⟩,
   ⟨wStop, 8, wResp, by decide⟩,
   ⟨{ wChain [(R.CH_SWEEP_SRC.key 7 0, 0)] with tb := { wStop.tb with frc := 50000000 } }, 7, by decide⟩,
   ⟨wStop, 7, by decide⟩,
   ⟨wChain [(R.CH_CTRL_RING.key 6 0, 1), (R.CH_CTRL_EN.key 6 0, 1)], 6, by decide⟩,
   ⟨wStop, 7, 99, true, by decide⟩,
   ⟨wStop, 7, 81, by decide⟩,
   ⟨wChainW { ChainPort.reset with faultSince := some 0 }, 7, 0, by decide⟩,
   ⟨wStop, 7, by decide⟩,
   ⟨wFollow, 7, 5, 6, by decide⟩,
   ⟨wStop, .close 0 0, by decide⟩,
   ⟨wStop, by decide⟩,
   ⟨{ wStop with ingest := { wStop.ingest with strobe := some (0, 0, 0, 1) } }, 0, 0, 0, 1, by decide⟩,
   ⟨{ wStop with ingest := { wStop.ingest with strobe := some (0, 0, 0, 0) } }, 0, 0, 0, 0, by decide⟩,
   ⟨wStop, by decide⟩,
   ⟨wR [(R.CH_ING_STATUS_APPLY_PENDING.key 0 0, 1)], _, ⟨by decide, by decide, by decide, rfl⟩⟩,
   ⟨{ wR [(R.CH_ING_STATUS_APPLY_PENDING.key 0 0, 1)] with staged := [(R.CH_ING_CTRL_EN.key 0 0, 1)] }, _, ⟨by decide, by decide, rfl⟩⟩⟩

theorem witness_CanPorts :
    (∃ (s : State) (p lec n : Nat) (tx ex : Bool), (p < 8) ∧ ([1, 2, 5].contains (s.canState p) = true) ∧ (1 ≤ lec) ∧ (lec ≤ 6)) ∧
    (∃ (s : State) (p lec n : Nat) (tx ex : Bool), (8 ≤ p)) ∧
    (∃ (s u : State) (p : Nat), (p < 8) ∧ (s.canState p = 2) ∧ (255 < (s.canPort p).txErr) ∧ ((s.canPort p).onBus = none) ∧ (u = (s.wr R.CF_STATUS_STATE 3 p).inc R.CF_BUSOFF p)) ∧
    (∃ (s u : State) (p b frc : Nat), (p < 8) ∧ (s.canState p = 2) ∧ (255 < (s.canPort p).txErr) ∧ ((s.canPort p).onBus = some (b, frc)) ∧ (u = (((s.updCan p (fun c => { c with onBus := none })).canFailed p b 2 frc).wr R.CF_STATUS_STATE 3 p).inc R.CF_BUSOFF p)) ∧
    (∃ (s : State) (p : Nat), ((s.canPort p).txErr ≤ 255)) ∧
    (∃ (s : State) (p : Nat) (r : Bytes), (p < 8) ∧ (s.canListens = false)) ∧
    (∃ (s : State) (p : Nat), (p < 8) ∧ ((s.ringTake (s.rd R.CF_RING_TX_Q p) 1).1.canListens = false) ∧ ((s.ringTake (s.rd R.CF_RING_TX_Q p) 1).1.inRun = true)) ∧
    (∃ (s u : State) (p d b : Nat) (m : CanMsg), (s.canSends p = true) ∧ ((s.canPort p).onBus = none) ∧ ((s.canPort p).lowest = some (b, m)) ∧ (bitOf m.ctrl 4 = false) ∧ (u = (s.updCan p (fun c => { c with onBus := some (b, s.tb.frc) })).updBuf p b (fun x => { x with pend := false })) ∧ (u.rd R.CF_CTRL_MODE p = 0)) ∧
    (∃ (s : State) (p d : Nat), (s.canSends p = false)) ∧
    (∃ (s : State) (p : Nat) (e : CanTxEnd), ((s.canPort p).onBus = none)) ∧
    (∃ (s v u : State) (p b frc : Nat), ((s.canPort p).onBus = some (b, frc)) ∧ (v = s.updCan p (fun c => { c with onBus := none })) ∧ ((v.canBuf p b).abort = false) ∧ (((v.canBuf p b).msg.any (fun m => bitOf m.ctrl 24)) = false) ∧ (b ≠ 30) ∧ (u = v.updBuf p b (fun x => x.leave true true))) ∧
    (∃ (s v u : State) (p b frc : Nat), ((s.canPort p).onBus = some (b, frc)) ∧ (v = s.updCan p (fun c => { c with onBus := none })) ∧ ((v.canBuf p b).abort = true) ∧ (b ≠ 30) ∧ (u = (v.updBuf p b (fun x => x.leave false false)).canDone p b false 3 frc)) ∧
    (∃ (s v u : State) (p b frc : Nat), ((s.canPort p).onBus = some (b, frc)) ∧ (b ≠ 30) ∧ (v = ((s.updCan p (fun c => { c with onBus := none })).updCan p (fun c => { c with txErr := c.txErr - 1 })).inc R.CF_TX p) ∧ (u = (v.updBuf p b (fun x => x.leave (v.canKeeps p b) false)).canDone p b true 0 frc) ∧ (u.rd R.CF_CTRL_MODE p = 0)) ∧
    (∃ (s : State) (p : Nat), (s.tb.frc ≠ s.nextTick)) ∧
    (∃ (s : State) (p : Nat), (s.tb.frc = s.nextTick)) ∧
    (∃ (s u : State) (p : Nat) (f : CanFrame), (u = s.canTable p) ∧ (u.canHears p = true) ∧ (f.fdf = false)) ∧
    (∃ (s u : State) (p : Nat) (f : CanFrame), (u = s.canTable p) ∧ (u.canHears p = true) ∧ (f.fdf = true) ∧ (u.bit R.CF_CTRL_FD_EN p = true) ∧ (f.res = false)) ∧
    (∃ (s u : State) (p : Nat) (f : CanFrame), (u = s.canTable p) ∧ (u.canHears p = true) ∧ (f.fdf = true) ∧ (u.bit R.CF_CTRL_FD_EN p = true) ∧ (f.res = true)) ∧
    (∃ (s u : State) (p : Nat) (f : CanFrame), (u = s.canTable p) ∧ (u.canHears p = true) ∧ (f.fdf = true) ∧ (u.bit R.CF_CTRL_FD_EN p = false)) ∧
    (∃ (s u : State) (p : Nat) (f : CanFrame), (u = s.canTable p) ∧ (u.canHears p = false)) ∧
    (∃ (s u : State) (p : Nat) (data : Bytes), (u = s.canTable p) ∧ (u.canHears p = true) ∧ (u.bit R.CF_SVC_EN p = true)) ∧
    (∃ (s u : State) (p : Nat) (data : Bytes), (u = s.canTable p) ∧ (u.bit R.CF_SVC_EN p = false ∨ u.canHears p = false)) ∧
    (∃ (s : State) (p n : Nat), (p < 8) ∧ ((s.canPort p).svcSeq = some n) ∧ ((s.canPort p).svcAt + 100000000 < s.tb.frc)) ∧
    (∃ (s : State) (p : Nat), ((s.canPort p).svcSeq = none)) ∧
    (∃ (s : State) (p : Nat), (p < 8) ∧ (s.canState p = 4) ∧ ((s.canPort p).recoverAt + 1408 * s.canBit p ≤ s.tb.frc)) ∧
    (∃ (s : State) (p : Nat), (s.canState p ≠ 4)) ∧
    (∃ (s : State) (p v : Nat), (p < 8)) ∧
    (∃ (s : State) (p : Nat), (p < 8)) ∧
    (∃ (s : State) (p v : Nat), (8 ≤ p)) ∧
    (∃ (s : State) (p : Nat), (s.bit R.CF_STATUS_APPLY_PENDING p = false)) ∧
    (∃ (s : State) (p r : Nat), (p < 8) ∧ (s.bit R.CF_STATUS_APPLY_PENDING p = true) ∧ (s.toTick.bit R.CF_STATUS_APPLY_PENDING p = true) ∧ (s.toTick.canReason p = r + 1)) ∧
    (∃ (s u : State) (p : Nat), (p < 8) ∧ (s.bit R.CF_STATUS_APPLY_PENDING p = true) ∧ (s.toTick.bit R.CF_STATUS_APPLY_PENDING p = true) ∧ (s.toTick.canReason p = 0) ∧ (s.toTick.canState p = 0) ∧ (u = ((((s.toTick.adoptAll canRows p (canBase p) (canBase (p + 1))).wr R.CF_STATUS_APPLY_PENDING 0 p).wr R.CF_STATUS_DONE 1 p).wr R.CF_APPLY_REASON 0 p).applyDone (canBase p) 0)) :=
  ⟨⟨wCan 1 CanPort.reset [], 7, 6, 0, true, false, by decide⟩,
   ⟨wStop, 8, 1, 0, true, false, by decide⟩,
   ⟨wCan 2 { CanPort.reset with txErr := 256 } [], _, 7, ⟨by decide, by decide, by decide, by decide, rfl⟩⟩,
   ⟨wCan 2 { CanPort.reset with txErr := 256, onBus := some (3, 5) } [], _, 7, 3, 5, ⟨by decide, by decide, by decide, by decide, rfl⟩⟩,
   ⟨wStop, 7, by decide⟩,
   ⟨wStop, 7, [], by decide⟩,
   ⟨wRun, 7, by decide⟩,
   ⟨wCan 1 { CanPort.reset with bufs := { CanBuf.reset with msg := some wCanMsg, pend := true } :: List.replicate 31 CanBuf.reset } [], _, 7, 100, _, _, ⟨by decide, by decide, rfl, by decide, rfl, by decide⟩⟩,
   ⟨wStop, 7, 0, by decide⟩,
   ⟨wStop, 7, .ok, by decide⟩,
   ⟨wCan 1 { CanPort.reset with onBus := some (0, 5), bufs := List.replicate 32 CanBuf.reset } [], _, _, 7, 0, 5, ⟨by decide, rfl, by decide, by decide, by decide, rfl⟩⟩,
   ⟨wCan 1 { CanPort.reset with onBus := some (0, 5), bufs := List.replicate 32 { CanBuf.reset with abort := true } } [], _, _, 7, 0, 5, ⟨by decide, rfl, by decide, by decide, rfl⟩⟩,
   ⟨wCan 1 { CanPort.reset with onBus := some (0, 5), bufs := List.replicate 32 CanBuf.reset } [], _, _, 7, 0, 5, ⟨by decide, by decide, rfl, rfl, by decide⟩⟩,
   ⟨wStop, 7, by decide⟩,
   ⟨{ wStop with tb := { wStop.tb with frc := 100000 } }, 7, by decide⟩,
   ⟨wCan 1 CanPort.reset [], _, 7, wFrame, ⟨rfl, by decide, by decide⟩⟩,
   ⟨wCan 1 CanPort.reset [(R.CF_CTRL_FD_EN.key 7 0, 1)], _, 7, { wFrame with fdf := true }, ⟨rfl, by decide, by decide, by decide, by decide⟩⟩,
   ⟨wCan 1 CanPort.reset [(R.CF_CTRL_FD_EN.key 7 0, 1)], _, 7, { wFrame with fdf := true, res := true }, ⟨rfl, by decide, by decide, by decide, by decide⟩⟩,
   ⟨wCan 1 CanPort.reset [(R.CF_CTRL_FD_EN.key 7 0, 0)], _, 7, { wFrame with fdf := true }, ⟨rfl, by decide, by decide, by decide⟩⟩,
   ⟨wStop, _, 7, wFrame, ⟨rfl, by decide⟩⟩,
   ⟨wCan 1 CanPort.reset [(R.CF_SVC_EN.key 7 0, 1)], _, 7, [], ⟨rfl, by decide, by decide⟩⟩,
   ⟨wCan 1 CanPort.reset [(R.CF_SVC_EN.key 7 0, 0)], _, 7, [], ⟨rfl, by decide⟩⟩,
   ⟨{ wCan 1 { CanPort.reset with svcSeq := some 3 } [] with tb := { wStop.tb with frc := 100000001 } }, 7, 3, by decide⟩,
   ⟨wStop, 7, by decide⟩,
   ⟨{ wCan 4 CanPort.reset [] with tb := { wStop.tb with frc := 100000000 } }, 7, by decide⟩,
   ⟨wStop, 7, by decide⟩,
   ⟨wStop, 7, 1, by decide⟩,
   ⟨wStop, 7, by decide⟩,
   ⟨wStop, 8, 1, by decide⟩,
   ⟨wStop, 7, by decide⟩,
   ⟨{ wR [(R.CF_STATUS_APPLY_PENDING.key 7 0, 1)] with staged := [(R.CF_NBT_TSEG1.key 7 0, 0)] }, 7, 0, by decide⟩,
   ⟨wR [(R.CF_STATUS_APPLY_PENDING.key 7 0, 1), (R.CF_TXB_CFG_RELEASE.key 7 31, 2)], _, 7, ⟨by decide, by decide, by decide, by decide, by decide, rfl⟩⟩⟩

theorem witness_SwitchAndFabric :
    (∃ (s : State) (p : Nat) (f : EthFrame), (s.bit R.ES_CTRL_EN = false)) ∧
    (∃ (s u : State) (p : Nat) (f : EthFrame), (p < 7) ∧ (s.switchHolds p = false) ∧ (s.bit R.ES_CTRL_EN = true) ∧ (s.bit R.ES_PORT_CFG_EN p = true) ∧ (s.bit R.ES_PORT_CFG_LINK p = true) ∧ (u = s.inc R.ES_PORT_CFG_RX p) ∧ (u.secOn p = false) ∧ (f.len ≤ 2048) ∧ (f.supervision = false) ∧ (u.twin p = none)) ∧
    (∃ (s u : State) (p : Nat) (f : EthFrame), (p < 4) ∧ (s.switchHolds p = false) ∧ (s.bit R.ES_CTRL_EN = true) ∧ (s.bit R.ES_PORT_CFG_EN p = true) ∧ (s.bit R.ES_PORT_CFG_LINK p = true) ∧ (u = s.inc R.ES_PORT_CFG_RX p) ∧ (2048 < f.len)) ∧
    (∃ (s : State) (p : Nat), (s.bit R.ES_CTRL_EN = false)) ∧
    (∃ (s u : State) (p q : Nat) (f : EthFrame) (fs : List EthFrame), (p = 6 ∨ p = 7) ∧ (s.bit R.ES_CTRL_EN = true) ∧ (s.bit R.ES_PORT_CFG_EN p = true) ∧ (s.bit R.ES_PORT_CFG_LINK p = true) ∧ ((List.range 8).reverse.find? (fun q => !(s.eth.queues.getD (8 * p + q) []).isEmpty) = some q) ∧ (s.eth.queues.getD (8 * p + q) [] = f :: fs) ∧ (u = (s.updEth (fun e => { e with queues := updAt e.queues (8 * p + q) (fun _ => fs) })).bufLow)) ∧
    (∃ (s : State), ((List.range 4).filter (fun p => (s.twin p).isSome) = [])) ∧
    (∃ (s : State), ((List.range 4).filter (fun p => (s.twin p).isSome) = [0, 1]) ∧ (s.eth.supTx + 200000000 ≤ s.tb.frc)) ∧
    (∃ (s : State) (p : Nat), (p < 4) ∧ ((s.twin p).isSome = true) ∧ (s.eth.supRx.getD (p / 2) 0 + 600000000 ≤ s.tb.frc)) ∧
    (∃ (s : State), (∀ p, p < 4 → (s.twin p).isSome = true → s.tb.frc < s.eth.supRx.getD (p / 2) 0 + 600000000)) ∧
    (∃ (s : State) (p : Nat), (6 ≤ p ∨ s.trust.peers = [])) ∧
    (∃ (s : State) (p : Nat) (m : MacSec), (p < 4) ∧ ((s.trust.peers.any (fun x => x.port == p && x.ended.isNone)) = true) ∧ (s.eth.macsec.getD p MacSec.reset = m) ∧ (s.bit R.ES_MACSEC_KEY_OK p = true)) ∧
    (∃ (s : State) (p a t n : Nat), ((s.eth.macsec.getD p MacSec.reset).old = some (a, t, n)) ∧ (t ≤ s.tb.frc)) ∧
    (∃ (s : State) (p : Nat), ((s.eth.macsec.getD p MacSec.reset).old = none)) ∧
    (∃ (s : State) (e : Nat), (s.fw.restarting.contains 3 = false)) ∧
    (∃ (s : State) (q : Nat), (((s.routeValid Config.routeBase).any (fun e => s.routeDir e == 0 && s.routeKind e == 0 && s.routeRing e == q)) = false)) ∧
    (∃ (s : State) (q : Nat), (s.fw.restarting.contains 3 = false) ∧ (((s.routeValid Config.routeBase).any (fun e => s.routeDir e == 0 && s.routeKind e == 0 && s.routeRing e == q)) = true) ∧ ((s.ringTake q 1).2 = [])) ∧
    (∃ (s : State) (f : FabricFrame), (f.version ≠ 1)) ∧
    (∃ (s : State) (f : FabricFrame) (e : Nat), (f.dst = s.rd R.ES_PLANT) ∧ (f.version = 1) ∧ ((s.routeValid Config.routeBase).find? (fun e => s.routeDir e == 1 && s.routePeer e == f.src && s.routeId e == f.route && s.routeKind e == f.kind) = some e) ∧ (f.kind = 0) ∧ ((s.route e).seqRx = none)) ∧
    (∃ (s : State), (s.bit R.ES_RT_STATUS_PENDING = false)) ∧
    (∃ (s u : State), (s.bit R.ES_RT_STATUS_PENDING = true) ∧ (u = (s.toTick.eth.routes.map (·.entry)).foldl (fun s e => s.fabricFlush e) s.toTick) ∧ (u.routeDup = false)) ∧
    (∃ (s u : State), (s.bit R.ES_RT_STATUS_PENDING = true) ∧ (u = (s.toTick.eth.routes.map (·.entry)).foldl (fun s e => s.fabricFlush e) s.toTick) ∧ (u.routeDup = true)) ∧
    (∃ (s : State) (p : Nat), (s.bit R.CH_ING_OUT_EN p = false)) ∧
    (∃ (s : State) (p e : Nat), (p < 8) ∧ (s.bit R.CH_ING_OUT_EN p = true) ∧ (s.rd R.CH_SWEEPS p ≠ 0) ∧ ((s.routeValid Config.routeBase).find? (fun e => s.routeDir e == 0 && s.routeKind e == 1 && s.routePeer e == s.rd R.CH_ING_OUT_DEST p) = some e)) ∧
    (∃ (s : State) (p v : Nat), (p < 4) ∧ (1 ≤ v) ∧ (v ≤ 2) ∧ (s.rd R.ES_PORT_CFG_SPEED p = 0 ∨ s.rd R.ES_PORT_CFG_SPEED p = v)) ∧
    (∃ (s : State) (p v : Nat), (p < 4) ∧ (1 ≤ v) ∧ (s.rd R.ES_PORT_CFG_SPEED p ≠ 0) ∧ (s.rd R.ES_PORT_CFG_SPEED p ≠ v)) ∧
    (∃ (s : State) (v : Nat), (v = 0 ∨ v = 4)) :=
  ⟨⟨wR [(R.ES_CTRL_EN.key 0 0, 0)], 6, wEth, by decide⟩,
   ⟨wPort, _, 6, wEth, ⟨by decide, by decide, by decide, by decide, by decide, rfl, by decide, by decide, by decide, by decide⟩⟩,
   ⟨wPort, _, 3, { wEth with len := 2049 }, ⟨by decide, by decide, by decide, by decide, by decide, rfl, by decide⟩⟩,
   ⟨wR [(R.ES_CTRL_EN.key 0 0, 0)], 7, by decide⟩,
   ⟨{ wPort with eth := { wPort.eth with queues := List.replicate 55 [] ++ [[wEth]] } }, _, 6, 7, wEth, [], ⟨by decide, by decide, by decide, by decide, by decide, by decide, rfl⟩⟩,
   ⟨wR [(R.ES_CTRL_RED_MODE.key 0 0, 0)], by decide⟩,
   ⟨{ wR [(R.ES_CTRL_RED_MODE.key 0 0, 1)] with tb := { wStop.tb with frc := 200000000 } }, by decide⟩,
   ⟨{ wR [(R.ES_CTRL_RED_MODE.key 0 0, 1)] with tb := { wStop.tb with frc := 600000000 } }, 1, by decide⟩,
   ⟨wStop, by decide⟩,
   ⟨wStop, 5, by decide⟩,
   ⟨wSec, 3, _, ⟨by decide, by decide, rfl, by decide⟩⟩,
   ⟨{ wStop with eth := { wStop.eth with macsec := List.replicate 6 { MacSec.reset with old := some (0, 0, 0) } } }, 5, 0, 0, 0, by decide⟩,
   ⟨wStop, 5, by decide⟩,
   ⟨wStop, 255, by decide⟩,
   ⟨wStop, 127, by decide⟩,
   ⟨wRoute, 5, by decide⟩,
   ⟨wStop, { wFab with version := 2 }, by decide⟩,
   ⟨wRouteIn, wFab, 0, by decide⟩,
   ⟨wStop, by decide⟩,
   ⟨wR [(R.ES_RT_STATUS_PENDING.key 0 0, 1)], _, ⟨by decide, rfl, by decide⟩⟩,
   ⟨{ wR [(R.ES_RT_STATUS_PENDING.key 0 0, 1)] with mem := [(Config.routeShadow, 3), (Config.routeShadow + 32, 3)] }, _, ⟨by decide, rfl, by decide⟩⟩,
   ⟨wStop, 7, by decide⟩,
   ⟨wRouteOut, 7, 0, by decide⟩,
   ⟨wR [(R.ES_PORT_CFG_SPEED.key 3 0, 0)], 3, 2, by decide⟩,
   ⟨wR [(R.ES_PORT_CFG_SPEED.key 3 0, 1)], 3, 2, by decide⟩,
   ⟨wStop, 4, by decide⟩⟩

theorem witness_NetworkTime :
    (∃ (s : State) (p d : Nat) (m : PtpMsg), (s.ptpOn p = false ∨ d ≠ s.rd R.PT_CTRL_DOMAIN)) ∧
    (∃ (s : State) (p d : Nat) (st c : Nat), (s.ptpOn p = true) ∧ (d = s.rd R.PT_CTRL_DOMAIN)) ∧
    (∃ (s : State) (p d : Nat) (raw corr o : Int), (s.ptpOn p = true) ∧ (d = s.rd R.PT_CTRL_DOMAIN)) ∧
    (∃ (s : State) (p d : Nat) (o c : Int), (s.ptpOn p = true) ∧ (d = s.rd R.PT_CTRL_DOMAIN) ∧ ((s.ptp.ports.getD p PtpPort.reset).t1 = none)) ∧
    (∃ (s : State) (p d : Nat) (t1 t2 t3 t4 corr : Int), (s.ptpOn p = true) ∧ (d = s.rd R.PT_CTRL_DOMAIN) ∧ ((s.ptp.ports.getD p PtpPort.reset).t1 = some t1) ∧ ((s.ptp.ports.getD p PtpPort.reset).t2 = some t2) ∧ ((s.ptp.ports.getD p PtpPort.reset).t3 = some t3) ∧ (s.ptpP2P = false)) ∧
    (∃ (s : State) (p d : Nat) (raw : Int), (s.ptpOn p = true) ∧ (d = s.rd R.PT_CTRL_DOMAIN) ∧ (s.ptpMute = false) ∧ (s.ptpP2P = false)) ∧
    (∃ (s : State) (p d : Nat) (raw : Int), (s.ptpOn p = true) ∧ (d = s.rd R.PT_CTRL_DOMAIN)) ∧
    (∃ (s : State) (p d : Nat) (raw corr p1 : Int), (s.ptpOn p = true) ∧ (d = s.rd R.PT_CTRL_DOMAIN) ∧ ((s.ptp.ports.getD p PtpPort.reset).p1 = some p1)) ∧
    (∃ (s : State) (p : Nat) (m : PtpOut), (s.ptpOn p = false)) ∧
    (∃ (s : State) (p : Nat), (s.ptpOn p = true) ∧ (s.ptpMute = true)) ∧
    (∃ (s : State) (p : Nat) (raw : Int), (s.ptpOn p = true) ∧ (s.ptpMute = false) ∧ (s.bit R.PT_CTRL_TWO_STEP = false)) ∧
    (∃ (s : State) (p : Nat) (raw : Int), (s.ptpOn p = true) ∧ (s.ptpMute = false) ∧ (s.bit R.PT_CTRL_TWO_STEP = true)) ∧
    (∃ (s : State) (p : Nat) (raw : Int), (s.ptpOn p = true)) ∧
    (∃ (s u : State), (s.fw.restarting.contains 3 = false) ∧ (s.rd R.PT_STATUS_SLAVE_PORT = 3) ∧ (u = (s.wr R.PT_PORT_PSTATE 4 3).wr R.PT_STATUS_SLAVE_PORT 7) ∧ (u.rd R.PT_STATUS_STATE = 2)) ∧
    (∃ (s : State), (s.fw.restarting.contains 3 = true)) ∧
    (∃ (s u : State), (s.fw.restarting.contains 3 = false) ∧ (s.rd R.PT_STATUS_SLAVE_PORT = 7) ∧ (u = s.wr R.PT_STATUS_SLAVE_PORT 7) ∧ (u.rd R.PT_STATUS_STATE = 2)) :=
  ⟨⟨wStop, 3, 0, .delayReq 0, by decide⟩,
   ⟨wPtp, 3, _, 1, 6, ⟨by decide, rfl⟩⟩,
   ⟨wPtp, 3, _, 5, 6, 7, ⟨by decide, rfl⟩⟩,
   ⟨wPtp, 3, _, 5, 6, ⟨by decide, rfl, by decide⟩⟩,
   ⟨{ wPtpD with ptp := { wStop.ptp with ports := List.replicate 4 { PtpPort.reset with t1 := some 1, t2 := some 2, t3 := some 3 } } }, 3, _, 1, 2, 3, 4, 5, ⟨by decide, rfl, by decide, by decide, by decide, by decide⟩⟩,
   ⟨wPtpD, 3, _, 5, ⟨by decide, rfl, by decide, by decide⟩⟩,
   ⟨wPtp, 3, _, 5, ⟨by decide, rfl⟩⟩,
   ⟨{ wPtp with ptp := { wStop.ptp with ports := List.replicate 4 { PtpPort.reset with p1 := some 1 } } }, 3, _, 5, 6, 1, ⟨by decide, rfl, by decide⟩⟩,
   ⟨wStop, 3, .announce, by decide⟩,
   ⟨wR [(R.PT_CTRL_EN.key 0 0, 1), (R.PT_PORT_EN.key 3 0, 1), (R.PT_CTRL_SLAVE_ONLY.key 0 0, 1)], 3, by decide⟩,
   ⟨wPtpD, 3, 5, by decide⟩,
   ⟨wR [(R.PT_CTRL_EN.key 0 0, 1), (R.PT_PORT_EN.key 3 0, 1), (R.PT_CTRL_SLAVE_ONLY.key 0 0, 0), (R.PT_CTRL_TWO_STEP.key 0 0, 1)], 3, 5, by decide⟩,
   ⟨wPtp, 3, 5, by decide⟩,
   ⟨wR [(R.PT_STATUS_SLAVE_PORT.key 0 0, 3), (R.PT_STATUS_STATE.key 0 0, 2)], _, ⟨by decide, by decide, rfl, by decide⟩⟩,
   ⟨{ wStop with fw := { wStop.fw with restarting := [3] } }, by decide⟩,
   ⟨wR [(R.PT_STATUS_SLAVE_PORT.key 0 0, 7), (R.PT_STATUS_STATE.key 0 0, 2)], _, ⟨by decide, by decide, rfl, by decide⟩⟩⟩

theorem witness_PairLinesAndMessages :
    (∃ (s : State), (s.sup.keep = false) ∧ (s.role ≠ .solo)) ∧
    (∃ (s : State) (k : Nat) (up : Bool), (k < 2)) ∧
    (∃ (s u : State) (m : Image) (ecc : List (Nat × Ecc)), (s.pairImage = some m) ∧ (s.role = .active) ∧ (s.pair.cut = false) ∧ (s.tb.frc ≤ s.tb.lastTick + m.decl.exStart / 8) ∧ (u = (((s.toCycle m.decl.exStart).settleThrough m.decl.exStart).regionEcc m ecc).propose)) ∧
    (∃ (s : State) (m : Image) (ecc : List (Nat × Ecc)), (s.pairImage = some m) ∧ (s.role ≠ .active)) ∧
    (∃ (s : State) (ecc : List (Nat × Ecc)), (s.pairImage = none)) ∧
    (∃ (s : State) (m : ExchMsg), (m.ok = true) ∧ (s.canListens = true) ∧ (s.inRun = true) ∧ (m.unit ≠ s.unitNo) ∧ (s.pair.exch = none) ∧ (m.frameNo = s.tb.frameNo) ∧ (s.pair.cut = false)) ∧
    (∃ (s : State) (m : ExchMsg), (m.ok = false)) ∧
    (∃ (s w q u v : State) (m : Image) (ecc : List (Nat × Ecc)), (s.pairImage = some m) ∧ (s.pair.cut = false) ∧ (s.tb.frc ≤ s.tb.lastTick + m.decl.cutOver / 8) ∧ (w = (s.toCycle m.decl.cutOver).settle m.decl.cutOver) ∧ (w.role = .solo) ∧ (q = w.regionEcc m ecc) ∧ (q.canListens = false) ∧ (u = { q with pair := { q.pair with cut := true } }) ∧ (v = (List.range ((m.shared.exSize + 31) / 32)).foldl (fun s k => ((s.bus (m.decl.cutOver + k) true (.store 1 (m.shared.exAddr + 32 * k) (((u.ownRegion m).drop (32 * k)).take 32))).cutMirrors (m.shared.exAddr + 32 * k) (((u.ownRegion m).drop (32 * k)).take 32)).foldl (fun s w => s.bus (m.decl.cutOver + k) true (.priv w.1 w.2)) (s.bus (m.decl.cutOver + k) true (.store 1 (m.shared.exAddr + 32 * k) (((u.ownRegion m).drop (32 * k)).take 32)))) u) ∧ (v.role = .solo)) ∧
    (∃ (s w u v : State) (m : Image) (ecc : List (Nat × Ecc)), (s.pairImage = some m) ∧ (s.pair.cut = false) ∧ (s.tb.frc ≤ s.tb.lastTick + m.decl.cutOver / 8) ∧ (w = (s.toCycle m.decl.cutOver).settle m.decl.cutOver) ∧ (w.role = .active) ∧ (u = { w with pair := { w.pair with cut := true } }) ∧ (v = (List.range ((m.shared.exSize + 31) / 32)).foldl (fun s k => ((s.bus (m.decl.cutOver + k) true (.store 1 (m.shared.exAddr + 32 * k) (((u.ownRegion m).drop (32 * k)).take 32))).cutMirrors (m.shared.exAddr + 32 * k) (((u.ownRegion m).drop (32 * k)).take 32)).foldl (fun s w => s.bus (m.decl.cutOver + k) true (.priv w.1 w.2)) (s.bus (m.decl.cutOver + k) true (.store 1 (m.shared.exAddr + 32 * k) (((u.ownRegion m).drop (32 * k)).take 32)))) u) ∧ (v.role = .active)) ∧
    (∃ (s w q u v : State) (m : Image) (ecc : List (Nat × Ecc)) (x : ExchMsg), (s.pairImage = some m) ∧ (s.pair.cut = false) ∧ (s.tb.frc ≤ s.tb.lastTick + m.decl.cutOver / 8) ∧ (w = (s.toCycle m.decl.cutOver).settle m.decl.cutOver) ∧ (w.role = .standby) ∧ (q = w.regionEcc m ecc) ∧ (q.pair.exch = some x) ∧ (q.canListens = true) ∧ (u = { q with pair := { q.pair with cut := true } }) ∧ (v = (List.range ((m.shared.exSize + 31) / 32)).foldl (fun s k => ((s.bus (m.decl.cutOver + k) true (.store 1 (m.shared.exAddr + 32 * k) ((x.region.drop (32 * k)).take 32))).cutMirrors (m.shared.exAddr + 32 * k) ((x.region.drop (32 * k)).take 32)).foldl (fun s w => s.bus (m.decl.cutOver + k) true (.priv w.1 w.2)) (s.bus (m.decl.cutOver + k) true (.store 1 (m.shared.exAddr + 32 * k) ((x.region.drop (32 * k)).take 32)))) u) ∧ (v.role = .standby)) ∧
    (∃ (s w q u0 y u v : State) (m : Image) (ecc : List (Nat × Ecc)), (s.pairImage = some m) ∧ (s.pair.cut = false) ∧ (s.tb.frc ≤ s.tb.lastTick + m.decl.cutOver / 8) ∧ (w = (s.toCycle m.decl.cutOver).settle m.decl.cutOver) ∧ (w.role = .standby) ∧ (q = w.regionEcc m ecc) ∧ (q.pair.exch = none) ∧ (q.canListens = true) ∧ (u0 = { q with pair := { q.pair with cut := true } }) ∧ (y = (u0.wr R.PA_EVENTS_EXCH_MISS 1).inc R.PA_EXCH_MISS) ∧ (u = { y with pair := { q.pair with cut := true, ownInputs := true } }) ∧ (v = (List.range ((m.shared.exSize + 31) / 32)).foldl (fun s k => ((s.bus (m.decl.cutOver + k) true (.store 1 (m.shared.exAddr + 32 * k) (((u.ownRegion m).drop (32 * k)).take 32))).cutMirrors (m.shared.exAddr + 32 * k) (((u.ownRegion m).drop (32 * k)).take 32)).foldl (fun s w => s.bus (m.decl.cutOver + k) true (.priv w.1 w.2)) (s.bus (m.decl.cutOver + k) true (.store 1 (m.shared.exAddr + 32 * k) (((u.ownRegion m).drop (32 * k)).take 32)))) u) ∧ (v.role = .standby)) ∧
    (∃ (s : State) (q : Nat) (e : Bytes), (s.canListens = true) ∧ (q < 128) ∧ (0 < (s.ring q).depth) ∧ ((s.ring q).dir = 0) ∧ ((s.ring q).entries.length + (s.ring q).gated.length < (s.ring q).depth)) ∧
    (∃ (s : State) (q : Nat) (e : Bytes), (s.canListens = false)) ∧
    (∃ (s : State) (tx : Nat), (s.bit R.PA_CFG_EN = false)) ∧
    (∃ (s u : State) (tx : Nat), (s.bit R.PA_CFG_EN = true) ∧ (s.inRun = true) ∧ (u = (s.toCycle s.G).settle s.G) ∧ (u.lat.sealed.isNone = false) ∧ (State.linkUp { u with pair := { u.pair with tx } } = false)) ∧
    (∃ (s : State) (m : DigestMsg), (s.bit R.PA_CFG_EN = false ∨ m.unit = s.unitNo)) ∧
    (∃ (s u v : State) (m : DigestMsg), (s.bit R.PA_CFG_EN = true) ∧ (m.unit ≠ s.unitNo) ∧ (s.pair.msg = none) ∧ (s.tb.frc + 300 ≤ s.nextTick) ∧ (u = (s.wr R.PA_STATUS_PARTNER_SEEN 1).wr R.PA_STATUS_PARTNER_ROLE m.role) ∧ (v = State.pairAlign { u with pair := { u.pair with msg := some m, testPartner := if bitOf m.flags 6 then some (!bitOf m.flags 5) else u.pair.testPartner } } m) ∧ (v.role = .standby) ∧ (v.inRun = true)) :=
  ⟨⟨wPair .run .standby [], by decide⟩,
   ⟨wStop, 1, true, by decide⟩,
   ⟨wPair .run .active [], _, wPairImg, [], ⟨by decide, by decide, by decide, by decide, rfl⟩⟩,
   ⟨wPair .run .standby [], wPairImg, [], by decide⟩,
   ⟨wStop, [], by decide⟩,
   ⟨wPair .run .standby [], wExch, by decide⟩,
   ⟨wStop, { wExch with ok := false }, by decide⟩,
   ⟨wPair .run .solo [], _, _, _, _, wPairImg, [], ⟨by decide, by decide, by decide, rfl, by decide, rfl, by decide, rfl, rfl, by decide⟩⟩,
   ⟨wPair .run .active [], _, _, _, wPairImg, [], ⟨by decide, by decide, by decide, rfl, by decide, rfl, rfl, by decide⟩⟩,
   ⟨{ wPair .run .standby [] with pair := { (wPair .run .standby []).pair with exch := some wExch } }, _, _, _, _, wPairImg, [], wExch, ⟨by decide, by decide, by decide, rfl, by decide, rfl, by decide, by decide, rfl, rfl, by decide⟩⟩,
   ⟨wPair .run .standby [], _, _, _, _, _, _, wPairImg, [], ⟨by decide, by decide, by decide, rfl, by decide, rfl, by decide, by decide, rfl, rfl, rfl, rfl, by decide⟩⟩,
   ⟨{ wRing 0 with role := .standby }, 127, [], by decide⟩,
   ⟨wStop, 127, [], by decide⟩,
   ⟨wStop, 5, by decide⟩,
   ⟨{ wPair .run .active [] with lat := { wStop.lat with sealed := some 5 } }, _, 5, ⟨by decide, by decide, rfl, by decide, by decide⟩⟩,
   ⟨wStop, wDig, by decide⟩,
   ⟨wPair .run .standby [], _, _, wDig, ⟨by decide, by decide, by decide, by decide, rfl, rfl, by decide, by decide⟩⟩⟩

theorem witness_PairTransitions :
    (∃ (s u : State), (s.ticking = false ∨ s.tb.frc < s.nextTick) ∧ (0 < s.nextTick) ∧ (u = s.toFrc (s.nextTick - 100)) ∧ (u.eligible = true) ∧ (u.lat.marker = true) ∧ (u.bit R.PA_STATUS_PARTNER_HEALTHY = false ∨ u.pair.markAt = none)) ∧
    (∃ (s : State), (s.pair.down < 3)) ∧
    (∃ (s : State), (3 ≤ s.pair.down) ∧ (s.toTick.role = .active) ∧ (s.role = .active)) ∧
    (∃ (s : State), (3 ≤ s.pair.down) ∧ (s.role = .standby) ∧ (s.toTick.role = .standby)) ∧
    (∃ (s : State), (s.rd R.PA_HANDOVER_STATE ≠ 2)) ∧
    (∃ (s u : State), (s.rd R.PA_HANDOVER_STATE = 2) ∧ (s.pair.hFrame = s.tickFrame) ∧ (s.role = .standby) ∧ (u = (((s.toTick.wr R.PA_HANDOVER_STATE 3).wr R.PA_EVENTS_HANDOVER 1).inc R.PA_HANDOVERS).wake 0x0704 0 0) ∧ (u.role = .standby)) ∧
    (∃ (s : State), (s.bit R.PA_CFG_REVERT = true) ∧ (s.preferred = true) ∧ (s.role = .standby) ∧ (0 < s.rd R.PA_AGREE_RUN) ∧ (s.pair.agreeAt + s.rd R.PA_TIMES_REVERT_HOLD * 100000000 ≤ s.tb.frc)) ∧
    (∃ (s : State), (s.role ≠ .standby)) ∧
    (∃ (s : State) (q : PartnerInfo), (s.unit = .stop) ∧ (s.bit R.PA_CFG_EN = true)) ∧
    (∃ (s : State) (q : PartnerInfo), (s.unit ≠ .stop)) ∧
    (∃ (s : State) (q : PartnerInfo) (t : Nat), (s.pair.separated = true) ∧ (s.bit R.PA_CFG_AUTOJOIN = true) ∧ (s.unit = .stop) ∧ (s.bit R.PA_CFG_EN = true) ∧ (s.pair.upAt = some t) ∧ (t + 1000000000 ≤ s.tb.frc)) ∧
    (∃ (s : State), (s.role = .syncing) ∧ (s.pair.mixed = false) ∧ (s.pair.compared = true) ∧ (s.rd R.PA_TIMES_AGREE_MIN ≤ s.rd R.PA_AGREE_RUN)) ∧
    (∃ (s : State), (s.role ≠ .syncing)) ∧
    (∃ (s : State) (gs : List (Nat × Bytes)), (s.pair.xferAt = none)) ∧
    (∃ (s u : State) (gs : List (Nat × Bytes)) (t : Nat), (s.pair.xferAt = some t) ∧ (s.rd R.PA_JOIN_STATUS_XFER ≠ 3) ∧ (s.pair.joining = true) ∧ (u = (gs.filter (fun g => xferTracked g.1)).foldl (fun s g => s.setBytes g.1 (g.2.take 32)) s)) ∧
    (∃ (s : State) (x : XferFinal) (t : Nat), (s.pair.xferAt = some t) ∧ (s.pair.joining = true)) ∧
    (∃ (s : State) (x : XferFinal), (s.pair.xferAt = none)) ∧
    (∃ (s : State) (t : Nat), (s.pair.xferAt = some t) ∧ (t + 6000000000 ≤ s.tb.frc) ∧ (s.pair.finalAt = none) ∧ (s.role ≠ .syncing)) ∧
    (∃ (s u : State) (p a b : Bool), (s.pair.test.isNone = false) ∧ (s.role = .active) ∧ (u = { s with pair := { s.pair with testOwn := some (s.pair.testOwn.getD p) } }) ∧ (u.pair.testOwn = some a) ∧ (u.pair.testPartner = some b)) ∧
    (∃ (s : State) (p : Bool), (s.pair.test.isNone = true)) ∧
    (∃ (s : State) (m : PathMsg), (s.bit R.PA_CFG_EN = false)) ∧
    (∃ (s : State) (h : Option Nat) (r : Nat), (s.unit ≠ .off) ∧ (s.fw.restarting.contains 0 = false) ∧ (s.bit R.PA_CFG_EN = true) ∧ (s.inRun = true)) :=
  ⟨⟨{ wPair .run .standby [] with lat := { wStop.lat with marker := true } }, _, ⟨by decide, by decide, rfl, by decide, by decide, by decide⟩⟩,
   ⟨wStop, by decide⟩,
   ⟨{ wPair .run .active [] with pair := { wStop.pair with down := 3 } }, by decide⟩,
   ⟨{ wPair .run .standby [] with pair := { wStop.pair with down := 3 } }, by decide⟩,
   ⟨wStop, by decide⟩,
   ⟨{ wPair .run .standby [(R.PA_HANDOVER_STATE.key 0 0, 2)] with pair := { wStop.pair with hFrame := 0 } }, _, ⟨by decide, by decide, by decide, rfl, by decide⟩⟩,
   ⟨wPair .run .standby [(R.PA_CFG_REVERT.key 0 0, 1), (R.PA_CFG_PREFERRED.key 0 0, 0), (R.PA_AGREE_RUN.key 0 0, 1), (R.PA_TIMES_REVERT_HOLD.key 0 0, 0)], by decide⟩,
   ⟨wStop, by decide⟩,
   ⟨wPair .stop .solo [], wInfo, by decide⟩,
   ⟨wRun, wInfo, by decide⟩,
   ⟨{ wPair .stop .solo [(R.PA_CFG_AUTOJOIN.key 0 0, 1)] with pair := { wStop.pair with separated := true, upAt := some 0 }, tb := { wStop.tb with frc := 1000000000 } }, wInfo, 0, by decide⟩,
   ⟨{ wPair .run .syncing [(R.PA_AGREE_RUN.key 0 0, 1000)] with pair := { wStop.pair with compared := true } }, by decide⟩,
   ⟨wStop, by decide⟩,
   ⟨wStop, [], by decide⟩,
   ⟨wJoining, _, [], 0, ⟨by decide, by decide, by decide, rfl⟩⟩,
   ⟨wJoining, wFinal, 0, by decide⟩,
   ⟨wStop, wFinal, by decide⟩,
   ⟨{ wJoining with tb := { wStop.tb with frc := 6000000000 } }, 0, by decide⟩,
   ⟨{ wPair .run .active [] with pair := { wStop.pair with test := some 0, testPartner := some true } }, _, true, true, true, ⟨by decide, by decide, rfl, by decide, by decide⟩⟩,
   ⟨wStop, true, by decide⟩,
   ⟨wStop, .entering, by decide⟩,
   ⟨wPair .run .active [], none, 0, by decide⟩⟩

theorem witness_IndicatorGateway :
    (∃ (s : State) (temp : Int), (s.fw.restarting.contains 6 = false)) ∧
    (∃ (s : State) (temp : Int), (s.fw.restarting.contains 6 = true)) ∧
    (∃ (s : State), (firstDone s.disp.flight = none)) ∧
    (∃ (s : State) (f : Flight), (firstDone s.disp.flight = some f) ∧ (f.done ≤ s.tb.frc) ∧ (f.rect.h ≠ 240)) ∧
    (∃ (s : State), (s.disp.ready = true) ∧ (s.disp.pageAt + 1000000000 ≤ s.tb.frc)) ∧
    (∃ (s : State), (s.disp.ready = false)) ∧
    (∃ (s : State), (s.disp.flight = []) ∧ (s.tb.frc < s.disp.pumpAt + 100000000)) ∧
    (∃ (s : State), (s.disp.flight = []) ∧ (s.disp.pumpAt + 100000000 ≤ s.tb.frc)) ∧
    (∃ (s : State) (f : Flight) (fs : List Flight), (s.disp.flight = f :: fs)) ∧
    (∃ (s : State), (s.disp.ready = true) ∧ (s.disp.crack = false)) ∧
    (∃ (s u v : State) (temp : Int), (s.disp.ready = false) ∧ (s.met.powered = true) ∧ (u = { s with disp := { s.disp with ready := true, crack := false, repaint := true, lost := [], page := nextPage s.met.params.pages 7, pageAt := s.tb.frc } }) ∧ (v = s.disp.lost.foldl (fun s t => s.dgReport t 3) { u with disp := { u.disp with want := u.legalVals, wantAt := (u.met.sec, u.met.ns), legalWait := false } })) ∧
    (∃ (s : State) (temp : Int) (b : Bool), (s.disp.ready = true)) ∧
    (∃ (s : State) (r : Req) (x : Nat) (y : Nat) (w : Nat) (h : Nat) (pixels : Bytes), (Passes s r { op := opRect, level := .operator })) ∧
    (∃ (s : State) (r : Req), (Passes s r { op := opClear, level := .operator })) ∧
    (∃ (s : State) (r : Req), (Passes s r { op := 0x0B02, level := .observer })) :=
  ⟨⟨wStop, 250, by decide⟩,
   ⟨{ wStop with fw := { wStop.fw with restarting := [6] } }, 250, by decide⟩,
   ⟨wStop, by decide⟩,
   ⟨{ wStop with disp := { wStop.disp with flight := [wFlight] } }, wFlight, by decide⟩,
   ⟨{ wStop with disp := { wStop.disp with ready := true }, tb := { wStop.tb with frc := 1000000000 } }, by decide⟩,
   ⟨wStop, by decide⟩,
   ⟨wStop, by decide⟩,
   ⟨{ wStop with tb := { wStop.tb with frc := 100000000 } }, by decide⟩,
   ⟨{ wStop with disp := { wStop.disp with flight := [wFlight] } }, _, _, rfl⟩,
   ⟨{ wStop with disp := { wStop.disp with ready := true } }, by decide⟩,
   ⟨{ wStop with met := { wStop.met with powered := true } }, _, _, 250, ⟨by decide, by decide, rfl, rfl⟩⟩,
   ⟨{ wStop with disp := { wStop.disp with ready := true } }, 250, true, by decide⟩,
   ⟨wOwn, wReq1, 0, 64, 4, 1, [0], ⟨rfl, _, rfl, by decide, by decide, by decide, by decide, by decide, by first | exact .inl rfl | exact .inr (.inl (by decide)) | exact .inr (.inr (.inl rfl)), by first | exact .inl rfl | exact .inr ⟨_, rfl, rfl⟩, by decide⟩⟩,
   ⟨wOwn, wReq1, ⟨rfl, _, rfl, by decide, by decide, by decide, by decide, by decide, by first | exact .inl rfl | exact .inr (.inl (by decide)) | exact .inr (.inr (.inl rfl)), by first | exact .inl rfl | exact .inr ⟨_, rfl, rfl⟩, by decide⟩⟩,
   ⟨wOwn, wReq1, ⟨rfl, _, rfl, by decide, by decide, by decide, by decide, by decide, by first | exact .inl rfl | exact .inr (.inl (by decide)) | exact .inr (.inr (.inl rfl)), by first | exact .inl rfl | exact .inr ⟨_, rfl, rfl⟩, by decide⟩⟩⟩

theorem witness_SupplySupervision :
    (∃ (s : State) (n mv : Nat), (n < 2)) ∧
    (∃ (s : State) (n mv : Nat), (2 ≤ n)) ∧
    (∃ (s : State) (n mv : Nat), (n < 2) ∧ (mv < 32500)) ∧
    (∃ (s u : State) (x : MeterIn), (s.unit ≠ .off) ∧ (s.sup.pfwAt = none) ∧ (u = State.journal (State.inc (State.wr { s with sup := { s.sup with pfwAt := some s.tb.frc, pfwClearAt := none, latticeStop := s.sup.latticeStop || s.unit == UnitState.boot } } R.SS_STATUS_PFW 1) R.SS_PFW) 0x0B .pfw)) ∧
    (∃ (s : State) (x : MeterIn), (s.unit = .off)) ∧
    (∃ (s : State), (s.sup.pfwAt = none)) ∧
    (∃ (s u : State) (t : Nat), (s.sup.pfwAt = some t) ∧ (u = (s.wr R.SS_STATUS_PFW 0).evalTrips) ∧ (u.sup.latticeStop = false)) ∧
    (∃ (s : State) (t : Nat), (s.sup.pfwAt = some t) ∧ (s.sup.latticeStop = false) ∧ (s.nextTick ≤ t + 1500000)) ∧
    (∃ (s : State) (t : Nat), (s.sup.pfwAt = some t) ∧ (s.sup.latticeStop = false) ∧ (t + 1500000 < s.nextTick)) ∧
    (∃ (s u v : State) (t : Nat), (s.sup.pfwAt = some t) ∧ (t + 2000000 ≤ s.tb.frc) ∧ (s.inRun = false) ∧ (u = s.acc.sessions.foldl (fun s x => s.closeSession x.id) s) ∧ (v = { u.wr R.TT_RET_FRAME_LOST (min 1 s.tt.sealedRecs.length) with unit := .off, tt := { u.tt with sealedRecs := [], throughPending := [] }, sup := { u.sup with supply := false, keep := false }, groups := u.groups.map (fun (g : Group) => { g with supply := false }) })) ∧
    (∃ (s : State) (temp : Int), (1150 < temp)) ∧
    (∃ (s : State) (temp : Int), (temp ≤ 1150)) :=
  ⟨⟨wStop, 1, 30000, by decide⟩,
   ⟨wStop, 2, 30000, by decide⟩,
   ⟨wStop, 1, 32499, by decide⟩,
   ⟨wRun, _, wMeter, ⟨by decide, by decide, rfl⟩⟩,
   ⟨{ wStop with unit := .off }, wMeter, by decide⟩,
   ⟨wStop, by decide⟩,
   ⟨{ wStop with sup := { wStop.sup with pfwAt := some 0 } }, _, 0, ⟨by decide, rfl, by decide⟩⟩,
   ⟨{ wStop with sup := { wStop.sup with pfwAt := some 0 } }, 0, by decide⟩,
   ⟨{ wStop with sup := { wStop.sup with pfwAt := some 0 }, tb := { wStop.tb with lastTick := 1500000, base := 1500000, frc := 1500000 } }, 0, by decide⟩,
   ⟨{ wStop with sup := { wStop.sup with pfwAt := some 0 }, tb := { wStop.tb with frc := 2000000 } }, _, _, 0, ⟨by decide, by decide, by decide, rfl, rfl⟩⟩,
   ⟨wStop, 1151, by decide⟩,
   ⟨wStop, 1150, by decide⟩⟩

theorem witness_HealthAndSpares :
    (∃ (s : State) (k i : Nat), (s.lockOpen = false) ∧ (s.hsWaits = false)) ∧
    (∃ (s u : State) (k i : Nat), (s.lockOpen = true) ∧ (u = (s.wr R.HS_SWITCH_KIND k).wr R.HS_SWITCH_INDEX i) ∧ (u.hsWaits = true)) ∧
    (∃ (s : State) (k : Nat), (s.hs.switches = [])) ∧
    (∃ (s u v : State) (k i sp : Nat) (rdy : Bool), (s.hs.switches.find? (fun x => x.kind == k) = some ⟨k, i, sp, rdy⟩) ∧ (s.hsReady ⟨k, i, sp, rdy⟩ = true) ∧ (3 ≤ k) ∧ (u = State.hsUse { s.hsPoint k with hs := { (s.hsPoint k).hs with maps := (s.hsPoint k).hs.maps ++ [(k, i, sp)] } } k) ∧ (v = { u with hs := { u.hs with switches := u.hs.switches.filter (fun y => y.kind != k), beyond := u.hs.beyond.filter (fun b => !(b.1 == k && b.2.1 == i)), warned := u.hs.warned.filter (fun w => w != (k, i)) } })) ∧
    (∃ (s : State) (k : Nat), (3 ≤ k) ∧ (k ≤ 5) ∧ ((s.hs.switches.any (fun x => x.kind == k && !x.ready)) = true) ∧ (s.inRun = false)) ∧
    (∃ (s : State) (k i m e : Nat) (f : Bool), (11 ≤ k)) ∧
    (∃ (s : State) (k i m e : Nat), (s.evalDue k i false = false)) ∧
    (∃ (s u v : State) (k i m e : Nat), (k < 11) ∧ (k ≠ 2) ∧ (s.evalDue k i false = true) ∧ (u = { s with hs := { s.hs with evals := (k, i, s.tb.frc) :: s.hs.evals.filter (fun e => !(e.1 == k && e.2.1 == i)) } }) ∧ (wearBeyond k (u.rd R.HS_THR_WARN k) m e = true) ∧ (u.hs.warned.contains (k, i) = false) ∧ (v = State.journal (State.wr { u with hs := { u.hs with warned := (k, i) :: u.hs.warned } } R.HS_WARN (u.rd R.HS_WARN ||| 2 ^ k)) 0x0E .wear [k, i, 1]) ∧ (wearBeyond k (v.rd R.HS_THR_ACT k) m e = false)) ∧
    (∃ (s : State), (16 ≤ s.jr.ram.length)) ∧
    (∃ (s : State), (s.jr.ram = [])) ∧
    (∃ (s : State) (src : Nat) (e : JEvent) (d : List Nat), (s.jr.ram.length < 64)) ∧
    (∃ (s : State) (src : Nat) (e : JEvent) (d : List Nat), (64 ≤ s.jr.ram.length)) :=
  ⟨⟨wStop, 3, 0, by decide⟩,
   ⟨{ wLock with unit := .boot }, _, 3, 0, ⟨by decide, rfl, by decide⟩⟩,
   ⟨wStop, 3, by decide⟩,
   ⟨{ wStop with hs := { wStop.hs with switches := [⟨4, 1, 0, true⟩] } }, _, _, 4, 1, 0, true, ⟨by decide, by decide, by decide, rfl, rfl⟩⟩,
   ⟨{ wStop with hs := { wStop.hs with switches := [⟨5, 1, 0, false⟩] } }, 5, by decide⟩,
   ⟨wStop, 11, 0, 0, 0, true, by decide⟩,
   ⟨{ wStop with hs := { wStop.hs with evals := [(6, 0, 0)] } }, 6, 0, 0, 0, by decide⟩,
   ⟨wR [(R.HS_THR_WARN.key 6 0, 5), (R.HS_THR_ACT.key 6 0, 50)], _, _, 6, 0, 10, 0, ⟨by decide, by decide, by decide, rfl, by decide, by decide, rfl, by decide⟩⟩,
   ⟨{ wStop with jr := { wStop.jr with ram := List.replicate 16 wJEnt } }, by decide⟩,
   ⟨wStop, by decide⟩,
   ⟨wStop, 0x0B, .halt, [], by decide⟩,
   ⟨{ wStop with jr := { wStop.jr with ram := List.replicate 64 wJEnt } }, 0x0B, .halt, [], by decide⟩⟩

theorem witness_MeteringCompartment :
    (∃ (s : State) (x : MeterIn), (s.met.powered = true)) ∧
    (∃ (s : State) (x : MeterIn), (s.met.powered = false)) ∧
    (∃ (s u : State) (x : MeterIn), (s.met.powered = true) ∧ (u = State.profileFlags (State.audit (s.metCommit x (min x.us (10000 - s.met.partUs)) true) 0x0004 0xFF (min x.us (10000 - s.met.partUs)) (s.metCommit x (min x.us (10000 - s.met.partUs)) true).met.intervals))) ∧
    (∃ (s u : State) (n : Nat), (s.met.powered = false) ∧ (s.met.latch = false) ∧ (s.met.lid = false) ∧ (u = { s with met := { s.met with powered := true, starting := true, sec := (s.met.sec + n) % 2 ^ 64, clockInvalid := s.met.clockInvalid || false, totalsAt := none, statusAt := none, certAt := none } })) ∧
    (∃ (s : State), (s.met.powered = true) ∧ (s.met.totalsAt = some s.met.sec)) ∧
    (∃ (s u : State) (e : AuditEntry), (s.met.powered = true) ∧ (s.met.totalsAt ≠ some s.met.sec) ∧ (e = s.met.log.getD (s.met.replay % max 1 s.met.log.length) { seq := 0, sec := 0, ms := 0, code := 0, sys := 0, cls := 0, old := 0, new := 0 }) ∧ (u = s.metSend 1 (s.regBytes 0 24 ++ leBytes 8 s.met.intervals ++ leBytes 4 s.met.partials ++ leBytes 4 0 ++ e.bytes))) ∧
    (∃ (s : State), (s.met.powered = true) ∧ (s.met.sec / (60 * s.met.params.period) * (60 * s.met.params.period) = s.met.pstart)) ∧
    (∃ (s : State), (s.met.powered = true) ∧ (s.met.sec / (60 * s.met.params.period) * (60 * s.met.params.period) ≠ s.met.pstart)) ∧
    (∃ (s u : State) (x : MeterNow), (s.met.powered = true) ∧ (s.met.statusAt = none) ∧ (u = s.metSend 4 (statusBytes s.met.params x ++ s.cfgHashMet ++ leBytes 4 s.metState))) ∧
    (∃ (s u v : State), (s.met.powered = true) ∧ (s.met.certAt = none) ∧ (u = s.metSend 5 (leBytes 1 0 ++ leBytes 1 2 ++ leBytes 2 (Config.metCert.take 348).length ++ Config.metCert.take 348)) ∧ (v = u.metSend 5 (leBytes 1 1 ++ leBytes 1 2 ++ leBytes 2 ((Config.metCert.drop 348).take 348).length ++ (Config.metCert.drop 348).take 348))) ∧
    (∃ (s : State) (c a o n : Nat), (s.met.powered = true) ∧ (c = 0x0040)) ∧
    (∃ (s : State) (c a o n : Nat), (s.met.powered = true) ∧ (c ≠ 0x0040) ∧ (c ≠ 0x0041)) ∧
    (∃ (s : State) (y k : Nat), (s.met.powered = true) ∧ (2 ≤ y)) ∧
    (∃ (s u : State) (y k : Nat), (s.met.powered = true) ∧ (y < 2) ∧ (k % 8 = 7) ∧ (s.met.phases.getD y 0 = 0) ∧ (u = { s with met := { s.met with phases := s.met.phases.set y (k % 8) } })) ∧
    (∃ (s u : State) (y k a : Nat), (s.met.powered = true) ∧ (y < 4) ∧ (k % 8 = 7) ∧ (s.met.overload.getD y 0 = 0) ∧ (u = { s with met := { s.met with overload := s.met.overload.set y (k % 8) } })) :=
  ⟨⟨wMet, wMeter, by decide⟩,
   ⟨{ wStop with met := { wStop.met with powered := false } }, wMeter, by decide⟩,
   ⟨wMet, _, wMeter, ⟨by decide, rfl⟩⟩,
   ⟨{ wStop with met := { wStop.met with powered := false, latch := false, lid := false } }, _, 60, ⟨by decide, by decide, by decide, rfl⟩⟩,
   ⟨{ wMet with met := { wMet.met with totalsAt := some wMet.met.sec } }, by decide⟩,
   ⟨{ wMet with met := { wMet.met with totalsAt := none } }, _, _, ⟨by decide, by decide, rfl, rfl⟩⟩,
   ⟨{ wMet with met := { wMet.met with sec := 0, pstart := 0 } }, by decide⟩,
   ⟨{ wMet with met := { wMet.met with sec := 9000000 } }, by decide⟩,
   ⟨{ wMet with met := { wMet.met with statusAt := none } }, _, { ac := [], dc := [] }, ⟨by decide, by decide, rfl⟩⟩,
   ⟨{ wMet with met := { wMet.met with certAt := none } }, _, _, ⟨by decide, by decide, rfl, rfl⟩⟩,
   ⟨wMet, 0x40, 0, 0, 0, by decide⟩,
   ⟨wMet, 0x42, 0, 0, 0, by decide⟩,
   ⟨wMet, 2, 7, by decide⟩,
   ⟨wMet, _, 1, 15, ⟨by decide, by decide, by decide, by decide, rfl⟩⟩,
   ⟨wMet, _, 3, 15, 100, ⟨by decide, by decide, by decide, by decide, rfl⟩⟩⟩

theorem witness_SealServiceWindowAndMailbox :
    (∃ (s u v : State), (s.met.powered = true) ∧ (s.met.latch = false) ∧ (u = { s with met := { s.met with cover := true, latch := true, counted := s.met.counted && !true } }) ∧ (v = { u with met := { u.met with counted := true, sealCount := (u.met.sealCount + 1) % 2 ^ 32 } })) ∧
    (∃ (s : State), (s.met.latch = true)) ∧
    (∃ (s : State) (i y v n : Nat), (s.met.powered = true) ∧ (s.met.latch = false)) ∧
    (∃ (s : State) (y v n : Nat), (s.met.powered = true) ∧ (s.met.latch = true) ∧ (metRange 12 v n = true) ∧ (s.logFull = false)) ∧
    (∃ (s : State) (y : Nat), (s.met.powered = true)) ∧
    (∃ (s : State) (t n : Nat), (s.met.powered = true) ∧ (s.met.armed = some (n, t)) ∧ (t + 120000000 ≤ s.met.up)) ∧
    (∃ (s : State), (s.met.powered = true) ∧ (s.met.armed = none)) ∧
    (∃ (s u : State) (n t : Nat), (s.met.powered = true) ∧ (s.met.armed = some (n, t)) ∧ (s.met.latch = true) ∧ (s.met.up < t + 120000000) ∧ (u = { s with met := { s.met with cover := false, latch := false, counted := false, armed := none } })) ∧
    (∃ (s : State), (s.met.armed = none)) ∧
    (∃ (s : State), (s.met.powered = true) ∧ (s.met.lid = false)) ∧
    (∃ (s : State), (s.met.lid = true)) ∧
    (∃ (s v u : State) (d : Bytes), (v = s.inc R.MG_RECEIVED) ∧ (u = { v with mg := { v.mg with lastGood := some v.tb.frc } })) ∧
    (∃ (s : State) (ok : Bool), (s.mg.queue = [])) ∧
    (∃ (s u : State) (r : MgRecord) (l : List MgRecord), (s.mg.queue = r :: l) ∧ (u = State.mgShow { s with mg := { s.mg with queue := l } })) ∧
    (∃ (s : State) (ok : Bool) (r : MgRecord) (l : List MgRecord), (s.mg.queue = r :: l)) :=
  ⟨⟨{ wMet with met := { wMet.met with latch := false } }, _, _, ⟨by decide, by decide, rfl, rfl⟩⟩,
   ⟨{ wMet with met := { wMet.met with latch := true } }, by decide⟩,
   ⟨{ wMet with met := { wMet.met with latch := false } }, 1, 0, 5, 0, by decide⟩,
   ⟨{ wMet with met := { wMet.met with latch := true } }, 0, 5, 0, by decide⟩,
   ⟨wMet, 0, by decide⟩,
   ⟨{ wMet with met := { wMet.met with armed := some (5, 0), up := 120000000 } }, 0, 5, by decide⟩,
   ⟨{ wMet with met := { wMet.met with armed := none } }, by decide⟩,
   ⟨{ wMet with met := { wMet.met with armed := some (5, 0), latch := true } }, _, 5, 0, ⟨by decide, rfl, by decide, by decide, rfl⟩⟩,
   ⟨{ wMet with met := { wMet.met with armed := none } }, by decide⟩,
   ⟨{ wMet with met := { wMet.met with lid := false } }, by decide⟩,
   ⟨{ wMet with met := { wMet.met with lid := true } }, by decide⟩,
   ⟨wStop, _, _, [], ⟨rfl, rfl⟩⟩,
   ⟨wStop, true, by decide⟩,
   ⟨{ wStop with mg := { wStop.mg with queue := [{ data := [], frc := 0, sec := 0, ns := 0, frac := 0 }] } }, _, _, _, ⟨rfl, rfl⟩⟩,
   ⟨{ wStop with mg := { wStop.mg with queue := [{ data := [], frc := 0, sec := 0, ns := 0, frac := 0 }] } }, true, _, _, rfl⟩⟩

theorem witness_ResetsAndBootStages :
    (∃ (s : State), (s.unit = .stop ∨ s.unit = .run ∨ s.unit = .halt)) ∧
    (∃ (s : State), (s.unit ≠ .stop) ∧ (s.unit ≠ .run) ∧ (s.unit ≠ .halt)) ∧
    (∃ (s : State), (s.unit ≠ .recovery) ∧ (s.unit ≠ .off)) ∧
    (∃ (s : State), (s.unit = .recovery ∨ s.unit = .off)) ∧
    (∃ (s : State), (s.sup.latticeStop = false)) ∧
    (∃ (s : State) (t : Nat), (s.sup.latticeStop = true) ∧ (s.sup.supply = true) ∧ (s.unit ≠ .off) ∧ (s.sup.pfwAt = none) ∧ (s.sup.pfwClearAt = some t) ∧ (t + 10000000 ≤ s.tb.frc)) ∧
    (∃ (s : State) (k : Nat), (s.unit ≠ .off)) ∧
    (∃ (s : State) (x : BootIn), (s.unit = .stop) ∧ (s.fw.autorun = none)) ∧
    (∃ (s : State) (x : BootIn) (n : Nat), (s.unit = .stop) ∧ (s.fw.autorun = some n) ∧ (s.bit R.PA_STATUS_PARTNER_HEALTHY = false)) ∧
    (∃ (s : State) (x : BootIn), (s.unit = .boot) ∧ (s.sup.latticeStop = true)) ∧
    (∃ (s : State) (x : BootIn), (s.unit = .boot) ∧ (s.sup.latticeStop = false) ∧ (s.rd R.BT_STATUS_STAGE = 0) ∧ (x.cold = false)) ∧
    (∃ (s : State) (x : BootIn), (s.unit = .boot) ∧ (s.sup.latticeStop = false) ∧ (s.rd R.BT_STATUS_STAGE = 0) ∧ (x.cold = true)) ∧
    (∃ (s : State) (x : BootIn), (s.unit = .boot) ∧ (s.sup.latticeStop = false) ∧ (s.rd R.BT_STATUS_STAGE = 1) ∧ (s.trust.dead = false) ∧ ((if s.rd R.BT_LAST_CAUSE = 0 then x.puf else s.bit R.SE_STATUS_PUF_OK) = false)) ∧
    (∃ (s : State) (x : BootIn), (s.unit = .boot) ∧ (s.sup.latticeStop = false) ∧ (s.rd R.BT_STATUS_STAGE = 1) ∧ (s.trust.dead = false) ∧ (s.rd R.BT_LAST_CAUSE ≠ 0) ∧ (s.bit R.SE_STATUS_PUF_OK = true) ∧ (s.trust.zeroise = 0) ∧ (s.trust.latched = [])) ∧
    (∃ (s : State) (x : BootIn), (s.unit = .boot) ∧ (s.sup.latticeStop = false) ∧ (s.rd R.BT_STATUS_STAGE = 2) ∧ (x.record = false)) ∧
    (∃ (s : State) (x : BootIn), (s.unit = .boot) ∧ (s.sup.latticeStop = false) ∧ (s.rd R.BT_STATUS_STAGE = 2) ∧ (x.record = true) ∧ (s.jr.flash = []) ∧ (s.jr.nextSeq = 0)) ∧
    (∃ (s : State) (x : BootIn) (p : Nat), (x.bad.contains (p, s.rd R.BT_PART_ACTIVE p) = false) ∧ ((s.partBank p (s.rd R.BT_PART_ACTIVE p)).any (s.partVerifies p) = true)) ∧
    (∃ (s : State) (x : BootIn) (p : Nat), (s.partBank p 0 = none) ∧ (s.partBank p 1 = none) ∧ (x.bad = [])) ∧
    (∃ (s : State) (x : BootIn), (s.unit = .boot) ∧ (s.sup.latticeStop = false) ∧ (s.rd R.BT_STATUS_STAGE = 1)) ∧
    (∃ (s : State) (x : BootIn), (s.unit = .boot) ∧ (s.sup.latticeStop = false) ∧ (s.rd R.BT_STATUS_STAGE = 2)) ∧
    (∃ (s : State) (x : BootIn), (s.unit = .boot) ∧ (s.sup.latticeStop = false) ∧ (s.rd R.BT_STATUS_STAGE = 3)) ∧
    (∃ (s : State) (x : BootIn), (s.unit = .boot) ∧ (s.sup.latticeStop = false) ∧ (s.rd R.BT_STATUS_STAGE = 4)) ∧
    (∃ (s : State) (x : BootIn), (s.unit = .boot) ∧ (s.sup.latticeStop = false) ∧ (s.rd R.BT_STATUS_STAGE = 5)) :=
  ⟨⟨wRunS, by decide⟩,
   ⟨{ wStop with unit := .boot }, by decide⟩,
   ⟨wStop, by decide⟩,
   ⟨{ wStop with unit := .recovery }, by decide⟩,
   ⟨wStop, by decide⟩,
   ⟨{ wStop with sup := { wStop.sup with latticeStop := true, supply := true, pfwClearAt := some 0 }, tb := { wStop.tb with frc := 10000000 } }, 0, by decide⟩,
   ⟨wStop, 1, by decide⟩,
   ⟨wStop, wBoot, by decide⟩,
   ⟨{ wStop with fw := { wStop.fw with autorun := some 0 } }, wBoot, _, ⟨by decide, rfl, by decide⟩⟩,
   ⟨{ wStop with unit := .boot, sup := { wStop.sup with latticeStop := true } }, wBoot, by decide⟩,
   ⟨{ wStop with unit := .boot }, wBoot, by decide⟩,
   ⟨{ wStop with unit := .boot }, { wBoot with cold := true }, by decide⟩,
   ⟨{ wR [(R.BT_STATUS_STAGE.key 0 0, 1)] with unit := .boot }, { wBoot with puf := false }, by decide⟩,
   ⟨{ wR [(R.SE_STATUS_PUF_OK.key 0 0, 1), (R.BT_STATUS_STAGE.key 0 0, 1), (R.BT_LAST_CAUSE.key 0 0, 1)] with unit := .boot }, wBoot, by decide⟩,
   ⟨{ wR [(R.BT_STATUS_STAGE.key 0 0, 2)] with unit := .boot }, { wBoot with record := false }, by decide⟩,
   ⟨{ wR [(R.BT_STATUS_STAGE.key 0 0, 2)] with unit := .boot }, wBoot, by decide⟩,
   ⟨{ wStop with fw := { wStop.fw with banks := List.replicate 9 (some wImageFw, none) } }, wBoot, 1, by decide⟩,
   ⟨{ wStop with fw := { wStop.fw with banks := List.replicate 9 (none, none) } }, wBoot, 1, by decide⟩,
   ⟨{ wR [(R.BT_STATUS_STAGE.key 0 0, 1)] with unit := .boot }, wBoot, by decide⟩,
   ⟨{ wR [(R.BT_STATUS_STAGE.key 0 0, 2)] with unit := .boot }, wBoot, by decide⟩,
   ⟨{ wR [(R.BT_STATUS_STAGE.key 0 0, 3)] with unit := .boot }, wBoot, by decide⟩,
   ⟨{ wR [(R.BT_STATUS_STAGE.key 0 0, 4)] with unit := .boot }, wBoot, by decide⟩,
   ⟨{ wR [(R.BT_STATUS_STAGE.key 0 0, 5)] with unit := .boot }, wBoot, by decide⟩⟩

theorem witness_TamperSessionsAndPeers :
    (∃ (s : State) (i : Nat) (b : Bool), (4 ≤ i)) ∧
    (∃ (s : State) (i : Nat), (i < 4) ∧ (s.unit ≠ .off) ∧ (bitOf (s.rd R.SE_TAMPER_STATE) i = false) ∧ (s.rd R.SE_TAMPER_STATE ||| 2 ^ i ≠ 0)) ∧
    (∃ (s : State), (s.unit = .off) ∧ (s.trust.latched = [])) ∧
    (∃ (s : State) (h : Handshake), (s.serviceUp = false)) ∧
    (∃ (s : State) (h : Handshake), (s.serviceUp = true) ∧ (h.peer = none) ∧ (s.carrierOn h.carrier = true) ∧ (s.acc.tlsFails = []) ∧ (h.tlsOk = false)) ∧
    (∃ (s u : State) (h : Handshake) (c : Cred) (lv : Level) (cand : Bool) (x : Session), (s.serviceUp = true) ∧ (h.peer = none) ∧ (h.carrier = .service) ∧ (s.carrierOn .service = true) ∧ (s.acc.tlsFails = []) ∧ (h.tlsOk = true) ∧ (h.cred = some c) ∧ (s.sessionFor .service c = some (lv, cand)) ∧ (u = State.wr { s with acc := { s.acc with nextId := s.acc.nextId + 1 } } R.SE_STATUS_DATES_UNCHECKED (if !s.bit R.TB_STATUS_TOD_VALID then 1 else 0)) ∧ (u.carrierFull .service = false) ∧ (x = { id := s.acc.nextId, level := lv, cred := c.fingerprint, carrier := h.carrier, source := h.source, hello := false, classes := 0, queue := [], lastRx := u.tb.frc, keyFrc := u.tb.frc, records := 0, reopen := none, challenge := none, cand, key := c.key, unchecked := !s.bit R.TB_STATUS_TOD_VALID })) ∧
    (∃ (s : State) (x : Session), (s.session? x.id = some x) ∧ (x.lastRx + 12000000000 ≤ s.tb.frc)) ∧
    (∃ (s : State) (x : Session), (s.session? x.id = some x) ∧ (x.records < 2 ^ 24) ∧ (s.tb.frc < x.keyFrc + 360000000000)) ∧
    (∃ (s : State) (x : Session), (s.session? x.id = some x) ∧ (x.keyFrc + 360000000000 ≤ s.tb.frc)) ∧
    (∃ (s : State) (n : Nat), (s.session? n = none)) ∧
    (∃ (s : State) (n : Nat), ((s.session? n).isSome = true)) ∧
    (∃ (s : State) (p : Nat), (6 ≤ p)) ∧
    (∃ (s u : State) (p t : Nat) (x : Peer), (p < 6) ∧ (s.trust.peers = [x]) ∧ (x.port = p) ∧ (x.ended = some t) ∧ (t + 6000000000 ≤ s.tb.frc) ∧ (u = { s with trust := { s.trust with peers := [] } })) ∧
    (∃ (s : State) (r : Req) (op : Nat), (Passes s r { op, level := .observer }) ∧ (op / 256 ≠ 9)) ∧
    (∃ (s : State) (r : Req) (op : Nat), (Passes s r { op, level := .observer }) ∧ (op / 256 = 9)) :=
  ⟨⟨wStop, 4, true, by decide⟩,
   ⟨wStop, 1, by decide⟩,
   ⟨{ wStop with unit := .off }, by decide⟩,
   ⟨{ wStop with unit := .off }, { carrier := .service, source := 0, cred := none, tlsOk := false, peer := none }, by decide⟩,
   ⟨wStop, { carrier := .service, source := 0, cred := none, tlsOk := false, peer := none }, by decide⟩,
   ⟨wStop, _, wHsIn, wCredCand, .observer, true, _, ⟨by decide, by decide, by decide, by decide, by decide, by decide, rfl, by decide, rfl, by decide, rfl⟩⟩,
   ⟨{ wOwn with tb := { wOwn.tb with frc := 12000000000 } }, wSession .owner, by decide⟩,
   ⟨wOwn, wSession .owner, by decide⟩,
   ⟨{ wOwn with tb := { wOwn.tb with frc := 360000000000 } }, wSession .owner, by decide⟩,
   ⟨wStop, 1, by decide⟩,
   ⟨wOwn, 1, by decide⟩,
   ⟨wStop, 6, by decide⟩,
   ⟨{ wStop with trust := { wStop.trust with peers := [{ port := 3, serial := 1, ended := some 0 }] }, tb := { wStop.tb with frc := 6000000000 } }, _, 3, 0, _, ⟨by decide, rfl, by decide, by decide, by decide, rfl⟩⟩,
   ⟨wOwn, wReq1, 0x0FFF, ⟨⟨rfl, _, rfl, by decide, by decide, by decide, by decide, by decide, by first | exact .inl rfl | exact .inr (.inl (by decide)) | exact .inr (.inr (.inl rfl)), by first | exact .inl rfl | exact .inr ⟨_, rfl, rfl⟩, by decide⟩, by decide⟩⟩,
   ⟨wOwn, wReq1, 0x09FF, ⟨⟨rfl, _, rfl, by decide, by decide, by decide, by decide, by decide, by first | exact .inl rfl | exact .inr (.inl (by decide)) | exact .inr (.inr (.inl rfl)), by first | exact .inl rfl | exact .inr ⟨_, rfl, rfl⟩, by decide⟩, by decide⟩⟩⟩

theorem witness_OwnershipCommands :
    (∃ (s : State) (r : Req), (Passes s r { op := 0x0A10, level := .observer })) ∧
    (∃ (s : State) (r : Req) (fik : Nat) (kcv : Nat) (b : Bool) (x : Session), (Passes s r { op := 0x0A11, level := .observer }) ∧ (s.session? r.session = some x) ∧ (x.cand = false)) ∧
    (∃ (s : State) (r : Req) (fik : Nat) (kcv : Nat) (x : Session), (Passes s r { op := 0x0A11, level := .observer }) ∧ (s.session? r.session = some x) ∧ (x.cand = true) ∧ (x.carrier = .service) ∧ (s.trust.owner = none) ∧ (kcv = Config.kcv fik)) ∧
    (∃ (s : State) (r : Req) (k : Nat), (Passes s r { op := 0x0A12, level := .owner })) ∧
    (∃ (s : State) (r : Req) (fps : List Nat), (Passes s r { op := 0x0A13, level := .owner }) ∧ (1024 < s.trust.revoked.length + (fps.eraseDups.filter (fun f => !s.trust.revoked.contains f)).length)) ∧
    (∃ (s : State) (r : Req) (fps : List Nat), (Passes s r { op := 0x0A13, level := .owner }) ∧ (s.trust.revoked.length + (fps.eraseDups.filter (fun f => !s.trust.revoked.contains f)).length ≤ 1024)) ∧
    (∃ (s : State) (r : Req) (fps : List Nat), (Passes s r { op := 0x0A14, level := .owner })) ∧
    (∃ (s : State) (r : Req), (Passes s r { op := 0x0A15, level := .observer })) ∧
    (∃ (s : State) (r : Req) (cert : Cred) (d : Bytes), (Passes s r { op := 0x0A16, level := .owner, lock := true }) ∧ (s.credOk cert = true) ∧ (cert.ou = .peer) ∧ (cert.serial = Config.serial) ∧ (cert.key = Config.dik)) ∧
    (∃ (s : State) (r : Req) (cert : Cred) (d : Bytes), (Passes s r { op := 0x0A16, level := .owner, lock := true }) ∧ (s.credOk cert = false)) ∧
    (∃ (s : State) (r : Req) (n : Nat), (Passes s r { op := 0x0A17, level := .owner, lock := true })) ∧
    (∃ (s : State) (r : Req) (k : Nat) (i : Nat) (v : Nat), (Passes s r { op := 0x0A18, level := .owner, lock := true }) ∧ (k < 2) ∧ (v ≤ alGet 0 s.tt.floors (2 * i + k))) ∧
    (∃ (s : State) (r : Req) (k : Nat) (i : Nat) (v : Nat), (Passes s r { op := 0x0A18, level := .owner, lock := true }) ∧ (k < 2) ∧ (alGet 0 s.tt.floors (2 * i + k) < v)) ∧
    (∃ (s : State) (r : Req) (p : Nat) (i : Nat) (v : Nat), (Passes s r { op := 0x0A18, level := .owner, lock := true }) ∧ (partIndex i = some p) ∧ (v ≤ s.partFloor p)) ∧
    (∃ (s : State) (r : Req), (Passes s r { op := 0x0A19, level := .observer })) ∧
    (∃ (s : State) (r : Req) (n : Nat) (k : Nat), (Passes s r { op := 0x0A1A, level := .owner }) ∧ (n = 1 ∨ n = 2)) ∧
    (∃ (s : State) (r : Req), (Passes s r { op := 0x0A1A, level := .owner })) ∧
    (∃ (s : State) (r : Req) (n : Nat) (k : Nat), (Passes s r { op := 0x0A1A, level := .owner }) ∧ (n = 0 ∨ 3 < n ∨ (n = 3 ∧ k ≠ Config.serial))) ∧
    (∃ (s : State) (r : Req) (a : Nat), (Passes s r { op := 0x0A1B, level := .owner, lock := true })) ∧
    (∃ (s : State) (r : Req), (Passes s r { op := 0x0A1C, level := .observer })) ∧
    (∃ (s : State), (s.bit R.SE_MBOX_BUSY = false)) ∧
    (∃ (s : State), (s.bit R.SE_MBOX_BUSY = true)) ∧
    (∃ (s u : State), (s.bit R.SE_MBOX_BUSY = true) ∧ (s.fw.restarting.contains 1 = false) ∧ (u = (List.range 128).foldl (fun s i => (s.wr R.SE_MBOX_RSP s.freeVal i).nextFree) s)) :=
  ⟨⟨wOwn, wReq1, ⟨rfl, _, rfl, by decide, by decide, by decide, by decide, by decide, by first | exact .inl rfl | exact .inr (.inl (by decide)) | exact .inr (.inr (.inl rfl)), by first | exact .inl rfl | exact .inr ⟨_, rfl, rfl⟩, by decide⟩⟩,
   ⟨wOwn, wReq1, 0, 0, false, _, ⟨⟨rfl, _, rfl, by decide, by decide, by decide, by decide, by decide, by first | exact .inl rfl | exact .inr (.inl (by decide)) | exact .inr (.inr (.inl rfl)), by first | exact .inl rfl | exact .inr ⟨_, rfl, rfl⟩, by decide⟩, by first | decide | rfl, by first | decide | rfl⟩⟩,
   ⟨wCand, wReq1, 0, _, _, ⟨⟨rfl, _, rfl, by decide, by decide, by decide, by decide, by decide, by first | exact .inl rfl | exact .inr (.inl (by decide)) | exact .inr (.inr (.inl rfl)), by first | exact .inl rfl | exact .inr ⟨_, rfl, rfl⟩, by decide⟩, by first | decide | rfl, by first | decide | rfl, by first | decide | rfl, by first | decide | rfl, by first | decide | rfl⟩⟩,
   ⟨wOwn, wReq1, 5, ⟨rfl, _, rfl, by decide, by decide, by decide, by decide, by decide, by first | exact .inl rfl | exact .inr (.inl (by decide)) | exact .inr (.inr (.inl rfl)), by first | exact .inl rfl | exact .inr ⟨_, rfl, rfl⟩, by decide⟩⟩,
   ⟨wRevoked, wReq1, [7], ⟨⟨rfl, _, rfl, by decide, by decide, by decide, by decide, by decide, by first | exact .inl rfl | exact .inr (.inl (by decide)) | exact .inr (.inr (.inl rfl)), by first | exact .inl rfl | exact .inr ⟨_, rfl, rfl⟩, by decide⟩, by rw [show wRevoked.trust.revoked = List.replicate 1025 1 from rfl, List.length_replicate]; omega⟩⟩,
   ⟨wOwn, wReq1, [7], ⟨⟨rfl, _, rfl, by decide, by decide, by decide, by decide, by decide, by first | exact .inl rfl | exact .inr (.inl (by decide)) | exact .inr (.inr (.inl rfl)), by first | exact .inl rfl | exact .inr ⟨_, rfl, rfl⟩, by decide⟩, by first | decide | rfl⟩⟩,
   ⟨wOwn, wReq1, [7], ⟨rfl, _, rfl, by decide, by decide, by decide, by decide, by decide, by first | exact .inl rfl | exact .inr (.inl (by decide)) | exact .inr (.inr (.inl rfl)), by first | exact .inl rfl | exact .inr ⟨_, rfl, rfl⟩, by decide⟩⟩,
   ⟨wOwn, wReq1, ⟨rfl, _, rfl, by decide, by decide, by decide, by decide, by decide, by first | exact .inl rfl | exact .inr (.inl (by decide)) | exact .inr (.inr (.inl rfl)), by first | exact .inl rfl | exact .inr ⟨_, rfl, rfl⟩, by decide⟩⟩,
   ⟨wOwned, wReq1, { wCredCand with ou := .peer, serial := Config.serial, key := Config.dik }, [], ⟨⟨rfl, _, rfl, by decide, by decide, by decide, by decide, by decide, by first | exact .inl rfl | exact .inr (.inl (by decide)) | exact .inr (.inr (.inl rfl)), by first | exact .inl rfl | exact .inr ⟨_, rfl, rfl⟩, by decide⟩, by first | decide | rfl, by first | decide | rfl, by first | decide | rfl, by first | decide | rfl⟩⟩,
   ⟨wOwn, wReq1, wCredCand, [], ⟨⟨rfl, _, rfl, by decide, by decide, by decide, by decide, by decide, by first | exact .inl rfl | exact .inr (.inl (by decide)) | exact .inr (.inr (.inl rfl)), by first | exact .inl rfl | exact .inr ⟨_, rfl, rfl⟩, by decide⟩, by first | decide | rfl⟩⟩,
   ⟨wOwn, wReq1, 9, ⟨rfl, _, rfl, by decide, by decide, by decide, by decide, by decide, by first | exact .inl rfl | exact .inr (.inl (by decide)) | exact .inr (.inr (.inl rfl)), by first | exact .inl rfl | exact .inr ⟨_, rfl, rfl⟩, by decide⟩⟩,
   ⟨wOwn, wReq1, 1, 3, 0, ⟨⟨rfl, _, rfl, by decide, by decide, by decide, by decide, by decide, by first | exact .inl rfl | exact .inr (.inl (by decide)) | exact .inr (.inr (.inl rfl)), by first | exact .inl rfl | exact .inr ⟨_, rfl, rfl⟩, by decide⟩, by first | decide | rfl, by first | decide | rfl⟩⟩,
   ⟨wOwn, wReq1, 1, 3, 1, ⟨⟨rfl, _, rfl, by decide, by decide, by decide, by decide, by decide, by first | exact .inl rfl | exact .inr (.inl (by decide)) | exact .inr (.inr (.inl rfl)), by first | exact .inl rfl | exact .inr ⟨_, rfl, rfl⟩, by decide⟩, by first | decide | rfl, by first | decide | rfl⟩⟩,
   ⟨wOwn, wReq1, 0, 0x0101, 0, ⟨⟨rfl, _, rfl, by decide, by decide, by decide, by decide, by decide, by first | exact .inl rfl | exact .inr (.inl (by decide)) | exact .inr (.inr (.inl rfl)), by first | exact .inl rfl | exact .inr ⟨_, rfl, rfl⟩, by decide⟩, by first | decide | rfl, by first | decide | rfl⟩⟩,
   ⟨wOwn, wReq1, ⟨rfl, _, rfl, by decide, by decide, by decide, by decide, by decide, by first | exact .inl rfl | exact .inr (.inl (by decide)) | exact .inr (.inr (.inl rfl)), by first | exact .inl rfl | exact .inr ⟨_, rfl, rfl⟩, by decide⟩⟩,
   ⟨wOwn, wReq1, 2, 0, ⟨⟨rfl, _, rfl, by decide, by decide, by decide, by decide, by decide, by first | exact .inl rfl | exact .inr (.inl (by decide)) | exact .inr (.inr (.inl rfl)), by first | exact .inl rfl | exact .inr ⟨_, rfl, rfl⟩, by decide⟩, by first | decide | rfl⟩⟩,
   ⟨wOwn, wReq1, ⟨rfl, _, rfl, by decide, by decide, by decide, by decide, by decide, by first | exact .inl rfl | exact .inr (.inl (by decide)) | exact .inr (.inr (.inl rfl)), by first | exact .inl rfl | exact .inr ⟨_, rfl, rfl⟩, by decide⟩⟩,
   ⟨wOwn, wReq1, 0, 0, ⟨⟨rfl, _, rfl, by decide, by decide, by decide, by decide, by decide, by first | exact .inl rfl | exact .inr (.inl (by decide)) | exact .inr (.inr (.inl rfl)), by first | exact .inl rfl | exact .inr ⟨_, rfl, rfl⟩, by decide⟩, by first | decide | rfl⟩⟩,
   ⟨wOwn, wReq1, 3, ⟨rfl, _, rfl, by decide, by decide, by decide, by decide, by decide, by first | exact .inl rfl | exact .inr (.inl (by decide)) | exact .inr (.inr (.inl rfl)), by first | exact .inl rfl | exact .inr ⟨_, rfl, rfl⟩, by decide⟩⟩,
   ⟨wOwn, wReq1, ⟨rfl, _, rfl, by decide, by decide, by decide, by decide, by decide, by first | exact .inl rfl | exact .inr (.inl (by decide)) | exact .inr (.inr (.inl rfl)), by first | exact .inl rfl | exact .inr ⟨_, rfl, rfl⟩, by decide⟩⟩,
   ⟨wStop, by decide⟩,
   ⟨wR [(R.SE_MBOX_BUSY.key 0 0, 1)], by decide⟩,
   ⟨wR [(R.SE_MBOX_BUSY.key 0 0, 1)], _, ⟨by decide, by decide, rfl⟩⟩⟩

theorem witness_TransfersAndActivations :
    (∃ (s : State) (r : Req) (k : Nat) (n : Nat) (h : Nat), (Passes s r { op := 0x0401, level := .engineer, lock := true, field := true }) ∧ (s.acc.transfers = []) ∧ (1 ≤ k) ∧ (k ≤ 16) ∧ (s.slotInForce k = false) ∧ (s.tt.switch = none)) ∧
    (∃ (s : State) (r : Req) (k : Nat) (n : Nat) (h : Nat) (p : Nat), (Passes s r { op := 0x0401, level := .engineer, lock := true, field := true }) ∧ (s.acc.transfers = []) ∧ (16 < k) ∧ (partIndex k = some p) ∧ (n ≤ partSize p)) ∧
    (∃ (s : State) (r : Req) (k : Nat) (n : Nat) (h : Nat), (Passes s r { op := 0x0401, level := .engineer, lock := true, field := true }) ∧ (s.acc.transfers = []) ∧ (k ≤ 16) ∧ (s.slotInForce k = true)) ∧
    (∃ (s : State) (r : Req) (o : Nat) (d : Bytes), (Passes s r { op := 0x0402, level := .engineer }) ∧ (s.transfer? r.session = none)) ∧
    (∃ (s : State) (r : Req) (o : Nat) (d : Bytes) (x : Transfer), (Passes s r { op := 0x0402, level := .engineer }) ∧ (s.transfer? r.session = some x) ∧ (d ≠ []) ∧ (d.length ≤ 16384) ∧ (o + d.length ≤ x.length)) ∧
    (∃ (s : State) (r : Req) (c : Content) (x : Transfer), (Passes s r { op := 0x0403, level := .engineer }) ∧ (s.transfer? r.session = some x) ∧ (coverage x.chunks < x.length)) ∧
    (∃ (s : State) (r : Req) (c : Content) (x : Transfer), (Passes s r { op := 0x0403, level := .engineer }) ∧ (s.transfer? r.session = some x) ∧ (x.length ≤ coverage x.chunks) ∧ (Config.sha384 (received x) = x.hash)) ∧
    (∃ (s : State) (r : Req) (c : Content) (x : Transfer), (Passes s r { op := 0x0403, level := .engineer }) ∧ (s.transfer? r.session = some x) ∧ (x.length ≤ coverage x.chunks) ∧ (Config.sha384 (received x) ≠ x.hash)) ∧
    (∃ (s : State) (r : Req) (c : Content), (Passes s r { op := 0x0403, level := .engineer }) ∧ (s.transfer? r.session = none)) ∧
    (∃ (s : State) (r : Req), (Passes s r { op := 0x0404, level := .engineer }) ∧ ((s.transfer? r.session).isNone = false)) ∧
    (∃ (s : State) (r : Req) (a : Nat) (w : Time) (p : Nat) (n : Nat) (f : FwImage), (Passes s r { op := opSchedule, level := .engineer, lock := true, field := true }) ∧ (partIndex a = some p) ∧ (scheduled p = true) ∧ (s.timeFrc w = some n) ∧ (s.staged? p = some f) ∧ (s.tb.frc + 100000000 ≤ n) ∧ (s.role = .solo)) ∧
    (∃ (s : State) (r : Req) (a : Nat) (w : Time) (p : Nat), (Passes s r { op := opSchedule, level := .engineer, lock := true, field := true }) ∧ (partIndex a = some p) ∧ (scheduled p = false)) ∧
    (∃ (s : State) (r : Req) (a : Nat) (p : Nat), (Passes s r { op := opActivate, level := .engineer, lock := true, field := true }) ∧ (partIndex a = some p) ∧ (commanded p = true) ∧ (p ≠ partPartner) ∧ (s.fw.commanded = []) ∧ (s.fw.restarting = []) ∧ ((s.staged? p).isSome = true)) ∧
    (∃ (s : State) (r : Req), (Passes s r { op := 0x0407, level := .observer })) ∧
    (∃ (s : State) (r : Req) (a : Nat) (b : Nat) (p : Nat) (f : FwImage), (Passes s r { op := 0x0409, level := .owner, lock := true }) ∧ (partIndex a = some p) ∧ (p ≠ partNode) ∧ (b < 2) ∧ (s.bit (bankOk b) p = true) ∧ (s.partBank p b = some f) ∧ (s.partFloor p ≤ f.ver) ∧ (scheduled p = true) ∧ ((s.pendNone p).rd R.BT_PART_ACTIVE p ≠ b)) ∧
    (∃ (s : State) (p : Nat), (s.rd R.BT_PART_PENDING p ≠ 1)) ∧
    (∃ (s t : State) (p : Nat), (p < 9) ∧ (s.rd R.BT_PART_PENDING p = 1) ∧ (s.unit = .stop) ∧ (t = s.toTick) ∧ (s.rd64 R.BT_SCHED_AT_LO R.BT_SCHED_AT_HI p ≤ t.tb.frc)) ∧
    (∃ (s : State) (p : Nat), (p < 9) ∧ (s.rd R.BT_PART_PENDING p = 1) ∧ (s.unit = .recovery ∨ s.unit = .boot) ∧ (s.rd64 R.BT_SCHED_AT_LO R.BT_SCHED_AT_HI p ≤ s.tb.frc)) ∧
    (∃ (s t : State) (p : Nat) (l : List Nat), (s.unit = .stop ∨ s.unit = .run ∨ s.unit = .halt) ∧ (s.fw.commanded = p :: l) ∧ (t = s.toTick)) ∧
    (∃ (s : State), (s.fw.commanded = [])) ∧
    (∃ (s : State) (p : Nat) (q : PartnerInfo), (s.fw.restarting.contains p = false)) ∧
    (∃ (s u : State) (q : PartnerInfo), (s.fw.restarting.contains 1 = true) ∧ (u = { s with fw := { s.fw with restarting := s.fw.restarting.filter (fun x => x != 1) } })) ∧
    (∃ (s : State) (r : Req) (a : Nat) (p : Nat) (n : Nat) (ns : List Nat) (f : FwImage), (Passes s r { op := opForward, level := .engineer, lock := true }) ∧ (partIndex a = some p) ∧ (s.staged? p = some f) ∧ (s.fw.forward = none) ∧ (s.trust.member.isNone = false)) ∧
    (∃ (s : State) (n : Nat), (s.serviceUp = true)) ∧
    (∃ (s : State) (h : HopIn), (s.serviceUp = false)) ∧
    (∃ (s : State), (s.fw.forward = none)) ∧
    (∃ (s u : State) (f : Forward), (s.fw.forward = some f) ∧ (f.at_ + 12000000000 ≤ s.tb.frc) ∧ (u = (s.wr R.BT_FWD_STATE 3).wr R.BT_FWD_FAILED (f.plants.getD f.pos 0))) :=
  ⟨⟨wOwn, wReq1, 3, 4, 0, ⟨⟨rfl, _, rfl, by decide, by decide, by decide, by decide, by decide, by first | exact .inl rfl | exact .inr (.inl (by decide)) | exact .inr (.inr (.inl rfl)), by first | exact .inl rfl | exact .inr ⟨_, rfl, rfl⟩, by decide⟩, by first | decide | rfl, by first | decide | rfl, by first | decide | rfl, by first | decide | rfl, by first | decide | rfl⟩⟩,
   ⟨wOwn, wReq1, 0x0101, 4, 0, 0, ⟨⟨rfl, _, rfl, by decide, by decide, by decide, by decide, by decide, by first | exact .inl rfl | exact .inr (.inl (by decide)) | exact .inr (.inr (.inl rfl)), by first | exact .inl rfl | exact .inr ⟨_, rfl, rfl⟩, by decide⟩, by first | decide | rfl, by first | decide | rfl, by first | decide | rfl, by first | decide | rfl⟩⟩,
   ⟨{ wOwn with regs := [(R.TT_MODE_CUR_ACTIVE.key 0 0, 1)] }, wReq1, 1, 4, 0, ⟨⟨rfl, _, rfl, by decide, by decide, by decide, by decide, by decide, by first | exact .inl rfl | exact .inr (.inl (by decide)) | exact .inr (.inr (.inl rfl)), by first | exact .inl rfl | exact .inr ⟨_, rfl, rfl⟩, by decide⟩, by first | decide | rfl, by first | decide | rfl, by first | decide | rfl⟩⟩,
   ⟨wOwn, wReq1, 0, [1], ⟨⟨rfl, _, rfl, by decide, by decide, by decide, by decide, by decide, by first | exact .inl rfl | exact .inr (.inl (by decide)) | exact .inr (.inr (.inl rfl)), by first | exact .inl rfl | exact .inr ⟨_, rfl, rfl⟩, by decide⟩, by first | decide | rfl⟩⟩,
   ⟨wXferEnd, wReq1, 0, [1], _, ⟨⟨rfl, _, rfl, by decide, by decide, by decide, by decide, by decide, by first | exact .inl rfl | exact .inr (.inl (by decide)) | exact .inr (.inr (.inl rfl)), by first | exact .inl rfl | exact .inr ⟨_, rfl, rfl⟩, by decide⟩, by first | decide | rfl, by first | decide | rfl, by first | decide | rfl, by first | decide | rfl⟩⟩,
   ⟨wXferEnd, wReq1, .unreadable, _, ⟨⟨rfl, _, rfl, by decide, by decide, by decide, by decide, by decide, by first | exact .inl rfl | exact .inr (.inl (by decide)) | exact .inr (.inr (.inl rfl)), by first | exact .inl rfl | exact .inr ⟨_, rfl, rfl⟩, by decide⟩, by first | decide | rfl, by first | decide | rfl⟩⟩,
   ⟨wXferFull, wReq1, .image wImage2, _, ⟨⟨rfl, _, rfl, by decide, by decide, by decide, by decide, by decide, by first | exact .inl rfl | exact .inr (.inl (by decide)) | exact .inr (.inr (.inl rfl)), by first | exact .inl rfl | exact .inr ⟨_, rfl, rfl⟩, by decide⟩, by first | decide | rfl, by first | decide | rfl, by first | decide | rfl⟩⟩,
   ⟨wXferHash, wReq1, .unreadable, _, ⟨⟨rfl, _, rfl, by decide, by decide, by decide, by decide, by decide, by first | exact .inl rfl | exact .inr (.inl (by decide)) | exact .inr (.inr (.inl rfl)), by first | exact .inl rfl | exact .inr ⟨_, rfl, rfl⟩, by decide⟩, by first | decide | rfl, by first | decide | rfl, by exact Nat.ne_of_lt (Nat.lt_succ_self _)⟩⟩,
   ⟨wOwn, wReq1, .unreadable, ⟨⟨rfl, _, rfl, by decide, by decide, by decide, by decide, by decide, by first | exact .inl rfl | exact .inr (.inl (by decide)) | exact .inr (.inr (.inl rfl)), by first | exact .inl rfl | exact .inr ⟨_, rfl, rfl⟩, by decide⟩, by first | decide | rfl⟩⟩,
   ⟨wXferEnd, wReq1, ⟨⟨rfl, _, rfl, by decide, by decide, by decide, by decide, by decide, by first | exact .inl rfl | exact .inr (.inl (by decide)) | exact .inr (.inr (.inl rfl)), by first | exact .inl rfl | exact .inr ⟨_, rfl, rfl⟩, by decide⟩, by first | decide | rfl⟩⟩,
   ⟨wStaged 1, wReq1, 0x0102, .frc 100000000, 1, 100000000, wImageFw, ⟨⟨rfl, _, rfl, by decide, by decide, by decide, by decide, by decide, by first | exact .inl rfl | exact .inr (.inl (by decide)) | exact .inr (.inr (.inl rfl)), by first | exact .inl rfl | exact .inr ⟨_, rfl, rfl⟩, by decide⟩, by first | decide | rfl, by first | decide | rfl, by first | decide | rfl, by first | decide | rfl, by first | decide | rfl, by first | decide | rfl⟩⟩,
   ⟨wOwn, wReq1, 0x0104, .frc 0, 3, ⟨⟨rfl, _, rfl, by decide, by decide, by decide, by decide, by decide, by first | exact .inl rfl | exact .inr (.inl (by decide)) | exact .inr (.inr (.inl rfl)), by first | exact .inl rfl | exact .inr ⟨_, rfl, rfl⟩, by decide⟩, by first | decide | rfl, by first | decide | rfl⟩⟩,
   ⟨wStaged 3, wReq1, 0x0104, 3, ⟨⟨rfl, _, rfl, by decide, by decide, by decide, by decide, by decide, by first | exact .inl rfl | exact .inr (.inl (by decide)) | exact .inr (.inr (.inl rfl)), by first | exact .inl rfl | exact .inr ⟨_, rfl, rfl⟩, by decide⟩, by first | decide | rfl, by first | decide | rfl, by first | decide | rfl, by first | decide | rfl, by first | decide | rfl, by first | decide | rfl⟩⟩,
   ⟨wOwn, wReq1, ⟨rfl, _, rfl, by decide, by decide, by decide, by decide, by decide, by first | exact .inl rfl | exact .inr (.inl (by decide)) | exact .inr (.inr (.inl rfl)), by first | exact .inl rfl | exact .inr ⟨_, rfl, rfl⟩, by decide⟩⟩,
   ⟨wStaged 1, wReq1, 0x0102, 1, 1, _, ⟨⟨rfl, _, rfl, by decide, by decide, by decide, by decide, by decide, by first | exact .inl rfl | exact .inr (.inl (by decide)) | exact .inr (.inr (.inl rfl)), by first | exact .inl rfl | exact .inr ⟨_, rfl, rfl⟩, by decide⟩, by first | decide | rfl, by first | decide | rfl, by first | decide | rfl, by first | decide | rfl, by first | decide | rfl, by first | decide | rfl, by first | decide | rfl, by first | decide | rfl⟩⟩,
   ⟨wStop, 3, by decide⟩,
   ⟨wSched, _, 3, ⟨by decide, by decide, by decide, rfl, by decide⟩⟩,
   ⟨{ wSched with unit := .boot }, 3, by decide⟩,
   ⟨{ wStop with fw := { wStop.fw with commanded := [3] } }, _, _, _, ⟨by decide, rfl, rfl⟩⟩,
   ⟨wStop, by decide⟩,
   ⟨wStop, 3, wInfo, by decide⟩,
   ⟨{ wStop with fw := { wStop.fw with restarting := [1] } }, _, wInfo, ⟨by decide, rfl⟩⟩,
   ⟨{ wStaged 1 with trust := { wStop.trust with member := some [] } }, wReq1, 0x0102, 1, 5, [], wImageFw, ⟨⟨rfl, _, rfl, by decide, by decide, by decide, by decide, by decide, by first | exact .inl rfl | exact .inr (.inl (by decide)) | exact .inr (.inr (.inl rfl)), by first | exact .inl rfl | exact .inr ⟨_, rfl, rfl⟩, by decide⟩, by first | decide | rfl, by first | decide | rfl, by first | decide | rfl, by first | decide | rfl⟩⟩,
   ⟨wStop, 5, by decide⟩,
   ⟨{ wStop with unit := .off }, .confirm 3, by decide⟩,
   ⟨wStop, by decide⟩,
   ⟨wForwarding, _, _, ⟨rfl, by decide, rfl⟩⟩⟩

theorem witness_NodeImagesAndRecovery :
    (∃ (s : State) (f : FwImage) (p : Nat), (s.fw.node = some f) ∧ (p < 8)) ∧
    (∃ (s : State) (p : Nat), (s.fw.node = none)) ∧
    (∃ (s : State) (p n o h : Nat) (d : Bytes) (c : Content), (s.unit ≠ .recovery)) ∧
    (∃ (s : State), (s.unit = .recovery)) ∧
    (∃ (s u : State) (a p n : Nat), (s.unit = .recovery) ∧ (partIndex a = some p) ∧ (bitOf (s.rd R.BT_STATUS_FAILED_PARTS) p = true) ∧ (n ≤ partSize p) ∧ (u = s.setBank p (s.recBank p) none)) ∧
    (∃ (s : State) (o : Nat) (d : Bytes) (h : Nat) (c : Content), (s.unit = .recovery) ∧ (s.fw.recXfer = none)) ∧
    (∃ (s : State) (x : RecXfer) (d : Bytes), (s.unit = .recovery) ∧ (s.fw.recXfer = some x) ∧ (d.length ≤ 1024) ∧ (x.data.length + d.length ≤ x.len)) ∧
    (∃ (s : State) (x : RecXfer) (h : Nat) (c : Content), (s.unit = .recovery) ∧ (s.fw.recXfer = some x) ∧ (x.data.length < x.len)) ∧
    (∃ (s : State) (x : RecXfer) (c : Content), (s.unit = .recovery) ∧ (s.fw.recXfer = some x) ∧ (x.len ≤ x.data.length)) ∧
    (∃ (s : State) (x : RecXfer) (h : Nat) (c : Content), (s.unit = .recovery) ∧ (s.fw.recXfer = some x) ∧ (x.len ≤ x.data.length) ∧ (Config.sha384 x.data ≠ h)) ∧
    (∃ (s u : State), (s.unit = .recovery) ∧ (u = s.recReply 5 0)) ∧
    (∃ (s : State) (x : RecXfer), (s.fw.recXfer = some x) ∧ (x.at_ + 1000000000 ≤ s.tb.frc)) :=
  ⟨⟨{ wStop with fw := { wStop.fw with node := some wImageFw } }, wImageFw, 3, by decide⟩,
   ⟨wStop, 3, by decide⟩,
   ⟨wStop, 0, 0, 0, 0, [], .unreadable, by decide⟩,
   ⟨wRec, by decide⟩,
   ⟨wRec, _, 0x0102, 1, 4, ⟨by decide, by decide, by decide, by decide, rfl⟩⟩,
   ⟨wRec, 0, [], 0, .unreadable, by decide⟩,
   ⟨wRecX, _, [7], ⟨by decide, rfl, by decide, by decide⟩⟩,
   ⟨wRecX, _, 0, .unreadable, ⟨by decide, rfl, by decide⟩⟩,
   ⟨wRecE, _, .unreadable, ⟨by decide, rfl, by decide⟩⟩,
   ⟨wRecE, _, Config.sha384 [] + 1, .unreadable, ⟨by decide, rfl, by decide, Nat.ne_of_lt (Nat.lt_succ_self _)⟩⟩,
   ⟨wRec, _, ⟨by decide, rfl⟩⟩,
   ⟨{ wRecX with tb := { wRecX.tb with frc := 1000000000 } }, _, ⟨rfl, by decide⟩⟩⟩

theorem witness_SessionAndModeCommands :
    (∃ (s : State) (r : Req) (n : Nat) (d : Bytes), (Passes s r { op := 0x0101, level := .observer }) ∧ (n ≠ 1)) ∧
    (∃ (s : State) (r : Req) (d : Bytes), (Passes s r { op := 0x0101, level := .observer })) ∧
    (∃ (s : State) (r : Req), (Passes s r { op := 0x0102, level := .observer })) ∧
    (∃ (s : State) (r : Req), (Passes s r { op := 0x0103, level := .observer })) ∧
    (∃ (s : State) (r : Req) (n : Nat), (Passes s r { op := 0x0104, level := .observer })) ∧
    (∃ (s : State) (r : Req), (Passes s r { op := 0x0105, level := .observer })) ∧
    (∃ (s : State) (r : Req), (Passes s r { op := 0x0106, level := .observer })) ∧
    (∃ (s : State) (r : Req), (Passes s r { op := 0x0201, level := .observer, active := true })) ∧
    (∃ (s : State) (r : Req) (m : Nat), (Passes s r { op := opModePrepare, level := .operator, active := true }) ∧ (s.acc.modeHolder = none) ∧ (m < 2 ^ 24) ∧ (s.rd R.TT_MODE_STATUS_STATE ≠ 3) ∧ (s.rd R.TT_MODE_STATUS_STATE ≠ 4)) ∧
    (∃ (s : State) (r : Req) (m : Nat), (Passes s r { op := opModePrepare, level := .operator, active := true }) ∧ (s.acc.modeHolder = none) ∧ (2 ^ 24 ≤ m)) ∧
    (∃ (s : State) (r : Req) (w : Time) (n : Nat) (k : Nat), (Passes s r { op := 0x0203, level := .operator, active := true }) ∧ (s.acc.modeHolder = none) ∧ (s.timeFrc w = some n) ∧ (s.armCheck n = .inr k)) ∧
    (∃ (s : State) (r : Req) (w : Time) (n : Nat) (e : Nat), (Passes s r { op := 0x0203, level := .operator, active := true }) ∧ (s.acc.modeHolder = none) ∧ (s.timeFrc w = some n) ∧ (s.armCheck n = .inl e)) ∧
    (∃ (s : State) (r : Req), (Passes s r { op := 0x0204, level := .observer, active := true })) ∧
    (∃ (s : State) (r : Req), (Passes s r { op := 0x0205, level := .operator, active := true }) ∧ (s.acc.modeHolder = none) ∧ (s.rd R.TT_MODE_STATUS_STATE = 2 ∨ s.rd R.TT_MODE_STATUS_STATE = 3)) ∧
    (∃ (s : State) (r : Req), (Passes s r { op := 0x0205, level := .operator, active := true }) ∧ (s.acc.modeHolder = none) ∧ (s.rd R.TT_MODE_STATUS_STATE = 0)) ∧
    (∃ (s : State) (r : Req) (n : Nat), (Passes s r { op := 0x0205, level := .operator, active := true }) ∧ (s.acc.modeHolder = some n) ∧ (n ≠ r.session)) ∧
    (∃ (s : State) (r : Req) (k : Nat) (l : List Nat), (Passes s r { op := 0x0207, level := .engineer, active := true }) ∧ (1 ≤ k) ∧ (k ≤ 16) ∧ ((decide (l.length ≤ 16) && l.all (fun x => decide (0x20 ≤ x) && decide (x ≤ 0x7E))) = true)) ∧
    (∃ (s : State) (r : Req) (k : Nat) (l : List Nat), (Passes s r { op := 0x0207, level := .engineer, active := true }) ∧ (k = 0 ∨ 16 < k)) ∧
    (∃ (s : State) (r : Req) (k : Nat), (Passes s r { op := 0x0208, level := .engineer, lock := true, active := true }) ∧ (1 ≤ k) ∧ (k ≤ 16) ∧ (s.slotInForce k = false)) :=
  ⟨⟨wOwn, wReq1, 2, [], ⟨⟨rfl, _, rfl, by decide, by decide, by decide, by decide, by decide, by first | exact .inl rfl | exact .inr (.inl (by decide)) | exact .inr (.inr (.inl rfl)), by first | exact .inl rfl | exact .inr ⟨_, rfl, rfl⟩, by decide⟩, by first | decide | rfl⟩⟩,
   ⟨wOwn, wReq1, [], ⟨rfl, _, rfl, by decide, by decide, by decide, by decide, by decide, by first | exact .inl rfl | exact .inr (.inl (by decide)) | exact .inr (.inr (.inl rfl)), by first | exact .inl rfl | exact .inr ⟨_, rfl, rfl⟩, by decide⟩⟩,
   ⟨wOwn, wReq1, ⟨rfl, _, rfl, by decide, by decide, by decide, by decide, by decide, by first | exact .inl rfl | exact .inr (.inl (by decide)) | exact .inr (.inr (.inl rfl)), by first | exact .inl rfl | exact .inr ⟨_, rfl, rfl⟩, by decide⟩⟩,
   ⟨wOwn, wReq1, ⟨rfl, _, rfl, by decide, by decide, by decide, by decide, by decide, by first | exact .inl rfl | exact .inr (.inl (by decide)) | exact .inr (.inr (.inl rfl)), by first | exact .inl rfl | exact .inr ⟨_, rfl, rfl⟩, by decide⟩⟩,
   ⟨wOwn, wReq1, 3, ⟨rfl, _, rfl, by decide, by decide, by decide, by decide, by decide, by first | exact .inl rfl | exact .inr (.inl (by decide)) | exact .inr (.inr (.inl rfl)), by first | exact .inl rfl | exact .inr ⟨_, rfl, rfl⟩, by decide⟩⟩,
   ⟨wOwn, wReq1, ⟨rfl, _, rfl, by decide, by decide, by decide, by decide, by decide, by first | exact .inl rfl | exact .inr (.inl (by decide)) | exact .inr (.inr (.inl rfl)), by first | exact .inl rfl | exact .inr ⟨_, rfl, rfl⟩, by decide⟩⟩,
   ⟨wOwn, wReq1, ⟨rfl, _, rfl, by decide, by decide, by decide, by decide, by decide, by first | exact .inl rfl | exact .inr (.inl (by decide)) | exact .inr (.inr (.inl rfl)), by first | exact .inl rfl | exact .inr ⟨_, rfl, rfl⟩, by decide⟩⟩,
   ⟨wOwn, wReq1, ⟨rfl, _, rfl, by decide, by decide, by decide, by decide, by decide, by first | exact .inl rfl | exact .inr (.inl (by decide)) | exact .inr (.inr (.inl rfl)), by first | exact .inl rfl | exact .inr ⟨_, rfl, rfl⟩, by decide⟩⟩,
   ⟨wOwn, wReq1, 0, ⟨⟨rfl, _, rfl, by decide, by decide, by decide, by decide, by decide, by first | exact .inl rfl | exact .inr (.inl (by decide)) | exact .inr (.inr (.inl rfl)), by first | exact .inl rfl | exact .inr ⟨_, rfl, rfl⟩, by decide⟩, by first | decide | rfl, by first | decide | rfl, by first | decide | rfl, by first | decide | rfl⟩⟩,
   ⟨wOwn, wReq1, 2 ^ 24, ⟨⟨rfl, _, rfl, by decide, by decide, by decide, by decide, by decide, by first | exact .inl rfl | exact .inr (.inl (by decide)) | exact .inr (.inr (.inl rfl)), by first | exact .inl rfl | exact .inr ⟨_, rfl, rfl⟩, by decide⟩, by first | decide | rfl, by first | decide | rfl⟩⟩,
   ⟨wArm, wReq1, .frc 0, 0, 0, ⟨⟨rfl, _, rfl, by decide, by decide, by decide, by decide, by decide, by first | exact .inl rfl | exact .inr (.inl (by decide)) | exact .inr (.inr (.inl rfl)), by first | exact .inl rfl | exact .inr ⟨_, rfl, rfl⟩, by decide⟩, by first | decide | rfl, by first | decide | rfl, by first | decide | rfl⟩⟩,
   ⟨wOwn, wReq1, .frc 0, 0, mrNotprep, ⟨⟨rfl, _, rfl, by decide, by decide, by decide, by decide, by decide, by first | exact .inl rfl | exact .inr (.inl (by decide)) | exact .inr (.inr (.inl rfl)), by first | exact .inl rfl | exact .inr ⟨_, rfl, rfl⟩, by decide⟩, by first | decide | rfl, by first | decide | rfl, by first | decide | rfl⟩⟩,
   ⟨wOwn, wReq1, ⟨rfl, _, rfl, by decide, by decide, by decide, by decide, by decide, by first | exact .inl rfl | exact .inr (.inl (by decide)) | exact .inr (.inr (.inl rfl)), by first | exact .inl rfl | exact .inr ⟨_, rfl, rfl⟩, by decide⟩⟩,
   ⟨wModeS 2, wReq1, ⟨⟨rfl, _, rfl, by decide, by decide, by decide, by decide, by decide, by first | exact .inl rfl | exact .inr (.inl (by decide)) | exact .inr (.inr (.inl rfl)), by first | exact .inl rfl | exact .inr ⟨_, rfl, rfl⟩, by decide⟩, by first | decide | rfl, by first | decide | rfl⟩⟩,
   ⟨wOwn, wReq1, ⟨⟨rfl, _, rfl, by decide, by decide, by decide, by decide, by decide, by first | exact .inl rfl | exact .inr (.inl (by decide)) | exact .inr (.inr (.inl rfl)), by first | exact .inl rfl | exact .inr ⟨_, rfl, rfl⟩, by decide⟩, by first | decide | rfl, by first | decide | rfl⟩⟩,
   ⟨{ wOwn with acc := { wOwn.acc with modeHolder := some 2 } }, wReq1, 2, ⟨⟨rfl, _, rfl, by decide, by decide, by decide, by decide, by decide, by first | exact .inl rfl | exact .inr (.inl (by decide)) | exact .inr (.inr (.inl rfl)), by first | exact .inl rfl | exact .inr ⟨_, rfl, rfl⟩, by decide⟩, by first | decide | rfl, by first | decide | rfl⟩⟩,
   ⟨wOwn, wReq1, 1, [0x41], ⟨⟨rfl, _, rfl, by decide, by decide, by decide, by decide, by decide, by first | exact .inl rfl | exact .inr (.inl (by decide)) | exact .inr (.inr (.inl rfl)), by first | exact .inl rfl | exact .inr ⟨_, rfl, rfl⟩, by decide⟩, by first | decide | rfl, by first | decide | rfl, by first | decide | rfl⟩⟩,
   ⟨wOwn, wReq1, 0, [0x41], ⟨⟨rfl, _, rfl, by decide, by decide, by decide, by decide, by decide, by first | exact .inl rfl | exact .inr (.inl (by decide)) | exact .inr (.inr (.inl rfl)), by first | exact .inl rfl | exact .inr ⟨_, rfl, rfl⟩, by decide⟩, by first | decide | rfl⟩⟩,
   ⟨wOwn, wReq1, 1, ⟨⟨rfl, _, rfl, by decide, by decide, by decide, by decide, by decide, by first | exact .inl rfl | exact .inr (.inl (by decide)) | exact .inr (.inr (.inl rfl)), by first | exact .inl rfl | exact .inr ⟨_, rfl, rfl⟩, by decide⟩, by first | decide | rfl, by first | decide | rfl, by first | decide | rfl⟩⟩⟩

theorem witness_RunAndRingCommands :
    (∃ (s : State) (r : Req) (k : Nat), (Passes s r { op := opStart, level := .engineer, field := true }) ∧ (k < 4) ∧ (s.tt.starting = none)) ∧
    (∃ (s : State) (r : Req) (k : Nat), (Passes s r { op := opStart, level := .engineer, field := true }) ∧ (k < 4) ∧ (s.tt.starting.isSome = true)) ∧
    (∃ (s : State) (r : Req), (Passes s r { op := 0x0302, level := .engineer, field := true }) ∧ (s.inRun = true)) ∧
    (∃ (s : State) (r : Req), (Passes s r { op := 0x0302, level := .engineer, field := true }) ∧ (s.inRun = false)) ∧
    (∃ (s : State) (r : Req), (Passes s r { op := 0x0303, level := .engineer, lock := true, field := true })) ∧
    (∃ (s : State) (r : Req), (Passes s r { op := 0x0304, level := .observer })) ∧
    (∃ (s : State) (r : Req) (k : Nat) (p : Nat), (Passes s r { op := opAdmit, level := .engineer, lock := true, field := true }) ∧ (k < 17) ∧ (p < 2) ∧ (s.bit R.TT_ADM_STATUS_BUSY = false) ∧ (k ≠ 0)) ∧
    (∃ (s : State) (r : Req) (p : Nat), (Passes s r { op := opAdmit, level := .engineer, lock := true, field := true }) ∧ (p < 2) ∧ (s.bit R.TT_ADM_STATUS_BUSY = false) ∧ (s.inStop = false)) ∧
    (∃ (s : State) (r : Req), (Passes s r { op := 0x0306, level := .observer })) ∧
    (∃ (s : State) (r : Req) (n : Nat), (Passes s r { op := 0x0307, level := .engineer, lock := true }) ∧ (n < 2)) ∧
    (∃ (s : State) (r : Req), (Passes s r { op := 0x0308, level := .engineer })) ∧
    (∃ (s : State) (r : Req) (o : Nat) (d : Bytes), (Passes s r { op := 0x0309, level := .engineer, lock := true }) ∧ (s.inStop = true) ∧ (o + d.length ≤ s.retRegion.2)) ∧
    (∃ (s : State) (r : Req), (Passes s r { op := 0x030A, level := .engineer, lock := true }) ∧ (s.inStop = true)) ∧
    (∃ (s : State) (r : Req) (k : Nat) (e : Bytes), (Passes s r { op := 0x030B, level := .operator }) ∧ ((e.length % 64 == 0 && decide (64 ≤ e.length) && decide (e.length ≤ 1024)) = true) ∧ (s.ringBad k 0 = none)) ∧
    (∃ (s : State) (r : Req) (k : Nat) (n : Nat), (Passes s r { op := 0x030C, level := .operator }) ∧ (n ≤ 16) ∧ (s.ringBad k 1 = none)) ∧
    (∃ (s : State) (r : Req) (a : Nat) (n : Nat), (Passes s r { op := 0x030D, level := .observer }) ∧ (n ≤ 16384) ∧ (dataKind a = some 0) ∧ (dataKind (a + max 1 n - 1) = some 0)) ∧
    (∃ (s : State) (r : Req) (a : Nat) (n : Nat), (Passes s r { op := 0x030D, level := .observer }) ∧ (n ≤ 16384) ∧ (dataKind a = none)) :=
  ⟨⟨wOwn, wReq1, 0, ⟨⟨rfl, _, rfl, by decide, by decide, by decide, by decide, by decide, by first | exact .inl rfl | exact .inr (.inl (by decide)) | exact .inr (.inr (.inl rfl)), by first | exact .inl rfl | exact .inr ⟨_, rfl, rfl⟩, by decide⟩, by first | decide | rfl, by first | decide | rfl⟩⟩,
   ⟨{ wOwn with tt := { wOwn.tt with starting := some 0 } }, wReq1, 0, ⟨⟨rfl, _, rfl, by decide, by decide, by decide, by decide, by decide, by first | exact .inl rfl | exact .inr (.inl (by decide)) | exact .inr (.inr (.inl rfl)), by first | exact .inl rfl | exact .inr ⟨_, rfl, rfl⟩, by decide⟩, by first | decide | rfl, by first | decide | rfl⟩⟩,
   ⟨wRunS, wReq1, ⟨⟨rfl, _, rfl, by decide, by decide, by decide, by decide, by decide, by first | exact .inl rfl | exact .inr (.inl (by decide)) | exact .inr (.inr (.inl rfl)), by first | exact .inl rfl | exact .inr ⟨_, rfl, rfl⟩, by decide⟩, by first | decide | rfl⟩⟩,
   ⟨wOwn, wReq1, ⟨⟨rfl, _, rfl, by decide, by decide, by decide, by decide, by decide, by first | exact .inl rfl | exact .inr (.inl (by decide)) | exact .inr (.inr (.inl rfl)), by first | exact .inl rfl | exact .inr ⟨_, rfl, rfl⟩, by decide⟩, by first | decide | rfl⟩⟩,
   ⟨wOwn, wReq1, ⟨rfl, _, rfl, by decide, by decide, by decide, by decide, by decide, by first | exact .inl rfl | exact .inr (.inl (by decide)) | exact .inr (.inr (.inl rfl)), by first | exact .inl rfl | exact .inr ⟨_, rfl, rfl⟩, by decide⟩⟩,
   ⟨wOwn, wReq1, ⟨rfl, _, rfl, by decide, by decide, by decide, by decide, by decide, by first | exact .inl rfl | exact .inr (.inl (by decide)) | exact .inr (.inr (.inl rfl)), by first | exact .inl rfl | exact .inr ⟨_, rfl, rfl⟩, by decide⟩⟩,
   ⟨wOwn, wReq1, 1, 0, ⟨⟨rfl, _, rfl, by decide, by decide, by decide, by decide, by decide, by first | exact .inl rfl | exact .inr (.inl (by decide)) | exact .inr (.inr (.inl rfl)), by first | exact .inl rfl | exact .inr ⟨_, rfl, rfl⟩, by decide⟩, by first | decide | rfl, by first | decide | rfl, by first | decide | rfl, by first | decide | rfl⟩⟩,
   ⟨wRunS, wReq1, 0, ⟨⟨rfl, _, rfl, by decide, by decide, by decide, by decide, by decide, by first | exact .inl rfl | exact .inr (.inl (by decide)) | exact .inr (.inr (.inl rfl)), by first | exact .inl rfl | exact .inr ⟨_, rfl, rfl⟩, by decide⟩, by first | decide | rfl, by first | decide | rfl, by first | decide | rfl⟩⟩,
   ⟨wOwn, wReq1, ⟨rfl, _, rfl, by decide, by decide, by decide, by decide, by decide, by first | exact .inl rfl | exact .inr (.inl (by decide)) | exact .inr (.inr (.inl rfl)), by first | exact .inl rfl | exact .inr ⟨_, rfl, rfl⟩, by decide⟩⟩,
   ⟨wOwn, wReq1, 1, ⟨⟨rfl, _, rfl, by decide, by decide, by decide, by decide, by decide, by first | exact .inl rfl | exact .inr (.inl (by decide)) | exact .inr (.inr (.inl rfl)), by first | exact .inl rfl | exact .inr ⟨_, rfl, rfl⟩, by decide⟩, by first | decide | rfl⟩⟩,
   ⟨wOwn, wReq1, ⟨rfl, _, rfl, by decide, by decide, by decide, by decide, by decide, by first | exact .inl rfl | exact .inr (.inl (by decide)) | exact .inr (.inr (.inl rfl)), by first | exact .inl rfl | exact .inr ⟨_, rfl, rfl⟩, by decide⟩⟩,
   ⟨wOwn, wReq1, 0, [], ⟨⟨rfl, _, rfl, by decide, by decide, by decide, by decide, by decide, by first | exact .inl rfl | exact .inr (.inl (by decide)) | exact .inr (.inr (.inl rfl)), by first | exact .inl rfl | exact .inr ⟨_, rfl, rfl⟩, by decide⟩, by first | decide | rfl, by first | decide | rfl⟩⟩,
   ⟨wOwn, wReq1, ⟨⟨rfl, _, rfl, by decide, by decide, by decide, by decide, by decide, by first | exact .inl rfl | exact .inr (.inl (by decide)) | exact .inr (.inr (.inl rfl)), by first | exact .inl rfl | exact .inr ⟨_, rfl, rfl⟩, by decide⟩, by first | decide | rfl⟩⟩,
   ⟨wRingS 0, wReq1, 127, List.replicate 64 0, ⟨⟨rfl, _, rfl, by decide, by decide, by decide, by decide, by decide, by first | exact .inl rfl | exact .inr (.inl (by decide)) | exact .inr (.inr (.inl rfl)), by first | exact .inl rfl | exact .inr ⟨_, rfl, rfl⟩, by decide⟩, by first | decide | rfl, by first | decide | rfl⟩⟩,
   ⟨wRingS 1, wReq1, 127, 1, ⟨⟨rfl, _, rfl, by decide, by decide, by decide, by decide, by decide, by first | exact .inl rfl | exact .inr (.inl (by decide)) | exact .inr (.inr (.inl rfl)), by first | exact .inl rfl | exact .inr ⟨_, rfl, rfl⟩, by decide⟩, by first | decide | rfl, by first | decide | rfl⟩⟩,
   ⟨wOwn, wReq1, 0x100, 4, ⟨⟨rfl, _, rfl, by decide, by decide, by decide, by decide, by decide, by first | exact .inl rfl | exact .inr (.inl (by decide)) | exact .inr (.inr (.inl rfl)), by first | exact .inl rfl | exact .inr ⟨_, rfl, rfl⟩, by decide⟩, by first | decide | rfl, by first | decide | rfl, by first | decide | rfl⟩⟩,
   ⟨wOwn, wReq1, 0xF0000000, 4, ⟨⟨rfl, _, rfl, by decide, by decide, by decide, by decide, by decide, by first | exact .inl rfl | exact .inr (.inl (by decide)) | exact .inr (.inr (.inl rfl)), by first | exact .inl rfl | exact .inr ⟨_, rfl, rfl⟩, by decide⟩, by first | decide | rfl, by first | decide | rfl⟩⟩⟩

theorem witness_ConfigurationCommands :
    (∃ (s : State) (r : Req) (a : Nat) (k : Nat), (Passes s r { op := 0x0501, level := .observer }) ∧ (1 ≤ k) ∧ (k ≤ 4096) ∧ ((List.range k).all (fun i => regAddr (a + 4 * i)) = true)) ∧
    (∃ (s : State) (r : Req) (a : Nat) (k : Nat), (Passes s r { op := 0x0C08, level := .observer }) ∧ (1 ≤ k) ∧ (k ≤ 4096) ∧ ((List.range k).all (fun i => regAddr (a + 4 * i)) = true)) ∧
    (∃ (s : State) (r : Req) (l : List (Nat × Nat)), (Passes s r { op := 0x0502, level := .engineer, lock := true }) ∧ (l.isEmpty = false) ∧ (l.all (fun x => regAddr x.1) = true)) ∧
    (∃ (s : State) (r : Req) (a : Nat) (v : Nat), (Passes s r { op := 0x0C09, level := .owner, lock := true }) ∧ (regAddr a = true)) ∧
    (∃ (s : State) (r : Req) (a : Nat) (v : Nat), (Passes s r { op := 0x0C09, level := .owner, lock := true }) ∧ (regAddr a = false)) ∧
    (∃ (s : State) (r : Req) (a : Nat) (m : Nat), (Passes s r { op := 0x050E, level := .operator }) ∧ (regAddr a = true)) ∧
    (∃ (s : State) (r : Req) (n : Nat) (b : ApplyBlock), (Passes s r { op := opCfgApply, level := .engineer, lock := true }) ∧ (applyBlock n = some b)) ∧
    (∃ (s : State) (r : Req) (n : Nat), (Passes s r { op := opCfgApply, level := .engineer, lock := true }) ∧ (applyBlock n = none)) ∧
    (∃ (s : State) (r : Req) (n : Nat) (b : ApplyBlock), (Passes s r { op := 0x0504, level := .engineer, lock := true }) ∧ (applyBlock n = some b)) ∧
    (∃ (s : State) (r : Req), (Passes s r { op := 0x0505, level := .engineer, lock := true })) ∧
    (∃ (s : State) (r : Req) (k : Nat), (Passes s r { op := 0x0506, level := .observer }) ∧ (k < 96)) ∧
    (∃ (s : State) (r : Req) (k : Nat), (Passes s r { op := 0x0506, level := .observer }) ∧ (96 ≤ k)) ∧
    (∃ (s : State) (r : Req) (i : Nat) (a : Nat) (m : Nat) (g : Nat) (p : Nat), (Passes s r { op := 0x0507, level := .engineer, lock := true }) ∧ (i < 5) ∧ (1024 ≤ p) ∧ (p ≤ 65535)) ∧
    (∃ (s : State) (r : Req) (k : Nat) (g : Nat) (o : Nat), (Passes s r { op := opTrimSet, level := .engineer, lock := true }) ∧ (k < 96)) ∧
    (∃ (s : State) (r : Req) (k : Nat) (a : Nat) (o : Nat) (d : Bytes), (Passes s r { op := opHartPass, level := .operator }) ∧ (k < 96) ∧ (s.hartAddr k a = true) ∧ (s.hartOn k = true) ∧ ((s.hart k).queue.length < hartDepth)) ∧
    (∃ (s : State) (r : Req) (k : Nat) (a : Nat) (o : Nat) (d : Bytes), (Passes s r { op := opHartPass, level := .operator }) ∧ (k < 96) ∧ (s.hartAddr k a = false)) ∧
    (∃ (s : State) (r : Req) (k : Nat) (a : Nat) (o : Nat) (d : Bytes), (Passes s r { op := opHartPass, level := .operator }) ∧ (k < 96) ∧ (s.hartAddr k a = true) ∧ (s.hartOn k = false)) ∧
    (∃ (s : State) (r : Req) (k : Nat), (Passes s r { op := 0x050A, level := .observer }) ∧ (k < 96)) ∧
    (∃ (s : State) (r : Req) (k : Nat) (l : List (Nat × Nat × Nat)), (Passes s r { op := 0x050B, level := .engineer, lock := true }) ∧ (k < 96) ∧ ((decide (l.length ≤ 16) && l.all (fun e => s.hartAddr k e.1 && decide (1 ≤ e.2.2) && decide (e.2.2 ≤ 3600))) = true)) ∧
    (∃ (s : State) (r : Req) (p : Nat) (f : Nat), (Passes s r { op := 0x050C, level := .operator }) ∧ (p < 8) ∧ (f < 2)) ∧
    (∃ (s : State) (r : Req) (p : Nat) (d : Bytes), (Passes s r { op := 0x050D, level := .operator }) ∧ (p < 8) ∧ (d.length = 64)) ∧
    (∃ (s : State) (r : Req) (p : Nat) (d : Bytes), (Passes s r { op := 0x050D, level := .operator }) ∧ (8 ≤ p)) :=
  ⟨⟨wOwn, wReq1, 0x40000000, 1, ⟨⟨rfl, _, rfl, by decide, by decide, by decide, by decide, by decide, by first | exact .inl rfl | exact .inr (.inl (by decide)) | exact .inr (.inr (.inl rfl)), by first | exact .inl rfl | exact .inr ⟨_, rfl, rfl⟩, by decide⟩, by first | decide | rfl, by first | decide | rfl, by first | decide | rfl⟩⟩,
   ⟨wOwn, wReq1, 0x40000000, 1, ⟨⟨rfl, _, rfl, by decide, by decide, by decide, by decide, by decide, by first | exact .inl rfl | exact .inr (.inl (by decide)) | exact .inr (.inr (.inl rfl)), by first | exact .inl rfl | exact .inr ⟨_, rfl, rfl⟩, by decide⟩, by first | decide | rfl, by first | decide | rfl, by first | decide | rfl⟩⟩,
   ⟨wOwn, wReq1, [(0x40000000, 0)], ⟨⟨rfl, _, rfl, by decide, by decide, by decide, by decide, by decide, by first | exact .inl rfl | exact .inr (.inl (by decide)) | exact .inr (.inr (.inl rfl)), by first | exact .inl rfl | exact .inr ⟨_, rfl, rfl⟩, by decide⟩, by first | decide | rfl, by first | decide | rfl⟩⟩,
   ⟨wOwn, wReq1, 0x40000000, 0, ⟨⟨rfl, _, rfl, by decide, by decide, by decide, by decide, by decide, by first | exact .inl rfl | exact .inr (.inl (by decide)) | exact .inr (.inr (.inl rfl)), by first | exact .inl rfl | exact .inr ⟨_, rfl, rfl⟩, by decide⟩, by first | decide | rfl⟩⟩,
   ⟨wOwn, wReq1, 0x40000001, 0, ⟨⟨rfl, _, rfl, by decide, by decide, by decide, by decide, by decide, by first | exact .inl rfl | exact .inr (.inl (by decide)) | exact .inr (.inr (.inl rfl)), by first | exact .inl rfl | exact .inr ⟨_, rfl, rfl⟩, by decide⟩, by first | decide | rfl⟩⟩,
   ⟨wOwn, wReq1, 0x40000004, 0, ⟨⟨rfl, _, rfl, by decide, by decide, by decide, by decide, by decide, by first | exact .inl rfl | exact .inr (.inl (by decide)) | exact .inr (.inr (.inl rfl)), by first | exact .inl rfl | exact .inr ⟨_, rfl, rfl⟩, by decide⟩, by first | decide | rfl⟩⟩,
   ⟨wOwn, wReq1, 0x40060000, .discrete, ⟨⟨rfl, _, rfl, by decide, by decide, by decide, by decide, by decide, by first | exact .inl rfl | exact .inr (.inl (by decide)) | exact .inr (.inr (.inl rfl)), by first | exact .inl rfl | exact .inr ⟨_, rfl, rfl⟩, by decide⟩, by first | decide | rfl⟩⟩,
   ⟨wOwn, wReq1, 0, ⟨⟨rfl, _, rfl, by decide, by decide, by decide, by decide, by decide, by first | exact .inl rfl | exact .inr (.inl (by decide)) | exact .inr (.inr (.inl rfl)), by first | exact .inl rfl | exact .inr ⟨_, rfl, rfl⟩, by decide⟩, by first | decide | rfl⟩⟩,
   ⟨wOwn, wReq1, 0x40060000, .discrete, ⟨⟨rfl, _, rfl, by decide, by decide, by decide, by decide, by decide, by first | exact .inl rfl | exact .inr (.inl (by decide)) | exact .inr (.inr (.inl rfl)), by first | exact .inl rfl | exact .inr ⟨_, rfl, rfl⟩, by decide⟩, by first | decide | rfl⟩⟩,
   ⟨wOwn, wReq1, ⟨rfl, _, rfl, by decide, by decide, by decide, by decide, by decide, by first | exact .inl rfl | exact .inr (.inl (by decide)) | exact .inr (.inr (.inl rfl)), by first | exact .inl rfl | exact .inr ⟨_, rfl, rfl⟩, by decide⟩⟩,
   ⟨wOwn, wReq1, 95, ⟨⟨rfl, _, rfl, by decide, by decide, by decide, by decide, by decide, by first | exact .inl rfl | exact .inr (.inl (by decide)) | exact .inr (.inr (.inl rfl)), by first | exact .inl rfl | exact .inr ⟨_, rfl, rfl⟩, by decide⟩, by first | decide | rfl⟩⟩,
   ⟨wOwn, wReq1, 96, ⟨⟨rfl, _, rfl, by decide, by decide, by decide, by decide, by decide, by first | exact .inl rfl | exact .inr (.inl (by decide)) | exact .inr (.inr (.inl rfl)), by first | exact .inl rfl | exact .inr ⟨_, rfl, rfl⟩, by decide⟩, by first | decide | rfl⟩⟩,
   ⟨wOwn, wReq1, 4, 1, 2, 3, 1024, ⟨⟨rfl, _, rfl, by decide, by decide, by decide, by decide, by decide, by first | exact .inl rfl | exact .inr (.inl (by decide)) | exact .inr (.inr (.inl rfl)), by first | exact .inl rfl | exact .inr ⟨_, rfl, rfl⟩, by decide⟩, by first | decide | rfl, by first | decide | rfl, by first | decide | rfl⟩⟩,
   ⟨wOwn, wReq1, 95, 1, 2, ⟨⟨rfl, _, rfl, by decide, by decide, by decide, by decide, by decide, by first | exact .inl rfl | exact .inr (.inl (by decide)) | exact .inr (.inr (.inl rfl)), by first | exact .inl rfl | exact .inr ⟨_, rfl, rfl⟩, by decide⟩, by first | decide | rfl⟩⟩,
   ⟨{ wOwn with regs := wHartQ.regs, harts := wHart.harts }, wReq1, 95, 0, 3, [], ⟨⟨rfl, _, rfl, by decide, by decide, by decide, by decide, by decide, by first | exact .inl rfl | exact .inr (.inl (by decide)) | exact .inr (.inr (.inl rfl)), by first | exact .inl rfl | exact .inr ⟨_, rfl, rfl⟩, by decide⟩, by first | decide | rfl, by first | decide | rfl, by first | decide | rfl, by first | decide | rfl⟩⟩,
   ⟨wOwn, wReq1, 95, 64, 3, [], ⟨⟨rfl, _, rfl, by decide, by decide, by decide, by decide, by decide, by first | exact .inl rfl | exact .inr (.inl (by decide)) | exact .inr (.inr (.inl rfl)), by first | exact .inl rfl | exact .inr ⟨_, rfl, rfl⟩, by decide⟩, by first | decide | rfl, by first | decide | rfl⟩⟩,
   ⟨wOwn, wReq1, 95, 0, 3, [], ⟨⟨rfl, _, rfl, by decide, by decide, by decide, by decide, by decide, by first | exact .inl rfl | exact .inr (.inl (by decide)) | exact .inr (.inr (.inl rfl)), by first | exact .inl rfl | exact .inr ⟨_, rfl, rfl⟩, by decide⟩, by first | decide | rfl, by first | decide | rfl, by first | decide | rfl⟩⟩,
   ⟨wOwn, wReq1, 95, ⟨⟨rfl, _, rfl, by decide, by decide, by decide, by decide, by decide, by first | exact .inl rfl | exact .inr (.inl (by decide)) | exact .inr (.inr (.inl rfl)), by first | exact .inl rfl | exact .inr ⟨_, rfl, rfl⟩, by decide⟩, by first | decide | rfl⟩⟩,
   ⟨wOwn, wReq1, 95, [(0, 3, 1)], ⟨⟨rfl, _, rfl, by decide, by decide, by decide, by decide, by decide, by first | exact .inl rfl | exact .inr (.inl (by decide)) | exact .inr (.inr (.inl rfl)), by first | exact .inl rfl | exact .inr ⟨_, rfl, rfl⟩, by decide⟩, by first | decide | rfl, by first | decide | rfl⟩⟩,
   ⟨wOwn, wReq1, 7, 1, ⟨⟨rfl, _, rfl, by decide, by decide, by decide, by decide, by decide, by first | exact .inl rfl | exact .inr (.inl (by decide)) | exact .inr (.inr (.inl rfl)), by first | exact .inl rfl | exact .inr ⟨_, rfl, rfl⟩, by decide⟩, by first | decide | rfl, by first | decide | rfl⟩⟩,
   ⟨wOwn, wReq1, 7, List.replicate 64 0, ⟨⟨rfl, _, rfl, by decide, by decide, by decide, by decide, by decide, by first | exact .inl rfl | exact .inr (.inl (by decide)) | exact .inr (.inr (.inl rfl)), by first | exact .inl rfl | exact .inr ⟨_, rfl, rfl⟩, by decide⟩, by first | decide | rfl, by first | decide | rfl⟩⟩,
   ⟨wOwn, wReq1, 8, [], ⟨⟨rfl, _, rfl, by decide, by decide, by decide, by decide, by decide, by first | exact .inl rfl | exact .inr (.inl (by decide)) | exact .inr (.inr (.inl rfl)), by first | exact .inl rfl | exact .inr ⟨_, rfl, rfl⟩, by decide⟩, by first | decide | rfl⟩⟩⟩

theorem witness_TimeAndPairCommands :
    (∃ (s : State) (r : Req), (Passes s r { op := 0x0601, level := .observer })) ∧
    (∃ (s : State) (r : Req) (a : Nat) (b : Nat) (c : Nat) (d : Nat), (Passes s r { op := 0x0602, level := .engineer, lock := true }) ∧ (s.servoOwns = true)) ∧
    (∃ (s : State) (r : Req) (a : Nat) (b : Nat) (c : Nat), (Passes s r { op := 0x0602, level := .engineer, lock := true }) ∧ (s.servoOwns = false)) ∧
    (∃ (s : State) (r : Req) (a : Nat) (b : Nat) (c : Nat) (d : Nat), (Passes s r { op := 0x0602, level := .engineer, lock := true }) ∧ (s.servoOwns = false) ∧ (d ≠ 0)) ∧
    (∃ (s : State) (r : Req) (a : Nat) (b : Nat), (Passes s r { op := 0x0603, level := .engineer, lock := true }) ∧ (s.servoOwns = false)) ∧
    (∃ (s : State) (r : Req) (a : Nat) (b : Nat), (Passes s r { op := 0x0603, level := .engineer, lock := true }) ∧ (s.servoOwns = true)) ∧
    (∃ (s : State) (r : Req) (a : Nat) (b : Nat), (Passes s r { op := 0x0604, level := .engineer, lock := true }) ∧ (a < 2) ∧ (b < 2)) ∧
    (∃ (s : State) (r : Req) (g : Nat) (w : Time) (n : Nat) (m : Nat), (Passes s r { op := 0x0605, level := .operator }) ∧ ((decide (g < 32) && (s.rd R.TB_LG_MODE g == 2 || s.rd R.TB_LG_MODE g == 3)) = true) ∧ (s.lgTime g w = some (n, m))) ∧
    (∃ (s : State) (r : Req) (n : Nat), (Passes s r { op := 0x0606, level := .engineer, lock := true }) ∧ (n < 2)) ∧
    (∃ (s : State) (r : Req), (Passes s r { op := 0x0606, level := .engineer, lock := true }) ∧ (s.inStop = true)) ∧
    (∃ (s : State) (r : Req), (Passes s r { op := 0x0606, level := .engineer, lock := true }) ∧ (s.inStop = false)) ∧
    (∃ (s : State) (r : Req), (Passes s r { op := 0x0701, level := .observer })) ∧
    (∃ (s : State) (r : Req) (q : PartnerInfo), (Passes s r { op := opJoin, level := .engineer, field := true }) ∧ (s.inStop = true) ∧ (s.bit R.PA_CFG_EN = true) ∧ (s.pair.joining = false)) ∧
    (∃ (s : State) (r : Req) (q : PartnerInfo), (Passes s r { op := opJoin, level := .engineer, field := true }) ∧ (s.inStop = true) ∧ (s.bit R.PA_CFG_EN = false)) ∧
    (∃ (s : State) (r : Req) (q : PartnerInfo), (Passes s r { op := opJoin, level := .engineer, field := true }) ∧ (s.inStop = false)) ∧
    (∃ (s : State) (r : Req), (Passes s r { op := opLeave, level := .engineer, field := true }) ∧ (s.inRun = true)) ∧
    (∃ (s : State) (r : Req), (Passes s r { op := opLeave, level := .engineer, field := true }) ∧ (s.inRun = false)) ∧
    (∃ (s : State) (r : Req) (n : Nat), (Passes s r { op := opHandover, level := .operator, active := true }) ∧ (s.acc.handoverHolder = none)) ∧
    (∃ (s : State) (r : Req), (Passes s r { op := 0x0705, level := .operator, active := true }) ∧ (s.acc.handoverHolder = none)) ∧
    (∃ (s : State) (r : Req) (a : Nat) (b : Nat) (c : Nat), (Passes s r { op := 0x0706, level := .engineer, lock := true }) ∧ (a < 32) ∧ ((decide (1 ≤ bitsOf b 0 12) && decide (bitsOf b 0 12 ≤ 3600) && decide (1 ≤ bitsOf b 16 8)) = true) ∧ ((decide (1 ≤ c) && decide (c < 65536)) = true)) :=
  ⟨⟨wOwn, wReq1, ⟨rfl, _, rfl, by decide, by decide, by decide, by decide, by decide, by first | exact .inl rfl | exact .inr (.inl (by decide)) | exact .inr (.inr (.inl rfl)), by first | exact .inl rfl | exact .inr ⟨_, rfl, rfl⟩, by decide⟩⟩,
   ⟨{ wOwn with regs := [(R.PT_SERVO_MODE.key 0 0, 1), (R.PT_STATUS_STATE.key 0 0, 2)] }, wReq1, 1, 2, 3, 0, ⟨⟨rfl, _, rfl, by decide, by decide, by decide, by decide, by decide, by first | exact .inl rfl | exact .inr (.inl (by decide)) | exact .inr (.inr (.inl rfl)), by first | exact .inl rfl | exact .inr ⟨_, rfl, rfl⟩, by decide⟩, by first | decide | rfl⟩⟩,
   ⟨wOwn, wReq1, 1, 2, 3, ⟨⟨rfl, _, rfl, by decide, by decide, by decide, by decide, by decide, by first | exact .inl rfl | exact .inr (.inl (by decide)) | exact .inr (.inr (.inl rfl)), by first | exact .inl rfl | exact .inr ⟨_, rfl, rfl⟩, by decide⟩, by first | decide | rfl⟩⟩,
   ⟨wOwn, wReq1, 1, 2, 3, 1, ⟨⟨rfl, _, rfl, by decide, by decide, by decide, by decide, by decide, by first | exact .inl rfl | exact .inr (.inl (by decide)) | exact .inr (.inr (.inl rfl)), by first | exact .inl rfl | exact .inr ⟨_, rfl, rfl⟩, by decide⟩, by first | decide | rfl, by first | decide | rfl⟩⟩,
   ⟨wOwn, wReq1, 10, 0, ⟨⟨rfl, _, rfl, by decide, by decide, by decide, by decide, by decide, by first | exact .inl rfl | exact .inr (.inl (by decide)) | exact .inr (.inr (.inl rfl)), by first | exact .inl rfl | exact .inr ⟨_, rfl, rfl⟩, by decide⟩, by first | decide | rfl⟩⟩,
   ⟨{ wOwn with regs := [(R.PT_SERVO_MODE.key 0 0, 1), (R.PT_STATUS_STATE.key 0 0, 2)] }, wReq1, 10, 0, ⟨⟨rfl, _, rfl, by decide, by decide, by decide, by decide, by decide, by first | exact .inl rfl | exact .inr (.inl (by decide)) | exact .inr (.inr (.inl rfl)), by first | exact .inl rfl | exact .inr ⟨_, rfl, rfl⟩, by decide⟩, by first | decide | rfl⟩⟩,
   ⟨wOwn, wReq1, 1, 1, ⟨⟨rfl, _, rfl, by decide, by decide, by decide, by decide, by decide, by first | exact .inl rfl | exact .inr (.inl (by decide)) | exact .inr (.inr (.inl rfl)), by first | exact .inl rfl | exact .inr ⟨_, rfl, rfl⟩, by decide⟩, by first | decide | rfl, by first | decide | rfl⟩⟩,
   ⟨{ wOwn with regs := [(R.TB_LG_MODE.key 31 0, 2)] }, wReq1, 31, .frc 9, 9, 0, ⟨⟨rfl, _, rfl, by decide, by decide, by decide, by decide, by decide, by first | exact .inl rfl | exact .inr (.inl (by decide)) | exact .inr (.inr (.inl rfl)), by first | exact .inl rfl | exact .inr ⟨_, rfl, rfl⟩, by decide⟩, by first | decide | rfl, by first | decide | rfl⟩⟩,
   ⟨wOwn, wReq1, 1, ⟨⟨rfl, _, rfl, by decide, by decide, by decide, by decide, by decide, by first | exact .inl rfl | exact .inr (.inl (by decide)) | exact .inr (.inr (.inl rfl)), by first | exact .inl rfl | exact .inr ⟨_, rfl, rfl⟩, by decide⟩, by first | decide | rfl⟩⟩,
   ⟨wOwn, wReq1, ⟨⟨rfl, _, rfl, by decide, by decide, by decide, by decide, by decide, by first | exact .inl rfl | exact .inr (.inl (by decide)) | exact .inr (.inr (.inl rfl)), by first | exact .inl rfl | exact .inr ⟨_, rfl, rfl⟩, by decide⟩, by first | decide | rfl⟩⟩,
   ⟨wRunS, wReq1, ⟨⟨rfl, _, rfl, by decide, by decide, by decide, by decide, by decide, by first | exact .inl rfl | exact .inr (.inl (by decide)) | exact .inr (.inr (.inl rfl)), by first | exact .inl rfl | exact .inr ⟨_, rfl, rfl⟩, by decide⟩, by first | decide | rfl⟩⟩,
   ⟨wOwn, wReq1, ⟨rfl, _, rfl, by decide, by decide, by decide, by decide, by decide, by first | exact .inl rfl | exact .inr (.inl (by decide)) | exact .inr (.inr (.inl rfl)), by first | exact .inl rfl | exact .inr ⟨_, rfl, rfl⟩, by decide⟩⟩,
   ⟨{ wOwn with regs := [(R.PA_CFG_EN.key 0 0, 1)] }, wReq1, wInfo, ⟨⟨rfl, _, rfl, by decide, by decide, by decide, by decide, by decide, by first | exact .inl rfl | exact .inr (.inl (by decide)) | exact .inr (.inr (.inl rfl)), by first | exact .inl rfl | exact .inr ⟨_, rfl, rfl⟩, by decide⟩, by first | decide | rfl, by first | decide | rfl, by first | decide | rfl⟩⟩,
   ⟨wOwn, wReq1, wInfo, ⟨⟨rfl, _, rfl, by decide, by decide, by decide, by decide, by decide, by first | exact .inl rfl | exact .inr (.inl (by decide)) | exact .inr (.inr (.inl rfl)), by first | exact .inl rfl | exact .inr ⟨_, rfl, rfl⟩, by decide⟩, by first | decide | rfl, by first | decide | rfl⟩⟩,
   ⟨wRunS, wReq1, wInfo, ⟨⟨rfl, _, rfl, by decide, by decide, by decide, by decide, by decide, by first | exact .inl rfl | exact .inr (.inl (by decide)) | exact .inr (.inr (.inl rfl)), by first | exact .inl rfl | exact .inr ⟨_, rfl, rfl⟩, by decide⟩, by first | decide | rfl⟩⟩,
   ⟨wRunS, wReq1, ⟨⟨rfl, _, rfl, by decide, by decide, by decide, by decide, by decide, by first | exact .inl rfl | exact .inr (.inl (by decide)) | exact .inr (.inr (.inl rfl)), by first | exact .inl rfl | exact .inr ⟨_, rfl, rfl⟩, by decide⟩, by first | decide | rfl⟩⟩,
   ⟨wOwn, wReq1, ⟨⟨rfl, _, rfl, by decide, by decide, by decide, by decide, by decide, by first | exact .inl rfl | exact .inr (.inl (by decide)) | exact .inr (.inr (.inl rfl)), by first | exact .inl rfl | exact .inr ⟨_, rfl, rfl⟩, by decide⟩, by first | decide | rfl⟩⟩,
   ⟨wOwn, wReq1, 0, ⟨⟨rfl, _, rfl, by decide, by decide, by decide, by decide, by decide, by first | exact .inl rfl | exact .inr (.inl (by decide)) | exact .inr (.inr (.inl rfl)), by first | exact .inl rfl | exact .inr ⟨_, rfl, rfl⟩, by decide⟩, by first | decide | rfl⟩⟩,
   ⟨wOwn, wReq1, ⟨⟨rfl, _, rfl, by decide, by decide, by decide, by decide, by decide, by first | exact .inl rfl | exact .inr (.inl (by decide)) | exact .inr (.inr (.inl rfl)), by first | exact .inl rfl | exact .inr ⟨_, rfl, rfl⟩, by decide⟩, by first | decide | rfl⟩⟩,
   ⟨wOwn, wReq1, 1, 0x10001, 1, ⟨⟨rfl, _, rfl, by decide, by decide, by decide, by decide, by decide, by first | exact .inl rfl | exact .inr (.inl (by decide)) | exact .inr (.inr (.inl rfl)), by first | exact .inl rfl | exact .inr ⟨_, rfl, rfl⟩, by decide⟩, by first | decide | rfl, by first | decide | rfl, by first | decide | rfl⟩⟩⟩

theorem witness_ChainAndMeteringCommands :
    (∃ (s : State) (r : Req) (p : Nat), (Passes s r { op := 0x0801, level := .observer, active := true }) ∧ (p < 8)) ∧
    (∃ (s : State) (r : Req) (p : Nat), (Passes s r { op := 0x0803, level := .operator, active := true }) ∧ (s.chainOn p = true) ∧ (s.chainState p ≠ csSleeping)) ∧
    (∃ (s : State) (r : Req) (p : Nat), (Passes s r { op := 0x0805, level := .operator, active := true }) ∧ (s.chainOn p = true) ∧ (s.chainState p ≠ csSleeping)) ∧
    (∃ (s : State) (r : Req) (p : Nat), (Passes s r { op := 0x0804, level := .operator, active := true }) ∧ (s.chainOn p = true)) ∧
    (∃ (s : State) (r : Req) (p : Nat), (Passes s r { op := 0x0804, level := .operator, active := true }) ∧ (s.chainOn p = false)) ∧
    (∃ (s : State) (r : Req) (p : Nat), (Passes s r { op := 0x0805, level := .operator, active := true }) ∧ (s.chainOn p = true) ∧ (s.chainState p = csSleeping)) ∧
    (∃ (s : State) (r : Req) (p : Nat) (h : Nat) (o : Nat) (d : Bytes), (Passes s r { op := 0x0802, level := .engineer, active := true }) ∧ (s.chainOn p = true) ∧ (s.chainState p ≠ csSleeping) ∧ ((s.chainReach p h).isSome = true) ∧ ((s.chain p).queue.length < 32)) ∧
    (∃ (s : State) (r : Req) (p : Nat) (h : Nat) (o : Nat) (d : Bytes), (Passes s r { op := 0x0802, level := .engineer, active := true }) ∧ (s.chainOn p = true) ∧ (s.chainState p ≠ csSleeping) ∧ ((s.chainReach p h).isSome = false)) ∧
    (∃ (s : State) (r : Req) (p : Nat) (h : Nat) (m : Nat) (d : Bytes), (Passes s r { op := 0x0806, level := .operator, active := true }) ∧ (m < 3) ∧ (d.length = 32) ∧ (s.chainOn p = true) ∧ (s.chainState p ≠ csSleeping) ∧ ((s.chainReach p h).isSome = true)) ∧
    (∃ (s : State) (r : Req) (p : Nat), (Passes s r { op := 0x0807, level := .operator, active := true }) ∧ (s.chainOn p = true) ∧ (s.chainState p ≠ csSleeping)) ∧
    (∃ (s : State) (r : Req) (p : Nat) (h : Nat), (Passes s r { op := 0x0809, level := .observer, active := true }) ∧ (s.chainOn p = true) ∧ (s.chainState p ≠ csSleeping) ∧ ((s.chainReach p h).isSome = true)) ∧
    (∃ (s : State) (r : Req) (c : Cmd) (p o h : Nat) (d : Bytes), (32 ≤ (s.chain p).queue.length)) ∧
    (∃ (s : State) (r : Req) (n : Nat) (k : Nat), (Passes s r { op := 0x0808, level := .observer, active := true }) ∧ (1 ≤ k) ∧ (k ≤ 128) ∧ (n + k ≤ 8192)) ∧
    (∃ (s : State) (r : Req) (n : Nat) (k : Nat) (b : Option Nat), (Passes s r { op := 0x0808, level := .observer, active := true }) ∧ (8192 ≤ n)) ∧
    (∃ (s : State) (r : Req), (Passes s r { op := 0x0901, level := .observer }) ∧ (s.mg.status = none)) ∧
    (∃ (s : State) (r : Req) (n : Nat) (k : Nat), (Passes s r { op := 0x0902, level := .observer }) ∧ (s.mg.store.any (fun x => x.1 == n) = false)) ∧
    (∃ (s : State) (r : Req) (n : Nat) (k : Nat), (Passes s r { op := 0x0903, level := .observer }) ∧ (s.mg.audit.length ≤ n)) ∧
    (∃ (s : State) (r : Req), (Passes s r { op := 0x0904, level := .observer }) ∧ (s.mg.cert.isEmpty = true)) ∧
    (∃ (s : State) (r : Req) (m : MgRecord), (Passes s r { op := 0x0901, level := .observer }) ∧ (s.mg.status = some m)) ∧
    (∃ (s : State) (r : Req) (n : Nat) (k : Nat), (Passes s r { op := 0x0902, level := .observer }) ∧ (s.mg.store.any (fun x => x.1 == n) = true)) ∧
    (∃ (s : State) (r : Req) (n : Nat) (k : Nat), (Passes s r { op := 0x0903, level := .observer }) ∧ (n < s.mg.audit.length)) ∧
    (∃ (s : State) (r : Req), (Passes s r { op := 0x0904, level := .observer }) ∧ (s.mg.cert.isEmpty = false)) ∧
    (∃ (s : State) (r : Req), (Passes s r { op := 0x0908, level := .metrology })) :=
  ⟨⟨wOwn, wReq1, 7, ⟨⟨rfl, _, rfl, by decide, by decide, by decide, by decide, by decide, by first | exact .inl rfl | exact .inr (.inl (by decide)) | exact .inr (.inr (.inl rfl)), by first | exact .inl rfl | exact .inr ⟨_, rfl, rfl⟩, by decide⟩, by first | decide | rfl⟩⟩,
   ⟨wChainS, wReq1, 7, ⟨⟨rfl, _, rfl, by decide, by decide, by decide, by decide, by decide, by first | exact .inl rfl | exact .inr (.inl (by decide)) | exact .inr (.inr (.inl rfl)), by first | exact .inl rfl | exact .inr ⟨_, rfl, rfl⟩, by decide⟩, by first | decide | rfl, by first | decide | rfl⟩⟩,
   ⟨wChainS, wReq1, 7, ⟨⟨rfl, _, rfl, by decide, by decide, by decide, by decide, by decide, by first | exact .inl rfl | exact .inr (.inl (by decide)) | exact .inr (.inr (.inl rfl)), by first | exact .inl rfl | exact .inr ⟨_, rfl, rfl⟩, by decide⟩, by first | decide | rfl, by first | decide | rfl⟩⟩,
   ⟨wChainS, wReq1, 7, ⟨⟨rfl, _, rfl, by decide, by decide, by decide, by decide, by decide, by first | exact .inl rfl | exact .inr (.inl (by decide)) | exact .inr (.inr (.inl rfl)), by first | exact .inl rfl | exact .inr ⟨_, rfl, rfl⟩, by decide⟩, by first | decide | rfl⟩⟩,
   ⟨wOwn, wReq1, 7, ⟨⟨rfl, _, rfl, by decide, by decide, by decide, by decide, by decide, by first | exact .inl rfl | exact .inr (.inl (by decide)) | exact .inr (.inr (.inl rfl)), by first | exact .inl rfl | exact .inr ⟨_, rfl, rfl⟩, by decide⟩, by first | decide | rfl⟩⟩,
   ⟨{ wChain [(R.CH_STATUS_STATE.key 7 0, csSleeping)] with acc := wOwn.acc }, wReq1, 7, ⟨⟨rfl, _, rfl, by decide, by decide, by decide, by decide, by decide, by first | exact .inl rfl | exact .inr (.inl (by decide)) | exact .inr (.inr (.inl rfl)), by first | exact .inl rfl | exact .inr ⟨_, rfl, rfl⟩, by decide⟩, by first | decide | rfl, by first | decide | rfl⟩⟩,
   ⟨wChainS, wReq1, 7, 1, 4, [], ⟨⟨rfl, _, rfl, by decide, by decide, by decide, by decide, by decide, by first | exact .inl rfl | exact .inr (.inl (by decide)) | exact .inr (.inr (.inl rfl)), by first | exact .inl rfl | exact .inr ⟨_, rfl, rfl⟩, by decide⟩, by first | decide | rfl, by first | decide | rfl, by first | decide | rfl, by first | decide | rfl⟩⟩,
   ⟨wChainS, wReq1, 7, 0, 4, [], ⟨⟨rfl, _, rfl, by decide, by decide, by decide, by decide, by decide, by first | exact .inl rfl | exact .inr (.inl (by decide)) | exact .inr (.inr (.inl rfl)), by first | exact .inl rfl | exact .inr ⟨_, rfl, rfl⟩, by decide⟩, by first | decide | rfl, by first | decide | rfl, by first | decide | rfl⟩⟩,
   ⟨wChainS, wReq1, 7, 1, 1, List.replicate 32 0, ⟨⟨rfl, _, rfl, by decide, by decide, by decide, by decide, by decide, by first | exact .inl rfl | exact .inr (.inl (by decide)) | exact .inr (.inr (.inl rfl)), by first | exact .inl rfl | exact .inr ⟨_, rfl, rfl⟩, by decide⟩, by first | decide | rfl, by first | decide | rfl, by first | decide | rfl, by first | decide | rfl, by first | decide | rfl⟩⟩,
   ⟨wChainS, wReq1, 7, ⟨⟨rfl, _, rfl, by decide, by decide, by decide, by decide, by decide, by first | exact .inl rfl | exact .inr (.inl (by decide)) | exact .inr (.inr (.inl rfl)), by first | exact .inl rfl | exact .inr ⟨_, rfl, rfl⟩, by decide⟩, by first | decide | rfl, by first | decide | rfl⟩⟩,
   ⟨wChainS, wReq1, 7, 1, ⟨⟨rfl, _, rfl, by decide, by decide, by decide, by decide, by decide, by first | exact .inl rfl | exact .inr (.inl (by decide)) | exact .inr (.inr (.inl rfl)), by first | exact .inl rfl | exact .inr ⟨_, rfl, rfl⟩, by decide⟩, by first | decide | rfl, by first | decide | rfl, by first | decide | rfl⟩⟩,
   ⟨{ wStop with chains := [{ ChainPort.reset with queue := List.replicate 32 wCmd }] }, wReq1, { op := 0x0802, level := .engineer }, 0, 4, 1, [], by decide⟩,
   ⟨wOwn, wReq1, 8064, 128, ⟨⟨rfl, _, rfl, by decide, by decide, by decide, by decide, by decide, by first | exact .inl rfl | exact .inr (.inl (by decide)) | exact .inr (.inr (.inl rfl)), by first | exact .inl rfl | exact .inr ⟨_, rfl, rfl⟩, by decide⟩, by first | decide | rfl, by first | decide | rfl, by first | decide | rfl⟩⟩,
   ⟨wOwn, wReq1, 8192, 1, none, ⟨⟨rfl, _, rfl, by decide, by decide, by decide, by decide, by decide, by first | exact .inl rfl | exact .inr (.inl (by decide)) | exact .inr (.inr (.inl rfl)), by first | exact .inl rfl | exact .inr ⟨_, rfl, rfl⟩, by decide⟩, by first | decide | rfl⟩⟩,
   ⟨wOwn, wReq1, ⟨⟨rfl, _, rfl, by decide, by decide, by decide, by decide, by decide, by first | exact .inl rfl | exact .inr (.inl (by decide)) | exact .inr (.inr (.inl rfl)), by first | exact .inl rfl | exact .inr ⟨_, rfl, rfl⟩, by decide⟩, by first | decide | rfl⟩⟩,
   ⟨wOwn, wReq1, 1, 1, ⟨⟨rfl, _, rfl, by decide, by decide, by decide, by decide, by decide, by first | exact .inl rfl | exact .inr (.inl (by decide)) | exact .inr (.inr (.inl rfl)), by first | exact .inl rfl | exact .inr ⟨_, rfl, rfl⟩, by decide⟩, by first | decide | rfl⟩⟩,
   ⟨wOwn, wReq1, 0, 1, ⟨⟨rfl, _, rfl, by decide, by decide, by decide, by decide, by decide, by first | exact .inl rfl | exact .inr (.inl (by decide)) | exact .inr (.inr (.inl rfl)), by first | exact .inl rfl | exact .inr ⟨_, rfl, rfl⟩, by decide⟩, by first | decide | rfl⟩⟩,
   ⟨wOwn, wReq1, ⟨⟨rfl, _, rfl, by decide, by decide, by decide, by decide, by decide, by first | exact .inl rfl | exact .inr (.inl (by decide)) | exact .inr (.inr (.inl rfl)), by first | exact .inl rfl | exact .inr ⟨_, rfl, rfl⟩, by decide⟩, by first | decide | rfl⟩⟩,
   ⟨{ wOwn with mg := { wOwn.mg with status := some wRecd } }, wReq1, wRecd, ⟨⟨rfl, _, rfl, by decide, by decide, by decide, by decide, by decide, by first | exact .inl rfl | exact .inr (.inl (by decide)) | exact .inr (.inr (.inl rfl)), by first | exact .inl rfl | exact .inr ⟨_, rfl, rfl⟩, by decide⟩, by first | decide | rfl⟩⟩,
   ⟨{ wOwn with mg := { wOwn.mg with store := [(4, wRecd)] } }, wReq1, 4, 1, ⟨⟨rfl, _, rfl, by decide, by decide, by decide, by decide, by decide, by first | exact .inl rfl | exact .inr (.inl (by decide)) | exact .inr (.inr (.inl rfl)), by first | exact .inl rfl | exact .inr ⟨_, rfl, rfl⟩, by decide⟩, by first | decide | rfl⟩⟩,
   ⟨{ wOwn with mg := { wOwn.mg with audit := [(4, [])] } }, wReq1, 0, 1, ⟨⟨rfl, _, rfl, by decide, by decide, by decide, by decide, by decide, by first | exact .inl rfl | exact .inr (.inl (by decide)) | exact .inr (.inr (.inl rfl)), by first | exact .inl rfl | exact .inr ⟨_, rfl, rfl⟩, by decide⟩, by first | decide | rfl⟩⟩,
   ⟨{ wOwn with mg := { wOwn.mg with cert := [(0, [])] } }, wReq1, ⟨⟨rfl, _, rfl, by decide, by decide, by decide, by decide, by decide, by first | exact .inl rfl | exact .inr (.inl (by decide)) | exact .inr (.inr (.inl rfl)), by first | exact .inl rfl | exact .inr ⟨_, rfl, rfl⟩, by decide⟩, by first | decide | rfl⟩⟩,
   ⟨wMetS, wReq1, ⟨rfl, _, rfl, by decide, by decide, by decide, by decide, by decide, by first | exact .inl rfl | exact .inr (.inl (by decide)) | exact .inr (.inr (.inl rfl)), by first | exact .inl rfl | exact .inr ⟨_, rfl, rfl⟩, by decide⟩⟩⟩

theorem witness_AccessCommands :
    (∃ (s : State) (r : Req) (x : Session), (Passes s r { op := 0x0A01, level := .observer }) ∧ (s.session? r.session = some x)) ∧
    (∃ (s : State) (r : Req) (n : Nat), (Passes s r { op := 0x0A02, level := .engineer, field := true }) ∧ (1 ≤ n) ∧ (n ≤ 480) ∧ (s.acc.lock = none)) ∧
    (∃ (s : State) (r : Req) (n : Nat) (x : LockHold), (Passes s r { op := 0x0A02, level := .engineer, field := true }) ∧ (1 ≤ n) ∧ (n ≤ 480) ∧ (s.acc.lock = some x) ∧ (x.session ≠ r.session)) ∧
    (∃ (s : State) (r : Req) (x : LockHold), (Passes s r { op := 0x0A03, level := .engineer }) ∧ (s.acc.lock = some x) ∧ (x.session = r.session)) ∧
    (∃ (s : State) (r : Req) (x : LockHold), (Passes s r { op := 0x0A03, level := .engineer }) ∧ (s.acc.lock = some x) ∧ (x.session ≠ r.session)) ∧
    (∃ (s : State) (r : Req), (Passes s r { op := 0x0A03, level := .engineer }) ∧ (s.acc.lock = none)) ∧
    (∃ (s : State) (x : LockHold), (s.acc.lock = some x) ∧ (x.lastUse + x.minutes * minuteTb ≤ s.tb.frc)) ∧
    (∃ (s : State), (s.acc.lock = none)) ∧
    (∃ (s : State) (x : LockHold), (s.acc.lock = some x) ∧ (s.tb.frc < x.lastUse + x.minutes * minuteTb)) ∧
    (∃ (s : State) (r : Req), (Passes s r { op := 0x0A04, level := .owner })) ∧
    (∃ (s : State) (r : Req), (Passes s r { op := 0x0A04, level := .owner })) ∧
    (∃ (s : State) (r : Req) (d : Bytes) (n : Nat), (Passes s r { op := 0x0A05, level := .engineer }) ∧ (1 ≤ n) ∧ (n ≤ 480) ∧ (s.acc.pwHash = none)) ∧
    (∃ (s : State) (r : Req) (d : Bytes) (n : Nat), (Passes s r { op := 0x0A05, level := .engineer }) ∧ (1 ≤ n) ∧ (n ≤ 480) ∧ (s.acc.pwHash = some (Config.pwVerifier d)) ∧ (s.bit R.SE_STATUS_FIELD_LOCK = true) ∧ (s.lockedFor s.acc.pwUntil = 0)) ∧
    (∃ (s : State) (r : Req) (d : Bytes) (n : Nat) (v : Nat), (Passes s r { op := 0x0A05, level := .engineer }) ∧ (1 ≤ n) ∧ (n ≤ 480) ∧ (s.acc.pwHash = some v) ∧ (s.bit R.SE_STATUS_FIELD_LOCK = false)) ∧
    (∃ (s : State) (n t : Nat) (x : Session), (s.session? n = some x) ∧ (x.reopen = some t) ∧ (t ≤ s.tb.frc)) ∧
    (∃ (s : State) (n : Nat), ((s.session? n).bind (·.reopen) = none)) ∧
    (∃ (s : State) (r : Req) (n : Nat), (Passes s r { op := 0x0A06, level := .engineer }) ∧ (1 ≤ n) ∧ (n ≤ 1440) ∧ (s.bit R.SE_STATUS_FIELD_LOCK = true) ∧ (s.lockedFor s.acc.crUntil = 0)) ∧
    (∃ (s : State) (r : Req) (n : Nat), (Passes s r { op := 0x0A06, level := .engineer }) ∧ (1 ≤ n) ∧ (n ≤ 1440) ∧ (s.bit R.SE_STATUS_FIELD_LOCK = false)) ∧
    (∃ (s : State) (r : Req) (d : Bytes) (y : Session), (Passes s r { op := 0x0A07, level := .engineer }) ∧ (d.length = 96) ∧ (s.session? r.session = some y) ∧ (y.challenge = none)) ∧
    (∃ (s : State) (r : Req) (d : Bytes) (x : Challenge) (y : Session), (Passes s r { op := 0x0A07, level := .engineer }) ∧ (d.length = 96) ∧ (s.session? r.session = some y) ∧ (y.challenge = some x) ∧ (s.tb.frc ≤ x.frc + 10 * minuteTb) ∧ (s.bit R.SE_STATUS_FIELD_LOCK = true)) ∧
    (∃ (s : State) (r : Req) (d : Bytes), (Passes s r { op := 0x0A08, level := .owner }) ∧ ((decide (12 ≤ d.length) && decide (d.length ≤ 64) && d.all (fun b => decide (0x20 ≤ b.toNat) && decide (b.toNat ≤ 0x7E))) = true)) ∧
    (∃ (s : State) (r : Req) (d : Bytes), (Passes s r { op := 0x0A08, level := .owner }) ∧ (d.length < 12)) ∧
    (∃ (s : State) (r : Req), (Passes s r { op := 0x0A09, level := .observer })) ∧
    (∃ (s : State) (r : Req), (Passes s r { op := 0x0A0A, level := .owner })) :=
  ⟨⟨wOwn, wReq1, _, ⟨⟨rfl, _, rfl, by decide, by decide, by decide, by decide, by decide, by first | exact .inl rfl | exact .inr (.inl (by decide)) | exact .inr (.inr (.inl rfl)), by first | exact .inl rfl | exact .inr ⟨_, rfl, rfl⟩, by decide⟩, by first | decide | rfl⟩⟩,
   ⟨{ wOwn with acc := { wOwn.acc with lock := none } }, wReq1, 480, ⟨⟨rfl, _, rfl, by decide, by decide, by decide, by decide, by decide, by first | exact .inl rfl | exact .inr (.inl (by decide)) | exact .inr (.inr (.inl rfl)), by first | exact .inl rfl | exact .inr ⟨_, rfl, rfl⟩, by decide⟩, by first | decide | rfl, by first | decide | rfl, by first | decide | rfl⟩⟩,
   ⟨{ wOwn with acc := { wOwn.acc with lock := some { session := 2, minutes := 5, lastUse := 0 } } }, wReq1, 480, { session := 2, minutes := 5, lastUse := 0 }, ⟨⟨rfl, _, rfl, by decide, by decide, by decide, by decide, by decide, by first | exact .inl rfl | exact .inr (.inl (by decide)) | exact .inr (.inr (.inl rfl)), by first | exact .inl rfl | exact .inr ⟨_, rfl, rfl⟩, by decide⟩, by first | decide | rfl, by first | decide | rfl, by first | decide | rfl, by first | decide | rfl⟩⟩,
   ⟨wOwn, wReq1, _, ⟨⟨rfl, _, rfl, by decide, by decide, by decide, by decide, by decide, by first | exact .inl rfl | exact .inr (.inl (by decide)) | exact .inr (.inr (.inl rfl)), by first | exact .inl rfl | exact .inr ⟨_, rfl, rfl⟩, by decide⟩, by first | decide | rfl, by first | decide | rfl⟩⟩,
   ⟨{ wOwn with acc := { wOwn.acc with lock := some { session := 2, minutes := 5, lastUse := 0 } } }, wReq1, _, ⟨⟨rfl, _, rfl, by decide, by decide, by decide, by decide, by decide, by first | exact .inl rfl | exact .inr (.inl (by decide)) | exact .inr (.inr (.inl rfl)), by first | exact .inl rfl | exact .inr ⟨_, rfl, rfl⟩, by decide⟩, by first | decide | rfl, by first | decide | rfl⟩⟩,
   ⟨{ wOwn with acc := { wOwn.acc with lock := none } }, wReq1, ⟨⟨rfl, _, rfl, by decide, by decide, by decide, by decide, by decide, by first | exact .inl rfl | exact .inr (.inl (by decide)) | exact .inr (.inr (.inl rfl)), by first | exact .inl rfl | exact .inr ⟨_, rfl, rfl⟩, by decide⟩, by first | decide | rfl⟩⟩,
   ⟨{ wLock with tb := { wLock.tb with frc := 30000000000 } }, _, ⟨rfl, by decide⟩⟩,
   ⟨wStop, by decide⟩,
   ⟨wLock, _, ⟨rfl, by decide⟩⟩,
   ⟨wOwn, wReq1, ⟨rfl, _, rfl, by decide, by decide, by decide, by decide, by decide, by first | exact .inl rfl | exact .inr (.inl (by decide)) | exact .inr (.inr (.inl rfl)), by first | exact .inl rfl | exact .inr ⟨_, rfl, rfl⟩, by decide⟩⟩,
   ⟨wOwn, wReq1, ⟨rfl, _, rfl, by decide, by decide, by decide, by decide, by decide, by first | exact .inl rfl | exact .inr (.inl (by decide)) | exact .inr (.inr (.inl rfl)), by first | exact .inl rfl | exact .inr ⟨_, rfl, rfl⟩, by decide⟩⟩,
   ⟨wOwn, wReq1, [], 480, ⟨⟨rfl, _, rfl, by decide, by decide, by decide, by decide, by decide, by first | exact .inl rfl | exact .inr (.inl (by decide)) | exact .inr (.inr (.inl rfl)), by first | exact .inl rfl | exact .inr ⟨_, rfl, rfl⟩, by decide⟩, by first | decide | rfl, by first | decide | rfl, by first | decide | rfl⟩⟩,
   ⟨wPw, wReq1, [], 480, ⟨⟨rfl, _, rfl, by decide, by decide, by decide, by decide, by decide, by first | exact .inl rfl | exact .inr (.inl (by decide)) | exact .inr (.inr (.inl rfl)), by first | exact .inl rfl | exact .inr ⟨_, rfl, rfl⟩, by decide⟩, by first | decide | rfl, by first | decide | rfl, by first | decide | rfl, by first | decide | rfl, by first | decide | rfl⟩⟩,
   ⟨{ wOwn with acc := wPw.acc }, wReq1, [], 480, _, ⟨⟨rfl, _, rfl, by decide, by decide, by decide, by decide, by decide, by first | exact .inl rfl | exact .inr (.inl (by decide)) | exact .inr (.inr (.inl rfl)), by first | exact .inl rfl | exact .inr ⟨_, rfl, rfl⟩, by decide⟩, by first | decide | rfl, by first | decide | rfl, by first | decide | rfl, by first | decide | rfl⟩⟩,
   ⟨{ wOwn with acc := { wOwn.acc with sessions := [{ wSession .owner with reopen := some 0 }] } }, 1, 0, _, ⟨rfl, by decide, by decide⟩⟩,
   ⟨wOwn, 1, by decide⟩,
   ⟨wLocked, wReq1, 1440, ⟨⟨rfl, _, rfl, by decide, by decide, by decide, by decide, by decide, by first | exact .inl rfl | exact .inr (.inl (by decide)) | exact .inr (.inr (.inl rfl)), by first | exact .inl rfl | exact .inr ⟨_, rfl, rfl⟩, by decide⟩, by first | decide | rfl, by first | decide | rfl, by first | decide | rfl, by first | decide | rfl⟩⟩,
   ⟨wOwn, wReq1, 1440, ⟨⟨rfl, _, rfl, by decide, by decide, by decide, by decide, by decide, by first | exact .inl rfl | exact .inr (.inl (by decide)) | exact .inr (.inr (.inl rfl)), by first | exact .inl rfl | exact .inr ⟨_, rfl, rfl⟩, by decide⟩, by first | decide | rfl, by first | decide | rfl, by first | decide | rfl⟩⟩,
   ⟨wOwn, wReq1, List.replicate 96 0, _, ⟨⟨rfl, _, rfl, by decide, by decide, by decide, by decide, by decide, by first | exact .inl rfl | exact .inr (.inl (by decide)) | exact .inr (.inr (.inl rfl)), by first | exact .inl rfl | exact .inr ⟨_, rfl, rfl⟩, by decide⟩, by first | decide | rfl, by first | decide | rfl, by first | decide | rfl⟩⟩,
   ⟨{ wLocked with acc := { wLocked.acc with sessions := [{ wSession .owner with challenge := some { nonce := 0, minutes := 1, frc := 0 } }] } }, wReq1, List.replicate 96 0, _, _, ⟨⟨rfl, _, rfl, by decide, by decide, by decide, by decide, by decide, by first | exact .inl rfl | exact .inr (.inl (by decide)) | exact .inr (.inr (.inl rfl)), by first | exact .inl rfl | exact .inr ⟨_, rfl, rfl⟩, by decide⟩, by first | decide | rfl, by first | decide | rfl, by first | decide | rfl, by first | decide | rfl, by first | decide | rfl⟩⟩,
   ⟨wOwn, wReq1, List.replicate 12 0x41, ⟨⟨rfl, _, rfl, by decide, by decide, by decide, by decide, by decide, by first | exact .inl rfl | exact .inr (.inl (by decide)) | exact .inr (.inr (.inl rfl)), by first | exact .inl rfl | exact .inr ⟨_, rfl, rfl⟩, by decide⟩, by first | decide | rfl⟩⟩,
   ⟨wOwn, wReq1, [], ⟨⟨rfl, _, rfl, by decide, by decide, by decide, by decide, by decide, by first | exact .inl rfl | exact .inr (.inl (by decide)) | exact .inr (.inr (.inl rfl)), by first | exact .inl rfl | exact .inr ⟨_, rfl, rfl⟩, by decide⟩, by first | decide | rfl⟩⟩,
   ⟨wOwn, wReq1, ⟨rfl, _, rfl, by decide, by decide, by decide, by decide, by decide, by first | exact .inl rfl | exact .inr (.inl (by decide)) | exact .inr (.inr (.inl rfl)), by first | exact .inl rfl | exact .inr ⟨_, rfl, rfl⟩, by decide⟩⟩,
   ⟨wOwn, wReq1, ⟨rfl, _, rfl, by decide, by decide, by decide, by decide, by decide, by first | exact .inl rfl | exact .inr (.inl (by decide)) | exact .inr (.inr (.inl rfl)), by first | exact .inl rfl | exact .inr ⟨_, rfl, rfl⟩, by decide⟩⟩⟩

theorem witness_MaintenanceCommands :
    (∃ (s : State) (r : Req) (b : Nat), (Passes s r { op := 0x0C01, level := .observer }) ∧ (b < 17)) ∧
    (∃ (s : State) (r : Req) (b : Nat), (Passes s r { op := 0x0C02, level := .engineer }) ∧ (b < 17)) ∧
    (∃ (s : State) (r : Req) (b : Nat), (Passes s r { op := 0x0C01, level := .observer }) ∧ (17 ≤ b)) ∧
    (∃ (s : State) (r : Req) (n : Nat) (k : Nat), (Passes s r { op := 0x0C03, level := .observer }) ∧ ((((s.jr.ram ++ s.jr.flash).filter (fun e => decide (n ≤ e.seq) && decide (e.seq < n + k))).reverse).isEmpty = false)) ∧
    (∃ (s : State) (r : Req) (n : Nat) (k : Nat), (Passes s r { op := 0x0C03, level := .observer }) ∧ (s.jr.ram = []) ∧ (s.jr.flash = [])) ∧
    (∃ (s : State) (r : Req), (Passes s r { op := 0x0C04, level := .observer })) ∧
    (∃ (s : State) (r : Req) (g : Nat) (k : Nat), (Passes s r { op := opSpare, level := .engineer, lock := true }) ∧ (g < 12) ∧ (k < 8) ∧ (s.spareReason g k = 0)) ∧
    (∃ (s : State) (r : Req) (g : Nat) (k : Nat) (n : Nat), (Passes s r { op := opSpare, level := .engineer, lock := true }) ∧ (g < 12) ∧ (k < 8) ∧ (s.spareReason g k = n + 1)) ∧
    (∃ (s : State) (r : Req) (g : Nat) (k : Nat), (Passes s r { op := opSpare, level := .engineer, lock := true }) ∧ (g < 12) ∧ (k < 8)) ∧
    (∃ (s : State) (r : Req) (l : Nat) (p : Nat), (Passes s r { op := opRelocate, level := .engineer, lock := true }) ∧ (l < 32) ∧ (p < 36) ∧ (s.lat.relocCheck = none) ∧ (s.lat.relocOrder = none) ∧ (s.lat.relocCopied = none) ∧ (s.rd R.LT_PHYS_STATE p = 1)) ∧
    (∃ (s : State) (r : Req) (l : Nat) (p : Nat), (Passes s r { op := opRelocate, level := .engineer, lock := true }) ∧ (l < 8) ∧ (p < 9) ∧ (s.lat.svReloc = none) ∧ (s.rd R.SV_PHYS_STATE p = 1)) ∧
    (∃ (s : State) (r : Req) (l : Nat) (p : Nat), (Passes s r { op := opRelocate, level := .engineer, lock := true }) ∧ (l < 32) ∧ (p < 36) ∧ (s.lat.relocCheck = none) ∧ (s.lat.relocOrder = none) ∧ (s.lat.relocCopied = none) ∧ (s.rd R.LT_PHYS_STATE p ≠ 1)) ∧
    (∃ (s : State) (r : Req) (l : Nat) (e : Nat), (Passes s r { op := 0x0C07, level := .engineer, lock := true }) ∧ (l < 8) ∧ (e < 2)) ∧
    (∃ (s : State) (r : Req), (Passes s r { op := 0x0C0A, level := .engineer, field := true }) ∧ (s.inStop = true)) ∧
    (∃ (s : State) (r : Req) (p : Nat), (Passes s r { op := 0x0C0A, level := .engineer, field := true }) ∧ (s.inStop = true)) ∧
    (∃ (s : State) (r : Req) (x : Option Nat), (Passes s r { op := 0x0C0A, level := .engineer, field := true }) ∧ (s.inStop = false)) ∧
    (∃ (s : State) (r : Req) (n : Nat), (Passes s r { op := 0x0C0B, level := .observer }) ∧ (n < 8192)) ∧
    (∃ (s : State) (r : Req) (n : Nat), (Passes s r { op := 0x0C0B, level := .observer }) ∧ (8192 ≤ n)) :=
  ⟨⟨wOwn, wReq1, 16, ⟨⟨rfl, _, rfl, by decide, by decide, by decide, by decide, by decide, by first | exact .inl rfl | exact .inr (.inl (by decide)) | exact .inr (.inr (.inl rfl)), by first | exact .inl rfl | exact .inr ⟨_, rfl, rfl⟩, by decide⟩, by first | decide | rfl⟩⟩,
   ⟨wOwn, wReq1, 16, ⟨⟨rfl, _, rfl, by decide, by decide, by decide, by decide, by decide, by first | exact .inl rfl | exact .inr (.inl (by decide)) | exact .inr (.inr (.inl rfl)), by first | exact .inl rfl | exact .inr ⟨_, rfl, rfl⟩, by decide⟩, by first | decide | rfl⟩⟩,
   ⟨wOwn, wReq1, 17, ⟨⟨rfl, _, rfl, by decide, by decide, by decide, by decide, by decide, by first | exact .inl rfl | exact .inr (.inl (by decide)) | exact .inr (.inr (.inl rfl)), by first | exact .inl rfl | exact .inr ⟨_, rfl, rfl⟩, by decide⟩, by first | decide | rfl⟩⟩,
   ⟨{ wOwn with jr := { wOwn.jr with ram := [wJEnt] } }, wReq1, 0, 1, ⟨⟨rfl, _, rfl, by decide, by decide, by decide, by decide, by decide, by first | exact .inl rfl | exact .inr (.inl (by decide)) | exact .inr (.inr (.inl rfl)), by first | exact .inl rfl | exact .inr ⟨_, rfl, rfl⟩, by decide⟩, by first | decide | rfl⟩⟩,
   ⟨wOwn, wReq1, 0, 1, ⟨⟨rfl, _, rfl, by decide, by decide, by decide, by decide, by decide, by first | exact .inl rfl | exact .inr (.inl (by decide)) | exact .inr (.inr (.inl rfl)), by first | exact .inl rfl | exact .inr ⟨_, rfl, rfl⟩, by decide⟩, by first | decide | rfl, by first | decide | rfl⟩⟩,
   ⟨wOwn, wReq1, ⟨rfl, _, rfl, by decide, by decide, by decide, by decide, by decide, by first | exact .inl rfl | exact .inr (.inl (by decide)) | exact .inr (.inr (.inl rfl)), by first | exact .inl rfl | exact .inr ⟨_, rfl, rfl⟩, by decide⟩⟩,
   ⟨wSpareS, wReq1, 11, 7, ⟨⟨rfl, _, rfl, by decide, by decide, by decide, by decide, by decide, by first | exact .inl rfl | exact .inr (.inl (by decide)) | exact .inr (.inr (.inl rfl)), by first | exact .inl rfl | exact .inr ⟨_, rfl, rfl⟩, by decide⟩, by first | decide | rfl, by first | decide | rfl, by first | decide | rfl⟩⟩,
   ⟨wOwn, wReq1, 11, 7, 0, ⟨⟨rfl, _, rfl, by decide, by decide, by decide, by decide, by decide, by first | exact .inl rfl | exact .inr (.inl (by decide)) | exact .inr (.inr (.inl rfl)), by first | exact .inl rfl | exact .inr ⟨_, rfl, rfl⟩, by decide⟩, by first | decide | rfl, by first | decide | rfl, by first | decide | rfl⟩⟩,
   ⟨wOwn, wReq1, 11, 7, ⟨⟨rfl, _, rfl, by decide, by decide, by decide, by decide, by decide, by first | exact .inl rfl | exact .inr (.inl (by decide)) | exact .inr (.inr (.inl rfl)), by first | exact .inl rfl | exact .inr ⟨_, rfl, rfl⟩, by decide⟩, by first | decide | rfl, by first | decide | rfl⟩⟩,
   ⟨{ wOwn with regs := [(R.LT_PHYS_STATE.key 35 0, 1)] }, wReq1, 31, 35, ⟨⟨rfl, _, rfl, by decide, by decide, by decide, by decide, by decide, by first | exact .inl rfl | exact .inr (.inl (by decide)) | exact .inr (.inr (.inl rfl)), by first | exact .inl rfl | exact .inr ⟨_, rfl, rfl⟩, by decide⟩, by first | decide | rfl, by first | decide | rfl, by first | decide | rfl, by first | decide | rfl, by first | decide | rfl, by first | decide | rfl⟩⟩,
   ⟨{ wOwn with regs := [(R.SV_PHYS_STATE.key 8 0, 1)] }, wReq1, 7, 8, ⟨⟨rfl, _, rfl, by decide, by decide, by decide, by decide, by decide, by first | exact .inl rfl | exact .inr (.inl (by decide)) | exact .inr (.inr (.inl rfl)), by first | exact .inl rfl | exact .inr ⟨_, rfl, rfl⟩, by decide⟩, by first | decide | rfl, by first | decide | rfl, by first | decide | rfl, by first | decide | rfl⟩⟩,
   ⟨wOwn, wReq1, 31, 35, ⟨⟨rfl, _, rfl, by decide, by decide, by decide, by decide, by decide, by first | exact .inl rfl | exact .inr (.inl (by decide)) | exact .inr (.inr (.inl rfl)), by first | exact .inl rfl | exact .inr ⟨_, rfl, rfl⟩, by decide⟩, by first | decide | rfl, by first | decide | rfl, by first | decide | rfl, by first | decide | rfl, by first | decide | rfl, by first | decide | rfl⟩⟩,
   ⟨wOwn, wReq1, 7, 1, ⟨⟨rfl, _, rfl, by decide, by decide, by decide, by decide, by decide, by first | exact .inl rfl | exact .inr (.inl (by decide)) | exact .inr (.inr (.inl rfl)), by first | exact .inl rfl | exact .inr ⟨_, rfl, rfl⟩, by decide⟩, by first | decide | rfl, by first | decide | rfl⟩⟩,
   ⟨wOwn, wReq1, ⟨⟨rfl, _, rfl, by decide, by decide, by decide, by decide, by decide, by first | exact .inl rfl | exact .inr (.inl (by decide)) | exact .inr (.inr (.inl rfl)), by first | exact .inl rfl | exact .inr ⟨_, rfl, rfl⟩, by decide⟩, by first | decide | rfl⟩⟩,
   ⟨wOwn, wReq1, 3, ⟨⟨rfl, _, rfl, by decide, by decide, by decide, by decide, by decide, by first | exact .inl rfl | exact .inr (.inl (by decide)) | exact .inr (.inr (.inl rfl)), by first | exact .inl rfl | exact .inr ⟨_, rfl, rfl⟩, by decide⟩, by first | decide | rfl⟩⟩,
   ⟨wRunS, wReq1, none, ⟨⟨rfl, _, rfl, by decide, by decide, by decide, by decide, by decide, by first | exact .inl rfl | exact .inr (.inl (by decide)) | exact .inr (.inr (.inl rfl)), by first | exact .inl rfl | exact .inr ⟨_, rfl, rfl⟩, by decide⟩, by first | decide | rfl⟩⟩,
   ⟨wOwn, wReq1, 8191, ⟨⟨rfl, _, rfl, by decide, by decide, by decide, by decide, by decide, by first | exact .inl rfl | exact .inr (.inl (by decide)) | exact .inr (.inr (.inl rfl)), by first | exact .inl rfl | exact .inr ⟨_, rfl, rfl⟩, by decide⟩, by first | decide | rfl⟩⟩,
   ⟨wOwn, wReq1, 8192, ⟨⟨rfl, _, rfl, by decide, by decide, by decide, by decide, by decide, by first | exact .inl rfl | exact .inr (.inl (by decide)) | exact .inr (.inr (.inl rfl)), by first | exact .inl rfl | exact .inr ⟨_, rfl, rfl⟩, by decide⟩, by first | decide | rfl⟩⟩⟩

theorem witness_AnIdleStepPassesOneTb :
    (∃ (s : State), (s.pending = [])) :=
  ⟨wStop, by decide⟩

theorem witness_DivisionCorners :
    (∃ (a b : Int) (n : Nat), (b ≠ 0)) ∧
    (∃ (a : Int) (n : Nat), (0 ≤ a)) ∧
    (∃ (v : Int), (2 ^ 31 ≤ v)) ∧
    (∃ (v : Int), (v < -(2 ^ 31))) ∧
    (∃ (v : Int), (-(2 ^ 31) ≤ v) ∧ (v < 2 ^ 31)) ∧
    (∃ (s : State) (i : Issue) (d a b n : Nat), (s.canIssue i = true) ∧ (d < 64) ∧ (a < 64) ∧ (b < 64) ∧ (2 * n < 64) ∧ ((s.tile (s.physTile i.tile)).divFree ≤ i.t) ∧ (i.t < s.G)) :=
  ⟨⟨7, 2, 0, by decide⟩,
   ⟨7, 0, by decide⟩,
   ⟨2 ^ 31, by decide⟩,
   ⟨-(2 ^ 31) - 1, by decide⟩,
   ⟨5, by decide⟩,
   ⟨wRun, ⟨3, 40⟩, 63, 0, 1, 31, by decide⟩⟩

theorem witness_StepKeepsASoundState :
    (∃ (s t : State), (Sound s) ∧ (step s = .next t)) :=
  ⟨{ wStop with pending := [.lockTimeout] }, wStop, ⟨⟨by decide, by decide, by decide, by decide, by decide⟩, rfl⟩⟩

theorem witness_CommandsLeaveTheQueue :
    (∃ (s t : State) (c : Instr), (exec c s = .next t)) :=
  ⟨wStop, wStop, .lockTimeout, rfl⟩

theorem witness_OnlyTileOperationsStop :
    (∃ (s : State) (c : Instr), (tileIssue c = none)) :=
  ⟨wStop, .snap, by decide⟩

theorem witness_RegisterFieldsReadAfterWrite :
    (∃ (s : State) (r : RegRow) (v i j : Nat), (Sound s)) ∧
    (∃ (s : State) (r q : RegRow) (v i j k l : Nat), (q.key k l ≠ r.key i j)) :=
  ⟨⟨wStop, R.TB_INC_NS, 9, 0, 0, wStop_sound⟩,
   ⟨wStop, R.TB_INC_NS, R.TB_INC_FRAC, 9, 0, 0, 0, 0, by decide⟩⟩

theorem witness_MemoryReadsAfterWrite :
    (∃ (s : State) (a : Nat) (d : Bytes), (Sound s)) ∧
    (∃ (s : State) (a x : Nat) (d : Bytes), (x < a ∨ a + d.length ≤ x)) :=
  ⟨⟨wStop, 0x100, [1, 0], wStop_sound⟩,
   ⟨wStop, 0x100, 0xFF, [1, 0], by decide⟩⟩

theorem witness_AccessCodesOfFields :
    (∃ (s : State) (a v i j : Nat) (r : RegRow), (r.acc = .ro ∨ r.acc = .wo)) ∧
    (∃ (s : State) (a v i j : Nat) (r : RegRow), (r.acc = .rw)) ∧
    (∃ (s : State) (a v i j : Nat) (r : RegRow), (r.acc = .w1c)) ∧
    (∃ (s : State) (a v i j : Nat) (r : RegRow), (r.acc = .rwl) ∧ (s.lockOpen = false)) ∧
    (∃ (s : State) (a v i j : Nat) (r : RegRow), (r.acc = .rwl) ∧ (s.lockOpen = true) ∧ (stagedAddr a = true)) ∧
    (∃ (s : State) (a v i j : Nat) (r : RegRow), (r.acc = .rwl) ∧ (s.lockOpen = true) ∧ (stagedAddr a = false)) ∧
    (∃ (s : State) (i j : Nat) (r : RegRow), (r.acc = .wo)) ∧
    (∃ (s : State) (a : Nat), (wideLow a = false)) ∧
    (∃ (s : State) (a : Nat), (wideLow a = true)) :=
  ⟨⟨wStop, 0, 0, 0, 0, R.TB_FRC_LO, by decide⟩,
   ⟨wStop, 0, 0, 0, 0, R.TB_INC_NS, by decide⟩,
   ⟨wStop, 0, 0, 0, 0, R.DIO_STATUS_IN_STALE, by decide⟩,
   ⟨wStop, 0, 0, 0, 0, R.CH_CTRL_EN, by decide⟩,
   ⟨wLock, 0x40070000, 0, 0, 0, R.CH_CTRL_EN, by decide⟩,
   ⟨wLock, 0x40010280, 0, 0, 0, R.TT_RUN_CTRL_AUTORUN, by decide⟩,
   ⟨wStop, 0, 0, R.TB_CTRL_SNAP, by decide⟩,
   ⟨wStop, 0x40000000, by decide⟩,
   ⟨wStop, 0x40010010, by decide⟩⟩

theorem witness_NarrowAccessesDoNothing :
    (∃ (s : State) (a v n : Nat), (n ≠ 4 ∨ a % 4 ≠ 0)) ∧
    (∃ (s : State) (a : Nat), (a % 4 ≠ 0)) :=
  ⟨⟨wStop, 0x40000002, 1, 4, by decide⟩,
   ⟨wStop, 0x40000002, by decide⟩⟩

theorem witness_CommandGateRefusals :
    (∃ (s : State) (r : Req) (c : Cmd) (f : State → State), (Passes s r c) ∧ (c.op / 256 ≠ 9 ∨ Config.variantM = true)) ∧
    (∃ (s : State) (r : Req) (c : Cmd) (x : Session), (s.session? r.session = some x)) ∧
    (∃ (s : State) (r : Req) (c : Cmd) (x : Session) (n : Nat) (ps : List Nat) (d : Bytes), (s.session? r.session = some x) ∧ (x.queue = [])) ∧
    (∃ (s : State) (r : Req) (c : Cmd) (f : State → State), (s.gate r c = some 0x0103)) ∧
    (∃ (s : State) (r : Req) (c : Cmd) (f : State → State), (s.gate r c = some 0x0102)) ∧
    (∃ (s : State) (r : Req) (c : Cmd) (x : Session), (s.session? r.session = some x) ∧ (16 ≤ x.queue.length)) ∧
    (∃ (s : State) (r : Req) (c : Cmd) (x : Session), (s.session? r.session = some x) ∧ (x.queue.length < 16) ∧ (x.hello = false) ∧ (c.op ≠ 0x0101)) ∧
    (∃ (s : State) (r : Req) (c : Cmd) (x : Session), (s.session? r.session = some x) ∧ (x.queue.length < 16) ∧ (x.hello = true) ∧ (s.unit = .boot) ∧ (c.op / 256 ≠ 0x01) ∧ (c.op / 256 ≠ 0x0C)) ∧
    (∃ (s : State) (r : Req) (c : Cmd) (x : Session) (f : State → State), (s.session? r.session = some x) ∧ (x.queue.length < 16) ∧ (x.hello = true) ∧ (s.unit ≠ .boot) ∧ (x.cand = false) ∧ (c.op / 256 ≠ 9 ∨ Config.variantM = true) ∧ (r.badPid ≠ 0)) ∧
    (∃ (s : State) (r : Req) (c : Cmd) (x : Session), (s.session? r.session = some x) ∧ (x.queue.length < 16) ∧ (x.hello = true) ∧ (s.unit ≠ .boot) ∧ (x.cand = false) ∧ (c.op / 256 ≠ 9 ∨ Config.variantM = true) ∧ (r.badPid = 0) ∧ (c.level ≠ .metrology) ∧ (levelRank x.level < levelRank c.level)) ∧
    (∃ (s : State) (r : Req) (c : Cmd) (x : Session), (s.session? r.session = some x) ∧ (x.queue.length < 16) ∧ (x.hello = true) ∧ (s.unit ≠ .boot) ∧ (x.cand = false) ∧ (c.op / 256 ≠ 9 ∨ Config.variantM = true) ∧ (r.badPid = 0) ∧ (c.level = .metrology) ∧ (x.level ≠ .metrology)) ∧
    (∃ (s : State) (r : Req) (c : Cmd) (x : Session), (s.session? r.session = some x) ∧ (x.queue.length < 16) ∧ (x.hello = true) ∧ (s.unit ≠ .boot) ∧ (x.cand = false) ∧ (c.op / 256 ≠ 9 ∨ Config.variantM = true) ∧ (r.badPid = 0) ∧ (c.level ≠ .metrology) ∧ (levelRank c.level ≤ levelRank x.level) ∧ (s.bit R.SE_STATUS_FIELD_LOCK = true) ∧ (c.field = true) ∧ (x.level ≠ .owner) ∧ (x.reopen = none)) ∧
    (∃ (s : State) (r : Req) (c : Cmd) (x : Session), (s.session? r.session = some x) ∧ (x.queue.length < 16) ∧ (x.hello = true) ∧ (s.unit ≠ .boot) ∧ (x.cand = false) ∧ (c.op / 256 ≠ 9 ∨ Config.variantM = true) ∧ (r.badPid = 0) ∧ (c.level ≠ .metrology) ∧ (levelRank c.level ≤ levelRank x.level) ∧ (s.bit R.SE_STATUS_FIELD_LOCK = false) ∧ (c.lock = true) ∧ (s.acc.lock = none)) ∧
    (∃ (s : State) (r : Req) (c : Cmd) (x : Session), (s.session? r.session = some x) ∧ (x.queue.length < 16) ∧ (x.hello = true) ∧ (s.unit ≠ .boot) ∧ (x.cand = false) ∧ (c.op / 256 = 9)) :=
  ⟨⟨wOwn, wReq1, { op := 0x0102, level := .observer }, id, ⟨⟨rfl, _, rfl, by decide, by decide, by decide, by decide, by decide, by first | exact .inl rfl | exact .inr (.inl (by decide)) | exact .inr (.inr (.inl rfl)), by first | exact .inl rfl | exact .inr ⟨_, rfl, rfl⟩, by decide⟩, .inl (by decide)⟩⟩,
   ⟨wOwn, wReq1, { op := 0x0102, level := .observer }, _, rfl⟩,
   ⟨wOwn, wReq1, { op := 0x0102, level := .observer }, _, 0, [], [], ⟨rfl, by decide⟩⟩,
   ⟨wFullQ, wReq1, { op := 0x0102, level := .observer }, id, by decide⟩,
   ⟨wStop, wReq1, { op := 0x0102, level := .observer }, id, by decide⟩,
   ⟨wFullQ, wReq1, { op := 0x0102, level := .observer }, _, ⟨rfl, by decide⟩⟩,
   ⟨{ wStop with acc := { wStop.acc with sessions := [{ wSession .owner with hello := false }] } }, wReq1, { op := 0x0102, level := .observer }, _, ⟨rfl, by decide, by decide, by decide⟩⟩,
   ⟨{ wOwn with unit := .boot }, wReq1, { op := 0x0201, level := .observer }, _, ⟨rfl, by decide, by decide, by decide, by decide, by decide⟩⟩,
   ⟨wOwn, { wReq1 with badPid := 3 }, { op := 0x0301, level := .engineer }, _, id, ⟨rfl, by decide, by decide, by decide, by decide, .inl (by decide), by decide⟩⟩,
   ⟨wAcc .operator, wReq1, { op := 0x0301, level := .engineer }, _, ⟨rfl, by decide, by decide, by decide, by decide, .inl (by decide), by decide, by decide, by decide⟩⟩,
   ⟨wOwn, wReq1, { op := 0x0805, level := .metrology }, _, ⟨rfl, by decide, by decide, by decide, by decide, .inl (by decide), by decide, by decide, by decide⟩⟩,
   ⟨{ wAcc .engineer with regs := [(R.SE_STATUS_FIELD_LOCK.key 0 0, 1)] }, wReq1, { op := 0x0301, level := .engineer, field := true }, _, ⟨rfl, by decide, by decide, by decide, by decide, .inl (by decide), by decide, by decide, by decide, by decide, by decide, by decide, by decide⟩⟩,
   ⟨{ wOwn with acc := { wOwn.acc with lock := none } }, wReq1, { op := 0x0303, level := .engineer, lock := true }, _, ⟨rfl, by decide, by decide, by decide, by decide, .inl (by decide), by decide, by decide, by decide, by decide, by decide, by decide⟩⟩,
   ⟨wOwn, wReq1, { op := 0x0901, level := .observer }, _, ⟨rfl, by decide, by decide, by decide, by decide, by decide⟩⟩⟩

theorem witness_ReadingPacketsChangeNothingElse :
    (∃ (s t : State) (r : Req) (x : Session), (s.session? r.session = some x) ∧ (x.hello = true)) ∧
    (∃ (s t : State) (r : Req) (x : Session), (s.session? r.session = some x) ∧ (x.hello = true)) ∧
    (∃ (s t : State) (r : Req) (x : Session), (s.session? r.session = some x) ∧ (x.hello = true)) ∧
    (∃ (s t : State) (r : Req) (x : Session), (s.session? r.session = some x) ∧ (x.hello = true)) :=
  ⟨⟨wOwn, wOwn, wReq1, _, ⟨rfl, by decide⟩⟩,
   ⟨wOwn, wOwn, wReq1, _, ⟨rfl, by decide⟩⟩,
   ⟨wOwn, wOwn, wReq1, _, ⟨rfl, by decide⟩⟩,
   ⟨wOwn, wOwn, wReq1, _, ⟨rfl, by decide⟩⟩⟩

theorem witness_RefusedPacketsChangeNothingElse :
    (∃ (s : State) (r : Req) (c : Cmd) (f : State → State) (n : Nat), (s.gate r c = some n) ∧ (n ≠ 0x0102)) :=
  ⟨wFullQ, wReq1, { op := 0x0102, level := .observer }, id, _, ⟨rfl, by decide⟩⟩

theorem witness_OnlyMeteringChangesTheRegisters :
    (∃ (s t : State) (c : Instr), (metersEnergy c = false) ∧ (exec c s = .next t)) ∧
    (∃ (x : Nat) (r : Nat × Nat), (r.1 + (r.2 + x) / 3600000000 < 2 ^ 64)) :=
  ⟨⟨wStop, wStop, .lockTimeout, ⟨rfl, rfl⟩⟩,
   ⟨3600000001, (7, 5), by decide⟩⟩

end Sys2Proof.Tests
end

section
/-! SUPPORT. The statements about the scope of the model: soundness after reset and at every step, register fields and accesses, the resets and
the boot sequence, the packets of the run group. -/

namespace Sys2Proof.Proofs

open Sys2Proof Sys2Proof.Machine Sys2Proof.Safety Sys2Proof.Laws

/-! ### Soundness -/

/-- A sound state meets `Keeps` with its own queue and no metering registers named. -/
theorem keeps_of_sound {s : State} (h : Sound s) : Keeps (True, s.pending, none) s :=
  ⟨fun _ => h, rfl, fun _ e => nomatch e⟩

theorem exec_sound {s t : State} (c : Instr) (h : Sound s) (e : exec c s = .next t) : Sound t :=
  ((exec_keeps c (keeps_of_sound h) (.inl rfl)).next t e).1 trivial

theorem pass_sound {s : State} (n : Nat) (h : Sound s) : Sound (s.pass n) :=
  (pass_keeps (a1 := n) (keeps_of_sound h)).1 trivial

theorem wr_sound {s : State} (r : RegRow) (v i j : Nat) (h : Sound s) : Sound (s.wr r v i j) :=
  (wr_keeps (a1 := r) (a2 := v) (a3 := i) (a4 := j) (keeps_of_sound h)).1 trivial

/-- Soundness does not look at the queue. -/
theorem withPending_sound {s : State} (cs : List Instr) (h : Sound s) : Sound { s with pending := cs } :=
  ⟨h.memory, h.fields, h.frc, h.ram, h.flash⟩

/-- Settles O50: an idle step passes one tb, any other runs the front command, and both keep soundness. -/
theorem stepKeepsASoundState : Obligations.StepKeepsASoundState := by
  intro s t h e
  unfold step at e
  split at e
  · cases e
    exact pass_sound 1 h
  · exact exec_sound _ (withPending_sound _ h) e

/-- Settles O53: the field store is a sorted association list, and a write is one put into it. -/
theorem registerFieldsReadAfterWrite : Obligations.RegisterFieldsReadAfterWrite :=
  ⟨fun s r v i j h => ⟨rd_wr_same s r v i j h.fields, rfl, wr_sound r v i j h⟩,
   fun s r q v i j k l h => rd_wr_ne s r q v i j k l h⟩

/-! ### The state after reset -/

set_option maxRecDepth 10000 in
theorem deliveredRegs_sorted : alSorted deliveredRegs = true := by decide

/-- Settles O43: the delivered fields are listed with rising keys, everything else starts empty. -/
theorem resetStateIsSound : Obligations.ResetStateIsSound where
  memory := rfl
  fields := deliveredRegs_sorted
  frc := by decide
  ram := Nat.zero_le _
  flash := Nat.zero_le _

theorem alGet_of_not_mem {α : Type} (d : α) (l : List (Nat × α)) (k : Nat) (h : k ∉ l.map Prod.fst) : alGet d l k = d := by
  induction l with
  | nil => rfl
  | cons c l ih =>
    rw [List.map_cons, List.mem_cons, not_or] at h
    simp only [alGet, if_neg h.1, ih h.2]

/-- A field that the delivered values do not list reads its row's default after reset. -/
theorem rd_reset {r : RegRow} {i j : Nat} (h : r.key i j ∉ deliveredRegs.map Prod.fst) : State.reset.rd r i j = r.dflt :=
  alGet_of_not_mem _ _ _ h

/-- The fields whose values after reset R46, R47, R64, R261 and R495 state. -/
def statedAtReset : List RegRow :=
  [R.TB_STATUS_TOD_VALID, R.TB_INC_NS, R.TB_INC_FRAC, R.TB_STATUS_PRIMARY_OK, R.TB_STATUS_SPARE_OK, R.DIO_STATUS_OUT_OFF,
   R.DIO_STATUS_IN_OK, R.SS_STATUS_PFW]

set_option maxRecDepth 10000 in
theorem statedAtReset_unlisted : ∀ r ∈ statedAtReset, r.key 0 0 ∉ deliveredRegs.map Prod.fst := by decide

theorem rd_reset_of_stated {r : RegRow} (h : r ∈ statedAtReset) : State.reset.rd r = r.dflt := rd_reset (statedAtReset_unlisted r h)

/-- Settles O44: the parts of the state hold their reset values by definition, the fields stated read their rows' defaults. -/
theorem valuesAtReset : Obligations.ValuesAtReset := by
  refine ⟨⟨rfl, rfl, rfl, rfl, rfl, rfl, rfl, rfl⟩, ⟨?_, ?_, ?_, ?_, ?_⟩, ?_, ?_, ?_, rfl, rfl⟩
  · rw [State.bit, rd_reset_of_stated (by simp [statedAtReset])]
    rfl
  all_goals exact rd_reset_of_stated (by simp [statedAtReset])

/-! ### Register accesses -/

section
variable {a : Nat}

/-- Where the wide counters stand: aligned words from TT_ on, outside the lattice's blocks and the field groups. -/
theorem wideLow_place (h : wideLow a = true) :
    a % 4 = 0 ∧ 0x40010000 ≤ a ∧ a < 0x40110000 ∧ (a < 0x40020000 ∨ 0x40060000 ≤ a) := by
  simp only [wideLow, Bool.or_eq_true, Bool.and_eq_true, decide_eq_true_eq, beq_iff_eq, List.contains_iff_mem, List.mem_cons,
    List.not_mem_nil, or_false] at h
  omega

theorem regAddr_of_wideLow (h : wideLow a = true) : regAddr a = true := by
  have := wideLow_place h
  simp only [regAddr, Bool.and_eq_true, decide_eq_true_eq, beq_iff_eq]
  omega

theorem latticeAddr_of_wideLow (h : wideLow a = true) : latticeAddr a = false := by
  have := wideLow_place h
  simp only [latticeAddr, Bool.and_eq_false_iff, decide_eq_false_iff_not]
  omega

theorem hartAddrChan_of_wideLow (h : wideLow a = true) : hartAddrChan a = none := by
  have := wideLow_place h
  simp only [hartAddrChan, ite_eq_right_iff, Bool.and_eq_true, decide_eq_true_eq]
  omega

/-- A read of a wide low word answers it and latches the high word (R64). -/
theorem regRead_of_wideLow (s : State) (h : wideLow a = true) :
    s.regRead a = ({ s with latch := alIns s.latch (a + 4) (s.regWord (a + 4)) }, s.regWord a) := by
  obtain ⟨-, hlo, hhi, hside⟩ := wideLow_place h
  have h1 : a ≠ 0x40000008 := by omega
  have h2 : a ≠ 0x40040014 := by omega
  have h3 : a ≠ 0x40030104 := by omega
  simp [State.regRead, regAddr_of_wideLow h, latticeAddr_of_wideLow h, hartAddrChan_of_wideLow h, h, h1, h2, h3]

theorem regAddr_of_unaligned (h : a % 4 ≠ 0) : regAddr a = false := by
  simp [regAddr, h]

theorem wideLow_of_unaligned (h : a % 4 ≠ 0) : wideLow a = false := by
  refine Bool.eq_false_iff.2 (fun hw => ?_)
  exact h (wideLow_place hw).1

theorem wideLow_sub_of_unaligned (h : a % 4 ≠ 0) : wideLow (a - 4) = false := by
  refine Bool.eq_false_iff.2 (fun hw => ?_)
  have := wideLow_place hw
  omega

/-- Outside the aligned words of the register blocks a word reads 0 (R13). -/
theorem regWord_of_not_regAddr (s : State) (h : regAddr a = false) : s.regWord a = 0 := by
  simp [State.regWord, h]

theorem regRead_of_unaligned (s : State) (h : a % 4 ≠ 0) : s.regRead a = (s, 0) := by
  have h1 : a ≠ 0x40000008 := by omega
  have h2 : a ≠ 0x40040014 := by omega
  have h3 : a ≠ 0x40030104 := by omega
  simp [State.regRead, regAddr_of_unaligned h, wideLow_of_unaligned h, wideLow_sub_of_unaligned h,
    regWord_of_not_regAddr s (regAddr_of_unaligned h), h1, h2, h3]

theorem regWrite_of_unaligned (s : State) (v : Nat) (h : a % 4 ≠ 0) : s.regWrite a v = s := by
  simp [State.regWrite, regAddr_of_unaligned h]

/-- Settles O56: an unaligned address is no word of a register block, and no wide counter stands there or 4 bytes below. -/
theorem narrowAccessesDoNothing : Obligations.NarrowAccessesDoNothing := by
  refine ⟨fun s a v n h => ?_, fun s a h => regRead_of_unaligned s h⟩
  rw [exec_registerWrite, execRegisterWrite]
  split
  next hn => rw [regWrite_of_unaligned s _ (h.resolve_left (fun hne => hne hn))]
  next => rfl

end

section
variable {s : State} {a v i j : Nat} {r : RegRow}

/-- RO and WO fields take no write (R12). -/
theorem fieldWrite_ro_wo (h : r.acc = .ro ∨ r.acc = .wo) : s.fieldWrite a v r i j = s := by
  rcases h with h | h <;> simp only [State.fieldWrite, h]

/-- An RW field takes its bits of the word (R12). -/
theorem fieldWrite_rw (h : r.acc = .rw) : s.fieldWrite a v r i j = s.wr r (bitsOf v r.lo r.width) i j := by
  simp only [State.fieldWrite, h]

/-- A W1C field loses the bits that the word holds as 1 (R12). -/
theorem fieldWrite_w1c (h : r.acc = .w1c) :
    s.fieldWrite a v r i j = s.wr r (s.rd r i j &&& (2 ^ r.width - 1 - bitsOf v r.lo r.width)) i j := by
  simp only [State.fieldWrite, h]

/-- An RWL field takes its bits while the access lock is open, in the staging copy where its block has one (R12, R23, R386). -/
theorem fieldWrite_rwl (h : r.acc = .rwl) :
    s.fieldWrite a v r i j = if s.lockOpen = false then s else
      if stagedAddr a = true then s.stage r (bitsOf v r.lo r.width) i j else s.wr r (bitsOf v r.lo r.width) i j := by
  simp only [State.fieldWrite, h, Bool.not_eq_true']

/-- A WO field reads 0 (R12). -/
theorem fieldRead_wo (h : r.acc = .wo) : s.fieldRead r i j = 0 := if_pos h

end

/-- Settles O55, access code by access code. -/
theorem accessCodesOfFields : Obligations.AccessCodesOfFields := by
  refine ⟨fun s a v i j r h => fieldWrite_ro_wo h, fun s a v i j r h => fieldWrite_rw h, fun s a v i j r h => fieldWrite_w1c h,
    fun s a v i j r h hl => ?closed, fun s a v i j r h hl hs => ?staged, fun s a v i j r h hl hs => ?direct,
    fun s i j r h => fieldRead_wo h, fun s a v => rfl, fun s a h => ?other, fun s a h => ?wide⟩
  case closed => rw [fieldWrite_rwl h, if_pos hl]
  case staged => rw [fieldWrite_rwl h, if_neg (by simp [hl]), if_pos hs]
  case direct => rw [fieldWrite_rwl h, if_neg (by simp [hl]), if_neg (by simp [hs])]
  case other => rw [exec_wideCounterLowRead, execWideCounterLowRead, if_neg (by simp [h])]
  case wide => rw [exec_wideCounterLowRead, execWideCounterLowRead, if_pos h, regRead_of_wideLow s h]

/-! ### Command packets that pass the gate -/

section
variable (s : State) (r : Req) (c : Cmd)

@[simp] theorem takeReq_unit : (s.takeReq r c).unit = s.unit := by rw [takeReq_frame]
@[simp] theorem takeReq_tt : (s.takeReq r c).tt = s.tt := by rw [takeReq_frame]
@[simp] theorem takeReq_lat : (s.takeReq r c).lat = s.lat := by rw [takeReq_frame]
@[simp] theorem takeReq_regs : (s.takeReq r c).regs = s.regs := by rw [takeReq_frame]

@[simp] theorem takeReq_rd (q : RegRow) (i j : Nat) : (s.takeReq r c).rd q i j = s.rd q i j := by
  rw [State.rd, takeReq_regs, State.rd]

@[simp] theorem takeReq_bit (q : RegRow) (i j : Nat) : (s.takeReq r c).bit q i j = s.bit q i j := by
  rw [State.bit, takeReq_rd, State.bit]

@[simp] theorem takeReq_inRun : (s.takeReq r c).inRun = s.inRun := by rw [State.inRun, takeReq_unit, State.inRun]

@[simp] theorem takeReq_inStop : (s.takeReq r c).inStop = s.inStop := by rw [State.inStop, takeReq_unit, State.inStop]

@[simp] theorem takeReq_retRegion : (s.takeReq r c).retRegion = s.retRegion := by rw [State.retRegion, takeReq_tt, State.retRegion]

@[simp] theorem takeReq_ring (k : Nat) : (s.takeReq r c).ring k = s.ring k := by rw [State.ring, takeReq_lat, State.ring]

@[simp] theorem takeReq_ringBad (k dir : Nat) : (s.takeReq r c).ringBad k dir = s.ringBad k dir := by
  rw [State.ringBad, takeReq_ring, State.ringBad]

end

/-- A packet outside group 0x09 that passes its checks runs its command on the state with the request taken. -/
theorem command_next {s t : State} {r : Req} {c : Cmd} {f : State → State} (h : Passes s r c) (hg : c.op / 256 ≠ 9)
    (e : f (s.takeReq r c) = t) : (.next (s.command r c f) : Next) = .next t := by
  rw [command_of_passes h (.inl hg), e]

/-- A value in range lets the command go on. -/
theorem inRange_of {s : State} {r : Req} {c : Cmd} {pid : Nat} {ok : Bool} {f : State → State} (h : ok = true) :
    s.inRange r c pid ok f = f s := if_pos h

/-- A condition that holds lets the command go on. -/
theorem require_of {s : State} {r : Req} {c : Cmd} {ok : Bool} {n : Nat} {f : State → State} (h : ok = true) :
    s.require r c ok n f = f s := if_pos h

theorem require_of_not {s : State} {r : Req} {c : Cmd} {ok : Bool} {n : Nat} {f : State → State} (h : ok = false) :
    s.require r c ok n f = s.reply r c n := if_neg (by simp [h])

/-- Settles O37: every packet passes the gate, and its body runs on a state that differs in the command service alone. -/
theorem runAndRingCommands : Obligations.RunAndRingCommands := by
  refine ⟨fun s r k hp hk hs => command_next hp (by decide) ?start, fun s r k hp hk hs => command_next hp (by decide) ?startAgain,
    fun s r hp hu => command_next hp (by decide) ?stop, fun s r hp hu => command_next hp (by decide) ?stopOutside,
    fun s r hp => command_next hp (by decide) rfl, fun s r hp => command_next hp (by decide) rfl,
    fun s r k p hp hk hpl hb h0 => command_next hp (by decide) ?admission,
    fun s r p hp hpl hb hu => command_next hp (by decide) ?admissionOutside, fun s r hp => command_next hp (by decide) rfl,
    fun s r n hp hn => command_next hp (by decide) ?autorun, fun s r hp => command_next hp (by decide) rfl,
    fun s r o d hp hu hd => command_next hp (by decide) ?retImport, fun s r hp hu => command_next hp (by decide) ?retClear,
    fun s r k e hp he hk => command_next hp (by decide) ?ringPut, fun s r k n hp hn hk => command_next hp (by decide) ?ringGet,
    fun s r a n hp hn ha he => command_next hp (by decide) ?dataRead,
    fun s r a n hp hn ha => command_next hp (by decide) ?dataReadOutside⟩
  case start => simp [inRange_of, hk, hs]
  case startAgain => simp [inRange_of, hk, hs]
  case stop => simp [require_of, hu]
  case stopOutside => simp [require_of_not, hu]
  case admission => simp [inRange_of, hk, hpl, hb, h0]
  case admissionOutside => simp [inRange_of, hpl, hb, hu]
  case autorun => simp [inRange_of, hn]
  case retImport => simp [require_of, inRange_of, hu, hd]
  case retClear => simp [require_of, hu]
  case ringPut => simp [inRange_of, he, hk]
  case ringGet => simp [inRange_of, hn, hk]
  case dataRead => simp [inRange_of, hn, ha, he]
  case dataReadOutside => simp [inRange_of, hn, ha]

/-! ### Resets -/

/-- States alike beside the outputs agree in every part that is no output. -/
theorem eq_of_besideOutputs {α : Type} {u v : State} (f : State → α) (h : besideOutputs u = besideOutputs v)
    (hf : ∀ s, f (besideOutputs s) = f s := by exact fun _ => rfl) : f u = f v := by
  rw [← hf u, h, hf v]

/-- LRST in STOP, RUN or HALT: STOP with the lattice reset and no base (R16). -/
theorem lrst_leaves {s : State} (h : s.unit = .stop ∨ s.unit = .run ∨ s.unit = .halt) :
    s.lrst.unit = .stop ∧ s.lrst.lat = Lattice.reset ∧ s.lrst.tt.base = none := by
  obtain ⟨u, hu⟩ := lrst_beside h
  have hlat := latticeReset_lat u
  have hbase := latticeReset_base u
  generalize u.latticeReset = w at hu hlat hbase
  exact ⟨eq_of_besideOutputs State.unit hu, (eq_of_besideOutputs State.lat hu).trans hlat,
    (eq_of_besideOutputs (fun s => s.tt.base) hu).trans hbase⟩

/-- LRST elsewhere changes nothing (R16). -/
theorem lrst_of_other {s : State} (h1 : s.unit ≠ .stop) (h2 : s.unit ≠ .run) (h3 : s.unit ≠ .halt) : s.lrst = s := by
  unfold State.lrst
  split
  · exact absurd ‹_› h1
  · exact absurd ‹_› h2
  · exact absurd ‹_› h3
  · rfl

/-- What a start from reset holds beside the time base and the lattice: BOOT, SOLO, no session, lock or journal buffer, and the lattice reset
with no base (R16, R17). -/
structure Restarted (s : State) : Prop where
  unit : s.unit = .boot
  role : s.role = .solo
  sessions : s.acc.sessions = []
  lock : s.acc.lock = none
  ram : s.jr.ram = []
  lat : s.lat = Lattice.reset
  base : s.tt.base = none

theorem restart_restarted (s : State) (k : Nat) : Restarted (s.restart k) :=
  ⟨rfl, rfl, rfl, rfl, rfl, restart_lat s k, restart_base s k⟩

theorem restarted_of_besideOutputs {u v : State} (h : besideOutputs u = besideOutputs v) (hv : Restarted v) : Restarted u where
  unit := (eq_of_besideOutputs State.unit h).trans hv.unit
  role := (eq_of_besideOutputs State.role h).trans hv.role
  sessions := (eq_of_besideOutputs (fun s => s.acc.sessions) h).trans hv.sessions
  lock := (eq_of_besideOutputs (fun s => s.acc.lock) h).trans hv.lock
  ram := (eq_of_besideOutputs (fun s => s.jr.ram) h).trans hv.ram
  lat := (eq_of_besideOutputs State.lat h).trans hv.lat
  base := (eq_of_besideOutputs (fun s => s.tt.base) h).trans hv.base

/-- An MRST with supply restarts the unit and lets the FRC go on (R16). -/
theorem mrst_leaves {s : State} (k : Nat) (h : s.unit ≠ .off) :
    Restarted (s.mrst k) ∧ (s.mrst k).tb.frc = s.tb.frc ∧ (s.mrst k).tb.frameNo = 0 := by
  obtain ⟨u, -, hu⟩ := mrst_beside k h
  exact ⟨restarted_of_besideOutputs hu (restart_restarted u k), Frc.mrst_frc s k, eq_of_besideOutputs (fun s => s.tb.frameNo) hu⟩

/-- What a POR ends with leaves all but register fields, channels and the discrete block. -/
theorem porEnd_beside (s : State) : besideOutputs s.resetTxb.dgShow.retBusy.driveAll = besideOutputs s := by
  rw [driveAll_beside, retBusy_beside, dgShow_beside, resetTxb_beside]

/-- A POR ends as a restart with the time base of reset, but for register fields, channels and the discrete block. -/
theorem por_beside (s : State) : ∃ v : State, Restarted v ∧ v.tb = TimeBase.reset ∧ besideOutputs s.por = besideOutputs v := by
  have hr := restart_restarted s 0
  unfold State.por
  generalize s.restart 0 = w at hr
  extract_lets
  refine ⟨_, ?_, ?_, porEnd_beside _⟩
  · exact ⟨hr.unit, hr.role, hr.sessions, hr.lock, hr.ram, hr.lat, hr.base⟩
  · rfl

/-- A POR restarts the unit with the time base of reset (R16, R43). -/
theorem por_leaves (s : State) : Restarted s.por ∧ s.por.tb = TimeBase.reset := by
  obtain ⟨v, hv, htb, hb⟩ := por_beside s
  exact ⟨restarted_of_besideOutputs hb hv, (eq_of_besideOutputs State.tb hb).trans htb⟩

/-! ### The boot sequence -/

/-- What the end of stage `n` of the boot sequence does (R456). -/
def bootStageEnd (s : State) (x : BootIn) (n : Nat) : State :=
  match n with
  | 0 => if x.cold then s else (s.wr R.SS_STATUS_OSC_OK 1).wr R.BT_STATUS_STAGE 1
  | 1 => s.bootEnclave x
  | 2 => s.bootMgmt x
  | 3 => s.loadStage x ([2, 3, 4, 5] ++ (if Config.variantM then [] else [6])) 4
  | 4 => s.bootConfig x
  | _ => s.bootImage x

section
variable {s : State} {x : BootIn}

/-- BOOT_STAGE_COMPLETE in BOOT, where no warning has stopped the sequence, ends the stage of BT_STATUS.STAGE (R456). -/
theorem exec_bootStageComplete_boot {n : Nat} (hu : s.unit = .boot) (hl : s.sup.latticeStop = false) (hn : s.rd R.BT_STATUS_STAGE = n) :
    exec (.bootStageComplete x) s = .next (bootStageEnd s x n) := by
  rw [exec_bootStageComplete, execBootStageComplete, if_neg (by simp [hu]), if_neg (by simp [hu, hl]), hn]
  rfl

theorem bootStageEnd_one : bootStageEnd s x 1 = s.bootEnclave x := rfl

theorem bootStageEnd_two : bootStageEnd s x 2 = s.bootMgmt x := rfl

/-- Stage 0 ends with the oscillators shown within limits (R456). -/
theorem bootStageEnd_of_warm (h : x.cold = false) : bootStageEnd s x 0 = (s.wr R.SS_STATUS_OSC_OK 1).wr R.BT_STATUS_STAGE 1 :=
  if_neg (by simp [h])

/-- A cold start waits in stage 0 (R510). -/
theorem bootStageEnd_of_cold (h : x.cold = true) : bootStageEnd s x 0 = s := if_pos h

/-- Stage 1 without a PUF root, whether rebuilt at a POR or kept over an MRST, stays (R391). -/
theorem bootEnclave_of_noPuf (h : (if s.rd R.BT_LAST_CAUSE = 0 then x.puf else s.bit R.SE_STATUS_PUF_OK) = false) :
    s.bootEnclave x = s.wr R.SE_STATUS_PUF_OK 0 := by
  unfold State.bootEnclave
  simp only [beq_iff_eq]
  rw [h]
  simp

/-- Stage 1 after an MRST with the PUF root kept and nothing pending in the enclave loads ENCLAVE (R391, R457). -/
theorem bootEnclave_of_kept (hd : s.trust.dead = false) (hc : s.rd R.BT_LAST_CAUSE ≠ 0) (hp : s.bit R.SE_STATUS_PUF_OK = true)
    (hz : s.trust.zeroise = 0) (hl : s.trust.latched = []) :
    s.bootEnclave x = (s.wr R.SE_STATUS_PUF_OK 1).seShow.loadStage x [partEnclave] 2 := by
  have hrest : (s.wr R.SE_STATUS_PUF_OK 1).zeroiseRest = s.wr R.SE_STATUS_PUF_OK 1 := if_pos hz
  have hclear : { s.wr R.SE_STATUS_PUF_OK 1 with trust := { s.trust with latched := [] } } = s.wr R.SE_STATUS_PUF_OK 1 := by
    rw [← hl]
    rfl
  have hpor : (s.rd R.BT_LAST_CAUSE == 0) = false := by simp [hc]
  rw [State.bootEnclave]
  simp only [hpor, Bool.and_false, Bool.false_eq_true, if_false, hrest, wr_trust, hl, List.foldl_nil]
  rw [if_neg (by simp [hd, hp]), ← hclear]

/-- Stage 2 without a readable health record stays (R491). -/
theorem bootMgmt_of_noRecord (h : x.record = false) : s.bootMgmt x = s.wr R.HS_STATUS_RECORD_OK 0 := by
  simp [State.bootMgmt, h]

/-- Stage 2 with a journal that never held an entry finds none lost and loads MGMT (R491, R493). -/
theorem bootMgmt_of_emptyJournal (hr : x.record = true) (hf : s.jr.flash = []) (hn : s.jr.nextSeq = 0) :
    s.bootMgmt x = ((s.wr R.HS_STATUS_RECORD_OK 1).wr R.HS_JOURNAL_LOST 0).loadStage x [partMgmt] 3 := by
  simp [State.bootMgmt, hr, hf, hn]

theorem checkBank_of_good {p b : Nat} (hb : x.bad.contains (p, b) = false) (hv : (s.partBank p b).any (s.partVerifies p) = true) :
    s.checkBank x p b = (s, true) := by
  rw [State.checkBank, hb, hv]
  rfl

/-- A bank without an image is shown invalid (R457). -/
theorem checkBank_of_none {p b : Nat} (hb : x.bad.contains (p, b) = false) (hn : s.partBank p b = none) :
    s.checkBank x p b = ((s.wr (bankOk b) 0 p).wr (bankVer b) 0 p, false) := by
  rw [State.checkBank, hb, hn]
  rfl

/-- A part whose active bank verifies starts from it (R457). -/
theorem loadPart_of_good {p : Nat} (hb : x.bad.contains (p, s.rd R.BT_PART_ACTIVE p) = false)
    (hv : (s.partBank p (s.rd R.BT_PART_ACTIVE p)).any (s.partVerifies p) = true) : s.loadPart x p = s.wr R.BT_PART_LOADED 1 p := by
  rw [State.loadPart, checkBank_of_good hb hv]
  rfl

/-- A part neither of whose banks verifies has its bit of FAILED_PARTS set (R457). -/
theorem loadPart_of_fails {p : Nat} {t u : State} (ha : s.checkBank x p (s.rd R.BT_PART_ACTIVE p) = (t, false))
    (hi : t.checkBank x p (t.idleBank p) = (u, false)) :
    s.loadPart x p = u.wr R.BT_STATUS_FAILED_PARTS (u.rd R.BT_STATUS_FAILED_PARTS ||| 2 ^ p) := by
  simp only [State.loadPart, ha, Bool.false_eq_true, if_false, hi]

/-- A part has two banks: with neither filled, no bank number names an image (R454). -/
theorem partBank_of_empty {p : Nat} (h0 : s.partBank p 0 = none) (h1 : s.partBank p 1 = none) (b : Nat) : s.partBank p b = none := by
  by_cases hb : b = 0
  · rw [hb, h0]
  · have e : s.partBank p b = s.partBank p 1 := by simp only [State.partBank, hb, if_false, Nat.one_ne_zero]
    rw [e, h1]

/-- A part without an image in either bank has its bit of FAILED_PARTS set (R457). -/
theorem loadPart_of_noImage {p : Nat} (hb : x.bad = []) (h0 : s.partBank p 0 = none) (h1 : s.partBank p 1 = none) :
    ∃ u : State, s.loadPart x p = u.wr R.BT_STATUS_FAILED_PARTS (u.rd R.BT_STATUS_FAILED_PARTS ||| 2 ^ p) := by
  have hbad (b : Nat) : x.bad.contains (p, b) = false := by rw [hb]; rfl
  exact ⟨_, loadPart_of_fails (checkBank_of_none (hbad _) (partBank_of_empty h0 h1 _))
    (checkBank_of_none (hbad _) (partBank_of_empty h0 h1 _))⟩

/-- In STOP the command is about the start that may still wait under AUTORUN (R458). -/
theorem exec_bootStageComplete_stop (hu : s.unit = .stop) : exec (.bootStageComplete x) s = .next (s.bootWaits x) := by
  rw [exec_bootStageComplete, execBootStageComplete, if_pos (by simp [hu])]

/-- A power-fail warning stops the sequence (R458). -/
theorem exec_bootStageComplete_stopped (hu : s.unit = .boot) (hl : s.sup.latticeStop = true) : exec (.bootStageComplete x) s = .next s := by
  rw [exec_bootStageComplete, execBootStageComplete, if_neg (by simp [hu]), if_pos (by simp [hl])]

/-- Without its PREFERRED partner a waiting unit starts after 5 s (R458). -/
theorem bootWaits_of_alone {n : Nat} (ha : s.fw.autorun = some n) (hp : s.bit R.PA_STATUS_PARTNER_HEALTHY = false) :
    s.bootWaits x = if n + 500000000 ≤ s.tb.frc then State.start { s with fw := { s.fw with autorun := none, auto := true } } 0 else s := by
  simp [State.bootWaits, ha, hp]

end

/-- A module reset in RECOVERY or without supply changes nothing (R16, R470). -/
theorem moduleReset_of_held {s : State} (h : s.unit = .recovery ∨ s.unit = .off) : exec .moduleReset s = .next s := by
  rw [exec_moduleReset, execModuleReset]
  rcases h with h | h <;> simp [h, State.mrst]

theorem exec_moduleReset_of_supplied {s : State} (h : s.unit ≠ .recovery) : exec .moduleReset s = .next (s.mrst 1) := by
  rw [exec_moduleReset, execModuleReset, if_neg (by simpa using h)]

/-- The warning has stayed clear for 100 ms after the lattice stop: the module restarts (R484). -/
theorem brownoutRestart_of_due {s : State} {t : Nat} (hl : s.sup.latticeStop = true) (hs : s.sup.supply = true) (hu : s.unit ≠ .off)
    (hp : s.sup.pfwAt = none) (hc : s.sup.pfwClearAt = some t) (ht : t + 10000000 ≤ s.tb.frc) :
    exec .brownoutRestart s = .next (let u := (s.mrst 1).wr R.SS_EVENTS_BROWNOUT_RESTART 1; { u with sup := { u.sup with pfwClearAt := none } }) := by
  have hdue : s.sup.pfwClearAt.any (fun t => decide (t + 10000000 ≤ s.tb.frc)) = true := by
    rw [hc, Option.any_some]
    exact decide_eq_true ht
  have hon : (s.unit != .off) = true := bne_iff_ne.2 hu
  have hclear : s.sup.pfwAt.isNone = true := by rw [hp]; rfl
  rw [exec_brownoutRestart, execBrownoutRestart, hl, hs, hon, hclear, hdue]
  exact congrArg _ (if_pos rfl)

/-- Settles O31: what each reset leaves, then the boot sequence stage by stage. -/
theorem resetsAndBootStages : Obligations.ResetsAndBootStages := by
  refine ⟨fun s h => ?lrst, fun s h1 h2 h3 => ?lrstOther, fun s => ?por, fun s hr ho => ?mrst, fun s h => moduleReset_of_held h,
    fun s h => ?noBrownout, fun s t hl hs hu hp hc ht => brownoutRestart_of_due hl hs hu hp hc ht, fun s k h => ?restart,
    fun s x hu ha => ?noAutorun, fun s x n hu ha hp => ?autorun, fun s x hu hl => exec_bootStageComplete_stopped hu hl,
    fun s x hu hl hn hc => ?warm, fun s x hu hl hn hc => ?cold, fun s x hu hl hn _ hp => ?noPuf,
    fun s x hu hl hn hd hc hp hz ht => ?puf, fun s x hu hl hn hr => ?noRecord, fun s x hu hl hn hr hf hq => ?record,
    fun s x ps k => ⟨rfl, rfl⟩, fun s x p hb hv => loadPart_of_good hb hv, fun s x p h0 h1 hb => loadPart_of_noImage hb h0 h1,
    fun s x hu hl hn => exec_bootStageComplete_boot hu hl hn, fun s x hu hl hn => exec_bootStageComplete_boot hu hl hn,
    fun s x hu hl hn => exec_bootStageComplete_boot hu hl hn, fun s x hu hl hn => exec_bootStageComplete_boot hu hl hn,
    fun s x hu hl hn => exec_bootStageComplete_boot hu hl hn⟩
  case lrst =>
    obtain ⟨hu, hlat, hbase⟩ := lrst_leaves h
    exact ⟨s.lrst, rfl, rfl, hu, Frc.lrst_frc s, hlat, hbase⟩
  case lrstOther =>
    have h : (.next s.lrst : Next) = .next s := congrArg _ (lrst_of_other h1 h2 h3)
    exact ⟨h, h⟩
  case por =>
    obtain ⟨h, htb⟩ := por_leaves s
    exact ⟨s.por, rfl, h.unit, h.role, htb, h.sessions, h.lock, h.ram, h.lat, h.base⟩
  case mrst =>
    obtain ⟨h, hfrc, hno⟩ := mrst_leaves 1 ho
    exact ⟨s.mrst 1, exec_moduleReset_of_supplied hr, h.unit, h.role, hfrc, hno, h.sessions, h.lock, h.ram, h.lat, h.base⟩
  case noBrownout => rw [exec_brownoutRestart, execBrownoutRestart, if_neg (by simp [h])]
  case restart =>
    obtain ⟨h, hfrc, -⟩ := mrst_leaves k h
    exact ⟨h.unit, h.role, hfrc⟩
  case noAutorun => rw [exec_bootStageComplete_stop hu, State.bootWaits, ha]
  case autorun => rw [exec_bootStageComplete_stop hu, bootWaits_of_alone ha hp]
  case warm => rw [exec_bootStageComplete_boot hu hl hn, bootStageEnd_of_warm hc]
  case cold => rw [exec_bootStageComplete_boot hu hl hn, bootStageEnd_of_cold hc]
  case noPuf => rw [exec_bootStageComplete_boot hu hl hn, bootStageEnd_one, bootEnclave_of_noPuf hp]
  case puf => rw [exec_bootStageComplete_boot hu hl hn, bootStageEnd_one, bootEnclave_of_kept hd hc hp hz ht]
  case noRecord => rw [exec_bootStageComplete_boot hu hl hn, bootStageEnd_two, bootMgmt_of_noRecord hr]
  case record => rw [exec_bootStageComplete_boot hu hl hn, bootStageEnd_two, bootMgmt_of_emptyJournal hr hf hq]

end Sys2Proof.Proofs
end

section
/-! SUPPORT. The statements about the station's architecture: the queue of commands, the rings and the asynchronous side of the banks, the
supervision of the supply. -/

namespace Sys2Proof.Proofs

open Sys2Proof Sys2Proof.Machine Sys2Proof.Safety Sys2Proof.Laws

/-! ### The queue of commands -/

/-- Any state meets `Keeps` with its own queue, nothing said of its soundness and no metering registers named. -/
theorem keeps_ownQueue (s : State) : Keeps (False, s.pending, none) s :=
  ⟨False.elim, rfl, fun _ e => nomatch e⟩

/-- Settles O51: what every command keeps, taken with the state's own queue and without soundness. -/
theorem commandsLeaveTheQueue : Obligations.CommandsLeaveTheQueue := by
  intro s t c e
  obtain ⟨-, hqueue, -⟩ := (exec_keeps c (keeps_ownQueue s) (.inl rfl)).next t e
  exact hqueue

/-- Settles O45: with a command in front the step takes its second branch, whatever the command. -/
theorem stepRunsTheFrontCommand : Obligations.StepRunsTheFrontCommand := fun _ _ _ => rfl

/-! ### Issue of a tile operation -/

/-- No check fails when each of them passes. -/
theorem firstBad_of_all {l : List (Nat × Bool)} (h : ∀ x ∈ l, x.2 = true) : firstBad l = none := by
  induction l with
  | nil => rfl
  | cons x l ih =>
    obtain ⟨hx, hl⟩ := List.forall_mem_cons.1 h
    rw [firstBad, if_pos hx, ih hl]

/-- An operation that can issue and meets no failing check has its effect at its issue cycle. -/
theorem issue_of_passes {s : State} {i : Issue} {l : List (Nat × Bool)} (f : State → State) (hi : s.canIssue i = true)
    (hl : ∀ x ∈ l, x.2 = true) : s.issue i (firstBad l) f = .next (f (s.startIssue i)) := by
  simp [State.issue, hi, firstBad_of_all hl]

/-! ### Rings -/

/-- Tile operation `i` may use ring `q` in direction `dir`: the ring is declared, the tile's and not in use, and fewer than four rings are (R84, R85). -/
structure RingFree (s : State) (i : Issue) (q dir : Nat) : Prop where
  number : q < 128
  declared : 0 < (s.ring q).depth
  direction : (s.ring q).dir = dir
  owner : (s.ring q).owner = i.tile
  idle : (s.ring q).busy ≤ s.absCycle i.t
  port : (s.lat.rings.filter (fun x => decide (s.absCycle i.t < x.busy))).length < 4

section
variable {s : State} {i : Issue} {q dir addr : Nat}

theorem ringOk_of_free (h : RingFree s i q dir) : ∀ x ∈ s.ringOk i q dir, x.2 = true := by
  simp [State.ringOk, h.number, h.declared, h.direction, h.owner, h.idle, h.port]

theorem rpoll_checks (h : RingFree s i q 0) (ha : addr + 260 ≤ 0x20000) (ht : i.t + 7 < s.G) :
    ∀ x ∈ s.ringOk i q 0 ++ [sramOk addr 260, s.cycleOk (i.t + 7)], x.2 = true := by
  simpa [or_imp, forall_and, sramOk, State.cycleOk, ha, ht] using ringOk_of_free h

theorem renq_checks {d : Nat} (h : RingFree s i q 1) (ha : addr + 64 ≤ 0x20000) (hd : d < 64) (ht : i.t + 3 < s.G) :
    ∀ x ∈ s.ringOk i q 1 ++ [sramOk addr 64, regsOk [d], s.cycleOk (i.t + 3)], x.2 = true := by
  simpa [or_imp, forall_and, sramOk, regsOk, State.cycleOk, ha, hd, ht] using ringOk_of_free h

end

/-- What RENQ does to the ring and to register `d` once the entry `b` has been read, by whether the ring has room (R87). -/
def renqEnd (u : State) (i : Issue) (q d T : Nat) (b : Bytes) : State :=
  if (u.ring q).depth ≤ (u.ring q).entries.length then
    ((u.updRing q (fun r => { r with overflow := r.overflow + 1, busy := T + 4 })).deliver i.tile (i.t + 4) (.g d) (leBytes 4 1)).eachTile i
      (fun s p => s.flag p (i.t + 4) tsrRingfull)
  else
    (u.updRing q (fun r => { r with entries := r.entries ++ [{ at_ := T + 4, data := b }], busy := T + 4 })).deliver i.tile (i.t + 4) (.g d)
      (leBytes 4 0)

theorem execRenq_of_free {s : State} {i : Issue} {q addr d : Nat} (e : Ecc) (hi : s.canIssue i = true) (h : RingFree s i q 1)
    (ha : addr + 64 ≤ 0x20000) (hd : d < 64) (ht : i.t + 3 < s.G) :
    execRenq i q addr d e s =
      .next (renqEnd ((s.startIssue i).source i (.sram addr) 64 e).1 i q d ((s.startIssue i).absCycle i.t)
        ((s.startIssue i).source i (.sram addr) 64 e).2) := by
  rw [execRenq, issue_of_passes _ hi (renq_checks h ha hd ht)]
  obtain ⟨u, b⟩ := (s.startIssue i).source i (.sram addr) 64 e
  by_cases hfull : (u.ring q).depth ≤ (u.ring q).entries.length
  · simp [renqEnd, hfull]
  · simp [renqEnd, hfull]

/-! ### Enqueues of the management core (R30, R349) -/

@[simp] theorem retries_role (s : State) (n : Nat) : (s.retries n).role = s.role := rfl
@[simp] theorem retries_absNow (s : State) (n : Nat) : (s.retries n).absNow = s.absNow := rfl

section
variable {s : State} {q : Nat} (entry : Bytes) (hq : q < 128) (h0 : 0 < (s.ring q).depth) (hd : (s.ring q).dir = 0)
  (hb : (s.ring q).busy ≤ s.absNow)
include hq h0 hd hb

theorem ringPut_of_room (hr : s.role = .solo) (hroom : (s.ring q).entries.length < (s.ring q).depth) :
    (s.ringPut q entry).1 =
      (s.retries 0).updRing q (fun r => { r with entries := r.entries ++ [{ at_ := s.absNow, data := pad64 entry }] }) := by
  simp [State.ringPut, Nat.sub_eq_zero_of_le hb, Nat.not_le.2 hq, Nat.ne_of_gt h0, hd, hr, Nat.not_le.2 hroom]

theorem ringPut_of_full (hr : s.role = .solo) (hfull : (s.ring q).depth ≤ (s.ring q).entries.length) :
    (s.ringPut q entry).1 = s.retries 0 := by
  simp [State.ringPut, Nat.sub_eq_zero_of_le hb, Nat.not_le.2 hq, Nat.ne_of_gt h0, hd, hr, hfull]

theorem ringPut_of_standby (hr : s.role = .standby) : (s.ringPut q entry).1 = (s.retries 0).inc R.PA_RING_DROP := by
  simp [State.ringPut, Nat.sub_eq_zero_of_le hb, Nat.not_le.2 hq, Nat.ne_of_gt h0, hd, hr]

end

/-! ### Port B (R21, R22, R144) -/

theorem serve_of_inRun {s : State} (ws : List Nat) (sub : Nat) (h : s.inRun = true) :
    s.serve ws sub =
      (s.settle (8 * (s.tb.frc - s.tb.lastTick) + sub % 8 +
        s.retriesAt ws (s.lat.bus.length + 400) (8 * (s.tb.frc - s.tb.lastTick) + sub % 8))).retries
        (s.retriesAt ws (s.lat.bus.length + 400) (8 * (s.tb.frc - s.tb.lastTick) + sub % 8)) := if_pos h

/-- Outside RUN the timetabled side uses no word, and an access is served at once. -/
theorem serve_of_not_inRun {s : State} (ws : List Nat) (sub : Nat) (h : s.inRun = false) : s.serve ws sub = s :=
  if_neg (by simp [h])

section
variable {s u : State} {addr : Nat} {data : Bytes} {sub : Nat}

theorem portb_beyond (h : Config.bankEnd < addr + data.length) : execPortbBankWrite addr data sub s = .next s := by
  simp [execPortbBankWrite, h]

variable (hend : addr + data.length ≤ Config.bankEnd) (hne : data ≠ []) (hu : s.serve (wordsAt addr data.length) sub = u)
include hend hne hu

/-- A write that touches no retentive byte takes effect in the state in which its access is served. -/
theorem portb_besideRetentive (hr : u.inRetentive addr data.length = false) :
    execPortbBankWrite addr data sub s = .next (u.setBytes addr data) := by
  simp [execPortbBankWrite, Nat.not_lt.2 hend, hne, hu, hr]

theorem portb_refused (hr : u.inRetentive addr data.length = true) (hrun : u.inRun = true) :
    execPortbBankWrite addr data sub s = .next (u.wr R.TT_RET_STATUS_PORTB_REFUSED 1) := by
  simp [execPortbBankWrite, Nat.not_lt.2 hend, hne, hu, hr, hrun]

end

/-- Settles O8: the two ring operations past their checks, the enqueue by role and room, the port-B write by where it falls. -/
theorem ringsAndPortB : Obligations.RingsAndPortB := by
  refine ⟨fun s i q addr got hi hq h0 hd ho hb hp ha ht hgot => ?poll,
    fun s u i q addr d e b hi hq h0 hd ho hb hp ha hg ht hu hdata hroom => ?stored,
    fun s u i q addr d e b hi hq h0 hd ho hb hp ha hg ht hu hdata hfull => ?full,
    fun s q x hq h0 hd hr hroom hb => congrArg _ (ringPut_of_room x hq h0 hd hb hr hroom),
    fun s q x hq h0 hd hr hb => congrArg _ (ringPut_of_standby x hq h0 hd hb hr),
    fun s q x hq h0 hd hr hfull hb => congrArg _ (ringPut_of_full x hq h0 hd hb hr hfull),
    fun s => ⟨rfl, rfl⟩,
    fun s a x sub hend hne hrun hret => portb_besideRetentive hend hne (serve_of_not_inRun _ sub hrun) hret,
    fun s u a x sub hend hne _ hu hret => portb_besideRetentive hend hne hu.symm hret,
    fun s u a x sub hend hne _ hu hret hrun => portb_refused hend hne hu.symm hret hrun,
    fun s a x sub h => portb_beyond h, fun s ws sub h => serve_of_inRun ws sub h⟩
  case poll =>
    rw [exec_rpoll, execRpoll, issue_of_passes _ hi (rpoll_checks ⟨hq, h0, hd, ho, hb, hp⟩ ha ht), hgot]
  case stored =>
    rw [exec_renq, execRenq_of_free e hi ⟨hq, h0, hd, ho, hb, hp⟩ ha hg ht, ← hu, ← hdata, renqEnd, if_neg (Nat.not_le.2 hroom)]
  case full =>
    rw [exec_renq, execRenq_of_free e hi ⟨hq, h0, hd, ho, hb, hp⟩ ha hg ht, ← hu, ← hdata, renqEnd, if_pos hfull]

/-! ### Feeds (R506, R507) -/

section
variable (s : State) {n mv : Nat}

theorem feedOutOfRange_of_feed (hn : n < 2) :
    exec (.feedOutOfRange n mv) s = .next (s.feedReads n mv (s.sup.feedOn.getD n true)) := by
  simp [execFeedOutOfRange, Nat.not_le.2 hn]

theorem feedReconnect_of_below (hn : n < 2) (hv : mv < 32500) : exec (.feedReconnect n mv) s = .next (s.feedReads n mv true) := by
  simp [execFeedReconnect, Nat.not_le.2 hn, Nat.not_le.2 hv]

/-- The module has two feeds; what is said of another changes nothing. -/
theorem feed_beyond (h : 2 ≤ n) :
    exec (.feedOutOfRange n mv) s = .next s ∧ exec (.feedOvervoltage n) s = .next s ∧ exec (.feedReconnect n mv) s = .next s := by
  simp [execFeedOutOfRange, execFeedOvervoltage, execFeedReconnect, h]

end

/-! ### Power failure (R481 to R485) -/

section
variable {s : State} {t : Nat}

/-- The state in which the warning is shown, counted and journalled, before anything follows from it. -/
def pfwRaised (s : State) : State :=
  let sup := { s.sup with pfwAt := some s.tb.frc, pfwClearAt := none, latticeStop := s.sup.latticeStop || s.unit == UnitState.boot }
  ((State.wr { s with sup } R.SS_STATUS_PFW 1).inc R.SS_PFW).journal 0x0B .pfw

theorem powerFailWarning_rises (x : MeterIn) (hon : s.unit ≠ .off) (hw : s.sup.pfwAt = none) :
    exec (.powerFailWarning x) s = .next ((((pfwRaised s).evalTrips.metSplit x).dgWarn).flushJournal) := by
  simp [execPowerFailWarning, pfwRaised, hon, hw]

theorem powerFailWarning_off (x : MeterIn) (h : s.unit = .off) : exec (.powerFailWarning x) s = .next s := by
  simp [execPowerFailWarning, h]

theorem powerFail_withoutWarning (h : s.sup.pfwAt = none) :
    exec .powerFailWarningClear s = .next s ∧ exec .latticeStop s = .next s ∧ exec .holdUpEnd s = .next s := by
  simp [execPowerFailWarningClear, execLatticeStop, execHoldUpEnd, h]

variable (hw : s.sup.pfwAt = some t)
include hw

/-- Before the lattice stop the clearing ends the warning as if it had not come (R484). -/
theorem powerFailWarningClear_beforeStop {u : State} (hu : (s.wr R.SS_STATUS_PFW 0).evalTrips = u) (hl : u.sup.latticeStop = false) :
    exec .powerFailWarningClear s =
      .next ((State.wr { u with sup := { u.sup with pfwAt := none } } R.SS_EVENTS_PFW_SEEN 1).zeroiseRest.journal 0x0B .warnCleared
        ).metWarnClear.dgUpdate := by
  simp [execPowerFailWarningClear, hw, hu, hl]

theorem latticeStop_atTick (hl : s.sup.latticeStop = false) (ht : s.nextTick ≤ t + 1500000) :
    exec .latticeStop s = .next s.frameTick := by
  simp [execLatticeStop, hw, hl, ht]

theorem latticeStop_atLimit (hl : s.sup.latticeStop = false) (ht : t + 1500000 < s.nextTick) :
    exec .latticeStop s = .next ((s.toFrc (t + 1500000)).powerStop s.tb.frameNo) := by
  simp [execLatticeStop, hw, hl, Nat.not_le.2 ht]

/-- Twenty milliseconds after the warning a unit that no longer runs is OFF. -/
theorem holdUpEnd_of_due {u : State} (ht : t + 2000000 ≤ s.tb.frc) (hrun : s.inRun = false)
    (hu : s.acc.sessions.foldl (fun s x => s.closeSession x.id) s = u) :
    exec .holdUpEnd s = .next (((State.wr
      { u.wr R.TT_RET_FRAME_LOST (min 1 s.tt.sealedRecs.length) with
        unit := .off
        tt := { u.tt with sealedRecs := [], throughPending := [] }
        sup := { u.sup with supply := false, keep := false }
        groups := u.groups.map (fun (g : Group) => { g with supply := false }) } R.DIO_STATUS_OUT_OFF 1).evalTrips).driveAll) := by
  simp [execHoldUpEnd, hw, hrun, hu, Nat.not_lt.2 ht]

end

/-! ### Over-temperature (R475) -/

section
variable (s : State) {temp : Int}

theorem overTemperature_above (h : 1150 < temp) :
    exec (.overTemperature temp) s =
      .next ((State.wr { s.wr R.SS_TEMP (ofInt 16 temp) with sup := { s.sup with temp } } R.SS_EVENTS_TEMP 1).faultHalt 4) :=
  congrArg _ (if_pos h)

theorem overTemperature_within (h : temp ≤ 1150) :
    exec (.overTemperature temp) s = .next { s.wr R.SS_TEMP (ofInt 16 temp) with sup := { s.sup with temp } } :=
  congrArg _ (if_neg (Int.not_lt.2 h))

end

/-- Settles O27: the feeds, the warning from its rise to the end of the hold-up, then the faults that halt the unit. -/
theorem supplySupervision : Obligations.SupplySupervision :=
  ⟨fun s _ _ hn => feedOutOfRange_of_feed s hn, fun _ => ⟨rfl, rfl⟩, fun s _ _ hn => feed_beyond s hn,
    fun s _ _ hn hv => feedReconnect_of_below s hn hv, fun _ _ x hon hw hu => hu ▸ powerFailWarning_rises x hon hw,
    fun _ x h => powerFailWarning_off x h, fun _ h => powerFail_withoutWarning h,
    fun _ _ _ hw hu hl => powerFailWarningClear_beforeStop hw hu.symm hl, fun _ _ hw hl ht => latticeStop_atTick hw hl ht,
    fun _ _ hw hl ht => latticeStop_atLimit hw hl ht, fun _ _ _ _ hw ht hrun hu hv => hv ▸ holdUpEnd_of_due hw ht hrun hu.symm,
    fun _ _ => ⟨rfl, rfl, rfl, rfl⟩, fun s _ h => overTemperature_above s h, fun s _ h => overTemperature_within s h⟩

end Sys2Proof.Proofs
end

section
/-! SUPPORT. The statements about the time base: captures, steps of the time of day, reference sources, the frame period, lock groups and the
time port, the packets of the time and pair groups, idle steps and the free-running counter. -/

namespace Sys2Proof.Proofs

open Sys2Proof Sys2Proof.Machine Sys2Proof.Safety Sys2Proof.Laws

/-! ### Fields of 32 and 64 bits -/

section
variable {s : State} {lo hi r : RegRow} {i j k : Nat}

/-- A pair of 32-bit fields reads back the 64 bits written to it. -/
theorem rd64_wr64_same (v : Nat) (h : alSorted s.regs = true) (hlo : lo.width = 32) (hhi : hi.width = 32)
    (hne : lo.key i 0 ≠ hi.key i 0) : (s.wr64 lo hi v i).rd64 lo hi i = v % 2 ^ 64 := by
  have h1 : (s.wr64 lo hi v i).rd lo i = v % 2 ^ 32 := by
    rw [State.wr64, rd_wr_ne _ _ _ _ _ _ _ _ hne, rd_wr_same _ _ _ _ _ h, hlo]
  have h2 : (s.wr64 lo hi v i).rd hi i = v / 2 ^ 32 % 2 ^ 32 := by
    rw [State.wr64, rd_wr_same _ _ _ _ _ (wr_sorted _ _ _ _ _ h), hhi]
  rw [State.rd64, h1, h2]
  omega

theorem rd64_wr_ne (v : Nat) (hlo : lo.key i 0 ≠ r.key j k) (hhi : hi.key i 0 ≠ r.key j k) :
    (s.wr r v j k).rd64 lo hi i = s.rd64 lo hi i := by
  rw [State.rd64, rd_wr_ne _ _ _ _ _ _ _ _ hlo, rd_wr_ne _ _ _ _ _ _ _ _ hhi, State.rd64]

theorem rd64_wr64_ne {lo' hi' : RegRow} (v : Nat) (h1 : lo.key i 0 ≠ lo'.key j 0) (h2 : hi.key i 0 ≠ lo'.key j 0)
    (h3 : lo.key i 0 ≠ hi'.key j 0) (h4 : hi.key i 0 ≠ hi'.key j 0) :
    (s.wr64 lo' hi' v j).rd64 lo hi i = s.rd64 lo hi i := by
  rw [State.wr64, rd64_wr_ne _ h3 h4, rd64_wr_ne _ h1 h2]

theorem wr64_sorted (v : Nat) (h : alSorted s.regs = true) : alSorted (s.wr64 lo hi v i).regs = true :=
  wr_sorted _ _ _ _ _ (wr_sorted _ _ _ _ _ h)

end

/-! ### What writes leave alone -/

section
variable {s t : State} {ks : List Nat}

theorem onlyFields_refl (s : State) (ks : List Nat) : onlyFields s s ks := ⟨rfl, fun _ _ _ => rfl⟩

theorem onlyFields_wr {r : RegRow} (v i j : Nat) (h : onlyFields s t ks) (hr : r.key i j ∈ ks) : onlyFields s (t.wr r v i j) ks := by
  obtain ⟨hrest, hfields⟩ := h
  refine ⟨?_, fun d k hk => ?_⟩
  · exact congrArg (fun u : State => { u with regs := (t.wr r v i j).regs }) hrest
  · have hne : k ≠ r.key i j := fun e => hk (e ▸ hr)
    exact (alGet_alPut_other _ _ _ _ _ hne).trans (hfields d k hk)

theorem onlyFields_wr64 {lo hi : RegRow} (v i : Nat) (h : onlyFields s t ks) (hlo : lo.key i 0 ∈ ks) (hhi : hi.key i 0 ∈ ks) :
    onlyFields s (t.wr64 lo hi v i) ks :=
  onlyFields_wr _ _ _ (onlyFields_wr _ _ _ h hlo) hhi

end

/-! ### What reads of fields see -/

section
variable {s t : State}

/-- A field reads the same in states with the same fields. -/
theorem rd_congr (h : t.regs = s.regs) (r : RegRow) (i j : Nat) : t.rd r i j = s.rd r i j := by rw [State.rd, h, State.rd]

theorem bit_congr (h : t.regs = s.regs) (r : RegRow) (i j : Nat) : t.bit r i j = s.bit r i j := by
  rw [State.bit, rd_congr h, State.bit]

theorem isMember_congr (h : t.regs = s.regs) (kind index : Nat) : t.isMember kind index = s.isMember kind index := by
  simp only [State.isMember, State.lgNamed, bit_congr h, rd_congr h]

/-- Who owns the increment and the TODSET registers shows in two fields and the role. -/
theorem servoOwns_congr (hm : t.rd R.PT_SERVO_MODE = s.rd R.PT_SERVO_MODE) (hs : t.rd R.PT_STATUS_STATE = s.rd R.PT_STATUS_STATE)
    (hr : t.role = s.role) : t.servoOwns = s.servoOwns := by
  rw [State.servoOwns, State.pairOwns, hm, hs, hr, State.servoOwns, State.pairOwns]

end

/-! ### The capture of FRC and TOD (R44) -/

section
variable {s : State}

theorem snap_frc (h : alSorted s.regs = true) : s.snap.rd64 R.TB_SNAP_FRC_LO R.TB_SNAP_FRC_HI = s.tb.frc % 2 ^ 64 := by
  simp (disch := decide) only [State.snap, rd64_wr_ne, rd64_wr64_ne]
  exact rd64_wr64_same _ h rfl rfl (by decide)

theorem snap_sec (h : alSorted s.regs = true) : s.snap.rd64 R.TB_SNAP_SEC_LO R.TB_SNAP_SEC_HI = s.tb.sec % 2 ^ 64 := by
  simp (disch := decide) only [State.snap, rd64_wr_ne]
  exact rd64_wr64_same _ (wr64_sorted _ h) rfl rfl (by decide)

theorem snap_ns (h : alSorted s.regs = true) : s.snap.rd R.TB_SNAP_NS = s.tb.ns % 2 ^ 30 := by
  rw [State.snap, rd_wr_ne _ _ _ _ _ _ _ _ (by decide)]
  exact rd_wr_same _ _ _ _ _ (wr64_sorted _ (wr64_sorted _ h))

theorem snap_frac (h : alSorted s.regs = true) : s.snap.rd R.TB_SNAP_FRAC = s.tb.frac % 2 ^ 32 :=
  rd_wr_same _ _ _ _ _ (wr_sorted _ _ _ _ _ (wr64_sorted _ (wr64_sorted _ h)))

/-- The capture writes the six SNAP fields and nothing else. -/
theorem snap_only (s : State) : onlyFields s s.snap [R.TB_SNAP_FRC_LO.key 0 0, R.TB_SNAP_FRC_HI.key 0 0, R.TB_SNAP_SEC_LO.key 0 0,
    R.TB_SNAP_SEC_HI.key 0 0, R.TB_SNAP_NS.key 0 0, R.TB_SNAP_FRAC.key 0 0] :=
  onlyFields_wr _ _ _ (onlyFields_wr _ _ _ (onlyFields_wr64 _ _ (onlyFields_wr64 _ _ (onlyFields_refl s _)
    (by decide) (by decide)) (by decide) (by decide)) (by decide)) (by decide)

end

/-! ### The words of the FRC and of TB_CTRL in the register map -/

set_option maxRecDepth 10000 in
theorem fieldsAt_frcLo : fieldsAt 0x40000008 = [(R.TB_FRC_LO, 0, 0)] := by decide

set_option maxRecDepth 10000 in
theorem fieldsAt_frcHi : fieldsAt 0x4000000C = [(R.TB_FRC_HI, 0, 0)] := by decide

/-- The high word of the FRC reads as the shadow (R44). -/
theorem fieldRead_frcHi (s : State) : s.fieldRead R.TB_FRC_HI 0 0 = s.tb.frcShadow % 2 ^ 32 := by
  have hview : s.views.find? (fun v => v.1 == R.TB_FRC_HI) = some (R.TB_FRC_HI, fun _ => s.tb.frcShadow) := rfl
  rw [State.fieldRead, if_neg (by decide), hview]
  rfl

theorem regRead_frcHi (s : State) : (s.regRead 0x4000000C).2 = s.tb.frcShadow % 2 ^ 32 := by
  have hword : s.regWord 0x4000000C = s.tb.frcShadow % 2 ^ 32 := by
    rw [State.regWord, if_neg (by decide), fieldsAt_frcHi, List.foldl_cons, fieldRead_frcHi]
    simp [R.TB_FRC_HI]
  have hhart : hartAddrChan 0x4000000C = none := by decide
  have hlat : latticeAddr 0x4000000C = false := by decide
  have hwide : wideLow 0x4000000C = false := by decide
  have hlow : wideLow (0x4000000C - 4) = false := by decide
  simp [State.regRead, hhart, hlat, hwide, hlow, hword]

/-- A whole word written to the TB_ block is the block's own write. -/
theorem exec_registerWrite_tb (s : State) {a v : Nat} (h0 : 0x40000000 ≤ a) (h1 : a < 0x40010000) (h4 : a % 4 = 0) (hv : v < 2 ^ 32) :
    exec (.registerWrite a v 4) s = .next (s.tbWrite a v) := by
  have hreg : regAddr a = true := by simp [regAddr, h0, h4, Nat.lt_trans h1 (by decide : 0x40010000 < 0x40110000)]
  rw [exec_registerWrite, execRegisterWrite, if_pos rfl, Nat.mod_eq_of_lt hv, State.regWrite, if_neg (by simp [hreg]), if_pos h1]

/-- A word written to TB_CTRL orders its REF_SEL, then carries out SNAP (R38, R44). -/
theorem tbWrite_ctrl_snap (s : State) {v : Nat} (h : v / 16 % 2 = 1) : s.tbWrite 0x40000000 v = (s.refSel (v % 4)).snap := by
  have hsel : bitsOf v 0 2 = v % 4 := by simp [bitsOf]
  have hsnap : bitOf v 4 = true := Nat.testBit_eq_decide_div_mod_eq.trans (decide_eq_true h)
  simp [State.tbWrite, State.onBit, State.act, execSnap, hsel, hsnap]

/-- Settles O1: the capture field by field, then the two words of the FRC and the word of TB_CTRL in the map. -/
theorem timeBaseCaptures : Obligations.TimeBaseCaptures := by
  refine ⟨fun s h => ⟨s.snap, rfl, ?frc, snap_sec h.fields, snap_ns h.fields, snap_frac h.fields, snap_only s⟩, fun s => rfl,
    fun s => ?shadow, fun s v hv h => ?ctrl⟩
  case frc => rw [snap_frc h.fields, Nat.mod_eq_of_lt h.frc]
  case shadow => rw [regRead_frcHi, Nat.mod_mod]
  case ctrl => rw [exec_registerWrite_tb s (by decide) (by decide) (by decide) hv, tbWrite_ctrl_snap s h, exec_snap, execSnap]

/-! ### The free-running counter (R43) -/

/-- A write whose word has one field, and that RO, changes nothing (R12). -/
theorem exec_registerWrite_ro {s : State} {a : Nat} {r : RegRow} (v n : Nat) (hr : r.acc = .ro)
    (hf : fieldsAt a = [(r, 0, 0)]) (hw : ∀ w, s.regWrite a w = s.putWord a w) : exec (.registerWrite a v n) s = .next s := by
  rw [exec_registerWrite, execRegisterWrite]
  split
  · rw [hw, State.putWord, hf, List.foldl_cons, List.foldl_nil, fieldWrite_ro_wo (.inl hr)]
  · rfl

/-- In one tb TOD gains one increment (R45). -/
theorem pass_one_tod (s : State) :
    (s.pass 1).tb.sec = (s.todUnits + s.incUnits) / 2 ^ 32 / 1000000000 % 2 ^ 64 ∧
      (s.pass 1).tb.ns = (s.todUnits + s.incUnits) / 2 ^ 32 % 1000000000 ∧ (s.pass 1).tb.frac = (s.todUnits + s.incUnits) % 2 ^ 32 := by
  have h : s.todUnits + 1 * s.incUnits = s.todUnits + s.incUnits := by rw [Nat.one_mul]
  rw [← h]
  exact ⟨rfl, rfl, rfl⟩

/-- Settles O46: an idle step is the passing of one tb. -/
theorem anIdleStepPassesOneTb : Obligations.AnIdleStepPassesOneTb := by
  refine ⟨fun s h => ?idle, fun s => ?passes⟩
  case idle => rw [step, h]
  case passes =>
    obtain ⟨hsec, hns, hfrac⟩ := pass_one_tod s
    exact ⟨pass_frc s 1, hsec, hns, hfrac, pass_only s 1⟩

/-- Settles O47: the resets by their laws, the two words by the access code of their fields. -/
theorem freeRunningCounterIsNeverWritten : Obligations.FreeRunningCounterIsNeverWritten :=
  ⟨fun s => ⟨rfl, Frc.por_frc s, pass_frc s 1⟩,
    fun _ v n => ⟨exec_registerWrite_ro v n rfl fieldsAt_frcLo (fun _ => rfl), exec_registerWrite_ro v n rfl fieldsAt_frcHi (fun _ => rfl)⟩,
    fun s k => ⟨Frc.mrst_frc s k, Frc.lrst_frc s⟩⟩

/-! ### Steps of TOD and the increment (R46, R47) -/

section
variable {s : State}

@[simp] theorem toFrc_servoOwns (s : State) (t : Nat) : (s.toFrc t).servoOwns = s.servoOwns :=
  servoOwns_congr (rd_congr (toFrc_regs s t) _ _ _) (rd_congr (toFrc_regs s t) _ _ _) (toFrc_role s t)

/-- A step of TOD writes the field TOD_VALID only. -/
theorem applyStep_rd_ne (s : State) (x : TodStep) {r : RegRow} (h : r.key 0 0 ≠ R.TB_STATUS_TOD_VALID.key 0 0) :
    (s.applyStep x).rd r = s.rd r :=
  rd_wr_ne s R.TB_STATUS_TOD_VALID r 1 0 0 0 0 h

@[simp] theorem applyStep_servoOwns (s : State) (x : TodStep) : (s.applyStep x).servoOwns = s.servoOwns :=
  servoOwns_congr (applyStep_rd_ne s x (by decide)) (applyStep_rd_ne s x (by decide)) rfl

/-- An increment within the limits is written as it is. -/
theorem setInc_within {u : Nat} (h1 : incMin ≤ u) (h2 : u ≤ incMax) :
    s.setInc u = (s.wr R.TB_INC_NS (u / 2 ^ 32)).wr R.TB_INC_FRAC u := by
  simp [State.setInc, h1, h2]

/-- An increment above the limits is clamped and shown so. -/
theorem setInc_above {u : Nat} (h : incMax < u) :
    s.setInc u = ((s.wr R.TB_INC_NS (incMax / 2 ^ 32)).wr R.TB_INC_FRAC incMax).wr R.TB_STATUS_INC_CLAMP 1 := by
  have hclamp : max incMin (min incMax u) = incMax := by
    rw [Nat.min_eq_left (Nat.le_of_lt h)]
    decide
  rw [State.setInc, hclamp, if_neg (Nat.ne_of_lt h)]

theorem todArm_ahead {x : TodStep} (h : s.tb.frc ≤ x.at_) : s.todArm x = { s with tb := { s.tb with step := some x } } :=
  if_neg (Nat.not_lt.2 h)

theorem todArm_past {x : TodStep} (h : x.at_ < s.tb.frc) :
    s.todArm x = { s.wr R.TB_STATUS_SET_PAST 1 with tb := { s.tb with step := none } } := if_pos h

/-- Registers that software does not own take no write, which PT_STATUS shows (R337, R344). -/
theorem todWrites_owned (frac : Bool) (v : Nat) (h : s.servoOwns = true) :
    exec (.tbIncWrite frac v) s = .next (s.wr R.PT_STATUS_SW_IGNORED 1) ∧ exec .todsetNow s = .next (s.wr R.PT_STATUS_SW_IGNORED 1) ∧
      exec .todsetArm s = .next (s.wr R.PT_STATUS_SW_IGNORED 1) := by
  simp [execTbIncWrite, execTodsetNow, execTodsetArm, h]

variable (h : s.servoOwns = false)
include h

theorem exec_todsetNow_free : exec .todsetNow s = .next s.todNow := by simp [execTodsetNow, h]

theorem exec_todsetArm_free : exec .todsetArm s = .next (s.todArm s.todsetRegs) := by simp [execTodsetArm, h]

theorem exec_tbIncNs_free (v : Nat) : exec (.tbIncWrite false v) s = .next (s.setInc (v % 32 * 2 ^ 32 + s.rd R.TB_INC_FRAC)) := by
  simp [execTbIncWrite, h]

theorem exec_tbIncFrac_free (v : Nat) : exec (.tbIncWrite true v) s = .next (s.setInc (s.rd R.TB_INC_NS * 2 ^ 32 + v % 2 ^ 32)) := by
  simp [execTbIncWrite, h]

/-- A step that software armed takes effect at its FRC and does not show as the servo's. -/
theorem exec_todStepApply_free {x : TodStep} (hx : s.tb.step = some x) :
    exec .todStepApply s = .next ((s.toFrc x.at_).applyStep x) := by
  simp [execTodStepApply, hx, h]

end

/-- Settles O2: the four commands by who owns the registers, then by the time and the limits. -/
theorem timeOfDaySteps : Obligations.TimeOfDaySteps := by
  refine ⟨fun s h => exec_todsetNow_free h, fun s h ha => ?ahead, fun s h ha => ?past, fun s x hx h => exec_todStepApply_free h hx,
    fun s v h h1 h2 => ?within, fun s v h hv => ?above, fun s frac v h => todWrites_owned frac v h⟩
  case ahead => rw [exec_todsetArm_free h, todArm_ahead ha]
  case past => rw [exec_todsetArm_free h, todArm_past ha]
  case within => rw [exec_tbIncNs_free h, setInc_within h1 h2]
  case above => rw [exec_tbIncFrac_free h, setInc_above hv]

/-! ### Reference sources (R38, R40 to R42) -/

section
variable {s : State}

theorem refSel_external (h : s.unit = .stop) :
    s.refSel 2 = { s.wr R.TB_CTRL_REF_SEL 2 with tb := { s.tb with oscOrder := none, extOrdered := true } } :=
  if_pos (by simp [State.inStop, h])

/-- No source has the number 3. -/
theorem refSel_three {v : Nat} (h : v % 4 = 3) : s.refSel v = s := by simp only [State.refSel, h]

/-- An ordered switch is due once a frame has begun after the order. -/
theorem plannedOscSwitch_due {v f : Nat} (ho : s.tb.oscOrder = some (v, f)) (hf : f < s.tb.frameNo) :
    exec .plannedOscSwitch s = .next (((s.toFrc (s.tb.lastTick + s.P * 19 / 20)).refTo v).wr R.TB_OSC_EVENT_PLANNED 1) := by
  simp [execPlannedOscSwitch, ho, hf]

theorem externalLock_ordered (ho : s.tb.extOrdered = true) (hu : s.unit = .stop) :
    exec .externalLock s =
      .next { (s.wr R.TB_STATUS_EXT_LOCK 1).wr R.TB_STATUS_REF_ACTIVE 2 with tb := { s.tb with extOrdered := false } } :=
  congrArg _ (if_pos (by simp [ho, State.inStop, hu]))

end

/-- Settles O3: each switch by the source in use and what is ordered. -/
theorem oscillatorsAndExternalReference : Obligations.OscillatorsAndExternalReference := by
  refine ⟨fun s h => ?primary, fun s h => ?spare, fun s v f ho hf => plannedOscSwitch_due ho hf,
    fun s h => congrArg _ (refSel_external h), fun s v h => congrArg _ (refSel_three h),
    fun s ho hu => externalLock_ordered ho hu, fun s h => congrArg _ (if_pos h)⟩
  case primary => simp only [exec_unplannedOscSwitch, execUnplannedOscSwitch, h]
  case spare => simp only [exec_unplannedOscSwitch, execUnplannedOscSwitch, h]

/-! ### The frame period (R49, R53) -/

section
variable {s : State} (hl : s.lockOpen = true)
include hl

theorem framePeriodWrite_valid {w : Nat} (hu : s.unit = .stop) (h1 : 25 ≤ bitsOf w 0 11) (h2 : bitsOf w 0 11 ≤ 2000)
    (hd : bitsOf w 0 11 * 1000 % (bitsOf w 16 8 + 1) = 0) :
    exec (.framePeriodWrite w) s = .next ((s.wr R.TT_FRAME_PERIOD (bitsOf w 0 11)).wr R.TT_FRAME_PERIOD_SUBFRAMES (bitsOf w 16 8)) := by
  simp [execFramePeriodWrite, hl, State.inStop, hu, h1, h2, hd]

theorem framePeriodWrite_outsideStop (w : Nat) (hu : s.unit ≠ .stop) :
    exec (.framePeriodWrite w) s = .next (s.wr R.TT_ALIGN_STATUS_CFG_ERR 1) := by
  simp [execFramePeriodWrite, hl, State.inStop, hu]

/-! ### Lock groups: configuration (R54, R55, R59) -/

/-- TIME, NS and PHASE of a lock group take the word as it stands. -/
theorem lgConfigWrite_plainWords {g : Nat} (v : Nat) (hg : g < 32) :
    exec (.lgConfigWrite g 8 v) s = .next (s.wr R.TB_LG_TIME_LO v g) ∧ exec (.lgConfigWrite g 12 v) s = .next (s.wr R.TB_LG_TIME_HI v g) ∧
      exec (.lgConfigWrite g 16 v) s = .next (s.wr R.TB_LG_NS v g) ∧ exec (.lgConfigWrite g 28 v) s = .next (s.wr R.TB_LG_PHASE v g) := by
  simp [execLgConfigWrite, Nat.not_le.2 hg, hl]

theorem lgMemberWrite_valid {m v : Nat} (hm : m < 512) (hok : s.lgmOk m v = true) :
    exec (.lgMemberWrite m v) s = .next ((((s.wr R.TB_LGM_INDEX v m).wr R.TB_LGM_KIND (bitsOf v 8 4) m).wr R.TB_LGM_LG (bitsOf v 16 5) m).wr
      R.TB_LGM_VALID (bitsOf v 31 1) m) := by
  simp [execLgMemberWrite, Nat.not_le.2 hm, hl, hok]

end

/-! ### Lock groups: arming and firing (R54, R60) -/

section
variable {s : State} {g : Nat}

theorem exec_lgOneShotArm_of_lt (hg : g < 32) : exec (.lgOneShotArm g) s = .next (s.lgArm g) := congrArg _ (if_pos hg)

/-- A mode-2 group waits for an FRC. -/
theorem lgPast_modeTwo (hm : s.rd R.TB_LG_MODE g = 2) :
    s.lgPast g = decide (s.rd64 R.TB_LG_TIME_LO R.TB_LG_TIME_HI g < s.tb.frc) := if_pos hm

theorem lgArm_ahead (hm : s.rd R.TB_LG_MODE g = 2) (ht : s.tb.frc ≤ s.rd64 R.TB_LG_TIME_LO R.TB_LG_TIME_HI g) (hn : g ∉ s.tb.armed) :
    s.lgArm g = { s with tb := { s.tb with armed := g :: s.tb.armed } } := by
  simp [State.lgArm, lgPast_modeTwo hm, hm, Nat.not_lt.2 ht, hn]

theorem lgArm_past (hm : s.rd R.TB_LG_MODE g = 2) (ht : s.rd64 R.TB_LG_TIME_LO R.TB_LG_TIME_HI g < s.tb.frc) :
    s.lgArm g = { s.wr R.TB_LG_PAST 1 g with tb := { s.tb with armed := s.tb.armed.filter (· != g) } } := by
  simp [State.lgArm, lgPast_modeTwo hm, hm, ht]

/-- A periodic group whose frame is in progress and which has not fired in it fires at its offset. -/
theorem lgFire_periodic (caps : List (Nat × Meas)) (hg : g < 32) (hm : s.rd R.TB_LG_MODE g = 1)
    (hsel : s.tb.frameNo % s.lgN g = s.rd R.TB_LG_PHASE g % s.lgN g) (hin : s.tb.lastTick + s.rd R.TB_LG_OFFSET g < s.nextTick)
    (hdue : s.tb.frc ≤ s.tb.lastTick + s.rd R.TB_LG_OFFSET g) (hnot : s.tb.fired.contains g = false) :
    exec (.lgFire g caps) s = .next ((s.toFrc (s.tb.lastTick + s.rd R.TB_LG_OFFSET g)).firePeriodic g caps) := by
  have hsel' : s.lgSelects g s.tb.frameNo = true := beq_iff_eq.2 hsel
  rw [exec_lgFire, execLgFire, if_neg (Nat.not_le.2 hg), hm]
  simp only [hsel', hin, hdue, hnot, decide_true, Bool.not_false, Bool.and_self, if_true]

end

/-! ### The time port (R62, R63) -/

/-- The fields that show an edge at PPS in: FRC, TOD in units of 2⁻³² ns, and that one was seen. -/
def ppsStamp (s : State) (u : Nat) : State :=
  ((((s.wr64 R.TB_PPS_FRC_LO R.TB_PPS_FRC_HI s.tb.frc).wr64 R.TB_PPS_SEC_LO R.TB_PPS_SEC_HI (u / 2 ^ 32 / 1000000000)).wr
    R.TB_PPS_NS (u / 2 ^ 32 % 1000000000)).wr R.TB_PPS_FRAC u).wr R.TB_TP_STATUS_PPS_SEEN 1

/-- What `t` shows of an edge at PPS in that came in `s`. -/
structure PpsShown (s t : State) : Prop where
  now : t.tb.frc = s.tb.frc
  stamp : t.rd64 R.TB_PPS_FRC_LO R.TB_PPS_FRC_HI = s.tb.frc
  seen : t.rd R.TB_TP_STATUS_PPS_SEEN = 1
  mem : t.mem = s.mem

section
variable {s : State}

theorem ppsStamp_shown (u : Nat) (h : Sound s) : PpsShown s (ppsStamp s u) where
  now := rfl
  stamp := by
    simp (disch := decide) only [ppsStamp, rd64_wr_ne, rd64_wr64_ne]
    rw [rd64_wr64_same _ h.fields rfl rfl (by decide), Nat.mod_eq_of_lt h.frc]
  seen := rd_wr_same _ _ _ _ _ (wr_sorted _ _ _ _ _ (wr_sorted _ _ _ _ _ (wr64_sorted _ (wr64_sorted _ h.fields))))
  mem := rfl

/-- Marking the edge as too fast leaves what is shown of it. -/
theorem ppsShown_fast {t : State} (fast : Bool) (h : PpsShown s t) :
    PpsShown s (if fast = true then t.wr R.TB_TP_STATUS_PPS_FAST 1 else t) := by
  split
  · exact ⟨h.now, (rd64_wr_ne _ (by decide) (by decide)).trans h.stamp, (rd_wr_ne _ _ _ _ _ _ _ _ (by decide)).trans h.seen, h.mem⟩
  · exact h

/-- An edge is shown whether or not it comes too fast after the one before. -/
theorem ppsInEdge_shown (sub : Nat) (he : s.bit R.TB_TP_CTRL_PPS_IN_EN = true) (h : Sound s) :
    ∃ t, exec (.ppsInEdge sub) s = .next t ∧ t.tb.lastPps = some (32 * s.tb.frc + sub % 32) ∧ PpsShown s t := by
  rw [exec_ppsInEdge, execPpsInEdge, if_neg (by simp [he])]
  extract_lets u edge fast _ _ _ _ shown
  have hshown : PpsShown s shown := ppsShown_fast fast (ppsStamp_shown u h)
  exact ⟨_, rfl, rfl, hshown.now, hshown.stamp, hshown.seen, hshown.mem⟩

/-- The output pulses at the next second boundary unless a lock group has it. -/
theorem ppsOutPulse_next {sec : Nat} {e : Int} (hn : s.nextPps = some (sec, e)) (he : s.bit R.TB_TP_CTRL_PPS_OUT_EN = true)
    (hm : s.isMember 7 0 = false) : exec .ppsOutPulse s = .next ((s.toFrc (e.toNat / 32)).ppsPulse sec e) := by
  have hregs := toFrc_regs s (e.toNat / 32)
  simp [execPpsOutPulse, hn, bit_congr hregs, he, isMember_congr hregs, hm]

theorem toFrc_ppsWidth (s : State) (t : Nat) : (s.toFrc t).ppsWidth = s.ppsWidth := by
  rw [State.ppsWidth, rd_congr (toFrc_regs s t), State.ppsWidth]

/-- What leaves at the time port with a pulse: its second, width and place. -/
theorem toFrc_ppsPulse_sent (s : State) (t sec : Nat) (e : Int) :
    ((s.toFrc t).ppsPulse sec e).sent = ⟨.timePort, .pps, [sec, s.ppsWidth, e.toNat / 32, e.toNat % 32], []⟩ :: s.sent := by
  rw [← toFrc_ppsWidth s t, ← toFrc_sent s t]
  rfl

end

/-- Settles O4: the frame period, the configuration words, arming and firing, then the two directions of the time port. -/
theorem framePeriodAndLockGroups : Obligations.FramePeriodAndLockGroups := by
  refine ⟨fun s w hl hu h1 h2 hd => framePeriodWrite_valid hl hu h1 h2 hd, fun s w hl hu => framePeriodWrite_outsideStop hl w hu,
    fun s g v hg hl => lgConfigWrite_plainWords hl v hg, fun s m v hm hl hok => lgMemberWrite_valid hl hm hok,
    fun s g hg hm ht hn => ?armed, fun s g hg hm ht => ?past,
    fun s g caps hg hm hsel hin hdue hnot => lgFire_periodic caps hg hm hsel hin hdue hnot, fun s sub he h => ?edge,
    fun s sec e hn he hm => ?pulse⟩
  case armed => rw [exec_lgOneShotArm_of_lt hg, lgArm_ahead hm ht hn]
  case past => rw [exec_lgOneShotArm_of_lt hg, lgArm_past hm ht]
  case edge =>
    obtain ⟨t, ht, hedge, hshown⟩ := ppsInEdge_shown sub he h
    exact ⟨t, ht, hedge, hshown.now, hshown.stamp, hshown.seen, hshown.mem⟩
  case pulse => exact ⟨_, ppsOutPulse_next hn he hm, rfl, rfl, toFrc_ppsPulse_sent s _ sec e⟩

/-! ### Packets of the time and pair groups (R384) -/

section
variable (s : State) (r : Req) (c : Cmd)

@[simp] theorem takeReq_role : (s.takeReq r c).role = s.role := by rw [takeReq_frame]
@[simp] theorem takeReq_pair : (s.takeReq r c).pair = s.pair := by rw [takeReq_frame]

@[simp] theorem takeReq_handoverHolder : (s.takeReq r c).acc.handoverHolder = s.acc.handoverHolder := by
  unfold State.takeReq
  split <;> rfl

@[simp] theorem takeReq_servoOwns : (s.takeReq r c).servoOwns = s.servoOwns :=
  servoOwns_congr (takeReq_rd s r c _ 0 0) (takeReq_rd s r c _ 0 0) (takeReq_role s r c)

/-- The time of a lock group is read off the time base and the fields. -/
@[simp] theorem takeReq_lgTime (g : Nat) (w : Time) : (s.takeReq r c).lgTime g w = s.lgTime g w := by
  rw [takeReq_frame]
  rfl

/-- A resource that no session holds is open to every session. -/
theorem heldBy_none (f : State → State) : s.heldBy r c none f = f s := rfl

end

/-- Settles O39: every packet passes the gate, and its body runs on a state that differs in the command service alone. -/
theorem timeAndPairCommands : Obligations.TimeAndPairCommands := by
  refine ⟨fun s r hp => command_next hp (by decide) rfl, fun s r a b c d hp ho => command_next hp (by decide) ?todOwned,
    fun s r a b c hp ho => command_next hp (by decide) ?todNow, fun s r a b c d hp ho hd => command_next hp (by decide) ?todArm,
    fun s r a b hp ho => command_next hp (by decide) ?inc, fun s r a b hp ho => command_next hp (by decide) ?incOwned,
    fun s r a b hp ha hb => command_next hp (by decide) ?servo, fun s r g w n m hp hg ht => command_next hp (by decide) ?lgArm,
    fun s r n hp hn => command_next hp (by decide) ?ref, fun s r hp hu => command_next hp (by decide) ?refExternal,
    fun s r hp hu => command_next hp (by decide) ?refOutsideStop, fun s r hp => command_next hp (by decide) rfl,
    fun s r q hp hu he hj => command_next hp (by decide) ?join, fun s r q hp hu he => command_next hp (by decide) ?joinAlone,
    fun s r q hp hu => command_next hp (by decide) ?joinOutsideStop, fun s r hp hu => command_next hp (by decide) ?leave,
    fun s r hp hu => command_next hp (by decide) ?leaveOutsideRun, fun s r n hp hh => command_next hp (by decide) ?handover,
    fun s r hp hh => command_next hp (by decide) ?cancel, fun s r a b c hp ha hb hc => command_next hp (by decide) ?cfg⟩
  case todOwned => simp [ho]
  case todNow => simp [ho]
  case todArm => simp [ho, hd]
  case inc => simp [ho]
  case incOwned => simp [ho]
  case servo => simp [inRange_of, ha, hb]
  case lgArm =>
    rw [inRange_of (by simpa using hg), takeReq_lgTime, ht]
  case ref => simp [inRange_of, Nat.lt_succ_of_lt hn, Nat.ne_of_lt hn]
  case refExternal => simp [inRange_of, hu]
  case refOutsideStop => simp [inRange_of, hu]
  case join => simp [hu, he, hj]
  case joinAlone => simp [hu, he]
  case joinOutsideStop => simp [hu]
  case leave => simp [require_of, hu]
  case leaveOutsideRun => simp [require_of_not, hu]
  case handover => simp only [takeReq_handoverHolder, hh, heldBy_none]
  case cancel => rw [takeReq_handoverHolder, hh, heldBy_none]
  case cfg => rw [inRange_of (by simpa using ha), inRange_of hb, inRange_of hc]

end Sys2Proof.Proofs
end

section
/-! SUPPORT. The statements about the timetable contract: memory, the tile operations, engine calls and transfers, admission, relocation and
shadows of a tile, and the packets of the maintenance group. -/

namespace Sys2Proof.Proofs

open Sys2Proof Sys2Proof.Machine Sys2Proof.Safety Sys2Proof.Laws

/-! ### Memory (R67 to R69) -/

theorem bytes_succ (s : State) (a n : Nat) : s.bytes a (n + 1) = s.byte a :: s.bytes (a + 1) n := by
  simp [State.bytes, List.range_succ_eq_map, Function.comp_def, Nat.add_assoc, Nat.add_comm 1]

/-- A write stores its first byte and then the rest from the next address on. -/
theorem setBytes_cons (s : State) (a : Nat) (b : Byte) (d : Bytes) : s.setBytes a (b :: d) = (s.setByte a b).setBytes (a + 1) d := rfl

theorem setByte_sorted {s : State} (a : Nat) (b : Byte) (h : alSorted s.mem = true) : alSorted (s.setByte a b).mem = true :=
  alPut_sorted 0 a b h

/-- The bytes written read back. -/
theorem bytes_setBytes_same {s : State} (a : Nat) (d : Bytes) (h : alSorted s.mem = true) : (s.setBytes a d).bytes a d.length = d := by
  induction d generalizing s a with
  | nil => rfl
  | cons b d ih =>
    have hfirst : ((s.setByte a b).setBytes (a + 1) d).byte a = b := by
      rw [byte_setBytes_other _ _ _ _ (.inl (Nat.lt_succ_self a)), byte_setByte_same s a b h]
    rw [List.length_cons, bytes_succ, setBytes_cons, hfirst, ih (a + 1) (setByte_sorted a b h)]

theorem sound_mem_sorted {s : State} (h : Sound s) : alSorted s.mem = true := by
  have hm := h.memory
  simp only [memoryWf, Bool.and_eq_true] at hm
  exact hm.1

theorem setBytes_sound {s : State} (a : Nat) (d : Bytes) (h : Sound s) : Sound (s.setBytes a d) :=
  ⟨memoryWf_cellsPut a d h.memory, h.fields, h.frc, h.ram, h.flash⟩

/-- Settles O54: a write is a row of byte writes into a sorted association list. -/
theorem memoryReadsAfterWrite : Obligations.MemoryReadsAfterWrite :=
  ⟨fun _ a d h => ⟨bytes_setBytes_same a d (sound_mem_sorted h), setBytes_sound a d h⟩,
   fun s a x d h => byte_setBytes_other s a x d h⟩

/-! ### Checks of the tile operations (R99) -/

theorem regsOk_iff {rs : List Nat} : (regsOk rs).2 = true ↔ ∀ r ∈ rs, r < 64 := by
  simp [regsOk]

theorem cycleOk_iff {s : State} {t : Nat} : (s.cycleOk t).2 = true ↔ t < s.G := decide_eq_true_iff

theorem sramOk_iff {a n : Nat} : (sramOk a n).2 = true ↔ a + n ≤ 0x20000 := decide_eq_true_iff

theorem locOk_g_iff {r n : Nat} : (locOk (.g r) n).2 = true ↔ r + (n + 3) / 4 ≤ 64 := decide_eq_true_iff

theorem sizeOk_iff {off n : Nat} : (sizeOk off n).2 = true ↔ [4, 8, 16, 32].contains n = true ∧ off + n ≤ 32 := by
  rw [sizeOk, Bool.and_eq_true, decide_eq_true_iff]

theorem divOk_iff {s : State} {i : Issue} : (s.divOk i).2 = true ↔ (s.tile (s.physTile i.tile)).divFree ≤ i.t := decide_eq_true_iff

/-- The way to a destination router: W and D fit, and D reaches it (R80, R82). -/
theorem meshOk_iff {s : State} {l : Nat} {m : Mesh} {dest : Nat × Nat} :
    (∀ x ∈ s.meshOk l m dest, x.2 = true) ↔ hops (s.routerOf l) dest ≤ m.d ∧ m.w ≤ 15 ∧ m.d ≤ 10 := by
  simp [State.meshOk]

/-- An operation that cannot issue changes nothing, whatever it names (R76). -/
theorem issue_of_blocked {s : State} {i : Issue} (bad : Option Nat) (f : State → State) (h : s.canIssue i = false) :
    s.issue i bad f = .next s := by
  simp [State.issue, h]

/-- An operation that can issue and fails its first check stops with the code of that check (R99). -/
theorem issue_of_fails {s : State} {i : Issue} {x : Nat × Bool} {l : List (Nat × Bool)} (f : State → State) (h : s.canIssue i = true)
    (hx : x.2 = false) : s.issue i (firstBad (x :: l)) f = .fault (.outsideContract x.1) := by
  simp [State.issue, h, firstBad, hx]

/-! ### Arithmetic of the tiles (R70, R71) -/

section
variable {s : State} {i : Issue} {rs : List Nat} (hi : s.canIssue i = true) (hr : ∀ r ∈ rs, r < 64) (ht : i.t < s.G) (f : State → State)
include hi hr ht

/-- An operation that names registers below 64 and issues before the guard band passes its checks. -/
theorem issue_of_regs : s.issue i (firstBad [regsOk rs, s.cycleOk i.t]) f = .next (f (s.startIssue i)) :=
  issue_of_passes f hi (by simp [regsOk_iff.2 hr, cycleOk_iff.2 ht])

/-- The same where the operation takes an operand of its own kind beside its registers. -/
theorem issue_of_regs_operand {c : Nat} {ok : Bool} (hok : ok = true) :
    s.issue i (firstBad [regsOk rs, (c, ok), s.cycleOk i.t]) f = .next (f (s.startIssue i)) :=
  issue_of_passes f hi (by simp [regsOk_iff.2 hr, hok, cycleOk_iff.2 ht])

/-- The same on a divider that is free. -/
theorem issue_of_divider (hf : (s.tile (s.physTile i.tile)).divFree ≤ i.t) :
    s.issue i (firstBad [regsOk rs, s.divOk i, s.cycleOk i.t]) f = .next (f (s.startIssue i)) :=
  issue_of_passes f hi (by simp [regsOk_iff.2 hr, divOk_iff.2 hf, cycleOk_iff.2 ht])

end

section
variable {s : State} {i : Issue} {d a b n : Nat}

/-- A division that can issue and names registers below 64 completes whatever its operands hold (R71). -/
theorem div_next (hi : s.canIssue i = true) (hd : d < 64) (ha : a < 64) (hb : b < 64) (hn : 2 * n < 64)
    (hf : (s.tile (s.physTile i.tile)).divFree ≤ i.t) (ht : i.t < s.G) :
    exec (.div i d a b n) s = .next ((s.startIssue i).eachTile i (fun s p =>
      (s.useDiv p i.t).result p i.t 18 d (divVal (s.gri p a) (s.gri p b) n).1 (divVal (s.gri p a) (s.gri p b) n).2)) := by
  rw [exec_div, execDiv, issue_of_divider hi (by simp [hd, ha, hb, hn]) ht _ hf]

/-- A register above 63 is outside the contract (R99). -/
theorem aluImm_fails (v : Word) (hi : s.canIssue i = true) (hd : 64 ≤ d) :
    exec (.aluOp i (.imm d v)) s = .fault (.outsideContract 0x3108) := by
  rw [exec_aluOp]
  exact issue_of_fails _ hi (by simp [regsOk, aluRegs, hd])

end

theorem divVal_zero (a : Int) (n : Nat) :
    divVal a 0 n = ((if 0 < a then 2 ^ 31 - 1 else if a < 0 then 2 ^ 31 else 0, false), tsrDivz) := if_pos rfl

/-- Settles O5: each operation past its checks has its effect in every tile that runs it; the rest by the checks. -/
theorem tileArithmetic : Obligations.TileArithmetic := by
  refine ⟨fun s i f d a b hi hd ha hb ht => ?alu, fun s i d v hi hd ht => ?imm, fun s i d a b hi hd ha hb ht => ?sat,
    fun s i d a b n hi hd ha hb hn ht => ?mul, fun s i x a b hi ha hb hx ht => ?mac, fun s i d x n hi hd hx hn ht => ?accrd,
    fun s i d a b n hi hd ha hb hn hf ht => div_next hi hd ha hb hn hf ht, fun s i d a n hi hd ha hn hf ht => ?sqrt,
    divVal_zero, fun s i d v hi hd => aluImm_fails v hi hd, fun s i o hi => ?blocked, fun s p => rfl⟩
  case alu => rw [exec_aluOp, execAluOp, issue_of_regs hi (by simp [aluRegs, hd, ha, hb]) ht]; rfl
  case imm => rw [exec_aluOp, execAluOp, issue_of_regs hi (by simp [aluRegs, hd]) ht]; rfl
  case sat => rw [exec_satOp, execSatOp, issue_of_regs hi (by simp [satRegs, hd, ha, hb]) ht]; rfl
  case mul => rw [exec_mul, execMul, issue_of_regs hi (by simp [hd, ha, hb, hn]) ht]
  case mac => rw [exec_mac, execMac, issue_of_regs_operand hi (by simp [ha, hb]) ht _ (decide_eq_true hx)]
  case accrd => rw [exec_accrd, execAccrd, issue_of_regs_operand hi (by simp [hd]) ht _ (by simp [hx, hn])]
  case sqrt => rw [exec_sqrt, execSqrt, issue_of_divider hi (by simp [hd, ha, hn]) ht _ hf]
  case blocked => rw [exec_aluOp, execAluOp, issue_of_blocked _ _ hi]

/-! ### Division corners (R71) -/

/-- A number above the format is limited to its largest value (R70). -/
theorem satInt_of_above {v : Int} (h : 2 ^ 31 ≤ v) : satInt 32 v = 2 ^ 31 - 1 := by
  simp only [satInt]
  omega

/-- A number below the format is limited to its most negative value (R70). -/
theorem satInt_of_below {v : Int} (h : v < -(2 ^ 31)) : satInt 32 v = -(2 ^ 31) := by
  simp only [satInt]
  omega

theorem satInt_of_within {v : Int} (hl : -(2 ^ 31) ≤ v) (hh : v < 2 ^ 31) : satInt 32 v = v := by
  simp only [satInt]
  omega

/-- A word is marked saturated where limiting changed the number. -/
theorem satWord_of_satInt {v w : Int} (h : satInt 32 v = w) : satWord v = (ofInt 32 w, w != v) := by
  rw [satWord, overflows, h]

theorem satWord_of_above {v : Int} (h : 2 ^ 31 ≤ v) : satWord v = (2 ^ 31 - 1, true) := by
  rw [satWord_of_satInt (satInt_of_above h), bne_iff_ne.2 (by omega : (2 ^ 31 - 1 : Int) ≠ v)]
  rfl

theorem satWord_of_below {v : Int} (h : v < -(2 ^ 31)) : satWord v = (2 ^ 31, true) := by
  rw [satWord_of_satInt (satInt_of_below h), bne_iff_ne.2 (by omega : (-(2 ^ 31) : Int) ≠ v)]
  rfl

theorem satWord_of_within {v : Int} (hl : -(2 ^ 31) ≤ v) (hh : v < 2 ^ 31) : satWord v = (ofInt 32 v, false) := by
  rw [satWord_of_satInt (satInt_of_within hl hh), bne_self_eq_false]

/-- Settles O48: the divisor decides the first two cases, the sign of the operand the third, its place beside the format the saturation. -/
theorem divisionCorners : Obligations.DivisionCorners :=
  ⟨divVal_zero, fun _ _ _ hb => if_neg hb, fun _ _ ha => if_neg (Int.not_lt.2 ha), fun _ h => satWord_of_above h,
    fun _ h => satWord_of_below h, fun _ hl hh => satWord_of_within hl hh,
    fun _ _ _ _ _ _ hi hd ha hb hn hf ht => div_next hi hd ha hb hn hf ht⟩

/-! ### Counters -/

section
variable (s : State) (r : RegRow) (i j : Nat)

/-- Counting changes register fields alone. -/
theorem inc_frame : s.inc r i j = { s with regs := (s.inc r i j).regs } := by
  unfold State.inc
  split <;> rfl

@[simp] theorem inc_lat : (s.inc r i j).lat = s.lat := by rw [inc_frame]
@[simp] theorem inc_tb : (s.inc r i j).tb = s.tb := by rw [inc_frame]

end

/-! ### Control flow, digest and marker (R73, R74, R76, R92, R93) -/

section
variable {s : State} {i : Issue} (hi : s.canIssue i = true)
include hi

theorem br_next {c t : Nat} (hc : c < 64) (hb : t < 4096) (ht : i.t < s.G) :
    exec (.br i c t) s = .next ((s.startIssue i).eachTile i (fun s p =>
      if Config.truth (s.gr p c) then s.updTile p (fun x => { x with branch := some (t, 1) }) else s)) := by
  rw [exec_br, execBr, issue_of_regs_operand hi (by simp [hc]) ht _ (decide_eq_true hb)]

theorem loopn_next {n a b : Nat} (hb : b < 4096) (hab : a < b) (hn : 1 ≤ n) (hl : (s.tile (s.physTile i.tile)).loops.length < 4)
    (ht : i.t < s.G) :
    exec (.loopn i n a b) s = .next ((s.startIssue i).eachTile i (fun s p =>
      s.updTile p (fun x => { x with loops := { first := a, last := b, left := n } :: x.loops }))) := by
  rw [exec_loopn, execLoopn, issue_of_passes _ hi (by simp [hb, hab, hn, hl, cycleOk_iff.2 ht])]

theorem wait_next {n : Nat} (hn : 1 ≤ n) (hm : n ≤ 65536) (ht : i.t < s.G) :
    exec (.wait i n) s = .next ((s.startIssue i).eachTile i (fun s p => s.updTile p (fun x => { x with idle := i.t + n }))) := by
  rw [exec_wait, execWait, issue_of_passes _ hi (by simp [hn, hm, cycleOk_iff.2 ht])]

theorem endf_next (ht : i.t < s.G) :
    ∃ u, u = (s.startIssue i).eachTile i (fun s p => s.updTile p (fun x => { x with ended := some (i.t + 1) })) ∧
      exec (.endf i) s = .next (if (u.shadowsOf i.tile).isEmpty then u else u.bus (i.t + 1) false (.shadowHash i.tile)) := by
  refine ⟨_, rfl, ?_⟩
  rw [exec_endf, execEndf, issue_of_passes _ hi (by simp [cycleOk_iff.2 ht])]

section
variable {m : Mesh} (hh : hops (s.routerOf i.tile) (attachAt attachExch) ≤ m.d) (hw : m.w ≤ 15) (hd : m.d ≤ 10)
include hh hw hd

theorem dabs_next {addr : Nat} (e : Ecc) (ha : addr + 32 ≤ 0x20000) (ht : meshAt m i.t < s.G) :
    exec (.dabs i m addr e) s = .next (((s.startIssue i).source i (.sram addr) 32 e).1.bus (meshAt m i.t) false
      (.absorb i.tile addr ((s.startIssue i).source i (.sram addr) 32 e).2)) := by
  rw [exec_dabs, execDabs, issue_of_passes _ hi]
  exact List.forall_mem_append.2 ⟨meshOk_iff.2 ⟨hh, hw, hd⟩, by simp [sramOk_iff.2 ha, cycleOk_iff.2 ht]⟩

theorem dseal_next (h0 : i.tile = 0) (hs : s.sealing = false) (hl : s.digestLate (meshAt m i.t) = false)
    (ht : meshAt m i.t + 256 < s.G) : exec (.dseal i m) s = .next ((s.startIssue i).bus (meshAt m i.t) false .seal) := by
  rw [exec_dseal, execDseal, issue_of_passes _ hi]
  exact List.forall_mem_append.2 ⟨meshOk_iff.2 ⟨hh, hw, hd⟩, by simp [h0, hs, hl, cycleOk_iff.2 ht]⟩

end

/-- What FCM of T0 needs: the digest sealed, no marker yet, no work left at its cycle, which the frame still holds, and no suppression (R72, R93). -/
structure MarkerDue (s u : State) (i : Issue) : Prop where
  tile : i.tile = 0
  sealed : (s.settleThrough i.t).lat.sealed.isSome = true
  unmarked : s.lat.marker = false
  idle : (s.settle (i.t + 2)).workLeft (i.t + 2) = false
  inFrame : (s.startIssue i).tb.lastTick + (i.t + 2) / 8 < (s.startIssue i).nextTick
  state : u = ((s.startIssue i).toCycle (i.t + 2)).settle (i.t + 2)
  unsuppressed : u.lat.suppress = false

/-- The marker is posted in the state two cycles after issue; one in the guard band counts as late (R34, R93). -/
theorem fcm_next {u : State} (h : MarkerDue s u i) :
    exec (.fcm i) s =
      .next (let v : State := { u with lat := { u.lat with marker := true, markerLate := decide (u.G ≤ i.t + 2) } }
        let w := if u.G ≤ i.t + 2 then (v.wr R.SS_EVENTS_LATE 1).inc R.SS_LATE else v
        w.sealRecord.emit .partner .mark [w.tb.frameNo]) := by
  obtain ⟨h0, hs, hm, hw, hf, hu, hsup⟩ := h
  rw [exec_fcm, execFcm, issue_of_passes _ hi (by simp [h0, hs, hm, hw]), if_neg (Nat.not_le.2 hf), ← hu]
  simp only [hsup, decide_eq_true_eq, Bool.false_eq_true, if_false]

end

/-- Settles O6: each operation past its checks, the marker by whether its cycle lies in the guard band. -/
theorem tileControlFlow : Obligations.TileControlFlow := by
  refine ⟨fun _ _ _ _ hi hc hb ht => br_next hi hc hb ht, fun _ _ _ _ _ hi hb hab hn hl ht => loopn_next hi hb hab hn hl ht,
    fun _ _ _ hi hn hm ht => wait_next hi hn hm ht, fun _ _ hi ht => endf_next hi ht,
    fun _ _ _ _ e hi hh hw hd ha ht => dabs_next hi hh hw hd e ha ht,
    fun _ _ _ hi h0 hh hw hd hs hl ht => dseal_next hi hh hw hd h0 hs hl ht,
    fun s u i hi h0 hs hm hw hf hu hsup ht => ?inTime, fun s u i hi h0 hs hm hw hf hu hsup ht => ?late, fun _ => rfl⟩
  case inTime => simp [fcm_next hi ⟨h0, hs, hm, hw, hf, hu, hsup⟩, Nat.not_le.2 ht]
  case late => simp [fcm_next hi ⟨h0, hs, hm, hw, hf, hu, hsup⟩, ht]

/-! ### Local memory, receive buffer and mesh (R70, R72, R78, R80) -/

section
variable {s : State} {i : Issue} (hi : s.canIssue i = true)
include hi

theorem lld_next {d addr n : Nat} (e : Ecc) (ha : addr + n ≤ 0x20000) (hs : [4, 8, 16, 32].contains n = true) (hn : n ≤ 32)
    (hd : d + (n + 3) / 4 ≤ 64) (ht : i.t < s.G) :
    exec (.lld i d addr n e) s =
      .next ((s.startIssue i).eachTile i (fun s p => s.localRead i p (Config.sramBase p + addr) n (.g d) e)) := by
  have hz : (sizeOk 0 n).2 = true := sizeOk_iff.2 ⟨hs, (Nat.zero_add n).symm ▸ hn⟩
  rw [exec_lld, execLld, issue_of_passes _ hi (by simp [sramOk_iff.2 ha, hz, locOk_g_iff.2 hd, cycleOk_iff.2 ht])]

theorem lst_next {r addr n : Nat} (ha : addr + n ≤ 0x20000) (hs : [4, 8, 16, 32].contains n = true) (hn : n ≤ 32)
    (hr : r + (n + 3) / 4 ≤ 64) (ht : i.t < s.G) :
    exec (.lst i r addr n) s =
      .next ((s.startIssue i).eachTile i (fun s p => s.pend p (i.t + 1) (.sram addr) (wordsOf (s.locBytes p (.g r) n)))) := by
  have hz : (sizeOk 0 n).2 = true := sizeOk_iff.2 ⟨hs, (Nat.zero_add n).symm ▸ hn⟩
  rw [exec_lst, execLst, issue_of_passes _ hi (by simp [sramOk_iff.2 ha, hz, locOk_g_iff.2 hr, cycleOk_iff.2 ht])]

/-- A store beyond the data SRAM is outside the contract (R67, R99). -/
theorem lst_fails {r addr n : Nat} (ha : 0x20000 < addr + n) : exec (.lst i r addr n) s = .fault (.outsideContract 0x3107) := by
  rw [exec_lst]
  exact issue_of_fails _ hi (decide_eq_false (Nat.not_le.2 ha))

theorem recv_next {k off n : Nat} {dst : Loc} (e : Ecc) (hs : [4, 8, 16, 32].contains n = true) (ho : off + n ≤ 32)
    (hl : (locOk dst n).2 = true) (hk : k < 16) (ht : i.t < s.G) :
    exec (.recv i k off n dst e) s =
      .next ((s.startIssue i).eachTile i (fun s p => s.localRead i p (Config.rxBase p + 32 * k + off) n dst e)) := by
  rw [exec_recv, execRecv, issue_of_passes _ hi (by simp [sizeOk_iff.2 ⟨hs, ho⟩, hl, hk, cycleOk_iff.2 ht])]

section
variable {m : Mesh} {addr n : Nat} {l : Loc} (hw : m.w ≤ 15) (hd : m.d ≤ 10)
include hw hd

section
variable (hh : hops (s.routerOf i.tile) (attachAt ((s.target addr).getD 0)) ≤ m.d) (hl : (locOk l n).2 = true)
  (hc : (s.clearOfCalls (meshAt m i.t) addr n).2 = true)
include hh hl hc

theorem sld_next (e : Ecc) (ha : s.accessOk addr n false = true) (ht : i.t + m.w + 4 * m.d + 6 < s.G) :
    exec (.sld i m addr n l e) s =
      .next ((s.startIssue i).bus (meshAt m i.t) false (.load i.tile addr n l (i.t + m.w + 4 * m.d + 6) e)) := by
  rw [exec_sld, execSld, issue_of_passes _ hi]
  exact List.forall_mem_append.2 ⟨meshOk_iff.2 ⟨hh, hw, hd⟩, by simp [hl, ha, hc, cycleOk_iff.2 ht]⟩

theorem sst_next (e : Ecc) (ha : s.accessOk addr n true = true) (ht : meshAt m i.t < s.G) :
    exec (.sst i m addr n l e) s =
      .next (((s.startIssue i).source i l n e).1.bus (meshAt m i.t) true (.store 0 addr ((s.startIssue i).source i l n e).2)) := by
  rw [exec_sst, execSst, issue_of_passes _ hi]
  exact List.forall_mem_append.2 ⟨meshOk_iff.2 ⟨hh, hw, hd⟩, by simp [hl, ha, hc, cycleOk_iff.2 ht]⟩

end

theorem send_next {dest : Nat} (e : Ecc) (hh : hops (s.routerOf i.tile) (s.routerOf dest) ≤ m.d) (hdest : dest < 32)
    (hl : (locOk l 32).2 = true) (hn : n < 16) (ht : meshAt m i.t < s.G) :
    exec (.send i m dest n l e) s =
      .next (((s.startIssue i).source i l 32 e).1.bus (meshAt m i.t - 1) true (.send dest n ((s.startIssue i).source i l 32 e).2)) := by
  rw [exec_send, execSend, issue_of_passes _ hi]
  exact List.forall_mem_append.2 ⟨meshOk_iff.2 ⟨hh, hw, hd⟩, by simp [hdest, hl, hn, cycleOk_iff.2 ht]⟩

end

end

/-- Without an ECC event an operation takes from a data operand what the tile holds (R72). -/
theorem source_clean (s : State) (i : Issue) (l : Loc) (n : Nat) : s.source i l n .clean = (s, s.locBytes (s.physTile i.tile) l n) := by
  cases l <;> rfl

/-- Time passes to the bus act that comes first where it is one of those asked for. -/
theorem runBusTo_first {s : State} {e : BusEv} {rest : List BusEv} {pick : BusAct → Bool} (h : s.lat.bus = e :: rest)
    (hp : pick e.act = true) : s.runBusTo pick = (s.toCycle (e.key / 2)).settleThrough (e.key / 2) := by
  rw [State.runBusTo, h, List.find?_cons_of_pos (p := fun e : BusEv => pick e.act) hp]

/-- A response that comes first on the bus arrives at its cycle (R80). -/
theorem sharedLoadResponse_first {s : State} {t l : Nat} {dst : Loc} {data : Bytes} {e : Ecc} {rest : List BusEv}
    (h : s.lat.bus = ⟨2 * t, .respond l dst data e⟩ :: rest) :
    exec .sharedLoadResponse s = .next ((s.toCycle t).settleThrough t) := by
  rw [exec_sharedLoadResponse, execSharedLoadResponse, if_pos (by simp [h]), runBusTo_first h rfl,
    Nat.mul_div_cancel_left t Nat.two_pos]

/-- Settles O7: each operation past its checks, then what comes back over the mesh. -/
theorem tileMemoryAndMesh : Obligations.TileMemoryAndMesh :=
  ⟨fun _ _ _ _ _ e hi ha hs hn hd ht => lld_next hi e ha hs hn hd ht, fun _ _ _ _ _ hi ha hs hn hr ht => lst_next hi ha hs hn hr ht,
    fun _ _ _ _ _ hi ha => lst_fails hi ha, fun _ _ _ _ _ _ e hi hs ho hl hk ht => recv_next hi e hs ho hl hk ht,
    fun _ _ _ _ _ _ e hi hh hw hd hl ha hc ht => sld_next hi hw hd hh hl hc e ha ht,
    fun _ _ _ _ _ _ e hi hh hw hd hl ha hc ht => sst_next hi hw hd hh hl hc e ha ht,
    fun _ _ _ _ _ _ e hi hh hw hd hdest hl hn ht => send_next hi hw hd e hh hdest hl hn ht,
    source_clean, fun _ => rfl, fun _ _ _ _ _ _ _ h => sharedLoadResponse_first h⟩

/-! ### Engine calls (R88) -/

/-- Where the engine of a call is attached (R66). -/
def callAttach : Engine → Nat
  | .loop => attachLoop
  | .solver _ => attachSolver

/-- ECALL past its checks: the call is under way from its delivery cycle to that cycle plus its latency. -/
theorem ecall_next {s : State} {i : Issue} {m : Mesh} {e : Engine} {desc : Nat} (bad : List (Nat × Nat)) (cor : Nat) (mis : Bool)
    (hi : s.canIssue i = true) (hh : hops (s.routerOf i.tile) (attachAt (callAttach e)) ≤ m.d) (hw : m.w ≤ 15) (hd : m.d ≤ 10)
    (he : ∀ u, e = .solver u → u < 8) (hc : s.callOk e desc = true)
    (ho : (s.callsDuring (meshAt m i.t) (meshAt m i.t + s.callLatency e desc)).all
      (fun x => x.engine != e && !regionsClash (s.callRegion e desc) (s.callRegion x.engine x.desc)) = true)
    (ht : meshAt m i.t + s.callLatency e desc < s.G) :
    exec (.ecall i m e desc bad cor mis) s = .next ((s.startIssue i).startCall
      { engine := e, desc, start := meshAt m i.t, done := meshAt m i.t + s.callLatency e desc, bad, cor, mis, samples := [], seen := [],
        hash := [], blocks := [], tally := [] }) := by
  have hmesh := meshOk_iff.2 ⟨hh, hw, hd⟩
  rw [exec_ecall]
  unfold execEcall
  refine issue_of_passes _ hi (List.forall_mem_append.2 ⟨?mesh, ?own⟩)
  case mesh => cases e <;> exact hmesh
  case own =>
    rw [hc, ho]
    cases e with
    | loop => simp [cycleOk_iff.2 ht]
    | solver u => simp [he u rfl, cycleOk_iff.2 ht]

theorem engineCallComplete_idle {s : State} {e : Engine} (h : s.lat.calls.find? (fun x => x.engine == e) = none) :
    exec (.engineCallComplete e) s = .next s := by
  rw [exec_engineCallComplete, execEngineCallComplete, h]

theorem engineCallComplete_busy {s : State} {e : Engine} {c : Call} (h : s.lat.calls.find? (fun x => x.engine == e) = some c) :
    exec (.engineCallComplete e) s = .next ((s.toCycle c.done).settle c.done) := by
  rw [exec_engineCallComplete, execEngineCallComplete, h]

@[simp] theorem setBusy_lat (s : State) (e : Engine) (on : Bool) : (s.setBusy e on).lat = s.lat := by
  cases e <;> rfl

@[simp] theorem loopDone_lat (s : State) (x : Call) : (s.loopDone x).1.lat = s.lat := inc_lat s _ 0 0

@[simp] theorem solverDone_lat (s : State) (u : Nat) (x : Call) : (s.solverDone u x).1.lat = s.lat := inc_lat _ _ u 0

@[simp] theorem absorb_calls (s : State) (c o : Nat) (b : Bytes) : (s.absorb c o b).lat.calls = s.lat.calls := rfl

@[simp] theorem svShadow_lat (s : State) (u : Nat) (mis : Bool) : (s.svShadow u mis).lat = s.lat := by
  unfold State.svShadow
  split
  · cases mis <;> simp
  · rfl

/-- The end of a call takes it out of the calls in progress (R88). -/
theorem callFinish_calls (s : State) (x : Call) :
    (s.callFinish x).lat.calls = s.lat.calls.filter (fun y => !(y.engine == x.engine && y.start == x.start)) := by
  unfold State.callFinish
  split <;> simp

theorem onCall_of_some {s : State} {e : Engine} {start : Nat} {x : Call} (f : Call → State) (h : s.callAt e start = some x) :
    s.onCall e start f = f x := by
  rw [State.onCall, h]

/-! ### Transfers (R90) -/

/-- XSTART past its checks: the descriptor is under way until eight cycles and one per granule after its delivery. -/
theorem xstart_next {s : State} {i : Issue} {m : Mesh} {x : XDesc} {u : State} (ecc : List (Nat × Ecc)) (hi : s.canIssue i = true)
    (hh : hops (s.routerOf i.tile) (attachAt attachXfer) ≤ m.d) (hw : m.w ≤ 15) (hd : m.d ≤ 10) (hn : xNamed x = true)
    (ha : xAddr x % 32 = 0) (he : xAddr x + 32 * xGranules x ≤ Config.bankEnd)
    (ho : s.lat.xfers.all (fun y => decide (y.done ≤ meshAt m i.t) || decide (meshAt m i.t + 8 + xGranules x ≤ y.start)) = true)
    (hp : s.xPhase x (meshAt m i.t) (meshAt m i.t + 8 + xGranules x) = true) (ht : meshAt m i.t + 8 + xGranules x < s.G)
    (hu : (if xInput x then (s.startIssue i).startInput x (meshAt m i.t) else (s.startIssue i).startOutput x (meshAt m i.t) ecc) = u) :
    exec (.xstart i m x ecc) s =
      .next { u with lat := { u.lat with xfers :=
        u.lat.xfers ++ [{ desc := x, start := meshAt m i.t, done := meshAt m i.t + 8 + xGranules x, data := [] }] } } := by
  rw [exec_xstart, execXstart, ← hu, issue_of_passes _ hi]
  refine List.forall_mem_append.2 ⟨meshOk_iff.2 ⟨hh, hw, hd⟩, ?_⟩
  rw [hn, ho]
  simp [ha, he, hp, cycleOk_iff.2 ht]

theorem transferComplete_idle {s : State} (ok : Bool) (h : s.lat.xfers = []) : exec (.transferComplete ok) s = .next s := by
  rw [exec_transferComplete, execTransferComplete, h]

/-- An input transfer completes at its cycle; its granules have moved before (R90). -/
theorem transferComplete_input {s u : State} (ok : Bool) {x y : Xfer} {l l2 : List Xfer} {g a : Nat} (h : s.lat.xfers = x :: l)
    (hu : (s.toCycle x.done).settle x.done = u) (hy : u.lat.xfers = y :: l2) (hd : y.desc = .fgIn g a) :
    exec (.transferComplete ok) s = .next { u with lat := { u.lat with xfers := l2 } } := by
  rw [exec_transferComplete, execTransferComplete, h]
  simp only [hu, hy, hd]

/-- Settles O9: a call and a transfer past their checks, then their ends. -/
theorem engineCallsAndTransfers : Obligations.EngineCallsAndTransfers := by
  refine ⟨fun _ _ _ _ bad cor mis hi hh hw hd hc ho ht => ecall_next bad cor mis hi hh hw hd nofun hc ho ht,
    fun s i m u desc bad cor mis hi hh hw hd hu hc ho ht => ecall_next bad cor mis hi hh hw hd ?unit hc ho ht,
    fun _ _ h => engineCallComplete_idle h, fun _ _ _ h => engineCallComplete_busy h,
    fun s _ _ _ x h => ⟨rfl, onCall_of_some _ h, callFinish_calls s x⟩,
    fun s i m g a ecc hi hh hw hd hg ha he ho hp ht => ?output, fun s i m a ecc hi hh hw hd ha he ho hp ht => ?input,
    fun _ ok h => transferComplete_idle ok h, fun _ ok _ _ _ _ _ _ h hy hd => transferComplete_input ok h rfl hy hd⟩
  case unit =>
    rintro _ ⟨⟩
    exact hu
  case output => exact xstart_next ecc hi hh hw hd (decide_eq_true hg) ha he ho hp ht (if_neg Bool.false_ne_true)
  case input => exact xstart_next ecc hi hh hw hd rfl ha he ho hp ht (if_pos rfl)

/-! ### Admission (R99, R100, R102) -/

section
variable {s : State} {p : Nat}

theorem admStart_base (hb : s.bit R.TT_ADM_STATUS_BUSY = false) (hu : s.unit = .stop) :
    s.admStart 0 p = { ((s.wr R.TT_ADM_CTRL_SLOT 0).wr R.TT_ADM_CTRL_PLACEMENT p).wr R.TT_ADM_STATUS_BUSY 1 with
      tt := { s.tt with admitting := some (0, p) } } := by
  simp [State.admStart, State.inStop, hb, hu]

/-- An overlay is admitted on a base that stands admitted (R110). -/
theorem admStart_overlay {k : Nat} {u : State} (hb : s.bit R.TT_ADM_STATUS_BUSY = false) (hk : k < 16)
    (hu : (s.wr R.TT_ADM_CTRL_SLOT (k + 1)).wr R.TT_ADM_CTRL_PLACEMENT p = u) (hv : u.bit R.TT_ADMITTED_VALID = true) :
    s.admStart (k + 1) p = { u.wr R.TT_ADM_STATUS_BUSY 1 with tt := { u.tt with admitting := some (k + 1, p) } } := by
  simp [State.admStart, hb, hu, hv, Nat.not_lt.2 hk]

theorem admStart_running (slot : Nat) (hb : s.bit R.TT_ADM_STATUS_BUSY = true) : s.admStart slot p = s := by
  simp [State.admStart, hb]

theorem ttAdmAbort_running {x : Nat × Nat} (h : s.tt.admitting = some x) :
    exec .ttAdmAbort s = .next (State.wake { (s.wr R.TT_ADM_STATUS_BUSY 0).wr R.TT_ADM_STATUS_CODE 0xFFFF with
      tt := { s.tt with admitting := none } } opAdmit 0 0xFFFF) := by
  rw [exec_ttAdmAbort, execTtAdmAbort, h]

theorem admission_idle (h : s.tt.admitting = none) : exec .ttAdmAbort s = .next s ∧ exec .admissionComplete s = .next s := by
  rw [exec_ttAdmAbort, execTtAdmAbort, exec_admissionComplete, execAdmissionComplete, h]
  exact ⟨rfl, rfl⟩

theorem admissionComplete_running {slot : Nat} (h : s.tt.admitting = some (slot, p)) :
    exec .admissionComplete s = .next (s.admRun slot p).admDone := by
  rw [exec_admissionComplete, execAdmissionComplete, h]

end

/-! ### Relocation of a tile (R94, R95) -/

section
variable {s : State} {l t : Nat}

/-- With the access lock closed CHECK judges the move that stands in LT_RELOC (R102). -/
theorem ltRelocCheck_closed (hl : s.lockOpen = false) (hb : s.bit R.LT_RELOC_STATUS_BUSY = false) :
    exec (.ltRelocCheck l t) s = .next (s.relocCheck (s.rd R.LT_RELOC_LOGICAL) (s.rd R.LT_RELOC_TARGET)) := by
  simp [execLtRelocCheck, hl, hb]

/-- A check that passes, with no request waiting for it, leaves the move to be committed. -/
theorem placementCheckComplete_passed (hc : s.lat.relocCheck = some (l, t)) (hp : s.placementCheck (s.placement.set l t) = none)
    (hw : s.acc.waiters = []) :
    exec .placementCheckComplete s = .next { ((s.wr R.LT_RELOC_STATUS_BUSY 0).wr R.LT_RELOC_STATUS_PASS 1).wr R.LT_RELOC_STATUS_CODE 0 with
      lat := { s.lat with relocCheck := none, relocPassed := some (l, t) } } := by
  simp [execPlacementCheckComplete, hc, hp, hw]

theorem ltRelocCommit_passed (h : s.lat.relocPassed = some (s.rd R.LT_RELOC_LOGICAL, s.rd R.LT_RELOC_TARGET)) :
    exec .ltRelocCommit s = .next s.relocCommit := congrArg _ (if_pos h)

theorem ltRelocCommit_unchecked (h : s.lat.relocPassed = none) : exec .ltRelocCommit s = .next s :=
  congrArg _ (if_neg (by simp [h]))

theorem tileRelocation_ordered {u : State} (e : Ecc) (h : s.lat.relocOrder = some (l, t))
    (hu : ((s.toCycle (s.G + 4096)).settle (s.G + 4096)).copyOut l t e = u) :
    exec (.tileRelocation e) s = .next { u with lat := { u.lat with relocOrder := none, relocCopied := some (l, t) } } := by
  rw [exec_tileRelocation, execTileRelocation, h, ← hu]

theorem tileRelocation_idle (e : Ecc) (h : s.lat.relocOrder = none) : exec (.tileRelocation e) s = .next s := by
  rw [exec_tileRelocation, execTileRelocation, h]

end

/-! ### Shadow of a tile (R96) -/

section
variable {s u : State} {l p : Nat}

theorem tileShadow_starts (e : Ecc) (hp : s.spareTiles.contains p = true) (hr : s.unit = .run) (hl : l < 32)
    (hn : s.lat.shadows.any (fun x => x.phys == p) = false)
    (hu : (((s.toCycle (s.G + 4096)).settle (s.G + 4096)).copyOut l p e).wr R.LT_SHADOW_STATUS_BUSY 1 = u) :
    exec (.tileShadow l p e) s = .next { u with lat := { u.lat with
      shadows := { phys := p, logical := l, frame := u.tb.frameNo + 1, same := none, compared := false } :: u.lat.shadows } } := by
  have hne : s.spareTiles.isEmpty = false := by
    rw [List.isEmpty_eq_false_iff_exists_mem]
    exact ⟨p, List.contains_iff_mem.1 hp⟩
  rw [exec_tileShadow, execTileShadow, if_neg (by simp [hne]), if_neg (by rw [hp, hn]; simp [State.inRun, hr, hl]), hu]

theorem tileShadow_uncovered (e : Ecc) (h : s.spareTiles = []) :
    exec (.tileShadow l p e) s = .next (s.wr R.LT_SHADOW_STATUS_UNCOVERED 1) := by
  rw [exec_tileShadow, execTileShadow, h]
  rfl

theorem tileShadowCompare_none (h : s.shadowAt p = none) : exec (.tileShadowCompare p) s = .next s := by
  simp [execTileShadowCompare, h]

/-- The shadows with that on tile `p` compared. -/
def shadowCompared (x : Lattice) (p : Nat) : Lattice :=
  { x with shadows := x.shadows.map (fun (y : Shadow) => if y.phys == p then { y with compared := true } else y) }

/-- A comparison of equal states counts, and without a suspicion against another spare it does no more. -/
theorem tileShadowCompare_equal {v : State} {x : Shadow} (hr : s.unit = .run) (hs : (s.shadowAt p).isSome = true)
    (hu : (s.toCycle s.G).settle s.G = u) (hx : u.shadowAt p = some x) (hsame : x.same = some true) (hc : x.compared = false)
    (hf : u.lat.shadowSuspect.find? (fun y => y.1 == x.logical && y.2 != p) = none) (hv : { u with lat := shadowCompared u.lat p } = v) :
    exec (.tileShadowCompare p) s =
      .next ((v.inc R.LT_SHADOW_STATUS_COUNT).wr R.LT_SHADOW_STATUS_BUSY (if v.lat.shadows.all (·.compared) then 0 else 1)) := by
  obtain ⟨y, hy⟩ := Option.isSome_iff_exists.1 hs
  have hgo : (!s.inRun || (s.shadowAt p).isNone) = false := by simp [State.inRun, hr, hy]
  rw [exec_tileShadowCompare, execTileShadowCompare, hgo, ← hv]
  simp only [hu, hx, hsame, hc, Bool.false_eq_true, if_false, if_true, wr_lat, inc_lat, hf]
  rfl

end

/-- Settles O12: the admission, the relocation from its check to the copy, then the shadow. -/
theorem admissionAndPlacement : Obligations.AdmissionAndPlacement :=
  ⟨fun _ _ hb hu => congrArg _ (admStart_base hb hu), fun _ _ _ hb hk hv => congrArg _ (admStart_overlay hb hk rfl hv),
    fun _ slot _ hb => congrArg _ (admStart_running slot hb), fun _ _ h => ttAdmAbort_running h, fun _ h => admission_idle h,
    fun _ _ _ h => admissionComplete_running h, fun _ _ _ hl hb => ltRelocCheck_closed hl hb,
    fun _ _ _ hc hp hw => placementCheckComplete_passed hc hp hw, fun _ h => ltRelocCommit_passed h,
    fun _ h => ltRelocCommit_unchecked h, fun _ _ _ _ e h hu => tileRelocation_ordered e h hu.symm,
    fun _ e h => tileRelocation_idle e h, fun _ _ _ _ e hp hr hl hn hu => hu ▸ tileShadow_starts e hp hr hl hn rfl,
    fun _ _ _ e h => tileShadow_uncovered e h, fun _ _ h => tileShadowCompare_none h,
    fun _ _ _ _ _ hr hs hu hx hsame hc hf hv => tileShadowCompare_equal hr hs hu.symm hx hsame hc hf hv.symm⟩

/-! ### Packets of the maintenance group (R384) -/

section
variable (s : State) (r : Req) (c : Cmd)

@[simp] theorem takeReq_jr : (s.takeReq r c).jr = s.jr := by rw [takeReq_frame]

/-- Whether a switch-in is taken is read off the groups and the fields (R239). -/
@[simp] theorem takeReq_spareReason (g t : Nat) : (s.takeReq r c).spareReason g t = s.spareReason g t := by
  rw [takeReq_frame]
  rfl

end

/-- A value out of range is answered with its parameter (R377). -/
theorem inRange_of_not {s : State} {r : Req} {c : Cmd} {pid : Nat} {ok : Bool} {f : State → State} (h : ok = false) :
    s.inRange r c pid ok f = s.reply r c 0x0003 [pid] := if_neg (by simp [h])

/-- Settles O42: every packet passes the gate, and its body runs on a state that differs in the command service alone. -/
theorem maintenanceCommands : Obligations.MaintenanceCommands := by
  refine ⟨fun s r b hp hb => command_next hp (by decide) ?counters, fun s r b hp hb => command_next hp (by decide) ?clear,
    fun s r b hp hb => command_next hp (by decide) ?countersBeyond, fun s r n k hp hj => command_next hp (by decide) ?journal,
    fun s r n k hp hram hfl => command_next hp (by decide) ?journalEmpty, fun s r hp => command_next hp (by decide) rfl,
    fun s r g k hp hg hk h0 => command_next hp (by decide) ?spare,
    fun s r g k n hp hg hk hn => command_next hp (by decide) ?spareRefused,
    fun s r g k hp hg hk => command_next hp (by decide) ?spareCancel,
    fun s r l p hp hl ht hc ho hd hs => command_next hp (by decide) ?tile,
    fun s r l p hp hl ht hr hs => command_next hp (by decide) ?solver,
    fun s r l p hp hl ht hc ho hd hs => command_next hp (by decide) ?tileRefused,
    fun s r l e hp hl he => command_next hp (by decide) ?shadow, fun s r hp hu => command_next hp (by decide) ?selftest,
    fun s r p hp hu => command_next hp (by decide) ?selftestFails, fun s r x hp hu => command_next hp (by decide) ?selftestOutsideStop,
    fun s r n hp hn => command_next hp (by decide) ?route, fun s r n hp hn => command_next hp (by decide) ?routeBeyond⟩
  case counters => rw [inRange_of (decide_eq_true hb)]
  case clear => rw [inRange_of (decide_eq_true hb)]
  case countersBeyond => rw [inRange_of_not (by simpa using hb)]
  case journal => simp only [takeReq_jr, hj, Bool.false_eq_true, if_false]
  case journalEmpty => simp [hram, hfl]
  case spare => simp [inRange_of, hg, hk, h0]
  case spareRefused => simp [inRange_of, hg, hk, hn]
  case spareCancel => simp [inRange_of, hg, hk]
  case tile => simp [inRange_of, hl, ht, hc, ho, hd, hs]
  case solver => simp [inRange_of, hl, ht, hr, hs]
  case tileRefused => simp [inRange_of, hl, ht, hc, ho, hd, hs]
  case shadow => simp [inRange_of, hl, he]
  case selftest => simp [require_of, hu]
  case selftestFails => simp [require_of, hu]
  case selftestOutsideStop => simp [require_of_not, hu]
  case route => simp [require_of, hn]
  case routeBeyond => simp [require_of_not, hn]

end Sys2Proof.Proofs
end

section
/-! SUPPORT. The statements about timetable images and overlays: mode switches, changes of the field groups, transfers and activations of
firmware, the packets of the session and mode groups. -/

namespace Sys2Proof.Proofs

open Sys2Proof Sys2Proof.Machine Sys2Proof.Safety Sys2Proof.Laws

/-! ### Mode switches (R118 to R125) -/

/-- A switch as its preparation leaves it: not armed, nothing of its delta written (R118). -/
def preparedSwitch (active mirror : Nat) (delta : List DeltaWrite) (hash : Nat) : Switch :=
  { active, mirror, delta, hash, frame := none, at_ := 0, proposed := false, written := 0 }

section
variable {s : State}

/-- PREPARE with no switch armed loses an earlier one and enters PREPARING (R118). -/
theorem modePrepare_unarmed {u : State} (a m : Nat) (h3 : s.rd R.TT_MODE_STATUS_STATE ≠ 3) (h4 : s.rd R.TT_MODE_STATUS_STATE ≠ 4)
    (hu : ((s.loseSwitch.wr R.TT_MODE_NEXT_ACTIVE a).wr R.TT_MODE_NEXT_MIRROR m).modeState 1 0 = u) :
    s.modePrepare a m = { u with tt := { u.tt with partnerHash := none } } := by
  rw [State.modePrepare, if_neg (by simp [h3, h4]), ← hu]

theorem modePrepare_armed (a m : Nat) (h3 : s.rd R.TT_MODE_STATUS_STATE = 3) : s.modePrepare a m = s.wr R.TT_MODE_STATUS_REASON mrBusy :=
  if_pos (by simp [h3])

theorem modePrepareComplete_noBase (h1 : s.rd R.TT_MODE_STATUS_STATE = 1) (hb : s.tt.base = none) :
    exec .modePrepareComplete s = .next (s.refusePrepare mrSlot) := by
  simp [execModePrepareComplete, h1, hb]

theorem showHash_beside (s : State) (h : Nat) : besideOutputs (s.showHash h) = besideOutputs s :=
  besideOutputs_foldl (fun s k => besideOutputs_wr s R.TT_MODE_HASH _ k 0) _ _

@[simp] theorem showHash_role (s : State) (h : Nat) : (s.showHash h).role = s.role :=
  eq_of_besideOutputs State.role (showHash_beside s h)

@[simp] theorem modeState_role (s : State) (st r : Nat) : (s.modeState st r).role = s.role := rfl

/-- Alone, a unit whose preparation has no reason against it holds the switch with its delta and hash (R118). -/
theorem modePrepareComplete_solo {u : State} {b : Image} {delta : List DeltaWrite} {a m h : Nat}
    (h1 : s.rd R.TT_MODE_STATUS_STATE = 1) (hb : s.tt.base = some b) (hr : s.role = .solo) (ha : s.rd R.TT_MODE_NEXT_ACTIVE = a)
    (hm : s.rd R.TT_MODE_NEXT_MIRROR = m) (hd : s.deltaFor b (s.rd R.TT_MODE_CUR_ACTIVE) a = delta)
    (hp : s.prepareReason b a m delta = none) (hh : s.switchHash a m delta = h)
    (hu : { s with tt := { s.tt with switch := some (preparedSwitch a m delta h) } } = u) :
    exec .modePrepareComplete s =
      .next (((u.showHash h).wr R.TT_MODE_STATUS_DELTA ((delta.length + 3) / 4)).modeState 2 0).prepareDone := by
  subst hu
  rw [exec_modePrepareComplete, execModePrepareComplete, if_neg (by simp [h1])]
  simp only [hb, ha, hm, hd, hp, hh, preparedSwitch]
  rw [if_neg (by simp [hr])]

/-- An arm that may act at a tick to come gives the prepared switch its earliest frame and its time (R119). -/
theorem modeArm_ahead {w : Switch} {at_ k : Nat} (hw : s.tt.switch = some w) (hc : s.armCheck at_ = .inr (k + 1)) :
    s.modeArm at_ =
      State.modeState { s with tt := { s.tt with switch := some { w with frame := some (s.tb.frameNo + s.armLeast), at_ } } } 3 0 := by
  simp only [State.modeArm, hc, hw]

/-- Outside RUN an armed switch is carried out at once (R122). -/
theorem modeArm_atOnce {w : Switch} {at_ : Nat} (hw : s.tt.switch = some w) (hc : s.armCheck at_ = .inr 0) :
    s.modeArm at_ = ((s.writeDelta w.delta).flip w).driveAll := by
  simp only [State.modeArm, hc, hw]

theorem modeCancel_held (h : s.rd R.TT_MODE_STATUS_STATE = 2 ∨ s.rd R.TT_MODE_STATUS_STATE = 3) :
    s.modeCancel = (s.modeState 0 0).dropSwitch := if_pos (by simpa using h)

theorem modeCancel_notHeld (h2 : s.rd R.TT_MODE_STATUS_STATE ≠ 2) (h3 : s.rd R.TT_MODE_STATUS_STATE ≠ 3) : s.modeCancel = s :=
  if_neg (by simp [h2, h3])

/-- The writes due in a cycle of the guard band are made, and the switch stands committed (R120). -/
theorem modeDeltaWrites_due {w : Switch} {j : Nat} (hw : s.switchDue = some w) (hr : s.unit = .run) (hj : j = w.written) (hl : j < 1024) :
    exec (.modeDeltaWrites j) s =
      .next (((s.toCycle (s.G + 512 + j)).modeState 4 0).deltaStep { w with frame := some (s.tb.frameNo + 1) } j) := by
  rw [exec_modeDeltaWrites, execModeDeltaWrites, hw]
  exact congrArg _ (if_pos (by simp [State.inRun, hr, ← hj, hl]))

theorem modeDeltaWrites_notDue (j : Nat) (h : s.switchDue = none) : exec (.modeDeltaWrites j) s = .next s := by
  rw [exec_modeDeltaWrites, execModeDeltaWrites, h]

end

/-- Settles O13: PREPARE and CANCEL by the state of the switch, the preparation by its base, ARM by what its check finds, the writes by
whether a switch is due. -/
theorem modeSwitches : Obligations.ModeSwitches :=
  ⟨fun _ _ h3 h4 hu => congrArg _ (modePrepare_unarmed _ _ h3 h4 hu.symm), fun _ h3 => congrArg _ (modePrepare_armed _ _ h3),
    fun _ h1 hb => modePrepareComplete_noBase h1 hb,
    fun _ _ _ _ _ _ _ h1 hb hr ha hm hd hp hh hu => modePrepareComplete_solo h1 hb hr ha.symm hm.symm hd.symm hp hh.symm hu.symm,
    fun _ _ _ hw hc => congrArg _ (modeArm_ahead hw hc), fun _ _ hw hc => by rw [exec_ttModeArm, execTtModeArm, modeArm_atOnce hw hc],
    fun _ h => congrArg _ (modeCancel_held h), fun _ h2 h3 => congrArg _ (modeCancel_notHeld h2 h3),
    fun _ _ _ hw hr hj hl => modeDeltaWrites_due hw hr hj hl, fun _ j h => modeDeltaWrites_notDue j h⟩

/-! ### Applies of a field group (R233, R234) -/

section
variable {s : State} {g : Nat}

theorem fgApplyTakesEffect_idle (h : s.bit R.FG_STATUS_APPLY_PENDING g = false) : exec (.fgApplyTakesEffect g) s = .next s := by
  simp [execFgApplyTakesEffect, h]

/-- The apply is judged again at the tick, and refused there (R233). -/
theorem fgApplyTakesEffect_refused {r t : Nat} (hg : g < 12) (hp : s.bit R.FG_STATUS_APPLY_PENDING g = true)
    (hr : s.toTick.fgRefusal g = some (r, t)) :
    exec (.fgApplyTakesEffect g) s = .next ((s.toTick.fgRefuse g r t).applyDone (fgBase g) (0x0510 + r) [t]) := by
  simp [execFgApplyTakesEffect, Nat.not_le.2 hg, hp, hr]

/-- With no reason against it at the tick the staged configuration becomes the applied one; a change loses a prepared switch (R118, R233). -/
theorem fgApplyTakesEffect_taken {u v : State} (hg : g < 12) (hp : s.bit R.FG_STATUS_APPLY_PENDING g = true)
    (hr : s.toTick.fgRefusal g = none) (hu : (List.range 8).foldl (fun s t => s.applyTerminal g t) s.toTick = u)
    (hv : (((((u.wr R.FG_STATUS_APPLY_PENDING 0 g).wr R.FG_APPLY_STATUS_DONE 1 g).wr R.FG_APPLY_STATUS_REASON 0
      g).rateAdapted).driveChans).applyDone (fgBase g) 0 = v) :
    exec (.fgApplyTakesEffect g) s =
      .next (if (List.range 8).any (fun t => s.toTick.changes g t chRows) then v.loseSwitch else v) := by
  rw [exec_fgApplyTakesEffect, execFgApplyTakesEffect, if_neg (by simp [Nat.not_le.2 hg, hp])]
  simp only [hr, hu]
  simp only [hv]

end

/-! ### The spare converter of a field group (R236 to R239) -/

section
variable {s : State} {g : Nat}

/-- A visit of the spare ends once the group is supplied, the spare is free and the second has passed (R236). -/
theorem crossCheckVisit_due (dev : Int) (off : Bool) (hg : g < 12) (hst : s.rd R.FG_SPARE_STATUS_STATE g = 0)
    (hsup : (s.group g).supply = true) (hat : (s.group g).visitAt + 100000000 ≤ s.tb.frc) :
    exec (.crossCheckVisit g dev off) s =
      let x := s.rd R.FG_SPARE_STATUS_XCHK g
      let u := if x < 8 then (if s.chMode g x = 0 then s else s.crossChecked g x dev)
        else if off then s.wr R.FG_STATUS_REF_DEV 1 g else s
      .next ((u.wr R.FG_SPARE_STATUS_XCHK (u.nextVisit g x) g).updGroup g (fun y => { y with visitAt := u.tb.frc })) := by
  rw [exec_crossCheckVisit, execCrossCheckVisit, if_neg (by simp [Nat.not_le.2 hg, hst, hsup, Nat.not_lt.2 hat])]

/-- A deviation within the limit is recorded and ends the run of those above it (R236). -/
theorem crossChecked_within {x : Nat} {dev : Int} (h : dev.natAbs ≤ s.rd R.CH_DRIFT_LIM g x) :
    s.crossChecked g x dev = (s.wr R.CH_XCHK_DEV (ofInt 32 dev) g x).updChan (8 * g + x) (fun c => { c with devRuns := 0 }) := by
  have hkey : R.CH_DRIFT_LIM.key g x ≠ R.CH_XCHK_DEV.key g x := by
    intro h
    change (0x40050128 + g * 0x1000 + x * 0x40) * 32 + 0 = (0x40050134 + g * 0x1000 + x * 0x40) * 32 + 0 at h
    omega
  have hlim : ¬(s.wr R.CH_XCHK_DEV (ofInt 32 dev) g x).rd R.CH_DRIFT_LIM g x < dev.natAbs := by
    rw [rd_wr_ne _ _ _ _ _ _ _ _ hkey]
    exact Nat.not_lt.2 h
  exact if_neg hlim

theorem spareStart_taken {t c : Nat} (h0 : s.spareReason g t = 0) (hc : s.spareConv g = some c) :
    s.spareStart g t = (((s.updGroup g (fun x => { x with shadow := some { terminal := t, conv := c, until_ := s.shadowEnd g t } })).wr
      R.FG_SPARE_STATUS_STATE 1 g).wr R.FG_SPARE_STATUS_TERMINAL t g).wr R.FG_SPARE_STATUS_REASON 0 g := by
  simp [State.spareStart, h0, hc]

theorem spareReason_disabled {t : Nat} (h : s.chMode g t = 0) : s.spareReason g t = 1 := if_pos h

theorem spareStart_refused {t r : Nat} (h : s.spareReason g t = r + 1) :
    s.spareStart g t = (s.wr R.FG_SPARE_STATUS_REFUSED 1 g).wr R.FG_SPARE_STATUS_REASON (r + 1) g := by
  simp [State.spareStart, h]

theorem spareTakeover_idle (h : (s.group g).shadow = none) : exec (.spareTakeover g) s = .next s := by
  simp [execSpareTakeover, h]

/-- At the first tick after the shadow the spare takes the terminal and the old converter retires (R237). -/
theorem spareTakeover_due {v w : State} {sh : FgShadow} (hg : g < 12) (hsh : (s.group g).shadow = some sh) (hf : sh.until_ ≤ s.tickFrame)
    (hv : ((s.toTick.wr (convRow sh.terminal) sh.conv g).wr (convState sh.conv) 0 g).wr
      (convState (s.toTick.convOf g sh.terminal)) 2 g = v)
    (hw : ((v.wr R.FG_SPARE_STATUS_STATE 2 g).wr R.FG_SPARE_STATUS_TERMINAL sh.terminal g).wr R.FG_SPARE_STATUS_DONE 1 g = w) :
    exec (.spareTakeover g) s = .next ((((w.wr R.FG_STATUS_EXHAUSTED (if (w.spareConv g).isNone then 1 else 0) g).updGroup g
      (fun x => { x with shadow := none })).hsUse 2).wake opSpare g 0) := by
  rw [exec_spareTakeover, execSpareTakeover, if_pos hg, hsh]
  simp only [if_neg (Nat.not_lt.2 hf), hv]
  simp only [hw]

end

/-! ### Sticky flags of a channel (R240) -/

theorem chFlagsWrite_next {s u : State} {ch v : Nat} (hch : ch < 96)
    (hu : flagRows.foldl (fun s f => if bitOf v f.1 then s.wr f.2 0 (ch / 8) (ch % 8) else s) s = u) :
    exec (.chFlagsWrite ch v) s = .next (if bitOf v 9 then u.wr R.CH_SHORTFALL_MAX 0 (ch / 8) (ch % 8) else u) := by
  rw [exec_chFlagsWrite, execChFlagsWrite, if_neg (Nat.not_le.2 hch)]
  simp only [hu]

/-- Settles O16: the apply by whether it is pending and refused, the spare by the state of its shadow, the flags by bit 9 of the word written. -/
theorem fieldGroupChanges : Obligations.FieldGroupChanges := by
  refine ⟨fun s g hg => ⟨congrArg _ (if_pos hg), congrArg _ (if_pos hg)⟩,
    fun s g hg => ⟨congrArg _ (if_neg (Nat.not_lt.2 hg)), congrArg _ (if_neg (Nat.not_lt.2 hg))⟩,
    fun s g h => fgApplyTakesEffect_idle h, fun s g r t hg hp hr => fgApplyTakesEffect_refused hg hp hr,
    fun s u v g hg hp hr hu hv => fgApplyTakesEffect_taken hg hp hr hu.symm hv.symm, fun s g dev off hg => ?visitBeyond,
    fun s g dev hg hst hsup hx hat => ?visitReference, fun s g x dev hg hst hsup hx hx8 hm hd hat => ?visitTerminal,
    fun s g t c hg ht h0 hc => ?spareStart, fun s g t hg ht hm => ?spareRefused, fun s g => rfl, fun s g h => spareTakeover_idle h,
    fun s v w g sh hg hsh hf hv hw => spareTakeover_due hg hsh hf hv.symm hw.symm, fun s ch v hch h9 => ?flagsAndShortfall,
    fun s ch v hch h9 => ?flags⟩
  case visitBeyond => exact congrArg _ (if_pos (by simp [hg]))
  case visitReference =>
    rw [crossCheckVisit_due dev true hg hst hsup hat]
    simp only [if_neg hx]
    rfl
  case visitTerminal =>
    rw [crossCheckVisit_due dev false hg hst hsup hat]
    simp only [hx, if_pos hx8, if_neg hm, crossChecked_within hd]
    rfl
  case spareStart =>
    rw [exec_fgSpareStart, execFgSpareStart, if_pos (by simp [hg, ht]), spareStart_taken h0 hc]
  case spareRefused =>
    rw [exec_fgSpareStart, execFgSpareStart, if_pos (by simp [hg, ht]), spareStart_refused (spareReason_disabled hm)]
  case flagsAndShortfall => rw [chFlagsWrite_next hch rfl, if_pos h9]
  case flags => rw [chFlagsWrite_next hch rfl, if_neg (by simp [h9])]

/-! ### Packets of image transfers and updates (R384) -/

section
variable (s : State) (r : Req) (c : Cmd)

@[simp] theorem takeReq_tb : (s.takeReq r c).tb = s.tb := by rw [takeReq_frame]
@[simp] theorem takeReq_fw : (s.takeReq r c).fw = s.fw := by rw [takeReq_frame]
@[simp] theorem takeReq_trust : (s.takeReq r c).trust = s.trust := by rw [takeReq_frame]

@[simp] theorem takeReq_transfers : (s.takeReq r c).acc.transfers = s.acc.transfers := by
  unfold State.takeReq
  split <;> rfl

@[simp] theorem takeReq_transfer? (id : Nat) : (s.takeReq r c).transfer? id = s.transfer? id := by
  rw [State.transfer?, takeReq_transfers, State.transfer?]

@[simp] theorem takeReq_slotInForce (k : Nat) : (s.takeReq r c).slotInForce k = s.slotInForce k := by
  rw [State.slotInForce, takeReq_rd, State.slotInForce]

@[simp] theorem takeReq_timeFrc (w : Time) : (s.takeReq r c).timeFrc w = s.timeFrc w := by
  rw [takeReq_frame]
  rfl

@[simp] theorem takeReq_staged? (p : Nat) : (s.takeReq r c).staged? p = s.staged? p := by
  rw [takeReq_frame]
  rfl

@[simp] theorem takeReq_partBank (p b : Nat) : (s.takeReq r c).partBank p b = s.partBank p b := by
  rw [State.partBank, takeReq_fw, State.partBank]

@[simp] theorem takeReq_partFloor (p : Nat) : (s.takeReq r c).partFloor p = s.partFloor p := by
  rw [takeReq_frame]
  rfl

@[simp] theorem takeReq_pendNone_rd (p : Nat) (q : RegRow) (i j : Nat) :
    ((s.takeReq r c).pendNone p).rd q i j = (s.pendNone p).rd q i j := by
  rw [takeReq_frame]
  rfl

end

/-! ### Activation of firmware parts (R461 to R463) -/

section
variable {s : State} {p : Nat}

theorem updateActivation_notPending (h : s.rd R.BT_PART_PENDING p ≠ 1) : exec (.updateActivation p) s = .next s :=
  congrArg _ (if_pos (by simp [h]))

/-- A scheduled part switches at the first tick at or after its time (R461). -/
theorem updateActivation_atTick {t : State} (hp : p < 9) (h1 : s.rd R.BT_PART_PENDING p = 1) (hu : s.unit = .stop) (ht : s.toTick = t)
    (hat : s.rd64 R.BT_SCHED_AT_LO R.BT_SCHED_AT_HI p ≤ t.tb.frc) : exec (.updateActivation p) s = .next ((t.activate p).activated p) := by
  rw [exec_updateActivation, execUpdateActivation, if_neg (by simp [Nat.not_le.2 hp, h1])]
  simp [hu, ht, hat]

/-- In BOOT and RECOVERY the time of an activation cancels it (R463). -/
theorem updateActivation_cancelled (hp : p < 9) (h1 : s.rd R.BT_PART_PENDING p = 1) (hu : s.unit = .recovery ∨ s.unit = .boot)
    (hat : s.rd64 R.BT_SCHED_AT_LO R.BT_SCHED_AT_HI p ≤ s.tb.frc) : exec (.updateActivation p) s = .next (s.pendNone p) := by
  rw [exec_updateActivation, execUpdateActivation, if_neg (by simp [Nat.not_le.2 hp, h1])]
  rcases hu with hu | hu <;> simp [hu, hat]

/-- A commanded part switches at the tick, and the request that waits for it is answered with the pause (R462). -/
theorem commandedActivation_atTick {t : State} {l : List Nat} (hu : s.unit = .stop ∨ s.unit = .run ∨ s.unit = .halt)
    (hc : s.fw.commanded = p :: l) (ht : s.toTick = t) :
    exec .commandedActivation s = .next (State.wake ((t.activate p).commandedActs p) opActivate p 0 [t.pause p]) := by
  rw [exec_commandedActivation, execCommandedActivation, hc]
  rcases hu with hu | hu | hu <;> simp only [hu, ht]

theorem commandedActivation_idle (h : s.fw.commanded = []) : exec .commandedActivation s = .next s := by
  rw [exec_commandedActivation, execCommandedActivation, h]
  cases s.unit <;> rfl

theorem partRestartComplete_idle (q : PartnerInfo) (h : s.fw.restarting.contains p = false) :
    exec (.partRestartComplete p q) s = .next s := congrArg _ (if_pos (by rw [h]; rfl))

/-- With the enclave back its mailbox is free again (R461). -/
theorem partRestartComplete_enclave {u : State} (q : PartnerInfo) (h : s.fw.restarting.contains 1 = true)
    (hu : { s with fw := { s.fw with restarting := s.fw.restarting.filter (fun x => x != 1) } } = u) :
    exec (.partRestartComplete 1 q) s = .next (u.wr R.SE_MBOX_BUSY 0) := by
  subst hu
  exact congrArg _ (if_neg (by rw [h]; decide))

end

/-! ### Forwarding along the plant ring (R466) -/

section
variable {s : State}

theorem forwardHop_up (h : s.serviceUp = true) (n : Nat) :
    exec (.forwardHop (.confirm n)) s = .next (s.hopConfirmed n) ∧
      (∀ p f o l, exec (.forwardHop (.arrive p f o l)) s = .next (s.hopArrives p f o l)) ∧
        ∀ a b c, exec (.forwardHop (.replacement a b c)) s = .next (s.replaced a b c) := by
  simp [execForwardHop, h]

theorem forwardHop_down (x : HopIn) (h : s.serviceUp = false) : exec (.forwardHop x) s = .next s :=
  congrArg _ (if_pos (by simp [h]))

theorem forwardHopTimeout_idle (h : s.fw.forward = none) : exec .forwardHopTimeout s = .next s := by
  simp [execForwardHopTimeout, h]

/-- A hop not confirmed within 120 s stops the chain, and the request is answered with the plant it stopped at (R466). -/
theorem forwardHopTimeout_due {u : State} {f : Forward} (hf : s.fw.forward = some f) (hat : f.at_ + 12000000000 ≤ s.tb.frc)
    (hu : (s.wr R.BT_FWD_STATE 3).wr R.BT_FWD_FAILED (f.plants.getD f.pos 0) = u) :
    exec .forwardHopTimeout s =
      .next (State.wake { u with fw := { u.fw with forward := none } } opForward 0 0x0409 [f.plants.getD f.pos 0]) := by
  rw [exec_forwardHopTimeout, execForwardHopTimeout, hf, ← hu]
  exact congrArg _ (if_neg (Nat.not_lt.2 hat))

end

/-- Settles O34: every packet passes the gate and runs its body; the activations by the unit and their time, the hops by whether the service is up
and how long they have waited. -/
theorem transfersAndActivations : Obligations.TransfersAndActivations := by
  refine ⟨fun s r k n h hp ht h1 h16 hf hw => command_next hp (by decide) ?beginSlot,
    fun s r k n h p hp ht h16 hk hn => command_next hp (by decide) ?beginPart,
    fun s r k n h hp ht h16 hf => command_next hp (by decide) ?beginInForce,
    fun s r o d hp ht => command_next hp (by decide) ?chunkNone,
    fun s r o d x hp ht h0 hl hin => command_next hp (by decide) ?chunk,
    fun s r c x hp ht hg => command_next hp (by decide) ?endGap, fun s r c x hp ht hg hh => command_next hp (by decide) ?endTaken,
    fun s r c x hp ht hg hh => command_next hp (by decide) ?endHash, fun s r c hp ht => command_next hp (by decide) ?endNone,
    fun s r hp ht => command_next hp (by decide) ?abort,
    fun s r a w p n f hp ha hs hw hf hn hr => command_next hp (by decide) ?schedule,
    fun s r a w p hp ha hs => command_next hp (by decide) ?scheduleOther,
    fun s r a p hp ha hc hne hcmd hres hst => command_next hp (by decide) ?activate, fun s r hp => command_next hp (by decide) rfl,
    fun s r a b p f hp ha hne hb hok hf hfl hs hact => command_next hp (by decide) ?bankSelect,
    fun s p h => updateActivation_notPending h, fun s t p h9 hpend hu ht hat => updateActivation_atTick h9 hpend hu ht.symm hat,
    fun s p h9 hpend hu hat => updateActivation_cancelled h9 hpend hu hat, fun s t p l hu hc ht => commandedActivation_atTick hu hc ht.symm,
    fun s h => commandedActivation_idle h, fun s p q h => partRestartComplete_idle q h, fun s u q h hu => partRestartComplete_enclave q h hu.symm,
    fun s r a p n ns f hp ha hf hfw hm => command_next hp (by decide) ?forward, fun s n h => forwardHop_up h n,
    fun s h hu => forwardHop_down h hu, fun s h => forwardHopTimeout_idle h, fun s u f hf hat hu => forwardHopTimeout_due hf hat hu.symm⟩
  case beginSlot => simp [ht, h16, hf, hw]
  case beginPart => simp [ht, Nat.not_le.2 h16, hk, Nat.not_lt.2 hn]
  case beginInForce => simp [ht, h16, hf]
  case chunkNone => simp [ht]
  case chunk => simp [ht, h0, Nat.not_lt.2 hl, Nat.not_lt.2 hin]
  case endGap => simp [ht, hg]
  case endTaken => simp [ht, Nat.not_lt.2 hg, hh]
  case endHash => simp [ht, Nat.not_lt.2 hg, hh]
  case endNone => simp [ht]
  case abort => simp [ht]
  case schedule => simp [ha, hs, hw, hf, Nat.not_lt.2 hn, hr]
  case scheduleOther => simp [ha, hs]
  case activate =>
    obtain ⟨f, hf⟩ := Option.isSome_iff_exists.1 hst
    simp [ha, hc, hne, hcmd, hres, hf]
  case bankSelect => simp [ha, hne, Nat.not_le.2 hb, hok, hf, hfl, hs, hact]
  case forward => simp [ha, hf, hfw, hm]

/-! ### Packets of the session and mode groups (R384) -/

section
variable (s : State) (r : Req) (c : Cmd)

@[simp] theorem takeReq_modeHolder : (s.takeReq r c).acc.modeHolder = s.acc.modeHolder := by
  unfold State.takeReq
  split <;> rfl

/-- What ARM finds is read off the fields, the ticks, the switch and the pair (R119). -/
@[simp] theorem takeReq_armCheck (at_ : Nat) : (s.takeReq r c).armCheck at_ = s.armCheck at_ := by
  rw [takeReq_frame]
  rfl

end

/-- A resource that another session holds is refused with the holder's ID (R380). -/
theorem heldBy_other {s : State} {r : Req} {c : Cmd} {n : Nat} {f : State → State} (h : n ≠ r.session) :
    s.heldBy r c (some n) f = s.reply r c 0x000C [n] := if_neg h

/-- Settles O36: every packet passes the gate, and its body runs on a state that differs in the command service alone. -/
theorem sessionAndModeCommands : Obligations.SessionAndModeCommands := by
  refine ⟨fun s r n d hp hn => command_next hp (by decide) ?helloVersion, fun s r d hp => command_next hp (by decide) rfl,
    fun s r hp => command_next hp (by decide) rfl, fun s r hp => command_next hp (by decide) rfl,
    fun s r n hp => command_next hp (by decide) rfl, fun s r hp => command_next hp (by decide) rfl,
    fun s r hp => command_next hp (by decide) rfl, fun s r hp => command_next hp (by decide) rfl,
    fun s r m hp hh hm h3 h4 => command_next hp (by decide) ?prepare, fun s r m hp hh hm => command_next hp (by decide) ?prepareRange,
    fun s r w n k hp hh ht ha => command_next hp (by decide) ?arm, fun s r w n e hp hh ht ha => command_next hp (by decide) ?armRefused,
    fun s r hp => command_next hp (by decide) rfl, fun s r hp hh hs => command_next hp (by decide) ?cancel,
    fun s r hp hh hs => command_next hp (by decide) ?cancelNothing, fun s r n hp hh hn => command_next hp (by decide) ?cancelHeld,
    fun s r k l hp h1 h16 hl => command_next hp (by decide) ?rename, fun s r k l hp hk => command_next hp (by decide) ?renameAbsent,
    fun s r k hp h1 h16 hf => command_next hp (by decide) ?clear⟩
  case helloVersion => simp [hn]
  case prepare =>
    rw [takeReq_modeHolder, hh, heldBy_none, inRange_of (decide_eq_true hm)]
    simp [h3, h4]
  case prepareRange => rw [takeReq_modeHolder, hh, heldBy_none, inRange_of_not (decide_eq_false (Nat.not_lt.2 hm))]
  case arm => simp only [takeReq_modeHolder, hh, heldBy_none, takeReq_timeFrc, ht, takeReq_armCheck, ha]
  case armRefused => simp only [takeReq_modeHolder, hh, heldBy_none, takeReq_timeFrc, ht, takeReq_armCheck, ha]
  case cancel => simp [hh, heldBy_none, hs]
  case cancelNothing => simp [hh, heldBy_none, hs, mrNotprep]
  case cancelHeld => rw [takeReq_modeHolder, hh, heldBy_other hn]
  case rename => simp [inRange_of hl, Nat.ne_of_gt h1, Nat.not_lt.2 h16]
  case renameAbsent => rw [if_pos (by simpa using hk)]
  case clear => simp [Nat.ne_of_gt h1, Nat.not_lt.2 h16, hf]

end Sys2Proof.Proofs
end

section
/-! SUPPORT. The statement about control programs: the records of the retentive region, from the seal to the MRAM copy, and its erasure. -/

namespace Sys2Proof.Proofs

open Sys2Proof Sys2Proof.Machine Sys2Proof.Safety Sys2Proof.Laws

/-! ### The retentive copy (R142, R144, R152) -/

section
variable {s : State} {r : RetRecord} {rs : List RetRecord}

/-- The oldest sealed record is written from the tick after its frame (R142). -/
theorem retentiveRecordCommit_due (h : s.tt.sealedRecs = r :: rs) (hf : r.frame < s.tb.frameNo) :
    exec .retentiveRecordCommit s = .next s.commitRecord := by
  rw [exec_retentiveRecordCommit, execRetentiveRecordCommit, h]
  exact congrArg _ (if_pos (by simp [hf]))

theorem retentiveRecordCommit_idle (h : s.tt.sealedRecs = []) : exec .retentiveRecordCommit s = .next s := by
  rw [exec_retentiveRecordCommit, execRetentiveRecordCommit, h]

/-- Whatever a fold does to the MRAM copy, the oldest record leaves the journal and BUSY follows (R142, R152). -/
theorem foldRecord_cons {t : State} (h : s.tt.journal = r :: rs)
    (ht : (if r.marker && r.crc == Config.crc32 r.body then s.mramPut r.granules else s) = t) :
    s.foldRecord = { t with tt := { t.tt with journal := rs } }.retBusy := by
  rw [State.foldRecord, h, ← ht]

theorem retentiveFold_durable (h : s.tt.journal = r :: rs) (hm : r.marker = true) (hc : r.crc = Config.crc32 r.body) :
    exec .retentiveFold s =
      .next { s.mramPut r.granules with tt := { (s.mramPut r.granules).tt with journal := rs } }.retBusy :=
  congrArg _ (foldRecord_cons h (if_pos (by simp [hm, hc])))

/-- A record whose commit marker is not written does not reach the MRAM copy (R142). -/
theorem retentiveFold_unmarked (h : s.tt.journal = r :: rs) (hm : r.marker = false) :
    exec .retentiveFold s = .next { s with tt := { s.tt with journal := rs } }.retBusy :=
  congrArg _ (foldRecord_cons h (if_neg (by simp [hm])))

theorem ttRetClear_taken (hu : s.unit = .stop) (hl : s.lockOpen = true) : exec .ttRetClear s = .next s.retClear :=
  congrArg _ (if_pos (by simp [State.inStop, hu, hl]))

theorem ttRetClear_locked (hl : s.lockOpen = false) : exec .ttRetClear s = .next s :=
  congrArg _ (if_neg (by simp [hl]))

end

/-- Settles O10: the commit by whether a sealed record is there, the fold by its commit marker and CRC-32, CLEAR by the lock; the write
through is its definition. -/
theorem retentiveRecords : Obligations.RetentiveRecords :=
  ⟨fun _ _ _ h hf => retentiveRecordCommit_due h hf, fun _ h => retentiveRecordCommit_idle h,
    fun _ _ _ h hm hc => retentiveFold_durable h hm hc, fun _ _ _ h hm => retentiveFold_unmarked h hm, fun _ => rfl,
    fun _ hu hl => ttRetClear_taken hu hl, fun _ hl => ttRetClear_locked hl⟩

end Sys2Proof.Proofs
end

section
/-! SUPPORT. The statements about the loop engine: the latency of a loop call, the loop and state store windows, the bulk copy and solver relocation. -/

namespace Sys2Proof.Proofs

open Sys2Proof Sys2Proof.Machine Sys2Proof.Safety Sys2Proof.Laws

/-! ### Latency (R157) -/

theorem callLatency_loop (s : State) (desc : Nat) : s.callLatency .loop desc = 320 + 330 * leNat (s.bytes desc 2) := rfl

/-- Settles O49: the latency is linear in the length of the record list, evaluated at 512 records. -/
theorem loopCallLatency : Obligations.LoopCallLatency := fun s d => ⟨callLatency_loop s d, by decide⟩

/-! ### The windows (R176, R203) -/

section
variable {s : State} {a v : Nat}

theorem inStop_of_stop (h : s.unit = .stop) : s.inStop = true := by simp [State.inStop, h]

theorem inStop_of_ne_stop (h : s.unit ≠ .stop) : s.inStop = false := by simp [State.inStop, h]

/-- In STOP the record range takes a write, except for the bytes R161 does not list. -/
theorem loopWrite_inRange (hu : s.unit = .stop) (ha : a < 0x03020000) :
    s.loopWrite a v = if reservedByte a then s else s.setWord a v :=
  if_pos (by simp [inStop_of_stop hu, ha])

theorem loopWrite_refused (h : s.unit ≠ .stop ∨ 0x03020000 ≤ a) : s.loopWrite a v = s.wr R.LP_STATUS_WIN_WR_REFUSED 1 := by
  refine if_neg ?_
  rcases h with hu | ha
  · simp [inStop_of_ne_stop hu]
  · simp [Nat.not_lt.2 ha]

/-- In STOP the store below the chain area takes a write of any byte that is not reserved. -/
theorem storeWrite_stop (hu : s.unit = .stop) (ha : a < 0x02800000) (hr : reservedByte a = false) : s.storeWrite a v = s.setWord a v := by
  have hend : a < Config.storeEnd := Nat.lt_trans ha (by decide)
  rw [State.storeWrite, if_pos (by simp [inStop_of_stop hu, hend]), if_neg (by simp [hr, Nat.not_le.2 ha])]

theorem storeWrite_refused (hu : s.unit ≠ .stop) : s.storeWrite a v = s.wr R.SV_STATUS_WIN_WR_REFUSED 1 :=
  if_neg (by simp [inStop_of_ne_stop hu])

end

/-- A window read is served as an asynchronous access to one word, and delivers that word. -/
theorem lpWinRead_serve (s : State) (sub : Nat) :
    exec (.lpWinRead sub) s =
      .next { s.serve [s.lpWinAddr] sub with rdata := (s.serve [s.lpWinAddr] sub).readWord s.lpWinAddr } := rfl

/-! ### The bulk copy (R203, R204) -/

/-- The state in which a running copy has ended after `n` retried reads, before its bytes are moved. -/
def dmaEnded (s : State) (n : Nat) : State :=
  (((s.settleNow.wr R.SV_DMA_BUSY 0).wr R.SV_DMA_DONE 1).wr R.SV_DMA_RETRIES (min 65535 n)).retries n

section
variable {s : State} {n : Nat}

theorem svDmaStart_idle (h : s.bit R.SV_DMA_BUSY = false) :
    exec .svDmaStart s = .next ((s.wr R.SV_DMA_BUSY 1).wr R.SV_DMA_RETRIES 0) :=
  congrArg _ (if_neg (by simp [h]))

theorem svDmaStart_running (h : s.bit R.SV_DMA_BUSY = true) : exec .svDmaStart s = .next s := congrArg _ (if_pos h)

theorem svDmaComplete_within (hb : s.bit R.SV_DMA_BUSY = true)
    (hr : 32 * s.rd R.SV_DMA_SRC + 32 * s.rd R.SV_DMA_LEN ≤ Config.storeEnd - Config.storeBase) :
    exec (.svDmaComplete n none) s = .next ((dmaEnded s n).copyMem (Config.storeBase + 32 * s.rd R.SV_DMA_SRC)
      (Config.dramBase + s.rd64 R.SV_DMA_DST_LO R.SV_DMA_DST_HI) (32 * s.rd R.SV_DMA_LEN)) := by
  rw [exec_svDmaComplete, execSvDmaComplete, if_neg (by simp [hb])]
  exact congrArg _ (if_neg (Nat.not_lt.2 hr))

/-- A copy whose range leaves the state store moves no byte, whatever its reads met. -/
theorem svDmaComplete_beyond (bad : Option Nat) (hb : s.bit R.SV_DMA_BUSY = true)
    (hr : Config.storeEnd - Config.storeBase < 32 * s.rd R.SV_DMA_SRC + 32 * s.rd R.SV_DMA_LEN) :
    exec (.svDmaComplete n bad) s = .next ((dmaEnded s n).wr R.SV_DMA_ERR 1) := by
  rw [exec_svDmaComplete, execSvDmaComplete, if_neg (by simp [hb])]
  exact congrArg _ (if_pos hr)

end

/-! ### Solver relocation (R23, R201, R204) -/

section
variable {s : State} {u p : Nat}

theorem svRelocOrder_stop (hu : s.unit = .stop) (hp : p < 9) (hs : s.rd R.SV_PHYS_STATE p = 1) :
    s.svRelocOrder u p = s.svRelocFlip u p := by
  rw [State.svRelocOrder, if_pos (by simp [hp, hs]), if_pos (inStop_of_stop hu)]

theorem svRelocOrder_pending (hu : s.unit ≠ .stop) (hp : p < 9) (hs : s.rd R.SV_PHYS_STATE p = 1) :
    s.svRelocOrder u p = { s.wr R.SV_RELOC_STATUS_PENDING 1 with lat := { s.lat with svReloc := some (u, p) } } := by
  rw [State.svRelocOrder, if_pos (by simp [hp, hs]), if_neg (by simp [inStop_of_ne_stop hu])]

/-- Only a spare unit is a target. -/
theorem svRelocOrder_refused (h : 9 ≤ p ∨ s.rd R.SV_PHYS_STATE p ≠ 1) : s.svRelocOrder u p = s.wr R.SV_RELOC_STATUS_REFUSED 1 := by
  refine if_neg ?_
  rcases h with hp | hs
  · simp [Nat.not_lt.2 hp]
  · simp [hs]

theorem solverRelocation_ordered (h : s.lat.svReloc = some (u, p)) : exec .solverRelocation s = .next (s.toTick.svRelocFlip u p) := by
  rw [exec_solverRelocation, execSolverRelocation, h]

theorem solverRelocation_idle (h : s.lat.svReloc = none) : exec .solverRelocation s = .next s := by
  rw [exec_solverRelocation, execSolverRelocation, h]

end

/-- Settles O14: a read by whether the unit is in RUN, a write by the unit and its address, the bulk copy by BUSY and its range, the
relocation by the unit and its target, then by whether one is ordered. -/
theorem engineWindowsAndBulkCopies : Obligations.EngineWindowsAndBulkCopies := by
  refine ⟨fun s sub hr => ?readIdle, fun s sub n hr hn => ?readRun, fun s v hu ha hr => ?loopReserved, fun s v hu ha hr => ?loopTaken,
    fun _ _ h => congrArg _ (loopWrite_refused h), fun _ _ => rfl, fun _ _ hu ha hr => congrArg _ (storeWrite_stop hu ha hr),
    fun _ _ hu => congrArg _ (storeWrite_refused hu), fun _ h => svDmaStart_idle h, fun _ h => svDmaStart_running h, fun _ => rfl,
    fun _ _ hb hr => svDmaComplete_within hb hr, fun _ _ bad hb hr => svDmaComplete_beyond bad hb hr, fun _ => rfl,
    fun _ _ _ h => solverRelocation_ordered h, fun s v hu hp hs hv => ?flip, fun _ hu hp hs => congrArg _ (svRelocOrder_pending hu hp hs),
    fun _ h => congrArg _ (svRelocOrder_refused h), fun _ h => solverRelocation_idle h⟩
  case readIdle => rw [lpWinRead_serve, serve_of_not_inRun _ _ hr]
  case readRun => rw [lpWinRead_serve, serve_of_inRun _ _ hr, ← hn]
  case loopReserved => exact congrArg _ ((loopWrite_inRange hu ha).trans (if_pos hr))
  case loopTaken => exact congrArg _ ((loopWrite_inRange hu ha).trans (if_neg (by simp [hr])))
  case flip =>
    subst hv
    exact congrArg _ (svRelocOrder_stop hu hp hs)

end Sys2Proof.Proofs
end

section
/-! SUPPORT. The statements about universal channels: conversion windows, control frames, fallback, supplies and loop power of the field groups,
and the packets of the configuration group. -/

namespace Sys2Proof.Proofs

open Sys2Proof Sys2Proof.Machine Sys2Proof.Safety Sys2Proof.Laws

/-! ### Conversion windows (R211, R221, R232) -/

section
variable {s : State} {ch e : Nat} {m : Meas}

/-- A channel in use closes at the end of its window, or parks its measurement for the cold junction it waits for (R211, R221). -/
theorem conversionWindowEnd_inUse (hch : ch < 96) (hm : s.chMode (ch / 8) (ch % 8) ≠ 0) (hs : (s.group (ch / 8)).supply = true)
    (he : s.windowEnd ch = some e) :
    exec (.conversionWindowEnd ch m) s =
      .next (if (s.toFrc e).cjWaits ch then (s.toFrc e).updChan ch (fun c => { c with parked := some m })
        else ((s.toFrc e).closeWindow ch m).closeParked (ch / 8)) := by
  rw [exec_conversionWindowEnd, execConversionWindowEnd, if_neg (by simp [Nat.not_le.2 hch, hs]), if_neg hm, he]

theorem conversionWindowEnd_off (hch : ch < 96) (hs : (s.group (ch / 8)).supply = true) (hm : s.chMode (ch / 8) (ch % 8) = 0) :
    exec (.conversionWindowEnd ch m) s = .next (s.fallbackMeas ch m) := by
  rw [exec_conversionWindowEnd, execConversionWindowEnd, if_neg (by simp [Nat.not_le.2 hch, hs]), if_pos hm]

theorem conversionWindowEnd_unsupplied (h : 96 ≤ ch ∨ (s.group (ch / 8)).supply = false) :
    exec (.conversionWindowEnd ch m) s = .next s :=
  congrArg _ (if_pos (by simpa using h))

end

/-! ### The crossing and fallback (R229 to R232, R515) -/

section
variable {s : State} {g : Nat}

/-- What falls before the next tick happens at its time (R58). -/
theorem upTo_within {t : Nat} {f : State → State} (h : s.ticking = false ∨ max s.tb.frc t < s.nextTick) : s.upTo t f = f (s.toFrc t) :=
  if_pos (by simpa using h)

theorem fieldControlFrame_supplied (ok : Bool) (hg : g < 12) (hs : (s.group g).supply = true) :
    exec (.fieldControlFrame g ok) s = .next (s.upTo (s.nextControl g) (fun s =>
      let s := s.updGroup g (fun x => { x with ctlAt := some s.tb.frc })
      if ok then
        ((s.updGroup g (fun x => { x with valid := x.valid + 1, invalid := 0 })).wr R.FG_STATUS_CROSS_OK 1 g).updGroupChans g Chan.arrive
      else ((s.updGroup g (fun x => { x with valid := 0, invalid := x.invalid + 1 })).wr R.FG_STATUS_CROSS_OK 0 g).crossFail g)) :=
  congrArg _ (if_neg (by simp [Nat.not_le.2 hg, hs]))

theorem groupFallbackEntry_lost (hg : g < 12) (hi : 100 ≤ (s.group g).invalid) (hs : (s.group g).supply = true)
    (hf : s.bit R.FG_STATUS_FALLBACK g = false) :
    exec (.groupFallbackEntry g) s = .next ((s.updGroup g (fun x => { x with lost := true, order := false })).fallback g true) := by
  rw [exec_groupFallbackEntry, execGroupFallbackEntry, if_pos (by simp [hg, hi, hs, hf])]

theorem groupFallbackEntry_kept (hi : (s.group g).invalid < 100) : exec (.groupFallbackEntry g) s = .next s :=
  congrArg _ (if_neg (by simp [Nat.not_le.2 hi]))

theorem groupResume_taken (hg : g < 12) (hf : s.bit R.FG_STATUS_FALLBACK g = true) (hs : (s.group g).supply = true) (hu : s.unit ≠ .boot)
    (ho : (s.group g).order = true ∨ 100 ≤ (s.group g).valid) :
    exec (.groupResume g) s =
      .next (((s.toTick.updGroup g (fun x => { x with lost := false, order := false })).wr R.FG_STATUS_FALLBACK 0 g).driveChans) := by
  rw [exec_groupResume, execGroupResume, if_pos (by simpa [hg, hf, hs, hu] using ho)]

theorem groupResume_idle (hf : s.bit R.FG_STATUS_FALLBACK g = false) : exec (.groupResume g) s = .next s :=
  congrArg _ (if_neg (by simp [hf]))

/-- The group's outputs, its runs of frames and its shadow end with its supply (R232). -/
theorem groupSupplyFail_group (hg : g < 12) :
    exec (.groupSupplyFail g) s = .next ((((s.updGroup g (fun x => { x with supply := false, valid := 0, invalid := 0, shadow := none })).wr
      R.FG_STATUS_CROSS_OK 0 g).driveChans).wake opSpare g 0x0C05) := by
  rw [exec_groupSupplyFail, execGroupSupplyFail, if_neg (Nat.not_le.2 hg)]

/-- The group powers up in fallback with nothing latched and no copy of a block (R231, R232). -/
theorem groupSupplyReturn_failed (hg : g < 12) (hs : (s.group g).supply = false) :
    exec (.groupSupplyReturn g) s = .next (((s.updGroup g (fun x => { x with supply := true })).updGroupChans g (fun c => { c with
      latched := none, ready := none, copyOk := false, held := none })).fallback g false) := by
  rw [exec_groupSupplyReturn, execGroupSupplyReturn, if_neg (by simp [Nat.not_le.2 hg, hs])]

end

/-! ### Loop power (R227) -/

/-- What the groups draw in all at a sample, each held to its limit. -/
def drawnTotal (t : State) (draw : List Nat) : Nat := ((List.range 12).map (fun g => min (draw.getD g 0) (t.rd R.FG_POWER_LIMIT g))).sum

/-- A group's power registers after a sample taken in state `t`, with the reduced limit on or off. -/
def powerWritten (t : State) (draw : List Nat) (on : Bool) (u : State) (g : Nat) : State :=
  (((u.wr R.FG_POWER_DRAW (min (min (draw.getD g 0) (t.rd R.FG_POWER_LIMIT g)) (if on then 3330 else 5000)) g).wr R.FG_POWER_LIMIT
    (if on then 3330 else 5000) g).wr R.FG_STATUS_MODULE_LIMIT (if on then 1 else 0) g).wr R.FG_STATUS_POWER_LIMIT
    (if (if on then 3330 else 5000) ≤ draw.getD g 0 then 1 else 0) g

theorem powerWritten_full (t : State) (draw : List Nat) :
    powerWritten t draw false = fun u g =>
      (((u.wr R.FG_POWER_DRAW (min (min (draw.getD g 0) (t.rd R.FG_POWER_LIMIT g)) 5000) g).wr R.FG_POWER_LIMIT 5000 g).wr
        R.FG_STATUS_MODULE_LIMIT 0 g).wr R.FG_STATUS_POWER_LIMIT (if 5000 ≤ draw.getD g 0 then 1 else 0) g := by
  funext u g
  simp only [powerWritten, Bool.false_eq_true, if_false]

theorem powerWritten_reduced (t : State) (draw : List Nat) :
    powerWritten t draw true = fun u g =>
      (((u.wr R.FG_POWER_DRAW (min (min (draw.getD g 0) (t.rd R.FG_POWER_LIMIT g)) 3330) g).wr R.FG_POWER_LIMIT 3330 g).wr
        R.FG_STATUS_MODULE_LIMIT 1 g).wr R.FG_STATUS_POWER_LIMIT (if 3330 ≤ draw.getD g 0 then 1 else 0) g := by
  funext u g
  simp only [powerWritten, if_true]

/-- A sample in the frame in progress, by whether the reduced limit is on after it: above 40.0 W, or until 1 s below 38.0 W. -/
theorem loopPowerSample_within {s t u : State} {draw : List Nat} {at_ : Nat} {on : Bool} {low : Option Nat}
    (hat : at_ = max s.sup.loopAt ((s.tb.frc + 99999) / 100000 * 100000)) (hin : s.ticking = false ∨ max s.tb.frc at_ < s.nextTick)
    (ht : s.toFrc at_ = t) (hlow : (if drawnTotal t draw < 38000 then some (t.sup.loopLow.getD t.tb.frc) else none) = low)
    (hu : { t with sup := { t.sup with loopLow := low, loopAt := t.tb.frc + 100000 } } = u)
    (hon : (decide (40000 < drawnTotal t draw) ||
      (t.bit R.FG_STATUS_MODULE_LIMIT 0 && !low.any (fun x => decide (x + 100000000 ≤ t.tb.frc)))) = on) :
    exec (.loopPowerSample draw) s = .next ((List.range 12).foldl (powerWritten t draw on) u) := by
  have hwas : u.bit R.FG_STATUS_MODULE_LIMIT 0 = t.bit R.FG_STATUS_MODULE_LIMIT 0 := bit_congr (hu ▸ rfl) _ _ _
  rw [← hwas] at hon
  rw [exec_loopPowerSample, execLoopPowerSample, ← hat, upTo_within hin, ht]
  unfold drawnTotal at hlow hon
  simp only [hlow, hu, hon]
  rfl

/-- Settles O15: a window by the mode, the supply and the cold junction, a control frame by its validity, fallback by the runs of frames, the
loop power limit by the total drawn. -/
theorem fieldGroupCrossings : Obligations.FieldGroupCrossings := by
  refine ⟨fun s ch e m hch hm hs he hw => ?closes, fun s ch e m hch hm hs he hw => ?parks, fun s ch m hch hs hm => ?off,
    fun _ _ _ h => conversionWindowEnd_unsupplied h, fun _ _ hg hs => fieldControlFrame_supplied true hg hs,
    fun _ _ hg hs => fieldControlFrame_supplied false hg hs, fun _ _ hg hi hs hf => groupFallbackEntry_lost hg hi hs hf,
    fun _ _ hi => groupFallbackEntry_kept hi, fun _ _ hg hf hs hu ho => groupResume_taken hg hf hs hu ho,
    fun _ _ hf => groupResume_idle hf, fun _ => rfl, fun _ _ hg => groupSupplyFail_group hg,
    fun _ _ hg hs => groupSupplyReturn_failed hg hs, fun s draw at_ hat hin htot hwas => ?below,
    fun s draw at_ hat hin htot => ?above⟩
  case closes => rw [conversionWindowEnd_inUse hch hm hs he, if_neg (by simp [hw])]
  case parks => rw [conversionWindowEnd_inUse hch hm hs he, if_pos hw]
  case off => simp [conversionWindowEnd_off hch hs hm, State.fallbackMeas, and_assoc]
  case below =>
    have h38 : drawnTotal (s.toFrc at_) draw < 38000 := htot
    have h40 : ¬40000 < drawnTotal (s.toFrc at_) draw := by omega
    rw [loopPowerSample_within (on := false) hat hin rfl (if_pos h38) rfl (by rw [decide_eq_false h40, hwas]; rfl), powerWritten_full]
  case above =>
    have h40 : 40000 < drawnTotal (s.toFrc at_) draw := htot
    have h38 : ¬drawnTotal (s.toFrc at_) draw < 38000 := by omega
    rw [loopPowerSample_within (on := true) hat hin rfl (if_neg h38) rfl (by rw [decide_eq_true h40, Bool.true_or]), powerWritten_reduced]

/-! ### Packets of the configuration group (R384) -/

section
variable (s : State) (r : Req) (c : Cmd)

@[simp] theorem takeReq_harts : (s.takeReq r c).harts = s.harts := by rw [takeReq_frame]

@[simp] theorem takeReq_hart (ch : Nat) : (s.takeReq r c).hart ch = s.hart ch := by rw [State.hart, takeReq_harts, State.hart]

/-- The modem's address range and its mode are read off the fields (R241, R245). -/
@[simp] theorem takeReq_hartAddr (ch a : Nat) : (s.takeReq r c).hartAddr ch a = s.hartAddr ch a := by
  rw [takeReq_frame]
  rfl

@[simp] theorem takeReq_hartOn (ch : Nat) : (s.takeReq r c).hartOn ch = s.hartOn ch := by
  rw [takeReq_frame]
  rfl

end

/-- From 1 to 4,096 words inside the register blocks are read and answered. -/
theorem readWords_of {s : State} {r : Req} {c : Cmd} {a k : Nat} (h1 : 1 ≤ k) (hk : k ≤ 4096)
    (ha : (List.range k).all (fun i => regAddr (a + 4 * i)) = true) :
    s.readWords r c a k = (s.regReads a k).1.reply r c 0 (s.regReads a k).2 := by
  rw [State.readWords, inRange_of (by simp [h1, hk]), if_pos ha]

/-- Settles O38: every packet passes the gate, and its body runs on a state that differs in the command service alone. -/
theorem configurationCommands : Obligations.ConfigurationCommands := by
  refine ⟨fun s r a k hp h1 hk ha => command_next hp (by decide) (readWords_of h1 hk ha),
    fun s r a k hp h1 hk ha => command_next hp (by decide) (readWords_of h1 hk ha),
    fun s r l hp hl ha => command_next hp (by decide) ?words, fun s r a v hp ha => command_next hp (by decide) (if_pos ha),
    fun s r a v hp ha => command_next hp (by decide) (if_neg (by simp [ha])),
    fun s r a m hp ha => command_next hp (by decide) (if_pos ha), fun s r n b hp hb => command_next hp (by decide) ?apply,
    fun s r n hp hb => command_next hp (by decide) ?applyNone, fun s r n b hp hb => command_next hp (by decide) ?cancel,
    fun s r hp => command_next hp (by decide) rfl,
    fun s r k hp hk => command_next hp (by decide) (require_of (decide_eq_true hk)),
    fun s r k hp hk => command_next hp (by decide) (require_of_not (decide_eq_false (Nat.not_lt.2 hk))),
    fun s r i a m g p hp hi hlo hhi => command_next hp (by decide) ?net,
    fun s r k g o hp hk => command_next hp (by decide) (require_of (decide_eq_true hk)),
    fun s r k a o d hp hk ha hon hq => command_next hp (by decide) ?hart,
    fun s r k a o d hp hk ha => command_next hp (by decide) ?hartAddress,
    fun s r k a o d hp hk ha hon => command_next hp (by decide) ?hartOff,
    fun s r k hp hk => command_next hp (by decide) (require_of (decide_eq_true hk)),
    fun s r k l hp hk hl => command_next hp (by decide) ?polls, fun s r p f hp hport hf => command_next hp (by decide) ?recover,
    fun s r p d hp hport hd => command_next hp (by decide) ?send,
    fun s r p d hp hport => command_next hp (by decide) (require_of_not (decide_eq_false (Nat.not_lt.2 hport)))⟩
  case words => rw [inRange_of (by simp [hl]), if_pos ha]
  case apply => rw [hb]
  case applyNone => rw [hb]
  case cancel => rw [hb]
  case net => rw [require_of (decide_eq_true hi), inRange_of (by simp [hlo, hhi])]
  case hart => simp [require_of, inRange_of, hk, ha, hon, Nat.not_le.2 hq]
  case hartAddress => rw [require_of (decide_eq_true hk), inRange_of_not (by simpa using ha)]
  case hartOff => simp [require_of, inRange_of, hk, ha, hon]
  case polls => rw [require_of (decide_eq_true hk), inRange_of (by simpa using hl)]
  case recover => rw [require_of (decide_eq_true hport), inRange_of (decide_eq_true hf)]
  case send =>
    have hrec : d.isEmpty = false := by
      cases d with
      | nil => exact absurd hd (by decide)
      | cons b d => rfl
    have hlen : (d.length == 64 || d.length == 128) = true := by rw [hd]; rfl
    rw [require_of (decide_eq_true hport), inRange_of hlen]
    simp only [List.drop_eq_nil_of_le (Nat.le_of_eq hd), List.take_of_length_le (Nat.le_of_eq hd), hrec, List.isEmpty_nil,
      Bool.false_eq_true, if_true, if_false]

end Sys2Proof.Proofs
end

section
/-! SUPPORT. The statements about HART and discrete I/O: polls, frames and responses of the modems; refreshes, control frames, overloads, supplies
and applies of the discrete block. -/

namespace Sys2Proof.Proofs

open Sys2Proof Sys2Proof.Machine Sys2Proof.Safety Sys2Proof.Laws

/-! ### HART requests (R242, R243) -/

section
variable {s : State} {ch e : Nat} {q : HartReq}

/-- An entry never polled is due: it is queued unless it waits already or the queue is full (R242). -/
theorem hartPollDue_first {p : HartPoll} (hp : (s.hart ch).polls[e]? = some p) (hon : s.hartOn ch = true) (hl : p.last = none)
    (hq : ((s.hart ch).queue ++ (s.hart ch).cur.toList).any (fun q => q.entry == some e) = false)
    (hd : (s.hart ch).queue.length < hartDepth) :
    exec (.hartPollDue ch e) s = .next (s.updHart ch (fun h => { h with queue := h.queue ++
      [{ session := 0, tag := 0, entry := some e, address := p.address, command := p.command, data := [], queued := s.tb.frc }] })) := by
  rw [exec_hartPollDue, execHartPollDue]
  simp only [hp]
  exact congrArg _ (if_pos (by simp [hon, hl, hq, hd]))

theorem hartPollDue_noEntry (hp : (s.hart ch).polls[e]? = none) : exec (.hartPollDue ch e) s = .next s := by
  rw [exec_hartPollDue, execHartPollDue]
  simp only [hp]

theorem hartRequestExpired_found (hq : (s.hart ch).queue.find? (fun q => decide (q.queued + 1000000000 < s.tb.frc)) = some q) :
    exec (.hartRequestExpired ch) s =
      .next ((s.updHart ch (fun h => { h with queue := h.queue.filter (fun x => x != q) })).hartReply q stBusy) := by
  rw [exec_hartRequestExpired, execHartRequestExpired, hq]

theorem hartRequestExpired_empty (hq : (s.hart ch).queue = []) : exec (.hartRequestExpired ch) s = .next s := by
  rw [exec_hartRequestExpired, execHartRequestExpired, hq]
  rfl

/-- A host's request next in the queue starts: it leaves the queue, is in progress with its first try, and its frame leaves (R243). -/
theorem hartFrameStart_fresh {u : State} (hon : s.hartOn ch = true) (hi : s.rd R.HART_STATUS_STATE (ch / 8) (ch % 8) = 0)
    (hh : s.hartHeld ch = false) (hf : s.bit R.FG_STATUS_FALLBACK (ch / 8) = false) (hc : (s.hart ch).cur = none)
    (hn : hartNext (s.hart ch).queue = some q) (he : q.entry = none) (hs : s.bit R.HART_CFG_SYNC (ch / 8) (ch % 8) = false)
    (hu : s.updHart ch (fun h => { h with
      queue := h.queue.filter (fun x => x != q), cur := some q, tries := 0
      txEnd := some (s.tb.frc + hartTime (s.hartPreamble ch) q) }) = u) :
    exec (.hartFrameStart ch true) s =
      .next (((u.emit (.hart ch) .frame [u.hartPreamble ch, q.address, q.command] q.data).updChan ch
        (fun c => { c with hartTx := true })).hartState ch 1) := by
  subst hu
  rw [exec_hartFrameStart, execHartFrameStart, if_neg (by simp [hon, hi, hh, hf, hs])]
  have hserved : ((s.hart ch).cur.orElse fun _ => hartNext (s.hart ch).queue) = some q := by rw [hc, hn]; rfl
  simp only [hserved, he]
  simp only [hc, Option.isNone_none, if_true]

theorem hartFrameStart_off (loopFree : Bool) (hon : s.hartOn ch = false) : exec (.hartFrameStart ch loopFree) s = .next s :=
  congrArg _ (if_pos (by simp [hon]))

end

/-! ### HART responses and bursts (R244, R246) -/

section
variable {s : State} {ch : Nat} {m : HartMsg} {q : HartReq}

/-- Once its frame has been sent the modem awaits the response. -/
theorem hartAwaits_of (hst : s.rd R.HART_STATUS_STATE (ch / 8) (ch % 8) ≠ 0) (ht : s.hartSends ch = false) : s.hartAwaits ch = true := by
  simp [State.hartAwaits, hst, ht]

/-- A response without a communication error completes the request; a poll's is kept (R242, R244). -/
theorem hartResponseRx_valid {u : State} (hc : (s.hart ch).cur = some q) (hw : s.hartAwaits ch = true) (hm : m.comm = 0)
    (hu : ((s.hartState ch 3).hartHeard ch m).updHart ch (fun h => { h with
      cur := none, tries := 0, responses := if q.entry.isSome then hartKeep h.responses m else h.responses }) = u) :
    exec (.hartResponseRx ch m) s = .next ((((u.hartState ch 0).hartOutcome ch true).inc R.HART_COUNT_OK (ch / 8) (ch % 8)).hartReply q 0
      ([0, BitVec.ofNat 8 m.status] ++ m.data)) := by
  rw [exec_hartResponseRx, execHartResponseRx, hc]
  simp only [hw, hm, hu]
  rfl

theorem hartResponseRx_error (hc : (s.hart ch).cur = some q) (hw : s.hartAwaits ch = true) (hm : m.comm ≠ 0) :
    exec (.hartResponseRx ch m) s = .next (((s.hartState ch 3).hartHeard ch m).hartFail ch q) := by
  rw [exec_hartResponseRx, execHartResponseRx, hc]
  simp [hw, hm]

theorem hartResponseTimeout_awaited (hc : (s.hart ch).cur = some q) (hw : s.hartAwaits ch = true) :
    exec (.hartResponseTimeout ch) s = .next (s.hartFail ch q) := by
  rw [exec_hartResponseTimeout, execHartResponseTimeout, hc]
  exact congrArg _ (if_pos hw)

theorem hartResponseTimeout_idle (hc : (s.hart ch).cur = none) : exec (.hartResponseTimeout ch) s = .next s := by
  rw [exec_hartResponseTimeout, execHartResponseTimeout, hc]

theorem hartBurstRx_kept {u : State} (hon : s.hartOn ch = true) (hf : s.bit R.FG_STATUS_FALLBACK (ch / 8) = false)
    (hu : (s.hartHeard ch m).inc R.HART_COUNT_BURST (ch / 8) (ch % 8) = u)
    (hk : u.bit R.HART_CFG_BURST_RX (ch / 8) (ch % 8) = true) :
    exec (.hartBurstRx ch m) s = .next (u.updHart ch (fun h => { h with bursts := hartKeep h.bursts m })) := by
  rw [exec_hartBurstRx, execHartBurstRx, if_neg (by simp [hon, hf])]
  simp only [hu, hk, if_true]

theorem hartBurstRx_idle (h : s.hartOn ch = false ∨ s.bit R.FG_STATUS_FALLBACK (ch / 8) = true) :
    exec (.hartBurstRx ch m) s = .next s :=
  congrArg _ (if_pos (by simpa using h))

end

/-- Settles O17: a poll by its entry, a frame by whether the channel is a master, a response by the request in progress and its
communication byte, an expiry by the queue, a burst by whether the modem listens. -/
theorem hartTransactions : Obligations.HartTransactions :=
  ⟨fun _ _ _ _ hp hon hl hq hd => hartPollDue_first hp hon hl hq hd, fun _ _ _ hp => hartPollDue_noEntry hp,
    fun _ _ _ hon hi hh hf hc hn he hs => hartFrameStart_fresh hon hi hh hf hc hn he hs rfl, fun _ _ hon => hartFrameStart_off true hon,
    fun _ _ _ _ _ hc hst ht hm hu => hartResponseRx_valid hc (hartAwaits_of hst ht) hm hu.symm,
    fun _ _ _ _ hc hst ht hm => hartResponseRx_error hc (hartAwaits_of hst ht) hm,
    fun _ _ _ hc hst ht => hartResponseTimeout_awaited hc (hartAwaits_of hst ht), fun _ _ hc => hartResponseTimeout_idle hc,
    fun _ _ _ hq => hartRequestExpired_found hq, fun _ _ hq => hartRequestExpired_empty hq,
    fun _ _ _ hon hf hk => hartBurstRx_kept hon hf rfl hk, fun _ _ _ h => hartBurstRx_idle h⟩

/-! ### Refreshes of the discrete inputs (R249 to R251, R258) -/

section
variable {s u : State} {volts : List Int} {check : Nat}

/-- A valid refresh before the next tick, by what its driver checks report: after 100 misses every input is initialised anew. -/
theorem diRefresh_valid {t v : State} (hin : 1000 * s.nextRefresh 500 + 500 < s.nextTick)
    (hu : (s.toFrc (1000 * s.nextRefresh 500 + 500)).updDio (fun x => { x with refresh := s.nextRefresh 500 + 1 }) = u)
    (ht : (if 100 ≤ u.dio.missed then u.updDio (fun x => { x with init := 2 ^ 32 - 1 }) else u) = t)
    (hv : [0, 1].foldl (fun s h => if bitOf check h then s.dioFault h else s)
      (t.nextFree.updDio (fun x => { x with missed := 0, check := check % 4 })) = v) :
    exec (.diRefresh volts check true) s = .next ((v.wr R.DIO_STATUS_IN_OK 1).diFilter (t.diInverted (t.diSamples volts))) := by
  rw [exec_diRefresh, execDiRefresh]
  simp only [if_true, if_neg (Nat.not_le.2 hin), hu, ht]
  simp only [hv]

theorem diRefresh_invalid (hin : 1000 * s.nextRefresh 400 + 400 < s.nextTick)
    (hu : (s.toFrc (1000 * s.nextRefresh 400 + 400)).updDio (fun x => { x with refresh := s.nextRefresh 400 + 1 }) = u) :
    exec (.diRefresh volts check false) s = .next (((u.updDio (fun x => { x with missed := x.missed + 1, wCross := true })).wr
      R.DIO_STATUS_IN_OK 0).inc R.DIO_CROSS_ERR_COUNT) := by
  subst hu
  rw [exec_diRefresh, execDiRefresh]
  exact congrArg _ (if_neg (Nat.not_le.2 hin))

/-- Of the driver checks only bits 0 and 1 count, one for each half (R258). -/
theorem bitOf_mod_four {h : Nat} (hh : h < 2) : bitOf (check % 4) h = bitOf check h := by
  simp [bitOf, Nat.testBit_mod_two_pow check 2 h, hh]

theorem checkFaults_none (hc : check % 4 = 0) : [0, 1].foldl (fun s h => if bitOf check h then s.dioFault h else s) s = s := by
  have h0 : bitOf check 0 = false := by rw [← bitOf_mod_four (by decide), hc]; rfl
  have h1 : bitOf check 1 = false := by rw [← bitOf_mod_four (by decide), hc]; rfl
  simp [h0, h1]

theorem checkFaults_both (hc : check % 4 = 3) :
    [0, 1].foldl (fun s h => if bitOf check h then s.dioFault h else s) s = (s.dioFault 0).dioFault 1 := by
  have h0 : bitOf check 0 = true := by rw [← bitOf_mod_four (by decide), hc]; rfl
  have h1 : bitOf check 1 = true := by rw [← bitOf_mod_four (by decide), hc]; rfl
  simp [h0, h1]

theorem diInputStale_missed (h : 100 ≤ s.dio.missed) : exec .diInputStale s = .next (s.wr R.DIO_STATUS_IN_STALE 1) := congrArg _ (if_pos h)

theorem diInputStale_fresh (h : s.dio.missed < 100) : exec .diInputStale s = .next s := congrArg _ (if_neg (Nat.not_le.2 h))

/-- The ON voltage is 11 V or 15 V by the input's type (R248). -/
theorem diSample_on (d : Nat) {mv : Int} (h : 15000 ≤ mv) : s.diSample d mv = true := by
  refine if_pos ?_
  split <;> omega

theorem diSample_off (d : Nat) {mv : Int} (h : mv ≤ 5000) : s.diSample d mv = false := by
  rw [State.diSample, if_neg (by split <;> omega), if_pos h]

end

/-! ### The output block (R256, R259) -/

section
variable {s : State}

theorem doImageFrame_valid {x : Nat × Nat} (hx : s.dio.xfer = some x) (hs : s.dio.sent = false) :
    exec (.doImageFrame true) s = .next (s.updDio (fun d => { d with sent := true, got := some x })) := by
  rw [exec_doImageFrame, execDoImageFrame, if_neg (by simp [hx, hs]), if_pos rfl]
  simp only [State.updDio, hx]

theorem doImageFrame_invalid {x : Nat × Nat} (hx : s.dio.xfer = some x) (hs : s.dio.sent = false) :
    exec (.doImageFrame false) s = .next ((s.updDio (fun d => { d with sent := true })).inc R.DIO_CROSS_ERR_COUNT) :=
  congrArg _ (if_neg (by simp [hx, hs]))

/-- With no image transferred, or its own frame over, no image arrives. -/
theorem doImageFrame_none (ok : Bool) (h : s.dio.xfer = none ∨ s.dio.sent = true) : exec (.doImageFrame ok) s = .next s :=
  congrArg _ (if_pos (by simpa using h))

theorem doBlockDeenergise_lost (hi : 100 ≤ s.dio.invalid) (ho : s.bit R.DIO_STATUS_OUT_OFF = false) :
    exec .doBlockDeenergise s = .next ((s.updDio (fun x => { x with lost := true, order := false })).deenergise) :=
  congrArg _ (if_pos (by simp [hi, ho]))

theorem doBlockDeenergise_kept (hi : s.dio.invalid < 100) : exec .doBlockDeenergise s = .next s :=
  congrArg _ (if_neg (by simp [Nat.not_le.2 hi]))

theorem doBlockResume_taken (ho : s.bit R.DIO_STATUS_OUT_OFF = true) (hu : s.unit ≠ .boot)
    (hr : s.dio.order = true ∨ s.dio.lost = true ∧ 100 ≤ s.dio.valid) :
    exec .doBlockResume s =
      .next (((s.toTick.updDio (fun x => { x with lost := false, order := false })).wr R.DIO_STATUS_OUT_OFF 0).driveDos) :=
  congrArg _ (if_pos (by simpa [ho, hu] using hr))

theorem doBlockResume_boot (hu : s.unit = .boot) : exec .doBlockResume s = .next s := congrArg _ (if_neg (by simp [hu]))

end

/-! ### Overloads and field supplies (R255, R258) -/

section
variable {s : State} {o : Nat}

theorem doCurrentLimit_limit (ho : o < 32) (ht : s.doTerminal o = true) :
    exec (.doCurrentLimit o .limit) s = .next ((s.updDio (fun x => { x with limited := o :: x.limited.filter (· != o) })).dioFault (o / 16)) := by
  rw [exec_doCurrentLimit, execDoCurrentLimit, if_neg (Nat.not_le.2 ho)]
  exact congrArg _ (if_pos ht)

theorem doCurrentLimit_shutdown (ho : o < 32) (ht : s.doTerminal o = true) :
    exec (.doCurrentLimit o .shutdown) s = .next ((s.updDio (fun x => { x with
      limited := o :: x.limited.filter (· != o), thermal := (o, s.tb.frc) :: x.thermal })).dioFault (o / 16)) := by
  rw [exec_doCurrentLimit, execDoCurrentLimit, if_neg (Nat.not_le.2 ho)]
  exact congrArg _ (if_pos ht)

theorem doCurrentLimit_ended (ho : o < 32) :
    exec (.doCurrentLimit o .ended) s = .next (s.updDio (fun x => { x with limited := x.limited.filter (· != o) })) :=
  congrArg _ (if_neg (Nat.not_le.2 ho))

/-- An output that is off goes into no current limit and overheats in none. -/
theorem doCurrentLimit_off {ev : Overload} (he : ev ≠ .ended) (ht : s.doTerminal o = false) : exec (.doCurrentLimit o ev) s = .next s := by
  cases ev with
  | limit => simp [execDoCurrentLimit, ht]
  | shutdown => simp [execDoCurrentLimit, ht]
  | ended => exact absurd rfl he

theorem fieldSupplyLow_noHalf {h : Nat} (low : Bool) (hh : 2 ≤ h) : exec (.fieldSupplyLow h low) s = .next s := congrArg _ (if_pos hh)

end

/-! ### Applies of the discrete block (R261) -/

section
variable {s : State}

theorem dioApplyTakesEffect_idle (h : s.dio.applying = false) : exec .dioApplyTakesEffect s = .next s :=
  congrArg _ (if_pos (by simp [h]))

/-- The apply is judged again at the tick, and refused there (R261). -/
theorem dioApplyTakesEffect_refused {r d : Nat} (h : s.dio.applying = true) (hr : s.toTick.dioRefusal = some (r, d)) :
    exec .dioApplyTakesEffect s = .next ((s.toTick.dioRefuse r d).applyDone 0x40060000 (0x0520 + r) [d]) := by
  simp [execDioApplyTakesEffect, h, hr]

/-- With no reason against it at the tick the staged configuration becomes the applied one: `u` has adopted it, `v` has marked the
inputs to initialise and the counts to clear (R251, R252). -/
theorem dioApplyTakesEffect_taken {u v : State} (h : s.dio.applying = true) (hr : s.toTick.dioRefusal = none)
    (hu : (List.range 28).foldl (fun s o => doRows.foldl (fun s r => s.adopt r o) s)
      ((List.range 32).foldl (fun s d => diRows.foldl (fun s r => s.adopt r d) s)
        ((s.toTick.adopt R.DIO_IN_TYPE).adopt R.DIO_IN_CONT)) = u)
    (hv : u.updDio (fun x => { x with
      applying := false, init := x.init ||| ofBits 32 s.toTick.diChanged
      count := x.count.mapIdx (fun d n =>
        if bitOf (ofBits 32 (fun d => s.toTick.sg R.DIO_IN_CFG_COUNT_EN d != s.toTick.rd R.DIO_IN_CFG_COUNT_EN d)) d then 0 else n) }) = v) :
    exec .dioApplyTakesEffect s =
      .next ((((v.wr R.DIO_APPLY_STATUS_DONE 1).wr R.DIO_APPLY_STATUS_REASON 0).driveDos).applyDone 0x40060000 0) := by
  rw [exec_dioApplyTakesEffect, execDioApplyTakesEffect, if_neg (by simp [h])]
  simp only [hr, hu]
  simp only [hv]

end

/-- Settles O18: a refresh by its validity and its driver checks, a sample by its voltage, the frames by their validity, the block by its runs
of frames, an overload by whether the output is on, the supply by its half, the apply by whether it is pending and refused. -/
theorem discreteIoRefreshesAndOutputs : Obligations.DiscreteIoRefreshesAndOutputs := by
  refine ⟨fun s u volts check hin hu hm hc => ?refreshed, fun s u volts check hin hu hm hc => ?initialised,
    fun _ d _ h => diSample_on d h, fun _ d _ h => diSample_off d h, fun _ _ _ _ hin hu => diRefresh_invalid hin hu.symm,
    fun _ h => diInputStale_missed h, fun _ h => diInputStale_fresh h,
    fun _ _ hx hs => ⟨doImageFrame_valid hx hs, doImageFrame_invalid hx hs⟩, fun _ ok hs => doImageFrame_none ok (.inr hs),
    fun _ ok hx => doImageFrame_none ok (.inl hx), fun _ => ⟨rfl, rfl⟩, fun _ hi ho => doBlockDeenergise_lost hi ho,
    fun _ hi => doBlockDeenergise_kept hi, fun _ ho hu hr => doBlockResume_taken ho hu hr, fun _ hu => doBlockResume_boot hu,
    fun _ _ ho ht => ⟨doCurrentLimit_limit ho ht, doCurrentLimit_shutdown ho ht⟩, fun _ _ ho => doCurrentLimit_ended ho,
    fun _ _ ht => ⟨doCurrentLimit_off (by decide) ht, doCurrentLimit_off (by decide) ht⟩, fun _ _ => rfl,
    fun _ => ⟨rfl, rfl, rfl, rfl⟩, fun _ _ low hh => fieldSupplyLow_noHalf low hh, fun _ => ⟨rfl, rfl⟩,
    fun _ h => dioApplyTakesEffect_idle h, fun _ _ _ h hr => dioApplyTakesEffect_refused h hr,
    fun _ _ _ h hr hu hv => dioApplyTakesEffect_taken h hr hu.symm hv.symm⟩
  case refreshed =>
    rw [diRefresh_valid hin hu.symm (if_neg (Nat.not_le.2 hm)) (checkFaults_none hc), hc]
  case initialised =>
    rw [diRefresh_valid hin hu.symm (if_pos hm) (checkFaults_both hc), hc]

end Sys2Proof.Proofs
end

section
/-! SUPPORT. The statements about cell chains and plant estimation: discovery, strobes and sweeps of the cell chains, and the packets of the
chain and metering groups. -/

namespace Sys2Proof.Proofs

open Sys2Proof Sys2Proof.Machine Sys2Proof.Safety Sys2Proof.Laws

/-! ### Discovery (R270) -/

section
variable {s : State} {p : Nat}

theorem chDiscover_awake (hon : s.chainOn p = true) (hs : s.chainState p ≠ csSleeping) :
    exec (.chDiscover p) s = .next (s.chainOrder p s.tb.frc) :=
  congrArg _ (if_pos (by simp [hon, hs]))

theorem chDiscover_off (hon : s.chainOn p = false) : exec (.chDiscover p) s = .next s := congrArg _ (if_neg (by simp [hon]))

theorem chainDiscoveryStart_notOrdered (ho : (s.chain p).order = none) : exec (.chainDiscoveryStart p) s = .next s := by
  rw [exec_chainDiscoveryStart, execChainDiscoveryStart, ho]

theorem discoveryComplete_notDiscovering (hst : s.chainState p ≠ csDiscovering) : exec (.discoveryComplete p) s = .next s :=
  congrArg _ (if_pos (by simp [hst]))

end

/-! ### QUIET, strobe and READOUT (R271, R273, R276) -/

section
variable {s : State} {p : Nat}

/-- The home end's QUIET leaves at the lead before the strobe, once for each strobe (R273, R276). -/
theorem quietSend_home {S : Nat} (hon : s.chainOn p = true) (hst : s.chainState p = csRunning) (hn : s.nextStrobe p = some S)
    (hq : (s.chain p).quiet ≠ some S) :
    exec (.quietSend p false) s = .next (s.upTo (S - s.chainLead p) (fun t =>
      (t.chainBcast p false 0x02 (leBytes 2 (s.rd R.CH_QUIET_POST p) ++
        leBytes 2 ((s.chainLead p + s.rd R.CH_TIMING_DELAY p + s.rd R.CH_QUIET_POST p + 10000 + 999) / 1000))).updChain p
        (fun c => { c with quiet := some S, whole := false }))) := by
  rw [exec_quietSend, execQuietSend, if_neg (by simp [hon, hst])]
  simp only [hn, Bool.false_eq_true, if_false]
  exact congrArg _ (if_neg (by simp [hq]))

theorem quietSend_off (far : Bool) (hon : s.chainOn p = false) : exec (.quietSend p far) s = .next s :=
  congrArg _ (if_pos (by simp [hon]))

/-- At a strobe tick of SRC 1 or 3 with no sweep in progress the strobe is taken (R271). -/
theorem sampleStrobe_due (hp : p < 8) (ht : s.tb.frc = s.tb.lastTick) (hsrc : s.rd R.CH_SWEEP_SRC p ≠ 2) (hin : s.strobeIn p 0 = true)
    (hw : (s.chain p).sweep = none) : exec (.sampleStrobe p) s = .next (s.strobe p) :=
  congrArg _ (if_pos (by simp [hp, ht, hsrc, hin, hw]))

theorem sampleStrobe_notDue (hin : s.strobeIn p 0 = false) : exec (.sampleStrobe p) s = .next s := congrArg _ (if_neg (by simp [hin]))

end

/-! ### What a port without a sweep leaves alone -/

section
variable {s : State} {p : Nat} (hw : (s.chain p).sweep = none)
include hw

theorem readoutSend_noSweep : exec (.readoutSend p) s = .next s := by rw [exec_readoutSend, execReadoutSend, hw]

theorem chainRetrySend_noSweep (far : Bool) (first last : Nat) : exec (.chainRetrySend p far first last) s = .next s := by
  rw [exec_chainRetrySend, execChainRetrySend, hw]

theorem chainBreak_noSweep (far : Bool) : exec (.chainBreak p far) s = .next s := by rw [exec_chainBreak, execChainBreak, hw]

theorem sweepClose_noSweep : exec (.sweepClose p) s = .next s := by rw [exec_sweepClose, execSweepClose, hw]

theorem sweepPublish_noSweep : exec (.sweepPublish p) s = .next s := by rw [exec_sweepPublish, execSweepPublish, hw]

end

/-! ### The read-back (R274, R279) -/

section
variable {s u v : State} {p h a : Nat} {d : ChainData} {w : Sweep}

theorem dataFrameRx_badCrc (hp : p < 8) (hc : d.crcOk = false) : exec (.dataFrameRx p d) s = .next (s.inc R.CH_CRC p) := by
  rw [exec_dataFrameRx, execDataFrameRx, if_neg (Nat.not_le.2 hp), if_pos (by simp [hc])]

/-- A good frame inside the read-back writes its node's record, counts its node as received and is forwarded (R274, R276, R289). -/
theorem dataFrameRx_inside (hp : p < 8) (hc : d.crcOk = true) (hw : (s.chain p).sweep = some w) (hcl : w.closed = false)
    (hin : s.tb.frc < w.close) (hh : s.homeOf p d.far d.pos = h) (h1 : 1 ≤ h) (hn : h ≤ s.chainN p)
    (hu : (s.putNode p h w.q (s.dataRecord p w h d)).wr R.CH_NODE_NSTAT d.nstat p (h - 1) = u) :
    exec (.dataFrameRx p d) s = .next ((u.updSweep p (fun x => { x with
      got := (h, s.dataState p w h d) :: x.got.filter (fun g => g.1 != h)
      lastHome := if d.far then x.lastHome else max x.lastHome h
      lastFar := if d.far then max x.lastFar d.pos else x.lastFar })).chainForward 0 [p, h] (s.dataRecord p w h d)) := by
  subst hu hh
  rw [exec_dataFrameRx, execDataFrameRx, if_neg (Nat.not_le.2 hp), if_neg (by simp [hc])]
  simp only [hw]
  exact congrArg _ (if_neg (by simp [hcl, hin, hn, Nat.one_le_iff_ne_zero.1 h1]))

/-- A READ of one position leaves at once, or at the end of a KEEP, where its worst case ends before close (R274). -/
theorem chainRetrySend_one {far : Bool} (hw : (s.chain p).sweep = some w) (hr : w.readout = true) (hcl : w.closed = false) (h1 : 1 ≤ a)
    (h254 : a ≤ 254) (hn : a ≤ s.chainN p) (hend : max s.tb.frc (s.chain p).keepEnd + (2600 + 110 * (a - 1) + 10010) < w.close) :
    exec (.chainRetrySend p far a a) s = .next (s.upTo (max s.tb.frc (s.chain p).keepEnd) (fun s =>
      ((s.inc R.CH_RETRIES p).updSweep p (fun w => { w with retried := s.homeOf p far a :: w.retried })).chainSend p far 0x04 a [])) := by
  have hone : a + 1 - a = 1 := by omega
  rw [exec_chainRetrySend, execChainRetrySend]
  simp only [hw, hone, Nat.mul_one]
  rw [if_neg (by simp [hr, hcl, hn, Nat.one_le_iff_ne_zero.1 h1, hend])]
  simp [h254]

/-- A break seen from the home end stands at the last position heard from it (R279). -/
theorem chainBreak_home (hw : (s.chain p).sweep = some w) (hr : w.readout = true) (hcl : w.closed = false)
    (hg : w.got.length ≠ s.chainN p) (hu : s.updSweep p (fun w => { w with brokeHome := true }) = u)
    (hv : (u.wr R.CH_BREAK_A w.lastHome p).wr R.CH_STATUS_BREAK 1 p = v) :
    exec (.chainBreak p false) s = .next (v.chainForward 1 [p, v.rd R.CH_BREAK_A p, v.rd R.CH_BREAK_B p]) := by
  subst hv hu
  rw [exec_chainBreak, execChainBreak]
  simp only [hw]
  exact congrArg _ (if_neg (by simp [hr, hcl, hg]))

theorem sweepClose_open (hw : (s.chain p).sweep = some w) (hcl : w.closed = false) (hf : s.chainFollows = false) :
    exec (.sweepClose p) s = .next (s.upTo w.close (fun s => s.closeSweep p w)) := by
  rw [exec_sweepClose, execSweepClose]
  simp only [hw]
  exact congrArg _ (if_neg (by simp [hcl, hf]))

end

/-- Settles O19: a discovery by its order and the state of the port, QUIET, strobe and READOUT by the strobe tick and the sweep, the frames of
the read-back by their CRC and their place, the close and the publication by the sweep's times. -/
theorem chainSweeps : Obligations.ChainSweeps := by
  refine ⟨fun _ _ hon hs => chDiscover_awake hon hs, fun _ _ hon => chDiscover_off hon, fun _ _ ho => chainDiscoveryStart_notOrdered ho,
    fun s p t ho hon hw => ?discoveryStarts, fun _ _ hst => discoveryComplete_notDiscovering hst, fun s p hp hst ho => ?discovered,
    fun _ _ _ hon hst hn hq => quietSend_home hon hst hn hq, fun _ _ far hon => quietSend_off far hon,
    fun _ _ hp ht hsrc hin hw => sampleStrobe_due hp ht hsrc hin hw, fun _ _ hin => sampleStrobe_notDue hin,
    fun _ _ hw => ⟨readoutSend_noSweep hw, sweepClose_noSweep hw, sweepPublish_noSweep hw, chainBreak_noSweep hw true,
      chainRetrySend_noSweep hw true 1 1⟩,
    fun s p w hw hr hcl => ?readout, fun _ _ _ hp hc => dataFrameRx_badCrc hp hc,
    fun _ _ _ _ _ _ hp hc hw hcl hin hh h1 hn hu => dataFrameRx_inside hp hc hw hcl hin hh.symm h1 hn hu.symm,
    fun _ _ _ _ _ hw hr hcl h1 h254 hn hend => chainRetrySend_one hw hr hcl h1 h254 hn hend,
    fun _ _ _ _ _ hw hr hcl hg hu hv => chainBreak_home hw hr hcl hg hu.symm hv.symm,
    fun _ _ _ hw hcl hf => sweepClose_open hw hcl hf, fun s p w hw ht hpub hcl => ?published⟩
  case discoveryStarts =>
    rw [exec_chainDiscoveryStart, execChainDiscoveryStart]
    simp only [ho]
    exact congrArg _ (if_neg (by simp [hon, hw]))
  case discovered => exact congrArg _ (if_neg (by simp [Nat.not_le.2 hp, hst, ho]))
  case readout =>
    rw [exec_readoutSend, execReadoutSend]
    simp only [hw]
    exact congrArg _ (if_neg (by simp [hr, hcl]))
  case published =>
    rw [exec_sweepPublish, execSweepPublish]
    simp only [hw]
    rw [if_neg (by simp [ht, Nat.not_lt.2 hpub])]
    simp only [hcl, if_true, hw]

/-! ### Packets of the chain group (R277, R280, R281) -/

section
variable (s : State) (r : Req) (c : Cmd) (p : Nat)

@[simp] theorem takeReq_mg : (s.takeReq r c).mg = s.mg := by rw [takeReq_frame]

@[simp] theorem takeReq_chain : (s.takeReq r c).chain p = s.chain p := by
  rw [takeReq_frame]
  rfl

/-- Whether a port runs a chain, its state and the way to its nodes are read off the fields and the port (R262, R268). -/
@[simp] theorem takeReq_chainOn : (s.takeReq r c).chainOn p = s.chainOn p := by
  rw [takeReq_frame]
  rfl

@[simp] theorem takeReq_chainState : (s.takeReq r c).chainState p = s.chainState p := by
  rw [takeReq_frame]
  rfl

@[simp] theorem takeReq_chainReach (h : Nat) : (s.takeReq r c).chainReach p h = s.chainReach p h := by
  rw [takeReq_frame]
  rfl

end

section
variable {s : State} {r : Req} {c : Cmd} {p h code : Nat} {d : Bytes} {f : State → State}

theorem onAwake_of (hon : s.chainOn p = true) (hs : s.chainState p ≠ csSleeping) : s.onAwake r c p f = f s := by
  rw [State.onAwake, State.onChain, require_of hon, require_of (by simpa using hs)]

/-- A sleeping chain takes no command but WAKE. -/
theorem onAwake_asleep (hon : s.chainOn p = true) (hs : s.chainState p = csSleeping) : s.onAwake r c p f = s.reply r c 0x0812 := by
  rw [State.onAwake, State.onChain, require_of hon, require_of_not (by simp [hs])]

theorem unicastAsk_reached (hon : s.chainOn p = true) (hs : s.chainState p ≠ csSleeping) (hr : (s.chainReach p h).isSome = true) :
    s.unicastAsk r c p code h d = s.chainAsk r c p code h d := by
  rw [State.unicastAsk, onAwake_of hon hs, require_of hr]

theorem unicastAsk_unreached (hon : s.chainOn p = true) (hs : s.chainState p ≠ csSleeping) (hr : (s.chainReach p h).isSome = false) :
    s.unicastAsk r c p code h d = s.reply r c 0x0810 := by
  rw [State.unicastAsk, onAwake_of hon hs, require_of_not hr]

theorem chainAsk_room (hq : (s.chain p).queue.length < 32) :
    s.chainAsk r c p code h d = s.updChain p (fun x => { x with
      queue := x.queue ++ [{ session := r.session, tag := r.tag, op := c.op, code, h, payload := d }] }) := by
  rw [State.chainAsk, State.chainQueue, if_neg (Nat.not_le.2 hq)]

theorem chainAsk_full (hq : 32 ≤ (s.chain p).queue.length) :
    s.chainAsk r c p code h d = (s.wr R.CH_STATUS_Q_FULL 1 p).reply r c 0x0007 := by
  rw [State.chainAsk, State.chainQueue, if_pos hq]

end

/-! ### Packets of the metering group (R3, R424, R426) -/

/-- A packet of group 0x09 that passes its checks runs its command on NPS-96D-M; NPS-96D-X answers 0x0901 (R3). -/
theorem metering_next {s t : State} {r : Req} {c : Cmd} {f : State → State} (h : Passes s r c) (hg : c.op / 256 = 9)
    (hl : c.lock = false) (e : f (s.takeReq r c) = t) :
    (.next (s.command r c (fun s => s.fitted r c f)) : Next) =
      .next (if Config.variantM = true then t else (s.takeReq r c).reply r c 0x0901) := by
  by_cases hv : Config.variantM = true
  · rw [command_of_passes h (.inr hv), State.fitted, require_of hv, e, if_pos hv]
  · have hc : { c with lock := false } = c := by rw [← hl]
    simp only [State.command, gate_variant h hg (Bool.eq_false_iff.2 hv), hc, if_neg hv]
    rfl

/-- Settles O40: every packet passes the gate, and its body runs on a state that differs in the command service alone. -/
theorem chainAndMeteringCommands : Obligations.ChainAndMeteringCommands := by
  refine ⟨fun s r p hp hport => command_next hp (by decide) (require_of (decide_eq_true hport)),
    fun s r p hp hon hs => command_next hp (by decide) ?discover, fun s r p hp hon hs => command_next hp (by decide) ?sleep,
    fun s r p hp hon => command_next hp (by decide) ?wake, fun s r p hp hon => command_next hp (by decide) ?wakeOff,
    fun s r p hp hon hs => command_next hp (by decide) ?asleep, fun s r p h o d hp hon hs hr hq => command_next hp (by decide) ?pass,
    fun s r p h o d hp hon hs hr => command_next hp (by decide) ?passUnreached,
    fun s r p h m d hp hm hd hon hs hr => command_next hp (by decide) ?balance,
    fun s r p hp hon hs => command_next hp (by decide) ?faultClr, fun s r p h hp hon hs hr => command_next hp (by decide) ?nodeStatus,
    fun _ _ _ _ _ _ _ hq => chainAsk_full hq, fun s r n k hp h1 hk hn => command_next hp (by decide) ?slots,
    fun s r n k b hp hn => command_next hp (by decide) (require_of_not (decide_eq_false (Nat.not_lt.2 hn))),
    fun s r hp hm => metering_next hp rfl rfl ?noStatus, fun s r n k hp hx => metering_next hp rfl rfl ?noRecord,
    fun s r n k hp hx => metering_next hp rfl rfl ?noAudit, fun s r hp hx => metering_next hp rfl rfl ?noCert,
    fun s r m hp hm => metering_next hp rfl rfl ?status, fun s r n k hp hx => metering_next hp rfl rfl ?records,
    fun s r n k hp hx => metering_next hp rfl rfl ?audit, fun s r hp hx => metering_next hp rfl rfl ?cert,
    fun s r hp => metering_next hp rfl rfl rfl⟩
  case discover => simp [onAwake_of, hon, hs]
  case sleep => simp [onAwake_of, hon, hs]
  case wake => simp [State.onChain, require_of, hon]
  case wakeOff => simp [State.onChain, require_of_not, hon]
  case asleep => simp [onAwake_asleep, hon, hs]
  case pass => simp [unicastAsk_reached, chainAsk_room, hon, hs, hr, hq]
  case passUnreached => simp [unicastAsk_unreached, hon, hs, hr]
  case balance => simp [inRange_of, unicastAsk_reached, hm, hd, hon, hs, hr]
  case faultClr => simp [onAwake_of, hon, hs]
  case nodeStatus => simp [unicastAsk_reached, hon, hs, hr]
  case slots =>
    have hfirst : n < 8192 := by omega
    rw [require_of (decide_eq_true hfirst), inRange_of (by simp [h1, hk, hn])]
    exact inRange_of rfl
  case noStatus => simp only [takeReq_mg, hm]
  case status => simp only [takeReq_mg, hm]
  case noRecord => exact if_pos (by simp [hx])
  case records => exact if_neg (by simp [hx])
  case noAudit => exact if_pos (by simpa using hx)
  case audit => exact if_neg (by simpa using hx)
  case noCert => exact if_pos (by simpa using hx)
  case cert => exact if_neg (by simpa using hx)

end Sys2Proof.Proofs
end

section
/-! SUPPORT. The statements about CAN FD ports: fault confinement and bus-off, transmit buffers and their completions, received frames and
service segments, configuration changes. -/

namespace Sys2Proof.Proofs

open Sys2Proof Sys2Proof.Machine Sys2Proof.Safety Sys2Proof.Laws

/-! ### Fault confinement, bus-off and recovery (R311, R312) -/

section
variable {s u : State} {p : Nat}

/-- A bus error counts in a port that is error-active, error-passive or listening, with an LEC from 1 to 6 (R311). -/
theorem canBusError_takingPart {lec n : Nat} (tx ex : Bool) (hp : p < 8) (hst : [1, 2, 5].contains (s.canState p) = true) (h1 : 1 ≤ lec)
    (h6 : lec ≤ 6) : exec (.canBusError p lec tx ex n) s = .next (s.canError p lec tx ex n) :=
  congrArg _ (if_pos (by simp only [hp, hst, h1, h6, decide_true, Bool.and_self]))

theorem canBusError_noPort (lec n : Nat) (tx ex : Bool) (hp : 8 ≤ p) : exec (.canBusError p lec tx ex n) s = .next s :=
  congrArg _ (if_neg (by simp [Nat.not_lt.2 hp]))

/-- With nothing on the bus, bus-off shows in STATE, in TEC, in the events and on EVT_Q (R311, R312). -/
theorem canBusOff_idle (hp : p < 8) (hst : s.canState p = 2) (ht : 255 < (s.canPort p).txErr) (hb : (s.canPort p).onBus = none)
    (hu : (s.wr R.CF_STATUS_STATE 3 p).inc R.CF_BUSOFF p = u) :
    exec (.canBusOff p) s = .next ((((u.wr R.CF_STATUS_TEC 255 p).canMark p 0 R.CF_EVENTS_BUSOFF).canEvent p 3 0 0).canPend p) := by
  rw [exec_canBusOff, execCanBusOff, if_pos (by simp [hp, hst, ht])]
  simp only [hb, hu]

/-- The frame on the bus has failed with the error that takes its port to bus-off (R308, R312). -/
theorem canBusOff_sending {b frc : Nat} (hp : p < 8) (hst : s.canState p = 2) (ht : 255 < (s.canPort p).txErr)
    (hb : (s.canPort p).onBus = some (b, frc))
    (hu : (((s.updCan p (fun c => { c with onBus := none })).canFailed p b 2 frc).wr R.CF_STATUS_STATE 3 p).inc R.CF_BUSOFF p = u) :
    exec (.canBusOff p) s = .next ((((u.wr R.CF_STATUS_TEC 255 p).canMark p 0 R.CF_EVENTS_BUSOFF).canEvent p 3 0 0).canPend p) := by
  rw [exec_canBusOff, execCanBusOff, if_pos (by simp [hp, hst, ht])]
  simp only [hb, hu]

theorem canBusOff_withinLimit (ht : (s.canPort p).txErr ≤ 255) : exec (.canBusOff p) s = .next s :=
  congrArg _ (if_neg (by simp [Nat.not_lt.2 ht]))

/-- After 128 times 11 recessive bits a recovering port is error-active with its counters at 0 (R312). -/
theorem canRecoveryComplete_due (hp : p < 8) (hst : s.canState p = 4)
    (ht : (s.canPort p).recoverAt + 1408 * s.canBit p ≤ s.tb.frc) :
    exec (.canRecoveryComplete p) s = .next (((((s.wr R.CF_STATUS_STATE 1 p).canMark p 1 R.CF_EVENTS_RECOVERED).updCan p
      (fun c => { c with txErr := 0, rxErr := 0 })).canEvent p 3 0 0).canRefresh p) :=
  congrArg _ (if_pos (by simp [hp, hst, ht]))

theorem canRecoveryComplete_notRecovering (hst : s.canState p ≠ 4) : exec (.canRecoveryComplete p) s = .next s :=
  congrArg _ (if_neg (by simp [hst]))

end

/-! ### Transmit records and the start of a frame (R305, R307) -/

section
variable {s u : State} {p : Nat}

theorem canTxRecord_core (r : Bytes) (hp : p < 8) (hl : s.canListens = false) :
    exec (.canTxRecord p (some r)) s = .next (s.canRecord p false r) := by
  rw [exec_canTxRecord, execCanTxRecord, if_neg (Nat.not_le.2 hp)]
  exact congrArg _ (if_neg (by simp [hl]))

/-- In RUN the oldest record of TX_Q is taken off its ring and loads its buffer (R305). -/
theorem canTxRecord_ring {t : State} {got : List Bytes} (hp : p < 8) (hg : s.ringTake (s.rd R.CF_RING_TX_Q p) 1 = (t, got))
    (hl : t.canListens = false) (hr : t.inRun = true) :
    exec (.canTxRecord p none) s = .next (got.foldl (fun s r => s.canRecord p true r) t) := by
  rw [exec_canTxRecord, execCanTxRecord, if_neg (Nat.not_le.2 hp)]
  simp only [hg]
  exact congrArg _ (if_neg (by simp [hl, hr]))

/-- A classic frame leaves with the stamp of its start and leaves the delay measurement alone (R296, R307). -/
theorem canTxStart_classic {b : Nat} {m : CanMsg} (d : Nat) (hs : s.canSends p = true) (hb : (s.canPort p).onBus = none)
    (hm : (s.canPort p).lowest = some (b, m)) (hf : bitOf m.ctrl 4 = false)
    (hu : (s.updCan p (fun c => { c with onBus := some (b, s.tb.frc) })).updBuf p b (fun x => { x with pend := false }) = u)
    (hmode : u.rd R.CF_CTRL_MODE p = 0) :
    exec (.canTxStart p d) s = .next (u.emit (.can p) .frame [m.idw, m.ctrl, u.tb.frc] m.data) := by
  rw [exec_canTxStart, execCanTxStart, if_neg (by simp [hs, hb])]
  simp only [hm, hu, hf, Bool.false_and, Bool.false_eq_true, if_false]
  exact congrArg _ (if_neg (by simp [hmode]))

theorem canTxStart_silent (d : Nat) (hs : s.canSends p = false) : exec (.canTxStart p d) s = .next s :=
  congrArg _ (if_pos (by simp [hs]))

theorem cfTxbAbort_port (v : Nat) (hp : p < 8) : exec (.cfTxbAbort p v) s =
    .next ((List.range 32).foldl (fun s b => if bitOf v b && !s.canOwned p b then s.canAbort p b 3 else s) s) :=
  congrArg _ (if_pos hp)

theorem cfTxbAbort_noPort (v : Nat) (hp : 8 ≤ p) : exec (.cfTxbAbort p v) s = .next s := congrArg _ (if_neg (Nat.not_lt.2 hp))

end

/-! ### The end of an attempt (R308, R309) -/

section
variable {s v u : State} {p b frc : Nat}

/-- A frame that is neither aborted nor one-shot is sent again (R308). -/
theorem canFailed_again (reason : Nat) (ha : (s.canBuf p b).abort = false)
    (ho : (s.canBuf p b).msg.any (fun m => bitOf m.ctrl 24) = false) :
    s.canFailed p b reason frc = s.updBuf p b (fun x => x.leave true true) := by
  rw [State.canFailed, if_neg (by simp [ha]), if_neg (by simp [ho])]

/-- An aborted frame has failed as aborted, however its attempt ended (R308). -/
theorem canFailed_aborted (reason : Nat) (ha : (s.canBuf p b).abort = true) :
    s.canFailed p b reason frc = (s.updBuf p b (fun x => x.leave false false)).canDone p b false 3 frc := if_pos ha

theorem canTxComplete_idle (e : CanTxEnd) (hb : (s.canPort p).onBus = none) : exec (.canTxComplete p e) s = .next s := by
  rw [exec_canTxComplete, execCanTxComplete, hb]

/-- Lost arbitration fails the attempt with reason 1, an error with reason 2; a buffer other than 30 takes no segment after it (R308, R316). -/
theorem canTxComplete_failed (hb : (s.canPort p).onBus = some (b, frc)) (h30 : b ≠ 30)
    (hv : s.updCan p (fun c => { c with onBus := none }) = v) (hu : ∀ reason, v.canFailed p b reason frc = u) :
    exec (.canTxComplete p .lost) s = .next (u.canRefresh p) ∧ exec (.canTxComplete p .error) s = .next (u.canRefresh p) := by
  constructor <;>
  · simp only [exec_canTxComplete, execCanTxComplete, hb, hv, hu]
    rw [if_neg (by simp [h30])]

/-- A success takes 1 from the transmit counter, counts and completes its buffer (R309). -/
theorem canTxComplete_ok (hb : (s.canPort p).onBus = some (b, frc)) (h30 : b ≠ 30)
    (hv : ((s.updCan p (fun c => { c with onBus := none })).updCan p (fun c => { c with txErr := c.txErr - 1 })).inc R.CF_TX p = v)
    (hu : (v.updBuf p b (fun x => x.leave (v.canKeeps p b) false)).canDone p b true 0 frc = u) (hmode : u.rd R.CF_CTRL_MODE p = 0) :
    exec (.canTxComplete p .ok) s = .next (u.canRefresh p) := by
  simp only [exec_canTxComplete, execCanTxComplete, hb, hv, hu]
  rw [if_neg (by simp [h30]), if_neg (by simp [hmode])]

end

/-! ### Received frames (R299, R311, R319) -/

section
variable {s u : State} {p : Nat} {f : CanFrame} (hu : s.canTable p = u)
include hu

theorem canFrameRx_unheard (hh : u.canHears p = false) : exec (.canFrameRx p f) s = .next u := by
  rw [exec_canFrameRx, execCanFrameRx, hu]
  exact congrArg _ (if_pos (by simp [hh]))

/-- An FD frame with FD_EN 0 is answered with a form error (R319). -/
theorem canFrameRx_fdOff (hh : u.canHears p = true) (hf : f.fdf = true) (he : u.bit R.CF_CTRL_FD_EN p = false) :
    exec (.canFrameRx p f) s = .next (u.canError p 2 false false 0) := by
  rw [exec_canFrameRx, execCanFrameRx, hu, if_neg (by simp [hh])]
  exact congrArg _ (if_pos (by simp [hf, he]))

/-- A recessive res bit is a protocol exception with PXHD, a form error without (R311). -/
theorem canFrameRx_recessiveRes (hh : u.canHears p = true) (hf : f.fdf = true) (he : u.bit R.CF_CTRL_FD_EN p = true)
    (hr : f.res = true) :
    exec (.canFrameRx p f) s =
      .next (if u.bit R.CF_CTRL_PXHD p = true then u.wr R.CF_EVENTS_PEX 1 p else u.canError p 2 false false 0) := by
  rw [exec_canFrameRx, execCanFrameRx, hu, if_neg (by simp [hh]), if_neg (by simp [he])]
  exact congrArg _ (if_pos (by simp [hf, hr]))

/-- A classic frame, and an FD frame where FD_EN is 1 and its res bit dominant, meets the filters (R299). -/
theorem canFrameRx_received (hh : u.canHears p = true) (hf : f.fdf = true → u.bit R.CF_CTRL_FD_EN p = true ∧ f.res = false) :
    exec (.canFrameRx p f) s = .next (u.canReceive p f) := by
  have hen : ¬ (f.fdf && !u.bit R.CF_CTRL_FD_EN p) = true := by simpa using fun h => (hf h).1
  have hres : ¬ (f.fdf && f.res) = true := by simpa using fun h => (hf h).2
  rw [exec_canFrameRx, execCanFrameRx, hu, if_neg (by simp [hh]), if_neg hen, if_neg hres]

theorem canServiceSegmentRx_heard (data : Bytes) (hh : u.canHears p = true) (he : u.bit R.CF_SVC_EN p = true) :
    exec (.canServiceSegmentRx p data) s = .next ((u.inc R.CF_RX p).canSegment p data) := by
  rw [exec_canServiceSegmentRx, execCanServiceSegmentRx, hu]
  exact congrArg _ (if_pos (by simp [hh, he]))

theorem canServiceSegmentRx_unheard (data : Bytes) (h : u.bit R.CF_SVC_EN p = false ∨ u.canHears p = false) :
    exec (.canServiceSegmentRx p data) s = .next u := by
  rw [exec_canServiceSegmentRx, execCanServiceSegmentRx, hu]
  exact congrArg _ (if_neg (by simpa using fun hh => h.resolve_right (by simp [hh])))

end

section
variable {s : State} {p : Nat}

/-- More than 1 s within a message discards it (R316). -/
theorem canServiceGapTimeout_due {n : Nat} (hp : p < 8) (hq : (s.canPort p).svcSeq = some n)
    (ht : (s.canPort p).svcAt + 100000000 < s.tb.frc) : exec (.canServiceGapTimeout p) s = .next (s.canSvcDrop p) :=
  congrArg _ (if_pos (by simp [hp, hq, ht]))

theorem canServiceGapTimeout_noMessage (hq : (s.canPort p).svcSeq = none) : exec (.canServiceGapTimeout p) s = .next s :=
  congrArg _ (if_neg (by simp [hq]))

end

/-! ### Configuration changes (R317, R318) -/

section
variable {s u : State} {p : Nat}

theorem cfApplyTakesEffect_idle (h : s.bit R.CF_STATUS_APPLY_PENDING p = false) : exec (.cfApplyTakesEffect p) s = .next s :=
  congrArg _ (if_neg (by simp [h]))

/-- A pending apply takes effect at the tick (R317). -/
theorem cfApplyTakesEffect_pending (hp : p < 8) (h : s.bit R.CF_STATUS_APPLY_PENDING p = true) :
    exec (.cfApplyTakesEffect p) s = .next (s.toTick.canApplied p) := congrArg _ (if_pos (by simp [hp, h]))

/-- The apply is judged again when it takes effect, and refused there with its reason (R318). -/
theorem canApplied_refused {r : Nat} (hp : p < 8) (h : s.bit R.CF_STATUS_APPLY_PENDING p = true) (hr : s.canReason p = r + 1) :
    s.canApplied p = (s.canRefuse p (r + 1)).applyDone (canBase p) (0x0530 + (r + 1)) := by
  rw [State.canApplied, if_neg (by simp [Nat.not_le.2 hp, h])]
  simp only [hr]

/-- A port that was in INIT begins with its counters at 0 under its new configuration (R312, R317). -/
theorem canApplied_fromInit (hp : p < 8) (h : s.bit R.CF_STATUS_APPLY_PENDING p = true) (hr : s.canReason p = 0)
    (hst : s.canState p = 0)
    (hu : ((((s.adoptAll canRows p (canBase p) (canBase (p + 1))).wr R.CF_STATUS_APPLY_PENDING 0 p).wr R.CF_STATUS_DONE 1 p).wr
      R.CF_APPLY_REASON 0 p).applyDone (canBase p) 0 = u) :
    s.canApplied p = u.canFresh p := by
  rw [State.canApplied, if_neg (by simp [Nat.not_le.2 hp, h])]
  simp only [hr, hu]
  exact if_pos hst

end

/-- Settles O21: an error by its port, bus-off by the frame on the bus, an attempt by how it ended, a frame by the table it meets and its
FD bits, an apply by its reason at the tick. -/
theorem canPorts : Obligations.CanPorts :=
  ⟨fun _ _ _ _ tx ex hp hst h1 h6 => canBusError_takingPart tx ex hp hst h1 h6,
    fun _ _ lec n tx ex hp => canBusError_noPort lec n tx ex hp,
    fun _ _ _ hp hst ht hb hu => canBusOff_idle hp hst ht hb hu.symm,
    fun _ _ _ _ _ hp hst ht hb hu => canBusOff_sending hp hst ht hb hu.symm, fun _ _ ht => canBusOff_withinLimit ht,
    fun _ _ r hp hl => canTxRecord_core r hp hl, fun _ _ hp hl hr => canTxRecord_ring hp rfl hl hr,
    fun _ _ _ d _ _ hs hb hm hf hu hmode => canTxStart_classic d hs hb hm hf hu.symm hmode, fun _ _ d hs => canTxStart_silent d hs,
    fun _ _ e hb => canTxComplete_idle e hb,
    fun _ _ _ _ _ _ hb hv ha ho h30 hu =>
      canTxComplete_failed hb h30 hv.symm (fun reason => (canFailed_again reason ha ho).trans hu.symm),
    fun _ _ _ _ _ _ hb hv ha h30 hu =>
      canTxComplete_failed hb h30 hv.symm (fun reason => (canFailed_aborted reason ha).trans hu.symm),
    fun _ _ _ _ _ _ hb h30 hv hu hmode => canTxComplete_ok hb h30 hv.symm hu.symm hmode,
    fun _ _ h => if_neg h, fun _ _ h => if_pos h,
    fun _ _ _ _ hu hh hf => canFrameRx_received hu.symm hh (by simp [hf]),
    fun _ _ _ _ hu hh _ he hr => canFrameRx_received hu.symm hh (fun _ => ⟨he, hr⟩),
    fun _ _ _ _ hu hh hf he hr => canFrameRx_recessiveRes hu.symm hh hf he hr,
    fun _ _ _ _ hu hh hf he => canFrameRx_fdOff hu.symm hh hf he, fun _ _ _ _ hu hh => canFrameRx_unheard hu.symm hh,
    fun _ _ _ data hu hh he => canServiceSegmentRx_heard hu.symm data hh he,
    fun _ _ _ data hu h => canServiceSegmentRx_unheard hu.symm data h,
    fun _ _ _ hp hq ht => canServiceGapTimeout_due hp hq ht, fun _ _ hq => canServiceGapTimeout_noMessage hq,
    fun _ _ _ => rfl, fun _ _ hp hst ht => canRecoveryComplete_due hp hst ht,
    fun _ _ hst => canRecoveryComplete_notRecovering hst, fun _ _ v hp => cfTxbAbort_port v hp,
    fun _ _ hp => ⟨congrArg _ (if_pos hp), congrArg _ (if_pos hp)⟩,
    fun _ _ v hp => ⟨cfTxbAbort_noPort v hp, congrArg _ (if_neg (Nat.not_lt.2 hp)), congrArg _ (if_neg (Nat.not_lt.2 hp))⟩,
    fun _ _ h => cfApplyTakesEffect_idle h,
    fun _ _ _ hp h ht hr => (cfApplyTakesEffect_pending hp h).trans (congrArg _ (canApplied_refused hp ht hr)),
    fun _ _ _ hp h ht hr hst hu => (cfApplyTakesEffect_pending hp h).trans (congrArg _ (canApplied_fromInit hp ht hr hst hu.symm))⟩

end Sys2Proof.Proofs
end

section
/-! SUPPORT. The statements about command packets and access: the frames of the packets that read and of those refused, what the gate refuses
a packet for, the packets of group 0x0A about access. -/

namespace Sys2Proof.Proofs

open Sys2Proof Sys2Proof.Machine Sys2Proof.Safety Sys2Proof.Laws

/-! ### The frame of a command packet (R374, R379) -/

/-- States that agree beside the command service differ in the service and in what was sent alone. -/
theorem serviceOnly_of_beside {s t : State} (h : besideService t = besideService s) : serviceOnly s t := by
  have hback := congrArg (fun u : State => ({ u with acc := t.acc, sent := t.sent } : State)) h
  exact hback

theorem takeReq_beside (s : State) (r : Req) (c : Cmd) : besideService (s.takeReq r c) = besideService s := by
  rw [takeReq_frame]
  rfl

theorem reply_beside (s : State) (r : Req) (c : Cmd) (n : Nat) (ps : List Nat) (d : Bytes) :
    besideService (s.reply r c n ps d) = besideService s := answer_beside s _

section
variable {s : State} {r : Req} {c : Cmd} {f : State → State}

theorem inRange_beside (pid : Nat) (ok : Bool) (hf : besideService (f s) = besideService s) :
    besideService (s.inRange r c pid ok f) = besideService s := by
  cases ok
  · exact reply_beside s r c _ _ _
  · exact hf

theorem require_beside (ok : Bool) (n : Nat) (hf : besideService (f s) = besideService s) :
    besideService (s.require r c ok n f) = besideService s := by
  cases ok
  · exact reply_beside s r c _ _ _
  · exact hf

/-- A packet that the gate refuses with any code but 0x0102 and 0x0103 is answered with the code (R374, R377). -/
theorem command_of_refused {n : Nat} (h : s.gate r c = some n) (h2 : n ≠ 0x0102) (h3 : n ≠ 0x0103) :
    s.command r c f =
      (s.takeReq r { c with lock := false }).reply r c n (if n = 0x0002 then [r.badPid - 1] else []) := by
  unfold State.command
  rw [h]
  split
  next e => exact absurd (Option.some.inj e) h2
  next e => exact absurd (Option.some.inj e) h3
  next e => rw [Option.some.inj e]
  next e => exact absurd e (by simp)

/-- One request too many is answered, and its session heard from (R379). -/
theorem command_of_tooMany (h : s.gate r c = some 0x0103) :
    s.command r c f = (s.updSession r.session (fun x => { x with lastRx := s.tb.frc })).emit (.host r.session) .reply
      [c.op, r.tag, 0x0103] := by
  simp only [State.command, h]

/-- A packet before HELLO is answered and closes its session (R374). -/
theorem command_of_noHello (h : s.gate r c = some 0x0102) :
    s.command r c f = ((s.takeReq r { c with lock := false }).reply r c 0x0102).closeSession r.session := by
  simp only [State.command, h]

theorem command_refused_beside {n : Nat} (h : s.gate r c = some n) (hn : n ≠ 0x0102) :
    besideService (s.command r c f) = besideService s := by
  by_cases h3 : n = 0x0103
  · rw [command_of_tooMany (h3 ▸ h), emit_beside, updSession_beside]
  · rw [command_of_refused h hn h3, reply_beside, takeReq_beside]

/-- The gate refuses with 0x0102 only what comes without a session or before HELLO (R374). -/
theorem gate_ne_noHello {x : Session} (hx : s.session? r.session = some x) (hh : x.hello = true) : s.gate r c ≠ some 0x0102 := by
  simp only [State.gate, hx, hh, Bool.not_true, Bool.false_and, Bool.false_eq_true, if_false]
  repeat' split
  all_goals decide

theorem command_beside (hn : s.gate r c ≠ some 0x0102) (hf : ∀ u, besideService (f u) = besideService u) :
    besideService (s.command r c f) = besideService s := by
  cases hg : s.gate r c with
  | some n => exact command_refused_beside hg (fun e => hn (e ▸ hg))
  | none => simp only [State.command, hg, hf, takeReq_beside]

/-- After HELLO a packet whose command touches the service alone changes nothing else, whether it runs or is refused. -/
theorem serviceOnly_of_reading {t : State} {x : Session} (hx : s.session? r.session = some x) (hh : x.hello = true)
    (e : (.next (s.command r c f) : Next) = .next t) (hf : ∀ u, besideService (f u) = besideService u) : serviceOnly s t := by
  cases e
  exact serviceOnly_of_beside (command_beside (gate_ne_noHello hx hh) hf)

end

/-- Settles O59: a request too many is answered by the session alone, any other refusal by a reply to the request taken. -/
theorem refusedPacketsChangeNothingElse : Obligations.RefusedPacketsChangeNothingElse :=
  fun _ _ _ _ _ h hn => serviceOnly_of_beside (command_refused_beside h hn)

/-- The same for a command that does nothing but answer. -/
theorem serviceOnly_of_answer {s t : State} {r : Req} {c : Cmd} {x : Session} {n : State → Nat} {ps : State → List Nat} {d : State → Bytes}
    (hx : s.session? r.session = some x) (hh : x.hello = true)
    (e : (.next (s.command r c (fun u => u.reply r c (n u) (ps u) (d u))) : Next) = .next t) : serviceOnly s t :=
  serviceOnly_of_reading hx hh e (fun u => reply_beside u r c _ _ _)

/-- Settles O58: after HELLO the gate never closes the session, and each command answers, some after a check of what they name. -/
theorem readingPacketsChangeNothingElse : Obligations.ReadingPacketsChangeNothingElse := by
  refine ⟨fun s t r x hx hh => ⟨serviceOnly_of_answer hx hh, fun a e => ?subscribe, serviceOnly_of_answer hx hh,
      serviceOnly_of_answer hx hh, serviceOnly_of_answer hx hh, serviceOnly_of_answer hx hh, serviceOnly_of_answer hx hh⟩,
    fun s t r x hx hh => ⟨serviceOnly_of_answer hx hh, fun k e => ?chanRead, fun k e => ?hartRead, serviceOnly_of_answer hx hh,
      serviceOnly_of_answer hx hh, fun p e => ?chainStatus, fun a k b e => ?slotRead⟩,
    fun s t r x hx hh => ⟨fun e => ?whoami, serviceOnly_of_answer hx hh, fun b e => ?countersRead, fun a k e => ?journalRead,
      serviceOnly_of_answer hx hh, fun k e => ?routeCounters, serviceOnly_of_answer hx hh⟩,
    fun s t r x hx hh => ⟨serviceOnly_of_answer hx hh, serviceOnly_of_answer hx hh, serviceOnly_of_answer hx hh, fun e => ?metStatus,
      fun a k e => ?metRecords, fun a k e => ?metAudit, fun e => ?metCert⟩⟩
  all_goals refine serviceOnly_of_reading hx hh e (fun u => ?_)
  case subscribe => exact reply_beside (u.updSession r.session _) r _ _ _ _
  case chanRead => exact require_beside _ _ (reply_beside u r _ _ _ _)
  case hartRead => exact require_beside _ _ (reply_beside u r _ _ _ _)
  case chainStatus => exact require_beside _ _ (reply_beside u r _ _ _ _)
  case slotRead => exact require_beside _ _ (inRange_beside _ _ (inRange_beside _ _ (reply_beside u r _ _ _ _)))
  case whoami =>
    cases hw : u.session? r.session with
    | none => rfl
    | some y => exact reply_beside u r _ _ _ _
  case countersRead => exact inRange_beside _ _ (reply_beside u r _ _ _ _)
  case journalRead =>
    dsimp only
    split <;> exact reply_beside u r _ _ _ _
  case routeCounters => exact require_beside _ _ (reply_beside u r _ _ _ _)
  case metStatus =>
    refine require_beside _ _ ?_
    cases u.mg.status with
    | none => exact reply_beside u r _ _ _ _
    | some m => exact reply_beside u r _ _ _ _
  case metRecords => exact require_beside _ _ (by split <;> exact reply_beside u r _ _ _ _)
  case metAudit => exact require_beside _ _ (by split <;> exact reply_beside u r _ _ _ _)
  case metCert => exact require_beside _ _ (by split <;> exact reply_beside u r _ _ _ _)

/-! ### What the gate refuses (R374 to R387) -/

/-- Changing a session finds it changed. -/
theorem session_updSession {s : State} {n : Nat} {x : Session} {f : Session → Session} (hf : ∀ y, (f y).id = y.id)
    (h : s.session? n = some x) : (s.updSession n f).session? n = some (f x) := by
  have hid : x.id = n := by simpa using List.find?_some h
  have hp : (fun y : Session => y.id == n) ∘ (fun y => if y.id == n then f y else y) = fun y => y.id == n := by
    funext y
    by_cases hy : y.id = n <;> simp [hy, hf]
  rw [State.session?, State.updSession, List.find?_map, hp, show s.acc.sessions.find? (fun y => y.id == n) = some x from h]
  simp [hid]

/-- The reply to the only request outstanding leaves at once (R379). -/
theorem reply_of_sole {s : State} {r : Req} {c : Cmd} {x : Session} {n : Nat} {ps : List Nat} {d : Bytes}
    (hx : s.session? r.session = some x) (hq : x.queue = [{ op := c.op, tag := r.tag, reply := none }]) :
    s.reply r c n ps d =
      (s.updSession r.session (fun y => { y with queue := [] })).emit (.host r.session) .reply ([c.op, r.tag, n] ++ ps) d := by
  simp [State.reply, State.answer, hx, hq, flushReplies]

section
variable {s : State} {r : Req} {c : Cmd} {x : Session} (hx : s.session? r.session = some x)
include hx

theorem gate_tooMany (hq : 16 ≤ x.queue.length) : s.gate r c = some 0x0103 := by simp [State.gate, hx, hq]

variable (hq : x.queue.length < 16)
include hq

theorem gate_noHello (hh : x.hello = false) (ho : c.op ≠ 0x0101) : s.gate r c = some 0x0102 := by
  simp [State.gate, hx, Nat.not_le.2 hq, hh, ho]

variable (hh : x.hello = true)
include hh

theorem gate_boot (hu : s.unit = .boot) (h1 : c.op / 256 ≠ 0x01) (hc : c.op / 256 ≠ 0x0C) : s.gate r c = some 0x0008 := by
  simp [State.gate, hx, Nat.not_le.2 hq, hh, hu, h1, hc]

variable (hu : s.unit ≠ .boot) (hc : x.cand = false)
include hu hc

theorem gate_notFitted (hg : c.op / 256 = 9) (hv : Config.variantM = false) : s.gate r c = some 0x0901 := by
  simp [State.gate, hx, Nat.not_le.2 hq, hh, hu, hc, hg, hv]

variable (hv : c.op / 256 ≠ 9 ∨ Config.variantM = true)
include hv

theorem gate_badParam (hp : r.badPid ≠ 0) : s.gate r c = some 0x0002 := by
  rcases hv with h | h <;> simp [State.gate, hx, Nat.not_le.2 hq, hh, hu, hc, h, hp]

variable (hp : r.badPid = 0)
include hp

/-- Only a Metrology session sends a Metrology packet (R382). -/
theorem gate_notMetrology (hl : c.level = .metrology) (hn : x.level ≠ .metrology) : s.gate r c = some 0x0004 := by
  rcases hv with h | h <;> simp [State.gate, hx, Nat.not_le.2 hq, hh, hu, hc, h, hp, hl, hn]

variable (hm : c.level ≠ .metrology)
include hm

theorem gate_lowLevel (hl : levelRank x.level < levelRank c.level) : s.gate r c = some 0x0004 := by
  rcases hv with h | h <;> simp [State.gate, hx, Nat.not_le.2 hq, hh, hu, hc, h, hp, hm, hl]

variable (hl : levelRank c.level ≤ levelRank x.level)
include hl

theorem gate_fieldLocked (hb : s.bit R.SE_STATUS_FIELD_LOCK = true) (hf : c.field = true) (ho : x.level ≠ .owner)
    (hn : x.reopen = none) : s.gate r c = some 0x0006 := by
  have hr : x.reopened s.tb.frc = false := by rw [Session.reopened, hn]
  rcases hv with h | h <;> simp [State.gate, hx, Nat.not_le.2 hq, hh, hu, hc, h, hp, hm, Nat.not_lt.2 hl, hb, hf, ho, hr]

theorem gate_notLocked (hb : s.bit R.SE_STATUS_FIELD_LOCK = false) (hk : c.lock = true) (hn : s.acc.lock = none) :
    s.gate r c = some 0x0005 := by
  rcases hv with h | h <;> simp [State.gate, hx, Nat.not_le.2 hq, hh, hu, hc, h, hp, hm, Nat.not_lt.2 hl, hb, hk, hn]

end

/-- Settles O57: what a packet that passes does and how it is answered, then the gate's refusals in the order of its tests. -/
theorem commandGateRefusals : Obligations.CommandGateRefusals := by
  refine ⟨fun s r c f hp hv => ⟨command_of_passes hp hv f, takeReq_frame s r c⟩, fun s r c x hx => session_takeReq hx,
    fun s r c x n ps d hx hq => ?reply, fun s r c f h => command_of_tooMany h, fun s r c f h => command_of_noHello h,
    fun s r c x hx hq => gate_tooMany hx hq, fun s r c x hx hq hh ho => gate_noHello hx hq hh ho,
    fun s r c x hx hq hh hu h1 hc => gate_boot hx hq hh hu h1 hc, fun s r c x f hx hq hh hu hc hv hp => ?form,
    fun s r c x hx hq hh hu hc hv hp hm hl => gate_lowLevel hx hq hh hu hc hv hp hm hl,
    fun s r c x hx hq hh hu hc hv hp hl hn => gate_notMetrology hx hq hh hu hc hv hp hl hn,
    fun s r c x hx hq hh hu hc hv hp hm hl hb hf ho hn => gate_fieldLocked hx hq hh hu hc hv hp hm hl hb hf ho hn,
    fun s r c x hx hq hh hu hc hv hp hm hl hb hk hn => gate_notLocked hx hq hh hu hc hv hp hm hl hb hk hn,
    fun s r c x hx hq hh hu hc hg hv => gate_notFitted hx hq hh hu hc hg hv⟩
  case reply =>
    have ht := session_takeReq (c := c) hx
    rw [reply_of_sole ht (by rw [hq, List.nil_append])]
    refine ⟨?_, ?_⟩
    · rw [takeReq_frame]
      rfl
    · exact session_updSession (f := fun y => { y with queue := [] }) (fun _ => rfl) ht
  case form => exact command_of_refused (gate_badParam hx hq hh hu hc hv hp) (by decide) (by decide)

/-! ### Packets of group 0x0A about access (R384, R386 to R390) -/

section
variable (s : State) (r : Req) (c : Cmd)

@[simp] theorem takeReq_pwHash : (s.takeReq r c).acc.pwHash = s.acc.pwHash := by
  unfold State.takeReq
  split <;> rfl

@[simp] theorem takeReq_pwUntil : (s.takeReq r c).acc.pwUntil = s.acc.pwUntil := by
  unfold State.takeReq
  split <;> rfl

@[simp] theorem takeReq_crUntil : (s.takeReq r c).acc.crUntil = s.acc.crUntil := by
  unfold State.takeReq
  split <;> rfl

/-- A command without the L mark leaves the lock as it is (R386). -/
theorem takeReq_lock (h : c.lock = false) : (s.takeReq r c).acc.lock = s.acc.lock := by
  unfold State.takeReq
  rw [if_neg (by simp [h])]
  rfl

@[simp] theorem takeReq_lockedFor (t : Option Nat) : (s.takeReq r c).lockedFor t = s.lockedFor t := by
  unfold State.lockedFor
  rw [takeReq_tb]

end

section
variable {s : State} {r : Req} {c : Cmd} {f : State → State}

@[simp] theorem updSession_bit (n : Nat) (g : Session → Session) (q : RegRow) (i j : Nat) :
    (s.updSession n g).bit q i j = s.bit q i j := rfl

theorem heldBy_of_free : s.heldBy r c none f = f s := rfl

theorem heldBy_of_own {n : Nat} (h : n = r.session) : s.heldBy r c (some n) f = f s := if_pos h

theorem heldBy_of_other {n : Nat} (h : n ≠ r.session) : s.heldBy r c (some n) f = s.reply r c 0x000C [n] := if_neg h

theorem lockTimeout_due {x : LockHold} (h : s.acc.lock = some x) (ht : x.lastUse + x.minutes * minuteTb ≤ s.tb.frc) :
    exec .lockTimeout s = .next { s with acc := { s.acc with lock := none } } := by
  simp only [exec_lockTimeout, execLockTimeout, h, if_pos ht]

theorem lockTimeout_running {x : LockHold} (h : s.acc.lock = some x) (ht : s.tb.frc < x.lastUse + x.minutes * minuteTb) :
    exec .lockTimeout s = .next s := by
  simp only [exec_lockTimeout, execLockTimeout, h, if_neg (Nat.not_le.2 ht)]

theorem lockTimeout_free (h : s.acc.lock = none) : exec .lockTimeout s = .next s := by
  simp only [exec_lockTimeout, execLockTimeout, h]

theorem reopenExpiry_due {n t : Nat} {x : Session} (hx : s.session? n = some x) (hr : x.reopen = some t) (ht : t ≤ s.tb.frc) :
    exec (.reopenExpiry n) s = .next (s.updSession n (fun x => { x with reopen := none })) := by
  simp only [exec_reopenExpiry, execReopenExpiry, hx, Option.bind_some, hr, if_pos ht]

theorem reopenExpiry_none {n : Nat} (h : (s.session? n).bind (·.reopen) = none) : exec (.reopenExpiry n) s = .next s := by
  simp only [exec_reopenExpiry, execReopenExpiry, h]

end

/-- Settles O41: every packet passes the gate, and its body runs on a state that differs in the command service alone. -/
theorem accessCommands : Obligations.AccessCommands := by
  refine ⟨fun s r x hp hx => command_next hp (by decide) ?whoami, fun s r n hp h1 hn hl => command_next hp (by decide) ?lockOpen,
    fun s r n x hp h1 hn hl ho => command_next hp (by decide) ?lockHeld, fun s r x hp hl ho => command_next hp (by decide) ?lockClose,
    fun s r x hp hl ho => command_next hp (by decide) ?lockOther, fun s r hp hl => command_next hp (by decide) ?lockNone,
    fun s x hl ht => lockTimeout_due hl ht, fun s hl => lockTimeout_free hl, fun s x hl ht => lockTimeout_running hl ht,
    fun s r hp => command_next hp (by decide) rfl, fun s r hp => command_next hp (by decide) rfl,
    fun s r d n hp h1 hn hw => command_next hp (by decide) ?noPassword,
    fun s r d n hp h1 hn hw hb hl => command_next hp (by decide) ?password,
    fun s r d n v hp h1 hn hw hb => command_next hp (by decide) ?passwordUnlocked,
    fun s n t x hx hr ht => reopenExpiry_due hx hr ht, fun s n h => reopenExpiry_none h,
    fun s r n hp h1 hn hb hl => command_next hp (by decide) ?challenge,
    fun s r n hp h1 hn hb => command_next hp (by decide) ?challengeUnlocked,
    fun s r d y hp hd hy hc => command_next hp (by decide) ?noChallenge,
    fun s r d x y hp hd hy hc ht hb => command_next hp (by decide) ?response,
    fun s r d hp hd => command_next hp (by decide) (if_pos hd), fun s r d hp hd => command_next hp (by decide) (if_neg ?short),
    fun s r hp => command_next hp (by decide) rfl, fun s r hp => command_next hp (by decide) rfl, fun s => rfl⟩
  case whoami => simp only [session_takeReq hx]; rfl
  case lockOpen => simp [inRange_of, h1, hn, takeReq_lock, hl, heldBy_of_free]
  case lockHeld => simp [inRange_of, h1, hn, takeReq_lock, hl, heldBy_of_other ho]
  case lockClose => simp [takeReq_lock, hl, heldBy_of_own ho, require_of]
  case lockOther => simp [takeReq_lock, hl, heldBy_of_other ho]
  case lockNone => simp [takeReq_lock, hl, heldBy_of_free, require_of_not]
  case noPassword => simp [inRange_of, h1, hn, hw]
  case password => simp [inRange_of, h1, hn, hw, hb, hl]
  case passwordUnlocked => simp [inRange_of, h1, hn, hw, hb]
  case challenge => simp [inRange_of, h1, hn, hb, hl]
  case challengeUnlocked => simp [inRange_of, h1, hn, hb]
  case noChallenge => simp [inRange_of, hd, session_takeReq hy, hc]
  case response => simp [inRange_of, hd, session_takeReq hy, hc, Nat.not_lt.2 ht, hb]
  case short => simp [Nat.not_le.2 hd]

end Sys2Proof.Proofs
end

section
/-! SUPPORT. The statements about identity and trust: tamper inputs, sessions and peer sessions, the packets of group 0x0A about ownership, the
enclave's mailbox. -/

namespace Sys2Proof.Proofs

open Sys2Proof Sys2Proof.Machine Sys2Proof.Safety Sys2Proof.Laws

/-! ### Tamper inputs (R405) -/

section
variable {s : State} {i : Nat}

theorem tamperInput_noInput (b : Bool) (h : 4 ≤ i) : exec (.tamperInput i b) s = .next s := congrArg _ (if_pos h)

/-- An input that opens is shown, and its action is taken where it was not open before. -/
theorem tamperInput_opens (hi : i < 4) (hu : s.unit ≠ .off) (hb : bitOf (s.rd R.SE_TAMPER_STATE) i = false)
    (hn : s.rd R.SE_TAMPER_STATE ||| 2 ^ i ≠ 0) :
    exec (.tamperInput i true) s = .next (((s.wr R.SE_TAMPER_STATE (s.rd R.SE_TAMPER_STATE ||| 2 ^ i)).wr R.SE_STATUS_TAMPER_NOW 1).tamperAct i) := by
  rw [exec_tamperInput, execTamperInput, if_neg (Nat.not_le.2 hi), if_neg (by simpa using hu)]
  simp only [if_true, if_neg hn, hb, Bool.not_false, Bool.and_self]

/-- Without supply TI0 and TI3 are latched for the next start. -/
theorem tamperInput_latches (hi : i = 0 ∨ i = 3) (hu : s.unit = .off) (hl : s.trust.latched = []) :
    exec (.tamperInput i true) s = .next { s with trust := { s.trust with latched := [i] } } := by
  rcases hi with rfl | rfl <;> simp [execTamperInput, hu, hl]

theorem tamperInput_unlatched (hu : s.unit = .off) : exec (.tamperInput 1 true) s = .next s := by
  simp [execTamperInput, hu]

end

/-! ### Handshakes and sessions (R373, R374, R376, R380, R396) -/

section
variable {s u : State} {h : Handshake} {n : Nat} {x : Session}

theorem sessionHandshake_serviceDown (hs : s.serviceUp = false) : exec (.sessionHandshake h) s = .next s :=
  congrArg _ (if_pos (by simp [hs]))

theorem sessionHandshake_fails (hs : s.serviceUp = true) (hp : h.peer = none) (hc : s.carrierOn h.carrier = true)
    (hf : s.acc.tlsFails = []) (ht : h.tlsOk = false) : exec (.sessionHandshake h) s = .next (s.tlsFail h.source) := by
  simp [execSessionHandshake, hs, hp, hc, hf, ht]

/-- The session a handshake over the service port sets up. -/
def serviceSession (s : State) (h : Handshake) (c : Cred) (level : Level) (cand : Bool) (frc : Nat) : Session :=
  { id := s.acc.nextId, level, cred := c.fingerprint, carrier := h.carrier, source := h.source, hello := false, classes := 0,
    queue := [], lastRx := frc, keyFrc := frc, records := 0, reopen := none, challenge := none, cand, key := c.key,
    unchecked := !s.bit R.TB_STATUS_TOD_VALID }

/-- A handshake on the service port whose certificate opens a session sets it up while there is room. -/
theorem sessionHandshake_opens {c : Cred} {lv : Level} {cand : Bool} (hs : s.serviceUp = true) (hp : h.peer = none)
    (hc : h.carrier = .service) (hon : s.carrierOn .service = true) (hf : s.acc.tlsFails = []) (ht : h.tlsOk = true)
    (hcred : h.cred = some c) (hfor : s.sessionFor .service c = some (lv, cand))
    (hu : State.wr { s with acc := { s.acc with nextId := s.acc.nextId + 1 } } R.SE_STATUS_DATES_UNCHECKED
      (if !s.bit R.TB_STATUS_TOD_VALID then 1 else 0) = u)
    (hroom : u.carrierFull .service = false) :
    exec (.sessionHandshake h) s =
      .next { u with acc := { u.acc with sessions := u.acc.sessions ++ [serviceSession s h c lv cand u.tb.frc] } } := by
  subst hu
  rw [exec_sessionHandshake, execSessionHandshake, if_neg (by simp [hs])]
  simp only [hp, hc]
  rw [if_neg (by simp [hon, hf])]
  simp only [ht, if_true, hcred, Option.bind_some, hfor, serviceSession, hc]
  exact congrArg _ (if_neg (Bool.eq_false_iff.1 hroom))

theorem sessionIdleTimeout_due (hx : s.session? n = some x) (ht : x.lastRx + 12000000000 ≤ s.tb.frc) :
    exec (.sessionIdleTimeout n) s = .next (s.notice n 0x0105) := by
  simp only [exec_sessionIdleTimeout, execSessionIdleTimeout, hx, if_pos ht]

theorem tlsKeyUpdate_early (hx : s.session? n = some x) (hr : x.records < 2 ^ 24) (ht : s.tb.frc < x.keyFrc + 360000000000) :
    exec (.tlsKeyUpdate n) s = .next s := by
  simp only [exec_tlsKeyUpdate, execTlsKeyUpdate, hx]
  exact congrArg _ (if_neg (by simpa [ht] using hr))

/-- Keys are updated when they are 1 h old. -/
theorem tlsKeyUpdate_due (hx : s.session? n = some x) (ht : x.keyFrc + 360000000000 ≤ s.tb.frc) :
    exec (.tlsKeyUpdate n) s = .next (s.updSession n (fun x => { x with records := 0, keyFrc := s.tb.frc })) := by
  simp only [exec_tlsKeyUpdate, execTlsKeyUpdate, hx]
  exact congrArg _ (if_pos (by simp [ht]))

/-- What names a session that is not there changes nothing. -/
theorem sessionEvents_absent (hx : s.session? n = none) :
    exec (.sessionIdleTimeout n) s = .next s ∧ exec (.tlsKeyUpdate n) s = .next s ∧ exec (.malformedHeader n) s = .next s ∧
      exec (.connectionClosed n none) s = .next s := by
  simp [execSessionIdleTimeout, execTlsKeyUpdate, execMalformedHeader, execConnectionClosed, hx]

theorem sessionEnds (hx : (s.session? n).isSome = true) :
    exec (.malformedHeader n) s = .next (s.notice n 0x0002) ∧ exec (.connectionClosed n none) s = .next (s.closeSession n) :=
  ⟨congrArg _ (if_pos hx), congrArg _ (if_pos hx)⟩

end

/-! ### Peer sessions (R404) -/

section
variable {s u : State} {p : Nat}

theorem peerSessionKeyExpiry_noPort (hp : 6 ≤ p) : exec (.peerSessionKeyExpiry p) s = .next s :=
  congrArg _ (if_neg (by simp [Nat.not_lt.2 hp]))

/-- 60 s after the only peer session of a port has ended its keys are erased. -/
theorem peerSessionKeyExpiry_due {x : Peer} {t : Nat} (hp : p < 6) (hl : s.trust.peers = [x]) (hx : x.port = p) (he : x.ended = some t)
    (ht : t + 6000000000 ≤ s.tb.frc) (hu : { s with trust := { s.trust with peers := [] } } = u) :
    exec (.peerSessionKeyExpiry p) s = .next (((u.updSec p (fun _ => MacSec.reset)).wr R.ES_MACSEC_KEY_OK 0 p).pairLinks) := by
  have hended : s.trust.peers.any (fun x => x.port == p && x.ended.any (fun t => decide (t + 6000000000 ≤ s.tb.frc))) = true := by
    rw [hl, List.any_cons, he, hx, beq_self_eq_true, Bool.true_and, Option.any_some, decide_eq_true ht, Bool.true_or]
  have hnone : s.trust.peers.filter (fun x => x.port != p) = [] := by simp [hl, hx]
  rw [exec_peerSessionKeyExpiry, execPeerSessionKeyExpiry, if_pos (by rw [hended, decide_eq_true hp]; rfl), hnone, hu]

end

/-! ### Undefined opcodes (R3, R385) -/

/-- A packet of group 0x09 that passes its checks runs its command on NPS-96D-M; NPS-96D-X answers 0x0901. -/
theorem command_of_variant {s : State} {r : Req} {c : Cmd} {f : State → State} (h : Passes s r c) (hg : c.op / 256 = 9)
    (hl : c.lock = false) : s.command r c f = if Config.variantM = true then f (s.takeReq r c) else (s.takeReq r c).reply r c 0x0901 := by
  by_cases hv : Config.variantM = true
  · rw [command_of_passes h (.inr hv), if_pos hv]
  · have hc : { c with lock := false } = c := by rw [← hl]
    rw [command_of_refused (gate_variant h hg (Bool.eq_false_iff.2 hv)) (by decide) (by decide), hc, if_neg hv]
    rfl

theorem undefinedOpcode_ofMetering {s : State} {r : Req} {op : Nat} (h : Passes s r { op, level := .observer }) (hg : op / 256 = 9) :
    exec (.undefinedOpcode r op) s = .next (State.reply (s.takeReq r { op, level := .observer }) r { op, level := .observer }
      (if Config.variantM = true then 0x0001 else 0x0901)) := by
  rw [exec_undefinedOpcode, execUndefinedOpcode]
  refine congrArg _ ((command_of_variant h hg rfl).trans ?_)
  split <;> rfl

/-- Settles O32: a tamper input by the supply and its state, a handshake by how it ended, a session by its age, a peer session by its end. -/
theorem tamperSessionsAndPeers : Obligations.TamperSessionsAndPeers := by
  refine ⟨fun _ _ b h => tamperInput_noInput b h, fun _ _ hi hu hb hn => tamperInput_opens hi hu hb hn,
    fun _ hu hl => ⟨tamperInput_latches (.inl rfl) hu hl, tamperInput_latches (.inr rfl) hu hl, tamperInput_unlatched hu⟩,
    fun _ _ hs => sessionHandshake_serviceDown hs, fun _ _ hs hp hc hf ht => sessionHandshake_fails hs hp hc hf ht,
    fun _ _ _ _ _ _ _ hs hp hc hon hf ht hcred hfor hu hroom hx => ?opens,
    fun _ _ hx ht => sessionIdleTimeout_due hx ht, fun _ _ hx hr ht => tlsKeyUpdate_early hx hr ht,
    fun _ _ hx ht => tlsKeyUpdate_due hx ht, fun _ _ hx => sessionEvents_absent hx, fun _ _ hx => sessionEnds hx, fun _ _ _ => rfl,
    fun _ _ hp => peerSessionKeyExpiry_noPort hp, fun _ _ _ _ _ hp hl hx he ht hu => peerSessionKeyExpiry_due hp hl hx he ht hu.symm,
    fun _ _ _ hp hg => command_next hp hg rfl, fun _ _ _ hp hg => undefinedOpcode_ofMetering hp hg⟩
  case opens =>
    rw [hx]
    exact sessionHandshake_opens hs hp hc hon hf ht hcred hfor hu.symm hroom

/-! ### Packets of group 0x0A about ownership (R384, R394 to R406) -/

section
variable {s u : State} {r : Req} {c : Cmd}

/-- The checks of a credential look at the owner, the list of revoked ones and the time (R396). -/
@[simp] theorem takeReq_credOk (x : Cred) : (s.takeReq r c).credOk x = s.credOk x := by
  unfold State.credOk State.datesOk
  rw [takeReq_trust, takeReq_tb, takeReq_bit]

/-- ZEROISE with a LEVEL from 1 to 3, and with the serial for 3, answers first (R406). -/
theorem zeroise_confirmed {n k : Nat} (hp : Passes s r { op := 0x0A1A, level := .owner }) (hn : n = 1 ∨ n = 2 ∨ (n = 3 ∧ k = Config.serial)) :
    exec (.zeroise r n k) s =
      .next ((State.reply (s.takeReq r { op := 0x0A1A, level := .owner }) r { op := 0x0A1A, level := .owner } 0).zeroise n) := by
  refine command_next hp (by decide) (if_neg ?_)
  rcases hn with rfl | rfl | ⟨rfl, rfl⟩ <;> simp

/-- The enclave answers with free values (R410). -/
theorem seReplyReady_busy (hb : s.bit R.SE_MBOX_BUSY = true) (hr : s.fw.restarting.contains 1 = false)
    (hu : (List.range 128).foldl (fun s i => (s.wr R.SE_MBOX_RSP s.freeVal i).nextFree) s = u) :
    exec .seReplyReady s = .next ((((u.wr R.SE_MBOX_STATUS u.freeVal).nextFree).wr R.SE_MBOX_BUSY 0).wr R.SE_MBOX_DONE 1) := by
  rw [exec_seReplyReady, execSeReplyReady, if_neg (by rw [hb, hr]; decide), hu]

end

/-- Settles O33: every packet passes the gate, and its body runs on a state that differs in the command service alone; the mailbox by BUSY. -/
theorem ownershipCommands : Obligations.OwnershipCommands := by
  refine ⟨fun s r hp => command_next hp (by decide) rfl, fun s r fik kcv b x hp hx hc => command_next hp (by decide) ?notCandidate,
    fun s r fik kcv x hp hx hc hs ho hk => command_next hp (by decide) ?take, fun s r k hp => command_next hp (by decide) rfl,
    fun s r fps hp hn => command_next hp (by decide) ?revokeFull, fun s r fps hp hn => command_next hp (by decide) ?revoke,
    fun s r fps hp => command_next hp (by decide) rfl, fun s r hp => command_next hp (by decide) rfl,
    fun s r cert d hp hok ho hs hk => command_next hp (by decide) ?member,
    fun s r cert d hp hok => command_next hp (by decide) ?memberBad, fun s r n hp => command_next hp (by decide) rfl,
    fun s r k i v hp hk hv => command_next hp (by decide) ?floor, fun s r k i v hp hk hv => command_next hp (by decide) ?floorRaised,
    fun s r p i v hp hi hv => command_next hp (by decide) ?partFloor, fun s r hp => command_next hp (by decide) rfl,
    fun s r n k hp hn => zeroise_confirmed hp (hn.imp id .inl), fun s r hp => zeroise_confirmed hp (.inr (.inr ⟨rfl, rfl⟩)),
    fun s r n k hp hn => command_next hp (by decide) (if_pos ?unconfirmed), fun s r a hp => command_next hp (by decide) rfl,
    fun s r hp => command_next hp (by decide) rfl,
    fun s hb => ⟨congrArg _ (if_neg (by simp [hb])), congrArg _ (if_pos (by simp [hb]))⟩, fun s hb => congrArg _ (if_pos hb),
    fun s u hb hr hu => seReplyReady_busy hb hr hu.symm⟩
  case notCandidate => simp [session_takeReq hx, hc]
  case take => simp [session_takeReq hx, hc, hs, ho, hk]
  case revokeFull => exact if_pos (by simpa using hn)
  case revoke => exact if_neg (by simpa using hn)
  case member => exact if_pos (by simp [hok, ho, hs, hk])
  case memberBad => exact if_neg (by simp [hok])
  case floor =>
    obtain rfl | rfl : k = 0 ∨ k = 1 := by omega
    all_goals exact if_neg (by simpa using hv)
  case floorRaised =>
    obtain rfl | rfl : k = 0 ∨ k = 1 := by omega
    all_goals exact if_pos (by simpa using hv)
  case partFloor => simp [hi, Nat.not_lt.2 hv]
  case unconfirmed => rcases hn with rfl | hn | ⟨rfl, hn⟩ <;> simp [*]

end Sys2Proof.Proofs
end

section
/-! SUPPORT. The statements about Ethernet and time synchronisation: the switch with its redundancy, MACsec, the fabric and the route table, links,
PTP messages. -/

namespace Sys2Proof.Proofs

open Sys2Proof Sys2Proof.Machine Sys2Proof.Safety Sys2Proof.Laws

/-! ### Frames at the switch ports (R321 to R325, R331) -/

section
variable {s u : State} {p : Nat} {f : EthFrame}

theorem ethFrameRx_off (h : s.bit R.ES_CTRL_EN = false) : exec (.ethFrameRx p f) s = .next s :=
  congrArg _ (if_pos (by simp [h]))

section
variable (hp : p < 7) (hs : s.switchHolds p = false) (he : s.bit R.ES_CTRL_EN = true) (hpe : s.bit R.ES_PORT_CFG_EN p = true)
  (hl : s.bit R.ES_PORT_CFG_LINK p = true) (hu : s.inc R.ES_PORT_CFG_RX p = u)
include hp hs he hpe hl hu

/-- A frame of a single network that keeps the limit of its port is learned from and forwarded. -/
theorem ethFrameRx_forwarded (hsec : u.secOn p = false) (hlen : f.len ≤ 2048) (hsup : f.supervision = false) (ht : u.twin p = none) :
    exec (.ethFrameRx p f) s = .next (u.ethForward p f) := by
  have hfits : ¬ (if (decide (p = 4) || decide (p = 5)) = true then 9216 else 2048) < f.len := by split <;> omega
  rw [exec_ethFrameRx, execEthFrameRx, if_neg (by simp [Nat.not_le.2 hp, hs, he, hpe, hl])]
  simp only [hu, hsec, Bool.false_and, Bool.false_eq_true, if_false, if_neg hfits, ht, Option.isSome_none, hsup]

/-- A plant port drops what is longer than 2,048 bytes. -/
theorem ethFrameRx_oversize (hp4 : p < 4) (hlen : 2048 < f.len) :
    exec (.ethFrameRx p f) s = .next (u.inc R.ES_PORT_CFG_OVERSIZE p) := by
  have hlong : (if (decide (p = 4) || decide (p = 5)) = true then 9216 else 2048) < f.len := by
    rw [if_neg (by simp; omega)]
    exact hlen
  rw [exec_ethFrameRx, execEthFrameRx, if_neg (by simp [Nat.not_le.2 hp, hs, he, hpe, hl])]
  simp only [hu, if_pos hlong]

end

theorem ethFrameTx_off (h : s.bit R.ES_CTRL_EN = false) : exec (.ethFrameTx p) s = .next s := congrArg _ (if_pos (by simp [h]))

/-- The service port and the core's port send the next frame of their highest queue that holds one. -/
theorem ethFrameTx_highest {q : Nat} {fs : List EthFrame} (hp : p = 6 ∨ p = 7) (he : s.bit R.ES_CTRL_EN = true)
    (hpe : s.bit R.ES_PORT_CFG_EN p = true) (hl : s.bit R.ES_PORT_CFG_LINK p = true)
    (hq : (List.range 8).reverse.find? (fun q => !(s.eth.queues.getD (8 * p + q) []).isEmpty) = some q)
    (hf : s.eth.queues.getD (8 * p + q) [] = f :: fs)
    (hu : (s.updEth (fun e => { e with queues := updAt e.queues (8 * p + q) (fun _ => fs) })).bufLow = u) :
    exec (.ethFrameTx p) s = .next (((if p < 7 then u.inc R.ES_PORT_CFG_TX p else u).emit (.eth p) .frame
      [f.dst, f.src, f.etype, f.len] f.payload).secSent p) := by
  have hhold : s.switchHolds p = false := by rcases hp with rfl | rfl <;> simp [State.switchHolds]
  have hsec : s.secOn p = false := by rcases hp with rfl | rfl <;> rfl
  rw [exec_ethFrameTx, execEthFrameTx, if_neg (by rcases hp with rfl | rfl <;> simp [hhold, hsec, he, hpe, hl])]
  simp only [hq, hf]
  rw [if_neg (by rcases hp with rfl | rfl <;> simp), hu]

end

/-! ### Redundancy (R325, R340) -/

section
variable {s : State}

theorem prpSupervisionSend_none (h : (List.range 4).filter (fun p => (s.twin p).isSome) = []) :
    exec .prpSupervisionSend s = .next s := congrArg _ (if_pos (by simp only [h, List.isEmpty_nil, Bool.true_or]))

/-- Every 2 s a supervision frame leaves on both ports of a pair. -/
theorem prpSupervisionSend_pair (h : (List.range 4).filter (fun p => (s.twin p).isSome) = [0, 1])
    (ht : s.eth.supTx + 200000000 ≤ s.tb.frc) :
    exec .prpSupervisionSend s = .next (((s.updEth (fun e => { e with supTx := s.tb.frc })).emit (.eth 0) .mark [0x88FB]).emit
      (.eth 1) .mark [0x88FB]) := by
  simp only [exec_prpSupervisionSend, execPrpSupervisionSend, h]
  exact congrArg _ (if_neg (by rw [decide_eq_false (Nat.not_lt.2 ht)]; decide))

theorem supervisionMissing_silent {p : Nat} (hp : p < 4) (ht : (s.twin p).isSome = true)
    (hs : s.eth.supRx.getD (p / 2) 0 + 600000000 ≤ s.tb.frc) :
    exec .supervisionMissing s = .next (s.wr R.ES_STATUS_RED_ERR 1) :=
  congrArg _ (if_pos (List.any_eq_true.2 ⟨p, List.mem_range.2 hp, by rw [ht, decide_eq_true hs]; rfl⟩))

theorem supervisionMissing_heard
    (h : ∀ p, p < 4 → (s.twin p).isSome = true → s.tb.frc < s.eth.supRx.getD (p / 2) 0 + 600000000) :
    exec .supervisionMissing s = .next s := by
  refine congrArg _ (if_neg (fun hany => ?_))
  obtain ⟨p, hp, hsilent⟩ := List.any_eq_true.1 hany
  rw [Bool.and_eq_true, decide_eq_true_eq] at hsilent
  exact Nat.not_le.2 (h p (List.mem_range.1 hp) hsilent.1) hsilent.2

end

/-! ### MACsec (R332) -/

section
variable {s : State} {p : Nat}

theorem macsecRekey_none (h : 6 ≤ p ∨ s.trust.peers = []) : exec (.macsecRekey p) s = .next s := by
  refine congrArg _ (if_pos ?_)
  rcases h with h | h <;> simp [h]

/-- A rekey installs the next association; receive accepts the old one for 1 s. -/
theorem macsecRekey_next {m : MacSec} (hp : p < 4) (hpeer : s.trust.peers.any (fun x => x.port == p && x.ended.isNone) = true)
    (hm : s.eth.macsec.getD p MacSec.reset = m) (hk : s.bit R.ES_MACSEC_KEY_OK p = true) :
    exec (.macsecRekey p) s = .next ((((s.updSec p (fun _ =>
        { an := (m.an + 1) % 4, nextPn := 1, old := some (m.an, s.tb.frc + 100000000, m.nextPn), txPn := 0 })).wr
      R.ES_MACSEC_AN_TX ((m.an + 1) % 4) p).wr R.ES_MACSEC_KEY_OK 1 p).pairLinks) := by
  have h4 : (decide (4 ≤ p) && s.inRun) = false := by rw [decide_eq_false (Nat.not_le.2 hp), Bool.false_and]
  rw [exec_macsecRekey, execMacsecRekey, State.rekey, if_neg (by rw [hpeer]; simp; omega)]
  simp only [h4, Bool.false_eq_true, if_false, hm, hk, if_true]

theorem macsecOldAssociationExpiry_due {a t n : Nat} (ho : (s.eth.macsec.getD p MacSec.reset).old = some (a, t, n)) (ht : t ≤ s.tb.frc) :
    exec (.macsecOldAssociationExpiry p) s = .next (s.updSec p (fun m => { m with old := none })) := by
  simp only [exec_macsecOldAssociationExpiry, execMacsecOldAssociationExpiry, ho, if_pos ht]

theorem macsecOldAssociationExpiry_none (ho : (s.eth.macsec.getD p MacSec.reset).old = none) :
    exec (.macsecOldAssociationExpiry p) s = .next s := by
  simp only [exec_macsecOldAssociationExpiry, execMacsecOldAssociationExpiry, ho]

end

/-! ### Fabric frames and the route table (R326 to R330) -/

section
variable {s u : State} {q : Nat}

theorem fabricFrameSend_running (e : Nat) (h : s.fw.restarting.contains 3 = false) :
    exec (.fabricFrameSend e) s = .next (s.fabricFlush e) := congrArg _ (if_neg (Bool.eq_false_iff.1 h))

theorem routeEntryDrain_noRoute
    (h : (s.routeValid Config.routeBase).any (fun e => s.routeDir e == 0 && s.routeKind e == 0 && s.routeRing e == q) = false) :
    exec (.routeEntryDrain q) s = .next s := congrArg _ (if_pos (by rw [h]; simp))

theorem routeEntryDrain_empty (hr : s.fw.restarting.contains 3 = false)
    (h : (s.routeValid Config.routeBase).any (fun e => s.routeDir e == 0 && s.routeKind e == 0 && s.routeRing e == q) = true)
    (he : (s.ringTake q 1).2 = []) : exec (.routeEntryDrain q) s = .next (s.ringTake q 1).1 := by
  rw [exec_routeEntryDrain, execRouteEntryDrain, if_neg (by rw [hr, h]; decide)]
  simp only [he, List.foldl_nil]

theorem fabricFrameRx_version {f : FabricFrame} (h : f.version ≠ 1) : exec (.fabricFrameRx f) s = .next s :=
  congrArg _ (if_pos (by simp [h]))

/-- The first frame of a route is in order, and its entries go onto the ring the route names (R329). -/
theorem fabricFrameRx_first {f : FabricFrame} {e : Nat} (hd : f.dst = s.rd R.ES_PLANT) (hv : f.version = 1)
    (hf : (s.routeValid Config.routeBase).find? (fun e => s.routeDir e == 1 && s.routePeer e == f.src && s.routeId e == f.route &&
      s.routeKind e == f.kind) = some e) (hk : f.kind = 0) (hs : (s.route e).seqRx = none) :
    exec (.fabricFrameRx f) s = .next (f.entries.foldl (fun s d => s.fabricPut (s.routeRing e) d)
      (s.setRoute { s.route e with seqRx := some f.seq, frames := (s.route e).frames + 1, gaps := (s.route e).gaps })) := by
  rw [exec_fabricFrameRx, execFabricFrameRx, if_neg (by simp [hd, hv]), hf]
  simp only [hs]
  exact congrArg _ (if_pos hk)

theorem routeTableSwap_idle (h : s.bit R.ES_RT_STATUS_PENDING = false) : exec .routeTableSwap s = .next s :=
  congrArg _ (if_pos (by simp [h]))

section
variable (h : s.bit R.ES_RT_STATUS_PENDING = true)
  (hu : (s.toTick.eth.routes.map (·.entry)).foldl (fun s e => s.fabricFlush e) s.toTick = u)
include h hu

/-- At the tick the shadow table becomes the live one, after what had been matched has left. -/
theorem routeTableSwap_taken (hd : u.routeDup = false) :
    exec .routeTableSwap s = .next ((((u.routeCopy Config.routeShadow Config.routeBase).wr R.ES_RT_STATUS_PENDING 0).wr
      R.ES_RT_STATUS_DONE 1).applyDone 0x40090200 0) := by
  rw [exec_routeTableSwap, execRouteTableSwap, if_neg (by simp [h])]
  simp only [hu]
  exact congrArg _ (if_neg (Bool.eq_false_iff.1 hd))

/-- A shadow table with two entries for one route is refused. -/
theorem routeTableSwap_refused (hd : u.routeDup = true) :
    exec .routeTableSwap s = .next (((u.wr R.ES_RT_STATUS_REFUSED 1).wr R.ES_RT_STATUS_PENDING 0).applyDone 0x40090200 0x0541) := by
  rw [exec_routeTableSwap, execRouteTableSwap, if_neg (by simp [h])]
  simp only [hu]
  exact congrArg _ (if_pos hd)

end

theorem ingestSend_off (p : Nat) (h : s.bit R.CH_ING_OUT_EN p = false) : exec (.ingestSend p) s = .next s :=
  congrArg _ (if_pos (by simp [h]))

theorem ingestSend_published {p e : Nat} (hp : p < 8) (h : s.bit R.CH_ING_OUT_EN p = true) (hs : s.rd R.CH_SWEEPS p ≠ 0)
    (hf : (s.routeValid Config.routeBase).find? (fun e => s.routeDir e == 0 && s.routeKind e == 1 &&
      s.routePeer e == s.rd R.CH_ING_OUT_DEST p) = some e) :
    exec (.ingestSend p) s = .next ((s.ingMessages p).foldl (fun s m => s.fabricOut e 1 m) s) := by
  rw [exec_ingestSend, execIngestSend, if_neg (by simp [Nat.not_le.2 hp, h, hs]), hf]

end

/-! ### Links (R320, R334) -/

section
variable {s : State} {p v : Nat}

/-- A plant port links at a rate it is not kept from, and loads the corrections of the rate. -/
theorem portLinkChange_plant (hp : p < 4) (h1 : 1 ≤ v) (h2 : v ≤ 2)
    (hf : s.rd R.ES_PORT_CFG_SPEED p = 0 ∨ s.rd R.ES_PORT_CFG_SPEED p = v) :
    exec (.portLinkChange p v) s = .next (((s.wr R.ES_PORT_CFG_SPEED_NOW v p).wr R.ES_PORT_CFG_LINK 1 p).loadCorr p) := by
  have hv : v ≠ 0 := by omega
  simp only [exec_portLinkChange, execPortLinkChange, if_pos hp, if_neg hv]
  exact congrArg _ (if_neg (by rcases hf with hf | hf <;> simp [h2, hf]))

theorem portLinkChange_kept (hp : p < 4) (h1 : 1 ≤ v) (h0 : s.rd R.ES_PORT_CFG_SPEED p ≠ 0) (hv : s.rd R.ES_PORT_CFG_SPEED p ≠ v) :
    exec (.portLinkChange p v) s = .next s := by
  have hv0 : v ≠ 0 := by omega
  simp only [exec_portLinkChange, execPortLinkChange, if_pos hp]
  exact congrArg _ (if_pos (by simp [hv0, h0, hv]))

theorem portLinkChange_service (h : v = 0 ∨ v = 4) :
    exec (.portLinkChange 6 v) s = .next ((s.wr R.ES_PORT_CFG_SPEED_NOW v 6).wr R.ES_PORT_CFG_LINK (if v = 0 then 0 else 1) 6) := by
  rcases h with rfl | rfl <;> rfl

end

/-- Settles O22: a frame by the port, its length and the pair of its port, the queues by their head, the fabric and the table by what is
pending. -/
theorem switchAndFabric : Obligations.SwitchAndFabric :=
  ⟨fun _ _ _ h => ethFrameRx_off h, fun _ _ _ _ hp hs he hpe hl hu hsec hlen hsup ht =>
      ethFrameRx_forwarded hp hs he hpe hl hu.symm hsec hlen hsup ht,
    fun _ _ _ _ hp hs he hpe hl hu hlen => ethFrameRx_oversize (by omega) hs he hpe hl hu.symm hp hlen, fun _ _ h => ethFrameTx_off h,
    fun _ _ _ _ _ _ hp he hpe hl hq hf hu => ethFrameTx_highest hp he hpe hl hq hf hu.symm, fun _ h => prpSupervisionSend_none h,
    fun _ h ht => prpSupervisionSend_pair h ht, fun _ _ hp ht hs => supervisionMissing_silent hp ht hs,
    fun _ h => supervisionMissing_heard h, fun _ => ⟨rfl, rfl⟩, fun _ _ h => macsecRekey_none h,
    fun _ _ _ hp hpeer hm hk => macsecRekey_next hp hpeer hm hk, fun _ _ _ _ _ ho ht => macsecOldAssociationExpiry_due ho ht,
    fun _ _ ho => macsecOldAssociationExpiry_none ho, fun _ e h => fabricFrameSend_running e h, fun _ _ h => routeEntryDrain_noRoute h,
    fun _ _ hr h he => routeEntryDrain_empty hr h he, fun _ _ h => fabricFrameRx_version h,
    fun _ _ _ hd hv hf hk hs => fabricFrameRx_first hd hv hf hk hs, fun _ h => routeTableSwap_idle h,
    fun _ _ h hu hd => routeTableSwap_taken h hu.symm hd, fun _ _ h hu hd => routeTableSwap_refused h hu.symm hd,
    fun _ p h => ingestSend_off p h, fun _ _ _ hp h hs hf => ingestSend_published hp h hs hf,
    fun _ _ _ hp h1 h2 hf => portLinkChange_plant hp h1 h2 hf, fun _ _ _ hp h1 h0 hv => portLinkChange_kept hp h1 h0 hv,
    fun _ _ h => portLinkChange_service h⟩

/-! ### PTP messages (R333 to R336) -/

section
variable {s : State} {p d : Nat} {m : PtpMsg}

theorem ptpMessageRx_unused (h : s.ptpOn p = false ∨ d ≠ s.rd R.PT_CTRL_DOMAIN) : exec (.ptpMessageRx p d m) s = .next s := by
  refine congrArg _ (if_pos ?_)
  rcases h with h | h <;> simp [h]

section
variable (ho : s.ptpOn p = true) (hd : d = s.rd R.PT_CTRL_DOMAIN)
include ho hd

/-- A message of the domain on a port where PTP runs is used. -/
theorem ptp_used : ¬ (!s.ptpOn p || d != s.rd R.PT_CTRL_DOMAIN) = true := by simp [ho, hd]

theorem ptpMessageRx_announce (st c : Nat) : exec (.ptpMessageRx p d (.announce st c)) s = .next (s.ptpAnnounce p st c) :=
  congrArg _ (if_neg (ptp_used ho hd))

/-- A one-step Sync gives an offset at once, a two-step one waits for its follow-up. -/
theorem ptpMessageRx_sync (raw corr o : Int) :
    exec (.ptpMessageRx p d (.sync raw corr (some o))) s =
        .next ((s.updPtp p (fun x => { x with t2 := some (s.ptpIn p raw - s.ptpAsym p - corr), t1 := some o })).ptpOffset p) ∧
      exec (.ptpMessageRx p d (.sync raw corr none)) s =
        .next (s.updPtp p (fun x => { x with t2 := some (s.ptpIn p raw - s.ptpAsym p - corr), t1 := none })) :=
  ⟨congrArg _ (if_neg (ptp_used ho hd)), congrArg _ (if_neg (ptp_used ho hd))⟩

theorem ptpMessageRx_followUp (o c : Int) (ht : (s.ptp.ports.getD p PtpPort.reset).t1 = none) :
    exec (.ptpMessageRx p d (.followUp o c)) s = .next ((s.updPtp p (fun x => { x with t1 := some (o + c) })).ptpOffset p) := by
  rw [exec_ptpMessageRx, execPtpMessageRx, if_neg (ptp_used ho hd)]
  exact congrArg _ (if_neg (by rw [ht]; decide))

/-- The four times of an exchange give the mean path delay (R336). -/
theorem ptpMessageRx_delayResp {t1 t2 t3 : Int} (t4 corr : Int) (h1 : (s.ptp.ports.getD p PtpPort.reset).t1 = some t1)
    (h2 : (s.ptp.ports.getD p PtpPort.reset).t2 = some t2) (h3 : (s.ptp.ports.getD p PtpPort.reset).t3 = some t3)
    (hp : s.ptpP2P = false) :
    exec (.ptpMessageRx p d (.delayResp t4 corr)) s =
      .next ((s.ptpPath p (roundDiv ((t2 - t1) + (t4 - corr - t3)) 2)).ptpOffset p) := by
  rw [exec_ptpMessageRx, execPtpMessageRx, if_neg (ptp_used ho hd)]
  simp only [h1, h2, h3]
  exact congrArg _ (if_neg (Bool.eq_false_iff.1 hp))

theorem ptpMessageRx_delayReq (raw : Int) (hm : s.ptpMute = false) (hp : s.ptpP2P = false) :
    exec (.ptpMessageRx p d (.delayReq raw)) s = .next (s.ptpSend p 9 [(s.ptpIn p raw).toNat]) := by
  rw [exec_ptpMessageRx, execPtpMessageRx, if_neg (ptp_used ho hd)]
  exact congrArg _ (if_neg (by simp [hm, hp]))

theorem ptpMessageRx_pdelayReq (raw : Int) :
    exec (.ptpMessageRx p d (.pdelayReq raw)) s = .next (s.updPtp p (fun x => { x with reqRx := some (s.ptpIn p raw) })) :=
  congrArg _ (if_neg (ptp_used ho hd))

/-- A one-step peer delay response carries the turnaround time. -/
theorem ptpMessageRx_pdelayResp {p1 : Int} (raw corr : Int) (h1 : (s.ptp.ports.getD p PtpPort.reset).p1 = some p1) :
    exec (.ptpMessageRx p d (.pdelayResp raw corr none)) s =
      .next (s.ptpPath p (roundDiv (s.ptpIn p raw - s.ptpAsym p - p1 - corr) 2)) := by
  rw [exec_ptpMessageRx, execPtpMessageRx, if_neg (ptp_used ho hd)]
  simp only [h1]

end

theorem ptpMessageTx_off (m : PtpOut) (h : s.ptpOn p = false) : exec (.ptpMessageTx p m) s = .next s := congrArg _ (if_pos (by simp [h]))

section
variable (ho : s.ptpOn p = true)
include ho

theorem ptp_on : ¬ (!s.ptpOn p) = true := by simp [ho]

/-- A clock that is never a master sends no Announce and no Sync (R333). -/
theorem ptpMessageTx_mute (hm : s.ptpMute = true) :
    exec (.ptpMessageTx p .announce) s = .next s ∧ ∀ raw, exec (.ptpMessageTx p (.sync raw)) s = .next s :=
  ⟨congrArg _ ((if_neg (ptp_on ho)).trans (if_pos hm)), fun _ => congrArg _ ((if_neg (ptp_on ho)).trans (if_pos hm))⟩

theorem ptpMessageTx_announce (hm : s.ptpMute = false) :
    exec (.ptpMessageTx p .announce) s = .next ((s.ptpSend p 11 [s.clockClass, s.rd R.PT_UTC_OFFSET]).nextFree) :=
  congrArg _ ((if_neg (ptp_on ho)).trans (if_neg (Bool.eq_false_iff.1 hm)))

/-- A Sync carries its time, or its follow-up does (R335). -/
theorem ptpMessageTx_sync (raw : Int) (hm : s.ptpMute = false) :
    exec (.ptpMessageTx p (.sync raw)) s = .next (if s.bit R.PT_CTRL_TWO_STEP = true
      then (s.ptpSend p 0 []).ptpSend p 8 [(s.ptpOut p raw).toNat] else s.ptpSend p 0 [(s.ptpOut p raw).toNat]) :=
  congrArg _ ((if_neg (ptp_on ho)).trans (if_neg (Bool.eq_false_iff.1 hm)))

theorem ptpMessageTx_requests (raw : Int) :
    exec (.ptpMessageTx p (.delayReq raw)) s =
        .next ((s.updPtp p (fun x => { x with t3 := some (s.ptpOut p raw - s.ptpAsym p) })).ptpSend p 1 []) ∧
      exec (.ptpMessageTx p (.pdelayReq raw)) s =
        .next ((s.updPtp p (fun x => { x with p1 := some (s.ptpOut p raw - s.ptpAsym p) })).ptpSend p 2 []) ∧
      exec (.ptpMessageTx p .delayResp) s = .next (s.ptpSend p 9 []) :=
  ⟨congrArg _ (if_neg (ptp_on ho)), congrArg _ (if_neg (ptp_on ho)), congrArg _ (if_neg (ptp_on ho))⟩

end

/-- In lock a lost master begins the holdover, from the port it was on or from none (R336). -/
theorem ptpMasterLost_locked {u : State} (hr : s.fw.restarting.contains 3 = false)
    (hu : (if s.rd R.PT_STATUS_SLAVE_PORT < 4 then s.wr R.PT_PORT_PSTATE 4 (s.rd R.PT_STATUS_SLAVE_PORT) else s).wr
      R.PT_STATUS_SLAVE_PORT 7 = u) (hl : u.rd R.PT_STATUS_STATE = 2) :
    exec .ptpMasterLost s = .next { u.servo 3 with ptp := { u.ptp with lostAt := u.tb.frc } } := by
  rw [exec_ptpMasterLost, execPtpMasterLost, if_neg (Bool.eq_false_iff.1 hr)]
  simp only [hu, hl]

end

/-- Settles O23: a message received or sent by its kind, where PTP runs; a lost master by the port it was on. -/
theorem networkTime : Obligations.NetworkTime := by
  refine ⟨fun _ _ _ _ h => ptpMessageRx_unused h, fun _ _ _ st c ho hd => ptpMessageRx_announce ho hd st c,
    fun _ _ _ raw corr o ho hd => ptpMessageRx_sync ho hd raw corr o, fun _ _ _ o c ho hd ht => ptpMessageRx_followUp ho hd o c ht,
    fun _ _ _ _ _ _ t4 corr ho hd h1 h2 h3 hp => ptpMessageRx_delayResp ho hd t4 corr h1 h2 h3 hp,
    fun _ _ _ raw ho hd hm hp => ptpMessageRx_delayReq ho hd raw hm hp, fun _ _ _ raw ho hd => ptpMessageRx_pdelayReq ho hd raw,
    fun _ _ _ raw corr _ ho hd h1 => ptpMessageRx_pdelayResp ho hd raw corr h1, fun _ _ m h => ptpMessageTx_off m h,
    fun _ _ ho hm => ptpMessageTx_mute ho hm, fun s p raw ho hm ht => ?oneStep, fun s p raw ho hm ht => ?twoStep,
    fun _ _ raw ho => ptpMessageTx_requests ho raw, fun s u hr hs hu hl => ?lost, fun _ hr => congrArg _ (if_pos hr),
    fun s u hr hs hu hl => ?lostNoPort⟩
  case oneStep => exact ⟨by rw [ptpMessageTx_sync ho raw hm, if_neg (Bool.eq_false_iff.1 ht)], ptpMessageTx_announce ho hm⟩
  case twoStep => rw [ptpMessageTx_sync ho raw hm, if_pos ht]
  case lost => exact ptpMasterLost_locked hr (by rw [hs, hu]; rfl) hl
  case lostNoPort => exact ptpMasterLost_locked hr (by rw [hs, hu]; rfl) hl

end Sys2Proof.Proofs
end

section
/-! SUPPORT. The statement about the transitions of redundant pairs: failover, handover, join and leave, state transfer, the pair test. -/

namespace Sys2Proof.Proofs

open Sys2Proof Sys2Proof.Machine Sys2Proof.Safety Sys2Proof.Laws

/-! ### Failover and the loss of the links (R358, R360) -/

section
variable {s u : State}

/-- 100 tb before its tick an eligible unit whose partner is silent decides to take over. -/
theorem failoverCheck_silent (ht : s.ticking = false ∨ s.tb.frc < s.nextTick) (h0 : 0 < s.nextTick)
    (hu : s.toFrc (s.nextTick - 100) = u) (he : u.eligible = true) (hm : u.lat.marker = true)
    (hs : u.bit R.PA_STATUS_PARTNER_HEALTHY = false ∨ u.pair.markAt = none) :
    exec .failoverCheck s = .next { u with pair := { u.pair with takeover := some s.nextTick } } := by
  have hin : s.ticking = false ∨ max s.tb.frc (s.nextTick - 100) < s.nextTick := 
    ht.imp id (fun h => Nat.max_lt.2 ⟨h, Nat.sub_lt h0 (by decide)⟩)
  simp only [exec_failoverCheck, execFailoverCheck]
  rw [upTo_within hin, hu]
  refine congrArg _ (if_pos ?_)
  rcases hs with hs | hs <;> simp [he, hm, hs]

theorem partnerLinksLost_early (h : s.pair.down < 3) : exec .partnerLinksLost s = .next s := congrArg _ (if_pos (by simp [h]))

/-- With both links down for three frames ACTIVE drives on alone. -/
theorem partnerLinksLost_active (hd : 3 ≤ s.pair.down) (ht : s.toTick.role = .active) (hr : s.role = .active) :
    exec .partnerLinksLost s = .next s.toTick.toSolo :=
  congrArg _ ((if_neg (by simp [Nat.not_lt.2 hd, hr])).trans (if_pos ht))

/-- The other unit is separated and stops. -/
theorem partnerLinksLost_standby (hd : 3 ≤ s.pair.down) (hr : s.role = .standby) (ht : s.toTick.role = .standby) :
    exec .partnerLinksLost s = .next ((State.wr { s.toTick with pair := { s.toTick.pair with separated := true } }
      R.PA_EVENTS_LINKS_LOST 1).stopSoon) :=
  congrArg _ ((if_neg (by simp [Nat.not_lt.2 hd, hr])).trans (if_neg (by simp [ht])))

/-! ### Handover (R361, R362) -/

theorem handoverTakesEffect_notCommitted (h : s.rd R.PA_HANDOVER_STATE ≠ 2) : exec .handoverTakesEffect s = .next s :=
  congrArg _ (if_pos (by simp [h]))

/-- At the boundary the unit that follows takes the role of ACTIVE. -/
theorem handoverTakesEffect_standby (h2 : s.rd R.PA_HANDOVER_STATE = 2) (hf : s.pair.hFrame = s.tickFrame) (hr : s.role = .standby)
    (hu : (((s.toTick.wr R.PA_HANDOVER_STATE 3).wr R.PA_EVENTS_HANDOVER 1).inc R.PA_HANDOVERS).wake 0x0704 0 0 = u)
    (hur : u.role = .standby) : exec .handoverTakesEffect s = .next (u.takeActive .active) := by
  rw [exec_handoverTakesEffect, execHandoverTakesEffect, if_neg (by simp [h2, hf, hr])]
  simp only [hu]
  exact congrArg _ (if_neg (by simp [hur]))

theorem pairRevert_due (hb : s.bit R.PA_CFG_REVERT = true) (hp : s.preferred = true) (hr : s.role = .standby)
    (ha : 0 < s.rd R.PA_AGREE_RUN) (ht : s.pair.agreeAt + s.rd R.PA_TIMES_REVERT_HOLD * 100000000 ≤ s.tb.frc) :
    exec .pairRevert s = .next (s.path [1]) :=
  congrArg _ (if_pos (by rw [hb, hp, hr, decide_eq_true ha, decide_eq_true ht]; rfl))

theorem pairRevert_notStandby (hr : s.role ≠ .standby) : exec .pairRevert s = .next s := congrArg _ (if_neg (by simp [hr]))

/-! ### Joining (R357, R360, R366) -/

theorem paCmdJoin_stop (q : PartnerInfo) (hu : s.unit = .stop) (he : s.bit R.PA_CFG_EN = true) :
    exec (.paCmdJoin q) s = .next (s.join q) := congrArg _ (if_pos (by simp [inStop_of_stop hu, he]))

theorem join_outsideStop (q : PartnerInfo) (hu : s.unit ≠ .stop) :
    exec (.paCmdJoin q) s = .next s ∧ exec (.autojoin q) s = .next s :=
  ⟨congrArg _ (if_neg (by simp [inStop_of_ne_stop hu])), congrArg _ (if_neg (by simp [inStop_of_ne_stop hu]))⟩

/-- A separated unit joins again once a link has been up for 10 s. -/
theorem autojoin_due (q : PartnerInfo) {t : Nat} (hs : s.pair.separated = true) (ha : s.bit R.PA_CFG_AUTOJOIN = true)
    (hu : s.unit = .stop) (he : s.bit R.PA_CFG_EN = true) (hup : s.pair.upAt = some t) (ht : t + 1000000000 ≤ s.tb.frc) :
    exec (.autojoin q) s = .next (s.join q) :=
  congrArg _ (if_pos (by rw [hs, ha, inStop_of_stop hu, he, hup, Option.any_some, decide_eq_true ht]; rfl))

theorem standbyPromotion_agreed (hr : s.role = .syncing) (hm : s.pair.mixed = false) (hc : s.pair.compared = true)
    (ha : s.rd R.PA_TIMES_AGREE_MIN ≤ s.rd R.PA_AGREE_RUN) :
    exec .standbyPromotion s = .next ((s.toTick.setRole .standby).wake 0x0702 0 0) :=
  congrArg _ (if_neg (by simp [hr, hm, hc, ha]))

theorem standbyPromotion_notSyncing (hr : s.role ≠ .syncing) : exec .standbyPromotion s = .next s := congrArg _ (if_pos (by simp [hr]))

/-! ### State transfer (R364, R365) -/

theorem stateTransferRound_none (gs : List (Nat × Bytes)) (h : s.pair.xferAt = none) : exec (.stateTransferRound gs) s = .next s :=
  congrArg _ (if_pos (by simp [h]))

/-- A round reaches the memory of the joining unit. -/
theorem stateTransferRound_joining {gs : List (Nat × Bytes)} {t : Nat} (h : s.pair.xferAt = some t) (h3 : s.rd R.PA_JOIN_STATUS_XFER ≠ 3)
    (hj : s.pair.joining = true) (hu : (gs.filter (fun g => xferTracked g.1)).foldl (fun s g => s.setBytes g.1 (g.2.take 32)) s = u) :
    exec (.stateTransferRound gs) s = .next (((u.inc R.PA_JOIN_STATUS_ROUND).wr R.PA_JOIN_STATUS_XFER 2).wr R.PA_JOIN_STATUS_DIRTY
      (min 255 ((32 * gs.length + 65535) / 65536))) := by
  rw [exec_stateTransferRound, execStateTransferRound, if_neg (by simp [h, h3]), if_pos (by simp [hj])]
  simp only [hj, if_true, hu]

theorem stateTransferFinal_joining (x : XferFinal) {t : Nat} (h : s.pair.xferAt = some t) (hj : s.pair.joining = true) :
    exec (.stateTransferFinal x) s = .next { s.wr R.PA_JOIN_STATUS_XFER 3 with pair := { s.pair with finalAt := some x } } :=
  congrArg _ ((if_neg (by simp [h])).trans (if_pos (by simp [hj])))

theorem stateTransferEnds_none (x : XferFinal) (h : s.pair.xferAt = none) :
    exec (.stateTransferFinal x) s = .next s ∧ exec .stateTransferTimeout s = .next s :=
  ⟨congrArg _ (if_pos (by simp [h])), by simp only [exec_stateTransferTimeout, execStateTransferTimeout, h]⟩

/-- A transfer of which no round fits within 60 s fails. -/
theorem stateTransferTimeout_due {t : Nat} (h : s.pair.xferAt = some t) (ht : t + 6000000000 ≤ s.tb.frc) (hf : s.pair.finalAt = none)
    (hr : s.role ≠ .syncing) : exec .stateTransferTimeout s = .next s.xferFails := by
  simp only [exec_stateTransferTimeout, execStateTransferTimeout, h]
  exact congrArg _ ((if_pos (by rw [decide_eq_true ht, hf]; rfl)).trans (if_neg hr))

/-! ### The pair test (R363) -/

/-- Once both results are known the pair acts at the boundary. -/
theorem pairSelftestComplete_both {p a b : Bool} (ht : s.pair.test.isNone = false) (hr : s.role = .active)
    (hu : { s with pair := { s.pair with testOwn := some (s.pair.testOwn.getD p) } } = u) (ha : u.pair.testOwn = some a)
    (hb : u.pair.testPartner = some b) : exec (.pairSelftestComplete p) s = .next (u.toTick.testActs a b) := by
  rw [exec_pairSelftestComplete, execPairSelftestComplete, if_neg (by rw [ht, hr]; decide)]
  subst hu
  have hown : some (s.pair.testOwn.getD p) = some a := ha
  have hpartner : s.pair.testPartner = some b := hb
  simp only [hown, hpartner]

theorem pairSelftestComplete_noTest (p : Bool) (ht : s.pair.test.isNone = true) : exec (.pairSelftestComplete p) s = .next s :=
  congrArg _ (if_pos (by rw [ht]; rfl))

/-! ### The management path (R345, R357) -/

theorem managementPath_off (m : PathMsg) (h : s.bit R.PA_CFG_EN = false) : exec (.managementPathMessageRx m) s = .next s :=
  congrArg _ (if_pos (by simp [h]))

section
variable (hu : s.unit ≠ .off) (hr : s.fw.restarting.contains 0 = false) (he : s.bit R.PA_CFG_EN = true)
include hu hr he

theorem managementPath_heard : ¬ (s.unit == .off || s.fw.restarting.contains 0 || !s.bit R.PA_CFG_EN) = true := by
  rw [hr, he]
  simpa using hu

/-- In RUN a message of the partner's management core has its effect. -/
theorem managementPath_inRun (h : Option Nat) (r : Nat) (hrun : s.inRun = true) :
    exec (.managementPathMessageRx (.prepared h r)) s = .next (s.partnerPrepared h r) ∧
      exec (.managementPathMessageRx .entering) s = .next { s with pair := { s.pair with partnerIn := some true } } ∧
      (∀ m, exec (.managementPathMessageRx (.joinRequest m)) s = .next (s.partnerJoins m)) ∧
      (∀ a b c d, exec (.managementPathMessageRx (.schedule a b c d)) s = .next (s.scheduleFrom a b c d)) ∧
      (∀ a o, exec (.managementPathMessageRx (.scheduled a o)) s = .next (s.scheduleConfirmed a o)) :=
  have heard := managementPath_heard hu hr he
  ⟨congrArg _ (if_neg heard), congrArg _ ((if_neg heard).trans (if_pos hrun)), fun _ => congrArg _ (if_neg heard),
    fun _ _ _ _ => congrArg _ (if_neg heard), fun _ _ => congrArg _ (if_neg heard)⟩

end

end

/-- Settles O25: each transition past its conditions, and without them no change; the management path by the message. -/
theorem pairTransitions : Obligations.PairTransitions :=
  ⟨fun _ _ ht h0 hu he hm hs => failoverCheck_silent ht h0 hu.symm he hm hs, fun _ h => partnerLinksLost_early h,
    fun _ hd ht hr => partnerLinksLost_active hd ht hr, fun _ hd hr ht => partnerLinksLost_standby hd hr ht,
    fun _ => ⟨rfl, rfl, rfl⟩, fun _ h => handoverTakesEffect_notCommitted h,
    fun _ _ h2 hf hr hu hur => handoverTakesEffect_standby h2 hf hr hu.symm hur,
    fun _ hb hp hr ha ht => pairRevert_due hb hp hr ha ht, fun _ hr => pairRevert_notStandby hr,
    fun _ q hu he => paCmdJoin_stop q hu he, fun _ q hu => join_outsideStop q hu,
    fun _ q _ hs ha hu he hup ht => autojoin_due q hs ha hu he hup ht, fun _ hr hm hc ha => standbyPromotion_agreed hr hm hc ha,
    fun _ hr => standbyPromotion_notSyncing hr, fun _ gs h => stateTransferRound_none gs h,
    fun _ _ _ _ h h3 hj hu => stateTransferRound_joining h h3 hj hu.symm, fun _ x _ h hj => stateTransferFinal_joining x h hj,
    fun _ x h => stateTransferEnds_none x h, fun _ _ h ht hf hr => stateTransferTimeout_due h ht hf hr,
    fun _ _ _ _ _ ht hr hu ha hb => pairSelftestComplete_both ht hr hu.symm ha hb, fun _ p ht => pairSelftestComplete_noTest p ht,
    fun _ m h => managementPath_off m h, fun _ h r hu hr he hrun => managementPath_inRun hu hr he h r hrun⟩

end Sys2Proof.Proofs
end

section
/-! SUPPORT. The statements about the metrology compartment and the front indicator: the metering registers, seal, service window and mailbox, the
gateway. -/

namespace Sys2Proof.Proofs

open Sys2Proof Sys2Proof.Machine Sys2Proof.Safety Sys2Proof.Laws

/-! ### The metering registers (R413, R417) -/

/-- A command that meters nothing leaves the registers: it keeps whatever registers are named. -/
theorem exec_met_regs {s t : State} (c : Instr) (hc : metersEnergy c = false) (e : exec c s = .next t) : t.met.regs = s.met.regs := by
  have hs : Keeps (False, s.pending, some s.met.regs) s := ⟨False.elim, rfl, fun _ h => Option.some.inj h⟩
  exact ((exec_keeps c hs (.inr hc)).next t e).2.2 _ rfl

/-- Below 2^64 an amount metered is added in whole, quotient and residue together. -/
theorem regAdd_of_fits {x : Nat} {r : Nat × Nat} (h : r.1 + (r.2 + x) / 3600000000 < 2 ^ 64) :
    r.1 ≤ (regAdd x r).1 ∧ (regAdd x r).1 * 3600000000 + (regAdd x r).2 = r.1 * 3600000000 + r.2 + x := by
  have hsplit : (r.2 + x) / 3600000000 * 3600000000 + (r.2 + x) % 3600000000 = r.2 + x := Nat.div_add_mod' _ _
  rw [regAdd, Nat.mod_eq_of_lt h]
  refine ⟨Nat.le_add_right _ _, ?_⟩
  calc (r.1 + (r.2 + x) / 3600000000) * 3600000000 + (r.2 + x) % 3600000000
      = r.1 * 3600000000 + ((r.2 + x) / 3600000000 * 3600000000 + (r.2 + x) % 3600000000) := by
        rw [Nat.add_mul, Nat.add_assoc]
    _ = r.1 * 3600000000 + r.2 + x := by rw [hsplit, Nat.add_assoc]

/-- Settles O60: what every command keeps, taken with the state's own registers, and the law of an addition. -/
theorem onlyMeteringChangesTheRegisters : Obligations.OnlyMeteringChangesTheRegisters :=
  ⟨fun _ _ c hc e => exec_met_regs c hc e, fun _ _ h => regAdd_of_fits h⟩

/-! ### Cover, lid and reseal (R431, R433, R434) -/

section
variable {s u v : State}

/-- A row of the compartment on its build, with the supply where it needs it; elsewhere nothing happens (R1). -/
theorem metRow_of_supplied {supply : Bool} {f : State → State} (h : supply = false ∨ s.met.powered = true) :
    s.metRow supply f = .next (if Config.variantM then f s else s) := by
  have hrow : (!supply || s.met.powered) = true := by rcases h with h | h <;> simp [h]
  rw [State.metRow, hrow, Bool.and_true]

/-- The same with the row's effect named. -/
theorem metRow_next {supply : Bool} {f : State → State} (h : supply = false ∨ s.met.powered = true) (hf : f s = u) :
    s.metRow supply f = .next (if Config.variantM then u else s) := by
  rw [metRow_of_supplied h, hf]

theorem sealCoverOpen_seen (hp : s.met.powered = true) (hl : s.met.latch = false)
    (hu : { s with met := { s.met with cover := true, latch := true, counted := s.met.counted && !true } } = u)
    (hv : { u with met := { u.met with counted := true, sealCount := (u.met.sealCount + 1) % 2 ^ 32 } } = v) :
    exec .sealCoverOpen s = .next (if Config.variantM then (v.audit 0x0010 0xFF 0 0).profileFlags.metEvents.dgLegal else s) := by
  subst hu
  subst hv
  rw [exec_sealCoverOpen, execSealCoverOpen]
  refine metRow_next (.inl rfl) ?_
  simp only [hl, Bool.not_false]
  exact if_pos hp

/-- The cover of an open latch is noted alone. -/
theorem sealCoverOpen_open (hl : s.met.latch = true) :
    exec .sealCoverOpen s = .next (if Config.variantM
      then { s with met := { s.met with cover := true, latch := true, counted := s.met.counted && !false } } else s) := by
  rw [exec_sealCoverOpen, execSealCoverOpen]
  refine metRow_next (.inl rfl) ?_
  simp only [hl, Bool.not_true, Bool.false_and, Bool.false_eq_true, if_false]

theorem sealCoverClose_unarmed (h : s.met.armed = none) :
    exec .sealCoverClose s = .next (if Config.variantM then { s with met := { s.met with cover := false } } else s) := by
  rw [exec_sealCoverClose, execSealCoverClose]
  refine metRow_next (.inl rfl) ?_
  simp only [h]

/-- An armed reseal returns the latch. -/
theorem sealCoverClose_armed {n t : Nat} (hp : s.met.powered = true) (ha : s.met.armed = some (n, t)) (hl : s.met.latch = true)
    (ht : s.met.up < t + 120000000)
    (hu : { s with met := { s.met with cover := false, latch := false, counted := false, armed := none } } = u) :
    exec .sealCoverClose s = .next (if Config.variantM then (u.audit 0x0011 0xFF 0 n).metEvents.dgLegal else s) := by
  subst hu
  rw [exec_sealCoverClose, execSealCoverClose]
  refine metRow_next (.inl rfl) ?_
  simp only [ha]
  exact if_pos (by rw [hp, hl, decide_eq_true ht]; rfl)

theorem resealArmExpiry_due {n t : Nat} (hp : s.met.powered = true) (ha : s.met.armed = some (n, t)) (ht : t + 120000000 ≤ s.met.up) :
    exec .resealArmExpiry s = .next (if Config.variantM then { s with met := { s.met with armed := none } } else s) := by
  rw [exec_resealArmExpiry, execResealArmExpiry]
  refine metRow_next (.inr hp) ?_
  simp only [ha, if_pos ht]

theorem resealArmExpiry_unarmed (hp : s.met.powered = true) (ha : s.met.armed = none) :
    exec .resealArmExpiry s = .next (if Config.variantM then s else s) := by
  rw [exec_resealArmExpiry, execResealArmExpiry]
  refine metRow_next (.inr hp) ?_
  simp only [ha]

/-- The lid's first opening is logged. -/
theorem lidOpen_first (hp : s.met.powered = true) (hl : s.met.lid = false) :
    exec .lidOpen s = .next (if Config.variantM then
      (State.audit { s with met := { s.met with lid := true, lidLogged := true } } 0x0012 0xFF 0 0).profileFlags.metEvents.dgLegal else s) := by
  rw [exec_lidOpen, execLidOpen]
  refine metRow_next (.inl rfl) ?_
  simp only [hl, hp, Bool.false_eq_true, if_false, if_true]

theorem lidOpen_again (hl : s.met.lid = true) : exec .lidOpen s = .next (if Config.variantM then s else s) := by
  rw [exec_lidOpen, execLidOpen]
  exact metRow_next (.inl rfl) (if_pos hl)

/-! ### The service window (R432) -/

theorem serviceWindowWrite_closed (i y v n : Nat) (hp : s.met.powered = true) (hl : s.met.latch = false) :
    exec (.serviceWindowWrite i y v n) s = .next (if Config.variantM then s else s) := by
  rw [exec_serviceWindowWrite, execServiceWindowWrite]
  exact metRow_next (.inr hp) (if_pos (by simp [hl]))

/-- With the latch OPEN a write of parameter 12 waits for the interval's boundary, and is logged with the value before it. -/
theorem serviceWindowWrite_reseal (y : Nat) {v n : Nat} (hp : s.met.powered = true) (hl : s.met.latch = true) (hr : metRange 12 v n = true)
    (hf : s.logFull = false) :
    exec (.serviceWindowWrite 12 y v n) s = .next (if Config.variantM then
      (State.metEvents (State.audit { s with met := { s.met with waiting := s.met.waiting ++ [(12, 0xFF, v, 0)] } } 0x0020 0xFF
        (((s.met.waiting.reverse.find? (fun w => w.1 == 12)).map (·.2.2.1)).getD ((s.met.armed.map (·.1)).getD 0)) v)) else s) := by
  rw [exec_serviceWindowWrite, execServiceWindowWrite]
  exact metRow_next (.inr hp) ((if_neg (by simp [hl, hr, hf])).trans (if_pos rfl))

theorem serviceWindowRead_clock (y : Nat) (hp : s.met.powered = true) :
    exec (.serviceWindowRead 11 y) s =
      .next (if Config.variantM then s.emit .service .reply [11, s.met.sec, s.met.ns] else s) := by
  rw [exec_serviceWindowRead, execServiceWindowRead]
  exact metRow_next (.inr hp) rfl

/-! ### The module's mailbox (R423, R424, R438) -/

theorem mgRecordRx_bad (d : Bytes) :
    exec (.mgRecordRx d false) s = .next (if Config.variantM then (s.wr R.MG_STATUS_CRC_ERR 1).inc R.MG_CRC else s) := by
  rw [exec_mgRecordRx, execMgRecordRx]
  exact metRow_next (.inl rfl) rfl

theorem mgRecordRx_good (d : Bytes) (hv : s.inc R.MG_RECEIVED = v)
    (hu : { v with mg := { v.mg with lastGood := some v.tb.frc } } = u) :
    exec (.mgRecordRx d true) s = .next (if Config.variantM then ((u.wr R.MG_STATUS_SEAL_FLAG (leNat ((d.drop 7).take 1) % 2)).wr
      R.MG_STATUS_LID_FLAG (leNat ((d.drop 7).take 1) / 32 % 2)).mgStore d else s) := by
  subst hv
  subst hu
  rw [exec_mgRecordRx, execMgRecordRx]
  exact metRow_next (.inl rfl) rfl

theorem mgRxPop_next :
    exec .mgRxPop s = .next (if Config.variantM then (State.mgShow { s with mg := { s.mg with queue := s.mg.queue.drop 1 } }) else s) := by
  rw [exec_mgRxPop, execMgRxPop]
  exact metRow_next (.inl rfl) rfl

theorem recordVerify_none (ok : Bool) (h : s.mg.queue = []) :
    exec (.recordVerify ok) s = .next (if Config.variantM then s else s) := by
  rw [exec_recordVerify, execRecordVerify]
  refine metRow_next (.inl rfl) ?_
  simp only [h]

/-- A record whose signature fails is journalled with its INDEX. -/
theorem recordVerify_fails {r : MgRecord} {l : List MgRecord} (h : s.mg.queue = r :: l)
    (hu : State.mgShow { s with mg := { s.mg with queue := l } } = u) :
    exec (.recordVerify false) s =
      .next (if Config.variantM then u.journal 0x10 .failure [leNat ((r.data.drop 0x0C).take 4)] else s) := by
  rw [exec_recordVerify, execRecordVerify]
  refine metRow_next (.inl rfl) ?_
  simp only [h, hu, Bool.false_and, Bool.not_false, if_true]

end

section
variable (s : State)

@[simp] theorem inc_mg (q : RegRow) (i j : Nat) : (s.inc q i j).mg = s.mg := by
  unfold State.inc
  split <;> rfl

theorem foldl_mg {α : Type} {f : State → α → State} (hf : ∀ s a, (f s a).mg = s.mg) (l : List α) : (l.foldl f s).mg = s.mg := by
  induction l generalizing s with
  | nil => rfl
  | cons a l ih => rw [List.foldl_cons, ih, hf]

@[simp] theorem mgShow_mg : s.mgShow.mg = s.mg := by
  unfold State.mgShow
  dsimp only
  split <;> rfl

@[simp] theorem journal_mg (n : Nat) (e : JEvent) (d : List Nat) (x y : Nat) : (s.journal n e d x y).mg = s.mg := by
  unfold State.journal
  dsimp only
  split
  · rfl
  · exact inc_mg _ _ _ _

@[simp] theorem notify_mg (g op st : Nat) (ps : List Nat) : (s.notify g op st ps).mg = s.mg := by
  unfold State.notify
  exact foldl_mg s (fun s x => emit_mg s _ _ _ _) _

@[simp] theorem closeSession_mg (n : Nat) : (s.closeSession n).mg = s.mg := by
  unfold State.closeSession
  dsimp only
  split <;> rfl

/-- A report of the seal leaves the records that wait. -/
theorem sealReport_queue (b : Bool) : (s.sealReport b).mg.queue = s.mg.queue := by
  unfold State.sealReport
  dsimp only
  split
  · rw [journal_mg, notify_mg]
  · split
    · rw [foldl_mg _ (fun s (x : Session) => closeSession_mg s x.id)]
    · rfl

end

/-- However the head record verifies, it is taken off the queue. -/
theorem recordVerify_takes {s : State} (ok : Bool) {r : MgRecord} {l : List MgRecord} (h : s.mg.queue = r :: l) :
    ∃ t, exec (.recordVerify ok) s = .next t ∧ (Config.variantM = true → t.mg.queue = l) := by
  rw [exec_recordVerify, execRecordVerify]
  refine ⟨_, metRow_of_supplied (.inl rfl), fun hv => ?_⟩
  rw [if_pos hv]
  simp only [h]
  split
  · rw [journal_mg, mgShow_mg]
  · rw [sealReport_queue]
    split <;> simp only [mgShow_mg]

/-- Settles O30: cover and lid by the latch and the supply, the window by the latch, the mailbox by the frame and the head record. -/
theorem sealServiceWindowAndMailbox : Obligations.SealServiceWindowAndMailbox :=
  ⟨fun _ _ _ hp hl hu hv => sealCoverOpen_seen hp hl hu.symm hv.symm, fun _ hl => sealCoverOpen_open hl,
    fun _ i y v n hp hl => serviceWindowWrite_closed i y v n hp hl, fun _ y _ _ hp hl hr hf => serviceWindowWrite_reseal y hp hl hr hf,
    fun _ y hp => serviceWindowRead_clock y hp, fun _ _ _ hp ha ht => resealArmExpiry_due hp ha ht,
    fun _ hp ha => resealArmExpiry_unarmed hp ha, fun _ _ _ _ hp ha hl ht hu => sealCoverClose_armed hp ha hl ht hu.symm,
    fun _ h => sealCoverClose_unarmed h, fun _ hp hl => lidOpen_first hp hl, fun _ hl => lidOpen_again hl,
    fun _ d => mgRecordRx_bad d, fun _ _ _ d hv hu => mgRecordRx_good d hv.symm hu.symm, fun _ => mgRxPop_next,
    fun _ ok h => recordVerify_none ok h, fun _ _ _ _ h hu => recordVerify_fails h hu.symm, fun _ ok _ _ h => recordVerify_takes ok h⟩

/-! ### Rectangles (R443 to R446) -/

section
variable {s : State} {f : Flight} (temp : Int)

theorem rectangleStart_runs (h : s.fw.restarting.contains 6 = false) : exec (.rectangleStart temp) s = .next (s.dgStart temp) :=
  congrArg _ (if_neg (Bool.eq_false_iff.1 h))

theorem rectangleStart_restarting (h : s.fw.restarting.contains 6 = true) : exec (.rectangleStart temp) s = .next s :=
  congrArg _ (if_pos h)

theorem rectangleComplete_noFlight (h : firstDone s.disp.flight = none) : exec .rectangleComplete s = .next s := by
  simp only [exec_rectangleComplete, execRectangleComplete, h]

/-- A rectangle smaller than the panel stands on it and is reported; it ends no start repaint. -/
theorem rectangleComplete_paints (hf : firstDone s.disp.flight = some f) (ht : f.done ≤ s.tb.frc) (hh : f.rect.h ≠ 240) :
    exec .rectangleComplete s = .next
      ((State.dgPainted { s with disp := { s.disp with flight := s.disp.flight.erase f } } f.rect).dgReportAll [f.rect] 0).dgUpdate := by
  simp only [exec_rectangleComplete, execRectangleComplete, hf, if_neg (Nat.not_lt.2 ht), if_neg hh]

end

/-! ### Pages, rails, the crack loop and the start repaint (R441, R448 to R451) -/

section
variable {s u v : State}

theorem legalPageAdvance_due (hr : s.disp.ready = true) (ht : s.disp.pageAt + 1000000000 ≤ s.tb.frc) :
    exec .legalPageAdvance s = .next (if Config.variantM then
      State.dgLegal { s with disp := { s.disp with page := nextPage s.met.params.pages s.disp.page, pageAt := s.tb.frc } } else s) := by
  have hdue : (Config.variantM && s.disp.ready && decide (s.disp.pageAt + 1000000000 ≤ s.tb.frc)) = Config.variantM := by
    rw [hr, decide_eq_true ht, Bool.and_true, Bool.and_true]
  rw [exec_legalPageAdvance, execLegalPageAdvance, hdue]

theorem legalPageAdvance_notReady (hr : s.disp.ready = false) : exec .legalPageAdvance s = .next s :=
  congrArg _ (if_neg (by rw [hr, Bool.and_false, Bool.false_and]; decide))

theorem pumpRelease_early (ht : s.tb.frc < s.disp.pumpAt + 100000000) : exec .pumpRelease s = .next s :=
  congrArg _ (if_neg (by rw [decide_eq_false (Nat.not_le.2 ht), Bool.and_false]; decide))

theorem pumpRelease_takesBack (hf : s.disp.flight = []) (ht : s.disp.pumpAt + 100000000 ≤ s.tb.frc) :
    exec .pumpRelease s = .next (State.dgUpdate { s with disp := { s.disp with pump := false } }) :=
  congrArg _ (if_pos (by rw [hf, decide_eq_true ht]; rfl))

theorem pumpRelease_inFlight {f : Flight} {fs : List Flight} (hf : s.disp.flight = f :: fs) : exec .pumpRelease s = .next s :=
  congrArg _ (if_neg (by rw [hf, List.isEmpty_cons, Bool.false_and]; decide))

theorem crackCheck_broken (hr : s.disp.ready = true) (hc : s.disp.crack = false) : exec (.crackCheck true) s = .next s.dgCrack :=
  congrArg _ (if_pos (by rw [hr, hc]; decide))

theorem crackCheck_whole : exec (.crackCheck false) s = .next s.dgUpdate := rfl

/-- A start with the loop whole reports what was lost and repaints the whole panel. -/
theorem startRepaint_starts (temp : Int) (hr : s.disp.ready = false) (hp : s.met.powered = true)
    (hu : { s with disp := { s.disp with ready := true, crack := false, repaint := true, lost := [], page := nextPage s.met.params.pages 7,
                                         pageAt := s.tb.frc } } = u)
    (hv : s.disp.lost.foldl (fun s t => s.dgReport t 3)
      { u with disp := { u.disp with want := u.legalVals, wantAt := (u.met.sec, u.met.ns), legalWait := false } } = v) :
    exec (.startRepaint temp false) s =
      .next (State.dgStart { v with disp := { v.disp with redo := [v.wholeRect] } } temp).dgUpdate := by
  subst hu
  subst hv
  exact congrArg _ (if_neg (by rw [hr, hp, Bool.not_true, Bool.and_false]; decide))

theorem startRepaint_ready (temp : Int) (b : Bool) (hr : s.disp.ready = true) : exec (.startRepaint temp b) s = .next s :=
  congrArg _ (if_pos (by rw [hr, Bool.true_or]))

end

/-- Settles O26: the gateway by the flight, the controller's readiness and the times; the packets by `command_next`. -/
theorem indicatorGateway : Obligations.IndicatorGateway :=
  ⟨fun _ => rfl, fun _ => rfl, fun _ temp h => rectangleStart_runs temp h, fun _ temp h => rectangleStart_restarting temp h,
    fun _ h => rectangleComplete_noFlight h, fun _ _ hf ht hh => rectangleComplete_paints hf ht hh,
    fun _ hr ht => legalPageAdvance_due hr ht, fun _ hr => legalPageAdvance_notReady hr, fun _ => rfl,
    fun _ _ ht => pumpRelease_early ht, fun _ hf ht => pumpRelease_takesBack hf ht, fun _ _ _ hf => pumpRelease_inFlight hf,
    fun _ hr hc => ⟨crackCheck_broken hr hc, crackCheck_whole⟩,
    fun _ _ _ temp hr hp hu hv => startRepaint_starts temp hr hp hu.symm hv.symm, fun _ temp b hr => startRepaint_ready temp b hr,
    fun _ _ _ _ _ _ _ hp => command_next hp (by decide) rfl, fun _ _ hp => command_next hp (by decide) rfl,
    fun _ _ hp => command_next hp (by decide) rfl⟩

end Sys2Proof.Proofs
end

section
/-! SUPPORT. The statements about start-up, updates and wear: node images and recovery, health, spares and the journal. -/

namespace Sys2Proof.Proofs

open Sys2Proof Sys2Proof.Machine Sys2Proof.Safety Sys2Proof.Laws

/-! ### Node images (R468) -/

section
variable {s : State} {p : Nat}

theorem nodeImageSend_steps {f : FwImage} (hn : s.fw.node = some f) (hp : p < 8) : exec (.nodeImageSend p) s = .next (s.nodeStep p f) := by
  simp only [exec_nodeImageSend, execNodeImageSend, hn, if_pos hp]

theorem nodeImageSend_none (p : Nat) (hn : s.fw.node = none) : exec (.nodeImageSend p) s = .next s := by
  simp only [exec_nodeImageSend, execNodeImageSend, hn]

end

/-! ### Recovery (R470 to R472) -/

section
variable {s : State} (hu : s.unit ≠ .recovery)
include hu

/-- Outside RECOVERY the test that each recovery request begins with holds. -/
theorem notRecovery_eq_true : (s.unit != .recovery) = true := bne_iff_ne.2 hu

theorem recovery_requests_outside (p n o h : Nat) (d : Bytes) (c : Content) :
    exec .recoveryInfo s = .next s ∧ exec (.recoveryBegin p n) s = .next s ∧ exec (.recoveryData o d) s = .next s ∧
      exec (.recoveryEnd h c) s = .next s ∧ exec .recoveryRestart s = .next s := by
  have hb := notRecovery_eq_true hu
  exact ⟨congrArg _ (if_pos hb), congrArg _ (if_pos hb), congrArg _ (if_pos hb), congrArg _ (if_pos hb), congrArg _ (if_pos hb)⟩

end

section
variable {s u : State} (hu : s.unit = .recovery) {x : RecXfer}
include hu

theorem notRecovery_ne_true : ¬(s.unit != .recovery) = true := by simp [hu]

/-- The bank of a failed part is erased and its transfer opens. -/
theorem recoveryBegin_erases {a p n : Nat} (ha : partIndex a = some p) (hp : bitOf (s.rd R.BT_STATUS_FAILED_PARTS) p = true)
    (hn : n ≤ partSize p) (hv : s.setBank p (s.recBank p) none = u) :
    exec (.recoveryBegin a n) s = .next (State.recReply
      { u with fw := { u.fw with
        recXfer := some { part := p, bank := s.recBank p, len := n, data := [], at_ := u.tb.frc }
        written := u.fw.written.filter (fun w => w.1 != p) } } 2 0) := by
  subst hv
  rw [exec_recoveryBegin, execRecoveryBegin, if_neg (notRecovery_ne_true hu)]
  simp only [ha, hp, Bool.not_true, Bool.and_false, Bool.false_eq_true, if_false, if_neg (Nat.not_lt.2 hn)]

theorem recoveryData_noTransfer (o : Nat) (d : Bytes) (hx : s.fw.recXfer = none) :
    exec (.recoveryData o d) s = .next (s.recReply 3 0x0401) := by
  rw [exec_recoveryData, execRecoveryData, if_neg (notRecovery_ne_true hu)]
  simp only [hx]

/-- Data that begin where the previous request ended are appended. -/
theorem recoveryData_continues {d : Bytes} (hx : s.fw.recXfer = some x) (hd : d.length ≤ 1024) (hl : x.data.length + d.length ≤ x.len) :
    exec (.recoveryData x.data.length d) s = .next (State.recReply
      { s with fw := { s.fw with recXfer := some { x with data := x.data ++ d, at_ := s.tb.frc } } } 3 0) := by
  rw [exec_recoveryData, execRecoveryData, if_neg (notRecovery_ne_true hu)]
  simp only [hx, if_neg (Nat.not_lt.2 hd), bne_self_eq_false, decide_eq_false (Nat.not_lt.2 hl), Bool.or_self, Bool.false_eq_true, if_false]

theorem recoveryEnd_noTransfer (h : Nat) (c : Content) (hx : s.fw.recXfer = none) :
    exec (.recoveryEnd h c) s = .next (s.recReply 4 0x0401) := by
  rw [exec_recoveryEnd, execRecoveryEnd, if_neg (notRecovery_ne_true hu)]
  simp only [hx]

theorem recoveryEnd_short (h : Nat) (c : Content) (hx : s.fw.recXfer = some x) (hl : x.data.length < x.len) :
    exec (.recoveryEnd h c) s = .next (s.recReply 4 0x0402) := by
  rw [exec_recoveryEnd, execRecoveryEnd, if_neg (notRecovery_ne_true hu)]
  simp only [hx, if_pos hl]

theorem recoveryEnd_badHash {h : Nat} (c : Content) (hx : s.fw.recXfer = some x) (hl : x.len ≤ x.data.length)
    (hh : Config.sha384 x.data ≠ h) :
    exec (.recoveryEnd h c) s = .next (State.recReply { s with fw := { s.fw with recXfer := none } } 4 0x0403) := by
  rw [exec_recoveryEnd, execRecoveryEnd, if_neg (notRecovery_ne_true hu)]
  simp only [hx, if_neg (Nat.not_lt.2 hl), if_pos (bne_iff_ne.2 hh)]

/-- A transfer that is complete and has the hash announced closes, and its image is written if it verifies. -/
theorem recoveryEnd_verified (c : Content) (hx : s.fw.recXfer = some x) (hl : x.len ≤ x.data.length) :
    exec (.recoveryEnd (Config.sha384 x.data) c) s = .next (let u : State := { s with fw := { s.fw with recXfer := none } }
      match contentOf x.data c with
      | .part f =>
        if u.stageVerifies x.part f = true then
          let v := u.setBank x.part x.bank (some f)
          State.recReply { v with fw := { v.fw with written := (x.part, x.bank) :: v.fw.written } } 4 0
        else u.verifyFailed.recReply 4 0x0408
      | _ => u.verifyFailed.recReply 4 0x0408) := by
  rw [exec_recoveryEnd, execRecoveryEnd, if_neg (notRecovery_ne_true hu)]
  cases hc : contentOf x.data c <;> simp only [hx, hc, if_neg (Nat.not_lt.2 hl), bne_self_eq_false, Bool.false_eq_true, if_false]

theorem recoveryRestart_resets (hv : s.recReply 5 0 = u) :
    exec .recoveryRestart s = .next (State.mrst (u.fw.written.foldl (fun s w => s.wr R.BT_PART_ACTIVE w.2 w.1) u) 2) := by
  subst hv
  exact congrArg _ (if_neg (notRecovery_ne_true hu))

end

section
variable {s : State}

theorem recoveryIdleTimeout_noTransfer (hx : s.fw.recXfer = none) : exec .recoveryIdleTimeout s = .next s := by
  simp only [exec_recoveryIdleTimeout, execRecoveryIdleTimeout, hx]

theorem recoveryIdleTimeout_due {x : RecXfer} (hx : s.fw.recXfer = some x) (ht : x.at_ + 1000000000 ≤ s.tb.frc) :
    exec .recoveryIdleTimeout s = .next { s with fw := { s.fw with recXfer := none } } := by
  simp only [exec_recoveryIdleTimeout, execRecoveryIdleTimeout, hx, if_pos ht]

end

/-- Settles O35: the node image by its port, the recovery requests by the unit's state, the transfer and its data. -/
theorem nodeImagesAndRecovery : Obligations.NodeImagesAndRecovery :=
  ⟨fun _ _ _ hn hp => nodeImageSend_steps hn hp, fun _ p hn => nodeImageSend_none p hn,
    fun _ p n o h d c hu => recovery_requests_outside hu p n o h d c, fun _ hu => congrArg _ (if_neg (notRecovery_ne_true hu)),
    fun _ _ _ _ _ hu ha hp hn hv => recoveryBegin_erases hu ha hp hn hv.symm,
    fun _ o d h c hu hx => ⟨recoveryData_noTransfer hu o d hx, recoveryEnd_noTransfer hu h c hx, recoveryIdleTimeout_noTransfer hx⟩,
    fun _ _ _ hu hx hd hl => recoveryData_continues hu hx hd hl, fun _ _ h c hu hx hl => recoveryEnd_short hu h c hx hl,
    fun _ _ c hu hx hl => recoveryEnd_verified hu c hx hl, fun _ _ _ c hu hx hl hh => recoveryEnd_badHash hu c hx hl hh,
    fun _ _ hu hv => recoveryRestart_resets hu hv.symm, fun _ _ hx ht => recoveryIdleTimeout_due hx ht⟩

/-! ### Switch-ins (R487 to R489, R495) -/

section
variable {s u v : State} {k i : Nat}

theorem hsSwitchStart_locked (k i : Nat) (hl : s.lockOpen = false) (hw : s.hsWaits = false) :
    exec (.hsSwitchStart k i) s = .next (s.hsStart (s.rd R.HS_SWITCH_KIND) (s.rd R.HS_SWITCH_INDEX)) := by
  simp only [exec_hsSwitchStart, execHsSwitchStart, hl, hw, Bool.false_eq_true, if_false]

/-- With the lock open KIND and INDEX are taken from the word; in BOOT and RECOVERY the switch-in waits. -/
theorem hsSwitchStart_waits (hl : s.lockOpen = true) (hu : (s.wr R.HS_SWITCH_KIND k).wr R.HS_SWITCH_INDEX i = u) (hw : u.hsWaits = true) :
    exec (.hsSwitchStart k i) s =
      .next ((u.hsOrder (u.rd R.HS_SWITCH_KIND) (u.rd R.HS_SWITCH_INDEX)).wr R.HS_SWITCH_STATUS_STATE 1) := by
  simp only [exec_hsSwitchStart, execHsSwitchStart, hl, if_true, hu, hw]

theorem switchInCommit_none (k : Nat) (h : s.hs.switches = []) : exec (.switchInCommit k) s = .next s := by
  simp only [exec_switchInCommit, execSwitchInCommit, h, List.find?_nil]

/-- A switch-in of a kind with no machinery of its own enters the map and uses up its spare. -/
theorem switchInCommit_maps {sp : Nat} {rdy : Bool} (hx : s.hs.switches.find? (fun x => x.kind == k) = some ⟨k, i, sp, rdy⟩)
    (hr : s.hsReady ⟨k, i, sp, rdy⟩ = true) (hk : 3 ≤ k)
    (hu : State.hsUse { s.hsPoint k with hs := { (s.hsPoint k).hs with maps := (s.hsPoint k).hs.maps ++ [(k, i, sp)] } } k = u)
    (hv : { u with hs := { u.hs with
      switches := u.hs.switches.filter (fun y => y.kind != k)
      beyond := u.hs.beyond.filter (fun b => !(b.1 == k && b.2.1 == i))
      warned := u.hs.warned.filter (fun w => w != (k, i)) } } = v) :
    exec (.switchInCommit k) s =
      .next ((v.hsBusy.wr R.HS_SWITCH_STATUS_STATE 3).journal 0x0E .switchIn [k, i, sp]).hsNext := by
  have hm : ¬(k = 0 || k = 1 || k = 2) = true := by
    simp only [Bool.or_eq_true, decide_eq_true_eq]
    omega
  simp only [exec_switchInCommit, execSwitchInCommit, hx, hr, Bool.not_true, Bool.false_eq_true, if_false, if_neg hm, hu, hv]

theorem rowSpareCopy_none (k : Nat) (h : s.hs.switches = []) : exec (.rowSpareCopy k) s = .next s :=
  congrArg _ (if_pos (by rw [h]; rfl))

/-- A row that is not copied yet is copied; out of RUN at once. -/
theorem rowSpareCopy_copies (h3 : 3 ≤ k) (h5 : k ≤ 5) (ha : (s.hs.switches.any (fun x => x.kind == k && !x.ready)) = true)
    (hr : s.inRun = false) :
    exec (.rowSpareCopy k) s = .next (State.wr
      { s with hs := { s.hs with switches := s.hs.switches.map (fun (x : SwitchIn) => if x.kind == k then { x with ready := true } else x) } }
      R.HS_SWITCH_STATUS_STATE 2) := by
  simp only [exec_rowSpareCopy, execRowSpareCopy, h3, h5, decide_true, Bool.and_true, ha, hr, Bool.not_true, Bool.false_eq_true, if_false]

end

/-! ### Wear (R486) -/

section
variable (s : State) {q : RegRow} {i j : Nat}

/-- A counter that counts leaves every field with another key. -/
theorem rd_inc_ne {r : RegRow} {i' j' : Nat} (h : q.key i j ≠ r.key i' j') : (s.inc r i' j').rd q i j = s.rd q i j := by
  unfold State.inc
  split
  · exact rd_wr_ne _ _ _ _ _ _ _ _ h
  · rfl

/-- An entry of the journal leaves every field but the count of those lost. -/
theorem rd_journal (n : Nat) (e : JEvent) (d : List Nat) (x y : Nat) (h : q.key i j ≠ R.HS_JOURNAL_LOST.key 0 0) :
    (s.journal n e d x y).rd q i j = s.rd q i j := by
  unfold State.journal
  dsimp only
  split
  · rfl
  · exact rd_inc_ne _ h

theorem key_thrAct_ne_warn (k : Nat) : R.HS_THR_ACT.key k 0 ≠ R.HS_WARN.key 0 0 := by
  simp only [RegRow.key, RegRow.addr, R.HS_THR_ACT, R.HS_WARN]
  omega

theorem key_thrAct_ne_journalLost (k : Nat) : R.HS_THR_ACT.key k 0 ≠ R.HS_JOURNAL_LOST.key 0 0 := by
  simp only [RegRow.key, RegRow.addr, R.HS_THR_ACT, R.HS_JOURNAL_LOST]
  omega

/-- The warning of a part leaves the thresholds of ACT. -/
theorem thrAct_warned (n k : Nat) (e : JEvent) (d : List Nat) :
    ((s.wr R.HS_WARN n).journal 0x0E e d).rd R.HS_THR_ACT k = s.rd R.HS_THR_ACT k :=
  (rd_journal _ _ _ _ _ _ (key_thrAct_ne_journalLost k)).trans (rd_wr_ne _ _ _ _ _ _ _ _ (key_thrAct_ne_warn k))

end

section
variable {s u v : State} {k i m e : Nat}

theorem wearEvaluation_noKind (i m e : Nat) (f : Bool) (h : 11 ≤ k) : exec (.wearEvaluation k i m e f) s = .next s :=
  congrArg _ (if_pos (by rw [decide_eq_true h, Bool.true_or]))

theorem wearEvaluation_early (m e : Nat) (h : s.evalDue k i false = false) : exec (.wearEvaluation k i m e false) s = .next s :=
  congrArg _ (if_pos (by rw [h, Bool.not_false, Bool.or_true]))

/-- What an evaluation does to the warning of part `i` of kind `k`. -/
def wearWarned (u : State) (k i : Nat) (warn : Bool) : State :=
  if warn && !u.hs.warned.contains (k, i) then
    (State.wr { u with hs := { u.hs with warned := (k, i) :: u.hs.warned } } R.HS_WARN (u.rd R.HS_WARN ||| 2 ^ k)).journal 0x0E .wear [k, i, 1]
  else if warn then u
  else { u with hs := { u.hs with warned := u.hs.warned.filter (fun w => w != (k, i)) } }

/-- What an evaluation does to the run of crossings of part `i` of kind `k`. -/
def wearCounted (v : State) (k i : Nat) (act failed : Bool) : State :=
  let run := ((v.hs.beyond.find? (fun b => b.1 == k && b.2.1 == i)).map (·.2.2)).getD 0
  let rest := v.hs.beyond.filter (fun b => !(b.1 == k && b.2.1 == i))
  if !act then { v with hs := { v.hs with beyond := rest } }
  else
    let counted : State := { v with hs := { v.hs with beyond := (k, i, run + 1) :: rest } }
    if (if wearImmediate k || failed then run == 0 else run + 1 == 3) then counted.wearAct k i else counted

/-- The measure an evaluation of a part takes: a converter's comes from its registers. -/
def wearMeasure (u : State) (k i m : Nat) : Nat := if k = 2 then u.driftPercent i else m

/-- Whether an evaluation crosses ACT. -/
def wearActs (u : State) (k i m e : Nat) (failed : Bool) : Bool :=
  if k = 2 then u.bit R.CH_FLAGS_B14 (i / 8) (i % 8) else wearBeyond k (u.rd R.HS_THR_ACT k) m e || (failed && k == 10)

/-- An evaluation that is due: the warning by WARN, then the run of crossings by ACT. -/
theorem wearEvaluation_due {f : Bool} (hk : k < 11) (hd : s.evalDue k i f = true)
    (hu : { s with hs := { s.hs with evals := (k, i, s.tb.frc) :: s.hs.evals.filter (fun e => !(e.1 == k && e.2.1 == i)) } } = u) :
    exec (.wearEvaluation k i m e f) s = .next (wearCounted
      (wearWarned u k i (wearBeyond k (u.rd R.HS_THR_WARN k) (wearMeasure u k i m) e || f)) k i
      (wearActs u k i (wearMeasure u k i m) e f) f) := by
  subst hu
  exact congrArg _ (if_neg (by rw [hd, decide_eq_false (Nat.not_le.2 hk)]; decide))

theorem wearMeasure_given (h : k ≠ 2) : wearMeasure u k i m = m := if_neg h

theorem wearActs_beyond (h : k ≠ 2) : wearActs u k i m e false = wearBeyond k (u.rd R.HS_THR_ACT k) m e :=
  (if_neg h).trans (by rw [Bool.false_and, Bool.or_false])

/-- An evaluation beyond WARN and not beyond ACT: the warning, and no run of crossings. -/
theorem wearEvaluation_warns (hk : k < 11) (h2 : k ≠ 2) (hd : s.evalDue k i false = true)
    (hu : { s with hs := { s.hs with evals := (k, i, s.tb.frc) :: s.hs.evals.filter (fun e => !(e.1 == k && e.2.1 == i)) } } = u)
    (hw : wearBeyond k (u.rd R.HS_THR_WARN k) m e = true) (hn : u.hs.warned.contains (k, i) = false)
    (hv : State.journal (State.wr { u with hs := { u.hs with warned := (k, i) :: u.hs.warned } } R.HS_WARN (u.rd R.HS_WARN ||| 2 ^ k))
      0x0E .wear [k, i, 1] = v)
    (ha : wearBeyond k (v.rd R.HS_THR_ACT k) m e = false) :
    exec (.wearEvaluation k i m e false) s =
      .next { v with hs := { v.hs with beyond := v.hs.beyond.filter (fun b => !(b.1 == k && b.2.1 == i)) } } := by
  have hact : wearBeyond k (u.rd R.HS_THR_ACT k) m e = false := by
    rw [← hv, thrAct_warned] at ha
    exact ha
  have hwarned : wearWarned u k i true = v := (if_pos (by rw [hn]; decide)).trans hv
  rw [wearEvaluation_due hk hd hu, wearMeasure_given h2, wearActs_beyond h2, hw, hact, Bool.or_false, hwarned]
  rfl

end

/-! ### The journal (R493) -/

section
variable {s : State}

theorem journalFlush_full (h : 16 ≤ s.jr.ram.length) : exec .journalFlush s = .next s.flushJournal :=
  congrArg _ (if_pos (by rw [decide_eq_true h, Bool.true_or]))

theorem journalFlush_empty (h : s.jr.ram = []) : exec .journalFlush s = .next s :=
  congrArg _ (if_neg (by rw [h]; exact Bool.false_ne_true))

end

/-- Settles O28: switch-ins by the lock and what is in progress, wear by its thresholds, the journal by the buffer's length. -/
theorem healthAndSpares : Obligations.HealthAndSpares :=
  ⟨fun _ k i hl hw => hsSwitchStart_locked k i hl hw, fun _ _ _ _ hl hu hw => hsSwitchStart_waits hl hu.symm hw,
    fun _ k h => ⟨switchInCommit_none k h, rowSpareCopy_none k h⟩,
    fun _ _ _ _ _ _ _ hx hr hk hu hv => switchInCommit_maps hx hr hk hu.symm hv.symm,
    fun _ _ h3 h5 ha hr => rowSpareCopy_copies h3 h5 ha hr, fun _ => rfl, fun _ _ i m e f h => wearEvaluation_noKind i m e f h,
    fun _ _ _ m e h => wearEvaluation_early m e h,
    fun _ _ _ _ _ _ _ hk h2 hd hu hw hn hv ha => wearEvaluation_warns hk h2 hd hu.symm hw hn hv.symm ha,
    fun _ h => journalFlush_full h, fun _ h => journalFlush_empty h, fun _ _ _ => rfl, fun _ _ _ _ h => if_pos h,
    fun _ _ _ _ h => if_neg (Nat.not_lt.2 h), fun _ => rfl⟩

end Sys2Proof.Proofs
end
